-- ==== Sys2Proof/Word.lean ====
section
/-!
DEFINITION. Sys2Proof/Word.lean: the word types of the Nienor module (R7, R9).
-/
namespace Sys2Proof

/-- One byte. -/
abbrev Byte := BitVec 8

/-- A 64-bit word: a control register (R9), a descriptor word (R10). -/
abbrev W64 := BitVec 64

/-- A 32-bit word: an F32 or I32 accumulator (R33). -/
abbrev W32 := BitVec 32

end Sys2Proof
end

