-- ==== Sys2Proof/Syntax.lean ====
section
/-!
DEFINITION. Sys2Proof/Syntax.lean: the commands of the Nienor module, one constructor per row of
spec/opcode_table.json, with the operands each row's rule in spec/ gives it. An operand is what the
outside world or the physics supplies at that step: an address, data, a decoded message, a sensor
value, the outcome of a physical test. Indices are `Fin` of the spec's counts, so an index beyond a
unit's count cannot be written down; what is left to check is in WellFormed.lean.
-/
namespace Sys2Proof

abbrev CoreIx := Fin 288
abbrev HarpIx := Fin 8
abbrev RingIx := Fin 64
abbrev PartIx := Fin 16
abbrev StackIx := Fin 12
abbrev ChanIx := Fin 8
abbrev LinkIx := Fin 96
abbrev RegionIx := Fin 64
abbrev RailIx := Fin 8
abbrev PortIx := Fin 2
/-- PCIe function: 0 the physical function, p + 1 the virtual function of partition p (R267). -/
abbrev FnIx := Fin 17

/-- The four atomics of R217. -/
inductive AtomicOp | addI64 | addF64 | swap | cas
deriving DecidableEq, Repr, Inhabited

/-- What the physics does to a line read from its medium: bytes of its 72 B codeword in near memory that differ from what was
written, as index and difference (R205), how often the burst fails its data CRC in a row (R223), and an expander's report in
the CXL tier: 0 clean, 1 corrected, 2 poison (R226). -/
structure Medium where
  errs : List (Nat × Byte)
  crcFails : Nat
  expander : Nat
deriving DecidableEq, Repr, Inhabited

/-- Who makes an access at a home slice (R431, R434). -/
inductive Requester
  | core (c : CoreIx) | mover (c : CoreIx) | kpu (u : StackIx) | dtu | bar2 (fn : FnIx) | peer (m : Fin 32)
  | sarabande
deriving DecidableEq, Repr, Inhabited

/-- Fields of PCIe configuration space that the spec names (R321, R323, R325, R326, R327). -/
inductive CfgField
  | busMasterEnable | vfEnable | relaxedOrderingEnable | bar2SizeLog2Gib | vfBar2SizeLog2Gib
  | completionTimeoutMs | totalVFs | firstVfOffset | vfStride
  | other (n : Nat)
deriving DecidableEq, Repr, Inhabited

/-- How a read on the host link ends (R212, R326). -/
inductive HostReply
  | data (bytes : List Byte) | poisoned (bytes : List Byte) | unsupported | abort | timeout
deriving DecidableEq, Repr, Inhabited

/-- The quiet comparison predicates of IEEE 754-2019 (R66, R86). -/
inductive CmpOp
  | equal | notEqual | less | lessEqual | greater | greaterEqual | unordered | ordered
  | notLess | notLessEqual | notGreater | notGreaterEqual
deriving DecidableEq, Repr, Inhabited

/-- Lane operations of the fiddle unit, element level unless said otherwise (R58, R85, R86, R87). -/
inductive FdlOp
  | add | sub | mul | fma | div | sqrt | min | max | neg | abs | copySign
  /-- a quiet comparison predicate of IEEE 754-2019 (R66, R86) -/
  | cmp (p : CmpOp)
  | iadd | imul | ishl | ishr | iand | ior | ixor | icmpEq | icmpLt
deriving DecidableEq, Repr, Inhabited

/-- A fiddle instruction over vectors in the scratchpad (R58). Addresses are linear (R129); element
vectors are packed under R65. -/
inductive FdlInstr
  /-- lane arithmetic on `n` elements of format `fmt` (F64, F32, F16, BF16, I32, I8) -/
  | arith (op : FdlOp) (fmt : Fin 16) (n : Nat) (a b c dst : Nat)
  /-- conversion between two of the fifteen formats; `errMode` 1 to 3 gathers the squared error of elements at row `row`
  and columns from `col` into the entries at `errVa` (R96) -/
  | convert (src dstFmt : Fin 16) (rtz : Bool) (n : Nat) (a dst : Nat) (errMode : Fin 4) (errVa row col : Nat)
  /-- evaluation of resident table `t` at degree `deg` on F32 elements -/
  | poly (t : Fin 2) (deg : Nat) (n : Nat) (a dst : Nat)
  /-- lane reduction of F32: 0 sum, 1 maximumNumber, 2 minimumNumber -/
  | reduce (kind : Fin 3) (n : Nat) (a dst : Nat)
  /-- block dot of one row of A and one of B, `blocks` 32-element blocks, accumulating at `dst` -/
  | blockDot (fa fb : Fin 16) (blocks : Nat) (a b : Nat) (sa sb : Option Nat) (za zb : Fin 256) (dst : Nat)
  /-- a copy of `n` bytes within the scratchpad: row loads and stores -/
  | move (n : Nat) (src dst : Nat)
  /-- a column load, or with `store` a column store, of `n` words of 8 B: word i of the column lies i rows below `col`, and
  word i of the vector at `vec` + 8 i -/
  | column (store : Bool) (n : Nat) (col vec : Nat)
  /-- gather by index: element i of `dst` is the element of 2^lw bytes at `src` + 2^lw times the I32 index i at `ix` -/
  | gatherIx (lw : Fin 4) (n : Nat) (src ix dst : Nat)
  /-- lane permute: lane i of `dst`, of 2^lw bytes, takes lane index i of `src`, the I32 indices lying at `ix` -/
  | permute (lw : Fin 4) (n : Nat) (src ix dst : Nat)
  /-- an instruction word that the core does not recognise (R462) -/
  | unrecognised (word : W64)
  /-- the normalise prologue of R126 on one row of `n` elements in the intermediate format -/
  | normalise (n : Nat) (x : Nat) (rowAddr parity parts row : Nat) (nElems eps : Nat) (interFmt dstFmt : Fin 16)
      (rtz : Bool) (dst scaleDst : Nat)
deriving DecidableEq, Repr, Inhabited

/-- The message header of R298 with its data. -/
structure Msg where
  type : Nat
  channel : Nat
  final : Bool
  poison : Bool
  partition : Nat
  srcCore : Nat
  order : Nat
  mtag : Nat
  /-- word 1 of the header, whole -/
  word1 : W64
  data : List Byte
deriving DecidableEq, Repr, Inhabited

/-- A frame of R296 on a link: its header, its 25 lines before encryption, what sealed them, and the bytes that the wire
changed. -/
structure Frame where
  seq : Nat
  ack : Nat
  nak : Bool
  keyPhase : Bool
  /-- lines that carry message bytes (LINES_USED) -/
  linesUsed : Nat
  /-- granule at which the first message header of the frame starts, 127 none (FIRST_MSG) -/
  firstMsg : Nat
  crReq : Nat
  crRsp : Nat
  crTile : Nat
  crCtl : Nat
  syncMark : Bool
  syncId : Nat
  /-- the lines that carry message bytes, 64 B each; later lines are zero -/
  lines : List Byte
  /-- key and salt that sealed the frame, and its frame counter (R310); an empty key: the frame is in the clear -/
  key : List Byte
  counter : Nat
  /-- wire bytes changed on the way: index below 1,792 and the difference -/
  errs : List (Nat × Byte)
deriving DecidableEq, Repr, Inhabited

/-- A bank row of near memory: stack, channel, die-select, bank, row (R371, kind 5). -/
structure BankRow where
  stack : Nat
  channel : Nat
  dieSel : Nat
  bank : Nat
  row : Nat
deriving DecidableEq, Repr, Inhabited

/-- Outcome of one run of the known-answer kernels on a core (R401, R404). -/
structure KatRun where
  pass : Bool
  /-- check class of R404 when it failed -/
  cls : Nat
  /-- harps that failed -/
  harps : Nat
  /-- every failure of the run was in a harp -/
  onlyHarps : Bool
deriving DecidableEq, Repr, Inhabited

/-- Causes that end deep sleep (R344). -/
inductive WakeCause | pcie | ranior | poll | maintenance
deriving DecidableEq, Repr, Inhabited

/-- What a PLDM sensor read names (R334). -/
inductive Sensor | inputPower | inputVoltage | inputCurrent | dieTemp | stackTemp (s : StackIx) | powerLimit
deriving DecidableEq, Repr, Inhabited

/-- Who sends a mailbox operation (R335). -/
inductive MbxWho | host | sideband
deriving DecidableEq, Repr, Inhabited

/-- Where a watchpoint stands (R431, R432). -/
inductive WpIx | mem (n : Fin 16) | spd (c : CoreIx) (m : Fin 2)
deriving DecidableEq, Repr, Inhabited

/-- Fatal faults of R392 with the unit that found them (R400). -/
inductive FatalKind
  | clockReference | clockPll | tagArray (slice : StackIx) | flitHeader (c : CoreIx) | linkHeader (l : LinkIx)
  | sarabandeState | powerState
deriving DecidableEq, Repr, Inhabited

/-- The commands of spec/opcode_table.json in the table's order; each docstring gives the row's rule. -/
inductive Instr
  /-- REGISTER_WRITE (R10) -/
  | registerWrite (fn : FnIx) (off size : Nat) (v : W64) (poison : Bool := false)
  /-- REGISTER_READ_CLEAR (R10) -/
  | registerReadClear (fn : FnIx) (off size : Nat)
  /-- BAR_ATOMICOP (R325) -/
  | barAtomicop (fn : FnIx) (bar : Nat) (off size : Nat) (op : AtomicOp) (operand comparand : W64)
  /-- BAR2_READ (R162), or with `bar4` a read of BAR4 (R238) -/
  | bar2Read (fn : FnIx) (off len : Nat) (bar4 : Bool := false)
  /-- BAR2_WRITE (R161) -/
  | bar2Write (fn : FnIx) (off : Nat) (data : List Byte) (poison relaxed : Bool)
  /-- BAR4_WRITE (R238) -/
  | bar4Write (fn : FnIx) (off : Nat) (data : List Byte) (poison : Bool)
  /-- CONFIG_REQUEST (R323) -/
  | configRequest (fn : FnIx) (field : CfgField) (write : Option Nat)
  /-- HELD_ACCESS_PROCEED (R31) -/
  | heldAccessProceed (n : Nat)
  /-- REMOTE_WRITE_DELIVER (R21) -/
  | remoteWriteDeliver (n : Nat)
  /-- PACKET_RELEASE (R23) -/
  | packetRelease (n : Nat)
  /-- PASS_ISSUE (R56) -/
  | passIssue (c : CoreIx) (h : HarpIx) (desc : List W64)
  /-- PASS_HEAD_CHECK (R57) -/
  | passHeadCheck (c : CoreIx) (h : HarpIx)
  /-- SET_FILL_START (R38) -/
  | setFillStart (c : CoreIx) (h : HarpIx)
  /-- SET_FILL_DONE (R37) -/
  | setFillDone (c : CoreIx) (h : HarpIx)
  /-- HARP_K_STEP (R36); `upsets` are the words of the core's scratchpad in which a bit error arises in the cycle, true for
  one that the code cannot correct (R142) -/
  | harpKStep (c : CoreIx) (h : HarpIx) (frameCycle : Fin 16) (feedersReady : Bool) (upsets : List (Nat × Bool) := [])
  /-- SET_DRAIN_START (R37) -/
  | setDrainStart (c : CoreIx) (h : HarpIx)
  /-- SET_DRAIN_DONE (R54) -/
  | setDrainDone (c : CoreIx) (h : HarpIx)
  /-- HARP_INTERNAL_ERROR (R48) -/
  | harpInternalError (c : CoreIx) (h : HarpIx)
  /-- COMMAND_STOPPED (R51) -/
  | commandStopped (w : RingIx)
  /-- FIDDLE_INSTRUCTION (R58) -/
  | fiddleInstruction (c : CoreIx) (i : FdlInstr)
  /-- POLY_TABLE_LOAD (R60) -/
  | polyTableLoad (c : CoreIx) (t : Fin 2) (addr : Nat)
  /-- POLY_TABLE_LOAD_DONE (R461) -/
  | polyTableLoadDone (c : CoreIx)
  /-- EPILOGUE_START (R108) -/
  | epilogueStart (c : CoreIx) (h : HarpIx)
  /-- EPILOGUE_RESULT_COMPLETE (R105) -/
  | epilogueResultComplete (c : CoreIx) (h : HarpIx)
  /-- TILE_SEND (R121) -/
  | tileSend (c : CoreIx) (h : HarpIx) (t : Fin 4)
  /-- OUTPUT_STAGE_RELEASE (R121) -/
  | outputStageRelease (c : CoreIx) (h : HarpIx)
  /-- TILE_CREDIT_TIMEOUT (R122) -/
  | tileCreditTimeout (c : CoreIx) (h : Option HarpIx)
  /-- LANDING_SLOT_ARM (R119) -/
  | landingSlotArm (c : CoreIx) (slot : Fin 16) (words : List W64)
  /-- TILE_IMAGE_LAND (R121): further `words` words of a body, or the header -/
  | tileImageLand (n : Nat) (words : Nat := 1)
  /-- PASS_CREDIT_WAIT_END (R120) -/
  | passCreditWaitEnd (c : CoreIx) (h : HarpIx)
  /-- CREDIT_ARRIVE (R120) -/
  | creditArrive (n : Nat)
  /-- GATHER (R102) -/
  | gather (c : CoreIx) (desc : List W64)
  /-- GATHER_ROW_LAND (R102) -/
  | gatherRowLand (c : CoreIx) (row : Nat)
  /-- SPD_ECC_WRITEBACK (R142) -/
  | spdEccWriteback (c : CoreIx) (word : Nat)
  /-- SPD_CLEAR_DONE (R143) -/
  | spdClearDone (c : CoreIx)
  /-- SEQUENCER_LOAD (R152) -/
  | sequencerLoad (c : CoreIx) (va : Nat)
  /-- SEQUENCER_STORE (R152) -/
  | sequencerStore (c : CoreIx) (va : Nat) (data : List Byte) (final : Bool)
  /-- SEQUENCER_ATOMIC (R217) -/
  | sequencerAtomic (c : CoreIx) (va : Nat) (op : AtomicOp) (operand comparand : W64)
  /-- VOLATILE_READ (R153) -/
  | volatileRead (c : CoreIx) (va : Nat)
  /-- ACQUIRE_READ (R154) -/
  | acquireRead (c : CoreIx) (va : Nat)
  /-- ACQUIRE_INVALIDATE_DONE (R154) -/
  | acquireInvalidateDone (c : CoreIx)
  /-- RANGE_INVALIDATE (R156) -/
  | rangeInvalidate (c : CoreIx) (lo hi : Nat)
  /-- RANGE_INVALIDATE_DONE (R156) -/
  | rangeInvalidateDone (c : CoreIx)
  /-- FENCE (R157) -/
  | fence (c : CoreIx)
  /-- FENCE_COMPLETE (R157) -/
  | fenceComplete (c : CoreIx)
  /-- REMOTE_LOAD (R307) -/
  | remoteLoad (c : CoreIx) (m : Fin 32) (win : Fin 64) (off len : Nat)
  /-- REMOTE_STORE (R307) -/
  | remoteStore (c : CoreIx) (m : Fin 32) (win : Fin 64) (off : Nat) (data : List Byte) (final : Bool)
  /-- REMOTE_ATOMIC (R307) -/
  | remoteAtomic (c : CoreIx) (m : Fin 32) (win : Fin 64) (off : Nat) (op : AtomicOp) (operand comparand : W64)
  /-- REMOTE_COPY (R307) -/
  | remoteCopy (c : CoreIx) (toPeer : Bool) (m : Fin 32) (win : Fin 64) (off va len : Nat)
  /-- FINAL_WRITE_CORE_ARRIVE (R149) -/
  | finalWriteCoreArrive (n : Nat)
  /-- FINAL_WRITE_RELEASE (R148) -/
  | finalWriteRelease (n : Nat)
  /-- FINAL_WRITE_RESEND (R149) -/
  | finalWriteResend (n : Nat)
  /-- FINAL_WRITE_SOURCE_RELEASE (R150) -/
  | finalWriteSourceRelease (n : Nat)
  /-- FINAL_TIMEOUT (R151) -/
  | finalTimeout (n : Nat)
  /-- SLICE_WRITE_LAND (R146) -/
  | sliceWriteLand (n : Nat) (med : Medium := ⟨[], 0, 0⟩)
  /-- SLICE_READ (R215) -/
  | sliceRead (who : Requester) (pa len : Nat) (med : Medium)
  /-- SLICE_ATOMIC (R217) -/
  | sliceAtomic (who : Requester) (pa : Nat) (op : AtomicOp) (operand comparand : W64) (operandPoison : Bool)
      (med : Medium := ⟨[], 0, 0⟩)
  /-- KERNEL_BOUNDARY (R158) -/
  | kernelBoundary (w : RingIx)
  /-- GUARD_COMMIT (R166) -/
  | guardCommit (p : PartIx)
  /-- GUARD_COPY_DONE (R166) -/
  | guardCopyDone (p : PartIx)
  /-- KV_OPEN (R176) -/
  | kvOpen (n : Nat)
  /-- KV_APPEND (R187) -/
  | kvAppend (n : Nat)
  /-- KV_COMMIT (R190) -/
  | kvCommit (n : Nat)
  /-- KV_FORK (R184) -/
  | kvFork (n : Nat)
  /-- KV_TRUNCATE (R186) -/
  | kvTruncate (n : Nat)
  /-- KV_CLOSE (R186) -/
  | kvClose (n : Nat)
  /-- KV_PIN (R186) -/
  | kvPin (n : Nat)
  /-- KV_FETCH (R198) -/
  | kvFetch (c : CoreIx) (desc : List W64)
  /-- KPU_JOURNAL_REPLAY (R196) -/
  | kpuJournalReplay (u : StackIx)
  /-- KPU_RGN_COMMIT (R202) -/
  | kpuRgnCommit (fn : FnIx) (r : RegionIx)
  /-- KPU_RGN_INIT_DONE (R202) -/
  | kpuRgnInitDone (r : RegionIx)
  /-- KPU_RGN_DESTROY_DONE (R202) -/
  | kpuRgnDestroyDone (r : RegionIx)
  /-- CHANNEL_RETRAIN_DONE (R209) -/
  | channelRetrainDone (s : StackIx) (ch : ChanIx) (ok : Bool)
  /-- PATROL_SCRUB_READ (R225) -/
  | patrolScrubRead (med : Medium)
  /-- CCH_FLUSH_START (R218) -/
  | cchFlushStart
  /-- CCH_FLUSH_DONE (R218) -/
  | cchFlushDone
  /-- CCH_WAY_COMMIT (R216) -/
  | cchWayCommit
  /-- MEM_COMMIT (R225) -/
  | memCommit
  /-- CXL_PORT_DOWN (R227) -/
  | cxlPortDown (n : PortIx) (cause : Nat)
  /-- CXL_PORT_UP (R332) -/
  | cxlPortUp (n : PortIx) (type3 mediaReady : Bool) (gib rate width vendor : Nat)
  /-- CXL_PORT_RESET (R333) -/
  | cxlPortReset (n : PortIx)
  /-- CXL_EVENT_LOG_READ (R332) -/
  | cxlEventLogRead (n : PortIx) (events : List (Nat × W64))
  /-- DTU_WALK (R228) -/
  | dtuWalk (who : Requester) (ctx : PartIx) (va : Nat) (write : Bool)
  /-- DTU_WALK_DONE (R232) -/
  | dtuWalkDone (n : Nat)
  /-- DTU_INVALIDATE (R231) -/
  | dtuInvalidate (fn : FnIx) (v : W64)
  /-- DTU_INVALIDATE_DONE (R231) -/
  | dtuInvalidateDone
  /-- DTU_CTX_ROOT_WRITE (R231) -/
  | dtuCtxRootWrite (p : PartIx) (v : W64)
  /-- SARABANDE_WAKE (R239) -/
  | sarabandeWake (w : RingIx)
  /-- RING_POLL (R239) -/
  | ringPoll (w : RingIx) (reply : HostReply)
  /-- SLOT_TAKE (R235) -/
  | slotTake (w : RingIx) (hostWords : List W64)
  /-- RQ_COMMIT (R266) -/
  | rqCommit (fn : FnIx) (w : RingIx)
  /-- RQ_START (R240) -/
  | rqStart (w : RingIx)
  /-- RQ_STOP (R240) -/
  | rqStop (w : RingIx)
  /-- RQ_ABORT (R263) -/
  | rqAbort (w : RingIx)
  /-- RQ_REWIND (R240) -/
  | rqRewind (w : RingIx)
  /-- CQ_COMMIT (R253) -/
  | cqCommit (cq : RingIx)
  /-- SEQ_SCHED_COMMIT (R256) -/
  | seqSchedCommit
  /-- CMD_KERNEL (R243) -/
  | cmdKernel (w : RingIx)
  /-- CMD_COPY (R247) -/
  | cmdCopy (w : RingIx)
  /-- CMD_KV_OPS (R248) -/
  | cmdKvOps (w : RingIx)
  /-- CMD_NOP (R248) -/
  | cmdNop (w : RingIx)
  /-- KERNEL_START (R245) -/
  | kernelStart (w : RingIx)
  /-- KERNEL_BEGIN (R245) -/
  | kernelBegin (w : RingIx)
  /-- END_INSTRUCTION (R246) -/
  | endInstruction (c : CoreIx)
  /-- END_INSTRUCTION_COMPLETE (R246) -/
  | endInstructionComplete (c : CoreIx)
  /-- COMPLETION_RECORD_WRITE (R249) -/
  | completionRecordWrite (w : RingIx)
  /-- CQ_CONTROL_REREAD (R253) -/
  | cqControlReread (cq : RingIx) (reply : HostReply)
  /-- MSIX_HOLDOFF_EXPIRY (R254) -/
  | msixHoldoffExpiry (cq : RingIx)
  /-- MSIX_UNMASK (R324) -/
  | msixUnmask (fn : FnIx) (vector : Fin 2048)
  /-- EVENTS_DROPPED_REPORT (R255) -/
  | eventsDroppedReport
  /-- RESIDENCY_DECISION (R256) -/
  | residencyDecision (p : PartIx)
  /-- BEAT_INSTRUCTION (R259) -/
  | beatInstruction (c : CoreIx)
  /-- CORE_STATE_SAVE_DONE (R260) -/
  | coreStateSaveDone (c : CoreIx)
  /-- JOB_RESUME (R260) -/
  | jobResume (w : RingIx)
  /-- BEAT_LIMIT_EXPIRY (R261) -/
  | beatLimitExpiry (w : RingIx)
  /-- HINT_INSTRUCTION (R358) -/
  | hintInstruction (c : CoreIx) (level : Fin 4) (us : Nat) (stagger : Fin 3)
  /-- SNAPSHOT_INSTRUCTION (R427) -/
  | snapshotInstruction (c : CoreIx)
  /-- TRACE_MARK_INSTRUCTION (R435) -/
  | traceMarkInstruction (c : CoreIx) (a b : W64)
  /-- KV_OP_INSTRUCTION (R178) -/
  | kvOpInstruction (c : CoreIx) (desc : List W64)
  /-- PARTITION_COMMIT (R272) -/
  | partitionCommit (p : PartIx)
  /-- PARTITION_RESET (R274) -/
  | partitionReset (p : PartIx)
  /-- PARTITION_RESET_DONE (R274) -/
  | partitionResetDone (p : PartIx)
  /-- RANGE_COMMIT (R270) -/
  | rangeCommit
  /-- RANGE_CLEAR_DONE (R271) -/
  | rangeClearDone
  /-- ISO_COMMIT (R278) -/
  | isoCommit
  /-- ISO_APPLIED (R276) -/
  | isoApplied
  /-- SEAL_IMPORT_START (R285) -/
  | sealImportStart (p : PartIx)
  /-- SEAL_IMPORT_DONE (R285) -/
  | sealImportDone (p : PartIx) (chunks : Nat := 1)
  /-- SEAL_CLEAR_DONE (R285) -/
  | sealClearDone (p : PartIx)
  /-- SEAL_UNSEAL (R286) -/
  | sealUnseal (p : PartIx) (e : Fin 16)
  /-- ROLLBACK_ADVANCE (R283) -/
  | rollbackAdvance
  /-- ROLLBACK_ADVANCE_DONE (R283) -/
  | rollbackAdvanceDone (ok : Bool)
  /-- GET_VERSION (R287) -/
  | getVersion (fn : FnIx)
  /-- GET_CAPABILITIES (R287) -/
  | getCapabilities (fn : FnIx)
  /-- NEGOTIATE_ALGORITHMS (R287) -/
  | negotiateAlgorithms (fn : FnIx)
  /-- GET_DIGESTS (R287) -/
  | getDigests (fn : FnIx)
  /-- GET_CERTIFICATE (R287) -/
  | getCertificate (fn : FnIx) (slot : Nat) (off len : Nat)
  /-- CHALLENGE (R287) -/
  | challenge (fn : FnIx) (nonce : List Byte)
  /-- GET_MEASUREMENTS (R288) -/
  | getMeasurements (fn : FnIx) (index : Nat) (nonce : List Byte)
  /-- KEY_EXCHANGE (R287) -/
  | keyExchange (fn : FnIx) (exchange : List Byte)
  /-- FINISH (R287) -/
  | finish (fn : FnIx) (verify : List Byte)
  /-- END_SESSION (R287) -/
  | endSession (fn : FnIx)
  /-- SPDM_SIGNATURE_DONE (R282) -/
  | spdmSignatureDone
  /-- GET_TDISP_VERSION (R329) -/
  | getTdispVersion (p : PartIx)
  /-- GET_TDISP_CAPABILITIES (R329) -/
  | getTdispCapabilities (p : PartIx)
  /-- LOCK_INTERFACE_REQUEST (R289) -/
  | lockInterfaceRequest (p : PartIx)
  /-- GET_DEVICE_INTERFACE_REPORT (R329) -/
  | getDeviceInterfaceReport (p : PartIx)
  /-- GET_DEVICE_INTERFACE_STATE (R329) -/
  | getDeviceInterfaceState (p : PartIx)
  /-- START_INTERFACE_REQUEST (R329) -/
  | startInterfaceRequest (p : PartIx)
  /-- STOP_INTERFACE_REQUEST (R289) -/
  | stopInterfaceRequest (p : PartIx)
  /-- IDE_INTEGRITY_FAILURE (R328) -/
  | ideIntegrityFailure (stream : Fin 18)
  /-- DEBUG_ACCESS (R290) -/
  | debugAccess (p : PartIx) (cls : Nat) (requester : Fin 3) (addr : Nat) (c : CoreIx) (data : List Byte)
  /-- LINK_FRAME_SEND (R295) -/
  | linkFrameSend (l : LinkIx)
  /-- LINK_FRAME_RECEIVE (R299) -/
  | linkFrameReceive (l : LinkIx) (f : Frame)
  /-- LINK_ACK_TIMEOUT (R299) -/
  | linkAckTimeout (l : LinkIx)
  /-- LINK_LOSS (R309) -/
  | linkLoss (l : LinkIx) (cause : Nat)
  /-- LINK_LOSS_OF_SIGNAL (R309) -/
  | linkLossOfSignal (l : LinkIx)
  /-- MSG_WRITE (R307) -/
  | msgWrite (l : LinkIx)
  /-- MSG_READ (R307) -/
  | msgRead (l : LinkIx)
  /-- MSG_READ_DATA (R298) -/
  | msgReadData (l : LinkIx)
  /-- MSG_ATOMIC (R307) -/
  | msgAtomic (l : LinkIx)
  /-- MSG_ATOMIC_DATA (R298) -/
  | msgAtomicData (l : LinkIx)
  /-- MSG_WRITE_ACK (R298) -/
  | msgWriteAck (l : LinkIx)
  /-- MSG_TILE (R298) -/
  | msgTile (l : LinkIx)
  /-- MSG_CREDIT (R300) -/
  | msgCredit (l : LinkIx)
  /-- MSG_REFUSED (R307) -/
  | msgRefused (l : LinkIx)
  /-- HELLO (R304) -/
  | hello (l : LinkIx)
  /-- CERT (R310) -/
  | cert (l : LinkIx)
  /-- KEM (R310) -/
  | kem (l : LinkIx)
  /-- CONFIRM (R310) -/
  | confirm (l : LinkIx)
  /-- REKEY (R311) -/
  | rekey (l : LinkIx)
  /-- SYNC_REQ (R312) -/
  | syncReq (l : LinkIx)
  /-- SYNC_RESP (R312) -/
  | syncResp (l : LinkIx)
  /-- GANG (R315) -/
  | gang (l : LinkIx)
  /-- GOODBYE (R309) -/
  | goodbye (l : LinkIx)
  /-- QUIESCE (R309) -/
  | quiesce (l : LinkIx)
  /-- HALT_NOTICE (R416) -/
  | haltNotice (l : LinkIx)
  /-- RELEASE_NOTICE (R419) -/
  | releaseNotice (l : LinkIx)
  /-- LINK_COMMIT (R319) -/
  | linkCommit (l : LinkIx)
  /-- LINK_REKEY_REQUEST (R311) -/
  | linkRekeyRequest (l : LinkIx)
  /-- LINK_TRAINING_DONE (R308) -/
  | linkTrainingDone (l : LinkIx) (ok : Bool) (delayNs : Nat)
  /-- LINK_RETRY (R309) -/
  | linkRetry (l : LinkIx)
  /-- LINK_QUIESCE_DONE (R309) -/
  | linkQuiesceDone (l : LinkIx)
  /-- LINK_REMAP_RESUME (R306) -/
  | linkRemapResume (m : Fin 32)
  /-- DOMAIN_COMMIT (R319) -/
  | domainCommit
  /-- WINDOW_COMMIT (R319) -/
  | windowCommit
  /-- SYNC_EXCHANGE_TIMER (R312) -/
  | syncExchangeTimer
  /-- SYNC_HOLDOVER_TIMEOUT (R313) -/
  | syncHoldoverTimeout
  /-- LNK_INJ_CFG_WRITE (R317) -/
  | lnkInjCfgWrite (l : LinkIx) (v : W64)
  /-- PERST_ASSERT (R327) -/
  | perstAssert
  /-- PERST_RELEASE (R447) -/
  | perstRelease
  /-- HOT_RESET (R327) -/
  | hotReset
  /-- FLR_PF (R327) -/
  | flrPf
  /-- FLR_VF (R327) -/
  | flrVf (p : PartIx)
  /-- MBX_CLAIM (R335) -/
  | mbxClaim
  /-- MBX_RELEASE (R335) -/
  | mbxRelease (who : MbxWho)
  /-- MBX_OWNER_TIMEOUT (R335) -/
  | mbxOwnerTimeout
  /-- GET_REPORT (R335) -/
  | getReport (who : MbxWho)
  /-- IMAGE_BEGIN (R335) -/
  | imageBegin (who : MbxWho)
  /-- IMAGE_WRITE (R335) -/
  | imageWrite (who : MbxWho)
  /-- IMAGE_VERIFY (R335) -/
  | imageVerify (who : MbxWho)
  /-- RESTART (R335) -/
  | restart (who : MbxWho)
  /-- MBX_OP_DONE (R335) -/
  | mbxOpDone (flashOk : Bool)
  /-- PLDM_REQUEST_UPDATE (R335) -/
  | pldmRequestUpdate
  /-- PLDM_SENSOR_READ (R334) -/
  | pldmSensorRead (which : Sensor)
  /-- INPUT_VOLTAGE_CHANGE (R338) -/
  | inputVoltageChange (centivolts : Nat)
  /-- REGULATOR_FAULT (R393) -/
  | regulatorFault (rail : Fin 12) (code : W64)
  /-- CORE_GATE (R342) -/
  | coreGate (c : CoreIx)
  /-- CORE_SLEEP (R342) -/
  | coreSleep (c : CoreIx)
  /-- CORE_OFF (R342) -/
  | coreOff (c : CoreIx)
  /-- CORE_WAKE_DONE (R342) -/
  | coreWakeDone (c : CoreIx)
  /-- DEEP_SLEEP_ENTRY (R343) -/
  | deepSleepEntry
  /-- DEEP_SLEEP_WAKE (R344) -/
  | deepSleepWake (cause : WakeCause)
  /-- DEEP_SLEEP_WAKE_DONE (R344): the channels, by stack and number, whose retraining has failed (R210) -/
  | deepSleepWakeDone (failing : List (Nat × Nat) := [])
  /-- CLOCK_STEP_DONE (R346) -/
  | clockStepDone
  /-- TELEMETRY_SAMPLE (R350): measured currents of the rails in the order of R339 in mA, the regions' activity currents (energy per
second over VCOREk) in mA, and input power in W -/
  | telemetrySample (rails : List Nat) (inputW : Nat) (activity : List Nat := [])
  /-- ESTIMATOR_FIT (R351) -/
  | estimatorFit (k : RailIx)
  /-- CALIB_COMPARE (R352) -/
  | calibCompare (k : RailIx)
  /-- TELEMETRY_LOSS_TIMEOUT (R353) -/
  | telemetryLossTimeout (k : RailIx)
  /-- CURRENT_WINDOW_EVAL (R354): averages of the region's activity current in mA, and each partition's own, with its number (R277) -/
  | currentWindowEval (k : RailIx) (avg1 avg10 avg100 : Nat) (parts : List (Nat × Nat × Nat × Nat) := [])
  /-- MODULE_LIMITER_TICK (R356): input power, and for each partition its number, the activity current of its cores in each region in
  mA, and its near-memory, CXL-tier and link bytes of the millisecond (R357) -/
  | moduleLimiterTick (avgW : Nat) (parts : List (Nat × List Nat × Nat × Nat × Nat))
  /-- HINT_LAPSE (R358) -/
  | hintLapse (k : RailIx)
  /-- HARP_GATE (R359) -/
  | harpGate (c : CoreIx) (h : HarpIx)
  /-- ADMISSION_SLOT (R360) -/
  | admissionSlot (k : RailIx)
  /-- THERMAL_LIMITER_TICK (R362): the hottest die sensor, and each stack's temperature (R207) -/
  | thermalLimiterTick (dieC : Nat) (stackCs : List Nat)
  /-- THERMAL_CLAMP (R362) -/
  | thermalClamp (dieC stackC : Nat)
  /-- THERMAL_TRIP (R393) -/
  | thermalTrip (stack : Bool) (tempC : Nat)
  /-- PWR_COMMIT (R364) -/
  | pwrCommit
  /-- CLK_COMMIT (R364) -/
  | clkCommit
  /-- STAGE_AON_BOOT_ROM (R373) -/
  | stageAonBootRom (selfTestOk : Bool)
  /-- STAGE_IMAGE_VERIFICATION (R368) -/
  | stageImageVerification
  /-- STAGE_FLOOR_PLAN_LOAD (R372) -/
  | stageFloorPlanLoad
  /-- STAGE_CLOCKS (R349) -/
  | stageClocks (locked : Bool)
  /-- STAGE_MEMORY_TRAINING (R208) -/
  | stageMemoryTraining (failed : List (StackIx × ChanIx))
  /-- STAGE_MEMORY_TEST (R376, R377): corrected errors, each row with an uncorrectable error with the spares of it that fail their retest,
  and whether a stack has lost every channel -/
  | stageMemoryTest (corrected : Nat) (badRows : List (BankRow × Nat)) (lostStack : Bool)
  /-- STAGE_CORE_KNOWN_ANSWER (R378) -/
  | stageCoreKnownAnswer (runs : List (CoreIx × List KatRun))
  /-- STAGE_LINK_TRAINING (R380) -/
  | stageLinkTraining
  /-- STAGE_HOST_FUNCTION_READY (R373) -/
  | stageHostFunctionReady
  /-- STAGE_OPERATIONAL (R373) -/
  | stageOperational
  /-- BOOT_NEXT_COMMIT (R389) -/
  | bootNextCommit
  /-- BOOT_NEXT_STORED (R389) -/
  | bootNextStored (ok : Bool)
  /-- BOOT_RESET_MODULE (R384) -/
  | bootResetModule
  /-- BOOT_RESET_COMPUTE (R384) -/
  | bootResetCompute
  /-- BOOT_RESET_CORE (R384) -/
  | bootResetCore (c : CoreIx)
  /-- COMPUTE_RESET_DONE (R384) -/
  | computeResetDone
  /-- FIELD_TEST_DUE (R402) -/
  | fieldTestDue (c : CoreIx)
  /-- FIELD_TEST_DONE (R405) -/
  | fieldTestDone (c : CoreIx) (run : KatRun)
  /-- RAS_PDD_CTL_WRITE (R407) -/
  | rasPddCtlWrite (v : W64)
  /-- MAINT_ACTIVITY_START (R411) -/
  | maintActivityStart (a : Fin 10) (unit sub : Nat)
  /-- ROW_REPAIR_DONE (R412) -/
  | rowRepairDone (row : BankRow) (spareGood : Bool)
  /-- MAINT_OVERDUE (R415) -/
  | maintOverdue (a : Fin 10) (unit : Nat) (sub : Nat := 0)
  /-- FATAL_FAULT (R392) -/
  | fatalFault (kind : FatalKind)
  /-- HALT_START (R416) -/
  | haltStart (leadNs : Nat)
  /-- HALT_CUT (R417) -/
  | haltCut
  /-- HALT_COMPLETE (R418) -/
  | haltComplete
  /-- HALT_RELEASE (R419) -/
  | haltRelease
  /-- ERROR_RECORD_FLASH (R398) -/
  | errorRecordFlash (seq : Nat)
  /-- CORRECTED_RATE_CHECK (R398): `others` is the unit's corrected events of the hour that no command carries -/
  | correctedRateCheck (source unit others : Nat)
  /-- CNT_CLEAR (R426) -/
  | cntClear (c : CoreIx)
  /-- CNT_SNAP_TAKE (R427) -/
  | cntSnapTake (c : CoreIx)
  /-- DBG_SNAP_ARM (R430) -/
  | dbgSnapArm (parts : Nat)
  /-- DBG_SNAPSHOT (R430) -/
  | dbgSnapshot
  /-- WATCHPOINT_ENABLE (R433) -/
  | watchpointEnable (fn : FnIx) (wp : WpIx) (cfg : W64)
  /-- TRACE_RECORD_WRITE (R436) -/
  | traceRecordWrite (c : CoreIx)
  /-- TSC_TICK (R437) -/
  | tscTick
  /-- PPS_EDGE (R439) -/
  | ppsEdge
  /-- REF_LOCK (R439) -/
  | refLock
  /-- TIMING_INPUT_CHANGE (R439) -/
  | timingInputChange (refIn ppsIn : Bool)
  /-- PPS_TIMEOUT (R439) -/
  | ppsTimeout
  /-- TSC_HOLDOVER_TIMEOUT (R439) -/
  | tscHoldoverTimeout
  /-- TSC_SET (R441) -/
  | tscSet (v : W64)
  /-- TSC_PPS_NEXT_WRITE (R439) -/
  | tscPpsNextWrite (v : W64)
  /-- LEAK_SENSOR_READ (R456) -/
  | leakSensorRead (inlet outlet : Bool)
  /-- IDCODE (R451) -/
  | idcode
  /-- BYPASS (R451) -/
  | bypass
  /-- SAMPLE_PRELOAD (R451) -/
  | samplePreload (pins : List Bool)
  /-- EXTEST (R451) -/
  | extest
  /-- CLAMP (R451) -/
  | clamp
  /-- HIGHZ (R451) -/
  | highz
  /-- DEBUG_TRANSPORT_OPEN (R451) -/
  | debugTransportOpen
  /-- PCIE_LINK_UP (R327) -/
  | pcieLinkUp (rate width : Nat)
  /-- IDE_KM_REQUEST (R328) -/
  | ideKmRequest (stream : Fin 18) (activate : Bool)
  /-- VENDOR_RESET_MESSAGE (R384) -/
  | vendorResetMessage (module : Bool)
  /-- VENDOR_DEFINED_CLAIM (R335) -/
  | vendorDefinedClaim
  /-- PRECHARGE_IN_FORCE (R358) -/
  | prechargeInForce (k : RailIx)
  /-- HOST_LINK_READ_COMPLETION (R212) -/
  | hostLinkReadCompletion (n : Nat) (reply : HostReply)
  /-- COMPLETION_TIMEOUT (R326) -/
  | completionTimeout (n : Nat)
deriving DecidableEq, Repr, Inhabited

end Sys2Proof
end

