-- ==== Sys2Proof/Decode.lean ====
section
/-!
DEFINITION. Sys2Proof/Decode.lean: the command that a word spells. spec/opcode_table.json gives no row of this block any bits:
a command reaches it as an event of the host link, a link, a pin or an engine, never as a word.
-/
namespace Sys2Proof

/-- The command that the word `w` of `nbits` bits spells: none, since no row of the table has bits (log entry 103). -/
def decodeTableWord (_nbits _w : Nat) : Option Instr := none

end Sys2Proof
end

