-- ==== Sys2Proof/Config.lean ====
section
/-!
DEFINITION. Sys2Proof/Config.lean: what one implementation or one die fixes and spec/ does not, and the free values.
Every constant is opaque: no proof can see its value, and nothing in Lean evaluates it.
-/
namespace Sys2Proof

/-- Free value number `n`: a word that the spec leaves open (undefined or unstated). Log entry 1. -/
opaque Config.freeWord : Nat → W64

/-- Word k of the digest of the key-establishment key of this die (SEC_KEM_HASHk, reset "Per die"). Log entry 2. -/
opaque Config.kemHash : Nat → W64

/-- The set of its slice that a line falls in, by line address: R215 gives the number of sets and not the map.
Log entry 2. -/
opaque Config.sliceSet : Nat → Nat

/-- What a fiddle comparison in a format writes where its predicate holds, and where it does not: R58 and R86 give the
predicates and no result code. Log entry 4. -/
opaque Config.cmpTrue : Nat → Nat
opaque Config.cmpFalse : Nat → Nat

/-- The fixed hash that picks one of a pair's links (R305 names its inputs and not the function). Log entry 2. -/
opaque Config.linkHash : Nat → Nat

/-- ML-KEM-1024: ciphertext of a secret for a peer's certificates, and the secret this module's key opens (R310). Log
entry 3. -/
opaque Config.kemEncap : List Byte → List Byte → List Byte
opaque Config.kemDecap : List Byte → List Byte

/-- A peer's certificate chain verifies to the product certificate (R282, R310). Log entry 3. -/
opaque Config.chainValid : List Byte → Bool

/-- Identity digest that a certificate chain certifies (R281, R310). Log entry 3. -/
opaque Config.certId : List Byte → List Byte

/-- How far from the master's time, in 1/8 ns, a follower's offset is large (R441 names no figure). Log entry 2. -/
opaque Config.largeOffset : Nat

/-- AES-256-GCM opening: key, nonce, associated data, ciphertext, tag; none where the tag fails (R284). Log entry 3. -/
opaque Config.aesGcmOpen : List Byte → List Byte → List Byte → List Byte → List Byte → Option (List Byte)

/-- AES-256-GCM sealing: key, nonce, associated data, plaintext; the ciphertext and the tag (R310). Log entry 3. -/
opaque Config.aesGcmSeal : List Byte → List Byte → List Byte → List Byte → List Byte

/-- AES-256-XTS over a data unit: key, tweak, plaintext (R221), and the device key of lines that no partition owns. Log entry
3. -/
opaque Config.aesXts : List Byte → List Byte → List Byte → List Byte
opaque Config.deviceKey : List Byte

/-- The 18 parity bytes of RS(224,206) over 206 data bytes (R296 names neither the field's polynomial nor the generator).
Log entry 2. -/
opaque Config.rsParity : List Byte → List Byte

/-- This module's identity, the 32 B digest of its device-identity public key (R281), and its certificate chain as CERT messages
carry it (R304, R310). Log entry 2. -/
opaque Config.ownId : List Byte
opaque Config.ownCerts : List Byte

/-- The chain of certificate slot 0, which ends in the attestation key that measurements 1 to 5 derive (R281, R287). Log entry 3. -/
opaque Config.akChain : List (List Byte) → List Byte

/-- Uzoalro's identifiers of SLH-DSA-SHAKE-256s, ML-KEM-1024 and SHAKE256 in SPDM's extended algorithm fields (R287). Log entry 2. -/
opaque Config.slhDsaId : Nat
opaque Config.mlKemId : Nat
opaque Config.shakeId : Nat

/-- SHAKE256 with an output of the given number of bytes (R279). Log entry 3. -/
opaque Config.shake256 : Nat → List Byte → List Byte

/-- The keyed SHAKE256 of 32 bytes under the flash authentication key of R281 (R371). Log entry 3. -/
opaque Config.flashTag : List Byte → List Byte

/-- SLH-DSA-SHAKE-256s verification: public key, message, signature (R279). Log entry 3. -/
opaque Config.slhDsaVerify : List Byte → List Byte → List Byte → Bool

/-- A device signature over a message: SLH-DSA-SHAKE-256s under the attestation key that measurements 1 to 5 derive (R281, R282).
Log entry 3. -/
opaque Config.sign : List (List Byte) → List Byte → List Byte

/-- The boot ROM's contents as measured, and its public keys for images and floor-plan records (R288, R366, R369). Log
entry 2. -/
opaque Config.bootRom : List Byte
opaque Config.imageKey : List Byte
opaque Config.planKey : List Byte

/-- The manufacturer and part bits of the JTAG IDCODE that spec/ does not state (R451). Log entry 2. -/
opaque Config.idcode : BitVec 32

/-- The silicon stepping of this die (GLB_ID.DIE_STEP, "Per die"). Log entry 2. -/
opaque Config.dieStep : BitVec 8

end Sys2Proof
end

