-- ==== Sys2Proof/Machine/Formats.lean ====
section
/-!
DEFINITION. Sys2Proof/Machine/Formats.lean: the fifteen number formats of R63, their values (R66 to R76), rounding
(R79, R80), the packing of elements (R65), and arithmetic rounded once (R66, R67, R86, R87).
-/
namespace Sys2Proof.Machine

/-- A value of a floating-point format: a NaN, an infinity, or `(-1)^neg * mag * 2^ex`, zeros keeping their sign. -/
inductive FV
  | nan (signalling : Bool)
  | inf (neg : Bool)
  | fin (neg : Bool) (mag : Nat) (ex : Int)
deriving DecidableEq, Repr, Inhabited

/-- Flags of FDL_FLAGS in bit order (R62). -/
def flInvalid : Nat := 1
def flDivZero : Nat := 2
def flOverflow : Nat := 4
def flUnderflow : Nat := 8
def flInexact : Nat := 16
def flNanIn : Nat := 32
def flInfIn : Nat := 64

/-- A binary format: width, trailing significand bits, bias, the largest finite magnitude code, the infinity code and
the default NaN; magnitude codes above the infinity are NaNs (R66, R69, R70). `long` formats have signalling NaNs. -/
structure BinFmt where
  width : Nat
  t : Nat
  bias : Nat
  maxCode : Nat
  infCode : Nat
  dnan : Nat
  long : Bool
deriving DecidableEq, Repr, Inhabited

/-- The binary formats by their codes (R63, R66, R67, R69, R70); none for integers, SX8 and the reserved code. -/
def binFmt : Nat → Option BinFmt
  | 0x0 => some ⟨64, 52, 1023, 0x7FEFFFFFFFFFFFFF, 0x7FF0000000000000, 0x7FF8000000000000, true⟩
  | 0x1 => some ⟨32, 23, 127, 0x7F7FFFFF, 0x7F800000, 0x7FC00000, true⟩
  | 0x2 => some ⟨16, 10, 15, 0x7BFF, 0x7C00, 0x7E00, true⟩
  | 0x3 => some ⟨16, 7, 127, 0x7F7F, 0x7F80, 0x7FC0, true⟩
  | 0x4 => some ⟨8, 3, 7, 0x7D, 0x7E, 0x7F, false⟩
  | 0x5 => some ⟨8, 2, 15, 0x7B, 0x7C, 0x7E, false⟩
  | 0x6 => some ⟨6, 2, 3, 0x1D, 0x1E, 0x1F, false⟩
  | 0x7 => some ⟨6, 3, 1, 0x1D, 0x1E, 0x1F, false⟩
  | 0x8 => some ⟨4, 1, 1, 0x5, 0x6, 0x7, false⟩
  | _ => none

def f64 : BinFmt := ⟨64, 52, 1023, 0x7FEFFFFFFFFFFFFF, 0x7FF0000000000000, 0x7FF8000000000000, true⟩
def f32 : BinFmt := ⟨32, 23, 127, 0x7F7FFFFF, 0x7F800000, 0x7FC00000, true⟩

/-- Bits per element (R63). -/
def fmtBits (f : Nat) : Nat :=
  match f with
  | 0x0 => 64 | 0x1 => 32 | 0x2 => 16 | 0x3 => 16 | 0x4 => 8 | 0x5 => 8 | 0x6 => 6 | 0x7 => 6 | 0x8 => 4
  | 0x9 => 32 | 0xA => 8 | 0xB => 8 | 0xC => 4 | 0xD => 4 | 0xE => 8 | _ => 0

/-- An integer format (R63, R75). -/
def fmtIsInt (f : Nat) : Bool := decide (0x9 ≤ f ∧ f ≤ 0xD)

/-- A short floating-point format, which may carry fine scales (R63). -/
def fmtIsShort (f : Nat) : Bool := decide (0x4 ≤ f ∧ f ≤ 0x8)

/-- Harp class of a format (R34): 4, 8 or 16; 0 where the format is no harp operand (R35, R64). -/
def fmtClass (f : Nat) : Nat :=
  match f with
  | 0x2 => 16 | 0x3 => 16 | 0x4 => 8 | 0x5 => 8 | 0x6 => 8 | 0x7 => 8 | 0x8 => 4
  | 0xA => 8 | 0xB => 8 | 0xC => 4 | 0xD => 4 | _ => 0

/-- Value of a code of a binary format (R66, R69, R70). -/
def BinFmt.unpack (p : BinFmt) (code : Nat) : FV :=
  let neg := decide (code / 2 ^ (p.width - 1) % 2 = 1)
  let m := code % 2 ^ (p.width - 1)
  if m > p.infCode then .nan (p.long && decide (m / 2 ^ (p.t - 1) % 2 = 0))
  else if m = p.infCode then .inf neg
  else if m < 2 ^ p.t then .fin neg m (1 - (p.bias : Int) - p.t)
  else .fin neg (2 ^ p.t + m % 2 ^ p.t) ((m / 2 ^ p.t : Nat) - (p.bias : Int) - p.t)

/-- Sign bit of a format placed on a magnitude code. -/
def BinFmt.sign (p : BinFmt) (neg : Bool) (m : Nat) : Nat := if neg then m + 2 ^ (p.width - 1) else m

/-- `x * 2^e` of a positive rational, as numerator and denominator. -/
def scaleRat (num den : Nat) (e : Int) : Nat × Nat :=
  match e with
  | .ofNat k => (num * 2 ^ k, den)
  | .negSucc k => (num, den * 2 ^ (k + 1))

/-- Floor of log2 of a positive rational. -/
def ratLog2 (n d : Nat) : Int :=
  let l : Int := (Nat.log2 n : Int) - Nat.log2 d
  let (a, b) := scaleRat 1 1 l
  if n * b < a * d then l - 1 else l

/-- Quotient rounded to an integer: nearest with ties to even, or toward zero (R79). Second: was it inexact. -/
def roundDiv (rtz : Bool) (n d : Nat) : Nat × Bool :=
  let q := n / d
  let r := n % d
  if r = 0 then (q, false)
  else if rtz then (q, true)
  else if 2 * r > d ∨ (2 * r = d ∧ q % 2 = 1) then (q + 1, true) else (q, true)

/-- Round a positive rational into a binary format (R79, R80). Answers the magnitude code and the flags: overflow,
inexact, underflow (tiny after rounding and inexact, R67, R81). In a short format every magnitude above the largest finite
one overflows under RTZ (R80). -/
def BinFmt.roundMag (p : BinFmt) (rtz : Bool) (num den : Nat) : Nat × Nat :=
  if num = 0 then (0, 0) else
  let emin : Int := 1 - (p.bias : Int)
  let l := ratLog2 num den
  let q : Int := max emin l - p.t
  let (a, b) := scaleRat num den (-q)
  let (n, inex) := roundDiv rtz a b
  let code := (q - (emin - p.t)).toNat * 2 ^ p.t + n
  if code > p.maxCode ∨ (rtz ∧ !p.long ∧ code = p.maxCode ∧ inex) then
    if rtz then (p.maxCode, flOverflow + flInexact) else (p.infCode, flOverflow + flInexact)
  else
    -- tininess after rounding: the value rounded as if the exponent range had no lower end is below 2^emin
    let qf := l - p.t
    let (a', b') := scaleRat num den (-qf)
    let nf := (roundDiv rtz a' b').1
    let tiny : Bool := decide (l < emin) && !(decide (l + 1 = emin) && decide (nf = 2 ^ (p.t + 1)))
    (code, (if inex then flInexact else 0) + (if tiny && inex then flUnderflow else 0))

/-- Round a value of `num/den * 2^e` with sign into a format. -/
def BinFmt.roundFV (p : BinFmt) (rtz : Bool) (neg : Bool) (num den : Nat) (e : Int) : Nat × Nat :=
  let (a, b) := scaleRat num den e
  let (c, f) := p.roundMag rtz a b
  (p.sign neg c, f)

/-- Encode a value in a format: NaNs become the default NaN, infinities keep their sign, a finite value is rounded
once (R81). -/
def BinFmt.pack (p : BinFmt) (rtz : Bool) : FV → Nat × Nat
  | .nan sig => (p.dnan, if sig then flInvalid else 0)
  | .inf neg => (p.sign neg p.infCode, 0)
  | .fin neg m e => p.roundFV rtz neg m 1 e

/-- Sign of a value; a NaN counts as positive. -/
def FV.neg? : FV → Bool
  | .nan _ => false
  | .inf n => n
  | .fin n _ _ => n

def FV.isNan : FV → Bool
  | .nan _ => true
  | _ => false

def FV.isSig : FV → Bool
  | .nan s => s
  | _ => false

def FV.isInf : FV → Bool
  | .inf _ => true
  | _ => false

def FV.isZero : FV → Bool
  | .fin _ m _ => decide (m = 0)
  | _ => false

def FV.negate : FV → FV
  | .nan s => .nan s
  | .inf n => .inf (!n)
  | .fin n m e => .fin (!n) m e

def FV.abs : FV → FV
  | .nan s => .nan s
  | .inf _ => .inf false
  | .fin _ m e => .fin false m e

/-- Signed integer `m` of a finite value scaled to the exponent `e0 ≤ ex`. -/
def scaledInt (neg : Bool) (m : Nat) (ex e0 : Int) : Int :=
  let a : Int := (m * 2 ^ (ex - e0).toNat : Nat)
  if neg then -a else a

/-- Exact sum of two values (R86: an exact zero from opposite signs is +0). A signalling operand or the difference of
infinities is flagged by the caller through `addFlags`. -/
def FV.add : FV → FV → FV
  | .nan _, _ => .nan false
  | _, .nan _ => .nan false
  | .inf a, .inf b => if a = b then .inf a else .nan false
  | .inf a, .fin .. => .inf a
  | .fin .., .inf b => .inf b
  | .fin na ma ea, .fin nb mb eb =>
    if ma = 0 ∧ mb = 0 then .fin (na && nb) 0 0
    else
      let e0 := min ea eb
      let s := scaledInt na ma ea e0 + scaledInt nb mb eb e0
      if s = 0 then .fin false 0 0 else .fin (decide (s < 0)) s.natAbs e0

/-- Exact product of two values; zero times infinity is a NaN. -/
def FV.mul : FV → FV → FV
  | .nan _, _ => .nan false
  | _, .nan _ => .nan false
  | .inf a, .inf b => .inf (a != b)
  | .inf a, .fin b m _ => if m = 0 then .nan false else .inf (a != b)
  | .fin a m _, .inf b => if m = 0 then .nan false else .inf (a != b)
  | .fin a ma ea, .fin b mb eb => .fin (a != b) (ma * mb) (ea + eb)

/-- Flags an element-level operation takes from its operands: a signalling NaN sets invalid (R86); NAN_IN and INF_IN
record the inputs (R62, R91). -/
def inFlags (x : FV) : Nat :=
  (if x.isSig then flInvalid else 0) ||| (if x.isNan then flNanIn else 0) ||| (if x.isInf then flInfIn else 0)

/-- Invalid of an exact operation: the result is a NaN though no operand is. -/
def newNan (xs : List FV) (r : FV) : Nat := if r.isNan && xs.all (fun x => !x.isNan) then flInvalid else 0

/-- Addition rounded once (R66, R67). -/
def BinFmt.add (p : BinFmt) (x y : FV) : Nat × Nat :=
  let r := x.add y
  let (c, f) := p.pack false r
  (c, f ||| inFlags x ||| inFlags y ||| newNan [x, y] r)

def BinFmt.sub (p : BinFmt) (x y : FV) : Nat × Nat := p.add x (if y.isNan then y else y.negate)

def BinFmt.mul (p : BinFmt) (x y : FV) : Nat × Nat :=
  let r := x.mul y
  let (c, f) := p.pack false r
  (c, f ||| inFlags x ||| inFlags y ||| newNan [x, y] r)

/-- fusedMultiplyAdd: the exact product plus the addend, rounded once (R58, R66). -/
def BinFmt.fma (p : BinFmt) (x y z : FV) : Nat × Nat :=
  let m := x.mul y
  let r := m.add z
  let (c, f) := p.pack false r
  (c, f ||| inFlags x ||| inFlags y ||| inFlags z ||| newNan [x, y, z] r)

/-- Division, correctly rounded (R58, R66). -/
def BinFmt.div (p : BinFmt) (x y : FV) : Nat × Nat :=
  let fl := inFlags x ||| inFlags y
  match x, y with
  | .nan _, _ => (p.dnan, fl)
  | _, .nan _ => (p.dnan, fl)
  | .inf _, .inf _ => (p.dnan, fl ||| flInvalid)
  | .inf a, .fin b _ _ => (p.sign (a != b) p.infCode, fl)
  | .fin a _ _, .inf b => (p.sign (a != b) 0, fl)
  | .fin a ma ea, .fin b mb eb =>
    if mb = 0 then
      if ma = 0 then (p.dnan, fl ||| flInvalid) else (p.sign (a != b) p.infCode, fl ||| flDivZero)
    else
      let (c, f) := p.roundFV false (a != b) ma mb (ea - eb)
      (c, fl ||| f)

/-- Integer square root by bits, from bit `k` down. -/
def isqrtFrom (n : Nat) : Nat → Nat → Nat
  | 0, r => if (r + 1) * (r + 1) ≤ n then r + 1 else r
  | k + 1, r => if (r + 2 ^ (k + 1)) * (r + 2 ^ (k + 1)) ≤ n then isqrtFrom n k (r + 2 ^ (k + 1)) else isqrtFrom n k r

def isqrt (n : Nat) : Nat := isqrtFrom n (Nat.log2 n / 2 + 1) 0

/-- Square root, correctly rounded (R58, R66). The root of `m * 2^e` with `e` even is taken with 130 further bits and a
sticky bit, which decides every rounding. -/
def BinFmt.sqrt (p : BinFmt) (x : FV) : Nat × Nat :=
  match x with
  | .nan _ => (p.dnan, inFlags x)
  | .inf true => (p.dnan, inFlags x ||| flInvalid)
  | .inf false => (p.infCode, inFlags x)
  | .fin neg m e =>
    if m = 0 then (p.sign neg 0, 0)
    else if neg then (p.dnan, flInvalid)
    else
      let (m', e') := if e % 2 = 0 then (m, e) else (m * 2, e - 1)
      let n := m' * 2 ^ 260
      let r := isqrt n
      let st := if r * r = n then 0 else 1
      p.roundFV false false (2 * r + st) 1 ((e' - 260) / 2 - 1)

/-- Exact order of two values that are not NaN: `x < y`, with -0 below +0 when `zeros` is set (R86, R87). -/
def FV.lt (zeros : Bool) : FV → FV → Bool
  | .nan _, _ => false
  | _, .nan _ => false
  | .inf a, .inf b => a && !b
  | .inf a, .fin .. => a
  | .fin .., .inf b => !b
  | .fin na ma ea, .fin nb mb eb =>
    if ma = 0 ∧ mb = 0 then zeros && na && !nb
    else
      let e0 := min ea eb
      decide (scaledInt na ma ea e0 < scaledInt nb mb eb e0)

/-- maximumNumber and minimumNumber (R87): a NaN operand is ignored. -/
def FV.maxNum (x y : FV) : FV := if x.isNan then y else if y.isNan then x else if x.lt true y then y else x
def FV.minNum (x y : FV) : FV := if x.isNan then y else if y.isNan then x else if y.lt true x then y else x

/-- maximum and minimum (R86): a NaN operand gives a NaN. -/
def FV.maxEl (x y : FV) : FV := if x.isNan || y.isNan then .nan false else if x.lt true y then y else x
def FV.minEl (x y : FV) : FV := if x.isNan || y.isNan then .nan false else if y.lt true x then y else x

/-! SX8 (R76, R83). -/

/-- Value of an SX8 code; 0xFF is a NaN here, the invalid block (R76). -/
def sx8Val (c : Nat) : FV :=
  if c = 0xFF then .nan false
  else if c < 8 then .fin false c (-17)
  else .fin false (8 + c % 8) ((c / 8 : Nat) - 18)

/-- The smallest SX8 code whose value is not less than `num/den`; 0xFF above 114,688 (R78, R83). -/
def sx8Up (num den : Nat) : Nat :=
  if num = 0 then 0
  else if num > 114688 * den then 0xFF
  else
    let l := ratLog2 num den
    let q : Int := max (-14) l - 3
    let (a, b) := scaleRat num den (-q)
    (q + 17).toNat * 8 + (a + b - 1) / b

/-- Conversion of a value to SX8 (R83): the code and the flags. -/
def sx8Of (x : FV) : Nat × Nat :=
  match x with
  | .nan s => (0xFF, flInvalid ||| flNanIn ||| (if s then flInvalid else 0))
  | .inf true => (0xFF, flInvalid ||| flInfIn)
  | .inf false => (0xFF, flOverflow ||| flInfIn)
  | .fin neg m e =>
    if m = 0 then (0, 0)
    else if neg then (0xFF, flInvalid)
    else
      let (a, b) := scaleRat m 1 e
      let c := sx8Up a b
      if c = 0xFF then (0xFF, flOverflow)
      else
        let back := sx8Val c
        (c, if back.lt false x || x.lt false back then flInexact else 0)

/-! Integers (R75, R82, R84). -/

/-- Range of an integer format (R75). -/
def intRange (f : Nat) : Int × Int :=
  match f with
  | 0x9 => (-2147483648, 2147483647)
  | 0xA => (-128, 127)
  | 0xB => (0, 255)
  | 0xC => (-8, 7)
  | _ => (0, 15)

/-- Code of an integer in a format. -/
def intCode (f : Nat) (v : Int) : Nat := (v % (2 ^ fmtBits f : Nat)).toNat

/-- Value of an integer code (R75), without zero point. -/
def intVal (f : Nat) (c : Nat) : Int :=
  let w := fmtBits f
  let u := c % 2 ^ w
  if f = 0xB ∨ f = 0xD then u
  else if u ≥ 2 ^ (w - 1) then (u : Int) - (2 ^ w : Nat) else u

/-- A value to an integer format (R82). An integer source outside the destination's range, which R82 does not name, goes to
the nearest end with the invalid flag, as a floating-point one does (DESIGN CHOICE, log entry 105). -/
def intOf (f : Nat) (rtz : Bool) (x : FV) : Nat × Nat :=
  let (lo, hi) := intRange f
  match x with
  | .nan _ => (0, flInvalid ||| flNanIn)
  | .inf neg => (intCode f (if neg then lo else hi), flInvalid ||| flInfIn)
  | .fin neg m e =>
    let (a, b) := scaleRat m 1 e
    let (n, inex) := roundDiv rtz a b
    let v : Int := if neg then -(n : Int) else n
    if v < lo then (intCode f lo, flInvalid)
    else if v > hi then (intCode f hi, flInvalid)
    else (intCode f v, if inex then flInexact else 0)

/-- Value of a code in any of the fifteen formats; integers as exact values, SX8 under R76. -/
def fmtVal (f c : Nat) : FV :=
  match binFmt f with
  | some p => p.unpack (c % 2 ^ p.width)
  | none =>
    if f = 0xE then sx8Val (c % 256)
    else
      let v := intVal f c
      .fin (decide (v < 0)) v.natAbs 0

/-- Convert a value into a format with a rounding attribute (R79 to R83): the code and the flags. Between floating-point
formats an infinity sets none (R81). -/
def convertTo (f : Nat) (rtz : Bool) (x : FV) : Nat × Nat :=
  match binFmt f with
  | some p =>
    let (c, fl) := p.pack rtz x
    (c, fl ||| (if x.isInf then 0 else inFlags x))
  | none => if f = 0xE then sx8Of x else intOf f rtz x

/-- Integer rescale (R84): the value written and whether clamping changed it. -/
def rescale (v m : Int) (sh : Nat) (zp : Int) (f : Nat) : Int × Bool :=
  let p := v * m
  let y :=
    if sh = 0 then p else
      let d : Int := (2 ^ sh : Nat)
      let q := p / d
      let r := p % d
      let half : Int := (2 ^ (sh - 1) : Nat)
      if r > half ∨ (r = half ∧ q % 2 = 1) then q + 1 else q
  let y := y + zp
  let (lo, hi) := intRange f
  let z := min (max y lo) hi
  (z, decide (z ≠ y))

/-- Saturation to the I32 range (R46, R105). -/
def satI32 (v : Int) : Int × Bool :=
  let z := min (max v (-2147483648)) 2147483647
  (z, decide (z ≠ v))

/-! Packing (R65). -/

/-- Byte `i` of a list read as little-endian storage; bytes beyond are zero. -/
def byteAt (bs : List Byte) (i : Nat) : Nat := (bs.getD i 0).toNat

/-- Element `i` of width `w` bits of a packed byte string (R65). -/
def elemOf (w : Nat) (bs : List Byte) (i : Nat) : Nat :=
  let bit := w * i
  let first := bit / 8
  let last := (bit + w - 1) / 8
  let word := (List.range (last + 1 - first)).foldl (fun acc k => acc + byteAt bs (first + k) * 2 ^ (8 * k)) 0
  word / 2 ^ (bit % 8) % 2 ^ w

/-- Bytes that `n` packed elements of width `w` bits take. -/
def packedBytes (w n : Nat) : Nat := (w * n + 7) / 8

/-- A list of element codes packed into bytes (R65). -/
def packElems (w : Nat) (xs : List Nat) : List Byte :=
  let v := xs.foldr (fun x acc => x % 2 ^ w + acc * 2 ^ w) 0
  (List.range (packedBytes w xs.length)).map (fun k => BitVec.ofNat 8 (v / 2 ^ (8 * k)))

/-- The `n` elements of a packed byte string. -/
def unpackElems (w n : Nat) (bs : List Byte) : List Nat := (List.range n).map (elemOf w bs)

/-- Little-endian bytes of a number. -/
def leBytes (n v : Nat) : List Byte := (List.range n).map (fun k => BitVec.ofNat 8 (v / 2 ^ (8 * k)))

/-- The number little-endian bytes spell. -/
def leNat : List Byte → Nat
  | [] => 0
  | b :: t => b.toNat + 256 * leNat t

/-! Blocks with fresh fine scales (R78). -/

/-- A block of values quantised under R78: the SX8 scale, the codes, and flags (overflow when the scale is beyond
114,688); a scale of 0xFF is the invalid block. -/
def quantBlock (f : Nat) (rtz : Bool) (xs : List FV) : Nat × List Nat × Nat :=
  match binFmt f with
  | none => (0xFF, xs.map (fun _ => 0), 0)
  | some p =>
    let a := (xs.foldl (fun m x => m.maxNum x.abs) (FV.nan false))
    let sig := if xs.any FV.isSig then flInvalid else 0
    let zeroOr : FV → Nat := fun x => if x.isNan then p.dnan else p.sign x.neg? 0
    match a with
    | .nan _ => (0, xs.map zeroOr, sig)
    | .inf _ => (0xFF, xs.map (fun _ => p.dnan), sig)
    | .fin _ m e =>
      if m = 0 then (0, xs.map zeroOr, sig)
      else
        match p.unpack p.maxCode with
        | .fin _ mt et =>
          let (n, d) := scaleRat m mt (e - et)
          let s := sx8Up n d
          if s = 0xFF then (0xFF, xs.map (fun _ => p.dnan), sig ||| flOverflow)
          else
            match sx8Val s with
            | .fin _ ms es =>
              let q : FV → Nat × Nat := fun x =>
                match x with
                | .fin neg mx ex => p.roundFV rtz neg mx ms (ex - es)
                | .nan _ => (p.dnan, 0)
                | .inf neg => (p.sign neg p.infCode, 0)
              (s, xs.map (fun x => (q x).1), xs.foldl (fun fl x => fl ||| (q x).2) sig)
            | _ => (s, xs.map zeroOr, sig)
        | _ => (0xFF, xs.map zeroOr, sig)

end Sys2Proof.Machine
end

