-- ==== Sys2Proof/Machine/RegMap.lean ====
section
/-!
DEFINITION. Sys2Proof/Machine/RegMap.lean: the register maps of spec/ (R9, R10, R28, R30): every named field as a
constant, and the table that a write or a clearing read of BAR0 looks a register up in.
-/
namespace Sys2Proof.Machine

/-- How a field behaves (R10). -/
inductive Acc | ro | rw | wo | w1c | rc | rwc
deriving DecidableEq, Repr

/-- A named field: the register's BAR0 offset, the steps of its two indices, and its bits. -/
structure Fld where
  base : Nat
  step1 : Nat
  step2 : Nat
  lo : Nat
  width : Nat
deriving DecidableEq, Repr

/-- One field of a register's map: its bits, its access code and the values that are not reserved encodings. -/
structure FldRow where
  lo : Nat
  width : Nat
  acc : Acc
  least : Nat
  most : Nat
deriving DecidableEq, Repr

/-- One register or array of registers: BAR0 offset, the step and count of each index, the word after a module
reset, and the fields. Bits of no field are reserved (R13). -/
structure RegRow where
  base : Nat
  step1 : Nat
  count1 : Nat
  step2 : Nat
  count2 : Nat
  reset : Nat
  fields : List FldRow
deriving DecidableEq, Repr


/-! GLB_ID (01_architecture.md). -/
def R.GLB_ID_DEVICE_CODE : Fld := ⟨0x0, 0, 0, 0, 32⟩
def R.GLB_ID_GRADE : Fld := ⟨0x0, 0, 0, 32, 4⟩
def R.GLB_ID_DIE_STEP : Fld := ⟨0x0, 0, 0, 40, 8⟩

/-! GLB_GEOMETRY (01_architecture.md). -/
def R.GLB_GEOMETRY_GRID_X : Fld := ⟨0x8, 0, 0, 0, 8⟩
def R.GLB_GEOMETRY_GRID_Y : Fld := ⟨0x8, 0, 0, 8, 8⟩
def R.GLB_GEOMETRY_HARPS_PER_CORE : Fld := ⟨0x8, 0, 0, 16, 4⟩
def R.GLB_GEOMETRY_STACKS_USABLE : Fld := ⟨0x8, 0, 0, 20, 4⟩
def R.GLB_GEOMETRY_CORES_USABLE : Fld := ⟨0x8, 0, 0, 24, 9⟩
def R.GLB_GEOMETRY_LINKS_USABLE : Fld := ⟨0x8, 0, 0, 40, 7⟩
def R.GLB_GEOMETRY_HARPS_USABLE : Fld := ⟨0x8, 0, 0, 48, 12⟩

/-! GLB_CORE_MAP (01_architecture.md). -/
def R.GLB_CORE_MAP_USABLE : Fld := ⟨0x10, 8, 0, 0, 64⟩

/-! GLB_FP_GEN (01_architecture.md). -/
def R.GLB_FP_GEN_GEN : Fld := ⟨0x38, 0, 0, 0, 32⟩

/-! HRP_STATUS (02_harp_engine.md). -/
def R.HRP_STATUS_STATE : Fld := ⟨0x1000000, 65536, 2048, 0, 3⟩
def R.HRP_STATUS_ACTIVE_SET : Fld := ⟨0x1000000, 65536, 2048, 3, 1⟩
def R.HRP_STATUS_SET0 : Fld := ⟨0x1000000, 65536, 2048, 4, 2⟩
def R.HRP_STATUS_SET1 : Fld := ⟨0x1000000, 65536, 2048, 6, 2⟩
def R.HRP_STATUS_STALL_REASON : Fld := ⟨0x1000000, 65536, 2048, 8, 3⟩
def R.HRP_STATUS_A_QUEUE_MIN : Fld := ⟨0x1000000, 65536, 2048, 16, 5⟩
def R.HRP_STATUS_B_QUEUE : Fld := ⟨0x1000000, 65536, 2048, 24, 5⟩
def R.HRP_STATUS_ISSUE_QUEUE : Fld := ⟨0x1000000, 65536, 2048, 32, 3⟩

/-! HRP_GOOD (02_harp_engine.md). -/
def R.HRP_GOOD_CORE_MASK : Fld := ⟨0x1000008, 65536, 2048, 0, 8⟩
def R.HRP_GOOD_SELF : Fld := ⟨0x1000008, 65536, 2048, 8, 1⟩

/-! HRP_PASS (02_harp_engine.md). -/
def R.HRP_PASS_PASS_TAG : Fld := ⟨0x1000010, 65536, 2048, 0, 16⟩
def R.HRP_PASS_ROW_BLOCK : Fld := ⟨0x1000010, 65536, 2048, 16, 16⟩
def R.HRP_PASS_COL_BLOCK : Fld := ⟨0x1000010, 65536, 2048, 32, 16⟩
def R.HRP_PASS_BLOCK : Fld := ⟨0x1000010, 65536, 2048, 48, 16⟩

/-! HRP_EXC_LAST (02_harp_engine.md). -/
def R.HRP_EXC_LAST_INVALID : Fld := ⟨0x1000018, 65536, 2048, 0, 1⟩
def R.HRP_EXC_LAST_OVERFLOW : Fld := ⟨0x1000018, 65536, 2048, 1, 1⟩
def R.HRP_EXC_LAST_NAN_IN : Fld := ⟨0x1000018, 65536, 2048, 2, 1⟩
def R.HRP_EXC_LAST_INF_IN : Fld := ⟨0x1000018, 65536, 2048, 3, 1⟩
def R.HRP_EXC_LAST_PASS_TAG : Fld := ⟨0x1000018, 65536, 2048, 16, 16⟩
def R.HRP_EXC_LAST_ROW_MASK : Fld := ⟨0x1000018, 65536, 2048, 32, 32⟩

/-! HRP_EXC_ACC (02_harp_engine.md). -/
def R.HRP_EXC_ACC_FLAGS : Fld := ⟨0x1000020, 65536, 2048, 0, 4⟩
def R.HRP_EXC_ACC_ROW_MASK : Fld := ⟨0x1000020, 65536, 2048, 32, 32⟩

/-! HRP_TRAP (02_harp_engine.md). -/
def R.HRP_TRAP_VALID : Fld := ⟨0x1000028, 65536, 2048, 0, 1⟩
def R.HRP_TRAP_ROW : Fld := ⟨0x1000028, 65536, 2048, 1, 5⟩
def R.HRP_TRAP_ROW_BLOCK : Fld := ⟨0x1000028, 65536, 2048, 16, 16⟩
def R.HRP_TRAP_COL_BLOCK : Fld := ⟨0x1000028, 65536, 2048, 32, 16⟩

/-! HRP_TRAP_K (02_harp_engine.md). -/
def R.HRP_TRAP_K_K_STEP : Fld := ⟨0x1000030, 65536, 2048, 0, 40⟩
def R.HRP_TRAP_K_PASS_TAG : Fld := ⟨0x1000030, 65536, 2048, 40, 16⟩

/-! FDL_CAPS (02_harp_engine.md). -/
def R.FDL_CAPS_LANES : Fld := ⟨0x1004000, 65536, 0, 0, 8⟩
def R.FDL_CAPS_POLY_TABLES : Fld := ⟨0x1004000, 65536, 0, 8, 4⟩
def R.FDL_CAPS_POLY_SEGMENTS : Fld := ⟨0x1004000, 65536, 0, 12, 8⟩
def R.FDL_CAPS_POLY_DEGREE_MAX : Fld := ⟨0x1004000, 65536, 0, 20, 4⟩

/-! FDL_STATUS (02_harp_engine.md). -/
def R.FDL_STATUS_STATE : Fld := ⟨0x1004008, 65536, 0, 0, 2⟩
def R.FDL_STATUS_EPILOGUE : Fld := ⟨0x1004008, 65536, 0, 2, 1⟩

/-! FDL_FLAGS (02_harp_engine.md). -/
def R.FDL_FLAGS_INVALID : Fld := ⟨0x1004010, 65536, 0, 0, 1⟩
def R.FDL_FLAGS_DIV_ZERO : Fld := ⟨0x1004010, 65536, 0, 1, 1⟩
def R.FDL_FLAGS_OVERFLOW : Fld := ⟨0x1004010, 65536, 0, 2, 1⟩
def R.FDL_FLAGS_UNDERFLOW : Fld := ⟨0x1004010, 65536, 0, 3, 1⟩
def R.FDL_FLAGS_INEXACT : Fld := ⟨0x1004010, 65536, 0, 4, 1⟩
def R.FDL_FLAGS_NAN_IN : Fld := ⟨0x1004010, 65536, 0, 5, 1⟩
def R.FDL_FLAGS_INF_IN : Fld := ⟨0x1004010, 65536, 0, 6, 1⟩

/-! FDL_POLY_RANGE (02_harp_engine.md). -/
def R.FDL_POLY_RANGE_LO : Fld := ⟨0x1004020, 65536, 8, 0, 32⟩
def R.FDL_POLY_RANGE_HI : Fld := ⟨0x1004020, 65536, 8, 32, 32⟩

/-! SPD_SIZE (05_scratchpad.md). -/
def R.SPD_SIZE_BYTES : Fld := ⟨0x1006000, 65536, 0, 0, 32⟩
def R.SPD_SIZE_ROWS : Fld := ⟨0x1006000, 65536, 0, 32, 16⟩
def R.SPD_SIZE_BANKS : Fld := ⟨0x1006000, 65536, 0, 48, 8⟩

/-! SPD_OVERLAP_CTL (05_scratchpad.md). -/
def R.SPD_OVERLAP_CTL_ENABLE : Fld := ⟨0x1006008, 65536, 0, 0, 1⟩
def R.SPD_OVERLAP_CTL_ACTIVE : Fld := ⟨0x1006008, 65536, 0, 1, 1⟩
def R.SPD_OVERLAP_CTL_TABLE_USED : Fld := ⟨0x1006008, 65536, 0, 8, 7⟩

/-! SPD_OVERLAP_REC0 (05_scratchpad.md). -/
def R.SPD_OVERLAP_REC0_VALID : Fld := ⟨0x1006010, 65536, 0, 0, 1⟩
def R.SPD_OVERLAP_REC0_FAULT_KIND : Fld := ⟨0x1006010, 65536, 0, 1, 3⟩
def R.SPD_OVERLAP_REC0_HELD_KIND : Fld := ⟨0x1006010, 65536, 0, 4, 3⟩
def R.SPD_OVERLAP_REC0_FAULT_HARP : Fld := ⟨0x1006010, 65536, 0, 8, 3⟩
def R.SPD_OVERLAP_REC0_HELD_HARP : Fld := ⟨0x1006010, 65536, 0, 11, 3⟩
def R.SPD_OVERLAP_REC0_FAULT_TAG : Fld := ⟨0x1006010, 65536, 0, 16, 16⟩
def R.SPD_OVERLAP_REC0_HELD_TAG : Fld := ⟨0x1006010, 65536, 0, 32, 16⟩

/-! SPD_OVERLAP_REC1 (05_scratchpad.md). -/
def R.SPD_OVERLAP_REC1_ADDR : Fld := ⟨0x1006018, 65536, 0, 0, 32⟩
def R.SPD_OVERLAP_REC1_FAULT_WRITES : Fld := ⟨0x1006018, 65536, 0, 32, 1⟩
def R.SPD_OVERLAP_REC1_HELD_WRITES : Fld := ⟨0x1006018, 65536, 0, 33, 1⟩

/-! SPD_ECC (05_scratchpad.md). -/
def R.SPD_ECC_CORRECTED : Fld := ⟨0x1006020, 65536, 0, 0, 32⟩
def R.SPD_ECC_POISONED : Fld := ⟨0x1006020, 65536, 0, 32, 16⟩

/-! SPD_ECC_ADDR (05_scratchpad.md). -/
def R.SPD_ECC_ADDR_VALID : Fld := ⟨0x1006028, 65536, 0, 0, 1⟩
def R.SPD_ECC_ADDR_ADDR : Fld := ⟨0x1006028, 65536, 0, 3, 29⟩

/-! PRT_GUARD_FLAG (06_ordering_model.md). -/
def R.PRT_GUARD_FLAG_FLAG_VA : Fld := ⟨0x480000, 1024, 32, 3, 45⟩
def R.PRT_GUARD_FLAG_VALID : Fld := ⟨0x480000, 1024, 32, 63, 1⟩

/-! PRT_GUARD_BASE (06_ordering_model.md). -/
def R.PRT_GUARD_BASE_BASE : Fld := ⟨0x480008, 1024, 32, 6, 42⟩

/-! PRT_GUARD_END (06_ordering_model.md). -/
def R.PRT_GUARD_END_END : Fld := ⟨0x480010, 1024, 32, 6, 42⟩

/-! PRT_GUARD_COMMIT (06_ordering_model.md). -/
def R.PRT_GUARD_COMMIT_COMMIT : Fld := ⟨0x484000, 16, 0, 0, 1⟩

/-! PRT_GUARD_STATUS (06_ordering_model.md). -/
def R.PRT_GUARD_STATUS_PENDING : Fld := ⟨0x484008, 16, 0, 0, 1⟩
def R.PRT_GUARD_STATUS_REJECTED : Fld := ⟨0x484008, 16, 0, 1, 1⟩
def R.PRT_GUARD_STATUS_ENTRIES : Fld := ⟨0x484008, 16, 0, 8, 6⟩

/-! PRT_ORDER_STATUS (06_ordering_model.md). -/
def R.PRT_ORDER_STATUS_MEM_TRACK : Fld := ⟨0x484100, 0, 0, 0, 1⟩
def R.PRT_ORDER_STATUS_DOMAIN_MODULES : Fld := ⟨0x484100, 0, 0, 8, 6⟩
def R.PRT_ORDER_STATUS_FINAL_RESENDS : Fld := ⟨0x484100, 0, 0, 16, 32⟩
def R.PRT_ORDER_STATUS_FINAL_TIMEOUTS : Fld := ⟨0x484100, 0, 0, 48, 8⟩

/-! KPU_RGN_CFG (07_kv_cache.md). -/
def R.KPU_RGN_CFG_VALID : Fld := ⟨0x740000, 256, 0, 0, 1⟩
def R.KPU_RGN_CFG_PARTITION : Fld := ⟨0x740000, 256, 0, 1, 4⟩
def R.KPU_RGN_CFG_FMT : Fld := ⟨0x740000, 256, 0, 8, 4⟩
def R.KPU_RGN_CFG_HEAD_DIM : Fld := ⟨0x740000, 256, 0, 12, 2⟩
def R.KPU_RGN_CFG_LAYERS : Fld := ⟨0x740000, 256, 0, 16, 8⟩
def R.KPU_RGN_CFG_PAIRS : Fld := ⟨0x740000, 256, 0, 24, 6⟩
def R.KPU_RGN_CFG_LP_SHIFT : Fld := ⟨0x740000, 256, 0, 32, 6⟩
def R.KPU_RGN_CFG_SEQ_SHIFT : Fld := ⟨0x740000, 256, 0, 40, 6⟩
def R.KPU_RGN_CFG_DEMOTE : Fld := ⟨0x740000, 256, 0, 48, 1⟩
def R.KPU_RGN_CFG_BORROW : Fld := ⟨0x740000, 256, 0, 49, 1⟩
def R.KPU_RGN_CFG_POS_LOG2 : Fld := ⟨0x740000, 256, 0, 52, 4⟩

/-! KPU_RGN_BASE (07_kv_cache.md). -/
def R.KPU_RGN_BASE_KV_BASE : Fld := ⟨0x740008, 256, 0, 30, 18⟩

/-! KPU_RGN_SEQTAB (07_kv_cache.md). -/
def R.KPU_RGN_SEQTAB_SEQ_TABLE_VA : Fld := ⟨0x740010, 256, 0, 6, 42⟩

/-! KPU_RGN_NEAR (07_kv_cache.md). -/
def R.KPU_RGN_NEAR_NEAR_PA : Fld := ⟨0x740018, 256, 0, 16, 36⟩

/-! KPU_RGN_FAR (07_kv_cache.md). -/
def R.KPU_RGN_FAR_FAR_PA : Fld := ⟨0x740020, 256, 0, 16, 36⟩

/-! KPU_RGN_SCALE (07_kv_cache.md). -/
def R.KPU_RGN_SCALE_SCALE_PA : Fld := ⟨0x740030, 256, 0, 11, 41⟩

/-! KPU_RGN_META (07_kv_cache.md). -/
def R.KPU_RGN_META_META_PA : Fld := ⟨0x740038, 256, 0, 12, 40⟩

/-! KPU_RGN_POOLS (07_kv_cache.md). -/
def R.KPU_RGN_POOLS_NEAR_PAGES : Fld := ⟨0x740028, 256, 0, 0, 32⟩
def R.KPU_RGN_POOLS_FAR_PAGES : Fld := ⟨0x740028, 256, 0, 32, 32⟩

/-! KPU_RGN_LIMITS (07_kv_cache.md). -/
def R.KPU_RGN_LIMITS_MAX_SEQ : Fld := ⟨0x740040, 256, 0, 0, 24⟩
def R.KPU_RGN_LIMITS_LOW_WM : Fld := ⟨0x740040, 256, 0, 24, 24⟩

/-! KPU_RGN_COMMIT (07_kv_cache.md). -/
def R.KPU_RGN_COMMIT_COMMIT : Fld := ⟨0x740048, 256, 0, 0, 1⟩

/-! KPU_RGN_STATUS (07_kv_cache.md). -/
def R.KPU_RGN_STATUS_STATE : Fld := ⟨0x740050, 256, 0, 0, 2⟩
def R.KPU_RGN_STATUS_PENDING : Fld := ⟨0x740050, 256, 0, 2, 1⟩
def R.KPU_RGN_STATUS_REJECTED : Fld := ⟨0x740050, 256, 0, 3, 1⟩
def R.KPU_RGN_STATUS_CAUSE : Fld := ⟨0x740050, 256, 0, 4, 4⟩
def R.KPU_RGN_STATUS_OPEN_SEQ : Fld := ⟨0x740050, 256, 0, 8, 24⟩

/-! KPU_FREE (07_kv_cache.md). -/
def R.KPU_FREE_FREE_NEAR : Fld := ⟨0x780000, 256, 16, 0, 32⟩
def R.KPU_FREE_FREE_FAR : Fld := ⟨0x780000, 256, 16, 32, 32⟩

/-! KPU_EVT (07_kv_cache.md). -/
def R.KPU_EVT_LOW_WATER : Fld := ⟨0x780008, 256, 16, 0, 1⟩
def R.KPU_EVT_BELOW : Fld := ⟨0x780008, 256, 16, 1, 1⟩
def R.KPU_EVT_DEMOTIONS : Fld := ⟨0x780008, 256, 16, 16, 16⟩
def R.KPU_EVT_NO_PAGE : Fld := ⟨0x780008, 256, 16, 32, 16⟩
def R.KPU_EVT_BORROWED : Fld := ⟨0x780008, 256, 16, 48, 16⟩

/-! KPU_UNIT_STATUS (07_kv_cache.md). -/
def R.KPU_UNIT_STATUS_STATE : Fld := ⟨0x700000, 256, 0, 0, 2⟩
def R.KPU_UNIT_STATUS_FITTED : Fld := ⟨0x700000, 256, 0, 2, 1⟩
def R.KPU_UNIT_STATUS_RANK : Fld := ⟨0x700000, 256, 0, 8, 4⟩
def R.KPU_UNIT_STATUS_IN_EXEC : Fld := ⟨0x700000, 256, 0, 16, 7⟩
def R.KPU_UNIT_STATUS_QUEUED : Fld := ⟨0x700000, 256, 0, 32, 16⟩

/-! MEM_STACK_STATUS (08_memory_system.md). -/
def R.MEM_STACK_STATUS_STATE : Fld := ⟨0x900000, 4096, 0, 0, 3⟩
def R.MEM_STACK_STATUS_FITTED : Fld := ⟨0x900000, 4096, 0, 3, 1⟩
def R.MEM_STACK_STATUS_CHANNELS_UP : Fld := ⟨0x900000, 4096, 0, 8, 8⟩
def R.MEM_STACK_STATUS_TRAINING : Fld := ⟨0x900000, 4096, 0, 16, 8⟩
def R.MEM_STACK_STATUS_TEMP : Fld := ⟨0x900000, 4096, 0, 32, 8⟩
def R.MEM_STACK_STATUS_REFRESH_2X : Fld := ⟨0x900000, 4096, 0, 40, 1⟩

/-! MEM_ECC (08_memory_system.md). -/
def R.MEM_ECC_CORRECTED : Fld := ⟨0x900008, 4096, 0, 0, 32⟩
def R.MEM_ECC_UNCORRECTED : Fld := ⟨0x900008, 4096, 0, 32, 16⟩
def R.MEM_ECC_CRC_RETRIES : Fld := ⟨0x900008, 4096, 0, 48, 16⟩

/-! MEM_ERR_ADDR (08_memory_system.md). -/
def R.MEM_ERR_ADDR_VALID : Fld := ⟨0x900010, 4096, 0, 0, 1⟩
def R.MEM_ERR_ADDR_LINE : Fld := ⟨0x900010, 4096, 0, 6, 46⟩
def R.MEM_ERR_ADDR_CHANNEL : Fld := ⟨0x900010, 4096, 0, 52, 3⟩
def R.MEM_ERR_ADDR_DIE : Fld := ⟨0x900010, 4096, 0, 55, 1⟩
def R.MEM_ERR_ADDR_BANK : Fld := ⟨0x900010, 4096, 0, 56, 5⟩

/-! MEM_SCRUB_CTL (08_memory_system.md). -/
def R.MEM_SCRUB_CTL_ENABLE : Fld := ⟨0x90c000, 0, 0, 0, 1⟩
def R.MEM_SCRUB_CTL_PERIOD_H : Fld := ⟨0x90c000, 0, 0, 8, 8⟩

/-! MEM_SCRUB_STATUS (08_memory_system.md). -/
def R.MEM_SCRUB_STATUS_PROGRESS : Fld := ⟨0x90c008, 0, 0, 0, 7⟩
def R.MEM_SCRUB_STATUS_STACK : Fld := ⟨0x90c008, 0, 0, 8, 4⟩
def R.MEM_SCRUB_STATUS_PASSES : Fld := ⟨0x90c008, 0, 0, 16, 32⟩
def R.MEM_SCRUB_STATUS_DEFERRED : Fld := ⟨0x90c008, 0, 0, 48, 16⟩

/-! MEM_RETRAIN_CTL (08_memory_system.md). -/
def R.MEM_RETRAIN_CTL_INTERVAL_MIN : Fld := ⟨0x90c010, 0, 0, 0, 16⟩
def R.MEM_RETRAIN_CTL_TEMP_DELTA : Fld := ⟨0x90c010, 0, 0, 16, 8⟩

/-! MEM_COMMIT (08_memory_system.md). -/
def R.MEM_COMMIT_COMMIT : Fld := ⟨0x90c018, 0, 0, 0, 1⟩

/-! CCH_SLICE_STATUS (08_memory_system.md). -/
def R.CCH_SLICE_STATUS_STATE : Fld := ⟨0x800000, 4096, 0, 0, 2⟩
def R.CCH_SLICE_STATUS_FITTED : Fld := ⟨0x800000, 4096, 0, 2, 1⟩
def R.CCH_SLICE_STATUS_DIRTY : Fld := ⟨0x800000, 4096, 0, 8, 24⟩
def R.CCH_SLICE_STATUS_WB_HELD : Fld := ⟨0x800000, 4096, 0, 32, 9⟩
def R.CCH_SLICE_STATUS_LOST : Fld := ⟨0x800000, 4096, 0, 41, 9⟩

/-! CCH_WAYMASK (08_memory_system.md). -/
def R.CCH_WAYMASK_WAYS : Fld := ⟨0x80c000, 8, 0, 0, 16⟩

/-! CCH_WAY_COMMIT (08_memory_system.md). -/
def R.CCH_WAY_COMMIT_COMMIT : Fld := ⟨0x80c080, 0, 0, 0, 1⟩

/-! CCH_FLUSH_BASE (08_memory_system.md). -/
def R.CCH_FLUSH_BASE_ADDR : Fld := ⟨0x80c100, 0, 0, 6, 46⟩

/-! CCH_FLUSH_END (08_memory_system.md). -/
def R.CCH_FLUSH_END_ADDR : Fld := ⟨0x80c108, 0, 0, 6, 46⟩

/-! CCH_FLUSH_CTL (08_memory_system.md). -/
def R.CCH_FLUSH_CTL_START : Fld := ⟨0x80c110, 0, 0, 0, 1⟩
def R.CCH_FLUSH_CTL_BUSY : Fld := ⟨0x80c110, 0, 0, 1, 1⟩

/-! DTU_CTX_ROOT (08_memory_system.md). -/
def R.DTU_CTX_ROOT_VALID : Fld := ⟨0x600000, 8, 0, 0, 1⟩
def R.DTU_CTX_ROOT_ROOT : Fld := ⟨0x600000, 8, 0, 8, 44⟩

/-! DTU_INVAL_VA (08_memory_system.md). -/
def R.DTU_INVAL_VA_VA : Fld := ⟨0x600100, 0, 0, 16, 32⟩

/-! DTU_INVAL_CTL (08_memory_system.md). -/
def R.DTU_INVAL_CTL_CTX : Fld := ⟨0x600108, 0, 0, 0, 4⟩
def R.DTU_INVAL_CTL_ALL : Fld := ⟨0x600108, 0, 0, 4, 1⟩
def R.DTU_INVAL_CTL_PAGES : Fld := ⟨0x600108, 0, 0, 8, 32⟩

/-! DTU_INVAL_STATUS (08_memory_system.md). -/
def R.DTU_INVAL_STATUS_PENDING : Fld := ⟨0x600110, 0, 0, 0, 1⟩

/-! DTU_FAULT (08_memory_system.md). -/
def R.DTU_FAULT_VALID : Fld := ⟨0x600200, 0, 0, 0, 1⟩
def R.DTU_FAULT_TYPE : Fld := ⟨0x600200, 0, 0, 1, 3⟩
def R.DTU_FAULT_CTX : Fld := ⟨0x600200, 0, 0, 4, 4⟩
def R.DTU_FAULT_LEVEL : Fld := ⟨0x600200, 0, 0, 8, 2⟩
def R.DTU_FAULT_IS_WRITE : Fld := ⟨0x600200, 0, 0, 10, 1⟩
def R.DTU_FAULT_CORE : Fld := ⟨0x600200, 0, 0, 11, 9⟩
def R.DTU_FAULT_NOT_CORE : Fld := ⟨0x600200, 0, 0, 20, 1⟩

/-! DTU_FAULT_VA (08_memory_system.md). -/
def R.DTU_FAULT_VA_VA : Fld := ⟨0x600208, 0, 0, 0, 48⟩

/-! SEQ_CAPS (09_work_submission.md). -/
def R.SEQ_CAPS_RQ_RINGS : Fld := ⟨0x300000, 0, 0, 0, 8⟩
def R.SEQ_CAPS_CQ_RINGS : Fld := ⟨0x300000, 0, 0, 8, 8⟩
def R.SEQ_CAPS_SLOT_BYTES : Fld := ⟨0x300000, 0, 0, 16, 8⟩
def R.SEQ_CAPS_RECORD_BYTES : Fld := ⟨0x300000, 0, 0, 24, 8⟩
def R.SEQ_CAPS_SAVE_BYTES : Fld := ⟨0x300000, 0, 0, 32, 32⟩

/-! SEQ_SCHED (09_work_submission.md). -/
def R.SEQ_SCHED_POLL_MAX_US : Fld := ⟨0x300008, 0, 0, 0, 8⟩
def R.SEQ_SCHED_SLICE_US : Fld := ⟨0x300008, 0, 0, 16, 16⟩
def R.SEQ_SCHED_BEAT_LIMIT_US : Fld := ⟨0x300008, 0, 0, 32, 16⟩

/-! SEQ_COMMIT (09_work_submission.md). -/
def R.SEQ_COMMIT_COMMIT : Fld := ⟨0x300010, 0, 0, 0, 1⟩

/-! SEQ_STATUS (09_work_submission.md). -/
def R.SEQ_STATUS_STATE : Fld := ⟨0x300018, 0, 0, 0, 2⟩
def R.SEQ_STATUS_POLL_US : Fld := ⟨0x300018, 0, 0, 2, 8⟩
def R.SEQ_STATUS_HELD : Fld := ⟨0x300018, 0, 0, 10, 9⟩
def R.SEQ_STATUS_EVT_DROPPED : Fld := ⟨0x300018, 0, 0, 32, 32⟩

/-! SEQ_RQ_BASE (09_work_submission.md). -/
def R.SEQ_RQ_BASE_LOC : Fld := ⟨0x310000, 256, 0, 0, 1⟩
def R.SEQ_RQ_BASE_ADDR : Fld := ⟨0x310000, 256, 0, 12, 52⟩

/-! SEQ_RQ_CFG (09_work_submission.md). -/
def R.SEQ_RQ_CFG_VALID : Fld := ⟨0x310008, 256, 0, 0, 1⟩
def R.SEQ_RQ_CFG_PARTITION : Fld := ⟨0x310008, 256, 0, 1, 4⟩
def R.SEQ_RQ_CFG_SIZE : Fld := ⟨0x310008, 256, 0, 8, 4⟩
def R.SEQ_RQ_CFG_CQ : Fld := ⟨0x310008, 256, 0, 16, 6⟩
def R.SEQ_RQ_CFG_SHARES : Fld := ⟨0x310008, 256, 0, 24, 16⟩
def R.SEQ_RQ_CFG_GANG_EN : Fld := ⟨0x310008, 256, 0, 40, 1⟩
def R.SEQ_RQ_CFG_GANG : Fld := ⟨0x310008, 256, 0, 48, 8⟩

/-! SEQ_RQ_GANG (09_work_submission.md). -/
def R.SEQ_RQ_GANG_MODULES : Fld := ⟨0x310010, 256, 0, 0, 32⟩

/-! SEQ_RQ_CORES (09_work_submission.md). -/
def R.SEQ_RQ_CORES_CORES : Fld := ⟨0x310018, 256, 8, 0, 64⟩

/-! SEQ_RQ_SAVE (09_work_submission.md). -/
def R.SEQ_RQ_SAVE_PA : Fld := ⟨0x310040, 256, 0, 16, 36⟩

/-! SEQ_RQ_CTL (09_work_submission.md). -/
def R.SEQ_RQ_CTL_COMMIT : Fld := ⟨0x310048, 256, 0, 0, 1⟩
def R.SEQ_RQ_CTL_START : Fld := ⟨0x310048, 256, 0, 1, 1⟩
def R.SEQ_RQ_CTL_STOP : Fld := ⟨0x310048, 256, 0, 2, 1⟩
def R.SEQ_RQ_CTL_ABORT : Fld := ⟨0x310048, 256, 0, 3, 1⟩
def R.SEQ_RQ_CTL_REWIND : Fld := ⟨0x310048, 256, 0, 4, 1⟩

/-! SEQ_RQ_STATUS (09_work_submission.md). -/
def R.SEQ_RQ_STATUS_STATE : Fld := ⟨0x310050, 256, 0, 0, 3⟩
def R.SEQ_RQ_STATUS_RESIDENT : Fld := ⟨0x310050, 256, 0, 3, 1⟩
def R.SEQ_RQ_STATUS_REJECTED : Fld := ⟨0x310050, 256, 0, 4, 1⟩
def R.SEQ_RQ_STATUS_CAUSE : Fld := ⟨0x310050, 256, 0, 5, 3⟩
def R.SEQ_RQ_STATUS_NEXT_SLOT : Fld := ⟨0x310050, 256, 0, 8, 13⟩
def R.SEQ_RQ_STATUS_EXPECT_GEN : Fld := ⟨0x310050, 256, 0, 24, 8⟩
def R.SEQ_RQ_STATUS_RUN_SLOT : Fld := ⟨0x310050, 256, 0, 32, 13⟩
def R.SEQ_RQ_STATUS_RUNNING : Fld := ⟨0x310050, 256, 0, 45, 1⟩
def R.SEQ_RQ_STATUS_SAVED : Fld := ⟨0x310050, 256, 0, 46, 1⟩
def R.SEQ_RQ_STATUS_STOP_CAUSE : Fld := ⟨0x310050, 256, 0, 48, 2⟩

/-! SEQ_RQ_ENGINE (09_work_submission.md). -/
def R.SEQ_RQ_ENGINE_CYCLES : Fld := ⟨0x310058, 256, 0, 0, 64⟩

/-! SEQ_RQ_CONTEND (09_work_submission.md). -/
def R.SEQ_RQ_CONTEND_CYCLES : Fld := ⟨0x310060, 256, 0, 0, 64⟩

/-! SEQ_RQ_THROTTLE (09_work_submission.md). -/
def R.SEQ_RQ_THROTTLE_CYCLES : Fld := ⟨0x310068, 256, 0, 0, 64⟩

/-! SEQ_CQ_BASE (09_work_submission.md). -/
def R.SEQ_CQ_BASE_ADDR : Fld := ⟨0x320000, 64, 0, 12, 52⟩

/-! SEQ_CQ_CFG (09_work_submission.md). -/
def R.SEQ_CQ_CFG_VALID : Fld := ⟨0x320008, 64, 0, 0, 1⟩
def R.SEQ_CQ_CFG_PARTITION : Fld := ⟨0x320008, 64, 0, 1, 4⟩
def R.SEQ_CQ_CFG_EVENTS : Fld := ⟨0x320008, 64, 0, 5, 1⟩
def R.SEQ_CQ_CFG_MODULE_EVENTS : Fld := ⟨0x320008, 64, 0, 6, 1⟩
def R.SEQ_CQ_CFG_SIZE : Fld := ⟨0x320008, 64, 0, 8, 4⟩
def R.SEQ_CQ_CFG_IRQ_MODE : Fld := ⟨0x320008, 64, 0, 12, 2⟩
def R.SEQ_CQ_CFG_VECTOR : Fld := ⟨0x320008, 64, 0, 16, 11⟩
def R.SEQ_CQ_CFG_HOLDOFF_US : Fld := ⟨0x320008, 64, 0, 32, 16⟩

/-! SEQ_CQ_CTL (09_work_submission.md). -/
def R.SEQ_CQ_CTL_COMMIT : Fld := ⟨0x320010, 64, 0, 0, 1⟩

/-! SEQ_CQ_STATUS (09_work_submission.md). -/
def R.SEQ_CQ_STATUS_PRODUCED : Fld := ⟨0x320018, 64, 0, 0, 32⟩
def R.SEQ_CQ_STATUS_GEN : Fld := ⟨0x320018, 64, 0, 32, 8⟩
def R.SEQ_CQ_STATUS_FULL : Fld := ⟨0x320018, 64, 0, 40, 1⟩
def R.SEQ_CQ_STATUS_REJECTED : Fld := ⟨0x320018, 64, 0, 41, 1⟩
def R.SEQ_CQ_STATUS_HELD : Fld := ⟨0x320018, 64, 0, 42, 9⟩

/-! PRT_CFG (10_partitions_security.md). -/
def R.PRT_CFG_VALID : Fld := ⟨0x400000, 256, 0, 0, 1⟩
def R.PRT_CFG_SEALED : Fld := ⟨0x400000, 256, 0, 1, 1⟩
def R.PRT_CFG_HOST_ACCESS : Fld := ⟨0x400000, 256, 0, 2, 1⟩
def R.PRT_CFG_HOST_MEM : Fld := ⟨0x400000, 256, 0, 3, 1⟩
def R.PRT_CFG_MEM_WEIGHT : Fld := ⟨0x400000, 256, 0, 8, 8⟩
def R.PRT_CFG_LINK_WEIGHT : Fld := ⟨0x400000, 256, 0, 16, 8⟩
def R.PRT_CFG_POWER_W : Fld := ⟨0x400000, 256, 0, 32, 16⟩

/-! PRT_CORE (10_partitions_security.md). -/
def R.PRT_CORE_CORES : Fld := ⟨0x400008, 256, 8, 0, 64⟩

/-! PRT_RINGS (10_partitions_security.md). -/
def R.PRT_RINGS_RQ : Fld := ⟨0x400030, 256, 0, 0, 64⟩

/-! PRT_CQS (10_partitions_security.md). -/
def R.PRT_CQS_CQ : Fld := ⟨0x400038, 256, 0, 0, 64⟩

/-! PRT_REGIONS (10_partitions_security.md). -/
def R.PRT_REGIONS_REGIONS : Fld := ⟨0x400040, 256, 0, 0, 64⟩

/-! PRT_OWNER (10_partitions_security.md). -/
def R.PRT_OWNER_HASH : Fld := ⟨0x400048, 256, 8, 0, 64⟩

/-! PRT_CTL (10_partitions_security.md). -/
def R.PRT_CTL_COMMIT : Fld := ⟨0x400068, 256, 0, 0, 1⟩
def R.PRT_CTL_RESET : Fld := ⟨0x400068, 256, 0, 1, 1⟩

/-! PRT_STATUS (10_partitions_security.md). -/
def R.PRT_STATUS_STATE : Fld := ⟨0x400070, 256, 0, 0, 2⟩
def R.PRT_STATUS_REJECTED : Fld := ⟨0x400070, 256, 0, 2, 1⟩
def R.PRT_STATUS_CAUSE : Fld := ⟨0x400070, 256, 0, 3, 3⟩
def R.PRT_STATUS_PENDING : Fld := ⟨0x400070, 256, 0, 6, 1⟩
def R.PRT_STATUS_DEBUG_TOUCHED : Fld := ⟨0x400070, 256, 0, 7, 1⟩
def R.PRT_STATUS_TDI_STATE : Fld := ⟨0x400070, 256, 0, 8, 2⟩
def R.PRT_STATUS_CORES : Fld := ⟨0x400070, 256, 0, 10, 9⟩
def R.PRT_STATUS_NEAR_GIB : Fld := ⟨0x400070, 256, 0, 19, 13⟩
def R.PRT_STATUS_CXL_GIB : Fld := ⟨0x400070, 256, 0, 32, 15⟩

/-! PRT_POWER (10_partitions_security.md). -/
def R.PRT_POWER_ATTRIB_W : Fld := ⟨0x400078, 256, 0, 0, 16⟩
def R.PRT_POWER_AT_LIMIT : Fld := ⟨0x400078, 256, 0, 16, 1⟩

/-! PRT_RANGE_BASE (10_partitions_security.md). -/
def R.PRT_RANGE_BASE_VALID : Fld := ⟨0x410000, 16, 0, 0, 1⟩
def R.PRT_RANGE_BASE_BASE : Fld := ⟨0x410000, 16, 0, 30, 22⟩

/-! PRT_RANGE_SIZE (10_partitions_security.md). -/
def R.PRT_RANGE_SIZE_GIB : Fld := ⟨0x410008, 16, 0, 0, 16⟩
def R.PRT_RANGE_SIZE_PARTITION : Fld := ⟨0x410008, 16, 0, 16, 4⟩

/-! PRT_RANGE_CTL (10_partitions_security.md). -/
def R.PRT_RANGE_CTL_COMMIT : Fld := ⟨0x410400, 0, 0, 0, 1⟩

/-! PRT_RANGE_STATUS (10_partitions_security.md). -/
def R.PRT_RANGE_STATUS_PENDING : Fld := ⟨0x410408, 0, 0, 0, 1⟩
def R.PRT_RANGE_STATUS_REJECTED : Fld := ⟨0x410408, 0, 0, 1, 1⟩
def R.PRT_RANGE_STATUS_CAUSE : Fld := ⟨0x410408, 0, 0, 2, 3⟩
def R.PRT_RANGE_STATUS_ENTRY : Fld := ⟨0x410408, 0, 0, 8, 6⟩

/-! PRT_ISO (10_partitions_security.md). -/
def R.PRT_ISO_ENABLE : Fld := ⟨0x420000, 0, 0, 0, 1⟩

/-! PRT_ISO_CTL (10_partitions_security.md). -/
def R.PRT_ISO_CTL_COMMIT : Fld := ⟨0x420008, 0, 0, 0, 1⟩

/-! PRT_ISO_STATUS (10_partitions_security.md). -/
def R.PRT_ISO_STATUS_ACTIVE : Fld := ⟨0x420010, 0, 0, 0, 1⟩
def R.PRT_ISO_STATUS_PENDING : Fld := ⟨0x420010, 0, 0, 1, 1⟩
def R.PRT_ISO_STATUS_REJECTED : Fld := ⟨0x420010, 0, 0, 2, 1⟩
def R.PRT_ISO_STATUS_CAUSE : Fld := ⟨0x420010, 0, 0, 3, 3⟩
def R.PRT_ISO_STATUS_WAY_REJECTED : Fld := ⟨0x420010, 0, 0, 6, 1⟩

/-! SEC_DIK_HASH (10_partitions_security.md). -/
def R.SEC_DIK_HASH_HASH : Fld := ⟨0x500000, 8, 0, 0, 64⟩

/-! SEC_KEM_HASH (10_partitions_security.md). -/
def R.SEC_KEM_HASH_HASH : Fld := ⟨0x500020, 8, 0, 0, 64⟩

/-! SEC_SVN (10_partitions_security.md). -/
def R.SEC_SVN_RUNNING : Fld := ⟨0x500040, 0, 0, 0, 32⟩
def R.SEC_SVN_COUNTER : Fld := ⟨0x500040, 0, 0, 32, 32⟩

/-! SEC_ROLLBACK_CTL (10_partitions_security.md). -/
def R.SEC_ROLLBACK_CTL_ADVANCE : Fld := ⟨0x500048, 0, 0, 0, 1⟩

/-! SEC_STATUS (10_partitions_security.md). -/
def R.SEC_STATUS_IDENTITY : Fld := ⟨0x500050, 0, 0, 0, 1⟩
def R.SEC_STATUS_AK_READY : Fld := ⟨0x500050, 0, 0, 1, 1⟩
def R.SEC_STATUS_ADVANCE_BUSY : Fld := ⟨0x500050, 0, 0, 2, 1⟩
def R.SEC_STATUS_ADVANCE_FAILED : Fld := ⟨0x500050, 0, 0, 3, 1⟩

/-! SEC_IMP_SRC (10_partitions_security.md). -/
def R.SEC_IMP_SRC_OFFSET : Fld := ⟨0x510000, 256, 0, 0, 48⟩

/-! SEC_IMP_DST (10_partitions_security.md). -/
def R.SEC_IMP_DST_OFFSET : Fld := ⟨0x510008, 256, 0, 0, 48⟩

/-! SEC_IMP_LEN (10_partitions_security.md). -/
def R.SEC_IMP_LEN_BYTES : Fld := ⟨0x510010, 256, 0, 0, 48⟩

/-! SEC_IMP_CTL (10_partitions_security.md). -/
def R.SEC_IMP_CTL_START : Fld := ⟨0x510018, 256, 0, 0, 1⟩
def R.SEC_IMP_CTL_UNSEAL : Fld := ⟨0x510018, 256, 0, 1, 1⟩
def R.SEC_IMP_CTL_ENTRY : Fld := ⟨0x510018, 256, 0, 4, 4⟩

/-! SEC_IMP_STATUS (10_partitions_security.md). -/
def R.SEC_IMP_STATUS_STATE : Fld := ⟨0x510020, 256, 0, 0, 2⟩
def R.SEC_IMP_STATUS_RESULT : Fld := ⟨0x510020, 256, 0, 2, 4⟩
def R.SEC_IMP_STATUS_PROGRESS : Fld := ⟨0x510020, 256, 0, 6, 7⟩
def R.SEC_IMP_STATUS_ENTRY : Fld := ⟨0x510020, 256, 0, 13, 4⟩

/-! SEC_LOG_SEL (10_partitions_security.md). -/
def R.SEC_LOG_SEL_INDEX : Fld := ⟨0x510028, 256, 0, 0, 32⟩

/-! SEC_LOG_STATUS (10_partitions_security.md). -/
def R.SEC_LOG_STATUS_WRITTEN : Fld := ⟨0x510030, 256, 0, 0, 32⟩
def R.SEC_LOG_STATUS_DEBUG_TOUCHED : Fld := ⟨0x510030, 256, 0, 32, 1⟩

/-! SEC_LOG_E (10_partitions_security.md). -/
def R.SEC_LOG_E_WORD : Fld := ⟨0x510038, 256, 8, 0, 64⟩

/-! SEC_SEAL_BASE (10_partitions_security.md). -/
def R.SEC_SEAL_BASE_VALID : Fld := ⟨0x520000, 512, 32, 0, 1⟩
def R.SEC_SEAL_BASE_BASE : Fld := ⟨0x520000, 512, 32, 16, 32⟩

/-! SEC_SEAL_SIZE (10_partitions_security.md). -/
def R.SEC_SEAL_SIZE_UNITS : Fld := ⟨0x520008, 512, 32, 0, 32⟩

/-! SEC_SEAL_ID (10_partitions_security.md). -/
def R.SEC_SEAL_ID_CONTENT_ID : Fld := ⟨0x520010, 512, 32, 0, 64⟩

/-! LNK_DOMAIN (11_ranior_links.md). -/
def R.LNK_DOMAIN_DOMAIN_ID : Fld := ⟨0xc00000, 0, 0, 0, 32⟩
def R.LNK_DOMAIN_MODULE : Fld := ⟨0xc00000, 0, 0, 32, 5⟩
def R.LNK_DOMAIN_MODULES : Fld := ⟨0xc00000, 0, 0, 40, 6⟩
def R.LNK_DOMAIN_TIME_MASTER : Fld := ⟨0xc00000, 0, 0, 48, 5⟩
def R.LNK_DOMAIN_TRUST : Fld := ⟨0xc00000, 0, 0, 53, 1⟩

/-! LNK_TIME (11_ranior_links.md). -/
def R.LNK_TIME_SYNC_US : Fld := ⟨0xc00008, 0, 0, 0, 16⟩
def R.LNK_TIME_RETRY_MS : Fld := ⟨0xc00008, 0, 0, 16, 16⟩

/-! LNK_DOMAIN_CTL (11_ranior_links.md). -/
def R.LNK_DOMAIN_CTL_COMMIT : Fld := ⟨0xc00010, 0, 0, 0, 1⟩

/-! LNK_DOMAIN_STATUS (11_ranior_links.md). -/
def R.LNK_DOMAIN_STATUS_REJECTED : Fld := ⟨0xc00018, 0, 0, 0, 1⟩
def R.LNK_DOMAIN_STATUS_CAUSE : Fld := ⟨0xc00018, 0, 0, 1, 2⟩
def R.LNK_DOMAIN_STATUS_LINKS_UP : Fld := ⟨0xc00018, 0, 0, 8, 7⟩
def R.LNK_DOMAIN_STATUS_PEERS_UP : Fld := ⟨0xc00018, 0, 0, 32, 32⟩

/-! LNK_TIME_STATUS (11_ranior_links.md). -/
def R.LNK_TIME_STATUS_STATE : Fld := ⟨0xc00020, 0, 0, 0, 2⟩
def R.LNK_TIME_STATUS_OFFSET : Fld := ⟨0xc00020, 0, 0, 16, 16⟩

/-! LNK_CUT_TSC (11_ranior_links.md). -/
def R.LNK_CUT_TSC_TSC : Fld := ⟨0xc00028, 0, 0, 0, 64⟩

/-! LNK_ALLOW (11_ranior_links.md). -/
def R.LNK_ALLOW_HASH : Fld := ⟨0xc01000, 32, 8, 0, 64⟩

/-! LNK_WIN_CFG (11_ranior_links.md). -/
def R.LNK_WIN_CFG_VALID : Fld := ⟨0xc02000, 32, 0, 0, 1⟩
def R.LNK_WIN_CFG_WRITE : Fld := ⟨0xc02000, 32, 0, 1, 1⟩
def R.LNK_WIN_CFG_PARTITION : Fld := ⟨0xc02000, 32, 0, 4, 4⟩
def R.LNK_WIN_CFG_SRC_PARTITION : Fld := ⟨0xc02000, 32, 0, 8, 4⟩

/-! LNK_WIN_SRC (11_ranior_links.md). -/
def R.LNK_WIN_SRC_SRC_MODULES : Fld := ⟨0xc02008, 32, 0, 0, 32⟩

/-! LNK_WIN_BASE (11_ranior_links.md). -/
def R.LNK_WIN_BASE_BASE : Fld := ⟨0xc02010, 32, 0, 16, 30⟩

/-! LNK_WIN_SIZE (11_ranior_links.md). -/
def R.LNK_WIN_SIZE_SIZE : Fld := ⟨0xc02018, 32, 0, 0, 32⟩

/-! LNK_WIN_CTL (11_ranior_links.md). -/
def R.LNK_WIN_CTL_COMMIT : Fld := ⟨0xc02800, 0, 0, 0, 1⟩

/-! LNK_WIN_STATUS (11_ranior_links.md). -/
def R.LNK_WIN_STATUS_REJECTED : Fld := ⟨0xc02808, 0, 0, 0, 1⟩
def R.LNK_WIN_STATUS_WINDOW : Fld := ⟨0xc02808, 0, 0, 8, 6⟩

/-! LNK_CFG (11_ranior_links.md). -/
def R.LNK_CFG_ENABLE : Fld := ⟨0xc10000, 256, 0, 0, 1⟩
def R.LNK_CFG_PEER_MODULE : Fld := ⟨0xc10000, 256, 0, 8, 5⟩
def R.LNK_CFG_PEER_LINK : Fld := ⟨0xc10000, 256, 0, 16, 7⟩
def R.LNK_CFG_REKEY_LOG2 : Fld := ⟨0xc10000, 256, 0, 24, 6⟩

/-! LNK_CTL (11_ranior_links.md). -/
def R.LNK_CTL_COMMIT : Fld := ⟨0xc10008, 256, 0, 0, 1⟩
def R.LNK_CTL_REKEY : Fld := ⟨0xc10008, 256, 0, 1, 1⟩

/-! LNK_STATUS (11_ranior_links.md). -/
def R.LNK_STATUS_STATE : Fld := ⟨0xc10010, 256, 0, 0, 3⟩
def R.LNK_STATUS_REJECTED : Fld := ⟨0xc10010, 256, 0, 3, 1⟩
def R.LNK_STATUS_DOWN_CAUSE : Fld := ⟨0xc10010, 256, 0, 4, 4⟩
def R.LNK_STATUS_USABLE : Fld := ⟨0xc10010, 256, 0, 8, 1⟩
def R.LNK_STATUS_SEEN_MODULE : Fld := ⟨0xc10010, 256, 0, 16, 5⟩
def R.LNK_STATUS_SEEN_LINK : Fld := ⟨0xc10010, 256, 0, 24, 7⟩
def R.LNK_STATUS_DELAY_NS : Fld := ⟨0xc10010, 256, 0, 32, 16⟩

/-! LNK_ERR (11_ranior_links.md). -/
def R.LNK_ERR_CORRECTED : Fld := ⟨0xc10018, 256, 0, 0, 32⟩
def R.LNK_ERR_UNCORRECTED : Fld := ⟨0xc10018, 256, 0, 32, 16⟩
def R.LNK_ERR_REPLAYS : Fld := ⟨0xc10018, 256, 0, 48, 8⟩
def R.LNK_ERR_TAG_FAILS : Fld := ⟨0xc10018, 256, 0, 56, 8⟩

/-! LNK_KEY (11_ranior_links.md). -/
def R.LNK_KEY_FRAMES : Fld := ⟨0xc10020, 256, 0, 0, 48⟩
def R.LNK_KEY_REKEYS : Fld := ⟨0xc10020, 256, 0, 48, 16⟩

/-! LNK_TX (11_ranior_links.md). -/
def R.LNK_TX_MSGS : Fld := ⟨0xc10028, 256, 0, 0, 64⟩

/-! LNK_RX (11_ranior_links.md). -/
def R.LNK_RX_MSGS : Fld := ⟨0xc10030, 256, 0, 0, 64⟩

/-! LNK_CUT_TX (11_ranior_links.md). -/
def R.LNK_CUT_TX_MSGS : Fld := ⟨0xc10038, 256, 0, 0, 64⟩

/-! LNK_CUT_RX (11_ranior_links.md). -/
def R.LNK_CUT_RX_MSGS : Fld := ⟨0xc10040, 256, 0, 0, 64⟩

/-! LNK_INJ_CFG (11_ranior_links.md). -/
def R.LNK_INJ_CFG_MODE : Fld := ⟨0xc10048, 256, 0, 0, 3⟩
def R.LNK_INJ_CFG_RATE_LOG2 : Fld := ⟨0xc10048, 256, 0, 3, 6⟩
def R.LNK_INJ_CFG_BYTES : Fld := ⟨0xc10048, 256, 0, 9, 4⟩
def R.LNK_INJ_CFG_PARTITION : Fld := ⟨0xc10048, 256, 0, 13, 4⟩
def R.LNK_INJ_CFG_SEED : Fld := ⟨0xc10048, 256, 0, 17, 15⟩
def R.LNK_INJ_CFG_LIMIT : Fld := ⟨0xc10048, 256, 0, 32, 32⟩

/-! LNK_INJ_STATUS (11_ranior_links.md). -/
def R.LNK_INJ_STATUS_HITS : Fld := ⟨0xc10050, 256, 0, 0, 32⟩

/-! PEX_LINK (12_host_side.md). -/
def R.PEX_LINK_RATE : Fld := ⟨0xb00000, 0, 0, 0, 4⟩
def R.PEX_LINK_WIDTH : Fld := ⟨0xb00000, 0, 0, 4, 5⟩
def R.PEX_LINK_FLIT : Fld := ⟨0xb00000, 0, 0, 9, 1⟩
def R.PEX_LINK_LINK_IDE : Fld := ⟨0xb00000, 0, 0, 10, 1⟩
def R.PEX_LINK_RETRAINS : Fld := ⟨0xb00000, 0, 0, 32, 16⟩

/-! PEX_CTL (12_host_side.md). -/
def R.PEX_CTL_RO_WRITES : Fld := ⟨0xb00008, 0, 0, 0, 1⟩
def R.PEX_CTL_L1_EN : Fld := ⟨0xb00008, 0, 0, 1, 1⟩

/-! PEX_MBX_CTL (12_host_side.md). -/
def R.PEX_MBX_CTL_CLAIM : Fld := ⟨0xb00100, 0, 0, 0, 1⟩
def R.PEX_MBX_CTL_RELEASE : Fld := ⟨0xb00100, 0, 0, 1, 1⟩
def R.PEX_MBX_CTL_GO : Fld := ⟨0xb00100, 0, 0, 2, 1⟩
def R.PEX_MBX_CTL_OPCODE : Fld := ⟨0xb00100, 0, 0, 4, 4⟩

/-! PEX_MBX_ARG (12_host_side.md). -/
def R.PEX_MBX_ARG_OFFSET : Fld := ⟨0xb00108, 0, 0, 0, 32⟩
def R.PEX_MBX_ARG_LENGTH : Fld := ⟨0xb00108, 0, 0, 32, 32⟩

/-! PEX_MBX_STATUS (12_host_side.md). -/
def R.PEX_MBX_STATUS_OWNER : Fld := ⟨0xb00110, 0, 0, 0, 2⟩
def R.PEX_MBX_STATUS_BUSY : Fld := ⟨0xb00110, 0, 0, 2, 1⟩
def R.PEX_MBX_STATUS_RESULT : Fld := ⟨0xb00110, 0, 0, 4, 4⟩
def R.PEX_MBX_STATUS_PROGRESS : Fld := ⟨0xb00110, 0, 0, 8, 7⟩
def R.PEX_MBX_STATUS_IMAGE_VALID : Fld := ⟨0xb00110, 0, 0, 15, 1⟩

/-! CXL_PORT_STATUS (12_host_side.md). -/
def R.CXL_PORT_STATUS_STATE : Fld := ⟨0xa00000, 4096, 0, 0, 3⟩
def R.CXL_PORT_STATUS_DOWN_CAUSE : Fld := ⟨0xa00000, 4096, 0, 3, 4⟩
def R.CXL_PORT_STATUS_RATE : Fld := ⟨0xa00000, 4096, 0, 7, 4⟩
def R.CXL_PORT_STATUS_WIDTH : Fld := ⟨0xa00000, 4096, 0, 11, 5⟩
def R.CXL_PORT_STATUS_FAILED : Fld := ⟨0xa00000, 4096, 0, 16, 1⟩

/-! CXL_PORT_CAP (12_host_side.md). -/
def R.CXL_PORT_CAP_GIB : Fld := ⟨0xa00008, 4096, 0, 0, 14⟩
def R.CXL_PORT_CAP_VENDOR : Fld := ⟨0xa00008, 4096, 0, 32, 16⟩

/-! CXL_PORT_CTL (12_host_side.md). -/
def R.CXL_PORT_CTL_RESET : Fld := ⟨0xa00010, 4096, 0, 0, 1⟩
def R.CXL_PORT_CTL_ENABLE : Fld := ⟨0xa00010, 4096, 0, 1, 1⟩

/-! CXL_PORT_ERR (12_host_side.md). -/
def R.CXL_PORT_ERR_CORRECTED : Fld := ⟨0xa00018, 4096, 0, 0, 32⟩
def R.CXL_PORT_ERR_POISON_IN : Fld := ⟨0xa00018, 4096, 0, 32, 16⟩
def R.CXL_PORT_ERR_MEDIA_EVENTS : Fld := ⟨0xa00018, 4096, 0, 48, 16⟩

/-! PWR_CAPS (13_power_clocks.md). -/
def R.PWR_CAPS_REGIONS : Fld := ⟨0x200000, 0, 0, 0, 4⟩
def R.PWR_CAPS_DOMAINS : Fld := ⟨0x200000, 0, 0, 16, 9⟩
def R.PWR_CAPS_RESERVE_W : Fld := ⟨0x200000, 0, 0, 32, 16⟩

/-! PWR_LIMIT (13_power_clocks.md). -/
def R.PWR_LIMIT_LIMIT_W : Fld := ⟨0x200008, 0, 0, 0, 12⟩
def R.PWR_LIMIT_THERM_LIMIT_C : Fld := ⟨0x200008, 0, 0, 16, 8⟩
def R.PWR_LIMIT_DEEP_IDLE_MS : Fld := ⟨0x200008, 0, 0, 32, 16⟩
def R.PWR_LIMIT_CORE_SLEEP_US : Fld := ⟨0x200008, 0, 0, 48, 16⟩

/-! PWR_REGION_LIM (13_power_clocks.md). -/
def R.PWR_REGION_LIM_LIM_1US : Fld := ⟨0x200010, 8, 0, 0, 9⟩
def R.PWR_REGION_LIM_LIM_10US : Fld := ⟨0x200010, 8, 0, 16, 9⟩
def R.PWR_REGION_LIM_LIM_100US : Fld := ⟨0x200010, 8, 0, 32, 9⟩
def R.PWR_REGION_LIM_PRECHARGE_MV : Fld := ⟨0x200010, 8, 0, 48, 6⟩

/-! PWR_COMMIT (13_power_clocks.md). -/
def R.PWR_COMMIT_COMMIT : Fld := ⟨0x200050, 0, 0, 0, 1⟩

/-! PWR_STATUS (13_power_clocks.md). -/
def R.PWR_STATUS_DIE_STATE : Fld := ⟨0x200058, 0, 0, 0, 2⟩
def R.PWR_STATUS_REJECTED : Fld := ⟨0x200058, 0, 0, 2, 1⟩
def R.PWR_STATUS_ISO_BREACH : Fld := ⟨0x200058, 0, 0, 3, 1⟩
def R.PWR_STATUS_CALIB_FAULT : Fld := ⟨0x200058, 0, 0, 8, 8⟩
def R.PWR_STATUS_INPUT_W : Fld := ⟨0x200058, 0, 0, 16, 12⟩
def R.PWR_STATUS_INPUT_DV : Fld := ⟨0x200058, 0, 0, 32, 10⟩
def R.PWR_STATUS_LIMIT_STEPS : Fld := ⟨0x200058, 0, 0, 48, 16⟩

/-! PWR_THERM (13_power_clocks.md). -/
def R.PWR_THERM_DIE_C : Fld := ⟨0x200060, 0, 0, 0, 8⟩
def R.PWR_THERM_STACK_C : Fld := ⟨0x200060, 0, 0, 8, 8⟩
def R.PWR_THERM_STATE : Fld := ⟨0x200060, 0, 0, 16, 2⟩
def R.PWR_THERM_THERM_STEPS : Fld := ⟨0x200060, 0, 0, 32, 16⟩

/-! PWR_REGION_STAT (13_power_clocks.md). -/
def R.PWR_REGION_STAT_MEAS_A : Fld := ⟨0x200080, 8, 0, 0, 10⟩
def R.PWR_REGION_STAT_EST_A : Fld := ⟨0x200080, 8, 0, 16, 10⟩
def R.PWR_REGION_STAT_DUTY : Fld := ⟨0x200080, 8, 0, 32, 5⟩
def R.PWR_REGION_STAT_CALIB_FAULT : Fld := ⟨0x200080, 8, 0, 40, 1⟩
def R.PWR_REGION_STAT_TELEMETRY_LOST : Fld := ⟨0x200080, 8, 0, 41, 1⟩
def R.PWR_REGION_STAT_RAIL_MV : Fld := ⟨0x200080, 8, 0, 48, 12⟩

/-! PWR_DOMAIN (13_power_clocks.md). -/
def R.PWR_DOMAIN_STATE : Fld := ⟨0x200100, 8, 0, 0, 64⟩

/-! CLK_STATUS (13_power_clocks.md). -/
def R.CLK_STATUS_ARITH_MHZ : Fld := ⟨0x280000, 0, 0, 0, 12⟩
def R.CLK_STATUS_TARGET_MHZ : Fld := ⟨0x280000, 0, 0, 12, 12⟩
def R.CLK_STATUS_LOCKED : Fld := ⟨0x280000, 0, 0, 24, 1⟩
def R.CLK_STATUS_REF_OK : Fld := ⟨0x280000, 0, 0, 25, 1⟩
def R.CLK_STATUS_REJECTED : Fld := ⟨0x280000, 0, 0, 28, 1⟩
def R.CLK_STATUS_CAP_SOURCE : Fld := ⟨0x280000, 0, 0, 29, 3⟩

/-! CLK_CTL (13_power_clocks.md). -/
def R.CLK_CTL_MAX_MHZ : Fld := ⟨0x280008, 0, 0, 0, 12⟩
def R.CLK_CTL_ISO_MHZ : Fld := ⟨0x280008, 0, 0, 16, 12⟩

/-! CLK_COMMIT (13_power_clocks.md). -/
def R.CLK_COMMIT_COMMIT : Fld := ⟨0x280010, 0, 0, 0, 1⟩

/-! CLK_DERATE (13_power_clocks.md). -/
def R.CLK_DERATE_DERATE : Fld := ⟨0x280100, 8, 0, 0, 64⟩

/-! BOOT_STATE (14_bring_up.md). -/
def R.BOOT_STATE_STAGE : Fld := ⟨0x100000, 0, 0, 0, 4⟩
def R.BOOT_STATE_STATE : Fld := ⟨0x100000, 0, 0, 4, 3⟩
def R.BOOT_STATE_FAIL_STAGE : Fld := ⟨0x100000, 0, 0, 8, 4⟩
def R.BOOT_STATE_STATUS : Fld := ⟨0x100000, 0, 0, 16, 16⟩
def R.BOOT_STATE_TEST_RUN : Fld := ⟨0x100000, 0, 0, 32, 2⟩
def R.BOOT_STATE_NEXT_BUSY : Fld := ⟨0x100000, 0, 0, 34, 1⟩
def R.BOOT_STATE_NEXT_REJECTED : Fld := ⟨0x100000, 0, 0, 35, 1⟩

/-! BOOT_PROGRESS (14_bring_up.md). -/
def R.BOOT_PROGRESS_PERCENT : Fld := ⟨0x100008, 0, 0, 0, 7⟩
def R.BOOT_PROGRESS_PATTERN : Fld := ⟨0x100008, 0, 0, 8, 4⟩
def R.BOOT_PROGRESS_STACK : Fld := ⟨0x100008, 0, 0, 12, 4⟩
def R.BOOT_PROGRESS_CHANNEL : Fld := ⟨0x100008, 0, 0, 16, 3⟩
def R.BOOT_PROGRESS_BANK : Fld := ⟨0x100008, 0, 0, 20, 6⟩
def R.BOOT_PROGRESS_ITEM : Fld := ⟨0x100008, 0, 0, 32, 9⟩
def R.BOOT_PROGRESS_ETA_S : Fld := ⟨0x100008, 0, 0, 48, 16⟩

/-! BOOT_NEXT (14_bring_up.md). -/
def R.BOOT_NEXT_TEST : Fld := ⟨0x100010, 0, 0, 0, 2⟩
def R.BOOT_NEXT_HOLD : Fld := ⟨0x100010, 0, 0, 4, 4⟩

/-! BOOT_NEXT_COMMIT (14_bring_up.md). -/
def R.BOOT_NEXT_COMMIT_COMMIT : Fld := ⟨0x100018, 0, 0, 0, 1⟩

/-! BOOT_RESET (14_bring_up.md). -/
def R.BOOT_RESET_MODULE : Fld := ⟨0x100020, 0, 0, 0, 1⟩
def R.BOOT_RESET_COMPUTE : Fld := ⟨0x100020, 0, 0, 1, 1⟩
def R.BOOT_RESET_CORE : Fld := ⟨0x100020, 0, 0, 2, 1⟩
def R.BOOT_RESET_CORE_INDEX : Fld := ⟨0x100020, 0, 0, 8, 9⟩

/-! BOOT_RESET_STATUS (14_bring_up.md). -/
def R.BOOT_RESET_STATUS_BUSY : Fld := ⟨0x100028, 0, 0, 0, 1⟩
def R.BOOT_RESET_STATUS_LAST_SCOPE : Fld := ⟨0x100028, 0, 0, 1, 2⟩
def R.BOOT_RESET_STATUS_COMPUTE_RESETS : Fld := ⟨0x100028, 0, 0, 32, 16⟩

/-! BOOT_FP_INFO (14_bring_up.md). -/
def R.BOOT_FP_INFO_GRADE : Fld := ⟨0x100030, 0, 0, 0, 4⟩
def R.BOOT_FP_INFO_STACKS : Fld := ⟨0x100030, 0, 0, 16, 12⟩
def R.BOOT_FP_INFO_LOG_APPLIED : Fld := ⟨0x100030, 0, 0, 32, 32⟩

/-! BOOT_FP_SERIAL (14_bring_up.md). -/
def R.BOOT_FP_SERIAL_SERIAL : Fld := ⟨0x100038, 0, 0, 0, 64⟩

/-! BOOT_FP_LINKS (14_bring_up.md). -/
def R.BOOT_FP_LINKS_USABLE : Fld := ⟨0x100040, 8, 0, 0, 64⟩

/-! BOOT_FP_CORE (14_bring_up.md). -/
def R.BOOT_FP_CORE_HARP_GOOD : Fld := ⟨0x101000, 8, 0, 0, 8⟩
def R.BOOT_FP_CORE_USABLE : Fld := ⟨0x101000, 8, 0, 8, 1⟩
def R.BOOT_FP_CORE_RETIRED : Fld := ⟨0x101000, 8, 0, 9, 1⟩
def R.BOOT_FP_CORE_VOFF : Fld := ⟨0x101000, 8, 0, 12, 4⟩
def R.BOOT_FP_CORE_DERATE : Fld := ⟨0x101000, 8, 0, 16, 4⟩
def R.BOOT_FP_CORE_FACTORY_HARPS : Fld := ⟨0x101000, 8, 0, 24, 8⟩
def R.BOOT_FP_CORE_FACTORY_USABLE : Fld := ⟨0x101000, 8, 0, 32, 1⟩
def R.BOOT_FP_CORE_FACTORY_VOFF : Fld := ⟨0x101000, 8, 0, 36, 4⟩
def R.BOOT_FP_CORE_FACTORY_DERATE : Fld := ⟨0x101000, 8, 0, 40, 4⟩

/-! BOOT_REPORT (14_bring_up.md). -/
def R.BOOT_REPORT_STATE : Fld := ⟨0x100100, 32, 0, 0, 3⟩
def R.BOOT_REPORT_STATUS : Fld := ⟨0x100100, 32, 0, 16, 16⟩
def R.BOOT_REPORT_WARNINGS : Fld := ⟨0x100100, 32, 0, 32, 16⟩

/-! BOOT_REPORT_START (14_bring_up.md). -/
def R.BOOT_REPORT_START_START_TSC : Fld := ⟨0x100108, 32, 0, 0, 64⟩

/-! BOOT_REPORT_END (14_bring_up.md). -/
def R.BOOT_REPORT_END_END_TSC : Fld := ⟨0x100110, 32, 0, 0, 64⟩

/-! BOOT_REPORT_DETAIL (14_bring_up.md). -/
def R.BOOT_REPORT_DETAIL_DETAIL : Fld := ⟨0x100118, 32, 0, 0, 64⟩

/-! RAS_ERR_STATUS (15_reliability.md). -/
def R.RAS_ERR_STATUS_WRITTEN : Fld := ⟨0xd00000, 0, 0, 0, 32⟩
def R.RAS_ERR_STATUS_HELD : Fld := ⟨0xd00000, 0, 0, 32, 11⟩

/-! RAS_ERR_SEL (15_reliability.md). -/
def R.RAS_ERR_SEL_INDEX : Fld := ⟨0xd00008, 0, 0, 0, 32⟩

/-! RAS_ERR_W (15_reliability.md). -/
def R.RAS_ERR_W_WORD : Fld := ⟨0xd00040, 8, 0, 0, 64⟩

/-! RAS_CE_LIMIT (15_reliability.md). -/
def R.RAS_CE_LIMIT_PER_HOUR : Fld := ⟨0xd00080, 0, 0, 0, 32⟩

/-! RAS_FIT_CFG (15_reliability.md). -/
def R.RAS_FIT_CFG_ENABLE : Fld := ⟨0xd00100, 0, 0, 0, 1⟩
def R.RAS_FIT_CFG_PERIOD_H : Fld := ⟨0xd00100, 0, 0, 8, 8⟩
def R.RAS_FIT_CFG_MAX_DEFER_S : Fld := ⟨0xd00100, 0, 0, 16, 16⟩

/-! RAS_FIT_STATUS (15_reliability.md). -/
def R.RAS_FIT_STATUS_TESTING : Fld := ⟨0xd00108, 0, 0, 0, 9⟩
def R.RAS_FIT_STATUS_DUE : Fld := ⟨0xd00108, 0, 0, 16, 9⟩
def R.RAS_FIT_STATUS_FAILS : Fld := ⟨0xd00108, 0, 0, 32, 16⟩
def R.RAS_FIT_STATUS_DEFERRED : Fld := ⟨0xd00108, 0, 0, 48, 16⟩

/-! RAS_PDD_CTL (15_reliability.md). -/
def R.RAS_PDD_CTL_ENABLE : Fld := ⟨0xd00200, 0, 0, 0, 16⟩

/-! RAS_PDD_STATUS (15_reliability.md). -/
def R.RAS_PDD_STATUS_ACTIVE : Fld := ⟨0xd00208, 0, 0, 0, 16⟩
def R.RAS_PDD_STATUS_REFUSED : Fld := ⟨0xd00208, 0, 0, 16, 1⟩
def R.RAS_PDD_STATUS_MISMATCHES : Fld := ⟨0xd00208, 0, 0, 32, 16⟩

/-! RAS_MAINT (15_reliability.md). -/
def R.RAS_MAINT_DEFERRALS : Fld := ⟨0xd00300, 8, 0, 0, 32⟩
def R.RAS_MAINT_LONGEST_MS : Fld := ⟨0xd00300, 8, 0, 32, 16⟩
def R.RAS_MAINT_OVERDUE : Fld := ⟨0xd00300, 8, 0, 48, 1⟩
def R.RAS_MAINT_RUNNING : Fld := ⟨0xd00300, 8, 0, 49, 1⟩

/-! RAS_HALT_CTL (15_reliability.md). -/
def R.RAS_HALT_CTL_START : Fld := ⟨0xd00400, 0, 0, 0, 1⟩
def R.RAS_HALT_CTL_RELEASE : Fld := ⟨0xd00400, 0, 0, 1, 1⟩
def R.RAS_HALT_CTL_LEAD_NS : Fld := ⟨0xd00400, 0, 0, 16, 16⟩

/-! RAS_HALT_STATUS (15_reliability.md). -/
def R.RAS_HALT_STATUS_STATE : Fld := ⟨0xd00408, 0, 0, 0, 2⟩
def R.RAS_HALT_STATUS_CAUSE : Fld := ⟨0xd00408, 0, 0, 2, 4⟩
def R.RAS_HALT_STATUS_INITIATOR : Fld := ⟨0xd00408, 0, 0, 6, 5⟩
def R.RAS_HALT_STATUS_LATE : Fld := ⟨0xd00408, 0, 0, 11, 1⟩
def R.RAS_HALT_STATUS_HALTS : Fld := ⟨0xd00408, 0, 0, 32, 16⟩

/-! RAS_HALT_TSC (15_reliability.md). -/
def R.RAS_HALT_TSC_CUT : Fld := ⟨0xd00410, 0, 0, 0, 64⟩

/-! RAS_HALT_COUNTS (15_reliability.md). -/
def R.RAS_HALT_COUNTS_DONE : Fld := ⟨0xd00418, 0, 0, 0, 32⟩
def R.RAS_HALT_COUNTS_CANCELLED : Fld := ⟨0xd00418, 0, 0, 32, 32⟩

/-! RAS_FIT_CORE (15_reliability.md). -/
def R.RAS_FIT_CORE_AGE_S : Fld := ⟨0xd01000, 8, 0, 0, 32⟩
def R.RAS_FIT_CORE_RESULT : Fld := ⟨0xd01000, 8, 0, 32, 2⟩
def R.RAS_FIT_CORE_DUE : Fld := ⟨0xd01000, 8, 0, 34, 1⟩

/-! CNT (16_observability.md). -/
def R.CNT_COUNT : Fld := ⟨0x1008000, 65536, 8, 0, 48⟩

/-! CNT_SNAP (16_observability.md). -/
def R.CNT_SNAP_COUNT : Fld := ⟨0x1008400, 65536, 8, 0, 48⟩

/-! CNT_CTL (16_observability.md). -/
def R.CNT_CTL_AUTO_RESET : Fld := ⟨0x1008800, 65536, 0, 0, 1⟩
def R.CNT_CTL_AUTO_SNAP : Fld := ⟨0x1008800, 65536, 0, 1, 1⟩
def R.CNT_CTL_CLEAR : Fld := ⟨0x1008800, 65536, 0, 2, 1⟩
def R.CNT_CTL_FREEZE : Fld := ⟨0x1008800, 65536, 0, 3, 1⟩

/-! CNT_SNAP_CTL (16_observability.md). -/
def R.CNT_SNAP_CTL_TAKE : Fld := ⟨0x1008808, 65536, 0, 0, 1⟩

/-! CNT_SNAP_INFO (16_observability.md). -/
def R.CNT_SNAP_INFO_SEQ : Fld := ⟨0x1008810, 65536, 0, 0, 32⟩
def R.CNT_SNAP_INFO_CAUSE : Fld := ⟨0x1008810, 65536, 0, 32, 3⟩
def R.CNT_SNAP_INFO_LATE : Fld := ⟨0x1008810, 65536, 0, 35, 1⟩

/-! CNT_SNAP_CMD (16_observability.md). -/
def R.CNT_SNAP_CMD_TAG : Fld := ⟨0x1008818, 65536, 0, 0, 32⟩
def R.CNT_SNAP_CMD_RING : Fld := ⟨0x1008818, 65536, 0, 32, 6⟩
def R.CNT_SNAP_CMD_SLOT : Fld := ⟨0x1008818, 65536, 0, 38, 13⟩

/-! CNT_SNAP_TSC (16_observability.md). -/
def R.CNT_SNAP_TSC_TSC : Fld := ⟨0x1008820, 65536, 0, 0, 64⟩

/-! CNT_TRACE_VA (16_observability.md). -/
def R.CNT_TRACE_VA_TRACE_VA : Fld := ⟨0x1008900, 65536, 0, 6, 42⟩

/-! CNT_TRACE_CTL (16_observability.md). -/
def R.CNT_TRACE_CTL_ENABLE : Fld := ⟨0x1008908, 65536, 0, 0, 1⟩
def R.CNT_TRACE_CTL_WRAP : Fld := ⟨0x1008908, 65536, 0, 1, 1⟩
def R.CNT_TRACE_CTL_SIZE_LOG2 : Fld := ⟨0x1008908, 65536, 0, 4, 5⟩
def R.CNT_TRACE_CTL_KINDS : Fld := ⟨0x1008908, 65536, 0, 16, 16⟩
def R.CNT_TRACE_CTL_STALL_MIN : Fld := ⟨0x1008908, 65536, 0, 32, 16⟩

/-! CNT_TRACE_STATUS (16_observability.md). -/
def R.CNT_TRACE_STATUS_WRITTEN : Fld := ⟨0x1008910, 65536, 0, 0, 32⟩
def R.CNT_TRACE_STATUS_LOST : Fld := ⟨0x1008910, 65536, 0, 32, 16⟩
def R.CNT_TRACE_STATUS_FULL : Fld := ⟨0x1008910, 65536, 0, 48, 1⟩
def R.CNT_TRACE_STATUS_FAULT : Fld := ⟨0x1008910, 65536, 0, 49, 1⟩

/-! CNT_SPWP_CFG (16_observability.md). -/
def R.CNT_SPWP_CFG_ENABLE : Fld := ⟨0x1008a00, 65536, 16, 0, 1⟩
def R.CNT_SPWP_CFG_READ : Fld := ⟨0x1008a00, 65536, 16, 1, 1⟩
def R.CNT_SPWP_CFG_WRITE : Fld := ⟨0x1008a00, 65536, 16, 2, 1⟩
def R.CNT_SPWP_CFG_ACTION : Fld := ⟨0x1008a00, 65536, 16, 4, 2⟩
def R.CNT_SPWP_CFG_HITS : Fld := ⟨0x1008a00, 65536, 16, 32, 32⟩

/-! CNT_SPWP_RANGE (16_observability.md). -/
def R.CNT_SPWP_RANGE_BASE : Fld := ⟨0x1008a08, 65536, 16, 0, 32⟩
def R.CNT_SPWP_RANGE_END : Fld := ⟨0x1008a08, 65536, 16, 32, 32⟩

/-! CNT_SPWP_HIT (16_observability.md). -/
def R.CNT_SPWP_HIT_VALID : Fld := ⟨0x1008a20, 65536, 0, 0, 1⟩
def R.CNT_SPWP_HIT_WP : Fld := ⟨0x1008a20, 65536, 0, 1, 1⟩
def R.CNT_SPWP_HIT_KIND : Fld := ⟨0x1008a20, 65536, 0, 2, 3⟩
def R.CNT_SPWP_HIT_IS_WRITE : Fld := ⟨0x1008a20, 65536, 0, 5, 1⟩
def R.CNT_SPWP_HIT_HARP : Fld := ⟨0x1008a20, 65536, 0, 6, 3⟩
def R.CNT_SPWP_HIT_PASS_TAG : Fld := ⟨0x1008a20, 65536, 0, 16, 16⟩
def R.CNT_SPWP_HIT_ADDR : Fld := ⟨0x1008a20, 65536, 0, 32, 32⟩

/-! DBG_WP_CFG (16_observability.md). -/
def R.DBG_WP_CFG_ENABLE : Fld := ⟨0xe00000, 32, 0, 0, 1⟩
def R.DBG_WP_CFG_READ : Fld := ⟨0xe00000, 32, 0, 1, 1⟩
def R.DBG_WP_CFG_WRITE : Fld := ⟨0xe00000, 32, 0, 2, 1⟩
def R.DBG_WP_CFG_ACTION : Fld := ⟨0xe00000, 32, 0, 4, 2⟩
def R.DBG_WP_CFG_SOURCE : Fld := ⟨0xe00000, 32, 0, 6, 2⟩

/-! DBG_WP_BASE (16_observability.md). -/
def R.DBG_WP_BASE_BASE : Fld := ⟨0xe00008, 32, 0, 3, 49⟩

/-! DBG_WP_END (16_observability.md). -/
def R.DBG_WP_END_END : Fld := ⟨0xe00010, 32, 0, 3, 49⟩

/-! DBG_WP_HITS (16_observability.md). -/
def R.DBG_WP_HITS_HITS : Fld := ⟨0xe00018, 32, 0, 0, 48⟩

/-! DBG_HIT_STATUS (16_observability.md). -/
def R.DBG_HIT_STATUS_WRITTEN : Fld := ⟨0xe00400, 0, 0, 0, 32⟩

/-! DBG_HIT_SEL (16_observability.md). -/
def R.DBG_HIT_SEL_INDEX : Fld := ⟨0xe00408, 0, 0, 0, 32⟩

/-! DBG_HIT_W0 (16_observability.md). -/
def R.DBG_HIT_W0_TSC : Fld := ⟨0xe00410, 0, 0, 0, 64⟩

/-! DBG_HIT_W1 (16_observability.md). -/
def R.DBG_HIT_W1_WP : Fld := ⟨0xe00418, 0, 0, 0, 4⟩
def R.DBG_HIT_W1_OP : Fld := ⟨0xe00418, 0, 0, 4, 2⟩
def R.DBG_HIT_W1_REQUESTER : Fld := ⟨0xe00418, 0, 0, 6, 4⟩
def R.DBG_HIT_W1_CORE : Fld := ⟨0xe00418, 0, 0, 16, 9⟩
def R.DBG_HIT_W1_MODULE : Fld := ⟨0xe00418, 0, 0, 26, 5⟩
def R.DBG_HIT_W1_PARTITION : Fld := ⟨0xe00418, 0, 0, 32, 4⟩
def R.DBG_HIT_W1_PART_VALID : Fld := ⟨0xe00418, 0, 0, 36, 1⟩

/-! DBG_HIT_W2 (16_observability.md). -/
def R.DBG_HIT_W2_PA : Fld := ⟨0xe00420, 0, 0, 0, 52⟩

/-! DBG_HIT_W3 (16_observability.md). -/
def R.DBG_HIT_W3_VA : Fld := ⟨0xe00428, 0, 0, 0, 48⟩
def R.DBG_HIT_W3_VA_VALID : Fld := ⟨0xe00428, 0, 0, 48, 1⟩

/-! DBG_SNAP_TSC (16_observability.md). -/
def R.DBG_SNAP_TSC_TSC : Fld := ⟨0xe00500, 0, 0, 0, 64⟩

/-! DBG_SNAP_CTL (16_observability.md). -/
def R.DBG_SNAP_CTL_ARM : Fld := ⟨0xe00508, 0, 0, 0, 1⟩
def R.DBG_SNAP_CTL_PARTS : Fld := ⟨0xe00508, 0, 0, 16, 16⟩

/-! DBG_SNAP_STATUS (16_observability.md). -/
def R.DBG_SNAP_STATUS_ARMED : Fld := ⟨0xe00510, 0, 0, 0, 1⟩
def R.DBG_SNAP_STATUS_LATE : Fld := ⟨0xe00510, 0, 0, 1, 1⟩

/-! TSC_VALUE (16_observability.md). -/
def R.TSC_VALUE_TSC : Fld := ⟨0x2c0000, 0, 0, 0, 64⟩

/-! TSC_CTL (16_observability.md). -/
def R.TSC_CTL_SOURCE : Fld := ⟨0x2c0008, 0, 0, 0, 1⟩
def R.TSC_CTL_PPS_DELAY : Fld := ⟨0x2c0008, 0, 0, 32, 32⟩

/-! TSC_PPS_NEXT (16_observability.md). -/
def R.TSC_PPS_NEXT_NEXT : Fld := ⟨0x2c0010, 0, 0, 0, 64⟩

/-! TSC_SET (16_observability.md). -/
def R.TSC_SET_VALUE : Fld := ⟨0x2c0018, 0, 0, 0, 64⟩

/-! TSC_STATUS (16_observability.md). -/
def R.TSC_STATUS_STATE : Fld := ⟨0x2c0020, 0, 0, 0, 2⟩
def R.TSC_STATUS_REF_IN : Fld := ⟨0x2c0020, 0, 0, 2, 1⟩
def R.TSC_STATUS_PPS_IN : Fld := ⟨0x2c0020, 0, 0, 3, 1⟩
def R.TSC_STATUS_REF_LOCKED : Fld := ⟨0x2c0020, 0, 0, 4, 1⟩
def R.TSC_STATUS_OFFSET : Fld := ⟨0x2c0020, 0, 0, 16, 16⟩
def R.TSC_STATUS_STEPS : Fld := ⟨0x2c0020, 0, 0, 32, 16⟩

/-! TSC_PPS_LATCH (16_observability.md). -/
def R.TSC_PPS_LATCH_TSC : Fld := ⟨0x2c0028, 0, 0, 0, 64⟩

/-- The registers whose maps stand in spec/01_architecture.md. -/
def regRows01 : List RegRow := [
  -- GLB_ID
  ⟨0x0, 0, 1, 0, 1, 0x1004e49454e, [⟨0, 32, .ro, 0, 4294967295⟩, ⟨32, 4, .ro, 0, 15⟩, ⟨40, 8, .ro, 0, 255⟩]⟩,
  -- GLB_GEOMETRY
  ⟨0x8, 0, 1, 0, 1, 0x81012, [⟨0, 8, .ro, 0, 255⟩, ⟨8, 8, .ro, 0, 255⟩, ⟨16, 4, .ro, 0, 15⟩, ⟨20, 4, .ro, 0, 15⟩, ⟨24, 9, .ro, 0, 511⟩, ⟨40, 7, .ro, 0, 127⟩, ⟨48, 12, .ro, 0, 4095⟩]⟩,
  -- GLB_CORE_MAP
  ⟨0x10, 8, 5, 0, 1, 0x0, [⟨0, 64, .ro, 0, 18446744073709551615⟩]⟩,
  -- GLB_FP_GEN
  ⟨0x38, 0, 1, 0, 1, 0x0, [⟨0, 32, .ro, 0, 4294967295⟩]⟩]

/-- The registers whose maps stand in spec/02_harp_engine.md. -/
def regRows02 : List RegRow := [
  -- HRP_STATUS
  ⟨0x1000000, 65536, 288, 2048, 8, 0x0, [⟨0, 3, .ro, 0, 7⟩, ⟨3, 1, .ro, 0, 1⟩, ⟨4, 2, .ro, 0, 3⟩, ⟨6, 2, .ro, 0, 3⟩, ⟨8, 3, .ro, 0, 7⟩, ⟨16, 5, .ro, 0, 31⟩, ⟨24, 5, .ro, 0, 31⟩, ⟨32, 3, .ro, 0, 7⟩]⟩,
  -- HRP_GOOD
  ⟨0x1000008, 65536, 288, 2048, 8, 0x0, [⟨0, 8, .ro, 0, 255⟩, ⟨8, 1, .ro, 0, 1⟩]⟩,
  -- HRP_PASS
  ⟨0x1000010, 65536, 288, 2048, 8, 0x0, [⟨0, 16, .ro, 0, 65535⟩, ⟨16, 16, .ro, 0, 65535⟩, ⟨32, 16, .ro, 0, 65535⟩, ⟨48, 16, .ro, 0, 65535⟩]⟩,
  -- HRP_EXC_LAST
  ⟨0x1000018, 65536, 288, 2048, 8, 0x0, [⟨0, 1, .ro, 0, 1⟩, ⟨1, 1, .ro, 0, 1⟩, ⟨2, 1, .ro, 0, 1⟩, ⟨3, 1, .ro, 0, 1⟩, ⟨16, 16, .ro, 0, 65535⟩, ⟨32, 32, .ro, 0, 4294967295⟩]⟩,
  -- HRP_EXC_ACC
  ⟨0x1000020, 65536, 288, 2048, 8, 0x0, [⟨0, 4, .w1c, 0, 15⟩, ⟨32, 32, .w1c, 0, 4294967295⟩]⟩,
  -- HRP_TRAP
  ⟨0x1000028, 65536, 288, 2048, 8, 0x0, [⟨0, 1, .w1c, 0, 1⟩, ⟨1, 5, .ro, 0, 31⟩, ⟨16, 16, .ro, 0, 65535⟩, ⟨32, 16, .ro, 0, 65535⟩]⟩,
  -- HRP_TRAP_K
  ⟨0x1000030, 65536, 288, 2048, 8, 0x0, [⟨0, 40, .ro, 0, 1099511627775⟩, ⟨40, 16, .ro, 0, 65535⟩]⟩,
  -- FDL_CAPS
  ⟨0x1004000, 65536, 288, 0, 1, 0x540240, [⟨0, 8, .ro, 0, 255⟩, ⟨8, 4, .ro, 0, 15⟩, ⟨12, 8, .ro, 0, 255⟩, ⟨20, 4, .ro, 0, 15⟩]⟩,
  -- FDL_STATUS
  ⟨0x1004008, 65536, 288, 0, 1, 0x0, [⟨0, 2, .ro, 0, 3⟩, ⟨2, 1, .ro, 0, 1⟩]⟩,
  -- FDL_FLAGS
  ⟨0x1004010, 65536, 288, 0, 1, 0x0, [⟨0, 1, .w1c, 0, 1⟩, ⟨1, 1, .w1c, 0, 1⟩, ⟨2, 1, .w1c, 0, 1⟩, ⟨3, 1, .w1c, 0, 1⟩, ⟨4, 1, .w1c, 0, 1⟩, ⟨5, 1, .w1c, 0, 1⟩, ⟨6, 1, .w1c, 0, 1⟩]⟩,
  -- FDL_POLY_RANGE
  ⟨0x1004020, 65536, 288, 8, 2, 0x0, [⟨0, 32, .ro, 0, 4294967295⟩, ⟨32, 32, .ro, 0, 4294967295⟩]⟩]

/-- The registers whose maps stand in spec/05_scratchpad.md. -/
def regRows05 : List RegRow := [
  -- SPD_SIZE
  ⟨0x1006000, 65536, 288, 0, 1, 0x40100000200000, [⟨0, 32, .ro, 0, 4294967295⟩, ⟨32, 16, .ro, 0, 65535⟩, ⟨48, 8, .ro, 0, 255⟩]⟩,
  -- SPD_OVERLAP_CTL
  ⟨0x1006008, 65536, 288, 0, 1, 0x0, [⟨0, 1, .rw, 0, 1⟩, ⟨1, 1, .ro, 0, 1⟩, ⟨8, 7, .ro, 0, 127⟩]⟩,
  -- SPD_OVERLAP_REC0
  ⟨0x1006010, 65536, 288, 0, 1, 0x0, [⟨0, 1, .w1c, 0, 1⟩, ⟨1, 3, .ro, 0, 7⟩, ⟨4, 3, .ro, 0, 7⟩, ⟨8, 3, .ro, 0, 7⟩, ⟨11, 3, .ro, 0, 7⟩, ⟨16, 16, .ro, 0, 65535⟩, ⟨32, 16, .ro, 0, 65535⟩]⟩,
  -- SPD_OVERLAP_REC1
  ⟨0x1006018, 65536, 288, 0, 1, 0x0, [⟨0, 32, .ro, 0, 4294967295⟩, ⟨32, 1, .ro, 0, 1⟩, ⟨33, 1, .ro, 0, 1⟩]⟩,
  -- SPD_ECC
  ⟨0x1006020, 65536, 288, 0, 1, 0x0, [⟨0, 32, .rc, 0, 4294967295⟩, ⟨32, 16, .rc, 0, 65535⟩]⟩,
  -- SPD_ECC_ADDR
  ⟨0x1006028, 65536, 288, 0, 1, 0x0, [⟨0, 1, .w1c, 0, 1⟩, ⟨3, 29, .ro, 0, 536870911⟩]⟩]

/-- The registers whose maps stand in spec/06_ordering_model.md. -/
def regRows06 : List RegRow := [
  -- PRT_GUARD_FLAG
  ⟨0x480000, 1024, 16, 32, 32, 0x0, [⟨3, 45, .rwc, 0, 35184372088831⟩, ⟨63, 1, .rwc, 0, 1⟩]⟩,
  -- PRT_GUARD_BASE
  ⟨0x480008, 1024, 16, 32, 32, 0x0, [⟨6, 42, .rwc, 0, 4398046511103⟩]⟩,
  -- PRT_GUARD_END
  ⟨0x480010, 1024, 16, 32, 32, 0x0, [⟨6, 42, .rwc, 0, 4398046511103⟩]⟩,
  -- PRT_GUARD_COMMIT
  ⟨0x484000, 16, 16, 0, 1, 0x0, [⟨0, 1, .wo, 0, 1⟩]⟩,
  -- PRT_GUARD_STATUS
  ⟨0x484008, 16, 16, 0, 1, 0x0, [⟨0, 1, .ro, 0, 1⟩, ⟨1, 1, .w1c, 0, 1⟩, ⟨8, 6, .ro, 0, 63⟩]⟩,
  -- PRT_ORDER_STATUS
  ⟨0x484100, 0, 1, 0, 1, 0x101, [⟨0, 1, .ro, 0, 1⟩, ⟨8, 6, .ro, 0, 63⟩, ⟨16, 32, .rc, 0, 4294967295⟩, ⟨48, 8, .rc, 0, 255⟩]⟩]

/-- The registers whose maps stand in spec/07_kv_cache.md. -/
def regRows07 : List RegRow := [
  -- KPU_RGN_CFG
  ⟨0x740000, 256, 64, 0, 1, 0x0, [⟨0, 1, .rwc, 0, 1⟩, ⟨1, 4, .rwc, 0, 15⟩, ⟨8, 4, .rwc, 0, 15⟩, ⟨12, 2, .rwc, 0, 3⟩, ⟨16, 8, .rwc, 0, 255⟩, ⟨24, 6, .rwc, 0, 63⟩, ⟨32, 6, .rwc, 0, 63⟩, ⟨40, 6, .rwc, 0, 63⟩, ⟨48, 1, .rwc, 0, 1⟩, ⟨49, 1, .rwc, 0, 1⟩, ⟨52, 4, .ro, 0, 15⟩]⟩,
  -- KPU_RGN_BASE
  ⟨0x740008, 256, 64, 0, 1, 0x0, [⟨30, 18, .rwc, 0, 262143⟩]⟩,
  -- KPU_RGN_SEQTAB
  ⟨0x740010, 256, 64, 0, 1, 0x0, [⟨6, 42, .rwc, 0, 4398046511103⟩]⟩,
  -- KPU_RGN_NEAR
  ⟨0x740018, 256, 64, 0, 1, 0x0, [⟨16, 36, .rwc, 0, 68719476735⟩]⟩,
  -- KPU_RGN_FAR
  ⟨0x740020, 256, 64, 0, 1, 0x0, [⟨16, 36, .rwc, 0, 68719476735⟩]⟩,
  -- KPU_RGN_SCALE
  ⟨0x740030, 256, 64, 0, 1, 0x0, [⟨11, 41, .rwc, 0, 2199023255551⟩]⟩,
  -- KPU_RGN_META
  ⟨0x740038, 256, 64, 0, 1, 0x0, [⟨12, 40, .rwc, 0, 1099511627775⟩]⟩,
  -- KPU_RGN_POOLS
  ⟨0x740028, 256, 64, 0, 1, 0x0, [⟨0, 32, .rwc, 0, 4294967295⟩, ⟨32, 32, .rwc, 0, 4294967295⟩]⟩,
  -- KPU_RGN_LIMITS
  ⟨0x740040, 256, 64, 0, 1, 0x0, [⟨0, 24, .rwc, 0, 16777215⟩, ⟨24, 24, .rwc, 0, 16777215⟩]⟩,
  -- KPU_RGN_COMMIT
  ⟨0x740048, 256, 64, 0, 1, 0x0, [⟨0, 1, .wo, 0, 1⟩]⟩,
  -- KPU_RGN_STATUS
  ⟨0x740050, 256, 64, 0, 1, 0x0, [⟨0, 2, .ro, 0, 3⟩, ⟨2, 1, .ro, 0, 1⟩, ⟨3, 1, .w1c, 0, 1⟩, ⟨4, 4, .ro, 0, 15⟩, ⟨8, 24, .ro, 0, 16777215⟩]⟩,
  -- KPU_FREE
  ⟨0x780000, 256, 64, 16, 12, 0x0, [⟨0, 32, .ro, 0, 4294967295⟩, ⟨32, 32, .ro, 0, 4294967295⟩]⟩,
  -- KPU_EVT
  ⟨0x780008, 256, 64, 16, 12, 0x0, [⟨0, 1, .w1c, 0, 1⟩, ⟨1, 1, .ro, 0, 1⟩, ⟨16, 16, .rc, 0, 65535⟩, ⟨32, 16, .rc, 0, 65535⟩, ⟨48, 16, .rc, 0, 65535⟩]⟩,
  -- KPU_UNIT_STATUS
  ⟨0x700000, 256, 12, 0, 1, 0x0, [⟨0, 2, .ro, 0, 3⟩, ⟨2, 1, .ro, 0, 1⟩, ⟨8, 4, .ro, 0, 15⟩, ⟨16, 7, .ro, 0, 127⟩, ⟨32, 16, .ro, 0, 65535⟩]⟩]

/-- The registers whose maps stand in spec/08_memory_system.md. -/
def regRows08 : List RegRow := [
  -- MEM_STACK_STATUS
  ⟨0x900000, 4096, 12, 0, 1, 0x0, [⟨0, 3, .ro, 0, 7⟩, ⟨3, 1, .ro, 0, 1⟩, ⟨8, 8, .ro, 0, 255⟩, ⟨16, 8, .ro, 0, 255⟩, ⟨32, 8, .ro, 0, 255⟩, ⟨40, 1, .ro, 0, 1⟩]⟩,
  -- MEM_ECC
  ⟨0x900008, 4096, 12, 0, 1, 0x0, [⟨0, 32, .rc, 0, 4294967295⟩, ⟨32, 16, .rc, 0, 65535⟩, ⟨48, 16, .rc, 0, 65535⟩]⟩,
  -- MEM_ERR_ADDR
  ⟨0x900010, 4096, 12, 0, 1, 0x0, [⟨0, 1, .w1c, 0, 1⟩, ⟨6, 46, .ro, 0, 70368744177663⟩, ⟨52, 3, .ro, 0, 7⟩, ⟨55, 1, .ro, 0, 1⟩, ⟨56, 5, .ro, 0, 31⟩]⟩,
  -- MEM_SCRUB_CTL
  ⟨0x90c000, 0, 1, 0, 1, 0x1801, [⟨0, 1, .rwc, 0, 1⟩, ⟨8, 8, .rwc, 0, 255⟩]⟩,
  -- MEM_SCRUB_STATUS
  ⟨0x90c008, 0, 1, 0, 1, 0x0, [⟨0, 7, .ro, 0, 127⟩, ⟨8, 4, .ro, 0, 15⟩, ⟨16, 32, .ro, 0, 4294967295⟩, ⟨48, 16, .rc, 0, 65535⟩]⟩,
  -- MEM_RETRAIN_CTL
  ⟨0x90c010, 0, 1, 0, 1, 0xa003c, [⟨0, 16, .rwc, 0, 65535⟩, ⟨16, 8, .rwc, 0, 255⟩]⟩,
  -- MEM_COMMIT
  ⟨0x90c018, 0, 1, 0, 1, 0x0, [⟨0, 1, .wo, 0, 1⟩]⟩,
  -- CCH_SLICE_STATUS
  ⟨0x800000, 4096, 12, 0, 1, 0x0, [⟨0, 2, .ro, 0, 3⟩, ⟨2, 1, .ro, 0, 1⟩, ⟨8, 24, .ro, 0, 16777215⟩, ⟨32, 9, .ro, 0, 511⟩, ⟨41, 9, .ro, 0, 511⟩]⟩,
  -- CCH_WAYMASK
  ⟨0x80c000, 8, 16, 0, 1, 0xffff, [⟨0, 16, .rwc, 0, 65535⟩]⟩,
  -- CCH_WAY_COMMIT
  ⟨0x80c080, 0, 1, 0, 1, 0x0, [⟨0, 1, .wo, 0, 1⟩]⟩,
  -- CCH_FLUSH_BASE
  ⟨0x80c100, 0, 1, 0, 1, 0x0, [⟨6, 46, .rw, 0, 70368744177663⟩]⟩,
  -- CCH_FLUSH_END
  ⟨0x80c108, 0, 1, 0, 1, 0x0, [⟨6, 46, .rw, 0, 70368744177663⟩]⟩,
  -- CCH_FLUSH_CTL
  ⟨0x80c110, 0, 1, 0, 1, 0x0, [⟨0, 1, .wo, 0, 1⟩, ⟨1, 1, .ro, 0, 1⟩]⟩,
  -- DTU_CTX_ROOT
  ⟨0x600000, 8, 16, 0, 1, 0x0, [⟨0, 1, .rw, 0, 1⟩, ⟨8, 44, .rw, 0, 17592186044415⟩]⟩,
  -- DTU_INVAL_VA
  ⟨0x600100, 0, 1, 0, 1, 0x0, [⟨16, 32, .rw, 0, 4294967295⟩]⟩,
  -- DTU_INVAL_CTL
  ⟨0x600108, 0, 1, 0, 1, 0x0, [⟨0, 4, .wo, 0, 15⟩, ⟨4, 1, .wo, 0, 1⟩, ⟨8, 32, .wo, 0, 4294967295⟩]⟩,
  -- DTU_INVAL_STATUS
  ⟨0x600110, 0, 1, 0, 1, 0x0, [⟨0, 1, .ro, 0, 1⟩]⟩,
  -- DTU_FAULT
  ⟨0x600200, 0, 1, 0, 1, 0x0, [⟨0, 1, .w1c, 0, 1⟩, ⟨1, 3, .ro, 0, 7⟩, ⟨4, 4, .ro, 0, 15⟩, ⟨8, 2, .ro, 0, 3⟩, ⟨10, 1, .ro, 0, 1⟩, ⟨11, 9, .ro, 0, 511⟩, ⟨20, 1, .ro, 0, 1⟩]⟩,
  -- DTU_FAULT_VA
  ⟨0x600208, 0, 1, 0, 1, 0x0, [⟨0, 48, .ro, 0, 281474976710655⟩]⟩]

/-- The registers whose maps stand in spec/09_work_submission.md. -/
def regRows09 : List RegRow := [
  -- SEQ_CAPS
  ⟨0x300000, 0, 1, 0, 1, 0x22000040804040, [⟨0, 8, .ro, 0, 255⟩, ⟨8, 8, .ro, 0, 255⟩, ⟨16, 8, .ro, 0, 255⟩, ⟨24, 8, .ro, 0, 255⟩, ⟨32, 32, .ro, 0, 4294967295⟩]⟩,
  -- SEQ_SCHED
  ⟨0x300008, 0, 1, 0, 1, 0x3e807d00064, [⟨0, 8, .rwc, 0, 255⟩, ⟨16, 16, .rwc, 0, 65535⟩, ⟨32, 16, .rwc, 0, 65535⟩]⟩,
  -- SEQ_COMMIT
  ⟨0x300010, 0, 1, 0, 1, 0x0, [⟨0, 1, .wo, 0, 1⟩]⟩,
  -- SEQ_STATUS
  ⟨0x300018, 0, 1, 0, 1, 0x0, [⟨0, 2, .ro, 0, 3⟩, ⟨2, 8, .ro, 0, 255⟩, ⟨10, 9, .ro, 0, 511⟩, ⟨32, 32, .rc, 0, 4294967295⟩]⟩,
  -- SEQ_RQ_BASE
  ⟨0x310000, 256, 64, 0, 1, 0x0, [⟨0, 1, .rwc, 0, 1⟩, ⟨12, 52, .rwc, 0, 4503599627370495⟩]⟩,
  -- SEQ_RQ_CFG
  ⟨0x310008, 256, 64, 0, 1, 0x1000000, [⟨0, 1, .rwc, 0, 1⟩, ⟨1, 4, .rwc, 0, 15⟩, ⟨8, 4, .rwc, 0, 15⟩, ⟨16, 6, .rwc, 0, 63⟩, ⟨24, 16, .rwc, 0, 65535⟩, ⟨40, 1, .rwc, 0, 1⟩, ⟨48, 8, .rwc, 0, 255⟩]⟩,
  -- SEQ_RQ_GANG
  ⟨0x310010, 256, 64, 0, 1, 0x0, [⟨0, 32, .rwc, 0, 4294967295⟩]⟩,
  -- SEQ_RQ_CORES
  ⟨0x310018, 256, 64, 8, 5, 0x0, [⟨0, 64, .rwc, 0, 18446744073709551615⟩]⟩,
  -- SEQ_RQ_SAVE
  ⟨0x310040, 256, 64, 0, 1, 0x0, [⟨16, 36, .rwc, 0, 68719476735⟩]⟩,
  -- SEQ_RQ_CTL
  ⟨0x310048, 256, 64, 0, 1, 0x0, [⟨0, 1, .wo, 0, 1⟩, ⟨1, 1, .wo, 0, 1⟩, ⟨2, 1, .wo, 0, 1⟩, ⟨3, 1, .wo, 0, 1⟩, ⟨4, 1, .wo, 0, 1⟩]⟩,
  -- SEQ_RQ_STATUS
  ⟨0x310050, 256, 64, 0, 1, 0x0, [⟨0, 3, .ro, 0, 7⟩, ⟨3, 1, .ro, 0, 1⟩, ⟨4, 1, .w1c, 0, 1⟩, ⟨5, 3, .ro, 0, 7⟩, ⟨8, 13, .ro, 0, 8191⟩, ⟨24, 8, .ro, 0, 255⟩, ⟨32, 13, .ro, 0, 8191⟩, ⟨45, 1, .ro, 0, 1⟩, ⟨46, 1, .ro, 0, 1⟩, ⟨48, 2, .ro, 0, 3⟩]⟩,
  -- SEQ_RQ_ENGINE
  ⟨0x310058, 256, 64, 0, 1, 0x0, [⟨0, 64, .ro, 0, 18446744073709551615⟩]⟩,
  -- SEQ_RQ_CONTEND
  ⟨0x310060, 256, 64, 0, 1, 0x0, [⟨0, 64, .ro, 0, 18446744073709551615⟩]⟩,
  -- SEQ_RQ_THROTTLE
  ⟨0x310068, 256, 64, 0, 1, 0x0, [⟨0, 64, .ro, 0, 18446744073709551615⟩]⟩,
  -- SEQ_CQ_BASE
  ⟨0x320000, 64, 64, 0, 1, 0x0, [⟨12, 52, .rwc, 0, 4503599627370495⟩]⟩,
  -- SEQ_CQ_CFG
  ⟨0x320008, 64, 64, 0, 1, 0x0, [⟨0, 1, .rwc, 0, 1⟩, ⟨1, 4, .rwc, 0, 15⟩, ⟨5, 1, .rwc, 0, 1⟩, ⟨6, 1, .rwc, 0, 1⟩, ⟨8, 4, .rwc, 0, 15⟩, ⟨12, 2, .rwc, 0, 3⟩, ⟨16, 11, .rwc, 0, 2047⟩, ⟨32, 16, .rwc, 0, 65535⟩]⟩,
  -- SEQ_CQ_CTL
  ⟨0x320010, 64, 64, 0, 1, 0x0, [⟨0, 1, .wo, 0, 1⟩]⟩,
  -- SEQ_CQ_STATUS
  ⟨0x320018, 64, 64, 0, 1, 0x0, [⟨0, 32, .ro, 0, 4294967295⟩, ⟨32, 8, .ro, 0, 255⟩, ⟨40, 1, .ro, 0, 1⟩, ⟨41, 1, .w1c, 0, 1⟩, ⟨42, 9, .ro, 0, 511⟩]⟩]

/-- The registers whose maps stand in spec/10_partitions_security.md. -/
def regRows10 : List RegRow := [
  -- PRT_CFG
  ⟨0x400000, 256, 16, 0, 1, 0x10104, [⟨0, 1, .rwc, 0, 1⟩, ⟨1, 1, .rwc, 0, 1⟩, ⟨2, 1, .rwc, 0, 1⟩, ⟨3, 1, .rwc, 0, 1⟩, ⟨8, 8, .rwc, 0, 255⟩, ⟨16, 8, .rwc, 0, 255⟩, ⟨32, 16, .rwc, 0, 65535⟩]⟩,
  -- PRT_CORE
  ⟨0x400008, 256, 16, 8, 5, 0x0, [⟨0, 64, .rwc, 0, 18446744073709551615⟩]⟩,
  -- PRT_RINGS
  ⟨0x400030, 256, 16, 0, 1, 0x0, [⟨0, 64, .rwc, 0, 18446744073709551615⟩]⟩,
  -- PRT_CQS
  ⟨0x400038, 256, 16, 0, 1, 0x0, [⟨0, 64, .rwc, 0, 18446744073709551615⟩]⟩,
  -- PRT_REGIONS
  ⟨0x400040, 256, 16, 0, 1, 0x0, [⟨0, 64, .rwc, 0, 18446744073709551615⟩]⟩,
  -- PRT_OWNER
  ⟨0x400048, 256, 16, 8, 4, 0x0, [⟨0, 64, .rwc, 0, 18446744073709551615⟩]⟩,
  -- PRT_CTL
  ⟨0x400068, 256, 16, 0, 1, 0x0, [⟨0, 1, .wo, 0, 1⟩, ⟨1, 1, .wo, 0, 1⟩]⟩,
  -- PRT_STATUS
  ⟨0x400070, 256, 16, 0, 1, 0x0, [⟨0, 2, .ro, 0, 3⟩, ⟨2, 1, .w1c, 0, 1⟩, ⟨3, 3, .ro, 0, 7⟩, ⟨6, 1, .ro, 0, 1⟩, ⟨7, 1, .ro, 0, 1⟩, ⟨8, 2, .ro, 0, 3⟩, ⟨10, 9, .ro, 0, 511⟩, ⟨19, 13, .ro, 0, 8191⟩, ⟨32, 15, .ro, 0, 32767⟩]⟩,
  -- PRT_POWER
  ⟨0x400078, 256, 16, 0, 1, 0x0, [⟨0, 16, .ro, 0, 65535⟩, ⟨16, 1, .ro, 0, 1⟩]⟩,
  -- PRT_RANGE_BASE
  ⟨0x410000, 16, 64, 0, 1, 0x0, [⟨0, 1, .rwc, 0, 1⟩, ⟨30, 22, .rwc, 0, 4194303⟩]⟩,
  -- PRT_RANGE_SIZE
  ⟨0x410008, 16, 64, 0, 1, 0x0, [⟨0, 16, .rwc, 0, 65535⟩, ⟨16, 4, .rwc, 0, 15⟩]⟩,
  -- PRT_RANGE_CTL
  ⟨0x410400, 0, 1, 0, 1, 0x0, [⟨0, 1, .wo, 0, 1⟩]⟩,
  -- PRT_RANGE_STATUS
  ⟨0x410408, 0, 1, 0, 1, 0x0, [⟨0, 1, .ro, 0, 1⟩, ⟨1, 1, .w1c, 0, 1⟩, ⟨2, 3, .ro, 0, 7⟩, ⟨8, 6, .ro, 0, 63⟩]⟩,
  -- PRT_ISO
  ⟨0x420000, 0, 1, 0, 1, 0x0, [⟨0, 1, .rwc, 0, 1⟩]⟩,
  -- PRT_ISO_CTL
  ⟨0x420008, 0, 1, 0, 1, 0x0, [⟨0, 1, .wo, 0, 1⟩]⟩,
  -- PRT_ISO_STATUS
  ⟨0x420010, 0, 1, 0, 1, 0x0, [⟨0, 1, .ro, 0, 1⟩, ⟨1, 1, .ro, 0, 1⟩, ⟨2, 1, .w1c, 0, 1⟩, ⟨3, 3, .ro, 0, 7⟩, ⟨6, 1, .w1c, 0, 1⟩]⟩,
  -- SEC_DIK_HASH
  ⟨0x500000, 8, 4, 0, 1, 0x0, [⟨0, 64, .ro, 0, 18446744073709551615⟩]⟩,
  -- SEC_KEM_HASH
  ⟨0x500020, 8, 4, 0, 1, 0x0, [⟨0, 64, .ro, 0, 18446744073709551615⟩]⟩,
  -- SEC_SVN
  ⟨0x500040, 0, 1, 0, 1, 0x0, [⟨0, 32, .ro, 0, 4294967295⟩, ⟨32, 32, .ro, 0, 4294967295⟩]⟩,
  -- SEC_ROLLBACK_CTL
  ⟨0x500048, 0, 1, 0, 1, 0x0, [⟨0, 1, .wo, 0, 1⟩]⟩,
  -- SEC_STATUS
  ⟨0x500050, 0, 1, 0, 1, 0x0, [⟨0, 1, .ro, 0, 1⟩, ⟨1, 1, .ro, 0, 1⟩, ⟨2, 1, .ro, 0, 1⟩, ⟨3, 1, .w1c, 0, 1⟩]⟩,
  -- SEC_IMP_SRC
  ⟨0x510000, 256, 16, 0, 1, 0x0, [⟨0, 48, .rw, 0, 281474976710655⟩]⟩,
  -- SEC_IMP_DST
  ⟨0x510008, 256, 16, 0, 1, 0x0, [⟨0, 48, .rw, 0, 281474976710655⟩]⟩,
  -- SEC_IMP_LEN
  ⟨0x510010, 256, 16, 0, 1, 0x0, [⟨0, 48, .rw, 0, 281474976710655⟩]⟩,
  -- SEC_IMP_CTL
  ⟨0x510018, 256, 16, 0, 1, 0x0, [⟨0, 1, .wo, 0, 1⟩, ⟨1, 1, .wo, 0, 1⟩, ⟨4, 4, .wo, 0, 15⟩]⟩,
  -- SEC_IMP_STATUS
  ⟨0x510020, 256, 16, 0, 1, 0x0, [⟨0, 2, .ro, 0, 3⟩, ⟨2, 4, .ro, 0, 15⟩, ⟨6, 7, .ro, 0, 127⟩, ⟨13, 4, .ro, 0, 15⟩]⟩,
  -- SEC_LOG_SEL
  ⟨0x510028, 256, 16, 0, 1, 0x0, [⟨0, 32, .rw, 0, 4294967295⟩]⟩,
  -- SEC_LOG_STATUS
  ⟨0x510030, 256, 16, 0, 1, 0x0, [⟨0, 32, .ro, 0, 4294967295⟩, ⟨32, 1, .ro, 0, 1⟩]⟩,
  -- SEC_LOG_E
  ⟨0x510038, 256, 16, 8, 4, 0x0, [⟨0, 64, .ro, 0, 18446744073709551615⟩]⟩,
  -- SEC_SEAL_BASE
  ⟨0x520000, 512, 16, 32, 16, 0x0, [⟨0, 1, .ro, 0, 1⟩, ⟨16, 32, .ro, 0, 4294967295⟩]⟩,
  -- SEC_SEAL_SIZE
  ⟨0x520008, 512, 16, 32, 16, 0x0, [⟨0, 32, .ro, 0, 4294967295⟩]⟩,
  -- SEC_SEAL_ID
  ⟨0x520010, 512, 16, 32, 16, 0x0, [⟨0, 64, .ro, 0, 18446744073709551615⟩]⟩]

/-- The registers whose maps stand in spec/11_ranior_links.md. -/
def regRows11 : List RegRow := [
  -- LNK_DOMAIN
  ⟨0xc00000, 0, 1, 0, 1, 0x10000000000, [⟨0, 32, .rwc, 0, 4294967295⟩, ⟨32, 5, .rwc, 0, 31⟩, ⟨40, 6, .rwc, 0, 63⟩, ⟨48, 5, .rwc, 0, 31⟩, ⟨53, 1, .rwc, 0, 1⟩]⟩,
  -- LNK_TIME
  ⟨0xc00008, 0, 1, 0, 1, 0x3e8007d, [⟨0, 16, .rwc, 0, 65535⟩, ⟨16, 16, .rwc, 0, 65535⟩]⟩,
  -- LNK_DOMAIN_CTL
  ⟨0xc00010, 0, 1, 0, 1, 0x0, [⟨0, 1, .wo, 0, 1⟩]⟩,
  -- LNK_DOMAIN_STATUS
  ⟨0xc00018, 0, 1, 0, 1, 0x0, [⟨0, 1, .w1c, 0, 1⟩, ⟨1, 2, .ro, 0, 3⟩, ⟨8, 7, .ro, 0, 127⟩, ⟨32, 32, .ro, 0, 4294967295⟩]⟩,
  -- LNK_TIME_STATUS
  ⟨0xc00020, 0, 1, 0, 1, 0x0, [⟨0, 2, .ro, 0, 3⟩, ⟨16, 16, .ro, 0, 65535⟩]⟩,
  -- LNK_CUT_TSC
  ⟨0xc00028, 0, 1, 0, 1, 0x0, [⟨0, 64, .ro, 0, 18446744073709551615⟩]⟩,
  -- LNK_ALLOW
  ⟨0xc01000, 32, 32, 8, 4, 0x0, [⟨0, 64, .rwc, 0, 18446744073709551615⟩]⟩,
  -- LNK_WIN_CFG
  ⟨0xc02000, 32, 64, 0, 1, 0x0, [⟨0, 1, .rwc, 0, 1⟩, ⟨1, 1, .rwc, 0, 1⟩, ⟨4, 4, .rwc, 0, 15⟩, ⟨8, 4, .rwc, 0, 15⟩]⟩,
  -- LNK_WIN_SRC
  ⟨0xc02008, 32, 64, 0, 1, 0x0, [⟨0, 32, .rwc, 0, 4294967295⟩]⟩,
  -- LNK_WIN_BASE
  ⟨0xc02010, 32, 64, 0, 1, 0x0, [⟨16, 30, .rwc, 0, 1073741823⟩]⟩,
  -- LNK_WIN_SIZE
  ⟨0xc02018, 32, 64, 0, 1, 0x0, [⟨0, 32, .rwc, 0, 4294967295⟩]⟩,
  -- LNK_WIN_CTL
  ⟨0xc02800, 0, 1, 0, 1, 0x0, [⟨0, 1, .wo, 0, 1⟩]⟩,
  -- LNK_WIN_STATUS
  ⟨0xc02808, 0, 1, 0, 1, 0x0, [⟨0, 1, .w1c, 0, 1⟩, ⟨8, 6, .ro, 0, 63⟩]⟩,
  -- LNK_CFG
  ⟨0xc10000, 256, 96, 0, 1, 0x28000000, [⟨0, 1, .rwc, 0, 1⟩, ⟨8, 5, .rwc, 0, 31⟩, ⟨16, 7, .rwc, 0, 127⟩, ⟨24, 6, .rwc, 0, 63⟩]⟩,
  -- LNK_CTL
  ⟨0xc10008, 256, 96, 0, 1, 0x0, [⟨0, 1, .wo, 0, 1⟩, ⟨1, 1, .wo, 0, 1⟩]⟩,
  -- LNK_STATUS
  ⟨0xc10010, 256, 96, 0, 1, 0x0, [⟨0, 3, .ro, 0, 7⟩, ⟨3, 1, .w1c, 0, 1⟩, ⟨4, 4, .ro, 0, 15⟩, ⟨8, 1, .ro, 0, 1⟩, ⟨16, 5, .ro, 0, 31⟩, ⟨24, 7, .ro, 0, 127⟩, ⟨32, 16, .ro, 0, 65535⟩]⟩,
  -- LNK_ERR
  ⟨0xc10018, 256, 96, 0, 1, 0x0, [⟨0, 32, .rc, 0, 4294967295⟩, ⟨32, 16, .rc, 0, 65535⟩, ⟨48, 8, .rc, 0, 255⟩, ⟨56, 8, .rc, 0, 255⟩]⟩,
  -- LNK_KEY
  ⟨0xc10020, 256, 96, 0, 1, 0x0, [⟨0, 48, .ro, 0, 281474976710655⟩, ⟨48, 16, .ro, 0, 65535⟩]⟩,
  -- LNK_TX
  ⟨0xc10028, 256, 96, 0, 1, 0x0, [⟨0, 64, .ro, 0, 18446744073709551615⟩]⟩,
  -- LNK_RX
  ⟨0xc10030, 256, 96, 0, 1, 0x0, [⟨0, 64, .ro, 0, 18446744073709551615⟩]⟩,
  -- LNK_CUT_TX
  ⟨0xc10038, 256, 96, 0, 1, 0x0, [⟨0, 64, .ro, 0, 18446744073709551615⟩]⟩,
  -- LNK_CUT_RX
  ⟨0xc10040, 256, 96, 0, 1, 0x0, [⟨0, 64, .ro, 0, 18446744073709551615⟩]⟩,
  -- LNK_INJ_CFG
  ⟨0xc10048, 256, 96, 0, 1, 0x0, [⟨0, 3, .rw, 0, 7⟩, ⟨3, 6, .rw, 0, 63⟩, ⟨9, 4, .rw, 0, 15⟩, ⟨13, 4, .rw, 0, 15⟩, ⟨17, 15, .rw, 0, 32767⟩, ⟨32, 32, .rw, 0, 4294967295⟩]⟩,
  -- LNK_INJ_STATUS
  ⟨0xc10050, 256, 96, 0, 1, 0x0, [⟨0, 32, .ro, 0, 4294967295⟩]⟩]

/-- The registers whose maps stand in spec/12_host_side.md. -/
def regRows12 : List RegRow := [
  -- PEX_LINK
  ⟨0xb00000, 0, 1, 0, 1, 0x0, [⟨0, 4, .ro, 0, 15⟩, ⟨4, 5, .ro, 0, 31⟩, ⟨9, 1, .ro, 0, 1⟩, ⟨10, 1, .ro, 0, 1⟩, ⟨32, 16, .rc, 0, 65535⟩]⟩,
  -- PEX_CTL
  ⟨0xb00008, 0, 1, 0, 1, 0x0, [⟨0, 1, .rw, 0, 1⟩, ⟨1, 1, .rw, 0, 1⟩]⟩,
  -- PEX_MBX_CTL
  ⟨0xb00100, 0, 1, 0, 1, 0x0, [⟨0, 1, .wo, 0, 1⟩, ⟨1, 1, .wo, 0, 1⟩, ⟨2, 1, .wo, 0, 1⟩, ⟨4, 4, .wo, 0, 15⟩]⟩,
  -- PEX_MBX_ARG
  ⟨0xb00108, 0, 1, 0, 1, 0x0, [⟨0, 32, .rw, 0, 4294967295⟩, ⟨32, 32, .rw, 0, 4294967295⟩]⟩,
  -- PEX_MBX_STATUS
  ⟨0xb00110, 0, 1, 0, 1, 0x0, [⟨0, 2, .ro, 0, 3⟩, ⟨2, 1, .ro, 0, 1⟩, ⟨4, 4, .ro, 0, 15⟩, ⟨8, 7, .ro, 0, 127⟩, ⟨15, 1, .ro, 0, 1⟩]⟩,
  -- CXL_PORT_STATUS
  ⟨0xa00000, 4096, 2, 0, 1, 0x0, [⟨0, 3, .ro, 0, 7⟩, ⟨3, 4, .ro, 0, 15⟩, ⟨7, 4, .ro, 0, 15⟩, ⟨11, 5, .ro, 0, 31⟩, ⟨16, 1, .ro, 0, 1⟩]⟩,
  -- CXL_PORT_CAP
  ⟨0xa00008, 4096, 2, 0, 1, 0x0, [⟨0, 14, .ro, 0, 16383⟩, ⟨32, 16, .ro, 0, 65535⟩]⟩,
  -- CXL_PORT_CTL
  ⟨0xa00010, 4096, 2, 0, 1, 0x2, [⟨0, 1, .wo, 0, 1⟩, ⟨1, 1, .rw, 0, 1⟩]⟩,
  -- CXL_PORT_ERR
  ⟨0xa00018, 4096, 2, 0, 1, 0x0, [⟨0, 32, .rc, 0, 4294967295⟩, ⟨32, 16, .rc, 0, 65535⟩, ⟨48, 16, .rc, 0, 65535⟩]⟩]

/-- The registers whose maps stand in spec/13_power_clocks.md. -/
def regRows13 : List RegRow := [
  -- PWR_CAPS
  ⟨0x200000, 0, 1, 0, 1, 0x15a0008, [⟨0, 4, .ro, 0, 15⟩, ⟨16, 9, .ro, 0, 511⟩, ⟨32, 16, .ro, 0, 65535⟩]⟩,
  -- PWR_LIMIT
  ⟨0x200008, 0, 1, 0, 1, 0x14000a005f0960, [⟨0, 12, .rwc, 0, 4095⟩, ⟨16, 8, .rwc, 0, 255⟩, ⟨32, 16, .rwc, 0, 65535⟩, ⟨48, 16, .rwc, 0, 65535⟩]⟩,
  -- PWR_REGION_LIM
  ⟨0x200010, 8, 8, 0, 1, 0xf00dc00f00104, [⟨0, 9, .rwc, 0, 511⟩, ⟨16, 9, .rwc, 0, 511⟩, ⟨32, 9, .rwc, 0, 511⟩, ⟨48, 6, .rwc, 0, 63⟩]⟩,
  -- PWR_COMMIT
  ⟨0x200050, 0, 1, 0, 1, 0x0, [⟨0, 1, .wo, 0, 1⟩]⟩,
  -- PWR_STATUS
  ⟨0x200058, 0, 1, 0, 1, 0x0, [⟨0, 2, .ro, 0, 3⟩, ⟨2, 1, .w1c, 0, 1⟩, ⟨3, 1, .w1c, 0, 1⟩, ⟨8, 8, .ro, 0, 255⟩, ⟨16, 12, .ro, 0, 4095⟩, ⟨32, 10, .ro, 0, 1023⟩, ⟨48, 16, .rc, 0, 65535⟩]⟩,
  -- PWR_THERM
  ⟨0x200060, 0, 1, 0, 1, 0x0, [⟨0, 8, .ro, 0, 255⟩, ⟨8, 8, .ro, 0, 255⟩, ⟨16, 2, .ro, 0, 3⟩, ⟨32, 16, .rc, 0, 65535⟩]⟩,
  -- PWR_REGION_STAT
  ⟨0x200080, 8, 8, 0, 1, 0x1000000000, [⟨0, 10, .ro, 0, 1023⟩, ⟨16, 10, .ro, 0, 1023⟩, ⟨32, 5, .ro, 0, 31⟩, ⟨40, 1, .ro, 0, 1⟩, ⟨41, 1, .ro, 0, 1⟩, ⟨48, 12, .ro, 0, 4095⟩]⟩,
  -- PWR_DOMAIN
  ⟨0x200100, 8, 11, 0, 1, 0x0, [⟨0, 64, .ro, 0, 18446744073709551615⟩]⟩,
  -- CLK_STATUS
  ⟨0x280000, 0, 1, 0, 1, 0x0, [⟨0, 12, .ro, 0, 4095⟩, ⟨12, 12, .ro, 0, 4095⟩, ⟨24, 1, .ro, 0, 1⟩, ⟨25, 1, .ro, 0, 1⟩, ⟨28, 1, .w1c, 0, 1⟩, ⟨29, 3, .ro, 0, 7⟩]⟩,
  -- CLK_CTL
  ⟨0x280008, 0, 1, 0, 1, 0x7080708, [⟨0, 12, .rwc, 0, 4095⟩, ⟨16, 12, .rwc, 0, 4095⟩]⟩,
  -- CLK_COMMIT
  ⟨0x280010, 0, 1, 0, 1, 0x0, [⟨0, 1, .wo, 0, 1⟩]⟩,
  -- CLK_DERATE
  ⟨0x280100, 8, 18, 0, 1, 0x0, [⟨0, 64, .ro, 0, 18446744073709551615⟩]⟩]

/-- The registers whose maps stand in spec/14_bring_up.md. -/
def regRows14 : List RegRow := [
  -- BOOT_STATE
  ⟨0x100000, 0, 1, 0, 1, 0x0, [⟨0, 4, .ro, 0, 15⟩, ⟨4, 3, .ro, 0, 7⟩, ⟨8, 4, .ro, 0, 15⟩, ⟨16, 16, .ro, 0, 65535⟩, ⟨32, 2, .ro, 0, 3⟩, ⟨34, 1, .ro, 0, 1⟩, ⟨35, 1, .w1c, 0, 1⟩]⟩,
  -- BOOT_PROGRESS
  ⟨0x100008, 0, 1, 0, 1, 0x0, [⟨0, 7, .ro, 0, 127⟩, ⟨8, 4, .ro, 0, 15⟩, ⟨12, 4, .ro, 0, 15⟩, ⟨16, 3, .ro, 0, 7⟩, ⟨20, 6, .ro, 0, 63⟩, ⟨32, 9, .ro, 0, 511⟩, ⟨48, 16, .ro, 0, 65535⟩]⟩,
  -- BOOT_NEXT
  ⟨0x100010, 0, 1, 0, 1, 0x0, [⟨0, 2, .rwc, 0, 3⟩, ⟨4, 4, .rwc, 0, 15⟩]⟩,
  -- BOOT_NEXT_COMMIT
  ⟨0x100018, 0, 1, 0, 1, 0x0, [⟨0, 1, .wo, 0, 1⟩]⟩,
  -- BOOT_RESET
  ⟨0x100020, 0, 1, 0, 1, 0x0, [⟨0, 1, .wo, 0, 1⟩, ⟨1, 1, .wo, 0, 1⟩, ⟨2, 1, .wo, 0, 1⟩, ⟨8, 9, .wo, 0, 511⟩]⟩,
  -- BOOT_RESET_STATUS
  ⟨0x100028, 0, 1, 0, 1, 0x0, [⟨0, 1, .ro, 0, 1⟩, ⟨1, 2, .ro, 0, 3⟩, ⟨32, 16, .rc, 0, 65535⟩]⟩,
  -- BOOT_FP_INFO
  ⟨0x100030, 0, 1, 0, 1, 0x0, [⟨0, 4, .ro, 0, 15⟩, ⟨16, 12, .ro, 0, 4095⟩, ⟨32, 32, .ro, 0, 4294967295⟩]⟩,
  -- BOOT_FP_SERIAL
  ⟨0x100038, 0, 1, 0, 1, 0x0, [⟨0, 64, .ro, 0, 18446744073709551615⟩]⟩,
  -- BOOT_FP_LINKS
  ⟨0x100040, 8, 2, 0, 1, 0x0, [⟨0, 64, .ro, 0, 18446744073709551615⟩]⟩,
  -- BOOT_FP_CORE
  ⟨0x101000, 8, 288, 0, 1, 0x0, [⟨0, 8, .ro, 0, 255⟩, ⟨8, 1, .ro, 0, 1⟩, ⟨9, 1, .ro, 0, 1⟩, ⟨12, 4, .ro, 0, 15⟩, ⟨16, 4, .ro, 0, 15⟩, ⟨24, 8, .ro, 0, 255⟩, ⟨32, 1, .ro, 0, 1⟩, ⟨36, 4, .ro, 0, 15⟩, ⟨40, 4, .ro, 0, 15⟩]⟩,
  -- BOOT_REPORT
  ⟨0x100100, 32, 10, 0, 1, 0x0, [⟨0, 3, .ro, 0, 7⟩, ⟨16, 16, .ro, 0, 65535⟩, ⟨32, 16, .ro, 0, 65535⟩]⟩,
  -- BOOT_REPORT_START
  ⟨0x100108, 32, 10, 0, 1, 0x0, [⟨0, 64, .ro, 0, 18446744073709551615⟩]⟩,
  -- BOOT_REPORT_END
  ⟨0x100110, 32, 10, 0, 1, 0x0, [⟨0, 64, .ro, 0, 18446744073709551615⟩]⟩,
  -- BOOT_REPORT_DETAIL
  ⟨0x100118, 32, 10, 0, 1, 0x0, [⟨0, 64, .ro, 0, 18446744073709551615⟩]⟩]

/-- The registers whose maps stand in spec/15_reliability.md. -/
def regRows15 : List RegRow := [
  -- RAS_ERR_STATUS
  ⟨0xd00000, 0, 1, 0, 1, 0x0, [⟨0, 32, .ro, 0, 4294967295⟩, ⟨32, 11, .ro, 0, 2047⟩]⟩,
  -- RAS_ERR_SEL
  ⟨0xd00008, 0, 1, 0, 1, 0x0, [⟨0, 32, .rw, 0, 4294967295⟩]⟩,
  -- RAS_ERR_W
  ⟨0xd00040, 8, 8, 0, 1, 0x0, [⟨0, 64, .ro, 0, 18446744073709551615⟩]⟩,
  -- RAS_CE_LIMIT
  ⟨0xd00080, 0, 1, 0, 1, 0x2710, [⟨0, 32, .rw, 0, 4294967295⟩]⟩,
  -- RAS_FIT_CFG
  ⟨0xd00100, 0, 1, 0, 1, 0xa1801, [⟨0, 1, .rw, 0, 1⟩, ⟨8, 8, .rw, 1, 168⟩, ⟨16, 16, .rw, 1, 3600⟩]⟩,
  -- RAS_FIT_STATUS
  ⟨0xd00108, 0, 1, 0, 1, 0x0, [⟨0, 9, .ro, 0, 511⟩, ⟨16, 9, .ro, 0, 511⟩, ⟨32, 16, .rc, 0, 65535⟩, ⟨48, 16, .rc, 0, 65535⟩]⟩,
  -- RAS_PDD_CTL
  ⟨0xd00200, 0, 1, 0, 1, 0x0, [⟨0, 16, .rw, 0, 65535⟩]⟩,
  -- RAS_PDD_STATUS
  ⟨0xd00208, 0, 1, 0, 1, 0x0, [⟨0, 16, .ro, 0, 65535⟩, ⟨16, 1, .w1c, 0, 1⟩, ⟨32, 16, .rc, 0, 65535⟩]⟩,
  -- RAS_MAINT
  ⟨0xd00308, 8, 9, 0, 1, 0x0, [⟨0, 32, .rc, 0, 4294967295⟩, ⟨32, 16, .rc, 0, 65535⟩, ⟨48, 1, .ro, 0, 1⟩, ⟨49, 1, .ro, 0, 1⟩]⟩,
  -- RAS_HALT_CTL
  ⟨0xd00400, 0, 1, 0, 1, 0x7d00000, [⟨0, 1, .wo, 0, 1⟩, ⟨1, 1, .wo, 0, 1⟩, ⟨16, 16, .rw, 500, 60000⟩]⟩,
  -- RAS_HALT_STATUS
  ⟨0xd00408, 0, 1, 0, 1, 0x0, [⟨0, 2, .ro, 0, 3⟩, ⟨2, 4, .ro, 0, 15⟩, ⟨6, 5, .ro, 0, 31⟩, ⟨11, 1, .ro, 0, 1⟩, ⟨32, 16, .rc, 0, 65535⟩]⟩,
  -- RAS_HALT_TSC
  ⟨0xd00410, 0, 1, 0, 1, 0x0, [⟨0, 64, .ro, 0, 18446744073709551615⟩]⟩,
  -- RAS_HALT_COUNTS
  ⟨0xd00418, 0, 1, 0, 1, 0x0, [⟨0, 32, .ro, 0, 4294967295⟩, ⟨32, 32, .ro, 0, 4294967295⟩]⟩,
  -- RAS_FIT_CORE
  ⟨0xd01000, 8, 288, 0, 1, 0x0, [⟨0, 32, .ro, 0, 4294967295⟩, ⟨32, 2, .ro, 0, 3⟩, ⟨34, 1, .ro, 0, 1⟩]⟩]

/-- The registers whose maps stand in spec/16_observability.md. -/
def regRows16 : List RegRow := [
  -- CNT
  ⟨0x1008000, 65536, 288, 8, 128, 0x0, [⟨0, 48, .ro, 0, 281474976710655⟩]⟩,
  -- CNT_SNAP
  ⟨0x1008400, 65536, 288, 8, 128, 0x0, [⟨0, 48, .ro, 0, 281474976710655⟩]⟩,
  -- CNT_CTL
  ⟨0x1008800, 65536, 288, 0, 1, 0x3, [⟨0, 1, .rw, 0, 1⟩, ⟨1, 1, .rw, 0, 1⟩, ⟨2, 1, .wo, 0, 1⟩, ⟨3, 1, .rw, 0, 1⟩]⟩,
  -- CNT_SNAP_CTL
  ⟨0x1008808, 65536, 288, 0, 1, 0x0, [⟨0, 1, .wo, 0, 1⟩]⟩,
  -- CNT_SNAP_INFO
  ⟨0x1008810, 65536, 288, 0, 1, 0x0, [⟨0, 32, .ro, 0, 4294967295⟩, ⟨32, 3, .ro, 0, 7⟩, ⟨35, 1, .ro, 0, 1⟩]⟩,
  -- CNT_SNAP_CMD
  ⟨0x1008818, 65536, 288, 0, 1, 0x0, [⟨0, 32, .ro, 0, 4294967295⟩, ⟨32, 6, .ro, 0, 63⟩, ⟨38, 13, .ro, 0, 8191⟩]⟩,
  -- CNT_SNAP_TSC
  ⟨0x1008820, 65536, 288, 0, 1, 0x0, [⟨0, 64, .ro, 0, 18446744073709551615⟩]⟩,
  -- CNT_TRACE_VA
  ⟨0x1008900, 65536, 288, 0, 1, 0x0, [⟨6, 42, .rw, 0, 4398046511103⟩]⟩,
  -- CNT_TRACE_CTL
  ⟨0x1008908, 65536, 288, 0, 1, 0x4000000060, [⟨0, 1, .rw, 0, 1⟩, ⟨1, 1, .rw, 0, 1⟩, ⟨4, 5, .rw, 6, 24⟩, ⟨16, 16, .rw, 0, 65535⟩, ⟨32, 16, .rw, 1, 65535⟩]⟩,
  -- CNT_TRACE_STATUS
  ⟨0x1008910, 65536, 288, 0, 1, 0x0, [⟨0, 32, .ro, 0, 4294967295⟩, ⟨32, 16, .rc, 0, 65535⟩, ⟨48, 1, .ro, 0, 1⟩, ⟨49, 1, .w1c, 0, 1⟩]⟩,
  -- CNT_SPWP_CFG
  ⟨0x1008a00, 65536, 288, 16, 2, 0x0, [⟨0, 1, .rw, 0, 1⟩, ⟨1, 1, .rw, 0, 1⟩, ⟨2, 1, .rw, 0, 1⟩, ⟨4, 2, .rw, 0, 2⟩, ⟨32, 32, .rc, 0, 4294967295⟩]⟩,
  -- CNT_SPWP_RANGE
  ⟨0x1008a08, 65536, 288, 16, 2, 0x0, [⟨0, 32, .rw, 0, 4294967295⟩, ⟨32, 32, .rw, 0, 4294967295⟩]⟩,
  -- CNT_SPWP_HIT
  ⟨0x1008a20, 65536, 288, 0, 1, 0x0, [⟨0, 1, .w1c, 0, 1⟩, ⟨1, 1, .ro, 0, 1⟩, ⟨2, 3, .ro, 0, 7⟩, ⟨5, 1, .ro, 0, 1⟩, ⟨6, 3, .ro, 0, 7⟩, ⟨16, 16, .ro, 0, 65535⟩, ⟨32, 32, .ro, 0, 4294967295⟩]⟩,
  -- DBG_WP_CFG
  ⟨0xe00000, 32, 16, 0, 1, 0x0, [⟨0, 1, .rw, 0, 1⟩, ⟨1, 1, .rw, 0, 1⟩, ⟨2, 1, .rw, 0, 1⟩, ⟨4, 2, .rw, 0, 2⟩, ⟨6, 2, .rw, 0, 3⟩]⟩,
  -- DBG_WP_BASE
  ⟨0xe00008, 32, 16, 0, 1, 0x0, [⟨3, 49, .rw, 0, 562949953421311⟩]⟩,
  -- DBG_WP_END
  ⟨0xe00010, 32, 16, 0, 1, 0x0, [⟨3, 49, .rw, 0, 562949953421311⟩]⟩,
  -- DBG_WP_HITS
  ⟨0xe00018, 32, 16, 0, 1, 0x0, [⟨0, 48, .rc, 0, 281474976710655⟩]⟩,
  -- DBG_HIT_STATUS
  ⟨0xe00400, 0, 1, 0, 1, 0x0, [⟨0, 32, .ro, 0, 4294967295⟩]⟩,
  -- DBG_HIT_SEL
  ⟨0xe00408, 0, 1, 0, 1, 0x0, [⟨0, 32, .rw, 0, 4294967295⟩]⟩,
  -- DBG_HIT_W0
  ⟨0xe00410, 0, 1, 0, 1, 0x0, [⟨0, 64, .ro, 0, 18446744073709551615⟩]⟩,
  -- DBG_HIT_W1
  ⟨0xe00418, 0, 1, 0, 1, 0x0, [⟨0, 4, .ro, 0, 15⟩, ⟨4, 2, .ro, 0, 3⟩, ⟨6, 4, .ro, 0, 15⟩, ⟨16, 9, .ro, 0, 511⟩, ⟨26, 5, .ro, 0, 31⟩, ⟨32, 4, .ro, 0, 15⟩, ⟨36, 1, .ro, 0, 1⟩]⟩,
  -- DBG_HIT_W2
  ⟨0xe00420, 0, 1, 0, 1, 0x0, [⟨0, 52, .ro, 0, 4503599627370495⟩]⟩,
  -- DBG_HIT_W3
  ⟨0xe00428, 0, 1, 0, 1, 0x0, [⟨0, 48, .ro, 0, 281474976710655⟩, ⟨48, 1, .ro, 0, 1⟩]⟩,
  -- DBG_SNAP_TSC
  ⟨0xe00500, 0, 1, 0, 1, 0x0, [⟨0, 64, .rw, 0, 18446744073709551615⟩]⟩,
  -- DBG_SNAP_CTL
  ⟨0xe00508, 0, 1, 0, 1, 0x0, [⟨0, 1, .wo, 0, 1⟩, ⟨16, 16, .wo, 0, 65535⟩]⟩,
  -- DBG_SNAP_STATUS
  ⟨0xe00510, 0, 1, 0, 1, 0x0, [⟨0, 1, .ro, 0, 1⟩, ⟨1, 1, .ro, 0, 1⟩]⟩,
  -- TSC_VALUE
  ⟨0x2c0000, 0, 1, 0, 1, 0x0, [⟨0, 64, .ro, 0, 18446744073709551615⟩]⟩,
  -- TSC_CTL
  ⟨0x2c0008, 0, 1, 0, 1, 0x0, [⟨0, 1, .rw, 0, 1⟩, ⟨32, 32, .rw, 0, 4294967295⟩]⟩,
  -- TSC_PPS_NEXT
  ⟨0x2c0010, 0, 1, 0, 1, 0x0, [⟨0, 64, .rw, 0, 18446744073709551615⟩]⟩,
  -- TSC_SET
  ⟨0x2c0018, 0, 1, 0, 1, 0x0, [⟨0, 64, .wo, 0, 18446744073709551615⟩]⟩,
  -- TSC_STATUS
  ⟨0x2c0020, 0, 1, 0, 1, 0x0, [⟨0, 2, .ro, 0, 3⟩, ⟨2, 1, .ro, 0, 1⟩, ⟨3, 1, .ro, 0, 1⟩, ⟨4, 1, .ro, 0, 1⟩, ⟨16, 16, .ro, 0, 65535⟩, ⟨32, 16, .rc, 0, 65535⟩]⟩,
  -- TSC_PPS_LATCH
  ⟨0x2c0028, 0, 1, 0, 1, 0x0, [⟨0, 64, .ro, 0, 18446744073709551615⟩]⟩]

/-- Every register of the part. -/
def regRows : List RegRow :=
  regRows01 ++ regRows02 ++ regRows05 ++ regRows06 ++ regRows07 ++ regRows08 ++ regRows09 ++ regRows10 ++ regRows11 ++ regRows12 ++ regRows13 ++ regRows14 ++ regRows15 ++ regRows16

/-- The register that `off` is the BAR0 offset of, if any (R28, R30). -/
def RegRow.covers (r : RegRow) (off : Nat) : Bool :=
  decide (r.base ≤ off) &&
  (if r.step1 = 0 then decide (off = r.base) else
    let d := off - r.base
    let i := d / r.step1
    let e := d % r.step1
    decide (i < r.count1) && (if r.step2 = 0 then decide (e = 0) else
      if r.step2 < r.step1 then decide (e % r.step2 = 0) && decide (e / r.step2 < r.count2) else false))

/-- First row of a list that covers `off`. -/
def findRow (off : Nat) : List RegRow → Option RegRow
  | [] => none
  | r :: t => if r.covers off then some r else findRow off t

/-- The register at a BAR0 offset; none where the owning chapter defines nothing (R29). -/
def regAt (off : Nat) : Option RegRow := findRow off regRows

/-- The word every register holds after a module reset; an offset that is no register holds zeros. -/
def regReset (off : Nat) : W64 :=
  match regAt off with
  | some r => BitVec.ofNat 64 r.reset
  | none => 0

end Sys2Proof.Machine
end

