-- ==== Sys2Proof/Machine/SMap.lean ====
section
/-!
DEFINITION. Sys2Proof/Machine/SMap.lean: sparse storage in one canonical form, used for memory, for the
control registers and for every array of like units. A map is a list of (key, value) pairs with keys strictly
rising and no pair equal to what an unlisted key reads as; `d k` is what the unlisted key `k` reads as.
Laws are in Sys2Proof/Laws/SMap.lean.
-/
namespace Sys2Proof.Machine

/-- A sparse map from `Nat` keys: plain data. -/
abbrev SMap (α : Type) := List (Nat × α)

/-- The value at `k`; an unlisted key reads as `d k`. -/
def SMap.look {α : Type} (d : Nat → α) : SMap α → Nat → α
  | [], k => d k
  | (k', v) :: t, k => if k' = k then v else SMap.look d t k

/-- Remove the entry of `k`. -/
def SMap.drop {α : Type} (k : Nat) : SMap α → SMap α
  | [] => []
  | (k', v) :: t => if k' = k then SMap.drop k t else (k', v) :: SMap.drop k t

/-- Put an entry in its place by rising key. -/
def SMap.place {α : Type} (k : Nat) (v : α) : SMap α → SMap α
  | [] => [(k, v)]
  | (k', v') :: t => if k < k' then (k, v) :: (k', v') :: t else (k', v') :: SMap.place k v t

/-- Write `v` at `k`, keeping the canonical form: writing what an unlisted key reads as removes the entry. -/
def SMap.put {α : Type} [DecidableEq α] (d : Nat → α) (m : SMap α) (k : Nat) (v : α) : SMap α :=
  if v = d k then SMap.drop k m else SMap.place k v (SMap.drop k m)

/-- Every key of the list is above `b`, and keys rise strictly. -/
def SMap.risingFrom {α : Type} (b : Nat) : SMap α → Bool
  | [] => true
  | (k, _) :: t => decide (b ≤ k) && SMap.risingFrom (k + 1) t

/-- No entry equals what its key reads as when unlisted. -/
def SMap.noDefault {α : Type} [DecidableEq α] (d : Nat → α) : SMap α → Bool
  | [] => true
  | (k, v) :: t => decide (v ≠ d k) && SMap.noDefault d t

/-- The canonical form. -/
def SMap.wf {α : Type} [DecidableEq α] (d : Nat → α) (m : SMap α) : Bool :=
  SMap.risingFrom 0 m && SMap.noDefault d m

/-- Keep the entries whose key satisfies `p`. -/
def SMap.keep {α : Type} (p : Nat → Bool) : SMap α → SMap α
  | [] => []
  | (k, v) :: t => if p k then (k, v) :: SMap.keep p t else SMap.keep p t

/-- Write `v` at each key of a list. -/
def SMap.putAll {α : Type} [DecidableEq α] (d : Nat → α) (m : SMap α) (kvs : List (Nat × α)) : SMap α :=
  kvs.foldl (fun m kv => SMap.put d m kv.1 kv.2) m

end Sys2Proof.Machine
end

