-- ==== Sys2Proof/Machine/State.lean ====
section
/-!
DEFINITION. Sys2Proof/Machine/State.lean: the state of the module as plain data, and the state after a module reset.
Control registers live in `regs`, a sparse map from BAR0 offset to word whose unlisted offsets read as the register
maps' reset values; everything the chapters give the machine beside its registers is a field below. Arrays of units are
sparse maps from the unit's index to its record, an unlisted unit being in its reset record. Each field's docstring
gives its rule of spec/ and its reset value.
-/
namespace Sys2Proof.Machine

/-! ### Stops -/

/-- Faults of the model: none is raised on ordinary data. -/
inductive Fault
  /-- A command names a physical address that R211 leaves absent at a unit that has no status of its own to answer it
  with (SLICE_READ and SLICE_ATOMIC). Safe: the spec gives no effect there. -/
  | absentAddress
deriving DecidableEq, Repr

/-- Refusals of the model. -/
inductive Refusal
  /-- The command has no meaning yet: its arm of exec rejects it by name. Safe. -/
  | notModelled (mnemonic : String)
deriving DecidableEq, Repr

/-! ### Memory -/

/-- Module memory: near memory and the CXL tier as the point of coherence shows them (R146, R163, R211). -/
structure Memory where
  /-- bytes by physical address (R211); reset: nothing listed, an unlisted byte reads 0 -/
  bytes : SMap Byte
  /-- poisoned lines by physical address / 64 (R205, R223, R394); reset: none -/
  poison : SMap Bool
deriving DecidableEq, Repr

/-- The scratchpads of the 288 cores (R127, R129): keys are core * 2^32 + address. -/
structure Spd where
  /-- bytes (R129, R143); reset: zeros -/
  bytes : SMap Byte
  /-- poisoned 8 B words by key / 8 (R142); reset: none -/
  poison : SMap Bool
  /-- 8 B words that hold an error no read has met yet, by key / 8: 1 correctable, 2 uncorrectable (R142); reset: none -/
  err : SMap Nat
deriving DecidableEq, Repr

/-! ### Harps (R33 to R57) -/

/-- Use of an accumulator set (HRP_STATUS.SET0, SET1). -/
inductive SetUse | empty | filling | active | draining
deriving DecidableEq, Repr, Inhabited

/-- One accumulator set of a harp with its exception state (R37, R54). -/
structure AccSet where
  /-- use of the set (HRP_STATUS); reset empty -/
  use : SetUse
  /-- accumulators, key 32 * row + column, F32 or I32 bits (R33); reset zeros -/
  acc : SMap W32
  /-- sticky flags INVALID 1, OVERFLOW 2, NAN_IN 4, INF_IN 8 since the last fill (R54); reset 0 -/
  flags : Nat
  /-- row mask (R54, R91); reset 0 -/
  rows : Nat
  /-- an operand, scale, zero point or fill word was poisoned (R53, R394); reset false -/
  poison : Bool
  /-- descriptor of the last pass into the set (R56); reset none -/
  desc : List W64
  /-- zero points of A and of B that the pass in the set subtracts (R43); reset none -/
  zpA : List Nat
  zpB : List Nat
deriving DecidableEq, Repr, Inhabited

/-- A pass taken from the issue queue (R33, R36). -/
structure Pass where
  /-- six descriptor words (R56) -/
  desc : List W64
  /-- accumulator set the pass works in (R40) -/
  set : Nat
  /-- K steps taken (R36) -/
  k : Nat
  /-- 16-bit class: the cycle before the next K step has been spent (R34) -/
  half : Bool
  /-- columns of A of the block being taken, oldest first (R44) -/
  blkA : List (List Nat)
  /-- rows of B of the block being taken, oldest first (R44) -/
  blkB : List (List Nat)
  /-- landing buffers (slot * 8 + buffer) the pass reads (R120) -/
  bufs : List Nat
  /-- the wait for those buffers has ended (R120) -/
  ready : Bool
  /-- its set holds its initial values: its fill is complete, or it is a CHAIN pass (R37, R38) -/
  filled : Bool
  /-- which of two keys its footprint is registered under: never that of the pass before it (R144) -/
  key : Nat
deriving DecidableEq, Repr, Inhabited

/-- A drained tile on its way through the epilogue (R54, R92, R105). -/
structure Tile where
  desc : List W64
  /-- accumulator words, row major over ROWS x COLS -/
  vals : List Nat
  flags : Nat
  rows : Nat
  poison : Bool
deriving DecidableEq, Repr, Inhabited

/-- Sets that a pass's end left due to drain: the principal's set and, for a gated pair, the partner's (R39, R109). -/
structure Due where
  set : Nat
  partner : Option Nat
deriving DecidableEq, Repr, Inhabited

/-- An epilogue waiting or running (R108): the principal's tile and, for a gated pair, the partner's. -/
structure Epi where
  tile : Tile
  partner : Option Tile
  started : Bool
deriving DecidableEq, Repr, Inhabited

/-- The output stage of a harp: a chain result held until it is written and sent (R108, R117, R121). -/
structure OutStage where
  exc : W64
  rowBlock : Nat
  colBlock : Nat
  nrows : Nat
  ncols : Nat
  fmt : Nat
  scaled : Bool
  axis : Bool
  hasStats : Bool
  rowBytes : List (List Byte)
  scales : List Byte
  stats : List Byte
  /-- destination list entry (R118), none when the chain sends nothing -/
  dest : List W64
  /-- targets already sent (R121) -/
  sent : List Nat
  /-- numbers of the writes those targets were sent with (R121) -/
  writes : List Nat
  /-- unstepped time since which a send waits for a credit (R122) -/
  since : Nat
deriving DecidableEq, Repr, Inhabited

/-- One harp engine (R33 to R57). -/
structure Harp where
  /-- issue queue, oldest first, at most 4 descriptors (R56); reset empty -/
  queue : List (List W64)
  /-- checked pass whose set is being filled or is ready (R38, R40, R57); reset none -/
  next : Option Pass
  /-- pass taking K steps (R36); reset none -/
  active : Option Pass
  /-- accumulator set 0 (R37); reset empty -/
  set0 : AccSet
  /-- accumulator set 1 (R37); reset empty -/
  set1 : AccSet
  /-- descriptor of the last pass that left the issue queue in this kernel (R39, R40); reset none -/
  prev : Option (List W64)
  /-- set of that pass (R40); reset 0 -/
  prevSet : Nat
  /-- set held as a partner (R109); reset none -/
  partner : Option Nat
  /-- sets due to drain, oldest first (R37, R108); reset none -/
  due : List Due
  /-- drain in progress (R37); reset none -/
  drain : Option Due
  /-- epilogue waiting or running (R108); reset none -/
  epi : Option Epi
  /-- output stage (R108, R121); reset none -/
  out : Option OutStage
  /-- unstepped time of a trap that abandoned the harp's last pass (R50, R55); reset none -/
  trapAt : Option Nat
  /-- array clock gated for idleness (R359); reset false -/
  gated : Bool
  /-- the galliard stagger has not yet admitted this harp (R36, R360); reset false -/
  asking : Bool
deriving DecidableEq, Repr, Inhabited

/-! ### Cores (R16, R58 to R62, R101 to R124, R127 to R145, R152 to R157, R245, R260) -/

/-- Power state of a core (R342). -/
inductive CorePower | off | sleep | gated | running | waking
deriving DecidableEq, Repr, Inhabited

/-- A landing slot (R119, R120). -/
structure Slot where
  /-- armed (R119); reset false -/
  armed : Bool
  /-- the three operand words (R119) -/
  words : List W64
  /-- remaining consumers of each full buffer, 0 for a buffer that is not full (R120), by buffer -/
  full : SMap Nat
  /-- gathers into the slot since it was armed (R103) -/
  gathers : Nat
deriving DecidableEq, Repr, Inhabited

/-- A line of a core sequencer's data cache (R152). -/
structure CLine where
  va : Nat
  data : List Byte
  poison : Bool
deriving DecidableEq, Repr, Inhabited

/-- A guard entry of a partition: flag word and range of virtual addresses (R166). -/
structure Guard where
  flag : Nat
  lo : Nat
  hi : Nat
deriving DecidableEq, Repr, Inhabited

/-- A gather in progress (R102, R103). -/
structure Gather where
  desc : List W64
  /-- indices read when it issued (R102) -/
  ix : List Nat
  /-- rows whose data has not landed -/
  left : List Nat
  /-- landing slot buffer it fills: slot and buffer (R103) -/
  buf : Option (Nat × Nat)
  /-- it waits for a credit of its slot since this unstepped time (R103, R122) -/
  waits : Option Nat
  ring : Nat
  id : Nat
deriving DecidableEq, Repr, Inhabited

/-- One entry of the footprint table of the overlap check (R144): owner operation, kind, harp and tag, and a byte range
read or written. -/
structure Footprint where
  owner : Nat
  /-- operand or vector of the operation: one table entry each -/
  part : Nat
  kind : Nat
  harp : Nat
  tag : Nat
  lo : Nat
  hi : Nat
  writes : Bool
deriving DecidableEq, Repr, Inhabited

/-- One core (R16): its sequencer, fiddle unit, data mover and landing slots. -/
structure Core where
  /-- power state (R342); reset off -/
  power : CorePower
  /-- unstepped time since which the core has had no work (R342, CORE_SLEEP_US); reset 0 -/
  idleSince : Nat
  /-- its scratchpad is being cleared (R143); reset false -/
  clearing : Bool
  /-- request ring whose kernel holds the core (R245); reset none -/
  ring : Option Nat
  /-- the kernel has begun at instruction 0 and has not ended (R245, R246); reset false -/
  running : Bool
  /-- the end instruction has issued and waits (R246); reset false -/
  ending : Bool
  /-- the core has ended its part of the kernel (R246); reset false -/
  ended : Bool
  /-- stopped at a beat for a pre-emption or an abort (R259, R263); reset false -/
  stopped : Bool
  /-- its state is saved (R259, R260); reset false -/
  saved : Bool
  /-- HARP_MASK of the kernel's core entry (R244); reset 0 -/
  harpMask : Nat
  /-- instruction store, 32 KiB (R245); reset empty -/
  code : List Byte
  /-- argument registers a0 to a13 (R245); reset empty, reading 0 -/
  args : List W64
  /-- chain store: chain table entries (R104); reset empty -/
  chain : List (List W64)
  /-- chain store: destination list entries (R104, R118); reset empty -/
  dlist : List (List W64)
  /-- chain store entries that were poisoned in the scratchpad (R395): chain n as n, destination n as 256 + n -/
  chainPoison : List Nat
  /-- landing slots by number (R119); reset not armed -/
  slots : SMap Slot
  /-- credits held, by target key (R120); reset 0 -/
  credits : SMap Nat
  /-- tiles sent since the target was armed, by target key (R117 SEQ); reset 0 -/
  sent : SMap Nat
  /-- data cache, most recently used first (R152); reset empty -/
  cache : List CLine
  /-- guard set the core holds (R166); reset empty -/
  guards : List Guard
  /-- guard-range invalidation of an acquire read in progress (R154); reset none -/
  acquiring : Option (List Guard)
  /-- range invalidation in progress (R156); reset none -/
  invalidating : Option (Nat × Nat)
  /-- fence in progress: every operation with a lower number must finish (R157); reset none -/
  fenceAt : Option Nat
  /-- gathers in progress (R102); reset none -/
  gathers : List Gather
  /-- polynomial table load in progress: table and image (R60, R461); reset none -/
  polyLoad : Option (Nat × List Byte)
  /-- coefficient store: word (t * 256 + s * 4 + q) of FDL offset 0x5000 (R461); reset zeros -/
  coef : SMap W64
  /-- value last loaded into a sequencer register (R152, R153, R154); reset 0 -/
  loaded : W64
  /-- footprint table (R144); reset empty -/
  footprints : List Footprint
  /-- a known-answer test runs on the core (R401, R402); reset false -/
  testing : Bool
  /-- suspect: check class that made it so (R404); reset none -/
  suspect : Option Nat
  /-- suspect procedure: step, clean passes so far, offset and derate tried, every failing run only in harps, failing
  harps (R405); reset none -/
  proc : Option (Nat × Nat × Nat × Nat × Bool × Nat)
  /-- remainders that counters in a unit larger than one carry, by counter (R425); reset 0 -/
  rem : SMap Nat
  /-- beats since the kernel start (R435 kind 5); reset 0 -/
  beats : Nat
  /-- trace records queued, oldest first, as 32 B records of four words (R435, R436); reset none -/
  trace : List (List W64)
  /-- trace records dropped since the last kind-12 record (R436); reset 0 -/
  lost : Nat
  /-- command identity: TAG, ring and slot of the kernel last started (R426); reset 0 -/
  ident : Nat × Nat × Nat
deriving DecidableEq, Repr, Inhabited

/-! ### Ordering (R146 to R168) -/

/-- A source of writes (R147). -/
inductive Src
  | core (c : Nat) | kpu (u : Nat) | sarabande | pcie | peer (m : Nat) | peerCore (m c : Nat)
deriving DecidableEq, Repr, Inhabited

/-- The image of a tile under way to a landing slot (R117, R121). -/
structure TileImage where
  header : List W64
  rowBytes : List (List Byte)
  scales : List Byte
  stats : List Byte
  srcCore : Nat
  srcModule : Nat
  slot : Nat
  /-- the body found no slot to accept it (R123): 0 accepted, 2 closed, 3 stray -/
  dropped : Nat
  /-- words of the body that have landed (R141) -/
  landed : Nat
  /-- messages of the body that came over a link (R149, R298) -/
  parts : Nat
deriving DecidableEq, Repr, Inhabited

/-- Where a write goes (R146, R150). -/
inductive Dst
  /-- module memory at a physical address -/
  | mem (pa : Nat)
  /-- a core's scratchpad -/
  | spd (c : Nat) (addr : Nat)
  /-- a landing slot of a core on this module -/
  | tile (c : Nat) (img : TileImage)
  /-- host memory at a bus address (R160) -/
  | host (addr : Nat)
deriving DecidableEq, Repr, Inhabited

/-- Progress of a write between issue and landing (R23, R148 to R151). -/
inductive Leg
  /-- held at its source: a network segment of its route is down (R23) -/
  | blocked
  /-- travelling -/
  | moving
  /-- arrived at the destination router port (R21) -/
  | arrived
  /-- a final write held at its source for acknowledgements (R150) -/
  | heldAtSource
  /-- a final write holding a tracking-table entry (R149, R150) -/
  | heldAtPort
  /-- a final write returned by a full table, to be resent (R149) -/
  | returned
deriving DecidableEq, Repr, Inhabited

/-- A write in flight; the list of flights is in issue order. -/
structure Flight where
  id : Nat
  src : Src
  dst : Dst
  data : List Byte
  poison : Bool
  final : Bool
  /-- posted write with Relaxed Ordering (R161) -/
  relaxed : Bool
  leg : Leg
  /-- unstepped time at which it was first held (R151) -/
  since : Nat
  /-- request ring of the issuing command (R151) -/
  ring : Option Nat
  /-- partition on whose behalf it is made -/
  part : Option Nat
  /-- virtual address, when translated -/
  va : Option Nat
  /-- number that an incoming link message gave the write, with its link (R298, R307) -/
  mtag : Option (Nat × Nat)
  /-- ORDER of a write from a peer module, and of a tile's header from a peer's core (R149, R150) -/
  order : Option Nat
  /-- number of a final write's first arrival at its core port (R149) -/
  first : Option Nat
  /-- number of the copy operation whose read brought the data (R148, R157); none: its own number orders it -/
  op : Option Nat
  /-- a store of a core's sequencer (R152) -/
  seq : Bool
deriving DecidableEq, Repr, Inhabited

/-- Landing-slot credits under way (R120, R123): kind 0 arming, 1 ordinary, 2 closed, 3 stray. -/
structure CreditFlight where
  core : Nat
  key : Nat
  kind : Nat
  count : Nat
  /-- network row at which it enters (R23) -/
  row : Nat
deriving DecidableEq, Repr, Inhabited

/-- A BAR access held: while a core domain or the die wakes (R31, R344), behind posted writes that arrived before it, or for a
range that is being cleared, retrained or repaired (R209, R222, R412). -/
inductive Held
  | read (fn off size : Nat)
  | write (fn off size : Nat) (v : W64)
  | bar2read (fn : Nat) (bar4 : Bool) (off len : Nat)
  | bar2write (fn off : Nat) (data : List Byte) (poison relaxed : Bool)
  | bar4write (fn off : Nat) (data : List Byte) (poison : Bool)
  | atomic (fn off : Nat) (op : AtomicOp) (x cmp : W64)
deriving DecidableEq, Repr, Inhabited

/-- A read of host memory sent on the host link and not yet completed (R212, R326). -/
structure HostRead where
  id : Nat
  fn : Nat
  addr : Nat
  len : Nat
  /-- 0 sequencer load of `core`, 1 data-mover copy or ring `ring`, 2 sarabande ring read, 3 sarabande control line -/
  kind : Nat
  core : Nat
  ring : Option Nat
  /-- destination of a copy in a scratchpad -/
  dst : Option Dst
  /-- destination of a remote copy: peer, window, offset (R307) -/
  peer : Option (Nat × Nat × Nat)
  since : Nat
  /-- virtual destination of a copy (R247) -/
  va : Option Nat
  /-- context and virtual address that the read was translated from (R231) -/
  src : Option (Nat × Nat)
deriving DecidableEq, Repr, Inhabited

/-- The ordering machinery. -/
structure Order where
  /-- next operation number (R147, R157); reset 0 -/
  nextId : Nat
  /-- writes in flight in issue order (R147); reset none -/
  flights : List Flight
  /-- credits under way (R120); reset none -/
  credits : List CreditFlight
  /-- BAR accesses held, in order of arrival (R31, R344); reset none -/
  held : List Held
  /-- reads of host memory outstanding (R212); reset none -/
  reads : List HostRead
  /-- guard table commits waiting behind one in progress, oldest first, each the shadow copied when it was written, by
  partition (R166, R386); reset none -/
  guardWait : SMap (List (List (Nat × W64)))
  /-- guard sets being copied to the cores of a partition (R166); reset none -/
  guardCopy : SMap (List Guard)
  /-- arrivals of final writes at core ports so far (R149); reset 0 -/
  arrivals : Nat
deriving DecidableEq, Repr, Inhabited

/-! ### Memory system (R203 to R232) -/

/-- A line held by a home slice (R215, R216). -/
structure SLine where
  way : Nat
  dirty : Bool
deriving DecidableEq, Repr, Inhabited

/-- A cached translation of the DTU (R230): virtual block, its physical block, granule and write permission. -/
structure Xlat where
  /-- the core that keeps it, or none for a shared one -/
  core : Option Nat
  ctx : Nat
  vbase : Nat
  pbase : Nat
  size : Nat
  write : Bool
deriving DecidableEq, Repr, Inhabited

/-- A walk in progress (R228). -/
structure Walk where
  who : Requester
  ctx : Nat
  va : Nat
  write : Bool
deriving DecidableEq, Repr, Inhabited

/-- An invalidation of the DTU (R231): its number, the function that asked, the context, the first virtual address and the
bytes, or the whole context. -/
structure Inval where
  num : Nat
  fn : Nat
  ctx : Nat
  va : Nat
  bytes : Nat
  all : Bool
deriving DecidableEq, Repr, Inhabited

/-- Memory controllers, slices, expanders and the DTU. -/
structure MemSys where
  /-- lines in the slices, least recently used first, by line address (R215); reset none -/
  lines : List (Nat × SLine)
  /-- lines held in write-back buffers while a port is down, oldest first (R227); reset none -/
  wbHeld : List Nat
  /-- lines on the lost lists, oldest first (R227); reset none -/
  lost : List Nat
  /-- dirty lines of a flush in progress (R218); reset none -/
  flush : List Nat
  /-- next line of patrol scrub (R225); reset 0 -/
  scrub : Nat
  /-- channels in training by field retrain, stack * 8 + channel (R209); reset none -/
  retraining : List Nat
  /-- full retrains tried on a channel in a row (R210); reset 0 -/
  fullTries : SMap Nat
  /-- channels marked failed, stack * 8 + channel (R210); reset none -/
  failedCh : List Nat
  /-- GiB presented by an expander, while known (R211); in CXL_PORT_CAP -/
  rangeClear : List (Nat × Nat × Nat)
  /-- ports whose failed range waits for an owner change after a reset, and as port + 2 those whose failure ends with the
  clearing in progress (R227); reset none -/
  failReset : List Nat
  /-- bank rows remapped to spares, and spares used per bank (R412); reset none -/
  repaired : List BankRow
  /-- row repairs scheduled (R412); reset none -/
  repairDue : List BankRow
  /-- cached translations of the DTU (R230); reset none -/
  tlb : List Xlat
  /-- walks in progress (R228); reset none -/
  walks : List Walk
  /-- invalidations waiting, oldest first (R231); reset none -/
  invals : List Inval
  /-- DTU_INVAL_VA of the virtual functions, by function (R292); reset 0 -/
  invalVa : SMap W64
  /-- patrol scrub waits for a channel that trains or a repair in it (R225, R414); reset false -/
  scrubWaits : Bool
  /-- unstepped time at which the schedule starts patrol scrub's pass (R225, R411); reset 0 -/
  scrubFrom : Nat
  /-- lines held by a slice whose stack copy was found uncorrectable (R223); reset none -/
  badUnder : List Nat
  /-- CXL ports reset by software since they were last UP (R332); reset none -/
  swReset : List Nat
  /-- unstepped time and stack temperature of a channel's last training, by stack * 8 + channel (R209); reset none (0) -/
  trainedAt : SMap Nat
  trainedTemp : SMap Nat
deriving DecidableEq, Repr

def MemSys.fresh : MemSys := ⟨[], [], [], [], 0, [], [], [], [], [], [], [], [], [], [], [], false, 0, [], [], [], []⟩

/-! ### Work submission (R233 to R266) -/

/-- A slot taken from a request ring (R235, R236). -/
structure Taken where
  slot : Nat
  words : List W64
  /-- the slot held poison, first poisoned physical line (R395) -/
  poison : Option Nat
deriving DecidableEq, Repr, Inhabited

/-- Phase of a command in progress (R243 to R249). -/
inductive Phase
  /-- checked, waiting for residency or for its gang -/
  | waiting
  /-- kernel start under way: loads done on the cores (R245 steps 2 to 6) -/
  | loading
  /-- running -/
  | running
  /-- its job is saved (R259) -/
  | saved
  /-- failed or cancelled; units still stopping (R51) -/
  | stopping
  /-- every core ended or stopped: waits for the boundary (R158) -/
  | ended
  /-- boundary passed: the record may be written -/
  | bounded
  /-- the record waits in the hold buffer (R253) -/
  | held
deriving DecidableEq, Repr, Inhabited

/-- A command in progress (R249 to R252, R258). -/
structure Cmd where
  slot : Nat
  words : List W64
  phase : Phase
  /-- bit n: cause code n (R251) -/
  causes : Nat
  detail : Nat
  exceptions : Nat
  engine : Nat
  contend : Nat
  throttle : Nat
  preempts : Nat
  /-- unstepped time of its start -/
  started : Nat
  savedAt : Nat
  savedNs : Nat
  runNs : Nat
  /-- cores of the placement (R244) -/
  cores : List Nat
  /-- core-entry table of a KERNEL, eight words an entry (R244) -/
  entries : List (List W64)
  /-- unstepped time of a pre-emption request (R261) -/
  preemptAt : Option Nat
  /-- ABORT in progress (R263) -/
  aborting : Bool
  /-- operations of a KV_OPS command issued so far (R248) -/
  issued : Nat
deriving DecidableEq, Repr, Inhabited

/-- The saved state of one core (R260). -/
structure SavedCore where
  index : Nat
  core : Core
  bytes : SMap Byte
  poison : List Nat
  harps : SMap Harp
  /-- HRP_EXC_ACC of each harp and FDL_FLAGS -/
  words : SMap W64
deriving DecidableEq, Repr

/-- A request ring beyond its registers (R233 to R266). -/
structure Ring where
  /-- the ring has been committed with VALID = 1 since reset (R266); reset false -/
  created : Bool
  /-- slots taken and not started, oldest first (R236); reset none -/
  taken : List Taken
  /-- command in progress (R233); reset none -/
  cmd : Option Cmd
  /-- the sarabande has been woken for the ring (R239); reset false -/
  woken : Bool
  /-- current poll interval in microseconds (R239); reset 1 -/
  pollUs : Nat
  /-- unstepped time of the last poll (R239); reset 0 -/
  polledAt : Nat
  /-- pre-emption of the job requested (R259); reset false -/
  preempt : Bool
  /-- unstepped time since which the job is resident (R256); reset 0 -/
  residentAt : Nat
  /-- amount that v(j) is raised by, so that idle time is never banked (R256); reset 0 -/
  banked : Nat
  /-- save area contents of the job, opaque to software: the saved cores with their scratchpads (R260); reset none -/
  save : List SavedCore
  /-- gang members that announced that they are ready, with what for, twice the number of the next kernel and 1 more to resume
  before it, and their KERNEL_ID (R262); reset none -/
  gangReady : List (Nat × Nat × Nat)
  /-- gang members that announced the end of the kernel in progress (R158); reset none -/
  gangEnded : List Nat
  /-- kernel commands of the gang that have ended since the commit (R262); reset 0 -/
  gangCount : Nat
  /-- records still owed for slots taken and not started at a reset or a halt (R265): slots and their cause code; reset none -/
  owed : List (Taken × Nat)
  /-- cores retired under the job: later commands that name one end CORE_RETIRED (R27); reset none -/
  retired : List Nat
deriving DecidableEq, Repr

/-- A record that waits in the hold buffer (R253, R255): its completion ring, its words without GEN, the request ring of
a command record, and whether its command asked for an interrupt. -/
structure HeldRec where
  cq : Nat
  words : List W64
  ring : Option Nat
  irq : Bool
deriving DecidableEq, Repr, Inhabited

/-- A completion ring beyond its registers (R253, R254). -/
structure Cq where
  created : Bool
  /-- CONSUMED as last read from the control line (R253); reset 0 -/
  consumed : Nat
  /-- unstepped time until which no interrupt is sent (R254); reset 0 -/
  holdUntil : Nat
  /-- a qualifying record waits for the window's end (R254); reset false -/
  owesIrq : Bool
  /-- unstepped time from which the control line may be read again (R253); reset 0 -/
  rereadAt : Nat
deriving DecidableEq, Repr, Inhabited

/-- The sarabande sequencer and the rings. -/
structure Sched where
  /-- request rings (R233); reset records -/
  rings : SMap Ring
  /-- completion rings (R253); reset records -/
  cqs : SMap Cq
  /-- hold buffer, oldest first, at most 256 records (R253); reset empty -/
  hold : List HeldRec
  /-- events dropped at a full hold buffer and not yet reported (R255); reset 0 -/
  dropped : Nat
  /-- unstepped time from which the next share decision is due, by partition (R256); reset 0 -/
  decided : SMap Nat
deriving DecidableEq, Repr

/-! ### Reliability (R391 to R419) -/

/-- A maintenance activity that waits (R415): since which unstepped time, and since when it is overdue. -/
structure MaintWait where
  act : Nat
  unit : Nat
  sub : Nat
  since : Nat
  overdue : Option Nat
deriving DecidableEq, Repr, Inhabited

/-- The error log and what recovery holds. -/
structure Ras where
  /-- error log: the last 1,024 records of eight words, newest last (R398, R399); reset empty -/
  log : List (List W64)
  /-- unstepped time of the last CORRECTED_RATE record of a unit (R398); reset none (0) -/
  rateAt : SMap Nat
  /-- maintenance activities running: activity, unit, and sub-unit or, of a sensor calibration, its start (R411, R414); reset none -/
  running : List (Nat × Nat × Nat)
  /-- activities that wait (R415); reset none -/
  waits : List MaintWait
  /-- unstepped time of a rail's last sensor calibration (R411); reset 0 -/
  calibratedAt : SMap Nat
  /-- corrected events of a unit in the last hour by key source * 4,096 + unit, as times and counts (R398); reset none -/
  corrected : SMap (List (Nat × Nat))
  /-- known-answer tests due by core: unstepped time at which the next falls due (R401); reset 0 -/
  testDue : SMap Nat
  /-- unstepped time of a core's last passed test (RAS_FIT_COREn.AGE_S); reset 0 -/
  testedAt : SMap Nat
  /-- cut TSC of a halt that is armed (R416); reset none -/
  cutAt : Option Nat
  /-- modules whose halt notice has been seen in this halt (R416, R419); reset none -/
  noticed : List Nat
  /-- fatal fault that started the halt: STATUS, SOURCE, UNIT, kind (R392, R400); reset none -/
  fatal : Option (Nat × Nat × Nat × Nat)
  /-- the cut is taken, or a fatal fault has stalled the module (R416, R417); reset false -/
  cut : Bool
  /-- a release waits for the halt to complete (R419); reset false -/
  releaseAsked : Bool
deriving DecidableEq, Repr

def Ras.fresh : Ras := ⟨[], [], [], [], [], [], [], [], none, [], none, false, false⟩

/-! ### Observation (R424 to R436) -/

/-- A memory watchpoint hit record (DBG_HIT_W0 to W3, R434). -/
structure HitRec where
  num : Nat
  words : List W64
deriving DecidableEq, Repr, Inhabited

/-- Watchpoints and snapshots beyond their registers. -/
structure Obs where
  /-- ranges sampled at enabling of the memory watchpoints (R433); reset empty ranges -/
  wpRange : SMap (Nat × Nat)
  /-- ranges sampled at enabling of the scratchpad watchpoints, core * 2 + m (R433); reset empty ranges -/
  spwpRange : SMap (Nat × Nat)
  /-- the last 256 hit records (R434); reset none -/
  hits : List HitRec
  /-- TSC of a watchpoint's last record (R434), by watchpoint; reset none (0 is kept apart by `hits`) -/
  recAt : SMap Nat
  /-- unstepped time of a watchpoint's last WATCH_HIT event, memory n, scratchpad 16 + 2 * core + m (R433) -/
  evAt : SMap Nat
  /-- partitions of an armed module-wide snapshot (R430); reset 0 -/
  snapParts : Nat
  /-- stall run in progress of a harp, core * 8 + harp: reason and cycles (R435 kind 8); reset none -/
  stallRun : SMap (Nat × Nat)
deriving DecidableEq, Repr

def Obs.fresh : Obs := ⟨[], [], [], [], [], 0, []⟩

/-! ### The host link (R321 to R329) -/

/-- The PCIe port's functions and configuration space. -/
structure HostSide where
  /-- Bus Master Enable by function (R212, R327); reset 0 -/
  bme : SMap Bool
  /-- VF Enable (R327); reset 0 -/
  vfEnable : Bool
  /-- Relaxed Ordering enable of a function's Device Control register (R325); reset PRESUMED 1 -/
  roEnable : SMap Bool
  /-- BAR2 size of the physical function as a power of two of GiB (R322); reset none: the default of R322 -/
  bar2Log2 : Option Nat
  /-- BAR2 size of every virtual function as a power of two of GiB (R323); reset 0 -/
  vfBar2Log2 : Nat
  /-- completion timeout in ms (R326); reset 50 -/
  timeoutMs : Nat
  /-- MSI-X tables: key function * 4096 + word (R324); reset: masked, address and data 0 (PRESUMED, PCIe) -/
  msix : SMap W64
  /-- MSI-X pending bits: function * 2048 + vector (R324); reset 0 -/
  msixPending : SMap Bool
  /-- the host link is up, in DL_Active (R327); reset false -/
  linkUp : Bool
  /-- selective and link IDE streams that are active (R328): 0 link, 1 physical, p + 2 virtual function p; reset none -/
  ide : List Nat
  /-- IDE streams in the Insecure state (R328); reset none -/
  insecure : List Nat
  /-- rings for which a HOST_READ_FAILED event has been posted since a read last succeeded (R326) -/
  readFailed : List Nat
  /-- completion rings whose control line could not be read (R326) -/
  ctlFailed : List Nat
deriving DecidableEq, Repr

def HostSide.fresh : HostSide := ⟨[], false, [], none, 0, 50, [], [], false, [], [], [], []⟩

/-! ### Ranior links (R294 to R319) -/

/-- A message on its way out, with the request ring whose command issued it (R309). -/
structure TxMsg where
  msg : Msg
  ring : Option Nat
deriving DecidableEq, Repr, Inhabited

/-- A frame sent and not yet acknowledged (R299). -/
structure SentFrame where
  seq : Nat
  /-- bytes that complete a message started in an earlier frame, and that message (R298) -/
  pre : List Byte
  cont : Option TxMsg
  /-- messages that start in the frame -/
  msgs : List TxMsg
  /-- credits the frame returns, channels 0 to 3 (R296, R300) -/
  cr : List Nat
  /-- SYNC_ID of a frame that is a timing event (R312) -/
  mark : Option Nat
  /-- times the SEQ has been sent -/
  tries : Nat
deriving DecidableEq, Repr, Inhabited

/-- A remote request awaiting its response (R307). -/
structure Remote where
  mtag : Nat
  module : Nat
  /-- message TYPE of the request: 1 WRITE, 2 READ, 4 ATOMIC, 7 the header of a TILE image -/
  kind : Nat
  /-- ORDER of a write or an atomic, once the egress has numbered it (R150) -/
  order : Nat
  core : Nat
  ring : Option Nat
  window : Nat
  off : Nat
  len : Nat
  /-- virtual address that read data are copied to; none for a load into a register -/
  va : Option Nat
  /-- operation number, for fences (R157) -/
  id : Nat
deriving DecidableEq, Repr, Inhabited

/-- One link beyond its registers. -/
structure LinkRt where
  /-- SEQ of the next new frame (R296, R299); reset 0 -/
  txSeq : Nat
  /-- SEQ expected next (R299); reset 0 -/
  rxSeq : Nat
  /-- a frame was discarded: the next frame sent carries NAK (R299); reset false -/
  nak : Bool
  /-- frames sent and not acknowledged, oldest first, at most 512 (R299); reset none -/
  sent : List SentFrame
  /-- SEQ from which frames are sent again (R299); reset none -/
  replay : Option Nat
  /-- unstepped time at which ACK last advanced (R299); reset 0 -/
  ackAt : Nat
  /-- messages waiting to be sent, oldest first (R298); reset none -/
  outq : List TxMsg
  /-- bytes of a message begun in the frames sent so far that no frame has carried yet, and that message (R298); reset none -/
  txPart : List Byte
  txCont : Option TxMsg
  /-- bytes received of a message that is not complete (R298); reset none -/
  rxPart : List Byte
  /-- messages received and not yet applied, oldest first (R305); reset none -/
  inq : List Msg
  /-- granule credits held for channels 0 to 3 (R300); reset 1,024, 1,024, 1,792 and 256 when the link comes UP -/
  credits : List Nat
  /-- granule credits to return for channels 0 to 3 (R300); reset 0 -/
  owed : List Nat
  /-- key phase sent, and key phase accepted (R296, R311); reset false -/
  txPhase : Bool
  rxPhase : Bool
  /-- fresh keys are agreed and no frame of their phase is accepted yet: the receiver still keeps the key before (R311); reset
  false -/
  oldKey : Bool
  /-- the key material before the rekey in progress (R311); reset empty -/
  oldKeys : List Byte
  /-- this sender still seals under it: it has not toggled its phase (R311); reset false -/
  txOld : Bool
  /-- frames received under the key of the phase accepted, and frames since the last that verified (R310); reset 0 -/
  rxCount : Nat
  rxBlank : Nat
  /-- a rekey is in progress (R311); reset false -/
  rekeying : Bool
  /-- steps of the handshake done: 1 HELLO received, 2 CERT verified, 4 KEM sent, 8 KEM received, 16 CONFIRM sent,
  32 CONFIRM checked (R304, R310); reset 0 -/
  steps : Nat
  /-- identity digest of the peer (R304); reset empty -/
  peerId : List Byte
  /-- the secret this end encapsulated and the one it decapsulated (R310); reset empty -/
  ssOwn : List Byte
  ssPeer : List Byte
  /-- this end's and the peer's HELLO (R304, R310); reset empty -/
  ownHello : List Byte
  peerHello : List Byte
  /-- the peer's certificate chain as received so far (R310); reset empty -/
  peerCerts : List Byte
  /-- ciphertexts of this end and of the peer (R310); reset empty -/
  ownKem : List Byte
  peerKem : List Byte
  /-- the 136 B of key material (R310); reset empty -/
  keys : List Byte
  /-- link notices sent and seen (R309); reset false -/
  noticeSent : Bool
  noticeSeen : Bool
  /-- the quiescing ends in OFF, not in a retrain (R308); reset false -/
  disabling : Bool
  /-- start of the current millisecond and uncorrectable frames in it (R309); reset 0 -/
  badAt : Nat
  bad : Nat
  /-- start of the current second and tag failures in it (R311); reset 0 -/
  tagAt : Nat
  tag : Nat
  /-- unstepped time at which the link went DOWN or last tried (R309); reset 0 -/
  downAt : Nat
  /-- training belongs to a planned retrain, which keeps keys and counters (R309); reset false -/
  planned : Bool
  /-- the link has been UP since its last commit (R309); reset false -/
  wasUp : Bool
  /-- frame held to be swapped with the next one (R317 mode 4); reset none -/
  heldFrame : Option SentFrame
  /-- message held behind others, and how many still pass it (R317 mode 7); reset none -/
  heldMsg : Option (TxMsg × Nat)
deriving DecidableEq, Repr, Inhabited

def LinkRt.fresh : LinkRt :=
  ⟨0, 0, false, [], none, 0, [], [], none, [], [], [], [0, 0, 0, 0], false, false, false, [], false, 0, 0, false, 0, [], [], [], [], [], [], [], [], [],
   false, false, false, 0, 0, 0, 0, 0, false, false, none, none⟩

/-- A tile image arriving over links, granules in order (R117, R298). -/
structure TileIn where
  module : Nat
  srcCore : Nat
  core : Nat
  slot : Nat
  bytes : List Byte
  poison : Bool
  /-- messages received of it -/
  count : Nat
deriving DecidableEq, Repr, Inhabited

/-- All links, and what joins them. -/
structure Links where
  /-- links by number (R294); reset records -/
  links : SMap LinkRt
  /-- requests awaiting responses (R307); reset none -/
  remote : List Remote
  /-- next MTAG (R298); reset 0 -/
  nextTag : Nat
  /-- next ORDER to a peer module's memory, by module, and from a core here to a peer's core, by `pairKey` (R149, R150, R306);
  reset 0 -/
  orderTo : SMap Nat
  /-- next ORDER of a peer module, or of a peer's core to a core here, that has not landed (R149, R150); reset 0 -/
  orderFrom : SMap Nat
  /-- ORDERs landed ahead of it, under the same keys; reset none -/
  ahead : SMap (List Nat)
  /-- a link to the peer module was lost and its numbers have not started afresh: a missing number is a lost write (R151);
  reset false -/
  resync : SMap Bool
  /-- the earliest refused write of a peer module since its numbers last started afresh, with its status: later final writes of
  the module guard it (R151, R307); reset none -/
  barred : SMap (Option (Nat × Nat))
  /-- a write to the peer module was refused or lost: its next mapping starts numbers afresh (R151, R306); reset false -/
  breakTo : SMap Bool
  /-- peers whose egress waits for a new mapping, with the messages that wait (R306); reset none -/
  paused : SMap (List TxMsg)
  /-- the same, whether a peer's egress is paused; reset false -/
  pausedOn : SMap Bool
  /-- tile images in part (R117); reset none -/
  tiles : List TileIn
  /-- identity digests whose chains are verified, at most 32 (R310); reset none -/
  verified : List (List Byte)
  /-- sync exchange under way: SYNC_ID, t1 in 1/8 ns, link (R312); reset none -/
  sync : Option (Nat × Nat × Nat)
  /-- SYNC_ID of the next exchange (R296); reset 0 -/
  syncId : Nat
  /-- unstepped time of the last SYNC_REQ (R312); reset 0 -/
  syncAt : Nat
  /-- consecutive exchanges within 3 ns (R313); reset 0 -/
  good : Nat
  /-- the TSC has been stepped on entering ACQUIRING (R312); reset false -/
  stepped : Bool
  /-- unstepped time at which HOLDOVER began (R313); reset 0 -/
  holdAt : Nat
  /-- rate steering in parts per billion that the follower applies (R312); reset 0 -/
  steer : Int
deriving DecidableEq, Repr

def Links.fresh : Links := ⟨[], [], 0, [], [], [], [], [], [], [], [], [], [], none, 0, 0, 0, false, 0, 0⟩
/-! ### The key-value page system (R169 to R202) -/

/-- A sequence of a region as its serving unit holds it (R177); a closed sequence is unlisted. -/
structure KvSeq where
  isOpen : Bool
  pin : Bool
  stepFault : Bool
  length : Nat
  commits : Nat
  failed : Nat
  lastOutcome : Nat
  nearMapped : Nat
  farMapped : Nat
  /-- near pages that hold its private level-3 tables (R176) -/
  tables : List Nat
deriving DecidableEq, Repr, Inhabited

/-- The device-managed structures of a region (R174, R176, R181, R192). -/
structure KvRegion where
  /-- free near pages by unit rank, head first (R181) -/
  near : SMap (List Nat)
  /-- free far pages by unit rank, head first (R181) -/
  far : SMap (List Nat)
  /-- reference counts by page (R181) -/
  counts : SMap Nat
  /-- use stamps by page, in units of 2^20 ns (R192) -/
  stamps : SMap Nat
  /-- page mapped at each 64 KiB of the range, by virtual address / 65,536 (R175) -/
  map : SMap (Option Nat)
  /-- physical address of the level-3 table of each 2 MiB block, by virtual address / 2^21 (R176) -/
  tabs : SMap (Option Nat)
  /-- sequences by number (R177) -/
  seqs : SMap KvSeq
  /-- KV_LOW_WATER posted and not yet armed again, by unit rank (R183) -/
  fired : SMap Bool
deriving DecidableEq, Repr, Inhabited

/-- An operation issued to its unit and not yet served (R178, R179). -/
structure KvOp where
  /-- operation number (R147, R157) -/
  id : Nat
  /-- issuing core, or none for the sarabande (R248) -/
  core : Option Nat
  ring : Nat
  desc : List W64
deriving DecidableEq, Repr, Inhabited

/-- The KV page units. -/
structure Kv where
  /-- regions by number; reset empty -/
  regions : SMap KvRegion
  /-- operations waiting, in order of arrival (R179); reset none -/
  ops : List KvOp
  /-- committed sets of regions that are still being destroyed, by region: register offsets and words (R202); reset none -/
  waiting : SMap (List (Nat × W64))
deriving DecidableEq, Repr

def KvSeq.closed : KvSeq := ⟨false, false, false, 0, 0, 0, 0, 0, 0, []⟩

def KvRegion.fresh : KvRegion := ⟨[], [], [], [], [], [], [], []⟩

/-! ### Time (R437 to R442) -/

/-- What the TSC and its inputs hold beyond their registers. -/
structure TimeKeep where
  /-- expected value of the next edge, without PPS_DELAY (R439); reset 0 -/
  next : Nat
  /-- unstepped time of the last 1PPS edge (R439); reset 0 -/
  edgeAt : Nat
  /-- consecutive edges within 2 ns (R439); reset 0 -/
  good : Nat
  /-- unstepped time at which HOLDOVER began (R439); reset 0 -/
  holdAt : Nat
  /-- rate steering in parts per billion (R437, R439); reset 0 -/
  steer : Int
  /-- fraction of a nanosecond carried, in units of 10^-9 ns (R437); reset 0 -/
  frac : Int
  /-- state of R439; reset UNSYNCED -/
  state : Nat
deriving DecidableEq, Repr

def TimeKeep.fresh : TimeKeep := ⟨0, 0, 0, 0, 0, 0, 0⟩

/-! ### Partitions and trust (R267 to R293) -/

/-- A weight import in progress (R285). -/
structure Import where
  src : Nat
  dst : Nat
  len : Nat
  /-- target size in units of 64 KiB -/
  units : Nat
  /-- the content key and the header hash, once verification has passed (R284) -/
  key : List Byte
  hash : List Byte
  /-- chunks opened so far, with their plaintext -/
  opened : Nat
  plain : List Byte
deriving DecidableEq, Repr, Inhabited

/-- An SPDM responder of a function (R287): requests answered so far and the session: 0 none, 1 keys exchanged, 2
finished. -/
structure Spdm where
  version : Bool
  caps : Bool
  algs : Bool
  session : Nat
deriving DecidableEq, Repr, Inhabited

/-- A response that waits for the security engine's signature (R282). -/
structure SigReq where
  fn : Nat
  name : String
  message : List Byte
  values : List Nat
deriving DecidableEq, Repr, Inhabited

/-- Partition, security and debug state beyond the registers. -/
structure Trust where
  /-- debug logs by partition: the last 256 entries of four words, newest last (R291); reset empty -/
  logs : SMap (List (List W64))
  /-- unstepped time of a partition's last DEBUG_ACCESS event plus 1 (R290); reset 0 -/
  logEvAt : SMap Nat
  /-- memory-keys of the partitions that exist, each named by the random word it was drawn with (R268); reset none -/
  keys : SMap W64
  /-- imports in progress by partition (R285); reset none -/
  imports : SMap (Option Import)
  /-- header hash of the bundle behind each sealed entry, partition * 16 + entry (R284, R288); reset none -/
  hashes : SMap (List Byte)
  /-- range commits waiting behind one in progress, oldest first, each the shadow copied when it was written (R271, R386);
  reset none -/
  rangeWait : List (List (Nat × W64))
  /-- partitions whose interface stops when their reset is complete (R289); reset none -/
  stopping : List Nat
  /-- SPDM responders by function (R287); reset none -/
  spdm : SMap Spdm
  /-- signatures waiting, oldest first (R282); reset none -/
  signing : List SigReq
  /-- measurements 1 to 5 taken at bring-up (R288); reset none -/
  measured : List (List Byte)
  /-- partitions whose jobs the operator's debug has halted (R259, R290); reset none -/
  halted : List Nat
deriving DecidableEq, Repr

def Trust.fresh : Trust := ⟨[], [], [], [], [], [], [], [], [], [], []⟩


/-! ### The configuration flash (R283, R365 to R372, R389, R398) -/

/-- Factory settings of a core: harp good mask, usable, voltage offset in 5 mV, clock derate (R369). -/
structure PlanCore where
  harps : Nat
  usable : Bool
  voff : Nat
  derate : Nat
deriving DecidableEq, Repr, Inhabited

/-- The floor-plan record of the factory area (R369). -/
structure Plan where
  magic : Nat
  version : Nat
  grade : Nat
  /-- fitted stacks, bit s -/
  fitted : Nat
  identity : List Byte
  serial : Nat
  reserveW : Nat
  /-- bytes 50 and 51 -/
  zero : Nat
  /-- usable links, bit l -/
  links : Nat
  /-- cores by index; an unlisted core has all 8 harps good, offset 0 and derate 0 -/
  cores : SMap PlanCore
  signature : List Byte
deriving DecidableEq, Repr

/-- An entry of the field log (R371). -/
structure FieldEntry where
  /-- entries written before this one -/
  seq : Nat
  /-- 1 raise voltage offset; 2 raise derate; 3 retire core; 4 retire harp; 5 repair row -/
  kind : Nat
  core : Nat
  harp : Nat
  value : Nat
  row : BankRow
  tsc : Nat
  /-- the keyed SHAKE256 tag over words 0 to 3, which is written last -/
  tag : List Byte
deriving DecidableEq, Repr, Inhabited

/-- What the configuration flash holds; it alone survives a module reset (R384). -/
structure Flash where
  /-- image area (R366): bytes by offset; reset DESIGN CHOICE: zeros, no image -/
  image : SMap Byte
  /-- what a byte that is not listed reads as: zero, and after an erase a free value (R335); reset 0 -/
  fill : Byte
  /-- the image last verified and is unchanged since (PEX_MBX_STATUS.IMAGE_VALID); reset false -/
  valid : Bool
  /-- IMAGE_BEGIN has marked the image invalid (R335, R368); reset false -/
  marked : Bool
  /-- floor-plan record (R369); reset DESIGN CHOICE: grade A, everything good -/
  plan : Plan
  /-- rollback counter (R283); reset 0 -/
  rollback : Nat
  /-- boot request: TEST in [1:0], HOLD in [7:4] (R389); reset 0 -/
  next : Nat
  /-- field log, oldest first (R371); reset empty -/
  log : List FieldEntry
  /-- event log: records of eight words, oldest first (R365, R398); reset empty -/
  events : List (List W64)
deriving DecidableEq, Repr

def PlanCore.good : PlanCore := ⟨255, true, 0, 0⟩

/-- A record of grade A with every core, harp, stack and link good. -/
def Plan.full : Plan := ⟨0x4E465031, 1, 1, 4095, Config.ownId, 0, 520, 0, 2 ^ 96 - 1, [], []⟩

def Flash.fresh : Flash := ⟨[], 0, false, false, Plan.full, 0, 0, [], []⟩

/-! ### Bring-up and resets (R373 to R390) -/

/-- What bring-up holds beyond its registers. -/
structure Boot where
  /-- the request read and cleared at stage 1 (R368): TEST and HOLD; reset 0 -/
  test : Nat
  hold : Nat
  /-- section 5 of the image that stage 1 read, in list order (R367, R379); reset empty -/
  defaults : List (Nat × W64)
  /-- SVN of that image (R366); reset 0 -/
  svn : Nat
  /-- core under a core reset (R384); reset none -/
  coreReset : Option Nat
  /-- BOOT_NEXT value being stored (R389); reset none -/
  storing : Option Nat
  /-- rollback counter value being stored (R283); reset none -/
  advancing : Option Nat
  /-- unstepped time at which the stage that runs was entered, and its estimated time in ms (R375, R380); reset 0 -/
  stageAt : Nat
  estimate : Nat
deriving DecidableEq, Repr

def Boot.fresh : Boot := ⟨0, 0, [], 0, none, none, none, 0, 0⟩

/-! ### The mailbox and the sideband (R334, R335, R456) -/

structure Mgmt where
  /-- mailbox buffer, 64 KiB (R337, PEX_ registers); reset zeros -/
  buffer : SMap Byte
  /-- operation that runs and its arguments (R335); reset 0 -/
  op : Nat
  arg : W64
  /-- an IMAGE_BEGIN has been completed by this module since reset, and its image's bytes (R335); reset 0 for none -/
  size : Nat
  /-- image bytes written since IMAGE_BEGIN (PROGRESS); reset 0 -/
  written : Nat
  /-- unstepped time of the owner's last operation (R335); reset 0 -/
  opAt : Nat
  /-- liquid at the inlet and at the outlet fitting (R456); reset false -/
  leakIn : Bool
  leakOut : Bool
deriving DecidableEq, Repr

def Mgmt.fresh : Mgmt := ⟨[], 0, 0, 0, 0, 0, false, false⟩

/-! ### Power (R338 to R364) -/

/-- A rail region beyond its registers. -/
structure Region where
  /-- sums of measured and estimated current in mA, and number of samples, since the last comparison (R352); reset 0 -/
  sum : Nat
  estSum : Nat
  count : Nat
  /-- the last 10,000 pairs of activity current and measured current in mA, oldest first (R351); reset empty -/
  pairs : List (Nat × Nat)
  /-- GAIN and OFFSET of the fit in use as numerators over `fitDen` (R350, R351); reset 1 and 0 -/
  gain : Int
  offset : Int
  fitDen : Nat
  /-- unstepped time of the last telemetry sample (R353); reset 0 -/
  sampleAt : Nat
  /-- unstepped time since which every comparison has failed (R352); reset none -/
  badSince : Option Nat
  /-- measured and estimated current in mA of the last comparison: the factor r (R352); reset 0 -/
  meas : Nat
  est : Nat
  /-- the pre-charge of a heavy hint is in force (R358); reset false -/
  pre : Bool
  /-- harps a slot of the stagger in progress admits (R360, R361); reset none -/
  stagger : Option Nat
deriving DecidableEq, Repr, Inhabited

def Region.fresh : Region := ⟨0, 0, 0, [], 1, 0, 1, 0, none, 0, 0, false, none⟩

/-- A phase hint (R358): the regions it applies to, the unstepped time at which it lapses, its level and stagger, and the request ring
whose command in execution gave it, which the sequencer's hint instruction replaces (R242). -/
structure Hint where
  regions : List Nat
  till : Nat
  level : Nat
  stagger : Nat
  ring : Option Nat
deriving DecidableEq, Repr

structure Power where
  /-- regions by number; reset records -/
  regions : SMap Region
  /-- unstepped time at which something last restarted the count to deep sleep (R343); reset 0 -/
  idleAt : Nat
  /-- power cap and thermal cap in MHz (R347, R356, R362); reset 1,800 -/
  capPower : Nat
  capTherm : Nat
  /-- consecutive milliseconds below 95% of the limit (R356); reset 0 -/
  below : Nat
  /-- unstepped time since which the die has been 3 °C below its limit (R362); reset none -/
  coolSince : Option Nat
  /-- the die clamp is in force (R362); reset false -/
  clamp : Bool
  /-- a stack is above 95 °C (R362); reset false -/
  stackHot : Bool
  /-- band of the input voltage (R338): 0 full range, 1 below 32.0 V, 2 above 40.0 V; reset 0 -/
  inputBand : Nat
  /-- input power of the last telemetry sample in W (R350); reset 0 -/
  inputLast : Nat
  /-- the module limit is held at 1,600 W by the input voltage (R338); reset false -/
  inputHeld : Bool
  /-- unstepped time since which the input has been at or above 32.5 V (R338); reset none -/
  inputOkAt : Option Nat
  /-- duties of a partition's cores in isolation mode, against POWER_W and against its share of a region's limits (R277, R357); reset 16 -/
  partDuty : SMap Nat
  /-- phase hints that have not lapsed (R358); reset none -/
  hints : List Hint
  /-- the input power is above the limit with the power cap at 900 MHz: no region's duty rises (R356); reset false -/
  atFloor : Bool
deriving DecidableEq, Repr

def Power.fresh : Power := ⟨[], 0, 1800, 1800, 0, none, false, false, 0, 0, false, none, [], [], false⟩

/-! ### The debug port and the test access port (R451) -/

structure Phys where
  /-- boundary register loaded by SAMPLE/PRELOAD; reset empty -/
  boundary : List Bool
  /-- instruction in force: 0 none or BYPASS, 1 EXTEST, 2 CLAMP, 3 HIGHZ; reset 0 -/
  inst : Nat
  /-- the debug transport is open; reset false -/
  transport : Bool
  /-- PERST# is asserted (R447); reset false: released -/
  perst : Bool
  /-- the regulators are shut down (R338): 0 no, 1 until the input is in range, 2 until it has fallen below 30.0 V; reset 0 -/
  shut : Nat
  /-- THERM_TRIP# is asserted (R446); reset false -/
  tripped : Bool
deriving DecidableEq, Repr

def Phys.fresh : Phys := ⟨[], 0, false, false, 0, false⟩

/-! ### What leaves the module -/

/-- Everything the module sends outside, and the values reads return. -/
inductive Out
  /-- a read completion of BAR0: function, offset, value -/
  | regRead (fn off : Nat) (v : W64)
  /-- a read completion of BAR2 or BAR4: function, bytes, poisoned -/
  | readData (fn : Nat) (data : List Byte) (poison : Bool)
  /-- a request completed with Unsupported Request -/
  | unsupported (fn : Nat)
  /-- a request completed with Completer Abort -/
  | completerAbort (fn : Nat)
  /-- data a slice returned to a requester, with the mark -/
  | sliceData (who : Requester) (data : List Byte) (poison : Bool)
  /-- a posted write on the host link: function, bus address, bytes, poison, Relaxed Ordering -/
  | hostWrite (fn addr : Nat) (data : List Byte) (poison relaxed : Bool)
  /-- a read request on the host link -/
  | hostRead (fn addr len : Nat)
  /-- a line written back to the expander of a CXL port: port, offset, ciphertext, CXL poison indication (R221, R226) -/
  | cxlWrite (n off : Nat) (data : List Byte) (poison : Bool)
  /-- an MSI-X write: function, vector -/
  | msix (fn vector : Nat)
  /-- a configuration read's value -/
  | config (fn : Nat) (v : Nat)
  /-- a frame sent on a link (R296): the frame, and its bytes on the wire -/
  | frame (l : Nat) (f : Frame) (wire : List Byte)
  /-- an SPDM or TDISP response: function, response name, values, signed -/
  | response (fn : Nat) (name : String) (values : List Nat)
  /-- a mailbox, PLDM or management answer -/
  | management (name : String) (values : List Nat)
  /-- a pin driven: name and level -/
  | pin (name : String) (level : Bool)
  /-- a JTAG response -/
  | jtag (name : String) (v : Nat)
  /-- a packet or a wave of the always-on domain observed outside: name and values -/
  | signal (name : String) (values : List Nat)
deriving DecidableEq, Repr

/-! ### The whole state -/

/-- The module (level 4 of R16) with the queue of commands that wait for it. -/
structure State where
  /-- commands waiting, oldest first; reset empty -/
  pending : List Instr
  /-- module memory (R146); reset: nothing listed -/
  mem : Memory
  /-- scratchpads (R129); reset: zeros -/
  spd : Spd
  /-- control registers by BAR0 offset (R9, R28); reset: the register maps' reset values -/
  regs : SMap W64
  /-- shadow copies of RWC registers by BAR0 offset (R10, R12); reset: the reset values -/
  shadow : SMap W64
  /-- MODEL'S OWN: counter of free values taken; reset 0 -/
  free : Nat
  /-- unstepped time of R442 in ns; reset 0 -/
  utime : Nat
  /-- MODEL'S OWN: everything sent outside, oldest first; reset empty -/
  out : List Out
  /-- cores by index (R16); reset records -/
  cores : SMap Core
  /-- harps by core * 8 + harp (R16); reset records -/
  harps : SMap Harp
  /-- writes in flight, held accesses and the ordering machinery (R20 to R31, R146 to R166); reset: the fresh record -/
  ord : Order
  /-- slices, stack controllers, CXL ports and the DTU (R203 to R232); reset: the fresh record -/
  ms : MemSys
  /-- the sarabande, request rings and completion rings (R233 to R266); reset: the fresh record -/
  sch : Sched
  /-- error log, tests, maintenance and halts (R391 to R420); reset: the fresh record -/
  ras : Ras
  /-- watchpoints, hit records and snapshots (R424 to R436); reset: the fresh record -/
  obs : Obs
  /-- PCIe functions and configuration space (R321 to R329); reset: the fresh record -/
  hst : HostSide
  /-- Ranior links (R294 to R319); reset: the fresh record -/
  lnk : Links
  /-- key-value page units (R169 to R202); reset: the fresh record -/
  kv : Kv
  /-- the TSC beyond its registers (R437 to R442); reset: the fresh record -/
  time : TimeKeep
  /-- partitions, sealing, SPDM and debug logs (R267 to R293); reset: the fresh record -/
  tru : Trust
  /-- the configuration flash (R365 to R372, R384); reset: the fresh record -/
  flash : Flash
  /-- bring-up and resets beyond their registers (R373 to R390); reset: the fresh record -/
  boot : Boot
  /-- the mailbox and the leak sensors (R335, R456); reset: the fresh record -/
  mgm : Mgmt
  /-- the power controller (R338 to R364); reset: the fresh record -/
  pwr : Power
  /-- pins and the test access port (R446, R447, R451); reset: the fresh record -/
  phy : Phys
deriving DecidableEq, Repr

def AccSet.fresh : AccSet := ⟨.empty, [], 0, 0, false, [], [], []⟩

def Harp.fresh : Harp :=
  ⟨[], none, none, AccSet.fresh, AccSet.fresh, none, 0, none, [], none, none, none, none, false, false⟩

def Slot.fresh : Slot := ⟨false, [], [], 0⟩

def Core.fresh : Core where
  power := .off
  idleSince := 0
  clearing := false
  ring := none
  running := false
  ending := false
  ended := false
  stopped := false
  saved := false
  harpMask := 0
  code := []
  args := []
  chain := []
  dlist := []
  chainPoison := []
  slots := []
  credits := []
  sent := []
  cache := []
  guards := []
  acquiring := none
  invalidating := none
  fenceAt := none
  gathers := []
  polyLoad := none
  coef := []
  loaded := 0
  footprints := []
  testing := false
  suspect := none
  proc := none
  rem := []
  beats := 0
  trace := []
  lost := 0
  ident := (0, 0, 0)

def Ring.fresh : Ring where
  created := false
  taken := []
  cmd := none
  woken := false
  pollUs := 1
  polledAt := 0
  preempt := false
  residentAt := 0
  banked := 0
  save := []
  gangReady := []
  gangEnded := []
  gangCount := 0
  owed := []
  retired := []

def Cq.fresh : Cq := ⟨false, 0, 0, false, 0⟩

/-- The machine right after a module reset. -/
def State.reset : State where
  pending := []
  mem := ⟨[], []⟩
  spd := ⟨[], [], []⟩
  regs := []
  shadow := []
  free := 0
  utime := 0
  out := []
  cores := []
  harps := []
  ord := ⟨0, [], [], [], [], [], [], 0⟩
  ms := MemSys.fresh
  sch := ⟨[], [], [], 0, []⟩
  ras := Ras.fresh
  obs := Obs.fresh
  hst := HostSide.fresh
  lnk := Links.fresh
  kv := ⟨[], [], []⟩
  time := TimeKeep.fresh
  tru := Trust.fresh
  flash := Flash.fresh
  boot := Boot.fresh
  mgm := Mgmt.fresh
  pwr := Power.fresh
  phy := Phys.fresh

end Sys2Proof.Machine
end

