-- ==== Sys2Proof/Machine/Ops.lean ====
section
/-!
DEFINITION. Sys2Proof/Machine/Ops.lean: the named operations that the commands' meanings share: register fields, units,
memory and scratchpads, translation, writes in flight, the failing of a command, records and events.
-/
namespace Sys2Proof.Machine

/-! ### Outcomes -/

abbrev Res := Host.Outcome State Fault Refusal

/-- Answer a next state: the effect where the command's condition holds, the state unchanged where the step is not
enabled (log entry 5). -/
def whenDo (g : Bool) (s t : State) : Res := if g then .next t else .next s

/-! ### Register fields (R9, R10) -/

/-- Mask of `w` bits at bit `lo`. -/
def fieldMask (lo w : Nat) : W64 := BitVec.ofNat 64 ((2 ^ w - 1) * 2 ^ lo)

/-- Bits [lo+w-1:lo] of a word. -/
def getBits (x : W64) (lo w : Nat) : Nat := x.toNat / 2 ^ lo % 2 ^ w

/-- A word with bits [lo+w-1:lo] replaced. -/
def setBits (x : W64) (lo w v : Nat) : W64 :=
  (x &&& ~~~(fieldMask lo w)) ||| BitVec.ofNat 64 (v % 2 ^ w * 2 ^ lo)

/-- BAR0 offset of a field's register at indices i and j. -/
def Fld.at (f : Fld) (i j : Nat) : Nat := f.base + i * f.step1 + j * f.step2

/-- What an unlisted register reads as: its reset value; the digests of the die's keys and its stepping, which counts
from 1, are the die's own (GLB_ID, SEC_DIK_HASHk, SEC_KEM_HASHk). -/
def regDefault (off : Nat) : W64 :=
  if 0x500000 ≤ off ∧ off < 0x500020 then BitVec.ofNat 64 (leNat ((Config.ownId.drop (off - 0x500000)).take 8))
  else if off = 0 then setBits (regReset 0) 40 8 (max 1 Config.dieStep.toNat)
  else if 0x500020 ≤ off ∧ off < 0x500040 then Config.kemHash ((off - 0x500020) / 8)
  else regReset off

/-- A control register's word. -/
def reg (s : State) (off : Nat) : W64 := SMap.look regDefault s.regs off

def setReg (s : State) (off : Nat) (v : W64) : State := { s with regs := SMap.put regDefault s.regs off v }

/-- Value of a named field at indices i and j. -/
def rd (s : State) (f : Fld) (i j : Nat) : Nat := getBits (reg s (f.at i j)) f.lo f.width

/-- Set a named field at indices i and j. -/
def wr (s : State) (f : Fld) (i j v : Nat) : State :=
  setReg s (f.at i j) (setBits (reg s (f.at i j)) f.lo f.width v)

/-- A field as a Boolean. -/
def rdB (s : State) (f : Fld) (i j : Nat) : Bool := decide (rd s f i j = 1)

def wrB (s : State) (f : Fld) (i j : Nat) (b : Bool) : State := wr s f i j (if b then 1 else 0)

/-- Add to a counting field, saturating at its largest value. -/
def addSat (s : State) (f : Fld) (i j n : Nat) : State := wr s f i j (min (rd s f i j + n) (2 ^ f.width - 1))

/-- Shadow copy of an RWC register (R10, R12). -/
def shadowWord (s : State) (off : Nat) : W64 := SMap.look regDefault s.shadow off

def setShadow (s : State) (off : Nat) (v : W64) : State :=
  { s with shadow := SMap.put regDefault s.shadow off v }

/-- A field of the shadow copy. -/
def rdS (s : State) (f : Fld) (i j : Nat) : Nat := getBits (shadowWord s (f.at i j)) f.lo f.width

/-- The committed word of a register takes the RWC fields of a word (R12). -/
def commitWord (s : State) (off : Nat) (v : W64) : State :=
  match regAt off with
  | none => s
  | some r => setReg s off (r.fields.foldl (fun w f => if f.acc = .rwc then setBits w f.lo f.width (getBits v f.lo f.width) else w) (reg s off))

/-- Commit a register: the committed word takes the shadow's RWC fields (R12). -/
def commitReg (s : State) (off : Nat) : State := commitWord s off (shadowWord s off)

/-- The shadow of a set as it stands when a commit is written (R386). -/
def copyShadow (s : State) (offs : List Nat) : List (Nat × W64) := offs.map (fun o => (o, shadowWord s o))

/-- Commit such a copy. -/
def commitCopy (s : State) (cp : List (Nat × W64)) : State := cp.foldl (fun s e => commitWord s e.1 e.2) s

/-- A field in such a copy. -/
def rdIn (cp : List (Nat × W64)) (f : Fld) (i j : Nat) : Nat :=
  getBits (((cp.find? (fun e => decide (e.1 = f.at i j))).map (fun e => e.2)).getD 0) f.lo f.width

def commitRegs (s : State) (offs : List Nat) : State := offs.foldl commitReg s

/-- Return registers and their shadows to the reset word. -/
def resetRegs (s : State) (offs : List Nat) : State :=
  offs.foldl (fun s o => setShadow (setReg s o (regDefault o)) o (regDefault o)) s

/-! ### Free values, time and what leaves the module -/

/-- The next free value and the state after taking it. -/
def takeFree (s : State) : W64 × State := (Config.freeWord s.free, { s with free := s.free + 1 })

/-- Bytes of which nothing is known: eight to a free value, from `n` of them. -/
def freeBytes (s : State) (n : Nat) : List Byte × State :=
  ((List.range n).flatMap (fun i => leBytes 8 (Config.freeWord (s.free + i)).toNat), { s with free := s.free + n })

/-- The TSC (R437). -/
def tsc (s : State) : Nat := rd s R.TSC_VALUE_TSC 0 0

/-- Microseconds as unstepped time. -/
def us (n : Nat) : Nat := n * 1000

def emit (s : State) (o : Out) : State := { s with out := s.out ++ [o] }

def emits (s : State) (os : List Out) : State := { s with out := s.out ++ os }

/-! ### Units -/

def coreAt (s : State) (c : Nat) : Core := SMap.look (fun _ => Core.fresh) s.cores c
def setCore (s : State) (c : Nat) (v : Core) : State := { s with cores := SMap.put (fun _ => Core.fresh) s.cores c v }
def onCore (s : State) (c : Nat) (f : Core → Core) : State := setCore s c (f (coreAt s c))

/-- Key of harp h of core c. -/
def hk (c h : Nat) : Nat := c * 8 + h

def harpAt (s : State) (c h : Nat) : Harp := SMap.look (fun _ => Harp.fresh) s.harps (hk c h)
def setHarp (s : State) (c h : Nat) (v : Harp) : State :=
  { s with harps := SMap.put (fun _ => Harp.fresh) s.harps (hk c h) v }
def onHarp (s : State) (c h : Nat) (f : Harp → Harp) : State := setHarp s c h (f (harpAt s c h))

def ringAt (s : State) (w : Nat) : Ring := SMap.look (fun _ => Ring.fresh) s.sch.rings w
def setRing (s : State) (w : Nat) (v : Ring) : State :=
  { s with sch := { s.sch with rings := SMap.put (fun _ => Ring.fresh) s.sch.rings w v } }
def onRing (s : State) (w : Nat) (f : Ring → Ring) : State := setRing s w (f (ringAt s w))

def cqAt (s : State) (q : Nat) : Cq := SMap.look (fun _ => Cq.fresh) s.sch.cqs q
def setCq (s : State) (q : Nat) (v : Cq) : State :=
  { s with sch := { s.sch with cqs := SMap.put (fun _ => Cq.fresh) s.sch.cqs q v } }

/-- The eight harps of a core. -/
def harpIxs : List Nat := List.range 8
/-- Every core of the grid. -/
def coreIxs : List Nat := List.range 288

/-- Is a core usable in the runtime floor plan (GLB_CORE_MAP, R26). -/
def coreUsable (s : State) (c : Nat) : Bool :=
  decide (c < 288) && decide (rd s R.GLB_CORE_MAP_USABLE (c / 64) 0 / 2 ^ (c % 64) % 2 = 1)

/-- Is a harp good in the runtime floor plan (HRP_GOOD). -/
def harpGood (s : State) (c h : Nat) : Bool := decide (rd s R.HRP_GOOD_SELF c h = 1)

/-- Number of good harps of a core. -/
def goodHarps (s : State) (c : Nat) : Nat := (harpIxs.filter (harpGood s c)).length

/-- State of power domain `d` (PWR_DOMAINn, R341): 0 off, 1 waking, 2 on, 3 retention. -/
def pwrDomain (s : State) (d : Nat) : Nat := (reg s (0x200100 + d / 32 * 8)).toNat / 4 ^ (d % 32) % 4

def setPwrDomain (s : State) (d v : Nat) : State :=
  setReg s (0x200100 + d / 32 * 8) (setBits (reg s (0x200100 + d / 32 * 8)) (2 * (d % 32)) 2 v)

/-- Core set of a request ring, of a partition: registers of five words. -/
def inMask (s : State) (f : Fld) (i c : Nat) : Bool :=
  decide (c < 288) && decide (rd s f i (c / 64) / 2 ^ (c % 64) % 2 = 1)

def ringCores (s : State) (w : Nat) : List Nat := coreIxs.filter (inMask s R.SEQ_RQ_CORES_CORES w)
def partCores (s : State) (p : Nat) : List Nat := coreIxs.filter (inMask s R.PRT_CORE_CORES p)

/-- Partition that owns a core, if any: the valid partition whose core set holds it (R273). -/
def coreOwner (s : State) (c : Nat) : Option Nat :=
  (List.range 16).find? (fun p => rdB s R.PRT_CFG_VALID p 0 && inMask s R.PRT_CORE_CORES p c)

/-- Partition of a request ring. -/
def ringPart (s : State) (w : Nat) : Nat := rd s R.SEQ_RQ_CFG_PARTITION w 0

/-- Partition in whose context a core runs: that of its kernel's ring, else its owner. -/
def corePart (s : State) (c : Nat) : Nat :=
  match (coreAt s c).ring with
  | some w => ringPart s w
  | none => (coreOwner s c).getD 0

/-! ### Physical addresses and ownership (R211, R213, R214, R269) -/

/-- What lies at a physical address. -/
inductive Place | near | cxl (n : Nat) | host | absent
deriving DecidableEq, Repr

/-- Number of usable stacks (NU of R211). -/
def nu (s : State) : Nat := rd s R.GLB_GEOMETRY_STACKS_USABLE 0 0

def placeOf (s : State) (pa : Nat) : Place :=
  if pa < nu s * 2 ^ 37 then .near
  else if 0x100000000000 ≤ pa ∧ pa < 0x100000000000 + rd s R.CXL_PORT_CAP_GIB 0 0 * 2 ^ 30 ∧ pa < 0x180000000000 then .cxl 0
  else if 0x180000000000 ≤ pa ∧ pa < 0x180000000000 + rd s R.CXL_PORT_CAP_GIB 1 0 * 2 ^ 30 ∧ pa < 0x200000000000 then .cxl 1
  else if 2 ^ 51 ≤ pa ∧ pa < 2 ^ 52 then .host
  else .absent

/-- Home rank of a module address (R213, R214). -/
def homeRank (s : State) (pa : Nat) : Nat :=
  let o := if pa < 0x100000000000 then pa else (pa - 0x100000000000) % 0x80000000000
  if nu s = 0 then 0 else o / 2048 % nu s

/-- The stack of a rank among the fitted stacks (R173, R213). -/
def stackOfRank (s : State) (r : Nat) : Nat :=
  (((List.range 12).filter (fun i => rdB s R.MEM_STACK_STATUS_FITTED i 0)).getD r 0)

/-- Home stack, and slice, of a module address (R214). -/
def homeStack (s : State) (pa : Nat) : Nat := stackOfRank s (homeRank s pa)

/-- Channel, die-select, bank and row of a near-memory address (R213). -/
def bankRowOf (s : State) (pa : Nat) : BankRow :=
  let l := if nu s = 0 then 0 else pa / 2048 / nu s
  let u := l / 8
  ⟨homeStack s pa, l % 8, u / 32 % 2, u % 32, u / 64⟩

/-- Range-table entries of a partition in ascending order: base in GiB and size in GiB (R269). -/
def partRanges (s : State) (p : Nat) : List (Nat × Nat) :=
  ((List.range 64).filter (fun e => rdB s R.PRT_RANGE_BASE_VALID e 0 && decide (rd s R.PRT_RANGE_SIZE_PARTITION e 0 = p))).map
    (fun e => (rd s R.PRT_RANGE_BASE_BASE e 0, rd s R.PRT_RANGE_SIZE_GIB e 0))

/-- Physical address of a partition offset within a list of ranges (R269). -/
def offsetIn : List (Nat × Nat) → Nat → Option Nat
  | [], _ => none
  | (b, g) :: t, o => if o < g * 2 ^ 30 then some (b * 2 ^ 30 + o) else offsetIn t (o - g * 2 ^ 30)

def partOffset (s : State) (p o : Nat) : Option Nat := offsetIn (partRanges s p) o

/-- Partition offset of a physical address within a list of ranges (R269). -/
def offsetOf : List (Nat × Nat) → Nat → Nat → Option Nat
  | [], _, _ => none
  | (b, g) :: t, acc, pa =>
    if b * 2 ^ 30 ≤ pa ∧ pa < (b + g) * 2 ^ 30 then some (acc + (pa - b * 2 ^ 30)) else offsetOf t (acc + g * 2 ^ 30) pa

/-- Size of a partition's memory in bytes. -/
def partSize (s : State) (p : Nat) : Nat := (partRanges s p).foldl (fun n r => n + r.2 * 2 ^ 30) 0

/-- Partition that owns a physical address, if any (R269). -/
def ownerOf (s : State) (pa : Nat) : Option Nat :=
  (List.range 16).find? (fun p => (offsetOf (partRanges s p) 0 pa).isSome)

/-- A block of `n` bytes at a partition offset that maps to contiguous physical addresses (R269): its address. -/
def contigBlock (s : State) (p o n : Nat) : Option Nat :=
  match partOffset s p o with
  | none => none
  | some a =>
    if n = 0 then some a else
    match partOffset s p (o + n - 1) with
    | none => none
    | some b =>
      if b = a + (n - 1) ∧ (partRanges s p).all (fun r =>
          -- every range boundary strictly inside the block joins physically adjacent ranges
          match offsetOf (partRanges s p) 0 (r.1 * 2 ^ 30) with
          | none => true
          | some ro => !(decide (o < ro ∧ ro < o + n)) || decide (r.1 * 2 ^ 30 = a + (ro - o)))
      then some a else none

/-! ### Memory at the point of coherence (R146, R223) -/

def memByte (m : Memory) (a : Nat) : Byte := SMap.look (fun _ => 0) m.bytes a
def memPoison (m : Memory) (line : Nat) : Bool := SMap.look (fun _ => false) m.poison line

/-- Bytes [a, a+n) of module memory. -/
def memRead (m : Memory) (a n : Nat) : List Byte := (List.range n).map (fun i => memByte m (a + i))

/-- Lines that bytes [a, a+n) touch. -/
def linesOf (a n : Nat) : List Nat :=
  if n = 0 then [] else (List.range ((a + n - 1) / 64 - a / 64 + 1)).map (fun i => a / 64 + i)

def memAnyPoison (m : Memory) (a n : Nat) : Bool := (linesOf a n).any (memPoison m)

/-- First poisoned line, as an address, of bytes [a, a+n). -/
def firstPoison (m : Memory) (a n : Nat) : Option Nat := ((linesOf a n).find? (memPoison m)).map (· * 64)

/-- Store bytes from address `a` up. -/
def putBytes (bytes : SMap Byte) (a : Nat) : List Byte → SMap Byte
  | [] => bytes
  | b :: t => putBytes (SMap.put (fun _ => 0) bytes a b) (a + 1) t

/-- Mark lines after a write: a poisoned write marks every line it touches; a clean write of a whole line clears its
mark, and a clean write of part of a line leaves the mark as it was (R223, R394). -/
def markLines (poison : SMap Bool) (a n : Nat) (bad : Bool) : List Nat → SMap Bool
  | [] => poison
  | l :: t =>
    let poison := if bad then SMap.put (fun _ => false) poison l true
      else if a ≤ l * 64 ∧ l * 64 + 64 ≤ a + n then SMap.put (fun _ => false) poison l false else poison
    markLines poison a n bad t

/-- Write bytes to module memory with or without the mark. -/
def memWrite (m : Memory) (a : Nat) (data : List Byte) (bad : Bool) : Memory :=
  ⟨putBytes m.bytes a data, markLines m.poison a data.length bad (linesOf a data.length)⟩

/-- Mark one line poisoned. -/
def memMark (m : Memory) (line : Nat) : Memory := { m with poison := SMap.put (fun _ => false) m.poison line true }

/-- Zeros without marks over [a, a+n) (R222, R377). -/
def memClear (m : Memory) (a n : Nat) : Memory :=
  ⟨SMap.keep (fun k => !(decide (a ≤ k ∧ k < a + n))) m.bytes,
   SMap.keep (fun l => !(decide (a ≤ l * 64 ∧ l * 64 < a + n))) m.poison⟩

/-- The canonical form of memory: addresses strictly rising and nothing listed that an unlisted address reads as. -/
def Memory.wf (m : Memory) : Bool := SMap.wf (fun _ => (0 : Byte)) m.bytes && SMap.wf (fun _ => false) m.poison

/-- Little-endian word of 8 bytes at an address. -/
def memWord (m : Memory) (a : Nat) : W64 := BitVec.ofNat 64 (leNat (memRead m a 8))

/-! ### Scratchpads (R129, R141, R142) -/

/-- Scratchpad capacity in bytes (SPD_SIZE.BYTES, R127). -/
def spdBytes : Nat := 0x200000

def spdKey (c a : Nat) : Nat := c * 2 ^ 32 + a

def spdByte (p : Spd) (c a : Nat) : Byte := SMap.look (fun _ => 0) p.bytes (spdKey c a)

def spdRead (p : Spd) (c a n : Nat) : List Byte := (List.range n).map (fun i => spdByte p c (a + i))

/-- Word numbers (core * 2^29 + address / 8) that bytes [a, a+n) of core c touch. -/
def spdWords (c a n : Nat) : List Nat :=
  if n = 0 then [] else (List.range ((a + n - 1) / 8 - a / 8 + 1)).map (fun i => c * 2 ^ 29 + a / 8 + i)

def spdPoison (p : Spd) (c a n : Nat) : Bool := (spdWords c a n).any (SMap.look (fun _ => false) p.poison)

/-- Error that a word holds (R142): 0 none, 1 correctable, 2 uncorrectable. -/
def spdErr (p : Spd) (w : Nat) : Nat := SMap.look (fun _ => 0) p.err w

/-- Words of [a, a+n) of core c that hold an error of a kind. -/
def spdErrs (p : Spd) (c a n kind : Nat) : List Nat := (spdWords c a n).filter (fun w => decide (spdErr p w = kind))

/-- Marks after a scratchpad write: a whole word is replaced and takes the write's mark; part of a word merges, keeping
the stored mark and adding the write's (R142). A replaced word, and a merged word whose error corrects, holds no error. -/
def markWords (p : Spd) (a n base : Nat) (bad : Bool) : List Nat → Spd
  | [] => p
  | w :: t =>
    let lo := (w - base) * 8
    let whole := decide (a ≤ lo ∧ lo + 8 ≤ a + n)
    let poison :=
      if bad then SMap.put (fun _ => false) p.poison w true
      else if whole then SMap.put (fun _ => false) p.poison w false else p.poison
    markWords { p with poison := poison, err := SMap.put (fun _ => 0) p.err w 0 } a n base bad t

/-- Write bytes to a core's scratchpad. -/
def spdWrite (p : Spd) (c a : Nat) (data : List Byte) (bad : Bool) : Spd :=
  markWords { p with bytes := putBytes p.bytes (spdKey c a) data } a data.length (c * 2 ^ 29) bad
    (spdWords c a data.length)

/-- Zeros without poison over a core's scratchpad (R143). -/
def spdClear (p : Spd) (c : Nat) : Spd :=
  ⟨SMap.keep (fun k => decide (k / 2 ^ 32 ≠ c)) p.bytes, SMap.keep (fun k => decide (k / 2 ^ 29 ≠ c)) p.poison,
   SMap.keep (fun k => decide (k / 2 ^ 29 ≠ c)) p.err⟩

/-! ### Counters (R424, R425) -/

/-- Add to counter `n` of a core in its own unit; nothing while FREEZE is 1 (R425). -/
def count (s : State) (c n k : Nat) : State :=
  if rdB s R.CNT_CTL_FREEZE c 0 then s else wr s R.CNT_COUNT c n (rd s R.CNT_COUNT c n + k)

/-- Add `k` events to counter `n` of a core whose unit is `u` events; the remainder is carried (R425). -/
def countUnits (s : State) (c n u k : Nat) : State :=
  if rdB s R.CNT_CTL_FREEZE c 0 then s else
    let t := SMap.look (fun _ => 0) (coreAt s c).rem n + k
    let s := onCore s c (fun x => { x with rem := SMap.put (fun _ => 0) x.rem n (t % u) })
    wr s R.CNT_COUNT c n (rd s R.CNT_COUNT c n + t / u)

/-! ### Completion rings, records and events (R249 to R255) -/

/-- Generation after `g` on a wrap: 255 is followed by 1 (R235). -/
def nextGen (g : Nat) : Nat := if g = 255 then 1 else g + 1

/-- Records a completion ring holds (R253). -/
def cqSize (s : State) (q : Nat) : Nat := 64 * 2 ^ rd s R.SEQ_CQ_CFG_SIZE q 0

/-- PCIe function of a partition: virtual function p is function p + 1 (R267). -/
def fnOfPart (p : Nat) : Nat := p + 1

/-- Stage 8 of bring-up has ended and the module has not failed or been held (R373, R381): the BARs are open and requests
may go out on the host link. -/
def hostReady (s : State) : Bool :=
  decide (rd s R.BOOT_STATE_STATE 0 0 ≤ 1) && decide (rd s R.BOOT_REPORT_STATE 8 0 = 2 ∨ rd s R.BOOT_REPORT_STATE 8 0 = 3)

/-- May a function issue requests: its Bus Master Enable is set and the host link is open (R212, R373). -/
def busMaster (s : State) (fn : Nat) : Bool := hostReady s && SMap.look (fun _ => false) s.hst.bme fn

/-- A stream is in the Secure state (R328). -/
def ideSecure (s : State) (stream : Nat) : Bool := decide (stream ∈ s.hst.ide ∧ stream ∉ s.hst.insecure)

/-- A function's trusted requests are rejected and none is issued: its interface is in ERROR (R289). A virtual function's requests are
the trusted ones while its selective IDE stream is Secure (PRESUMED, TDISP; log entry 129). -/
def trustedOff (s : State) (fn : Nat) : Bool :=
  decide (1 ≤ fn) && decide (rd s R.PRT_STATUS_TDI_STATE (fn - 1) 0 = 3) && ideSecure s (fn + 1)

/-- Something that restarts the count to deep sleep (R343). -/
def notIdle (s : State) : State := { s with pwr := { s.pwr with idleAt := s.utime } }

/-- The die is in deep sleep or on its way out of it (R343, R344). -/
def dieSleeps (s : State) : Bool := decide (2 ≤ rd s R.PWR_STATUS_DIE_STATE 0 0)

/-- The host link can carry writes of a completion ring's function (R327). -/
def cqReachable (s : State) (q : Nat) : Bool := s.hst.linkUp && busMaster s (fnOfPart (rd s R.SEQ_CQ_CFG_PARTITION q 0))

/-- The ring is full: PRODUCED - CONSUMED equals its size, modulo 2^32 (R253). -/
def cqFull (s : State) (q : Nat) : Bool :=
  decide ((rd s R.SEQ_CQ_STATUS_PRODUCED q 0 + 2 ^ 32 - (cqAt s q).consumed) % 2 ^ 32 ≥ cqSize s q)

/-- Reset word of an MSI-X table: the vector control word has its mask bit set (PRESUMED, log entry 9). -/
def msixDefault (k : Nat) : W64 := if k % 2 = 1 then 0x100000000 else 0

/-- A vector is masked by its table entry (R324). -/
def msixMasked (s : State) (fn v : Nat) : Bool :=
  decide (getBits (SMap.look msixDefault s.hst.msix (fn * 4096 + 2 * v + 1)) 32 1 = 1)

/-- Send an MSI-X message, or set the pending bit of a masked vector (R324). -/
def sendMsix (s : State) (fn v : Nat) : State :=
  if msixMasked s fn v then
    { s with hst := { s.hst with msixPending := SMap.put (fun _ => false) s.hst.msixPending (fn * 2048 + v) true } }
  else emit s (.msix fn v)

/-- Send the interrupt of a record under IRQ_MODE and the hold-off window (R254). -/
def signalIrq (s : State) (q : Nat) (qualifies : Bool) : State :=
  let x := cqAt s q
  if !qualifies then s
  else if s.utime < x.holdUntil then setCq s q { x with owesIrq := true }
  else
    let s := setCq s q { x with holdUntil := s.utime + us (rd s R.SEQ_CQ_CFG_HOLDOFF_US q 0), owesIrq := false }
    sendMsix s (fnOfPart (rd s R.SEQ_CQ_CFG_PARTITION q 0)) (rd s R.SEQ_CQ_CFG_VECTOR q 0)

/-- Does a record raise an interrupt on ring `q` (R254): mode 2 every record, mode 1 event records and commands with
IRQ = 1. -/
def irqQualifies (s : State) (q : Nat) (isEvent irq : Bool) : Bool :=
  match rd s R.SEQ_CQ_CFG_IRQ_MODE q 0 with
  | 1 => isEvent || irq
  | 2 => true
  | _ => false

/-- Little-endian bytes of words. -/
def wordsBytes (ws : List W64) : List Byte := ws.flatMap (fun w => leBytes 8 w.toNat)

/-- Write a record of eight words into completion ring `q`: GEN, the posted write, PRODUCED and the generation, and the
interrupt after it (R250, R253, R254). -/
def writeRecord (s : State) (q : Nat) (words : List W64) (irq : Bool) : State :=
  let gen := rd s R.SEQ_CQ_STATUS_GEN q 0
  let prod := rd s R.SEQ_CQ_STATUS_PRODUCED q 0
  let size := cqSize s q
  let isEvent := decide (getBits (words.getD 0 0) 8 2 = 0)
  let words := (setBits (words.getD 0 0) 0 8 gen) :: words.drop 1
  let addr := rd s R.SEQ_CQ_BASE_ADDR q 0 * 4096 + prod % size * 64
  let s := emit s (.hostWrite (fnOfPart (rd s R.SEQ_CQ_CFG_PARTITION q 0)) addr (wordsBytes words) false false)
  let s := wr s R.SEQ_CQ_STATUS_PRODUCED q 0 (prod + 1)
  let s := if (prod + 1) % size = 0 then wr s R.SEQ_CQ_STATUS_GEN q 0 (nextGen gen) else s
  let s := wrB s R.SEQ_CQ_STATUS_FULL q 0 (cqFull s q)
  signalIrq s q (irqQualifies s q isEvent irq)

/-- Put a record in the hold buffer. -/
def holdRecord (s : State) (r : HeldRec) : State :=
  let s := { s with sch := { s.sch with hold := s.sch.hold ++ [r] } }
  let s := addSat s R.SEQ_CQ_STATUS_HELD r.cq 0 1
  wr s R.SEQ_STATUS_HELD 0 0 s.sch.hold.length

/-- Post a record on a ring that the host link reaches, that is not full and has no record waiting; otherwise hold it where
there is room (R253, R327). Answers none where neither is possible. -/
def deliver (s : State) (r : HeldRec) : Option State :=
  if cqReachable s r.cq && !cqFull s r.cq && !(s.sch.hold.any (fun h => decide (h.cq = r.cq))) then some (writeRecord s r.cq r.words r.irq)
  else if s.sch.hold.length < 256 then some (holdRecord s r)
  else none

/-- The completion ring marked for a partition's events, or for the module's (R255). -/
def eventRing (s : State) (part : Option Nat) : Option Nat :=
  (List.range 64).find? (fun q => rdB s R.SEQ_CQ_CFG_VALID q 0 &&
    match part with
    | some p => rdB s R.SEQ_CQ_CFG_EVENTS q 0 && decide (rd s R.SEQ_CQ_CFG_PARTITION q 0 = p)
    | none => rdB s R.SEQ_CQ_CFG_MODULE_EVENTS q 0)

/-- The eight words of an event record (R250, R255). -/
def eventWords (code w1 w2 w3 t : Nat) : List W64 :=
  [BitVec.ofNat 64 (code * 65536), BitVec.ofNat 64 w1, BitVec.ofNat 64 w2, BitVec.ofNat 64 w3, 0, 0, 0, BitVec.ofNat 64 t]

/-- Post an event to a partition's event ring, or with none to the module's; an event with no ring or no room is counted
as dropped (R255). -/
def postEvent (s : State) (part : Option Nat) (code w1 w2 w3 : Nat) : State :=
  match eventRing s part with
  | none => addSat s R.SEQ_STATUS_EVT_DROPPED 0 0 1
  | some q =>
    match deliver s ⟨q, eventWords code w1 w2 w3 (tsc s), none, false⟩ with
    | some s => s
    | none =>
      let s := addSat s R.SEQ_STATUS_EVT_DROPPED 0 0 1
      { s with sch := { s.sch with dropped := s.sch.dropped + 1 } }

/-! ### Error records (R398 to R400) -/

/-- What an error record names beside its time and number. -/
structure ErrInfo where
  status : Nat
  cls : Nat
  source : Nat
  unit : Nat
  part : Option Nat
  pa : Option Nat
  va : Option Nat
  /-- TAG, ring and slot of the command concerned -/
  cmd : Option (Nat × Nat × Nat)
  d0 : Nat
  d1 : Nat
deriving DecidableEq, Repr

/-- The eight words of an error record (R399). -/
def errWords (e : ErrInfo) (t seq : Nat) : List W64 :=
  let w1 := e.status + e.cls * 2 ^ 16 + e.source * 2 ^ 20 + e.unit * 2 ^ 24 +
    (match e.part with | some p => p * 2 ^ 36 + 2 ^ 40 | none => 0)
  let w2 := match e.pa with | some a => a % 2 ^ 52 + 2 ^ 52 | none => 0
  let w3 := match e.va with | some a => a % 2 ^ 48 + 2 ^ 48 | none => 0
  let w4 := match e.cmd with | some (tag, ring, slot) => tag % 2 ^ 32 + ring * 2 ^ 32 + slot * 2 ^ 38 + 2 ^ 51 | none => 0
  [t, w1, w2, w3, w4, e.d0, e.d1, seq % 2 ^ 32].map (BitVec.ofNat 64)

/-- Does a fault merge into the newest record (R398): STATUS, SOURCE, UNIT and PA match within 1 ms. -/
def errMerges (new old : List W64) (t : Nat) : Bool :=
  decide (getBits (new.getD 1 0) 0 16 = getBits (old.getD 1 0) 0 16) &&
  decide (getBits (new.getD 1 0) 20 16 = getBits (old.getD 1 0) 20 16) &&
  decide (new.getD 2 0 = old.getD 2 0) &&
  decide (t - (old.getD 0 0).toNat ≤ 1000000)

/-- Words 1 to 3 of the ERROR_RECORD event (0x0112) of a record. -/
def evErrorRecord (s : State) (seq : Nat) (w1 : W64) : State :=
  postEvent s none 0x0112 seq (getBits w1 0 16) (getBits w1 20 4 + getBits w1 24 12 * 16)

/-- Write an error record, or merge it (R398): answers the state and whether a new record was written. -/
def errRecord (s : State) (e : ErrInfo) : State × Bool :=
  let seq := rd s R.RAS_ERR_STATUS_WRITTEN 0 0
  let words := errWords e (tsc s) seq
  match s.ras.log.getLast? with
  | some last =>
    if errMerges words last (tsc s) then
      let m := min (getBits (last.getD 7 0) 32 32 + 1) (2 ^ 32 - 1)
      let last := last.take 7 ++ [setBits (last.getD 7 0) 32 32 m]
      ({ s with ras := { s.ras with log := s.ras.log.dropLast ++ [last] } }, false)
    else
      let log := s.ras.log ++ [words]
      let s := { s with ras := { s.ras with log := log.drop (log.length - 1024) } }
      let s := wr s R.RAS_ERR_STATUS_WRITTEN 0 0 (seq + 1)
      let s := wr s R.RAS_ERR_STATUS_HELD 0 0 s.ras.log.length
      (evErrorRecord s seq (words.getD 1 0), true)
  | none =>
    let s := { s with ras := { s.ras with log := [words] } }
    let s := wr s R.RAS_ERR_STATUS_WRITTEN 0 0 (seq + 1)
    let s := wr s R.RAS_ERR_STATUS_HELD 0 0 1
    (evErrorRecord s seq (words.getD 1 0), true)

/-- As errRecord, the state alone. -/
def logErr (s : State) (e : ErrInfo) : State := (errRecord s e).1

/-- `n` corrected events of a unit, which CORRECTED_RATE_CHECK counts over an hour (R391, R398). -/
def noteCorrected (s : State) (source unit n : Nat) : State :=
  let k := source * 4096 + unit
  let now := (SMap.look (fun _ => []) s.ras.corrected k).filter (fun e => decide (s.utime < e.1 + 3600000000000))
  if n = 0 then s
  else { s with ras := { s.ras with corrected := SMap.put (fun _ => []) s.ras.corrected k (now ++ [(s.utime, n)]) } }

/-! ### The scratchpad's code (R142) -/

/-- An uncorrectable error of a word is found (R142, R400): the word is poisoned, it counts and is recorded, and SPD_ECC_ADDR
holds the first. -/
def spdFoundBad (s : State) (c w : Nat) : State :=
  let s := { s with spd := { s.spd with poison := SMap.put (fun _ => false) s.spd.poison w true, err := SMap.put (fun _ => 0) s.spd.err w 0 } }
  let s := addSat s R.SPD_ECC_POISONED c 0 1
  let s := logErr s ⟨0x0204, 2, 3, c, coreOwner s c, none, none, none, w % 2 ^ 29, 0⟩
  if rdB s R.SPD_ECC_ADDR_VALID c 0 then s
  else wr (wr s R.SPD_ECC_ADDR_VALID c 0 1) R.SPD_ECC_ADDR_ADDR c 0 (w % 2 ^ 29)

/-- The code checks words of a core as they are read, or merged with written bytes (R142): each correction counts, and each
uncorrectable error poisons its word. -/
def spdCheck (s : State) (c : Nat) (ws : List Nat) : State :=
  let k := (ws.filter (fun w => decide (spdErr s.spd w = 1))).length
  let s := if k = 0 then s else noteCorrected (addSat s R.SPD_ECC_CORRECTED c 0 k) 3 c k
  (ws.filter (fun w => decide (spdErr s.spd w = 2))).foldl (fun s w => spdFoundBad s c w) s

/-- A bit error arises in a word of a core's scratchpad (R142): a second one in a word is beyond correction. -/
def spdUpset (s : State) (c : Nat) (u : Nat × Bool) : State :=
  let w := c * 2 ^ 29 + u.1 % (spdBytes / 8)
  { s with spd := { s.spd with err := SMap.put (fun _ => 0) s.spd.err w (if u.2 ∨ spdErr s.spd w ≠ 0 then 2 else 1) } }

/-- Words of [a, a+n) of core c that a write covers only in part (R142). -/
def spdMerged (c a n : Nat) : List Nat :=
  (spdWords c a n).filter (fun w => !(decide (a ≤ (w - c * 2 ^ 29) * 8 ∧ (w - c * 2 ^ 29) * 8 + 8 ≤ a + n)))

/-- Write a core's scratchpad in the state; a word written in part is checked as a read's would be (R142). -/
def putSpd (s : State) (c a : Nat) (data : List Byte) (bad : Bool) : State :=
  let s := spdCheck s c (spdMerged c a data.length)
  { s with spd := spdWrite s.spd c a data bad }

end Sys2Proof.Machine
end

