-- ==== Sys2Proof/Machine/Flow.lean ====
section
/-!
DEFINITION. Sys2Proof/Machine/Flow.lean: shared operations over several units: translation, writes in flight and their
landing, the failing of a command, and the reset of a core or of a kernel's cores.
-/
namespace Sys2Proof.Machine

/-! ### Failing a command (R51, R251, R264) -/

/-- Is a cause code of class F (R251): every code but HALTED, PREEMPTED and HOST_CANCEL (class C) and the two KV codes
that are neither; RESET is F where the caller says so. -/
def causeFails (code : Nat) : Bool :=
  !(code = 0x02 || code = 0x1F || code = 0x20 || code = 0x19 || code = 0x1A)

/-- Lowest cause code present in a mask. -/
def lowestCause (m : Nat) : Nat := ((List.range 64).find? (fun n => m / 2 ^ n % 2 = 1)).getD 0

/-- Add a cause to a command's mask; DETAIL follows the first cause (R250, R251). -/
def Cmd.cause (c : Cmd) (code detail : Nat) : Cmd :=
  if c.causes / 2 ^ code % 2 = 1 then c
  else if c.causes = 0 ∨ code < lowestCause c.causes then
    { c with causes := c.causes + 2 ^ code, detail := detail % 2 ^ 52 }
  else { c with causes := c.causes + 2 ^ code }

/-- A harp whose pass is abandoned: queues and both sets discarded, its power state kept (R48, R51). -/
def Harp.abandon (h : Harp) : Harp := { Harp.fresh with gated := h.gated }

/-- Abandon the passes of a core's harps (R51). -/
def abandonCore (s : State) (c : Nat) : State := harpIxs.foldl (fun s h => onHarp s c h Harp.abandon) s

/-- Disarm a core's landing slots and drop what its sequencer, data mover and fiddle unit had in progress. -/
def Core.halt (x : Core) : Core :=
  { x with running := false, ending := false, slots := [], credits := [], sent := [], gathers := [], acquiring := none,
           invalidating := none, fenceAt := none, polyLoad := none, footprints := [] }

/-- Stop a core of a failed or cancelled command. -/
def stopCore (s : State) (c : Nat) : State := onCore (abandonCore s c) c Core.halt

/-- A command fails with a cause: the cause joins its mask, no further pass issues and its harps abandon theirs (R51).
A command that has ended keeps its outcome (R265). -/
def failCmd (s : State) (w code detail : Nat) : State :=
  match (ringAt s w).cmd with
  | none => s
  | some c =>
    if c.phase = .bounded ∨ c.phase = .held then s
    else
      let s := setRing s w { ringAt s w with cmd := some { c.cause code detail with phase := .stopping } }
      c.cores.foldl (fun s k => if (coreAt s k).ring = some w then stopCore s k else s) s

/-- A cause that is reported without failing the command: KV_NO_PAGE, KV_STEP_ABORTED (R251). -/
def noteCause (s : State) (w code : Nat) : State :=
  onRing s w (fun r => { r with cmd := r.cmd.map (fun c => c.cause code 0) })

/-- OR bits into a command's exception field (R252). -/
def orExceptions (s : State) (w bits : Nat) : State :=
  onRing s w (fun r => { r with cmd := r.cmd.map (fun c => { c with exceptions := c.exceptions ||| bits }) })

/-- Fail the command that holds a core; no effect where no command does. -/
def failCore (s : State) (c code detail : Nat) : State :=
  match (coreAt s c).ring with
  | some w => failCmd s w code detail
  | none => s

/-- TAG, ring and slot of a ring's command, for error records (R399). -/
def cmdName (s : State) (w : Nat) : Option (Nat × Nat × Nat) :=
  ((ringAt s w).cmd).map (fun c => (getBits (c.words.getD 1 0) 0 32, w, c.slot))

/-- The POISONED record of a consumption by a ring's command (R396, R400). -/
def poisonRecord (s : State) (w : Nat) (pa : Option Nat) (va : Option Nat) : State :=
  logErr s ⟨0x0005, 2, 3, 0, some (ringPart s w), pa, va, cmdName s w, 3, 0⟩

/-- A command consumes poison in cases 2 to 4 of R395: it fails at once (R396). -/
def consumePoison (s : State) (w : Nat) (pa : Option Nat) (va : Option Nat) : State :=
  failCmd (poisonRecord s w pa va) w 0x05 (pa.getD 0)

/-- A command consumes poison in case 1 of R395: it runs to its end with the cause in its mask (R396). -/
def notePoison (s : State) (w : Nat) (pa : Option Nat) : State :=
  match (ringAt s w).cmd with
  | none => s
  | some c =>
    if c.causes / 2 ^ 5 % 2 = 1 then s
    else poisonRecord (setRing s w { ringAt s w with cmd := some (c.cause 0x05 (pa.getD 0)) }) w pa none

/-- May a command still issue work: it is running and not failed. -/
def cmdRuns (s : State) (w : Nat) : Bool :=
  match (ringAt s w).cmd with
  | some c => decide (c.phase = .running)
  | none => false

/-- The sequencer of a core can issue an instruction: its kernel runs, it has not ended or stopped, and no acquire
invalidation or fence holds it (R154, R157, R259). -/
def canIssue (s : State) (c : Nat) : Bool :=
  let x := coreAt s c
  !s.ras.cut && x.running && !x.ending && !x.ended && !x.stopped && x.acquiring.isNone && x.fenceAt.isNone &&
  (match x.ring with | some w => cmdRuns s w | none => false)

/-! ### Poison found in a partition's memory (R397, R398) -/

/-- A POISONED record for poison not consumed by a command of the owning partition: `d0` says where it was found; a new
record posts PARTITION_POISON to the owner's events ring (R397). -/
def poisonFound (s : State) (source unit d0 pa : Nat) : State :=
  let own := ownerOf s pa
  let (s, new) := errRecord s ⟨0x0005, 2, source, unit, own, some pa, none, none, d0, 0⟩
  match new, own with
  | true, some p => postEvent s (some p) 0x0113 ((offsetOf (partRanges s p) 0 pa).getD 0) d0 0
  | _, _ => s

/-! ### Reading module memory at the point of coherence (R146, R210, R227) -/

/-- The channel of a near line has failed (R210). -/
def lineChannelFailed (s : State) (pa : Nat) : Bool :=
  let b := bankRowOf s pa
  decide (b.stack * 8 + b.channel ∈ s.ms.failedCh)

def portUp (s : State) (n : Nat) : Bool := decide (rd s R.CXL_PORT_STATUS_STATE n 0 = 3)

/-- A line is held by its slice. -/
def lineHeld (s : State) (line : Nat) : Bool := s.ms.lines.any (fun e => decide (e.1 = line))

/-- A read of a line of a place answers poison beside its own mark: its channel failed and no slice holds it (R210), its port is
down and no slice holds it, or its port's range failed (R227). -/
def lostIn (s : State) (line : Nat) : Place → Bool
  | .near => lineChannelFailed s (line * 64) && !lineHeld s line
  | .cxl n => rdB s R.CXL_PORT_STATUS_FAILED n 0 || (!portUp s n && !lineHeld s line && !(decide (line ∈ s.ms.wbHeld)))
  | _ => false

/-- A read of a line answers poison beside its own mark (R210, R227). -/
def lineLost (s : State) (line : Nat) : Bool := lostIn s line (placeOf s (line * 64))

/-- Bytes and mark that a read of module memory returns. -/
def cohRead (s : State) (pa n : Nat) : List Byte × Bool :=
  (memRead s.mem pa n, memAnyPoison s.mem pa n || (linesOf pa n).any (lineLost s))

/-- First poisoned line, as an address, of a read. -/
def cohPoisonAt (s : State) (pa n : Nat) : Option Nat :=
  ((linesOf pa n).find? (fun l => memPoison s.mem l || lineLost s l)).map (· * 64)

/-- Read pieces one after another. -/
def readPieces (s : State) (ps : List (Nat × Nat)) : List Byte × Bool :=
  (ps.flatMap (fun p => (cohRead s p.1 p.2).1), ps.any (fun p => (cohRead s p.1 p.2).2))

/-! ### Waits (R209, R222, R412) -/

/-- A range whose clearing after a change of owner is not complete meets [pa, pa+n) (R222). -/
def clearingAt (s : State) (pa n : Nat) : Bool :=
  s.ms.rangeClear.any (fun r => decide (r.1 < pa + n ∧ pa < r.1 + r.2.1))

/-- A line that no slice holds lies in a channel that is training (R209). -/
def trainingAt (s : State) (pa n : Nat) : Bool :=
  !s.ms.retraining.isEmpty && (linesOf pa n).any (fun l => decide (placeOf s (l * 64) = .near) && !lineHeld s l &&
    decide ((bankRowOf s (l * 64)).stack * 8 + (bankRowOf s (l * 64)).channel ∈ s.ms.retraining))

/-- The bank rows whose repair runs: of each channel that activity 3 runs on, the row longest due (R412). -/
def rowsUnderRepair (s : State) : List BankRow :=
  (s.ras.running.filter (fun r => decide (r.1 = 3))).filterMap (fun r =>
    s.ms.repairDue.find? (fun b => decide (b.stack = r.2.1 ∧ b.channel = r.2.2)))

/-- A line lies in a bank whose row is being repaired (R412). -/
def repairAt (s : State) (pa n : Nat) : Bool :=
  let rs := rowsUnderRepair s
  !rs.isEmpty && (linesOf pa n).any (fun l => decide (placeOf s (l * 64) = .near) &&
    rs.any (fun r =>
      let b := bankRowOf s (l * 64)
      decide (b.stack = r.stack ∧ b.channel = r.channel ∧ b.dieSel = r.dieSel ∧ b.bank = r.bank)))

/-- An access waits at the slice or the stack controller. -/
def memWaits (s : State) (pa n : Nat) : Bool := clearingAt s pa n || trainingAt s pa n || repairAt s pa n

/-! ### Translation (R228 to R232) -/

/-- A translation that cannot complete: cause code, TYPE and level (R232); code 0x05 where an entry is poisoned. -/
structure XFault where
  code : Nat
  type : Nat
  level : Nat
  pa : Nat
deriving DecidableEq, Repr

/-- Physical address of a context address of context p (R229). -/
def ctxAddress (s : State) (p a : Nat) : Option Nat := if a < 2 ^ 51 then partOffset s p a else some a

/-- Index bits and leaf granule of a level (R228). -/
def levelIndex (lev va : Nat) : Nat :=
  match lev with
  | 0 => va / 2 ^ 39 % 512
  | 1 => va / 2 ^ 30 % 512
  | 2 => va / 2 ^ 21 % 512
  | _ => va / 2 ^ 16 % 32

def levelSize (lev : Nat) : Nat :=
  match lev with
  | 1 => 2 ^ 30
  | 2 => 2 ^ 21
  | _ => 2 ^ 16

/-- Table alignment of a level (R228). -/
def tableAlign (lev : Nat) : Nat := if lev = 3 then 256 else 4096

/-- Walk from the table at physical address `t` of level `lev`, with `fuel` levels left (R228, R229). -/
def walkFrom (s : State) (p va : Nat) (write hostOk : Bool) : Nat → Nat → Nat → Except XFault Xlat
  | 0, lev, _ => .error ⟨0x11, 3, lev, 0⟩
  | fuel + 1, lev, t =>
    let ea := t + levelIndex lev va * 8
    if (cohRead s ea 8).2 then .error ⟨0x05, 0, lev, ea / 64 * 64⟩ else
    let e := memWord s.mem ea
    let a := getBits e 8 44 * 256
    if getBits e 0 1 = 0 then .error ⟨0x0F, 1, lev, 0⟩
    else if getBits e 3 5 ≠ 0 ∨ getBits e 52 12 ≠ 0 then .error ⟨0x11, 3, lev, 0⟩
    else if getBits e 1 1 = 1 then
      if lev = 0 then .error ⟨0x11, 3, lev, 0⟩
      else if a % levelSize lev ≠ 0 then .error ⟨0x11, 3, lev, 0⟩
      else if 2 ^ 51 ≤ a then
        if !rdB s R.PRT_CFG_HOST_MEM p 0 then .error ⟨0x12, 4, lev, 0⟩
        else if !hostOk then .error ⟨0x13, 5, lev, 0⟩
        else if write ∧ getBits e 2 1 = 0 then .error ⟨0x10, 2, lev, 0⟩
        else .ok ⟨none, p, va / levelSize lev * levelSize lev, a, levelSize lev, decide (getBits e 2 1 = 1)⟩
      else
        match partOffset s p a with
        | none => .error ⟨0x12, 4, lev, 0⟩
        | some pa =>
          if write ∧ getBits e 2 1 = 0 then .error ⟨0x10, 2, lev, 0⟩
          else .ok ⟨none, p, va / levelSize lev * levelSize lev, pa, levelSize lev, decide (getBits e 2 1 = 1)⟩
    else if lev = 3 then .error ⟨0x11, 3, lev, 0⟩
    else if a % tableAlign (lev + 1) ≠ 0 then .error ⟨0x11, 3, lev, 0⟩
    else if 2 ^ 51 ≤ a then .error ⟨0x13, 5, lev, 0⟩
    else
      match partOffset s p a with
      | none => .error ⟨0x12, 4, lev, 0⟩
      | some pa => walkFrom s p va write hostOk fuel (lev + 1) pa

/-- Root table of a context, as a physical address (R228, R229). -/
def ctxRoot (s : State) (p : Nat) : Nat := rd s R.DTU_CTX_ROOT_ROOT p 0 * 256

/-- A walk of context p from its root (R228); one whose root lies in the host range ends as R212 says of a table walk there. -/
def walk (s : State) (p va : Nat) (write hostOk : Bool) : Except XFault Xlat :=
  if !rdB s R.DTU_CTX_ROOT_VALID p 0 then .error ⟨0x0F, 1, 0, 0⟩
  else if 2 ^ 51 ≤ ctxRoot s p then .error ⟨0x13, 5, 0, 0⟩
  else walkFrom s p (va % 2 ^ 48) write hostOk 4 0 (ctxRoot s p)

/-- Entry addresses that a walk reads, from the table at `t` of level `lev` (R228). -/
def walkSteps (s : State) (p va : Nat) : Nat → Nat → Nat → List Nat
  | 0, _, _ => []
  | fuel + 1, lev, t =>
    let ea := t + levelIndex lev va * 8
    let e := memWord s.mem ea
    if getBits e 0 1 = 1 ∧ getBits e 1 1 = 0 ∧ lev < 3 then
      match partOffset s p (getBits e 8 44 * 256) with
      | some pa => ea :: walkSteps s p va fuel (lev + 1) pa
      | none => [ea]
    else [ea]

/-- Entry addresses that a walk of context p reads. -/
def walkReads (s : State) (p va : Nat) : List Nat :=
  if !rdB s R.DTU_CTX_ROOT_VALID p 0 || decide (2 ^ 51 ≤ ctxRoot s p) then []
  else walkSteps s p (va % 2 ^ 48) 4 0 (ctxRoot s p)

/-- Does a cached translation serve an address of a context for a requester: one that its core keeps, or a shared one (R230). -/
def Xlat.covers (x : Xlat) (who : Option Nat) (p va : Nat) : Bool :=
  decide (x.ctx = p ∧ x.vbase ≤ va ∧ va < x.vbase + x.size) && (x.core.isNone || decide (x.core = who))

/-- The cached translation that serves an address for a requester: its core's own before a shared one (R230). -/
def cachedXlat (s : State) (who : Option Nat) (p va : Nat) : Option Xlat :=
  match s.ms.tlb.find? (fun x => x.covers who p va && x.core.isSome) with
  | some x => some x
  | none => s.ms.tlb.find? (fun x => x.covers who p va)

/-- Level of the leaf behind a cached translation, by its granule (R228, R232). -/
def Xlat.level (x : Xlat) : Nat := if x.size = 2 ^ 30 then 1 else if x.size = 2 ^ 21 then 2 else 3

/-- Translate an address for a requester (a core, or none): from the cached translations, else by a walk (R230). A cached
translation keeps the write and host-range checks of R232. -/
def translate (s : State) (who : Option Nat) (p va : Nat) (write hostOk : Bool) : Except XFault Nat :=
  match cachedXlat s who p (va % 2 ^ 48) with
  | some x =>
    if 2 ^ 51 ≤ x.pbase ∧ !rdB s R.PRT_CFG_HOST_MEM p 0 then .error ⟨0x12, 4, x.level, 0⟩
    else if 2 ^ 51 ≤ x.pbase ∧ !hostOk then .error ⟨0x13, 5, x.level, 0⟩
    else if write ∧ !x.write then .error ⟨0x10, 2, x.level, 0⟩
    else .ok (x.pbase + (va % 2 ^ 48 - x.vbase))
  | none =>
    match walk s p va write hostOk with
    | .ok x => .ok (x.pbase + (va % 2 ^ 48 - x.vbase))
    | .error e => .error e

/-- A translation that the caches do not hold waits for a table line (R209, R222, R412). -/
def walkWaits (s : State) (who : Option Nat) (p va : Nat) : Bool :=
  (cachedXlat s who p (va % 2 ^ 48)).isNone && (walkReads s p va).any (fun a => memWaits s a 8)

/-- Translate the first address of each 64 KiB block that bytes [va, va+n) meet: pieces of physical address and
length, or the first fault with its address. -/
def translateRange (s : State) (who : Option Nat) (p : Nat) (write hostOk : Bool) : Nat → Nat → Nat → Except (XFault × Nat) (List (Nat × Nat))
  | 0, _, _ => .ok []
  | fuel + 1, va, n =>
    if n = 0 then .ok [] else
    let k := min n (65536 - va % 65536)
    match translate s who p va write hostOk with
    | .error e => .error (e, va)
    | .ok pa =>
      match translateRange s who p write hostOk fuel (va + k) (n - k) with
      | .error e => .error e
      | .ok l => .ok ((pa, k) :: l)

/-- All pieces of a virtual range. -/
def pieces (s : State) (who : Option Nat) (p : Nat) (write hostOk : Bool) (va n : Nat) : Except (XFault × Nat) (List (Nat × Nat)) :=
  translateRange s who p write hostOk (n / 65536 + 2) va n

/-- First address of each 64 KiB block that bytes [va, va + n) meet. -/
def vaBlocks (va n : Nat) : List Nat :=
  if n = 0 then [] else (List.range ((va + n - 1) / 65536 - va / 65536 + 1)).map (fun k => if k = 0 then va else (va / 65536 + k) * 65536)

/-- An access to a virtual range waits: for a table line of a walk, or, a read, for its data (R209, R222, R412). -/
def accessWaits (s : State) (who : Option Nat) (p va n : Nat) (isRead : Bool) : Bool :=
  (vaBlocks va n).any (walkWaits s who p) ||
  (isRead && (match pieces s who p false true va n with
    | .ok ps => ps.any (fun q => decide (q.1 < 2 ^ 51) && memWaits s q.1 q.2)
    | .error _ => false))

/-- Record a translation fault in DTU_FAULT while no record is held (R232). -/
def dtuFault (s : State) (p va : Nat) (write : Bool) (core : Option Nat) (e : XFault) : State :=
  if e.type = 0 ∨ rdB s R.DTU_FAULT_VALID 0 0 then s
  else
    let s := wr s R.DTU_FAULT_VALID 0 0 1
    let s := wr s R.DTU_FAULT_TYPE 0 0 e.type
    let s := wr s R.DTU_FAULT_CTX 0 0 p
    let s := wr s R.DTU_FAULT_LEVEL 0 0 e.level
    let s := wrB s R.DTU_FAULT_IS_WRITE 0 0 write
    let s := wr s R.DTU_FAULT_CORE 0 0 (core.getD 0)
    let s := wrB s R.DTU_FAULT_NOT_CORE 0 0 core.isNone
    wr s R.DTU_FAULT_VA_VA 0 0 va

/-- A core's access faults in translation: the record, and its command fails (R232); a poisoned entry is consumption
(R395 case 4). -/
def xlateFail (s : State) (w p va : Nat) (write : Bool) (core : Option Nat) (e : XFault) : State :=
  let s := dtuFault s p va write core e
  if e.code = 0x05 then consumePoison s w (some e.pa) (some va) else failCmd s w e.code va

/-! ### Routes (R19, R20, R23, R31, R342) -/

/-- Every network segment from row a to row b is on (R23); segments are domains 327 to 342 (R341). -/
def rowsUp (s : State) (a b : Nat) : Bool :=
  (List.range (max a b - min a b + 1)).all (fun i => decide (pwrDomain s (327 + min a b + i) = 2))

/-- Row of a write's source (R20 and the attachment table); a peer's write enters at the quad of its link. -/
def srcRow (f : Flight) : Nat :=
  match f.src with
  | .core c => c / 18
  | .kpu u => if u < 6 then 0 else 15
  | .sarabande => 14
  | .pcie => 14
  | .peer _ => match f.mtag with | some (l, _) => l / 4 % 12 + 2 | none => 2
  | .peerCore _ _ => match f.mtag with | some (l, _) => l / 4 % 12 + 2 | none => 2

def dstRow (s : State) : Dst → Nat
  | .mem pa => if homeStack s pa < 6 then 0 else 15
  | .spd c _ => c / 18
  | .tile c _ => c / 18
  | .host _ => 14

def routeUp (s : State) (f : Flight) : Bool := rowsUp s (srcRow f) (dstRow s f.dst)

/-! ### Writes in flight (R146 to R151) -/

/-- Two destinations are one destination for a final write (R148): one core, or this module's memory. -/
def sameDest : Dst → Dst → Bool
  | .mem _, .mem _ => true
  | .spd c _, .spd d _ => decide (c = d)
  | .spd c _, .tile d _ => decide (c = d)
  | .tile c _, .spd d _ => decide (c = d)
  | .tile c _, .tile d _ => decide (c = d)
  | .host _, .host _ => true
  | _, _ => false

/-- Number that orders a write among those of its source: that of the copy it belongs to, else its own (R148, R157). -/
def Flight.num (f : Flight) : Nat := f.op.getD f.id

/-- The source issued `g` before `f` (R147, R148). -/
def issuedBefore (g f : Flight) : Bool := decide (g.src = f.src) && decide (g.num < f.num ∨ (g.num = f.num ∧ g.id < f.id))

/-- A data-mover copy that the source of `f` issued before it still waits for data that it will write to the destination of
`f` (R148, R150). -/
def copyOutstanding (s : State) (f : Flight) : Bool :=
  match f.src with
  | .core c =>
    s.ord.reads.any (fun r => decide (r.kind = 1 ∧ r.core = c ∧ r.id < f.num) && (match r.dst with
      | some d => sameDest d f.dst
      | none => r.va.isSome && sameDest (.mem 0) f.dst)) ||
    s.lnk.remote.any (fun r => decide (r.kind = 2 ∧ r.core = c ∧ r.id < f.num) && r.va.isSome && sameDest (.mem 0) f.dst)
  | _ => false

/-- An earlier write of the same source to the same destination has not landed (R148). -/
def earlierLeft (s : State) (f : Flight) : Bool :=
  s.ord.flights.any (fun g => issuedBefore g f && sameDest g.dst f.dst) || copyOutstanding s f

/-- Function through which a source writes host memory: its partition's (R212). -/
def hostFn (f : Flight) : Nat := match f.part with | some p => fnOfPart p | none => 0

/-- Issue a write: it takes the next number; a write to host memory is sent on the host link at once, in order (R160);
a final memory write with earlier writes of its source outstanding is held at its source (R150); a write whose route is
down is held too (R23). A host write that Bus Master Enable forbids, or an interface in ERROR, is lost with HOST_ACCESS_FAILED (R212, R289). -/
def issue (s : State) (f : Flight) : State :=
  let f := { f with id := s.ord.nextId, since := s.utime }
  let s := { s with ord := { s.ord with nextId := s.ord.nextId + 1 } }
  match f.dst with
  | .host a =>
    if busMaster s (hostFn f) && !trustedOff s (hostFn f) then
      let ro := !f.final && rdB s R.PEX_CTL_RO_WRITES 0 0 && SMap.look (fun _ => true) s.hst.roEnable (hostFn f)
      emit s (.hostWrite (hostFn f) a f.data f.poison ro)
    else
      match f.ring with
      | some w => failCmd s w 0x21 0
      | none => s
  | _ =>
    let leg := if f.final && earlierLeft s f && (match f.dst with | .mem _ => true | _ => false) then Leg.heldAtSource
      else if routeUp s f then .moving else .blocked
    { s with ord := { s.ord with flights := s.ord.flights ++ [{ f with leg := leg }] } }

/-- A plain write from a source, for a ring's command. -/
def flightOf (src : Src) (dst : Dst) (data : List Byte) (poison final : Bool) (ring part va : Option Nat) : Flight :=
  ⟨0, src, dst, data, poison, final, false, .moving, 0, ring, part, va, none, none, none, none, false⟩

/-- Remove the flight with a number. -/
def dropFlight (s : State) (id : Nat) : State :=
  { s with ord := { s.ord with flights := s.ord.flights.filter (fun f => decide (f.id ≠ id)) } }

/-- Change the writes issued under number `n` and above. -/
def markFrom (s : State) (n : Nat) (g : Flight → Flight) : State :=
  { s with ord := { s.ord with flights := s.ord.flights.map (fun f => if n ≤ f.id then g f else f) } }

/-- Replace the flight with a number. -/
def setFlight (s : State) (id : Nat) (g : Flight → Flight) : State :=
  { s with ord := { s.ord with flights := s.ord.flights.map (fun f => if f.id = id then g f else f) } }

/-- Split a write at line ends: pieces of address and bytes, each within one 64 B line. -/
def splitLines : Nat → Nat → List Byte → List (Nat × List Byte)
  | 0, _, _ => []
  | fuel + 1, a, bs =>
    match bs with
    | [] => []
    | _ =>
      let k := min bs.length (64 - a % 64)
      (a, bs.take k) :: splitLines fuel (a + k) (bs.drop k)

/-! ### Effects of landing -/

/-- A weight import in progress blocks the 64 KiB unit of a physical address (R285). -/
def importBlocks (s : State) (pa : Nat) : Bool :=
  s.tru.imports.any (fun e => match e.2 with
    | none => false
    | some i => match offsetOf (partRanges s e.1) 0 pa with
      | none => false
      | some o => decide (i.dst ≤ o ∧ o < i.dst + i.units * 65536))

/-- A partition offset lies in a sealed range of the partition (R285, R286). -/
def sealedAt (s : State) (p o : Nat) : Bool :=
  (List.range 16).any (fun e => rdB s R.SEC_SEAL_BASE_VALID p e &&
    decide (rd s R.SEC_SEAL_BASE_BASE p e * 65536 ≤ o ∧
      o < rd s R.SEC_SEAL_BASE_BASE p e * 65536 + rd s R.SEC_SEAL_SIZE_UNITS p e * 65536))

/-- A physical address lies in a sealed range. -/
def sealedPa (s : State) (pa : Nat) : Bool :=
  match ownerOf s pa with
  | none => false
  | some p => match offsetOf (partRanges s p) 0 pa with
    | none => false
    | some o => sealedAt s p o

/-- Bytes read at `pa` as the host, the operator and peer modules see them: zeros in sealed ranges (R286). -/
def hideSealed (s : State) (pa : Nat) (bytes : List Byte) : List Byte :=
  bytes.zipIdx.map (fun b => if sealedPa s (pa + b.2) then 0 else b.1)

/-- A write to an address is discarded: no slice holds its line and its channel failed, or its port's range failed (R210,
R227), or nothing lies there, or an import blocks it (R285). -/
def writeLost (s : State) (pa : Nat) : Bool :=
  importBlocks s pa || (match placeOf s pa with
    | .near => lineChannelFailed s pa && !lineHeld s (pa / 64)
    | .cxl n => rdB s R.CXL_PORT_STATUS_FAILED n 0
    | _ => true)

/-- A write lands in module memory, line by line, with its mark (R223), but where it is discarded. -/
def landMem (s : State) (pa : Nat) (data : List Byte) (bad : Bool) : State :=
  (splitLines (data.length / 64 + 2) pa data).foldl (fun s x =>
    if writeLost s x.1 then s else { s with mem := memWrite s.mem x.1 x.2 bad }) s

/-- Request rings in module memory whose pages a write touches (R239). -/
def ringsTouched (s : State) (pa n : Nat) : List Nat :=
  (List.range 64).filter (fun w => rdB s R.SEQ_RQ_CFG_VALID w 0 && decide (rd s R.SEQ_RQ_BASE_LOC w 0 = 0) &&
    (let b := rd s R.SEQ_RQ_BASE_ADDR w 0 * 4096
     decide (b < pa + n ∧ pa < b + 16 * 2 ^ rd s R.SEQ_RQ_CFG_SIZE w 0 * 128)))

/-- Wake the sarabande for rings whose pages a landing write touches (R239). -/
def wakeRings (s : State) (pa n : Nat) : State :=
  (ringsTouched s pa n).foldl (fun s w => onRing s w (fun r => { r with woken := true })) s

/-! ### Power of a core (R342) -/

/-- PWR_DOMAIN value of a core's power state. -/
def powerCode : CorePower → Nat
  | .off => 0
  | .waking => 1
  | .running => 2
  | .gated => 2
  | .sleep => 3

/-- Set a core's power state and its domain's field. -/
def setPower (s : State) (c : Nat) (p : CorePower) : State :=
  setPwrDomain (onCore s c (fun x => { x with power := p })) c (powerCode p)

def coreOn (s : State) (c : Nat) : Bool :=
  match (coreAt s c).power with
  | .running => true
  | .gated => true
  | _ => false

/-- Something for a core to do: it leaves GATED, or starts to wake from SLEEP or OFF (R342). -/
def wakeCore (s : State) (c : Nat) : State :=
  match (coreAt s c).power with
  | .running => s
  | .waking => s
  | .gated => setPower s c .running
  | .sleep => setPower s c .waking
  | .off => onCore (setPower s c .waking) c (fun x => { x with clearing := true })

/-! ### Resets shared by several scopes -/

/-- Return every register at BAR0 offsets [lo, hi) to its reset value. -/
def dropRegs (s : State) (lo hi : Nat) : State :=
  { s with regs := SMap.keep (fun k => !(decide (lo ≤ k ∧ k < hi))) s.regs }

/-- Zero a core's counters with their remainders (R426): their reset value is zero. -/
def clearCounters (s : State) (c : Nat) : State :=
  onCore (dropRegs s (R.CNT_COUNT.at c 0) (R.CNT_COUNT.at c 128)) c (fun x => { x with rem := [] })

/-- The same, with the snapshots counted afresh: every case of R426 but a kernel start (CNT_SNAP_INFO.SEQ). -/
def resetCounters (s : State) (c : Nat) : State := wr (clearCounters s c) R.CNT_SNAP_INFO_SEQ c 0 0

/-- Registers that a core reset clears besides the counters (HRP_EXC_ACC, HRP_TRAP, HRP_TRAP_K, FDL_FLAGS,
SPD_OVERLAP_CTL, the overlap record and the error-code registers). -/
def coreResetRegs (c : Nat) : List Nat :=
  (harpIxs.flatMap (fun h => [R.HRP_EXC_ACC_FLAGS.at c h, R.HRP_TRAP_VALID.at c h, R.HRP_TRAP_K_K_STEP.at c h])) ++
  [R.FDL_FLAGS_INVALID.at c 0, R.SPD_OVERLAP_CTL_ENABLE.at c 0, R.SPD_OVERLAP_REC0_VALID.at c 0, R.SPD_OVERLAP_REC1_ADDR.at c 0,
   R.SPD_ECC_CORRECTED.at c 0, R.SPD_ECC_ADDR_VALID.at c 0]

/-- What a core reset does to one core (R143, R385, R426): harps, sequencer, fiddle unit and landing slots start afresh,
its registers of the reset list are restored, its counters are zero, and its scratchpad is cleared. Power, the guard set
and the testing state are kept. -/
def resetCore (s : State) (c : Nat) : State :=
  let x := coreAt s c
  let s := harpIxs.foldl (fun s h => onHarp s c h Harp.abandon) s
  let s := resetCounters (resetRegs s (coreResetRegs c)) c
  let s := setCore s c { Core.fresh with power := x.power, clearing := coreOn s c, guards := x.guards, suspect := x.suspect,
                                         proc := x.proc, testing := x.testing, idleSince := s.utime, ident := x.ident }
  { s with spd := spdClear s.spd c }

end Sys2Proof.Machine
end

