-- ==== Sys2Proof/Machine/Operands.lean ====
section
/-!
DEFINITION. Sys2Proof/Machine/Operands.lean: every descriptor's fields, the layouts of operands in the scratchpad (R129,
R134 to R139), and the checks that make a pass descriptor, a chain entry or a destination entry a reserved encoding
(R14, R35, R39, R56, R57, R64, R104, R107, R118, R128, R130, R134, R136).
-/
namespace Sys2Proof.Machine

/-- Bits of word `i` of a descriptor. -/
def dw (d : List W64) (i lo w : Nat) : Nat := getBits (d.getD i 0) lo w

/-! ### Pass descriptor (R56) -/

def pFmtA (d : List W64) : Nat := dw d 0 0 4
def pFmtB (d : List W64) : Nat := dw d 0 4 4
def pScaledA (d : List W64) : Bool := decide (dw d 0 8 1 = 1)
def pScaledB (d : List W64) : Bool := decide (dw d 0 9 1 = 1)
def pOrientA (d : List W64) : Bool := decide (dw d 0 10 1 = 1)
def pOrientB (d : List W64) : Bool := decide (dw d 0 11 1 = 1)
def pFill (d : List W64) : Nat := dw d 0 12 2
def pDrain (d : List W64) : Bool := decide (dw d 0 14 1 = 1)
def pTrap (d : List W64) : Bool := decide (dw d 0 15 1 = 1)
def pKBlocks (d : List W64) : Nat := dw d 0 16 16
def pRows (d : List W64) : Nat := dw d 0 32 6
def pCols (d : List W64) : Nat := dw d 0 40 6
def pTag (d : List W64) : Nat := dw d 0 48 16
def pA (d : List W64) : Nat := dw d 1 0 32
def pB (d : List W64) : Nat := dw d 1 32 32
def pScaleA (d : List W64) : Nat := dw d 2 0 32
def pScaleB (d : List W64) : Nat := dw d 2 32 32
def pZpA (d : List W64) : Nat := dw d 3 0 32
def pZpB (d : List W64) : Nat := dw d 3 32 32
def pFillAddr (d : List W64) : Nat := dw d 4 0 32
def pEpi (d : List W64) : Nat := dw d 4 32 8
def pRowBlock (d : List W64) : Nat := dw d 5 0 16
def pColBlock (d : List W64) : Nat := dw d 5 16 16
def pKOffset (d : List W64) : Nat := dw d 5 32 32

/-- Both operands are integers. -/
def pIsInt (d : List W64) : Bool := fmtIsInt (pFmtA d)

/-- The pass's class: the wider of its operands' (R34, R42). -/
def pClass (d : List W64) : Nat := max (fmtClass (pFmtA d)) (fmtClass (pFmtB d))

/-- K of the pass (R33). -/
def pK (d : List W64) : Nat := 32 * pKBlocks d

/-! ### Layouts (R134 to R138) -/

/-- Address of byte `b` of a step-layout K step (R134): element width `w`, origin `o`, step `k`. -/
def stepByte (w o k b : Nat) : Nat :=
  let wb := 4 * w
  let f := k / 64
  let fs := (512 - o % 512) / wb
  (o / 512 + 64 * (if fs = 0 then 0 else f / fs) + k % 64) * 512 + o % 512 + (if fs = 0 then 0 else f % fs) * wb + b

/-- Address of byte `b` of lane `l`'s stream in row layout (R135). -/
def rowByte (o l b : Nat) : Nat :=
  let wc := 512 - o % 512
  (o / 512 + 32 * (b / wc) + l) * 512 + o % 512 + b % wc

/-- Address of byte `b` of row `t` in tile form (R136). -/
def tileByte (o t b : Nat) : Nat := (o / 512 + t) * 512 + o % 512 + b

/-- Element of width `w` at bit position `bit` of a byte stream laid by `g`: the code. -/
def elemVia (p : Spd) (c w bit : Nat) (g : Nat → Nat) : Nat :=
  let first := bit / 8
  let last := (bit + w - 1) / 8
  (List.range (last + 1 - first)).foldl (fun acc i => acc + (spdByte p c (g (first + i))).toNat * 2 ^ (8 * i)) 0
    / 2 ^ (bit % 8) % 2 ^ w

/-- Is any word of that element poisoned. -/
def poisonVia (p : Spd) (c w bit : Nat) (g : Nat → Nat) : Bool :=
  (List.range ((bit + w - 1) / 8 + 1 - bit / 8)).any (fun i => spdPoison p c (g (bit / 8 + i)) 1)

/-- Element of lane `l` at K step `k` of a pass operand (R100, R134, R135). -/
def operandElem (p : Spd) (c f : Nat) (orient : Bool) (o l k : Nat) : Nat :=
  let w := fmtBits f
  if orient then elemVia p c w (w * k) (rowByte o l) else elemVia p c w (w * l) (stepByte w o k)

def operandPoison (p : Spd) (c f : Nat) (orient : Bool) (o l k : Nat) : Bool :=
  let w := fmtBits f
  if orient then poisonVia p c w (w * k) (rowByte o l) else poisonVia p c w (w * l) (stepByte w o k)

/-- Last scratchpad row that a pass operand's `k` steps over its `lanes` lanes reach (R134, R135): the lanes at or beyond ROWS
or COLS are not read and are no part of the operand (DEDUCED, log entry 111). The last strip of a step layout is one fold of
fewer than 64 steps, or reaches all its 64 rows. -/
def operandLastRow (f : Nat) (orient : Bool) (o k lanes : Nat) : Nat :=
  let w := fmtBits f
  if orient then rowByte o (lanes - 1) (packedBytes w k - 1) / 512
  else
    let fs := (512 - o % 512) / (4 * w)
    let lastFold := (k - 1) / 64
    let strip := if fs = 0 then 0 else lastFold / fs
    o / 512 + 64 * strip + (if strip * fs < lastFold then 63 else (k - 1) % 64)

/-! ### Chain entry (R106) -/

def eBit (e : List W64) (b : Nat) : Bool := decide (dw e 0 b 1 = 1)
def eScale (e : List W64) : Bool := eBit e 0
def eBias (e : List W64) : Bool := eBit e 1
def eAct (e : List W64) : Bool := eBit e 2
def eGate (e : List W64) : Bool := eBit e 3
def eResid (e : List W64) : Bool := eBit e 4
def eRescale (e : List W64) : Bool := eBit e 5
def eQuant (e : List W64) : Bool := eBit e 6
def eStats (e : List W64) : Bool := eBit e 7
def eRole (e : List W64) : Nat := dw e 0 8 2
def eRowMode (e : List W64) : Nat := dw e 0 10 2
def eFinal (e : List W64) : Bool := eBit e 12
def eSepEq (e : List W64) : Bool := eBit e 13
def eRtz (e : List W64) : Bool := eBit e 14
def eAxis (e : List W64) : Bool := eBit e 15
def eOutFmt (e : List W64) : Nat := dw e 0 16 4
def eOutScaled (e : List W64) : Bool := eBit e 20
def eStatSel (e : List W64) : Nat := dw e 0 21 3
def eInterFmt (e : List W64) : Nat := dw e 0 24 4
def eBiasFmt (e : List W64) : Nat := dw e 0 28 4
def eResFmt (e : List W64) : Nat := dw e 0 32 4
def eActTable (e : List W64) : Nat := dw e 0 36 1
def eActDeg (e : List W64) : Nat := dw e 0 37 3
def eExpTable (e : List W64) : Nat := dw e 0 40 1
def eExpDeg (e : List W64) : Nat := dw e 0 41 3
def eErrMode (e : List W64) : Nat := dw e 0 44 2
def eLocalOut (e : List W64) : Bool := eBit e 46
def eDest (e : List W64) : Nat := dw e 0 48 8
def eCoarseA (e : List W64) : Nat := dw e 1 0 32
def eCoarseB (e : List W64) : Nat := dw e 1 32 32
def eBiasAddr (e : List W64) : Nat := dw e 2 0 32
def eResAddr (e : List W64) : Nat := dw e 2 32 32
def eMul (e : List W64) : Int := intVal 0x9 (dw e 3 0 32)
def eSh (e : List W64) : Nat := dw e 3 32 6
def eZp (e : List W64) : Nat := dw e 3 40 8
def eOutAddr (e : List W64) : Nat := dw e 4 0 32
def eOutScaleAddr (e : List W64) : Nat := dw e 4 32 32
def eErrVa (e : List W64) : Nat := dw e 5 0 48
def eRowAddr (e : List W64) : Nat := dw e 6 0 32
def eParts (e : List W64) : Nat := dw e 6 32 16
def eModeA (e : List W64) : Nat := dw e 7 0 32
def eCausal (e : List W64) : Bool := decide (dw e 7 32 1 = 1)
def eEps (e : List W64) : Nat := dw e 7 32 32

/-- Long float formats that a bias, a residual or an intermediate may have on an F32 set (R107): F32, F16, BF16. -/
def isF321616 (f : Nat) : Bool := decide (f = 1 ∨ f = 2 ∨ f = 3)

/-! ### Destination entry (R118) -/

def tKind (d : List W64) (t : Nat) : Nat := dw d (2 * t) 0 2
def tCore (d : List W64) (t : Nat) : Nat := dw d (2 * t) 2 9
def tModule (d : List W64) (t : Nat) : Nat := dw d (2 * t) 16 5
def tSlot (d : List W64) (t : Nat) : Nat := dw d (2 * t) 24 4
def tStride (d : List W64) (t : Nat) : Nat := dw d (2 * t) 32 16
def tVa (d : List W64) (t : Nat) : Nat := dw d (2 * t + 1) 0 48

/-- A destination entry is a reserved encoding (R14, R118): a reserved bit, a VA without KIND 3, a core index beyond the
grid. -/
def destBad (d : List W64) : Bool :=
  (List.range 4).any (fun t =>
    decide (dw d (2 * t) 11 5 ≠ 0 ∨ dw d (2 * t) 21 3 ≠ 0 ∨ dw d (2 * t) 28 4 ≠ 0 ∨ dw d (2 * t + 1) 48 16 ≠ 0) ||
    (decide (tKind d t ≠ 3) && decide (tVa d t ≠ 0)) ||
    ((decide (tKind d t = 1 ∨ tKind d t = 2)) && decide (288 ≤ tCore d t)))

/-- A tile-form origin whose rows of `cols` elements of width `w` run past byte 511, or beyond the scratchpad (R128,
R136). -/
def tileFormBad (o w rows cols : Nat) : Bool :=
  decide (512 < o % 512 + packedBytes w cols) || decide (spdBytes < tileByte o (rows - 1) (packedBytes w cols))

/-- A vector of `n` bytes at `o` beyond the scratchpad (R128). -/
def vecBad (o n : Nat) : Bool := decide (spdBytes < o + n)

/-- Fields that a mode does not use must be zero, reserved bits, and alignments of a chain entry (R106, R130). The modes are
those of ROW_MODE: a non-zero field that belongs to another mode makes a reserved encoding, and a field of a stage that is
not enabled is ignored (DESIGN CHOICE, log entry 112). -/
def chainFieldsBad (e : List W64) (rows cols : Nat) : Bool :=
  decide (eRole e = 3) || eBit e 47 || decide (dw e 0 56 8 ≠ 0) || decide (dw e 3 38 2 ≠ 0) || decide (dw e 3 48 16 ≠ 0) ||
  decide (dw e 5 48 16 ≠ 0) || decide (dw e 6 48 16 ≠ 0) ||
  (eAct e && decide (eRowMode e ≠ 2) && decide (eActDeg e = 0 ∨ 5 < eActDeg e)) ||
  ((decide (eRowMode e = 2) || (eStats e && decide (eStatSel e / 2 % 2 = 1))) && decide (eExpDeg e = 0 ∨ 5 < eExpDeg e)) ||
  (!eLocalOut e && decide (eOutAddr e ≠ 0)) ||
  (!(eLocalOut e && eOutScaled e) && decide (eOutScaleAddr e ≠ 0)) ||
  (decide (eErrMode e = 0) && decide (eErrVa e ≠ 0)) ||
  (decide (eRowMode e = 0) && decide (eRowAddr e ≠ 0)) ||
  (decide (eRowMode e = 0 ∨ eRowMode e = 1 ∨ (eRowMode e = 2 ∧ eSepEq e = false)) && eFinal e) ||
  (decide (eRowMode e = 2) && decide (eActTable e ≠ 0 ∨ eActDeg e ≠ 0)) ||
  decide (eBiasAddr e % 8 ≠ 0) || decide (eResAddr e % 8 ≠ 0) ||
  (decide (eRowMode e ≠ 1) && decide (eParts e ≠ 0)) ||
  (decide (eRowMode e = 1) && decide (eParts e = 0)) ||
  (decide (eRowMode e ≠ 1 ∧ eRowMode e ≠ 2) && decide (eModeA e ≠ 0 ∨ eCausal e = true)) ||
  (decide (eRowMode e ≠ 1) && decide (dw e 7 33 31 ≠ 0)) ||
  (eBias e && vecBad (eBiasAddr e) (packedBytes (fmtBits (eBiasFmt e)) cols)) ||
  (eResid e && (tileFormBad (eResAddr e) (fmtBits (eResFmt e)) rows cols)) ||
  (eLocalOut e && (decide (eOutAddr e % 8 ≠ 0) || tileFormBad (eOutAddr e) (fmtBits (eOutFmt e)) rows cols)) ||
  (eLocalOut e && eOutScaled e && (decide (eOutScaleAddr e % 32 ≠ 0) || vecBad (eOutScaleAddr e) 32)) ||
  (decide (eRowMode e ≠ 0) && decide (eRowAddr e % 512 ≠ 0)) ||
  (decide (eRowMode e = 1) && vecBad (eRowAddr e) (2 * eParts e * 512)) ||
  (decide (eRowMode e = 2 ∨ eRowMode e = 3) && vecBad (eRowAddr e) 512)

/-- The conditions of R107 on the entry a pass names; `isInt` says the set is I32. -/
def chainBad (e : List W64) (isInt : Bool) (rows cols : Nat) : Bool :=
  chainFieldsBad e rows cols ||
  (if isInt then
    eScale e || eAct e || eGate e || eQuant e || eStats e || decide (eRole e ≠ 0) || decide (eRowMode e ≠ 0) ||
    (eBias e && decide (eBiasFmt e ≠ 9)) || (eResid e && decide (eResFmt e ≠ 9)) ||
    (!eRescale e && decide (eOutFmt e ≠ 9)) || (eRescale e && !fmtIsInt (eOutFmt e)) ||
    (eRescale e && decide ((eOutFmt e ≠ 0xB ∧ eOutFmt e ≠ 0xD ∧ eZp e ≠ 0) ∨ (eOutFmt e = 0xD ∧ 15 < eZp e)))
  else
    (eRescale e && !(decide (eRowMode e = 3) && eFinal e)) || (decide (eRowMode e = 1) && !eScale e) ||
    (eBias e && !isF321616 (eBiasFmt e)) || (eResid e && !isF321616 (eResFmt e)) ||
    (!eQuant e && decide (eOutFmt e ≠ 1)) || decide (eOutFmt e = 0xE) || decide (eOutFmt e = 0xF)) ||
  (eOutScaled e && !fmtIsShort (eOutFmt e)) ||
  !isF321616 (eInterFmt e) ||
  (eGate e && decide (eRole e ≠ 2)) || (decide (eRole e = 2) && !eGate e) ||
  (decide (eRole e = 1) && (eGate e || eResid e || eRescale e || eQuant e || eStats e || eLocalOut e || decide (eDest e ≠ 0))) ||
  (decide (eRowMode e = 2) && (!eAct e || eGate e)) ||
  (decide (eRowMode e = 3) && eResid e && decide (eResFmt e ≠ 1)) ||
  (eStats e && (decide (eStatSel e = 0) || (decide (eStatSel e / 2 % 2 = 1) && decide (eRowMode e = 2)))) ||
  (decide (eErrMode e ≠ 0) && !eQuant e && !eRescale e)

/-- A pass descriptor is a reserved encoding by its own fields (R35, R56, R57, R64, R128, R130, R134). -/
def passFieldsBad (d : List W64) : Bool :=
  let fa := pFmtA d
  let fb := pFmtB d
  decide (d.length ≠ 6) ||
  decide (fmtClass fa = 0) || decide (fmtClass fb = 0) || (fmtIsInt fa != fmtIsInt fb) ||
  (pScaledA d && !fmtIsShort fa) || (pScaledB d && !fmtIsShort fb) ||
  decide (pFill d = 3) || decide (pKBlocks d = 0) ||
  decide (pRows d = 0 ∨ 32 < pRows d) || decide (pCols d = 0 ∨ 32 < pCols d) ||
  decide (dw d 0 38 2 ≠ 0) || decide (dw d 0 46 2 ≠ 0) || decide (dw d 4 40 24 ≠ 0) ||
  (!pScaledA d && decide (pScaleA d ≠ 0)) || (!pScaledB d && decide (pScaleB d ≠ 0)) ||
  (decide (fa ≠ 0xB ∧ fa ≠ 0xD) && decide (pZpA d ≠ 0)) || (decide (fb ≠ 0xB ∧ fb ≠ 0xD) && decide (pZpB d ≠ 0)) ||
  (decide (pFill d ≠ 1) && decide (pFillAddr d ≠ 0)) || (!pDrain d && decide (pEpi d ≠ 0)) ||
  decide (pA d % 8 ≠ 0) || decide (pB d % 8 ≠ 0) || decide (pFillAddr d % 8 ≠ 0) ||
  decide (pScaleA d % 32 ≠ 0) || decide (pScaleB d % 32 ≠ 0) || decide (pZpA d % 32 ≠ 0) || decide (pZpB d % 32 ≠ 0) ||
  (!pOrientA d && decide (512 - pA d % 512 < 4 * fmtBits fa)) || (!pOrientB d && decide (512 - pB d % 512 < 4 * fmtBits fb)) ||
  decide (spdBytes / 512 ≤ operandLastRow fa (pOrientA d) (pA d) (pK d) (pRows d)) ||
  decide (spdBytes / 512 ≤ operandLastRow fb (pOrientB d) (pB d) (pK d) (pCols d)) ||
  (pScaledA d && vecBad (pScaleA d) (32 * pKBlocks d)) || (pScaledB d && vecBad (pScaleB d) (32 * pKBlocks d)) ||
  vecBad (pZpA d) 32 || vecBad (pZpB d) 32 ||
  (decide (pFill d = 1) && tileFormBad (pFillAddr d) 32 32 32)

/-- Entry of a core's chain table that a draining pass names. -/
def entryOf (x : Core) (d : List W64) : List W64 := x.chain.getD (pEpi d) []

/-- A draining pass's chain entry makes it a reserved encoding: the index at or above CHAIN_COUNT (R104), the conditions
of R107, a destination index at or above DLIST_COUNT, a reserved destination entry, or a scaled output to memory (R118). -/
def passChainBad (x : Core) (d : List W64) : Bool :=
  if !pDrain d then false
  else if x.chain.length ≤ pEpi d then true
  else
    let e := entryOf x d
    chainBad e (pIsInt d) (pRows d) (pCols d) ||
    (decide (eDest e ≠ 0) &&
      (decide (x.dlist.length ≤ eDest e) || destBad (x.dlist.getD (eDest e) []) ||
        (eOutScaled e && (List.range 4).any (fun t => decide (tKind (x.dlist.getD (eDest e) []) t = 3)))))

/-- Is a pass a partner: it drains through an entry with GATE_ROLE = 1 (R109). -/
def passIsPartner (x : Core) (d : List W64) : Bool := pDrain d && decide (eRole (entryOf x d) = 1)

/-- Is a pass a principal (R109). -/
def passIsPrincipal (x : Core) (d : List W64) : Bool := pDrain d && decide (eRole (entryOf x d) = 2)

/-- Does the head of the queue break its place after the previous pass: CHAIN only after an undrained set of the same
shape and kind, an undrained set only before such a CHAIN pass (R39, R57), and a held partner only before a principal of
the same shape (R109). -/
def passPlaceBad (x : Core) (prev : Option (List W64)) (d : List W64) : Bool :=
  match prev with
  | none => decide (pFill d = 2) || passIsPrincipal x d
  | some q =>
    let sameShape := decide (pRows q = pRows d ∧ pCols q = pCols d ∧ pRowBlock q = pRowBlock d ∧ pColBlock q = pColBlock d)
    if !pDrain q then !(decide (pFill d = 2) && sameShape && (pIsInt q == pIsInt d)) || passIsPrincipal x d
    else if passIsPartner x q then decide (pFill d = 2) || !(passIsPrincipal x d && sameShape)
    else decide (pFill d = 2) || passIsPrincipal x d

/-! ### Landing slots (R119, R120, R139) -/

def slotBase (w : List W64) : Nat := dw w 0 0 32
def slotDepth (w : List W64) : Nat := dw w 0 32 4
def slotConsumers (w : List W64) : Nat := dw w 0 40 5
def slotBufRows (w : List W64) : Nat := dw w 0 48 16
def slotStat (w : List W64) : Nat := dw w 1 0 32
def slotMeta (w : List W64) : Nat := dw w 1 32 32
def slotSrcCore (w : List W64) : Nat := dw w 2 0 9
def slotSrcModule (w : List W64) : Nat := dw w 2 16 5
def slotStatParts (w : List W64) : Nat := dw w 2 32 16

/-- A slot's operand is a reserved encoding: reserved bits, ranges, alignments and the scratchpad's end (R119, R128,
R130, R139). -/
def slotBad (w : List W64) : Bool :=
  decide (w.length ≠ 3) || decide (dw w 0 36 4 ≠ 0) || decide (dw w 0 45 3 ≠ 0) || decide (dw w 2 9 7 ≠ 0) ||
  decide (dw w 2 21 11 ≠ 0) || decide (dw w 2 48 16 ≠ 0) ||
  decide (slotDepth w = 0 ∨ 8 < slotDepth w) || decide (slotConsumers w = 0 ∨ 16 < slotConsumers w) ||
  -- a source core beyond the grid: no core can send to the slot (DESIGN CHOICE, log entry 114)
  decide (288 ≤ slotSrcCore w) ||
  decide (slotBase w % 32 ≠ 0) || decide (slotMeta w % 32 ≠ 0) || decide (slotStat w % 512 ≠ 0) ||
  decide (slotBufRows w < 32) ||
  decide (spdBytes < slotBase w / 512 * 512 + 512 * slotBufRows w * slotDepth w) ||
  vecBad (slotMeta w) (32 * slotDepth w) ||
  (decide (slotStat w ≠ 0) && vecBad (slotStat w) (512 * 2 * slotStatParts w))

/-- Key of a credit target: module, core and slot. -/
def targetKey (m c slot : Nat) : Nat := m * 65536 + c * 16 + slot

/-- This module's number in its domain. -/
def myModule (s : State) : Nat := rd s R.LNK_DOMAIN_MODULE 0 0

/-- Buffers (slot * 8 + buffer) of armed slots that hold a given address (R120). -/
def buffersAt (x : Core) (a : Nat) : List Nat :=
  (List.range 16).flatMap (fun n =>
    let sl := SMap.look (fun _ => Slot.fresh) x.slots n
    if sl.armed then
      ((List.range (slotDepth sl.words)).filter (fun b =>
        let lo := slotBase sl.words / 512 + slotBufRows sl.words * b
        decide (lo ≤ a / 512 ∧ a / 512 < lo + slotBufRows sl.words))).map (fun b => n * 8 + b)
    else [])

/-- Origins of a pass that may lie in landing buffers: A, B, fine scales, zero points and fill (R120). -/
def passOrigins (d : List W64) : List Nat :=
  [pA d, pB d] ++ (if pScaledA d then [pScaleA d] else []) ++ (if pScaledB d then [pScaleB d] else []) ++
  (if pFmtA d = 0xB ∨ pFmtA d = 0xD then [pZpA d] else []) ++ (if pFmtB d = 0xB ∨ pFmtB d = 0xD then [pZpB d] else []) ++
  (if pFill d = 1 then [pFillAddr d] else [])

/-- Landing buffers a pass reads, each once. -/
def passBuffers (x : Core) (d : List W64) : List Nat := ((passOrigins d).flatMap (buffersAt x)).dedup

/-- A buffer (slot * 8 + buffer) is full (R121). -/
def bufferFull (x : Core) (b : Nat) : Bool :=
  decide (SMap.look (fun _ => 0) (SMap.look (fun _ => Slot.fresh) x.slots (b / 8)).full (b % 8) ≠ 0)

/-! ### Footprints (R144, R145) -/

/-- Byte ranges of a pass: operands, scales, zero points and fill, row by row (R144). Landing writes, which credits order
against the reads of a landing buffer, register nothing. -/
def passFootprint (owner h : Nat) (d : List W64) : List Footprint :=
  let mk := fun part lo n => (⟨owner, part, 0, h, pTag d, lo, lo + n, false⟩ : Footprint)
  let op := fun (part f : Nat) (orient : Bool) (o lanes : Nat) =>
    if orient then
      (List.range lanes).flatMap (fun l =>
        (List.range ((packedBytes (fmtBits f) (pK d) + (512 - o % 512) - 1) / (512 - o % 512))).map (fun q =>
          mk part (rowByte o l (q * (512 - o % 512)))
            (min (512 - o % 512) (packedBytes (fmtBits f) (pK d) - q * (512 - o % 512)))))
    else (List.range (pK d)).map (fun k => mk part (stepByte (fmtBits f) o k 0) (packedBytes (fmtBits f) lanes))
  op 0 (pFmtA d) (pOrientA d) (pA d) (pRows d) ++ op 1 (pFmtB d) (pOrientB d) (pB d) (pCols d) ++
  (if pScaledA d then [mk 2 (pScaleA d) (32 * pKBlocks d)] else []) ++
  (if pScaledB d then [mk 3 (pScaleB d) (32 * pKBlocks d)] else []) ++
  (if pFmtA d = 0xB ∨ pFmtA d = 0xD then [mk 4 (pZpA d) 32] else []) ++
  (if pFmtB d = 0xB ∨ pFmtB d = 0xD then [mk 5 (pZpB d) 32] else []) ++
  (if pFill d = 1 then (List.range 32).map (fun t => mk 6 (tileByte (pFillAddr d) t 0) 128) else [])

/-- Table entries that ranges take: one per operand or vector of an operation (R144). -/
def tableEntries (fs : List Footprint) : Nat := ((fs.map (fun f => (f.owner, f.part))).dedup).length

/-- Two ranges of different operations collide: they meet and at least one writes (R144). -/
def collides (a b : Footprint) : Bool :=
  decide (a.owner ≠ b.owner) && (a.writes || b.writes) && decide (a.lo < b.hi ∧ b.lo < a.hi)

/-- A collision of new ranges with registered ones: of the operations they collide with the one registered first (DESIGN
CHOICE, log entry 113), with one of the pairs of ranges that meet, and the lowest address at which they collide (R145). -/
def findCollision (held new : List Footprint) : Option (Footprint × Footprint × Nat) :=
  match held.find? (fun h => new.any (fun n => collides n h)) with
  | none => none
  | some h0 =>
    let pairs := (held.filter (fun h => decide (h.owner = h0.owner))).flatMap (fun h =>
      (new.filter (fun n => collides n h)).map (fun n => (n, h, max n.lo h.lo)))
    match pairs with
    | [] => none
    | p :: ps => some (ps.foldl (fun m q => if q.2.2 < m.2.2 then q else m) p)

/-- Does an operation of an owner write a byte. -/
def writesAt (fs : List Footprint) (owner a : Nat) : Bool :=
  fs.any (fun f => decide (f.owner = owner) && f.writes && decide (f.lo ≤ a ∧ a < f.hi))

/-- Record an overlap fault at an address while no record is held, and fail the core's command (R145). -/
def overlapFault (s : State) (c : Nat) (new : List Footprint) (n h : Footprint) (a : Nat) : State :=
  let s :=
    if rdB s R.SPD_OVERLAP_REC0_VALID c 0 then s else
      let s := wr s R.SPD_OVERLAP_REC0_VALID c 0 1
      let s := wr s R.SPD_OVERLAP_REC0_FAULT_KIND c 0 n.kind
      let s := wr s R.SPD_OVERLAP_REC0_HELD_KIND c 0 h.kind
      let s := wr s R.SPD_OVERLAP_REC0_FAULT_HARP c 0 n.harp
      let s := wr s R.SPD_OVERLAP_REC0_HELD_HARP c 0 h.harp
      let s := wr s R.SPD_OVERLAP_REC0_FAULT_TAG c 0 n.tag
      let s := wr s R.SPD_OVERLAP_REC0_HELD_TAG c 0 h.tag
      let s := wr s R.SPD_OVERLAP_REC1_ADDR c 0 a
      let s := wrB s R.SPD_OVERLAP_REC1_FAULT_WRITES c 0 (writesAt new n.owner a)
      wrB s R.SPD_OVERLAP_REC1_HELD_WRITES c 0 (writesAt (coreAt s c).footprints h.owner a)
  failCore s c 0x09 0

/-- What registering an operation's footprint comes to (R144, R145). -/
inductive Registered
  | ok (s : State)
  | waits
  | faults (s : State)
deriving DecidableEq, Repr

/-- Register an operation's ranges on a core whose running kernel is checked: it waits while the table of 64 entries has
too few free, and it faults on a collision (R144, R145). -/
def register (s : State) (c : Nat) (fs : List Footprint) : Registered :=
  if !rdB s R.SPD_OVERLAP_CTL_ACTIVE c 0 then .ok s
  else
    let x := coreAt s c
    if 64 < tableEntries (x.footprints ++ fs) then .waits
    else
      match findCollision x.footprints fs with
      | some (n, h, a) => .faults (overlapFault s c fs n h a)
      | none =>
        .ok (wr (setCore s c { x with footprints := x.footprints ++ fs }) R.SPD_OVERLAP_CTL_TABLE_USED c 0
          (tableEntries (x.footprints ++ fs)))

/-- Release an operation's ranges. -/
def release (s : State) (c owner : Nat) : State :=
  let x := coreAt s c
  let fs := x.footprints.filter (fun f => decide (f.owner ≠ owner))
  if x.footprints.isEmpty then s
  else wr (setCore s c { x with footprints := fs }) R.SPD_OVERLAP_CTL_TABLE_USED c 0 (tableEntries fs)

/-! ### Watchpoints on the scratchpad (R432 to R434) -/

/-- Return to a ring the slots taken and not started: NEXT_SLOT moves back to the first of them, and EXPECT_GEN with it
across a wrap (R235, R240). -/
def returnTaken (s : State) (w : Nat) : State :=
  match (ringAt s w).taken with
  | [] => s
  | t :: rest =>
    let size := 16 * 2 ^ rd s R.SEQ_RQ_CFG_SIZE w 0
    let g := rd s R.SEQ_RQ_STATUS_EXPECT_GEN w 0
    let s := onRing s w (fun r => { r with taken := [] })
    let s := wr s R.SEQ_RQ_STATUS_NEXT_SLOT w 0 t.slot
    if size ≤ t.slot + (rest.length + 1) then wr s R.SEQ_RQ_STATUS_EXPECT_GEN w 0 (if g = 1 then 255 else g - 1) else s

/-- STOP of an ACTIVE ring (R240): slots taken and not started go back; the ring is STOPPING while a command is in
progress, else STOPPED. -/
def stopRing (s : State) (w : Nat) : State :=
  if rd s R.SEQ_RQ_STATUS_STATE w 0 = 2 then
    let s := returnTaken s w
    if (ringAt s w).cmd.isSome then wr s R.SEQ_RQ_STATUS_STATE w 0 3
    else wr (wr s R.SEQ_RQ_STATUS_STATE w 0 1) R.SEQ_RQ_STATUS_STOP_CAUSE w 0 0
  else s

/-- Stop every ACTIVE ring of a partition as a software STOP does (R240, R433). -/
def stopRings (s : State) (p : Nat) : State :=
  (List.range 64).foldl (fun s w =>
    if rdB s R.SEQ_RQ_CFG_VALID w 0 && decide (ringPart s w = p) then stopRing s w else s) s

/-- A halt is armed or complete: watchpoint halts then stop nothing (R434). -/
def haltInProgress (s : State) : Bool := decide (rd s R.RAS_HALT_STATUS_STATE 0 0 ≠ 0)

/-- Queue a trace record on a core: at most 16 wait; one that finds no room is dropped and counted (R435, R436). -/
def traceRec (s : State) (c kind harp : Nat) (w2 w3 : W64) : State :=
  if rdB s R.CNT_TRACE_CTL_ENABLE c 0 && decide (rd s R.CNT_TRACE_CTL_KINDS c 0 / 2 ^ kind % 2 = 1) &&
      !rdB s R.CNT_TRACE_STATUS_FULL c 0 then
    if (coreAt s c).trace.length < 16 then
      onCore s c (fun x => { x with trace := x.trace ++
        [[BitVec.ofNat 64 (tsc s), BitVec.ofNat 64 (kind + c * 256 + harp * 2 ^ 17), w2, w3]] })
    else onCore (addSat s R.CNT_TRACE_STATUS_LOST c 0 1) c (fun x => { x with lost := x.lost + 1 })
  else s

/-- A snapshot of a core's counters, command identity and TSC, with its trace record (R427, R435). -/
def takeSnap (s : State) (c cause : Nat) (late : Bool) : State :=
  let s := (List.range 128).foldl (fun s n => wr s R.CNT_SNAP_COUNT c n (rd s R.CNT_COUNT c n)) s
  let s := wr s R.CNT_SNAP_INFO_SEQ c 0 (rd s R.CNT_SNAP_INFO_SEQ c 0 + 1)
  let s := wrB (wr s R.CNT_SNAP_INFO_CAUSE c 0 cause) R.CNT_SNAP_INFO_LATE c 0 late
  let (tag, ring, slot) := (coreAt s c).ident
  let s := wr (wr (wr s R.CNT_SNAP_CMD_TAG c 0 tag) R.CNT_SNAP_CMD_RING c 0 ring) R.CNT_SNAP_CMD_SLOT c 0 slot
  let s := wr s R.CNT_SNAP_TSC_TSC c 0 (tsc s)
  traceRec s c 11 0 (BitVec.ofNat 64 (rd s R.CNT_SNAP_INFO_SEQ c 0 + cause * 2 ^ 32)) 0

/-- One scratchpad access of core c over [a, a+n) by an operation of `kind` (overlap kinds), a read or a write: the words
read are checked (R142); every matching watchpoint counts; the record, the event and the halt follow R433 and R434. -/
def spdAccess (s : State) (c a n kind : Nat) (isWrite : Bool) (harp tag : Nat) : State :=
  let s := if isWrite then s else spdCheck s c (spdWords c a n)
  let hit := fun m =>
    let (lo, hi) := SMap.look (fun _ => ((0 : Nat), (0 : Nat))) s.obs.spwpRange (c * 2 + m)
    rdB s R.CNT_SPWP_CFG_ENABLE c m && decide (a < hi ∧ lo < a + n ∧ n ≠ 0) &&
      (if isWrite then rdB s R.CNT_SPWP_CFG_WRITE c m else rdB s R.CNT_SPWP_CFG_READ c m)
  let ms := [0, 1].filter hit
  match ms with
  | [] => s
  | m0 :: _ =>
    let s := ms.foldl (fun s m => addSat s R.CNT_SPWP_CFG_HITS c m 1) s
    let act := ms.foldl (fun k m => max k (rd s R.CNT_SPWP_CFG_ACTION c m)) 0
    let s :=
      if rdB s R.CNT_SPWP_HIT_VALID c 0 then s else
        let s := wr s R.CNT_SPWP_HIT_VALID c 0 1
        let s := wr s R.CNT_SPWP_HIT_WP c 0 m0
        let s := wr s R.CNT_SPWP_HIT_KIND c 0 kind
        let s := wrB s R.CNT_SPWP_HIT_IS_WRITE c 0 isWrite
        let s := wr s R.CNT_SPWP_HIT_HARP c 0 harp
        let s := wr s R.CNT_SPWP_HIT_PASS_TAG c 0 tag
        wr s R.CNT_SPWP_HIT_ADDR c 0 a
    let s := traceRec s c 9 harp (BitVec.ofNat 64 (m0 + kind * 2 + a * 2 ^ 32)) (BitVec.ofNat 64 tag)
    let k := 16 + 2 * c + m0
    let s :=
      if act ≥ 1 ∧ (SMap.look (fun _ => 0) s.obs.evAt k + 1000000 ≤ s.utime ∨ SMap.look (fun _ => 0) s.obs.evAt k = 0) then
        postEvent { s with obs := { s.obs with evAt := SMap.put (fun _ => 0) s.obs.evAt k s.utime } }
          (coreOwner s c) 0x0115 (m0 + 256 + c * 65536) (rd s R.CNT_SPWP_CFG_HITS c m0) act
      else s
    if act = 2 ∧ !haltInProgress s then
      let s := failCore s c 0x07 0
      match coreOwner s c with
      | some p => stopRings s p
      | none => s
    else s

end Sys2Proof.Machine
end

