-- ==== Sys2Proof/Machine/Slice.lean ====
section
/-!
DEFINITION. Sys2Proof/Machine/Slice.lean: what an access meets at a home slice: allocation and replacement (R215, R216),
write-back buffers and lost lists of a port that is down (R227), memory watchpoints (R431, R433, R434), the atomics of
R217, the ECC of R223 and R224, traffic counters (R424), and the translations that accesses leave cached (R230).
-/
namespace Sys2Proof.Machine

/-! ### Lines in the slices -/

/-- Home slice of a line. -/
def lineSlice (s : State) (line : Nat) : Nat := homeStack s (line * 64)

/-- Lines of a list that one slice homes. -/
def ofSlice (s : State) (k : Nat) (ls : List Nat) : List Nat := ls.filter (fun l => decide (lineSlice s l = k))

/-- A range of a port fails (R227): every line of it reads poison from now on. -/
def failPort (s : State) (n : Nat) : State :=
  if rdB s R.CXL_PORT_STATUS_FAILED n 0 then s
  else logErr (wr s R.CXL_PORT_STATUS_FAILED n 0 1) ⟨0x0202, 3, 6, n, none, none, none, none, n, 0⟩

/-- Memory key of a line: its owner's, or the device key (R221, R268). -/
def lineKey (s : State) (line : Nat) : List Byte :=
  match ownerOf s (line * 64) with
  | some p => wordsBytes [SMap.look (fun _ => 0) s.tru.keys p]
  | none => Config.deviceKey

/-- Bytes of a line as its medium holds them: AES-256-XTS with the line's address divided by 64 as the tweak (R221). -/
def lineCipher (s : State) (line : Nat) : List Byte :=
  Config.aesXts (lineKey s line) (leBytes 16 line) (memRead s.mem (line * 64) 64)

/-- First address of a port's range (R211). -/
def portBase (n : Nat) : Nat := if n = 0 then 0x100000000000 else 0x180000000000

/-- What a line's write-back sends where the line lies at a place: only an expander's line leaves the module (R226). -/
def writeBackTo (s : State) (line : Nat) : Place → State
  | .cxl n => emit s (.cxlWrite n (line * 64 - portBase n) (lineCipher s line) (memPoison s.mem line))
  | .near => s
  | .host => s
  | .absent => s

/-- A line is written back to its medium: one of the CXL tier goes to its expander, a poisoned one with the CXL poison
indication (R226). -/
def writeBack (s : State) (line : Nat) : State := writeBackTo s line (placeOf s (line * 64))

/-- A dirty line leaves its slice while its port is down (R227): held in the write-back buffer of 256 lines; beyond
that dropped onto the lost list of 256, its data lost; beyond that the port's range fails. -/
def evictDown (s : State) (n line : Nat) : State :=
  let k := lineSlice s line
  if line ∈ s.ms.wbHeld then s
  else if (ofSlice s k s.ms.wbHeld).length < 256 then { s with ms := { s.ms with wbHeld := s.ms.wbHeld ++ [line] } }
  else
    let s := logErr s ⟨0x0201, 3, 6, n, ownerOf s (line * 64), some (line * 64), none, none, n, 0⟩
    let s := { s with mem := memMark s.mem line }
    if line ∈ s.ms.lost then s
    else if (ofSlice s k s.ms.lost).length < 256 then { s with ms := { s.ms with lost := s.ms.lost ++ [line] } }
    else failPort s n

/-- A line leaves its slice (R215, R226, R227). -/
def evict (s : State) (line : Nat) (x : SLine) : State :=
  let under := decide (line ∈ s.ms.badUnder)
  let s := { s with ms := { s.ms with lines := s.ms.lines.filter (fun e => decide (e.1 ≠ line)),
                                      badUnder := s.ms.badUnder.filter (· ≠ line) } }
  let s := if under && !x.dirty then { s with mem := memMark s.mem line } else s
  if x.dirty then
    match placeOf s (line * 64) with
    | .cxl n => if portUp s n then writeBack s line else evictDown s n line
    | _ => s
  else s

/-- Set of a line within its slice. -/
def setOf (line : Nat) : Nat := Config.sliceSet line % 16384

/-- Lines of the same set of the same slice, least recently used first. -/
def setLines (s : State) (line : Nat) : List (Nat × SLine) :=
  s.ms.lines.filter (fun e => decide (lineSlice s e.1 = lineSlice s line ∧ setOf e.1 = setOf line))

/-- Put a line in its slice as the most recently used: into a free way of its owner's mask, or in place of the least
recently used line of those ways (R215, R216). A line of no owner is not allocated. -/
def allocate (s : State) (line : Nat) (dirty : Bool) : State :=
  match ownerOf s (line * 64) with
  | none => s
  | some p =>
    let mask := rd s R.CCH_WAYMASK_WAYS p 0
    let ways := (List.range 16).filter (fun w => decide (mask / 2 ^ w % 2 = 1))
    let set := setLines s line
    match ways.find? (fun w => !(set.any (fun e => decide (e.2.way = w)))) with
    | some w => { s with ms := { s.ms with lines := s.ms.lines ++ [(line, ⟨w, dirty⟩)] } }
    | none =>
      match set.find? (fun e => decide (e.2.way ∈ ways)) with
      | none => s
      | some e =>
        let s := evict s e.1 e.2
        { s with ms := { s.ms with lines := s.ms.lines ++ [(line, ⟨e.2.way, dirty⟩)] } }

/-- A write to a missed line that answers poison still lands at its slice: its port is down and the range has not failed
(R227). -/
def landsDown (s : State) (line : Nat) : Bool :=
  match placeOf s (line * 64) with
  | .cxl n => !rdB s R.CXL_PORT_STATUS_FAILED n 0
  | _ => false

/-- An access to a line at its home slice: a hit becomes the most recently used, a miss is allocated (R215), but for a line
whose channel or range has failed and for a read that finds its port down: those return poison from behind the slice (R210,
R227) and leave nothing in it (DEDUCED, log entry 135). -/
def touchLine (s : State) (line : Nat) (isWrite : Bool) : State :=
  match s.ms.lines.find? (fun e => decide (e.1 = line)) with
  | some e =>
    { s with ms := { s.ms with
        lines := s.ms.lines.filter (fun x => decide (x.1 ≠ line)) ++ [(line, { e.2 with dirty := e.2.dirty || isWrite })] } }
  | none => if lineLost s line && !(isWrite && landsDown s line) then s else allocate s line isWrite

/-- Touch every line of a range. -/
def touch (s : State) (pa n : Nat) (isWrite : Bool) : State := (linesOf pa n).foldl (fun s l => touchLine s l isWrite) s

/-! ### Memory watchpoints (R431, R433, R434) -/

/-- Requester code of a hit record; none for a requester that R431 does not watch. -/
def requesterCode : Requester → Option Nat
  | .core _ => some 0
  | .mover _ => some 1
  | .kpu _ => some 2
  | .dtu => some 3
  | .bar2 _ => some 4
  | .peer _ => some 5
  | .sarabande => none

/-- Core of a requester. -/
def requesterCore : Requester → Option Nat
  | .core c => some c
  | .mover c => some c
  | _ => none

/-- Does SOURCE select a requester: 0 any, 1 cores and data movers, 2 BAR2, 3 peers (R431). -/
def sourceMatches (src code : Nat) : Bool :=
  match src with
  | 0 => true
  | 1 => decide (code ≤ 1)
  | 2 => decide (code = 4)
  | _ => decide (code = 5)

/-- Does watchpoint n match an access: op 1 read, 2 write, 3 atomic. -/
def wpMatches (s : State) (n op code pa len : Nat) : Bool :=
  let (lo, hi) := SMap.look (fun _ => ((0 : Nat), (0 : Nat))) s.obs.wpRange n
  rdB s R.DBG_WP_CFG_ENABLE n 0 && sourceMatches (rd s R.DBG_WP_CFG_SOURCE n 0) code &&
    (match op with
     | 1 => rdB s R.DBG_WP_CFG_READ n 0
     | 2 => rdB s R.DBG_WP_CFG_WRITE n 0
     | _ => rdB s R.DBG_WP_CFG_READ n 0 || rdB s R.DBG_WP_CFG_WRITE n 0) &&
    decide (pa < hi ∧ lo < pa + len ∧ len ≠ 0)

/-- Words of a hit record (DBG_HIT_W0 to DBG_HIT_W3): the lowest matched address is where the access meets the range. -/
def hitWords (s : State) (n op code : Nat) (who : Requester) (va : Option Nat) (pa : Nat) : List W64 :=
  let lo := (SMap.look (fun _ => ((0 : Nat), (0 : Nat))) s.obs.wpRange n).1
  let at_ := max pa lo
  let own := ownerOf s at_
  [BitVec.ofNat 64 (tsc s),
   BitVec.ofNat 64 (n + op * 16 + code * 64 + (match requesterCore who with | some c => c * 2 ^ 16 | none => 0) +
     (match who with | .peer m => (m : Nat) * 2 ^ 26 | _ => 0) + (match own with | some p => p * 2 ^ 32 + 2 ^ 36 | none => 0)),
   BitVec.ofNat 64 at_,
   BitVec.ofNat 64 (match va with | some v => (v + (at_ - pa)) % 2 ^ 48 + 2 ^ 48 | none => 0)]

/-- Write a hit record unless the watchpoint wrote one within the last microsecond of TSC (R434). -/
def hitRecord (s : State) (n : Nat) (words : List W64) : State :=
  let last := SMap.look (fun _ => (0 : Nat)) s.obs.recAt n
  if s.obs.hits.any (fun h => decide (h.num = n)) && decide (tsc s < last + 1000) then s
  else
    let hits := s.obs.hits ++ [⟨n, words⟩]
    let s := { s with obs := { s.obs with hits := hits.drop (hits.length - 256), recAt := SMap.put (fun _ => 0) s.obs.recAt n (tsc s) } }
    wr s R.DBG_HIT_STATUS_WRITTEN 0 0 (rd s R.DBG_HIT_STATUS_WRITTEN 0 0 + 1)

/-- An access arrives at its home slice and meets the watchpoints: every match counts, the lowest-numbered one writes the
record, the largest ACTION applies (R433, R434). `w` is the request ring of the command that made it. -/
def watchMem (s : State) (op : Nat) (who : Requester) (va w : Option Nat) (pa len : Nat) : State :=
  match requesterCode who with
  | none => s
  | some code =>
    match (List.range 16).filter (fun n => wpMatches s n op code pa len) with
    | [] => s
    | n0 :: rest =>
      let ns := n0 :: rest
      let s := ns.foldl (fun s n => addSat s R.DBG_WP_HITS_HITS n 0 1) s
      let act := ns.foldl (fun k n => max k (rd s R.DBG_WP_CFG_ACTION n 0)) 0
      let s := hitRecord s n0 (hitWords s n0 op code who va pa)
      let last := SMap.look (fun _ => (0 : Nat)) s.obs.evAt n0
      let s := if act ≥ 1 ∧ (last = 0 ∨ last + 1000000 ≤ s.utime) then
          postEvent { s with obs := { s.obs with evAt := SMap.put (fun _ => 0) s.obs.evAt n0 s.utime } }
            none 0x0115 n0 (rd s R.DBG_WP_HITS_HITS n0 0) act
        else s
      match decide (act = 2) && !haltInProgress s, ownerOf s pa, w with
      | true, some p, some w => stopRings (failCmd s w 0x07 0) p
      | _, _, _ => s

/-! ### Traffic counters (R424) -/

/-- Bytes that a core's access moves, counted by what lies at the address (R424). -/
def countPlace (s : State) (c n : Nat) (isWrite : Bool) (p : Place) : State :=
  match p with
  | .near => countUnits s c (if isWrite then 68 else 67) 64 n
  | .cxl _ => countUnits s c (if isWrite then 70 else 69) 64 n
  | .host => if isWrite then countUnits s c 71 64 n else s
  | .absent => s

/-- Count bytes that a core requested from or wrote to module or host memory, in units of 64 B. -/
def countMem (s : State) (who : Requester) (pa n : Nat) (isWrite : Bool) : State :=
  match requesterCore who with
  | none => s
  | some c => countPlace s c n isWrite (placeOf s pa)

/-! ### Accesses -/

/-- A read arrives at its slices: counters, watchpoints, allocation. The data are those of `cohRead` before or after. -/
def sliceRd (s : State) (who : Requester) (va w : Option Nat) (pa n : Nat) : State :=
  touch (watchMem (countMem s who pa n false) 1 who va w pa n) pa n false

/-- Lines that bytes [pa, pa + n) cover in part and that no slice holds: a write of them reads the line first (R215). -/
def partMissed (s : State) (pa n : Nat) : List Nat :=
  (linesOf pa n).filter (fun l => !lineHeld s l && !(decide (pa ≤ l * 64 ∧ l * 64 + 64 ≤ pa + n)))

/-- The line that a partial write reads answers poison where its port is down: it keeps the mark (R215, R223, R227). -/
def fillPart (s : State) (pa n : Nat) : State :=
  (partMissed s pa n).foldl (fun s l => if lineLost s l && landsDown s l then { s with mem := memMark s.mem l } else s) s

/-- A write lands at its slice: counters, watchpoints, allocation, the data, and the wake of request rings (R239). -/
def sliceWr (s : State) (who : Requester) (va w : Option Nat) (pa : Nat) (data : List Byte) (bad : Bool) : State :=
  let s := touch (fillPart (watchMem s 2 who va w pa data.length) pa data.length) pa data.length true
  wakeRings (landMem s pa data bad) pa data.length

/-- A write waits at its slice: its range is being cleared or a bank repaired, or it reads a line of a channel that trains; a
write of whole lines reads none (R209, R215, R222, R412). -/
def writeWaits (s : State) (pa n : Nat) : Bool :=
  clearingAt s pa n || repairAt s pa n || (partMissed s pa n).any (fun l => trainingAt s (l * 64) 64) ||
  (linesOf pa n).any (fun l => (ownerOf s (l * 64)).isNone && trainingAt s (l * 64) 64)

/-- The operations of R217 on a word. -/
def atomicResult (op : AtomicOp) (old x cmp : W64) : W64 :=
  match op with
  | .addI64 => old + x
  | .addF64 => BitVec.ofNat 64 (f64.add (f64.unpack old.toNat) (f64.unpack x.toNat)).1
  | .swap => x
  | .cas => if old = cmp then x else old

/-- An atomic at its slice: one write that returns the old word with its mark; a poisoned word is returned and not changed
(R217), and a poisoned operand poisons its target word's line (R394). -/
def sliceAtom (s : State) (who : Requester) (va w : Option Nat) (pa : Nat) (op : AtomicOp) (x cmp : W64) (bad : Bool) :
    State × W64 × Bool :=
  let old := memWord s.mem pa
  let mark := (cohRead s pa 8).2
  let s := touch (watchMem s 3 who va w pa 8) pa 8 (!mark)
  if mark then (s, old, true)
  else (wakeRings (landMem s pa (leBytes 8 (atomicResult op old x cmp).toNat) bad) pa 8, old, false)

/-- Schedule the repair of a bank row (R412). -/
def scheduleRepair (s : State) (b : BankRow) : State :=
  if b ∈ s.ms.repairDue then s else { s with ms := { s.ms with repairDue := s.ms.repairDue ++ [b] } }

/-- The mark of an uncorrectable line: in memory, or, of a line that a slice holds, in the copy below it (R223). -/
def markBad (s : State) (line : Nat) : State :=
  if lineHeld s line then
    if s.ms.lines.any (fun e => decide (e.1 = line) && e.2.dirty) then s
    else { s with ms := { s.ms with badUnder := s.ms.badUnder.filter (· ≠ line) ++ [line] } }
  else { s with mem := memMark s.mem line }

/-- Bytes of a 72 B codeword that are in error (R205). -/
def codewordErrors (m : Medium) : Nat :=
  ((List.range 72).filter (fun i => decide ((m.errs.foldl (fun (a : Byte) e => if e.1 = i then a ^^^ e.2 else a) 0) ≠ 0))).length

/-- Verdict on a codeword (R205, R223): 0 clean; 1 corrected, an error within 2 bytes; 2 uncorrectable, one detected within 6
bytes, or a burst whose four retries failed too; 3 beyond what the code detects. -/
def codewordVerdict (m : Medium) : Nat :=
  let n := codewordErrors m
  if 5 ≤ m.crcFails then 2 else if n = 0 then 0 else if n ≤ 2 then 1 else if n ≤ 6 then 2 else 3

/-- A near line of no slice is read as a wrong codeword: its bytes are free values (log entry 119). -/
def garbleLine (s : State) (line : Nat) : State :=
  if lineHeld s line then s
  else
    let (ws, s) := (List.range 8).foldl (fun (a : List W64 × State) _ => let (x, s) := takeFree a.2; (a.1 ++ [x], s)) ([], s)
    { s with mem := memWrite s.mem (line * 64) (wordsBytes ws) false }

/-- An uncorrectable line of near memory (R223, R412): it is poisoned, counts, is held in MEM_ERR_ADDR, is recorded with `d0`
and has its row repaired. -/
def eccUncorrectable (s : State) (line d0 : Nat) : State :=
    let b := bankRowOf s (line * 64)
    let s := addSat (markBad s line) R.MEM_ECC_UNCORRECTED b.stack 0 1
    let s := if rdB s R.MEM_ERR_ADDR_VALID b.stack 0 then s else
      let s := wr s R.MEM_ERR_ADDR_VALID b.stack 0 1
      let s := wr s R.MEM_ERR_ADDR_LINE b.stack 0 line
      let s := wr s R.MEM_ERR_ADDR_CHANNEL b.stack 0 b.channel
      let s := wr s R.MEM_ERR_ADDR_DIE b.stack 0 b.dieSel
      wr s R.MEM_ERR_ADDR_BANK b.stack 0 b.bank
    poisonFound (scheduleRepair s b) 1 b.stack d0 (line * 64)

/-- What the check of a line read from near memory finds (R205, R223, R224): data-CRC retries count; a corrected read counts; an
uncorrectable one is dealt with; for an error beyond the code the verdict and the data are free values. -/
def eccNear (s : State) (line d0 : Nat) (m : Medium) : State :=
  let k := homeStack s (line * 64)
  let s := addSat s R.MEM_ECC_CRC_RETRIES k 0 (min 4 m.crcFails)
  let s := if m.crcFails ≤ 4 then noteCorrected s 1 k (min 1 m.crcFails) else s
  match codewordVerdict m with
  | 0 => s
  | 1 => noteCorrected (addSat s R.MEM_ECC_CORRECTED k 0 1) 1 k 1
  | 2 => eccUncorrectable s line d0
  | _ =>
    let (x, s) := takeFree s
    match x.toNat % 3 with
    | 0 => eccUncorrectable s line d0
    | 1 => noteCorrected (addSat (garbleLine s line) R.MEM_ECC_CORRECTED k 0 1) 1 k 1
    | _ => garbleLine s line

/-- What the check of a line read from its medium finds where the line lies at a place (R223, R226). -/
def eccIn (s : State) (line : Nat) (m : Medium) (d0 : Nat) : Place → State
  | .near => eccNear s line d0 m
  | .cxl n =>
    if m.expander = 1 then addSat s R.CXL_PORT_ERR_CORRECTED n 0 1
    else if m.expander = 2 then poisonFound (addSat (markBad s line) R.CXL_PORT_ERR_POISON_IN n 0 1) 6 n 4 (line * 64)
    else s
  | .host => s
  | .absent => s

/-- A line is read from its medium: near memory is checked; an expander's corrected read counts, and its poison indication
counts and becomes the mark (R226). A slice that holds the line keeps its own copy. -/
def eccFound (s : State) (line : Nat) (m : Medium) (d0 : Nat) : State := eccIn s line m d0 (placeOf s (line * 64))

/-- A read that reaches the medium of the first of its lines that no slice holds. -/
def eccRead (s : State) (pa n : Nat) (m : Medium) (d0 : Nat) : State :=
  match (linesOf pa n).find? (fun l => !lineHeld s l && !lineLost s l) with
  | some l => eccFound s l m d0
  | none => s

/-- A write that reads the first line it covers in part from its medium (R215, R223). -/
def eccWrite (s : State) (pa n : Nat) (m : Medium) (d0 : Nat) : State :=
  match (partMissed s pa n).find? (fun l => !lineLost s l) with
  | some l => eccFound s l m d0
  | none => s

/-! ### Translations kept (R230, R277) -/

/-- Drop the oldest entries that satisfy `p` beyond `n` of them. -/
def keepNewest (n : Nat) (p : Xlat → Bool) (l : List Xlat) : List Xlat :=
  (l.foldr (fun x (a : List Xlat × Nat) => if p x then (if a.2 < n then (x :: a.1, a.2 + 1) else a) else (x :: a.1, a.2)) ([], 0)).1

/-- Keep a translation: each core keeps 32, and the DTU 8,192 shared ones, in isolation mode 512 for each context (R230, R277);
the oldest makes room (log entry 32). -/
def keepXlat (s : State) (x : Xlat) : State :=
  let tlb := s.ms.tlb ++ [x]
  let tlb := match x.core with
    | some c => keepNewest 32 (fun y => decide (y.core = some c)) tlb
    | none => if rdB s R.PRT_ISO_STATUS_ACTIVE 0 0 then keepNewest 512 (fun y => y.core.isNone && decide (y.ctx = x.ctx)) tlb
      else keepNewest 8192 (fun y => y.core.isNone) tlb
  { s with ms := { s.ms with tlb := tlb } }

/-- A core keeps a translation too. -/
def keepOwn (s : State) (who : Option Nat) (x : Xlat) : State :=
  match who with
  | some c => keepXlat s { x with core := some c }
  | none => s

/-- An access of a requester leaves its translation cached: a shared one is copied to its core; a miss walks at the point of
coherence and, unless it faults, is kept (R230). -/
def learn (s : State) (who : Option Nat) (p va : Nat) (write hostOk : Bool) (w : Option Nat) : State :=
  match cachedXlat s who p (va % 2 ^ 48) with
  | some x => if x.core.isSome then s else keepOwn s who x
  | none =>
    let x := walk s p va write hostOk
    let s := (walkReads s p va).foldl (fun s a => sliceRd s .dtu none w a 8) s
    match x with
    | .ok x => keepOwn (keepXlat s x) who x
    | .error _ => s

/-- The same over a virtual range, block by block; a KV range's entries are kept by the KV page units alone (R231). -/
def learnRange (s : State) (who : Option Nat) (p va n : Nat) (write hostOk : Bool) (w : Option Nat) : State :=
  (vaBlocks va n).foldl (fun s a => learn s who p a write hostOk w) s

/-! ### Writes to virtual addresses -/

/-- Issue a write to a virtual range: each translated piece is one write to memory, or to host memory where it maps the
host range (R212, R232). A fault fails the command. -/
def issueVirtual (s : State) (src : Src) (w p va : Nat) (data : List Byte) (poison final : Bool) (core : Option Nat) : State :=
  let ps := pieces s core p true true va data.length
  let s := learnRange s core p va data.length true true (some w)
  match ps with
  | .error (e, at_) => xlateFail s w p at_ true core e
  | .ok ps =>
    (ps.foldl (fun (acc : State × Nat × Nat) pc =>
      let (s, off, at_) := acc
      let d := (data.drop off).take pc.2
      let dst := if 2 ^ 51 ≤ pc.1 then Dst.host (pc.1 - 2 ^ 51) else Dst.mem pc.1
      (issue s (flightOf src dst d poison final (some w) (some p) (some at_)), off + pc.2, at_ + pc.2)) (s, 0, va)).1


end Sys2Proof.Machine
end

