-- ==== Sys2Proof/Machine/Wire.lean ====
section
/-!
DEFINITION. Sys2Proof/Machine/Wire.lean: the links as the other units use them: choosing a link and queueing a message
(R303, R305, R306), credits to a tile's source (R120), and the loss of a link (R309, R315, R318).
-/
namespace Sys2Proof.Machine

def linkAt (s : State) (l : Nat) : LinkRt := SMap.look (fun _ => LinkRt.fresh) s.lnk.links l
def setLink (s : State) (l : Nat) (v : LinkRt) : State :=
  { s with lnk := { s.lnk with links := SMap.put (fun _ => LinkRt.fresh) s.lnk.links l v } }
def onLink (s : State) (l : Nat) (f : LinkRt → LinkRt) : State := setLink s l (f (linkAt s l))

/-- State of a link (R308): 0 OFF, 1 TRAINING, 2 CHECKING, 3 KEYING, 4 UP, 5 QUIESCING, 6 DOWN. -/
def linkState (s : State) (l : Nat) : Nat := rd s R.LNK_STATUS_STATE l 0

/-- Module at the far end of a link. -/
def linkPeer (s : State) (l : Nat) : Nat := rd s R.LNK_CFG_PEER_MODULE l 0

def linkIxs : List Nat := List.range 96

/-- UP links to a peer, lowest first. -/
def upLinks (s : State) (m : Nat) : List Nat :=
  linkIxs.filter (fun l => decide (linkState s l = 4) && decide (linkPeer s l = m))

/-- Set a link's state; its quad's domain is on while any of its links is not OFF (R294). -/
def setLinkState (s : State) (l st : Nat) : State :=
  let s := wr s R.LNK_STATUS_STATE l 0 st
  let q := l / 4
  setPwrDomain s (288 + q) (if (List.range 4).any (fun i => decide (linkState s (4 * q + i) ≠ 0)) then 2 else 0)

/-- What the choice of a link hashes (R305): CORE and SLOT of a TILE or CREDIT message, else WINDOW and OFFSET[45:6]. -/
def msgLine (m : Msg) : Nat := if m.type = 7 ∨ m.type = 8 then getBits m.word1 0 13 else getBits m.word1 6 46

/-- The link a message with hash input `h` takes (R305). -/
def chooseLink (s : State) (m h : Nat) : Option Nat :=
  match upLinks s m with
  | [] => none
  | [l] => some l
  | l :: ls => some ((l :: ls).getD (Config.linkHash h % (l :: ls).length) l)

/-- Granules of a message, header included (R298). -/
def granules (m : Msg) : Nat := 1 + (m.data.length + 15) / 16

/-! ### Numbers of writes to peers (R149, R150, R306) -/

/-- Key under which the tiles of a source core to a core of another module are numbered (R149). -/
def pairKey (m src core : Nat) : Nat := 32 + (m * 512 + src) * 512 + core

/-- Does a key number writes that go to, or come from, module m. -/
def keyOf (m k : Nat) : Bool := decide (k = m) || (decide (32 ≤ k) && decide ((k - 32) / 262144 = m))

/-- SEQ a is at or before b, modulo 2^16. -/
def seqLe (a b : Nat) : Bool := decide ((b + 65536 - a) % 65536 < 32768)

/-- Number from which a key counts afresh: the start of the second next quarter of the numbers (log entry 120). -/
def freshOrder (n : Nat) : Nat := (n / 16384 + 2) % 4 * 16384

/-- Numbers to a peer start afresh where a write to it was refused or lost (R151, R306; log entry 120). -/
def breakOrders (s : State) (m : Nat) : State :=
  if !SMap.look (fun _ => false) s.lnk.breakTo m then s
  else
    let old := s.lnk.orderTo.filter (fun e => keyOf m e.1 && decide (e.1 ≠ m))
    let nums := old.foldl (fun a e => SMap.put (fun _ => 0) a e.1 (freshOrder e.2)) s.lnk.orderTo
    let nums := SMap.put (fun _ => 0) nums m (freshOrder (SMap.look (fun _ => 0) nums m))
    { s with lnk := { s.lnk with orderTo := nums, breakTo := SMap.put (fun _ => false) s.lnk.breakTo m false } }

/-- Nothing is known of a peer's numbers: the first link to it comes UP with fresh keys. -/
def clearOrders (s : State) (m : Nat) : State :=
  { s with lnk := { s.lnk with
      orderTo := SMap.keep (fun k => !keyOf m k) s.lnk.orderTo
      orderFrom := SMap.keep (fun k => !keyOf m k) s.lnk.orderFrom
      ahead := SMap.keep (fun k => !keyOf m k) s.lnk.ahead
      resync := SMap.put (fun _ => false) s.lnk.resync m false
      barred := SMap.put (fun _ => none) s.lnk.barred m none
      breakTo := SMap.put (fun _ => false) s.lnk.breakTo m false
      tiles := s.lnk.tiles.filter (fun t => decide (t.module ≠ m)) } }

/-- A number of module m under a key arrives: one that lies a quarter or more ahead of the next expected one starts the key
afresh, and what was lost or in part before it is over (log entry 120). -/
def meetOrder (s : State) (m key o : Nat) : State :=
  let d := (o + 65536 - SMap.look (fun _ => 0) s.lnk.orderFrom key) % 65536
  if d < 16384 ∨ 49152 ≤ d then s
  else
    let s := { s with lnk := { s.lnk with
      orderFrom := SMap.put (fun _ => 0) s.lnk.orderFrom key (o / 16384 * 16384)
      ahead := SMap.put (fun _ => []) s.lnk.ahead key [] } }
    if SMap.look (fun _ => false) s.lnk.resync m || (SMap.look (fun _ => none) s.lnk.barred m).isSome then
      { s with lnk := { s.lnk with
          resync := SMap.put (fun _ => false) s.lnk.resync m false
          barred := SMap.put (fun _ => none) s.lnk.barred m none
          tiles := s.lnk.tiles.filter (fun t => decide (t.module ≠ m)) } }
    else s

/-- Absorb ORDERs landed ahead into the next expected one. -/
def absorb : Nat → Nat → List Nat → Nat × List Nat
  | 0, n, l => (n, l)
  | k + 1, n, l => if n ∈ l then absorb k ((n + 1) % 65536) (l.filter (fun x => decide (x ≠ n))) else (n, l)

/-- The write numbered `o` under a key has landed, or will never land (R149, R150); a number behind the next expected one
changes nothing. -/
def landedOrder (s : State) (key o : Nat) : State :=
  if 32768 ≤ (o + 65536 - SMap.look (fun _ => 0) s.lnk.orderFrom key) % 65536 then s else
  let l := o :: SMap.look (fun _ => []) s.lnk.ahead key
  let (n, l) := absorb l.length (SMap.look (fun _ => 0) s.lnk.orderFrom key) l
  { s with lnk := { s.lnk with orderFrom := SMap.put (fun _ => 0) s.lnk.orderFrom key n, ahead := SMap.put (fun _ => []) s.lnk.ahead key l } }

/-- An earlier number than `o` is missing under a key. -/
def orderMissing (s : State) (key o : Nat) : Bool :=
  let d := (o + 65536 - SMap.look (fun _ => 0) s.lnk.orderFrom key) % 65536
  decide (0 < d ∧ d < 32768)

/-- Destination core of a TILE or CREDIT message (R298). -/
def msgCore (m : Msg) : Nat := getBits m.word1 0 9

/-- Number a message as it starts at the egress: writes and atomics per module, tiles per pair of cores (R149, R150, R306). -/
def numberMsg (s : State) (m : Nat) (t : TxMsg) : State × TxMsg :=
  let key := if t.msg.type = 7 then pairKey m t.msg.srcCore (msgCore t.msg) else m
  let o := SMap.look (fun _ => 0) s.lnk.orderTo key
  if t.msg.type = 1 ∨ t.msg.type = 4 ∨ t.msg.type = 7 then
    ({ s with lnk := { s.lnk with
        orderTo := SMap.put (fun _ => 0) s.lnk.orderTo key ((o + 1) % 65536)
        remote := s.lnk.remote.map (fun r => if r.module = m ∧ r.mtag = t.msg.mtag ∧ r.kind = t.msg.type then { r with order := o } else r) } },
     { t with msg := { t.msg with order := o } })
  else (s, t)

/-- The egress to a peer stops, and its numbers start afresh when it resumes (R151, R306). -/
def askBreak (s : State) (m : Nat) : State :=
  { s with lnk := { s.lnk with
      breakTo := SMap.put (fun _ => false) s.lnk.breakTo m true
      pausedOn := SMap.put (fun _ => false) s.lnk.pausedOn m (!(upLinks s m).isEmpty) } }

/-- A message to module m is a final write, not yet sent, that guards a lost write or tile of core `src` (R148, R151). -/
def guardsLost (lost : Msg) (x : TxMsg) : Bool :=
  x.msg.final && decide (x.msg.srcCore = lost.srcCore) &&
    ((decide (lost.type = 7) && decide (x.msg.type = 7) && decide (msgCore x.msg = msgCore lost)) ||
     (decide (lost.type ≠ 7) && decide (x.msg.type = 1)))

/-- Final writes that guard a lost message and have not been sent are discarded, and their commands end with its status
(R151). -/
def dropGuards (s : State) (m : Nat) (lost : Msg) (code : Nat) : State :=
  let waits := SMap.look (fun _ => []) s.lnk.paused m
  let mine := (linkIxs.filter (fun l => decide (linkPeer s l = m))).flatMap (fun l =>
    (linkAt s l).outq.filter (fun x => guardsLost lost x && seqLe lost.order x.msg.order))
  let gone := waits.filter (guardsLost lost) ++ mine
  let s := (linkIxs.filter (fun l => decide (linkPeer s l = m))).foldl (fun s l =>
    onLink s l (fun x => { x with outq := x.outq.filter (fun y => decide (y ∉ mine)) })) s
  let s := { s with lnk := { s.lnk with
    paused := SMap.put (fun _ => []) s.lnk.paused m (waits.filter (fun x => !guardsLost lost x))
    remote := s.lnk.remote.filter (fun r => !(decide (r.module = m) && gone.any (fun x => decide (x.msg.mtag = r.mtag)))) } }
  gone.foldl (fun s x => match x.ring with | some w => failCmd s w code 0 | none => s) s

/-- A message to module m is lost (R303, R309): the command that issued a write, read, atomic or tile fails LINK_DOWN, and
final writes that guard it are discarded (R151). -/
def loseMsg (s : State) (m : Nat) (t : TxMsg) : State :=
  if t.msg.type = 1 ∨ t.msg.type = 2 ∨ t.msg.type = 4 ∨ t.msg.type = 7 then
    let s := if t.msg.type = 7 ∧ t.msg.final = false then s else
      { s with lnk := { s.lnk with remote := s.lnk.remote.filter (fun r => decide (r.mtag ≠ t.msg.mtag)) } }
    let s := if t.msg.type = 2 then s else dropGuards (askBreak s m) m t.msg 0x06
    match t.ring with
    | some w => failCmd s w 0x06 0
    | none => s
  else s

/-- Queue a message on a link. -/
def enqueue (s : State) (l : Nat) (t : TxMsg) : State := onLink s l (fun x => { x with outq := x.outq ++ [t] })

/-- Send a message to a peer module: it waits while the egress is paused for a new mapping (R306), and is lost where no
link to the peer is UP (R303). A CONTROL message takes the lowest-numbered UP link (R305). -/
def sendPeer (s : State) (m : Nat) (t : TxMsg) : State :=
  if SMap.look (fun _ => false) s.lnk.pausedOn m then
    { s with lnk := { s.lnk with paused := SMap.put (fun _ => []) s.lnk.paused m (SMap.look (fun _ => []) s.lnk.paused m ++ [t]) } }
  else
    match (if t.msg.type = 9 then (upLinks s m).head? else chooseLink s m (msgLine t.msg)) with
    | some l =>
      let (s, t) := numberMsg s m t
      enqueue s l t
    | none => loseMsg s m t

/-- A control message of a subtype (R298). -/
def controlMsg (sub flags : Nat) (data : List Byte) : TxMsg :=
  ⟨⟨9, 3, false, false, 0, 0, 0, 0, BitVec.ofNat 64 (sub + flags * 256), data⟩, none⟩

/-- Network row of the router that a link's quad attaches to (R20, R294). -/
def linkRow (l : Nat) : Nat := l / 4 % 12 + 2

/-- Return `n` credits of kind `kind` for slot `slot` of core c to core `core` of module `m` (R120, R123, R300): on the
die as a flight, to a peer as a CREDIT message (its layout beyond CORE and SLOT is log entry 11); a closed or stray one carries the MTAG of the
tile's header. -/
def returnCredit (s : State) (c slot kind n m core tag : Nat) : State :=
  if m = myModule s then
    { s with ord := { s.ord with credits := s.ord.credits ++ [⟨core, targetKey m c slot, kind, n, c / 18⟩] } }
  else
    sendPeer s m
      ⟨⟨8, 3, false, false, 0, c, 0, tag, BitVec.ofNat 64 (core + slot * 512), [BitVec.ofNat 8 kind, BitVec.ofNat 8 n]⟩, none⟩

/-- The module's time master is another module: it is a follower (R312). -/
def isFollower (s : State) : Bool := decide (rd s R.LNK_DOMAIN_TIME_MASTER 0 0 ≠ myModule s)

/-- A follower with no UP link to its master free-runs (R313). -/
def checkHoldover (s : State) : State :=
  let st := rd s R.LNK_TIME_STATUS_STATE 0 0
  if isFollower s && (upLinks s (rd s R.LNK_DOMAIN_TIME_MASTER 0 0)).isEmpty && decide (st = 1 ∨ st = 2) then
    let s := wr s R.LNK_TIME_STATUS_STATE 0 0 3
    let s := { s with lnk := { s.lnk with holdAt := s.utime, good := 0 } }
    if st = 2 then postEvent s none 0x010B 3 0 0 else s
  else s

/-- Commands of gangs that count module m among their members fail with a cause (R315). -/
def failGangs (s : State) (m code : Nat) : State :=
  (List.range 64).foldl (fun s w =>
    if rdB s R.SEQ_RQ_CFG_GANG_EN w 0 && decide (rd s R.SEQ_RQ_GANG_MODULES w 0 / 2 ^ m % 2 = 1) then failCmd s w code 0 else s) s

/-- Egress to a peer after its set of UP links changed (R306): while links remain it waits for what was sent to settle; with
none left what waits is lost (R303), responses owed by the peer are lost, and its gangs fail (R315). -/
def remap (s : State) (m : Nat) : State :=
  let alone := (upLinks s m).isEmpty
  let s := { s with lnk := { s.lnk with pausedOn := SMap.put (fun _ => false) s.lnk.pausedOn m (!alone) } }
  if !alone then s
  else
    let waits := SMap.look (fun _ => []) s.lnk.paused m
    let s := { s with lnk := { s.lnk with paused := SMap.put (fun _ => []) s.lnk.paused m [] } }
    failGangs (waits.foldl (fun s t => loseMsg s m t) s) m 0x06

/-- Requests to a peer that cannot be answered any more are lost (R309). -/
def loseRemote (s : State) (m : Nat) : State :=
  let gone := s.lnk.remote.filter (fun r => decide (r.module = m))
  let s := gone.foldl (fun s r => match r.ring with | some w => failCmd s w 0x06 0 | none => s) s
  { s with lnk := { s.lnk with remote := s.lnk.remote.filter (fun r => decide (r.module ≠ m)) } }

/-- What follows a link leaving UP, by quiescing or not: the exchange of time on it is discarded, the egress is remapped, and a
follower may lose its master (R306, R313, R318). -/
def leftUp (s : State) (l : Nat) : State :=
  checkHoldover (remap { s with lnk := { s.lnk with sync := s.lnk.sync.filter (fun y => decide (y.2.2 ≠ l)) } } (linkPeer s l))

/-- Messages with bytes in a frame. -/
def frameMsgs (f : SentFrame) : List TxMsg := f.cont.toList ++ f.msgs

/-- A link ends in DOWN with a cause and nothing else: its runtime record starts afresh, messages that it accepted stay to be
applied. -/
def linkStop (s : State) (l cause : Nat) : State :=
  let x := linkAt s l
  let was := decide (linkState s l = 4 ∨ linkState s l = 5)
  setLink (wr (setLinkState s l 6) R.LNK_STATUS_DOWN_CAUSE l 0 cause) l
    { LinkRt.fresh with inq := if was then x.inq else [], downAt := s.utime, wasUp := x.wasUp || was }

/-- Key under which a peer's write in flight is numbered (R149, R150). -/
def flightKey (f : Flight) : Option (Nat × Nat) :=
  match f.src, f.dst with
  | .peer m, .mem _ => some (m, m)
  | .peerCore m c, .tile k _ => some (m, pairKey m c k)
  | _, _ => none

/-- A final write of a peer is discarded here with a status: its number is not waited for, and the peer is told (R151). -/
def discardFinal (s : State) (f : Flight) (status : Nat) : State :=
  let s := dropFlight s f.id
  match flightKey f, f.order, f.mtag with
  | some (m, key), some o, some (_, tag) =>
    sendPeer (landedOrder s key o) m ⟨⟨10, 1, false, false, 0, 0, o, tag, BitVec.ofNat 64 status, []⟩, none⟩
  | _, _, _ => s

/-- Final writes of a peer that are held here when a link to it is lost guard writes that did not come (R151; log entry 120). -/
def dropPeerHeld (s : State) (m : Nat) : State :=
  (s.ord.flights.filter (fun f => f.final && (decide (f.leg = .heldAtPort) || decide (f.leg = .returned)) &&
    (match flightKey f with | some k => decide (k.1 = m) | none => false))).foldl (fun s f => discardFinal s f 0x06) s

/-- A link leaves UP, or fails before it (R309, R318): messages not acknowledged are lost, the egress to the peer is
remapped, and the loss of an UP link is reported. -/
def linkDown (s : State) (l cause : Nat) : State :=
  let x := linkAt s l
  let m := linkPeer s l
  let was := decide (linkState s l = 4 ∨ linkState s l = 5)
  let s := linkStop s l cause
  if !was then s
  else
    let s := (x.sent.flatMap frameMsgs ++ (match x.heldFrame with | some f => frameMsgs f | none => []) ++
      (match x.heldMsg with | some t => [t.1] | none => []) ++ x.txCont.toList ++ x.outq).dedup.foldl (fun s t => loseMsg s m t) s
    let s := if (upLinks s m).isEmpty then loseRemote s m else s
    let s := leftUp { s with lnk := { s.lnk with resync := SMap.put (fun _ => false) s.lnk.resync m true } } l
    let s := dropPeerHeld s m
    let s := postEvent s none 0x0109 l cause m
    logErr s ⟨0x0006, 3, 5, l, none, none, none, none, cause, m⟩

end Sys2Proof.Machine
end

