-- ==== Sys2Proof/Machine/Flags.lean ====
section
/-!
DEFINITION. Sys2Proof/Machine/Flags.lean: the arithmetic of a harp's cells with its exception flags (R42 to R46, R88 to
R91), and the exception words (R54, R92 to R94, R252).
-/
namespace Sys2Proof.Machine

/-- Harp flag bits in the order of HRP_EXC_LAST. -/
def hfInvalid : Nat := 1
def hfOverflow : Nat := 2
def hfNanIn : Nat := 4
def hfInfIn : Nat := 8

/-- What one cell sees in some products of a block: the facts that R88 and R91 name. -/
structure CellFacts where
  nanScale : Bool
  nanEl : Bool
  infEl : Bool
  zeroInf : Bool
  plusInf : Bool
  minusInf : Bool
  scaleZero : Bool
deriving DecidableEq, Repr

def CellFacts.of (ab : List (FV × FV)) (sa sb : Nat) : CellFacts :=
  let prods := ab.map (fun x => x.1.mul x.2)
  { nanScale := decide (sa = 0xFF ∨ sb = 0xFF)
    nanEl := ab.any (fun x => x.1.isNan || x.2.isNan)
    infEl := ab.any (fun x => x.1.isInf || x.2.isInf)
    zeroInf := ab.any (fun x => (x.1.isZero && x.2.isInf) || (x.1.isInf && x.2.isZero))
    plusInf := prods.any (fun p => p.isInf && !p.neg?)
    minusInf := prods.any (fun p => p.isInf && p.neg?)
    scaleZero := decide (sa ≠ 0xFF ∧ sb ≠ 0xFF ∧ (sa = 0 ∨ sb = 0)) }

/-- Rows 3 to 5 of R88 hold: an invalid operation. -/
def CellFacts.invalid (f : CellFacts) : Bool :=
  f.zeroInf || (f.plusInf && f.minusInf) || ((f.plusInf || f.minusInf) && f.scaleZero)

/-- Flags of a block in one cell: every condition of R88 that holds sets its flag, and R91's meaning of NAN_IN and
INF_IN. -/
def CellFacts.flags (f : CellFacts) : Nat :=
  (if f.invalid then hfInvalid else 0) ||| (if f.nanScale || f.nanEl then hfNanIn else 0) |||
  (if f.infEl || f.plusInf || f.minusInf then hfInfIn else 0)

/-- Contribution of a block to a cell (R88): the first condition that holds decides. -/
def blockValue (ab : List (FV × FV)) (sa sb : Nat) : FV :=
  let f := CellFacts.of ab sa sb
  if f.nanScale || f.nanEl || f.invalid then .nan false
  else if f.plusInf then .inf false
  else if f.minusInf then .inf true
  else
    match ab.map (fun x => x.1.mul x.2) with
    | [] => .fin false 0 0
    | p :: ps => ((ps.foldl FV.add p).mul (sx8Val sa)).mul (sx8Val sb)

/-- Add a contribution to an F32 accumulator as one operation with one rounding (R44, R45, R88): the new accumulator and
the flags of the accumulator cases. A signalling accumulator, which only a fill can load, is the first case of R88: it stays
a NaN with no flag, since R91 names the rows that set INVALID (DEDUCED, log entry 106). -/
def accumulate (acc : Nat) (v : FV) : Nat × Nat :=
  let a := f32.unpack acc
  let r := a.add v
  let (c, fl) := f32.pack false r
  (c, (if !a.isNan && !v.isNan && r.isNan then hfInvalid else 0) ||| (if fl / 4 % 2 = 1 then hfOverflow else 0))

/-- One product of a 16-bit-rate pass (R45, R89): its value with the fine scales, and its flags. -/
def product16 (a b : FV) (sa sb : Nat) : FV × Nat :=
  let f := CellFacts.of [(a, b)] sa sb
  let sig := a.isSig || b.isSig
  (blockValue [(a, b)] sa sb, f.flags ||| (if sig then hfInvalid ||| hfNanIn else 0))

/-- Signed value of an integer operand with its zero point subtracted (R43, R75). -/
def intOperand (f code zp : Nat) : Int :=
  if f = 0xB then (code : Int) - zp
  else if f = 0xD then (code : Int) - (zp % 16 : Nat)
  else intVal f code

/-- Add an integer block sum to an I32 accumulator with saturation (R46). -/
def accumulateInt (acc : Nat) (v : Int) : Nat × Nat :=
  let (z, sat) := satI32 (intVal 0x9 acc + v)
  (intCode 0x9 z, if sat then hfOverflow else 0)

/-- HRP_EXC_LAST's low half and row mask of a drained set (R54). -/
def excLast (flags tag rows : Nat) : W64 :=
  BitVec.ofNat 64 (flags % 16 + tag % 65536 * 2 ^ 16 + rows % 2 ^ 32 * 2 ^ 32)

/-- The tile exception word (R92): harp flags, epilogue flags in bits [7:4], poison, invalid scale, tag, row mask. -/
def excWord (flags epi : Nat) (poison scaleInvalid : Bool) (tag rows : Nat) : W64 :=
  BitVec.ofNat 64 (flags % 16 + epi % 16 * 16 + (if poison then 256 else 0) + (if scaleInvalid then 512 else 0) +
    tag % 65536 * 2 ^ 16 + rows % 2 ^ 32 * 2 ^ 32)

/-- Epilogue flag bits (bits [7:4] of R92): EPI_INVALID 1, EPI_OVERFLOW 2, EPI_NAN_IN 4, EPI_INF_IN 8, from the flags of
an operation on values that did not come from the scratchpad (R93). -/
def epiFlags (fl : Nat) : Nat := (if fl % 2 = 1 then 1 else 0) ||| (if fl / 4 % 2 = 1 then 2 else 0)

/-- EPI_NAN_IN and EPI_INF_IN of a value that an epilogue stage reads from the scratchpad or memory (R93). -/
def epiRead (v : FV) : Nat := (if v.isNan then 4 else 0) ||| (if v.isInf then 8 else 0) ||| (if v.isSig then 1 else 0)

/-- Flags of a fiddle instruction join FDL_FLAGS and the command's exception field (R62, R252). -/
def fdlFlags (s : State) (c fl : Nat) : State :=
  let off := R.FDL_FLAGS_INVALID.at c 0
  let s := setReg s off (reg s off ||| BitVec.ofNat 64 (fl % 128))
  match (coreAt s c).ring with
  | some w => orExceptions s w (fl % 128 * 1024)
  | none => s

end Sys2Proof.Machine
end

