-- ==== Sys2Proof/Machine/Harp.lean ====
section
/-!
DEFINITION. Sys2Proof/Machine/Harp.lean: the harp commands (R33 to R57), from PASS_ISSUE to COMMAND_STOPPED.
-/
namespace Sys2Proof.Machine

/-- Set `n` of a harp. -/
def Harp.set (h : Harp) (n : Nat) : AccSet := if n = 0 then h.set0 else h.set1

def Harp.putSet (h : Harp) (n : Nat) (a : AccSet) : Harp := if n = 0 then { h with set0 := a } else { h with set1 := a }

/-- PASS_ISSUE (R56): the sequencer writes a descriptor into the issue queue; it stalls while four wait. -/
def execPassIssue (c : CoreIx) (h : HarpIx) (desc : List W64) (s : State) : Res :=
  let x := harpAt s c h
  whenDo (canIssue s c && decide (x.queue.length < 4)) s
    (count (setHarp s c h { x with queue := x.queue ++ [desc] }) c 56 1)

/-- The job of a core is asked to stop, by a pre-emption or an abort (R259, R263). -/
def stopAsked (s : State) (c : Nat) : Bool :=
  match (coreAt s c).ring with
  | some w => (ringAt s w).preempt || (match (ringAt s w).cmd with | some d => d.aborting | none => false)
  | none => false

/-- A core stops at a point of R259 step 1; a stop for a pre-emption takes a snapshot (R427). -/
def stopHere (s : State) (c : Nat) : State :=
  if (coreAt s c).stopped then s
  else
    let s := onCore s c (fun x => { x with stopped := true })
    match (coreAt s c).ring with
    | some w => if (ringAt s w).preempt then takeSnap s c 4 false else s
    | none => s

/-- Does a waiting descriptor start while its job is asked to stop: only as the pass that takes up an undrained set or a
held partner (R48, R49). -/
def startsUnderStop (x : Core) (prev : Option (List W64)) : Bool :=
  match prev with
  | none => false
  | some q => !pDrain q || passIsPartner x q

/-- A core has stopped at a point of R259: further descriptors start only as R48 allows. -/
def askedToStop (s : State) (c : Nat) : Bool := (coreAt s c).stopped

/-- A checked pass as it enters the harp: the opposite set of the previous pass, or its set for CHAIN (R38, R40). -/
def passOf (x : Core) (h : Harp) (d : List W64) : Pass :=
  let set := match h.prev with
    | none => 0
    | some _ => if pFill d = 2 then h.prevSet else 1 - h.prevSet
  let key := match h.active with
    | some p => 1 - p.key
    | none => 0
  ⟨d, set, 0, false, [], [], passBuffers x d, (passBuffers x d).isEmpty, decide (pFill d = 2), key⟩

/-- Owner under which a pass's footprint is registered (R144). -/
def passOwner (c h : Nat) (p : Pass) : Nat := hk c h * 2 + p.key

/-- PASS_HEAD_CHECK (R57, R244, R14): the descriptor at the head of the issue queue fails its command (PLACEMENT_INVALID
for a harp outside HARP_MASK, DESC_INVALID for a reserved encoding), waits for footprint entries, faults the overlap check
(R145), or starts. -/
def execPassHeadCheck (c : CoreIx) (h : HarpIx) (s : State) : Res :=
  let x := coreAt s c
  let hp := harpAt s c h
  match hp.queue with
  | [] => .next s
  | d :: rest =>
    if hp.next.isSome || !x.running || (askedToStop s c && !startsUnderStop x hp.prev) then .next s
    else if x.harpMask / 2 ^ (h : Nat) % 2 = 0 then .next (failCore s c 0x1E c)
    else if passFieldsBad d || passChainBad x d || passPlaceBad x hp.prev d then .next (failCore s c 0x1D 0)
    else
      let p := passOf x hp d
      match register s c (passFootprint (passOwner c h p) h d) with
      | .waits => .next s
      | .faults t => .next t
      | .ok t => .next (setHarp t c h { hp with queue := rest, next := some p, prev := some d, prevSet := p.set })

/-- Landing buffers that hold the fill tile of a LOAD pass are full (R120). -/
def fillReady (x : Core) (d : List W64) : Bool := decide (pFill d ≠ 1) || (buffersAt x (pFillAddr d)).all (bufferFull x)

/-- SET_FILL_START (R37, R38): the fill of the next pass's set begins once the set is empty, and, for a fill tile in a
landing buffer, once the buffer is full (R120). -/
def execSetFillStart (c : CoreIx) (h : HarpIx) (s : State) : Res :=
  let hp := harpAt s c h
  match hp.next with
  | none => .next s
  | some p =>
    let ok := decide (pFill p.desc ≠ 2) && !p.filled && decide ((hp.set p.set).use = .empty) && fillReady (coreAt s c) p.desc
    whenDo ok s (setHarp s c h (hp.putSet p.set { AccSet.fresh with use := .filling }))

/-- Fill tile of a LOAD pass: 32 rows of 128 B in tile form (R38, R136). -/
def fillTile (p : Spd) (c o : Nat) : SMap W32 :=
  SMap.putAll (fun _ => (0 : W32)) [] ((List.range 1024).map (fun i =>
    (i, BitVec.ofNat 32 (leNat ((List.range 4).map (fun b => spdByte p c (tileByte o (i / 32) (i % 32 * 4 + b))))))))

def fillPoison (p : Spd) (c o : Nat) : Bool := (List.range 32).any (fun t => spdPoison p c (tileByte o t 0) 128)

/-- Read a zero-point vector, if the format carries one (R43). -/
def zpRead (p : Spd) (c f o : Nat) (old : List Nat) : List Nat :=
  if f = 0xB ∨ f = 0xD then (List.range 32).map (fun i => (spdByte p c (o + i)).toNat) else old

/-- Read the zero points of a pass for the set it works in. -/
def loadZero (s : State) (c : Nat) (d : List W64) (a : AccSet) : AccSet :=
  { a with zpA := zpRead s.spd c (pFmtA d) (pZpA d) a.zpA, zpB := zpRead s.spd c (pFmtB d) (pZpB d) a.zpB }

/-- Zero-point vectors of a pass (R43). -/
def zeroRanges (d : List W64) : List (Nat × Nat) :=
  (if pFmtA d = 0xB ∨ pFmtA d = 0xD then [(pZpA d, 32)] else []) ++ (if pFmtB d = 0xB ∨ pFmtB d = 0xD then [(pZpB d, 32)] else [])

/-- Byte ranges that a pass's fill reads: the fill tile of LOAD, and the zero-point vectors of a pass that fills (R43,
R136). -/
def fillRanges (d : List W64) : List (Nat × Nat) :=
  (if pFill d = 1 then (List.range 32).map (fun t => (tileByte (pFillAddr d) t 0, 128)) else []) ++ zeroRanges d

def zpPoison (p : Spd) (c : Nat) (d : List W64) : Bool :=
  ((pFmtA d = 0xB ∨ pFmtA d = 0xD) && spdPoison p c (pZpA d) 32) || ((pFmtB d = 0xB ∨ pFmtB d = 0xD) && spdPoison p c (pZpB d) 32)

/-- Reads of a pass's scratchpad ranges: the code, the watchpoints and their counters (R142, R432). -/
def passReads (s : State) (c h : Nat) (d : List W64) (rs : List (Nat × Nat)) : State :=
  rs.foldl (fun s r => spdAccess s c r.1 r.2 0 false h (pTag d)) s

/-- SET_FILL_DONE (R37, R38, R43): the set holds its initial values, its exception state is clear and the zero-point
vectors are read. A watchpoint that halts the command on one of these reads leaves nothing to fill (R48). -/
def execSetFillDone (c : CoreIx) (h : HarpIx) (s : State) : Res :=
  match (harpAt s c h).next with
  | none => .next s
  | some p =>
    if ((harpAt s c h).set p.set).use ≠ .filling then .next s
    else
      let s := passReads s c h p.desc (fillRanges p.desc)
      let hp := harpAt s c h
      if hp.next.isNone then .next s
      else
        let load := decide (pFill p.desc = 1)
        let acc := if load then fillTile s.spd c (pFillAddr p.desc) else []
        let bad := (load && fillPoison s.spd c (pFillAddr p.desc)) || zpPoison s.spd c p.desc
        let a := loadZero s c p.desc { AccSet.fresh with use := .active, acc := acc, poison := bad, desc := p.desc }
        let s := if load then countUnits s c 64 64 4096 else s
        let s := setHarp s c h { hp.putSet p.set a with next := some { p with filled := true } }
        match bad, (coreAt s c).ring with
        | true, some w => .next (notePoison s w none)
        | _, _ => .next s

/-! ### K steps (R36, R44 to R46, R55) -/

/-- Element codes of one K step of an operand over its lanes. -/
def stepColumn (p : Spd) (c f : Nat) (orient : Bool) (o lanes k : Nat) : List Nat :=
  (List.range lanes).map (fun l => operandElem p c f orient o l k)

def stepPoison (p : Spd) (c f : Nat) (orient : Bool) (o lanes k : Nat) : Bool :=
  (List.range lanes).any (fun l => operandPoison p c f orient o l k)

/-- Fine scale code of a lane and block; 1.0 (0x78) where the operand carries none (R44, R137). -/
def scaleCode (p : Spd) (c : Nat) (scaled : Bool) (o kb l : Nat) : Nat :=
  if scaled then (spdByte p c (o + 32 * kb + l)).toNat else 0x78

def scalePoison (p : Spd) (c : Nat) (scaled : Bool) (o kb lanes : Nat) : Bool := scaled && spdPoison p c (o + 32 * kb) lanes

/-- Element (i, j) pairs of the block taken so far. -/
def cellPairs (d : List W64) (ba bb : List (List Nat)) (i j : Nat) : List (FV × FV) :=
  List.zipWith (fun a b => (fmtVal (pFmtA d) (a.getD i 0), fmtVal (pFmtB d) (b.getD j 0))) ba bb

/-- Products of integer elements of the block. -/
def cellSum (d : List W64) (zpA zpB : List Nat) (ba bb : List (List Nat)) (i j : Nat) : Int :=
  (List.zipWith (fun a b => intOperand (pFmtA d) (a.getD i 0) (zpA.getD i 0) * intOperand (pFmtB d) (b.getD j 0) (zpB.getD j 0))
    ba bb).foldl (· + ·) 0

/-- Cells inside ROWS x COLS. -/
def cells (d : List W64) : List (Nat × Nat) :=
  (List.range (pRows d)).flatMap (fun i => (List.range (pCols d)).map (fun j => (i, j)))

/-- What a K step does to the active set: the new set, and the rows in which an invalid operation occurred in that step
(R55, R91). `ba`, `bb` hold the block with the step's column and row at their ends. -/
def stepCells (p : Spd) (c : Nat) (d : List W64) (k : Nat) (ba bb : List (List Nat)) (a : AccSet) :
    AccSet × List Nat :=
  let kb := k / 32
  let last := decide (k % 32 = 31)
  let sa := fun i => scaleCode p c (pScaledA d) (pScaleA d) kb i
  let sb := fun j => scaleCode p c (pScaledB d) (pScaleB d) kb j
  let get := fun (acc : SMap W32) i j => (SMap.look (fun _ => 0) acc (32 * i + j)).toNat
  let put := fun (acc : SMap W32) i j v => SMap.put (fun _ => 0) acc (32 * i + j) (BitVec.ofNat 32 v)
  (cells d).foldl (fun (st : AccSet × List Nat) ij =>
    let (a, bad) := st
    let (i, j) := ij
    if pIsInt d then
      if last then
        let (v, fl) := accumulateInt (get a.acc i j) (cellSum d a.zpA a.zpB ba bb i j)
        ({ a with acc := put a.acc i j v, flags := a.flags ||| fl }, bad)
      else (a, bad)
    else if pClass d = 16 then
      let (x, y) := (fmtVal (pFmtA d) ((ba.getLast?.getD []).getD i 0), fmtVal (pFmtB d) ((bb.getLast?.getD []).getD j 0))
      let (v, f1) := product16 x y (sa i) (sb j)
      let (r, f2) := accumulate (get a.acc i j) v
      let fl := f1 ||| f2
      let inv := decide (fl % 2 = 1)
      ({ a with acc := put a.acc i j r, flags := a.flags ||| fl,
                rows := if inv then a.rows ||| 2 ^ i else a.rows }, if inv then bad ++ [i] else bad)
    else
      let ab := cellPairs d ba bb i j
      let f := CellFacts.of ab (sa i) (sb j)
      if last then
        let (r, f2) := accumulate (get a.acc i j) (blockValue ab (sa i) (sb j))
        let fl := f.flags ||| f2
        let inv := decide (fl % 2 = 1)
        ({ a with acc := put a.acc i j r, flags := a.flags ||| fl,
                  rows := if inv then a.rows ||| 2 ^ i else a.rows }, if inv then bad ++ [i] else bad)
      else (a, if f.invalid then bad ++ [i] else bad)) (a, [])

/-- A memory, translation or link request of a core is outstanding (R258). -/
def requestOut (s : State) (c : Nat) : Bool :=
  s.ord.flights.any (fun f => decide (f.src = .core c)) || s.ord.reads.any (fun r => decide (r.core = c ∧ r.kind ≤ 1)) ||
  s.lnk.remote.any (fun r => decide (r.core = c)) || (coreAt s c).gathers.any (fun g => g.waits.isNone) ||
  s.ms.walks.any (fun k => match k.who with
    | .core d => decide ((d : Nat) = c)
    | .mover d => decide ((d : Nat) = c)
    | _ => false)

/-- Stall a harp for one counted reason (R36): the counter, HRP_STATUS, THROTTLE_CYCLES and, where a request of the core
has exceeded its uncontended bound (a free value), CONTENTION_CYCLES (R258). -/
def stall (s : State) (c h : Nat) (reason : Nat) : State :=
  let s := count s c (48 + reason) 1
  let s := wr s R.HRP_STATUS_STALL_REASON c h reason
  match (coreAt s c).ring with
  | none => s
  | some w =>
    if reason = 1 then
      let s := wr s R.SEQ_RQ_THROTTLE_CYCLES w 0 (rd s R.SEQ_RQ_THROTTLE_CYCLES w 0 + 1)
      onRing s w (fun r => { r with cmd := r.cmd.map (fun x => { x with throttle := x.throttle + 1 }) })
    else if (reason = 4 ∨ reason = 5) ∧ requestOut s c = true then
      let (v, s) := takeFree s
      if v.toNat % 2 = 1 then
        let s := wr s R.SEQ_RQ_CONTEND_CYCLES w 0 (rd s R.SEQ_RQ_CONTEND_CYCLES w 0 + 1)
        onRing s w (fun r => { r with cmd := r.cmd.map (fun x => { x with contend := x.contend + 1 }) })
      else s
    else s

/-- The lane-group of a stall run ends: its trace record (R435 kind 8). -/
def endStallRun (s : State) (c h : Nat) : State :=
  let (r, n) := SMap.look (fun _ => ((0 : Nat), (0 : Nat))) s.obs.stallRun (hk c h)
  if n = 0 then s
  else
    let s := { s with obs := { s.obs with stallRun := SMap.put (fun _ => ((0 : Nat), (0 : Nat))) s.obs.stallRun (hk c h) (0, 0) } }
    if rd s R.CNT_TRACE_CTL_STALL_MIN c 0 ≤ n then traceRec s c 8 h (BitVec.ofNat 64 (r + n % 2 ^ 32 * 2 ^ 16)) 0 else s

/-- One more cycle of a stall run; a change of reason ends the run. -/
def runStall (s : State) (c h reason : Nat) : State :=
  let (r, n) := SMap.look (fun _ => ((0 : Nat), (0 : Nat))) s.obs.stallRun (hk c h)
  let s := if n ≠ 0 ∧ r ≠ reason then endStallRun s c h else s
  let n := if r = reason then n else 0
  stall { s with obs := { s.obs with stallRun := SMap.put (fun _ => ((0 : Nat), (0 : Nat))) s.obs.stallRun (hk c h) (reason, n + 1) } }
    c h reason

/-- A consumer of buffer b (slot * 8 + buffer) takes its last K step: the count falls, and at zero the buffer is released
and a credit returns (R120). -/
def consumeBuffer (s : State) (c b : Nat) : State :=
  let x := coreAt s c
  let sl := SMap.look (fun _ => Slot.fresh) x.slots (b / 8)
  let n := SMap.look (fun _ => 0) sl.full (b % 8)
  if n = 0 then s
  else
    let sl := { sl with full := SMap.put (fun _ => 0) sl.full (b % 8) (n - 1) }
    let s := setCore s c { x with slots := SMap.put (fun _ => Slot.fresh) x.slots (b / 8) sl }
    if n = 1 then returnCredit s c (b / 8) 1 1 (slotSrcModule sl.words) (slotSrcCore sl.words) 0 else s

/-- The pass of a harp takes its last K step (R39, R109, R120): buffers and footprints are released; its set stays
undrained, is held as a partner, or falls due to drain, alone or with its partner. -/
def endPass (s : State) (c h : Nat) (p : Pass) : State :=
  let s := p.bufs.foldl (fun s b => consumeBuffer s c b) s
  let s := release s c (passOwner c h p)
  let x := coreAt s c
  let hp := harpAt s c h
  let hp := { hp with active := none }
  setHarp s c h
    (if !pDrain p.desc then hp
     else if passIsPartner x p.desc then { hp with partner := some p.set }
     else { hp with due := hp.due ++ [⟨p.set, hp.partner⟩], partner := none })

/-- The trap of R55: the record while none is held, the pass abandoned, the command failed with TRAPPED and the K step in
DETAIL. -/
def trap (s : State) (c h : Nat) (p : Pass) (row : Nat) : State :=
  let kstep := p.k + 32 * pKOffset p.desc
  let s :=
    if rdB s R.HRP_TRAP_VALID c h then s else
      let s := wr s R.HRP_TRAP_VALID c h 1
      let s := wr s R.HRP_TRAP_ROW c h row
      let s := wr s R.HRP_TRAP_ROW_BLOCK c h (pRowBlock p.desc)
      let s := wr s R.HRP_TRAP_COL_BLOCK c h (pColBlock p.desc)
      let s := wr s R.HRP_TRAP_K_K_STEP c h kstep
      wr s R.HRP_TRAP_K_PASS_TAG c h (pTag p.desc)
  let s := failCore s c 0x08 kstep
  onHarp s c h (fun x => { x with trapAt := some s.utime })

/-- Scratchpad ranges of one K step's operand bytes. -/
def stepRanges (d : List W64) (k : Nat) : List (Nat × Nat) :=
  let op := fun (f : Nat) (orient : Bool) (o lanes : Nat) =>
    if orient then (List.range lanes).map (fun l => (rowByte o l (fmtBits f * k / 8), (fmtBits f * k % 8 + fmtBits f + 7) / 8))
    else [(stepByte (fmtBits f) o k 0, packedBytes (fmtBits f) lanes)]
  op (pFmtA d) (pOrientA d) (pA d) (pRows d) ++ op (pFmtB d) (pOrientB d) (pB d) (pCols d)

/-- Fine scales that a step reads as the first of its block, and the zero points that the first step of a CHAIN pass reads
(R43, R137). -/
def sideRanges (p : Pass) : List (Nat × Nat) :=
  (if p.k % 32 = 0 ∧ pScaledA p.desc then [(pScaleA p.desc + p.k, 32)] else []) ++
  (if p.k % 32 = 0 ∧ pScaledB p.desc then [(pScaleB p.desc + p.k, 32)] else []) ++
  (if p.k = 0 ∧ pFill p.desc = 2 then zeroRanges p.desc else [])

/-- The step's reads. -/
def stepReads (s : State) (c h : Nat) (p : Pass) : State :=
  passReads s c h p.desc (stepRanges p.desc p.k ++ sideRanges p)

/-- An operand, scale or zero point that the step reads is poisoned (R53). -/
def stepBad (s : State) (c : Nat) (p : Pass) : Bool :=
  let d := p.desc
  stepPoison s.spd c (pFmtA d) (pOrientA d) (pA d) (pRows d) p.k ||
    stepPoison s.spd c (pFmtB d) (pOrientB d) (pB d) (pCols d) p.k ||
    scalePoison s.spd c (pScaledA d) (pScaleA d) (p.k / 32) (pRows d) ||
    scalePoison s.spd c (pScaledB d) (pScaleB d) (p.k / 32) (pCols d) ||
    (decide (p.k = 0 ∧ pFill d = 2) && zpPoison s.spd c d)

/-- MAC counters by class and by each operand's format once, bytes read, and the position in HRP_PASS (R424). -/
def stepCount (s : State) (c h : Nat) (p : Pass) : State :=
  let d := p.desc
  let macs := pRows d * pCols d
  let s := countUnits s c (if pClass d = 4 then 2 else if pClass d = 8 then 3 else 4) 256 macs
  let s := countUnits s c (16 + pFmtA d) 256 macs
  let s := if pFmtB d = pFmtA d then s else countUnits s c (16 + pFmtB d) 256 macs
  let s := countUnits s c 64 64 ((stepRanges d p.k).foldl (fun n r => n + r.2) 0)
  let narrow := (if p.k % 32 = 0 ∧ pScaledA d then 32 else 0) + (if p.k % 32 = 0 ∧ pScaledB d then 32 else 0)
  let s := if narrow = 0 then s else countUnits s c 66 64 narrow
  let s := wr s R.HRP_PASS_PASS_TAG c h (pTag d)
  let s := wr s R.HRP_PASS_ROW_BLOCK c h (pRowBlock d)
  let s := wr s R.HRP_PASS_COL_BLOCK c h (pColBlock d)
  wr s R.HRP_PASS_BLOCK c h (p.k / 32)

/-- How a step ends: with a trap, with the next step to take, or with the end of the pass. -/
def stepEnd (s : State) (c h : Nat) (p : Pass) (hp : Harp) (a : AccSet) (inv : List Nat) (ba bb : List (List Nat)) : State :=
  match pTrap p.desc, inv with
  | true, i0 :: is => trap s c h p (is.foldl min i0)
  | _, _ =>
    let full := decide (p.k % 32 = 31)
    let q := { p with k := p.k + 1, blkA := if full then [] else ba, blkB := if full then [] else bb }
    let s := setHarp s c h ({ hp with active := some q }.putSet p.set a)
    if q.k = pK p.desc then endPass s c h q else s

/-- One K step of the active pass (R36): the column of A and the row of B join the block, the cells are updated at the
points of R44 to R46, a trap abandons the pass, and the last step ends it. -/
def takeStep (s : State) (c h : Nat) : State :=
  match (harpAt s c h).active with
  | none => s
  | some p =>
    let d := p.desc
    let s := stepReads s c h p
    if (harpAt s c h).active.isNone then s else
    let hp := harpAt s c h
    let a := if p.k = 0 ∧ pFill d = 2 then loadZero s c d (hp.set p.set) else hp.set p.set
    let bad := stepBad s c p
    let ba := p.blkA ++ [stepColumn s.spd c (pFmtA d) (pOrientA d) (pA d) (pRows d) p.k]
    let bb := p.blkB ++ [stepColumn s.spd c (pFmtB d) (pOrientB d) (pB d) (pCols d) p.k]
    let r := stepCells s.spd c d p.k ba bb a
    let s := match bad, (coreAt s c).ring with
      | true, some w => notePoison s w none
      | _, _ => s
    stepEnd (stepCount s c h p) c h p hp { r.1 with poison := r.1.poison || bad, desc := d } r.2 ba bb

/-- Promote the checked pass of a harp to active once its set is ready and its buffers are full. -/
def promote (s : State) (c h : Nat) (p : Pass) : State :=
  let hp := harpAt s c h
  let s := setHarp (wr s R.HRP_STATUS_ACTIVE_SET c h p.set) c h { hp with next := none, active := some p }
  traceRec s c 3 h (BitVec.ofNat 64 (pTag p.desc + pRowBlock p.desc * 2 ^ 16 + pColBlock p.desc * 2 ^ 32))
    (BitVec.ofNat 64 (pKBlocks p.desc))

/-- Rail region of a core: two rows of 18 (R354). -/
def regionOf (c : Nat) : Nat := c / 36

/-- Keys of a partition's own duties: against POWER_W, and against its share of region k's window limits (R277, R357). -/
def powerKey (p : Nat) : Nat := p
def shareKey (p k : Nat) : Nat := 16 + p * 8 + k

/-- Duty of a core in sixteenths: its region's, and in isolation mode no more than its partition's own (R277, R354, R357). -/
def dutyOf (s : State) (c : Nat) : Nat :=
  let own (k : Nat) : Nat := SMap.look (fun _ => 16) s.pwr.partDuty k
  let d := rd s R.PWR_REGION_STAT_DUTY (regionOf c) 0
  match rdB s R.PRT_ISO_STATUS_ACTIVE 0 0, coreOwner s c with
  | true, some p => min d (min (own (powerKey p)) (own (shareKey p (regionOf c))))
  | _, _ => d

/-- The first stall reason beyond the power controller and the admission gate that holds for a harp's pass, 0 where none does (R36).
A pass whose set does not hold its fill waits for the set, or, where the set is empty and the fill tile is still arriving, for that
tile (R37, R120). -/
def passReason (x : Core) (feedersReady : Bool) (hp : Harp) : Nat :=
  match hp.active, hp.next with
  | none, some p =>
    if !p.filled then (if (hp.set p.set).use = .empty ∧ !fillReady x p.desc then 4 else 3)
    else if !p.ready || !p.bufs.all (bufferFull x) then 4
    else if !feedersReady then 5 else 0
  | _, _ => if !feedersReady then 5 else 0

/-- The first stall reason that holds for a harp in a cycle, in the table's order, 0 where none does (R36); a gated harp that is not
admitted counts ADMISSION (R359). -/
def stallReason (s : State) (c frameCycle : Nat) (feedersReady : Bool) (hp : Harp) : Nat :=
  if dutyOf s c ≤ frameCycle then 1
  else if hp.gated then 2
  else passReason (coreAt s c) feedersReady hp

/-- A gated harp for whose next K step every other condition holds asks for admission (R360). -/
def askAdmission (s : State) (c h r : Nat) (feedersReady : Bool) : State :=
  if r = 2 ∧ passReason (coreAt s c) feedersReady (harpAt s c h) = 0 then onHarp s c h (fun x => { x with asking := true }) else s

/-- A pass of a harp waits in CREDIT before its first K step, where the harp holds no set that a stop would divide (R36, R49,
R122, R259). -/
def inCredit (x : Core) (hp : Harp) : Bool :=
  match hp.active, hp.next with
  | none, some p =>
    decide (pFill p.desc ≠ 2) && hp.partner.isNone &&
    (if p.filled then !p.ready || !p.bufs.all (bufferFull x) else decide ((hp.set p.set).use = .empty) && !fillReady x p.desc)
  | _, _ => false

/-- A core whose job is asked to stop stops where one of its passes waits in CREDIT (R259), at the first cycle counted so (DEDUCED, log
entry 138). -/
def creditStop (s : State) (c : Nat) : State :=
  let x := coreAt s c
  if stopAsked s c && x.running && !x.ending && !x.ended && harpIxs.any (fun h => inCredit x (harpAt s c h)) then stopHere s c else s

/-- The command that holds a core runs: its harps take K steps (R51). -/
def coreCmdRuns (s : State) (c : Nat) : Bool :=
  match (coreAt s c).ring with
  | some w => cmdRuns s w
  | none => false

/-- HARP_K_STEP (R36, R34, R51, R55): in one cycle the array stalls for one counted reason, or takes two K steps at the 4-bit
class, one at the 8-bit class, and one every other cycle at the 16-bit class. Bit errors that arise in the cycle are in the
scratchpad first (R142): `upsets` names their words (DESIGN CHOICE, log entry 136). -/
def execHarpKStep (c : CoreIx) (h : HarpIx) (frameCycle : Fin 16) (feedersReady : Bool) (s : State) (upsets : List (Nat × Bool) := []) : Res :=
  let s := upsets.foldl (fun s u => spdUpset s c u) s
  let hp := harpAt s c h
  if (hp.active.isNone && hp.next.isNone) || (decide ((coreAt s c).power ≠ .running)) || !coreCmdRuns s c then .next s
  else
    let r := stallReason s c frameCycle feedersReady hp
    if r ≠ 0 then .next (creditStop (askAdmission (runStall s c h r) c h r feedersReady) c)
    else
      let s := endStallRun s c h
      let s := wr s R.HRP_STATUS_STALL_REASON c h 0
      let s := match hp.active, hp.next with
        | none, some p => promote s c h p
        | _, _ => s
      let s := count s c 48 1
      match (harpAt s c h).active with
      | none => .next s
      | some p =>
        if pClass p.desc = 16 ∧ !p.half then
          .next (onHarp s c h (fun x => { x with active := some { p with half := true } }))
        else
          let s := onHarp s c h (fun x => { x with active := some { p with half := false } })
          let s := takeStep s c h
          if pClass p.desc = 4 then .next (takeStep s c h) else .next s

/-! ### Drain (R37, R54, R108, R109) -/

/-- Byte ranges that the stages of one set's entry read and write: bias, residual, statistics or state records, the local
result and its scales. State records are read and written (part 5 of ten). -/
def entryFootprint (x : Core) (owner h base : Nat) (d : List W64) : List Footprint :=
  let e := entryOf x d
  let mk := fun part lo n w => (⟨owner, base + part, 1, h, pTag d, lo, lo + n, w⟩ : Footprint)
  (if eBias e then [mk 0 (eBiasAddr e) (packedBytes (fmtBits (eBiasFmt e)) (pCols d)) false] else []) ++
  (if eResid e then (List.range (pRows d)).map (fun t =>
    mk 1 (tileByte (eResAddr e) t 0) (packedBytes (fmtBits (eResFmt e)) (pCols d)) false) else []) ++
  (if eRowMode e = 1 then [mk 2 (eRowAddr e + 512 * (pRowBlock d % 2 * eParts e)) (512 * eParts e) false]
   else if eRowMode e = 2 then [mk 5 (eRowAddr e) 512 true]
   else if eRowMode e = 3 then [mk 2 (eRowAddr e) 512 false] else []) ++
  (if eLocalOut e then (List.range (pRows d)).map (fun t =>
    mk 3 (tileByte (eOutAddr e) t 0) (packedBytes (fmtBits (eOutFmt e)) (pCols d)) true) else []) ++
  (if eLocalOut e && eOutScaled e then [mk 4 (eOutScaleAddr e) 32 true] else [])

/-- Byte ranges of a drain's epilogue (R144): those of the principal's entry and, for a gated pair, of its partner's. -/
def epiFootprint (x : Core) (owner h : Nat) (d : List W64) (partner : Option (List W64)) : List Footprint :=
  entryFootprint x owner h 0 d ++ (match partner with | some q => entryFootprint x owner h 10 q | none => [])

/-- SET_DRAIN_START (R37, R108, R144): the oldest set due drains once the output stage is free and the previous epilogue has
finished; a gated pair's sets drain together. -/
def execSetDrainStart (c : CoreIx) (h : HarpIx) (s : State) : Res :=
  let hp := harpAt s c h
  match hp.due with
  | [] => .next s
  | d :: rest =>
    if hp.drain.isSome || hp.epi.isSome || hp.out.isSome then .next s
    else
      match register s c (epiFootprint (coreAt s c) (10000 + hk c h) h (hp.set d.set).desc
          (d.partner.map (fun q => (hp.set q).desc))) with
      | .waits => .next s
      | .faults t => .next t
      | .ok s =>
        let hp := hp.putSet d.set { hp.set d.set with use := .draining }
        let hp := match d.partner with
          | some q => hp.putSet q { hp.set q with use := .draining }
          | none => hp
        .next (setHarp s c h { hp with due := rest, drain := some d })

/-- The tile a set drains to: its accumulators inside ROWS x COLS with its exception state (R33, R54). -/
def tileOf (a : AccSet) : Tile :=
  ⟨a.desc, (cells a.desc).map (fun ij => (SMap.look (fun _ => 0) a.acc (32 * ij.1 + ij.2)).toNat), a.flags, a.rows, a.poison⟩

/-- Exception state of a drained set goes to HRP_EXC_LAST, HRP_EXC_ACC and the command's record (R54). -/
def drainFlags (s : State) (c h : Nat) (tag flags rows : Nat) : State :=
  let last := R.HRP_EXC_LAST_INVALID.at c h
  let acc := R.HRP_EXC_ACC_FLAGS.at c h
  let s := setReg s last (excLast flags tag rows)
  let s := setReg s acc (reg s acc ||| BitVec.ofNat 64 (flags % 16 + rows % 2 ^ 32 * 2 ^ 32))
  match (coreAt s c).ring with
  | some w => orExceptions s w (flags % 16)
  | none => s

/-- SET_DRAIN_DONE (R54, R92, R109): the drained tile waits for its epilogue, its flags are copied and cleared for the set,
and the set is empty. -/
def execSetDrainDone (c : CoreIx) (h : HarpIx) (s : State) : Res :=
  let hp := harpAt s c h
  match hp.drain with
  | none => .next s
  | some d =>
    let a := hp.set d.set
    let pt := d.partner.map (fun q => tileOf (hp.set q))
    let flags := a.flags ||| (match pt with | some t => t.flags | none => 0)
    let rows := a.rows ||| (match pt with | some t => t.rows | none => 0)
    let hp := hp.putSet d.set AccSet.fresh
    let hp := match d.partner with
      | some q => hp.putSet q AccSet.fresh
      | none => hp
    let s := setHarp s c h { hp with drain := none, epi := some ⟨tileOf a, pt, false⟩ }
    .next (drainFlags s c h (pTag a.desc) flags rows)

/-! ### Faults and stopping -/

/-- A core becomes suspect: the CORE_SUSPECT record, and it falls due for a test at once unless a test found it (R404). -/
def suspectCore (s : State) (c cls harps : Nat) (byTest : Bool) : State :=
  if (coreAt s c).suspect.isSome then s
  else
    let s := wr (onCore s c (fun x => { x with suspect := some cls })) R.RAS_FIT_CORE_RESULT c 0 2
    let s := if byTest then s else
      wr { s with ras := { s.ras with testDue := SMap.put (fun _ => 0) s.ras.testDue c s.utime } } R.RAS_FIT_CORE_DUE c 0 1
    logErr s ⟨0x0206, 5, 3, c, coreOwner s c, none, none, none, cls % 256 + harps % 256 * 256, 0⟩

/-- A harp internal error (R48, R50, R404): the pass is abandoned and its command ends HARP_FAULT, also where a trap of the
same cycle has abandoned it first; a harp with no pass, no queued descriptor and no set fails no command; both are recorded
and make the core suspect. That the cycle is the trap's is told by the time of the trap (DESIGN CHOICE, log entry 110). -/
def harpFault (s : State) (c h : Nat) : State :=
  let hp := harpAt s c h
  let busy := hp.active.isSome || hp.next.isSome || !hp.queue.isEmpty || decide (hp.set0.use ≠ .empty) ||
    decide (hp.set1.use ≠ .empty) || decide (hp.trapAt = some s.utime)
  let tag := match hp.active, hp.next with
    | some p, _ => pTag p.desc
    | none, some p => pTag p.desc
    | none, none => 0
  let cmd := if busy then (match (coreAt s c).ring with | some w => cmdName s w | none => none) else none
  let s := logErr s ⟨0x0003, 2, 4, hk c h, coreOwner s c, none, none, cmd, tag + h * 65536, 0⟩
  let s := if busy then failCore (onHarp s c h Harp.abandon) c 0x03 0 else s
  suspectCore s c 6 (2 ^ h) false

/-- HARP_INTERNAL_ERROR (R48): an accumulator or queue parity error of a good harp. -/
def execHarpInternalError (c : CoreIx) (h : HarpIx) (s : State) : Res :=
  whenDo (harpGood s c h && coreOn s c) s (harpFault s c h)

end Sys2Proof.Machine
end

