-- ==== Sys2Proof/Machine/Epilogue.lean ====
section
/-!
DEFINITION. Sys2Proof/Machine/Epilogue.lean: the epilogue chain (R60, R77, R96 to R99, R105 to R116, R125, R126) and the
commands EPILOGUE_START and EPILOGUE_RESULT_COMPLETE.
-/
namespace Sys2Proof.Machine

/-! ### Piecewise polynomials (R60) -/

/-- Coefficient `n` of segment `g` of resident table `t`: slot n of the store, two F32 slots a word (R461). -/
def coefAt (x : Core) (t g n : Nat) : Nat :=
  let w := SMap.look (fun _ => (0 : W64)) x.coef (t * 256 + g * 4 + n / 2)
  getBits w (32 * (n % 2)) 32

/-- Segment of a finite input: floor(64 (x - LO) / (HI - LO)), limited to 0 and 63 (R60). -/
def segmentOf (x lo hi : FV) : Nat :=
  match x, lo, hi with
  | .fin nx mx ex, .fin nl ml el, .fin nh mh eh =>
    let e0 := min ex (min el eh)
    let a := scaledInt nx mx ex e0 - scaledInt nl ml el e0
    let b := scaledInt nh mh eh e0 - scaledInt nl ml el e0
    if a < 0 ∨ b ≤ 0 then 0 else min 63 ((64 * a / b).toNat)
  | _, _, _ => 0

/-- Horner's rule from c_d down to c0, one FMA per degree: F32 code and flags (R60). -/
def horner (x : Core) (t g : Nat) (v : FV) : Nat → Nat → Nat → Nat × Nat
  | 0, acc, fl => (acc, fl)
  | n + 1, acc, fl =>
    let (r, f) := f32.fma (f32.unpack acc) v (f32.unpack (coefAt x t g n))
    horner x t g v n r (fl ||| f)

/-- Evaluate resident table `t` of core c at degree `deg` on an F32 code (R60). -/
def polyEval (s : State) (c t deg code : Nat) : Nat × Nat :=
  let x := coreAt s c
  let lo := f32.unpack (rd s R.FDL_POLY_RANGE_LO c t)
  let hi := f32.unpack (rd s R.FDL_POLY_RANGE_HI c t)
  let v := f32.unpack code
  match v with
  | .nan sig => (f32.dnan, flNanIn ||| (if sig then flInvalid else 0))
  | .inf true => let (r, f) := horner x t 0 lo deg (coefAt x t 0 deg) 0; (r, f ||| flInfIn)
  | .inf false => let (r, f) := horner x t 63 hi deg (coefAt x t 63 deg) 0; (r, f ||| flInfIn)
  | .fin .. => horner x t (segmentOf v lo hi) v deg (coefAt x t (segmentOf v lo hi) deg) 0

/-! ### Reading what a chain reads -/

/-- Little-endian 32-bit word at a scratchpad address. -/
def spdW32 (p : Spd) (c a : Nat) : Nat := leNat (spdRead p c a 4)

/-- Element `j` of a packed vector at `o` (R137). -/
def vecElem (p : Spd) (c f o j : Nat) : Nat := elemVia p c (fmtBits f) (fmtBits f * j) (fun b => o + b)

/-- Element (i, j) of a tile-form tile at `o` (R136). -/
def tileElem (p : Spd) (c f o i j : Nat) : Nat := elemVia p c (fmtBits f) (fmtBits f * j) (tileByte o i)

/-- Values under way through a chain: F32 codes, or I32 codes on an integer set, row major; epilogue flags; poison. -/
structure Chain where
  vals : List Nat
  epi : Nat
  poison : Bool
  /-- state records written back when the epilogue completes: address, m, l, alpha (R114, R116, R126) -/
  recs : List (Nat × Nat × Nat × Nat)
deriving DecidableEq, Repr

/-- Apply an operation to each element with its row and column; flags join. -/
def Chain.mapIx (ch : Chain) (cols : Nat) (g : Nat → Nat → Nat → Nat × Nat) : Chain :=
  let r := ch.vals.zipIdx.map (fun vk => g (vk.2 / cols) (vk.2 % cols) vk.1)
  { ch with vals := r.map Prod.fst, epi := r.foldl (fun fl x => fl ||| x.2) ch.epi }

/-- Round F32 codes to an intermediate format and back (R125). -/
def roundInter (f code : Nat) : Nat × Nat :=
  let (q, fl) := convertTo f false (f32.unpack code)
  ((f32.pack false (fmtVal f q)).1, epiFlags (fl % 32))

def Chain.inter (ch : Chain) (e : List W64) (cols : Nat) : Chain :=
  if eSepEq e ∧ eInterFmt e ≠ 1 then ch.mapIx cols (fun _ _ v => roundInter (eInterFmt e) v) else ch

/-- f_i of deferred normalisation for row i (R113). -/
def deferFactor (s : State) (c rowAddr parity parts row n eps : Nat) : Nat :=
  let base := rowAddr / 512 + parity * parts
  let sum := (List.range parts).foldl (fun acc k =>
    (f32.add (f32.unpack acc) (f32.unpack (spdW32 s.spd c ((base + k) * 512 + 16 * row + 8)))).1) 0
  let m := (f32.div (f32.unpack sum) (.fin false n 0)).1
  let v := (f32.add (f32.unpack m) (f32.unpack eps)).1
  (f32.div (.fin false 1 0) (f32.unpack (f32.sqrt (f32.unpack v)).1)).1

/-- Stage 0 (R77, R105): coarse scale, then the deferred factor. -/
def stage0 (s : State) (c : Nat) (e d : List W64) (ch : Chain) : Chain :=
  if !eScale e then ch
  else
    let (cc, f0) := f32.mul (f32.unpack (eCoarseA e)) (f32.unpack (eCoarseB e))
    let ch := { ch with epi := ch.epi ||| epiFlags f0 ||| epiRead (f32.unpack (eCoarseA e)) ||| epiRead (f32.unpack (eCoarseB e)) }
    let ch := ch.mapIx (pCols d) (fun _ _ v => let (r, f) := f32.mul (f32.unpack v) (f32.unpack cc); (r, epiFlags f))
    if eRowMode e = 1 then
      let p := pRowBlock d % 2
      let fs := (List.range (pRows d)).map (fun i => deferFactor s c (eRowAddr e) p (eParts e) i (eModeA e) (eEps e))
      let bad := spdPoison s.spd c (eRowAddr e + 512 * (p * eParts e)) (512 * eParts e)
      let ch := { ch with poison := ch.poison || bad }
      ch.mapIx (pCols d) (fun i _ v => let (r, f) := f32.mul (f32.unpack v) (f32.unpack (fs.getD i 0)); (r, epiFlags f))
    else ch

/-- Stage 1 (R105): bias, in F32 with one rounding or in I32 with saturation. -/
def stage1 (s : State) (c : Nat) (e d : List W64) (isInt : Bool) (ch : Chain) : Chain :=
  if !eBias e then ch
  else
    let bad := spdPoison s.spd c (eBiasAddr e) (packedBytes (fmtBits (eBiasFmt e)) (pCols d))
    let ch := { ch with poison := ch.poison || bad }
    ch.mapIx (pCols d) (fun _ j v =>
      let b := vecElem s.spd c (eBiasFmt e) (eBiasAddr e) j
      if isInt then
        let (z, sat) := satI32 (intVal 0x9 v + intVal 0x9 b)
        (intCode 0x9 z, if sat then 2 else 0)
      else
        let (r, f) := f32.add (f32.unpack v) (fmtVal (eBiasFmt e) b)
        (r, epiFlags f ||| epiRead (fmtVal (eBiasFmt e) b)))

/-- exp of a difference x - y rounded once to F32, by the exponential table (R112, R114). -/
def expDiff (s : State) (c : Nat) (e : List W64) (x y : FV) : Nat × Nat :=
  let (a, f0) := f32.sub x y
  let (r, f1) := polyEval s c (eExpTable e) (eExpDeg e) a
  (r, epiFlags (f0 ||| f1))

def f32NegInf : Nat := 0xFF800000
def f32One : Nat := 0x3F800000

/-- Online softmax of one row (R114, and R126 with SEP_EQ): the row's F32 codes with its state record; answers the new
codes, the record and flags. A signalling running maximum is ignored and sets invalid (R87). Where mn = -inf no difference is
formed and none sets a flag (DESIGN CHOICE, log entry 108). -/
def softmaxRow (s : State) (c : Nat) (e d : List W64) (i : Nat) (y : List Nat) (m l alpha : Nat) :
    List Nat × (Nat × Nat × Nat) × Nat :=
  let off := intVal 0x9 (eModeA e)
  let y := y.zipIdx.map (fun vj =>
    if eCausal e ∧ ((pColBlock d * 32 + vj.2 : Nat) : Int) > ((pRowBlock d * 32 + i : Nat) : Int) + off then f32NegInf else vj.1)
  let mt := y.foldl (fun a v => a.maxNum (f32.unpack v)) (FV.nan false)
  let sig := if y.any (fun v => (f32.unpack v).isSig) || (!(eSepEq e && eFinal e) && (f32.unpack m).isSig) then 1 else 0
  let isNegInf := fun v => decide (v = f32NegInf)
  let prob := fun (ref v : Nat) =>
    let (df, f0) := f32.sub (f32.unpack v) (f32.unpack ref)
    if isNegInf df || isNegInf ref then (0, epiFlags (if isNegInf ref then 0 else f0))
    else let (r, f) := polyEval s c (eExpTable e) (eExpDeg e) df; (r, epiFlags (f0 ||| f))
  if eSepEq e then
    if !eFinal e then
      -- maximum sweep
      let mn := (f32.pack false ((f32.unpack m).maxNum mt)).1
      (y, (mn, l, alpha), sig)
    else
      -- output sweep: m unchanged, alpha exactly 1
      let ps := y.map (prob m)
      let (l', fl) := ps.foldl (fun (a : Nat × Nat) p =>
        let (r, f) := f32.add (f32.unpack a.1) (f32.unpack p.1); (r, a.2 ||| epiFlags f ||| p.2)) (l, sig)
      (ps.map Prod.fst, (m, l', f32One), fl)
  else
    let mn := (f32.pack false ((f32.unpack m).maxNum mt)).1
    let (al, fa) := if isNegInf m then (0, 0) else expDiff s c e (f32.unpack m) (f32.unpack mn)
    let ps := y.map (prob mn)
    let (t, ft) := ps.foldl (fun (a : Nat × Nat) p =>
      let (r, f) := f32.add (f32.unpack a.1) (f32.unpack p.1); (r, a.2 ||| epiFlags f ||| p.2)) (0, sig)
    let (l', fl) := f32.fma (f32.unpack al) (f32.unpack l) (f32.unpack t)
    (ps.map Prod.fst, (mn, l', al), fa ||| ft ||| epiFlags fl)

/-- Row i of a row-major list. -/
def rowOf (vals : List Nat) (cols i : Nat) : List Nat := (vals.drop (i * cols)).take cols

/-- Stage 2 (R105): an activation, or the online softmax step. -/
def stage2 (s : State) (c : Nat) (e d : List W64) (ch : Chain) : Chain :=
  if !eAct e then ch
  else if eRowMode e = 2 then
    let bad := spdPoison s.spd c (eRowAddr e) (16 * pRows d)
    (List.range (pRows d)).foldl (fun (acc : Chain) i =>
      let a := eRowAddr e + 16 * i
      let (y, (m, l, al), fl) := softmaxRow s c e d i (rowOf ch.vals (pCols d) i)
        (spdW32 s.spd c a) (spdW32 s.spd c (a + 4)) (spdW32 s.spd c (a + 8))
      { acc with vals := acc.vals ++ y, epi := acc.epi ||| fl, recs := acc.recs ++ [(a, m, l, al)] })
      { ch with vals := [], poison := ch.poison || bad }
  else ch.mapIx (pCols d) (fun _ _ v => let (r, f) := polyEval s c (eActTable e) (eActDeg e) v; (r, epiFlags f))

/-- Stages 0 to 2 of one set with its own entry (R109), and the stage boundary of SEP_EQ (R125). -/
def stages012 (s : State) (c : Nat) (e : List W64) (t : Tile) : Chain :=
  let ch : Chain := ⟨t.vals, 0, t.poison, []⟩
  if pIsInt t.desc then stage1 s c e t.desc true ch
  else (stage2 s c e t.desc (stage1 s c e t.desc false (stage0 s c e t.desc ch))).inter e (pCols t.desc)

/-- Stage 3 (R105, R109, R125): the gate; in SEP_EQ mode h and u are rounded to the intermediate format before it and the
product after it. -/
def stage3 (e d : List W64) (h : Option Chain) (u : Chain) : Chain :=
  match h with
  | none => u
  | some h =>
    let h := h.inter e (pCols d)
    let u := u.inter e (pCols d)
    let ch : Chain :=
      ⟨(List.zipWith (fun a b => (f32.mul (f32.unpack a) (f32.unpack b)).1) h.vals u.vals),
       (List.zipWith (fun a b => epiFlags (f32.mul (f32.unpack a) (f32.unpack b)).2) h.vals u.vals).foldl (· ||| ·) (h.epi ||| u.epi),
       h.poison || u.poison, h.recs ++ u.recs⟩
    ch.inter e (pCols d)

/-- Stage 4 (R105, R115): residual or running output. -/
def stage4 (s : State) (c : Nat) (e d : List W64) (isInt : Bool) (ch : Chain) : Chain :=
  if !eResid e then ch
  else
    let bad := (List.range (pRows d)).any (fun t =>
      spdPoison s.spd c (tileByte (eResAddr e) t 0) (packedBytes (fmtBits (eResFmt e)) (pCols d))) ||
      (decide (eRowMode e = 3) && spdPoison s.spd c (eRowAddr e) (16 * pRows d))
    let ch := { ch with poison := ch.poison || bad }
    let ch := ch.mapIx (pCols d) (fun i j v =>
      let r := tileElem s.spd c (eResFmt e) (eResAddr e) i j
      if isInt then
        let (z, sat) := satI32 (intVal 0x9 v + intVal 0x9 r)
        (intCode 0x9 z, if sat then 2 else 0)
      else if eRowMode e = 3 then
        let al := spdW32 s.spd c (eRowAddr e + 16 * i + 8)
        let (q, f) := f32.fma (f32.unpack al) (f32.unpack r) (f32.unpack v)
        (q, epiFlags f ||| epiRead (f32.unpack r))
      else
        let (q, f) := f32.add (f32.unpack v) (fmtVal (eResFmt e) r)
        (q, epiFlags f ||| epiRead (fmtVal (eResFmt e) r)))
    ch

/-- One element gathered into the squared-error statistic (R96, R97): row, column, x, and q * s. -/
structure ErrItem where
  i : Nat
  j : Nat
  x : FV
  qs : FV
deriving DecidableEq, Repr

/-- The result of stages 5 and 6: output codes row major, scales, items for the statistic, flags. -/
structure Written where
  codes : List Nat
  scales : List Nat
  /-- the values as stage 6 wrote them, read back exactly (R112) -/
  back : List FV
  items : List ErrItem
  epi : Nat
  scaleInvalid : Bool
deriving DecidableEq, Repr

/-- Stage 5 on an F32 set (R105, R115): division by l_i. -/
def stage5 (s : State) (c : Nat) (e d : List W64) (ch : Chain) : Chain :=
  if eRescale e ∧ eRowMode e = 3 ∧ eFinal e then
    let bad := spdPoison s.spd c (eRowAddr e) (16 * pRows d)
    { ch with poison := ch.poison || bad }.mapIx (pCols d) (fun i _ v =>
      let (q, f) := f32.div (f32.unpack v) (f32.unpack (spdW32 s.spd c (eRowAddr e + 16 * i + 4)))
      (q, epiFlags f))
  else ch

/-- Stage 6 with fresh fine scales (R78, R111): blocks along rows or columns, padded with +0. -/
def quantScaled (e d : List W64) (vals : List Nat) : Written :=
  let f := eOutFmt e
  let rows := pRows d
  let cols := pCols d
  let get := fun i j => f32.unpack (vals.getD (i * cols + j) 0)
  let pad := fun n (xs : List FV) => xs ++ List.replicate (32 - n) (FV.fin false 0 0)
  let blocks := if eAxis e then (List.range cols).map (fun j => quantBlock f (eRtz e) (pad rows ((List.range rows).map (fun i => get i j))))
    else (List.range rows).map (fun i => quantBlock f (eRtz e) (pad cols ((List.range cols).map (fun j => get i j))))
  let blk := fun i j => if eAxis e then blocks.getD j (0, [], 0) else blocks.getD i (0, [], 0)
  let code := fun i j => (blk i j).2.1.getD (if eAxis e then i else j) 0
  let back := fun i j => if (blk i j).1 = 0xFF then FV.nan false else (fmtVal f (code i j)).mul (sx8Val (blk i j).1)
  let ij := cells d
  { codes := ij.map (fun x => code x.1 x.2)
    scales := blocks.map (fun b => b.1)
    back := ij.map (fun x => back x.1 x.2)
    items := ij.map (fun x => ⟨x.1, x.2, get x.1 x.2, back x.1 x.2⟩)
    epi := blocks.foldl (fun fl b => fl ||| epiFlags b.2.2) 0
    scaleInvalid := blocks.any (fun b => decide (b.1 = 0xFF)) }

/-- Stages 5 and 6 as OUT_FMT is written (R84, R105, R111). -/
def writeOut (e d : List W64) (isInt : Bool) (ch : Chain) : Written :=
  let ij := cells d
  let f := eOutFmt e
  if isInt then
    if eRescale e then
      let zp : Int := if f = 0xB ∨ f = 0xD then eZp e else 0
      let r := ch.vals.map (fun v => rescale (intVal 0x9 v) (eMul e) (eSh e) zp f)
      let x := fun v => FV.pack64 (intVal 0x9 v * eMul e) (eSh e) zp
      { codes := r.map (fun y => intCode f y.1), scales := [], back := r.map (fun y => .fin (decide (y.1 < 0)) y.1.natAbs 0)
        items := (ij.zip (ch.vals.zip r)).map (fun y => ⟨y.1.1, y.1.2, x y.2.1, .fin (decide (y.2.2.1 < 0)) y.2.2.1.natAbs 0⟩)
        epi := if r.any (fun y => y.2) then 2 else 0, scaleInvalid := false }
    else { codes := ch.vals, scales := [], back := [], items := [], epi := 0, scaleInvalid := false }
  else if eQuant e then
    if eOutScaled e then quantScaled e d ch.vals
    else
      let r := ch.vals.map (fun v => convertTo f (eRtz e) (f32.unpack v))
      { codes := r.map Prod.fst, scales := [], back := r.map (fun y => fmtVal f y.1)
        items := (ij.zip (ch.vals.zip r)).map (fun y => ⟨y.1.1, y.1.2, f32.unpack y.2.1, fmtVal f y.2.2.1⟩)
        epi := r.foldl (fun fl y => fl ||| epiFlags (y.2 % 32)) 0, scaleInvalid := false }
  else
    { codes := ch.vals, scales := [], back := ch.vals.map f32.unpack
      items := (ij.zip ch.vals).map (fun y => ⟨y.1.1, y.1.2, f32.unpack y.2, f32.unpack y.2⟩)
      epi := 0, scaleInvalid := false }
where
  /-- v * m / 2^sh + zp rounded once to F64 (R97). -/
  FV.pack64 (p : Int) (sh : Nat) (zp : Int) : FV :=
    let n := p + zp * (2 ^ sh : Nat)
    f64.unpack (f64.roundFV false (decide (n < 0)) n.natAbs 1 (-(sh : Int))).1

/-! ### The squared-error statistic (R96 to R99) -/

/-- Partial of one entry: F64 sums and counts. -/
structure ErrPart where
  sq : Nat
  sqIn : Nat
  count : Nat
  skipped : Nat
deriving DecidableEq, Repr

/-- Add one element to a partial (R96, R97): it is counted, or skipped where x or q * s is a NaN or infinite. -/
def ErrPart.add (p : ErrPart) (it : ErrItem) : ErrPart :=
  let bad := it.x.isNan || it.x.isInf || it.qs.isNan || it.qs.isInf
  if bad then { p with skipped := p.skipped + 1 }
  else
    let e := f64.unpack (f64.sub it.x it.qs).1
    { sq := (f64.fma e e (f64.unpack p.sq)).1, sqIn := (f64.fma it.x it.x (f64.unpack p.sqIn)).1,
      count := p.count + 1, skipped := p.skipped }

/-- Add a partial to the entry at a physical address: the sums by F64 addition, the counts modulo 2^64 (R98). -/
def addEntry (m : Memory) (pa : Nat) (p : ErrPart) : Memory :=
  let w := fun i => (memWord m (pa + 8 * i)).toNat
  memWrite m pa (leBytes 8 (f64.add (f64.unpack (w 0)) (f64.unpack p.sq)).1 ++
    leBytes 8 (f64.add (f64.unpack (w 1)) (f64.unpack p.sqIn)).1 ++
    leBytes 8 ((w 2 + p.count) % 2 ^ 64) ++ leBytes 8 ((w 3 + p.skipped) % 2 ^ 64)) false

/-- Gather items into the entries of a mode: 1 per tensor, 2 per row, 3 per column (R96, R111). The entry's translation
follows R232; a base that is no multiple of 32 is used as it is (DESIGN CHOICE, log entry 109). -/
def gatherErrBy (s : State) (who : Requester) (core : Option Nat) (w mode va rowBase colBase : Nat) (items : List ErrItem) : State :=
  let p := ringPart s w
  let key := fun (it : ErrItem) => if mode = 2 then rowBase + it.i else if mode = 3 then colBase + it.j else 0
  let keys := (items.map key).dedup
  keys.foldl (fun s k =>
    let part := (items.filter (fun it => decide (key it = k))).foldl ErrPart.add ⟨0, 0, 0, 0⟩
    let at_ := translate s core p (va + 32 * k) true false
    let s := learn s core p (va + 32 * k) true false (some w)
    match at_ with
    | .error e => xlateFail s w p (va + 32 * k) true core e
    | .ok pa =>
      let mark := (cohRead s pa 32).2
      let s := touch (watchMem (countMem s who pa 32 true) 3 who (some (va + 32 * k)) (some w) pa 32) pa 32 (!mark)
      if mark || writeLost s pa then s
      else { s with mem := addEntry s.mem pa part }) s

/-- Entries of a mode that an access must reach wait: the first of the row's or column's entries and `n` from it (R209, R222). -/
def gatherErrWaits (s : State) (core : Option Nat) (p mode va rowBase colBase n : Nat) : Bool :=
  let k := if mode = 2 then rowBase else if mode = 3 then colBase else 0
  decide (mode ≠ 0) && accessWaits s core p (va + 32 * k) (32 * (if mode = 1 then 1 else n)) true

/-- The same for a core. -/
def gatherErr (s : State) (c w mode va rowBase colBase : Nat) (items : List ErrItem) : State :=
  gatherErrBy s (.core (Fin.ofNat 288 c)) (some c) w mode va rowBase colBase items

/-! ### Statistics (R112) -/

/-- One row's 16 B record (R112): the values and their maximum enter as exact values, and each v_j - MAX is rounded once. -/
def statRecord (s : State) (c : Nat) (e d : List W64) (row : List FV) : List Byte × Nat :=
  let sel := eStatSel e
  let mx := row.foldl FV.maxNum (FV.nan false)
  let mxc := (f32.pack false mx).1
  let (se, f1) :=
    if sel / 2 % 2 = 1 ∧ !(mx.isNan || (mx.isInf && mx.neg?)) then
      row.foldl (fun (a : Nat × Nat) v =>
        let (x, fx) := expDiff s c e v mx
        let (r, f) := f32.add (f32.unpack a.1) (f32.unpack x); (r, a.2 ||| fx ||| epiFlags f)) (0, 0)
    else (0, 0)
  let (sq, f2) :=
    if sel / 4 % 2 = 1 then
      row.foldl (fun (a : Nat × Nat) v => let (r, f) := f32.fma v v (f32.unpack a.1); (r, a.2 ||| epiFlags f)) (0, 0)
    else (0, 0)
  (leBytes 4 (if sel % 2 = 1 then mxc else 0) ++ leBytes 4 se ++ leBytes 4 sq ++ leBytes 4 (pColBlock d + pCols d * 65536),
   f1 ||| f2 ||| (if row.any FV.isSig then 1 else 0))

/-- The 512 B statistics block: 32 records, zeros at and beyond ROWS. -/
def statBlock (s : State) (c : Nat) (e d : List W64) (back : List FV) : List Byte × Nat :=
  let rs := (List.range (pRows d)).map (fun i => statRecord s c e d ((back.drop (i * pCols d)).take (pCols d)))
  ((rs.flatMap Prod.fst) ++ List.replicate ((32 - pRows d) * 16) 0, rs.foldl (fun f r => f ||| r.2) 0)

/-! ### Pas de deux (R407, R408) -/

/-- The shadow of a core whose partition is in pas de deux mode: core (x, 2k + 1) of primary (x, 2k). -/
def shadowOf (s : State) (c : Nat) : Option Nat :=
  match coreOwner s c with
  | some p => if rd s R.RAS_PDD_STATUS_ACTIVE 0 0 / 2 ^ p % 2 = 1 ∧ c / 18 % 2 = 0 then some (c + 18) else none
  | none => none

/-- A write into a core's scratchpad by its own units, with the watchpoints of R432 and the shadow's copy of R408. -/
def spdStore (s : State) (c a kind harp tag : Nat) (data : List Byte) (bad : Bool) : State :=
  let s := spdAccess s c a data.length kind true harp tag
  let s := countUnits s c 65 64 data.length
  let s := putSpd s c a data bad
  match shadowOf s c with
  | some d => putSpd s d a data bad
  | none => s

/-! ### The commands -/

/-- EPILOGUE_START (R108): the waiting epilogue starts once the previous one of the harp has finished and its output
stage is free. -/
def execEpilogueStart (c : CoreIx) (h : HarpIx) (s : State) : Res :=
  let hp := harpAt s c h
  match hp.epi with
  | none => .next s
  | some ep =>
    whenDo (!ep.started && hp.out.isNone) s (wr (setHarp s c h { hp with epi := some { ep with started := true } })
      R.FDL_STATUS_EPILOGUE c 0 1)

/-- Lane-operations of a set's stages 0 to 2, and of stages 5 and 7 and the SEP_EQ roundings, of which an I32 set has none
(R125, R460). -/
def laneOps012 (e d : List W64) : Nat :=
  let n := pRows d * pCols d
  (if !eAct e then 0 else if eRowMode e = 2 then
      (if eSepEq e then (if eFinal e then eExpDeg e * n else 0) else eExpDeg e * n + eExpDeg e * pRows d)
    else eActDeg e * n) + (if eSepEq e ∧ eInterFmt e ≠ 1 ∧ !pIsInt d then n else 0)

def laneOpsRest (e d : List W64) : Nat :=
  let n := pRows d * pCols d
  (if eRescale e ∧ eRowMode e = 3 ∧ eFinal e then 8 * n else 0) +
  (if eStats e ∧ eStatSel e / 2 % 2 = 1 then eExpDeg e * n else 0) +
  (if eSepEq e ∧ eInterFmt e ≠ 1 ∧ !pIsInt d then n + (if eGate e then 3 * n else 0) else 0)

/-- The maximum sweep of R126 writes and sends nothing. -/
def isMaxSweep (e : List W64) : Bool := decide (eRowMode e = 2) && eSepEq e && !eFinal e

/-- Byte ranges of a core's scratchpad that the chain on a tile or pair reads (R132, R144). -/
def chainReads (s : State) (c h : Nat) (ep : Epi) : List Footprint :=
  (epiFootprint (coreAt s c) 0 h ep.tile.desc (ep.partner.map (fun t => t.desc))).filter (fun f => !f.writes || decide (f.part % 10 = 5))

/-- The chain's reads meet the code and the watchpoints (R142, R432). -/
def chainAccess (s : State) (c h : Nat) (ep : Epi) : State :=
  (chainReads s c h ep).foldl (fun s f => spdAccess s c f.lo (f.hi - f.lo) 1 false h f.tag) s

/-- The chain on the drained tile or pair (R105, R109, R111, R112): what is written, with the final flags. The maximum sweep
ends with stage 2 (R126). -/
def runChain (s : State) (c : Nat) (ep : Epi) : Chain × Written × List Byte :=
  let x := coreAt s c
  let d := ep.tile.desc
  let e := entryOf x d
  let isInt := pIsInt d
  let u := stages012 s c e ep.tile
  if isMaxSweep e then (u, ⟨[], [], [], [], 0, false⟩, []) else
  let h := ep.partner.map (fun t => stages012 s c (entryOf x t.desc) t)
  let ch := stage4 s c e d isInt (stage3 e d h u)
  let ch := if isInt then ch else (if eResid e then ch.inter e (pCols d) else ch)
  let ch := if isInt then ch else stage5 s c e d ch
  let w := writeOut e d isInt ch
  if eStats e then
    let (b, f) := statBlock s c e d w.back
    (ch, { w with epi := w.epi ||| f }, b)
  else (ch, w, [])

/-- Row bytes of a result: ROWS rows of COLS packed elements (R117, R136). -/
def resultRows (e d : List W64) (codes : List Nat) : List (List Byte) :=
  (List.range (pRows d)).map (fun i => packElems (fmtBits (eOutFmt e)) (rowOf codes (pCols d) i))

/-- The 32 fine-scale bytes of a scaled result, absent lanes zero (R117, R137). -/
def scaleBytes (scales : List Nat) : List Byte := (List.range 32).map (fun i => BitVec.ofNat 8 (scales.getD i 0))

/-- EPILOGUE_RESULT_COMPLETE (R105, R106, R108, R114, R117, R409): the chain result is formed, state records and the local
result are written, the statistic is gathered, the exception bits join the command's record, and the result is held in
the output stage. In pas de deux mode a mismatch of the pair, which only a fault of one core makes (a free value), fails
the command instead. -/
def execEpilogueResultComplete (c : CoreIx) (h : HarpIx) (s : State) : Res :=
  let hp := harpAt s c h
  match hp.epi with
  | none => .next s
  | some ep =>
    let x := coreAt s c
    let d := ep.tile.desc
    let e := entryOf x d
    let w := x.ring.getD 0
    if !ep.started || gatherErrWaits s (some c) (ringPart s w) (eErrMode e) (eErrVa e) (pRowBlock d * 32) (pColBlock d * 32) 32 then .next s
    else
      let (v, s) := match shadowOf s c with
        | some _ => takeFree s
        | none => (0, s)
      if v.toNat % 2 = 1 then
        let s := logErr s ⟨0x0209, 2, 3, c, coreOwner s c, none, none, cmdName s w,
          c + (c + 18) * 65536 + pTag d * 2 ^ 32, pRowBlock d + pColBlock d * 65536⟩
        let s := addSat s R.RAS_PDD_STATUS_MISMATCHES 0 0 1
        let s := failCore s c 0x03 0
        .next (suspectCore (suspectCore s c 7 0 false) (c + 18) 7 0 false)
      else
        let s := chainAccess s c h ep
        if (harpAt s c h).epi.isNone then .next s else
        let (ch, wr_, stats) := runChain s c ep
        let flags := ep.tile.flags ||| (match ep.partner with | some t => t.flags | none => 0)
        let rows := ep.tile.rows ||| (match ep.partner with | some t => t.rows | none => 0)
        let chainBadWord := decide (pEpi d ∈ x.chainPoison)
        let bad := ch.poison || chainBadWord
        let exc := excWord flags (ch.epi ||| wr_.epi) bad wr_.scaleInvalid (pTag d) rows
        let rowsB := resultRows e d wr_.codes
        let scales := if eOutScaled e then scaleBytes wr_.scales else []
        -- state records
        let s := ch.recs.foldl (fun s r =>
          spdStore s c r.1 1 h (pTag d) (leBytes 4 r.2.1 ++ leBytes 4 r.2.2.1 ++ leBytes 4 r.2.2.2 ++ leBytes 4 0) bad) s
        -- the local result
        let s := if eLocalOut e && !isMaxSweep e then
            let s := rowsB.zipIdx.foldl (fun s rb => spdStore s c (tileByte (eOutAddr e) rb.2 0) 1 h (pTag d) rb.1 bad) s
            if eOutScaled e then spdStore s c (eOutScaleAddr e) 1 h (pTag d) scales bad else s
          else s
        let s := release s c (10000 + hk c h)
        -- lane-cycles
        let lanes := laneOps012 e d + (match ep.partner with | some t => laneOps012 (entryOf x t.desc) t.desc | none => 0) + laneOpsRest e d
        let s := count s c 41 lanes
        let elems := pRows d * pCols d * (if ep.partner.isSome then 2 else 1)
        let s := if eAct e || (eStats e && decide (eStatSel e / 2 % 2 = 1)) then count s c 38 elems else s
        let s := if eRescale e && decide (eRowMode e = 3) && eFinal e then count s c 35 elems else s
        let s := wr s R.FDL_STATUS_EPILOGUE c 0 0
        let s := orExceptions s w (exc.toNat % 1024)
        let s := if bad then notePoison s w none else s
        let s := traceRec s c 4 h (BitVec.ofNat 64 (pTag d)) exc
        let s := if eErrMode e ≠ 0 ∧ !isMaxSweep e then gatherErr s c w (eErrMode e) (eErrVa e) (pRowBlock d * 32) (pColBlock d * 32) wr_.items else s
        -- a chain that failed its command while gathering or halting leaves nothing in the output stage
        if (harpAt s c h).epi.isNone then .next s
        else
          let o : OutStage :=
            ⟨exc, pRowBlock d, pColBlock d, pRows d, pCols d, eOutFmt e, eOutScaled e, eAxis e, eStats e, rowsB, scales, stats,
             if eDest e ≠ 0 && !isMaxSweep e then x.dlist.getD (eDest e) [] else [], [], [], s.utime⟩
          .next (onHarp s c h (fun hp => { hp with epi := none, out := some o }))

end Sys2Proof.Machine
end

