-- ==== Sys2Proof/Machine/Land.lean ====
section
/-!
DEFINITION. Sys2Proof/Machine/Land.lean: the landing of a write at each of its destinations (R119 to R124, R139, R146 to R150,
R307).
-/
namespace Sys2Proof.Machine

/-! ### Tile images (R117) -/

def hExc (h : List W64) : W64 := h.getD 0 0
def hRowBlock (h : List W64) : Nat := dw h 1 0 16
def hColBlock (h : List W64) : Nat := dw h 1 16 16
def hRows (h : List W64) : Nat := dw h 1 32 6
def hCols (h : List W64) : Nat := dw h 1 40 6
def hFmt (h : List W64) : Nat := dw h 1 48 4
def hScaled (h : List W64) : Bool := decide (dw h 1 52 1 = 1)
def hStats (h : List W64) : Bool := decide (dw h 1 54 1 = 1)
def hSeq (h : List W64) : Nat := dw h 3 0 32

/-- POISON of a tile's exception word (R92). -/
def hPoison (h : List W64) : Bool := decide (getBits (hExc h) 8 1 = 1)

/-- Buffer of a slot that a tile lands in (R119). -/
def tileBuf (sl : Slot) (h : List W64) : Nat := if slotDepth sl.words = 0 then 0 else hSeq h % slotDepth sl.words

/-- Origin of a buffer (R119). -/
def bufOrigin (sl : Slot) (b : Nat) : Nat := slotBase sl.words + 512 * slotBufRows sl.words * b

/-- What a slot does with a tile (R123, R139): 0 accept, 2 closed, 3 stray. -/
def tileVerdict (sl : Slot) (img : TileImage) : Nat :=
  let o := slotBase sl.words % 512
  if !sl.armed then 2
  else if slotSrcCore sl.words ≠ img.srcCore ∨ slotSrcModule sl.words ≠ img.srcModule then 3
  else if hStats img.header && decide (slotStatParts sl.words ≤ hColBlock img.header) then 3
  else if img.rowBytes.any (fun r => decide (512 < o + r.length)) || decide (slotBufRows sl.words < hRows img.header) ||
      (hScaled img.header && decide (slotBufRows sl.words < 33)) then 3
  else 0

/-- Bytes from address `a` up cut at the ends of 8 B words. -/
def cutWords : Nat → Nat → List Byte → List (Nat × List Byte)
  | 0, _, _ => []
  | fuel + 1, a, bs =>
    match bs with
    | [] => []
    | _ =>
      let k := 8 - a % 8
      (a, bs.take k) :: cutWords fuel (a + k) (bs.drop k)

/-- Where the words of a tile image's body land in its buffer: data rows, fine scales, statistics (R119, R139). -/
def bodyWords (sl : Slot) (img : TileImage) : List (Nat × List Byte) :=
  let o := bufOrigin sl (tileBuf sl img.header)
  let row := slotStat sl.words / 512 + hRowBlock img.header % 2 * slotStatParts sl.words + hColBlock img.header
  let cut := fun (a : Nat) (bs : List Byte) => cutWords (bs.length / 8 + 2) a bs
  img.rowBytes.zipIdx.flatMap (fun rb => cut (tileByte o rb.2 0) rb.1) ++ cut (tileByte o 32 0) img.scales ++
  (if slotStat sl.words = 0 then [] else cut (row * 512) img.stats)

/-- The next `words` words of a tile image's body land in its buffer (R139, R141), poisoned where its header says so (R394);
a body that no slot accepts is dropped, and its header with it (R123). -/
def landBody (s : State) (c : Nat) (img : TileImage) (words : Nat) : State :=
  let sl := SMap.look (fun _ => Slot.fresh) (coreAt s c).slots img.slot
  let v := tileVerdict sl img
  if v ≠ 0 then
    { s with ord := { s.ord with flights := s.ord.flights.map (fun f =>
        match f.dst with
        | .tile d i => if f.final ∧ d = c ∧ i.header = img.header ∧ i.srcCore = img.srcCore ∧ i.srcModule = img.srcModule ∧
            i.slot = img.slot then { f with dst := .tile d { i with dropped := v } } else f
        | _ => f) } }
  else
    ((bodyWords sl img).drop img.landed |>.take words).foldl (fun s w =>
      spdStore (countUnits s c 76 64 w.2.length) c w.1 4 0 0 w.2 (hPoison img.header)) s

/-- Words of a tile image's body that have not landed, as its slot stands now. -/
def bodyLeft (s : State) (c : Nat) (img : TileImage) : Nat :=
  let sl := SMap.look (fun _ => Slot.fresh) (coreAt s c).slots img.slot
  if tileVerdict sl img ≠ 0 then 0 else (bodyWords sl img).length - img.landed

/-- What the slot of a tile's header does with it as it lands: the body's verdict, if it was refused, or the slot's (R123). -/
def headerVerdict (s : State) (c : Nat) (img : TileImage) : Nat :=
  if img.dropped ≠ 0 then img.dropped
  else tileVerdict (SMap.look (fun _ => Slot.fresh) (coreAt s c).slots img.slot) img

/-- The header of a tile image lands: the buffer is full; a tile that was or now is refused returns a closed or stray
credit, and a stray fails the receiver's command too (R121, R123). -/
def landHeader (s : State) (c tag : Nat) (img : TileImage) : State :=
  let x := coreAt s c
  let sl := SMap.look (fun _ => Slot.fresh) x.slots img.slot
  let v := headerVerdict s c img
  if v = 0 then
    let b := tileBuf sl img.header
    let s := countUnits s c 76 64 32
    let s := spdStore s c (slotMeta sl.words + 32 * b) 4 0 0 (wordsBytes img.header) (hPoison img.header)
    onCore s c (fun x =>
      let sl := SMap.look (fun _ => Slot.fresh) x.slots img.slot
      { x with slots := SMap.put (fun _ => Slot.fresh) x.slots img.slot
                { sl with full := SMap.put (fun _ => 0) sl.full b (slotConsumers sl.words) } })
  else
    let s := returnCredit s c img.slot v 1 img.srcModule img.srcCore tag
    if v = 3 then failCore s c 0x0E 0 else s

/-! ### Writes from peer modules (R150, R298, R307) -/

/-- Answer a peer: a response message on the link its request came by. -/
def answer (s : State) (l m : Nat) (msg : Msg) : State :=
  if linkState s l = 4 ∨ linkState s l = 5 then enqueue s l ⟨msg, none⟩ else sendPeer s m ⟨msg, none⟩

/-- Requester of a write, for watchpoints and counters (R431). -/
def srcRequester (f : Flight) : Requester :=
  match f.src with
  | .core c => .core (Fin.ofNat 288 c)
  | .kpu u => .kpu (Fin.ofNat 12 u)
  | .sarabande => .sarabande
  | .pcie => .bar2 (Fin.ofNat 17 (hostFn f))
  | .peer m => .peer (Fin.ofNat 32 m)
  | .peerCore m _ => .peer (Fin.ofNat 32 m)

/-- A tile image of a peer's core, or its header, has landed: its numbers are no longer waited for, and the header is
acknowledged, so that the sender's fences and kernel boundaries see it landed (R149, R157, R158; log entry 11); the closed or
stray credit of a refused one says so instead. -/
def tileLanded (s : State) (f : Flight) (parts : Nat) (refused : Bool) : State :=
  match flightKey f, f.order, f.mtag with
  | some (m, key), some o, some (l, tag) =>
    if f.final && refused then landedOrder s key o
    else if f.final then answer (landedOrder s key o) l m ⟨6, 1, false, false, 0, 0, o, tag, 0, []⟩
    else (List.range parts).foldl (fun s k => landedOrder s key ((o + 65536 - parts + k) % 65536)) s
  | _, _, _ => s

/-- The destination of a write no longer belongs to the partition it is made for: memory that a commit gave to another owner
(R60, R271), or a core that one gave to another partition (R143). -/
def ownerMoved (s : State) (f : Flight) : Bool :=
  match f.part, f.dst with
  | some p, .mem pa => decide (ownerOf s pa ≠ some p)
  | some p, .spd c _ => decide (coreOwner s c ≠ some p)
  | some p, .tile c _ => decide (coreOwner s c ≠ some p)
  | _, _ => false

/-- A write of this module is lost (R151): its command fails with a status, and final writes that guard it are discarded with
their commands; a write of the host vanishes as R29 says; a peer is refused (R307). -/
def loseFlight (s : State) (f : Flight) (code : Nat) : State :=
  let s := dropFlight s f.id
  match f.src with
  | .pcie => s
  | .peer _ => match flightKey f, f.order with
    | some (m, _), some o =>
      let s := { s with lnk := { s.lnk with barred :=
        if (SMap.look (fun _ => none) s.lnk.barred m).isSome then s.lnk.barred else SMap.put (fun _ => none) s.lnk.barred m (some (o, code)) } }
      discardFinal s f code
    | _, _ => s
  | .peerCore _ _ => discardFinal s f code
  | _ =>
    let gone := s.ord.flights.filter (fun g => g.final && issuedBefore f g && sameDest f.dst g.dst)
    let s := gone.foldl (fun s g => dropFlight s g.id) s
    (f :: gone).foldl (fun s g => match g.ring with | some w => failCmd s w code (g.va.getD 0) | none => s) s

/-- A write takes effect where it lands and is no longer in flight; one whose destination changed hands is lost, and a tile for
such a core finds no slot of its partition (R123). -/
def landFlight (s : State) (f : Flight) : State :=
  let moved := ownerMoved s f
  let isTile := match f.dst with | .tile _ _ => true | _ => false
  if moved && !isTile then loseFlight s f 0x12 else
  let s := dropFlight s f.id
  match f.dst with
  | .mem pa =>
    let s := sliceWr s (srcRequester f) f.va f.ring pa f.data f.poison
    let s := if f.poison ∧ f.src = .pcie then poisonFound s 7 0 5 (pa / 64 * 64) else s
    match f.src, f.mtag, f.order with
    | .peer m, some (l, tag), some o => answer (landedOrder s m o) l m ⟨6, 1, false, false, 0, 0, o, tag, 0, []⟩
    | _, _, _ => s
  | .spd c a => spdStore s c a 4 0 0 f.data f.poison
  | .tile c img =>
    let img := if moved then { img with dropped := 2 } else img
    let tag := match f.mtag with | some (_, t) => t | none => 0
    tileLanded (if f.final then landHeader s c tag img else if moved then s else landBody s c img (bodyLeft s c img)) f img.parts
      (decide (headerVerdict s c img ≠ 0))
  | .host _ => s

/-- Earlier writes that a final write guards are still missing (R148 to R150): for a write from a peer an earlier number has
not landed, for a memory write where the ingress tracks source modules. -/
def finalHeld (s : State) (f : Flight) : Bool :=
  match flightKey f, f.order, f.dst with
  | some (_, key), some o, .mem _ => rdB s R.PRT_ORDER_STATUS_MEM_TRACK 0 0 && orderMissing s key o
  | some (_, key), some o, _ => orderMissing s key o
  | _, _, _ => earlierLeft s f

/-- A final write of a peer guards a write that is lost: its status (R151). The lost one was refused here, or a link to the peer
was lost and an earlier number is missing that no write here carries (log entry 120). -/
def guardLost (s : State) (f : Flight) : Option Nat :=
  match flightKey f, f.order with
  | some (m, key), some o =>
    let refused := match f.dst, SMap.look (fun _ => none) s.lnk.barred m with
      | .mem _, some (b, st) => if seqLe b o ∧ b ≠ o then some st else none
      | _, _ => none
    let here := s.ord.flights.any (fun g => decide (g.id ≠ f.id) && decide (flightKey g = some (m, key)) &&
      (match g.order with | some q => seqLe q o | none => false))
    if refused.isSome then refused
    else if SMap.look (fun _ => false) s.lnk.resync m && finalHeld s f && !here then some 0x06 else none
  | _, _ => none

/-- The destination core's domain is awake, or there is none. -/
def dstAwake (s : State) : Dst → Bool
  | .spd c _ => coreOn s c && !(coreAt s c).clearing
  | .tile c _ => coreOn s c && !(coreAt s c).clearing
  | _ => true

/-- Wake the core a write is for (R342). -/
def wakeDst (s : State) : Dst → State
  | .spd c _ => wakeCore s c
  | .tile c _ => wakeCore s c
  | _ => s

end Sys2Proof.Machine
end

