-- ==== Sys2Proof/Machine/Order.lean ====
section
/-!
DEFINITION. Sys2Proof/Machine/Order.lean: visibility and ordering (R20 to R23, R146 to R168), the sequencer's accesses, remote
accesses as they leave the module (R307), and the slices' reads, writes and atomics (R215, R217).
-/
namespace Sys2Proof.Machine

/-! ### The sequencer's data cache (R152) -/

def cacheSet (va : Nat) : Nat := va / 64 % 256

/-- Cached line of an address. -/
def cacheFind (x : Core) (va : Nat) : Option CLine := x.cache.find? (fun l => decide (l.va = va / 64))

/-- A line becomes the most recently used; of its set at most four stay (R152). -/
def cacheTouch (x : Core) (l : CLine) : Core :=
  let others := x.cache.filter (fun y => decide (y.va ≠ l.va))
  let same := others.filter (fun y => decide (cacheSet (y.va * 64) = cacheSet (l.va * 64)))
  let out := if same.length < 4 then none else same.getLast?.map (fun y => y.va)
  { x with cache := l :: others.filter (fun y => decide (some y.va ≠ out)) }

/-- Replace bytes [a, a + new.length) of a block of bytes that starts at `base`. -/
def overlay (base : Nat) (old : List Byte) (a : Nat) (new : List Byte) : List Byte :=
  old.zipIdx.map (fun b => if a ≤ base + b.2 then new.getD (base + b.2 - a) b.1 else b.1)

/-- Stores of a core's sequencer that have not landed, over bytes read at a physical address (R152). -/
def ownStores (s : State) (c pa : Nat) (bytes : List Byte) : List Byte :=
  s.ord.flights.foldl (fun bs f =>
    match f.dst with
    | .mem a => if f.src = .core c ∧ f.seq = true then overlay pa bs a f.data else bs
    | _ => bs) bytes

/-- Lines within a virtual range leave the cache. -/
def cacheDrop (x : Core) (lo hi : Nat) : Core :=
  { x with cache := x.cache.filter (fun l => !(decide (lo ≤ l.va * 64 + 63 ∧ l.va * 64 < hi))) }

/-! ### Sequencer accesses -/

def coreReq (c : Nat) : Requester := .core (Fin.ofNat 288 c)

/-- A read of host memory goes out on the host link, or fails where Bus Master Enable is clear or the interface is in ERROR (R212,
R289). -/
def hostReadOut (s : State) (fn addr len kind core : Nat) (ring : Option Nat) (dst : Option Dst) (peer : Option (Nat × Nat × Nat))
    (va : Option Nat) (src : Option (Nat × Nat)) : State :=
  if busMaster s fn && !trustedOff s fn then
    let id := s.ord.nextId
    let s := { s with ord := { s.ord with nextId := id + 1, reads := s.ord.reads ++ [⟨id, fn, addr, len, kind, core, ring, dst, peer, s.utime, va, src⟩] } }
    emit s (.hostRead fn addr len)
  else match ring with
    | some w => failCmd s w 0x21 0
    | none => s

/-- A sequencer load of the aligned 8 B word at `va` (R152, R153): from the data cache, from the home slice with the core's
own stores, or from host memory. A poisoned word is consumption (R395 case 2). Answers none where the access waits. -/
def coreLoad (s : State) (c va : Nat) (cached : Bool) : Option State :=
  let x := coreAt s c
  let w := x.ring.getD 0
  let p := ringPart s w
  let va := va / 8 * 8
  match (if cached then cacheFind x va else none) with
  | some l =>
    let s := count s c 58 1
    let v := BitVec.ofNat 64 (leNat ((l.data.drop (va % 64)).take 8))
    let s := onCore s c (fun x => { cacheTouch x l with loaded := v })
    some (if l.poison then consumePoison s w none (some va) else s)
  | none =>
    let n := if cached then 64 else 8
    if accessWaits s (some c) p (va / n * n) n true then none else
    let at_ := translate s (some c) p va false true
    let s := learn s (some c) p va false true (some w)
    match at_ with
    | .error e => some (xlateFail s w p va false (some c) e)
    | .ok pa =>
      if 2 ^ 51 ≤ pa then some (hostReadOut s (fnOfPart p) (pa - 2 ^ 51) 8 0 c (some w) none none (some va) (some (p, va)))
      else
        let s := if cached then count s c 59 1 else s
        let s := sliceRd s (coreReq c) (some va) (some w) (pa / n * n) n
        let (bytes, bad) := cohRead s (pa / n * n) n
        let bytes := ownStores s c (pa / n * n) bytes
        let v := BitVec.ofNat 64 (leNat ((bytes.drop (pa % n)).take 8))
        let s := onCore s c (fun x =>
          let x := { x with loaded := v }
          if cached then cacheTouch x ⟨va / 64, bytes, bad⟩ else x)
        some (if bad then consumePoison s w (cohPoisonAt s (pa / n * n) n) (some va) else s)

/-- Answer a next state where an access does not wait. -/
def orWait (s : State) (t : Option State) : Res := .next (t.getD s)

/-- SEQUENCER_LOAD (R152). -/
def execSequencerLoad (c : CoreIx) (va : Nat) (s : State) : Res :=
  if !canIssue s c then .next s else orWait s (coreLoad (count s c 56 1) c va true)

/-- SEQUENCER_STORE (R147, R152, R160): a store writes through, updating a line that is present, whose turn to be replaced does
not change (DESIGN CHOICE, log entry 118); with the final attribute it is a flagged final write. -/
def execSequencerStore (c : CoreIx) (va : Nat) (data : List Byte) (final : Bool) (s : State) : Res :=
  let w := (coreAt s c).ring.getD 0
  let p := ringPart s w
  if !canIssue s c || accessWaits s (some c) p va data.length false then .next s
  else
    let s := count s c 56 1
    let n := s.ord.nextId
    match pieces s (some c) p true true va data.length with
    | .error _ => .next (issueVirtual s (.core c) w p va data false final (some c))
    | .ok ps =>
      let s := onCore s c (fun x => { x with cache := x.cache.map (fun l => { l with data := overlay (l.va * 64) l.data va data }) })
      let s := ps.foldl (fun s q => countMem s (coreReq c) q.1 q.2 true) s
      .next (markFrom (issueVirtual s (.core c) w p va data false final (some c)) n (fun f => { f with seq := true }))

/-- A core's own write to the word at a physical address is in flight (R147). -/
def ownWordBusy (s : State) (c pa : Nat) : Bool :=
  s.ord.flights.any (fun f => match f.dst with
    | .mem a => decide (f.src = .core c) && decide (a / 8 * 8 ≤ pa ∧ pa < a + f.data.length)
    | _ => false)

/-- SEQUENCER_ATOMIC (R217): an atomic on one aligned word; the old value reaches the sequencer, and a poisoned one is
consumption. -/
def execSequencerAtomic (c : CoreIx) (va : Nat) (op : AtomicOp) (operand comparand : W64) (s : State) : Res :=
  if !canIssue s c then .next s
  else
    let w := (coreAt s c).ring.getD 0
    let p := ringPart s w
    if va % 8 ≠ 0 then .next (failCmd (count s c 56 1) w 0x1D 0)
    else if accessWaits s (some c) p va 8 true then .next s
    else match translate s (some c) p va true false with
      | .error e => .next (xlateFail (count s c 56 1) w p va true (some c) e)
      | .ok pa =>
        if ownWordBusy s c pa then .next s
        else
          let s := learn s (some c) p va true false (some w)
          let s := countMem (count s c 56 1) (coreReq c) pa 8 true
          let (s, old, bad) := sliceAtom s (coreReq c) (some va) (some w) pa op operand comparand false
          let s := onCore s c (fun x => { x with loaded := old })
          .next (if bad then consumePoison s w (some (pa / 64 * 64)) (some va) else s)

/-- VOLATILE_READ (R153). -/
def execVolatileRead (c : CoreIx) (va : Nat) (s : State) : Res :=
  if !canIssue s c then .next s else orWait s (coreLoad (count s c 56 1) c va false)

/-- ACQUIRE_READ (R154, R155): a volatile read of a flag word; the invalidation of the ranges registered for it begins and
nothing of the core issues until it is done. -/
def execAcquireRead (c : CoreIx) (va : Nat) (s : State) : Res :=
  if !canIssue s c then .next s
  else match coreLoad (count s c 56 1) c va false with
    | none => .next s
    | some t =>
      .next (onCore t c (fun x => if x.running then { x with acquiring := some (x.guards.filter (fun g => decide (g.flag = va / 8 * 8))) } else x))

/-- ACQUIRE_INVALIDATE_DONE (R154): every line of the registered ranges has left the cache. -/
def execAcquireInvalidateDone (c : CoreIx) (s : State) : Res :=
  match (coreAt s c).acquiring with
  | none => .next s
  | some gs => .next (onCore s c (fun x => { gs.foldl (fun x g => cacheDrop x g.lo g.hi) x with acquiring := none }))

/-- RANGE_INVALIDATE (R156). -/
def execRangeInvalidate (c : CoreIx) (lo hi : Nat) (s : State) : Res :=
  whenDo (canIssue s c && (coreAt s c).invalidating.isNone) s
    (onCore (count s c 56 1) c (fun x => { x with invalidating := some (lo, hi) }))

/-- RANGE_INVALIDATE_DONE (R156). -/
def execRangeInvalidateDone (c : CoreIx) (s : State) : Res :=
  match (coreAt s c).invalidating with
  | none => .next s
  | some r => .next (onCore s c (fun x => { cacheDrop x r.1 r.2 with invalidating := none }))

/-- FENCE (R157): nothing of the core issues until every earlier write has landed and every earlier read has returned. -/
def execFence (c : CoreIx) (s : State) : Res :=
  whenDo (canIssue s c) s
    (let n := s.ord.nextId
     { onCore (count s c 56 1) c (fun x => { x with fenceAt := some n }) with ord := { s.ord with nextId := n + 1 } })

/-- Writes and reads of a core numbered below `n` are finished, the writes of a copy being numbered with it; a tile to a peer is
finished when its header has landed there (R157). -/
def coreDone (s : State) (c n : Nat) : Bool :=
  !(s.ord.flights.any (fun f => decide (f.src = .core c ∧ f.num < n))) &&
  !(s.ord.reads.any (fun r => decide (r.core = c ∧ r.kind ≤ 1 ∧ r.id < n))) &&
  !(s.lnk.remote.any (fun r => decide (r.core = c ∧ r.id < n))) &&
  !((coreAt s c).gathers.any (fun g => decide (g.id < n))) &&
  !(s.kv.ops.any (fun o => decide (o.core = some c ∧ o.id < n)))

/-- FENCE_COMPLETE (R157). -/
def execFenceComplete (c : CoreIx) (s : State) : Res :=
  match (coreAt s c).fenceAt with
  | none => .next s
  | some n => whenDo (coreDone s c n) s (onCore s c (fun x => { x with fenceAt := none }))

/-! ### Remote accesses (R298, R305, R307) -/

/-- ATOMIC_OP of a message (R298). -/
def atomicCode : AtomicOp → Nat
  | .addI64 => 1
  | .addF64 => 2
  | .swap => 3
  | .cas => 4

/-- Send a request to a peer's window: it takes an MTAG, the egress numbers writes and atomics (R150), and the request awaits
its response. `len` of a READ travels in ORDER (log entry 11). -/
def sendRequest (s : State) (c m kind window off len op : Nat) (data : List Byte) (poison final : Bool) (va : Option Nat) : State :=
  let w := (coreAt s c).ring.getD 0
  let tag := s.lnk.nextTag
  let order := if kind = 2 then len else 0
  let id := s.ord.nextId
  let lnk := { s.lnk with
    nextTag := (tag + 1) % 65536
    remote := s.lnk.remote ++ [⟨tag, m, kind, order, c, some w, window, off, len, va, id⟩] }
  let s := { s with lnk := lnk, ord := { s.ord with nextId := id + 1 } }
  let s := countUnits s c (if kind = 2 then 72 else 73) 64 len
  sendPeer s m
    ⟨⟨kind, 0, final, poison, ringPart s w, c, order, tag, BitVec.ofNat 64 (off + window * 2 ^ 46 + op * 2 ^ 52), data⟩, some w⟩

/-- Pieces of at most 512 B of a length, as offset and size. -/
def pieces512 (n : Nat) : List (Nat × Nat) := (List.range ((n + 511) / 512)).map (fun k => (512 * k, min 512 (n - 512 * k)))

/-- REMOTE_LOAD (R307). -/
def execRemoteLoad (c : CoreIx) (m : Fin 32) (win : Fin 64) (off len : Nat) (s : State) : Res :=
  whenDo (canIssue s c) s (sendRequest (count s c 56 1) c m 2 win off len 0 [] false false none)

/-- A remote copy of a core to a peer still waits for host memory: its writes have no numbers yet (R150). -/
def copyUnnumbered (s : State) (c m : Nat) : Bool :=
  s.ord.reads.any (fun r => decide (r.kind = 1 ∧ r.core = c) && (match r.peer with | some (k, _, _) => decide (k = m) | none => false))

/-- REMOTE_STORE (R307, R150): a final one waits until the core's earlier writes to the peer are numbered. -/
def execRemoteStore (c : CoreIx) (m : Fin 32) (win : Fin 64) (off : Nat) (data : List Byte) (final : Bool) (s : State) : Res :=
  whenDo (canIssue s c && !(final && copyUnnumbered s c m)) s
    ((pieces512 data.length).foldl (fun s q =>
      sendRequest s c m 1 win (off + q.1) q.2 0 ((data.drop q.1).take q.2) false (final && decide (q.1 + q.2 = data.length)) none)
      (count s c 56 1))

/-- REMOTE_ATOMIC (R307, R217). -/
def execRemoteAtomic (c : CoreIx) (m : Fin 32) (win : Fin 64) (off : Nat) (op : AtomicOp) (operand comparand : W64) (s : State) : Res :=
  whenDo (canIssue s c) s (if off % 8 ≠ 0 then failCore (count s c 56 1) c 0x1D 0 else
    sendRequest (count s c 56 1) c m 4 win off 8 (atomicCode op) (leBytes 8 operand.toNat ++ leBytes 8 comparand.toNat) false false none)

/-- REMOTE_COPY (R307, R212): the data mover copies to or from a peer's window, in messages of at most 512 B. -/
def execRemoteCopy (c : CoreIx) (toPeer : Bool) (m : Fin 32) (win : Fin 64) (off va len : Nat) (s : State) : Res :=
  let w := (coreAt s c).ring.getD 0
  let p := ringPart s w
  if !canIssue s c || (toPeer && accessWaits s (some c) p va len true) then .next s
  else
    let s := count s c 56 1
    if !toPeer then
      .next ((pieces512 len).foldl (fun s q => sendRequest s c m 2 win (off + q.1) q.2 0 [] false false (some (va + q.1))) s)
    else
      .next ((pieces512 len).foldl (fun s q =>
        let ps := pieces s (some c) p false true (va + q.1) q.2
        let s := learnRange s (some c) p (va + q.1) q.2 false true (some w)
        match ps with
        | .error (e, at_) => xlateFail s w p at_ false (some c) e
        | .ok ps =>
          if ps.any (fun x => decide (2 ^ 51 ≤ x.1)) then
            (ps.foldl (fun (st : State × Nat) x =>
              (hostReadOut st.1 (fnOfPart p) (x.1 - 2 ^ 51) x.2 1 c (some w) none (some ((m : Nat), (win : Nat), off + q.1 + st.2)) none
                (some (p, va + q.1 + st.2)), st.2 + x.2)) (s, 0)).1
          else
            let s := ps.foldl (fun s x => sliceRd s (.mover c) (some (va + q.1)) (some w) x.1 x.2) s
            let (bytes, bad) := readPieces s ps
            let s := match bad, ps.findSome? (fun x => cohPoisonAt s x.1 x.2) with
              | true, some pa => poisonFound s 3 c 1 pa
              | _, _ => s
            sendRequest s c m 1 win (off + q.1) q.2 0 bytes bad false none) s)

/-! ### The network (R20 to R23, R31) -/

def flightAt (s : State) (n : Nat) : Option Flight := s.ord.flights.find? (fun f => decide (f.id = n))

/-- An earlier write of the same source to the same word of a scratchpad has not landed (R147). -/
def spdAfter (s : State) (f : Flight) : Bool :=
  match f.dst with
  | .spd c a => s.ord.flights.any (fun g => issuedBefore g f && (match g.dst with
      | .spd d b => decide (d = c ∧ b / 8 * 8 < a + f.data.length ∧ a / 8 * 8 < b + g.data.length)
      | _ => false))
  | _ => false

/-- REMOTE_WRITE_DELIVER (R21, R147): a transfer arrives at its destination's port; a write into a scratchpad that is not final
lands there at once; one to a core that sleeps wakes it and waits (R342). -/
def execRemoteWriteDeliver (n : Nat) (s : State) : Res :=
  match flightAt s n with
  | none => .next s
  | some f =>
    if f.leg ≠ .moving then .next s
    else if !dstAwake s f.dst then .next (wakeDst s f.dst)
    else
      match f.dst, f.final with
      | .spd _ _, false => if spdAfter s f then .next s else .next (landFlight s f)
      | _, _ => .next (setFlight s n (fun f => { f with leg := .arrived }))

/-- PACKET_RELEASE (R23): a packet held because a segment of its route was down leaves once the route is up. -/
def execPacketRelease (n : Nat) (s : State) : Res :=
  match flightAt s n with
  | none => .next s
  | some f => whenDo (decide (f.leg = .blocked) && routeUp s f) s (setFlight s n (fun f => { f with leg := .moving }))

/-! ### Flagged final writes (R148 to R151) -/

/-- Core of a core destination. -/
def dstCore : Dst → Option Nat
  | .spd c _ => some c
  | .tile c _ => some c
  | _ => none

/-- Final writes that hold an entry of a core port's table. -/
def portEntries (s : State) (c : Nat) : Nat :=
  (s.ord.flights.filter (fun f => decide (f.leg = .heldAtPort) && decide (dstCore f.dst = some c))).length

/-- Returned final writes of a core port that first arrived before a given one (R149). -/
def resentBefore (s : State) (c : Nat) (first : Option Nat) : Nat :=
  (s.ord.flights.filter (fun f => decide (f.leg ≠ .heldAtPort) && decide (dstCore f.dst = some c) &&
    match f.first, first with
    | some a, some b => decide (a < b)
    | some _, none => true
    | none, _ => false)).length

/-- FINAL_WRITE_CORE_ARRIVE (R149): a final write at a core port is applied, takes a tracking entry, or is returned to its
source. -/
def execFinalWriteCoreArrive (n : Nat) (s : State) : Res :=
  match flightAt s n with
  | none => .next s
  | some f =>
    match dstCore f.dst with
    | none => .next s
    | some c =>
      if !f.final || decide (f.leg ≠ .arrived) || !dstAwake s f.dst then .next s
      else if (guardLost s f).isSome then .next (discardFinal s f ((guardLost s f).getD 0))
      else if !finalHeld s f then .next (landFlight s f)
      else
        let since := if f.first.isSome then f.since else s.utime
        if portEntries s c + resentBefore s c f.first < 8 then
          .next (setFlight s n (fun f => { f with leg := .heldAtPort, since := since }))
        else
          let s := addSat s R.PRT_ORDER_STATUS_FINAL_RESENDS 0 0 1
          let a := s.ord.arrivals
          let s := setFlight s n (fun f => { f with leg := .returned, since := since, first := some (f.first.getD a) })
          .next { s with ord := { s.ord with arrivals := a + 1 } }

/-- FINAL_WRITE_RELEASE (R148, R150, R151): a held final write takes effect once every write it guards has landed; one that
guards a lost write is discarded. -/
def execFinalWriteRelease (n : Nat) (s : State) : Res :=
  match flightAt s n with
  | none => .next s
  | some f =>
    if f.leg ≠ .heldAtPort then .next s
    else if (guardLost s f).isSome then .next (discardFinal s f ((guardLost s f).getD 0))
    else whenDo (!finalHeld s f && dstAwake s f.dst) s (landFlight s f)

/-- FINAL_WRITE_RESEND (R23, R149). -/
def execFinalWriteResend (n : Nat) (s : State) : Res :=
  match flightAt s n with
  | none => .next s
  | some f => whenDo (decide (f.leg = .returned)) s (setFlight s n (fun f => { f with leg := if routeUp s f then .moving else .blocked }))

/-- FINAL_WRITE_SOURCE_RELEASE (R150): a memory final write leaves its source once its earlier writes are acknowledged. -/
def execFinalWriteSourceRelease (n : Nat) (s : State) : Res :=
  match flightAt s n with
  | none => .next s
  | some f =>
    whenDo (decide (f.leg = .heldAtSource) && !earlierLeft s f) s
      (setFlight s n (fun f => { f with leg := if routeUp s f then .moving else .blocked }))

/-- FINAL_TIMEOUT (R151): a final write held for 100 microseconds is discarded and its command fails. -/
def execFinalTimeout (n : Nat) (s : State) : Res :=
  match flightAt s n with
  | none => .next s
  | some f =>
    if f.final && (decide (f.leg = .heldAtSource) || decide (f.leg = .heldAtPort) || decide (f.leg = .returned)) &&
        decide (f.since + us 100 ≤ s.utime) then
      let s := addSat s R.PRT_ORDER_STATUS_FINAL_TIMEOUTS 0 0 1
      match f.src with
      | .peer _ => .next (loseFlight s f 0x0B)
      | .peerCore _ _ => .next (loseFlight s f 0x0B)
      | _ => match f.ring with
        | some w => .next (failCmd (dropFlight s n) w 0x0B 0)
        | none => .next (dropFlight s n)
    else .next s

/-! ### Slices -/

/-- A copy that the core issued before a write, and that still waits for its data, writes a word of it too (R147). -/
def copyToWord (s : State) (f : Flight) : Bool :=
  match f.src, f.va with
  | .core c, some va =>
    let meets := fun (d : Option Nat) (n : Nat) => match d with
      | some d => decide (d / 8 * 8 < va + f.data.length ∧ va / 8 * 8 < d + n)
      | none => false
    s.ord.reads.any (fun r => decide (r.kind = 1 ∧ r.core = c ∧ r.id < f.num) && r.dst.isNone && r.peer.isNone && meets r.va r.len) ||
    s.lnk.remote.any (fun r => decide (r.kind = 2 ∧ r.core = c ∧ r.id < f.num) && meets r.va r.len)
  | _, _ => false

/-- An earlier write that must land first: of the same source to the same word (R147), or, for a posted write of the host
link without Relaxed Ordering, any posted write before it (R161), or, for the last piece of a link message's write, the pieces
before it. -/
def landsAfter (s : State) (f : Flight) (pa : Nat) : Bool :=
  s.ord.flights.any (fun g => issuedBefore g f &&
    match g.dst with
    | .mem a => decide (a / 8 * 8 < (pa + f.data.length + 7) / 8 * 8 ∧ pa / 8 * 8 < a + g.data.length) ||
        (decide (f.src = .pcie) && !f.relaxed) || (decide (f.mtag = g.mtag) && f.mtag.isSome && g.order.isNone)
    | _ => false) || copyToWord s f

/-- SLICE_WRITE_LAND (R146, R147, R150, R161, R215): a write that has reached its home slice takes effect, one that misses
reading the line it covers in part; a final write of a peer whose earlier writes are missing is held at the ingress, and one
that guards a lost write is discarded. -/
def execSliceWriteLand (n : Nat) (s : State) (med : Medium := ⟨[], 0, 0⟩) : Res :=
  match flightAt s n with
  | none => .next s
  | some f =>
    match f.dst with
    | .mem pa =>
      if decide (f.leg ≠ .arrived) || writeWaits s pa f.data.length || landsAfter s f pa then .next s
      else if f.final && (guardLost s f).isSome then .next (discardFinal s f ((guardLost s f).getD 0))
      else if f.final && finalHeld s f then .next (setFlight s n (fun f => { f with leg := .heldAtPort, since := s.utime }))
      else .next (landFlight (eccWrite s pa f.data.length med 1) f)
    | _ => .next s

/-- SLICE_READ (R146, R209, R215, R222, R223): a read at its home slice returns its data with the mark; an address with no
home slice is a fault. -/
def execSliceRead (who : Requester) (pa len : Nat) (med : Medium) (s : State) : Res :=
  match placeOf s pa with
  | .absent => .fault .absentAddress
  | .host => .fault .absentAddress
  | _ =>
    if memWaits s pa len then .next s
    else
      let s := eccRead s pa len med 1
      let s := sliceRd s who none none pa len
      let (bytes, bad) := cohRead s pa len
      .next (emit s (.sliceData who bytes bad))

/-- SLICE_ATOMIC (R217). -/
def execSliceAtomic (who : Requester) (pa : Nat) (op : AtomicOp) (operand comparand : W64) (operandPoison : Bool) (s : State)
    (med : Medium := ⟨[], 0, 0⟩) : Res :=
  match placeOf s pa with
  | .absent => .fault .absentAddress
  | .host => .fault .absentAddress
  | _ =>
    if memWaits s pa 8 || decide (pa % 8 ≠ 0) then .next s
    else
      let (s, old, bad) := sliceAtom (eccRead s pa 8 med 1) who none none pa op operand comparand operandPoison
      .next (emit s (.sliceData who (leBytes 8 old.toNat) bad))

/-! ### Kernel boundaries (R158, R159) -/

/-- Writes, reads and messages of a ring's command are still under way, or a credit that refuses a tile of one of its cores
(R123, R158). -/
def ringBusy (s : State) (w : Nat) : Bool :=
  s.ord.credits.any (fun r => decide (2 ≤ r.kind ∧ (coreAt s r.core).ring = some w)) ||
  s.ord.flights.any (fun f => decide (f.ring = some w)) || s.ord.reads.any (fun r => decide (r.ring = some w)) ||
  s.lnk.remote.any (fun r => decide (r.ring = some w)) || s.kv.ops.any (fun o => decide (o.ring = w)) ||
  s.lnk.links.any (fun l => l.2.outq.any (fun t => decide (t.ring = some w)) ||
    l.2.sent.any (fun f => (frameMsgs f).any (fun t => decide (t.ring = some w)))) ||
  s.lnk.paused.any (fun q => q.2.any (fun t => decide (t.ring = some w)))

/-- Every other member of a ring's gang has announced the end of the kernel. -/
def gangAllEnded (s : State) (w : Nat) : Bool :=
  !rdB s R.SEQ_RQ_CFG_GANG_EN w 0 ||
  (List.range 32).all (fun m => decide (rd s R.SEQ_RQ_GANG_MODULES w 0 / 2 ^ m % 2 = 0) || decide (m = myModule s) ||
    decide (m ∈ (ringAt s w).gangEnded))

/-- Tell the other members of a ring's gang something of the kernel (R158, R262, R315): kind 0 it is held and resident here, 1
every write of it issued here has landed, 2 pre-emption, 3 this member was reset, 4 the job can be made resident again. The granule's
layout, with the number of kernels of the gang that have ended, is log entry 11. -/
def gangSend (s : State) (w kind : Nat) : State :=
  let id := match (ringAt s w).cmd with | some c => getBits (c.words.getD 3 0) 32 32 | none => 0
  let data := [BitVec.ofNat 8 kind, BitVec.ofNat 8 (rd s R.SEQ_RQ_CFG_GANG w 0), 0, 0] ++ leBytes 4 id ++ leBytes 8 (ringAt s w).gangCount
  ((List.range 32).filter (fun m => decide (rd s R.SEQ_RQ_GANG_MODULES w 0 / 2 ^ m % 2 = 1) && decide (m ≠ myModule s))).foldl
    (fun s m => sendPeer s m (controlMsg 8 0 data)) s

/-- A core leaves its kernel at the boundary: its data cache is invalidated, its landing slots are disarmed and its harps and
credits start afresh for the next one (R40, R119, R158). -/
def leaveKernel (s : State) (k : Nat) : State :=
  let s := onCore (abandonCore s k) k (fun x => { x with cache := [], ring := none, slots := [], credits := [], sent := [] })
  { s with ord := { s.ord with credits := s.ord.credits.filter (fun r => decide (r.core ≠ k)) } }

/-- KERNEL_BOUNDARY (R158): every write of the command has landed, on every member of its gang, and the data caches of its
cores are invalidated. A command that is not a kernel ends here (R250). -/
def execKernelBoundary (w : RingIx) (s : State) : Res :=
  match (ringAt s w).cmd with
  | none => .next s
  | some c =>
    if c.phase ≠ .ended ∨ ringBusy s w = true then .next s
    else
      let tell := rdB s R.SEQ_RQ_CFG_GANG_EN w 0 && !decide (myModule s ∈ (ringAt s w).gangEnded) && decide (getBits (c.words.getD 0 0) 8 4 = 1)
      let s := if tell then gangSend (onRing s w (fun r => { r with gangEnded := r.gangEnded ++ [myModule s] })) w 1 else s
      if c.causes = 0 ∧ decide (getBits (c.words.getD 0 0) 8 4 = 1) ∧ gangAllEnded s w = false then .next s
      else
        let run := if getBits (c.words.getD 0 0) 8 4 = 1 then c.runNs else s.utime - c.started
        .next (onRing (c.cores.foldl (fun s k => if (coreAt s k).ring = some (w : Nat) then leaveKernel s k else s) s) w
          (fun r => { r with cmd := some { c with phase := .bounded, runNs := run }, gangEnded := [] }))

/-! ### Guard ranges (R166, R167) -/

/-- Valid entries of a partition's guard table in a register file view. -/
def guardSet (get : Fld → Nat → Nat → Nat) (p : Nat) : List Guard :=
  ((List.range 32).filter (fun e => decide (get R.PRT_GUARD_FLAG_VALID p e = 1))).map (fun e =>
    ⟨get R.PRT_GUARD_FLAG_FLAG_VA p e * 8, get R.PRT_GUARD_BASE_BASE p e * 64, get R.PRT_GUARD_END_END p e * 64⟩)

def guardRegs (p : Nat) : List Nat :=
  (List.range 32).flatMap (fun e => [R.PRT_GUARD_FLAG_VALID.at p e, R.PRT_GUARD_BASE_BASE.at p e, R.PRT_GUARD_END_END.at p e])

/-- Apply a commit of a guard table: refused where a valid entry's END is not above its BASE; otherwise the set goes to the
partition's cores, at once to those that sleep or are off. -/
def applyGuards (s : State) (p : Nat) (cp : List (Nat × W64)) : State :=
  let gs := guardSet (rdIn cp) p
  if gs.any (fun g => decide (g.hi ≤ g.lo)) then wr s R.PRT_GUARD_STATUS_REJECTED p 0 1
  else
    let s := commitCopy s cp
    let s := wr s R.PRT_GUARD_STATUS_ENTRIES p 0 gs.length
    let s := wr s R.PRT_GUARD_STATUS_PENDING p 0 1
    let s := { s with ord := { s.ord with guardCopy := SMap.put (fun _ => []) s.ord.guardCopy p gs } }
    (partCores s p).foldl (fun s c => if coreOn s c then s else onCore s c (fun x => { x with guards := gs })) s

/-- Commits of a guard table that wait. -/
def guardQueue (s : State) (p : Nat) : List (List (Nat × W64)) := SMap.look (fun _ => []) s.ord.guardWait p

def setGuardQueue (s : State) (p : Nat) (q : List (List (Nat × W64))) : State :=
  { s with ord := { s.ord with guardWait := SMap.put (fun _ => []) s.ord.guardWait p q } }

/-- GUARD_COMMIT (R166, R386): a commit is refused or starts copying; one written while another is in progress waits with the
shadow as it stands. -/
def execGuardCommit (p : PartIx) (s : State) : Res :=
  let cp := copyShadow s (guardRegs p)
  if rdB s R.PRT_GUARD_STATUS_PENDING p 0 then .next (setGuardQueue s p (guardQueue s p ++ [cp]))
  else .next (applyGuards s p cp)

/-- Commits that wait are applied in turn until one is being copied. -/
def drainGuards : Nat → State → Nat → State
  | 0, s, _ => s
  | n + 1, s, p =>
    match rdB s R.PRT_GUARD_STATUS_PENDING p 0, guardQueue s p with
    | false, cp :: q => drainGuards n (applyGuards (setGuardQueue s p q) p cp) p
    | _, _ => s

/-- GUARD_COPY_DONE (R166): every core of the partition holds the set; a waiting commit is applied. -/
def execGuardCopyDone (p : PartIx) (s : State) : Res :=
  if !rdB s R.PRT_GUARD_STATUS_PENDING p 0 then .next s
  else
    let gs := SMap.look (fun _ => []) s.ord.guardCopy p
    let s := (partCores s p).foldl (fun s c => onCore s c (fun x => { x with guards := gs })) s
    let s := wr s R.PRT_GUARD_STATUS_PENDING p 0 0
    let s := { s with ord := { s.ord with guardCopy := SMap.put (fun _ => []) s.ord.guardCopy p [] } }
    .next (drainGuards ((guardQueue s p).length) s p)

/-- The guard table of a partition is cleared: every VALID bit is 0 and nothing waits (R167). -/
def clearGuards (s : State) (p : Nat) : State :=
  let s := setGuardQueue (resetRegs s (guardRegs p)) p []
  let s := { s with ord := { s.ord with guardCopy := SMap.put (fun _ => []) s.ord.guardCopy p [] } }
  let s := wr (wr s R.PRT_GUARD_STATUS_PENDING p 0 0) R.PRT_GUARD_STATUS_ENTRIES p 0 0
  (partCores s p).foldl (fun s c => onCore s c (fun x => { x with guards := [] })) s

end Sys2Proof.Machine
end

