-- ==== Sys2Proof/Machine/Tiles.lean ====
section
/-!
DEFINITION. Sys2Proof/Machine/Tiles.lean: tile streaming and row gathers (R101 to R103, R117 to R124).
-/
namespace Sys2Proof.Machine

/-- Header of a tile image (R117). -/
def tileHeader (s : State) (c h : Nat) (o : OutStage) (seq : Nat) : List W64 :=
  let row := match o.rowBytes with | r :: _ => r.length | [] => 0
  let body := o.nrows * row + o.scales.length + (if o.hasStats then o.stats.length else 0)
  [o.exc,
   BitVec.ofNat 64 (o.rowBlock + o.colBlock * 2 ^ 16 + o.nrows * 2 ^ 32 + o.ncols * 2 ^ 40 + o.fmt * 2 ^ 48 +
     (if o.scaled then 2 ^ 52 else 0) + (if o.axis then 2 ^ 53 else 0) + (if o.hasStats then 2 ^ 54 else 0)),
   BitVec.ofNat 64 (c + myModule s * 2 ^ 16 + h * 2 ^ 21 + body * 2 ^ 32),
   BitVec.ofNat 64 (seq % 2 ^ 32)]

/-- Key of target t of a destination entry: its landing slot. -/
def destKey (s : State) (d : List W64) (t : Nat) : Nat :=
  targetKey (if tKind d t = 2 then tModule d t else myModule s) (tCore d t) (tSlot d t)

/-- Cut bytes into messages of at most 512 B (R298). -/
def chunks512 : Nat → List Byte → List (List Byte)
  | 0, _ => []
  | n + 1, bs => match bs with | [] => [] | _ => bs.take 512 :: chunks512 n (bs.drop 512)

/-- TILE messages of an image: the body padded to whole granules, then the header with FINAL set and MTAG `tag`. -/
def tileMsgs (s : State) (w c core slot tag : Nat) (img : TileImage) : List TxMsg :=
  let body := img.rowBytes.flatten ++ img.scales ++ img.stats
  let body := body ++ List.replicate ((16 - body.length % 16) % 16) 0
  let mk := fun (off : Nat) (fin : Bool) (data : List Byte) =>
    (⟨⟨7, 2, fin, hPoison img.header, ringPart s w, c, 0, if fin then tag else 0,
      BitVec.ofNat 64 (core + slot * 512 + off * 65536), data⟩, some w⟩ : TxMsg)
  (chunks512 (body.length / 512 + 1) body).zipIdx.map (fun x => mk (x.2 * 32) false x.1) ++
    [mk (body.length / 16) true (wordsBytes img.header)]

/-- A target of an output stage can be sent now: it has not been sent, and a landing slot has a credit (R120). -/
def sendable (s : State) (x : Core) (o : OutStage) (t : Nat) : Bool :=
  decide (tKind o.dest t ≠ 0) && !decide (t ∈ o.sent) &&
    (decide (tKind o.dest t = 3) || decide (SMap.look (fun _ => 0) x.credits (destKey s o.dest t) ≠ 0))

/-- Target t has been sent, by the writes numbered from n up (R121). -/
def noteSent (s : State) (c h t n : Nat) : State :=
  let ids := (List.range (s.ord.nextId - n)).map (fun i => n + i)
  onHarp s c h (fun hp => { hp with out := hp.out.map (fun o => { o with sent := o.sent ++ [t], writes := o.writes ++ ids }) })

/-- TILE_SEND (R117, R118, R120, R121): one target of the output stage is sent, the first in list order that can be: a landing
slot while a credit is held, or module memory. A KIND 3 row that does not fill its last byte is written with the unused high
bits zero, as the rows of a tile image are (DESIGN CHOICE, log entry 115). -/
def execTileSend (c : CoreIx) (h : HarpIx) (t : Fin 4) (s : State) : Res :=
  match (harpAt s c h).out with
  | none => .next s
  | some o =>
    let kind := tKind o.dest t
    let w := (coreAt s c).ring.getD 0
    let x := coreAt s c
    if !sendable s x o t || (List.range t).any (sendable s x o) then .next s
    else
        let key := destKey s o.dest t
        let held := SMap.look (fun _ => 0) x.credits key
        let n0 := s.ord.nextId
        let rowVa := fun (i : Nat) =>
          tVa o.dest t + (o.rowBlock * 32 + i) * 64 * tStride o.dest t + o.colBlock * 32 * fmtBits o.fmt / 8
        if kind = 3 ∧ o.rowBytes.zipIdx.any (fun rb => accessWaits s (some c) (ringPart s w) (rowVa rb.2) rb.1.length false) = true then .next s
        else if kind = 3 then
          let sent := fun s => noteSent s c h t n0
          .next (sent (o.rowBytes.zipIdx.foldl (fun s rb =>
            issueVirtual s (.core c) w (ringPart s w) (rowVa rb.2) rb.1 (decide (getBits o.exc 8 1 = 1)) false (some c)) s))
        else
          let seq := SMap.look (fun _ => 0) x.sent key
          let hd := tileHeader s c h o seq
          let img : TileImage := ⟨hd, o.rowBytes, o.scales, if o.hasStats then o.stats else [], c, myModule s, tSlot o.dest t, 0, 0, 0⟩
          let n := dw hd 2 32 32 + 32
          let s := onCore s c (fun x => { x with
              credits := SMap.put (fun _ => 0) x.credits key (held - 1)
              sent := SMap.put (fun _ => 0) x.sent key (seq + 1) })
          if kind = 1 then
            let s := countUnits s c 74 64 n
            let p := hPoison hd
            let s := issue s (flightOf (.core c) (.tile (tCore o.dest t) img) [] p false (some w) (some (ringPart s w)) none)
            .next (noteSent (issue s (flightOf (.core c) (.tile (tCore o.dest t) img) [] p true (some w) (some (ringPart s w)) none)) c h t n0)
          else
            let s := countUnits s c 75 64 n
            let tag := s.lnk.nextTag
            let s := { s with
              lnk := { s.lnk with
                nextTag := (tag + 1) % 65536
                remote := s.lnk.remote ++ [⟨tag, tModule o.dest t, 7, 0, c, some w, 0, tCore o.dest t, 0, none, n0⟩] }
              ord := { s.ord with nextId := n0 + 1 } }
            .next (noteSent ((tileMsgs s w c (tCore o.dest t) (tSlot o.dest t) tag img).foldl
              (fun s m => sendPeer s (tModule o.dest t) m) s) c h t n0)

/-- OUTPUT_STAGE_RELEASE (R121): every target has been sent, and none of its writes is still held at the core (R23). -/
def execOutputStageRelease (c : CoreIx) (h : HarpIx) (s : State) : Res :=
  match (harpAt s c h).out with
  | none => .next s
  | some o =>
    whenDo ((List.range 4).all (fun t => decide (tKind o.dest t = 0) || decide (t ∈ o.sent)) &&
        !s.ord.flights.any (fun f => decide (f.leg = .blocked) && decide (f.id ∈ o.writes))) s
      (onHarp s c h (fun hp => { hp with out := none }))

/-- A target of an output stage waits for a credit. -/
def waitsForCredit (s : State) (x : Core) (o : OutStage) : Bool :=
  (List.range 4).any (fun t => decide (tKind o.dest t = 1 ∨ tKind o.dest t = 2) && !decide (t ∈ o.sent) &&
    decide (SMap.look (fun _ => 0) x.credits (destKey s o.dest t) = 0))

/-- TILE_CREDIT_TIMEOUT (R122, R103): a send, or with no harp a gather, that has waited 100 microseconds for a credit
fails its command. Time that the job spends saved counts (DESIGN CHOICE, log entry 122). -/
def execTileCreditTimeout (c : CoreIx) (h : Option HarpIx) (s : State) : Res :=
  let x := coreAt s c
  match h with
  | some h =>
    match (harpAt s c h).out with
    | none => .next s
    | some o => whenDo (waitsForCredit s x o && decide (o.since + us 100 ≤ s.utime)) s (failCore s c 0x0C 0)
  | none =>
    whenDo (x.gathers.any (fun g => match g.waits with | some t => decide (t + us 100 ≤ s.utime) | none => false)) s
      (failCore s c 0x0C 0)

/-- LANDING_SLOT_ARM (R119, R120): the slot is armed with its operand and DEPTH credits go to its source; a reserved
encoding fails the command. -/
def execLandingSlotArm (c : CoreIx) (slot : Fin 16) (words : List W64) (s : State) : Res :=
  if !canIssue s c then .next s
  else
    let s := count s c 56 1
    if slotBad words then .next (failCore s c 0x1D 0)
    else
      let s := onCore s c (fun x => { x with slots := SMap.put (fun _ => Slot.fresh) x.slots slot ⟨true, words, [], 0⟩ })
      .next (returnCredit s c slot 0 (slotDepth words) (slotSrcModule words) (slotSrcCore words) 0)

/-- TILE_IMAGE_LAND (R121, R139, R141): further words of a tile image's body, or its header once every earlier write of its
source to the core has landed, land. -/
def execTileImageLand (n : Nat) (s : State) (words : Nat := 1) : Res :=
  match s.ord.flights.find? (fun f => decide (f.id = n)) with
  | none => .next s
  | some f =>
    match f.dst with
    | .tile c img =>
      whenDo (decide (f.leg = .arrived) && dstAwake s (.spd c 0) && !(f.final && finalHeld s f)) s
        (if f.final ∨ ownerMoved s f = true ∨ bodyLeft s c img ≤ max 1 words then landFlight s f
         else setFlight (landBody s c img (max 1 words)) f.id
          (fun g => { g with dst := .tile c { img with landed := img.landed + max 1 words } }))
    | _ => .next s

/-- A checked pass may still take its first K step: its core has not stopped, or it takes up an undrained set or a held partner
(R48, R49, R259). -/
def mayStart (x : Core) (hp : Harp) (p : Pass) : Bool :=
  !x.stopped || decide (pFill p.desc = 2) || hp.partner.isSome ||
  (match hp.active with | some q => passIsPartner x q.desc | none => false)

/-- PASS_CREDIT_WAIT_END (R120, R259): every buffer that a waiting pass reads is full. -/
def execPassCreditWaitEnd (c : CoreIx) (h : HarpIx) (s : State) : Res :=
  match (harpAt s c h).next with
  | none => .next s
  | some p =>
    whenDo (!p.ready && p.bufs.all (bufferFull (coreAt s c)) && mayStart (coreAt s c) (harpAt s c h) p) s
      (onHarp s c h (fun hp => { hp with next := some { p with ready := true } }))

/-- A waiting gather takes a credit of its slot and starts (R103). -/
def startGather (s : State) (c : Nat) (key : Nat) : State :=
  let x := coreAt s c
  match x.gathers.find? (fun g => g.waits.isSome && decide (targetKey (myModule s) c (match g.buf with | some b => b.1 | none => 99) = key)) with
  | none => s
  | some g =>
    let n := SMap.look (fun _ => 0) x.credits key
    if n = 0 then s
    else setCore s c { x with
      credits := SMap.put (fun _ => 0) x.credits key (n - 1)
      gathers := x.gathers.map (fun y => if y.id = g.id then { y with waits := none } else y) }

/-- CREDIT_ARRIVE (R23, R103, R120, R123): the n-th credit under way reaches its core, once every segment of its route is up; a closed or stray one fails the sender's
command, an arming one starts the count of tiles afresh. Each credit starts a gather that waits for one. -/
def execCreditArrive (n : Nat) (s : State) : Res :=
  match s.ord.credits[n]? with
  | none => .next s
  | some cr =>
    if !rowsUp s cr.row (cr.core / 18) then .next s else
    let s := { s with ord := { s.ord with credits := s.ord.credits.eraseIdx n } }
    if cr.kind = 2 then .next (failCore s cr.core 0x0D 0)
    else if cr.kind = 3 then .next (failCore s cr.core 0x0E 0)
    else
      let s := onCore s cr.core (fun x => { x with
        credits := SMap.put (fun _ => 0) x.credits cr.key (SMap.look (fun _ => 0) x.credits cr.key + cr.count)
        sent := if cr.kind = 0 then SMap.put (fun _ => 0) x.sent cr.key 0 else x.sent })
      .next ((List.range cr.count).foldl (fun s _ => startGather s cr.core cr.key) s)

/-! ### Gathers (R101 to R103, R138) -/

def gRowBytes (d : List W64) : Nat := dw d 0 0 16
def gScaleBytes (d : List W64) : Nat := dw d 0 16 16
def gCount (d : List W64) : Nat := dw d 0 32 16
def gSlot (d : List W64) : Bool := decide (dw d 0 48 1 = 1)
def gSkip (d : List W64) : Bool := decide (dw d 0 49 1 = 1)
def gTable (d : List W64) : Nat := dw d 1 0 48
def gScale (d : List W64) : Nat := dw d 2 0 48
def gRows (d : List W64) : Nat := dw d 3 0 32
def gIndex (d : List W64) : Nat := dw d 3 32 32
def gDest (d : List W64) : Nat := dw d 4 0 32
def gScaleDest (d : List W64) : Nat := dw d 4 32 32
def gBias (d : List W64) : Nat := dw d 5 0 32

/-- Address of byte `b` of gathered row `n` at origin `o` (R138). -/
def gatherByte (o rowBytes n b : Nat) : Nat :=
  let wc := 512 - o % 512
  let np := (rowBytes + wc - 1) / wc
  (o / 512 + 32 * (n / 32 * np + b / wc) + n % 32) * 512 + o % 512 + b % wc

/-- Address of scale byte `kb` of gathered row `n` (R138). -/
def gatherScale (o scaleBytes n kb : Nat) : Nat := o + 32 * (n / 32 * scaleBytes + kb) + n % 32

/-- Rows or scales of a gather at their origins reach beyond the scratchpad (R128, R138). -/
def gatherEndBad (o so : Nat) (d : List W64) : Bool :=
  let last := gCount d - 1
  (List.range 32).any (fun i => decide (spdBytes ≤ gatherByte o (gRowBytes d) (last - min i last) (gRowBytes d - 1))) ||
  (decide (gScaleBytes d ≠ 0) && decide (spdBytes < gatherScale so (gScaleBytes d) (last / 32 * 32) (gScaleBytes d - 1) + 32))

/-- A gather descriptor is a reserved encoding (R14, R101, R128, R130). With DEST_SLOT = 1 the bits of DEST_ADDR above the slot
number are taken to be reserved (DESIGN CHOICE, log entry 116). -/
def gatherBad (d : List W64) : Bool :=
  decide (d.length ≠ 6) || decide (dw d 0 50 14 ≠ 0) || decide (dw d 1 48 16 ≠ 0) || decide (dw d 2 48 16 ≠ 0) ||
  decide (dw d 5 32 32 ≠ 0) || decide (gRowBytes d < 8 ∨ gRowBytes d % 8 ≠ 0) || decide (gScaleBytes d % 8 ≠ 0) ||
  decide (gCount d = 0) || (decide (gScaleBytes d = 0) && decide (gScale d ≠ 0 ∨ gScaleDest d ≠ 0)) ||
  decide (gIndex d % 4 ≠ 0) || vecBad (gIndex d) (4 * gCount d) ||
  decide (gScaleDest d % 32 ≠ 0) ||
  (if gSlot d then decide (15 < gDest d) else decide (gDest d % 8 ≠ 0) || gatherEndBad (gDest d) (gScaleDest d) d)

/-- Origins of a gather's rows and scales: the descriptor's, or those of its slot's buffer (R103, R139). -/
def gatherOrigins (x : Core) (g : Gather) : Nat × Nat :=
  match g.buf with
  | none => (gDest g.desc, gScaleDest g.desc)
  | some (n, b) =>
    let o := bufOrigin (SMap.look (fun _ => Slot.fresh) x.slots n) b
    (o, tileByte o 32 0)

/-- Table row of destination row n: none for a skip (R102). -/
def gatherRow (d : List W64) (x : Nat) : Option Nat :=
  let a := (x + 2 ^ 32 - gBias d) % 2 ^ 32
  if x = 0xFFFFFFFF ∨ gRows d ≤ a then none else some a

/-- An index is out of range and not skipped (R102). -/
def gatherOut (d : List W64) (x : Nat) : Bool :=
  decide (x ≠ 0xFFFFFFFF ∧ gRows d ≤ (x + 2 ^ 32 - gBias d) % 2 ^ 32) && !gSkip d

/-- Footprint of a gather: its indices, and its rows at a plain origin; rows that go to a landing buffer are ordered by
credits (R144). -/
def gatherFootprint (owner : Nat) (d : List W64) : List Footprint :=
  (⟨owner, 0, 2, 0, 0, gIndex d, gIndex d + 4 * gCount d, false⟩ : Footprint) ::
  (if gSlot d then [] else
    (List.range (gCount d)).flatMap (fun n =>
      let wc := 512 - gDest d % 512
      (List.range ((gRowBytes d + wc - 1) / wc)).map (fun q =>
        let a := gatherByte (gDest d) (gRowBytes d) n (q * wc)
        (⟨owner, 1, 2, 0, 0, a, a + min wc (gRowBytes d - q * wc), true⟩ : Footprint))) ++
    (if gScaleBytes d = 0 then [] else (List.range (gCount d)).flatMap (fun n => (List.range (gScaleBytes d)).map (fun kb =>
        let a := gatherScale (gScaleDest d) (gScaleBytes d) n kb
        (⟨owner, 2, 2, 0, 0, a, a + 1, true⟩ : Footprint)))))

/-- GATHER (R101 to R103): the descriptor and its indices are checked and the gather starts, or waits for a credit of its
slot. Every index is checked before any row is fetched (DESIGN CHOICE, log entry 117). -/
def execGather (c : CoreIx) (desc : List W64) (s : State) : Res :=
  if !canIssue s c then .next s
  else
    let x := coreAt s c
    let w := x.ring.getD 0
    let s := count s c 56 1
    let sl := SMap.look (fun _ => Slot.fresh) x.slots (gDest desc)
    let o := bufOrigin sl (sl.gathers % slotDepth sl.words)
    if gatherBad desc || (gSlot desc && (!sl.armed || decide (slotSrcCore sl.words ≠ (c : Nat) ∨ slotSrcModule sl.words ≠ myModule s) ||
        gatherEndBad o (tileByte o 32 0) desc)) then
      .next (failCmd s w 0x1D 0)
    else
      let id := s.ord.nextId
      match register s c (gatherFootprint (30000 + id) desc) with
      | .waits => .next s
      | .faults t => .next t
      | .ok s =>
        let ix := unpackElems 32 (gCount desc) (spdRead s.spd c (gIndex desc) (4 * gCount desc))
        let s := countUnits (spdAccess s c (gIndex desc) (4 * gCount desc) 2 false 0 0) c 64 64 (4 * gCount desc)
        if spdPoison s.spd c (gIndex desc) (4 * gCount desc) then .next (consumePoison s w none none)
        else if ix.any (gatherOut desc) then .next (failCmd s w 0x1B 0)
        else
          let s := { s with ord := { s.ord with nextId := id + 1 } }
          let key := targetKey (myModule s) c (gDest desc)
          let n := SMap.look (fun _ => 0) (coreAt s c).credits key
          let buf := if gSlot desc then some (gDest desc, sl.gathers % slotDepth sl.words) else none
          let waits := if gSlot desc ∧ n = 0 then some s.utime else none
          .next (onCore s c (fun x => { x with
            gathers := x.gathers ++ [⟨desc, ix, List.range (gCount desc), buf, waits, w, id⟩]
            credits := if gSlot desc ∧ n ≠ 0 then SMap.put (fun _ => 0) x.credits key (n - 1) else x.credits
            slots := if gSlot desc then SMap.put (fun _ => Slot.fresh) x.slots (gDest desc) { sl with gathers := sl.gathers + 1 } else x.slots }))

/-- Bytes and first poisoned line of a virtual range read by a data mover, with the state after the slices served it. -/
def moverRead (s : State) (c w p va n : Nat) : Except (XFault × Nat) (State × List Byte × List (Nat × Nat)) :=
  let ps := pieces s (some c) p false false va n
  let s := learnRange s (some c) p va n false false (some w)
  match ps with
  | .error e => .error e
  | .ok ps => .ok (ps.foldl (fun s q => sliceRd s (.mover (Fin.ofNat 288 c)) (some va) (some w) q.1 q.2) s, (readPieces s ps).1, ps)

/-- Is byte `i` of pieces on a poisoned line. -/
def piecePoison (s : State) : List (Nat × Nat) → Nat → Nat → Bool
  | [], _, _ => false
  | (pa, n) :: t, i, k => if i < n then (cohRead s (pa + i) (min k (n - i))).2 || (decide (n - i < k) && piecePoison s t 0 (k - (n - i))) else
      piecePoison s t (i - n) k

/-- Write a moved row: its bytes in segments, then its poisoned words with their marks (R102, R394). `g` gives the address
of a byte. -/
def storeMoved (s : State) (c kind : Nat) (bytes : List Byte) (poison : Nat → Bool) (g : Nat → Nat) (seg : Nat → Nat) : State :=
  let s := (List.range bytes.length).foldl (fun (st : State × Nat) i =>
    if i < st.2 then st
    else
      let k := max 1 (seg i)
      (spdStore st.1 c (g i) kind 0 0 ((bytes.drop i).take k) false, i + k)) (s, 0) |>.1
  (List.range ((bytes.length + 7) / 8)).foldl (fun s q =>
    if poison (8 * q) then putSpd s c (g (8 * q)) ((bytes.drop (8 * q)).take 8) true else s) s

/-- The table row of a gathered row of core c waits. -/
def gatherWaits (s : State) (c : Nat) (g : Gather) (row : Nat) : Bool :=
  match gatherRow g.desc (g.ix.getD row 0xFFFFFFFF) with
  | none => false
  | some a => accessWaits s (some c) (ringPart s g.ring) (gTable g.desc + a * gRowBytes g.desc) (gRowBytes g.desc) true ||
      accessWaits s (some c) (ringPart s g.ring) (gScale g.desc + a * gScaleBytes g.desc) (gScaleBytes g.desc) true

/-- GATHER_ROW_LAND (R102, R103, R138): one row and its scales land; with the last row the gather is complete and a slot's
buffer is full. -/
def execGatherRowLand (c : CoreIx) (row : Nat) (s : State) : Res :=
  let x := coreAt s c
  match x.gathers.find? (fun g => g.waits.isNone && decide (row ∈ g.left)) with
  | none => .next s
  | some g =>
    let d := g.desc
    let w := g.ring
    let p := ringPart s w
    let (o, so) := gatherOrigins x g
    let wc := 512 - o % 512
    let at_ := fun b => gatherByte o (gRowBytes d) row b
    let seg := fun b => wc - b % wc
    let scaleAt := fun kb => gatherScale so (gScaleBytes d) row kb
    let finish : State → State := fun s =>
      let left := g.left.filter (fun r => decide (r ≠ row))
      if left.isEmpty then
        let s := release s c (30000 + g.id)
        onCore s c (fun x =>
          let x := { x with gathers := x.gathers.filter (fun y => decide (y.id ≠ g.id)) }
          match g.buf with
          | none => x
          | some (n, b) =>
            let sl := SMap.look (fun _ => Slot.fresh) x.slots n
            { x with slots := SMap.put (fun _ => Slot.fresh) x.slots n { sl with full := SMap.put (fun _ => 0) sl.full b (slotConsumers sl.words) } })
      else onCore s c (fun x => { x with gathers := x.gathers.map (fun y => if y.id = g.id then { y with left := left } else y) })
    if gatherWaits s c g row then .next s else
    match gatherRow d (g.ix.getD row 0xFFFFFFFF) with
    | none =>
      let s := storeMoved s c 2 (List.replicate (gRowBytes d) 0) (fun _ => false) at_ seg
      .next (finish (storeMoved s c 2 (List.replicate (gScaleBytes d) 0) (fun _ => false) scaleAt (fun _ => 1)))
    | some a =>
      match moverRead s c w p (gTable d + a * gRowBytes d) (gRowBytes d), moverRead s c w p (gScale d + a * gScaleBytes d) (gScaleBytes d) with
      | .error (e, va), _ => .next (xlateFail s w p va false (some c) e)
      | _, .error (e, va) => .next (xlateFail s w p va false (some c) e)
      | .ok (s1, bytes, ps), .ok (_, sbytes, sps) =>
        let s2 := sps.foldl (fun s q => sliceRd s (.mover c) (some (gScale d)) (some w) q.1 q.2) s1
        let bad := (ps ++ sps).findSome? (fun q => cohPoisonAt s q.1 q.2)
        let s2 := match bad with | some pa => poisonFound s2 3 c 1 pa | none => s2
        let s2 := storeMoved s2 c 2 bytes (fun i => piecePoison s ps i 8) at_ seg
        let s2 := (List.range sbytes.length).foldl (fun s' kb =>
          spdStore s' c (scaleAt kb) 2 0 0 [sbytes.getD kb 0] (piecePoison s sps kb 1)) s2
        if (coreAt s2 c).gathers.any (fun y => decide (y.id = g.id)) then .next (finish s2) else .next s2

end Sys2Proof.Machine
end

