-- ==== Sys2Proof/Machine/MemSys.lean ====
section
/-!
DEFINITION. Sys2Proof/Machine/MemSys.lean: training and scrub of the stacks (R209, R210, R225), flushes and way masks of the
coherence cache (R216, R218, R278), the CXL ports (R227, R332, R333), and the DTU's walks and invalidations (R228 to R232).
-/
namespace Sys2Proof.Machine

/-! ### Maintenance activities (R411, R415) -/

/-- The wait of activity `a` on a unit. -/
def waitOf (s : State) (a unit sub : Nat) : Option MaintWait :=
  s.ras.waits.find? (fun w => decide (w.act = a ∧ w.unit = unit ∧ w.sub = sub))

/-- RAS_MAINT.OVERDUE of an activity follows its waits. -/
def updOverdue (s : State) (a : Nat) : State :=
  wrB s R.RAS_MAINT_OVERDUE a 0 (s.ras.waits.any (fun w => decide (w.act = a) && w.overdue.isSome))

/-- Activity `a` on a unit waits: each wait counts once, and none that a halt causes (R415). -/
def maintWait (s : State) (a unit sub : Nat) : State :=
  if rd s R.RAS_HALT_STATUS_STATE 0 0 ≠ 0 ∨ (waitOf s a unit sub).isSome = true then s
  else { addSat s R.RAS_MAINT_DEFERRALS a 0 1 with ras := { s.ras with waits := s.ras.waits ++ [⟨a, unit, sub, s.utime, none⟩] } }

/-- Milliseconds of a wait. -/
def waitMs (s : State) (w : MaintWait) : Nat := (s.utime - w.since) / 1000000

/-- The wait of activity `a` on a unit, if it has one, is over; the longest is kept (R415). -/
def endWait (s : State) (a unit sub : Nat) : State :=
  match waitOf s a unit sub with
  | none => s
  | some w =>
    let s := wr s R.RAS_MAINT_LONGEST_MS a 0 (max (rd s R.RAS_MAINT_LONGEST_MS a 0) (min (waitMs s w) 65535))
    updOverdue { s with ras := { s.ras with waits := s.ras.waits.filter (fun x => decide (x ≠ w)) } } a

/-- A waiting activity starts before another that it conflicts with (R414, R415): one overdue before one that is not, the one overdue
longer before the other, and else as the table of R414 says. -/
def goesFirst (w m : Option Nat) (table : Bool) : Bool :=
  match w, m with
  | some x, some y => decide (x < y) || (decide (x = y) && table)
  | some _, none => true
  | none, some _ => false
  | none, none => table

/-- When the wait of an activity became overdue. -/
def overdueAt (s : State) (a unit sub : Nat) : Option Nat := (waitOf s a unit sub).bind (fun w => w.overdue)

/-- Activity `a` on a unit starts: it runs and waits no longer. -/
def maintBegin (s : State) (a unit sub : Nat) : State :=
  let s := { s with ras := { s.ras with running := s.ras.running ++ [(a, unit, sub)] } }
  endWait (wr s R.RAS_MAINT_RUNNING a 0 1) a unit sub

/-- Activities that run: a sensor calibration, whose third component is its start, is over after 5 ms (R411). -/
def liveMaint (s : State) : List (Nat × Nat × Nat) := s.ras.running.filter (fun r => !(decide (r.1 = 6 ∧ r.2.2 + us 5000 ≤ s.utime)))

/-- Activity `a` on a unit ends. -/
def maintEnd (s : State) (a unit sub : Nat) : State :=
  let s := notIdle { s with ras := { s.ras with running := s.ras.running.filter (· ≠ (a, unit, sub)) } }
  wrB s R.RAS_MAINT_RUNNING a 0 (s.ras.running.any (fun r => decide (r.1 = a)))

/-! ### TDISP errors (R289) -/

/-- An interface moves to ERROR (R289): the partition's rings stop and the event is posted. -/
def tdiError (s : State) (p cause : Nat) : State :=
  postEvent (stopRings (wr s R.PRT_STATUS_TDI_STATE p 0 3) p) (some p) 0x0108 cause 0 0

/-- The interface is CONFIG_LOCKED or RUN. -/
def tdiLocked (s : State) (p : Nat) : Bool :=
  decide (rd s R.PRT_STATUS_TDI_STATE p 0 = 1 ∨ rd s R.PRT_STATUS_TDI_STATE p 0 = 2)

/-! ### Stacks -/

/-- STATE of a stack that is on: retraining, degraded or ready. -/
def stackState (s : State) (k : Nat) : Nat :=
  if s.ms.retraining.any (fun x => decide (x / 8 = k)) then 3
  else if s.ms.failedCh.any (fun x => decide (x / 8 = k)) then 4 else 2

def updStack (s : State) (k : Nat) : State :=
  if rd s R.MEM_STACK_STATUS_STATE k 0 = 0 then s else wr s R.MEM_STACK_STATUS_STATE k 0 (stackState s k)

/-- Bit `i` of a mask set or cleared. -/
def setBit (m i : Nat) (b : Bool) : Nat :=
  if m / 2 ^ i % 2 = 1 then (if b then m else m - 2 ^ i) else (if b then m + 2 ^ i else m)

/-- A channel is marked failed (R210): its lines answer poison and discard writes. -/
def failChannel (s : State) (k ch : Nat) : State :=
  let s := { s with ms := { s.ms with failedCh := s.ms.failedCh ++ [k * 8 + ch] } }
  let s := wr s R.MEM_STACK_STATUS_CHANNELS_UP k 0 (setBit (rd s R.MEM_STACK_STATUS_CHANNELS_UP k 0) ch false)
  logErr s ⟨0x0200, 3, 1, k, none, none, none, none, ch, 0⟩

/-- A channel is trained: its time and its stack's temperature are kept (R209). -/
def trained (s : State) (k ch : Nat) : State :=
  { s with ms := { s.ms with
      trainedAt := SMap.put (fun _ => 0) s.ms.trainedAt (k * 8 + ch) s.utime
      trainedTemp := SMap.put (fun _ => 0) s.ms.trainedTemp (k * 8 + ch) (rd s R.MEM_STACK_STATUS_TEMP k 0) } }

/-- A field retrain of a channel is due (R209): INTERVAL_MIN minutes have passed since its last training, or its stack's
temperature has moved by TEMP_DELTA since then; 0 disables either. -/
def retrainDue (s : State) (k ch : Nat) : Bool :=
  let mins := rd s R.MEM_RETRAIN_CTL_INTERVAL_MIN 0 0
  let delta := rd s R.MEM_RETRAIN_CTL_TEMP_DELTA 0 0
  let temp := rd s R.MEM_STACK_STATUS_TEMP k 0
  let was := SMap.look (fun _ => 0) s.ms.trainedTemp (k * 8 + ch)
  decide (mins ≠ 0 ∧ SMap.look (fun _ => 0) s.ms.trainedAt (k * 8 + ch) + mins * 60000000000 ≤ s.utime) ||
    decide (delta ≠ 0 ∧ delta ≤ max temp was - min temp was)

/-- CHANNEL_RETRAIN_DONE (R209, R210): a retrain that succeeds lets the waiting accesses proceed; one that fails is followed
by a full retrain, and after three of those the channel is failed. -/
def execChannelRetrainDone (k : StackIx) (ch : ChanIx) (ok : Bool) (s : State) : Res :=
  let key := (k : Nat) * 8 + ch
  if key ∉ s.ms.retraining then .next s
  else
    let tries := SMap.look (fun _ => 0) s.ms.fullTries key
    if !ok && decide (tries < 3) then
      .next { s with ms := { s.ms with fullTries := SMap.put (fun _ => 0) s.ms.fullTries key (tries + 1) } }
    else
      let s := { s with ms := { s.ms with retraining := s.ms.retraining.filter (· ≠ key),
                                          fullTries := SMap.put (fun _ => 0) s.ms.fullTries key 0 } }
      let s := wr s R.MEM_STACK_STATUS_TRAINING k 0 (setBit (rd s R.MEM_STACK_STATUS_TRAINING k 0) ch false)
      let s := maintEnd s 2 k ch
      let s := if ok then trained s k ch else failChannel s k ch
      .next (updStack s k)

/-- Lines of near memory. -/
def nearLines (s : State) : Nat := nu s * 2 ^ 31

/-- How far patrol scrub is behind its schedule, in ms (R225, R411): the pass is spread evenly over PERIOD_H hours. -/
def scrubLagMs (s : State) : Nat :=
  let period := rd s R.MEM_SCRUB_CTL_PERIOD_H 0 0 * 3600000000000
  (s.utime - (s.ms.scrubFrom + s.ms.scrub * period / max 1 (nearLines s))) / 1000000

/-- Patrol scrub waits for a line's channel: it trains, or a row of it is repaired (R225, R414). -/
def scrubBlocked (s : State) (b : BankRow) : Bool :=
  decide (b.stack * 8 + b.channel ∈ s.ms.retraining) || s.ras.running.any (fun r => decide (r.1 = 3 ∧ r.2.1 = b.stack ∧ r.2.2 = b.channel))

/-- PATROL_SCRUB_READ (R225, R343, R397): the next line in address order is read from its stack; it waits while its channel trains or
a row of it is repaired, which counts once, passes over a failed channel, and pauses in deep sleep. -/
def execPatrolScrubRead (med : Medium) (s : State) : Res :=
  let l := s.ms.scrub
  let b := bankRowOf s (l * 64)
  if !rdB s R.MEM_SCRUB_CTL_ENABLE 0 0 || decide (nearLines s = 0) || decide (rd s R.MEM_STACK_STATUS_STATE b.stack 0 < 2) || dieSleeps s then .next s
  else if scrubBlocked s b then
    if s.ms.scrubWaits then .next s
    else .next (maintWait { addSat s R.MEM_SCRUB_STATUS_DEFERRED 0 0 1 with ms := { s.ms with scrubWaits := true } } 1 0 0)
  else
    let s := { s with ms := { s.ms with scrubWaits := false } }
    let s := if scrubLagMs s < 3600000 then endWait s 1 0 0 else s
    let s := if lineChannelFailed s (l * 64) then s else eccFound s l med 2
    let done := decide (l + 1 ≥ nearLines s)
    let from_ := if done then s.ms.scrubFrom + rd s R.MEM_SCRUB_CTL_PERIOD_H 0 0 * 3600000000000 else s.ms.scrubFrom
    let s := { s with ms := { s.ms with scrub := if done then 0 else l + 1, scrubFrom := from_ } }
    let s := if done then wr s R.MEM_SCRUB_STATUS_PASSES 0 0 (rd s R.MEM_SCRUB_STATUS_PASSES 0 0 + 1) else s
    let s := wr s R.MEM_SCRUB_STATUS_PROGRESS 0 0 (if done then 100 else (l + 1) * 100 / nearLines s)
    .next (wr s R.MEM_SCRUB_STATUS_STACK 0 0 (homeStack s (s.ms.scrub * 64)))

/-- MEM_COMMIT (R12, R13): a PERIOD_H outside 1 to 168 is reserved, and the commit then has no effect. -/
def execMemCommit (s : State) : Res :=
  let h := rdS s R.MEM_SCRUB_CTL_PERIOD_H 0 0
  whenDo (decide (1 ≤ h ∧ h ≤ 168)) s (commitRegs s [R.MEM_SCRUB_CTL_ENABLE.at 0 0, R.MEM_RETRAIN_CTL_INTERVAL_MIN.at 0 0])

/-! ### The coherence cache -/

/-- CCH_FLUSH_START (R218): the lines of the range that are dirty now are to be written back; ignored while BUSY. -/
def execCchFlushStart (s : State) : Res :=
  if rdB s R.CCH_FLUSH_CTL_BUSY 0 0 then .next s
  else
    let lo := rd s R.CCH_FLUSH_BASE_ADDR 0 0
    let hi := rd s R.CCH_FLUSH_END_ADDR 0 0
    let ls := ((s.ms.lines.filter (fun e => e.2.dirty)).map (fun e => e.1) ++ s.ms.wbHeld).filter (fun l => decide (lo ≤ l ∧ l < hi))
    .next (wr { s with ms := { s.ms with flush := ls } } R.CCH_FLUSH_CTL_BUSY 0 0 1)

/-- A line's medium takes writes: its port, if it has one, is UP. -/
def mediumUp (s : State) (line : Nat) : Bool :=
  match placeOf s (line * 64) with
  | .cxl n => portUp s n
  | _ => true

/-- Lines of a list become clean. -/
def cleanLines (s : State) (ls : List Nat) : State :=
  { s with ms := { s.ms with
      lines := s.ms.lines.map (fun e => if e.1 ∈ ls then (e.1, { e.2 with dirty := false }) else e)
      badUnder := s.ms.badUnder.filter (fun l => decide (l ∉ ls)) } }

/-- A line is dirty in its slice. -/
def lineDirty (s : State) (l : Nat) : Bool := s.ms.lines.any (fun e => decide (e.1 = l) && e.2.dirty)

/-- The dirty lines of a list are written back to their media and are clean (R218, R219). -/
def writeBackAll (s : State) (ls : List Nat) : State :=
  cleanLines ((ls.filter (lineDirty s)).foldl writeBack s) ls

/-- CCH_FLUSH_DONE (R218, R337): every line of the flush has reached its medium; lines of a port that is down hold it back. -/
def execCchFlushDone (s : State) : Res :=
  whenDo (rdB s R.CCH_FLUSH_CTL_BUSY 0 0 && s.ms.flush.all (mediumUp s)) s
    (let t := writeBackAll s s.ms.flush
     wr { t with ms := { t.ms with flush := [] } } R.CCH_FLUSH_CTL_BUSY 0 0 0)

/-- Valid partitions. -/
def validParts (s : State) : List Nat := (List.range 16).filter (fun p => rdB s R.PRT_CFG_VALID p 0)

/-- Two partitions of a list have overlapping masks. -/
def masksOverlap (mask : Nat → Nat) (ps : List Nat) : Bool :=
  ps.any (fun p => ps.any (fun q => decide (p < q) && decide (mask p &&& mask q ≠ 0)))

/-- CCH_WAY_COMMIT (R216, R278): refused where a mask is 0, or in isolation mode where two valid partitions' masks overlap. -/
def execCchWayCommit (s : State) : Res :=
  let m (p : Nat) : Nat := rdS s R.CCH_WAYMASK_WAYS p 0
  if (List.range 16).any (fun p => decide (m p = 0)) || (rdB s R.PRT_ISO_STATUS_ACTIVE 0 0 && masksOverlap m (validParts s)) then
    .next (wr s R.PRT_ISO_STATUS_WAY_REJECTED 0 0 1)
  else .next (commitRegs s ((List.range 16).map (fun p => R.CCH_WAYMASK_WAYS.at p 0)))

/-! ### CXL ports -/

/-- A port leaves UP (R227, R332). -/
def portDown (s : State) (n cause : Nat) : State :=
  let s := wr (wr s R.CXL_PORT_STATUS_STATE n 0 4) R.CXL_PORT_STATUS_DOWN_CAUSE n 0 cause
  postEvent s none 0x010C n cause 0

/-- CXL_PORT_DOWN (R227, R332): a port that is UP goes DOWN with a cause. -/
def execCxlPortDown (n : PortIx) (cause : Nat) (s : State) : Res := whenDo (portUp s n) s (portDown s n cause)

/-- Lines of a list that lie in a port's range. -/
def ofPort (s : State) (n : Nat) (ls : List Nat) : List Nat := ls.filter (fun l => decide (placeOf s (l * 64) = .cxl n))

/-- A valid range-table entry of a port reaches beyond `gib` GiB of it (R332). -/
def rangeBeyond (s : State) (n gib : Nat) : Bool :=
  (List.range 64).any (fun e => rdB s R.PRT_RANGE_BASE_VALID e 0 &&
    (let b := rd s R.PRT_RANGE_BASE_BASE e 0
     let g := rd s R.PRT_RANGE_SIZE_GIB e 0
     let lo := portBase n / 2 ^ 30
     decide (lo ≤ b ∧ b < lo + 8192 ∧ lo + gib < b + g)))

/-- CXL_PORT_UP (R227, R331, R332): the port has trained and enumerated its device. It stays DOWN, with the cause, where the
device is not type 3, its media are not ready or decode less than 1 GiB, or its size changed without a software reset or
against the range table; otherwise its slices write back held lines and write lost lines as poison, and it is UP. A line lost and held again since is
written once, as held (log entry 123). -/
def execCxlPortUp (n : PortIx) (type3 mediaReady : Bool) (gib rate width vendor : Nat) (s : State) : Res :=
  let st := rd s R.CXL_PORT_STATUS_STATE n 0
  let g := min gib 8192
  let old := rd s R.CXL_PORT_CAP_GIB n 0
  let stay (cause : Nat) : Res := .next (wr (wr s R.CXL_PORT_STATUS_STATE n 0 4) R.CXL_PORT_STATUS_DOWN_CAUSE n 0 cause)
  if !rdB s R.CXL_PORT_CTL_ENABLE n 0 || !(decide (st = 1 ∨ st = 2 ∨ st = 4)) then .next s
  else if !type3 then stay 2
  else if !mediaReady || decide (g = 0) then stay 3
  else if decide (old ≠ 0 ∧ old ≠ g) && (decide ((n : Nat) ∉ s.ms.swReset) || rangeBeyond s n g) then stay 4
  else
    let again := decide ((n : Nat) ∈ s.ms.swReset) && rdB s R.CXL_PORT_STATUS_FAILED n 0
    let held := ofPort s n s.ms.wbHeld
    let s := (held ++ (ofPort s n s.ms.lost).filter (fun l => decide (l ∉ held))).foldl writeBack s
    let s := { s with ms := { s.ms with
        wbHeld := s.ms.wbHeld.filter (fun l => decide (placeOf s (l * 64) ≠ .cxl n))
        lost := s.ms.lost.filter (fun l => decide (placeOf s (l * 64) ≠ .cxl n))
        swReset := s.ms.swReset.filter (· ≠ (n : Nat))
        failReset := if again then s.ms.failReset.filter (· ≠ (n : Nat)) ++ [(n : Nat)] else s.ms.failReset } }
    let s := wr (wr s R.CXL_PORT_STATUS_STATE n 0 3) R.CXL_PORT_STATUS_DOWN_CAUSE n 0 0
    let s := wr (wr s R.CXL_PORT_STATUS_RATE n 0 rate) R.CXL_PORT_STATUS_WIDTH n 0 width
    let s := wr (wr s R.CXL_PORT_CAP_GIB n 0 g) R.CXL_PORT_CAP_VENDOR n 0 vendor
    .next (postEvent s none 0x010D n g 0)

/-- CXL_PORT_RESET (R333, R445): the port goes DOWN, its device is reset by the port's pin, and the port trains again. -/
def execCxlPortReset (n : PortIx) (s : State) : Res :=
  if !rdB s R.CXL_PORT_CTL_ENABLE n 0 then .next s
  else
    let s := if portUp s n then portDown s n 5 else s
    let s := { s with ms := { s.ms with swReset := s.ms.swReset.filter (· ≠ (n : Nat)) ++ [(n : Nat)] } }
    let pin := if (n : Nat) = 0 then "CXL_RST0#" else "CXL_RST1#"
    let s := emits s [.pin pin false, .pin pin true]
    .next (wr (wr s R.CXL_PORT_STATUS_STATE n 0 1) R.CXL_PORT_STATUS_DOWN_CAUSE n 0 5)

/-- CXL_EVENT_LOG_READ (R332, R400): each uncorrectable media event counts and is recorded, with its address in the port's
range. -/
def execCxlEventLogRead (n : PortIx) (events : List (Nat × W64)) (s : State) : Res :=
  if !portUp s n then .next s
  else .next (events.foldl (fun s e =>
    let pa := portBase n + e.1
    let s := addSat s R.CXL_PORT_ERR_MEDIA_EVENTS n 0 1
    logErr s ⟨0x0203, 2, 6, n, ownerOf s pa, some pa, none, none, n, e.2.toNat⟩) s)

/-! ### The DTU -/

/-- A requester whose addresses the DTU translates. -/
def translated : Requester → Bool
  | .bar2 _ => false
  | .peer _ => false
  | .dtu => false
  | _ => true

/-- DTU_WALK (R228, R230): a miss starts a walk. -/
def execDtuWalk (who : Requester) (ctx : PartIx) (va : Nat) (write : Bool) (s : State) : Res :=
  whenDo (translated who && (cachedXlat s (requesterCore who) ctx (va % 2 ^ 48)).isNone) s
    { s with ms := { s.ms with walks := s.ms.walks ++ [⟨who, ctx, va, write⟩] } }

/-- DTU_WALK_DONE (R228 to R232): the walk reads its entries at the point of coherence; a translation is cached, a fault is
recorded and fails the requester's command. It waits where a table line is being cleared, trained or repaired. -/
def execDtuWalkDone (n : Nat) (s : State) : Res :=
  match s.ms.walks[n]? with
  | none => .next s
  | some k =>
    if (walkReads s k.ctx k.va).any (fun a => memWaits s a 8) then .next s else
    let c := requesterCore k.who
    let w := match c with | some c => (coreAt s c).ring | none => none
    let hostOk := match k.who with | .core _ => true | .mover _ => true | _ => false
    let x := walk s k.ctx k.va k.write hostOk
    let s := { s with ms := { s.ms with walks := s.ms.walks.eraseIdx n } }
    let s := (walkReads s k.ctx k.va).foldl (fun s a => sliceRd s .dtu none w a 8) s
    match x with
    | .ok x => .next (keepOwn (keepXlat s x) c x)
    | .error e =>
      match w with
      | some w => .next (xlateFail s w k.ctx k.va k.write c e)
      | none => .next (dtuFault s k.ctx k.va k.write c e)

/-- An invalidation covers a cached translation. -/
def Inval.hits (i : Inval) (x : Xlat) : Bool :=
  decide (x.ctx = i.ctx) && (i.all || decide (x.vbase < i.va + i.bytes ∧ i.va < x.vbase + x.size))

/-- Entries that an invalidation covers leave the caches. -/
def applyInval (s : State) (i : Inval) : State :=
  { s with ms := { s.ms with tlb := s.ms.tlb.filter (fun x => !i.hits x) } }

/-- A BAR2 write that arrived before an invalidation has not landed. -/
def bar2Before (s : State) (i : Inval) : Bool := s.ord.flights.any (fun f => decide (f.src = .pcie ∧ f.id < i.num))

/-- Ask for an invalidation: it acts at once where nothing holds it back. -/
def askInval (s : State) (fn ctx va bytes : Nat) (all : Bool) : State :=
  let i : Inval := ⟨s.ord.nextId, fn, ctx, va, bytes, all⟩
  let idle := s.ms.invals.isEmpty
  let s := { s with ms := { s.ms with invals := s.ms.invals ++ [i] }, ord := { s.ord with nextId := s.ord.nextId + 1 } }
  let s := wr s R.DTU_INVAL_STATUS_PENDING 0 0 1
  if idle && !bar2Before s i then applyInval s i else s

/-- First virtual address held in a function's DTU_INVAL_VA (R292). -/
def invalVaOf (s : State) (fn : Nat) : Nat :=
  getBits (if fn = 0 then reg s (R.DTU_INVAL_VA_VA.at 0 0) else SMap.look (fun _ => 0) s.ms.invalVa fn) 16 32 * 65536

/-- DTU_INVALIDATE (R231, R292): a write of DTU_INVAL_CTL; a virtual function's CTX is its own partition's, and PAGES = 0
without ALL covers nothing and has no effect. -/
def execDtuInvalidate (fn : FnIx) (v : W64) (s : State) : Res :=
  let ctx := if (fn : Nat) = 0 then getBits v 0 4 else (fn : Nat) - 1
  let all := decide (getBits v 4 1 = 1)
  whenDo (all || decide (getBits v 8 32 ≠ 0)) s (askInval s fn ctx (invalVaOf s fn) (getBits v 8 32 * 65536) all)

/-- A write in flight was translated by an entry that an invalidation covers (R231). -/
def flightUnder (f : Flight) (i : Inval) : Bool :=
  match f.va, f.part with
  | some va, some p =>
    decide (p = i.ctx) && decide (f.id < i.num) && (i.all || decide (va < i.va + i.bytes ∧ i.va < va + f.data.length))
  | _, _ => false

/-- A read of host memory in flight was translated by an entry that an invalidation covers (R231). -/
def readUnder (r : HostRead) (i : Inval) : Bool :=
  match r.src with
  | some (p, va) => decide (p = i.ctx) && decide (r.id < i.num) && (i.all || decide (va < i.va + i.bytes ∧ i.va < va + r.len))
  | none => false

/-- An access in flight, a write or a read, was translated by an entry that an invalidation covers (R231). -/
def accessUnder (s : State) (i : Inval) : Bool :=
  s.ord.flights.any (fun f => flightUnder f i) || s.ord.reads.any (fun r => readUnder r i)

/-- DTU_INVALIDATE_DONE (R231): no access under an invalidated entry remains in flight; the next invalidation acts. -/
def execDtuInvalidateDone (s : State) : Res :=
  match s.ms.invals with
  | [] => .next s
  | i :: rest =>
    if bar2Before s i || accessUnder s i then .next s
    else
      let s := applyInval s i
      let s := { s with ms := { s.ms with invals := rest } }
      let s := wrB s R.DTU_INVAL_STATUS_PENDING 0 0 (!rest.isEmpty)
      match rest with
      | [] => .next s
      | j :: _ => .next (if bar2Before s j then s else applyInval s j)

/-- DTU_CTX_ROOT_WRITE (R231, R289): the root is installed and the whole context invalidated; from CONFIG_LOCKED onwards the write
is ignored, and moves an interface that is not yet there to ERROR. Bits [11:8] must be 0: other values are reserved encodings
and leave the register as it was (R13). -/
def execDtuCtxRootWrite (p : PartIx) (v : W64) (s : State) : Res :=
  if tdiLocked s p then .next (tdiError s p 1)
  else if rd s R.PRT_STATUS_TDI_STATE p 0 = 3 then .next s
  else if getBits v 8 4 ≠ 0 then .next (askInval (wr s R.DTU_CTX_ROOT_VALID p 0 (getBits v 0 1)) 0 p 0 0 true)
  else
    let s := wr (wr s R.DTU_CTX_ROOT_VALID p 0 (getBits v 0 1)) R.DTU_CTX_ROOT_ROOT p 0 (getBits v 8 44)
    .next (askInval s 0 p 0 0 true)

end Sys2Proof.Machine
end

