-- ==== Sys2Proof/Machine/Kv.lean ====
section
/-!
DEFINITION. Sys2Proof/Machine/Kv.lean: the key-value page system (R169 to R202): regions, their page pools, sequences and
translation entries, the operations of the KV page units, and fetches.
-/
namespace Sys2Proof.Machine

/-! ### Geometry of a region -/

/-- A region's committed or candidate fields (R202). -/
structure KvGeo where
  valid : Bool
  part : Nat
  fmt : Nat
  dim : Nat
  layers : Nat
  pairs : Nat
  lp : Nat
  ss : Nat
  demote : Bool
  borrow : Bool
  base : Nat
  seqtab : Nat
  nearPa : Nat
  nearN : Nat
  farPa : Nat
  farN : Nat
  scalePa : Nat
  metaPa : Nat
  maxSeq : Nat
  lowWm : Nat
deriving DecidableEq, Repr

/-- Fields of region r as `get` reads registers. -/
def kvGeoOf (get : Fld → Nat → Nat → Nat) (r : Nat) : KvGeo where
  valid := decide (get R.KPU_RGN_CFG_VALID r 0 = 1)
  part := get R.KPU_RGN_CFG_PARTITION r 0
  fmt := get R.KPU_RGN_CFG_FMT r 0
  dim := 32 * 2 ^ get R.KPU_RGN_CFG_HEAD_DIM r 0
  layers := get R.KPU_RGN_CFG_LAYERS r 0
  pairs := get R.KPU_RGN_CFG_PAIRS r 0
  lp := get R.KPU_RGN_CFG_LP_SHIFT r 0
  ss := get R.KPU_RGN_CFG_SEQ_SHIFT r 0
  demote := decide (get R.KPU_RGN_CFG_DEMOTE r 0 = 1)
  borrow := decide (get R.KPU_RGN_CFG_BORROW r 0 = 1)
  base := get R.KPU_RGN_BASE_KV_BASE r 0 * 2 ^ 30
  seqtab := get R.KPU_RGN_SEQTAB_SEQ_TABLE_VA r 0 * 64
  nearPa := get R.KPU_RGN_NEAR_NEAR_PA r 0 * 65536
  nearN := get R.KPU_RGN_POOLS_NEAR_PAGES r 0
  farPa := get R.KPU_RGN_FAR_FAR_PA r 0 * 65536
  farN := get R.KPU_RGN_POOLS_FAR_PAGES r 0
  scalePa := get R.KPU_RGN_SCALE_SCALE_PA r 0 * 2048
  metaPa := get R.KPU_RGN_META_META_PA r 0 * 4096
  maxSeq := get R.KPU_RGN_LIMITS_MAX_SEQ r 0
  lowWm := get R.KPU_RGN_LIMITS_LOW_WM r 0

/-- The committed fields of region r. -/
def kvGeo (s : State) (r : Nat) : KvGeo := kvGeoOf (rd s) r

/-- Positions of a page (R170). -/
def KvGeo.positions (g : KvGeo) : Nat := 131072 / (g.dim * fmtBits g.fmt)

/-- The stored format carries fine scales (R172). -/
def KvGeo.scaled (g : KvGeo) : Bool := decide (g.fmt = 4 ∨ g.fmt = 5 ∨ g.fmt = 8)

/-- Bytes of a scale slot (R172). -/
def KvGeo.slot (g : KvGeo) : Nat := if g.scaled then (if g.fmt = 8 then 4096 else 2048) else 0

def KvGeo.maxPos (g : KvGeo) : Nat := 2 ^ (g.lp - 16) * g.positions

def KvGeo.pages (g : KvGeo) : Nat := g.nearN + g.farN

/-- Physical address of a page (R173). -/
def KvGeo.pagePa (g : KvGeo) (n : Nat) : Nat :=
  if n < g.nearN then g.nearPa + 65536 * n else g.farPa + 65536 * (n - g.nearN)

def KvGeo.slotPa (g : KvGeo) (n : Nat) : Nat := g.scalePa + g.slot * n

/-- First address of a sequence's range (R175). -/
def KvGeo.seqLo (g : KvGeo) (q : Nat) : Nat := g.base + q * 2 ^ g.ss

/-- Number of the 64 KiB of (sequence, layer, pair, page of positions) (R175). -/
def KvGeo.key (g : KvGeo) (q layer pair idx : Nat) : Nat :=
  (g.seqLo q + (layer * g.pairs + pair) * 2 ^ g.lp) / 65536 + idx

/-- Sequence and page of positions of a 64 KiB of the range. -/
def KvGeo.seqOf (g : KvGeo) (k : Nat) : Nat := (k * 65536 - g.base) / 2 ^ g.ss
def KvGeo.idxOf (g : KvGeo) (k : Nat) : Nat := (k * 65536 - g.base) % 2 ^ g.ss % 2 ^ g.lp / 65536

/-- Bytes of the region's range, in whole GiB (R176). -/
def KvGeo.range (g : KvGeo) : Nat := (g.maxSeq * 2 ^ g.ss + 2 ^ 30 - 1) / 2 ^ 30 * 2 ^ 30

/-- Used 2 MiB blocks of a sequence with tables of its own; 0 where blocks are shared (R176). -/
def KvGeo.seqBlocks (g : KvGeo) : Nat :=
  if 21 ≤ g.ss then (g.layers * g.pairs * 2 ^ g.lp + 2 ^ 21 - 1) / 2 ^ 21 else 0

/-- 2 MiB blocks shared by sequences (R176). -/
def KvGeo.sharedBlocks (g : KvGeo) : Nat := if 21 ≤ g.ss then 0 else (g.maxSeq * 2 ^ g.ss + 2 ^ 21 - 1) / 2 ^ 21

/-- Near pages set aside for shared tables; the lowest-numbered are taken (log entry 13). -/
def KvGeo.setAside (g : KvGeo) : Nat := (g.sharedBlocks + 255) / 256

/-! ### Records -/

def kvReg (s : State) (r : Nat) : KvRegion := SMap.look (fun _ => KvRegion.fresh) s.kv.regions r
def setKvReg (s : State) (r : Nat) (v : KvRegion) : State :=
  { s with kv := { s.kv with regions := SMap.put (fun _ => KvRegion.fresh) s.kv.regions r v } }
def onKvReg (s : State) (r : Nat) (f : KvRegion → KvRegion) : State := setKvReg s r (f (kvReg s r))

def kvSeq (s : State) (r q : Nat) : KvSeq := SMap.look (fun _ => KvSeq.closed) (kvReg s r).seqs q
def onKvSeq (s : State) (r q : Nat) (f : KvSeq → KvSeq) : State :=
  onKvReg s r (fun x => { x with seqs := SMap.put (fun _ => KvSeq.closed) x.seqs q (f (kvSeq s r q)) })

def kvCount (s : State) (r n : Nat) : Nat := SMap.look (fun _ => 0) (kvReg s r).counts n

def kvNear (s : State) (r u : Nat) : List Nat := SMap.look (fun _ => []) (kvReg s r).near u
def kvFar (s : State) (r u : Nat) : List Nat := SMap.look (fun _ => []) (kvReg s r).far u
def setKvNear (s : State) (r u : Nat) (l : List Nat) : State := onKvReg s r (fun x => { x with near := SMap.put (fun _ => []) x.near u l })
def setKvFar (s : State) (r u : Nat) (l : List Nat) : State := onKvReg s r (fun x => { x with far := SMap.put (fun _ => []) x.far u l })

/-- Page mapped at a 64 KiB of the range. -/
def kvPage (s : State) (r k : Nat) : Option Nat := SMap.look (fun _ => none) (kvReg s r).map k

/-- Mapped 64 KiB of a sequence, rising. -/
def kvKeys (s : State) (r q : Nat) : List Nat :=
  let g := kvGeo s r
  ((kvReg s r).map.map (fun e => e.1)).filter (fun k => decide (g.seqOf k = q))

/-! ### What a unit writes -/

/-- A unit's write to memory lands within the operation (log entry 12). -/
def kvStore (s : State) (stack : Nat) (w : Option Nat) (pa : Nat) (data : List Byte) (bad : Bool) : State :=
  sliceWr s (.kpu (Fin.ofNat 12 stack)) none w pa data bad

/-- Rank of the unit that owns a page (R173). -/
def kvOwner (s : State) (n : Nat) : Nat := if nu s = 0 then 0 else n % nu s

/-- A unit's journal (R174, R196): its bytes in the metadata area are open, so an entry leaves them free (log entry 124). -/
def kvJournal (s : State) (r stack : Nat) : State :=
  let (j, s) := freeBytes s 512
  kvStore s stack none ((kvGeo s r).metaPa + 4096 * stack) j false

/-- A change to a page: its owner writes a journal entry, the page's record and its free-list slot (R174, R196); what their bytes
say is open (log entry 124). -/
def kvMeta (s : State) (r n : Nat) : State :=
  let g := kvGeo s r
  let stack := stackOfRank s (kvOwner s n)
  let s := kvJournal s r stack
  let (b, s) := freeBytes s 3
  let s := kvStore s stack none (g.metaPa + 49152 + 16 * n) (b.take 16) false
  kvStore s stack none (g.metaPa + 49152 + 16 * g.pages + 4 * n) ((b.drop 16).take 4) false

def setKvCount (s : State) (r n v : Nat) : State :=
  kvMeta (onKvReg s r (fun x => { x with counts := SMap.put (fun _ => 0) x.counts n v })) r n

/-- Copy bytes between pages or slots with their marks, line by line (R185, R193, R394). -/
def kvCopy (s : State) (stack : Nat) (w : Option Nat) (src dst n : Nat) : State :=
  (linesOf src n).foldl (fun s l =>
    let lo := max (l * 64) src
    let hi := min (l * 64 + 64) (src + n)
    let s := sliceRd s (.kpu (Fin.ofNat 12 stack)) none w lo (hi - lo)
    let (bytes, bad) := cohRead s lo (hi - lo)
    kvStore s stack w (dst + (lo - src)) bytes bad) s

/-- Cached translations of [va, va + n) of a context leave the caches (R176). -/
def dropXlat (s : State) (p va n : Nat) : State :=
  { s with ms := { s.ms with tlb := s.ms.tlb.filter (fun x => !(decide (x.ctx = p ∧ x.vbase < va + n ∧ va < x.vbase + x.size))) } }

/-- Write the leaf entry of a 64 KiB of the range: a page's context address, or an invalid entry (R176, R229). The WRITE bit
of a leaf is a free value. -/
def kvLeaf (s : State) (r stack : Nat) (w : Option Nat) (k : Nat) (page : Option Nat) : State :=
  let g := kvGeo s r
  match SMap.look (fun _ => none) (kvReg s r).tabs (k / 32) with
  | none => s
  | some t =>
    let (b, s) := takeFree s
    let word := match page with
      | none => 0
      | some n => (offsetOf (partRanges s g.part) 0 (g.pagePa n)).getD 0 + 3 + 4 * getBits b 0 1
    let s := dropXlat (kvStore s stack w (t + k % 32 * 8) (leBytes 8 word) false) g.part (k * 65536) 65536
    onKvReg s r (fun x => { x with map := SMap.put (fun _ => none) x.map k page })

/-- The level-2 table that covers an address of a context: its physical address (R176, R228). -/
def l2Table (s : State) (p va : Nat) : Option Nat :=
  let ptr (e : W64) : Option Nat := if getBits e 0 1 = 1 ∧ getBits e 1 1 = 0 then partOffset s p (getBits e 8 44 * 256) else none
  if !rdB s R.DTU_CTX_ROOT_VALID p 0 then none
  else
    match ptr (memWord s.mem (rd s R.DTU_CTX_ROOT_ROOT p 0 * 256 + levelIndex 0 va * 8)) with
    | none => none
    | some t => ptr (memWord s.mem (t + levelIndex 1 va * 8))

/-- Point a block's level-2 entry at a level-3 table, or make it invalid (R176). -/
def kvBlock (s : State) (r stack : Nat) (w : Option Nat) (blk : Nat) (tab : Option Nat) : State :=
  let g := kvGeo s r
  let va := blk * 2 ^ 21
  let word := match tab with
    | none => 0
    | some t => (offsetOf (partRanges s g.part) 0 t).getD 0 + 1
  let s := match l2Table s g.part va with
    | some t => kvStore s stack w (t + levelIndex 2 va * 8) (leBytes 8 word) false
    | none => s
  let s := dropXlat s g.part va (2 ^ 21)
  onKvReg s r (fun x => { x with tabs := SMap.put (fun _ => none) x.tabs blk tab })

/-! ### Free lists (R181 to R183, R192, R193) -/

/-- A page goes to the head of its owner's list; a near list that has risen to LOW_WM + 64 arms its watermark again. -/
def kvFreePage (s : State) (r n : Nat) : State :=
  let g := kvGeo s r
  let u := kvOwner s n
  let s := setKvCount s r n 0
  if n < g.nearN then
    let s := setKvNear s r u (n :: kvNear s r u)
    if g.lowWm + 64 ≤ (kvNear s r u).length then onKvReg s r (fun x => { x with fired := SMap.put (fun _ => false) x.fired u false })
    else s
  else setKvFar s r u (n :: kvFar s r u)

/-- Take the head of a unit's near list; a fall below LOW_WM posts KV_LOW_WATER once (R183). -/
def kvPop (s : State) (r u : Nat) : State × Option Nat :=
  match kvNear s r u with
  | [] => (s, none)
  | n :: t =>
    let g := kvGeo s r
    let s := kvMeta (setKvNear s r u t) r n
    let fires := decide (t.length < g.lowWm ∧ g.lowWm ≤ t.length + 1) && !SMap.look (fun _ => false) (kvReg s r).fired u
    let s := if fires then
        let s := wr s R.KPU_EVT_LOW_WATER r (stackOfRank s u) 1
        let s := onKvReg s r (fun x => { x with fired := SMap.put (fun _ => false) x.fired u true })
        postEvent s (some g.part) 0x0101 (r + u * 256) 0 0
      else s
    (s, some n)

/-- Age of a page in units of 2^20 ns, at most 2^15 (R192). -/
def kvAge (s : State) (r n : Nat) : Nat := min (s.utime / 2 ^ 20 - SMap.look (fun _ => 0) (kvReg s r).stamps n) 32768

def kvStamp (s : State) (r n : Nat) : State :=
  kvMeta (onKvReg s r (fun x => { x with stamps := SMap.put (fun _ => 0) x.stamps n (s.utime / 2 ^ 20) })) r n

/-- The oldest demotable near page owned by unit u, with the 64 KiB that maps it; pages of `keep` are being used (R192). -/
def kvOldest (s : State) (r u : Nat) (keep : List Nat) : Option (Nat × Nat) :=
  let g := kvGeo s r
  let cands := (kvReg s r).map.filterMap (fun e =>
    match e.2 with
    | none => none
    | some n =>
      if n < g.nearN ∧ n % nu s = u ∧ kvCount s r n = 1 ∧ (kvSeq s r (g.seqOf e.1)).pin = false ∧ n ∉ keep then some (e.1, n) else none)
  cands.foldl (fun best e =>
    match best with
    | none => some e
    | some b => if kvAge s r b.2 < kvAge s r e.2 ∨ (kvAge s r b.2 = kvAge s r e.2 ∧ e.2 < b.2) then some e else some b) none

/-- Words of a sequence record (R177). -/
def KvSeq.words (x : KvSeq) (stack : Nat) : List W64 :=
  [x.length + x.commits % 2 ^ 32 * 2 ^ 32,
   (if x.isOpen then 1 else 0) + (if x.pin then 4 else 0) + (if x.stepFault then 8 else 0) + stack * 256,
   x.nearMapped + x.farMapped * 2 ^ 32, x.lastOutcome + x.failed % 2 ^ 32 * 2 ^ 32, 0, 0, 0, 0].map (BitVec.ofNat 64)

/-- Write a sequence's record through the partition's translation; where `final`, word 0 is a flagged final write (R148,
R184, R186, R190). -/
def kvPutRec (s : State) (r q : Nat) (w : Option Nat) (final : Bool) : Except (Nat × XFault) State :=
  let g := kvGeo s r
  let stack := stackOfRank s (if nu s = 0 then 0 else q % nu s)
  let va := g.seqtab + 64 * q
  let at_ := translate s none g.part va true false
  let s := learn (kvJournal s r stack) none g.part va true false w
  match at_ with
  | .error e => .error (va, e)
  | .ok pa =>
    let bytes := wordsBytes ((kvSeq s r q).words stack)
    let fl (a : Nat) (d : List Byte) (f : Bool) : Flight := flightOf (.kpu stack) (.mem (pa + a)) d false f w (some g.part) (some (va + a))
    if final then .ok (issue (issue s (fl 8 (bytes.drop 8) false)) (fl 0 (bytes.take 8) true))
    else .ok (issue s (fl 0 bytes false))

/-- What taking pages did: the pages, whether all that were asked for were found, the flags of the result word, whether the
operation must wait, and the fault that lost a record write. -/
structure KvGot where
  s : State
  pages : List Nat
  ok : Bool
  flags : Nat
  waits : Bool
  fault : Option (Nat × XFault)

/-- An access in flight was made under the entry of a 64 KiB of the range (R176). -/
def kvUnder (s : State) (g : KvGeo) (k : Nat) : Bool := accessUnder s ⟨s.ord.nextId, 0, g.part, k * 65536, 65536, false⟩

/-- Demote a page mapped at one place to a page of its unit's far list (R193): the page is then free for its taker. The entry and
the record are those of another sequence, which its own unit writes (R176); accesses under the entry, and the page's lines,
hold the operation back (R176, R209). -/
def kvDemote (s : State) (r u : Nat) (w : Option Nat) (k n : Nat) : KvGot :=
  let g := kvGeo s r
  let stack := stackOfRank s u
  match kvFar s r u with
  | [] => ⟨s, [], false, 0, false, none⟩
  | f :: t =>
    if kvUnder s g k || memWaits s (g.pagePa n) 65536 || memWaits s (g.slotPa n) g.slot then ⟨s, [], false, 0, true, none⟩
    else
      let q := g.seqOf k
      let s := kvMeta (setKvFar s r u t) r f
      let s := kvCopy s stack w (g.pagePa n) (g.pagePa f) 65536
      let s := kvCopy s stack w (g.slotPa n) (g.slotPa f) g.slot
      let s := kvLeaf s r (stackOfRank s (if nu s = 0 then 0 else q % nu s)) w k (some f)
      let s := setKvCount (setKvCount s r n 0) r f 1
      let s := onKvReg s r (fun x => { x with stamps := SMap.put (fun _ => 0) x.stamps f (SMap.look (fun _ => 0) x.stamps n) })
      let s := onKvSeq s r q (fun x => { x with nearMapped := x.nearMapped - 1, farMapped := x.farMapped + 1 })
      let s := addSat s R.KPU_EVT_DEMOTIONS r stack 1
      match kvPutRec s r q w false with
      | .ok s => ⟨s, [n], true, 32, false, none⟩
      | .error e => ⟨kvFreePage s r n, [], false, 32, false, some e⟩

/-- take_page of R182: the page with flags DEMOTED and BORROWED of the result word. -/
def kvTake (s : State) (r u : Nat) (w : Option Nat) (keep : List Nat) : KvGot :=
  let g := kvGeo s r
  match kvPop s r u with
  | (s, some n) => ⟨s, [n], true, 0, false, none⟩
  | (s, none) =>
    let v := (List.range (nu s)).foldl (fun b x => if (kvNear s r b).length < (kvNear s r x).length then x else b) 0
    match (if g.borrow then kvPop s r v else (s, none)) with
    | (s, some n) => ⟨addSat s R.KPU_EVT_BORROWED r (stackOfRank s v) 1, [n], true, 64, false, none⟩
    | (s, none) =>
      match (if g.demote && !(kvFar s r u).isEmpty then kvOldest s r u keep else none) with
      | some (k, n) => kvDemote s r u w k n
      | none => ⟨s, [], false, 0, false, none⟩

/-- Take several pages, or none: what was taken returns to its lists where one is lacking (R176). -/
def kvTakeAll (s : State) (r u : Nat) (w : Option Nat) (keep : List Nat) : Nat → List Nat → Nat → KvGot
  | 0, got, fl => ⟨s, got.reverse, true, fl, false, none⟩
  | n + 1, got, fl =>
    let x := kvTake s r u w keep
    match x.pages with
    | p :: _ => kvTakeAll x.s r u w keep n (p :: got) (fl ||| x.flags)
    | [] => ⟨got.foldl (fun s p => kvFreePage s r p) x.s, [], false, fl ||| x.flags, x.waits, x.fault⟩

/-! ### Operations (R178 to R180) -/

/-- How an operation ends: outcome, cause code of a FAILED one, flags of the result word, pages taken, a translation fault,
whether that fault lost a write that the result word guards (R151, R232), and whether the operation must wait instead. -/
structure KvEnd where
  s : State
  outcome : Nat
  status : Nat
  flags : Nat
  pages : Nat
  fault : Option (Nat × XFault)
  lost : Bool
  waits : Bool

def kvFail (s : State) (code : Nat) : KvEnd := ⟨s, 3, code, 0, 0, none, false, false⟩
def kvDone (s : State) (flags pages : Nat) : KvEnd := ⟨s, 0, 0, flags, pages, none, false, false⟩

/-- An operation that lacks a page ends with outcome KV_NO_PAGE, or FAILED where a record write was lost (R201, R202). -/
def KvGot.lack (x : KvGot) : KvEnd :=
  match x.fault with
  | some f => ⟨x.s, 3, 0, x.flags, 0, some f, true, x.waits⟩
  | none => ⟨x.s, 1, 0, x.flags, 0, none, false, x.waits⟩

/-- End an operation with its sequence's record written. -/
def kvSealed (e : KvEnd) (r q : Nat) (w : Option Nat) (final : Bool) : KvEnd :=
  match kvPutRec e.s r q w final with
  | .ok s => { e with s := s }
  | .error f => { e with outcome := 3, fault := some f, lost := true }

def kvOpc (d : List W64) : Nat := dw d 0 0 4
def kvRgn (d : List W64) : Nat := dw d 0 4 6
def kvSq (d : List W64) : Nat := dw d 0 16 24
def kvPos (d : List W64) : Nat := dw d 1 0 32
def kvParent (d : List W64) : Nat := dw d 1 32 24

/-- An operation descriptor is a reserved encoding (R14, R178): a reserved bit, a field its operation does not use, or a
misaligned address (DEDUCED, log entry 14). -/
def kvDescBad (d : List W64) : Bool :=
  let op := kvOpc d
  let app := decide (op = 2)
  decide (d.length ≠ 6) || decide (op = 0 ∨ 7 < op) || decide (dw d 0 10 6 ≠ 0 ∨ dw d 0 40 24 ≠ 0) || decide (dw d 1 57 7 ≠ 0) ||
  decide (dw d 5 48 16 ≠ 0 ∨ dw d 5 0 3 ≠ 0) ||
  (decide (op = 1 ∨ op = 6 ∨ op = 7) && decide (kvPos d ≠ 0)) || (decide (op ≠ 4) && decide (kvParent d ≠ 0)) ||
  (decide (op ≠ 7) && decide (dw d 1 56 1 ≠ 0)) ||
  (if app then
     decide (dw d 2 18 14 ≠ 0 ∨ dw d 2 48 16 ≠ 0 ∨ dw d 3 48 16 ≠ 0 ∨ dw d 4 48 16 ≠ 0) || decide (dw d 2 16 2 = 2) ||
     decide (dw d 2 32 16 = 0) || decide (dw d 3 0 6 ≠ 0) || (decide (dw d 2 16 2 = 0) && decide (dw d 4 0 48 ≠ 0))
   else decide (dw d 2 0 64 ≠ 0 ∨ dw d 3 0 64 ≠ 0 ∨ dw d 4 0 64 ≠ 0))

/-- Why a region cannot serve a partition (R169, R201). -/
def kvRegionBad (s : State) (r part : Nat) : Option Nat :=
  let st := rd s R.KPU_RGN_STATUS_STATE r 0
  if st = 0 then some 0x15
  else if (kvGeo s r).part ≠ part then some 0x14
  else if st ≠ 2 then some 0x15
  else none

/-- Sequences an operation works on. -/
def kvSeqs (o : KvOp) : List Nat := if kvOpc o.desc = 4 then [kvSq o.desc, kvParent o.desc] else [kvSq o.desc]

/-- Pages mapped now that an operation writes, maps again or unmaps. -/
def kvTouches (s : State) (o : KvOp) : List Nat :=
  let r := kvRgn o.desc
  let g := kvGeo s r
  let q := kvSq o.desc
  let pos := kvPos o.desc
  let keys : List Nat := match kvOpc o.desc with
    | 2 => (List.range ((pos + dw o.desc 2 32 16 - 1) / g.positions - pos / g.positions + 1)).map (fun i =>
        g.key q (dw o.desc 2 0 8) (dw o.desc 2 8 6) (pos / g.positions + i))
    | 4 => (kvKeys s r (kvParent o.desc)).filter (fun k => decide (g.idxOf k * g.positions < pos))
    | 5 => (kvKeys s r q).filter (fun k => decide (pos ≤ g.idxOf k * g.positions))
    | 6 => kvKeys s r q
    | _ => []
  keys.filterMap (kvPage s r)

/-- An earlier operation holds a later one back (R179): one source to one unit keeps its order, operations that touch one page
keep theirs, and operations on one sequence run in order of arrival but for appends to different layers or pairs. -/
def kvBefore (s : State) (a b : KvOp) : Bool :=
  let unit (o : KvOp) : Nat := if nu s = 0 then 0 else kvSq o.desc % nu s
  let one := decide (a.core = b.core) && (a.core.isSome || decide (a.ring = b.ring))
  (one && decide (unit a = unit b)) ||
  (decide (kvRgn a.desc = kvRgn b.desc) &&
    (((kvSeqs a).any (fun q => decide (q ∈ kvSeqs b)) &&
      !(decide (kvOpc a.desc = 2 ∧ kvOpc b.desc = 2) && decide (dw a.desc 2 0 14 ≠ dw b.desc 2 0 14))) ||
     (kvTouches s a).any (fun p => decide (p ∈ kvTouches s b))))

/-- Operations of a list that go to the unit of another. -/
def sameUnit (s : State) (o : KvOp) (l : List KvOp) : List KvOp :=
  l.filter (fun a => decide (nu s = 0) || decide (kvSq a.desc % nu s = kvSq o.desc % nu s))

/-- An operation is among those its unit has in execution: 64, in isolation mode 4 for each partition (R179, R277). -/
def kvPlaced (s : State) (n : Nat) (o : KvOp) : Bool :=
  let mine := sameUnit s o (s.kv.ops.take n)
  if rdB s R.PRT_ISO_STATUS_ACTIVE 0 0 then
    decide ((mine.filter (fun a => decide (ringPart s a.ring = ringPart s o.ring))).length < 4)
  else decide (mine.length < 64)

/-- An operation reads lines that are being cleared, trained or repaired: of its record's tables, of its source, or of a page it
touches (R209, R222, R412). -/
def kvMemWaits (s : State) (o : KvOp) : Bool :=
  let g := kvGeo s (kvRgn o.desc)
  walkWaits s none g.part (g.seqtab + 64 * kvSq o.desc) ||
  (decide (kvOpc o.desc = 2) && accessWaits s none g.part (dw o.desc 3 0 48) (dw o.desc 2 32 16 * 8 * g.dim) true) ||
  (kvTouches s o).any (fun n => memWaits s (g.pagePa n) 65536 || memWaits s (g.slotPa n) g.slot)

/-- Operation n cannot be served yet: it is not in execution, an earlier one holds it back, its unit is not ready, its memory
waits, or an access under an entry of its sequence's range is in flight (R176, R179, R196). -/
def kvHeldBack (s : State) (n : Nat) (o : KvOp) : Bool :=
  let r := kvRgn o.desc
  let g := kvGeo s r
  let stack := stackOfRank s (if nu s = 0 then 0 else kvSq o.desc % nu s)
  !kvPlaced s n o || (s.kv.ops.take n).any (fun a => kvBefore s a o) ||
  (decide (rd s R.KPU_RGN_STATUS_STATE r 0 = 2) && (decide (rd s R.KPU_UNIT_STATUS_STATE stack 0 ≠ 1) || kvMemWaits s o ||
    accessUnder s ⟨s.ord.nextId, 0, g.part, g.seqLo (kvSq o.desc), 2 ^ g.ss, false⟩))

/-- An operation ends (R180): its result word is a flagged final write, but where a write it guards was lost (R232); its reports
enter the command's record (R252) and its outcome the mask, and a FAILED one fails the command. -/
def kvFinish (s : State) (o : KvOp) (stack q r : Nat) (e : KvEnd) : State :=
  let p := ringPart s o.ring
  let va := dw o.desc 5 0 48
  let word := e.outcome + e.flags + min e.pages 65535 * 2 ^ 16 + (kvSeq e.s r q).length * 2 ^ 32
  let s := orExceptions e.s o.ring (e.flags / 256 % 16 * 2 ^ 17)
  let s :=
    if va = 0 || e.lost then s
    else
      let at_ := translate s none p va true false
      let s := learn s none p va true false (some o.ring)
      match at_ with
      | .ok pa => issue s (flightOf (.kpu stack) (.mem pa) (leBytes 8 word) false true (some o.ring) (some p) (some va))
      | .error f => xlateFail s o.ring p va true none f
  match e.outcome, e.fault with
  | _, some (fva, f) => xlateFail s o.ring p fva e.lost none f
  | 1, none => noteCause s o.ring 0x19
  | 2, none => noteCause s o.ring 0x1A
  | 3, none => if e.status = 0 then s else failCmd s o.ring e.status 0
  | _, none => s

/-- Serve operation n where its code is `op` and nothing holds it back. A poisoned sequence record is consumption (R395
case 4). -/
def kvServe (op n : Nat) (body : State → KvOp → Nat → Nat → KvEnd) (s : State) : Res :=
  match s.kv.ops[n]? with
  | none => .next s
  | some o =>
    let r := kvRgn o.desc
    let q := kvSq o.desc
    let u := if nu s = 0 then 0 else q % nu s
    if decide (kvOpc o.desc ≠ op) || kvHeldBack s n o then .next s
    else
      let t := notIdle { s with kv := { s.kv with ops := s.kv.ops.eraseIdx n } }
      let bad : Option Nat := match translate t none (kvGeo t r).part ((kvGeo t r).seqtab + 64 * q) true false with
        | .ok pa => cohPoisonAt t pa 64
        | .error _ => none
      let e := match kvRegionBad t r (ringPart t o.ring) with
        | some code => kvFail t code
        | none =>
          if (kvGeo t r).maxSeq ≤ q then kvFail t 0x16
          else match bad with
            | some pa => kvFail (consumePoison t o.ring (some pa) (some ((kvGeo t r).seqtab + 64 * q))) 0
            | none => body t o r q
      .next (if e.waits then s else kvFinish t o (stackOfRank t u) q r e)

/-- Rank of the unit that serves a sequence (R173). -/
def kvUnit (s : State) (q : Nat) : Nat := if nu s = 0 then 0 else q % nu s

/-- Open a sequence with its private tables (R176). -/
def kvOpenSeq (s : State) (r q len : Nat) (w : Option Nat) (keep : List Nat) : KvGot :=
  let g := kvGeo s r
  let u := kvUnit s q
  let stack := stackOfRank s u
  let x := kvTakeAll s r u w keep ((g.seqBlocks + 255) / 256) [] 0
  if !x.ok then x
  else
    let s := (List.range g.seqBlocks).foldl (fun s i =>
      let t := g.pagePa (x.pages.getD (i / 256) 0) + i % 256 * 256
      kvBlock (kvStore s stack w t (List.replicate 256 0) false) r stack w (g.seqLo q / 2 ^ 21 + i) (some t)) x.s
    let s := onKvSeq s r q (fun _ => { KvSeq.closed with isOpen := true, length := len, tables := x.pages })
    { x with s := addSat s R.KPU_RGN_STATUS_OPEN_SEQ r 0 1 }

/-- KV_OPEN (R176, R201). -/
def execKvOpen (n : Nat) (s : State) : Res :=
  kvServe 1 n (fun s o r q =>
    if (kvSeq s r q).isOpen then kvFail s 0x18
    else
      let x := kvOpenSeq s r q 0 (some o.ring) []
      if x.ok then kvSealed (kvDone x.s x.flags x.pages.length) r q (some o.ring) false else x.lack) s

/-! ### Append (R187 to R189) -/

/-- Convert the elements of one position, head and kind to stored bytes and scales, with result-word flags and the stored
values (R188). -/
def kvConvert (g : KvGeo) (src : Nat) (rtz : Bool) (codes : List Nat) : List Byte × List Nat × Nat × List FV :=
  let xs := codes.map (fmtVal src)
  let flagsOf (fl : Nat) : Nat := (if fl / 4 % 2 = 1 then 512 else 0) ||| (if fl % 2 = 1 then 1024 else 0)
  if g.scaled then
    let blocks := (List.range (g.dim / 32)).map (fun j => quantBlock g.fmt rtz ((xs.drop (32 * j)).take 32))
    let back := blocks.flatMap (fun b => b.2.1.map (fun c => if b.1 = 0xFF then FV.nan false else (fmtVal g.fmt c).mul (sx8Val b.1)))
    (packElems (fmtBits g.fmt) (blocks.flatMap (fun b => b.2.1)), blocks.map (fun b => b.1),
     blocks.foldl (fun f b => f ||| flagsOf b.2.2 ||| (if b.1 = 0xFF then 256 else 0)) 0, back)
  else if src = g.fmt then (packElems 16 codes, [], 0, xs)
  else
    let ys := xs.map (convertTo g.fmt rtz)
    (packElems 16 (ys.map (fun y => y.1)), [], ys.foldl (fun f y => f ||| flagsOf y.2) 0, ys.map (fun y => fmtVal g.fmt y.1))

/-- The page that an append writes at a 64 KiB of its sequence: mapped, copied on write or promoted first (R185, R187,
R193). Answers the page that holds the 64 KiB, with the flags; `ok` says whether it was obtained and `pages` holds it twice
where it was taken. -/
def kvPageFor (s : State) (r q k : Nat) (w : Option Nat) (keep : List Nat) : KvGot :=
  let g := kvGeo s r
  let u := kvUnit s q
  let stack := stackOfRank s u
  let map (s : State) (n : Nat) : State := setKvCount (kvLeaf s r stack w k (some n)) r n 1
  match kvPage s r k with
  | none =>
    let x := kvTake s r u w keep
    match x.pages with
    | [] => x
    | n :: _ => { x with s := onKvSeq (map x.s n) r q (fun x => { x with nearMapped := x.nearMapped + 1 }), pages := [n, n] }
  | some old =>
    let far := decide (g.nearN ≤ old)
    let shared := decide (1 < kvCount s r old)
    if !shared && !far then ⟨s, [old], true, 0, false, none⟩
    else
      let x := kvTake s r u w (old :: keep)
      match x.pages with
      | [] => x
      | n :: _ =>
        let s := x.s
        let s :=
          if shared then
            let m := min g.positions ((kvSeq s r q).length - g.idxOf k * g.positions)
            (List.range 4).foldl (fun s c =>
              let row := g.dim * fmtBits g.fmt / 8
              let s := kvCopy s stack w (g.pagePa old + c * 16384) (g.pagePa n + c * 16384) (m * row)
              if g.scaled then
                (List.range (g.dim / 32)).foldl (fun s j =>
                  let o := c * (g.slot / 4) + j * g.positions
                  kvCopy s stack w (g.slotPa old + o) (g.slotPa n + o) m) s
              else s) s
          else kvCopy (kvCopy s stack w (g.pagePa old) (g.pagePa n) 65536) stack w (g.slotPa old) (g.slotPa n) g.slot
        let s := map s n
        let c := kvCount s r old
        let s := if c ≤ 1 then kvFreePage s r old else setKvCount s r old (c - 1)
        let s := if far then onKvSeq s r q (fun x => { x with nearMapped := x.nearMapped + 1, farMapped := x.farMapped - 1 }) else s
        { x with s := s, pages := [n, n], flags := x.flags ||| (if shared then 16 else 128) }

/-- What an append has done so far. -/
structure KvAcc where
  s : State
  flags : Nat
  pages : Nat
  /-- pages written by this append -/
  used : List Nat
  items : List ErrItem
  /-- the page that could not be obtained (R189), why it must wait, or the fault met -/
  stop : Option KvGot

/-- Write 32 elements of one position, head and kind of an append into its page, with their scale byte; a poisoned source marks
what is stored of them (R171, R172, R188). `j` is the block's number along D. -/
def kvPutBlock (a : KvAcc) (g : KvGeo) (stack : Nat) (w : Option Nat) (page pos c j : Nat) (src : Nat) (rtz : Bool) (bytes : List Byte)
    (bad : Bool) : KvAcc :=
  let codes := unpackElems 16 32 bytes
  let (data, scales, fl, back) := kvConvert { g with dim := 32 } src rtz codes
  let t := pos % g.positions
  let row := g.dim * fmtBits g.fmt / 8
  let s := kvStore a.s stack w (g.pagePa page + c * 16384 + t * row + j * (4 * fmtBits g.fmt)) data bad
  let s := scales.foldl (fun s x => kvStore s stack w (g.slotPa page + c * (g.slot / 4) + j * g.positions + t) [BitVec.ofNat 8 x] bad) s
  let items := (codes.zip back).zipIdx.map (fun x => (⟨0, c * g.dim + 32 * j + x.2, fmtVal src x.1.1, x.1.2⟩ : ErrItem))
  { a with s := s, flags := a.flags ||| fl ||| (if bad then 2048 else 0), items := a.items ++ items }

/-- Write one position of an append: the keys and values of two heads, block by block (R188). -/
def kvPutPos (a : KvAcc) (g : KvGeo) (stack : Nat) (w : Option Nat) (page pos src : Nat) (rtz : Bool) (ps : List (Nat × Nat))
    (bytes : List Byte) (base : Nat) : KvAcc :=
  (List.range 4).foldl (fun a c => (List.range (g.dim / 32)).foldl (fun a j =>
    let off := base + c * 2 * g.dim + 64 * j
    kvPutBlock a g stack w page pos c j src rtz ((bytes.drop off).take 64) (piecePoison a.s ps off 64)) a) a

/-- KV_APPEND (R187 to R189). STEP_FAULT is met before the position check (DEDUCED from R189, log entry 133). -/
def execKvAppend (n : Nat) (s : State) : Res :=
  kvServe 2 n (fun s o r q =>
    let d := o.desc
    let g := kvGeo s r
    let x := kvSeq s r q
    let w := o.ring
    let stack := stackOfRank s (kvUnit s q)
    let layer := dw d 2 0 8
    let pair := dw d 2 8 6
    let count := dw d 2 32 16
    let src := if dw d 2 14 1 = 1 then 3 else 2
    let rtz := decide (dw d 2 15 1 = 1)
    let mode := dw d 2 16 2
    let va := dw d 3 0 48
    let eva := dw d 4 0 48
    if !x.isOpen || decide (g.layers ≤ layer ∨ g.pairs ≤ pair) then kvFail s 0x16
    else if x.stepFault then { kvFail s 0 with outcome := 2 }
    else if kvPos d ≠ x.length ∨ g.maxPos < kvPos d + count then kvFail s 0x17
    else
      let source := pieces s none g.part false false va (count * 8 * g.dim)
      let errs := if mode = 0 then Except.ok [] else pieces s none g.part true false eva (if mode = 1 then 32 else 128 * g.dim)
      let s := learnRange s none g.part va (count * 8 * g.dim) false false (some w)
      match source, errs with
      | .error (e, fva), _ => { kvFail s 0 with fault := some (fva, e) }
      | _, .error (e, fva) => { kvFail s 0 with fault := some (fva, e), lost := true }
      | .ok ps, .ok _ =>
        let s := ps.foldl (fun s p => sliceRd s (.kpu (Fin.ofNat 12 stack)) (some va) (some w) p.1 p.2) s
        let bytes := (readPieces s ps).1
        let p0 := kvPos d
        let first := p0 / g.positions
        let last := (p0 + count - 1) / g.positions
        let keep := kvTouches s o
        let a := (List.range (last - first + 1)).foldl (fun (a : KvAcc) i =>
          if a.stop.isSome then a
          else
            let idx := first + i
            let x := kvPageFor a.s r q (g.key q layer pair idx) (some w) (a.used ++ keep)
            match x.pages with
            | [] => { a with s := x.s, flags := a.flags ||| x.flags, stop := some x }
            | page :: more =>
              let a := { a with s := kvStamp x.s r page, flags := a.flags ||| x.flags, pages := a.pages + more.length, used := page :: a.used }
              let lo := max p0 (idx * g.positions)
              let hi := min (p0 + count) ((idx + 1) * g.positions)
              (List.range (hi - lo)).foldl (fun a t => kvPutPos a g stack (some w) page (lo + t) src rtz ps bytes ((lo + t - p0) * 8 * g.dim)) a)
          ⟨s, 0, 0, [], [], none⟩
        let s := if mode = 0 then a.s else gatherErrBy a.s (.kpu (Fin.ofNat 12 stack)) none w mode eva 0 0 a.items
        match a.stop with
        | some x =>
          if x.waits then { kvFail s 0 with waits := true }
          else match x.fault with
            | some f => { kvFail s 0 with flags := a.flags, pages := a.pages, fault := some f, lost := true }
            | none =>
              let s := addSat (onKvSeq s r q (fun x => { x with stepFault := true })) R.KPU_EVT_NO_PAGE r stack 1
              kvSealed { kvDone s a.flags a.pages with outcome := 1 } r q (some w) false
        | none => kvSealed (kvDone s a.flags a.pages) r q (some w) false) s

/-- KV_COMMIT (R190). -/
def execKvCommit (n : Nat) (s : State) : Res :=
  kvServe 3 n (fun s o r q =>
    let x := kvSeq s r q
    let len := kvPos o.desc
    if !x.isOpen then kvFail s 0x16
    else if x.stepFault then
      kvSealed { kvDone (onKvSeq s r q (fun x => { x with stepFault := false, failed := (x.failed + 1) % 2 ^ 32, lastOutcome := 1 })) 0 0 with
        outcome := 1 } r q (some o.ring) false
    else if len < x.length ∨ (kvGeo s r).maxPos < len then
      kvSealed (kvFail (onKvSeq s r q (fun x => { x with lastOutcome := 3 })) 0x17) r q (some o.ring) false
    else
      kvSealed (kvDone (onKvSeq s r q (fun x => { x with length := len, commits := (x.commits + 1) % 2 ^ 32, lastOutcome := 0 })) 0 0)
        r q (some o.ring) true) s

/-- KV_FORK (R184). -/
def execKvFork (n : Nat) (s : State) : Res :=
  kvServe 4 n (fun s o r q =>
    let g := kvGeo s r
    let p := kvParent o.desc
    let len := kvPos o.desc
    let w := some o.ring
    if g.maxSeq ≤ p ∨ (kvSeq s r p).isOpen = false then kvFail s 0x16
    else if (kvSeq s r p).length < len then kvFail s 0x17
    else if (kvSeq s r q).isOpen then kvFail s 0x18
    else
      let x := kvOpenSeq s r q len w (kvTouches s o)
      if !x.ok then x.lack
      else
        let s := x.s
        let stack := stackOfRank s (kvUnit s q)
        let keys := (kvKeys s r p).filter (fun k => decide (g.idxOf k * g.positions < len))
        let s := keys.foldl (fun s k =>
          match kvPage s r k with
          | none => s
          | some page =>
            let s := kvLeaf s r stack w (k + g.seqLo q / 65536 - g.seqLo p / 65536) (some page)
            let s := setKvCount s r page (kvCount s r page + 1)
            onKvSeq s r q (fun x => if page < g.nearN then { x with nearMapped := x.nearMapped + 1 } else { x with farMapped := x.farMapped + 1 })) s
        kvSealed (kvDone s x.flags x.pages.length) r q w true) s

/-- Unmap every page of a sequence wholly at or beyond a length (R186). -/
def kvTrim (s : State) (r q len : Nat) (w : Option Nat) : State :=
  let g := kvGeo s r
  let stack := stackOfRank s (kvUnit s q)
  ((kvKeys s r q).filter (fun k => decide (len ≤ g.idxOf k * g.positions))).foldl (fun s k =>
    match kvPage s r k with
    | none => s
    | some page =>
      let s := kvLeaf s r stack w k none
      let c := kvCount s r page
      let s := if c ≤ 1 then kvFreePage s r page else setKvCount s r page (c - 1)
      onKvSeq s r q (fun x => if page < g.nearN then { x with nearMapped := x.nearMapped - 1 } else { x with farMapped := x.farMapped - 1 })) s

/-- KV_TRUNCATE (R186). -/
def execKvTruncate (n : Nat) (s : State) : Res :=
  kvServe 5 n (fun s o r q =>
    let len := kvPos o.desc
    if !(kvSeq s r q).isOpen then kvFail s 0x16
    else if (kvSeq s r q).length < len then kvFail s 0x17
    else
      let s := onKvSeq s r q (fun x => { x with length := len, stepFault := false })
      kvSealed (kvDone (kvTrim s r q len (some o.ring)) 0 0) r q (some o.ring) true) s

/-- KV_CLOSE (R176, R186). -/
def execKvClose (n : Nat) (s : State) : Res :=
  kvServe 6 n (fun s o r q =>
    let g := kvGeo s r
    let w := some o.ring
    let x := kvSeq s r q
    if !x.isOpen then kvFail s 0x16
    else
      let stack := stackOfRank s (kvUnit s q)
      let s := kvTrim (onKvSeq s r q (fun x => { x with length := 0, stepFault := false })) r q 0 w
      let s := (List.range g.seqBlocks).foldl (fun s i => kvBlock s r stack w (g.seqLo q / 2 ^ 21 + i) none) s
      let s := x.tables.foldl (fun s p => kvFreePage s r p) s
      let s := onKvSeq s r q (fun x => { x with isOpen := false, tables := [] })
      let s := wr s R.KPU_RGN_STATUS_OPEN_SEQ r 0 (rd s R.KPU_RGN_STATUS_OPEN_SEQ r 0 - 1)
      kvSealed (kvDone s 0 0) r q w true) s

/-- KV_PIN (R186). -/
def execKvPin (n : Nat) (s : State) : Res :=
  kvServe 7 n (fun s o r q =>
    if !(kvSeq s r q).isOpen then kvFail s 0x16
    else kvSealed (kvDone (onKvSeq s r q (fun x => { x with pin := decide (dw o.desc 1 56 1 = 1) })) 0 0) r q (some o.ring) false) s

/-! ### Fetch (R197, R198) -/

/-- A fetch descriptor is a reserved encoding whatever its region: a reserved bit, COUNT, POS or the scales' alignment (R14,
R197). -/
def kvFetchReserved (d : List W64) : Bool :=
  decide (d.length ≠ 3) || decide (dw d 0 6 2 ≠ 0 ∨ dw d 0 54 10 ≠ 0 ∨ dw d 1 32 32 ≠ 0) ||
  decide (dw d 0 48 6 = 0 ∨ 32 < dw d 0 48 6) || decide (dw d 1 0 5 ≠ 0) || decide (dw d 2 32 32 % 32 ≠ 0)

/-- A fetch descriptor is a reserved encoding for its region: the row's bytes run over, or scales of a region without (R14, R197,
R198). -/
def kvFetchBad (g : KvGeo) (d : List W64) : Bool :=
  decide (512 < dw d 2 0 32 % 512 + g.dim * fmtBits g.fmt / 8) || (!g.scaled && decide (dw d 2 32 32 ≠ 0))

/-- KV_FETCH (R197, R198): 32 positions of a head's keys or values go to scratchpad rows, with their scales; rows beyond
COUNT and unmapped pages are zeros. -/
def execKvFetch (c : CoreIx) (desc : List W64) (s : State) : Res :=
  if !canIssue s c then .next s
  else
    let w := (coreAt s c).ring.getD 0
    let p := ringPart s w
    let r := dw desc 0 0 6
    let q := dw desc 0 8 24
    let layer := dw desc 0 32 8
    let pair := dw desc 0 40 6
    let cls := dw desc 0 47 1 * 2 + dw desc 0 46 1
    let cnt := dw desc 0 48 6
    let pos := dw desc 1 0 32
    let o := dw desc 2 0 32
    let so := dw desc 2 32 32
    let g := kvGeo s r
    let s1 := count s c 56 1
    if kvFetchReserved desc then .next (failCmd s1 w 0x1D 0) else
    match kvRegionBad s r p with
    | some code => .next (failCmd s1 w code 0)
    | none =>
      if kvFetchBad g desc then .next (failCmd s1 w 0x1D 0)
      else if g.maxSeq ≤ q ∨ g.layers ≤ layer ∨ g.pairs ≤ pair ∨ (kvSeq s r q).isOpen = false then .next (failCmd s1 w 0x16 0)
      else if g.maxPos < pos + 32 then .next (failCmd s1 w 0x17 0)
      else
        let row := g.dim * fmtBits g.fmt / 8
        let blocks := if g.scaled then g.dim / 32 else 0
        if spdBytes < o + 31 * 512 + row ∨ spdBytes < so + 32 * blocks then .next (failCmd s1 w 0x1C 0)
        else
          let fs := (List.range 32).map (fun t => (⟨21000, 0, 4, 0, 0, o + t * 512, o + t * 512 + row, true⟩ : Footprint)) ++
            (if blocks = 0 then [] else [⟨21000, 1, 4, 0, 0, so, so + 32 * blocks, true⟩])
          match register s1 c fs with
          | .waits => .next s
          | .faults t => .next t
          | .ok s2 =>
            let k := g.key q layer pair (pos / g.positions)
            let zeros (s : State) : State :=
              let s := (List.range 32).foldl (fun s t => spdStore s c (o + t * 512) 4 0 0 (List.replicate row 0) false) s
              if blocks = 0 then s else spdStore s c so 4 0 0 (List.replicate (32 * blocks) 0) false
            match kvPage s r k with
            | none => .next (zeros (release s2 c 21000))
            | some page =>
              let va := k * 65536
              let t0 := pos % g.positions
              let data := cls * 16384 + t0 * row
              match translate s (some c) p va false false with
              | .error e => .next (if walkWaits s (some c) p va then s else xlateFail s1 w p va false (some c) e)
              | .ok base =>
                if walkWaits s (some c) p va || memWaits s (base + data) (cnt * row) || memWaits s (g.slotPa page) g.slot then .next s
                else
                  let s2 := learn s2 (some c) p va false false (some w)
                  let s3 := sliceRd (zeros (release s2 c 21000)) (.mover c) (some (va + data)) (some w) (base + data) (cnt * row)
                  let s4 := (List.range cnt).foldl (fun s t =>
                    let a := base + data + t * row
                    storeMoved s c 4 (cohRead s a row).1 (fun i => (cohRead s (a + i) (min 8 (row - i))).2) (fun b => o + t * 512 + b) (fun b => row - b)) s3
                  let s5 := (List.range blocks).foldl (fun s j =>
                    let a := g.slotPa page + cls * (g.slot / 4) + j * g.positions + t0
                    let s := sliceRd s (.mover c) none (some w) a cnt
                    storeMoved s c 4 (cohRead s a cnt).1 (fun i => (cohRead s (a + i) (min 8 (cnt - i))).2) (fun b => so + 32 * j + b) (fun b => cnt - b)) s4
                  let s5 := match cohPoisonAt s (base + data) (cnt * row) with
                    | some pa => poisonFound s5 3 c 1 pa
                    | none => s5
                  .next (kvStamp s5 r page)

/-! ### Regions (R174, R176, R196, R202) -/

/-- Apply the journals of region r once more on the units that `mine` selects (R196): every operation served is whole, so what a
reset can have lost of it is its sequence record on the way to memory, which is written again. -/
def replayRegion (s : State) (r : Nat) (mine : Nat → Bool) : State :=
  if rd s R.KPU_RGN_STATUS_STATE r 0 ≠ 2 then s
  else
    let g := kvGeo s r
    ((kvReg s r).seqs.map (fun e => e.1)).foldl (fun s q =>
      if !mine (kvUnit s q) then s
      else match translate s none g.part (g.seqtab + 64 * q) true false with
        | .error _ => s
        | .ok pa => landMem s pa (wordsBytes ((kvSeq s r q).words (stackOfRank s (kvUnit s q)))) false) s

/-- KPU_JOURNAL_REPLAY (R196, R421): the unit's structures are those of whole operations. -/
def execKpuJournalReplay (u : StackIx) (s : State) : Res :=
  if rd s R.KPU_UNIT_STATUS_STATE u 0 ≠ 2 then .next s
  else
    let s := (List.range 64).foldl (fun s r => replayRegion s r (fun k => decide (stackOfRank s k = u))) s
    .next (wr s R.KPU_UNIT_STATUS_STATE u 0 1)

def log2Up (n : Nat) : Nat := if n ≤ 1 then 0 else Nat.log2 (n - 1) + 1

/-- Cause 1 of R202. -/
def kvCause1 (g : KvGeo) (farPa scalePa : Nat) : Bool :=
  !(decide (g.fmt ∈ [2, 3, 4, 5, 8])) || decide (g.layers = 0) || decide (g.pairs = 0) || !(decide (16 ≤ g.lp ∧ g.lp ≤ 40)) ||
  !(decide (16 ≤ g.ss ∧ g.ss ≤ 47)) || decide (g.maxSeq = 0) || decide (g.nearN = 0) ||
  decide (g.ss < g.lp + log2Up (g.layers * g.pairs)) || (decide (g.farN = 0) && decide (farPa ≠ 0)) ||
  (!g.scaled && decide (scalePa ≠ 0))

/-- Every byte of [pa, pa + n) belongs to a partition and lies in near memory, or in the CXL tier. -/
def ownedBlock (s : State) (p : Nat) (near : Bool) (pa n : Nat) : Bool :=
  decide (n = 0) || (List.range ((pa + n - 1) / 2 ^ 30 - pa / 2 ^ 30 + 1)).all (fun i =>
    let a := (pa / 2 ^ 30 + i) * 2 ^ 30
    decide (ownerOf s a = some p) && (match placeOf s a with
      | .near => near
      | .cxl _ => !near
      | _ => false))

/-- Pools and areas of a region. -/
def kvAreas (g : KvGeo) : List (Nat × Nat) :=
  [(g.nearPa, g.nearN * 65536), (g.farPa, g.farN * 65536), (g.scalePa, g.slot * g.pages), (g.metaPa, 49152 + 20 * g.pages)]

/-- Cause 2 of R202, but for the conversion of offsets. -/
def kvCause2 (s : State) (g : KvGeo) : Bool :=
  !ownedBlock s g.part true g.nearPa (g.nearN * 65536) || !ownedBlock s g.part false g.farPa (g.farN * 65536) ||
  (g.scaled && decide (g.scalePa % g.slot ≠ 0)) || !ownedBlock s g.part true g.scalePa (g.slot * g.pages) ||
  !ownedBlock s g.part true g.metaPa (49152 + 20 * g.pages) ||
  (match pieces s none g.part true false g.seqtab (64 * g.maxSeq) with | .ok _ => false | .error _ => true) ||
  (List.range (g.range / 2 ^ 30)).any (fun i => (l2Table s g.part (g.base + i * 2 ^ 30)).isNone) ||
  decide (g.nearN < g.setAside)

/-- Two areas overlap. -/
def areasMeet (a b : Nat × Nat) : Bool := decide (a.1 < b.1 + b.2 ∧ b.1 < a.1 + a.2 ∧ a.2 ≠ 0 ∧ b.2 ≠ 0)

/-- Cause 3 of R202: regions that are not absent hold their areas. -/
def kvCause3 (s : State) (r : Nat) (g : KvGeo) : Bool :=
  let mine := kvAreas g
  (List.range 64).any (fun k => decide (rd s R.KPU_RGN_STATUS_STATE k 0 ≠ 0) && !(decide (k = r) && (kvGeo s r).valid) &&
    (kvAreas (kvGeo s k)).any (fun b => mine.any (fun a => areasMeet a b))) ||
  mine.zipIdx.any (fun a => mine.zipIdx.any (fun b => decide (a.2 < b.2) && areasMeet a.1 b.1))

/-- Cause 4 of R202. -/
def kvCause4 (s : State) (r : Nat) (g : KvGeo) : Bool :=
  decide (2 ^ 48 < g.base + g.range) ||
  (List.range 64).any (fun k => decide (k ≠ r) && decide (rd s R.KPU_RGN_STATUS_STATE k 0 ≠ 0) &&
    (let h := kvGeo s k
     decide (h.part = g.part) && areasMeet (g.base, g.range) (h.base, h.range)))

/-- Cause 5 of R202: what may not change while VALID is 1. -/
def kvCause5 (s : State) (r : Nat) (g : KvGeo) : Bool :=
  let h := kvGeo s r
  h.valid && (decide ({ g with valid := true, lowWm := h.lowWm, demote := h.demote, borrow := h.borrow } ≠ h) ||
    (!g.valid && decide (rd s R.KPU_RGN_STATUS_OPEN_SEQ r 0 ≠ 0)))

/-- Refuse a commit: REJECTED is set, and CAUSE is recorded unless a refusal is already held. -/
def refuse (s : State) (rej cause : Fld) (i c : Nat) : State :=
  if rdB s rej i 0 then s else wr (wr s rej i 0 1) cause i 0 c

/-- A block whose register holds a partition offset of partition p (R269). -/
def convBlock (s : State) (p off n : Nat) : Option Nat := if n = 0 then some off else contigBlock s p off n

/-- Offsets of the nine registers of a region's set. -/
def kvRegOffs (r : Nat) : List Nat := (List.range 9).map (fun i => 0x740000 + r * 0x100 + 8 * i)

/-- A committed set with VALID = 1 starts to create its region. -/
def kvStart (s : State) (r : Nat) : State :=
  wr (wr s R.KPU_RGN_CFG_POS_LOG2 r 0 (Nat.log2 (kvGeo s r).positions)) R.KPU_RGN_STATUS_STATE r 0 1

/-- KPU_RGN_COMMIT (R202, R269, R292): through a virtual function the address fields are partition offsets and PARTITION is
its own. A set with VALID = 0 describes no region: it is held to causes 1 and 5 and to the conversion (log entry 125). A set
committed while the region is being destroyed applies when that is done. -/
def execKpuRgnCommit (fn : FnIx) (r : RegionIx) (s : State) : Res :=
  let sh := kvGeoOf (rdS s) r
  let p := if (fn : Nat) = 0 then sh.part else (fn : Nat) - 1
  let g0 := { sh with part := p }
  let conv : Option KvGeo :=
    if (fn : Nat) = 0 then some g0
    else match convBlock s p g0.nearPa (g0.nearN * 65536), convBlock s p g0.farPa (g0.farN * 65536),
        convBlock s p g0.scalePa (g0.slot * g0.pages), convBlock s p g0.metaPa (49152 + 20 * g0.pages) with
      | some a, some b, some c, some d => some { g0 with nearPa := a, farPa := b, scalePa := c, metaPa := d }
      | _, _, _, _ => none
  let was := (kvGeo s r).valid
  let cause : Nat :=
    if kvCause1 g0 sh.farPa sh.scalePa then 1
    else match conv with
      | none => 2
      | some g =>
        if kvCause5 s r g then 5
        else if !g.valid || was then 0
        else if kvCause2 s g then 2
        else if kvCause3 s r g then 3
        else if kvCause4 s r g then 4
        else 0
  if cause ≠ 0 then .next (refuse s R.KPU_RGN_STATUS_REJECTED R.KPU_RGN_STATUS_CAUSE r cause)
  else
    match conv with
    | none => .next s
    | some g =>
      let put (s : State) : State :=
        let s := commitRegs s (kvRegOffs r)
        let s := wr s R.KPU_RGN_CFG_PARTITION r 0 g.part
        let s := wr (wr s R.KPU_RGN_NEAR_NEAR_PA r 0 (g.nearPa / 65536)) R.KPU_RGN_FAR_FAR_PA r 0 (g.farPa / 65536)
        wr (wr s R.KPU_RGN_SCALE_SCALE_PA r 0 (g.scalePa / 2048)) R.KPU_RGN_META_META_PA r 0 (g.metaPa / 4096)
      if rd s R.KPU_RGN_STATUS_STATE r 0 = 3 then
        .next { s with kv := { s.kv with waiting := SMap.put (fun _ => []) s.kv.waiting r ((kvRegOffs r).map (fun o => (o, reg (put s) o))) } }
      else match was, g.valid with
      | false, false => .next (put s)
      | true, true =>
        .next (wr (wr (wr s R.KPU_RGN_LIMITS_LOW_WM r 0 g.lowWm) R.KPU_RGN_CFG_DEMOTE r 0 (if g.demote then 1 else 0))
          R.KPU_RGN_CFG_BORROW r 0 (if g.borrow then 1 else 0))
      | false, true =>
        .next (kvStart (put s) r)
      | true, false =>
        let s := wr (wr s R.KPU_RGN_CFG_VALID r 0 0) R.KPU_RGN_CFG_POS_LOG2 r 0 0
        .next (wr s R.KPU_RGN_STATUS_STATE r 0 3)

/-- Every level-2 entry of a region's range becomes invalid (R176). -/
def kvClearRange (s : State) (g : KvGeo) : State :=
  let s := (List.range (g.range / 2 ^ 30)).foldl (fun s i =>
    match l2Table s g.part (g.base + i * 2 ^ 30) with
    | some t => landMem s t (List.replicate 4096 0) false
    | none => s) s
  dropXlat s g.part g.base g.range

/-- Pages of a pool in ascending order that unit u owns (R173, R181). -/
def kvOwn (units u lo hi : Nat) : List Nat := ((List.range (hi - lo)).map (· + lo)).filter (fun n => decide (n % units = u))

/-- KPU_RGN_INIT_DONE (R176, R177, R181, R202): the range is unmapped, shared tables are set aside, the free lists hold every
other page in ascending order, every sequence record is zero, and the metadata area is initialised (its bytes are free: log
entry 124). -/
def execKpuRgnInitDone (r : RegionIx) (s : State) : Res :=
  if rd s R.KPU_RGN_STATUS_STATE r 0 ≠ 1 then .next s
  else
    let g := kvGeo s r
    let s := kvClearRange s g
    let s := setKvReg s r KvRegion.fresh
    let s := (List.range g.sharedBlocks).foldl (fun s i =>
      let t := g.pagePa (i / 256) + i % 256 * 256
      kvBlock (landMem s t (List.replicate 256 0) false) r 0 none (g.base / 2 ^ 21 + i) (some t)) s
    let s := (List.range (nu s)).foldl (fun s u =>
      setKvFar (setKvNear s r u (kvOwn (nu s) u g.setAside g.nearN)) r u (kvOwn (nu s) u g.nearN g.pages)) s
    let s := match pieces s none g.part true false g.seqtab (64 * g.maxSeq) with
      | .ok ps => ps.foldl (fun s p => landMem s p.1 (List.replicate p.2 0) false) s
      | .error _ => s
    let (b, s) := freeBytes s ((49152 + 20 * g.pages + 7) / 8)
    let s := landMem s g.metaPa (b.take (49152 + 20 * g.pages)) false
    .next (wr (wr s R.KPU_RGN_STATUS_OPEN_SEQ r 0 0) R.KPU_RGN_STATUS_STATE r 0 2)

/-- KPU_RGN_DESTROY_DONE (R176, R202): the range is unmapped and the pools are free; a set that waited for this applies. -/
def execKpuRgnDestroyDone (r : RegionIx) (s : State) : Res :=
  if rd s R.KPU_RGN_STATUS_STATE r 0 ≠ 3 then .next s
  else
    let s := wr (setKvReg (kvClearRange s (kvGeo s r)) r KvRegion.fresh) R.KPU_RGN_STATUS_STATE r 0 0
    let new := SMap.look (fun _ => []) s.kv.waiting r
    let s := { s with kv := { s.kv with waiting := SMap.put (fun _ => []) s.kv.waiting r [] } }
    let s := new.foldl (fun s e => setReg s e.1 e.2) s
    .next (if (kvGeo s r).valid && !new.isEmpty then kvStart s r else s)

end Sys2Proof.Machine
end

