-- ==== Sys2Proof/Machine/Obs.lean ====
section
/-!
DEFINITION. Sys2Proof/Machine/Obs.lean: counter snapshots, watchpoint arming and traces (R426 to R436), the debug log
(R290, R291), and the TSC (R437 to R442).
-/
namespace Sys2Proof.Machine

/-! ### Operator debug (R290, R291) -/

/-- Put a partition's debug log. -/
def putLog (s : State) (p : Nat) (l : List (List W64)) : State :=
  { s with tru := { s.tru with logs := SMap.put (fun _ => []) s.tru.logs p l } }

/-- A new entry of a partition's debug log, the newest 256 being kept (R291). -/
def addLog (s : State) (p : Nat) (e : List W64) : State :=
  let log := SMap.look (fun _ => []) s.tru.logs p
  wr (putLog s p ((log ++ [e]).drop (log.length + 1 - 256))) R.SEC_LOG_STATUS_WRITTEN p 0 (rd s R.SEC_LOG_STATUS_WRITTEN p 0 + 1)

/-- Log an access of a class by a requester at an address with a core number `c`: it merges with the newest entry of the
same class, requester and core within 1 ms (R291). -/
def logDebug (s : State) (p cls requester addr c : Nat) : State :=
  let fresh : List W64 := [BitVec.ofNat 64 (tsc s), BitVec.ofNat 64 (cls + requester * 16 + 65536),
    BitVec.ofNat 64 (addr % 2 ^ 48 + c * 2 ^ 48), BitVec.ofNat 64 (tsc s)]
  let log := SMap.look (fun _ => []) s.tru.logs p
  match log.getLast? with
  | none => addLog s p fresh
  | some e =>
    let w1 := e.getD 1 0
    if getBits w1 0 6 = cls + requester * 16 ∧ getBits (e.getD 2 0) 48 9 = c ∧ tsc s ≤ (e.getD 3 0).toNat + 1000000 then
      putLog s p (log.dropLast ++ [[e.getD 0 0, setBits w1 16 32 (min (getBits w1 16 32 + 1) (2 ^ 32 - 1)), e.getD 2 0, BitVec.ofNat 64 (tsc s)]])
    else addLog s p fresh

/-- The core number that a log entry names, and the state after it is known: a class without a core names core 0, and one
whose core the spec leaves open takes a free value. -/
def logCore (s : State) (cls : Nat) (core : Option Nat) : Nat × State :=
  let r : W64 × State := match core with
    | some c => (BitVec.ofNat 64 c, s)
    | none => takeFree s
  (if cls ≤ 2 then 0 else getBits r.1 0 9, r.2)

/-- The DEBUG_ACCESS event of a partition, at most once per millisecond (R290). -/
def debugEvent (s : State) (p : Nat) : State :=
  let last := SMap.look (fun _ => 0) s.tru.logEvAt p
  if last = 0 ∨ last - 1 + 1000000 ≤ s.utime then
    postEvent { s with tru := { s.tru with logEvAt := SMap.put (fun _ => 0) s.tru.logEvAt p (s.utime + 1) } }
      (some p) 0x0107 (rd s R.SEC_LOG_STATUS_WRITTEN p 0) 0 0
  else s

/-- An operator access to partition p: it is marked, ends trust once the interface is locked, and is logged (R290, R291, R293). -/
def debugAccess (s : State) (p cls requester addr : Nat) (core : Option Nat) : State :=
  if !rdB s R.PRT_CFG_VALID p 0 then s
  else
    let s := wr (wr s R.PRT_STATUS_DEBUG_TOUCHED p 0 1) R.SEC_LOG_STATUS_DEBUG_TOUCHED p 0 1
    let s := if tdiLocked s p then tdiError s p 2 else s
    let r := logCore s cls core
    debugEvent (logDebug r.2 p cls requester addr r.1) p

/-! ### Snapshots (R426 to R430) -/

/-- CNT_CLEAR (R426). -/
def execCntClear (c : CoreIx) (s : State) : Res := whenDo (coreUsable s c) s (resetCounters s c)

/-- CNT_SNAP_TAKE (R427). -/
def execCntSnapTake (c : CoreIx) (s : State) : Res := whenDo (coreUsable s c) s (takeSnap s c 1 false)

/-- The module-wide snapshot is taken on every usable core of the named partitions (R430). -/
def dbgSnap (s : State) (late : Bool) : State :=
  let s := coreIxs.foldl (fun s c =>
    match coreOwner s c with
    | some p => if coreUsable s c && decide (s.obs.snapParts / 2 ^ p % 2 = 1) then takeSnap s c 5 late else s
    | none => s) s
  wrB (wr s R.DBG_SNAP_STATUS_ARMED 0 0 0) R.DBG_SNAP_STATUS_LATE 0 0 late

/-- DBG_SNAP_ARM (R430): arming is a debug access to every partition named; a value that has passed is taken at once. -/
def execDbgSnapArm (parts : Nat) (s : State) : Res :=
  let s := (List.range 16).foldl (fun s p => if parts / 2 ^ p % 2 = 1 then debugAccess s p 9 1 0 none else s) s
  let s := wr { s with obs := { s.obs with snapParts := parts % 65536 } } R.DBG_SNAP_STATUS_ARMED 0 0 1
  let s := wr s R.DBG_SNAP_STATUS_LATE 0 0 0
  .next (if rd s R.DBG_SNAP_TSC_TSC 0 0 < tsc s then dbgSnap s true else s)

/-- DBG_SNAPSHOT (R430): the TSC has reached the armed value. -/
def execDbgSnapshot (s : State) : Res :=
  whenDo (rdB s R.DBG_SNAP_STATUS_ARMED 0 0 && decide (rd s R.DBG_SNAP_TSC_TSC 0 0 ≤ tsc s)) s (dbgSnap s false)

/-! ### Arming watchpoints (R431 to R433) -/

/-- Partitions that own memory in [lo, hi), with the first partition offset that each has there. -/
def partsIn (s : State) (lo hi : Nat) : List (Nat × Nat) :=
  (validParts s).filterMap (fun p =>
    ((partRanges s p).find? (fun r => decide (r.1 * 2 ^ 30 < hi ∧ lo < (r.1 + r.2) * 2 ^ 30))).map
      (fun r => (p, (offsetOf (partRanges s p) 0 (max lo (r.1 * 2 ^ 30))).getD 0)))

/-- WATCHPOINT_ENABLE (R290, R431 to R433): a write of a watchpoint's configuration; the range is sampled as ENABLE is set. A
reserved ACTION leaves the field as it was (R13). -/
def execWatchpointEnable (fn : FnIx) (wp : WpIx) (cfg : W64) (s : State) : Res :=
  match wp with
  | .mem n =>
    if (fn : Nat) ≠ 0 then .next s
    else
      let s := wr (wr (wr s R.DBG_WP_CFG_ENABLE n 0 (getBits cfg 0 1)) R.DBG_WP_CFG_READ n 0 (getBits cfg 1 1)) R.DBG_WP_CFG_WRITE n 0 (getBits cfg 2 1)
      let s := wr s R.DBG_WP_CFG_SOURCE n 0 (getBits cfg 6 2)
      let s := if getBits cfg 4 2 = 3 then s else wr s R.DBG_WP_CFG_ACTION n 0 (getBits cfg 4 2)
      if getBits cfg 0 1 = 0 then .next s
      else
        let lo := rd s R.DBG_WP_BASE_BASE n 0 * 8
        let hi := rd s R.DBG_WP_END_END n 0 * 8
        let s := { s with obs := { s.obs with wpRange := SMap.put (fun _ => ((0 : Nat), (0 : Nat))) s.obs.wpRange n (lo, hi) } }
        .next ((partsIn s lo hi).foldl (fun s p => debugAccess s p.1 10 1 p.2 none) s)
  | .spd c m =>
    let mine := match coreOwner s c with | some p => decide ((fn : Nat) = p + 1) | none => false
    if !coreUsable s c || !(decide ((fn : Nat) = 0) || mine) then .next s
    else
      let s := wr (wr (wr s R.CNT_SPWP_CFG_ENABLE c m (getBits cfg 0 1)) R.CNT_SPWP_CFG_READ c m (getBits cfg 1 1)) R.CNT_SPWP_CFG_WRITE c m (getBits cfg 2 1)
      let s := if getBits cfg 4 2 = 3 then s else wr s R.CNT_SPWP_CFG_ACTION c m (getBits cfg 4 2)
      if getBits cfg 0 1 = 0 then .next s
      else
        let lo := rd s R.CNT_SPWP_RANGE_BASE c m
        let hi := rd s R.CNT_SPWP_RANGE_END c m
        let s := { s with obs := { s.obs with spwpRange := SMap.put (fun _ => ((0 : Nat), (0 : Nat))) s.obs.spwpRange ((c : Nat) * 2 + m) (lo, hi) } }
        match coreOwner s c with
        | some p => .next (if (fn : Nat) = 0 then debugAccess s p 10 0 lo (some c) else s)
        | none => .next s

/-! ### Traces (R435, R436) -/

/-- Slot of the next trace record, none where the buffer is full. -/
def traceSlot (s : State) (c : Nat) : Option Nat :=
  let n := rd s R.CNT_TRACE_STATUS_WRITTEN c 0
  let size := 2 ^ rd s R.CNT_TRACE_CTL_SIZE_LOG2 c 0
  if rdB s R.CNT_TRACE_CTL_WRAP c 0 then some (n % size) else if n < size then some n else none

/-- TRACE_RECORD_WRITE (R435, R436): the oldest record goes to the next slot of the buffer as an ordinary write of the core; a
fault disables tracing; room that frees after drops takes a kind-12 record where KINDS selects that kind. -/
def execTraceRecordWrite (c : CoreIx) (s : State) : Res :=
  let x := coreAt s c
  match x.trace, traceSlot s c with
  | [], _ => .next s
  | _ :: _, none => .next (onCore (wr s R.CNT_TRACE_STATUS_FULL c 0 1) c (fun x => { x with trace := [] }))
  | r :: rest, some slot =>
    let p := corePart s c
    let va := rd s R.CNT_TRACE_VA_TRACE_VA c 0 * 64 + 32 * slot
    if accessWaits s (some c) p va 32 false then .next s else
    let at_ := translate s (some c) p va true true
    let s := learn s (some c) p va true true x.ring
    match at_ with
    | .error e =>
      let s := wr (wr (dtuFault s p va true (some c) e) R.CNT_TRACE_CTL_ENABLE c 0 0) R.CNT_TRACE_STATUS_FAULT c 0 1
      .next (onCore s c (fun x => { x with trace := [] }))
    | .ok pa =>
      let dst := if 2 ^ 51 ≤ pa then Dst.host (pa - 2 ^ 51) else Dst.mem pa
      let s := countMem s (.mover c) pa 32 true
      let s := issue s (flightOf (.core c) dst (wordsBytes r) false false x.ring (some p) (some va))
      let s := wr s R.CNT_TRACE_STATUS_WRITTEN c 0 (rd s R.CNT_TRACE_STATUS_WRITTEN c 0 + 1)
      let s := onCore s c (fun x => { x with trace := rest })
      let full := (traceSlot s c).isNone
      let s := wrB s R.CNT_TRACE_STATUS_FULL c 0 full
      if full then .next (onCore s c (fun x => { x with trace := [] }))
      else if x.lost = 0 ∨ rd s R.CNT_TRACE_CTL_KINDS c 0 / 2 ^ 12 % 2 = 0 then .next s
      else .next (onCore s c (fun y => { y with lost := 0, trace := y.trace ++
        [[BitVec.ofNat 64 (tsc s), BitVec.ofNat 64 (12 + (c : Nat) * 256), BitVec.ofNat 64 x.lost, 0]] }))

/-! ### The TSC (R437 to R442) -/

/-- STATE of TSC_STATUS (R438). -/
def tscState (s : State) : Nat :=
  if isFollower s then rd s R.LNK_TIME_STATUS_STATE 0 0
  else if rd s R.TSC_CTL_SOURCE 0 0 = 0 then 0 else s.time.state

/-- The TSC steps (R441). -/
def tscStep (s : State) (v : Nat) : State :=
  let old := tsc s
  let s := coreIxs.foldl (fun s c => traceRec s c 13 0 (BitVec.ofNat 64 old) (BitVec.ofNat 64 v)) s
  let s := addSat (wr s R.TSC_VALUE_TSC 0 0 v) R.TSC_STATUS_STEPS 0 0 1
  postEvent s none 0x0116 old (v % 2 ^ 64) 0

/-- The module takes time from its timing inputs. -/
def usesInputs (s : State) : Bool := !isFollower s && rdB s R.TSC_CTL_SOURCE 0 0

/-- Post TIME_INPUT with the presence bits and the state. -/
def timeInput (s : State) : State :=
  postEvent s none 0x0117 (rd s R.TSC_STATUS_REF_IN 0 0 + 2 * rd s R.TSC_STATUS_PPS_IN 0 0) (tscState s) 0

/-- A synchronised module loses an input: HOLDOVER (R439). Its TSC goes on at the rate it had (DEDUCED, log entry 140). -/
def timeHold (s : State) : State :=
  if usesInputs s && decide (s.time.state = 1 ∨ s.time.state = 2) then
    { s with time := { s.time with state := 3, holdAt := s.utime, good := 0 } }
  else s

/-- A core's clock in halves of a unit of R348: pulses per 10 ns, in units of 1/1,800. -/
def corePulses (s : State) (c : Nat) : Nat :=
  rd s R.CLK_STATUS_ARITH_MHZ 0 0 * (18 - min 18 ((reg s (0x280100 + c / 16 * 8)).toNat / 16 ^ (c % 16) % 16))

/-- Harp-cycle weight of a core for ENGINE_CYCLES (R258). -/
def engineWeight (s : State) (c : Nat) : Nat := max 1 (goodHarps s c)

/-- The cycles of one TSC tick on a core: its CYCLES or GATED counter, and ENGINE_CYCLES while its kernel runs and its job is
resident (R258, R424). -/
def tickCore (s : State) (c : Nat) : State :=
  let x := coreAt s c
  let t := SMap.look (fun _ => 0) x.rem 200 + corePulses s c
  let k := t / 1800
  let s := onCore s c (fun x => { x with rem := SMap.put (fun _ => 0) x.rem 200 (t % 1800) })
  let s := match x.power with
    | .running => count s c 0 k
    | .gated => count s c 1 k
    | _ => s
  match x.ring with
  | some w =>
    if !x.running || x.saved then s
    else
      let n := k * engineWeight s c
      let s := onRing s w (fun r => { r with cmd := r.cmd.map (fun d => { d with engine := d.engine + n }) })
      wr s R.SEQ_RQ_ENGINE_CYCLES w 0 (rd s R.SEQ_RQ_ENGINE_CYCLES w 0 + n)
  | none => s

/-- TSC_TICK (R437, R442): one period of the reference; the TSC and the unstepped time advance by 10 ns as steered. -/
def execTscTick (s : State) : Res :=
  let ppb : Int := if isFollower s then s.lnk.steer else if usesInputs s then s.time.steer else 0
  let f : Int := s.time.frac + 10 * ppb
  let adv : Nat := (10 + f.fdiv 1000000000).toNat
  let s := { s with utime := s.utime + adv, time := { s.time with frac := f.fmod 1000000000 } }
  let s := wr s R.TSC_VALUE_TSC 0 0 (tsc s + adv)
  .next ((s.cores.map (fun e => e.1)).foldl (fun s c => if coreOn s c then tickCore s c else s) s)

/-- Signed value of a field of w bits. -/
def signedOf (w v : Nat) : Int := if v < 2 ^ (w - 1) then v else (v : Int) - 2 ^ w

/-- The rate correction of one measured offset: within 100 ppm, and otherwise not stated (R312, R437, R439); a free value. -/
def steerFree (s : State) : Int × State :=
  let (x, s) := takeFree s
  (((x.toNat % 200001 : Nat) : Int) - 100000, s)

/-- PPS_EDGE (R439). -/
def execPpsEdge (s : State) : Res :=
  let was := rdB s R.TSC_STATUS_PPS_IN 0 0
  let s := wr { s with time := { s.time with edgeAt := s.utime } } R.TSC_STATUS_PPS_IN 0 0 1
  let s :=
    if !usesInputs s then s
    else
      let s := wr s R.TSC_PPS_LATCH_TSC 0 0 (tsc s)
      let e : Int := s.time.next + signedOf 32 (rd s R.TSC_CTL_PPS_DELAY 0 0)
      let s := { s with time := { s.time with next := (s.time.next + 1000000000) % 2 ^ 64 } }
      if !rdB s R.TSC_STATUS_REF_LOCKED 0 0 then s
      else
        let θ : Int := (tsc s : Int) - e
        let acquire (s : State) : State :=
          tscStep { s with time := { s.time with state := 1, good := 0, steer := 0 } } (e % (2 ^ 64 : Int)).toNat
        let steered (s : State) : State :=
          let (r, s) := steerFree s
          wr { s with time := { s.time with steer := r } } R.TSC_STATUS_OFFSET 0 0 (θ * 8 % 65536).toNat
        let small := decide (-2 ≤ θ ∧ θ ≤ 2)
        let near := decide (-1000 ≤ θ ∧ θ ≤ 1000)
        let good := if small then s.time.good + 1 else 0
        match s.time.state with
        | 1 => steered { s with time := { s.time with good := good, state := if 4 ≤ good then 2 else 1 } }
        | 2 => if near then steered s else acquire s
        | 3 => if near then steered { s with time := { s.time with state := 2 } } else acquire s
        | _ => acquire s
  .next (if was then s else timeInput s)

/-- REF_LOCK (R439). -/
def execRefLock (s : State) : Res :=
  whenDo (usesInputs s && rdB s R.TSC_STATUS_REF_IN 0 0) s (wr s R.TSC_STATUS_REF_LOCKED 0 0 1)

/-- TIMING_INPUT_CHANGE (R439): a change of presence is reported; a synchronised module that loses its 10 MHz input holds
over. -/
def execTimingInputChange (refIn ppsIn : Bool) (s : State) : Res :=
  let ref0 := rdB s R.TSC_STATUS_REF_IN 0 0
  let pps0 := rdB s R.TSC_STATUS_PPS_IN 0 0
  let s1 := wrB (wrB s R.TSC_STATUS_REF_IN 0 0 refIn) R.TSC_STATUS_PPS_IN 0 0 ppsIn
  let s1 := if refIn then s1 else wr (timeHold s1) R.TSC_STATUS_REF_LOCKED 0 0 0
  whenDo (decide (ref0 ≠ refIn ∨ pps0 ≠ ppsIn)) s (timeInput s1)

/-- PPS_TIMEOUT (R439): no edge for 1.5 s. -/
def execPpsTimeout (s : State) : Res :=
  let was := rdB s R.TSC_STATUS_PPS_IN 0 0
  let due := decide (s.time.edgeAt + 1500000000 ≤ s.utime)
  let t := timeHold (wr s R.TSC_STATUS_PPS_IN 0 0 0)
  whenDo due s (if was then timeInput t else t)

/-- TSC_HOLDOVER_TIMEOUT (R439): 1,000 s in HOLDOVER. -/
def execTscHoldoverTimeout (s : State) : Res :=
  whenDo (usesInputs s && decide (s.time.state = 3 ∧ s.time.holdAt + 1000000000000 ≤ s.utime)) s
    { s with time := { s.time with state := 0 } }

/-- TSC_SET (R441). -/
def execTscSet (v : W64) (s : State) : Res :=
  whenDo (!isFollower s && decide (rd s R.TSC_CTL_SOURCE 0 0 = 0)) s (tscStep s v.toNat)

/-- TSC_PPS_NEXT_WRITE (R439): the device's expectation is replaced. -/
def execTscPpsNextWrite (v : W64) (s : State) : Res :=
  .next { wr s R.TSC_PPS_NEXT_NEXT 0 0 v.toNat with time := { s.time with next := v.toNat } }

end Sys2Proof.Machine
end

