-- ==== Sys2Proof/Machine/Sched.lean ====
section
/-!
DEFINITION. Sys2Proof/Machine/Sched.lean: request rings and completion rings (R233 to R241, R249 to R255, R266), residency,
pre-emption, saving and resuming (R256 to R262), cancellation, and the ends that resets and the halt bring (R263 to R265).
-/
namespace Sys2Proof.Machine

/-! ### Rings -/

def ringState (s : State) (w : Nat) : Nat := rd s R.SEQ_RQ_STATUS_STATE w 0
def setRingState (s : State) (w st : Nat) : State := wr s R.SEQ_RQ_STATUS_STATE w 0 st
def isResident (s : State) (w : Nat) : Bool := rdB s R.SEQ_RQ_STATUS_RESIDENT w 0
def isSaved (s : State) (w : Nat) : Bool := rdB s R.SEQ_RQ_STATUS_SAVED w 0
def ringSlots (s : State) (w : Nat) : Nat := 16 * 2 ^ rd s R.SEQ_RQ_CFG_SIZE w 0
def onHost (s : State) (w : Nat) : Bool := rdB s R.SEQ_RQ_BASE_LOC w 0
def slotAddr (s : State) (w k : Nat) : Nat := rd s R.SEQ_RQ_BASE_ADDR w 0 * 4096 + 128 * k

def ringIxs : List Nat := List.range 64

/-- Eight-byte little-endian words of a byte string. -/
def bytesWords (bs : List Byte) : List W64 :=
  (List.range (bs.length / 8)).map (fun i => BitVec.ofNat 64 (leNat ((bs.drop (8 * i)).take 8)))

/-- OPCODE of a slot (R241). -/
def opcodeOf (words : List W64) : Nat := dw words 0 8 4

def onCmd (s : State) (w : Nat) (f : Cmd → Cmd) : State := onRing s w (fun r => { r with cmd := r.cmd.map f })

/-- The job of a ring has a command ready or in progress (R256). -/
def runnable (s : State) (w : Nat) : Bool := (ringAt s w).cmd.isSome || !(ringAt s w).taken.isEmpty

/-- A share decision of a partition falls due (R256). -/
def decideNow (s : State) (p : Nat) : State :=
  { s with sch := { s.sch with decided := SMap.put (fun _ => 0) s.sch.decided p s.utime } }

/-- The virtual time v(j) of a job (R256). -/
def vtime (s : State) (w : Nat) : Nat :=
  rd s R.SEQ_RQ_ENGINE_CYCLES w 0 * 65536 / max 1 (rd s R.SEQ_RQ_CFG_SHARES w 0) + (ringAt s w).banked

/-- Rings of a partition. -/
def ringsOf (s : State) (p : Nat) : List Nat :=
  ringIxs.filter (fun w => rdB s R.SEQ_RQ_CFG_VALID w 0 && decide (ringPart s w = p))

/-- A job becomes runnable: a v below the lowest of the partition's other runnable jobs is raised to it (R256). -/
def raiseV (s : State) (w : Nat) : State :=
  let others := ((ringsOf s (ringPart s w)).filter (fun j => decide (j ≠ w) && runnable s j)).map (vtime s)
  match others with
  | [] => s
  | v :: vs =>
    let low := vs.foldl min v
    if vtime s w < low then onRing s w (fun r => { r with banked := r.banked + (low - vtime s w) }) else s

/-! ### Gangs (R262) -/

/-- What a gang's next kernel, or the resumption before it ends, is announced under. -/
def gangKey (s : State) (w : Nat) (resume : Bool) : Nat := 2 * (ringAt s w).gangCount + (if resume then 1 else 0)

/-- Announcements up to a key are used. -/
def gangUsed (s : State) (w key : Nat) : State :=
  onRing s w (fun r => { r with gangReady := r.gangReady.filter (fun e => decide (key < e.2.1)) })

/-- `n` kernel commands of a gang have ended. -/
def gangNext (s : State) (w n : Nat) : State :=
  if rdB s R.SEQ_RQ_CFG_GANG_EN w 0 && decide (n ≠ 0) then
    let s := onRing s w (fun r => { r with gangCount := r.gangCount + n })
    gangUsed s w (2 * (ringAt s w).gangCount - 1)
  else s

/-! ### Idle jobs, and the end of a command (R233, R253, R259) -/

/-- A core's part of a kernel is over; the overlap check stays with the kernel (R145). -/
def freeCore (s : State) (c : Nat) : State :=
  wr (onCore s c (fun x => { x with running := false, ending := false, ended := true, stopped := false })) R.SPD_OVERLAP_CTL_ACTIVE c 0 0

/-- The cores of an idle job, or of a kernel's job outside its placement, stop where they are so that they can be saved
(R257, R259). -/
def stopIdle (s : State) (w : Nat) (cs : List Nat) : State :=
  cs.foldl (fun s c => if (coreAt s c).saved then s else onCore s c (fun x => { x with ring := some w, stopped := true })) s

/-- A slot whose words are not a command: a poisoned slot (R395), a reserved OPCODE or a reserved bit (R14, R241). -/
def slotWordsBad (t : Taken) : Bool :=
  decide (opcodeOf t.words = 0 ∨ 4 < opcodeOf t.words) || decide (dw t.words 0 13 3 ≠ 0 ∨ dw t.words 0 18 14 ≠ 0 ∨ dw t.words 0 48 16 ≠ 0) ||
  decide (dw t.words 1 32 32 ≠ 0)

def freshCmd (s : State) (t : Taken) (phase : Phase) : Cmd :=
  ⟨t.slot, t.words, phase, 0, 0, 0, 0, 0, 0, 0, s.utime, 0, 0, 0, [], [], none, false, 0⟩

/-- The command of a taken slot is in progress. -/
def putCmd (s : State) (w : Nat) (t : Taken) (phase : Phase) : State :=
  let s := onRing s w (fun r => { r with taken := r.taken.drop 1, cmd := some (freshCmd s t phase) })
  wr (wr s R.SEQ_RQ_STATUS_RUN_SLOT w 0 t.slot) R.SEQ_RQ_STATUS_RUNNING w 0 1

/-- A taken slot at the front that is no command ends failed without starting, once no record of an earlier slot is owed (R14,
R233, R396). -/
def startBad (s : State) (w : Nat) : State :=
  match (ringAt s w).cmd, (ringAt s w).taken with
  | none, t :: _ =>
    if ringState s w ≠ 2 ∨ (ringAt s w).owed.isEmpty = false then s
    else match t.poison with
      | some pa => onCmd (consumePoison (putCmd s w t .waiting) w (some pa) none) w (fun c => { c with phase := .ended })
      | none =>
        if slotWordsBad t then onCmd (putCmd s w t .ended) w (fun c => c.cause 0x1D 0)
        else s
  | _, _ => s

/-- A command has its record: its ring may start the next (R233); a ring that stops is STOPPED (R240); a job asked to stop
is saved as an idle job (R259, R261, R264). -/
def finishCmd (s : State) (w : Nat) : State :=
  let s := match (ringAt s w).cmd with | some c => if opcodeOf c.words = 1 then gangNext s w 1 else s | none => s
  let s := wr (onRing s w (fun r => { r with cmd := none, gangEnded := [] })) R.SEQ_RQ_STATUS_RUNNING w 0 0
  let s := if ringState s w = 3 ∨ ringState s w = 4 then wr (setRingState s w 1) R.SEQ_RQ_STATUS_STOP_CAUSE w 0 0 else s
  let s := notIdle (decideNow s (ringPart s w))
  let s := if (ringAt s w).preempt then stopIdle s w (ringCores s w) else s
  startBad s w

/-! ### Records (R249 to R254) -/

/-- Outcome of a cause mask (R251): a RESET cause fails a running command. -/
def outcomeOf (m : Nat) : Nat :=
  if (List.range 64).any (fun n => decide (m / 2 ^ n % 2 = 1) && causeFails n && decide (n ≠ 0)) then 2
  else if m / 2 ^ 2 % 2 = 1 ∨ m / 2 ^ 0x1F % 2 = 1 ∨ m / 2 ^ 0x20 % 2 = 1 then 3
  else 1

/-- Words of a command record (R250). -/
def recordWords (w slot tag outcome causes exceptions detail engine contend throttle preempts runUs savedUs : Nat) : List W64 :=
  [outcome * 2 ^ 8 + (if causes = 0 then 0 else lowestCause causes) * 2 ^ 16 + w * 2 ^ 32 + slot * 2 ^ 38, causes,
   tag + exceptions % 2 ^ 21 * 2 ^ 32, detail % 2 ^ 52, engine, contend, throttle % 2 ^ 48 + min preempts 65535 * 2 ^ 48,
   runUs % 2 ^ 32 + min savedUs (2 ^ 32 - 1) * 2 ^ 32].map (BitVec.ofNat 64)

def cmdRecord (w : Nat) (c : Cmd) : List W64 :=
  recordWords w c.slot (dw c.words 1 0 32) (outcomeOf c.causes) c.causes c.exceptions c.detail c.engine c.contend c.throttle
    c.preempts (c.runNs / 1000) (c.savedNs / 1000)

/-- Records of a ring wait for the writes of its commands to land (R158, R249), and for a reset or a halt to complete (R265). -/
def recordsWait (s : State) (w : Nat) : Bool :=
  ringBusy s w || rdB s R.BOOT_RESET_STATUS_BUSY 0 0 || decide (rd s R.PRT_STATUS_STATE (ringPart s w) 0 = 2) ||
  (s.ras.cut && decide (rd s R.RAS_HALT_STATUS_STATE 0 0 ≠ 2))

/-- Records that can go leave the hold buffer, oldest first (R253, R327). -/
def flushHold : Nat → State → State
  | 0, s => s
  | n + 1, s =>
    match s.sch.hold.findIdx? (fun r => cqReachable s r.cq && !cqFull s r.cq) with
    | none => s
    | some i =>
      match s.sch.hold[i]? with
      | none => s
      | some r =>
        let s := { s with sch := { s.sch with hold := s.sch.hold.eraseIdx i } }
        let s := wr s R.SEQ_STATUS_HELD 0 0 s.sch.hold.length
        let s := wr s R.SEQ_CQ_STATUS_HELD r.cq 0 ((s.sch.hold.filter (fun h => decide (h.cq = r.cq))).length)
        let s := writeRecord s r.cq r.words r.irq
        flushHold n (match r.ring with | some w => finishCmd s w | none => notIdle s)

/-- COMPLETION_RECORD_WRITE (R249, R250, R253, R265): the record of a command past its boundary, or one owed for a slot that a
reset or a halt ended, is written or held. -/
def execCompletionRecordWrite (w : RingIx) (s : State) : Res :=
  let r := ringAt s w
  let q := rd s R.SEQ_RQ_CFG_CQ w 0
  if recordsWait s w then .next s
  else match r.cmd, r.owed with
    | some c, _ =>
      if c.phase ≠ .bounded then .next s
      else
        let n := s.sch.hold.length
        match deliver s ⟨q, cmdRecord w c, some w, decide (dw c.words 0 12 1 = 1)⟩ with
        | none => .next s
        | some t => .next (if t.sch.hold.length = n then finishCmd t w else onCmd t w (fun c => { c with phase := .held }))
    | none, [] => .next s
    | none, (t, code) :: rest =>
      let words := recordWords w t.slot (dw t.words 1 0 32) 3 (2 ^ code) 0 0 0 0 0 0 0 0
      match deliver s ⟨q, words, none, decide (dw t.words 0 12 1 = 1)⟩ with
      | none => .next s
      | some u => .next (startBad (onRing (notIdle u) w (fun r => { r with owed := rest })) w)

/-- A read by the sarabande fails (R326): one event until a read of the ring succeeds; `k` 256 for completion rings. -/
def hostReadFailed (s : State) (k ring why : Nat) : State :=
  if k = 0 then
    if ring ∈ s.hst.readFailed then s
    else postEvent { s with hst := { s.hst with readFailed := s.hst.readFailed ++ [ring] } } none 0x010E ring why 0
  else
    if ring ∈ s.hst.ctlFailed then s
    else postEvent { s with hst := { s.hst with ctlFailed := s.hst.ctlFailed ++ [ring] } } none 0x010E (ring + 256) why 0

/-- Word 2 of HOST_READ_FAILED for a reply. -/
def replyWhy : HostReply → Nat
  | .data _ => 0
  | .unsupported => 1
  | .abort => 2
  | .poisoned _ => 3
  | .timeout => 4

/-- CQ_CONTROL_REREAD (R253, R326): the control line of a full ring is read, at most every microsecond; CONSUMED is updated, and records that wait go. -/
def execCqControlReread (cq : RingIx) (reply : HostReply) (s : State) : Res :=
  if !(rdB s R.SEQ_CQ_CFG_VALID cq 0 && cqFull s cq && cqReachable s cq && decide ((cqAt s cq).rereadAt ≤ s.utime)) then .next s
  else
    let s := setCq s cq { cqAt s cq with rereadAt := s.utime + us 1 }
    let s := emit s (.hostRead (fnOfPart (rd s R.SEQ_CQ_CFG_PARTITION cq 0)) (rd s R.SEQ_CQ_BASE_ADDR cq 0 * 4096 + 64 * cqSize s cq) 64)
    match reply with
    | .data bs =>
      let s := { s with hst := { s.hst with ctlFailed := s.hst.ctlFailed.filter (· ≠ (cq : Nat)) } }
      let s := setCq s cq { cqAt s cq with consumed := leNat (bs.take 4) }
      let s := wrB s R.SEQ_CQ_STATUS_FULL cq 0 (cqFull s cq)
      .next (flushHold 256 s)
    | r => .next (hostReadFailed s 256 cq (replyWhy r))

/-- MSIX_HOLDOFF_EXPIRY (R254). -/
def execMsixHoldoffExpiry (cq : RingIx) (s : State) : Res :=
  whenDo ((cqAt s cq).owesIrq && decide ((cqAt s cq).holdUntil ≤ s.utime)) s (signalIrq s cq true)

/-- MSIX_UNMASK (R324). -/
def execMsixUnmask (fn : FnIx) (vector : Fin 2048) (s : State) : Res :=
  let k := (fn : Nat) * 4096 + 2 * (vector : Nat) + 1
  let s := { s with hst := { s.hst with msix := SMap.put msixDefault s.hst.msix k (setBits (SMap.look msixDefault s.hst.msix k) 32 1 0) } }
  if SMap.look (fun _ => false) s.hst.msixPending ((fn : Nat) * 2048 + vector) then
    .next (emit { s with hst := { s.hst with msixPending := SMap.put (fun _ => false) s.hst.msixPending ((fn : Nat) * 2048 + vector) false } }
      (.msix fn vector))
  else .next s

/-- EVENTS_DROPPED_REPORT (R255). -/
def execEventsDroppedReport (s : State) : Res :=
  whenDo (decide (s.sch.dropped ≠ 0 ∧ s.sch.hold.length < 256)) s
    (postEvent { s with sch := { s.sch with dropped := 0 } } none 0x0106 s.sch.dropped 0 0)

/-! ### Commits (R253, R256, R266) -/

/-- CQ_COMMIT (R253, R254): refused for a reserved SIZE or IRQ_MODE, and for a change of anything but IRQ_MODE, VECTOR and
HOLDOFF_US while a valid request ring names the ring or records for it are held. -/
def execCqCommit (cq : RingIx) (s : State) : Res :=
  let same (f : Fld) : Bool := decide (rdS s f cq 0 = rd s f cq 0)
  let used := ringIxs.any (fun w => rdB s R.SEQ_RQ_CFG_VALID w 0 && decide (rd s R.SEQ_RQ_CFG_CQ w 0 = cq)) ||
    s.sch.hold.any (fun r => decide (r.cq = cq))
  let keeps := same R.SEQ_CQ_BASE_ADDR && same R.SEQ_CQ_CFG_VALID && same R.SEQ_CQ_CFG_PARTITION && same R.SEQ_CQ_CFG_EVENTS &&
    same R.SEQ_CQ_CFG_MODULE_EVENTS && same R.SEQ_CQ_CFG_SIZE
  if 10 < rdS s R.SEQ_CQ_CFG_SIZE cq 0 ∨ rdS s R.SEQ_CQ_CFG_IRQ_MODE cq 0 = 3 ∨ (used && !keeps) = true then
    .next (wr s R.SEQ_CQ_STATUS_REJECTED cq 0 1)
  else
    let s := commitRegs s [R.SEQ_CQ_BASE_ADDR.at cq 0, R.SEQ_CQ_CFG_VALID.at cq 0]
    let v := rdB s R.SEQ_CQ_CFG_VALID cq 0
    if v && !(cqAt s cq).created then
      let s := setCq s cq { (cqAt s cq) with created := true, consumed := 0 }
      .next (wr (wr (wr s R.SEQ_CQ_STATUS_PRODUCED cq 0 0) R.SEQ_CQ_STATUS_GEN cq 0 1) R.SEQ_CQ_STATUS_FULL cq 0 0)
    else .next (setCq s cq { (cqAt s cq) with created := v })

/-- SEQ_SCHED_COMMIT (R12, R13, R256): a set with a value outside its range has no effect. -/
def execSeqSchedCommit (s : State) : Res :=
  let poll := rdS s R.SEQ_SCHED_POLL_MAX_US 0 0
  let ok := decide (1 ≤ poll ∧ poll ≤ 100 ∧ 100 ≤ rdS s R.SEQ_SCHED_SLICE_US 0 0 ∧ 200 ≤ rdS s R.SEQ_SCHED_BEAT_LIMIT_US 0 0)
  whenDo ok s (commitRegs s [R.SEQ_SCHED_POLL_MAX_US.at 0 0])

/-- A request ring is reached through a function (R292). -/
def reachesRing (s : State) (fn w : Nat) : Bool :=
  decide (fn = 0) || (rdB s R.PRT_CFG_VALID (fn - 1) 0 && decide (rd s R.PRT_RINGS_RQ (fn - 1) 0 / 2 ^ w % 2 = 1))

/-- What a ring commit would make of a ring: its registers with the shadow's values and addresses converted (R269). -/
structure RingSet where
  part : Nat
  base : Nat
  save : Nat
deriving DecidableEq, Repr

/-- Physical addresses of the ring and save area that a function's shadow names; none where a block has no contiguous
place (R269). -/
def ringSet (s : State) (fn w : Nat) : Option RingSet :=
  let p := if fn = 0 then rdS s R.SEQ_RQ_CFG_PARTITION w 0 else fn - 1
  let base := rdS s R.SEQ_RQ_BASE_ADDR w 0 * 4096
  let save := rdS s R.SEQ_RQ_SAVE_PA w 0 * 65536
  let n := (coreIxs.filter (fun c => decide (rdS s R.SEQ_RQ_CORES_CORES w (c / 64) / 2 ^ (c % 64) % 2 = 1))).length * 0x220000
  if fn = 0 then some ⟨p, base, save⟩
  else
    let b := if rdS s R.SEQ_RQ_BASE_LOC w 0 = 1 then some base else convBlock s p base (16 * 2 ^ rdS s R.SEQ_RQ_CFG_SIZE w 0 * 128)
    match b, convBlock s p save n with
    | some b, some a => some ⟨p, b, a⟩
    | _, _ => none

/-- Cause for which a ring commit is refused, 0 for none (R266). -/
def rqCause (s : State) (fn w : Nat) : Nat :=
  let sh (f : Fld) : Nat := rdS s f w 0
  let p := if fn = 0 then sh R.SEQ_RQ_CFG_PARTITION else fn - 1
  let cores := coreIxs.filter (fun c => decide (rdS s R.SEQ_RQ_CORES_CORES w (c / 64) / 2 ^ (c % 64) % 2 = 1))
  let beyond := decide (rdS s R.SEQ_RQ_CORES_CORES w 4 / 2 ^ 32 ≠ 0)
  let set := ringSet s fn w
  let live := decide (ringState s w ≠ 0 ∧ ringState s w ≠ 1)
  let changed := decide (sh R.SEQ_RQ_BASE_LOC ≠ rd s R.SEQ_RQ_BASE_LOC w 0 ∨ sh R.SEQ_RQ_CFG_VALID ≠ rd s R.SEQ_RQ_CFG_VALID w 0 ∨
      p ≠ ringPart s w ∨ sh R.SEQ_RQ_CFG_SIZE ≠ rd s R.SEQ_RQ_CFG_SIZE w 0 ∨ sh R.SEQ_RQ_CFG_CQ ≠ rd s R.SEQ_RQ_CFG_CQ w 0 ∨
      sh R.SEQ_RQ_CFG_GANG_EN ≠ rd s R.SEQ_RQ_CFG_GANG_EN w 0 ∨ sh R.SEQ_RQ_CFG_GANG ≠ rd s R.SEQ_RQ_CFG_GANG w 0 ∨
      sh R.SEQ_RQ_GANG_MODULES ≠ rd s R.SEQ_RQ_GANG_MODULES w 0 ∨ cores ≠ ringCores s w) ||
    (match set with
     | some a => decide (a.base ≠ rd s R.SEQ_RQ_BASE_ADDR w 0 * 4096 ∨ a.save ≠ rd s R.SEQ_RQ_SAVE_PA w 0 * 65536)
     | none => true)
  if 9 < sh R.SEQ_RQ_CFG_SIZE ∨ sh R.SEQ_RQ_CFG_SHARES = 0 ∨ beyond = true then 1
  else if live && changed then 2
  else if sh R.SEQ_RQ_CFG_VALID = 0 then (if set.isNone then 4 else 0)
  else if cores.isEmpty || cores.any (fun c => !inMask s R.PRT_CORE_CORES p c) || !rdB s R.PRT_CFG_VALID p 0 then 3
  else match set with
    | none => 4
    | some a =>
      if (decide (sh R.SEQ_RQ_BASE_LOC = 0) && !ownedBlock s p true a.base (16 * 2 ^ sh R.SEQ_RQ_CFG_SIZE * 128)) ||
          !ownedBlock s p true a.save (cores.length * 0x220000) then 4
      else if !rdB s R.SEQ_CQ_CFG_VALID (sh R.SEQ_RQ_CFG_CQ) 0 || decide (rd s R.SEQ_CQ_CFG_PARTITION (sh R.SEQ_RQ_CFG_CQ) 0 ≠ p) then 5
      else if sh R.SEQ_RQ_CFG_GANG_EN = 1 ∧ sh R.SEQ_RQ_GANG_MODULES / 2 ^ myModule s % 2 = 0 then 6
      else 0

def rqRegs (w : Nat) : List Nat :=
  [R.SEQ_RQ_BASE_ADDR.at w 0, R.SEQ_RQ_CFG_VALID.at w 0, R.SEQ_RQ_GANG_MODULES.at w 0, R.SEQ_RQ_SAVE_PA.at w 0] ++
  (List.range 5).map (fun i => R.SEQ_RQ_CORES_CORES.at w i)

/-- A job leaves its cores without being saved: its residency and save area are dropped. -/
def dropJob (s : State) (w : Nat) : State :=
  let s := (ringCores s w).foldl (fun s c => if (coreAt s c).ring = some w then onCore s c (fun x => { x with ring := none, stopped := false, saved := false }) else s) s
  wr (wr (onRing s w (fun r => { r with save := [], preempt := false })) R.SEQ_RQ_STATUS_RESIDENT w 0 0) R.SEQ_RQ_STATUS_SAVED w 0 0

/-- RQ_COMMIT (R266, R269, R292). -/
def execRqCommit (fn : FnIx) (w : RingIx) (s : State) : Res :=
  if !reachesRing s fn w then .next s
  else
    let cause := rqCause s fn w
    if cause ≠ 0 then .next (refuse s R.SEQ_RQ_STATUS_REJECTED R.SEQ_RQ_STATUS_CAUSE w cause)
    else
      let moved := decide (coreIxs.filter (fun c => decide (rdS s R.SEQ_RQ_CORES_CORES w (c / 64) / 2 ^ (c % 64) % 2 = 1)) ≠ ringCores s w) ||
        decide (rdS s R.SEQ_RQ_CFG_VALID w 0 = 0)
      let live := decide (ringState s w ≠ 0 ∧ ringState s w ≠ 1)
      let set := ringSet s fn w
      let s := if moved && !live then dropJob s w else s
      let s := commitRegs s (rqRegs w)
      let s := match set with
        | some a => wr (wr (wr s R.SEQ_RQ_CFG_PARTITION w 0 a.part) R.SEQ_RQ_BASE_ADDR w 0 (a.base / 4096)) R.SEQ_RQ_SAVE_PA w 0 (a.save / 65536)
        | none => s
      if rdB s R.SEQ_RQ_CFG_VALID w 0 then
        let s := if (ringAt s w).created then s
          else wr (wr s R.SEQ_RQ_STATUS_NEXT_SLOT w 0 0) R.SEQ_RQ_STATUS_EXPECT_GEN w 0 1
        let s := wr (wr (wr s R.SEQ_RQ_ENGINE_CYCLES w 0 0) R.SEQ_RQ_CONTEND_CYCLES w 0 0) R.SEQ_RQ_THROTTLE_CYCLES w 0 0
        let s := onRing s w (fun r => { r with created := true, banked := 0, gangCount := if live then r.gangCount else 0,
                                               gangReady := if live then r.gangReady else [],
                                               retired := r.retired.filter (fun c => decide (c ∈ ringCores s w)) })
        .next (if ringState s w = 0 then setRingState s w 1 else s)
      else .next (setRingState (onRing s w (fun r => { r with created := false, retired := [] })) w 0)

/-! ### Control (R240, R263, R264) -/

/-- RQ_START (R239, R240): the ring is ACTIVE; a ring in host memory is polled at once. -/
def execRqStart (w : RingIx) (s : State) : Res :=
  whenDo (decide (ringState s w = 1)) s
    (setRingState (onRing s w (fun r => { r with pollUs := 0, polledAt := s.utime, woken := true })) w 2)

/-- RQ_STOP (R240). -/
def execRqStop (w : RingIx) (s : State) : Res := .next (stopRing s w)

/-- The save area of a cancelled command is discarded (R263): the command ends. -/
def discardSave (s : State) (w : Nat) : State :=
  let s := onCmd s w (fun c => { (c.cause 0x1F 0).cause 0x20 0 with phase := .ended, savedNs := c.savedNs + (s.utime - c.savedAt) })
  wr (onRing s w (fun r => { r with save := [] })) R.SEQ_RQ_STATUS_SAVED w 0 0

/-- RQ_ABORT (R240, R263, R264). -/
def execRqAbort (w : RingIx) (s : State) : Res :=
  if ringState s w ≠ 2 ∧ ringState s w ≠ 3 then .next s
  else
    let s := setRingState (returnTaken s w) w 4
    match (ringAt s w).cmd with
    | none => .next (wr (setRingState s w 1) R.SEQ_RQ_STATUS_STOP_CAUSE w 0 0)
    | some c =>
      match c.phase with
      | .waiting => .next (onCmd s w (fun c => { c.cause 0x20 0 with phase := .ended }))
      | .saved => .next (discardSave s w)
      | .bounded => .next s
      | .held => .next s
      | _ => .next (c.cores.foldl creditStop (onCmd s w (fun c => { c.cause 0x20 0 with aborting := true })))

/-- RQ_REWIND (R240). -/
def execRqRewind (w : RingIx) (s : State) : Res :=
  whenDo (decide (ringState s w = 1)) s (wr (wr s R.SEQ_RQ_STATUS_NEXT_SLOT w 0 0) R.SEQ_RQ_STATUS_EXPECT_GEN w 0 1)

/-! ### Taking slots (R235, R236, R239, R326) -/

/-- The sarabande may take a slot of a ring (R236, R253). -/
def mayTake (s : State) (w : Nat) : Bool :=
  decide (ringState s w = 2) && decide (rd s R.BOOT_STATE_STATE 0 0 = 1 ∧ rd s R.PWR_STATUS_DIE_STATE 0 0 = 1) && !s.ras.cut &&
  decide (s.sch.hold.length < 256) && decide ((ringAt s w).taken.length < 4)

/-- Take the words of NEXT_SLOT (R235): the ring moves on, with its generation on a wrap. -/
def takeSlot (s : State) (w : Nat) (words : List W64) (poison : Option Nat) : State :=
  let k := rd s R.SEQ_RQ_STATUS_NEXT_SLOT w 0
  let first := !runnable s w
  let s := onRing s w (fun r => { r with taken := r.taken ++ [⟨k, words, poison⟩] })
  let s := if first then decideNow (raiseV s w) (ringPart s w) else s
  let k' := (k + 1) % ringSlots s w
  let s := wr s R.SEQ_RQ_STATUS_NEXT_SLOT w 0 k'
  let s := if k' = 0 then wr s R.SEQ_RQ_STATUS_EXPECT_GEN w 0 (nextGen (rd s R.SEQ_RQ_STATUS_EXPECT_GEN w 0)) else s
  startBad (notIdle s) w

def genMatches (s : State) (w : Nat) (word0 : W64) : Bool := decide (getBits word0 0 8 = rd s R.SEQ_RQ_STATUS_EXPECT_GEN w 0)

/-- SARABANDE_WAKE (R239): woken by a landing in the ring's pages, the sarabande reads word 0 of NEXT_SLOT. -/
def execSarabandeWake (w : RingIx) (s : State) : Res :=
  whenDo ((ringAt s w).woken && decide (ringState s w = 2)) s
    (sliceRd (onRing s w (fun r => { r with woken := false })) .sarabande none none (slotAddr s w (rd s R.SEQ_RQ_STATUS_NEXT_SLOT w 0)) 8)

/-- The sarabande's read of a host ring's slot that is outstanding. -/
def slotRead (s : State) (w : Nat) : Option HostRead := s.ord.reads.find? (fun r => decide (r.kind = 2 ∧ r.core = w))

/-- A read of a ring in host memory can go out (R212, R326). -/
def ringReads (s : State) (w : Nat) : Bool := s.hst.linkUp && busMaster s (fnOfPart (ringPart s w))

/-- A poll found nothing to take: the interval doubles up to POLL_MAX_US (R239). -/
def pollLater (s : State) (w : Nat) : State :=
  let p := (ringAt s w).pollUs
  onRing s w (fun r => { r with pollUs := if p = 0 then 1 else min (2 * p) (rd s R.SEQ_SCHED_POLL_MAX_US 0 0), polledAt := s.utime })

/-- RING_POLL (R239, R326): the next poll of a ring in host memory returns word 0 of NEXT_SLOT; where its GEN matches, the slot is
read, and the interval starts afresh; otherwise the interval doubles. A poll that fails is retried at the same cadence. -/
def execRingPoll (w : RingIx) (reply : HostReply) (s : State) : Res :=
  let r := ringAt s w
  if !(onHost s w && mayTake s w && ringReads s w && (slotRead s w).isNone && decide (r.polledAt + us r.pollUs ≤ s.utime)) then .next s
  else
    let fn := fnOfPart (ringPart s w)
    let a := slotAddr s w (rd s R.SEQ_RQ_STATUS_NEXT_SLOT w 0)
    let s := emit s (.hostRead fn a 8)
    match reply with
    | .data bs =>
      let s := { s with hst := { s.hst with readFailed := s.hst.readFailed.filter (· ≠ (w : Nat)) } }
      if !genMatches s w (BitVec.ofNat 64 (leNat (bs.take 8))) then .next (pollLater s w)
      else
      let s := onRing s w (fun r => { r with pollUs := 1, polledAt := s.utime })
      let id := s.ord.nextId
      .next (emit { s with ord := { s.ord with nextId := id + 1, reads := s.ord.reads ++ [⟨id, fn, a, 128, 2, w, none, none, none, s.utime, none, none⟩] } }
        (.hostRead fn a 128))
    | r => .next (pollLater (hostReadFailed s 0 w (replyWhy r)) w)

/-- The words of a host ring's slot arrive (R235, R326); those of a slot that is not NEXT_SLOT any more are dropped. -/
def hostSlot (s : State) (w : Nat) (words : List W64) : State :=
  let here := (slotRead s w).any (fun r => decide (r.addr = slotAddr s w (rd s R.SEQ_RQ_STATUS_NEXT_SLOT w 0)))
  let s := { s with ord := { s.ord with reads := s.ord.reads.filter (fun r => !(decide (r.kind = 2 ∧ r.core = w))) },
                    hst := { s.hst with readFailed := s.hst.readFailed.filter (· ≠ w) } }
  if here && mayTake s w && genMatches s w (words.getD 0 0) then takeSlot s w (words.take 16) none else s

/-- SLOT_TAKE (R235, R236): a slot whose GEN matches is taken, from the ring in module memory or with the words that a read
of host memory returned. -/
def execSlotTake (w : RingIx) (hostWords : List W64) (s : State) : Res :=
  if !mayTake s w then .next s
  else if onHost s w then
    whenDo (slotRead s w).isSome s (hostSlot s w hostWords)
  else
    let a := slotAddr s w (rd s R.SEQ_RQ_STATUS_NEXT_SLOT w 0)
    if memWaits s a 128 then .next s
    else
      let words := bytesWords (cohRead s a 128).1
      if genMatches s w (words.getD 0 0) then
        .next (takeSlot (sliceRd s .sarabande none none a 128) w words (cohPoisonAt s a 128))
      else .next s

/-! ### Stopping points (R49, R122, R259) -/

/-- A set of a harp holds values that no pass of it is about to fill. -/
def setHeld (hp : Harp) (i : Nat) : Bool :=
  decide ((hp.set i).use ≠ .empty) && !(match hp.next with
    | some p => decide (p.set = i ∧ pFill p.desc ≠ 2)
    | none => false)

/-- A harp has run its issued passes to the end that R48 and R49 allow. -/
def harpSettled (s : State) (c h : Nat) : Bool :=
  let hp := harpAt s c h
  hp.active.isNone && hp.due.isEmpty && hp.drain.isNone && hp.epi.isNone && hp.partner.isNone && !setHeld hp 0 && !setHeld hp 1 &&
  (match hp.next with | some p => !p.ready | none => true) &&
  (match hp.out with | some o => waitsForCredit s (coreAt s c) o | none => true)

/-- A core stands at a point of R259 step 1. -/
def atStop (s : State) (c : Nat) : Bool := (coreAt s c).stopped || (coreAt s c).ended

/-- Result words of a ring's KV operations are still on their way (R195, R246): of all cores of the ring (DESIGN CHOICE, log entry
137). -/
def resultsLeft (s : State) (w : Nat) : Bool :=
  s.ord.flights.any (fun f => decide (f.ring = some w) && (match f.src with | .kpu _ => true | _ => false))

/-- A core has stopped and its issued work is done, result words included (R195, R259 steps 1 and 2). -/
def coreSettled (s : State) (c : Nat) : Bool :=
  let x := coreAt s c
  atStop s c && harpIxs.all (harpSettled s c) && coreDone s c s.ord.nextId && x.fenceAt.isNone && x.acquiring.isNone &&
  x.invalidating.isNone && x.polyLoad.isNone && (match x.ring with | some w => !resultsLeft s w | none => true)

/-- COMMAND_STOPPED (R51, R263, R264): every harp and fiddle unit of a failed command has stopped, or every core of a command
being aborted has reached its stopping point; the command waits for its boundary. -/
def execCommandStopped (w : RingIx) (s : State) : Res :=
  match (ringAt s w).cmd with
  | none => .next s
  | some c =>
    let mine := c.cores.filter (fun k => decide ((coreAt s k).ring = some (w : Nat)))
    let stop (s : State) : State :=
      onCmd ((mine.foldl (fun s k => freeCore (abandonCore s k) k) s)) w (fun c => { c with phase := .ended, runNs := s.utime - c.started })
    match c.phase with
    | .stopping => .next (stop s)
    | .loading => whenDo c.aborting s (stop s)
    | .running => whenDo (c.aborting && !(ringAt s w).preempt && mine.all (coreSettled s)) s (stop s)
    | _ => .next s

/-! ### Residency (R256, R257) -/

def coresMeet (a b : List Nat) : Bool := a.any (fun c => decide (c ∈ b))

/-- Insert a job by v, ties by ring number. -/
def insertV (s : State) (w : Nat) : List Nat → List Nat
  | [] => [w]
  | x :: t => if vtime s w < vtime s x then w :: x :: t else x :: insertV s w t

/-- Runnable jobs of a partition by ascending v (R256). -/
def sortedJobs (s : State) (p : Nat) : List Nat :=
  ((ringsOf s p).filter (runnable s)).foldl (fun l w => insertV s w l) []

/-- The jobs a decision chooses (R256). -/
def chosenJobs (s : State) (p : Nat) : List Nat :=
  (sortedJobs s p).foldl (fun ch w => if ch.any (fun j => coresMeet (ringCores s j) (ringCores s w)) then ch else ch ++ [w]) []

/-- The cores of a job are free of every other job, of tests and of tests that wait (R257, R402). -/
def coresFree (s : State) (w : Nat) : Bool :=
  let cs := ringCores s w
  !(ringIxs.any (fun j => decide (j ≠ w) && isResident s j && coresMeet (ringCores s j) cs)) && !(cs.any (fun c => (coreAt s c).testing || rdB s R.RAS_FIT_CORE_DUE c 0))

/-- The job of a ring is idle: it has no command in progress that has started (R257). -/
def jobIdle (s : State) (w : Nat) : Bool :=
  match (ringAt s w).cmd with
  | none => true
  | some c => decide (c.phase = .waiting)

/-- Ask a resident job to stop (R259, R262): an idle job is saved at once; a kernel's cores stop at their points; the rest of
a gang is told. -/
def requestPreempt (s : State) (w : Nat) (tell : Bool) : State :=
  if !isResident s w || (ringAt s w).preempt then s
  else
    let s := onRing s w (fun r => { r with preempt := true })
    let s := if tell && rdB s R.SEQ_RQ_CFG_GANG_EN w 0 then gangSend s w 2 else s
    if jobIdle s w then stopIdle s w (ringCores s w)
    else
      let s := onCmd s w (fun c => { c with preemptAt := some s.utime })
      match (ringAt s w).cmd with
      | some c =>
        if c.phase = .running ∨ c.phase = .loading then
          c.cores.foldl (fun s k => if (coreAt s k).ending then takeSnap s k 4 false else creditStop s k)
            (stopIdle s w ((ringCores s w).filter (fun k => !decide (k ∈ c.cores))))
        else s
      | none => s

/-- RESIDENCY_DECISION (R256, R257): chosen jobs become resident where their cores are free and their state is not saved;
resident jobs in their way are pre-empted. -/
def execResidencyDecision (p : PartIx) (s : State) : Res :=
  if s.utime < SMap.look (fun _ => 0) s.sch.decided p ∨ s.ras.cut = true ∨ (p : Nat) ∈ s.tru.halted then .next s
  else
    let slice := us (rd s R.SEQ_SCHED_SLICE_US 0 0)
    let s := { s with sch := { s.sch with decided := SMap.put (fun _ => 0) s.sch.decided p (s.utime + slice) } }
    let ch := chosenJobs s p
    let s := (ringsOf s p).foldl (fun s w =>
      if !isResident s w || decide (w ∈ ch) then s
      else if jobIdle s w then
        (if ch.any (fun j => !isResident s j && coresMeet (ringCores s j) (ringCores s w)) then requestPreempt s w true else s)
      else if (ringAt s w).residentAt + slice ≤ s.utime then requestPreempt s w true else s) s
    .next (ch.foldl (fun s w =>
      if isResident s w || isSaved s w || !coresFree s w then s
      else wr (onRing s w (fun r => { r with residentAt := s.utime })) R.SEQ_RQ_STATUS_RESIDENT w 0 1) s)

/-! ### Beats, saving and resuming (R259 to R262) -/

/-- BEAT_INSTRUCTION (R259, R427, R435): the core counts the beat, and stops there when its job is asked to. -/
def execBeatInstruction (c : CoreIx) (s : State) : Res :=
  if !canIssue s c then .next s
  else
    let s := onCore (count s c 56 1) c (fun x => { x with beats := x.beats + 1 })
    let s := traceRec s c 5 0 (BitVec.ofNat 64 (coreAt s c).beats) 0
    .next (if stopAsked s c then stopHere s c else s)

/-- Registers that a core's saved state holds: HRP_EXC_ACC, FDL_FLAGS and the ranges of the polynomial tables (R260, R461). -/
def savedRegs (c : Nat) : List Nat :=
  (harpIxs.map (fun h => R.HRP_EXC_ACC_FLAGS.at c h)) ++
  [R.FDL_FLAGS_INVALID.at c 0, R.FDL_POLY_RANGE_LO.at c 0, R.FDL_POLY_RANGE_LO.at c 1]

/-- A core's saved state (R260). -/
def coreState (s : State) (c : Nat) : SavedCore :=
  ⟨c, coreAt s c, SMap.keep (fun k => decide (k / 2 ^ 32 = c)) s.spd.bytes,
   (SMap.keep (fun k => decide (k / 2 ^ 29 = c)) s.spd.poison).map (fun e => e.1),
   SMap.keep (fun k => decide (k / 8 = c)) s.harps,
   SMap.putAll (fun _ => (0 : W64)) [] ((savedRegs c).map (fun o => (o, reg s o)))⟩

/-- A core between commands: nothing of a kernel is left in it. -/
def Core.idle (x : Core) : Core :=
  { x.halt with ring := none, ended := false, stopped := false, saved := false, code := [], args := [], chain := [], dlist := [],
                chainPoison := [], cache := [] }

/-- Tiles or credits are under way to a core (R120, R122). -/
def arriving (s : State) (c : Nat) : Bool :=
  s.ord.credits.any (fun r => decide (r.core = c)) ||
  s.ord.flights.any (fun f => match f.dst with | .tile k _ => decide (k = c) | _ => false)

/-- Every core of a job is saved (R259), with the tiles and credits that reached it until the last was (R122): its cores are
free; a command being aborted ends with its save discarded (R264). -/
def finishSave (s : State) (w : Nat) : State :=
  if !((ringCores s w).all (fun c => (coreAt s c).saved)) then s
  else
    let s := onRing s w (fun r => { r with save := (ringCores s w).map (coreState s) })
    let s := (ringCores s w).foldl (fun s c => onCore (abandonCore s c) c Core.idle) s
    let s := wr (wr (onRing s w (fun r => { r with preempt := false })) R.SEQ_RQ_STATUS_RESIDENT w 0 0) R.SEQ_RQ_STATUS_SAVED w 0 1
    let s := decideNow s (ringPart s w)
    match (ringAt s w).cmd with
    | some c =>
      if c.phase = .running then
        let s := onCmd s w (fun c => { c with phase := .saved, preempts := c.preempts + 1, savedAt := s.utime, preemptAt := none })
        if c.aborting then discardSave s w else s
      else s
    | none => s

/-- CORE_STATE_SAVE_DONE (R259, R260): a stopped core's state is in the save area; the last core's waits for the tiles and credits
under way to the job. -/
def execCoreStateSaveDone (c : CoreIx) (s : State) : Res :=
  let x := coreAt s c
  match x.ring with
  | none => .next s
  | some w =>
    let phaseOk := match (ringAt s w).cmd with | none => true | some d => decide (d.phase = .running ∨ d.phase = .waiting)
    let last := (ringCores s w).all (fun k => decide (k = (c : Nat)) || (coreAt s k).saved)
    if !((ringAt s w).preempt && isResident s w && !x.saved && coreSettled s c && phaseOk) ||
        (last && (ringCores s w).any (arriving s)) then .next s
    else
      let tag := match (ringAt s w).cmd with | some d => dw d.words 1 0 32 | none => 0
      let s := traceRec s c 6 0 (BitVec.ofNat 64 tag) 0
      .next (finishSave (onCore s c (fun x => { x with saved := true })) w)

/-- Restore a core, with its kernel's state or, for an idle job, without it (R260, R408). -/
def restoreCore (s : State) (y : SavedCore) (kernel : Bool) : State :=
  let c := y.index
  let x := coreAt s c
  let put (s : State) (d : Nat) : State :=
    let keep := spdClear s.spd d
    { s with spd := { keep with
        bytes := SMap.putAll (fun _ => (0 : Byte)) keep.bytes (y.bytes.map (fun e => (spdKey d (e.1 % 2 ^ 32), e.2)))
        poison := SMap.putAll (fun _ => false) keep.poison (y.poison.map (fun k => (d * 2 ^ 29 + k % 2 ^ 29, true))) } }
  let s := put s c
  let s := match shadowOf s c with | some d => put s d | none => s
  let s := harpIxs.foldl (fun s h => setHarp s c h (SMap.look (fun _ => Harp.fresh) y.harps (hk c h))) s
  let s := y.words.foldl (fun s e => setReg s e.1 e.2) s
  let z := { y.core with power := x.power, clearing := x.clearing, guards := x.guards, testing := x.testing, suspect := x.suspect,
                         proc := x.proc, trace := x.trace, lost := x.lost, rem := x.rem, idleSince := x.idleSince, cache := [],
                         stopped := false, saved := false }
  let s := setCore s c (if kernel then z else { z.idle with ident := z.ident })
  if kernel && rdB s R.CNT_CTL_AUTO_RESET c 0 then resetCounters s c else s

/-- Wake those of a list of cores that are not on. -/
def wakeCores (s : State) (cs : List Nat) : State := cs.foldl (fun s c => if coreOn s c then s else wakeCore s c) s

/-- Cores of a list are on, clear, and neither tested nor suspect (R143, R342, R402, R404). -/
def coresReady (s : State) (cs : List Nat) : Bool :=
  cs.all (fun c => coreOn s c && !(coreAt s c).clearing && !(coreAt s c).testing && (coreAt s c).suspect.isNone)

/-- Every member of a ring's gang is ready (R262). -/
def gangHeld (s : State) (w key : Nat) : Bool :=
  (List.range 32).all (fun m => decide (rd s R.SEQ_RQ_GANG_MODULES w 0 / 2 ^ m % 2 = 0) ||
    (ringAt s w).gangReady.any (fun e => decide (e.1 = m ∧ e.2.1 = key)))

/-- Announce once that this member holds the kernel and can run it, or can make the job resident again (R262). -/
def gangAnnounce (s : State) (w id : Nat) (resume : Bool) : State :=
  let key := gangKey s w resume
  if (ringAt s w).gangReady.any (fun e => decide (e.1 = myModule s ∧ e.2.1 = key)) then s
  else gangSend (onRing s w (fun r => { r with gangReady := r.gangReady ++ [(myModule s, key, id)] })) w (if resume then 4 else 0)

/-- The usable cores of a job: a retired one is not waited for (R27). -/
def usableCores (s : State) (w : Nat) : List Nat := (ringCores s w).filter (coreUsable s)

/-- JOB_RESUME (R27, R256, R257, R260, R262): a saved job that a decision chooses, or that stands in no chosen job's way, is
restored on its cores once they are free and awake, and a gang's once every member can. -/
def execJobResume (w : RingIx) (s : State) : Res :=
  let ch := chosenJobs s (ringPart s w)
  let mayRun := decide ((w : Nat) ∈ ch) || !(ch.any (fun j => coresMeet (ringCores s j) (ringCores s w)))
  if !(isSaved s w && mayRun && coresFree s w && !haltInProgress s && decide (ringPart s w ∉ s.tru.halted)) then .next s
  else if !coresReady s (usableCores s w) then .next (wakeCores s (usableCores s w))
  else
    let kernel := match (ringAt s w).cmd with | some c => decide (c.phase = .saved) | none => false
    let gang := rdB s R.SEQ_RQ_CFG_GANG_EN w 0
    let key := gangKey s w true
    let s := if gang then gangAnnounce s w 0 true else s
    if gang && !gangHeld s w key then .next s
    else
      let gap := match (ringAt s w).cmd with | some c => s.utime - c.savedAt | none => 0
      let s := ((ringAt s w).save.filter (fun y => coreUsable s y.index)).foldl (fun s y => restoreCore s y (kernel && decide (y.core.ring = some (w : Nat)) && (y.core.running || y.core.ended))) s
      let s := onRing (gangUsed s w key) w (fun r => { r with save := [], residentAt := s.utime })
      let s := wr (wr s R.SEQ_RQ_STATUS_RESIDENT w 0 1) R.SEQ_RQ_STATUS_SAVED w 0 0
      if kernel then
        let s := onCmd s w (fun c => { c with phase := .running, savedNs := c.savedNs + gap })
        match (ringAt s w).cmd with
        | some c => .next (c.cores.foldl (fun s k => traceRec s k 7 0 (BitVec.ofNat 64 (dw c.words 1 0 32)) (BitVec.ofNat 64 (c.savedNs / 1000))) s)
        | none => .next s
      else .next s

/-- BEAT_LIMIT_EXPIRY (R261): a kernel with a core that has not stopped within the limit fails BEAT_OVERRUN. -/
def execBeatLimitExpiry (w : RingIx) (s : State) : Res :=
  match (ringAt s w).cmd with
  | none => .next s
  | some c =>
    let late := match c.preemptAt with | some t => decide (t + us (rd s R.SEQ_SCHED_BEAT_LIMIT_US 0 0) ≤ s.utime) | none => false
    whenDo (late && (ringAt s w).preempt && decide (opcodeOf c.words = 1) && decide (c.phase = .running ∨ c.phase = .loading) &&
      c.cores.any (fun k => !atStop s k)) s (failCmd s w 0x0A 0)

/-! ### Resets and the halt (R265, R315) -/

/-- End a ring's command for a reset or a halt (R265): one that has its outcome keeps it, one that only has its record to
write is ended, one that was taken and has not started is owed a record as the slots behind it are, and any other is stopped
with the cause. -/
def endCommand (s : State) (w code : Nat) : State :=
  match (ringAt s w).cmd with
  | none => s
  | some c =>
    if c.phase = .bounded ∨ c.phase = .held then s
    else if c.phase = .ended ∧ opcodeOf c.words ≠ 1 ∧ ringBusy s w = false then
      onCmd s w (fun c => { c with phase := .bounded, runNs := s.utime - c.started })
    else if c.phase = .waiting then
      let s := onRing (gangNext s w 1) w (fun r => { r with cmd := none, owed := r.owed ++ [(⟨c.slot, c.words, none⟩, code)] })
      wr s R.SEQ_RQ_STATUS_RUNNING w 0 0
    else
      let s := if code = 1 && rdB s R.SEQ_RQ_CFG_GANG_EN w 0 then gangSend s w 3 else s
      let s := (c.cores.filter (fun k => decide ((coreAt s k).ring = some w))).foldl (fun s k => freeCore (stopCore s k) k) s
      let c' := c.cause code 0
      let c' := if c.phase = .saved then { c'.cause 0x1F 0 with savedNs := c.savedNs + (s.utime - c.savedAt) } else c'
      onCmd s w (fun _ => { c' with phase := .bounded, runNs := if c.runNs = 0 then s.utime - c.started else c.runNs })

/-- Does a command so ended count as DONE, or as CANCELLED: the latter only where it is stopped now. -/
def endCounts (s : State) (w code : Nat) : Nat × Nat :=
  match (ringAt s w).cmd with
  | none => (0, 0)
  | some c =>
    if c.phase = .bounded ∨ c.phase = .held ∨ (c.phase = .ended ∧ opcodeOf c.words ≠ 1 ∧ ringBusy s w = false) then
      (if outcomeOf c.causes = 1 then 1 else 0, 0)
    else
      let c' := c.cause code 0
      let c' := if c.phase = .saved then c'.cause 0x1F 0 else c'
      (0, if c.phase = .waiting ∨ outcomeOf c'.causes = 3 then 1 else 0)

/-- A ring of R265: its command ends, its slots taken and not started are owed records, and it is STOPPED. -/
def endRing (s : State) (w code stop : Nat) : State :=
  let st := ringState s w
  let s := endCommand s w code
  let s := gangNext s w (((ringAt s w).taken.filter (fun t => decide (opcodeOf t.words = 1))).length)
  let s := onRing s w (fun r => { r with owed := r.owed ++ r.taken.map (fun t => (t, code)), taken := [], gangReady := [], gangEnded := [] })
  let s := dropJob s w
  let s := { s with ord := { s.ord with reads := s.ord.reads.filter (fun r => !(decide (r.kind = 2 ∧ r.core = w))) } }
  if 2 ≤ st then postEvent (wr (setRingState s w 1) R.SEQ_RQ_STATUS_STOP_CAUSE w 0 stop) (some (ringPart s w)) 0x0105 w stop 0 else s

/-- End the commands of rings for a reset or a halt (R265): `code` 1 RESET, 2 HALTED; `stop` is the STOP_CAUSE. Records are
owed for slots taken and not started. Answers the state with how many commands ended DONE and CANCELLED. -/
def endCommands (s : State) (rings : List Nat) (code stop : Nat) : State × Nat × Nat :=
  rings.foldl (fun (acc : State × Nat × Nat) w =>
    (endRing acc.1 w code stop, acc.2.1 + (endCounts acc.1 w code).1,
      acc.2.2 + (endCounts acc.1 w code).2 + (ringAt acc.1 w).taken.length)) (s, 0, 0)

/-- As endCommands, the state alone. -/
def resetCommands (s : State) (rings : List Nat) (code stop : Nat) : State := (endCommands s rings code stop).1

end Sys2Proof.Machine
end

