-- ==== Sys2Proof/Machine/Work.lean ====
section
/-!
DEFINITION. Sys2Proof/Machine/Work.lean: the commands of request rings (R243 to R248, R262, R26, R27, R234, R407), the start and
end of kernels (R245, R246), and the sequencer's hint, snapshot, trace and KV instructions (R178, R358, R427, R435).
-/
namespace Sys2Proof.Machine

/-! ### Starting a command -/

/-- The front slot of a ring whose command of an opcode may begin: the ring is ACTIVE, no command of it is in progress, its
job is not asked to stop, no record of an earlier slot is owed, and no halt is armed (R233, R240, R259, R265, R416). -/
def frontSlot (s : State) (w op : Nat) : Option Taken :=
  match (ringAt s w).cmd, (ringAt s w).taken with
  | none, t :: _ =>
    if ringState s w = 2 ∧ (ringAt s w).owed.isEmpty = true ∧ (ringAt s w).preempt = false ∧ haltInProgress s = false ∧ opcodeOf t.words = op ∧ slotWordsBad t = false ∧ t.poison = none
    then some t else none
  | _, _ => none

/-- Heavy hints in force in rail region k (R358). -/
def heavyHints (s : State) (k : Nat) : List Hint :=
  s.pwr.hints.filter (fun h => decide (h.level = 3 ∧ s.utime < h.till ∧ k ∈ h.regions))

/-- A heavy hint is in force in rail region k: the heaviest level governs (R358). -/
def heavyIn (s : State) (k : Nat) : Bool := !(heavyHints s k).isEmpty

def regionAt (s : State) (k : Nat) : Region := SMap.look (fun _ => Region.fresh) s.pwr.regions k

def setRegion (s : State) (k : Nat) (v : Region) : State :=
  { s with pwr := { s.pwr with regions := SMap.put (fun _ => Region.fresh) s.pwr.regions k v } }

/-- A phase hint takes force in the regions that hold a job's cores (R358); the pre-charge of a region's first
heavy hint is yet to come. Hints lapse by their time, and short of a module reset by nothing else (DEDUCED, log entry 139). -/
def applyHint (s : State) (w level us_ stagger : Nat) : State :=
  if level = 0 then s
  else
    let ks := (List.range 8).filter (fun k => (ringCores s w).any (fun c => decide (regionOf c = k)))
    let s := if level = 3 then
        ks.foldl (fun s k => if heavyIn s k then s else setRegion s k { regionAt s k with pre := false }) s
      else s
    { s with pwr := { s.pwr with
        hints := s.pwr.hints.filter (fun h => decide (s.utime < h.till)) ++ [⟨ks, s.utime + us us_, level, stagger, some w⟩] } }

/-- The hint that word 0 of a command carries, from the command's start (R241); hints of the ring's earlier commands run on until they
lapse. -/
def commandHint (s : State) (w : Nat) (words : List W64) : State :=
  let hs := s.pwr.hints.map (fun h => if h.ring = some w then { h with ring := none } else h)
  applyHint { s with pwr := { s.pwr with hints := hs } } w (dw words 0 16 2) (dw words 0 32 16) 0

/-- A command ends without being executed, with a cause (R14, R26). -/
def endUnstarted (s : State) (w code detail : Nat) : State :=
  onCmd s w (fun c => { c.cause code detail with phase := .ended })

/-- A translation fault of the sarabande's own read ends the command (R232, R245); a poisoned entry is consumption. -/
def tableFault (s : State) (w p va : Nat) (e : XFault) : State :=
  let s := dtuFault s p va false none e
  if e.code = 0x05 then onCmd (consumePoison s w (some e.pa) (some va)) w (fun c => { c with phase := .ended })
  else endUnstarted s w e.code va

/-! ### KERNEL (R243 to R246) -/

/-- Words 2 and 3 of a KERNEL command are reserved encodings (R14, R243). -/
def kernelWordsBad (ws : List W64) : Bool :=
  decide (dw ws 2 48 16 ≠ 0 ∨ dw ws 2 0 6 ≠ 0) || decide (dw ws 3 9 23 ≠ 0) || decide (dw ws 3 0 9 = 0 ∨ 288 < dw ws 3 0 9)

def entCore (e : List W64) : Nat := dw e 0 0 9
def entMask (e : List W64) : Nat := dw e 0 16 8
def entCode (e : List W64) : Nat := dw e 1 0 48
def entCodeBytes (e : List W64) : Nat := dw e 2 0 32
def entPreBytes (e : List W64) : Nat := dw e 2 32 32
def entPreVa (e : List W64) : Nat := dw e 3 0 48
def entPreDest (e : List W64) : Nat := dw e 4 0 32
def entChain (e : List W64) : Nat := dw e 5 0 32
def entChainN (e : List W64) : Nat := dw e 5 32 9
def entDlist (e : List W64) : Nat := dw e 6 0 32
def entDlistN (e : List W64) : Nat := dw e 6 32 9

/-- A core entry is a reserved encoding (R14, R244). -/
def entryBad (e : List W64) : Bool :=
  decide (dw e 0 9 7 ≠ 0 ∨ dw e 0 24 40 ≠ 0 ∨ dw e 1 48 16 ≠ 0 ∨ dw e 3 48 16 ≠ 0 ∨ dw e 4 32 32 ≠ 0 ∨ dw e 5 41 23 ≠ 0 ∨ dw e 6 41 23 ≠ 0 ∨ dw e 7 0 64 ≠ 0) ||
  decide (entCodeBytes e < 8 ∨ 32768 < entCodeBytes e ∨ entCodeBytes e % 8 ≠ 0) || decide (spdBytes < entPreBytes e ∨ entPreBytes e % 8 ≠ 0) ||
  decide (entPreBytes e = 0 ∧ entPreVa e ≠ 0) || decide (entPreDest e % 8 ≠ 0 ∨ entChain e % 64 ≠ 0 ∨ entDlist e % 64 ≠ 0) ||
  decide (256 < entChainN e ∨ 256 < entDlistN e)

/-- An image or table of an entry runs beyond the scratchpad (R128, R245). -/
def entryBeyond (e : List W64) : Bool :=
  decide (entPreBytes e ≠ 0 ∧ spdBytes < entPreDest e + entPreBytes e) || decide (entChainN e ≠ 0 ∧ spdBytes < entChain e + 64 * entChainN e) ||
  decide (entDlistN e ≠ 0 ∧ spdBytes < entDlist e + 64 * entDlistN e)

/-- Harps of a core's mask that are not good. -/
def maskBad (s : State) (c mask : Nat) : Bool := harpIxs.any (fun h => decide (mask / 2 ^ h % 2 = 1) && !harpGood s c h)

/-- A partition runs in pas de deux mode (R407). -/
def isPdd (s : State) (p : Nat) : Bool := decide (rd s R.RAS_PDD_STATUS_ACTIVE 0 0 / 2 ^ p % 2 = 1)

/-- Is an entry's core no place for it (R26, R234, R244, R407). -/
def placementBad (s : State) (w : Nat) (e : List W64) : Bool :=
  let c := entCore e
  let p := ringPart s w
  !coreUsable s c || !inMask s R.PRT_CORE_CORES p c || !inMask s R.SEQ_RQ_CORES_CORES w c || maskBad s c (entMask e) ||
  (isPdd s p && (decide (c / 18 % 2 = 1) || !inMask s R.SEQ_RQ_CORES_CORES w (c + 18) || !coreUsable s (c + 18) || maskBad s (c + 18) (entMask e)))

/-- What the check of a KERNEL command's table finds: a cause with its detail. -/
def tableCause (s : State) (w : Nat) (es : List (List W64)) : Option (Nat × Nat) :=
  if es.any entryBad || !(decide ((es.map entCore).Nodup)) then some (0x1D, 0)
  else match es.find? (fun e => decide (entCore e ∈ (ringAt s w).retired)) with
    | some e => some (0x04, entCore e)
    | none =>
      if es.any entryBeyond then some (0x1C, 0)
      else match es.find? (placementBad s w) with
        | some e => some (0x1E, entCore e)
        | none => none

/-- A placement that avoids retired cores has been submitted (R27). -/
def avoidRetired (s : State) (w : Nat) (cs : List Nat) : State :=
  onRing s w (fun r => { r with retired := r.retired.filter (fun c => decide (c ∈ cs)) })

/-- CMD_KERNEL (R26, R27, R234, R243, R244, R407): the command is taken up, its core-entry table is read and checked, and it
waits for its job and its gang. -/
def execCmdKernel (w : RingIx) (s : State) : Res :=
  match frontSlot s w 1 with
  | none => .next s
  | some t =>
    let p := ringPart s w
    let va := dw t.words 2 0 48
    let n := dw t.words 3 0 9 * 64
    let s1 := putCmd s w t .waiting
    if kernelWordsBad t.words then .next (endUnstarted s1 w 0x1D 0)
    else if accessWaits s none p va n true then .next s
    else match pieces s none p false false va n with
      | .error (e, at_) => .next (tableFault s1 w p at_ e)
      | .ok ps =>
          let s1 := learnRange s1 none p va n false false (some (w : Nat))
          let s2 := ps.foldl (fun s q => sliceRd s .sarabande (some va) (some (w : Nat)) q.1 q.2) s1
          match ps.findSome? (fun q => cohPoisonAt s q.1 q.2) with
          | some pa => .next (onCmd (consumePoison s2 w (some pa) (some va)) w (fun c => { c with phase := .ended }))
          | none =>
            let ws := bytesWords (readPieces s ps).1
            let es := (List.range (dw t.words 3 0 9)).map (fun i => (ws.drop (8 * i)).take 8)
            match tableCause s w es with
            | some (code, d) => .next (endUnstarted s2 w code d)
            | none => .next (onCmd (avoidRetired s2 w (es.map entCore)) w (fun c => { c with cores := es.map entCore, entries := es }))

/-- A poisoned word within a scratchpad table entry of 64 B. -/
def tablePoison (p : Spd) (c a n : Nat) : List Nat := (List.range n).filter (fun i => spdPoison p c (a + 64 * i) 64)

def tableOf (p : Spd) (c a n : Nat) : List (List W64) := (List.range n).map (fun i => bytesWords (spdRead p c (a + 64 * i) 64))

/-- Steps 2 to 6 of R245 on one core, at position `i` of the table: the data cache is empty, the kernel's identity and counters
begin (R426), and code, preload, chain store and arguments are loaded. `ks`, `ps` are the pieces of the code image and of the
preload. -/
def loadCore (s : State) (w : Nat) (cmd : Cmd) (i : Nat) (e : List W64) (ks ps : List (Nat × Nat)) : State :=
  let c := entCore e
  let s := if rdB s R.CNT_CTL_AUTO_RESET c 0 then clearCounters s c else s
  let s := onCore s c (fun x => { x with ident := (dw cmd.words 1 0 32, w, cmd.slot) })
  let s := traceRec s c 1 0 (BitVec.ofNat 64 (dw cmd.words 1 0 32 + w * 2 ^ 32 + cmd.slot * 2 ^ 38)) (BitVec.ofNat 64 (dw cmd.words 3 32 32))
  let s := ks.foldl (fun s q => sliceRd s (.core (Fin.ofNat 288 c)) (some (entCode e)) (some w) q.1 q.2) s
  let s := ps.foldl (fun s q => sliceRd s (.mover (Fin.ofNat 288 c)) (some (entPreVa e)) (some w) q.1 q.2) s
  let s := match ps.findSome? (fun q => cohPoisonAt s q.1 q.2) with
    | some pa => poisonFound s 3 c 1 pa
    | none => s
  let s := storeMoved s c 4 (readPieces s ps).1 (fun k => piecePoison s ps k 8) (fun k => entPreDest e + k) (fun _ => 512)
  let bad := tablePoison s.spd c (entChain e) (entChainN e) ++ (tablePoison s.spd c (entDlist e) (entDlistN e)).map (· + 256)
  let chain := tableOf s.spd c (entChain e) (entChainN e)
  let dlist := tableOf s.spd c (entDlist e) (entDlistN e)
  let s := wr s R.SPD_OVERLAP_CTL_ACTIVE c 0 (rd s R.SPD_OVERLAP_CTL_ENABLE c 0)
  onCore s c (fun x => { x.idle with
    ring := some w, code := (readPieces s ks).1, chain := chain, dlist := dlist, chainPoison := bad, harpMask := entMask e, beats := 0
    args := cmd.words.drop 4 ++ [BitVec.ofNat 64 i, BitVec.ofNat 64 (dw cmd.words 3 32 32)] })

/-- The loads of a kernel's entries, in order: pieces of code and preload, or the first fault. -/
def entryPieces (s : State) (p : Nat) : List (List W64) → Except (XFault × Nat) (List (List (Nat × Nat) × List (Nat × Nat)))
  | [] => .ok []
  | e :: t =>
    let who := some (entCore e)
    match pieces s who p false false (entCode e) (entCodeBytes e), pieces s who p false false (entPreVa e) (entPreBytes e) with
    | .error f, _ => .error f
    | _, .error f => .error f
    | .ok a, .ok b =>
      match entryPieces s p t with
      | .error f => .error f
      | .ok l => .ok ((a, b) :: l)

/-- The loads of some entry wait: for a table line of a walk, or for a line that they read (R209, R222, R412). -/
def entriesWait (s : State) (p : Nat) (es : List (List W64)) : Bool :=
  es.any (fun e => accessWaits s (some (entCore e)) p (entCode e) (entCodeBytes e) true ||
    accessWaits s (some (entCore e)) p (entPreVa e) (entPreBytes e) true)

/-- The loads' translations are kept (R230). -/
def learnEntry (s : State) (p w : Nat) (e : List W64) : State :=
  let s := learnRange s (some (entCore e)) p (entCode e) (entCodeBytes e) false false (some w)
  learnRange s (some (entCore e)) p (entPreVa e) (entPreBytes e) false false (some w)

/-- A command that cannot start for a fault of its loads fails (R245). -/
def loadFault (s : State) (w p va : Nat) (e : XFault) : State :=
  onCmd (xlateFail s w p va false none e) w (fun c => { c with phase := .ended })

/-- KERNEL_START (R245, R257, R262): a resident job's kernel wakes its cores and loads them; a gang waits until every member
holds the kernel, and fails where the members' kernels differ. -/
def execKernelStart (w : RingIx) (s : State) : Res :=
  match (ringAt s w).cmd with
  | none => .next s
  | some c =>
    if c.phase ≠ .waiting ∨ opcodeOf c.words ≠ 1 ∨ isResident s w = false ∨ (ringAt s w).preempt = true ∨ haltInProgress s = true then .next s
    else if !coresReady s c.cores then .next (wakeCores s c.cores)
    else
      let id := dw c.words 3 32 32
      let gang := rdB s R.SEQ_RQ_CFG_GANG_EN w 0
      let key := gangKey s w false
      let s := if gang then gangAnnounce s w id false else s
      if gang && !gangHeld s w key then .next s
      else if gang && (ringAt s w).gangReady.any (fun e => decide (e.2.1 = key ∧ e.2.2 ≠ id)) then .next (endUnstarted s w 0x1D 0)
      else
        let p := ringPart s w
        if entriesWait s p c.entries then .next s
        else match entryPieces s p c.entries with
        | .error (e, va) => .next (loadFault s w p va e)
        | .ok l =>
            let s1 := commandHint (gangUsed s w key) w c.words
            let s1 := c.entries.foldl (fun s e => learnEntry s p w e) s1
            let s2 := (List.zip c.entries l).zipIdx.foldl (fun s y => loadCore s w c y.2 y.1.1 y.1.2.1 y.1.2.2) s1
            match l.findSome? (fun q => q.1.findSome? (fun r => cohPoisonAt s r.1 r.2)) with
            | some pa => .next (consumePoison (onCmd s2 w (fun c => { c with phase := .loading, started := s.utime })) w (some pa) none)
            | none => .next (onCmd s2 w (fun c => { c with phase := .loading, started := s.utime }))

/-- KERNEL_BEGIN (R245 step 7): every core begins at instruction 0 in the same cycle. -/
def execKernelBegin (w : RingIx) (s : State) : Res :=
  match (ringAt s w).cmd with
  | none => .next s
  | some c =>
    whenDo (decide (c.phase = .loading) && !c.aborting && !s.ras.cut && c.cores.all (coreOn s)) s
      (onCmd (c.cores.foldl (fun s k => onCore s k (fun x => { x with running := true })) s) w
        (fun c => { c with phase := .running, started := s.utime }))

/-- END_INSTRUCTION (R246, R259, R427): the core's end instruction is a point at which a pre-emption stops it. -/
def execEndInstruction (c : CoreIx) (s : State) : Res :=
  let t := onCore (count s c 56 1) c (fun x => { x with ending := true })
  whenDo (canIssue s c) s
    (match (coreAt s c).ring with
     | some w => if (ringAt s w).preempt then takeSnap t c 4 false else t
     | none => t)

/-- Passes, epilogues and sends of a core are over. -/
def harpOver (s : State) (c h : Nat) : Bool :=
  let hp := harpAt s c h
  hp.queue.isEmpty && hp.next.isNone && hp.active.isNone && hp.due.isEmpty && hp.drain.isNone && hp.epi.isNone && hp.out.isNone

/-- END_INSTRUCTION_COMPLETE (R52, R246, R427, R435): everything the core issued is over; a set left undrained is discarded and
fails the command; with the last core the kernel ends. -/
def execEndInstructionComplete (c : CoreIx) (s : State) : Res :=
  let x := coreAt s c
  let w := x.ring.getD 0
  if !(x.ending && harpIxs.all (harpOver s c) && coreDone s c s.ord.nextId && !resultsLeft s w && x.polyLoad.isNone && x.invalidating.isNone) then .next s
  else if harpIxs.any (fun h => decide ((harpAt s c h).set0.use ≠ .empty) || decide ((harpAt s c h).set1.use ≠ .empty)) then
    .next (failCmd s w 0x1D 0)
  else
    let s := if rdB s R.CNT_CTL_AUTO_SNAP c 0 then takeSnap s c 3 false else s
    let (tag, ring, slot) := x.ident
    let s := traceRec s c 2 0 (BitVec.ofNat 64 (tag + ring * 2 ^ 32 + slot * 2 ^ 38)) 0
    let s := freeCore s c
    match (ringAt s w).cmd with
    | none => .next s
    | some d =>
      .next (if d.phase = .running ∧ d.cores.all (fun k => (coreAt s k).ended) = true then
          onCmd s w (fun d => { d with phase := .ended, runNs := s.utime - d.started })
        else s)

/-! ### Sequencer instructions -/

/-- HINT_INSTRUCTION (R242, R358): the hint replaces the command's for the remainder of the kernel. -/
def execHintInstruction (c : CoreIx) (level : Fin 4) (us : Nat) (stagger : Fin 3) (s : State) : Res :=
  let w := (coreAt s c).ring.getD 0
  let t := count s c 56 1
  let hs := t.pwr.hints.filter (fun h => decide (h.ring ≠ some w))
  whenDo (canIssue s c) s (applyHint { t with pwr := { t.pwr with hints := hs } } w level (us % 65536) stagger)

/-- SNAPSHOT_INSTRUCTION (R427). -/
def execSnapshotInstruction (c : CoreIx) (s : State) : Res :=
  whenDo (canIssue s c) s (takeSnap (count s c 56 1) c 2 false)

/-- TRACE_MARK_INSTRUCTION (R435). -/
def execTraceMarkInstruction (c : CoreIx) (a b : W64) (s : State) : Res :=
  whenDo (canIssue s c) s (traceRec (count s c 56 1) c 10 0 a b)

/-- Issue a KV operation to its unit (R178, R179). -/
def issueKv (s : State) (core : Option Nat) (w : Nat) (desc : List W64) : State :=
  let id := s.ord.nextId
  { s with ord := { s.ord with nextId := id + 1 }, kv := { s.kv with ops := s.kv.ops ++ [⟨id, core, w, desc⟩] } }

/-- KV_OP_INSTRUCTION (R14, R178, R179). -/
def execKvOpInstruction (c : CoreIx) (desc : List W64) (s : State) : Res :=
  if !canIssue s c then .next s
  else
    let w := (coreAt s c).ring.getD 0
    let s := count s c 56 1
    .next (if kvDescBad desc then failCmd s w 0x1D 0 else issueKv s (some (c : Nat)) w desc)

/-! ### COPY (R247) -/

def cpSrcSpd (d : List W64) : Bool := decide (dw d 2 0 1 = 1)
def cpDstSpd (d : List W64) : Bool := decide (dw d 2 1 1 = 1)
def cpSrcCore (d : List W64) : Nat := dw d 2 8 9
def cpDstCore (d : List W64) : Nat := dw d 2 24 9
def cpRows (d : List W64) : Nat := dw d 2 48 16
def cpSrc (d : List W64) : Nat := dw d 3 0 48
def cpDst (d : List W64) : Nat := dw d 4 0 48
def cpBytes (d : List W64) : Nat := dw d 5 0 32
def cpSrcStride (d : List W64) : Nat := dw d 6 0 32
def cpDstStride (d : List W64) : Nat := dw d 6 32 32

/-- A COPY command is a reserved encoding (R14, R241, R247). -/
def copyBad (d : List W64) : Bool :=
  decide (dw d 2 2 6 ≠ 0 ∨ dw d 2 17 7 ≠ 0 ∨ dw d 2 33 15 ≠ 0 ∨ dw d 3 48 16 ≠ 0 ∨ dw d 4 48 16 ≠ 0 ∨ dw d 5 32 32 ≠ 0) ||
  decide (cpRows d = 0 ∨ cpBytes d < 8 ∨ 2 ^ 31 < cpBytes d ∨ cpBytes d % 8 ≠ 0 ∨ cpSrcStride d % 8 ≠ 0 ∨ cpDstStride d % 8 ≠ 0) ||
  (!cpSrcSpd d && decide (cpSrcCore d ≠ 0)) || (!cpDstSpd d && decide (cpDstCore d ≠ 0)) ||
  (cpSrcSpd d && decide (2 ^ 32 ≤ cpSrc d)) || (cpDstSpd d && decide (2 ^ 32 ≤ cpDst d)) ||
  ((d.drop 7).any (fun x => decide (x ≠ 0)))

/-- Cores that a copy's scratchpad sides name. -/
def copyCores (d : List W64) : List Nat := (if cpSrcSpd d then [cpSrcCore d] else []) ++ (if cpDstSpd d then [cpDstCore d] else [])

/-- A scratchpad side runs beyond the scratchpad (R128). -/
def copyBeyond (d : List W64) : Bool :=
  let last := cpRows d - 1
  (cpSrcSpd d && decide (spdBytes < cpSrc d + last * cpSrcStride d + cpBytes d)) ||
  (cpDstSpd d && decide (spdBytes < cpDst d + last * cpDstStride d + cpBytes d))

/-- Source and destination rows overlap (R247). -/
def copyOverlaps (d : List W64) : Bool :=
  (cpSrcSpd d == cpDstSpd d) && decide (cpSrcCore d = cpDstCore d) &&
  (List.range (cpRows d)).any (fun i => (List.range (cpRows d)).any (fun j =>
    decide (cpSrc d + i * cpSrcStride d < cpDst d + j * cpDstStride d + cpBytes d ∧ cpDst d + j * cpDstStride d < cpSrc d + i * cpSrcStride d + cpBytes d)))

/-- Runs of 8 B words of one mark, at most 512 B each: offset, bytes, mark. -/
def markRuns (bytes : List Byte) (poison : Nat → Bool) : List (Nat × List Byte × Bool) :=
  (List.range ((bytes.length + 7) / 8)).foldl (fun acc q =>
    let w := (bytes.drop (8 * q)).take 8
    match acc.getLast? with
    | some (o, b, m) =>
      if m = poison (8 * q) ∧ b.length < 512 then acc.dropLast ++ [(o, b ++ w, m)] else acc ++ [(8 * q, w, poison (8 * q))]
    | none => [(8 * q, w, poison (8 * q))]) []

/-- The data mover of core m writes one row of a copy: into its own scratchpad, into another core's over the network, or into
memory. -/
def copyOut (s : State) (w p m : Nat) (d : List W64) (row : Nat) (bytes : List Byte) (poison : Nat → Bool) : State :=
  let a := cpDst d + row * cpDstStride d
  if cpDstSpd d ∧ cpDstCore d = m then storeMoved s m 4 bytes poison (fun k => a + k) (fun _ => 512)
  else
    (markRuns bytes poison).foldl (fun s r =>
      if cpDstSpd d then issue s (flightOf (.core m) (.spd (cpDstCore d) (a + r.1)) r.2.1 r.2.2 false (some w) (some p) none)
      else issueVirtual s (.core m) w p (a + r.1) r.2.1 r.2.2 false (some m)) s

/-- A piece of a row that lies in part in host memory: a read of it on the host link (R212), or the copy of a piece in
module memory; the offset in the row follows. -/
def copyPiece (w p m : Nat) (d : List W64) (row : Nat) (st : State × Nat) (q : Nat × Nat) : State × Nat :=
  let at_ := cpDst d + row * cpDstStride d + st.2
  if 2 ^ 51 ≤ q.1 then
    (hostReadOut st.1 (fnOfPart p) (q.1 - 2 ^ 51) q.2 1 m (some w) (if cpDstSpd d then some (Dst.spd (cpDstCore d) at_) else none) none
      (if cpDstSpd d then none else some at_) (some (p, cpSrc d + row * cpSrcStride d + st.2)), st.2 + q.2)
  else
    let s := sliceRd st.1 (.mover (Fin.ofNat 288 m)) (some (cpSrc d + row * cpSrcStride d + st.2)) (some w) q.1 q.2
    (copyOut s w p m (d.take 4 ++ [BitVec.ofNat 64 at_] ++ d.drop 5) 0 (cohRead s q.1 q.2).1 (fun k => (cohRead s (q.1 + k) 8).2), st.2 + q.2)

/-- One row of a copy (R247): from a scratchpad, from module memory, or by reads of host memory (R212). -/
def copyRow (s : State) (w p m : Nat) (d : List W64) (overlap : Bool) (row : Nat) : State :=
  let a := cpSrc d + row * cpSrcStride d
  let n := cpBytes d
  if overlap then
    let f := freeBytes s (n / 8)
    copyOut f.2 w p m d row f.1 (fun _ => false)
  else if cpSrcSpd d then
    let s := spdAccess s m a n 5 false 0 0
    let spd := s.spd
    copyOut s w p m d row (spdRead spd m a n) (fun k => spdPoison spd m (a + k) 8)
  else match pieces s (some m) p false true a n with
    | .error (e, at_) => xlateFail s w p at_ false (some m) e
    | .ok ps =>
      let s := learnRange s (some m) p a n false true (some w)
      if ps.any (fun q => decide (2 ^ 51 ≤ q.1)) then
        (ps.foldl (copyPiece w p m d row) (s, 0)).1
      else
        let s := ps.foldl (fun s q => sliceRd s (.mover (Fin.ofNat 288 m)) (some a) (some w) q.1 q.2) s
        let s := match ps.findSome? (fun q => cohPoisonAt s q.1 q.2) with
          | some pa => poisonFound s 3 m 1 pa
          | none => s
        copyOut s w p m d row (readPieces s ps).1 (fun k => piecePoison s ps k 8)

/-- The data mover that carries a copy (R247). -/
def copyMover (s : State) (w : Nat) (d : List W64) : Nat :=
  if cpSrcSpd d then cpSrcCore d else if cpDstSpd d then cpDstCore d else (ringCores s w).headD 0

/-- Some access of a copy by core m's data mover waits, for a table line of a walk or for a line it reads. -/
def copyWaits (s : State) (p m : Nat) (d : List W64) : Bool :=
  (!cpSrcSpd d && (List.range (cpRows d)).any (fun i => accessWaits s (some m) p (cpSrc d + i * cpSrcStride d) (cpBytes d) true)) ||
  (!cpDstSpd d && (List.range (cpRows d)).any (fun i => accessWaits s (some m) p (cpDst d + i * cpDstStride d) (cpBytes d) false))

/-- A core is no place for a copy (R26, R247). -/
def copyPlaceBad (s : State) (w c : Nat) : Bool :=
  !coreUsable s c || !inMask s R.PRT_CORE_CORES (ringPart s w) c || !inMask s R.SEQ_RQ_CORES_CORES w c

/-- Footprint of a copy's scratchpad side: kind 4 into the scratchpad, 5 out of it (R144). -/
def copyFootprint (d : List W64) (o stride kind : Nat) : List Footprint :=
  (List.range (cpRows d)).map (fun i => ⟨40000, kind, kind, 0, 0, o + i * stride, o + i * stride + cpBytes d, decide (kind = 4)⟩)

/-- A copy registers what it reads and what it writes (R144). -/
def registerCopy (s : State) (d : List W64) : Registered :=
  match (if cpSrcSpd d then register s (cpSrcCore d) (copyFootprint d (cpSrc d) (cpSrcStride d) 5) else .ok s) with
  | .ok s => if cpDstSpd d then register s (cpDstCore d) (copyFootprint d (cpDst d) (cpDstStride d) 4) else .ok s
  | r => r

/-- CMD_COPY (R26, R27, R144, R247). The placement of a copy between two memory ranges is the core whose data mover carries it (DESIGN CHOICE,
log entry 126). -/
def execCmdCopy (w : RingIx) (s : State) : Res :=
  match frontSlot s w 2 with
  | none => .next s
  | some t =>
    let d := t.words
    if isResident s w = false then .next s
    else
      let s1 := putCmd s w t .running
      if copyBad d then .next (endUnstarted s1 w 0x1D 0)
      else match (copyCores d).find? (fun c => decide (c ∈ (ringAt s w).retired)) with
        | some c => .next (endUnstarted s1 w 0x04 c)
        | none =>
          let m := copyMover s w d
          match (copyCores d ++ [m]).find? (copyPlaceBad s w) with
          | some c => .next (endUnstarted s1 w 0x1E c)
          | none =>
            if copyBeyond d then .next (endUnstarted s1 w 0x1C 0)
            else if !coresReady s [m] then .next (wakeCores s [m])
            else if copyWaits s (ringPart s w) m d then .next s
            else
              let ov := copyOverlaps d
              let s2 := commandHint (if (copyCores d).isEmpty then s1 else avoidRetired s1 w (copyCores d)) w d
              match registerCopy s2 d with
              | .waits => .next s
              | .faults t => .next (failCmd t w 0x09 0)
              | .ok s2 =>
              let s3 := (List.range (cpRows d)).foldl (fun s i =>
                if cmdRuns s w then copyRow s w (ringPart s w) m d ov i else s) s2
              let s3 := (copyCores d).foldl (fun s c => release s c 40000) s3
              .next (onCmd s3 w (fun c => if c.phase = .running then { c with phase := .ended } else c))

/-! ### KV_OPS and NOP (R248) -/

/-- Words 2 and 3 of a KV_OPS command are reserved encodings (R14, R248). -/
def kvOpsBad (d : List W64) : Bool :=
  decide (dw d 2 48 16 ≠ 0 ∨ dw d 2 0 3 ≠ 0 ∨ dw d 3 16 48 ≠ 0 ∨ dw d 3 0 16 = 0) || (d.drop 4).any (fun x => decide (x ≠ 0))

/-- Address of the next operation of a KV_OPS command (R248). -/
def kvOpsVa (c : Cmd) : Nat := dw c.words 2 0 48 + 48 * c.issued

/-- The read of the array's next operation waits. -/
def kvOpsWaits (s : State) (w : Nat) (c : Cmd) : Bool := accessWaits s none (ringPart s w) (kvOpsVa c) 48 true

/-- The sarabande reads the next operation of a KV_OPS command and issues it (R178, R248); with the last the command has nothing
left to issue. -/
def issueNext (s : State) (w : Nat) (c : Cmd) : State :=
  let p := ringPart s w
  let va := kvOpsVa c
  match pieces s none p false false va 48 with
  | .error (e, at_) => xlateFail (learnRange s none p va 48 false false (some w)) w p at_ false none e
  | .ok ps =>
    let bad := ps.findSome? (fun q => cohPoisonAt s q.1 q.2)
    let desc := bytesWords (readPieces s ps).1
    let s := learnRange s none p va 48 false false (some w)
    let s := ps.foldl (fun s q => sliceRd s .sarabande (some va) (some w) q.1 q.2) s
    match bad with
    | some pa => consumePoison s w (some pa) (some va)
    | none =>
      if kvDescBad desc then failCmd s w 0x1D 0
      else onCmd (issueKv s none w desc) w (fun c =>
        { c with issued := c.issued + 1, phase := if c.issued + 1 = dw c.words 3 0 16 then .ended else c.phase })

/-- CMD_KV_OPS (R178, R248): the command starts, and the sarabande reads and issues its operations in array order, one each time,
as one source; a failed outcome has stopped the command, and no later operation is issued. -/
def execCmdKvOps (w : RingIx) (s : State) : Res :=
  match (ringAt s w).cmd with
  | some c => whenDo (decide (c.phase = .running ∧ opcodeOf c.words = 3 ∧ c.aborting = false) && !s.ras.cut && !kvOpsWaits s w c) s (issueNext s w c)
  | none =>
    match frontSlot s w 3 with
    | none => .next s
    | some t =>
      if isResident s w = false then .next s
      else
        let s1 := putCmd s w t .running
        if kvOpsBad t.words then .next (endUnstarted s1 w 0x1D 0)
        else if kvOpsWaits s w (freshCmd s t .running) then .next s
        else .next (issueNext (commandHint s1 w t.words) w (freshCmd s t .running))

/-- CMD_NOP (R248). -/
def execCmdNop (w : RingIx) (s : State) : Res :=
  match frontSlot s w 4 with
  | none => .next s
  | some t =>
    if isResident s w = false then .next s
    else
      let s1 := putCmd s w t .ended
      .next (if (t.words.drop 2).any (fun x => decide (x ≠ 0)) then endUnstarted s1 w 0x1D 0 else commandHint s1 w t.words)

end Sys2Proof.Machine
end

