-- ==== Sys2Proof/Machine/Link.lean ====
section
/-!
DEFINITION. Sys2Proof/Machine/Link.lean: the Ranior links themselves (R294 to R300, R304, R308 to R311, R317 to R319): frames,
replay, credits, states, keying, rekeying and fault injection.
-/
namespace Sys2Proof.Machine

/-! ### Messages waiting at a link -/

/-- Subtype of a CONTROL message (R298). -/
def Msg.subtype (m : Msg) : Nat := getBits m.word1 0 8

/-- Bits [9:8] of a CONTROL message's word 1: halt and release notice (R298). -/
def msgNotice (m : Msg) : Nat := getBits m.word1 8 2

/-- A message that R298 leaves reserved: by its type, its subtype or its atomic operation. -/
def msgReserved (m : Msg) : Bool :=
  decide (m.type = 0 ∨ 10 < m.type) || decide (m.type = 9 ∧ (getBits m.word1 0 8 = 0 ∨ 10 < getBits m.word1 0 8)) ||
    decide (m.type = 4 ∧ (getBits m.word1 52 3 = 0 ∨ 4 < getBits m.word1 52 3))

/-- The control channel is apart from the others, and each is applied in arrival order (R300, R305). -/
def isControl (m : Msg) : Bool := decide (m.channel = 3)

/-- Give back a message's granules to its channel (R300). -/
def oweCredit (x : LinkRt) (m : Msg) : LinkRt :=
  { x with owed := x.owed.zipIdx.map (fun c => if c.2 = m.channel then c.1 + granules m else c.1) }

/-- Take the first waiting message of its class, where the row is the one it is for; its buffer space is owed back. While the
die sleeps a message other than a CONTROL message waits at its port (R23, R344), and until both ends have confirmed one another only
CONTROL messages are applied (R308, R310). -/
def takeMsg (s : State) (l : Nat) (control : Bool) (p : Msg → Bool) : Option (Msg × State) :=
  match (linkAt s l).inq.find? (fun m => decide (isControl m = control)) with
  | none => none
  | some m =>
    if decide (m.type ≠ 9) && (dieSleeps s || decide (linkState s l = 2 ∨ linkState s l = 3)) then none
    else if p m then some (m, onLink s l (fun x => oweCredit { x with inq := x.inq.erase m } m)) else none

/-- Take the first waiting CONTROL message of a subtype. -/
def takeControl (s : State) (l sub : Nat) : Option (Msg × State) :=
  takeMsg s l true (fun m => decide (m.type = 9) && decide (getBits m.word1 0 8 = sub))

/-! ### Changing state (R308, R309) -/

/-- Credits at the start: the receiver's buffers (R300). -/
def fullCredits : List Nat := [1024, 1024, 1792, 256]

/-- Reach UP: LINK_RESTORED where the link had been UP (R309); the egress to the peer is remapped where another link was UP
already (R306), and numbers start at 0 where the peer was out of reach and the keys are new (log entry 120). -/
def linkUp (s : State) (l : Nat) (fresh : Bool) : State :=
  let m := linkPeer s l
  let others := (upLinks s m).isEmpty
  let was := (linkAt s l).wasUp
  let s := setLinkState s l 4
  let s := if fresh then wr (wr s R.LNK_KEY_FRAMES l 0 0) R.LNK_KEY_REKEYS l 0 0 else s
  let s := onLink s l (fun x => { x with wasUp := true, planned := false, noticeSent := false, noticeSeen := false, ackAt := s.utime })
  let s := if !others then remap s m else if fresh then clearOrders s m else s
  if was then postEvent s none 0x010A l 0 0 else s

/-- Enter QUIESCING (R308, R309): the link is no longer chosen and this end's link notice goes out. -/
def startQuiesce (s : State) (l : Nat) (disabling : Bool) : State :=
  if linkState s l ≠ 4 then s
  else
    let s := leftUp (setLinkState s l 5) l
    let s := enqueue s l (controlMsg 10 0 [])
    onLink s l (fun x => { x with noticeSent := true, disabling := disabling })

/-- Start training (R308). -/
def startTraining (s : State) (l : Nat) : State :=
  onLink (setLinkState s l 1) l (fun x => { x with downAt := s.utime })

/-! ### HELLO, certificates and keys (R304, R310, R311); the messages' layout is log entry 11 -/

def byteN (n : Nat) : Byte := BitVec.ofNat 8 n

/-- HELLO: DOMAIN_ID, MODULE, MODULES, link number and identity digest (R304). -/
def helloData (s : State) (l : Nat) : List Byte :=
  leBytes 4 (rd s R.LNK_DOMAIN_DOMAIN_ID 0 0) ++ [byteN (myModule s), byteN (rd s R.LNK_DOMAIN_MODULES 0 0), byteN l, 0] ++
    Config.ownId.take 32 ++ List.replicate (40 - Config.ownId.length) 0

/-- Cut data into CONTROL messages; ORDER counts the messages that follow. -/
def controlChunks (sub : Nat) (mark : List Byte) (data : List Byte) : List TxMsg :=
  let cs := chunks512 (data.length / (512 - mark.length) + 1) data
  cs.zipIdx.map (fun c => let t := controlMsg sub 0 (mark ++ c.1); { t with msg := { t.msg with order := cs.length - 1 - c.2 } })

/-- Queue messages on a link. -/
def enqueueAll (s : State) (l : Nat) (ts : List TxMsg) : State := ts.foldl (fun s t => enqueue s l t) s

/-- 32 fresh random bytes: free values. -/
def randomBytes (s : State) : List Byte × State :=
  let (a, s) := takeFree s
  let (b, s) := takeFree s
  let (c, s) := takeFree s
  let (d, s) := takeFree s
  (wordsBytes [a, b, c, d], s)

/-- Byte strings in order: this end is `lo` (R310 step 4). -/
def ownIsLo (x : LinkRt) : Bool := decide (leNat Config.ownId.reverse < leNat x.peerId.reverse)

/-- T of R310 step 4: the digest of the HELLO, CERT and KEM messages, each pair with lo's first. -/
def transcript (x : LinkRt) : List Byte :=
  let pair := fun (own peer : List Byte) => if ownIsLo x then own ++ peer else peer ++ own
  Config.shake256 32 (pair x.ownHello x.peerHello ++ pair Config.ownCerts x.peerCerts ++ pair x.ownKem x.peerKem)

/-- ASCII "RANIOR-LINK". -/
def raniorLabel : List Byte := [82, 65, 78, 73, 79, 82, 45, 76, 73, 78, 75].map byteN

/-- The 136 B of key material (R310 step 4). -/
def linkKeys (x : LinkRt) : List Byte :=
  let secrets := if ownIsLo x then x.ssOwn ++ x.ssPeer else x.ssPeer ++ x.ssOwn
  Config.shake256 136 (raniorLabel ++ secrets ++ transcript x)

/-- Key and salt of the direction that this end sends on, or receives on, in key material (R310 step 4). -/
def dirKey (x : LinkRt) (keys : List Byte) (sending : Bool) : List Byte :=
  (keys.drop (if ownIsLo x == sending then 0 else 36)).take 36

/-- Confirmation of an end: keyed SHAKE256 of T under its confirmation key, lo's before hi's (R310 step 5). -/
def confirmation (x : LinkRt) (lo : Bool) : List Byte :=
  Config.shake256 32 ((x.keys.drop (if lo then 72 else 104)).take 32 ++ transcript x)

/-- Encapsulate a fresh secret to the peer's certified key (R310 step 3). -/
def encapsulate (s : State) (l : Nat) : State :=
  let (ss, s) := randomBytes s
  onLink s l (fun x => { x with ssOwn := ss, ownKem := Config.kemEncap x.peerCerts ss, peerKem := [] })

/-- Start a rekey (R311): steps 3 to 5 of R310 on the control channel while traffic flows. -/
def startRekey (s : State) (l : Nat) : State :=
  if linkState s l ≠ 4 ∨ (linkAt s l).rekeying = true ∨ (linkAt s l).oldKey = true then s
  else
    let s := onLink (encapsulate s l) l (fun x => { x with rekeying := true })
    enqueueAll s l (controlChunks 5 [0] (linkAt s l).ownKem)

/-- Allow-list entries in use (LNK_ALLOW). -/
def allowList (get : Fld → Nat → Nat → Nat) : List (List Byte) :=
  ((List.range 32).map (fun n => (List.range 4).flatMap (fun k => leBytes 8 (get R.LNK_ALLOW_HASH n k)))).filter
    (fun h => h.any (fun b => decide (b ≠ 0)))

/-- Remember a verified identity, at most 32 (R310 step 2); the oldest makes room. -/
def rememberPeer (s : State) (id : List Byte) : State :=
  if id ∈ s.lnk.verified then s
  else
    let v := s.lnk.verified ++ [id]
    { s with lnk := { s.lnk with verified := v.drop (v.length - 32) } }

/-- HELLO (R304). -/
def execHello (l : LinkIx) (s : State) : Res :=
  match takeControl s l 1 with
  | none => .next s
  | some (m, s) =>
    if linkState s l ≠ 2 then .next s
    else
      let b := fun (i : Nat) => (m.data.getD i 0).toNat
      let id := (m.data.drop 8).take 32
      let s := wr (wr s R.LNK_STATUS_SEEN_MODULE l 0 (b 4)) R.LNK_STATUS_SEEN_LINK l 0 (b 6)
      if b 4 ≠ linkPeer s l ∨ b 6 ≠ rd s R.LNK_CFG_PEER_LINK l 0 then .next (linkDown s l 5)
      else if leNat (m.data.take 4) ≠ rd s R.LNK_DOMAIN_DOMAIN_ID 0 0 ∨ b 5 ≠ rd s R.LNK_DOMAIN_MODULES 0 0 then .next (linkDown s l 6)
      else if linkIxs.any (fun k => decide (linkState s k = 4) && decide ((linkAt s k).peerId = id) && decide (linkPeer s k ≠ b 4)) then
        .next (linkDown s l 6)
      else
        let s := onLink (setLinkState s l 3) l (fun x => { x with peerHello := m.data, peerId := id, steps := x.steps ||| 1 })
        .next (enqueueAll s l (controlChunks 2 [] Config.ownCerts))

/-- CERT (R310 steps 1 to 3): the last part is verified against the product certificate and the allow list, and this end's KEM
follows. -/
def execCert (l : LinkIx) (s : State) : Res :=
  match takeControl s l 2 with
  | none => .next s
  | some (m, s) =>
    if linkState s l ≠ 3 then .next s
    else
      let s := onLink s l (fun x => { x with peerCerts := x.peerCerts ++ m.data })
      if m.order ≠ 0 then .next s
      else
        let x := linkAt s l
        let known := decide (x.peerId ∈ s.lnk.verified) || Config.chainValid x.peerCerts
        let listed := !rdB s R.LNK_DOMAIN_TRUST 0 0 || decide (x.peerId ∈ allowList (rd s))
        if !known || decide (Config.certId x.peerCerts ≠ x.peerId) || !listed then .next (linkDown s l 7)
        else
          let s := encapsulate (rememberPeer s x.peerId) l
          let s := onLink s l (fun x => { x with steps := x.steps ||| 6 })
          .next (enqueueAll s l (controlChunks 3 [] (linkAt s l).ownKem))

/-- KEM (R310 steps 3 to 5): the peer's secret is decapsulated, the keys are formed, and CONFIRM goes out. -/
def execKem (l : LinkIx) (s : State) : Res :=
  match takeControl s l 3 with
  | none => .next s
  | some (m, s) =>
    if linkState s l ≠ 3 then .next s
    else
      let s := onLink s l (fun x => { x with peerKem := x.peerKem ++ m.data })
      if m.order ≠ 0 then .next s
      else
        let s := onLink s l (fun x => { x with ssPeer := Config.kemDecap x.peerKem, steps := x.steps ||| 24 })
        let s := onLink s l (fun x => { x with keys := linkKeys x })
        .next (enqueue s l (controlMsg 4 0 (confirmation (linkAt s l) (ownIsLo (linkAt s l)))))

/-- CONFIRM (R310 step 5). -/
def execConfirm (l : LinkIx) (s : State) : Res :=
  match takeControl s l 4 with
  | none => .next s
  | some (m, s) =>
    if linkState s l ≠ 3 then .next s
    else
      let x := linkAt s l
      if m.data.take 32 ≠ confirmation x (!ownIsLo x) then .next (linkDown s l 8)
      else .next (linkUp (onLink s l (fun x => { x with steps := x.steps ||| 32 })) l true)

/-- REKEY (R311): a part of the peer's ciphertext, or its confirmation, after which this sender changes its key phase. -/
def execRekey (l : LinkIx) (s : State) : Res :=
  match takeControl s l 5 with
  | none => .next s
  | some (m, s) =>
    if linkState s l ≠ 4 ∧ linkState s l ≠ 5 then .next s
    else if m.data.getD 0 0 = 0 then
      let s := startRekey s l
      let s := onLink s l (fun x => { x with peerKem := x.peerKem ++ m.data.drop 1 })
      if m.order ≠ 0 then .next s
      else
        let s := onLink s l (fun x => { x with ssPeer := Config.kemDecap x.peerKem, oldKey := true, oldKeys := x.keys, txOld := true })
        let s := onLink s l (fun x => { x with keys := linkKeys x })
        .next (enqueue s l (controlMsg 5 0 ([1] ++ confirmation (linkAt s l) (ownIsLo (linkAt s l)))))
    else
      let x := linkAt s l
      if (m.data.drop 1).take 32 ≠ confirmation x (!ownIsLo x) then .next (linkDown s l 8)
      else
        let s := onLink s l (fun x => { x with rekeying := false, txPhase := !x.txPhase, txOld := false })
        .next (addSat (wr s R.LNK_KEY_FRAMES l 0 0) R.LNK_KEY_REKEYS l 0 1)

/-- LINK_REKEY_REQUEST (R311, LNK_CTL.REKEY): while UP. -/
def execLinkRekeyRequest (l : LinkIx) (s : State) : Res := .next (startRekey s l)

/-! ### Fault injection (R317) -/

/-- Injection of a link in a mode can hit now: the link is UP, no halt is in progress and the limit is not reached. -/
def injects (s : State) (l mode : Nat) : Bool :=
  decide (rd s R.LNK_INJ_CFG_MODE l 0 = mode) && decide (linkState s l = 4) && decide (rd s R.RAS_HALT_STATUS_STATE 0 0 = 0) &&
  (decide (rd s R.LNK_INJ_CFG_LIMIT l 0 = 0) || decide (rd s R.LNK_INJ_STATUS_HITS l 0 < rd s R.LNK_INJ_CFG_LIMIT l 0))

/-- One draw of the generator, a free value: a hit is counted. -/
def injHit (s : State) (l mode : Nat) : Bool × State :=
  if injects s l mode then
    let (x, s) := takeFree s
    if x.toNat % 2 = 1 then (true, addSat s R.LNK_INJ_STATUS_HITS l 0 1) else (false, s)
  else (false, s)

/-- A message that modes 5 to 7 may hit: one that a command of the partition sends. -/
def injEligible (s : State) (l : Nat) (t : TxMsg) : Bool :=
  t.ring.isSome && decide (t.msg.partition = rd s R.LNK_INJ_CFG_PARTITION l 0)

/-- Flip bit `n` of data. -/
def flipBit (n : Nat) (data : List Byte) : List Byte :=
  data.zipIdx.map (fun b => if b.2 = n / 8 then b.1 ^^^ BitVec.ofNat 8 (2 ^ (n % 8)) else b.1)

/-- A held message goes once it has been passed often enough, or before a message of its own line (R317). -/
def passHeldMsg (s : State) (l : Nat) (t : TxMsg) (out : List TxMsg) : State × List TxMsg :=
  match (linkAt s l).heldMsg with
  | some (h, n) =>
    if n = 0 ∨ msgLine h.msg = msgLine t.msg then (onLink s l (fun x => { x with heldMsg := none }), out ++ [h])
    else (onLink s l (fun x => { x with heldMsg := some (h, n - 1) }), out)
  | none => (s, out)

/-- Inject message faults into the messages of one new frame: those that go, in order. -/
def injMsgs (s : State) (l : Nat) : List TxMsg → List TxMsg → State × List TxMsg
  | [], out => (s, out)
  | t :: ts, out =>
    let (s, out) := passHeldMsg s l t out
    if !injEligible s l t then injMsgs s l ts (out ++ [t])
    else
      let (drop, s) := injHit s l 5
      if drop then injMsgs (loseMsg s (linkPeer s l) t) l ts out
      else
        let (flip, s) := injHit s l 6
        if flip then
          let (r, s) := takeFree s
          let d := if t.msg.data.isEmpty then t.msg.data else flipBit (r.toNat % (8 * t.msg.data.length)) t.msg.data
          injMsgs s l ts (out ++ [{ t with msg := { t.msg with data := d } }])
        else if (linkAt s l).heldMsg.isSome then injMsgs s l ts (out ++ [t])
        else
          let (hold, s) := injHit s l 7
          if hold then
            let (r, s) := takeFree s
            injMsgs (onLink s l (fun x => { x with heldMsg := some (t, r.toNat % 8 + 1) })) l ts out
          else injMsgs s l ts (out ++ [t])

/-- LNK_INJ_CFG_WRITE (R13, R317): a RATE_LOG2 outside 1 to 40 and a BYTES outside 1 to 9 leave their own field as it was; modes 5 to
7 are a debug access. -/
def execLnkInjCfgWrite (l : LinkIx) (v : W64) (s : State) : Res :=
  let rate := getBits v 3 6
  let bytes := getBits v 9 4
  let v := if rate = 0 ∨ 40 < rate then setBits v 3 6 (rd s R.LNK_INJ_CFG_RATE_LOG2 l 0) else v
  let v := if bytes = 0 ∨ 9 < bytes then setBits v 9 4 (rd s R.LNK_INJ_CFG_BYTES l 0) else v
  let s := wr (setReg s (R.LNK_INJ_CFG_MODE.at l 0) v) R.LNK_INJ_STATUS_HITS l 0 0
  .next (if 5 ≤ getBits v 0 3 then debugAccess s (getBits v 13 4) 6 0 (R.LNK_INJ_CFG_MODE.at l 0) none else s)

/-! ### Messages and frames on the wire (R296, R298, R310) -/

/-- A message as granules: its header, whose reserved bits [31:27] say how many bytes of the last granule carry no data (log entry
11), and its data filled up to whole granules. -/
def msgBytes (m : Msg) : List Byte :=
  let g := (m.data.length + 15) / 16
  let tail := 16 * g - m.data.length
  let w0 := m.type + m.channel * 2 ^ 4 + (if m.final then 2 ^ 6 else 0) + (if m.poison then 2 ^ 7 else 0) + g * 2 ^ 8 +
    m.partition * 2 ^ 14 + m.srcCore * 2 ^ 18 + tail * 2 ^ 27 + m.order * 2 ^ 32 + m.mtag * 2 ^ 48
  leBytes 8 w0 ++ leBytes 8 m.word1.toNat ++ m.data ++ List.replicate tail 0

/-- Data granules that a message header announces. -/
def headGranules (bs : List Byte) : Nat := getBits (BitVec.ofNat 64 (leNat (bs.take 8))) 8 6

/-- The message of a header and its granules (R298). -/
def msgOf (bs : List Byte) : Msg :=
  let w : W64 := BitVec.ofNat 64 (leNat (bs.take 8))
  let f := getBits w
  { type := f 0 4, channel := f 4 2, final := decide (f 6 1 = 1), poison := decide (f 7 1 = 1), partition := f 14 4, srcCore := f 18 9,
    order := f 32 16, mtag := f 48 16, word1 := BitVec.ofNat 64 (leNat ((bs.drop 8).take 8)),
    data := (bs.drop 16).take (16 * f 8 6 - f 27 5) }

/-- Messages that are complete in bytes of lines, and the bytes of one that is not; a granule of TYPE 0 where a header may stand fills
a line (R298). -/
def parseMsgs : Nat → List Byte → List Msg × List Byte
  | 0, bs => ([], bs)
  | n + 1, bs =>
    if bs.length < 16 then ([], bs)
    else if getBits (BitVec.ofNat 64 (leNat (bs.take 8))) 0 4 = 0 then parseMsgs n (bs.drop 16)
    else
      let k := 16 + 16 * headGranules bs
      if bs.length < k then ([], bs)
      else
        let (ms, rest) := parseMsgs n (bs.drop k)
        (msgOf (bs.take k) :: ms, rest)

/-- Bytes of the lines of a frame: the rest of an earlier message, then its own, as many as fit (R298). -/
def packLines (pre : List Byte) (ms : List TxMsg) : List Byte := pre ++ ms.flatMap (fun t => msgBytes t.msg)

/-- The frame header of R296. -/
def frameHeader (f : Frame) : List Byte :=
  let w0 := f.seq + f.ack * 2 ^ 16 + (if f.nak then 2 ^ 32 else 0) + (if f.keyPhase then 2 ^ 33 else 0) + f.linesUsed * 2 ^ 34 + f.firstMsg * 2 ^ 40
  let w1 := f.crReq + f.crRsp * 2 ^ 16 + f.crTile * 2 ^ 32 + f.crCtl * 2 ^ 48
  let w2 := (if f.syncMark then 1 else 0) + f.syncId * 2 ^ 8
  leBytes 8 w0 ++ leBytes 8 w1 ++ leBytes 8 w2 ++ leBytes 8 0

/-- The 1,648 B of content: the header, 25 lines and the tag; lines are in the clear, and the tag zero, before keys are agreed (R296,
R310; log entry 11). -/
def frameContent (f : Frame) : List Byte :=
  let h := frameHeader f
  let lines := f.lines ++ List.replicate (1600 - f.lines.length) 0
  if f.key.isEmpty then h ++ lines ++ List.replicate 16 0
  else h ++ Config.aesGcmSeal (f.key.take 32) (f.key.drop 32 ++ leBytes 8 f.counter) h lines

/-- Bytes i, i + 8, i + 16, ... of a byte string. -/
def every8 (bs : List Byte) (i : Nat) : List Byte := (bs.zipIdx.filter (fun b => decide (b.2 % 8 = i))).map (fun b => b.1)

/-- The 1,792 B of a frame on the wire: content, the interleaved parity of eight codewords, and what the wire changes (R296). -/
def frameWire (f : Frame) : List Byte :=
  let c := frameContent f
  let p := (List.range 8).map (fun i => Config.rsParity (every8 c i))
  let sent := c ++ (List.range 144).map (fun k => (p.getD (k % 8) []).getD (k / 8) 0)
  f.errs.foldl (fun bs e => bs.zipIdx.map (fun b => if b.2 = e.1 then b.1 ^^^ e.2 else b.1)) sent

/-- Bytes of codeword i that a frame's wire changed. -/
def wrongBytes (f : Frame) (i : Nat) : Nat := (((f.errs.filter (fun e => decide (e.1 % 8 = i))).map (fun e => e.1)).dedup).length

/-- Every codeword has at most the 9 byte errors that it corrects (R296). -/
def fecDecodes (f : Frame) : Bool := (List.range 8).all (fun i => decide (wrongBytes f i ≤ 9))

/-- Bytes that FEC corrects in a frame: those of the codewords that decode. -/
def fecCorrects (f : Frame) : Nat := (((List.range 8).map (wrongBytes f)).filter (fun n => decide (n ≤ 9))).foldl (· + ·) 0

/-! ### Sending frames (R295, R296, R299, R300) -/

/-- A SYNC_REQ or SYNC_RESP (R312). -/
def isSync (m : Msg) : Bool := decide (m.type = 9) && decide (getBits m.word1 0 8 = 6 ∨ getBits m.word1 0 8 = 7)

/-- Choose the messages that start in a frame: in order within a channel, each on its channel's credits for all of its granules, while
a granule is free; the last may go on in the next frame, but for a sync message, which its own frame times. The control channel waits
for no other. Answers those taken, those left, and the credits left (R298, R300). -/
def pickMsgs : List TxMsg → List Nat → Nat → List Nat → List TxMsg × List TxMsg × List Nat
  | [], cr, _, _ => ([], [], cr)
  | t :: ts, cr, room, blocked =>
    let ch := t.msg.channel
    let g := granules t.msg
    if ch ∈ blocked ∨ room = 0 ∨ (isSync t.msg = true ∧ room < g) ∨ cr.getD ch 0 < g then
      let (a, b, c) := pickMsgs ts cr room (ch :: blocked)
      (a, t :: b, c)
    else
      let (a, b, c) := pickMsgs ts (cr.zipIdx.map (fun x => if x.2 = ch then x.1 - g else x.1)) (room - g) blocked
      (t :: a, b, c)

/-- This moment at the die pins, in 1/8 ns: the TSC and a free fraction (R312). -/
def pinTime (s : State) : Nat × State :=
  let (x, s) := takeFree s
  (tsc s * 8 + x.toNat % 8, s)

/-- A marked frame leaves: a follower notes t1, and a SYNC_RESP carries t3 (R312). -/
def markTime (s : State) (l id : Nat) (ms : List TxMsg) : State × List TxMsg :=
  let (t, s) := pinTime s
  let s := { s with lnk := { s.lnk with sync := s.lnk.sync.map (fun y => if y.1 = id ∧ y.2.2 = l then (id, t, l) else y) } }
  (s, ms.map (fun m => if m.msg.type = 9 ∧ getBits m.msg.word1 0 8 = 7 then
    { m with msg := { m.msg with data := m.msg.data.take 8 ++ leBytes 8 t } } else m))

/-- SYNC_ID of a frame with a sync message (R296, R312). -/
def markOf (ms : List TxMsg) : Option Nat := (ms.find? (fun m => isSync m.msg)).map (fun m => m.msg.mtag % 256)

/-- `n` bytes of one codeword, at free places one after another, are changed by free amounts (R317 modes 1 and 2). -/
def injErrs (s : State) (n : Nat) : List (Nat × Byte) × State :=
  let (v, s) := takeFree s
  let place (k : Nat) : Nat := 8 * ((getBits v 3 16 + k) % 224) + getBits v 0 3
  ((List.range n).map (fun k => (place k, BitVec.ofNat 8 (1 + (getBits v 19 32 + k) % 255))), s)

/-- Count a frame under its key (R310): its counter. -/
def nextCounter (s : State) (l : Nat) : Nat × State :=
  let n := rd s R.LNK_KEY_FRAMES l 0
  (n, if linkState s l < 4 then s else wr s R.LNK_KEY_FRAMES l 0 (n + 1))

/-- Put a frame on the wire: header fields of this moment, the frame counter, and the frame faults of R317. -/
def putFrame (s : State) (l : Nat) (f : SentFrame) (inject : Bool) : State :=
  let (drop, s) := if inject then injHit s l 3 else (false, s)
  if drop then s
  else
    let (s, ms) := match f.mark with | some id => markTime s l id f.msgs | none => (s, f.msgs)
    let (bad, s) := if inject then injHit s l 2 else (false, s)
    let (sym, s) := if inject then injHit s l 1 else (false, s)
    let (errs, s) := if bad then injErrs s 10 else if sym then injErrs s (rd s R.LNK_INJ_CFG_BYTES l 0) else ([], s)
    let (n, s) := nextCounter s l
    let x := linkAt s l
    let bytes := (packLines f.pre ms).take 1600
    let lines := (bytes.length + 63) / 64
    let frame : Frame :=
      { seq := f.seq, ack := (if x.nak then x.rxSeq else (x.rxSeq + 65535) % 65536), nak := x.nak, keyPhase := x.txPhase,
        linesUsed := lines, firstMsg := if ms.isEmpty then 127 else f.pre.length / 16,
        crReq := f.cr.getD 0 0, crRsp := f.cr.getD 1 0, crTile := f.cr.getD 2 0, crCtl := f.cr.getD 3 0,
        syncMark := f.mark.isSome, syncId := f.mark.getD 0,
        lines := bytes ++ List.replicate (64 * lines - bytes.length) 0,
        key := if linkState s l < 4 then [] else dirKey x (if x.txOld then x.oldKeys else x.keys) true,
        counter := if linkState s l < 4 then 0 else n, errs := errs }
    emit s (.frame l frame (frameWire frame))

/-- Put a frame on the wire after the swap of R317 mode 4. -/
def putSwapped (s : State) (l : Nat) (f : SentFrame) : State :=
  match (linkAt s l).heldFrame with
  | some h => putFrame (putFrame (onLink s l (fun x => { x with heldFrame := none })) l f true) l h true
  | none =>
    let (hold, s) := injHit s l 4
    if hold then onLink s l (fun x => { x with heldFrame := some f }) else putFrame s l f true

/-- The frame counter would reach 2^48 (R311). -/
def keyExpired (s : State) (l : Nat) : Bool :=
  decide (4 ≤ linkState s l) && decide (2 ^ 48 ≤ rd s R.LNK_KEY_FRAMES l 0 + (if (linkAt s l).heldFrame.isSome then 2 else 1))

/-- A counter that has reached 2^REKEY_LOG2 starts a rekey (R311). -/
def rekeyDue (s : State) (l : Nat) : State :=
  if 2 ^ rd s R.LNK_CFG_REKEY_LOG2 l 0 ≤ rd s R.LNK_KEY_FRAMES l 0 then startRekey s l else s

/-- A new frame: the rest of the message begun before, then the messages that may start (R298, R300). -/
def newFrame (s : State) (l : Nat) : State :=
  let x := linkAt s l
  let (go, left, cr) := pickMsgs x.outq x.credits (100 - x.txPart.length / 16) []
  let s := onLink s l (fun x => { x with outq := left, credits := cr })
  let (s, go) := injMsgs s l go []
  let f : SentFrame := ⟨x.txSeq, x.txPart, x.txCont, go, x.owed, markOf go, 1⟩
  let part := (packLines x.txPart go).drop 1600
  let s := wr s R.LNK_TX_MSGS l 0 (rd s R.LNK_TX_MSGS l 0 + go.length)
  let s := onLink s l (fun x => { x with
    sent := x.sent ++ [f]
    txSeq := (x.txSeq + 1) % 65536
    txPart := part
    txCont := if part.isEmpty then none else go.getLast?
    owed := [0, 0, 0, 0]
    ackAt := if x.sent.isEmpty then s.utime else x.ackAt })
  putSwapped s l f

/-- LINK_FRAME_SEND (R295, R296, R299, R300, R311, R317): the link's next frame: one to be replayed, or a new one with the
messages that have credits. -/
def execLinkFrameSend (l : LinkIx) (s : State) : Res :=
  if linkState s l < 2 ∨ 5 < linkState s l then .next s
  else
    let x := linkAt s l
    match x.replay with
    | some q =>
      match x.sent.find? (fun f => decide (f.seq = q)) with
      | none => .next (onLink s l (fun x => { x with replay := none }))
      | some f =>
        if 8 ≤ f.tries then .next (linkDown s l 4)
        else if keyExpired s l then .next (linkDown s l 9)
        else
          let next := (q + 1) % 65536
          let s := onLink s l (fun x => { x with
            sent := x.sent.map (fun g => if g.seq = q then { g with tries := g.tries + 1 } else g)
            replay := if x.sent.any (fun g => decide (g.seq = next)) then some next else none })
          .next (rekeyDue (putFrame s l f true) l)
    | none =>
      if 512 ≤ x.sent.length then .next s
      else if keyExpired s l then .next (linkDown s l 9)
      else .next (rekeyDue (newFrame s l) l)

/-! ### Receiving frames (R299, R300, R309, R311) -/

/-- The receiver discards a frame and asks for its SEQ (R299). -/
def discardFrame (s : State) (l : Nat) : State := onLink s l (fun x => { x with nak := true })

/-- A frame went by whose tag did not verify: its counter is spent (R310). -/
def blankFrame (s : State) (l : Nat) : State := onLink s l (fun x => { x with rxBlank := x.rxBlank + 1 })

/-- An uncorrectable frame: more than 16 in 1 ms take the link DOWN (R309). -/
def badFrame (s : State) (l : Nat) : State :=
  let s := blankFrame (discardFrame (addSat s R.LNK_ERR_UNCORRECTED l 0 1) l) l
  let x := linkAt s l
  let x := if x.badAt + us 1000 ≤ s.utime then { x with badAt := s.utime, bad := 1 } else { x with bad := x.bad + 1 }
  let s := setLink s l x
  if 16 < x.bad then linkDown s l 3 else s

/-- A tag failure: more than 64 in 1 s take the link DOWN (R311). -/
def badTag (s : State) (l : Nat) : State :=
  let s := blankFrame (discardFrame (addSat s R.LNK_ERR_TAG_FAILS l 0 1) l) l
  let x := linkAt s l
  let x := if x.tagAt + us 1000000 ≤ s.utime then { x with tagAt := s.utime, tag := 1 } else { x with tag := x.tag + 1 }
  let s := setLink s l x
  if 64 < x.tag then linkDown s l 8 else s

/-- A frame is under the phase that follows the one accepted, which a rekey has agreed and no frame has opened yet (R311). -/
def newPhase (x : LinkRt) (f : Frame) : Bool := decide (f.keyPhase ≠ x.rxPhase) && x.oldKey

/-- A frame in the clear can be taken: none under the agreed keys has been accepted (log entry 11). -/
def clearTaken (x : LinkRt) (f : Frame) : Bool := f.key.isEmpty && decide (x.rxCount = 0)

/-- A frame's tag verifies (R299, R310, R311): it was sealed under the key of its phase that the receiver holds, and its counter is the
next one but for the frames that went by. An idealised cipher: no other frame verifies (log entry 131). -/
def tagVerifies (x : LinkRt) (f : Frame) : Bool :=
  clearTaken x f ||
  (!x.keys.isEmpty &&
   (if f.keyPhase = x.rxPhase then
      decide (f.key = dirKey x (if x.oldKey then x.oldKeys else x.keys) false) && decide (x.rxCount ≤ f.counter ∧ f.counter ≤ x.rxCount + x.rxBlank)
    else x.oldKey && decide (f.key = dirKey x x.keys false) && decide (f.counter ≤ x.rxBlank)))

/-- A frame's tag has verified: its phase is the one accepted, the key before it is dropped where it opens a phase, and the next
counter follows (R310, R311). -/
def noteSealed (s : State) (l : Nat) (f : Frame) : State :=
  onLink s l (fun x =>
    if clearTaken x f then x
    else { x with rxCount := f.counter + 1, rxBlank := 0, rxPhase := f.keyPhase, oldKey := x.oldKey && !newPhase x f })

/-- ACK and NAK of an accepted frame (R299): frames accepted by the peer are dropped; a NAK starts a replay. -/
def takeAck (s : State) (l : Nat) (f : Frame) : State :=
  let upTo := if f.nak then (f.ack + 65535) % 65536 else f.ack
  let x := linkAt s l
  let left := x.sent.filter (fun g => !seqLe g.seq upTo)
  let moved := decide (left.length < x.sent.length)
  let start := f.nak && x.replay.isNone && !left.isEmpty
  let s := onLink s l (fun x => { x with
    sent := left
    ackAt := if moved then s.utime else x.ackAt
    replay := if start then some f.ack else x.replay.filter (fun q => !seqLe q upTo) })
  if start then noteCorrected (addSat s R.LNK_ERR_REPLAYS l 0 1) 5 l 1 else s

/-- The arrival time of a marked frame joins its sync messages' data (R312). -/
def stampArrival (s : State) (f : Frame) (ms : List Msg) : State × List Msg :=
  if !f.syncMark then (s, ms)
  else
    let (t, s) := pinTime s
    (s, ms.map (fun m => if isSync m then
      { m with data := m.data.take 16 ++ List.replicate (16 - m.data.length) 0 ++ leBytes 8 t } else m))

/-- An accepted frame: its credits return, and the messages that its lines complete wait to be applied, except that after a halt's cut
only CONTROL messages do (R298, R300, R316). -/
def acceptFrame (s : State) (l : Nat) (f : Frame) : State :=
  let (ms, part) := parseMsgs 101 ((linkAt s l).rxPart ++ f.lines)
  let s := wr s R.LNK_RX_MSGS l 0 (rd s R.LNK_RX_MSGS l 0 + ms.length)
  let (s, ms) := stampArrival s f ms
  let keep := fun (m : Msg) => !msgReserved m && (!s.ras.cut || decide (m.type = 9))
  let s := onLink s l (fun x =>
    (ms.filter (fun m => !keep m)).foldl oweCredit
      { x with rxSeq := (x.rxSeq + 1) % 65536, nak := false, inq := x.inq ++ ms.filter keep, rxPart := part
               credits := x.credits.zipIdx.map (fun c => c.1 + [f.crReq, f.crRsp, f.crTile, f.crCtl].getD c.2 0) })
  takeAck (if ms.isEmpty then s else notIdle s) l f

/-- LINK_FRAME_RECEIVE (R299): a frame is accepted only where its FEC decodes, its tag verifies and its SEQ is the next one
expected. -/
def execLinkFrameReceive (l : LinkIx) (f : Frame) (s : State) : Res :=
  let st := linkState s l
  if !(decide (2 ≤ st ∧ st ≤ 5) || (decide (st = 1) && (linkAt s l).planned)) then .next s
  else
    let s := noteCorrected (addSat s R.LNK_ERR_CORRECTED l 0 (fecCorrects f)) 5 l (fecCorrects f)
    let x := linkAt s l
    if !fecDecodes f then .next (badFrame s l)
    else if decide (f.keyPhase ≠ x.rxPhase) && !x.oldKey then .next (blankFrame (discardFrame s l) l)
    else if !tagVerifies x f then .next (badTag s l)
    else
      let s := noteSealed s l f
      if f.seq ≠ x.rxSeq then .next (discardFrame s l) else .next (acceptFrame s l f)

/-- LINK_ACK_TIMEOUT (R299). -/
def execLinkAckTimeout (l : LinkIx) (s : State) : Res :=
  whenDo (decide (2 ≤ linkState s l ∧ linkState s l ≤ 5) && !(linkAt s l).sent.isEmpty &&
    decide ((linkAt s l).ackAt + us 16 ≤ s.utime)) s (linkDown s l 4)

/-! ### Loss, retraining and retry (R308, R309) -/

/-- LINK_LOSS (R309): a link leaves UP for one of the causes of its table. -/
def execLinkLoss (l : LinkIx) (cause : Nat) (s : State) : Res :=
  whenDo (decide (linkState s l = 4) && decide (1 ≤ cause ∧ cause ≤ 10)) s (linkDown s l cause)

/-- LINK_LOSS_OF_SIGNAL (R309): a link that trains again after quiescing has lost no message. -/
def execLinkLossOfSignal (l : LinkIx) (s : State) : Res :=
  whenDo (decide (1 ≤ linkState s l ∧ linkState s l ≤ 5)) s (linkDown s l 1)

/-- LINK_TRAINING_DONE (R308): training ends in CHECKING with this end's HELLO, in UP for a planned retrain, or in DOWN. -/
def execLinkTrainingDone (l : LinkIx) (ok : Bool) (delayNs : Nat) (s : State) : Res :=
  if linkState s l ≠ 1 then .next s
  else if !ok then .next (linkDown s l 2)
  else
    let s := wr s R.LNK_STATUS_DELAY_NS l 0 (min delayNs 65535)
    if (linkAt s l).planned then .next (linkUp s l false)
    else
      let hello := helloData s l
      let s := onLink (setLinkState s l 2) l (fun x =>
        { LinkRt.fresh with credits := fullCredits, ownHello := hello, ackAt := s.utime, wasUp := x.wasUp, inq := x.inq })
      .next (enqueue s l (controlMsg 1 0 hello))

/-- Causes retried automatically (R309). -/
def causeRetried (c : Nat) : Bool := decide (c = 1 ∨ c = 2 ∨ c = 3 ∨ c = 4 ∨ c = 8 ∨ c = 9 ∨ c = 10)

/-- LINK_RETRY (R309): every RETRY_MS. -/
def execLinkRetry (l : LinkIx) (s : State) : Res :=
  whenDo (decide (linkState s l = 6) && causeRetried (rd s R.LNK_STATUS_DOWN_CAUSE l 0) && rdB s R.LNK_CFG_ENABLE l 0 &&
    decide ((linkAt s l).downAt + rd s R.LNK_TIME_RETRY_MS 0 0 * 1000000 ≤ s.utime)) s (startTraining s l)

/-- GOODBYE (R309): the peer disables the link; one that was quiescing has lost nothing. -/
def execGoodbye (l : LinkIx) (s : State) : Res :=
  match takeControl s l 9 with
  | none => .next s
  | some (_, s) =>
    match linkState s l with
    | 0 => .next s
    | 6 => .next s
    | 5 => .next (linkStop s l 10)
    | _ => .next (linkDown s l 10)

/-- QUIESCE (R309): the link notice of the peer. -/
def execQuiesce (l : LinkIx) (s : State) : Res :=
  match takeMsg s l true (fun m => decide (m.type = 9) && decide (getBits m.word1 0 8 = 10) && decide (msgNotice m = 0)) with
  | none => .next s
  | some (_, s) => .next (onLink (startQuiesce s l false) l (fun x => { x with noticeSeen := true }))

/-- Everything sent on a link has been acknowledged and nothing waits. -/
def linkDrained (x : LinkRt) : Bool :=
  x.outq.isEmpty && x.heldMsg.isNone && x.txCont.isNone && x.sent.all (fun f => (frameMsgs f).isEmpty)

/-- LINK_QUIESCE_DONE (R309): a disable says GOODBYE and ends in OFF; a planned retrain trains again. -/
def execLinkQuiesceDone (l : LinkIx) (s : State) : Res :=
  let x := linkAt s l
  if linkState s l ≠ 5 ∨ x.noticeSent = false ∨ x.noticeSeen = false ∨ linkDrained x = false then .next s
  else if x.disabling then
    let s := putFrame s l ⟨x.txSeq, [], none, [controlMsg 9 0 []], x.owed, none, 1⟩ false
    .next (setLink (setLinkState s l 0) l { LinkRt.fresh with inq := x.inq })
  else .next (onLink (setLinkState s l 1) l (fun x => { x with planned := true }))

/-- LINK_COMMIT (R319, R308). -/
def execLinkCommit (l : LinkIx) (s : State) : Res :=
  let m := rdS s R.LNK_CFG_PEER_MODULE l 0
  let st := linkState s l
  let en := decide (rdS s R.LNK_CFG_ENABLE l 0 = 1)
  let log2 := rdS s R.LNK_CFG_REKEY_LOG2 l 0
  let moved := decide (m ≠ linkPeer s l) || decide (rdS s R.LNK_CFG_PEER_LINK l 0 ≠ rd s R.LNK_CFG_PEER_LINK l 0)
  let bad := decide (rd s R.LNK_DOMAIN_MODULES 0 0 ≤ m) || decide (m = myModule s) || (en && !rdB s R.LNK_STATUS_USABLE l 0) ||
    (moved && decide (st ≠ 0 ∧ st ≠ 6)) || decide (log2 < 20 ∨ 47 < log2)
  if bad then .next (wr s R.LNK_STATUS_REJECTED l 0 1)
  else
    let s := commitReg s (R.LNK_CFG_ENABLE.at l 0)
    if en then .next (if st = 0 ∨ st = 6 then startTraining s l else s)
    else match st with
      | 4 => .next (startQuiesce s l true)
      | 5 => .next (onLink s l (fun x => { x with disabling := true }))
      | _ => .next (setLink (setLinkState s l 0) l LinkRt.fresh)

/-- Messages already sent to a peer have settled: acknowledged at their hop, and requests answered (R306). -/
def peerSettled (s : State) (m : Nat) : Bool :=
  let waits := SMap.look (fun _ => []) s.lnk.paused m
  linkIxs.all (fun l => decide (linkPeer s l ≠ m) || !decide (linkState s l = 4 ∨ linkState s l = 5) || linkDrained (linkAt s l)) &&
  s.lnk.remote.all (fun r => decide (r.module ≠ m) || waits.any (fun t => decide (t.msg.mtag = r.mtag ∧ t.msg.type = r.kind)))

/-- LINK_REMAP_RESUME (R306): the egress resumes under the new mapping; numbers start afresh where one was lost (R151). -/
def execLinkRemapResume (m : Fin 32) (s : State) : Res :=
  if !(SMap.look (fun _ => false) s.lnk.pausedOn m && peerSettled s m) then .next s
  else
    let waits := SMap.look (fun _ => []) s.lnk.paused m
    let s := breakOrders s m
    let s := { s with lnk := { s.lnk with pausedOn := SMap.put (fun _ => false) s.lnk.pausedOn m false,
                                          paused := SMap.put (fun _ => []) s.lnk.paused m [] } }
    .next (waits.foldl (fun s t => sendPeer s m t) s)

end Sys2Proof.Machine
end

