-- ==== Sys2Proof/Machine/Remote.lean ====
section
/-!
DEFINITION. Sys2Proof/Machine/Remote.lean: messages from peer modules as the ingress applies them (R298, R305, R307), gangs
(R262, R315), the domain, the windows (R302, R319), and time across a domain (R312, R313).
-/
namespace Sys2Proof.Machine

/-! ### Windows (R307) -/

/-- The checks of R307 on an access of `n` bytes at offset `off` of a window, from a module and its partition: the status of the
first that fails. The window's range is its whole range. -/
def windowCheck (s : State) (m part win off n : Nat) (isWrite : Bool) : Option Nat :=
  let p := rd s R.LNK_WIN_CFG_PARTITION win 0
  let o := rd s R.LNK_WIN_BASE_BASE win 0 * 65536 + off
  if !rdB s R.LNK_WIN_CFG_VALID win 0 || decide (rd s R.LNK_WIN_SIZE_SIZE win 0 * 65536 < off + n) then some 0x0F
  else if decide (rd s R.LNK_WIN_SRC_SRC_MODULES win 0 / 2 ^ m % 2 = 0) || decide (part ≠ rd s R.LNK_WIN_CFG_SRC_PARTITION win 0) ||
      !rdB s R.PRT_CFG_VALID p 0 || decide (partSize s p < (rd s R.LNK_WIN_BASE_BASE win 0 + rd s R.LNK_WIN_SIZE_SIZE win 0) * 65536) then some 0x12
  else if isWrite && (!rdB s R.LNK_WIN_CFG_WRITE win 0 || (List.range n).any (fun i => sealedAt s p (o + i))) then some 0x10
  else none

/-- Pieces of `n` bytes at a partition offset as physical address and length, cut at range boundaries (R269). -/
def offsetPieces (s : State) (p o n : Nat) : List (Nat × Nat) :=
  let first := min n (2 ^ 30 - o % 2 ^ 30)
  ((match partOffset s p o with | some a => [(a, first)] | none => []) ++
    (if first = n then [] else match partOffset s p (o + first) with | some a => [(a, n - first)] | none => []))

/-- Window, offset and partition offset of a message. -/
def msgWindow (m : Msg) : Nat := getBits m.word1 46 6
def msgOffset (m : Msg) : Nat := getBits m.word1 0 46
def msgTarget (s : State) (m : Msg) : Nat := rd s R.LNK_WIN_BASE_BASE (msgWindow m) 0 * 65536 + msgOffset m

/-- REFUSED to a request (R307). -/
def sayRefused (s : State) (l m mtag order status : Nat) : State :=
  answer s l m ⟨10, 1, false, false, 0, 0, order, mtag, BitVec.ofNat 64 status, []⟩

/-- A write or an atomic of a peer is refused: it is a lost guarded write (R151, R307). Its number is not waited for, final writes of its
module that follow it and are held here are discarded with its status, and so is any that arrives before numbers start afresh. -/
def refuseWrite (s : State) (l m : Nat) (msg : Msg) (status : Nat) : State :=
  let s := landedOrder (sayRefused s l m msg.mtag msg.order status) m msg.order
  let s := { s with lnk := { s.lnk with barred :=
    if (SMap.look (fun _ => none) s.lnk.barred m).isSome then s.lnk.barred else SMap.put (fun _ => none) s.lnk.barred m (some (msg.order, status)) } }
  (s.ord.flights.filter (fun (f : Flight) => f.final && decide (f.leg = Leg.heldAtPort) && decide (f.src = Src.peer m) &&
    (match f.order with | some o => !seqLe o msg.order | none => false))).foldl (fun s f => discardFinal s f status) s

/-- Put a peer's write in flight to its home slice; a final write is not held at this end's source (R150). -/
def issuePeer (s : State) (l m : Nat) (msg : Msg) (pa : Nat) (data : List Byte) (last : Bool) (part : Nat) : State :=
  let id := s.ord.nextId
  let s := issue s ⟨0, .peer m, .mem pa, data, msg.poison, false, false, .moving, 0, none, some part, none, some (l, msg.mtag),
    if last then some msg.order else none, none, none, false⟩
  if msg.final && last then setFlight s id (fun f => { f with final := true }) else s

/-- MSG_WRITE (R150, R298, R307). -/
def execMsgWrite (l : LinkIx) (s : State) : Res :=
  match takeMsg s l false (fun m => decide (m.type = 1)) with
  | none => .next s
  | some (msg, s) =>
    let m := linkPeer s l
    let s := meetOrder s m m msg.order
    match windowCheck s m msg.partition (msgWindow msg) (msgOffset msg) msg.data.length true with
    | some st => .next (refuseWrite s l m msg st)
    | none =>
      let p := rd s R.LNK_WIN_CFG_PARTITION (msgWindow msg) 0
      let ps := offsetPieces s p (msgTarget s msg) msg.data.length
      .next (ps.zipIdx.foldl (fun (acc : State × List Byte) x =>
        (issuePeer acc.1 l m msg x.1.1 (acc.2.take x.1.2) (decide (x.2 + 1 = ps.length)) p, acc.2.drop x.1.2)) (s, msg.data)).1

/-- Writes of a peer that arrived earlier and have not landed in bytes [pa, pa + n): the ingress applies one link's messages in
order (R305). -/
def peerBusy (s : State) (m pa n : Nat) : Bool :=
  s.ord.flights.any (fun f => decide (f.src = Src.peer m) && (match f.dst with
    | .mem a => decide (a / 8 * 8 < pa + n ∧ pa / 8 * 8 < a + f.data.length)
    | _ => false))

/-- MSG_READ (R286, R298, R307): served at the home slices; sealed ranges read as zeros; poison found is recorded (R397). -/
def execMsgRead (l : LinkIx) (s : State) : Res :=
  match takeMsg s l false (fun m => decide (m.type = 2)) with
  | none => .next s
  | some (msg, t) =>
    let m := linkPeer s l
    let n := msg.order
    match windowCheck t m msg.partition (msgWindow msg) (msgOffset msg) n false with
    | some st => .next (sayRefused t l m msg.mtag 0 st)
    | none =>
      let p := rd s R.LNK_WIN_CFG_PARTITION (msgWindow msg) 0
      let ps := offsetPieces s p (msgTarget s msg) n
      if ps.any (fun x => memWaits s x.1 x.2 || peerBusy s m x.1 x.2) then .next s
      else
        let t := ps.foldl (fun t x => sliceRd t (.peer (Fin.ofNat 32 m)) none none x.1 x.2) t
        let bytes := ps.flatMap (fun x => hideSealed t x.1 (cohRead t x.1 x.2).1)
        let at_ := (ps.findSome? (fun x => cohPoisonAt t x.1 x.2)).filter (fun a => !sealedPa t a)
        let t := match at_ with | some a => poisonFound t 5 l 1 a | none => t
        .next (answer t l m ⟨3, 1, false, at_.isSome, 0, 0, 0, msg.mtag, 0, bytes⟩)

/-- MSG_ATOMIC (R217, R298, R307). -/
def execMsgAtomic (l : LinkIx) (s : State) : Res :=
  match takeMsg s l false (fun m => decide (m.type = 4)) with
  | none => .next s
  | some (msg, t) =>
    let m := linkPeer s l
    let t := meetOrder t m m msg.order
    let off := msgOffset msg / 8 * 8
    match windowCheck t m msg.partition (msgWindow msg) off 8 true with
    | some st => .next (refuseWrite t l m msg st)
    | none =>
      match partOffset s (rd s R.LNK_WIN_CFG_PARTITION (msgWindow msg) 0) (msgTarget s msg / 8 * 8) with
      | none => .next t
      | some pa =>
        if memWaits s pa 8 || peerBusy s m pa 8 then .next s
        else
          let op := match getBits msg.word1 52 3 with | 1 => AtomicOp.addI64 | 2 => .addF64 | 3 => .swap | _ => .cas
          let word := fun (i : Nat) => BitVec.ofNat 64 (leNat ((msg.data.drop (8 * i)).take 8))
          let (t, old, bad) := sliceAtom t (.peer (Fin.ofNat 32 m)) none none pa op (word 0) (word 1) msg.poison
          .next (answer (landedOrder t m msg.order) l m ⟨5, 1, false, bad, 0, 0, msg.order, msg.mtag, 0, leBytes 8 old.toNat⟩)

/-! ### Responses -/

/-- The request that a response answers. -/
def remoteOf (s : State) (m tag : Nat) : Option Remote :=
  s.lnk.remote.find? (fun r => decide (r.mtag = tag ∧ r.module = m))

/-- A request is answered. -/
def dropRemote (s : State) (r : Remote) : State :=
  { s with lnk := { s.lnk with remote := s.lnk.remote.filter (fun x => decide (x ≠ r)) } }

/-- Data reach a sequencer register; a poisoned word is consumption (R395). -/
def remoteLoaded (s : State) (r : Remote) (msg : Msg) : State :=
  let v := BitVec.ofNat 64 (leNat (msg.data.take 8))
  let s := onCore s r.core (fun x => { x with loaded := v })
  match msg.poison, r.ring with
  | true, some w => consumePoison s w none none
  | _, _ => s

/-- MSG_READ_DATA (R298): a load's value reaches its sequencer; a remote copy's data are written on, under the number of the copy (R148,
R157, R394), once the walk for their destination can be made. -/
def execMsgReadData (l : LinkIx) (s : State) : Res :=
  match takeMsg s l false (fun m => decide (m.type = 3)) with
  | none => .next s
  | some (msg, t) =>
    match remoteOf t (linkPeer s l) msg.mtag with
    | none => .next t
    | some r =>
      let t := dropRemote t r
      match r.va, r.ring with
      | some va, some w =>
        if accessWaits s (some r.core) (ringPart s w) va r.len false then .next s
        else .next (markFrom (issueVirtual t (.core r.core) w (ringPart s w) va (msg.data.take r.len) msg.poison false (some r.core))
          t.ord.nextId (fun f => { f with op := some r.id }))
      | some _, none => .next t
      | none, _ => .next (remoteLoaded t r msg)

/-- MSG_ATOMIC_DATA (R298). -/
def execMsgAtomicData (l : LinkIx) (s : State) : Res :=
  match takeMsg s l false (fun m => decide (m.type = 5)) with
  | none => .next s
  | some (msg, s) =>
    match remoteOf s (linkPeer s l) msg.mtag with
    | none => .next s
    | some r => .next (remoteLoaded (dropRemote s r) r msg)

/-- MSG_WRITE_ACK (R298): the write, or the tile whose header, has its MTAG, and as many writes before it, by ORDER, as bits [31:16] of
word 1 say (log entry 11). -/
def execMsgWriteAck (l : LinkIx) (s : State) : Res :=
  match takeMsg s l false (fun m => decide (m.type = 6)) with
  | none => .next s
  | some (msg, s) =>
    let m := linkPeer s l
    let n := getBits msg.word1 16 16
    .next { s with lnk := { s.lnk with remote := s.lnk.remote.filter (fun r =>
      !(decide (r.module = m) &&
        ((decide (r.kind = 1 ∨ r.kind = 7) && decide (r.mtag = msg.mtag)) ||
         (decide (r.kind = 1) && decide ((msg.order + 65536 - r.order) % 65536 ≤ n ∧ n ≠ 0))))) } }

/-- The request that a peer refused, as final writes that guard it see it (R151). -/
def refusedMsg (r : Remote) : Msg :=
  ⟨r.kind, 0, false, false, 0, r.core, r.order, r.mtag, if r.kind = 7 then BitVec.ofNat 64 r.off else 0, []⟩

/-- MSG_REFUSED (R151, R307): the source command ends failed with the status; DETAIL holds the offset and the window. A refused write,
atomic or tile is a lost guarded write: final writes that guard it and have not been sent are discarded, and numbers to the peer
start afresh (log entry 120). -/
def execMsgRefused (l : LinkIx) (s : State) : Res :=
  match takeMsg s l false (fun m => decide (m.type = 10)) with
  | none => .next s
  | some (msg, s) =>
    match remoteOf s (linkPeer s l) msg.mtag with
    | none => .next s
    | some r =>
      let s := dropRemote s r
      let st := getBits msg.word1 0 16 % 64
      let m := linkPeer s l
      let s := match r.ring with
        | none => s
        | some w => failCmd s w st (if r.kind = 7 then 0 else r.off + r.window * 2 ^ 46)
      .next (if r.kind = 2 then s else dropGuards (if r.kind = 7 then s else askBreak s m) m (refusedMsg r) st)

/-! ### Tiles and credits across a link (R117, R120, R298) -/

/-- A tile image from its body and header (R117): rows, scales and statistics by the header's sizes. -/
def imageOf (src m slot parts : Nat) (body : List Byte) (header : List W64) : TileImage :=
  let row := (hCols header * fmtBits (hFmt header) + 7) / 8
  let rows := (List.range (hRows header)).map (fun i => (body.drop (i * row)).take row)
  let rest := body.drop (hRows header * row)
  let n := if hScaled header then 32 else 0
  let total := getBits (header.getD 2 0) 32 32
  ⟨header, rows, rest.take n, if hStats header then (rest.drop n).take (total - hRows header * row - n) else [], src, m, slot, 0, 0, parts⟩

/-- Numbers of a tile image whose header has number `o` are not waited for: its `parts` and the header itself. -/
def passTile (s : State) (key o parts : Nat) : State :=
  (List.range (parts + 1)).foldl (fun s k => landedOrder s key ((o + 65536 - parts + k) % 65536)) s

/-- MSG_TILE (R117, R121, R123, R149): parts of a tile image gather in order; its header ends it, and the body and the header go to
the core as writes of the sending core, under the numbers of its messages. -/
def execMsgTile (l : LinkIx) (s : State) : Res :=
  match takeMsg s l false (fun m => decide (m.type = 7)) with
  | none => .next s
  | some (msg, s) =>
    let m := linkPeer s l
    let core := getBits msg.word1 0 9
    let slot := getBits msg.word1 9 4
    let key := pairKey m msg.srcCore core
    let s := meetOrder s m key msg.order
    let mine := fun (t : TileIn) => decide (t.module = m ∧ t.srcCore = msg.srcCore ∧ t.core = core ∧ t.slot = slot)
    let old := (s.lnk.tiles.find? mine).getD ⟨m, msg.srcCore, core, slot, [], false, 0⟩
    let rest := s.lnk.tiles.filter (fun t => !mine t)
    if !msg.final then
      .next { s with lnk := { s.lnk with tiles := rest ++ [{ old with bytes := old.bytes ++ msg.data, poison := old.poison || msg.poison,
                                                                       count := old.count + 1 }] } }
    else
      let s := { s with lnk := { s.lnk with tiles := rest } }
      if !coreUsable s core then .next (returnCredit (passTile s key msg.order old.count) core slot 2 1 m msg.srcCore msg.mtag)
      else
        let h := (List.range 4).map (fun i => BitVec.ofNat 64 (leNat ((msg.data.drop (8 * i)).take 8)))
        let h := if old.poison || msg.poison then setBits (h.getD 0 0) 8 1 1 :: h.drop 1 else h
        let img := imageOf msg.srcCore m slot old.count old.bytes h
        let f (fin : Bool) : Flight :=
          { flightOf (.peerCore m msg.srcCore) (.tile core img) [] (hPoison h) fin none none none with
            mtag := some ((l : Nat), msg.mtag), order := some msg.order }
        .next (issue (issue s (f false)) (f true))

/-- MSG_CREDIT (R120, R123, R300): an end-to-end credit goes on to the core that it is for, from the row of the link's router; a closed or
stray one ends the wait for the header that it refuses. -/
def execMsgCredit (l : LinkIx) (s : State) : Res :=
  match takeMsg s l true (fun m => decide (m.type = 8)) with
  | none => .next s
  | some (msg, s) =>
    let kind := (msg.data.getD 0 0).toNat
    let n := (msg.data.getD 1 0).toNat
    let m := linkPeer s l
    .next { s with
      ord := { s.ord with credits := s.ord.credits ++
        [⟨getBits msg.word1 0 9, targetKey m msg.srcCore (getBits msg.word1 9 4), kind, n, linkRow l⟩] }
      lnk := { s.lnk with remote :=
        if kind < 2 then s.lnk.remote else s.lnk.remote.filter (fun r => !decide (r.module = m ∧ r.kind = 7 ∧ r.mtag = msg.mtag)) } }

/-! ### Gangs (R158, R262, R315) -/

/-- Rings of a gang that count module m among their members. -/
def gangRings (s : State) (gang m : Nat) : List Nat :=
  (List.range 64).filter (fun w => rdB s R.SEQ_RQ_CFG_GANG_EN w 0 && decide (rd s R.SEQ_RQ_CFG_GANG w 0 = gang) &&
    decide (rd s R.SEQ_RQ_GANG_MODULES w 0 / 2 ^ m % 2 = 1))

/-- GANG (R158, R259, R262, R315): a member holds its next kernel, has ended this one, asks for pre-emption, was reset, or can resume. -/
def execGang (l : LinkIx) (s : State) : Res :=
  match takeControl s l 8 with
  | none => .next s
  | some (msg, s) =>
    let m := linkPeer s l
    let id := leNat ((msg.data.drop 4).take 4)
    let n := leNat ((msg.data.drop 8).take 8)
    let ready (k : Nat) (r : Ring) : Ring := { r with gangReady := (r.gangReady.filter (fun g => decide (g.1 ≠ m))) ++ [(m, k, id)] }
    .next ((gangRings s (msg.data.getD 1 0).toNat m).foldl (fun s w =>
      match (msg.data.getD 0 0).toNat with
      | 0 => onRing s w (ready (2 * n))
      | 4 => onRing s w (ready (2 * n + 1))
      | 1 => onRing s w (fun r => { r with gangEnded := r.gangEnded ++ [m] })
      | 2 => requestPreempt s w false
      | 3 => failCmd s w 0x01 0
      | _ => s) s)

/-! ### The domain and the windows (R302, R318, R319) -/

def domainRegs : List Nat :=
  [R.LNK_DOMAIN_MODULE.at 0 0, R.LNK_TIME_SYNC_US.at 0 0] ++
    (List.range 32).flatMap (fun n => (List.range 4).map (fun k => R.LNK_ALLOW_HASH.at n k))

/-- DOMAIN_COMMIT (R302, R318, R319): refused for a cause, or applied; the domain size decides whether memory final writes are
tracked (R150), and links to an identity that the allow list drops go DOWN. -/
def execDomainCommit (s : State) : Res :=
  let g := rdS s
  let n := g R.LNK_DOMAIN_MODULES 0 0
  let us_ := g R.LNK_TIME_SYNC_US 0 0
  let ms := g R.LNK_TIME_RETRY_MS 0 0
  let bad1 := decide (n = 0 ∨ 32 < n) || decide (n ≤ g R.LNK_DOMAIN_MODULE 0 0) || decide (n ≤ g R.LNK_DOMAIN_TIME_MASTER 0 0) ||
    decide (us_ < 16 ∨ 1000 < us_) || decide (ms < 10 ∨ 60000 < ms)
  let moved := decide (g R.LNK_DOMAIN_DOMAIN_ID 0 0 ≠ rd s R.LNK_DOMAIN_DOMAIN_ID 0 0) ||
    decide (g R.LNK_DOMAIN_MODULE 0 0 ≠ myModule s) || decide (n ≠ rd s R.LNK_DOMAIN_MODULES 0 0)
  let bad2 := moved && linkIxs.any (fun l => decide (linkState s l ≠ 0 ∧ linkState s l ≠ 6))
  if bad1 || bad2 then
    let s := if rdB s R.LNK_DOMAIN_STATUS_REJECTED 0 0 then s else wr s R.LNK_DOMAIN_STATUS_CAUSE 0 0 (if bad1 then 1 else 2)
    .next (wr s R.LNK_DOMAIN_STATUS_REJECTED 0 0 1)
  else
    let dropped := (allowList (rd s)).filter (fun h => !decide (h ∈ allowList g))
    let retimed := decide (g R.LNK_DOMAIN_TIME_MASTER 0 0 ≠ rd s R.LNK_DOMAIN_TIME_MASTER 0 0) || moved
    let s := commitRegs s domainRegs
    let s := wrB (wr s R.PRT_ORDER_STATUS_DOMAIN_MODULES 0 0 n) R.PRT_ORDER_STATUS_MEM_TRACK 0 0 (decide (n ≤ 8))
    let s := if retimed then
        wr { s with lnk := { s.lnk with sync := none, good := 0 } } R.LNK_TIME_STATUS_STATE 0 0 0 else s
    .next (linkIxs.foldl (fun s l =>
      if decide (linkState s l = 4 ∨ linkState s l = 5) && decide ((linkAt s l).peerId ∈ dropped) then linkDown s l 7 else s) s)

def windowRegs : List Nat :=
  (List.range 64).flatMap (fun w => [R.LNK_WIN_CFG_VALID.at w 0, R.LNK_WIN_SRC_SRC_MODULES.at w 0, R.LNK_WIN_BASE_BASE.at w 0,
    R.LNK_WIN_SIZE_SIZE.at w 0])

/-- WINDOW_COMMIT (R319). -/
def execWindowCommit (s : State) : Res :=
  let g := rdS s
  let bad := fun (w : Nat) => decide (g R.LNK_WIN_CFG_VALID w 0 = 1) &&
    (!rdB s R.PRT_CFG_VALID (g R.LNK_WIN_CFG_PARTITION w 0) 0 ||
      decide (partSize s (g R.LNK_WIN_CFG_PARTITION w 0) < (g R.LNK_WIN_BASE_BASE w 0 + g R.LNK_WIN_SIZE_SIZE w 0) * 65536))
  match (List.range 64).find? bad with
  | some w => .next (wr (wr s R.LNK_WIN_STATUS_REJECTED 0 0 1) R.LNK_WIN_STATUS_WINDOW 0 0 w)
  | none => .next (commitRegs s windowRegs)

/-! ### Time across a domain (R312, R313, R441) -/

/-- SYNC_EXCHANGE_TIMER (R312): a follower's SYNC_REQ on the lowest-numbered UP link to the master; SYNC_ID travels in MTAG. -/
def execSyncExchangeTimer (s : State) : Res :=
  match (upLinks s (rd s R.LNK_DOMAIN_TIME_MASTER 0 0)).head? with
  | none => .next s
  | some l =>
    if !isFollower s || decide (s.utime < s.lnk.syncAt + us (rd s R.LNK_TIME_SYNC_US 0 0)) then .next s
    else
      let id := s.lnk.syncId
      let t := controlMsg 6 0 []
      let s := enqueue s l { t with msg := { t.msg with mtag := id } }
      .next { s with lnk := { s.lnk with sync := some (id, 0, l), syncId := (id + 1) % 256, syncAt := s.utime } }

/-- SYNC_REQ (R312): the time master answers with t2, and with t3 as the answering frame leaves. -/
def execSyncReq (l : LinkIx) (s : State) : Res :=
  match takeControl s l 6 with
  | none => .next s
  | some (msg, s) =>
    if isFollower s then .next s
    else
      let t := controlMsg 7 0 ((msg.data.drop 16).take 8 ++ List.replicate 8 0)
      .next (enqueue s l { t with msg := { t.msg with mtag := msg.mtag } })

/-- A follower enters ACQUIRING and steps to the master's time (R312, R441). -/
def acquireMaster (s : State) (θ : Int) : State :=
  let lost := decide (rd s R.LNK_TIME_STATUS_STATE 0 0 = 2)
  let s := wr { s with lnk := { s.lnk with good := 0, stepped := true } } R.LNK_TIME_STATUS_STATE 0 0 1
  let s := tscStep s (((tsc s : Int) + θ.fdiv 8) % (2 ^ 64 : Int)).toNat
  if lost then postEvent s none 0x010B 1 0 0 else s

/-- An offset joins LNK_TIME_STATUS; one that its field cannot hold leaves a free value there. -/
def noteOffset (s : State) (θ : Int) : State :=
  if -32768 ≤ θ ∧ θ < 32768 then wr s R.LNK_TIME_STATUS_OFFSET 0 0 (θ % 65536).toNat
  else
    let (x, s) := takeFree s
    wr s R.LNK_TIME_STATUS_OFFSET 0 0 x.toNat

/-- SYNC_RESP (R312, R313): the offset from the four times; the follower steps on entering ACQUIRING, and otherwise steers. -/
def execSyncResp (l : LinkIx) (s : State) : Res :=
  match takeControl s l 7 with
  | none => .next s
  | some (msg, s) =>
    match s.lnk.sync with
    | none => .next s
    | some (id, t1, k) =>
      if id ≠ msg.mtag ∨ k ≠ (l : Nat) ∨ isFollower s = false then .next s
      else
        let t (i : Nat) : Int := leNat ((msg.data.drop (8 * i)).take 8)
        let θ : Int := ((t 0 - (t1 : Int)) - (t 2 - t 1)).fdiv 2
        let s := noteOffset { s with lnk := { s.lnk with sync := none } } θ
        let st := rd s R.LNK_TIME_STATUS_STATE 0 0
        if decide (st = 0 ∨ st = 3) || decide ((24 + Config.largeOffset : Nat) < θ.natAbs) then .next (acquireMaster s θ)
        else
          let good := if θ.natAbs ≤ 24 then s.lnk.good + 1 else 0
          let (r, s) := steerFree s
          let s := { s with lnk := { s.lnk with good := good, steer := r } }
          .next (if st = 1 ∧ 16 ≤ good then wr s R.LNK_TIME_STATUS_STATE 0 0 2 else s)

/-- SYNC_HOLDOVER_TIMEOUT (R313): 10 s in HOLDOVER. -/
def execSyncHoldoverTimeout (s : State) : Res :=
  whenDo (isFollower s && decide (rd s R.LNK_TIME_STATUS_STATE 0 0 = 3) && decide (s.lnk.holdAt + us 10000000 ≤ s.utime)) s
    (wr s R.LNK_TIME_STATUS_STATE 0 0 0)

end Sys2Proof.Machine
end

