-- ==== Sys2Proof/Machine/Reset.lean ====
section
/-!
DEFINITION. Sys2Proof/Machine/Reset.lean: the four reset scopes (R274, R384, R385) and the clearing of memory that imports and
partitions need (R222, R285, R289).
-/
namespace Sys2Proof.Machine

/-! ### Clearing -/

/-- Physical pieces of bytes [o, o + n) of the memory that a list of ranges makes (R269). -/
def piecesOf : List (Nat × Nat) → Nat → Nat → List (Nat × Nat)
  | [], _, _ => []
  | (b, g) :: t, o, n =>
    if n = 0 then []
    else if o < g * 2 ^ 30 then
      let k := min n (g * 2 ^ 30 - o)
      (b * 2 ^ 30 + o, k) :: piecesOf t 0 (n - k)
    else piecesOf t (o - g * 2 ^ 30) n

/-- Zeros without marks over physical pieces (R222). -/
def clearPieces (s : State) (ps : List (Nat × Nat)) : State :=
  { s with mem := ps.foldl (fun m p => memClear m p.1 p.2) s.mem }

/-- Zeros over bytes [o, o + n) of partition p's memory. -/
def clearPart (s : State) (p o n : Nat) : State := clearPieces s (piecesOf (partRanges s p) o n)

/-! ### Imports (R285) -/

def importOf (s : State) (p : Nat) : Option Import := SMap.look (fun _ => none) s.tru.imports p

def setImport (s : State) (p : Nat) (i : Option Import) : State :=
  { s with tru := { s.tru with imports := SMap.put (fun _ => none) s.tru.imports p i } }

/-- An import fails with a code from 5 to 12: its target is being cleared (R285). -/
def failImport (s : State) (p code : Nat) : State :=
  wr (wr s R.SEC_IMP_STATUS_RESULT p 0 code) R.SEC_IMP_STATUS_STATE p 0 3

/-- A reset or a halt interrupts an import that verifies or decrypts (R285 code 12). -/
def abortImport (s : State) (p : Nat) : State :=
  if rd s R.SEC_IMP_STATUS_STATE p 0 = 1 ∨ rd s R.SEC_IMP_STATUS_STATE p 0 = 2 then failImport s p 12 else s

/-- The target of a failed import is clear: the range is ordinary memory holding zeros (R285). -/
def endClear (s : State) (p : Nat) : State :=
  match importOf s p with
  | some i => wr (setImport (clearPart s p i.dst (i.units * 65536)) p none) R.SEC_IMP_STATUS_STATE p 0 0
  | none => wr s R.SEC_IMP_STATUS_STATE p 0 0

/-- A sealed entry is free. -/
def freeSeal (s : State) (p e : Nat) : State :=
  let s := wr (wr (wr (wr s R.SEC_SEAL_BASE_VALID p e 0) R.SEC_SEAL_BASE_BASE p e 0) R.SEC_SEAL_SIZE_UNITS p e 0) R.SEC_SEAL_ID_CONTENT_ID p e 0
  { s with tru := { s.tru with hashes := SMap.put (fun _ => []) s.tru.hashes (p * 16 + e) [] } }

/-! ### What resets discard -/

/-- A final write is held (R150, R151). -/
def heldFinal (f : Flight) : Bool :=
  f.final && (decide (f.leg = .heldAtSource) || decide (f.leg = .heldAtPort) || decide (f.leg = .returned))

/-- Discard the held final writes that a predicate selects (R151). -/
def discardFinals (s : State) (mine : Flight → Bool) : State :=
  { s with ord := { s.ord with flights := s.ord.flights.filter (fun f => !(heldFinal f && mine f)) } }

/-- Waiting KV operations of rings are dropped, and their responses to peers' and host reads are no longer awaited. -/
def dropWork (s : State) (rings : List Nat) : State :=
  let mine : Option Nat → Bool := fun w => match w with | some w => decide (w ∈ rings) | none => false
  { s with
    kv := { s.kv with ops := s.kv.ops.filter (fun o => !decide (o.ring ∈ rings)) }
    lnk := { s.lnk with remote := s.lnk.remote.filter (fun r => !mine r.ring) }
    ord := { s.ord with reads := s.ord.reads.filter (fun r => !mine r.ring) } }

/-! ### Partition reset (R274) -/

/-- A compute reset runs. -/
def computeBusy (s : State) : Bool := rdB s R.BOOT_RESET_STATUS_BUSY 0 0 && s.boot.coreReset.isNone

/-- A partition reset starts; while one of the partition or a compute reset runs, a request has no effect (R385). -/
def partitionReset (s : State) (p : Nat) : State :=
  if rd s R.PRT_STATUS_STATE p 0 ≠ 1 ∨ computeBusy s = true then s
  else
    let rings := ringsOf s p
    let cores := partCores s p
    let s := wr (wr s R.PRT_STATUS_STATE p 0 2) R.BOOT_RESET_STATUS_LAST_SCOPE 0 0 3
    let s := dropWork (resetCommands s rings 1 1) rings
    let s := discardFinals s (fun f => decide (f.part = some p) || (match dstCore f.dst with | some c => decide (c ∈ cores) | none => false))
    let s := cores.foldl resetCore s
    abortImport (clearGuards { s with tru := { s.tru with halted := s.tru.halted.filter (· ≠ p) } } p) p

/-- KV writes of a partition that have not landed. -/
def kvFlying (s : State) (p : Nat) : Bool :=
  s.ord.flights.any (fun f => decide (f.part = some p) && (match f.src with | .kpu _ => true | _ => false))

/-- The journals of a partition's KV regions are replayed (R196, R274). -/
def replayPartition (s : State) (p : Nat) : State :=
  (List.range 64).foldl (fun s r => if decide ((kvGeo s r).part = p) && (kvGeo s r).valid then replayRegion s r (fun _ => true) else s) s

/-- The reset of a core that a partition reset covers ends with it (R385). -/
def absorbCore (s : State) (p : Nat) : State :=
  match s.boot.coreReset with
  | some c => if inMask s R.PRT_CORE_CORES p c then wr { s with boot := { s.boot with coreReset := none } } R.BOOT_RESET_STATUS_BUSY 0 0 0 else s
  | none => s

/-- What STOP_INTERFACE asks beyond the reset: the partition's ranges are zeros, its sealed entries are free and the interface
is unlocked (R289). -/
def endStop (s : State) (p : Nat) : State :=
  if s.tru.stopping.any (fun q => decide (q = p)) then
    let s := clearPart s p 0 (partSize s p)
    let s := (List.range 16).foldl (fun s e => freeSeal s p e) s
    let s := { s with tru := { s.tru with stopping := s.tru.stopping.filter (· ≠ p) } }
    emit (wr s R.PRT_STATUS_TDI_STATE p 0 0) (.response (fnOfPart p) "STOP_INTERFACE_RESPONSE" [])
  else s

/-- A partition reset completes: its journals are replayed, and the target of an interrupted import is clear (R274, R289,
R293). -/
def finishPartition (s : State) (p : Nat) : State :=
  let s := replayPartition s p
  let s := if rd s R.SEC_IMP_STATUS_STATE p 0 = 3 then endClear s p else s
  endStop (absorbCore (wr s R.PRT_STATUS_STATE p 0 1) p) p

/-- PARTITION_RESET (R274): the software request. -/
def execPartitionReset (p : PartIx) (s : State) : Res := .next (partitionReset s p)

/-- PARTITION_RESET_DONE (R274). -/
def execPartitionResetDone (p : PartIx) (s : State) : Res :=
  whenDo (decide (rd s R.PRT_STATUS_STATE p 0 = 2) && !computeBusy s && !kvFlying s p) s (finishPartition s p)

/-! ### Compute and core reset (R384) -/

/-- The module is operational: stage 9 has been reached (R373, R385). -/
def operational (s : State) : Bool := decide (rd s R.BOOT_STATE_STATE 0 0 = 1)

/-- A register of a core window that is not a harp good mask. -/
def windowReg (k : Nat) : Bool :=
  decide (0x1000000 ≤ k ∧ k < 0x1000000 + 288 * 0x10000) && !(decide (k % 0x10000 < 0x4000 ∧ k % 0x800 = 8))

/-- A core after a compute reset: it is OFF and nothing is left in it but the guard set; a test or procedure under way has
ended, and the core's test is due (R385, R421). -/
def Core.afterCompute (x : Core) (t : Nat) : Core := { Core.fresh with guards := x.guards, idleSince := t }

/-- What a compute reset does beside ending commands (R384): every core goes OFF and afresh, with its window's registers,
harps, scratchpad and credits; held final writes, caches of the DTU and waiting KV operations are discarded; a test or procedure
under way has ended and is due at once (R423). -/
def computeWork (s : State) : State :=
  let s := discardFinals s (fun _ => true)
  let tested := coreIxs.filter (fun c => (coreAt s c).testing || (coreAt s c).proc.isSome)
  let s := { s with
    cores := s.cores.map (fun e => (e.1, e.2.afterCompute s.utime))
    harps := []
    spd := ⟨[], [], []⟩
    regs := SMap.keep (fun k => !windowReg k) s.regs
    shadow := SMap.keep (fun k => !windowReg k) s.shadow
    ord := { s.ord with credits := [], reads := s.ord.reads.filter (fun r => decide (r.kind ≠ 0)) }
    ms := { s.ms with tlb := [], walks := [] }
    kv := { s.kv with ops := [] }
    tru := { s.tru with halted := [] }
    obs := { s.obs with spwpRange := [], stallRun := [] }
    ras := { s.ras with testDue := SMap.putAll (fun _ => 0) s.ras.testDue (tested.map (fun c => (c, s.utime)))
                        running := s.ras.running.filter (fun r => decide (r.1 ≠ 5)) } }
  let s := tested.foldl (fun s c => wr s R.RAS_FIT_CORE_DUE c 0 1) s
  coreIxs.foldl (fun s c => setPower s c .off) s

/-- KV page units are to replay (R196). -/
def startReplay (s : State) : State :=
  (List.range 12).foldl (fun s u => if rdB s R.KPU_UNIT_STATUS_FITTED u 0 then wr s R.KPU_UNIT_STATUS_STATE u 0 2 else s) s

/-- A compute reset starts; it absorbs narrower resets that run, and has no effect before stage 9 or while one runs (R385). -/
def computeReset (s : State) : State :=
  if !operational s || computeBusy s then s
  else
    let s := { s with boot := { s.boot with coreReset := none } }
    let s := wr (wr s R.BOOT_RESET_STATUS_BUSY 0 0 1) R.BOOT_RESET_STATUS_LAST_SCOPE 0 0 1
    let s := addSat s R.BOOT_RESET_STATUS_COMPUTE_RESETS 0 0 1
    let s := dropWork (resetCommands s ringIxs 1 1) ringIxs
    (List.range 16).foldl abortImport (startReplay (computeWork s))

/-- The reset of one core starts; no effect before stage 9, while a compute or core reset runs, or while a reset of the core's
partition covers it (R385). -/
def coreReset (s : State) (c : Nat) : State :=
  let covered := match coreOwner s c with | some p => decide (rd s R.PRT_STATUS_STATE p 0 = 2) | none => false
  if !operational s || rdB s R.BOOT_RESET_STATUS_BUSY 0 0 || covered then s
  else
    let rings := ringIxs.filter (fun w => rdB s R.SEQ_RQ_CFG_VALID w 0 && decide (c ∈ ringCores s w))
    let s := wr (wr s R.BOOT_RESET_STATUS_BUSY 0 0 1) R.BOOT_RESET_STATUS_LAST_SCOPE 0 0 2
    let s := { s with boot := { s.boot with coreReset := some c } }
    resetCore (dropWork (resetCommands s rings 1 1) rings) c

/-- COMPUTE_RESET_DONE (R384, R385): a compute reset ends once the KV page units have replayed, with the partition resets that it
absorbed; a core reset ends unless its partition's reset covers it. -/
def execComputeResetDone (s : State) : Res :=
  if !rdB s R.BOOT_RESET_STATUS_BUSY 0 0 then .next s
  else match s.boot.coreReset with
    | some c =>
      let covered := match coreOwner s c with | some p => decide (rd s R.PRT_STATUS_STATE p 0 = 2) | none => false
      whenDo (!covered) s (wr { s with boot := { s.boot with coreReset := none } } R.BOOT_RESET_STATUS_BUSY 0 0 0)
    | none =>
      let replayed := (List.range 12).all (fun u => decide (rd s R.KPU_UNIT_STATUS_STATE u 0 ≠ 2))
      let s' := wr s R.BOOT_RESET_STATUS_BUSY 0 0 0
      whenDo replayed s ((List.range 16).foldl (fun s p => if rd s R.PRT_STATUS_STATE p 0 = 2 then finishPartition s p else s) s')

/-! ### Module reset (R384) -/

/-- Links that are UP say GOODBYE (R314, R384). -/
def sayGoodbye (s : State) : State :=
  linkIxs.foldl (fun s l =>
    if linkState s l = 4 then putFrame s l ⟨(linkAt s l).txSeq, [], none, [controlMsg 9 0 []], (linkAt s l).owed, none, 1⟩ false else s) s

/-- What a module finds in its flash after a reset: the stored boot request, the rollback counter and whether the image last
verified (BOOT_NEXT, SEC_SVN, PEX_MBX_STATUS). -/
def readFlash (s : State) : State :=
  let next := BitVec.ofNat 64 s.flash.next
  let s := setShadow (setReg s (R.BOOT_NEXT_TEST.at 0 0) next) (R.BOOT_NEXT_TEST.at 0 0) next
  let s := wr s R.SEC_SVN_COUNTER 0 0 s.flash.rollback
  wrB s R.PEX_MBX_STATUS_IMAGE_VALID 0 0 s.flash.valid

/-- A module reset: everything but the flash starts afresh, and bring-up begins at stage 0; the levels of the pins and of the
input are the platform's. -/
def moduleReset (s : State) : State :=
  let s := sayGoodbye s
  let phy := { Phys.fresh with perst := s.phy.perst, shut := s.phy.shut, tripped := s.phy.tripped }
  readFlash { State.reset with pending := s.pending, free := s.free, out := s.out, flash := s.flash, phy := phy }

/-- BOOT_RESET_MODULE (R384). -/
def execBootResetModule (s : State) : Res := .next (moduleReset s)

/-- BOOT_RESET_COMPUTE (R384). -/
def execBootResetCompute (s : State) : Res := .next (computeReset s)

/-- BOOT_RESET_CORE (R384). -/
def execBootResetCore (c : CoreIx) (s : State) : Res := .next (coreReset s c)

end Sys2Proof.Machine
end

