-- ==== Sys2Proof/Machine/Power.lean ====
section
/-!
DEFINITION. Sys2Proof/Machine/Power.lean: the input and the rails, power states, deep sleep, clocks, the current, power and
thermal limiters, phase hints and the galliard stagger (R338 to R364, R393).
-/
namespace Sys2Proof.Machine

/-! ### The flash event log (R365, R393, R398) -/

/-- Append a record to the flash event log; a full log of 16 MiB loses its oldest 64 KiB block. -/
def flashAppend (s : State) (words : List W64) : State :=
  let old := if 262144 ≤ s.flash.events.length then s.flash.events.drop 1024 else s.flash.events
  { s with flash := { s.flash with events := old ++ [words] } }

/-- A trip's record, which only the flash holds. -/
def flashTrip (s : State) (e : ErrInfo) : State :=
  let w := errWords e (tsc s) (rd s R.RAS_ERR_STATUS_WRITTEN 0 0)
  flashAppend s (w.take 1 ++ [setBits (w.getD 1 0) 41 1 1] ++ w.drop 2)

/-! ### Input (R338) -/

/-- The regulators shut down: a loss of power (R338). -/
def shutDown (s : State) (why : Nat) : State :=
  let s := moduleReset (if s.phy.shut = 0 then emit s (.pin "PWR_GOOD" false) else s)
  { s with phy := { s.phy with shut := why } }

/-- INPUT_VOLTAGE_CHANGE (R338, R446, R459): the input has settled at a voltage, in hundredths of a volt, for 10 µs. -/
def execInputVoltageChange (centivolts : Nat) (s : State) : Res :=
  if centivolts < 3000 then
    let s := if s.phy.tripped then emit s (.pin "THERM_TRIP#" true) else s
    .next (shutDown { s with phy := { s.phy with tripped := false } } 1)
  else if 4200 < centivolts then .next (shutDown s (max 1 s.phy.shut))
  else if s.phy.shut = 2 then .next s
  else
    let s := if s.phy.shut = 1 then emit { s with phy := { s.phy with shut := 0 } } (.pin "PWR_GOOD" true) else s
    let band := if centivolts < 3200 then 1 else if 4000 < centivolts then 2 else 0
    let old := s.pwr.inputBand
    let s := wr s R.PWR_STATUS_INPUT_DV 0 0 (centivolts / 10)
    let okAt := if centivolts < 3250 then none else match s.pwr.inputOkAt with | some t => some t | none => some s.utime
    let s := { s with pwr := { s.pwr with inputBand := band, inputOkAt := okAt, inputHeld := s.pwr.inputHeld || decide (band = 1) } }
    if band = old then .next s
    else .next (postEvent s none 0x0110 (centivolts / 10) (if band = 0 then 0 else 1) 0)

/-- REGULATOR_FAULT (R338, R393). -/
def execRegulatorFault (rail : Fin 12) (code : W64) (s : State) : Res :=
  .next (shutDown (flashTrip s ⟨0x0210, 4, 9, 0, none, none, none, none, rail, code.toNat⟩) 2)

/-! ### Clocks (R345 to R349) -/

def isoActive (s : State) : Bool := rdB s R.PRT_ISO_STATUS_ACTIVE 0 0

/-- The cap that power sets: the limiter's, and in isolation mode no more than ISO_MHZ (R347, R357). -/
def powerCap (s : State) : Nat := if isoActive s then min (rd s R.CLK_CTL_ISO_MHZ 0 0) s.pwr.capPower else s.pwr.capPower

/-- A region's telemetry is lost and not yet made good (R353). -/
def telemetryLost (s : State) : Bool := (List.range 8).any (fun k => rdB s R.PWR_REGION_STAT_TELEMETRY_LOST k 0)

/-- The caps of R347 in the table's order, with their CAP_SOURCE codes. -/
def clockCaps (s : State) : List (Nat × Nat) :=
  [(3, rd s R.CLK_CTL_MAX_MHZ 0 0), (1, powerCap s), (2, s.pwr.capTherm), (4, if telemetryLost s then 1200 else 1800)]

def lowestCap (s : State) : Nat := (clockCaps s).foldl (fun m e => min m e.2) 1800

/-- Follow the caps: the point being slewed to and the cap that governs, which is none before the PLL first locks (R347). -/
def updClock (s : State) : State :=
  if !rdB s R.CLK_STATUS_LOCKED 0 0 && decide (rd s R.CLK_STATUS_TARGET_MHZ 0 0 = 0) then wr s R.CLK_STATUS_CAP_SOURCE 0 0 0
  else
    let m := lowestCap s
    let s := wr s R.CLK_STATUS_TARGET_MHZ 0 0 m
    let src := (((clockCaps s).find? (fun e => decide (e.2 = m))).map (fun e => e.1)).getD 0
    wr s R.CLK_STATUS_CAP_SOURCE 0 0 (if rd s R.CLK_STATUS_ARITH_MHZ 0 0 = 1800 then 0 else src)

/-- CLOCK_STEP_DONE (R346): the clock has moved one operating point towards its target. -/
def execClockStepDone (s : State) : Res :=
  let now := rd s R.CLK_STATUS_ARITH_MHZ 0 0
  let tgt := rd s R.CLK_STATUS_TARGET_MHZ 0 0
  if !rdB s R.CLK_STATUS_LOCKED 0 0 || decide (now = tgt) then .next s
  else .next (updClock (wr s R.CLK_STATUS_ARITH_MHZ 0 0 (if now < tgt then now + 100 else now - 100)))

/-! ### Core power states (R342) -/

/-- A core has nothing to issue and nothing in flight. -/
def coreQuiet (s : State) (c : Nat) : Bool :=
  let x := coreAt s c
  (!x.running || x.ended || x.stopped) && harpIxs.all (fun h =>
    let hp := harpAt s c h
    hp.queue.isEmpty && hp.next.isNone && hp.active.isNone && hp.due.isEmpty && hp.drain.isNone && hp.epi.isNone && hp.out.isNone) &&
  coreDone s c s.ord.nextId && x.acquiring.isNone && x.invalidating.isNone && x.fenceAt.isNone && x.polyLoad.isNone && !x.clearing &&
  !x.testing && x.trace.isEmpty

/-- A job is resident on a core (R257). -/
def jobOn (s : State) (c : Nat) : Bool := ringIxs.any (fun w => isResident s w && inMask s R.SEQ_RQ_CORES_CORES w c)

/-- CORE_GATE (R342): nothing to do for 16 cycles. -/
def execCoreGate (c : CoreIx) (s : State) : Res :=
  whenDo (decide ((coreAt s c).power = .running) && coreQuiet s c) s (onCore (setPower s c .gated) c (fun x => { x with idleSince := s.utime }))

/-- CORE_SLEEP (R342): CORE_SLEEP_US in GATED, with a resident job; 0 never. -/
def execCoreSleep (c : CoreIx) (s : State) : Res :=
  let t := rd s R.PWR_LIMIT_CORE_SLEEP_US 0 0
  whenDo (decide ((coreAt s c).power = .gated) && coreQuiet s c && jobOn s c && decide (t ≠ 0 ∧ (coreAt s c).idleSince + us t ≤ s.utime)) s
    (setPower s c .sleep)

/-- A core loses power: nothing of it is kept but what the always-on domain knows of it (R342, R426). -/
def coreOff (s : State) (c : Nat) : State :=
  let mine (k : Nat) : Bool := windowReg k && decide ((k - 0x1000000) / 0x10000 = c)
  let x := coreAt s c
  let s := { s with
    regs := SMap.keep (fun k => !mine k) s.regs
    shadow := SMap.keep (fun k => !mine k) s.shadow
    harps := SMap.keep (fun k => decide (k / 8 ≠ c)) s.harps
    spd := spdClear s.spd c }
  setPower (setCore s c { x.afterCompute s.utime with suspect := x.suspect, proc := x.proc }) c .off

/-- CORE_OFF (R342): no job is resident on the core, or the core is not usable. -/
def execCoreOff (c : CoreIx) (s : State) : Res :=
  let on := decide ((coreAt s c).power = .gated ∨ (coreAt s c).power = .sleep)
  whenDo (on && coreQuiet s c && (!jobOn s c || !coreUsable s c)) s (coreOff s c)

/-- A core is awake; its harps have taken no K step for 256 cycles (R342, R359). -/
def coreWoken (s : State) (c : Nat) : State :=
  let s := onCore (setPower s c .running) c (fun x => { x with idleSince := s.utime })
  harpIxs.foldl (fun s h => onHarp s c h (fun x => { x with gated := true, asking := false })) s

/-- CORE_WAKE_DONE (R342): while the die sleeps its cores stay as they are. -/
def execCoreWakeDone (c : CoreIx) (s : State) : Res :=
  whenDo (decide ((coreAt s c).power = .waking) && !dieSleeps s && coreUsable s c) s (coreWoken s c)

/-! ### Deep sleep (R343, R344) -/

/-- A rail's sensor calibration is due: every 24 h (R411), first 24 h after power-up (DESIGN CHOICE, log entry 142). -/
def calibrationDue (s : State) (k : Nat) : Bool :=
  decide (SMap.look (fun _ => 0) s.ras.calibratedAt k + 86400000000000 ≤ s.utime)

/-- A channel is in service, and its retrain is due (R209). -/
def channelDue (s : State) (k ch : Nat) : Bool :=
  decide (2 ≤ rd s R.MEM_STACK_STATUS_STATE k 0 ∧ k * 8 + ch ∉ s.ms.failedCh) && retrainDue s k ch

/-- A core's test is due (R401). -/
def testDue (s : State) (c : Nat) : Bool :=
  rdB s R.RAS_FIT_CORE_DUE c 0 ||
  (rdB s R.RAS_FIT_CFG_ENABLE 0 0 && decide (SMap.look (fun _ => 0) s.ras.testDue c ≤ s.utime) && coreUsable s c)

/-- Maintenance that runs, waits or is due, but for patrol scrub (R343, R411). -/
def maintBusy (s : State) : Bool :=
  !(liveMaint s).isEmpty || !s.ms.repairDue.isEmpty || !s.ms.retraining.isEmpty || s.ras.waits.any (fun w => decide (w.act ≠ 1)) ||
  coreIxs.any (testDue s) || (List.range 8).any (calibrationDue s) ||
  (List.range 12).any (fun k => (List.range 8).any (channelDue s k))

/-- No command has been taken and not yet ended, and none waits for its record (R343). -/
def noCommands (s : State) : Bool :=
  s.sch.hold.isEmpty && ringIxs.all (fun w => (ringAt s w).cmd.isNone && (ringAt s w).taken.isEmpty && (ringAt s w).owed.isEmpty)

/-- Domains of the die that deep sleep switches off: memory PHYs, network segments, coherence-cache halves (R341). -/
def sleepDomains : List Nat := (List.range 12).map (· + 312) ++ (List.range 18).map (· + 327)

/-- No dirty line waits for a port that is down: in a slice, or in a write-back buffer (R219). -/
def mayEmpty (s : State) : Bool :=
  s.ms.lines.all (fun e => !e.2.dirty || mediumUp s e.1) && s.ms.wbHeld.isEmpty

/-- DEEP_SLEEP_ENTRY (R219, R343): slices write back and empty, the stacks refresh themselves, the network and the PLL stop; cores of
resident jobs sleep and the others are OFF. -/
def execDeepSleepEntry (s : State) : Res :=
  let t := rd s R.PWR_LIMIT_DEEP_IDLE_MS 0 0
  if !(decide (rd s R.PWR_STATUS_DIE_STATE 0 0 = 1) && decide (t ≠ 0 ∧ s.pwr.idleAt + t * 1000000 ≤ s.utime) && noCommands s &&
      s.kv.ops.isEmpty && !maintBusy s && mayEmpty s && coreIxs.all (coreQuiet s)) then .next s
  else
    let s := s.ms.lines.foldl (fun s e => evict s e.1 e.2) s
    let s := coreIxs.foldl (fun s c =>
      match (coreAt s c).power with
      | .off => s
      | _ => if jobOn s c && coreUsable s c then setPower s c .sleep else coreOff s c) s
    let s := sleepDomains.foldl (fun s d => setPwrDomain s d 0) s
    let s := wr (wr s R.CLK_STATUS_LOCKED 0 0 0) R.CLK_STATUS_ARITH_MHZ 0 0 0
    .next (wr (updClock s) R.PWR_STATUS_DIE_STATE 0 0 2)

/-- A cause ends deep sleep (R344). -/
def wakeDie (s : State) : State :=
  if rd s R.PWR_STATUS_DIE_STATE 0 0 = 2 then
    let s := sleepDomains.foldl (fun s d => if d < 324 ∧ rdB s R.MEM_STACK_STATUS_FITTED (d - 312) 0 = false then s else setPwrDomain s d 1) s
    notIdle (wr s R.PWR_STATUS_DIE_STATE 0 0 3)
  else s

/-- DEEP_SLEEP_WAKE (R344). -/
def execDeepSleepWake (cause : WakeCause) (s : State) : Res :=
  match cause with
  | .pcie => .next (wakeDie s)
  | .ranior => .next (wakeDie s)
  | .poll => .next (wakeDie s)
  | .maintenance => .next (wakeDie s)

/-- A channel has come through the retraining of a wake, or fails it and is retrained fully, which its accesses wait for
(R208 to R210, R344). -/
def wakeChannel (failing : List (Nat × Nat)) (s : State) (k ch : Nat) : State :=
  if k * 8 + ch ∈ s.ms.failedCh ∨ k * 8 + ch ∈ s.ms.retraining then s
  else if (k, ch) ∈ failing then
    let s := { s with ms := { s.ms with retraining := s.ms.retraining ++ [k * 8 + ch],
                                        fullTries := SMap.put (fun _ => 0) s.ms.fullTries (k * 8 + ch) 1 } }
    updStack (wr s R.MEM_STACK_STATUS_TRAINING k 0 (setBit (rd s R.MEM_STACK_STATUS_TRAINING k 0) ch true)) k
  else trained s k ch

/-- DEEP_SLEEP_WAKE_DONE (R344): the die is awake; its slices are empty, its channels are retrained, and held requests proceed. -/
def execDeepSleepWakeDone (s : State) (failing : List (Nat × Nat) := []) : Res :=
  if rd s R.PWR_STATUS_DIE_STATE 0 0 ≠ 3 then .next s
  else
    let s := sleepDomains.foldl (fun s d => if pwrDomain s d = 1 then setPwrDomain s d 2 else s) s
    let s := ((List.range 12).filter (fun k => decide (2 ≤ rd s R.MEM_STACK_STATUS_STATE k 0))).foldl
      (fun s k => (List.range 8).foldl (fun s ch => wakeChannel failing s k ch) s) s
    let s := wr (wr s R.CLK_STATUS_LOCKED 0 0 1) R.CLK_STATUS_ARITH_MHZ 0 0 (rd s R.CLK_STATUS_TARGET_MHZ 0 0)
    .next (notIdle (wr (updClock s) R.PWR_STATUS_DIE_STATE 0 0 1))

/-! ### Rails (R339, R340) -/

/-- A region's pre-charge is in force (R358, R363). -/
def preInForce (s : State) (k : Nat) : Bool :=
  heavyIn s k && !s.pwr.clamp && ((regionAt s k).pre || decide (rd s R.PWR_REGION_LIM_PRECHARGE_MV k 0 = 0))

/-- Cores of a rail region. -/
def railCores (k : Nat) : List Nat := (List.range 36).map (· + 36 * k)

/-- Settings of a core by the floor plan. -/
def voffOf (s : State) (c : Nat) : Nat := rd s R.BOOT_FP_CORE_VOFF c 0
def derateOf (s : State) (c : Nat) : Nat := rd s R.BOOT_FP_CORE_DERATE c 0

/-- Voltage offset in force on a core, in steps of 5 mV: that of the setting under trial, else the floor plan's (R340, R405). -/
def offsetNow (s : State) (c : Nat) : Nat :=
  match (coreAt s c).proc with
  | some p => p.2.2.1
  | none => voffOf s c

/-- Operating voltage in mV at an arithmetic clock in MHz (R346). -/
def operatingMv (mhz : Nat) : Nat :=
  match mhz with
  | 1800 => 720
  | 1700 => 700
  | 1600 => 685
  | 1500 => 670
  | 1400 => 655
  | 1300 => 640
  | 1200 => 625
  | 1100 => 610
  | 1000 => 600
  | _ => 590

/-- A core's rail is not needed: it is OFF. -/
def coreIsOff (s : State) (c : Nat) : Bool := decide ((coreAt s c).power = .off)

/-- Voltage of VCOREk in mV, which PWR_REGION_STAT.RAIL_MV reads (R340). -/
def railMv (s : State) (k : Nat) : Nat :=
  let on := (railCores k).filter (fun c => !coreIsOff s c)
  if on.isEmpty then 0
  else if on.all (fun c => decide ((coreAt s c).power = .sleep)) then 500
  else
    let off := 5 * on.foldl (fun m c => max m (offsetNow s c)) 0
    min 810 (operatingMv (rd s R.CLK_STATUS_ARITH_MHZ 0 0) + off + (if preInForce s k then rd s R.PWR_REGION_LIM_PRECHARGE_MV k 0 else 0))

/-! ### Knowing the current (R350 to R353) -/

/-- Estimated current in mA of activity `x` on `n` of a region's 36 cores, which bear their part of OFFSET (R350; log entry 130). -/
def estMa (r : Region) (x n : Nat) : Nat := ((r.gain * x * 36 + r.offset * n) / (r.fitDen * 36 : Nat)).toNat

/-- A sample of a region's measured current, with its activity current of the same time (R350, R351). -/
def Region.sample (r : Region) (t x y : Nat) : Region :=
  { r with sum := r.sum + y, estSum := r.estSum + estMa r x 36, count := r.count + 1, sampleAt := t,
           pairs := (if 10000 ≤ r.pairs.length then r.pairs.drop 1 else r.pairs) ++ [(x, y)] }

/-- TELEMETRY_SAMPLE (R350): a rail that gives no sample adds none. -/
def execTelemetrySample (rails : List Nat) (inputW : Nat) (s : State) (activity : List Nat := []) : Res :=
  let s := { s with pwr := { s.pwr with inputLast := inputW } }
  .next ((List.range 8).foldl (fun s k => match rails[k]? with
    | some y => setRegion s k ((regionAt s k).sample s.utime (activity.getD k 0) y)
    | none => s) s)

/-- Set or clear a region's calibration fault, with its event (R352). -/
def setFault (s : State) (k : Nat) (on : Bool) : State :=
  let m := rd s R.PWR_STATUS_CALIB_FAULT 0 0
  let s := wr (wrB s R.PWR_REGION_STAT_CALIB_FAULT k 0 on) R.PWR_STATUS_CALIB_FAULT 0 0 (setBit m k on)
  postEvent s none 0x0103 k (if on then 1 else 0) (rd s R.PWR_REGION_STAT_MEAS_A k 0 + rd s R.PWR_REGION_STAT_EST_A k 0 * 65536)

/-- A region's sensors are being calibrated: maintenance activity 6 on its rail (R411). -/
def railCalibrating (s : State) (k : Nat) : Bool := (liveMaint s).any (fun r => decide (r.1 = 6 ∧ r.2.1 = k))

/-- Sum of a figure over pairs of samples. -/
def sumOver (l : List (Nat × Nat)) (f : Int → Int → Int) : Int := l.foldl (fun n e => n + f e.1 e.2) 0

/-- The least-squares fit of measured current `y` on activity `x`: GAIN and OFFSET as numerators over one denominator, which is 0 where
the samples determine none (R351). -/
def leastSquares (l : List (Nat × Nat)) : Int × Int × Int :=
  let n : Int := l.length
  let sx := sumOver l (fun x _ => x)
  let sy := sumOver l (fun _ y => y)
  let sxx := sumOver l (fun x _ => x * x)
  let sxy := sumOver l (fun x y => x * y)
  (n * sxy - sx * sy, sy * sxx - sx * sxy, n * sxx - sx * sx)

/-- A fit is accepted (R351): the RMS residual is at most 5% of the mean measured current, and GAIN lies between 0.7 and 1.4. -/
def fitGood (l : List (Nat × Nat)) (gain offset den : Int) : Bool :=
  let res := sumOver l (fun x y => (den * y - gain * x - offset) * (den * y - gain * x - offset))
  let sy := sumOver l (fun _ y => y)
  decide (0 < den ∧ 400 * l.length * res ≤ sy * sy * den * den ∧ 7 * den ≤ 10 * gain ∧ 10 * gain ≤ 14 * den)

/-- ESTIMATOR_FIT (R351 to R353, R411, R414): an accepted fit replaces the one in use and ends a calibration fault, once telemetry has
returned; one that meets a calibration of the region is skipped and counted. -/
def execEstimatorFit (k : RailIx) (s : State) : Res :=
  if railCalibrating s k then
    .next (if rd s R.RAS_HALT_STATUS_STATE 0 0 ≠ 0 then s else addSat s R.RAS_MAINT_DEFERRALS 7 0 1)
  else
    let r := regionAt s k
    let (gain, offset, den) := leastSquares r.pairs
    let lost := rdB s R.PWR_REGION_STAT_TELEMETRY_LOST k 0
    let back := decide (s.utime < r.sampleAt + us 100)
    if fitGood r.pairs gain offset den = false ∨ (lost && !back) = true then .next s
    else
      let s := setRegion s k { r with badSince := none, gain := gain, offset := offset, fitDen := den.toNat }
      let s := if rdB s R.PWR_REGION_STAT_CALIB_FAULT k 0 then setFault s k false else s
      .next (updClock (wr s R.PWR_REGION_STAT_TELEMETRY_LOST k 0 0))

/-- CALIB_COMPARE (R352): more than 50 ms of differences above 15% of the measurement is a fault; nothing is compared where the
millisecond brought no sample. -/
def execCalibCompare (k : RailIx) (s : State) : Res :=
  let r := regionAt s k
  if r.count = 0 then .next s
  else
    let meas := r.sum / r.count
    let est := r.estSum / r.count
    let s := wr (wr s R.PWR_REGION_STAT_MEAS_A k 0 (min 1023 (meas / 1000))) R.PWR_REGION_STAT_EST_A k 0 (min 1023 (est / 1000))
    let bad := decide (15 * meas < 100 * (max est meas - min est meas))
    let since := match bad, r.badSince with
      | false, _ => none
      | true, some t => some t
      | true, none => some s.utime
    let s := setRegion s k { r with sum := 0, estSum := 0, count := 0, meas := meas, est := est, badSince := since }
    match since with
    | some t => .next (if t + us 50000 < s.utime && !rdB s R.PWR_REGION_STAT_CALIB_FAULT k 0 then setFault s k true else s)
    | none => .next s

/-- TELEMETRY_LOSS_TIMEOUT (R353): no sample for 100 µs. -/
def execTelemetryLossTimeout (k : RailIx) (s : State) : Res :=
  if rdB s R.PWR_REGION_STAT_TELEMETRY_LOST k 0 || decide (s.utime < (regionAt s k).sampleAt + us 100) then .next s
  else
    let s := wr s R.PWR_REGION_STAT_TELEMETRY_LOST k 0 1
    .next (updClock (if rdB s R.PWR_REGION_STAT_CALIB_FAULT k 0 then s else setFault s k true))

/-! ### Limiters (R354 to R357, R362) -/

/-- The factor on a region's estimate as a ratio: 1.25 while its telemetry is lost, r in another calibration fault, else 1
(R352, R353). -/
def estFactor (s : State) (k : Nat) : Nat × Nat :=
  if rdB s R.PWR_REGION_STAT_TELEMETRY_LOST k 0 then (5, 4)
  else if rdB s R.PWR_REGION_STAT_CALIB_FAULT k 0 && decide ((regionAt s k).est < (regionAt s k).meas) then
    ((regionAt s k).meas, (regionAt s k).est)
  else (1, 1)

/-- Duty one lower or one higher, from 1 to 16 (R354). -/
def lowerDuty (d : Nat) : Nat := max 1 (d - 1)
def raiseDuty (d : Nat) : Nat := min 16 (d + 1)

/-- A duty of a partition's cores, by its key. -/
def partDutyOf (s : State) (key : Nat) : Nat := SMap.look (fun _ => 16) s.pwr.partDuty key

def setPartDuty (s : State) (key d : Nat) : State :=
  { s with pwr := { s.pwr with partDuty := SMap.put (fun _ => 16) s.pwr.partDuty key d } }

/-- What averages of activity over 1, 10 and 100 µs on `share` of region k's 36 cores do to a duty: an average of their estimated
current above their share of its limit lowers it, and all below 95% raise it (R277, R354). -/
def windowDuty (s : State) (k share : Nat) (a : Nat × Nat × Nat) (duty : Nat) : Nat :=
  let (n, d) := estFactor s k
  let used (x : Nat) : Nat := estMa (regionAt s k) x share * n * 36
  let limit (amps : Nat) : Nat := amps * 1000 * d * share
  let w := [(used a.1, limit (rd s R.PWR_REGION_LIM_LIM_1US k 0)), (used a.2.1, limit (rd s R.PWR_REGION_LIM_LIM_10US k 0)),
    (used a.2.2, limit (rd s R.PWR_REGION_LIM_LIM_100US k 0))]
  if w.any (fun e => decide (e.2 < e.1)) then lowerDuty duty
  else if w.all (fun e => decide (100 * e.1 < 95 * e.2)) then raiseDuty duty
  else duty

/-- Cores of a partition in a rail region. -/
def coresIn (s : State) (p k : Nat) : Nat := ((partCores s p).filter (fun c => decide (regionOf c = k))).length

/-- CURRENT_WINDOW_EVAL (R277, R354, R357): the averages of the region's estimated current against its limits. In isolation mode each
partition is held by its own current to the share that its cores form of the region, and the region's own duty, which a breach of the
module limit has lowered, only rises (log entry 130). No region's duty rises while the module limit is exceeded at 900 MHz (R356). -/
def execCurrentWindowEval (k : RailIx) (avg1 avg10 avg100 : Nat) (s : State) (parts : List (Nat × Nat × Nat × Nat) := []) : Res :=
  let duty := rd s R.PWR_REGION_STAT_DUTY k 0
  let due := windowDuty s k 36 (avg1, avg10, avg100) duty
  let now := if s.pwr.atFloor then min duty due else due
  if isoActive s then
    let s := wr s R.PWR_REGION_STAT_DUTY k 0 (max duty now)
    .next (((validParts s).filter (fun p => decide (coresIn s p k ≠ 0))).foldl (fun s p =>
      match parts.find? (fun e => decide (e.1 = p)) with
      | some e => setPartDuty s (shareKey p k) (windowDuty s k (coresIn s p k) e.2 (partDutyOf s (shareKey p k)))
      | none => s) s)
  else .next (wr s R.PWR_REGION_STAT_DUTY k 0 now)

/-- The module limit in force (R338, R356). -/
def limitW (s : State) : Nat := if s.pwr.inputHeld then min 1600 (rd s R.PWR_LIMIT_LIMIT_W 0 0) else rd s R.PWR_LIMIT_LIMIT_W 0 0

/-- The power cap falls one operating point, counted; at 900 MHz the region limiters lower their duty instead (R356). -/
def capDown (s : State) (measured : Bool) : State :=
  let cap := powerCap s
  let s := { s with pwr := { s.pwr with below := 0 } }
  if 900 < cap then addSat { s with pwr := { s.pwr with capPower := cap - 100 } } R.PWR_STATUS_LIMIT_STEPS 0 0 1
  else if measured then
    (List.range 8).foldl (fun s k => wr s R.PWR_REGION_STAT_DUTY k 0 (lowerDuty (rd s R.PWR_REGION_STAT_DUTY k 0)))
      { s with pwr := { s.pwr with atFloor := true } }
  else s

/-- A millisecond below 95% of the limit: after ten of them the power cap rises one operating point (R356). -/
def capUp (s : State) : State :=
  if s.pwr.below < 9 then { s with pwr := { s.pwr with below := s.pwr.below + 1 } }
  else { s with pwr := { s.pwr with below := 0, capPower := min 1800 (s.pwr.capPower + 100) } }

/-- The limit holds for a millisecond: the duties may rise again, and below 95% of it the power cap is on its way up (R356). -/
def limitHolds (s : State) (under : Bool) : State :=
  let s := { s with pwr := { s.pwr with atFloor := false } }
  if under then capUp s else { s with pwr := { s.pwr with below := 0 } }

/-- Power in nW that partition p's cores of region k take from the input for an activity current in mA; a calibration fault's factor
applies (R357, R363). -/
def corePowerNw (s : State) (p k x : Nat) : Nat :=
  let (n, d) := estFactor s k
  estMa (regionAt s k) x (coresIn s p k) * n * railMv s k * 10000 / (9 * max 1 d)

/-- ATTRIB_W in nW: a partition's activity currents by region, and the bytes it moved in a millisecond (R357). -/
def attribNw (s : State) (p : Nat) (xs : List Nat) (near cxl link : Nat) : Nat :=
  (List.range 8).foldl (fun n k => n + corePowerNw s p k (xs.getD k 0)) 0 + 28 * near + 48 * cxl + 40 * link

/-- Attribution to a partition in isolation mode (R357), against which its own duty moves. -/
def attribPart (parts : List (Nat × List Nat × Nat × Nat × Nat)) (s : State) (p : Nat) : State :=
  let (xs, near, cxl, link) := ((parts.find? (fun e => decide (e.1 = p))).map (fun e => e.2)).getD ([], 0, 0, 0)
  let nw := attribNw s p xs near cxl link
  let lim := rd s R.PRT_CFG_POWER_W p 0 * 1000000000
  let duty := partDutyOf s (powerKey p)
  let s := wrB (wr s R.PRT_POWER_ATTRIB_W p 0 (min 65535 (nw / 1000000000))) R.PRT_POWER_AT_LIMIT p 0 (decide (lim < nw))
  setPartDuty s (powerKey p) (if lim < nw then lowerDuty duty else if 100 * nw < 95 * lim then raiseDuty duty else duty)

/-- Input power in µW with each hinted region at its LIM_100US in place of its estimate of the last millisecond (R356; log entry 130). -/
def forecastUw (s : State) (avgW : Nat) : Nat :=
  let ks := (List.range 8).filter (heavyIn s)
  let now := ks.foldl (fun n k => n + (regionAt s k).est * railMv s k * 10 / 9) 0
  let full := ks.foldl (fun n k => n + rd s R.PWR_REGION_LIM_LIM_100US k 0 * 1000 * railMv s k * 10 / 9) 0
  avgW * 1000000 + full - now

/-- MODULE_LIMITER_TICK (R338, R356, R357): the 1 ms average of input power against the limit, and outside isolation mode the forecast
of the hinted regions. -/
def execModuleLimiterTick (avgW : Nat) (parts : List (Nat × List Nat × Nat × Nat × Nat)) (s : State) : Res :=
  let s := wr s R.PWR_STATUS_INPUT_W 0 0 (min avgW 4095)
  let s := match s.pwr.inputOkAt with
    | some t => if t + 1000000000 ≤ s.utime then { s with pwr := { s.pwr with inputHeld := false } } else s
    | none => s
  let lim := limitW s
  let beyond := decide (lim < avgW)
  let under := decide (100 * avgW < 95 * lim)
  if isoActive s then
    let s := (validParts s).foldl (attribPart parts) s
    if beyond then .next (updClock (postEvent (wr (capDown s true) R.PWR_STATUS_ISO_BREACH 0 0 1) none 0x0111 avgW 0 0))
    else .next (updClock (limitHolds s under))
  else
    let heavy := (List.range 8).any (heavyIn s) && !s.pwr.clamp
    if beyond then .next (updClock (capDown s true))
    else if heavy && decide (lim * 1000000 < forecastUw s avgW) then
      .next (updClock (capDown { s with pwr := { s.pwr with atFloor := false } } false))
    else .next (updClock (limitHolds s under))

/-! ### Hints, gating and admission (R358 to R361) -/

/-- HINT_LAPSE (R358): hints whose time is over lapse, and a pre-charge that no heavy hint of the region calls for is withdrawn. -/
def execHintLapse (k : RailIx) (s : State) : Res :=
  let s := { s with pwr := { s.pwr with hints := s.pwr.hints.filter (fun h => decide (s.utime < h.till)) } }
  .next (if heavyIn s k then s else setRegion s k { regionAt s k with pre := false })

/-- PRECHARGE_IN_FORCE (R358): the rail has reached its raised voltage. -/
def execPrechargeInForce (k : RailIx) (s : State) : Res :=
  whenDo (heavyIn s k && !s.pwr.clamp) s (setRegion s k { regionAt s k with pre := true })

/-- HARP_GATE (R359): no K step for 256 cycles. -/
def execHarpGate (c : CoreIx) (h : HarpIx) (s : State) : Res :=
  whenDo (coreOn s c && !(harpAt s c h).gated) s (onHarp s c h (fun x => { x with gated := true, asking := false }))

/-- Harps of a region that ask for admission, in the order of R360: harp number, then row, then column. -/
def askingHarps (s : State) (k : Nat) : List (Nat × Nat) :=
  (harpIxs.flatMap (fun h => (List.range 36).map (fun i => (k * 36 + i, h)))).filter (fun e => (harpAt s e.1 e.2).gated && (harpAt s e.1 e.2).asking)

/-- Harps a slot admits where no stagger is in progress (R360, R361). -/
def admitCount (s : State) (k : Nat) : Nat :=
  if !preInForce s k then 18
  else
    match (heavyHints s k).foldl (fun m h => max m h.stagger) 0 with
    | 0 => 18
    | 1 => 36
    | _ => 72

/-- ADMISSION_SLOT (R360, R361). A stagger in progress is the run of slots that admit the harps left asking (DEDUCED, log entry 132). -/
def execAdmissionSlot (k : RailIx) (s : State) : Res :=
  let ask := askingHarps s k
  if ask.isEmpty then .next (setRegion s k { regionAt s k with stagger := none })
  else
    let a := (regionAt s k).stagger.getD (admitCount s k)
    let s := (ask.take a).foldl (fun s e => onHarp s e.1 e.2 (fun x => { x with gated := false, asking := false })) s
    .next (setRegion s k { regionAt s k with stagger := if a < ask.length then some a else none })

/-! ### Temperature (R362, R207) -/

/-- PWR_THERM.STATE: 2 clamped, 1 limiting, 0 normal. -/
def thermState (s : State) : Nat := if s.pwr.clamp then 2 else if s.pwr.capTherm < 1800 then 1 else 0

def setTemps (s : State) (dieC stackC : Nat) : State :=
  wr (wr s R.PWR_THERM_DIE_C 0 0 (min dieC 255)) R.PWR_THERM_STACK_C 0 0 (min stackC 255)

/-- The thermal cap falls to `m`, counted where it is lower (R362). -/
def thermDown (s : State) (m : Nat) : State :=
  if m < s.pwr.capTherm then addSat { s with pwr := { s.pwr with capTherm := m } } R.PWR_THERM_THERM_STEPS 0 0 1 else s

/-- Each fitted stack's own temperature, with its refresh rate (R207). -/
def stackTemps (s : State) (stackCs : List Nat) : State :=
  (List.range 12).foldl (fun s k =>
    let c := stackCs.getD k 0
    if !rdB s R.MEM_STACK_STATUS_FITTED k 0 then s
    else wrB (wr s R.MEM_STACK_STATUS_TEMP k 0 (min c 255)) R.MEM_STACK_STATUS_REFRESH_2X k 0 (decide (85 < c))) s

/-- THERMAL_LIMITER_TICK (R362): every 10 ms, with the hottest of the fitted stacks. -/
def execThermalLimiterTick (dieC : Nat) (stackCs : List Nat) (s : State) : Res :=
  let lim := rd s R.PWR_LIMIT_THERM_LIMIT_C 0 0
  let stackC := (List.range 12).foldl (fun m k => if rdB s R.MEM_STACK_STATUS_FITTED k 0 then max m (stackCs.getD k 0) else m) 0
  let s := stackTemps (setTemps s dieC stackC) stackCs
  let s := if s.pwr.clamp && decide (dieC < 100) then { s with pwr := { s.pwr with clamp := false } } else s
  let s :=
    if lim < dieC then thermDown { s with pwr := { s.pwr with coolSince := none } } (max 900 (s.pwr.capTherm - 100))
    else if lim < dieC + 3 then { s with pwr := { s.pwr with coolSince := none } }
    else match s.pwr.coolSince with
      | none => { s with pwr := { s.pwr with coolSince := some s.utime } }
      | some t =>
        if t + 1000000000 ≤ s.utime && !s.pwr.clamp then
          { s with pwr := { s.pwr with coolSince := some s.utime, capTherm := min 1800 (s.pwr.capTherm + 100) } }
        else s
  let s := wr s R.PWR_THERM_STATE 0 0 (thermState s)
  let hot := decide (95 < stackC)
  let s := if hot && !s.pwr.stackHot then postEvent s none 0x010F 3 (min dieC 255) (min stackC 255) else s
  .next (updClock { s with pwr := { s.pwr with stackHot := hot } })

/-- THERMAL_CLAMP (R362): the die is at 105 °C or above. -/
def execThermalClamp (dieC stackC : Nat) (s : State) : Res :=
  if dieC < 105 ∨ s.pwr.clamp = true then .next s
  else
    let s := thermDown (setTemps s dieC stackC) 900
    let s := { s with pwr := { s.pwr with clamp := true, coolSince := none } }
    let s := (List.range 8).foldl (fun s k => setRegion s k { regionAt s k with pre := false }) s
    let s := wr s R.PWR_THERM_STATE 0 0 2
    .next (updClock (postEvent s none 0x010F 2 (min dieC 255) (min stackC 255)))

/-- THERMAL_TRIP (R362, R393): the record goes to the flash, THERM_TRIP# is asserted, and power is lost. -/
def execThermalTrip (stack : Bool) (tempC : Nat) (s : State) : Res :=
  if tempC < 115 then .next s
  else
    let s := flashTrip s ⟨0x020F, 4, 9, 0, none, none, none, none, tempC, if stack then 1 else 0⟩
    .next (shutDown (emit { s with phy := { s.phy with tripped := true } } (.pin "THERM_TRIP#" false)) 2)

/-! ### Commits (R364) -/

/-- Sum of POWER_W over valid partitions. -/
def powerSum (s : State) : Nat := (validParts s).foldl (fun n p => n + rd s R.PRT_CFG_POWER_W p 0) 0

/-- Values of the power set that a commit would make are in range (R364). -/
def pwrSetOk (s : State) : Bool :=
  let lw := rdS s R.PWR_LIMIT_LIMIT_W 0 0
  let tc := rdS s R.PWR_LIMIT_THERM_LIMIT_C 0 0
  decide (1600 ≤ lw ∧ lw ≤ 2800 ∧ 80 ≤ tc ∧ tc ≤ 100) &&
  (List.range 8).all (fun k =>
    let a := rdS s R.PWR_REGION_LIM_LIM_1US k 0
    let b := rdS s R.PWR_REGION_LIM_LIM_10US k 0
    let c := rdS s R.PWR_REGION_LIM_LIM_100US k 0
    decide (a ≤ 300 ∧ b ≤ a ∧ c ≤ b ∧ 100 ≤ c ∧ rdS s R.PWR_REGION_LIM_PRECHARGE_MV k 0 ≤ 40)) &&
  (!isoActive s || decide (powerSum s + rd s R.PWR_CAPS_RESERVE_W 0 0 ≤ lw))

def pwrRegs : List Nat := R.PWR_LIMIT_LIMIT_W.at 0 0 :: (List.range 8).map (fun k => R.PWR_REGION_LIM_LIM_1US.at k 0)

/-- PWR_COMMIT (R364). -/
def execPwrCommit (s : State) : Res :=
  if pwrSetOk s then .next (updClock (commitRegs s pwrRegs)) else .next (wr s R.PWR_STATUS_REJECTED 0 0 1)

/-- CLK_COMMIT (R364). -/
def execClkCommit (s : State) : Res :=
  let ok (m : Nat) : Bool := decide (900 ≤ m ∧ m ≤ 1800 ∧ m % 100 = 0)
  if ok (rdS s R.CLK_CTL_MAX_MHZ 0 0) && ok (rdS s R.CLK_CTL_ISO_MHZ 0 0) then
    .next (updClock (commitReg s (R.CLK_CTL_MAX_MHZ.at 0 0)))
  else .next (wr s R.CLK_STATUS_REJECTED 0 0 1)

end Sys2Proof.Machine
end

