-- ==== Sys2Proof/Machine/Part.lean ====
section
/-!
DEFINITION. Sys2Proof/Machine/Part.lean: the creation and change of partitions, the range table and isolation mode (R267 to
R278).
-/
namespace Sys2Proof.Machine

/-! ### Partitions (R267 to R273) -/

/-- The registers of a partition's set (R272). -/
def prtRegs (p : Nat) : List Nat :=
  [R.PRT_CFG_VALID.at p 0, R.PRT_RINGS_RQ.at p 0, R.PRT_CQS_CQ.at p 0, R.PRT_REGIONS_REGIONS.at p 0] ++
  (List.range 5).map (fun i => R.PRT_CORE_CORES.at p i) ++ (List.range 4).map (fun i => R.PRT_OWNER_HASH.at p i)

/-- Conditions of R278 in a state, lowest first; 0 where none is broken. -/
def isoCause (s : State) : Nat :=
  let ps := validParts s
  let total (f : Fld) : Nat := ps.foldl (fun n p => n + rd s f p 0) 0
  if masksOverlap (fun p => rd s R.CCH_WAYMASK_WAYS p 0) ps then 1
  else if rd s R.PWR_LIMIT_LIMIT_W 0 0 < powerSum s + rd s R.PWR_CAPS_RESERVE_W 0 0 then 2
  else if 256 < total R.PRT_CFG_MEM_WEIGHT ∨ 256 < total R.PRT_CFG_LINK_WEIGHT then 3
  else if ps.any (fun p => decide (rd s R.PRT_CFG_POWER_W p 0 = 0)) then 4
  else 0

/-- Cores that a partition's shadow names. -/
def shadowCores (s : State) (p : Nat) : List Nat :=
  coreIxs.filter (fun c => decide (rdS s R.PRT_CORE_CORES p (c / 64) / 2 ^ (c % 64) % 2 = 1))

/-- The shadow differs from the committed set in a field. -/
def moved (s : State) (f : Fld) (p i : Nat) : Bool := decide (rdS s f p i ≠ rd s f p i)

/-- A partition has a ring that is neither DISABLED nor STOPPED. -/
def ringsBusy (s : State) (p : Nat) : Bool := (ringsOf s p).any (fun w => decide (2 ≤ ringState s w))

/-- A partition owns a range, a valid ring or a valid KV region. -/
def ownsSomething (s : State) (p : Nat) : Bool :=
  !(partRanges s p).isEmpty || !(ringsOf s p).isEmpty || (List.range 64).any (fun r => (kvGeo s r).valid && decide ((kvGeo s r).part = p))

/-- Cause for which a partition commit is refused, the lowest that holds, 0 for none (R272); cause 6 is held to the isolation mode
last committed (R293). -/
def prtCause (s : State) (p : Nat) : Nat :=
  let sh (f : Fld) : Nat := rdS s f p 0
  let others := (validParts s).filter (· ≠ p)
  let meets (f : Fld) : Bool := others.any (fun q => decide (sh f &&& rd s f q 0 ≠ 0))
  let owner := (List.range 4).any (fun i => moved s R.PRT_OWNER_HASH p i)
  let cores := (List.range 5).any (fun i => moved s R.PRT_CORE_CORES p i)
  let guarded := cores || moved s R.PRT_RINGS_RQ p 0 || moved s R.PRT_CQS_CQ p 0 || moved s R.PRT_REGIONS_REGIONS p 0 ||
    moved s R.PRT_CFG_SEALED p 0 || moved s R.PRT_CFG_HOST_ACCESS p 0 || owner
  let any := guarded || [R.PRT_CFG_VALID, R.PRT_CFG_HOST_MEM, R.PRT_CFG_MEM_WEIGHT, R.PRT_CFG_LINK_WEIGHT, R.PRT_CFG_POWER_W].any (fun f => moved s f p 0)
  if sh R.PRT_CFG_MEM_WEIGHT = 0 ∨ sh R.PRT_CFG_LINK_WEIGHT = 0 ∨ 2800 < sh R.PRT_CFG_POWER_W ∨ rdS s R.PRT_CORE_CORES p 4 / 2 ^ 32 ≠ 0 then 1
  else if (shadowCores s p).any (fun c => !coreUsable s c || others.any (fun q => inMask s R.PRT_CORE_CORES q c)) then 2
  else if meets R.PRT_RINGS_RQ || meets R.PRT_CQS_CQ || meets R.PRT_REGIONS_REGIONS then 3
  else if (guarded && ringsBusy s p) || (rdB s R.PRT_CFG_VALID p 0 && decide (sh R.PRT_CFG_VALID = 0) && ownsSomething s p) then 4
  else if any && tdiLocked s p then 5
  else if rdB s R.PRT_ISO_ENABLE 0 0 && decide (isoCause (commitRegs s (prtRegs p)) ≠ 0) then 6
  else if sh R.PRT_CFG_SEALED = 1 ∧ (List.range 4).all (fun i => decide (rdS s R.PRT_OWNER_HASH p i = 0)) = true then 7
  else 0

/-- PRT_STATUS.CORES, NEAR_GIB and CXL_GIB. -/
def updPartStatus (s : State) (p : Nat) : State :=
  let gib (near : Bool) : Nat := ((partRanges s p).filter (fun r => decide (r.1 < 16384) == near)).foldl (fun n r => n + r.2) 0
  wr (wr (wr s R.PRT_STATUS_CORES p 0 (partCores s p).length) R.PRT_STATUS_NEAR_GIB p 0 (gib true)) R.PRT_STATUS_CXL_GIB p 0 (gib false)

/-- A partition is created (R268): a fresh memory-key, a clear guard table, an empty debug log and an unlocked interface. -/
def createPart (s : State) (p : Nat) : State :=
  let (key, s) := takeFree s
  let s := clearGuards s p
  let s := { s with tru := { s.tru with
    keys := SMap.put (fun _ => 0) s.tru.keys p key
    logs := SMap.put (fun _ => []) s.tru.logs p []
    logEvAt := SMap.put (fun _ => 0) s.tru.logEvAt p 0 } }
  let s := wr (wr (wr s R.PRT_STATUS_DEBUG_TOUCHED p 0 0) R.SEC_LOG_STATUS_DEBUG_TOUCHED p 0 0) R.SEC_LOG_STATUS_WRITTEN p 0 0
  wr (wr s R.PRT_STATUS_TDI_STATE p 0 0) R.PRT_STATUS_STATE p 0 1

/-- A partition is destroyed (R268, R290). -/
def destroyPart (s : State) (p : Nat) : State :=
  let s := { s with tru := { s.tru with keys := SMap.put (fun _ => 0) s.tru.keys p 0, halted := s.tru.halted.filter (· ≠ p) } }
  wr (wr (wr s R.PRT_STATUS_DEBUG_TOUCHED p 0 0) R.SEC_LOG_STATUS_DEBUG_TOUCHED p 0 0) R.PRT_STATUS_STATE p 0 0

/-- Cores of a partition that exists. -/
def heldCores (s : State) (p : Nat) : List Nat := if rdB s R.PRT_CFG_VALID p 0 then partCores s p else []

/-- PARTITION_COMMIT (R268, R272, R273): refused for the lowest cause; otherwise the partition is created, changed or
destroyed, and cores that it gains or loses are reset. -/
def execPartitionCommit (p : PartIx) (s : State) : Res :=
  let cause := prtCause s p
  if cause ≠ 0 then
    let s := refuse s R.PRT_STATUS_REJECTED R.PRT_STATUS_CAUSE p cause
    .next (if cause = 5 then tdiError s p 1 else s)
  else
    let was := rdB s R.PRT_CFG_VALID p 0
    let old := heldCores s p
    let s := commitRegs s (prtRegs p)
    let now := rdB s R.PRT_CFG_VALID p 0
    let new := heldCores s p
    let s := if now && !was then createPart s p else if was && !now then destroyPart s p else s
    let held := guardSet (rd s) p
    let s := (coreIxs.filter (fun c => decide (c ∈ old) != decide (c ∈ new))).foldl (fun s c =>
      onCore (resetCore s c) c (fun x => { x with guards := if c ∈ new then held else [] })) s
    .next (updPartStatus s p)

/-! ### The range table (R269 to R271) -/

/-- The registers of the range table's set. -/
def rangeRegs : List Nat := (List.range 64).flatMap (fun e => [R.PRT_RANGE_BASE_VALID.at e 0, R.PRT_RANGE_SIZE_GIB.at e 0])

/-- A range-table entry: base and size in GiB, and owner. -/
structure Range where
  valid : Bool
  base : Nat
  gib : Nat
  part : Nat
deriving DecidableEq, Repr

/-- Entries of a view of the range table. -/
def rangesIn (get : Fld → Nat → Nat → Nat) : List Range :=
  (List.range 64).map (fun e => ⟨decide (get R.PRT_RANGE_BASE_VALID e 0 = 1), get R.PRT_RANGE_BASE_BASE e 0, get R.PRT_RANGE_SIZE_GIB e 0,
    get R.PRT_RANGE_SIZE_PARTITION e 0⟩)

def Range.covers (r : Range) (g : Nat) : Bool := r.valid && decide (r.base ≤ g ∧ g < r.base + r.gib)

/-- Owner of a GiB in a table. -/
def ownerIn (rs : List Range) (g : Nat) : Option Nat := (rs.find? (fun r => r.covers g)).map (fun r => r.part)

/-- The range [b, b + n) of GiB reaches into no absent range: it lies in near memory, in one port's range, or in both ports' where
port 0 holds all of its 8,192 GiB (R211). -/
def rangePresent (s : State) (b n : Nat) : Bool :=
  let cap (k : Nat) : Nat := rd s R.CXL_PORT_CAP_GIB k 0
  decide (b + n ≤ nu s * 128) || decide (16384 ≤ b ∧ b + n ≤ 16384 + cap 0) || decide (24576 ≤ b ∧ b + n ≤ 24576 + cap 1) ||
  decide (cap 0 = 8192 ∧ 16384 ≤ b ∧ b + n ≤ 24576 + cap 1)

/-- GiB that some entry of either table covers and whose owner differs between them. -/
def changedGib (old new : List Range) : List Nat :=
  ((((old ++ new).filter (fun r => r.valid)).flatMap (fun r => (List.range r.gib).map (r.base + ·))).filter
    (fun g => decide (ownerIn old g ≠ ownerIn new g))).dedup

/-- Bytes [pa, pa + n) meet GiB g. -/
def inGib (g pa n : Nat) : Bool := decide (0 < n ∧ pa < (g + 1) * 2 ^ 30 ∧ g * 2 ^ 30 < pa + n)

/-- GiB g holds something that cause 5 of R270 names; a blocked import target counts as a sealed range (R293). -/
def gibUsed (s : State) (g : Nat) : Bool :=
  ringIxs.any (fun w => rdB s R.SEQ_RQ_CFG_VALID w 0 &&
    ((!onHost s w && inGib g (rd s R.SEQ_RQ_BASE_ADDR w 0 * 4096) (ringSlots s w * 128)) ||
     inGib g (rd s R.SEQ_RQ_SAVE_PA w 0 * 65536) ((ringCores s w).length * 0x220000))) ||
  (List.range 64).any (fun r => (kvGeo s r).valid && (kvAreas (kvGeo s r)).any (fun a => inGib g a.1 a.2)) ||
  (validParts s).any (fun p =>
    ((List.range 16).any (fun e => rdB s R.SEC_SEAL_BASE_VALID p e &&
      (piecesOf (partRanges s p) (rd s R.SEC_SEAL_BASE_BASE p e * 65536) (rd s R.SEC_SEAL_SIZE_UNITS p e * 65536)).any (fun a => inGib g a.1 a.2))) ||
    (match importOf s p with
     | some i => (piecesOf (partRanges s p) i.dst (i.units * 65536)).any (fun a => inGib g a.1 a.2)
     | none => false)) ||
  (match ownerOf s (g * 2 ^ 30) with
   | some p => rdB s R.DTU_CTX_ROOT_VALID p 0 && inGib g (rd s R.DTU_CTX_ROOT_ROOT p 0 * 256) 4096
   | none => false)

/-- Lowest entry of either table that covers one of some GiB. -/
def lowestEntry (old new : List Range) (gs : List Nat) : Nat :=
  ((List.range 64).find? (fun e => gs.any (fun g => ((old[e]?).map (fun r => r.covers g)).getD false || ((new[e]?).map (fun r => r.covers g)).getD false))).getD 0

/-- Cause for which a range commit is refused, with the lowest entry concerned; cause 0 for none (R270). -/
def rangeCause (s : State) (old new : List Range) : Nat × Nat :=
  let first (bad : Range → Bool) : Option Nat := (List.range 64).find? (fun e => ((new[e]?).map (fun r => r.valid && bad r)).getD false)
  let overlaps (r : Range) (e : Nat) : Bool := new.zipIdx.any (fun q => decide (q.2 ≠ e) && q.1.valid && decide (q.1.base < r.base + r.gib ∧ r.base < q.1.base + q.1.gib))
  let changed := changedGib old new
  let locked (g : Nat) : Bool := match ownerIn old g with | some p => tdiLocked s p | none => false
  match first (fun r => decide (r.gib = 0)) with
  | some e => (1, e)
  | none => match (List.range 64).find? (fun e => ((new[e]?).map (fun r => r.valid && overlaps r e)).getD false) with
    | some e => (2, e)
    | none => match first (fun r => !rangePresent s r.base r.gib) with
      | some e => (3, e)
      | none => match first (fun r => !rdB s R.PRT_CFG_VALID r.part 0) with
        | some e => (4, e)
        | none =>
          if changed.any (gibUsed s) then (5, lowestEntry old new (changed.filter (gibUsed s)))
          else if changed.any locked then (6, lowestEntry old new (changed.filter locked))
          else (0, 0)

/-- A port whose failed range has wholly changed owner, after a reset that brought it UP (R227). -/
def portFreed (s : State) (old : List Range) (changed : List Nat) (n : Nat) : Bool :=
  decide (n ∈ s.ms.failReset) && portUp s n &&
  (((old.filter (fun r => r.valid)).flatMap (fun r => (List.range r.gib).map (r.base + ·))).filter
    (fun g => decide (placeOf s (g * 2 ^ 30) = .cxl n))).all (fun g => decide (g ∈ changed))

/-- Drop a partition's cached translations and invalidate its context as a write of its root does (R229, R231). -/
def dropContext (s : State) (p : Nat) : State :=
  askInval { s with ms := { s.ms with tlb := s.ms.tlb.filter (fun x => decide (x.ctx ≠ p)) } } 0 p 0 0 true

/-- Apply a commit of the range table (R270, R271): refused for the lowest cause; otherwise what changes owner is to be
cleared before anyone is served, and the context of every partition whose ranges change is invalidated before any access is served
under the new table (R229). -/
def applyRanges (s : State) (cp : List (Nat × W64)) : State :=
  let old := rangesIn (rd s)
  let new := rangesIn (rdIn cp)
  let (cause, entry) := rangeCause s old new
  if cause ≠ 0 then
    let held := rdB s R.PRT_RANGE_STATUS_REJECTED 0 0
    let s := refuse s R.PRT_RANGE_STATUS_REJECTED R.PRT_RANGE_STATUS_CAUSE 0 cause
    let s := if held then s else wr s R.PRT_RANGE_STATUS_ENTRY 0 0 entry
    if cause = 6 then
      ((changedGib old new).filterMap (ownerIn old)).dedup.foldl (fun s p => if tdiLocked s p then tdiError s p 1 else s) s
    else s
  else
    let changed := changedGib old new
    let freed := [0, 1].filter (portFreed s old changed)
    let before := partRanges s
    let s := commitCopy s cp
    let s := { s with ms := { s.ms with
      rangeClear := s.ms.rangeClear ++ changed.map (fun g => (g * 2 ^ 30, 2 ^ 30, match ownerIn new g with | some p => p + 1 | none => 0))
      failReset := s.ms.failReset.map (fun n => if n ∈ freed then n + 2 else n) } }
    let s := ((List.range 16).filter (fun p => decide (partRanges s p ≠ before p))).foldl dropContext s
    let s := wrB s R.PRT_RANGE_STATUS_PENDING 0 0 (!changed.isEmpty)
    (List.range 16).foldl updPartStatus s

/-- RANGE_COMMIT (R270, R271, R386): one written while another is being applied waits with the shadow as it stands. -/
def execRangeCommit (s : State) : Res :=
  let cp := copyShadow s rangeRegs
  if rdB s R.PRT_RANGE_STATUS_PENDING 0 0 then .next { s with tru := { s.tru with rangeWait := s.tru.rangeWait ++ [cp] } }
  else .next (applyRanges s cp)

/-- Range commits that wait are applied in turn until one has something to clear. -/
def drainRanges : Nat → State → State
  | 0, s => s
  | n + 1, s =>
    match rdB s R.PRT_RANGE_STATUS_PENDING 0 0, s.tru.rangeWait with
    | false, cp :: q => drainRanges n (applyRanges { s with tru := { s.tru with rangeWait := q } } cp)
    | _, _ => s

/-- RANGE_CLEAR_DONE (R222, R227, R271): every changed range holds zeros; a range behind a port that is not UP holds it back. -/
def execRangeClearDone (s : State) : Res :=
  let waits := s.ms.rangeClear.any (fun r => match placeOf s r.1 with | .cxl n => !portUp s n | _ => false)
  if !rdB s R.PRT_RANGE_STATUS_PENDING 0 0 || waits then .next s
  else
    let s := clearPieces s (s.ms.rangeClear.map (fun r => (r.1, r.2.1)))
    let ended := [0, 1].filter (fun n => decide (n + 2 ∈ s.ms.failReset))
    let s := ended.foldl (fun s n => wr s R.CXL_PORT_STATUS_FAILED n 0 0) s
    let s := { s with ms := { s.ms with rangeClear := [], failReset := s.ms.failReset.filter (fun n => decide (n < 2)) } }
    let s := wr s R.PRT_RANGE_STATUS_PENDING 0 0 0
    .next (drainRanges s.tru.rangeWait.length s)

/-! ### Isolation mode (R276 to R278) -/

/-- ISO_COMMIT (R278). -/
def execIsoCommit (s : State) : Res :=
  let on := decide (rdS s R.PRT_ISO_ENABLE 0 0 = 1)
  let cause := isoCause s
  if on && decide (cause ≠ 0) then .next (refuse s R.PRT_ISO_STATUS_REJECTED R.PRT_ISO_STATUS_CAUSE 0 cause)
  else
    let s := commitReg s (R.PRT_ISO_ENABLE.at 0 0)
    .next (wrB s R.PRT_ISO_STATUS_PENDING 0 0 (on != isoActive s))

/-- ISO_APPLIED (R276, R357): the mode takes effect; the power cap of isolation mode starts at ISO_MHZ and duties start full. -/
def execIsoApplied (s : State) : Res :=
  if !rdB s R.PRT_ISO_STATUS_PENDING 0 0 then .next s
  else
    let on := rdB s R.PRT_ISO_ENABLE 0 0
    let s := wr (wrB s R.PRT_ISO_STATUS_ACTIVE 0 0 on) R.PRT_ISO_STATUS_PENDING 0 0 0
    let s := { s with pwr := { s.pwr with partDuty := [], below := 0, capPower := if on then 1800 else s.pwr.capPower } }
    let s := if on then s else (List.range 16).foldl (fun s p => wr s R.PRT_POWER_AT_LIMIT p 0 0) s
    .next (updClock s)

end Sys2Proof.Machine
end

