-- ==== Sys2Proof/Machine/Trust.lean ====
section
/-!
DEFINITION. Sys2Proof/Machine/Trust.lean: weight imports and sealed ranges (R284 to R286), the rollback counter (R283), the
SPDM responders and measurements (R282, R287, R288), TDISP and IDE (R289, R328, R329).
-/
namespace Sys2Proof.Machine

/-! ### Imports (R284, R285) -/

/-- Bytes [o, o + n) of partition p's memory with whether any line of them is poisoned; a place beyond the memory gives no
byte. -/
def partRead (s : State) (p o n : Nat) : List Byte × Bool := readPieces s (piecesOf (partRanges s p) o n)

/-- Little-endian value of bytes [a, a + n) of a byte string. -/
def leAt (bs : List Byte) (a n : Nat) : Nat := leNat ((bs.drop a).take n)

/-- Bytes of a bundle before its signature and before its body (R284). -/
def bundleSig (recipients : Nat) : Nat := 128 + 1664 * recipients
def bundleBody (recipients : Nat) : Nat := (bundleSig recipients + 29792 + 63) / 64 * 64

def chunkCount (body : Nat) : Nat := (body + 1048575) / 1048576

/-- BODY_BYTES of a bundle's header. -/
def bodyBytes (head : List Byte) : Nat := leAt head 8 8
def recipientsOf (head : List Byte) : Nat := leAt head 5 1

/-- Check 3 of R285. -/
def sealRangeBad (s : State) (p src dst len units : Nat) : Bool :=
  let size := partSize s p
  decide (size < src + 128 ∨ size < src + len ∨ size < dst + units * 65536 ∨ dst % 65536 ≠ 0) ||
  decide (src < dst + units * 65536 ∧ dst < src + len) ||
  (List.range 16).any (fun e => rdB s R.SEC_SEAL_BASE_VALID p e &&
    (let b := rd s R.SEC_SEAL_BASE_BASE p e * 65536
     decide (b < dst + units * 65536 ∧ dst < b + rd s R.SEC_SEAL_SIZE_UNITS p e * 65536))) ||
  (List.range 16).all (fun e => rdB s R.SEC_SEAL_BASE_VALID p e)

/-- Check 4 of R285: MAGIC, VERSION, reserved fields and the length follow the layout. -/
def sealFormatBad (head entries : List Byte) (len : Nat) : Bool :=
  let n := recipientsOf head
  let body := bodyBytes head
  decide (leAt head 0 4 ≠ 0x4E534231 ∨ leAt head 4 1 ≠ 1 ∨ leAt head 6 2 ≠ 0 ∨ leAt head 20 4 ≠ 0) ||
  decide (n = 0 ∨ 32 < n ∨ body = 0 ∨ len ≠ bundleBody n + body + 16 * chunkCount body) ||
  (List.range n).any (fun r => decide (leAt entries (1664 * r + 1648) 16 ≠ 0))

/-- SEAL_IMPORT_START (R285): checks 2 to 4; once they pass the target is blocked and reads as zeros. -/
def execSealImportStart (p : PartIx) (s : State) : Res :=
  let st := rd s R.SEC_IMP_STATUS_STATE p 0
  if st ≠ 0 ∨ rdB s R.PRT_CFG_VALID p 0 = false then .next s
  else
    let src := rd s R.SEC_IMP_SRC_OFFSET p 0
    let dst := rd s R.SEC_IMP_DST_OFFSET p 0
    let len := rd s R.SEC_IMP_LEN_BYTES p 0
    let ends (c : Nat) : Res := .next (wr s R.SEC_IMP_STATUS_RESULT p 0 c)
    if !rdB s R.PRT_CFG_SEALED p 0 then ends 2
    else
      let head := (partRead s p src 128).1
      let units := (bodyBytes head + 65535) / 65536
      if sealRangeBad s p src dst len units then ends 3
      else if sealFormatBad head (partRead s p (src + 128) (1664 * recipientsOf head)).1 len then ends 4
      else
        let s := clearPart (setImport s p (some ⟨src, dst, len, units, [], [], 0, []⟩)) p dst (units * 65536)
        .next (wr (wr s R.SEC_IMP_STATUS_STATE p 0 1) R.SEC_IMP_STATUS_PROGRESS p 0 0)

/-- Open up to n chunks from number `i` on: the plaintext, or none where a tag fails (R284). -/
def openChunks (key nonce h : List Byte) : Nat → Nat → Nat → List Byte → Option (List Byte)
  | 0, _, _, _ => some []
  | n + 1, i, left, bytes =>
    let k := min left 1048576
    let iv := leBytes 4 i
    match Config.aesGcmOpen key (nonce ++ iv) (h ++ iv) (bytes.take k) ((bytes.drop k).take 16) with
    | none => none
    | some plain => (openChunks key nonce h n (i + 1) (left - k) (bytes.drop (k + 16))).map (plain ++ ·)

/-- What an import's verification finds: the content key and the header hash, or the code of the first check that fails (R285
codes 5 to 9). -/
def importKey (s : State) (p : Nat) (i : Import) : Except Nat (List Byte × List Byte) :=
  let b := (partRead s p i.src i.len).1
  let n := recipientsOf b
  let owner := (List.range 4).flatMap (fun k => leBytes 8 (rd s R.PRT_OWNER_HASH p k))
  let pk := (b.drop 32).take 64
  let h := Config.shake256 32 (b.take (bundleSig n))
  let mine := (List.range n).find? (fun r => decide ((b.drop (128 + 1664 * r)).take 32 = Config.ownId))
  if Config.shake256 32 pk ≠ owner then .error 5
  else if !Config.slhDsaVerify pk (b.take (bundleSig n)) ((b.drop (bundleSig n)).take 29792) then .error 6
  else if rd s R.SEC_SVN_RUNNING 0 0 < leAt b 16 4 then .error 7
  else match mine with
    | none => .error 8
    | some r =>
      let e := b.drop (128 + 1664 * r)
      let kek := Config.shake256 32 (Config.kemDecap ((e.drop 32).take 1568) ++ (b.drop 96).take 32 ++ Config.ownId)
      match Config.aesGcmOpen kek (List.replicate 12 0) h ((e.drop 1600).take 32) ((e.drop 1632).take 16) with
      | none => .error 9
      | some key => .ok (key, h)

/-- Write bytes over physical pieces in order, without marks. -/
def writePieces (s : State) : List (Nat × Nat) → List Byte → State
  | [], _ => s
  | (a, k) :: t, data => writePieces { s with mem := memWrite s.mem a (data.take k) false } t (data.drop k)

/-- Every chunk of an import is open and no word of its bundle is poisoned: the plaintext is in the target behind a sealed entry
(R285). -/
def endImport (s : State) (p : Nat) (i : Import) : State :=
  let e := ((List.range 16).find? (fun e => !rdB s R.SEC_SEAL_BASE_VALID p e)).getD 0
  let id := leAt (partRead s p (i.src + 96) 8).1 0 8
  let s := writePieces s (piecesOf (partRanges s p) i.dst (i.units * 65536)) i.plain
  let s := wr (wr (wr (wr s R.SEC_SEAL_BASE_VALID p e 1) R.SEC_SEAL_BASE_BASE p e (i.dst / 65536)) R.SEC_SEAL_SIZE_UNITS p e i.units) R.SEC_SEAL_ID_CONTENT_ID p e id
  let s := { s with tru := { s.tru with hashes := SMap.put (fun _ => []) s.tru.hashes (p * 16 + e) i.hash } }
  let s := wr (wr (wr s R.SEC_IMP_STATUS_RESULT p 0 1) R.SEC_IMP_STATUS_ENTRY p 0 e) R.SEC_IMP_STATUS_STATE p 0 0
  setImport s p none

/-- Plaintext of the next `n` chunks of an import, or none where a tag fails (R284). -/
def nextChunks (s : State) (p : Nat) (i : Import) (n : Nat) : Option (List Byte) :=
  let b := (partRead s p i.src i.len).1
  openChunks i.key ((b.drop 24).take 8) i.hash (min n (chunkCount (bodyBytes b) - i.opened)) i.opened
    (bodyBytes b - i.opened * 1048576) (b.drop (bundleBody (recipientsOf b) + i.opened * 1048592))

/-- The next `n` chunks of an import open, in order; a tag that fails ends it, and so does, after the last, a poisoned word of its
bundle (R284, R285). -/
def openSome (s : State) (p : Nat) (i : Import) (n : Nat) : State :=
  let (b, bad) := partRead s p i.src i.len
  let all := chunkCount (bodyBytes b)
  let now := min n (all - i.opened)
  match nextChunks s p i n with
  | none => failImport s p 10
  | some plain =>
    let i := { i with opened := i.opened + now, plain := i.plain ++ plain }
    let s := wr (setImport s p (some i)) R.SEC_IMP_STATUS_PROGRESS p 0 (100 * i.opened / max 1 all)
    if i.opened < all then s else if bad then failImport s p 11 else endImport s p i

/-- SEAL_IMPORT_DONE (R285): what the import has come to: its verification is done, and it decrypts or has failed; then `chunks` more
chunks are open, and with the last of them it ends DONE, with the plaintext in the target and a sealed entry, or with a failure
whose clearing starts. -/
def execSealImportDone (p : PartIx) (s : State) (chunks : Nat := 1) : Res :=
  match importOf s p, rd s R.SEC_IMP_STATUS_STATE p 0 with
  | some i, 1 => match importKey s p i with
    | .error code => .next (failImport s p code)
    | .ok (key, h) => .next (wr (setImport s p (some { i with key := key, hash := h })) R.SEC_IMP_STATUS_STATE p 0 2)
  | some i, 2 => .next (openSome s p i chunks)
  | _, _ => .next s

/-- SEAL_CLEAR_DONE (R285). -/
def execSealClearDone (p : PartIx) (s : State) : Res := whenDo (decide (rd s R.SEC_IMP_STATUS_STATE p 0 = 3)) s (endClear s p)

/-- SEAL_UNSEAL (R286). -/
def execSealUnseal (p : PartIx) (e : Fin 16) (s : State) : Res :=
  whenDo (rdB s R.SEC_SEAL_BASE_VALID p e) s
    (freeSeal (clearPart s p (rd s R.SEC_SEAL_BASE_BASE p e * 65536) (rd s R.SEC_SEAL_SIZE_UNITS p e * 65536)) p e)

/-! ### Rollback (R283) -/

/-- ROLLBACK_ADVANCE (R283): a counter that already equals the running image's number stays. -/
def execRollbackAdvance (s : State) : Res :=
  let n := rd s R.SEC_SVN_RUNNING 0 0
  whenDo (!rdB s R.SEC_STATUS_ADVANCE_BUSY 0 0 && decide (rd s R.SEC_SVN_COUNTER 0 0 < n)) s
    (wr { s with boot := { s.boot with advancing := some n } } R.SEC_STATUS_ADVANCE_BUSY 0 0 1)

/-- ROLLBACK_ADVANCE_DONE (R283): the counter never decreases. -/
def execRollbackAdvanceDone (ok : Bool) (s : State) : Res :=
  match s.boot.advancing with
  | none => .next s
  | some n =>
    let s := wr { s with boot := { s.boot with advancing := none } } R.SEC_STATUS_ADVANCE_BUSY 0 0 0
    if ok then .next (wr { s with flash := { s.flash with rollback := n } } R.SEC_SVN_COUNTER 0 0 n)
    else .next (wr s R.SEC_STATUS_ADVANCE_FAILED 0 0 1)

/-! ### SPDM (R282, R287, R288) -/

def spdmOf (s : State) (fn : Nat) : Spdm := SMap.look (fun _ => (⟨false, false, false, 0⟩ : Spdm)) s.tru.spdm fn

def setSpdm (s : State) (fn : Nat) (v : Spdm) : State :=
  { s with tru := { s.tru with spdm := SMap.put (fun _ => (⟨false, false, false, 0⟩ : Spdm)) s.tru.spdm fn v } }

def respond (s : State) (fn : Nat) (name : String) (values : List Nat) : State := emit s (.response fn name values)

/-- An error response. -/
def refuseSpdm (s : State) (fn : Nat) : Res := .next (respond s fn "ERROR" [])

/-- GET_VERSION (R287): SPDM 1.3. -/
def execGetVersion (fn : FnIx) (s : State) : Res :=
  .next (respond (setSpdm s fn ⟨true, false, false, (spdmOf s fn).session⟩) fn "VERSION" [1, 3])

/-- SPDM request codes that the device supports, in the order of R287 (PRESUMED, SPDM 1.3; log entry 128). -/
def spdmCodes : List Nat := [0x84, 0xE1, 0xE3, 0x81, 0x82, 0x83, 0xE0, 0xE4, 0xE5, 0xEC]

/-- GET_CAPABILITIES (R287): the requests that are supported. -/
def execGetCapabilities (fn : FnIx) (s : State) : Res :=
  .next (respond (setSpdm s fn { spdmOf s fn with caps := true }) fn "CAPABILITIES" spdmCodes)

/-- NEGOTIATE_ALGORITHMS (R287): SLH-DSA-SHAKE-256s and ML-KEM-1024 under Uzoalro's identifiers, SHAKE256 for measurements. -/
def execNegotiateAlgorithms (fn : FnIx) (s : State) : Res :=
  .next (respond (setSpdm s fn { spdmOf s fn with algs := true }) fn "ALGORITHMS"
    [Config.slhDsaId, Config.mlKemId, Config.shakeId])

def bytesVals (bs : List Byte) : List Nat := bs.map (fun b => b.toNat)

/-- The chain of slot 0 ends in the attestation key, which exists once it is certified (R281, R287). -/
def akReady (s : State) : Bool := rdB s R.SEC_STATUS_AK_READY 0 0

/-- The certificate chain of slot 0 (R287). -/
def slot0 (s : State) : List Byte := Config.akChain (s.tru.measured.take 5)

/-- GET_DIGESTS (R287): the digest of the chain in slot 0. -/
def execGetDigests (fn : FnIx) (s : State) : Res :=
  if akReady s then .next (respond s fn "DIGESTS" (bytesVals (Config.shake256 64 (slot0 s)))) else refuseSpdm s fn

/-- GET_CERTIFICATE (R287): a part of the chain in slot 0. -/
def execGetCertificate (fn : FnIx) (slot : Nat) (off len : Nat) (s : State) : Res :=
  if slot = 0 ∧ akReady s = true then .next (respond s fn "CERTIFICATE" (bytesVals (((slot0 s).drop off).take len))) else refuseSpdm s fn

/-- A response that needs a signature waits for the security engine (R282); every other answers within its command (DESIGN
CHOICE, log entry 134). -/
def queueSig (s : State) (r : SigReq) : State := { s with tru := { s.tru with signing := s.tru.signing ++ [r] } }

/-- CHALLENGE (R287). -/
def execChallenge (fn : FnIx) (nonce : List Byte) (s : State) : Res :=
  if akReady s then .next (queueSig s ⟨fn, "CHALLENGE_AUTH", nonce, []⟩) else refuseSpdm s fn

/-- Words of registers as bytes. -/
def regBytes (s : State) (offs : List Nat) : List Byte := offs.flatMap (fun o => leBytes 8 (reg s o).toNat)

/-- The runtime floor plan as its registers publish it. -/
def planRegs : List Nat :=
  [R.GLB_ID_DEVICE_CODE.at 0 0, R.GLB_GEOMETRY_GRID_X.at 0 0] ++ (List.range 5).map (fun i => R.GLB_CORE_MAP_USABLE.at i 0) ++
  [R.BOOT_FP_INFO_GRADE.at 0 0, R.BOOT_FP_SERIAL_SERIAL.at 0 0, R.BOOT_FP_LINKS_USABLE.at 0 0, R.BOOT_FP_LINKS_USABLE.at 1 0] ++
  coreIxs.map (fun c => R.BOOT_FP_CORE_HARP_GOOD.at c 0)

/-- What measurement 6 measures (R288). -/
def moduleImage (s : State) : List Byte :=
  regBytes s ([R.PRT_ISO_ENABLE.at 0 0, R.PRT_ISO_STATUS_ACTIVE.at 0 0] ++ rangeRegs ++
    (validParts s).flatMap (fun p => (List.range 5).map (fun i => R.PRT_CORE_CORES.at p i)) ++ planRegs ++ [R.GLB_FP_GEN_GEN.at 0 0])

/-- What measurement 16 + p measures (R288). -/
def partImage (s : State) (p : Nat) : List Byte :=
  regBytes s (prtRegs p) ++ [BitVec.ofNat 8 (rd s R.PRT_STATUS_DEBUG_TOUCHED p 0)] ++ leBytes 4 (rd s R.SEC_LOG_STATUS_WRITTEN p 0) ++
  (List.range 16).flatMap (fun e => SMap.look (fun _ => []) s.tru.hashes (p * 16 + e))

/-- Measurement of an index (R288). -/
def measure (s : State) (i : Nat) : List Byte :=
  if i = 6 then Config.shake256 64 (moduleImage s)
  else if 16 ≤ i then Config.shake256 64 (partImage s (i - 16))
  else s.tru.measured.getD (i - 1) []

/-- Indices that a function's responder reports (R288). -/
def measureIxs (s : State) (fn : Nat) : List Nat :=
  [1, 2, 3, 4, 5, 6] ++ (if fn = 0 then (validParts s).map (16 + ·) else [16 + (fn - 1)])

/-- GET_MEASUREMENTS (R287, R288): one index, or all with index 255; indices 6 and 16 + p are taken now. -/
def execGetMeasurements (fn : FnIx) (index : Nat) (nonce : List Byte) (s : State) : Res :=
  let ixs := if index = 255 then measureIxs s fn else (measureIxs s fn).filter (· = index)
  if ixs.isEmpty || !akReady s then refuseSpdm s fn
  else
    let vals := ixs.flatMap (fun i => i :: bytesVals (measure s i))
    .next (queueSig s ⟨fn, "MEASUREMENTS", nonce ++ vals.map (BitVec.ofNat 8), vals⟩)

/-- KEY_EXCHANGE (R287): a secured session starts; its response is signed. -/
def execKeyExchange (fn : FnIx) (exchange : List Byte) (s : State) : Res :=
  if akReady s then .next (queueSig (setSpdm s fn { spdmOf s fn with session := 1 }) ⟨fn, "KEY_EXCHANGE_RSP", exchange, []⟩) else refuseSpdm s fn

/-- FINISH (R287): whether the peer's proof verifies is a free value. -/
def execFinish (fn : FnIx) (verify : List Byte) (s : State) : Res :=
  if (spdmOf s fn).session ≠ 1 then refuseSpdm s fn
  else
    let (v, s) := takeFree s
    if getBits v 0 1 = 1 then .next (respond (setSpdm s fn { spdmOf s fn with session := 2 }) fn "FINISH_RSP" [verify.length]) else refuseSpdm s fn

/-- END_SESSION (R287). -/
def execEndSession (fn : FnIx) (s : State) : Res :=
  if (spdmOf s fn).session = 0 then refuseSpdm s fn
  else .next (respond (setSpdm s fn { spdmOf s fn with session := 0 }) fn "END_SESSION_ACK" [])

/-- SPDM_SIGNATURE_DONE (R282): signatures are made one at a time, oldest first. -/
def execSpdmSignatureDone (s : State) : Res :=
  match s.tru.signing with
  | [] => .next s
  | r :: t => .next (respond { s with tru := { s.tru with signing := t } } r.fn r.name (r.values ++ bytesVals (Config.sign (s.tru.measured.take 5) r.message)))

/-! ### TDISP (R289, R329) -/

def tdi (s : State) (p : Nat) : Nat := rd s R.PRT_STATUS_TDI_STATE p 0

/-- A TDISP request to a virtual function whose partition is absent is answered with an error. -/
def tdisp (s : State) (p : Nat) (r : State → Res) : Res :=
  if rdB s R.PRT_CFG_VALID p 0 then r s else .next (respond s (fnOfPart p) "TDISP_ERROR" [])

/-- GET_TDISP_VERSION (R329): TDISP 1.0. -/
def execGetTdispVersion (p : PartIx) (s : State) : Res := tdisp s p (fun s => .next (respond s (fnOfPart p) "TDISP_VERSION" [1, 0]))

/-- GET_TDISP_CAPABILITIES (R329). -/
def execGetTdispCapabilities (p : PartIx) (s : State) : Res := tdisp s p (fun s => .next (respond s (fnOfPart p) "TDISP_CAPABILITIES" []))

/-- LOCK_INTERFACE_REQUEST (R289): accepted in CONFIG_UNLOCKED with HOST_ACCESS 0. -/
def execLockInterfaceRequest (p : PartIx) (s : State) : Res :=
  tdisp s p (fun s =>
    if tdi s p = 0 ∧ rdB s R.PRT_CFG_HOST_ACCESS p 0 = false then
      .next (respond (wr s R.PRT_STATUS_TDI_STATE p 0 1) (fnOfPart p) "LOCK_INTERFACE_RESPONSE" [])
    else .next (respond s (fnOfPart p) "TDISP_ERROR" []))

/-- Rings of a partition's masks. -/
def maskRings (s : State) (p : Nat) : List Nat := ringIxs.filter (fun w => decide (rd s R.PRT_RINGS_RQ p 0 / 2 ^ w % 2 = 1))

/-- GET_DEVICE_INTERFACE_REPORT (R292, R329): ranges as base and size: the blocks of BAR0 that the function reaches with its
core windows, the MSI-X table and pending bits, BAR2 up to the partition's memory, and the windows of its rings in BAR4. -/
def execGetDeviceInterfaceReport (p : PartIx) (s : State) : Res :=
  tdisp s p (fun s =>
    let cores := (partCores s p).flatMap (fun c => [0x1000000 + c * 0x10000, 0x10000])
    let rqs := (maskRings s p).flatMap (fun w => [R.SEQ_RQ_BASE_LOC.at w 0, 0x100])
    let cqs := (ringIxs.filter (fun q => decide (rd s R.PRT_CQS_CQ p 0 / 2 ^ q % 2 = 1))).flatMap (fun q => [R.SEQ_CQ_BASE_ADDR.at q 0, 0x40])
    let blocks := [0, 0x40, R.TSC_VALUE_TSC.at 0 0, 8, R.SEQ_CAPS_RQ_RINGS.at 0 0, 8, R.PRT_STATUS_STATE.at p 0, 16,
      R.SEC_DIK_HASH_HASH.at 0 0, 0x48, R.SEC_IMP_SRC_OFFSET.at p 0, 0x58, R.SEC_SEAL_BASE_VALID.at p 0, 0x200]
    let rings := (maskRings s p).flatMap (fun w => [w * 0x100000, 0x100000])
    .next (respond s (fnOfPart p) "DEVICE_INTERFACE_REPORT"
      (blocks ++ rqs ++ cqs ++ cores ++ [0x380000, 0x8000, 0x388000, 0x100, 0, partSize s p] ++ rings)))

/-- GET_DEVICE_INTERFACE_STATE (R329). -/
def execGetDeviceInterfaceState (p : PartIx) (s : State) : Res :=
  tdisp s p (fun s => .next (respond s (fnOfPart p) "DEVICE_INTERFACE_STATE" [tdi s p]))

/-- START_INTERFACE_REQUEST (R329). -/
def execStartInterfaceRequest (p : PartIx) (s : State) : Res :=
  tdisp s p (fun s =>
    if tdi s p = 1 ∧ ideSecure s ((p : Nat) + 2) = true then
      .next (respond (wr s R.PRT_STATUS_TDI_STATE p 0 2) (fnOfPart p) "START_INTERFACE_RESPONSE" [])
    else .next (respond s (fnOfPart p) "TDISP_ERROR" []))

/-- STOP_INTERFACE_REQUEST (R289): a partition reset first; the rest follows at its end. -/
def execStopInterfaceRequest (p : PartIx) (s : State) : Res :=
  tdisp s p (fun s =>
    let s := { s with tru := { s.tru with stopping := s.tru.stopping.filter (· ≠ (p : Nat)) ++ [(p : Nat)] } }
    .next (if computeBusy s then wr s R.PRT_STATUS_STATE p 0 2 else partitionReset s p))

/-! ### IDE (R328) -/

/-- IDE_INTEGRITY_FAILURE (R328): the stream is Insecure; an interface in RUN that it serves moves to ERROR, with a cause that
R289 does not state: a free value. -/
def execIdeIntegrityFailure (stream : Fin 18) (s : State) : Res :=
  if (stream : Nat) ∉ s.hst.ide then .next s
  else
    let s := { s with hst := { s.hst with insecure := s.hst.insecure.filter (· ≠ (stream : Nat)) ++ [(stream : Nat)] } }
    let s := if (stream : Nat) = 0 then wr s R.PEX_LINK_LINK_IDE 0 0 0 else s
    if 2 ≤ (stream : Nat) ∧ tdi s (stream - 2) = 2 then
      let (v, s) := takeFree s
      .next (tdiError s (stream - 2) v.toNat)
    else .next s

/-- IDE_KM_REQUEST (R328): over the function's secured session; activation brings the stream to Secure. -/
def execIdeKmRequest (stream : Fin 18) (activate : Bool) (s : State) : Res :=
  let fn := if (stream : Nat) < 2 then 0 else (stream : Nat) - 1
  if (spdmOf s fn).session ≠ 2 then refuseSpdm s fn
  else if !activate then .next (respond s fn "KP_ACK" [stream])
  else
    let s := { s with hst := { s.hst with
      ide := s.hst.ide.filter (· ≠ (stream : Nat)) ++ [(stream : Nat)], insecure := s.hst.insecure.filter (· ≠ (stream : Nat)) } }
    let s := if (stream : Nat) = 0 then wr s R.PEX_LINK_LINK_IDE 0 0 1 else s
    .next (respond s fn "K_GOSTOP_ACK" [stream])

end Sys2Proof.Machine
end

