-- ==== Sys2Proof/Machine/Ras.lean ====
section
/-!
DEFINITION. Sys2Proof/Machine/Ras.lean: the runtime floor plan and its changes in the field (R32, R371, R406), known-answer tests
and suspect cores (R401 to R406), pas de deux (R407), the maintenance arbiter (R411 to R415), the pavane halt (R416 to R419),
and error records in the flash (R398).
-/
namespace Sys2Proof.Machine

/-! ### The runtime floor plan (R32, R371, R372) -/

/-- Fewest usable cores of a grade (R2): A 272, B 256, C 240. -/
def gradeCores (grade : Nat) : Nat :=
  match grade with
  | 1 => 272
  | 2 => 256
  | _ => 240

/-- Usable cores of the runtime plan. -/
def goodCores (s : State) : List Nat := coreIxs.filter (coreUsable s)

/-- Set a core's derate in its register and in CLK_DERATE (R348, R372). -/
def setDerate (s : State) (c d : Nat) : State :=
  let off := R.CLK_DERATE_DERATE.at (c / 16) 0
  setReg (wr s R.BOOT_FP_CORE_DERATE c 0 d) off (setBits (reg s off) (4 * (c % 16)) 4 d)

/-- Set the good mask of a core's harps. -/
def setHarps (s : State) (c mask : Nat) : State :=
  harpIxs.foldl (fun s h => wr (wr s R.HRP_GOOD_SELF c h (mask / 2 ^ h % 2)) R.HRP_GOOD_CORE_MASK c h mask)
    (wr s R.BOOT_FP_CORE_HARP_GOOD c 0 mask)

/-- Mark a core usable or not. -/
def setUsable (s : State) (c : Nat) (on : Bool) : State :=
  let s := wr s R.GLB_CORE_MAP_USABLE (c / 64) 0 (setBit (rd s R.GLB_CORE_MAP_USABLE (c / 64) 0) (c % 64) on)
  wrB s R.BOOT_FP_CORE_USABLE c 0 on

/-- The counts of GLB_GEOMETRY follow the maps. -/
def setCounts (s : State) : State :=
  let us := goodCores s
  wr (wr s R.GLB_GEOMETRY_CORES_USABLE 0 0 us.length) R.GLB_GEOMETRY_HARPS_USABLE 0 0 (us.foldl (fun n c => n + goodHarps s c) 0)

/-- An entry's change of the plan (R371): it can only raise a value or retire a resource. -/
def applyEntry (s : State) (e : FieldEntry) : State :=
  let c := e.core
  match e.kind with
  | 1 => wr s R.BOOT_FP_CORE_VOFF c 0 (max (rd s R.BOOT_FP_CORE_VOFF c 0) e.value)
  | 2 => setDerate s c (max (rd s R.BOOT_FP_CORE_DERATE c 0) e.value)
  | 3 => setHarps (wr (setUsable s c false) R.BOOT_FP_CORE_RETIRED c 0 1) c 0
  | 4 => setHarps s c (setBit (rd s R.BOOT_FP_CORE_HARP_GOOD c 0) e.harp false)
  | _ => s

/-- ROW of field-log word 2, shifted down to the record's layout (R371, R400). -/
def rowWord (b : BankRow) : Nat := b.stack * 2 ^ 16 + b.channel * 2 ^ 20 + b.dieSel * 2 ^ 23 + b.bank * 2 ^ 24 + b.row * 2 ^ 29

/-- Words 0 to 3 of an entry, as bytes (R371). -/
def entryBytes (e : FieldEntry) : List Byte :=
  leBytes 4 e.seq ++ leBytes 4 e.kind ++ leBytes 8 e.tsc ++
  leBytes 8 (if e.kind = 5 then rowWord e.row else e.core + e.harp * 512 + e.value * 4096) ++ leBytes 8 0

/-- Append an entry to the field log, with its number and its tag (R371). -/
def fieldLog (s : State) (e : FieldEntry) : State :=
  let e := { e with seq := s.flash.log.length }
  { s with flash := { s.flash with log := s.flash.log ++ [{ e with tag := Config.flashTag (entryBytes e) }] } }

/-- An entry of kinds 1 to 4 for a core. -/
def coreEntry (s : State) (kind c harp value : Nat) : FieldEntry := ⟨0, kind, c, harp, value, ⟨0, 0, 0, 0, 0⟩, tsc s, []⟩

/-- A fall below the grade's minimum is reported and logged to the flash (R5, R406). -/
def belowGrade (s : State) (before : Nat) : State :=
  let n := (goodCores s).length
  let m := gradeCores (rd s R.GLB_ID_GRADE 0 0)
  if m ≤ before ∧ n < m then
    postEvent (flashAppend s (eventWords 0x0102 n 0 0 (tsc s))) none 0x0102 n 0 0
  else s

/-- Publish a change made in the field (R32, R372, R406): GEN is odd while the change and its entry are made. -/
def publish (s : State) (e : FieldEntry) : State :=
  let before := (goodCores s).length
  let s := wr s R.GLB_FP_GEN_GEN 0 0 (rd s R.GLB_FP_GEN_GEN 0 0 + 1)
  let s := setCounts (applyEntry (fieldLog s e) e)
  let s := wr s R.BOOT_FP_INFO_LOG_APPLIED 0 0 (rd s R.BOOT_FP_INFO_LOG_APPLIED 0 0 + 1)
  let s := wr s R.GLB_FP_GEN_GEN 0 0 (rd s R.GLB_FP_GEN_GEN 0 0 + 1)
  belowGrade (postEvent s none 0x0104 (rd s R.GLB_FP_GEN_GEN 0 0) 0 0) before

/-! ### Commands that a retirement ends (R27, R406, R410) -/

/-- A command fails for a retired core or harp; a saved one ends with its save area discarded. -/
def failRetired (s : State) (w core : Nat) : State :=
  match (ringAt s w).cmd with
  | none => s
  | some c =>
    if c.phase = .saved then
      let s := onCmd s w (fun c => { (c.cause 0x04 core) with phase := .ended, savedNs := c.savedNs + (s.utime - c.savedAt) })
      wr (onRing s w (fun r => { r with save := [] })) R.SEQ_RQ_STATUS_SAVED w 0 0
    else failCmd s w 0x04 core

/-- The primary whose shadow a core is: its partition is in pas de deux mode (R407). -/
def primaryOf (s : State) (c : Nat) : Option Nat :=
  if 18 ≤ c ∧ shadowOf s (c - 18) = some c then some (c - 18) else none

/-- End the commands on a core, and on the primary of a shadow; `mask` 0 for a core, else the harps retired (R27, R410). -/
def endOnCore (s : State) (c mask : Nat) : State :=
  ringIxs.foldl (fun s w =>
    match (ringAt s w).cmd with
    | none => s
    | some d =>
      if c ∈ d.cores then failRetired s w c
      else match primaryOf s c with
        | some q =>
          if q ∈ d.cores ∧ (mask = 0 ∨ d.entries.any (fun e => decide (entCore e = q ∧ entMask e &&& mask ≠ 0))) then failRetired s w c else s
        | none => s) s

/-- A retired core (R27, R406): its commands end, later commands of the jobs that hold it do too, and it goes OFF. -/
def retireCore (s : State) (c : Nat) : State :=
  let s := endOnCore s c 0
  let s := (ringIxs.filter (fun w => rdB s R.SEQ_RQ_CFG_VALID w 0 && inMask s R.SEQ_RQ_CORES_CORES w c)).foldl (fun s w =>
    onRing s w (fun r => { r with retired := r.retired ++ [c] })) s
  onCore (coreOff s c) c (fun x => { x with suspect := none, proc := none })

/-! ### Known-answer tests and suspect cores (R401 to R406) -/

/-- The first setting that the procedure tries from offset v and derate d, as step, offset and derate (R405). -/
def firstSetting (v d : Nat) : Nat × Nat × Nat :=
  if v < 10 then (1, min (v + 5) 10, d) else if d < 8 then (2, 10, d + 1) else (3, v, d)

/-- The setting after one that failed (R405). -/
def nextSetting (v d step der : Nat) : Nat × Nat × Nat :=
  if step = 1 then (if d < 8 then (2, min (v + 5) 10, d + 1) else (3, v, d))
  else if step = 2 ∧ der < 8 then (2, min (v + 5) 10, der + 1) else (3, v, d)

/-- A procedure or a test ends with RESULT 1 passed or 3 retired: the core may work again, and its scratchpad is cleared (R401,
R404). -/
def endTest (s : State) (c result : Nat) : State :=
  let s := onCore s c (fun x => { x with testing := false, suspect := none, proc := none, clearing := decide (result = 1) && coreOn s c, idleSince := s.utime })
  let s := wr (wr s R.RAS_FIT_CORE_RESULT c 0 result) R.RAS_FIT_CORE_DUE c 0 0
  let s := { s with
    spd := spdClear s.spd c
    ras := { s.ras with
      testDue := SMap.put (fun _ => 0) s.ras.testDue c (s.utime + rd s R.RAS_FIT_CFG_PERIOD_H 0 0 * 3600000000000)
      testedAt := if result = 1 then SMap.put (fun _ => 0) s.ras.testedAt c s.utime else s.ras.testedAt } }
  match coreOwner s c with
  | some p => decideNow s p
  | none => s

/-- A clean run ends the procedure (R405): the settings tried are kept. -/
def adjust (s : State) (c off der : Nat) : State :=
  let v := voffOf s c
  let d := derateOf s c
  let s := if v < off then publish s (coreEntry s 1 c 0 off) else s
  let s := if d < der then publish s (coreEntry s 2 c 0 der) else s
  endTest (logErr s ⟨0x0207, 5, 3, c, coreOwner s c, none, none, none, v + off * 16 + d * 256 + der * 4096, 0⟩) c 1

/-- Step 3 of R405: the harps that failed are retired where nothing else failed, else the core; `cls` is the check class of the
last failing run. -/
def retire (s : State) (c cls : Nat) (onlyHarps : Bool) (harps : Nat) : State :=
  let mask := harps &&& rd s R.BOOT_FP_CORE_HARP_GOOD c 0
  if onlyHarps && decide (mask ≠ 0) then
    let s := (harpIxs.filter (fun h => decide (mask / 2 ^ h % 2 = 1))).foldl (fun s h => publish s (coreEntry s 4 c h 0)) s
    let s := logErr s ⟨0x0208, 3, 3, c, coreOwner s c, none, none, none, mask, 0⟩
    endTest (endOnCore s c mask) c 1
  else
    let from_ := ((coreAt s c).suspect).getD 0
    let s := publish s (coreEntry s 3 c 0 0)
    let s := logErr s ⟨0x0004, 3, 3, c, coreOwner s c, none, none, none, cls % 256 + from_ % 256 * 256, 0⟩
    endTest (retireCore s c) c 3

/-- Go on with a setting, or retire where none is left. -/
def trySetting (s : State) (c : Nat) (next : Nat × Nat × Nat) (cls : Nat) (only : Bool) (harps : Nat) : State :=
  if next.1 = 3 then retire s c cls only harps
  else onCore s c (fun x => { x with proc := some (next.1, 0, next.2.1, next.2.2, only, harps) })

/-- The procedure of a suspect core takes a run (R405): two consecutive passes end it, a failure moves it on. -/
def procRun (s : State) (c : Nat) (p : Nat × Nat × Nat × Nat × Bool × Nat) (run : KatRun) : State :=
  let (step, clean, off, der, only, harps) := p
  if run.pass then
    if clean = 0 then onCore s c (fun x => { x with proc := some (step, 1, off, der, only, harps) }) else adjust s c off der
  else
    trySetting s c (nextSetting (voffOf s c) (derateOf s c) step der) run.cls (only && run.onlyHarps) (harps ||| run.harps)

/-- One run of the known-answer kernels on a core (R378, R401, R404, R405): a test that passes ends; one that fails makes the
core suspect; every run of a core that is suspect belongs to its procedure. -/
def katRun (s : State) (c : Nat) (run : KatRun) : State :=
  let x := coreAt s c
  match x.proc, x.suspect with
  | some p, _ => procRun s c p run
  | none, some _ =>
    let (step, off, der) := firstSetting (voffOf s c) (derateOf s c)
    if step = 3 then retire s c (if run.pass then 0 else run.cls) (!run.pass && run.onlyHarps) run.harps
    else procRun s c (step, 0, off, der, true, 0) run
  | none, none =>
    if run.pass then endTest s c 1
    else
      let s := suspectCore (addSat s R.RAS_FIT_STATUS_FAILS 0 0 1) c run.cls run.harps true
      trySetting s c (firstSetting (voffOf s c) (derateOf s c)) run.cls run.onlyHarps run.harps

/-- Cores tested together with a core: the two of a pair (R408). -/
def testedWith (s : State) (c : Nat) : List Nat :=
  match shadowOf s c, primaryOf s c with
  | some d, _ => [c, d]
  | none, some q => [q, c]
  | none, none => [c]

/-- The resident job on a core. -/
def jobOf (s : State) (c : Nat) : Option Nat := ringIxs.find? (fun w => isResident s w && inMask s R.SEQ_RQ_CORES_CORES w c)

/-- A core falls due. -/
def markDue (s : State) (c : Nat) : State := wr s R.RAS_FIT_CORE_DUE c 0 1

/-- A test of a core starts; the core is woken (R402). -/
def startTest (s : State) (c : Nat) : State :=
  if (coreAt s c).testing || !coreUsable s c then s
  else wakeCore (wr (maintBegin (onCore s c (fun x => { x with testing := true })) 5 c 0) R.RAS_FIT_CORE_DUE c 0 0) c

/-- A job stops for a test (R402): every core of it that falls due within a quarter of the period is tested with it. -/
def saveForTest (s : State) (w : Nat) : State :=
  let soon := s.utime + rd s R.RAS_FIT_CFG_PERIOD_H 0 0 * 3600000000000 / 4
  let s := if rdB s R.RAS_FIT_CFG_ENABLE 0 0 then
    (ringCores s w).foldl (fun s k => if coreUsable s k && decide (SMap.look (fun _ => 0) s.ras.testDue k ≤ soon) then markDue s k else s) s else s
  requestPreempt s w true

/-- A calibration of a rail region that waits is to start before a core's test (R414, R415). -/
def calibrationFirst (s : State) (c : Nat) : Bool :=
  let k := regionOf c
  (waitOf s 6 k 0).isSome && goesFirst (overdueAt s 6 k 0) (overdueAt s 5 c 0) false

/-- A test that is due runs as its core stands (R402, R414, R415, R423). -/
def runDue (s : State) (c : Nat) : State :=
  let cs := testedWith s c
  if haltInProgress s || !operational s || cs.any (fun k => railCalibrating s (regionOf k) || calibrationFirst s k) then s
  else
    let s := wakeDie s
    match cs.findSome? (jobOf s) with
    | none => cs.foldl startTest s
    | some w =>
      if (ringAt s w).preempt then s
      else if jobIdle s w then saveForTest s w
      else if SMap.look (fun _ => 0) s.ras.testDue c + rd s R.RAS_FIT_CFG_MAX_DEFER_S 0 0 * 1000000000 ≤ s.utime then
        saveForTest (addSat s R.RAS_FIT_STATUS_DEFERRED 0 0 1) w
      else s

/-- FIELD_TEST_DUE (R401, R402): a core's test falls due, or one that is due is looked at again. -/
def execFieldTestDue (c : CoreIx) (s : State) : Res :=
  let known := rdB s R.RAS_FIT_CORE_DUE c 0
  let due := known || (rdB s R.RAS_FIT_CFG_ENABLE 0 0 && decide (SMap.look (fun _ => 0) s.ras.testDue c ≤ s.utime))
  if !(due && coreUsable s c && operational s && !(coreAt s c).testing) then .next s
  else
    let s := (testedWith s c).foldl markDue s
    let t := runDue s c
    .next (if !(coreAt t c).testing then maintWait t 5 c 0 else t)

/-- FIELD_TEST_DONE (R404, R405): a run on a core under test ends. -/
def execFieldTestDone (c : CoreIx) (run : KatRun) (s : State) : Res :=
  if !((coreAt s c).testing && coreOn s c) then .next s
  else
    let s := katRun s c run
    .next (if (coreAt s c).testing then s else maintEnd s 5 c 0)

/-! ### Pas de deux (R407) -/

/-- RAS_PDD_CTL_WRITE (R407): a partition's bit changes only while every ring of it is STOPPED or DISABLED. -/
def execRasPddCtlWrite (v : W64) (s : State) : Res :=
  .next ((List.range 16).foldl (fun s p =>
    let want := decide (getBits v p 1 = 1)
    let now := rd s R.RAS_PDD_CTL_ENABLE 0 0
    if want = decide (now / 2 ^ p % 2 = 1) then s
    else if (ringsOf s p).all (fun w => decide (ringState s w ≤ 1)) then
      wr (wr s R.RAS_PDD_CTL_ENABLE 0 0 (setBit now p want)) R.RAS_PDD_STATUS_ACTIVE 0 0 (setBit (rd s R.RAS_PDD_STATUS_ACTIVE 0 0) p want)
    else wr s R.RAS_PDD_STATUS_REFUSED 0 0 1) s)

/-! ### The maintenance arbiter (R411 to R415) -/

/-- An activity runs on a unit and sub-unit. -/
def maintOn (s : State) (a unit sub : Nat) : Bool := decide ((a, unit, sub) ∈ liveMaint s)

/-- A retrain of another link to a link's peer is under way (R414): one that is quiescing or trains as planned. -/
def retrainBeside (s : State) (l : Nat) : Bool :=
  linkIxs.any (fun k => decide (k ≠ l) && decide (linkPeer s k = linkPeer s l) &&
    (decide (linkState s k = 5) || (decide (linkState s k = 1) && (linkAt s k).planned)))

/-- Another retrain to a link's peer waits and is to start first: the one due earlier (R414, R415). -/
def otherRetrainFirst (s : State) (l : Nat) : Bool :=
  s.ras.waits.any (fun w => decide (w.act = 4 ∧ w.unit ≠ l ∧ linkPeer s w.unit = linkPeer s l) &&
    goesFirst w.overdue (overdueAt s 4 l w.sub) (match waitOf s 4 l w.sub with | some m => decide (w.since < m.since) | none => true))

/-- A mailbox operation writes the image area. -/
def imageWrites (s : State) : Bool := rdB s R.PEX_MBX_STATUS_BUSY 0 0 && decide (s.mgm.op = 2 ∨ s.mgm.op = 3)

/-- Activity `a` of the table starts on a unit (R411, R414): the state it leaves, or none where it must wait. A row to repair is
named by its stack and channel. -/
def maintStart (s : State) (a unit sub : Nat) : Option State :=
  match a with
  | 2 =>
    if maintOn s 3 unit sub || ((waitOf s 3 unit sub).isSome && goesFirst (overdueAt s 3 unit sub) (overdueAt s 2 unit sub) false) then none
    else if rd s R.MEM_STACK_STATUS_STATE unit 0 < 2 ∨ unit * 8 + sub ∈ s.ms.retraining ∨ unit * 8 + sub ∈ s.ms.failedCh ∨ 12 ≤ unit ∨
        8 ≤ sub ∨ retrainDue s unit sub = false then some s
    else
      let s := { s with ms := { s.ms with retraining := s.ms.retraining ++ [unit * 8 + sub] } }
      let s := wr s R.MEM_STACK_STATUS_TRAINING unit 0 (setBit (rd s R.MEM_STACK_STATUS_TRAINING unit 0) sub true)
      some (updStack (maintBegin s 2 unit sub) unit)
  | 3 =>
    if maintOn s 2 unit sub || maintOn s 3 unit sub ||
        ((waitOf s 2 unit sub).isSome && goesFirst (overdueAt s 2 unit sub) (overdueAt s 3 unit sub) true) then none
    else if s.ms.repairDue.any (fun b => decide (b.stack = unit ∧ b.channel = sub)) then some (maintBegin s 3 unit sub)
    else some s
  | 4 =>
    if linkState s unit ≠ 4 then some s
    else if (upLinks s (linkPeer s unit)).length ≤ 1 then (if retrainBeside s unit then none else some s)
    else if (upLinks s (linkPeer s unit)).length ≤ 2 && otherRetrainFirst s unit then none
    else some (endWait (startQuiesce s unit false) 4 unit sub)
  | 5 =>
    if rdB s R.RAS_FIT_CORE_DUE unit 0 && coreUsable s unit then
      let t := runDue s unit
      some (if (coreAt t unit).testing then t else maintWait t 5 unit 0)
    else some s
  | 6 =>
    if 8 ≤ unit ∨ calibrationDue s unit = false then some s
    else if coreIxs.any (fun c => decide (regionOf c = unit) && ((coreAt s c).testing ||
        (rdB s R.RAS_FIT_CORE_DUE c 0 && goesFirst (overdueAt s 5 c 0) (overdueAt s 6 unit 0) true))) then none
    else
      let s := { s with ras := { s.ras with running := liveMaint s, calibratedAt := SMap.put (fun _ => 0) s.ras.calibratedAt unit s.utime } }
      some (endWait (maintBegin s 6 unit s.utime) 6 unit 0)
  | 8 => if imageWrites s then none else some (endWait s 8 unit sub)
  | _ => some s

/-- MAINT_ACTIVITY_START (R411, R414, R415, R423): an activity starts unless a conflicting one runs or a halt is in progress;
otherwise it waits, which is counted. -/
def execMaintActivityStart (a : Fin 10) (unit sub : Nat) (s : State) : Res :=
  if haltInProgress s || !operational s || decide (a.val = 0) then .next s
  else match maintStart s a unit sub with
    | some t => .next t
    | none => .next (maintWait s a unit sub)

/-- Spare rows of a bank already used by repairs in force (R412): entries of kind 5 in the field log. -/
def sparesUsed (s : State) (b : BankRow) : Nat :=
  (s.flash.log.filter (fun e => decide (e.kind = 5 ∧ e.row.stack = b.stack ∧ e.row.channel = b.channel ∧ e.row.dieSel = b.dieSel ∧ e.row.bank = b.bank))).length

/-- A kind-5 entry. -/
def rowEntry (s : State) (b : BankRow) : FieldEntry := ⟨0, 5, 0, 0, 0, b, tsc s, []⟩

/-- A row is replaced by a spare, with its field-log entry (R371, R377, R412). -/
def spareRow (s : State) (b : BankRow) : State :=
  let s := fieldLog s (rowEntry s b)
  let s := wr s R.BOOT_FP_INFO_LOG_APPLIED 0 0 (rd s R.BOOT_FP_INFO_LOG_APPLIED 0 0 + 1)
  { s with ms := { s.ms with repaired := s.ms.repaired ++ [b] } }

/-- ROW_REPAIR_DONE (R412): the row's lines are as they were, poisoned ones still poisoned, on a spare row or, with none left
that is good, where they were. -/
def execRowRepairDone (row : BankRow) (spareGood : Bool) (s : State) : Res :=
  if row ∉ rowsUnderRepair s then .next s
  else
    let s := { s with ms := { s.ms with repairDue := s.ms.repairDue.filter (· ≠ row) } }
    let s := maintEnd s 3 row.stack row.channel
    if spareGood && decide (sparesUsed s row < 4) then
      .next (logErr (spareRow s row) ⟨0x020B, 5, 1, row.stack, none, none, none, none, rowWord row, 0⟩)
    else .next (logErr s ⟨0x0293, 2, 1, row.stack, none, none, none, none, rowWord row, 0⟩)

/-- Deferral limit of an activity in ms (R411); none for one that is never deferred. -/
def deferLimit (s : State) (a : Nat) : Option Nat :=
  match a with
  | 1 => some 3600000
  | 2 => some 10
  | 3 => some 100
  | 4 => some 1000
  | 5 => some (rd s R.RAS_FIT_CFG_MAX_DEFER_S 0 0 * 1000)
  | 6 => some 1000
  | 8 => some 10000
  | _ => none

/-- A wait becomes overdue, with its record (R415). -/
def setOverdue (s : State) (w : MaintWait) (ms : Nat) : State :=
  let ws := s.ras.waits.map (fun x => if x = w then { x with overdue := some s.utime } else x)
  let s := wr s R.RAS_MAINT_LONGEST_MS w.act 0 (max (rd s R.RAS_MAINT_LONGEST_MS w.act 0) (min ms 65535))
  logErr (updOverdue { s with ras := { s.ras with waits := ws } } w.act) ⟨0x020A, 5, 0, 0, none, none, none, none, w.act, ms⟩

/-- MAINT_OVERDUE (R411, R415): an activity on a unit has waited as long as its limit, or patrol scrub is as far behind its schedule;
waits that a halt causes are not counted. -/
def execMaintOverdue (a : Fin 10) (unit : Nat) (s : State) (sub : Nat := 0) : Res :=
  if haltInProgress s then .next s
  else
    let s := if a.val = 1 ∧ 3600000 ≤ scrubLagMs s ∧ rdB s R.MEM_SCRUB_CTL_ENABLE 0 0 = true then maintWait s 1 unit sub else s
    match deferLimit s a, waitOf s a unit sub with
    | some lim, some w =>
      let ms := if a.val = 1 then scrubLagMs s else waitMs s w
      .next (if lim ≤ ms ∧ w.overdue = none then setOverdue s w ms else s)
    | _, _ => .next s

/-! ### The pavane halt (R392, R416 to R419) -/

/-- Send a notice to every peer that has not sent one, on its lowest-numbered UP link (R416, R419): flags 1 halt, 2 release. -/
def sendNotice (s : State) (flags : Nat) (data : List Byte) (skip : List Nat) : State :=
  (List.range 32).foldl (fun s m =>
    if m = myModule s ∨ m ∈ skip then s
    else match (upLinks s m).head? with
      | some l => enqueue s l (controlMsg 10 flags data)
      | none => s) s

/-- The data granule of a halt notice (R416). -/
def noticeData (cut module : Nat) : List Byte := leBytes 8 cut ++ [byteN module] ++ List.replicate 7 0

/-- What the module stops and discards at the cut, or when its own fatal fault stalls it (R265, R418): commands not wholly
before it end HALTED, and writes, passes and messages in flight are gone. -/
def stallAll (s : State) : State :=
  let (s, done, gone) := endCommands s ringIxs 2 2
  let s := coreIxs.foldl (fun s c => if (coreAt s c).power = .off then s else abandonCore s c) s
  let s := wr (wr s R.RAS_HALT_COUNTS_DONE 0 0 done) R.RAS_HALT_COUNTS_CANCELLED 0 0 gone
  let s := dropWork s ringIxs
  let s := { s with
    ord := { s.ord with flights := [], credits := [], reads := s.ord.reads.filter (fun r => decide (r.kind ≠ 0)) }
    ms := { s.ms with walks := [] }
    kv := { s.kv with ops := [] }
    lnk := { s.lnk with
      links := s.lnk.links.map (fun e => (e.1, { (e.2.inq.filter (fun m => !decide (m.type = 9))).foldl oweCredit e.2 with
        outq := e.2.outq.filter (fun t => decide (t.msg.type = 9)), heldMsg := none, inq := e.2.inq.filter (fun m => decide (m.type = 9)) }))
      remote := []
      paused := []
      tiles := []
      breakTo := SMap.putAll (fun _ => false) [] ((List.range 32).map (fun m => (m, true)))
      resync := SMap.putAll (fun _ => false) [] ((List.range 32).map (fun m => (m, true))) }
    ras := { s.ras with cut := true } }
  (List.range 16).foldl abortImport (startReplay s)

/-- The cut is taken at a TSC (R316, R417): each link latches its counts. -/
def takeCut (s : State) (t : Nat) (late : Bool) : State :=
  let s := if s.ras.cut then s else stallAll s
  let s := linkIxs.foldl (fun s l =>
    wr (wr s R.LNK_CUT_TX_MSGS l 0 (rd s R.LNK_TX_MSGS l 0)) R.LNK_CUT_RX_MSGS l 0 (rd s R.LNK_RX_MSGS l 0)) s
  let s := wr (wr s R.RAS_HALT_TSC_CUT 0 0 t) R.LNK_CUT_TSC_TSC 0 0 t
  { wrB s R.RAS_HALT_STATUS_LATE 0 0 late with ras := { s.ras with cutAt := none } }

/-- A module cuts at once when its TSC has passed the cut, or when it follows another and is not SYNCED (R417). -/
def cutsAtOnce (s : State) (cut : Nat) : Bool := decide (cut < tsc s) || (isFollower s && decide (rd s R.LNK_TIME_STATUS_STATE 0 0 ≠ 2))

/-- The module arms with a cut (R416), and takes it at once where it is late. -/
def armHalt (s : State) (cut cause initiator : Nat) : State :=
  let s := wr (wr (wr s R.RAS_HALT_STATUS_STATE 0 0 1) R.RAS_HALT_STATUS_CAUSE 0 0 cause) R.RAS_HALT_STATUS_INITIATOR 0 0 initiator
  let s := sendNotice (wr s R.RAS_HALT_STATUS_LATE 0 0 0) 1 (noticeData cut initiator) s.ras.noticed
  let s := wakeDie { s with ras := { s.ras with cutAt := some cut, releaseAsked := false } }
  if cutsAtOnce s cut then takeCut s (tsc s) true else s

/-- The halt that this module starts: its cut is LEAD_NS ahead (R416). -/
def startHalt (s : State) (cause : Nat) : State :=
  armHalt { s with ras := { s.ras with noticed := [] } } (tsc s + rd s R.RAS_HALT_CTL_LEAD_NS 0 0) cause (myModule s)

/-- STATUS, SOURCE, UNIT and unit kind of a fatal fault (R400). -/
def fatalInfo : FatalKind → Nat × Nat × Nat × Nat
  | .clockReference => (0x020C, 9, 0, 0)
  | .clockPll => (0x020C, 9, 0, 0)
  | .tagArray k => (0x020D, 2, k, 1)
  | .flitHeader c => (0x020D, 3, c, 2)
  | .linkHeader l => (0x020D, 5, l, 2)
  | .sarabandeState => (0x020D, 8, 0, 3)
  | .powerState => (0x020D, 9, 0, 4)

/-- The clock status that a fatal fault leaves (R349). -/
def fatalClock (s : State) : FatalKind → State
  | .clockReference => wr s R.CLK_STATUS_REF_OK 0 0 0
  | .clockPll => wr s R.CLK_STATUS_LOCKED 0 0 0
  | _ => s

/-- FATAL_FAULT (R392, R416): the module stalls at once, and a halt starts unless one is in progress; the record names the
cut. -/
def execFatalFault (kind : FatalKind) (s : State) : Res :=
  let (st, src, unit, k) := fatalInfo kind
  let s := fatalClock s kind
  let s := if haltInProgress s then s else startHalt s (if st = 0x020C then 3 else 4)
  let s := if s.ras.cut then s else stallAll s
  let cut := match s.ras.cutAt with | some t => t | none => rd s R.RAS_HALT_TSC_CUT 0 0
  let s := { s with ras := { s.ras with fatal := match s.ras.fatal with | some f => some f | none => some (st, src, unit, k) } }
  .next (logErr s ⟨st, 4, src, unit, none, none, none, none, cut, k⟩)

/-- HALT_START (R416): START is written with LEAD_NS, which a value outside 500 to 60,000 leaves as it was (R13). -/
def execHaltStart (leadNs : Nat) (s : State) : Res :=
  let s := if 500 ≤ leadNs ∧ leadNs ≤ 60000 then wr s R.RAS_HALT_CTL_LEAD_NS 0 0 leadNs else s
  .next (if haltInProgress s then s else startHalt s 1)

/-- HALT_CUT (R417): the first arithmetic cycle at or after the cut TSC. -/
def execHaltCut (s : State) : Res :=
  match s.ras.cutAt with
  | some t => whenDo (decide (rd s R.RAS_HALT_STATUS_STATE 0 0 = 1 ∧ t ≤ tsc s)) s (takeCut s t false)
  | none => .next s

/-- The fault that started a fatal halt is still there, a free value (R419); one that is gone leaves the clocks good. -/
def faultPersists (s : State) : Bool × State :=
  match s.ras.fatal with
  | none => (false, s)
  | some f =>
    let (v, s) := takeFree s
    if getBits v 0 1 = 0 then (true, s)
    else (false, if f.1 = 0x020C then updClock (wr (wr s R.CLK_STATUS_REF_OK 0 0 1) R.CLK_STATUS_LOCKED 0 0 1) else s)

/-- The module leaves a halt. -/
def leaveHalt (s : State) : State :=
  wr { s with ras := { s.ras with cutAt := none, noticed := [], fatal := none, cut := false, releaseAsked := false } } R.RAS_HALT_STATUS_STATE 0 0 0

/-- A halted module releases (R419): the work of a compute reset, and STATE running, unless a fatal fault persists. -/
def releaseHalted (s : State) : State :=
  match faultPersists s with
  | (true, s) => { s with ras := { s.ras with releaseAsked := false, noticed := [] } }
  | (false, s) =>
    let s := (List.range 32).foldl breakOrders (computeWork (wr s R.RAS_HALT_STATUS_STATE 0 0 3))
    postEvent (leaveHalt s) none 0x0114 (rd s R.RAS_HALT_TSC_CUT 0 0) 0 0

/-- No frame of a link that is UP still carries a message of before the cut but CONTROL ones: the peer has taken and discarded them
(R316, R418). -/
def linksQuiet (s : State) : Bool :=
  linkIxs.all (fun l => decide (linkState s l ≠ 4 ∧ linkState s l ≠ 5) ||
    ((linkAt s l).txCont.toList ++ (linkAt s l).sent.flatMap frameMsgs).all (fun t => decide (t.msg.type = 9)))

/-- HALT_COMPLETE (R418): messages in flight are discarded and the journals replayed; the module is HALTED, with its record and event, and a release that
waited takes effect. -/
def execHaltComplete (s : State) : Res :=
  let replayed := (List.range 12).all (fun u => decide (rd s R.KPU_UNIT_STATUS_STATE u 0 ≠ 2))
  if !(s.ras.cut && s.ras.cutAt.isNone && decide (rd s R.RAS_HALT_STATUS_STATE 0 0 = 1) && replayed && linksQuiet s) then .next s
  else
    let cut := rd s R.RAS_HALT_TSC_CUT 0 0
    let counts := rd s R.RAS_HALT_COUNTS_DONE 0 0 + rd s R.RAS_HALT_COUNTS_CANCELLED 0 0 * 2 ^ 32
    let s := addSat (wr s R.RAS_HALT_STATUS_STATE 0 0 2) R.RAS_HALT_STATUS_HALTS 0 0 1
    let s := (List.range 16).foldl (fun s p => if rd s R.SEC_IMP_STATUS_STATE p 0 = 3 then endClear s p else s) s
    let s := logErr s ⟨0x020E, 5, 0, 0, none, none, none, none, cut, counts⟩
    let s := postEvent s none 0x0114 cut 1 0
    .next (if s.ras.releaseAsked then releaseHalted s else s)

/-- A release reaches the module (R419): armed, it disarms; cut and not complete, it waits; halted, it releases. The notice goes
on to peers. -/
def releaseHalt (s : State) (skip : List Nat) : State :=
  match rd s R.RAS_HALT_STATUS_STATE 0 0 with
  | 1 =>
    if s.ras.releaseAsked then s
    else
      let s := sendNotice s 2 [] skip
      if s.ras.cut then { s with ras := { s.ras with releaseAsked := true } } else leaveHalt s
  | 2 => releaseHalted (sendNotice s 2 [] skip)
  | _ => s

/-- HALT_RELEASE (R419): the operator's write of RELEASE. -/
def execHaltRelease (s : State) : Res := .next (releaseHalt s [])

/-- Take the first waiting CONTROL message where it is a QUIESCE with these notice bits (R416, R419). -/
def takeNotice (s : State) (l bits : Nat) : Option (Msg × State) :=
  takeMsg s l true (fun m => decide (m.type = 9) && decide (getBits m.word1 0 8 = 10) && decide (msgNotice m = bits))

/-- HALT_NOTICE (R416, R417, R423): the module arms with the cut that the notice carries, or with an earlier one than it has. -/
def execHaltNotice (l : LinkIx) (s : State) : Res :=
  match takeNotice s l 1 with
  | none => .next s
  | some (m, s) =>
    let cut := leAt m.data 0 8
    let from_ := leAt m.data 8 1 % 32
    let s := { s with ras := { s.ras with noticed := s.ras.noticed ++ [linkPeer s l] } }
    match rd s R.RAS_HALT_STATUS_STATE 0 0, s.ras.cutAt with
    | 0, _ => .next (armHalt s cut 2 from_)
    | 1, some t =>
      if cut < t ∧ tsc s < t ∧ s.ras.cut = false then .next (armHalt s cut (rd s R.RAS_HALT_STATUS_CAUSE 0 0) from_) else .next s
    | _, _ => .next s

/-- RELEASE_NOTICE (R419). -/
def execReleaseNotice (l : LinkIx) (s : State) : Res :=
  match takeNotice s l 2 with
  | none => .next s
  | some (_, s) => .next (releaseHalt s [linkPeer s l])

/-! ### Error records (R398) -/

/-- ERROR_RECORD_FLASH (R398, R399): a record held in the log is appended to the flash event log and marked so. -/
def execErrorRecordFlash (seq : Nat) (s : State) : Res :=
  let fresh (w : List W64) : Bool := decide (getBits (w.getD 7 0) 0 32 = seq) && decide (getBits (w.getD 1 0) 41 1 = 0)
  match s.ras.log.find? fresh with
  | none => .next s
  | some w =>
    let w' := w.take 1 ++ [setBits (w.getD 1 0) 41 1 1] ++ w.drop 2
    .next (flashAppend { s with ras := { s.ras with log := s.ras.log.map (fun x => if fresh x then w' else x) } } w')

/-- CORRECTED_RATE_CHECK (R398): corrected events of a unit within the hour beyond the limit, once per unit per hour. Those that no
command carries, such as corrected errors of a CXL port's link, come as `others` (log entry 143). -/
def execCorrectedRateCheck (source unit others : Nat) (s : State) : Res :=
  let k := source * 4096 + unit
  let events := others + (SMap.look (fun _ => []) s.ras.corrected k).foldl (fun n e => if s.utime < e.1 + 3600000000000 then n + e.2 else n) 0
  let last := SMap.look (fun _ => 0) s.ras.rateAt k
  let due := decide (last = 0 ∨ last - 1 + 3600000000000 ≤ s.utime)
  if rd s R.RAS_CE_LIMIT_PER_HOUR 0 0 < events ∧ due = true ∧ source < 16 ∧ unit < 4096 then
    let s := { s with ras := { s.ras with rateAt := SMap.put (fun _ => 0) s.ras.rateAt k (s.utime + 1) } }
    .next (logErr s ⟨0x0205, 1, source, unit, none, none, none, none, events, 0⟩)
  else .next s

end Sys2Proof.Machine
end

