-- ==== Sys2Proof/Machine/Boot.lean ====
section
/-!
DEFINITION. Sys2Proof/Machine/Boot.lean: the configuration image and its checks (R366 to R368), the floor-plan record (R369,
R370), the stages of bring-up (R373 to R382) and the boot request (R389).
-/
namespace Sys2Proof.Machine

/-! ### Writes of register fields (R10, R13) -/

/-- One field of a register takes a write: a reserved encoding leaves an RW field as it was, and a shadow takes what is
written. -/
def writeField (off : Nat) (v : W64) (s : State) (f : FldRow) : State :=
  let x := getBits v f.lo f.width
  let now := getBits (reg s off) f.lo f.width
  match f.acc with
  | .rw => if f.least ≤ x ∧ x ≤ f.most then setReg s off (setBits (reg s off) f.lo f.width x) else s
  | .rwc => setShadow s off (setBits (shadowWord s off) f.lo f.width x)
  | .w1c => setReg s off (setBits (reg s off) f.lo f.width (now - (now &&& x)))
  | _ => s

/-- Every field of the register at an offset takes a write. -/
def writeFields (s : State) (off : Nat) (v : W64) : State :=
  match regAt off with
  | some r => r.fields.foldl (fun s f => writeField off v s f) s
  | none => s

/-! ### The image in the flash (R366, R367) -/

def flashByte (f : Flash) (a : Nat) : Byte := SMap.look (fun _ => f.fill) f.image a

def flashBytes (f : Flash) (a n : Nat) : List Byte := (List.range n).map (fun i => flashByte f (a + i))

/-- Little-endian word at a byte offset of the image. -/
def flashWord (f : Flash) (a : Nat) : W64 := BitVec.ofNat 64 (leNat (flashBytes f a 8))

/-- An entry of the section table. -/
structure ImageSection where
  kind : Nat
  start : Nat
  len : Nat
  digest : List Byte
deriving DecidableEq, Repr

def imageBytes (f : Flash) : Nat := (flashWord f 8).toNat
def imageSvn (f : Flash) : Nat := getBits (flashWord f 16) 0 32
def sectionCount (f : Flash) : Nat := getBits (flashWord f 0) 40 8

/-- Byte offset of entry i of the section table. -/
def sectionAt (i : Nat) : Nat := 64 + i * 64

def sectionsOf (f : Flash) : List ImageSection :=
  (List.range (sectionCount f)).map (fun i =>
    let a := sectionAt i
    ⟨getBits (flashWord f a) 0 8, getBits (flashWord f (a + 8)) 0 32, getBits (flashWord f (a + 8)) 32 32, flashBytes f (a + 32) 32⟩)

def sectionOfKind (f : Flash) (k : Nat) : Option ImageSection := (sectionsOf f).find? (fun e => decide (e.kind = k))

/-- Bytes of the section of a type. -/
def sectionBytes (f : Flash) (k : Nat) : List Byte :=
  match sectionOfKind f k with
  | some e => flashBytes f e.start e.len
  | none => []

/-- A register that holds an RW or RWC field. -/
def writable (off : Nat) : Bool :=
  match regAt off with
  | some r => r.fields.any (fun f => decide (f.acc = .rw ∨ f.acc = .rwc))
  | none => false

/-- An offset is that of a field's register for some index below n. -/
def isReg (f : Fld) (n off : Nat) : Bool := (List.range n).any (fun i => decide (f.at i 0 = off))

/-- The stage that writes a section 5 entry's register (R367, R373); 5 for the default memory test; none where an entry may
not name it. -/
def defaultStage (off : Nat) : Option Nat :=
  if off = 2 ^ 64 - 1 then some 5
  else if off = R.PWR_COMMIT_COMMIT.at 0 0 ∨ off = R.CLK_COMMIT_COMMIT.at 0 0 then some 3
  else if 0x200000 ≤ off ∧ off < 0x2C0000 then (if writable off then some 3 else none)
  else if off = R.MEM_SCRUB_CTL_ENABLE.at 0 0 ∨ off = R.MEM_RETRAIN_CTL_INTERVAL_MIN.at 0 0 ∨ off = R.MEM_COMMIT_COMMIT.at 0 0 then some 4
  else if off = R.LNK_DOMAIN_DOMAIN_ID.at 0 0 ∨ off = R.LNK_TIME_SYNC_US.at 0 0 ∨ off = R.LNK_DOMAIN_CTL_COMMIT.at 0 0 ∨
      off = R.LNK_WIN_CTL_COMMIT.at 0 0 then some 7
  else if (List.range 32).any (fun m => (List.range 4).any (fun k => decide (R.LNK_ALLOW_HASH.at m k = off))) then some 7
  else if isReg R.LNK_CFG_ENABLE 96 off || isReg R.LNK_CTL_COMMIT 96 off then some 7
  else if off = R.SEQ_SCHED_POLL_MAX_US.at 0 0 ∨ off = R.SEQ_COMMIT_COMMIT.at 0 0 ∨ off = R.PEX_CTL_RO_WRITES.at 0 0 then some 8
  else none

/-- Section 5 as a list of offsets and values (R367). -/
def defaultsOf (f : Flash) : List (Nat × W64) :=
  match sectionOfKind f 5 with
  | some e => (List.range (e.len / 16)).map (fun i => ((flashWord f (e.start + 16 * i)).toNat, flashWord f (e.start + 16 * i + 8)))
  | none => []

/-- A section 5 entry is one that R367 allows. -/
def defaultOk (e : Nat × W64) : Bool :=
  match defaultStage e.1 with
  | none => false
  | some 5 => decide (e.2 = 1 ∨ e.2 = 2)
  | some _ => true

/-- A section's entry and place follow R367. -/
def sectionOk (f : Flash) (e : ImageSection) : Bool :=
  decide (1 ≤ e.kind ∧ e.kind ≤ 6) && decide (e.start % 4096 = 0 ∧ 36864 ≤ e.start ∧ 1 ≤ e.len ∧ e.start + e.len ≤ imageBytes f)

/-- Reserved words of entry i are zero. -/
def sectionZeros (f : Flash) (i : Nat) : Bool :=
  let a := sectionAt i
  decide (getBits (flashWord f a) 8 56 = 0) && decide (flashWord f (a + 16) = 0) && decide (flashWord f (a + 24) = 0)

/-- No two sections of a list overlap. -/
def sectionsApart : List ImageSection → Bool
  | [] => true
  | e :: t => t.all (fun x => decide (e.start + e.len ≤ x.start ∨ x.start + x.len ≤ e.start)) && sectionsApart t

/-- Row 4 of R368: the header, the section table and the section 5 entries follow R366 and R367. -/
def imageFormat (f : Flash) : Bool :=
  let n := sectionCount f
  let es := sectionsOf f
  let size := imageBytes f
  decide (getBits (flashWord f 0) 32 8 = 1 ∧ getBits (flashWord f 0) 48 16 = 0) && decide (6 ≤ n ∧ n ≤ 16) &&
  decide (36864 ≤ size ∧ size ≤ 67108864 ∧ size % 4096 = 0) &&
  (List.range 5).all (fun i => decide (flashWord f (24 + 8 * i) = 0)) &&
  (List.range n).all (sectionZeros f) && es.all (sectionOk f) && sectionsApart es &&
  (List.range 6).all (fun k => decide ((es.filter (fun e => decide (e.kind = k + 1))).length = 1)) &&
  (List.range (4096 - sectionAt n)).all (fun i => decide (flashByte f (sectionAt n + i) = 0)) &&
  (match sectionOfKind f 5 with | some e => decide (e.len % 16 = 0) | none => false) && (defaultsOf f).all defaultOk

/-- The checks of R368 from MAGIC on, in order: the failure status, or none. -/
def imageCheck (f : Flash) : Option Nat :=
  if getBits (flashWord f 0) 0 32 ≠ 0x4E434931 then some 0x282
  else if imageFormat f = false then some 0x283
  else if Config.slhDsaVerify Config.imageKey (flashBytes f 0 4096) (flashBytes f 4096 29792) = false then some 0x284
  else if (sectionsOf f).any (fun e => decide (Config.shake256 32 (flashBytes f e.start e.len) ≠ e.digest)) then some 0x285
  else if imageSvn f < f.rollback then some 0x286
  else none

/-! ### The floor-plan record (R369, R370) -/

def planCore (p : Plan) (c : Nat) : PlanCore := SMap.look (fun _ => PlanCore.good) p.cores c

/-- Set bits of a mask below bit n. -/
def onesIn (n m : Nat) : Nat := ((List.range n).filter (fun i => decide (m / 2 ^ i % 2 = 1))).length

/-- Bytes 0 to 1,215 of the record. -/
def planBytes (p : Plan) : List Byte :=
  leBytes 4 p.magic ++ [byteN p.version, byteN p.grade] ++ leBytes 2 p.fitted ++ (p.identity ++ List.replicate 32 0).take 32 ++
  leBytes 8 p.serial ++ leBytes 2 p.reserveW ++ leBytes 2 p.zero ++ leBytes 12 p.links ++
  coreIxs.flatMap (fun c => let x := planCore p c; [byteN x.harps, byteN (if x.usable then 1 else 0), byteN x.voff, byteN x.derate])

/-- Fewest usable links of a grade (R2). -/
def gradeLinks (grade : Nat) : Nat :=
  match grade with
  | 1 => 96
  | 2 => 64
  | _ => 48

/-- Fewest usable harps of a grade: 8 for each of its cores (R2). -/
def gradeHarps (grade : Nat) : Nat := 8 * gradeCores grade

/-- Every field of the record is in its range, and the counts meet the grade's minimums (R370). -/
def planFormat (p : Plan) : Bool :=
  let us := coreIxs.filter (fun c => (planCore p c).usable)
  decide (p.magic = 0x4E465031 ∧ p.version = 1 ∧ 1 ≤ p.grade ∧ p.grade ≤ 3 ∧ p.zero = 0 ∧ p.fitted < 4096 ∧ p.links < 2 ^ 96) &&
  decide (onesIn 12 p.fitted = if p.grade = 3 then 8 else 12) &&
  decide (p.reserveW = if p.grade = 3 then 400 else 520) &&
  decide (gradeCores p.grade ≤ us.length) &&
  decide (gradeHarps p.grade ≤ us.foldl (fun n c => n + onesIn 8 (planCore p c).harps) 0) &&
  decide (gradeLinks p.grade ≤ onesIn 96 p.links) &&
  coreIxs.all (fun c => let x := planCore p c; decide (x.voff ≤ 10 ∧ x.derate ≤ 8 ∧ x.harps < 256) && (x.usable || decide (x.harps = 0)))

/-- The checks of R370: the failure status, or none. -/
def planCheck (p : Plan) : Option Nat :=
  if planFormat p = false then some 0x288
  else if Config.slhDsaVerify Config.planKey (planBytes p) p.signature = false then some 0x289
  else if p.identity ≠ Config.ownId then some 0x28A
  else none

/-- Field-log entries up to the first that fails its tag or breaks the order of SEQ, from number n on (R371). -/
def goodFrom : Nat → List FieldEntry → List FieldEntry
  | _, [] => []
  | n, e :: t => if e.seq = n ∧ e.tag = Config.flashTag (entryBytes e) then e :: goodFrom (n + 1) t else []

def goodEntries (f : Flash) : List FieldEntry := goodFrom 0 f.log

/-! ### Stage reports and how stages end (R374, R381, R382) -/

/-- The record of a stage's failure or warning (R400); the values that the table states for no boot status are free. -/
def bootRecord (s : State) (status : Nat) : State :=
  let (c, s) := takeFree s
  let (d0, s) := takeFree s
  let (d1, s) := takeFree s
  logErr s ⟨status, getBits c 0 3, 0, 0, none, none, none, none, d0.toNat, d1.toNat⟩

/-- A warning of a stage: its report keeps the first and counts them (R374). -/
def warn (s : State) (n status : Nat) : State :=
  let s := if rd s R.BOOT_REPORT_STATUS n 0 = 0 then wr s R.BOOT_REPORT_STATUS n 0 status else s
  bootRecord (addSat s R.BOOT_REPORT_WARNINGS n 0 1) status

/-- The stage that runs is `n`, and nothing holds the module down (R338, R373, R447). -/
def stageRuns (s : State) (n : Nat) : Bool :=
  decide (rd s R.BOOT_STATE_STATE 0 0 = 0 ∧ rd s R.BOOT_STATE_STAGE 0 0 = n) && !s.phy.perst && decide (s.phy.shut = 0) &&
  decide (rd s R.BOOT_REPORT_STATE n 0 = 1 ∨ (n = 0 ∧ rd s R.BOOT_REPORT_STATE n 0 = 0))

/-- The test that stage 5 runs (R376): 1 quick, 2 full. -/
def testToRun (s : State) : Nat :=
  if s.boot.test = 1 ∨ s.boot.test = 2 then s.boot.test
  else match s.boot.defaults.find? (fun e => decide (defaultStage e.1 = some 5)) with
    | some e => e.2.toNat % 4
    | none => 1

/-- A stack is fitted. -/
def stackFitted (s : State) (k : Nat) : Bool := rdB s R.MEM_STACK_STATUS_FITTED k 0

/-- Time of the memory test in ms: the phases of R376, with the longer holds where a fitted stack is below 45 °C. -/
def testMs (s : State) : Nat :=
  let cold := (List.range 12).any (fun k => stackFitted s k && decide (rd s R.MEM_STACK_STATUS_TEMP k 0 < 45))
  if testToRun s = 2 then 1000 + 10000 + 40000 + (if cold then 256000 else 128000) + 50000 else 1000 + 3500 + 2500 + 12000 + 5000

/-- The estimate of a stage, fixed as it starts (R375): that of the memory test is R376's; the others are free values. -/
def estimateStage (s : State) (n : Nat) : State :=
  if n = 5 then { s with boot := { s.boot with estimate := testMs s } }
  else if n = 4 ∨ n = 6 ∨ n = 7 then
    let (v, s) := takeFree s
    { s with boot := { s.boot with estimate := v.toNat } }
  else s

/-- A stage starts. -/
def enterStage (s : State) (n : Nat) : State :=
  let s := wr (wr s R.BOOT_STATE_STAGE 0 0 n) R.BOOT_REPORT_STATE n 0 1
  let s := wr s R.BOOT_REPORT_START_START_TSC n 0 (tsc s)
  estimateStage { s with boot := { s.boot with stageAt := s.utime } } n

/-- The safe state (R381): every core, link and CXL port is OFF. -/
def safeState (s : State) : State :=
  let s := coreIxs.foldl coreOff s
  let s := linkIxs.foldl (fun s l => if linkState s l = 0 then s else setLink (setLinkState s l 0) l LinkRt.fresh) s
  (List.range 2).foldl (fun s n => setPwrDomain (wr s R.CXL_PORT_STATUS_STATE n 0 0) (324 + n) 0) s

/-- A stage fails (R381). -/
def failStage (s : State) (n status : Nat) : State :=
  let s := wr (wr s R.BOOT_REPORT_STATE n 0 4) R.BOOT_REPORT_STATUS n 0 status
  let s := wr s R.BOOT_REPORT_END_END_TSC n 0 (tsc s)
  let s := wr (wr (wr s R.BOOT_STATE_STATE 0 0 2) R.BOOT_STATE_FAIL_STAGE 0 0 n) R.BOOT_STATE_STATUS 0 0 status
  safeState (bootRecord s status)

/-- A stage ends done, done with warnings or held, with its detail word (R374, R375, R382). -/
def endStage (s : State) (n detail : Nat) : State :=
  let s := wr (wr s R.BOOT_REPORT_DETAIL_DETAIL n 0 detail) R.BOOT_REPORT_END_END_TSC n 0 (tsc s)
  let s := if 4 ≤ n ∧ n ≤ 7 then wr s R.BOOT_PROGRESS_PERCENT 0 0 100 else s
  if s.boot.hold = n ∧ n ≠ 0 then
    safeState (wr (wr (warn s n 0x297) R.BOOT_REPORT_STATE n 0 5) R.BOOT_STATE_STATE 0 0 3)
  else
    let s := wr s R.BOOT_REPORT_STATE n 0 (if rd s R.BOOT_REPORT_WARNINGS n 0 = 0 then 2 else 3)
    if n < 9 then enterStage s (n + 1) else s

/-! ### Section 5 (R379) -/

/-- A commit of the defaults with the bit that says it was refused: the state it leaves, and whether it was refused. -/
def commitDefault (s : State) (f : Fld) (i : Nat) (run : State → Res) : State × Bool :=
  let after (s : State) : State := match run s with
    | .next t => t
    | .fault _ => s
    | .refused _ => s
  (after s, rdB (after (wr s f i 0 0)) f i 0)

/-- A commit without a status bit was taken where the committed fields of its set equal the shadow's (R13). -/
def commitSilent (s : State) (offs : List Nat) (run : State → Res) : State × Bool :=
  match run s with
  | .next t => (t, offs.any (fun o => decide (reg (commitReg t o) o ≠ reg t o)))
  | .fault _ => (s, true)
  | .refused _ => (s, true)

/-- The link whose LNK_CTL lies at an offset. -/
def linkOfCtl (off : Nat) : Option LinkIx :=
  if h : (off - 0xC10008) / 256 < 96 then (if (off - 0xC10008) % 256 = 0 ∧ 0xC10008 ≤ off then some ⟨(off - 0xC10008) / 256, h⟩ else none) else none

/-- One entry of section 5 is written, as by the physical function: the state it leaves, and whether a commit was refused. -/
def writeDefault (s : State) (e : Nat × W64) : State × Bool :=
  let go := decide (getBits e.2 0 1 = 1)
  if e.1 = R.PWR_COMMIT_COMMIT.at 0 0 then (if go then commitDefault s R.PWR_STATUS_REJECTED 0 execPwrCommit else (s, false))
  else if e.1 = R.CLK_COMMIT_COMMIT.at 0 0 then (if go then commitDefault s R.CLK_STATUS_REJECTED 0 execClkCommit else (s, false))
  else if e.1 = R.MEM_COMMIT_COMMIT.at 0 0 then
    (if go then commitSilent s [R.MEM_SCRUB_CTL_ENABLE.at 0 0, R.MEM_RETRAIN_CTL_INTERVAL_MIN.at 0 0] execMemCommit else (s, false))
  else if e.1 = R.SEQ_COMMIT_COMMIT.at 0 0 then
    (if go then commitSilent s [R.SEQ_SCHED_POLL_MAX_US.at 0 0] execSeqSchedCommit else (s, false))
  else if e.1 = R.LNK_DOMAIN_CTL_COMMIT.at 0 0 then
    (if go then commitDefault s R.LNK_DOMAIN_STATUS_REJECTED 0 execDomainCommit else (s, false))
  else if e.1 = R.LNK_WIN_CTL_COMMIT.at 0 0 then (if go then commitDefault s R.LNK_WIN_STATUS_REJECTED 0 execWindowCommit else (s, false))
  else match linkOfCtl e.1 with
    | some l => if go then commitDefault s R.LNK_STATUS_REJECTED l (execLinkCommit l) else (s, false)
    | none => (writeFields s e.1 e.2, false)

/-- The entries of a stage, in list order; the last refused commit's offset is the detail (R374, R379). -/
def writeDefaults (s : State) (n : Nat) : State × Option Nat :=
  (s.boot.defaults.filter (fun e => decide (defaultStage e.1 = some n))).foldl (fun (a : State × Option Nat) e =>
    let (s, refused) := writeDefault a.1 e
    if refused then (warn s n 0x291, some e.1) else (s, a.2)) (s, none)

/-! ### Stages 0 to 3 -/

/-- STAGE_AON_BOOT_ROM (R373): the self-test of the always-on domain. -/
def execStageAonBootRom (selfTestOk : Bool) (s : State) : Res :=
  if !stageRuns s 0 then .next s
  else
    let s := setPwrDomain (setPwrDomain s 345 2) 326 2
    .next (if selfTestOk then endStage s 0 0 else failStage s 0 0x280)

/-- BOOT_NEXT reads the stored request (R389). -/
def setNext (s : State) (v : Nat) : State :=
  let off := R.BOOT_NEXT_TEST.at 0 0
  let s := { s with flash := { s.flash with next := v } }
  setShadow (setReg s off (BitVec.ofNat 64 v)) off (BitVec.ofNat 64 v)

/-- The flash image has verified, or has not (PEX_MBX_STATUS.IMAGE_VALID). -/
def setValid (s : State) (ok : Bool) : State :=
  wrB { s with flash := { s.flash with valid := ok } } R.PEX_MBX_STATUS_IMAGE_VALID 0 0 ok

/-- Rows 3 to 7 of R368 at stage 1, and what bring-up keeps of the image. -/
def verifyImage (s : State) : State :=
  match (if s.flash.marked then some 0x282 else imageCheck s.flash) with
  | some st => failStage (setValid s false) 1 st
  | none =>
    let svn := imageSvn s.flash
    let s := { setValid s true with boot := { s.boot with defaults := defaultsOf s.flash, svn := svn } }
    endStage (wr s R.SEC_SVN_RUNNING 0 0 svn) 1 svn

/-- STAGE_IMAGE_VERIFICATION (R368): whether the PUF seed is reproduced and the replay-protected area authenticates are free
values. -/
def execStageImageVerification (s : State) : Res :=
  if !stageRuns s 1 then .next s
  else
    let (v, s) := takeFree s
    if getBits v 0 1 = 0 then .next (failStage s 1 0x281)
    else
      let s := wr s R.SEC_STATUS_IDENTITY 0 0 1
      if getBits v 1 1 = 0 then .next (failStage s 1 0x287)
      else
        let s := { s with boot := { s.boot with test := s.flash.next % 4, hold := s.flash.next / 16 % 16 } }
        .next (verifyImage (setNext s 0))

/-- A core's factory settings in BOOT_FP_COREi, and its runtime settings before the field log (R369, R372). -/
def publishCore (p : Plan) (s : State) (c : Nat) : State :=
  let x := planCore p c
  let s := wr (wr s R.BOOT_FP_CORE_FACTORY_HARPS c 0 x.harps) R.BOOT_FP_CORE_FACTORY_VOFF c 0 x.voff
  let s := wr (wrB s R.BOOT_FP_CORE_FACTORY_USABLE c 0 x.usable) R.BOOT_FP_CORE_FACTORY_DERATE c 0 x.derate
  let s := setDerate (wr s R.BOOT_FP_CORE_VOFF c 0 x.voff) c x.derate
  setUsable (setHarps s c x.harps) c x.usable

/-- Fitted stacks with what hangs on them: slices and KV page units with their ranks (R3, R173, R213). -/
def publishStack (p : Plan) (s : State) (k : Nat) : State :=
  let on := decide (p.fitted / 2 ^ k % 2 = 1)
  let s := wrB (wrB (wrB s R.MEM_STACK_STATUS_FITTED k 0 on) R.CCH_SLICE_STATUS_FITTED k 0 on) R.KPU_UNIT_STATUS_FITTED k 0 on
  if on then wr s R.KPU_UNIT_STATUS_RANK k 0 (onesIn k p.fitted) else s

/-- The runtime floor plan is published: the record with the field log's entries of kinds 1 to 4 (R32, R371, R372). -/
def publishPlan (s : State) (p : Plan) : State :=
  let gen (s : State) : State := wr s R.GLB_FP_GEN_GEN 0 0 (rd s R.GLB_FP_GEN_GEN 0 0 + 1)
  let es := (goodEntries s.flash).filter (fun e => decide (1 ≤ e.kind ∧ e.kind ≤ 4))
  let s := gen s
  let s := wr (wr s R.GLB_ID_GRADE 0 0 p.grade) R.GLB_GEOMETRY_STACKS_USABLE 0 0 (onesIn 12 p.fitted)
  let s := wr s R.GLB_GEOMETRY_LINKS_USABLE 0 0 (onesIn 96 p.links)
  let s := wr (wr s R.BOOT_FP_INFO_GRADE 0 0 p.grade) R.BOOT_FP_INFO_STACKS 0 0 p.fitted
  let s := wr (wr s R.BOOT_FP_SERIAL_SERIAL 0 0 p.serial) R.PWR_CAPS_RESERVE_W 0 0 p.reserveW
  let s := wr (wr s R.BOOT_FP_LINKS_USABLE 0 0 p.links) R.BOOT_FP_LINKS_USABLE 1 0 (p.links / 2 ^ 64)
  let s := linkIxs.foldl (fun s l => wr s R.LNK_STATUS_USABLE l 0 (p.links / 2 ^ l % 2)) s
  let s := (List.range 12).foldl (publishStack p) s
  let s := es.foldl applyEntry (coreIxs.foldl (publishCore p) s)
  gen (wr (setCounts s) R.BOOT_FP_INFO_LOG_APPLIED 0 0 es.length)

/-- Measurements 1 to 5, and the attestation key (R288, R372). -/
def takeMeasurements (s : State) : State :=
  let f := s.flash
  let h := Config.shake256 64
  let firmware := [1, 2, 3, 4, 6].flatMap (sectionBytes f)
  let m := [h Config.bootRom, h firmware, h (regBytes s planRegs), h (flashBytes f 0 4096 ++ sectionBytes f 5),
    h (leBytes 4 s.boot.svn ++ leBytes 4 f.rollback)]
  wr { s with tru := { s.tru with measured := m } } R.SEC_STATUS_AK_READY 0 0 1

/-- STAGE_FLOOR_PLAN_LOAD (R369 to R372). -/
def execStageFloorPlanLoad (s : State) : Res :=
  if !stageRuns s 2 then .next s
  else match planCheck s.flash.plan with
    | some st => .next (failStage s 2 st)
    | none =>
      let good := goodEntries s.flash
      let ignored := s.flash.log.length - good.length
      let s := publishPlan s s.flash.plan
      let s := if ignored = 0 then s else warn s 2 0x290
      .next (endStage (takeMeasurements s) 2 (rd s R.BOOT_FP_INFO_LOG_APPLIED 0 0 + ignored * 2 ^ 32))

/-- A fitted stack has lost every channel. -/
def stackLost (s : State) : Bool :=
  (List.range 12).any (fun k => stackFitted s k && (List.range 8).all (fun ch => decide (k * 8 + ch ∈ s.ms.failedCh)))

/-- The stacks and what serves them are switched on, and every channel of a fitted stack is in training (R208, R341). -/
def stacksOn (s : State) : State :=
  let s := sleepDomains.foldl (fun s d => if d < 324 ∧ stackFitted s (d - 312) = false then s else setPwrDomain s d 2) s
  (List.range 12).foldl (fun s k =>
    if stackFitted s k then wr (wr s R.MEM_STACK_STATUS_STATE k 0 1) R.MEM_STACK_STATUS_TRAINING k 0 255 else s) s

/-- Temperatures of the twelve stacks, free values. -/
def freeTemps (s : State) : List Nat × State :=
  (List.range 12).foldl (fun (a : List Nat × State) _ => let (v, s) := takeFree a.2; (a.1 ++ [getBits v 0 8], s)) ([], s)

/-- Stage 4 starts (R371, R373, R379): MEM_ defaults, the row repairs of the field log, and training. -/
def startStacks (s : State) : State :=
  let (s, bad) := writeDefaults s 4
  let s := wr s R.BOOT_REPORT_DETAIL_DETAIL 4 0 (bad.getD 0)
  let rows := (goodEntries s.flash).filter (fun e => decide (e.kind = 5))
  let s := { s with ms := { s.ms with repaired := rows.map (fun e => e.row) } }
  let s := wr s R.BOOT_FP_INFO_LOG_APPLIED 0 0 (rd s R.BOOT_FP_INFO_LOG_APPLIED 0 0 + rows.length)
  let (temps, s) := freeTemps s
  stackTemps (stacksOn s) temps

/-- STAGE_CLOCKS (R349, R379): the reference is good, the arithmetic PLL locks at 900 MHz, and the clock rises point by point to
the lowest of its caps. The work of stage 4 then starts. -/
def execStageClocks (locked : Bool) (s : State) : Res :=
  if !stageRuns s 3 then .next s
  else
    let (s, bad) := writeDefaults s 3
    if !locked then .next (failStage s 3 0x28B)
    else
      let s := wr (wr s R.CLK_STATUS_REF_OK 0 0 1) R.CLK_STATUS_LOCKED 0 0 1
      let s := endStage (updClock (wr s R.CLK_STATUS_ARITH_MHZ 0 0 (lowestCap s))) 3 (bad.getD 0)
      .next (if stageRuns s 4 then startStacks s else s)

/-! ### Stages 4 and 5 -/

/-- A channel is in training. -/
def trains (s : State) (k ch : Nat) : Bool := decide (rd s R.MEM_STACK_STATUS_TRAINING k 0 / 2 ^ ch % 2 = 1)

/-- The margin check of one channel (R208 step 7): a channel that passes is up; one that fails repeats steps 2 to 7 up to 3
times, and is then marked failed. -/
def marginCheck (fails : List (StackIx × ChanIx)) (s : State) (k ch : Nat) : State :=
  let key := k * 8 + ch
  let tries := SMap.look (fun _ => 0) s.ms.fullTries key
  let bad := fails.any (fun e => decide ((e.1 : Nat) = k ∧ (e.2 : Nat) = ch))
  if !trains s k ch then s
  else if bad && decide (tries < 3) then { s with ms := { s.ms with fullTries := SMap.put (fun _ => 0) s.ms.fullTries key (tries + 1) } }
  else
    let s := { s with ms := { s.ms with fullTries := SMap.put (fun _ => 0) s.ms.fullTries key 0 } }
    let s := wr s R.MEM_STACK_STATUS_TRAINING k 0 (setBit (rd s R.MEM_STACK_STATUS_TRAINING k 0) ch false)
    if bad then warn (failChannel s k ch) 4 0x292
    else trained (wr s R.MEM_STACK_STATUS_CHANNELS_UP k 0 (setBit (rd s R.MEM_STACK_STATUS_CHANNELS_UP k 0) ch true)) k ch

/-- STAGE_MEMORY_TRAINING (R208, R371, R377, R379): every channel in training reaches its margin check, which the named ones
fail; once none trains, the stacks are ready or degraded and the stage ends. -/
def execStageMemoryTraining (fails : List (StackIx × ChanIx)) (s : State) : Res :=
  if !stageRuns s 4 then .next s
  else
    let ks := (List.range 12).filter (stackFitted s)
    let s := ks.foldl (fun s k => (List.range 8).foldl (fun s ch => marginCheck fails s k ch) s) s
    if ks.any (fun k => decide (rd s R.MEM_STACK_STATUS_TRAINING k 0 ≠ 0)) then .next s
    else
      let s := ks.foldl (fun s k => wr (updStack s k) R.KPU_UNIT_STATUS_STATE k 0 1) s
      let bad := rd s R.BOOT_REPORT_DETAIL_DETAIL 4 0
      if stackLost s then .next (failStage s 4 0x28C)
      else .next (endStage s 4 (if bad = 0 then s.ms.failedCh.length else bad))

/-- Lines of a bank row: its 2 KiB of near memory (R213). -/
def rowLines (s : State) (b : BankRow) : List Nat :=
  let u := b.row * 64 + b.dieSel * 32 + b.bank
  let rank := rd s R.KPU_UNIT_STATUS_RANK b.stack 0
  let block := (u * 8 + b.channel) * nu s + rank
  (List.range 32).map (fun i => block * 32 + i)

/-- A row that the test found bad takes a spare, and another for each whose retest in pattern 10 fails; with no spare left its lines
are left poisoned (R377): the state, and the rows repaired and unrepaired. -/
def testRow (a : State × Nat × Nat) (e : BankRow × Nat) : State × Nat × Nat :=
  let left := 4 - sparesUsed a.1 e.1
  let t := (List.range (min (e.2 + 1) left)).foldl (fun s _ => spareRow s e.1) a.1
  if e.2 < left then (t, a.2.1 + 1, a.2.2)
  else
    let s := { t with mem := (rowLines t e.1).foldl memMark t.mem }
    let s := logErr s ⟨0x0293, 2, 1, e.1.stack, none, none, none, none, rowWord e.1, 0⟩
    (addSat (if rd s R.BOOT_REPORT_STATUS 5 0 = 0 then wr s R.BOOT_REPORT_STATUS 5 0 0x293 else s) R.BOOT_REPORT_WARNINGS 5 0 1, a.2.1, a.2.2 + 1)

/-- STAGE_MEMORY_TEST (R376, R377): every line but those of unrepaired rows ends as zeros without poison. -/
def execStageMemoryTest (corrected : Nat) (badRows : List (BankRow × Nat)) (lostStack : Bool) (s : State) : Res :=
  if !stageRuns s 5 then .next s
  else
    let s := { wr s R.BOOT_STATE_TEST_RUN 0 0 (testToRun s) with mem := ⟨[], []⟩ }
    let rows := badRows.filter (fun e => stackFitted s e.1.stack)
    let (s, good, bad) := rows.foldl testRow (s, 0, 0)
    if lostStack then .next (failStage s 5 0x28C)
    else .next (endStage s 5 (corrected % 2 ^ 32 + good % 2 ^ 16 * 2 ^ 32 + bad % 2 ^ 16 * 2 ^ 48))

/-! ### Stages 6 to 9 -/

/-- A core takes its runs of the kernels until its test, and the procedure that a failure starts, has ended (R378, R405). -/
def testRuns (c : Nat) : List KatRun → State → State
  | [], s => s
  | r :: t, s => if (coreAt s c).testing then testRuns c t (katRun s c r) else s

/-- Stage 6 of one core: a core that no operand names passes at its first run. -/
def stageTest (runs : List (CoreIx × List KatRun)) (s : State) (c : Nat) : State :=
  let mine := (runs.filter (fun e => decide ((e.1 : Nat) = c))).flatMap (fun e => e.2)
  testRuns c (mine ++ [⟨true, 0, 0, false⟩]) (onCore s c (fun x => { x with testing := true }))

/-- Stage 7 starts (R373, R380): LNK_ defaults, which start the enabled links, and the CXL ports that are not held OFF. -/
def startLinks (s : State) : State :=
  let (s, bad) := writeDefaults s 7
  let s := wr s R.BOOT_REPORT_DETAIL_DETAIL 7 0 (bad.getD 0)
  (List.range 2).foldl (fun s n =>
    if rdB s R.CXL_PORT_CTL_ENABLE n 0 then wr (setPwrDomain s (324 + n) 2) R.CXL_PORT_STATUS_STATE n 0 1 else s) s

/-- STAGE_CORE_KNOWN_ANSWER (R378): the runs of the kernels on every usable core. It ends once every core's procedure has; the
work of stage 7 then starts. -/
def execStageCoreKnownAnswer (runs : List (CoreIx × List KatRun)) (s : State) : Res :=
  if !stageRuns s 6 then .next s
  else
    let us := goodCores s
    let settings (s : State) : List (Nat × Nat) := us.map (fun c => (voffOf s c, derateOf s c))
    let before := settings s
    let t := us.foldl (stageTest runs) s
    if us.any (fun c => (coreAt t c).testing) then .next s
    else
      let left := goodCores t
      let adjusted := ((us.zip (before.zip (settings t))).filter (fun e => decide (e.2.1 ≠ e.2.2) && decide (e.1 ∈ left))).length
      if left.isEmpty then .next (failStage t 6 0x28D)
      else
        let t := if left.length < gradeCores (rd t R.GLB_ID_GRADE 0 0) then warn t 6 0x294 else t
        let t := endStage t 6 ((us.length - left.length) + adjusted * 2 ^ 16)
        .next (if stageRuns t 7 then startLinks t else t)

/-- A link of an enabled pair is still on its way up. -/
def linkTrains (s : State) (l : Nat) : Bool := decide (1 ≤ linkState s l ∧ linkState s l ≤ 3)

/-- A CXL port that is not held OFF, and one that is UP or DOWN. -/
def portEnabled (s : State) (n : Nat) : Bool := rdB s R.CXL_PORT_CTL_ENABLE n 0
def portSettled (s : State) (n : Nat) : Bool := decide (3 ≤ rd s R.CXL_PORT_STATUS_STATE n 0)

/-- STAGE_LINK_TRAINING (R380): the stage ends once every enabled link and port is UP or DOWN, or its time is over. -/
def execStageLinkTraining (s : State) : Res :=
  let ls := linkIxs.filter (fun l => rdB s R.LNK_CFG_ENABLE l 0)
  let ports := (List.range 2).filter (portEnabled s)
  let linksDone := !ls.any (linkTrains s) || decide (s.boot.stageAt + us 500000 ≤ s.utime)
  let portsDone := ports.all (portSettled s) || decide (s.boot.stageAt + us 2000000 ≤ s.utime)
  if !(stageRuns s 7 && linksDone && portsDone) then .next s
  else
    let s := if ls.any (linkTrains s) then warn s 7 0x295 else s
    let s := ports.foldl (fun s n => if portUp s n then s else warn s 7 0x296) s
    let up := (ls.filter (fun l => decide (linkState s l = 4))).length + ((List.range 2).filter (portUp s)).length * 256
    let bad := rd s R.BOOT_REPORT_DETAIL_DETAIL 7 0
    .next (endStage s 7 (if bad = 0 then up else bad))

/-- STAGE_HOST_FUNCTION_READY (R373): PEX_CTL and SEQ_SCHED defaults; the BARs open and requests may go out. -/
def execStageHostFunctionReady (s : State) : Res :=
  if !stageRuns s 8 then .next s
  else
    let (s, bad) := writeDefaults s 8
    .next (flushHold 256 (endStage s 8 (bad.getD 0)))

/-- STAGE_OPERATIONAL (R373, R401): commands are taken, the maintenance arbiter starts, and the first tests are spread over a
period. -/
def execStageOperational (s : State) : Res :=
  if !stageRuns s 9 then .next s
  else
    let s := { s with ms := { s.ms with scrubFrom := s.utime } }
    let s := wr (endStage s 9 0) R.BOOT_STATE_STATE 0 0 1
    let period := rd s R.RAS_FIT_CFG_PERIOD_H 0 0 * 3600000000000
    let due := (goodCores s).map (fun c => (c, s.utime + c * period / 288))
    let s := { s with ras := { s.ras with testDue := SMap.putAll (fun _ => 0) s.ras.testDue due } }
    .next (notIdle (wr s R.PWR_STATUS_DIE_STATE 0 0 1))

/-! ### The boot request (R389) -/

/-- BOOT_NEXT_COMMIT (R389): the set is being stored; one with a reserved value is refused. -/
def execBootNextCommit (s : State) : Res :=
  let test := rdS s R.BOOT_NEXT_TEST 0 0
  let hold := rdS s R.BOOT_NEXT_HOLD 0 0
  if test = 3 ∨ 8 < hold then .next (wr s R.BOOT_STATE_NEXT_REJECTED 0 0 1)
  else .next (wr { s with boot := { s.boot with storing := some (test + hold * 16) } } R.BOOT_STATE_NEXT_BUSY 0 0 1)

/-- BOOT_NEXT_STORED (R389): the write to the replay-protected area has succeeded or failed. -/
def execBootNextStored (ok : Bool) (s : State) : Res :=
  match s.boot.storing with
  | none => .next s
  | some v =>
    let t := wr { s with boot := { s.boot with storing := none } } R.BOOT_STATE_NEXT_BUSY 0 0 0
    let off := R.BOOT_NEXT_TEST.at 0 0
    if ok then .next { setReg t off (BitVec.ofNat 64 v) with flash := { t.flash with next := v } }
    else .next (wr t R.BOOT_STATE_NEXT_REJECTED 0 0 1)

end Sys2Proof.Machine
end

