-- ==== Sys2Proof/Machine/HostSide.lean ====
section
/-!
DEFINITION. Sys2Proof/Machine/HostSide.lean: resets and completions on the host link (R212, R326, R327, R447), and the Henmokai
controller with its mailbox and sensors (R334, R335).
-/
namespace Sys2Proof.Machine

/-! ### Configuration space and the host link (R321, R327) -/

/-- Configuration space of every function returns to its defaults; the host link and its IDE streams are down (R327). -/
def cfgDefaults (s : State) : State :=
  let h := { s.hst with bme := [], vfEnable := false, roEnable := [], bar2Log2 := none, vfBar2Log2 := 0, timeoutMs := 50 }
  { s with hst := h }

/-- IDE streams end with the link. -/
def linkIdeOff (s : State) : State := wr { s with hst := { s.hst with ide := [], insecure := [] } } R.PEX_LINK_LINK_IDE 0 0 0

/-- PERST_ASSERT (R327, R384): a module reset; bring-up waits for the release. -/
def execPerstAssert (s : State) : Res :=
  if s.phy.perst then .next s
  else .next (moduleReset { s with phy := { s.phy with perst := true } })

/-- PERST_RELEASE (R447): stage 0 of bring-up starts. -/
def execPerstRelease (s : State) : Res := .next { s with phy := { s.phy with perst := false } }

/-- HOT_RESET (R327, R384, R385): hot reset, or the link leaving DL_Active. Before stage 9 only configuration space is reset. -/
def execHotReset (s : State) : Res :=
  let s := linkIdeOff (cfgDefaults s)
  .next (computeReset { s with hst := { s.hst with linkUp := false } })

/-- FLR_PF (R327): configuration space of the physical function returns to its defaults and VF Enable clears; with it the virtual
functions and their Bus Master Enable go. -/
def execFlrPf (s : State) : Res :=
  let h := { s.hst with
    bme := [], vfEnable := false, bar2Log2 := none, vfBar2Log2 := 0, timeoutMs := 50
    roEnable := SMap.put (fun _ => true) s.hst.roEnable 0 true }
  .next (computeReset { s with hst := h })

/-- FLR_VF (R274, R327): a partition reset, and the virtual function's own configuration space. -/
def execFlrVf (p : PartIx) (s : State) : Res :=
  if !s.hst.vfEnable then .next s
  else
    let fn := fnOfPart p
    let h := { s.hst with bme := SMap.put (fun _ => false) s.hst.bme fn false, roEnable := SMap.put (fun _ => true) s.hst.roEnable fn true }
    .next (partitionReset { s with hst := h } p)

/-- PCIE_LINK_UP (R321, R327, R373): the link has trained at a rate and width; records that waited for it go. -/
def execPcieLinkUp (rate width : Nat) (s : State) : Res :=
  if s.phy.perst || decide (s.phy.shut ≠ 0) || !(decide (1 ≤ rate ∧ rate ≤ 7) && decide (width ∈ [1, 2, 4, 8, 16])) then .next s
  else
    let s := if s.hst.linkUp then addSat s R.PEX_LINK_RETRAINS 0 0 1 else s
    let s := wr (wr s R.PEX_LINK_RATE 0 0 rate) R.PEX_LINK_WIDTH 0 0 width
    let s := wrB s R.PEX_LINK_FLIT 0 0 (decide (6 ≤ rate))
    .next (flushHold 256 { s with hst := { s.hst with linkUp := true } })

/-! ### Reads of host memory (R212, R326) -/

def hostReadAt (s : State) (n : Nat) : Option HostRead := s.ord.reads.find? (fun r => decide (r.id = n))

/-- A read is no longer outstanding. -/
def dropRead (s : State) (n : Nat) : State := { s with ord := { s.ord with reads := s.ord.reads.filter (fun r => decide (r.id ≠ n)) } }

/-- A read of a command fails (R212). -/
def failRead (s : State) (r : HostRead) (why : Nat) : State :=
  if r.kind = 2 then hostReadFailed s 0 r.core why
  else match r.ring with
    | some w => failCmd s w 0x21 0
    | none => s

/-- What a data mover issued since number n belongs to the copy with number `op` (R148, R157). -/
def markCopy (s : State) (n op : Nat) : State :=
  let s := markFrom s n (fun f => { f with op := some op })
  { s with lnk := { s.lnk with remote := s.lnk.remote.map (fun r => if n ≤ r.id then { r with id := op } else r) } }

/-- What a data mover does with the bytes that a read of host memory returned (R247, R307): a remote copy sends them on, a copy
writes them to a scratchpad or to its virtual destination. -/
def moveIn (s : State) (r : HostRead) (bytes : List Byte) (bad : Bool) : State :=
  let w := r.ring.getD 0
  let p := ringPart s w
  match r.peer, r.dst, r.va with
  | some (m, win, off), _, _ => sendRequest s r.core m 1 win off bytes.length 0 bytes bad false none
  | none, some (.spd c a), _ =>
    if c = r.core then storeMoved s c 4 bytes (fun _ => bad) (fun k => a + k) (fun _ => 512)
    else (markRuns bytes (fun _ => bad)).foldl (fun s e =>
      issue s (flightOf (.core r.core) (.spd c (a + e.1)) e.2.1 e.2.2 false (some w) (some p) none)) s
  | none, _, some va => (markRuns bytes (fun _ => bad)).foldl (fun s e =>
      issueVirtual s (.core r.core) w p (va + e.1) e.2.1 e.2.2 false (some r.core)) s
  | none, _, none => s

/-- A read returned data (R212, R326): a sequencer load, a copy, or a slot of a ring; a poisoned one is consumption in a load, a
marked move in a copy, and a failure of the sarabande's own reads. -/
def readReturned (s : State) (r : HostRead) (bytes : List Byte) (bad : Bool) : State :=
  match r.kind with
  | 0 =>
    let s := onCore s r.core (fun x => { x with loaded := BitVec.ofNat 64 (leNat (bytes.take 8)) })
    match bad, r.ring with
    | true, some w => consumePoison s w none r.va
    | _, _ => s
  | 1 => markCopy (moveIn s r (bytes.take r.len ++ List.replicate (r.len - bytes.length) 0) bad) s.ord.nextId r.id
  | _ => if bad then failRead s r 3 else hostSlot s r.core (bytesWords bytes)

/-- The walk for a copy's virtual destination waits (R209, R222). -/
def moveWaits (s : State) (r : HostRead) : Bool :=
  match r.va with
  | some va => decide (r.kind = 1) && accessWaits s (some r.core) (ringPart s (r.ring.getD 0)) va r.len false
  | none => false

/-- HOST_LINK_READ_COMPLETION (R212, R326): a read of host memory completes; a timeout is COMPLETION_TIMEOUT's. -/
def execHostLinkReadCompletion (n : Nat) (reply : HostReply) (s : State) : Res :=
  match hostReadAt s n with
  | none => .next s
  | some r =>
    let t := dropRead s n
    if moveWaits s r then .next s else
    match reply with
    | .data bs => .next (readReturned t r bs false)
    | .poisoned bs => .next (readReturned t r bs true)
    | .unsupported => .next (failRead t r 1)
    | .abort => .next (failRead t r 2)
    | .timeout => .next s

/-- COMPLETION_TIMEOUT (R212, R326): no completion within the timeout. -/
def execCompletionTimeout (n : Nat) (s : State) : Res :=
  match hostReadAt s n with
  | none => .next s
  | some r => whenDo (decide (r.since + us (s.hst.timeoutMs * 1000) ≤ s.utime)) s (failRead (dropRead s n) r 4)

/-! ### The mailbox (R335) -/

/-- The Henmokai interfaces are up: stage 0 has ended (R334). -/
def sidebandUp (s : State) : Bool := decide (rd s R.BOOT_REPORT_STATE 0 0 = 2 ∨ rd s R.BOOT_REPORT_STATE 0 0 = 3)

/-- OWNER of a requester. -/
def mbxCode : MbxWho → Nat
  | .host => 1
  | .sideband => 2

def mbxOwner (s : State) : Nat := rd s R.PEX_MBX_STATUS_OWNER 0 0
def mbxBusy (s : State) : Bool := rdB s R.PEX_MBX_STATUS_BUSY 0 0
def mbxResult (s : State) (r : Nat) : State := wr s R.PEX_MBX_STATUS_RESULT 0 0 r

/-- The owner has acted: its 10 s start afresh. -/
def mbxTouch (s : State) : State := { s with mgm := { s.mgm with opAt := s.utime } }

/-- A claim while nobody holds the mailbox. -/
def claim (s : State) (who : MbxWho) : State :=
  if sidebandUp s && decide (mbxOwner s = 0) then mbxTouch (wr s R.PEX_MBX_STATUS_OWNER 0 0 (mbxCode who)) else s

/-- MBX_CLAIM (R335): the host claims. -/
def execMbxClaim (s : State) : Res := .next (claim s .host)

/-- PLDM_REQUEST_UPDATE (R335): the sideband claims. -/
def execPldmRequestUpdate (s : State) : Res := .next (claim s .sideband)

/-- VENDOR_DEFINED_CLAIM (R335): the sideband claims. -/
def execVendorDefinedClaim (s : State) : Res := .next (claim s .sideband)

/-- MBX_RELEASE (R335): release by the owner. -/
def execMbxRelease (who : MbxWho) (s : State) : Res :=
  whenDo (sidebandUp s && decide (mbxOwner s = mbxCode who)) s (wr s R.PEX_MBX_STATUS_OWNER 0 0 0)

/-- MBX_OWNER_TIMEOUT (R335): 10 s without an operation from the owner. -/
def execMbxOwnerTimeout (s : State) : Res :=
  whenDo (decide (mbxOwner s ≠ 0) && !mbxBusy s && decide (s.mgm.opAt + 10000000000 ≤ s.utime)) s (wr s R.PEX_MBX_STATUS_OWNER 0 0 0)

def argOffset (a : W64) : Nat := getBits a 0 32
def argLength (a : W64) : Nat := getBits a 32 32

/-- An operation starts to run. -/
def mbxStart (s : State) (op : Nat) : State :=
  wr { s with mgm := { s.mgm with op := op, arg := reg s (R.PEX_MBX_ARG_OFFSET.at 0 0) } } R.PEX_MBX_STATUS_BUSY 0 0 1

/-- A GO of an operation (R335): none while BUSY; NOT_OWNER where the requester does not hold the mailbox; else `act`. -/
def mbxGo (s : State) (who : MbxWho) (act : State → State) : Res :=
  if !sidebandUp s || mbxBusy s then .next s
  else if mbxOwner s ≠ mbxCode who then .next (mbxResult s 2)
  else .next (act (mbxTouch s))

/-- GET_REPORT (R335). -/
def execGetReport (who : MbxWho) (s : State) : Res := mbxGo s who (fun s => mbxStart s 1)

/-- The flash image is invalid from now on (R335, R368). -/
def markInvalid (s : State) : State :=
  wr { s with flash := { s.flash with valid := false, marked := true } } R.PEX_MBX_STATUS_IMAGE_VALID 0 0 0

/-- IMAGE_BEGIN (R335, R390): the image is marked at once, unless stage 1 reads it. -/
def execImageBegin (who : MbxWho) (s : State) : Res :=
  mbxGo s who (fun s =>
    let n := argLength (reg s (R.PEX_MBX_ARG_OFFSET.at 0 0))
    if 4096 ≤ n ∧ n ≤ 67108864 ∧ n % 4096 = 0 then mbxStart (if stageRuns s 1 then s else markInvalid s) 2 else mbxResult s 4)

/-- IMAGE_WRITE (R335): within the image that IMAGE_BEGIN announced. -/
def execImageWrite (who : MbxWho) (s : State) : Res :=
  mbxGo s who (fun s =>
    let a := reg s (R.PEX_MBX_ARG_OFFSET.at 0 0)
    if s.mgm.size = 0 then mbxResult s 5
    else if argLength a ≤ 65536 ∧ argLength a % 8 = 0 ∧ argOffset a + argLength a ≤ s.mgm.size then mbxStart s 3 else mbxResult s 4)

/-- IMAGE_VERIFY (R335, R368). -/
def execImageVerify (who : MbxWho) (s : State) : Res :=
  mbxGo s who (fun s => if s.mgm.size = 0 then mbxResult s 5 else mbxStart s 4)

/-- RESTART (R335, R384): a module reset. -/
def execRestart (who : MbxWho) (s : State) : Res := mbxGo s who moduleReset

/-- The stage reports as GET_REPORT copies them: ten reports of four words (R374). -/
def reportBytes (s : State) : List Byte := regBytes s ((List.range 40).map (fun k => R.BOOT_REPORT_STATE.at 0 0 + 8 * k))

/-- Bytes into the mailbox buffer, and into the image area. -/
def putBuffer (s : State) (a : Nat) (bytes : List Byte) : State :=
  { s with mgm := { s.mgm with buffer := SMap.putAll (fun _ => 0) s.mgm.buffer (bytes.zipIdx.map (fun e => (a + e.2, e.1))) } }

def putImage (s : State) (a : Nat) (bytes : List Byte) : State :=
  { s with flash := { s.flash with image := SMap.putAll (fun _ => s.flash.fill) s.flash.image (bytes.zipIdx.map (fun e => (a + e.2, e.1))) } }

def bufferBytes (s : State) (n : Nat) : List Byte := (List.range n).map (SMap.look (fun _ => 0) s.mgm.buffer)

/-- IMAGE_BEGIN ends: what the erased bytes read as is a free value. -/
def endBegin (s : State) (n : Nat) (ok : Bool) : State :=
  let (v, s) := takeFree (markInvalid s)
  let s := { s with
    flash := { s.flash with image := [], fill := BitVec.ofNat 8 v.toNat }
    mgm := { s.mgm with size := if ok then n else 0, written := 0 } }
  mbxResult (wr s R.PEX_MBX_STATUS_PROGRESS 0 0 0) (if ok then 1 else 6)

/-- IMAGE_WRITE ends: what a write that failed has left is free. -/
def endWrite (s : State) (a : W64) (ok : Bool) : State :=
  let n := argLength a
  let s := wr { s with flash := { s.flash with valid := false } } R.PEX_MBX_STATUS_IMAGE_VALID 0 0 0
  if ok then
    let s := putImage s (argOffset a) (bufferBytes s n)
    let s := { s with mgm := { s.mgm with written := s.mgm.written + n } }
    mbxResult (wr s R.PEX_MBX_STATUS_PROGRESS 0 0 (min 100 (s.mgm.written * 100 / s.mgm.size))) 1
  else
    let (bs, s) := freeBytes s (n / 8)
    mbxResult (putImage s (argOffset a) bs) 6

/-- IMAGE_VERIFY ends: the checks of stage 1 from MAGIC on. -/
def endVerify (s : State) (ok : Bool) : State :=
  if !ok then mbxResult s 6
  else match imageCheck s.flash with
    | none => mbxResult (setValid { s with flash := { s.flash with marked := false } } true) 1
    | some st => mbxResult (setValid s false) (if st = 0x286 then 8 else 7)

/-- MBX_OP_DONE (R335, R390): the operation that runs ends; one that writes the flash waits for stage 1. -/
def execMbxOpDone (flashOk : Bool) (s : State) : Res :=
  if !mbxBusy s || (decide (2 ≤ s.mgm.op) && stageRuns s 1) then .next s
  else
    let t := wr (mbxTouch s) R.PEX_MBX_STATUS_BUSY 0 0 0
    match s.mgm.op with
    | 1 =>
      let bs := reportBytes t
      .next (mbxResult (wr (putBuffer t 0 bs) R.PEX_MBX_ARG_LENGTH 0 0 bs.length) 1)
    | 2 => .next (endBegin t (argLength s.mgm.arg) flashOk)
    | 3 => .next (endWrite t s.mgm.arg flashOk)
    | _ => .next (endVerify t flashOk)

/-! ### The sideband (R334, R384) -/

/-- VENDOR_RESET_MESSAGE (R384): the Henmokai vendor messages for a module or a compute reset. -/
def execVendorResetMessage (module : Bool) (s : State) : Res :=
  whenDo (sidebandUp s) s (if module then moduleReset s else computeReset s)

/-- PLDM_SENSOR_READ (R334): the input current's value is free: no rule gives what the sensor measures; a stack that is not
fitted has no sensor. -/
def execPldmSensorRead (which : Sensor) (s : State) : Res :=
  if !sidebandUp s then .next s
  else match which with
    | .inputPower => .next (emit s (.management "INPUT_POWER" [s.pwr.inputLast]))
    | .inputVoltage => .next (emit s (.management "INPUT_VOLTAGE" [rd s R.PWR_STATUS_INPUT_DV 0 0]))
    | .inputCurrent =>
      let (v, s) := takeFree s
      .next (emit s (.management "INPUT_CURRENT" [v.toNat]))
    | .dieTemp => .next (emit s (.management "DIE_TEMPERATURE" [rd s R.PWR_THERM_DIE_C 0 0]))
    | .stackTemp k =>
      if rdB s R.MEM_STACK_STATUS_FITTED k 0 then .next (emit s (.management "STACK_TEMPERATURE" [(k : Nat), rd s R.MEM_STACK_STATUS_TEMP k 0]))
      else .next s
    | .powerLimit => .next (emit s (.management "POWER_LIMIT" [limitW s]))

end Sys2Proof.Machine
end

