-- ==== Sys2Proof/Machine/Phys.lean ====
section
/-!
DEFINITION. Sys2Proof/Machine/Phys.lean: the leak sensor (R456), and the test access port and debug transport (R451).
-/
namespace Sys2Proof.Machine

/-- LEAK_SENSOR_READ (R456): a change at a fitting is posted, and liquid is logged to the flash. -/
def execLeakSensorRead (inlet outlet : Bool) (s : State) : Res :=
  if inlet = s.mgm.leakIn ∧ outlet = s.mgm.leakOut then .next s
  else
    let wet := inlet || outlet
    let w1 := if wet then 1 else 0
    let w2 := (if inlet then 1 else 0) + (if outlet then 2 else 0)
    let s := { s with mgm := { s.mgm with leakIn := inlet, leakOut := outlet } }
    let s := if wet then flashAppend s (eventWords 0x0118 w1 w2 0 (tsc s)) else s
    .next (postEvent s none 0x0118 w1 w2 0)

/-- The identification code (R451). -/
def idcodeValue (s : State) : Nat :=
  1 + getBits (BitVec.ofNat 64 Config.idcode.toNat) 1 11 * 2 + 0x4E49 * 2 ^ 12 + rd s R.GLB_ID_DIE_STEP 0 0 % 16 * 2 ^ 28

/-- IDCODE (R451). -/
def execIdcode (s : State) : Res := .next (emit { s with phy := { s.phy with inst := 0 } } (.jtag "IDCODE" (idcodeValue s)))

/-- The bypass register is selected, and nothing drives the pins. -/
def tapBypass (s : State) : State := emit { s with phy := { s.phy with inst := 0 } } (.jtag "BYPASS" 0)

/-- BYPASS (R451). -/
def execBypass (s : State) : Res := .next (tapBypass s)

/-- SAMPLE_PRELOAD (R451): the levels of the pins go to the boundary register. -/
def execSamplePreload (pins : List Bool) (s : State) : Res :=
  .next { s with phy := { s.phy with boundary := pins, inst := 0 } }

/-- An instruction that drives or floats the pins: it takes effect in the safe state, and acts as BYPASS elsewhere (R451). -/
def pinInstruction (s : State) (code : Nat) (name : String) (v : Nat) : State :=
  if rd s R.BOOT_STATE_STATE 0 0 = 2 ∨ rd s R.BOOT_STATE_STATE 0 0 = 3 then
    emit { s with phy := { s.phy with inst := code } } (.jtag name v)
  else tapBypass s

/-- The boundary register as a number, its first cell lowest. -/
def boundaryValue : List Bool → Nat
  | [] => 0
  | b :: t => (if b then 1 else 0) + 2 * boundaryValue t

/-- EXTEST (R451): the boundary register drives the pins. -/
def execExtest (s : State) : Res := .next (pinInstruction s 1 "EXTEST" (boundaryValue s.phy.boundary))

/-- CLAMP (R451): the boundary register holds the pins. -/
def execClamp (s : State) : Res := .next (pinInstruction s 2 "CLAMP" (boundaryValue s.phy.boundary))

/-- HIGHZ (R451): the pins float. -/
def execHighz (s : State) : Res := .next (pinInstruction s 3 "HIGHZ" 0)

/-- DEBUG_TRANSPORT_OPEN (R451): the transport reaches the operations of the DBG_ block. -/
def execDebugTransportOpen (s : State) : Res := .next { s with phy := { s.phy with transport := true } }

end Sys2Proof.Machine
end

