-- ==== Sys2Proof/Machine/View.lean ====
section
/-!
DEFINITION. Sys2Proof/Machine/View.lean: what a register reads as where the value follows from the rest of the state (status
and occupancy fields, selected records), and what each PCIe function reaches (R9, R29, R30, R292, R324).
-/
namespace Sys2Proof.Machine

/-! ### Fields derived from the state -/

/-- Indices of a field's register at a BAR0 offset, with `n1` and `n2` of them. -/
def Fld.ixOf (f : Fld) (n1 n2 off : Nat) : Option (Nat × Nat) :=
  if off < f.base then none
  else
    let d := off - f.base
    if f.step1 = 0 then (if d = 0 then some (0, 0) else none)
    else
      let i := d / f.step1
      let e := d % f.step1
      if n1 ≤ i then none
      else if f.step2 = 0 then (if e = 0 then some (i, 0) else none)
      else if e % f.step2 = 0 ∧ e / f.step2 < n2 then some (i, e / f.step2) else none

/-- A field whose value a read derives. -/
structure ReadField where
  fld : Fld
  n1 : Nat
  n2 : Nat
  val : State → Nat → Nat → Nat

/-- HRP_STATUS.SET0 and SET1. -/
def setCode : SetUse → Nat
  | .empty => 0
  | .filling => 1
  | .active => 2
  | .draining => 3

/-- The harp holds a pass or a descriptor. -/
def harpWorks (h : Harp) : Bool := h.active.isSome || h.next.isSome || !h.queue.isEmpty

/-- HRP_STATUS.STATE: 0 OFF, 1 IDLE, 2 RUN, 3 STALLED. -/
def harpState (s : State) (c h : Nat) : Nat :=
  if !(harpGood s c h && coreOn s c) then 0
  else if !harpWorks (harpAt s c h) then 1
  else if rd s R.HRP_STATUS_STALL_REASON c h ≠ 0 then 3
  else if (harpAt s c h).active.isSome then 2 else 1

/-- The coherence-cache half of a slice is on (R341). -/
def halfOn (s : State) (k : Nat) : Bool := decide (pwrDomain s (343 + k / 6) = 2)

/-- Free near or far pages that a stack's unit owns in a region (R181). -/
def freePages (lists : SMap (List Nat)) (s : State) (k : Nat) : Nat :=
  if rdB s R.KPU_UNIT_STATUS_FITTED k 0 then (SMap.look (fun _ => []) lists (rd s R.KPU_UNIT_STATUS_RANK k 0)).length else 0

/-- Operations of a stack's unit that are in execution, or that wait (R179, R277). -/
def opsOf (s : State) (k : Nat) (inExec : Bool) : Nat :=
  (s.kv.ops.zipIdx.filter (fun o => decide (stackOfRank s (kvUnit s (kvSq o.1.desc)) = k) && kvPlaced s o.2 o.1 == inExec)).length

def upLinkCount (s : State) : Nat := (linkIxs.filter (fun l => decide (linkState s l = 4))).length

def peersUp (s : State) : Nat :=
  (List.range 32).foldl (fun n m => if linkIxs.any (fun l => decide (linkState s l = 4 ∧ linkPeer s l = m)) then n + 2 ^ m else n) 0

/-- One of stages 4 to 7 runs (R375). -/
def progressRuns (s : State) : Bool := [4, 5, 6, 7].any (stageRuns s)

/-- Milliseconds since the stage that runs was entered (R375). PERCENT and ETA_S round down (DESIGN CHOICE, log entry 141). -/
def stageMs (s : State) : Nat := (s.utime - s.boot.stageAt) / 1000000

/-- Rings that are polled: ACTIVE, in host memory (R239). -/
def polledRings (s : State) : List Nat :=
  ringIxs.filter (fun w => decide (ringState s w = 2) && onHost s w)

/-- SEQ_STATUS.STATE: 2 busy, 1 polling, 0 asleep. -/
def seqState (s : State) : Nat :=
  if ringIxs.any (fun w => (ringAt s w).cmd.isSome) || !s.sch.hold.isEmpty then 2
  else if (polledRings s).isEmpty then 0 else 1

def pollUs (s : State) : Nat := (polledRings s).foldl (fun m w => max m (ringAt s w).pollUs) 0

/-- Entry n of a list that holds the last of `written` entries. -/
def entryAt {α : Type} (l : List α) (written n : Nat) : Option α :=
  if n < written ∧ written - n ≤ l.length then l[l.length - (written - n)]? else none

/-- Word k of the error record that RAS_ERR_SEL names (R398). -/
def errWord (s : State) (k : Nat) : Nat :=
  match s.ras.log.find? (fun r => decide (getBits (r.getD 7 0) 0 32 = rd s R.RAS_ERR_SEL_INDEX 0 0)) with
  | some r => (r.getD k 0).toNat
  | none => 0

/-- Word k of the debug-log entry that SEC_LOG_SELp names (R291). -/
def logWord (s : State) (p k : Nat) : Nat :=
  match entryAt (SMap.look (fun _ => []) s.tru.logs p) (rd s R.SEC_LOG_STATUS_WRITTEN p 0) (rd s R.SEC_LOG_SEL_INDEX p 0) with
  | some e => (e.getD k 0).toNat
  | none => 0

/-- Word k of the hit record that DBG_HIT_SEL names (R434). -/
def hitWord (s : State) (k : Nat) : Nat :=
  match entryAt s.obs.hits (rd s R.DBG_HIT_STATUS_WRITTEN 0 0) (rd s R.DBG_HIT_SEL_INDEX 0 0) with
  | some e => (e.words.getD k 0).toNat
  | none => 0

/-- A register of one 64-bit word without a field of that width. -/
def wholeWord (f : Fld) : Fld := { f with lo := 0, width := 64 }

/-- The derived fields of the harps, cores, slices and KV page units. -/
def readFieldsA : List ReadField := [
  ⟨R.BOOT_PROGRESS_PERCENT, 1, 1, fun s _ _ => if progressRuns s then min 99 (stageMs s * 100 / max 1 s.boot.estimate) else rd s R.BOOT_PROGRESS_PERCENT 0 0⟩,
  ⟨R.BOOT_PROGRESS_ETA_S, 1, 1, fun s _ _ => if progressRuns s then min 65535 ((s.boot.estimate - stageMs s) / 1000) else 0⟩,
  ⟨R.HRP_STATUS_STATE, 288, 8, harpState⟩,
  ⟨R.HRP_STATUS_SET0, 288, 8, fun s c h => setCode (harpAt s c h).set0.use⟩,
  ⟨R.HRP_STATUS_SET1, 288, 8, fun s c h => setCode (harpAt s c h).set1.use⟩,
  ⟨R.HRP_STATUS_STALL_REASON, 288, 8, fun s c h => if harpWorks (harpAt s c h) then rd s R.HRP_STATUS_STALL_REASON c h else 0⟩,
  ⟨R.HRP_STATUS_ISSUE_QUEUE, 288, 8, fun s c h => (harpAt s c h).queue.length⟩,
  ⟨R.CCH_SLICE_STATUS_STATE, 12, 1, fun s k _ => if halfOn s k && rdB s R.CCH_SLICE_STATUS_FITTED k 0 then 1 else 0⟩,
  ⟨R.CCH_SLICE_STATUS_DIRTY, 12, 1, fun s k _ =>
    (ofSlice s k ((s.ms.lines.filter (fun e => e.2.dirty)).map (fun e => e.1))).length⟩,
  ⟨R.CCH_SLICE_STATUS_WB_HELD, 12, 1, fun s k _ => (ofSlice s k s.ms.wbHeld).length⟩,
  ⟨R.CCH_SLICE_STATUS_LOST, 12, 1, fun s k _ => (ofSlice s k s.ms.lost).length⟩,
  ⟨R.KPU_FREE_FREE_NEAR, 64, 12, fun s r k => freePages (kvReg s r).near s k⟩,
  ⟨R.KPU_FREE_FREE_FAR, 64, 12, fun s r k => freePages (kvReg s r).far s k⟩,
  ⟨R.KPU_EVT_BELOW, 64, 12, fun s r k =>
    if freePages (kvReg s r).near s k < rd s R.KPU_RGN_LIMITS_LOW_WM r 0 ∧ rdB s R.KPU_UNIT_STATUS_FITTED k 0 then 1 else 0⟩,
  ⟨R.KPU_UNIT_STATUS_IN_EXEC, 12, 1, fun s k _ => opsOf s k true⟩,
  ⟨R.KPU_UNIT_STATUS_QUEUED, 12, 1, fun s k _ => min 65535 (opsOf s k false)⟩,
  ⟨R.KPU_RGN_STATUS_PENDING, 64, 1, fun s r _ => rd s R.KPU_RGN_STATUS_STATE r 0 % 2⟩]

/-- The derived fields of the sequencer, the links, power, reliability and observation. -/
def readFieldsB : List ReadField := [
  ⟨R.SEQ_STATUS_STATE, 1, 1, fun s _ _ => seqState s⟩,
  ⟨R.SEQ_STATUS_POLL_US, 1, 1, fun s _ _ => pollUs s⟩,
  ⟨R.LNK_DOMAIN_STATUS_LINKS_UP, 1, 1, fun s _ _ => upLinkCount s⟩,
  ⟨R.LNK_DOMAIN_STATUS_PEERS_UP, 1, 1, fun s _ _ => peersUp s⟩,
  ⟨R.LNK_TIME_STATUS_STATE, 1, 1, fun s _ _ => if isFollower s then rd s R.LNK_TIME_STATUS_STATE 0 0 else 2⟩,
  ⟨R.TSC_STATUS_STATE, 1, 1, fun s _ _ => tscState s⟩,
  ⟨R.PWR_REGION_STAT_RAIL_MV, 8, 1, fun s k _ => railMv s k⟩,
  ⟨R.RAS_FIT_STATUS_TESTING, 1, 1, fun s _ _ => (coreIxs.filter (fun c => (coreAt s c).testing)).length⟩,
  ⟨R.RAS_FIT_STATUS_DUE, 1, 1, fun s _ _ => (coreIxs.filter (fun c => rdB s R.RAS_FIT_CORE_DUE c 0)).length⟩,
  ⟨R.RAS_FIT_CORE_AGE_S, 288, 1, fun s c _ => min (2 ^ 32 - 1) ((s.utime - SMap.look (fun _ => 0) s.ras.testedAt c) / 1000000000)⟩,
  ⟨R.RAS_MAINT_RUNNING, 10, 1, fun s a _ =>
    match a with
    | 1 => rd s R.MEM_SCRUB_CTL_ENABLE 0 0
    | 4 => if linkIxs.any (fun l => (linkAt s l).planned) then 1 else 0
    | _ => if (liveMaint s).any (fun r => decide (r.1 = a)) then 1 else 0⟩,
  ⟨R.RAS_ERR_W_WORD, 8, 1, fun s k _ => errWord s k⟩,
  ⟨R.SEC_LOG_E_WORD, 16, 4, logWord⟩,
  ⟨wholeWord R.DBG_HIT_W0_TSC, 1, 1, fun s _ _ => hitWord s 0⟩,
  ⟨wholeWord R.DBG_HIT_W1_WP, 1, 1, fun s _ _ => hitWord s 1⟩,
  ⟨wholeWord R.DBG_HIT_W2_PA, 1, 1, fun s _ _ => hitWord s 2⟩,
  ⟨wholeWord R.DBG_HIT_W3_VA, 1, 1, fun s _ _ => hitWord s 3⟩]

/-- The word of a register with its derived fields. -/
def viewWord (s : State) (off : Nat) : W64 :=
  (readFieldsA ++ readFieldsB).foldl (fun w f => match f.fld.ixOf f.n1 f.n2 off with
    | some (i, j) => setBits w f.fld.lo f.fld.width (f.val s i j)
    | none => w) (reg s off)

/-! ### Fields whose value the spec leaves to the engines' timing -/

/-- A field that reads as a free value up to `most` while its condition holds (log entry 1). -/
structure FreeField where
  fld : Fld
  n1 : Nat
  n2 : Nat
  most : Nat
  cond : State → Nat → Nat → Bool

/-- Occupancies of a running harp's operand queues, and the item furthest behind in a running stage (R375). -/
def freeFields : List FreeField := [
  ⟨R.HRP_STATUS_A_QUEUE_MIN, 288, 8, 16, fun s c h => (harpAt s c h).active.isSome⟩,
  ⟨R.HRP_STATUS_B_QUEUE, 288, 8, 16, fun s c h => (harpAt s c h).active.isSome⟩,
  ⟨R.BOOT_PROGRESS_PATTERN, 1, 1, 15, fun s _ _ => stageRuns s 5⟩,
  ⟨R.BOOT_PROGRESS_STACK, 1, 1, 11, fun s _ _ => stageRuns s 4 || stageRuns s 5⟩,
  ⟨R.BOOT_PROGRESS_CHANNEL, 1, 1, 7, fun s _ _ => stageRuns s 4 || stageRuns s 5⟩,
  ⟨R.BOOT_PROGRESS_BANK, 1, 1, 63, fun s _ _ => stageRuns s 5⟩,
  ⟨R.BOOT_PROGRESS_ITEM, 1, 1, 287, fun s _ _ => stageRuns s 6 || stageRuns s 7⟩]

/-- A register's word as a read returns it, and the state after any free values taken. -/
def readView (s : State) (off : Nat) : W64 × State :=
  freeFields.foldl (fun (a : W64 × State) f => match f.fld.ixOf f.n1 f.n2 off with
    | some (i, j) =>
      if f.cond a.2 i j then
        let (v, s) := takeFree a.2
        (setBits a.1 f.fld.lo f.fld.width (v.toNat % (f.most + 1)), s)
      else a
    | none => a) (viewWord s off, s)

/-! ### What a function reaches (R28 to R30, R292) -/

/-- Core whose window holds an offset, and the offset in the window. -/
def windowOf (off : Nat) : Option (Nat × Nat) :=
  if 0x1000000 ≤ off ∧ off < 0x2200000 then some ((off - 0x1000000) / 65536, off % 65536) else none

/-- `off` lies in [lo, lo + n). -/
def within (off lo n : Nat) : Bool := decide (lo ≤ off ∧ off < lo + n)

/-- Bit i of a partition's mask of rings, completion rings or regions. -/
def ofPartMask (s : State) (f : Fld) (p i : Nat) : Bool := decide (i < 64) && decide (rd s f p 0 / 2 ^ i % 2 = 1)

/-- Offsets that virtual function p + 1 reaches (R292); GLB_, the TSC and the module's SEC_ registers are read only. -/
def vfReaches (s : State) (p off : Nat) (write : Bool) : Bool :=
  (!write && (decide (off < 0x100000) || decide (off = R.TSC_VALUE_TSC.at 0 0) || decide (off = R.SEQ_CAPS_RQ_RINGS.at 0 0) ||
    within off 0x500000 0x48)) ||
  (within off 0x310000 0x4000 && ofPartMask s R.PRT_RINGS_RQ p ((off - 0x310000) / 256)) ||
  (within off 0x320000 0x1000 && ofPartMask s R.PRT_CQS_CQ p ((off - 0x320000) / 64)) ||
  within off 0x380000 0x8100 ||
  within off (0x400070 + p * 0x100) 16 ||
  within off (0x480000 + p * 0x400) 0x400 || within off (0x484000 + p * 16) 16 ||
  within off (0x510000 + p * 0x100) 0x100 || within off (0x520000 + p * 0x200) 0x200 ||
  within off 0x600100 24 ||
  (within off 0x740000 0x4000 && ofPartMask s R.PRT_REGIONS_REGIONS p ((off - 0x740000) / 256)) ||
  (within off 0x780000 0x4000 && ofPartMask s R.PRT_REGIONS_REGIONS p ((off - 0x780000) / 256)) ||
  (match windowOf off with
   | some (c, _) => inMask s R.PRT_CORE_CORES p c
   | none => false)

/-- A virtual function decodes: its partition is valid and VF Enable is set (R323, R373), and its requests are not the trusted ones
of an interface in ERROR (R289). -/
def vfOpen (s : State) (p : Nat) : Bool := hostReady s && s.hst.vfEnable && rdB s R.PRT_CFG_VALID p 0 && !trustedOff s (p + 1)

/-- A BAR0 offset is served for a function (R29, R31, R292, R373): before stage 8 ends only GLB_, BOOT_ and PEX_ answer, and the
window of a core that is not usable reads as zeros and ignores writes. -/
def served (s : State) (fn off : Nat) (write : Bool) : Bool :=
  let usable := match windowOf off with
    | some (c, _) => coreUsable s c
    | none => true
  usable && (if fn = 0 then hostReady s || decide (off < 0x200000) || within off 0xB00000 0x100000
    else vfOpen s (fn - 1) && vfReaches s (fn - 1) off write)

/-- An access is a naturally aligned 64-bit one within the 64 MiB of BAR0 (R9). -/
def aligned64 (off size : Nat) : Bool := decide (size = 8 ∧ off % 8 = 0 ∧ off < 0x4000000)

/-! ### Reads of BAR0 -/

/-- Fields that hold a physical address and read as a partition offset through a virtual function (R269). -/
def offsetFields : List (Fld × (State → Nat → Bool)) := [
  (R.SEQ_RQ_BASE_ADDR, fun s w => decide (rd s R.SEQ_RQ_BASE_LOC w 0 = 0)),
  (R.SEQ_RQ_SAVE_PA, fun _ _ => true),
  (R.KPU_RGN_NEAR_NEAR_PA, fun s r => decide ((kvGeo s r).nearN ≠ 0)),
  (R.KPU_RGN_FAR_FAR_PA, fun s r => decide ((kvGeo s r).farN ≠ 0)),
  (R.KPU_RGN_SCALE_SCALE_PA, fun s r => (kvGeo s r).scaled),
  (R.KPU_RGN_META_META_PA, fun s r => decide ((kvGeo s r).nearN ≠ 0))]

/-- A word as virtual function p + 1 reads it: addresses as partition offsets, PARTITION as p, MODULE_EVENTS as 0, and its own
copies of the invalidation registers (R269, R292). -/
def vfView (s : State) (p off : Nat) (v : W64) : W64 :=
  let v := offsetFields.foldl (fun v f => match f.1.ixOf 64 1 off with
    | some (i, _) =>
      if f.2 s i then setBits v f.1.lo f.1.width ((offsetOf (partRanges s p) 0 (getBits v f.1.lo f.1.width * 2 ^ f.1.lo)).getD 0 / 2 ^ f.1.lo) else v
    | none => v) v
  let v := [R.SEQ_RQ_CFG_PARTITION, R.SEQ_CQ_CFG_PARTITION, R.KPU_RGN_CFG_PARTITION].foldl (fun v f =>
    if (f.ixOf 64 1 off).isSome then setBits v f.lo f.width p else v) v
  let v := if (R.SEQ_CQ_CFG_MODULE_EVENTS.ixOf 64 1 off).isSome then setBits v 6 1 0 else v
  if off = R.DTU_INVAL_VA_VA.at 0 0 then SMap.look (fun _ => 0) s.ms.invalVa (p + 1)
  else if off = R.DTU_INVAL_CTL_CTX.at 0 0 then BitVec.ofNat 64 p else v

/-- DTU_INVAL_STATUS of a function: one of its invalidations waits (R231, R292). -/
def invalPending (s : State) (fn : Nat) : Bool := s.ms.invals.any (fun i => decide (i.fn = fn))

/-- Words of the MSI-X table and the pending-bit array of a function (R324). -/
def msixWord (s : State) (fn off : Nat) : W64 :=
  if off < 0x388000 then SMap.look msixDefault s.hst.msix (fn * 4096 + (off - 0x380000) / 8)
  else BitVec.ofNat 64 ((List.range 64).foldl (fun n i =>
    if SMap.look (fun _ => false) s.hst.msixPending (fn * 2048 + (off - 0x388000) * 8 + i) then n + 2 ^ i else n) 0)

/-- The value of a read that is served, before any clearing. -/
def readServed (s : State) (fn off : Nat) : W64 × State :=
  if within off 0x380000 0x8100 then (msixWord s fn off, s)
  else if within off 0xB10000 0x10000 then
    (BitVec.ofNat 64 (leNat ((List.range 8).map (fun i => SMap.look (fun _ => 0) s.mgm.buffer (off - 0xB10000 + i)))), s)
  else
    let (v, s) := readView s off
    let v := if fn = 0 then v else vfView s (fn - 1) off v
    (if off = R.DTU_INVAL_STATUS_PENDING.at 0 0 then (if invalPending s fn then 1 else 0) else v, s)

/-- A clearing read clears every RC field of its register (R10). -/
def clearOnRead (s : State) (off : Nat) : State :=
  match regAt off with
  | none => s
  | some r => r.fields.foldl (fun s f => if f.acc = .rc then setReg s off (setBits (reg s off) f.lo f.width 0) else s) s

/-- The physical function's access to the window of a core that a partition owns is a debug access (R290). -/
def windowDebug (s : State) (fn off cls : Nat) : State :=
  match windowOf off with
  | none => s
  | some (c, o) => match coreOwner s c with
    | some p => if fn = 0 then debugAccess s p cls 0 o (some c) else s
    | none => s

/-- A read of BAR0 takes effect and returns its value. -/
def readNow (s : State) (fn off size : Nat) : State :=
  if !(aligned64 off size && served s fn off false) then emit s (.regRead fn off 0)
  else
    let s := windowDebug s fn off 5
    let (v, s) := readServed s fn off
    emit (clearOnRead s off) (.regRead fn off v)

end Sys2Proof.Machine
end

