-- ==== Sys2Proof/Machine/Access.lean ====
section
/-!
DEFINITION. Sys2Proof/Machine/Access.lean: requests to the BARs (R9 to R13, R28 to R31, R161, R162, R238, R292, R322 to R325),
configuration requests (R323) and the operator's debug accesses (R290).
-/
namespace Sys2Proof.Machine

/-! ### Writes of BAR0 -/

/-- Continue after an outcome. -/
def thenDo (r : Res) (f : State → Res) : Res :=
  match r with
  | .next s => f s
  | .fault e => .fault e
  | .refused e => .refused e

def fin16 (n : Nat) : Fin 16 := Fin.ofNat 16 n
def fin64 (n : Nat) : Fin 64 := Fin.ofNat 64 n
def finCore (n : Nat) : Fin 288 := Fin.ofNat 288 n
def finLink (n : Nat) : Fin 96 := Fin.ofNat 96 n
def finPort (n : Nat) : Fin 2 := Fin.ofNat 2 n
def finFn (n : Nat) : Fin 17 := Fin.ofNat 17 n

/-- Bit k of a written word. -/
def bitOf (v : W64) (k : Nat) : Bool := decide (getBits v k 1 = 1)

/-- What a write of a register starts, beside the fields it stores: function, the register's indices, the word, and the state
before and after its fields are stored. -/
structure RegAction where
  fld : Fld
  n1 : Nat
  n2 : Nat
  /-- the action stores the fields itself -/
  whole : Bool
  run : Nat → Nat → Nat → W64 → State → State → Res

/-- Run a command where a bit of the written word is 1. -/
def onBit (k : Nat) (r : State → Res) (v : W64) (s : State) : Res := if bitOf v k then r s else .next s

/-- SEQ_RQ_CTL (R240, R263, R266): a write with more than one bit set has no effect. -/
def writeRqCtl (fn w : Nat) (v : W64) (s : State) : Res :=
  match getBits v 0 5 with
  | 1 => execRqCommit (finFn fn) (fin64 w) s
  | 2 => execRqStart (fin64 w) s
  | 4 => execRqStop (fin64 w) s
  | 8 => execRqAbort (fin64 w) s
  | 16 => execRqRewind (fin64 w) s
  | _ => .next s

/-- SEQ_CQ_CTL (R253, R292): through a virtual function PARTITION is the function's own. -/
def writeCqCtl (fn q : Nat) (v : W64) (s : State) : Res :=
  if !bitOf v 0 then .next s
  else
    let off := R.SEQ_CQ_CFG_PARTITION.at q 0
    execCqCommit (fin64 q) (if fn = 0 then s else setShadow s off (setBits (shadowWord s off) 1 4 (fn - 1)))

/-- PRT_CTLp (R272, R274): a write with both bits set has no effect. -/
def writePrtCtl (p : Nat) (v : W64) (s : State) : Res :=
  match getBits v 0 2 with
  | 1 => execPartitionCommit (fin16 p) s
  | 2 => execPartitionReset (fin16 p) s
  | _ => .next s

/-- BOOT_RESET (R384, R385): a write that sets more than one bit has no effect. -/
def writeBootReset (v : W64) (s : State) : Res :=
  match getBits v 0 3 with
  | 1 => execBootResetModule s
  | 2 => execBootResetCompute s
  | 4 => if getBits v 8 9 < 288 then execBootResetCore (finCore (getBits v 8 9)) s else .next s
  | _ => .next s

/-- RAS_HALT_CTL (R416, R419): a write with both START and RELEASE acts on neither and still writes LEAD_NS. -/
def writeHaltCtl (v : W64) (s : State) : Res :=
  match getBits v 0 2 with
  | 1 => execHaltStart (getBits v 16 16) s
  | 2 => execHaltRelease (writeFields s (R.RAS_HALT_CTL_LEAD_NS.at 0 0) v)
  | _ => .next (writeFields s (R.RAS_HALT_CTL_LEAD_NS.at 0 0) v)

/-- A GO of the mailbox by the host (R335). -/
def mailboxGo (opcode : Nat) (s : State) : Res :=
  match opcode with
  | 1 => execGetReport .host s
  | 2 => execImageBegin .host s
  | 3 => execImageWrite .host s
  | 4 => execImageVerify .host s
  | 5 => execRestart .host s
  | _ => mbxGo s .host (fun s => mbxResult s 3)

/-- PEX_MBX_CTL (R335): its bits act in ascending order (DESIGN CHOICE, log entry 49). -/
def writeMbxCtl (v : W64) (s : State) : Res :=
  thenDo (onBit 0 execMbxClaim v s) (fun s => thenDo (onBit 1 (execMbxRelease .host) v s) (onBit 2 (mailboxGo (getBits v 4 4)) v))

/-- SEC_IMP_CTLp (R285, R286). -/
def writeImpCtl (p : Nat) (v : W64) (s : State) : Res :=
  thenDo (onBit 0 (execSealImportStart (fin16 p)) v s) (onBit 1 (execSealUnseal (fin16 p) (fin16 (getBits v 4 4))) v)

/-- LNK_CTLl (R311, R319). -/
def writeLnkCtl (l : Nat) (v : W64) (s : State) : Res :=
  thenDo (onBit 0 (execLinkCommit (finLink l)) v s) (onBit 1 (fun s => if linkState s l = 4 then execLinkRekeyRequest (finLink l) s else .next s) v)

/-- A port is held OFF, or may train again (R331, R341): the event of a port that leaves UP carries a free cause. -/
def portEnable (n : Nat) (before after : State) : State :=
  match rdB before R.CXL_PORT_CTL_ENABLE n 0, rdB after R.CXL_PORT_CTL_ENABLE n 0 with
  | true, false =>
    let up := portUp after n
    let s := setPwrDomain (wr after R.CXL_PORT_STATUS_STATE n 0 0) (324 + n) 0
    if up then
      let (v, s) := takeFree s
      postEvent s none 0x010C n (getBits v 0 4) 0
    else s
  | false, true => wr (setPwrDomain after (324 + n) 2) R.CXL_PORT_STATUS_STATE n 0 1
  | _, _ => after

/-- CNT_TRACE_CTL (R435, R436): setting ENABLE starts the buffer afresh, and through the physical function it is a debug access of
class PROFILE. -/
def traceEnable (fn c : Nat) (before after : State) : State :=
  if rdB after R.CNT_TRACE_CTL_ENABLE c 0 && !rdB before R.CNT_TRACE_CTL_ENABLE c 0 then
    let s := wr (wr after R.CNT_TRACE_STATUS_WRITTEN c 0 0) R.CNT_TRACE_STATUS_FULL c 0 0
    let s := onCore s c (fun x => { x with trace := [], lost := 0 })
    match fn, coreOwner s c with
    | 0, some p => debugAccess s p 9 0 (R.CNT_TRACE_CTL_ENABLE.at 0 0 % 65536) (some c)
    | _, _ => s
  else after

/-- CNT_SNAP_CTL.TAKE (R427, R290). -/
def snapTake (fn c : Nat) (s : State) : Res :=
  let s := match fn, coreOwner s c with
    | 0, some p => debugAccess s p 9 0 (R.CNT_SNAP_CTL_TAKE.at 0 0 % 65536) (some c)
    | _, _ => s
  execCntSnapTake (finCore c) s

/-- TSC_CTL (R438, R439): a PPS_DELAY outside -100,000 to 100,000 leaves the register unchanged; a new SOURCE starts from no lock. -/
def writeTscCtl (v : W64) (s : State) : State :=
  let d := signedOf 32 (getBits v 32 32)
  if -100000 ≤ d ∧ d ≤ 100000 then
    let t := writeFields s (R.TSC_CTL_SOURCE.at 0 0) v
    if rd t R.TSC_CTL_SOURCE 0 0 = rd s R.TSC_CTL_SOURCE 0 0 then t
    else wr { t with time := { t.time with state := 0, good := 0, steer := 0 } } R.TSC_STATUS_REF_LOCKED 0 0 0
  else s

/-- Registers that start something in the memory system, the rings, the partitions and the security engine. -/
def regActionsA : List RegAction := [
  ⟨R.PRT_GUARD_COMMIT_COMMIT, 16, 1, false, fun _ p _ v _ s => onBit 0 (execGuardCommit (fin16 p)) v s⟩,
  ⟨R.KPU_RGN_COMMIT_COMMIT, 64, 1, false, fun fn r _ v _ s => onBit 0 (execKpuRgnCommit (finFn fn) (fin64 r)) v s⟩,
  ⟨R.MEM_COMMIT_COMMIT, 1, 1, false, fun _ _ _ v _ s => onBit 0 execMemCommit v s⟩,
  ⟨R.CCH_WAY_COMMIT_COMMIT, 1, 1, false, fun _ _ _ v _ s => onBit 0 execCchWayCommit v s⟩,
  ⟨R.CCH_FLUSH_CTL_START, 1, 1, false, fun _ _ _ v _ s => onBit 0 execCchFlushStart v s⟩,
  ⟨R.DTU_INVAL_CTL_CTX, 1, 1, false, fun fn _ _ v _ s => execDtuInvalidate (finFn fn) v s⟩,
  ⟨R.DTU_CTX_ROOT_VALID, 16, 1, true, fun _ p _ v _ s => execDtuCtxRootWrite (fin16 p) v s⟩,
  ⟨R.SEQ_COMMIT_COMMIT, 1, 1, false, fun _ _ _ v _ s => onBit 0 execSeqSchedCommit v s⟩,
  ⟨R.SEQ_RQ_CTL_COMMIT, 64, 1, false, fun fn w _ v _ s => writeRqCtl fn w v s⟩,
  ⟨R.SEQ_CQ_CTL_COMMIT, 64, 1, false, fun fn q _ v _ s => writeCqCtl fn q v s⟩,
  ⟨R.PRT_CTL_COMMIT, 16, 1, false, fun _ p _ v _ s => writePrtCtl p v s⟩,
  ⟨R.PRT_RANGE_CTL_COMMIT, 1, 1, false, fun _ _ _ v _ s => onBit 0 execRangeCommit v s⟩,
  ⟨R.PRT_ISO_CTL_COMMIT, 1, 1, false, fun _ _ _ v _ s => onBit 0 execIsoCommit v s⟩,
  ⟨R.SEC_ROLLBACK_CTL_ADVANCE, 1, 1, false, fun _ _ _ v _ s => onBit 0 execRollbackAdvance v s⟩,
  ⟨R.SEC_IMP_CTL_START, 16, 1, false, fun _ p _ v _ s => writeImpCtl p v s⟩]

/-- Registers that start something in the links, the host interfaces, power, bring-up, reliability and observation. -/
def regActionsB : List RegAction := [
  ⟨R.LNK_DOMAIN_CTL_COMMIT, 1, 1, false, fun _ _ _ v _ s => onBit 0 execDomainCommit v s⟩,
  ⟨R.LNK_WIN_CTL_COMMIT, 1, 1, false, fun _ _ _ v _ s => onBit 0 execWindowCommit v s⟩,
  ⟨R.LNK_CTL_COMMIT, 96, 1, false, fun _ l _ v _ s => writeLnkCtl l v s⟩,
  ⟨R.LNK_INJ_CFG_MODE, 96, 1, true, fun _ l _ v _ s => execLnkInjCfgWrite (finLink l) v s⟩,
  ⟨R.PEX_MBX_CTL_CLAIM, 1, 1, false, fun _ _ _ v _ s => writeMbxCtl v s⟩,
  ⟨R.CXL_PORT_CTL_RESET, 2, 1, false, fun _ n _ v s0 s => onBit 0 (execCxlPortReset (finPort n)) v (portEnable n s0 s)⟩,
  ⟨R.PWR_COMMIT_COMMIT, 1, 1, false, fun _ _ _ v _ s => onBit 0 execPwrCommit v s⟩,
  ⟨R.CLK_COMMIT_COMMIT, 1, 1, false, fun _ _ _ v _ s => onBit 0 execClkCommit v s⟩,
  ⟨R.BOOT_NEXT_COMMIT_COMMIT, 1, 1, false, fun _ _ _ v _ s => onBit 0 execBootNextCommit v s⟩,
  ⟨R.BOOT_RESET_MODULE, 1, 1, false, fun _ _ _ v _ s => writeBootReset v s⟩,
  ⟨R.RAS_HALT_CTL_START, 1, 1, true, fun _ _ _ v _ s => writeHaltCtl v s⟩,
  ⟨R.RAS_PDD_CTL_ENABLE, 1, 1, true, fun _ _ _ v _ s => execRasPddCtlWrite v s⟩,
  ⟨R.CNT_CTL_CLEAR, 288, 1, false, fun _ c _ v _ s => onBit 2 (execCntClear (finCore c)) v s⟩,
  ⟨R.CNT_SNAP_CTL_TAKE, 288, 1, false, fun fn c _ v _ s => onBit 0 (snapTake fn c) v s⟩,
  ⟨R.CNT_TRACE_CTL_ENABLE, 288, 1, false, fun fn c _ _ s0 s => .next (traceEnable fn c s0 s)⟩,
  ⟨R.CNT_SPWP_CFG_ENABLE, 288, 2, true, fun fn c m v _ s => execWatchpointEnable (finFn fn) (.spd (finCore c) (Fin.ofNat 2 m)) v s⟩,
  ⟨R.DBG_WP_CFG_ENABLE, 16, 1, true, fun fn n _ v _ s => execWatchpointEnable (finFn fn) (.mem (fin16 n)) v s⟩,
  ⟨R.DBG_SNAP_CTL_ARM, 1, 1, false, fun _ _ _ v _ s => onBit 0 (execDbgSnapArm (getBits v 16 16)) v s⟩,
  ⟨R.TSC_SET_VALUE, 1, 1, false, fun _ _ _ v _ s => execTscSet v s⟩,
  ⟨R.TSC_PPS_NEXT_NEXT, 1, 1, true, fun _ _ _ v _ s => execTscPpsNextWrite v s⟩,
  ⟨R.TSC_CTL_SOURCE, 1, 1, true, fun _ _ _ v _ s => .next (writeTscCtl v s)⟩]

/-- The action of a register, with its indices. -/
def actionAt (off : Nat) : Option (RegAction × Nat × Nat) :=
  (regActionsA ++ regActionsB).findSome? (fun a => (a.fld.ixOf a.n1 a.n2 off).map (fun ij => (a, ij.1, ij.2)))

/-- A word as virtual function p + 1 writes it: PARTITION is p, and MODULE_EVENTS is not written (R292). -/
def vfWord (s : State) (p off : Nat) (v : W64) : W64 :=
  let v := [R.SEQ_RQ_CFG_PARTITION, R.SEQ_CQ_CFG_PARTITION, R.KPU_RGN_CFG_PARTITION].foldl (fun v f =>
    if (f.ixOf 64 1 off).isSome then setBits v f.lo f.width p else v) v
  if (R.SEQ_CQ_CFG_MODULE_EVENTS.ixOf 64 1 off).isSome then setBits v 6 1 (getBits (shadowWord s off) 6 1) else v

/-- Classes of debug access that a register's own action logs in place of REG_WRITE: snapshots, traces that start, and watchpoints
(R290). -/
def ownClass (s : State) (off : Nat) (v : W64) : Bool :=
  ((R.CNT_SNAP_CTL_TAKE.ixOf 288 1 off).isSome && bitOf v 0) ||
    (match R.CNT_TRACE_CTL_ENABLE.ixOf 288 1 off with
     | some (c, _) => bitOf v 0 && !rdB s R.CNT_TRACE_CTL_ENABLE c 0
     | none => false) ||
    ((R.CNT_SPWP_CFG_ENABLE.ixOf 288 2 off).isSome && bitOf v 0)

/-- A word of an MSI-X table is written: a vector that this unmasks sends the message it owes (R324). -/
def msixWrite (s : State) (fn off : Nat) (v : W64) : Res :=
  let k := (off - 0x380000) / 8
  let key := fn * 4096 + k
  if 0x388000 ≤ off then .next s
  else if k % 2 = 0 then .next { s with hst := { s.hst with msix := SMap.put msixDefault s.hst.msix key v } }
  else
    let s := { s with hst := { s.hst with msix := SMap.put msixDefault s.hst.msix key (setBits v 33 31 0) } }
    if getBits v 32 1 = 0 then execMsixUnmask (finFn fn) (Fin.ofNat 2048 (k / 2)) s else .next s

/-- A word of the mailbox buffer is written. -/
def bufferWrite (s : State) (off : Nat) (v : W64) : State := putBuffer s (off - 0xB10000) (leBytes 8 v.toNat)

/-- A write that is served, as a function's register write: the register's fields, then its action. -/
def writeServed (s : State) (fn off : Nat) (v : W64) : Res :=
  if within off 0x380000 0x8100 then msixWrite s fn off v
  else if within off 0xB10000 0x10000 then .next (bufferWrite s off v)
  else if off = R.DTU_INVAL_VA_VA.at 0 0 ∧ fn ≠ 0 then
    .next { s with ms := { s.ms with invalVa := SMap.put (fun _ => 0) s.ms.invalVa fn (setBits (setBits v 0 16 0) 48 16 0) } }
  else
    let v := if fn = 0 then v else vfWord s (fn - 1) off v
    match actionAt off with
    | none => .next (writeFields s off v)
    | some (a, i, j) => a.run fn i j v s (if a.whole then s else writeFields s off v)

/-- A write of BAR0 takes effect. -/
def writeNow (s : State) (fn off size : Nat) (v : W64) : Res :=
  if !(aligned64 off size && served s fn off true) then .next s
  else writeServed (if ownClass s off v then s else windowDebug s fn off 6) fn off v

/-! ### Memory through BAR2 (R162, R286, R322, R323) -/

/-- Bytes of the physical function's BAR2 (R322). -/
def pfBar2 (s : State) : Nat :=
  match s.hst.bar2Log2 with
  | some k => 2 ^ (30 + k)
  | none => if rd s R.GLB_ID_GRADE 0 0 = 3 then 2 ^ 40 else 2 ^ 41

/-- Physical address that an offset of a function's BAR2 reaches, if any: near memory that HOST_ACCESS leaves open through the
physical function, the partition's memory through its own. -/
def bar2Addr (s : State) (fn o : Nat) : Option Nat :=
  if !hostReady s then none
  else if fn = 0 then
    if o < pfBar2 s ∧ placeOf s o = .near then
      match ownerOf s o with
      | some p => if rdB s R.PRT_CFG_HOST_ACCESS p 0 then some o else none
      | none => some o
    else none
  else if vfOpen s (fn - 1) && decide (o < 2 ^ (30 + s.hst.vfBar2Log2)) then partOffset s (fn - 1) o
  else none

/-- Pieces of a request of n bytes, each within a line of its BAR: offset and bytes. -/
def linePieces (o n : Nat) : List (Nat × Nat) :=
  if n = 0 then []
  else (List.range ((o + n - 1) / 64 - o / 64 + 1)).map (fun i =>
    let lo := max o ((o / 64 + i) * 64)
    (lo, min (o + n) ((o / 64 + i) * 64 + 64) - lo))

/-- A read finds poison in a partition's memory or the module's (R396, R397): source 7, the host link. -/
def hostPoison (s : State) (pa n : Nat) : State :=
  match cohPoisonAt s pa n with
  | some a => poisonFound s 7 0 1 a
  | none => s

/-- `n` bytes of a host read at a physical address within one line: with the mark, or zeros where nothing is reached or the
bytes are sealed (R29, R286). -/
def hostPiece (fn : Nat) (a : State × List Byte × Bool) (at_ : Option Nat) (n : Nat) : State × List Byte × Bool :=
  match at_ with
  | none => (a.1, a.2.1 ++ List.replicate n 0, a.2.2)
  | some pa =>
    if sealedPa a.1 pa then (a.1, a.2.1 ++ List.replicate n 0, a.2.2)
    else
      let s := sliceRd a.1 (.bar2 (finFn fn)) none none pa n
      let (d, mark) := cohRead s pa n
      (hostPoison s pa n, a.2.1 ++ d, a.2.2 || mark)

/-- One line piece of a BAR2 read: its bytes with the mark. -/
def bar2Piece (fn : Nat) (a : State × List Byte × Bool) (pc : Nat × Nat) : State × List Byte × Bool :=
  hostPiece fn a (bar2Addr a.1 fn pc.1) pc.2

/-- A BAR2 read is served at the point of coherence. -/
def bar2ReadNow (s : State) (fn off len : Nat) : State :=
  let r := (linePieces off len).foldl (bar2Piece fn) (s, [], false)
  emit r.1 (.readData fn r.2.1 r.2.2)

/-- A posted write of the host link to module memory, one line piece. -/
def hostFlight (fn pa : Nat) (data : List Byte) (poison relaxed : Bool) : Flight :=
  { flightOf .pcie (.mem pa) data poison false none (if fn = 0 then none else some (fn - 1)) none with relaxed := relaxed }

/-- A BAR2 write is on its way to its home slices; bytes of sealed ranges and bytes it does not reach are discarded. -/
def bar2WriteNow (s : State) (fn off : Nat) (data : List Byte) (poison relaxed : Bool) : State :=
  (linePieces off data.length).foldl (fun s pc =>
    match bar2Addr s fn pc.1 with
    | none => s
    | some pa =>
      if sealedPa s pa then s
      else issue s (hostFlight fn pa ((data.drop (pc.1 - off)).take pc.2) poison relaxed)) s

/-- Ring whose window holds a BAR4 offset through a function, with its base and bytes (R238, R292). -/
def bar4Ring (s : State) (fn off : Nat) : Option (Nat × Nat) :=
  let w := off / 0x100000
  if hostReady s && decide (w < 64) && rdB s R.SEQ_RQ_CFG_VALID w 0 && !onHost s w &&
      (decide (fn = 0) || (vfOpen s (fn - 1) && ofPartMask s R.PRT_RINGS_RQ (fn - 1) w)) then
    some (rd s R.SEQ_RQ_BASE_ADDR w 0 * 4096, ringSlots s w * 128)
  else none

/-- A BAR4 write is on its way to the ring; bytes beyond the ring are discarded. -/
def bar4WriteNow (s : State) (fn off : Nat) (data : List Byte) (poison : Bool) : State :=
  match bar4Ring s fn off with
  | none => s
  | some (base, size) =>
    let o := off % 0x100000
    let data := data.take (size - o)
    (linePieces (base + o) data.length).foldl (fun s pc =>
      if sealedPa s pc.1 then s else issue s (hostFlight fn pc.1 ((data.drop (pc.1 - (base + o))).take pc.2) poison false)) s

/-- Bytes of a BAR4 access that lie within the ring, as line pieces of physical memory (R238). -/
def bar4Pieces (s : State) (fn off len : Nat) : List (Nat × Nat) :=
  match bar4Ring s fn off with
  | none => []
  | some (base, size) => linePieces (base + off % 0x100000) (min len (size - off % 0x100000))

/-- A BAR4 read is served byte by byte: the bytes within the ring, and zeros beyond (R29, R238). -/
def bar4ReadNow (s : State) (fn off len : Nat) : State :=
  let r := (bar4Pieces s fn off len).foldl (fun a pc => hostPiece fn a (some pc.1) pc.2) (s, [], false)
  emit r.1 (.readData fn (r.2.1 ++ List.replicate (len - r.2.1.length) 0) r.2.2)

/-- Word that an AtomicOp may change: aligned, reached, and outside sealed ranges and blocked targets (R325). -/
def atomicAddr (s : State) (fn off : Nat) : Option Nat :=
  if off % 8 ≠ 0 then none
  else match bar2Addr s fn off with
    | some pa => if sealedPa s pa || importBlocks s pa then none else some pa
    | none => none

/-- An AtomicOp on BAR2 is performed and completes with the old word, or completes with Unsupported Request. -/
def atomicNow (s : State) (fn off : Nat) (op : AtomicOp) (x cmp : W64) : State :=
  match atomicAddr s fn off with
  | none => emit s (.unsupported fn)
  | some pa =>
    let s := hostPoison s pa 8
    let (s, old, bad) := sliceAtom s (.bar2 (finFn fn)) none none pa op x cmp false
    emit s (.readData fn (leBytes 8 old.toNat) bad)

/-! ### Holding and proceeding (R31, R209, R222, R344) -/

def Held.posted : Held → Bool
  | .read .. => false
  | .write .. => true
  | .bar2read .. => false
  | .bar2write .. => true
  | .bar4write .. => true
  | .atomic .. => false

/-- The window that a BAR0 access addresses is awake, or waking it is not asked (R31). -/
def windowAwake (s : State) (fn off : Nat) (write : Bool) : Bool :=
  match windowOf off with
  | some (c, _) => !served s fn off write || coreOn s c
  | none => true

/-- Posted writes of the host link have not all landed: a read does not pass them. -/
def hostWritesLeft (s : State) : Bool := s.ord.flights.any (fun f => decide (f.src = .pcie))

/-- A line piece of a BAR2 request waits at its slice or its stack (R209, R222, R412). -/
def bar2Waits (s : State) (fn off len : Nat) : Bool :=
  (linePieces off len).any (fun pc => match bar2Addr s fn pc.1 with
    | some pa => memWaits s pa pc.2
    | none => false)

/-- A line piece of a BAR4 read waits (R209, R222, R412). -/
def bar4Waits (s : State) (fn off len : Nat) : Bool := (bar4Pieces s fn off len).any (fun pc => memWaits s pc.1 pc.2)

/-- An access may proceed: the die is awake, no posted write that arrived before it is held, and what it addresses can answer. -/
def mayProceed (s : State) (before : List Held) (h : Held) : Bool :=
  !dieSleeps s && !before.any Held.posted &&
  (match h with
   | .read fn off _ => windowAwake s fn off false
   | .write fn off _ _ => windowAwake s fn off true
   | .bar2read fn bar4 off len => !hostWritesLeft s && !(if bar4 then bar4Waits s fn off len else bar2Waits s fn off len)
   | .atomic fn off _ _ _ => !hostWritesLeft s && !bar2Waits s fn off 8
   | .bar2write .. => true
   | .bar4write .. => true)

/-- Start the wake that an access waits for. -/
def wakeFor (s : State) (h : Held) : State :=
  if dieSleeps s then wakeDie s
  else match h with
    | .read fn off _ => if windowAwake s fn off false then s else wakeCore s ((windowOf off).getD (0, 0)).1
    | .write fn off _ _ => if windowAwake s fn off true then s else wakeCore s ((windowOf off).getD (0, 0)).1
    | _ => s

/-- An access takes effect. -/
def perform (s : State) (h : Held) : Res :=
  match h with
  | .read fn off size => .next (readNow s fn off size)
  | .write fn off size v => writeNow s fn off size v
  | .bar2read fn bar4 off len => .next (if bar4 then bar4ReadNow s fn off len else bar2ReadNow s fn off len)
  | .bar2write fn off data poison relaxed => .next (bar2WriteNow s fn off data poison relaxed)
  | .bar4write fn off data poison => .next (bar4WriteNow s fn off data poison)
  | .atomic fn off op x cmp => .next (atomicNow s fn off op x cmp)

/-- A BAR request arrives: it takes effect, or it is held and starts a wake. It restarts the count to deep sleep (R343). -/
def arrive (s : State) (h : Held) : Res :=
  let s := notIdle s
  if mayProceed s s.ord.held h then perform s h
  else .next (wakeFor { s with ord := { s.ord with held := s.ord.held ++ [h] } } h)

/-- REGISTER_WRITE (R9, R10, R11, R13, R292, R325): a poisoned write to BAR0 has no effect. -/
def execRegisterWrite (fn : FnIx) (off size : Nat) (v : W64) (s : State) (poison : Bool := false) : Res :=
  if poison then .next (notIdle s) else arrive s (.write fn off size v)

/-- REGISTER_READ_CLEAR (R9, R10, R292). -/
def execRegisterReadClear (fn : FnIx) (off size : Nat) (s : State) : Res := arrive s (.read fn off size)

/-- BAR2_READ (R162, R238, R322, R323): a read of the memory window, or with `bar4` of a ring's window. The table has no row of its own for
a read of BAR4 (log entry 127). -/
def execBar2Read (fn : FnIx) (off len : Nat) (s : State) (bar4 : Bool := false) : Res := arrive s (.bar2read fn bar4 off len)

/-- BAR2_WRITE (R161, R322, R323, R325). -/
def execBar2Write (fn : FnIx) (off : Nat) (data : List Byte) (poison relaxed : Bool) (s : State) : Res :=
  arrive s (.bar2write fn off data poison relaxed)

/-- BAR4_WRITE (R161, R238, R292). -/
def execBar4Write (fn : FnIx) (off : Nat) (data : List Byte) (poison : Bool) (s : State) : Res := arrive s (.bar4write fn off data poison)

/-- BAR_ATOMICOP (R325): Unsupported Request where it is not an 8 B FetchAdd, Swap or CAS on BAR2. -/
def execBarAtomicop (fn : FnIx) (bar : Nat) (off size : Nat) (op : AtomicOp) (operand comparand : W64) (s : State) : Res :=
  if bar ≠ 2 ∨ size ≠ 8 ∨ op = .addF64 then
    let s := notIdle s
    .next (emit (if dieSleeps s then wakeDie s else s) (.unsupported fn))
  else arrive s (.atomic fn off op operand comparand)

/-- HELD_ACCESS_PROCEED (R31, R344): held access n proceeds once nothing holds it, or keeps waiting. -/
def execHeldAccessProceed (n : Nat) (s : State) : Res :=
  match s.ord.held[n]? with
  | none => .next s
  | some h =>
    if mayProceed s (s.ord.held.take n) h then perform { s with ord := { s.ord with held := s.ord.held.eraseIdx n } } h
    else .next (wakeFor s h)

/-! ### Configuration space (R321 to R327) -/

/-- A configuration field's value. -/
def configValue (s : State) (fn : Nat) (f : CfgField) : Option Nat :=
  match f with
  | .busMasterEnable => some (if SMap.look (fun _ => false) s.hst.bme fn then 1 else 0)
  | .vfEnable => some (if s.hst.vfEnable ∧ fn = 0 then 1 else 0)
  | .relaxedOrderingEnable => some (if SMap.look (fun _ => true) s.hst.roEnable fn then 1 else 0)
  | .bar2SizeLog2Gib => some (match s.hst.bar2Log2 with
    | some k => k
    | none => if rd s R.GLB_ID_GRADE 0 0 = 3 then 10 else 11)
  | .vfBar2SizeLog2Gib => some s.hst.vfBar2Log2
  | .completionTimeoutMs => some s.hst.timeoutMs
  | .totalVFs => some 16
  | .firstVfOffset => some 1
  | .vfStride => some 1
  | .other _ => none

/-- A configuration field is written; fields of the physical function's capabilities ignore a virtual function, and a BAR2 size
or a timeout that is not offered changes nothing. -/
def configWrite (s : State) (fn : Nat) (f : CfgField) (v : Nat) : State :=
  match f with
  | .busMasterEnable =>
    let s := { s with hst := { s.hst with bme := SMap.put (fun _ => false) s.hst.bme fn (decide (v % 2 = 1)) } }
    flushHold 256 s
  | .vfEnable => if fn = 0 then { s with hst := { s.hst with vfEnable := decide (v % 2 = 1) } } else s
  | .relaxedOrderingEnable => { s with hst := { s.hst with roEnable := SMap.put (fun _ => true) s.hst.roEnable fn (decide (v % 2 = 1)) } }
  | .bar2SizeLog2Gib => if fn = 0 ∧ v ≤ 11 then { s with hst := { s.hst with bar2Log2 := some v } } else s
  | .vfBar2SizeLog2Gib => if fn = 0 ∧ v ≤ 11 then { s with hst := { s.hst with vfBar2Log2 := v } } else s
  | .completionTimeoutMs => if fn = 0 ∧ 10 ≤ v ∧ v ≤ 4000 then { s with hst := { s.hst with timeoutMs := v } } else s
  | .totalVFs => s
  | .firstVfOffset => s
  | .vfStride => s
  | .other _ => s

/-- CONFIG_REQUEST (R323, R373): before stage 0 has ended it completes with Configuration Request Retry Status; a field that spec/
does not name reads as a free value. -/
def execConfigRequest (fn : FnIx) (field : CfgField) (write : Option Nat) (s : State) : Res :=
  if !sidebandUp s then .next (emit s (.signal "CONFIG_RETRY" [fn]))
  else match write with
    | some v => .next (configWrite s fn field v)
    | none =>
      match configValue s fn field with
      | some v => .next (emit s (.config fn v))
      | none =>
        let (v, s) := takeFree s
        .next (emit s (.config fn (v.toNat % 2 ^ 32)))

/-! ### Debug accesses (R290, R291) -/

/-- Line pieces of a partition's memory: physical address and bytes of each that exists. -/
def partPieces (s : State) (p o n : Nat) : List (Nat × Nat × Nat) :=
  (linePieces o n).filterMap (fun pc => (partOffset s p pc.1).map (fun pa => (pc.1 - o, pa, pc.2)))

/-- One piece of an operator's read: sealed bytes are zeros, and poison is detected (R286, R397). -/
def debugPiece (a : State × List Byte × Bool) (pc : Nat × Nat × Nat) : State × List Byte × Bool :=
  if sealedPa a.1 pc.2.1 then (a.1, a.2.1 ++ List.replicate pc.2.2 0, a.2.2)
  else
    let s := touch a.1 pc.2.1 pc.2.2 false
    let (d, mark) := cohRead s pc.2.1 pc.2.2
    (match cohPoisonAt s pc.2.1 pc.2.2 with | some x => poisonFound s 0 0 1 x | none => s, a.2.1 ++ d, a.2.2 || mark)

/-- The operator reads a partition's memory. -/
def debugRead (s : State) (p o n : Nat) : State :=
  let r := (partPieces s p o n).foldl debugPiece (s, [], false)
  emit r.1 (.readData 0 r.2.1 r.2.2)

/-- The operator writes a partition's memory: sealed bytes are discarded (R286). -/
def debugWrite (s : State) (p o : Nat) (data : List Byte) : State :=
  (partPieces s p o data.length).foldl (fun s pc =>
    if sealedPa s pc.2.1 then s
    else
      let s := landMem (touch s pc.2.1 pc.2.2 true) pc.2.1 ((data.drop pc.1).take pc.2.2) false
      wakeRings s pc.2.1 pc.2.2) s

/-- Rings of a partition whose jobs are resident are asked to stop at a beat, and none of the partition's jobs becomes resident
until it resumes (R259, R290). -/
def debugHalt (s : State) (p : Nat) : State :=
  let s := { s with tru := { s.tru with halted := s.tru.halted.filter (· ≠ p) ++ [p] } }
  (ringsOf s p).foldl (fun s w => requestPreempt s w true) s

/-- The partition's jobs may become resident again. -/
def debugResume (s : State) (p : Nat) : State :=
  decideNow { s with tru := { s.tru with halted := s.tru.halted.filter (· ≠ p) } } p

/-- The requester of a debug access is there: the physical function's BAR0 and DBG_ block once BAR0 is open, the debug port while
its transport is open (R290, R451). -/
def debugReaches (s : State) (requester : Nat) : Bool := if requester = 2 then s.phy.transport else hostReady s

/-- Effect of a debug access of a class (R291): 1 and 2 memory, 3 and 4 the scratchpad, 5 and 6 the window of core c, 7 halt,
8 resume. A read is of as many bytes as `data` has. -/
def debugEffect (s : State) (p cls addr c : Nat) (data : List Byte) : Res :=
  let off := 0x1000000 + c * 65536 + addr
  let inPad := decide (addr + data.length ≤ spdBytes)
  match cls with
  | 1 => .next (debugRead s p addr data.length)
  | 2 => .next (debugWrite s p addr data)
  | 3 => .next (if inPad then emit (spdCheck s c (spdWords c addr data.length))
      (.readData 0 (spdRead s.spd c addr data.length) (spdPoison s.spd c addr data.length)) else s)
  | 4 => .next (if inPad then putSpd s c addr data false else s)
  | 5 =>
    if addr < 65536 ∧ addr % 8 = 0 then
      let (v, s) := readServed s 0 off
      .next (emit (clearOnRead s off) (.regRead 0 off v))
    else .next (emit s (.regRead 0 off 0))
  | 6 => if addr < 65536 ∧ addr % 8 = 0 then writeServed s 0 off (BitVec.ofNat 64 (leNat (data.take 8))) else .next s
  | 7 => .next (debugHalt s p)
  | 8 => .next (debugResume s p)
  | _ => .next s

/-- DEBUG_ACCESS (R290, R291): marked and logged, and it proceeds. One to the core of another partition, or of none, is no access to
p; one to a core that is not awake wakes it and waits, and one to memory that is being cleared or trained waits (R209, R222, R271). -/
def execDebugAccess (p : PartIx) (cls : Nat) (requester : Fin 3) (addr : Nat) (c : CoreIx) (data : List Byte) (s : State) : Res :=
  let onCore := decide (3 ≤ cls ∧ cls ≤ 6)
  if !(debugReaches s requester && rdB s R.PRT_CFG_VALID p 0 && decide (1 ≤ cls ∧ cls ≤ 8)) ||
      (onCore && !(decide (coreOwner s c = some (p : Nat)) && coreUsable s c)) then .next s
  else if dieSleeps s then .next (wakeDie s)
  else if onCore && !(coreOn s c && !(coreAt s c).clearing) then .next (wakeCore s c)
  else if decide (cls = 1 ∨ cls = 2) && (partPieces s p addr data.length).any (fun pc => memWaits s pc.2.1 pc.2.2) then .next s
  else debugEffect (debugAccess s p cls requester addr (if 3 ≤ cls then some (c : Nat) else none)) p cls addr c data

end Sys2Proof.Machine
end

