-- ==== Sys2Proof/Machine/Fiddle.lean ====
section
/-!
DEFINITION. Sys2Proof/Machine/Fiddle.lean: fiddle instructions and table loads (R58 to R62, R85 to R87, R96, R126, R461),
and the scratchpad's write-back and clearing (R142, R143).
-/
namespace Sys2Proof.Machine

/-! ### Vectors in the scratchpad -/

/-- Element codes of a packed vector (R65, R129). -/
def spdVec (s : State) (c f o n : Nat) : List Nat := unpackElems (fmtBits f) n (spdRead s.spd c o (packedBytes (fmtBits f) n))

/-- A byte range that an instruction reads or writes. -/
structure Span where
  lo : Nat
  n : Nat
  writes : Bool
deriving DecidableEq, Repr

/-- A vector of `n` elements of format `f` at `o`. -/
def span (f o n : Nat) (writes : Bool) : Span := ⟨o, packedBytes (fmtBits f) n, writes⟩

/-- Byte ranges of a fiddle instruction. -/
def fdlSpans : FdlInstr → List Span
  | .arith op f n a b c dst =>
    [span f a n false] ++
    (match op with
     | .sqrt => []
     | .neg => []
     | .abs => []
     | _ => [span f b n false]) ++
    (match op with | .fma => [span f c n false] | _ => []) ++ [span f dst n true]
  | .convert f g _ n a dst _ _ _ _ => [span f a n false, span g dst n true]
  | .poly _ _ n a dst => [span 1 a n false, span 1 dst n true]
  | .reduce _ n a dst => [span 1 a n false, span 1 dst 1 true]
  | .blockDot fa fb blocks a b sa sb _ _ dst =>
    [span fa a (32 * blocks) false, span fb b (32 * blocks) false] ++
    (match sa with | some o => [⟨o, blocks, false⟩] | none => []) ++ (match sb with | some o => [⟨o, blocks, false⟩] | none => []) ++
    [⟨dst, 4, true⟩]
  | .move n src dst => [⟨src, n, false⟩, ⟨dst, n, true⟩]
  | .column store n col vec =>
    (List.range n).map (fun i => ⟨tileByte col i 0, 8, store⟩) ++ [⟨vec, 8 * n, !store⟩]
  | .gatherIx lw n _ ix dst => [⟨ix, 4 * n, false⟩, ⟨dst, 2 ^ lw.val * n, true⟩]
  | .permute lw n src ix dst => [⟨src, 2 ^ lw.val * n, false⟩, ⟨ix, 4 * n, false⟩, ⟨dst, 2 ^ lw.val * n, true⟩]
  | .unrecognised _ => []
  | .normalise n x rowAddr parity parts _ _ _ f g _ dst scaleDst =>
    [span f x n false, ⟨(rowAddr / 512 + parity * parts) * 512, 512 * parts, false⟩, span g dst n true,
     ⟨scaleDst, if n = 0 then 0 else 32 * ((n - 1) / 32) + 1, true⟩]

/-- An integer operation of R58. -/
def fdlOpIsInt : FdlOp → Bool
  | .iadd | .imul | .ishl | .ishr | .iand | .ior | .ixor | .icmpEq | .icmpLt => true
  | _ => false

/-- A form that R58 does not provide: a reserved encoding (R14); or an instruction word that the core does not recognise (R462). -/
def fdlReserved : FdlInstr → Bool
  | .arith op f _ _ _ _ _ =>
    if fdlOpIsInt op then
      (match op with
       | .iadd | .imul => !(decide ((f : Nat) = 9 ∨ (f : Nat) = 0xA))
       | _ => decide ((f : Nat) ≠ 9))
    else
      (match op with
       | .div | .sqrt => decide (1 < (f : Nat))
       | _ => decide (3 < (f : Nat)))
  | .convert f g _ _ _ _ _ _ _ _ => decide ((f : Nat) = 0xF ∨ (g : Nat) = 0xF)
  | .poly _ d _ _ _ => decide (d = 0 ∨ 5 < d)
  | .reduce _ n _ _ => decide (n = 0 ∨ 64 < n)
  | .blockDot fa fb _ _ _ _ _ _ _ _ =>
    !((fmtIsShort fa && fmtIsShort fb) || (fmtIsInt fa && fmtIsInt fb)) || decide ((fa : Nat) = 9 ∨ (fb : Nat) = 9)
  | .move _ _ _ => false
  | .column _ n col vec => decide (64 < n) || decide (col % 8 ≠ 0) || decide (vec % 8 ≠ 0)
  | .gatherIx .. => false
  | .permute _ n _ _ _ => decide (64 < n)
  | .unrecognised _ => true
  | .normalise _ _ _ _ _ row _ _ f g _ _ _ => !isF321616 f || !fmtIsShort g || decide (31 < row)

/-! ### Lane operations -/

/-- Sign operations change only the sign bit and never signal (R67). -/
def signOp (op : FdlOp) (p : BinFmt) (x y : Nat) : Nat :=
  let m := 2 ^ (p.width - 1)
  match op with
  | .neg => if x / m % 2 = 1 then x - m else x + m
  | .abs => x % m
  | _ => x % m + y / m % 2 * m

/-- A predicate's result code (log entry 4). -/
def cmpCode (f : Nat) (b : Bool) : Nat := (if b then Config.cmpTrue f else Config.cmpFalse f) % 2 ^ fmtBits f

/-- A quiet comparison predicate (R66, R86): a NaN is unordered with everything, and -0 equals +0. -/
def cmpHolds (p : CmpOp) (a b : FV) : Bool :=
  let un := a.isNan || b.isNan
  let lt := a.lt false b
  let gt := b.lt false a
  match p with
  | .equal => !un && !lt && !gt
  | .notEqual => un || lt || gt
  | .less => lt
  | .lessEqual => !un && !gt
  | .greater => gt
  | .greaterEqual => !un && !lt
  | .unordered => un
  | .ordered => !un
  | .notLess => !lt
  | .notLessEqual => un || gt
  | .notGreater => !gt
  | .notGreaterEqual => un || lt

/-- Flags of a comparison or of minimum and maximum: a signalling NaN sets invalid (R86). -/
def quietFlags (x y : FV) : Nat := inFlags x ||| inFlags y

/-- One floating-point lane operation: code and flags (R58, R66, R86). -/
def floatOp (op : FdlOp) (p : BinFmt) (f x y z : Nat) : Nat × Nat :=
  let a := p.unpack x
  let b := p.unpack y
  match op with
  | .add => p.add a b
  | .sub => p.sub a b
  | .mul => p.mul a b
  | .fma => p.fma a b (p.unpack z)
  | .div => p.div a b
  | .sqrt => p.sqrt a
  | .min => ((p.pack false (a.minEl b)).1, quietFlags a b)
  | .max => ((p.pack false (a.maxEl b)).1, quietFlags a b)
  | .cmp q => (cmpCode f (cmpHolds q a b), quietFlags a b)
  | _ => (signOp op p x y, 0)

/-- One integer lane operation: the code, or none where spec/ states no result (a sum, product or shifted value outside
the format, a shift amount outside the word, a right shift of a negative value). -/
def intOp (op : FdlOp) (f x y : Nat) : Option Nat :=
  let a := intVal f x
  let b := intVal f y
  let fit := fun (v : Int) => if (intRange f).1 ≤ v ∧ v ≤ (intRange f).2 then some (intCode f v) else none
  match op with
  | .iadd => fit (a + b)
  | .imul => fit (a * b)
  | .ishl => if 0 ≤ b ∧ b < 32 then fit (a * 2 ^ b.toNat) else none
  | .ishr => if 0 ≤ b ∧ b < 32 ∧ 0 ≤ a then some (intCode f (a / 2 ^ b.toNat)) else none
  | .iand => some (x &&& y)
  | .ior => some (x ||| y)
  | .ixor => some (x ^^^ y)
  | .icmpEq => some (cmpCode f (decide (a = b)))
  | _ => some (cmpCode f (decide (a < b)))

/-- Codes of an integer operation over lanes, taking a free value for each result that spec/ does not state. -/
def intLanes (op : FdlOp) (f : Nat) : State → List (Nat × Nat) → State × List Nat
  | s, [] => (s, [])
  | s, (x, y) :: t =>
    match intOp op f x y with
    | some v => let (s, vs) := intLanes op f s t; (s, v :: vs)
    | none =>
      let (v, s) := takeFree s
      let (s, vs) := intLanes op f s t
      (s, v.toNat % 2 ^ fmtBits f :: vs)

/-- Every order of adding the values is exact: they are multiples of one power of two whose magnitudes sum to less than
2^24 of it. -/
def sumExact (xs : List FV) : Bool :=
  let e0 := xs.foldl (fun m x => match x with | .fin _ _ e => min m e | _ => m) (200 : Int)
  let t : Nat := xs.foldl (fun n x => match x with | .fin neg m e => n + (scaledInt neg m e e0).natAbs | _ => n) 0
  decide (t < 2 ^ 24)

/-- The lane-reduction sum (R58): spec/ states no order of the additions, so a sum that the order can change is a free
value. Code and flags. -/
def laneSum (s : State) (xs : List FV) : State × Nat × Nat :=
  let fl := xs.foldl (fun n x => n ||| inFlags x) 0
  let r := xs.foldl FV.add (.fin false 0 0)
  if r.isNan ∨ r.isInf ∨ xs.length ≤ 2 ∨ sumExact xs then
    let v := match xs with | [] => FV.fin false 0 0 | x :: t => t.foldl FV.add x
    let (c, f) := f32.pack false v
    (s, c, fl ||| f ||| newNan xs v)
  else
    let (v, s) := takeFree s
    (s, getBits v 0 32, fl ||| (getBits v 32 7 &&& (flOverflow ||| flInexact)))

/-- Lane reductions of F32 (R58, R87). -/
def laneReduce (s : State) (kind : Nat) (xs : List FV) : State × Nat × Nat :=
  let sig := if xs.any FV.isSig then flInvalid else 0
  match kind with
  | 0 => laneSum s xs
  | 1 => (s, (f32.pack false (xs.foldl FV.maxNum (.nan false))).1, xs.foldl (fun n x => n ||| inFlags x) 0 ||| sig)
  | _ => (s, (f32.pack false (xs.foldl FV.minNum (.nan false))).1, xs.foldl (fun n x => n ||| inFlags x) 0 ||| sig)

/-- FDL_FLAGS bits of a cell's harp flags. -/
def fdlOfHarp (fl : Nat) : Nat :=
  (if fl % 2 = 1 then flInvalid else 0) ||| (if fl / 2 % 2 = 1 then flOverflow else 0) |||
  (if fl / 4 % 2 = 1 then flNanIn else 0) ||| (if fl / 8 % 2 = 1 then flInfIn else 0)

/-- One block of a block dot into an accumulator (R44, R46, R59). -/
def dotBlock (fa fb sa sb za zb acc : Nat) (xs ys : List Nat) : Nat × Nat :=
  if fmtIsInt fa then
    let v := (List.zipWith (fun a b => intOperand fa a za * intOperand fb b zb) xs ys).foldl (· + ·) 0
    let (r, fl) := accumulateInt acc v
    (r, fdlOfHarp fl)
  else
    let ab := List.zipWith (fun a b => (fmtVal fa a, fmtVal fb b)) xs ys
    let v := blockValue ab sa sb
    let (r, fl) := accumulate acc v
    let (_, f2) := f32.pack false ((f32.unpack acc).add v)
    (r, fdlOfHarp (fl ||| (CellFacts.of ab sa sb).flags) ||| (f2 &&& (flUnderflow ||| flInexact)) |||
      (if (f32.unpack acc).isSig then flInvalid ||| flNanIn else 0))

/-- Blocks in K order. -/
def dotBlocks (fa fb za zb : Nat) (sa sb : Nat → Nat) (xs ys : List Nat) : Nat → Nat → Nat → Nat → Nat × Nat
  | 0, _, acc, fl => (acc, fl)
  | n + 1, k, acc, fl =>
    let (r, f) := dotBlock fa fb (sa k) (sb k) za zb acc ((xs.drop (32 * k)).take 32) ((ys.drop (32 * k)).take 32)
    dotBlocks fa fb za zb sa sb xs ys n (k + 1) r (fl ||| f)

/-- Blocks of 32 of a row, the last padded with +0 (R78, R111). -/
def blocksOf (xs : List FV) : List (List FV) :=
  (List.range ((xs.length + 31) / 32)).map (fun k =>
    let b := (xs.drop (32 * k)).take 32
    b ++ List.replicate (32 - b.length) (FV.fin false 0 0))

/-! ### FIDDLE_INSTRUCTION -/

/-- Counter of a class of R58 (R424) and its element operations. -/
def fdlCounted : FdlInstr → Nat × Nat
  | .arith op f n _ _ _ _ =>
    (if fdlOpIsInt op then 36 else match op with
      | .div => 35
      | .sqrt => 35
      | _ => if (f : Nat) = 0 then 32 else if (f : Nat) = 1 then 33 else 34, n)
  | .convert _ _ _ n _ _ _ _ _ _ => (37, n)
  | .poly _ _ n _ _ => (38, n)
  | .reduce _ n _ _ => (39, n)
  | .blockDot _ _ blocks _ _ _ _ _ _ _ => (40, 32 * blocks)
  | .move _ _ _ => (37, 0)
  | .column _ _ _ _ => (37, 0)
  | .gatherIx _ _ _ _ _ => (37, 0)
  | .permute _ _ _ _ _ => (37, 0)
  | .unrecognised _ => (37, 0)
  | .normalise n _ _ _ _ _ _ _ _ _ _ _ _ => (37, n)

/-- Index vector of an instruction. -/
def fdlIndices (s : State) (c ix n : Nat) : List Nat := spdVec s c 9 ix n

/-- Scratchpad address that a gather by index reads for an index. -/
def gatherElem (lw : Fin 4) (src i : Nat) : Nat := (src + 2 ^ lw.val * i) % 2 ^ 32

/-- Byte ranges that a gather by index reads; none for another instruction. -/
def indexSpans (s : State) (c : Nat) : FdlInstr → List Span
  | .gatherIx lw n src ix _ => (fdlIndices s c ix n).map (fun i => ⟨gatherElem lw src i, 2 ^ lw.val, false⟩)
  | _ => []

/-- Operand or vector that span k of an instruction belongs to: a table entry each (R144). -/
def spanPart (i : FdlInstr) (k : Nat) : Nat :=
  match i with
  | .column _ n _ _ => if k < n then 0 else 1
  | .gatherIx .. => min k 2
  | _ => k

/-- Lanes of a permute: lane by index; the spec states no result for an index that names no lane (R58), so the lane takes a
free value (DESIGN CHOICE, log entry 107). -/
def permuteLanes (w : Nat) (src : List Byte) (n : Nat) : State → List Nat → State × List Byte
  | s, [] => (s, [])
  | s, i :: t =>
    if i < n then
      let (s, bs) := permuteLanes w src n s t
      (s, (src.drop (w * i)).take w ++ bs)
    else
      let (v, s) := takeFree s
      let (s, bs) := permuteLanes w src n s t
      (s, leBytes w v.toNat ++ bs)

/-- An F32 code rounded to an intermediate format and back, with its flags (R126). -/
def roundTo (f code : Nat) : Nat × Nat :=
  if f = 1 then (code, 0)
  else
    let (q, fl) := convertTo f false (f32.unpack code)
    ((f32.pack false (fmtVal f q)).1, fl)

/-- What an instruction writes: pairs of address and bytes, its flags, and the items of the statistic. -/
def fdlResult (s : State) (c : Nat) : FdlInstr → State × List (Nat × List Byte) × Nat × List ErrItem
  | .arith op f n a b z dst =>
    let xs := spdVec s c f a n
    let ys := spdVec s c f b n
    if fdlOpIsInt op then
      let (s, vs) := intLanes op f s (xs.zip ys)
      (s, [(dst, packElems (fmtBits f) vs)], 0, [])
    else
      match binFmt f with
      | none => (s, [], 0, [])
      | some p =>
        let zs := spdVec s c f z n
        let rs := (xs.zip (ys.zip zs)).map (fun t => floatOp op p f t.1 t.2.1 t.2.2)
        (s, [(dst, packElems (fmtBits f) (rs.map Prod.fst))], rs.foldl (fun m r => m ||| r.2) 0, [])
  | .convert f g rtz n a dst _ _ _ _ =>
    let xs := spdVec s c f a n
    let rs := xs.map (fun x => convertTo g rtz (fmtVal f x))
    (s, [(dst, packElems (fmtBits g) (rs.map Prod.fst))], rs.foldl (fun m r => m ||| r.2) 0,
     (xs.zip rs).zipIdx.map (fun t => ⟨0, t.2, fmtVal f t.1.1, fmtVal g t.1.2.1⟩))
  | .poly t d n a dst =>
    let rs := (spdVec s c 1 a n).map (polyEval s c t d)
    (s, [(dst, packElems 32 (rs.map Prod.fst))], rs.foldl (fun m r => m ||| r.2) 0, [])
  | .reduce kind n a dst =>
    let (s, v, fl) := laneReduce s kind ((spdVec s c 1 a n).map f32.unpack)
    (s, [(dst, leBytes 4 v)], fl, [])
  | .blockDot fa fb blocks a b sa sb za zb dst =>
    let xs := spdVec s c fa a (32 * blocks)
    let ys := spdVec s c fb b (32 * blocks)
    let scale := fun (o : Option Nat) k => match o with | some o => (spdByte s.spd c (o + k)).toNat | none => 0x78
    let (v, fl) := dotBlocks fa fb za zb (scale sa) (scale sb) xs ys blocks 0 (spdW32 s.spd c dst) 0
    (s, [(dst, leBytes 4 v)], fl, [])
  | .move n src dst => (s, [(dst, spdRead s.spd c src n)], 0, [])
  | .column store n col vec =>
    if store then (s, (List.range n).map (fun i => (tileByte col i 0, spdRead s.spd c (vec + 8 * i) 8)), 0, [])
    else (s, [(vec, (List.range n).flatMap (fun i => spdRead s.spd c (tileByte col i 0) 8))], 0, [])
  | .gatherIx lw n src ix dst =>
    (s, [(dst, (fdlIndices s c ix n).flatMap (fun i => spdRead s.spd c (gatherElem lw src i) (2 ^ lw.val)))], 0, [])
  | .permute lw n src ix dst =>
    let (s, bs) := permuteLanes (2 ^ lw.val) (spdRead s.spd c src (2 ^ lw.val * n)) n s (fdlIndices s c ix n)
    (s, [(dst, bs)], 0, [])
  | .unrecognised _ => (s, [], 0, [])
  | .normalise n x rowAddr parity parts row nElems eps f g rtz dst scaleDst =>
    let fi := f32.unpack (deferFactor s c rowAddr parity parts row nElems eps)
    let ms := (spdVec s c f x n).map (fun v => f32.mul (fmtVal f v) fi)
    let is := ms.map (fun m => roundTo f m.1)
    let bs := (blocksOf (is.map (fun v => f32.unpack v.1))).map (quantBlock g rtz)
    let codes := (bs.flatMap (fun b => b.2.1)).take n
    (s, (dst, packElems (fmtBits g) codes) :: bs.zipIdx.map (fun b => (scaleDst + 32 * b.2, [BitVec.ofNat 8 b.1.1])),
     (ms.foldl (fun m r => m ||| r.2) 0) ||| (is.foldl (fun m r => m ||| r.2) 0) ||| (bs.foldl (fun m b => m ||| b.2.2) 0), [])

/-- The statistic entries of a conversion wait (R96, R209, R222). -/
def fdlWaits (s : State) (c : Nat) (i : FdlInstr) : Bool :=
  match i with
  | .convert _ _ _ n _ _ mode va row col => gatherErrWaits s (some c) (ringPart s ((coreAt s c).ring.getD 0)) mode va row col
      (if (mode : Nat) = 2 then 1 else n)
  | _ => false

/-- FIDDLE_INSTRUCTION (R58, R62, R128, R144, R394): the lanes compute over vectors in the scratchpad; flags join
FDL_FLAGS, poisoned operands poison the results, and the statistic is gathered. -/
def execFiddleInstruction (c : CoreIx) (i : FdlInstr) (s : State) : Res :=
  if !canIssue s c || (coreAt s c).polyLoad.isSome || fdlWaits s c i then .next s
  else
    let w := (coreAt s c).ring.getD 0
    let s := count s c 56 1
    let spans := fdlSpans i
    let spans := if spans.any (fun p => decide (spdBytes < p.lo + p.n)) then spans else spans ++ indexSpans s c i
    if fdlReserved i then .next (failCmd s w 0x1D 0)
    else if spans.any (fun p => decide (spdBytes < p.lo + p.n)) then .next (failCmd s w 0x1C 0)
    else
      let fs := spans.zipIdx.map (fun p => (⟨20000, spanPart i p.2, 3, 0, 0, p.1.lo, p.1.lo + p.1.n, p.1.writes⟩ : Footprint))
      match register s c fs with
      | .waits => .next s
      | .faults t => .next t
      | .ok s =>
        let s := release s c 20000
        let reads := spans.filter (fun p => !p.writes)
        let s := reads.foldl (fun s p => countUnits (spdAccess s c p.lo p.n 3 false 0 0) c 64 64 p.n) s
        let acc := match i with | .blockDot _ _ _ _ _ _ _ _ _ dst => spdPoison s.spd c dst 4 | _ => false
        let bad := reads.any (fun p => spdPoison s.spd c p.lo p.n) || acc
        let (s, ws, fl, items) := fdlResult s c i
        let s := count s c (fdlCounted i).1 (fdlCounted i).2
        let s := ws.foldl (fun s x => spdStore s c x.1 3 0 0 x.2 bad) s
        let s := fdlFlags s c fl
        let isMove := match i with | .move .. => true | .column .. => true | .gatherIx .. => true | .permute .. => true | _ => false
        let s := if bad && !isMove then notePoison s w none else s
        match i with
        | .convert _ _ _ _ _ _ mode va row col =>
          .next (if (mode : Nat) = 0 then s else gatherErr s c w mode va row col items)
        | _ => .next s

/-! ### Polynomial tables (R60, R461) -/

/-- POLY_TABLE_LOAD (R60, R144, R461): the load checks the image and starts to fill the table; it refuses a bad range with
DESC_INVALID, and an image beyond the scratchpad with SPD_RANGE. -/
def execPolyTableLoad (c : CoreIx) (t : Fin 2) (addr : Nat) (s : State) : Res :=
  if !canIssue s c || (coreAt s c).polyLoad.isSome then .next s
  else
    let w := (coreAt s c).ring.getD 0
    let s := count s c 56 1
    if addr % 8 ≠ 0 then .next (failCmd s w 0x1D 0)
    else if spdBytes < addr + 2056 then .next (failCmd s w 0x1C 0)
    else
      let img := spdRead s.spd c addr 2056
      let bad := spdPoison s.spd c addr 2056
      let lo := f32.unpack (leNat ((img.drop 2048).take 4))
      let hi := f32.unpack (leNat (img.drop 2052))
      let s := countUnits (spdAccess s c addr 2056 3 false 0 0) c 64 64 2056
      if lo.isNan || lo.isInf || hi.isNan || hi.isInf || !(lo.lt false hi) then .next (failCmd s w 0x1D 0)
      else
        match register s c [⟨20001, 0, 3, 0, 0, addr, addr + 2056, false⟩] with
        | .waits => .next s
        | .faults t => .next t
        | .ok s =>
          let s := if bad then notePoison s w none else s
          .next (wr (onCore s c (fun x => { x with polyLoad := some (t, img) })) R.FDL_STATUS_STATE c 0 3)

/-- POLY_TABLE_LOAD_DONE (R60, R461): the table holds the image's coefficients and range. -/
def execPolyTableLoadDone (c : CoreIx) (s : State) : Res :=
  match (coreAt s c).polyLoad with
  | none => .next s
  | some (t, img) =>
    let word := fun i => BitVec.ofNat 64 (leNat ((img.drop (8 * i)).take 8))
    let kvs := (List.range 256).map (fun i => (t * 256 + i, if i % 4 = 3 then (0 : W64) else word i))
    let s := release (onCore s c (fun x => { x with coef := SMap.putAll (fun _ => (0 : W64)) x.coef kvs, polyLoad := none })) c 20001
    let s := wr s R.FDL_POLY_RANGE_LO c t (leNat ((img.drop 2048).take 4))
    let s := wr s R.FDL_POLY_RANGE_HI c t (leNat (img.drop 2052))
    .next (wr s R.FDL_STATUS_STATE c 0 0)

/-! ### Scratchpad maintenance (R142, R143) -/

/-- SPD_ECC_WRITEBACK (R142): a corrected word is written back and holds no error any more. -/
def execSpdEccWriteback (c : CoreIx) (word : Nat) (s : State) : Res :=
  let k := (c : Nat) * 2 ^ 29 + word
  whenDo (decide (spdErr s.spd k = 1)) s { s with spd := { s.spd with err := SMap.put (fun _ => 0) s.spd.err k 0 } }

/-- SPD_CLEAR_DONE (R143): the scratchpad holds zeros without poison and commands may run on the core. -/
def execSpdClearDone (c : CoreIx) (s : State) : Res :=
  whenDo (coreAt s c).clearing s { onCore s c (fun x => { x with clearing := false }) with spd := spdClear s.spd c }

end Sys2Proof.Machine
end

