-- ==== Sys2Proof/Machine/Dispatch.lean ====
section
/-!
DEFINITION. Sys2Proof/Machine/Dispatch.lean: the meaning of each command, one arm per row of spec/opcode_table.json.
-/
namespace Sys2Proof.Machine

/-- The effect of a command on everything but the queue. -/
def exec (i : Instr) (s : State) : Host.Outcome State Fault Refusal :=
  match i with
  | .registerWrite fn off size v poison => Sys2Proof.Machine.execRegisterWrite fn off size v s poison
  | .registerReadClear fn off size => Sys2Proof.Machine.execRegisterReadClear fn off size s
  | .barAtomicop fn bar off size op operand comparand => Sys2Proof.Machine.execBarAtomicop fn bar off size op operand comparand s
  | .bar2Read fn off len bar4 => Sys2Proof.Machine.execBar2Read fn off len s bar4
  | .bar2Write fn off data poison relaxed => Sys2Proof.Machine.execBar2Write fn off data poison relaxed s
  | .bar4Write fn off data poison => Sys2Proof.Machine.execBar4Write fn off data poison s
  | .configRequest fn field write => Sys2Proof.Machine.execConfigRequest fn field write s
  | .heldAccessProceed n => Sys2Proof.Machine.execHeldAccessProceed n s
  | .remoteWriteDeliver n => Sys2Proof.Machine.execRemoteWriteDeliver n s
  | .packetRelease n => Sys2Proof.Machine.execPacketRelease n s
  | .passIssue c h desc => Sys2Proof.Machine.execPassIssue c h desc s
  | .passHeadCheck c h => Sys2Proof.Machine.execPassHeadCheck c h s
  | .setFillStart c h => Sys2Proof.Machine.execSetFillStart c h s
  | .setFillDone c h => Sys2Proof.Machine.execSetFillDone c h s
  | .harpKStep c h frameCycle feedersReady upsets => Sys2Proof.Machine.execHarpKStep c h frameCycle feedersReady s upsets
  | .setDrainStart c h => Sys2Proof.Machine.execSetDrainStart c h s
  | .setDrainDone c h => Sys2Proof.Machine.execSetDrainDone c h s
  | .harpInternalError c h => Sys2Proof.Machine.execHarpInternalError c h s
  | .commandStopped w => Sys2Proof.Machine.execCommandStopped w s
  | .fiddleInstruction c k => Sys2Proof.Machine.execFiddleInstruction c k s
  | .polyTableLoad c t addr => Sys2Proof.Machine.execPolyTableLoad c t addr s
  | .polyTableLoadDone c => Sys2Proof.Machine.execPolyTableLoadDone c s
  | .epilogueStart c h => Sys2Proof.Machine.execEpilogueStart c h s
  | .epilogueResultComplete c h => Sys2Proof.Machine.execEpilogueResultComplete c h s
  | .tileSend c h t => Sys2Proof.Machine.execTileSend c h t s
  | .outputStageRelease c h => Sys2Proof.Machine.execOutputStageRelease c h s
  | .tileCreditTimeout c h => Sys2Proof.Machine.execTileCreditTimeout c h s
  | .landingSlotArm c slot words => Sys2Proof.Machine.execLandingSlotArm c slot words s
  | .tileImageLand n words => Sys2Proof.Machine.execTileImageLand n s words
  | .passCreditWaitEnd c h => Sys2Proof.Machine.execPassCreditWaitEnd c h s
  | .creditArrive n => Sys2Proof.Machine.execCreditArrive n s
  | .gather c desc => Sys2Proof.Machine.execGather c desc s
  | .gatherRowLand c row => Sys2Proof.Machine.execGatherRowLand c row s
  | .spdEccWriteback c word => Sys2Proof.Machine.execSpdEccWriteback c word s
  | .spdClearDone c => Sys2Proof.Machine.execSpdClearDone c s
  | .sequencerLoad c va => Sys2Proof.Machine.execSequencerLoad c va s
  | .sequencerStore c va data final => Sys2Proof.Machine.execSequencerStore c va data final s
  | .sequencerAtomic c va op operand comparand => Sys2Proof.Machine.execSequencerAtomic c va op operand comparand s
  | .volatileRead c va => Sys2Proof.Machine.execVolatileRead c va s
  | .acquireRead c va => Sys2Proof.Machine.execAcquireRead c va s
  | .acquireInvalidateDone c => Sys2Proof.Machine.execAcquireInvalidateDone c s
  | .rangeInvalidate c lo hi => Sys2Proof.Machine.execRangeInvalidate c lo hi s
  | .rangeInvalidateDone c => Sys2Proof.Machine.execRangeInvalidateDone c s
  | .fence c => Sys2Proof.Machine.execFence c s
  | .fenceComplete c => Sys2Proof.Machine.execFenceComplete c s
  | .remoteLoad c m win off len => Sys2Proof.Machine.execRemoteLoad c m win off len s
  | .remoteStore c m win off data final => Sys2Proof.Machine.execRemoteStore c m win off data final s
  | .remoteAtomic c m win off op operand comparand => Sys2Proof.Machine.execRemoteAtomic c m win off op operand comparand s
  | .remoteCopy c toPeer m win off va len => Sys2Proof.Machine.execRemoteCopy c toPeer m win off va len s
  | .finalWriteCoreArrive n => Sys2Proof.Machine.execFinalWriteCoreArrive n s
  | .finalWriteRelease n => Sys2Proof.Machine.execFinalWriteRelease n s
  | .finalWriteResend n => Sys2Proof.Machine.execFinalWriteResend n s
  | .finalWriteSourceRelease n => Sys2Proof.Machine.execFinalWriteSourceRelease n s
  | .finalTimeout n => Sys2Proof.Machine.execFinalTimeout n s
  | .sliceWriteLand n med => Sys2Proof.Machine.execSliceWriteLand n s med
  | .sliceRead who pa len med => Sys2Proof.Machine.execSliceRead who pa len med s
  | .sliceAtomic who pa op operand comparand operandPoison med => Sys2Proof.Machine.execSliceAtomic who pa op operand comparand operandPoison s med
  | .kernelBoundary w => Sys2Proof.Machine.execKernelBoundary w s
  | .guardCommit p => Sys2Proof.Machine.execGuardCommit p s
  | .guardCopyDone p => Sys2Proof.Machine.execGuardCopyDone p s
  | .kvOpen n => Sys2Proof.Machine.execKvOpen n s
  | .kvAppend n => Sys2Proof.Machine.execKvAppend n s
  | .kvCommit n => Sys2Proof.Machine.execKvCommit n s
  | .kvFork n => Sys2Proof.Machine.execKvFork n s
  | .kvTruncate n => Sys2Proof.Machine.execKvTruncate n s
  | .kvClose n => Sys2Proof.Machine.execKvClose n s
  | .kvPin n => Sys2Proof.Machine.execKvPin n s
  | .kvFetch c desc => Sys2Proof.Machine.execKvFetch c desc s
  | .kpuJournalReplay u => Sys2Proof.Machine.execKpuJournalReplay u s
  | .kpuRgnCommit fn r => Sys2Proof.Machine.execKpuRgnCommit fn r s
  | .kpuRgnInitDone r => Sys2Proof.Machine.execKpuRgnInitDone r s
  | .kpuRgnDestroyDone r => Sys2Proof.Machine.execKpuRgnDestroyDone r s
  | .channelRetrainDone k ch ok => Sys2Proof.Machine.execChannelRetrainDone k ch ok s
  | .patrolScrubRead med => Sys2Proof.Machine.execPatrolScrubRead med s
  | .cchFlushStart => Sys2Proof.Machine.execCchFlushStart s
  | .cchFlushDone => Sys2Proof.Machine.execCchFlushDone s
  | .cchWayCommit => Sys2Proof.Machine.execCchWayCommit s
  | .memCommit => Sys2Proof.Machine.execMemCommit s
  | .cxlPortDown n cause => Sys2Proof.Machine.execCxlPortDown n cause s
  | .cxlPortUp n type3 mediaReady gib rate width vendor => Sys2Proof.Machine.execCxlPortUp n type3 mediaReady gib rate width vendor s
  | .cxlPortReset n => Sys2Proof.Machine.execCxlPortReset n s
  | .cxlEventLogRead n events => Sys2Proof.Machine.execCxlEventLogRead n events s
  | .dtuWalk who ctx va write => Sys2Proof.Machine.execDtuWalk who ctx va write s
  | .dtuWalkDone n => Sys2Proof.Machine.execDtuWalkDone n s
  | .dtuInvalidate fn v => Sys2Proof.Machine.execDtuInvalidate fn v s
  | .dtuInvalidateDone => Sys2Proof.Machine.execDtuInvalidateDone s
  | .dtuCtxRootWrite p v => Sys2Proof.Machine.execDtuCtxRootWrite p v s
  | .sarabandeWake w => Sys2Proof.Machine.execSarabandeWake w s
  | .ringPoll w reply => Sys2Proof.Machine.execRingPoll w reply s
  | .slotTake w hostWords => Sys2Proof.Machine.execSlotTake w hostWords s
  | .rqCommit fn w => Sys2Proof.Machine.execRqCommit fn w s
  | .rqStart w => Sys2Proof.Machine.execRqStart w s
  | .rqStop w => Sys2Proof.Machine.execRqStop w s
  | .rqAbort w => Sys2Proof.Machine.execRqAbort w s
  | .rqRewind w => Sys2Proof.Machine.execRqRewind w s
  | .cqCommit cq => Sys2Proof.Machine.execCqCommit cq s
  | .seqSchedCommit => Sys2Proof.Machine.execSeqSchedCommit s
  | .cmdKernel w => Sys2Proof.Machine.execCmdKernel w s
  | .cmdCopy w => Sys2Proof.Machine.execCmdCopy w s
  | .cmdKvOps w => Sys2Proof.Machine.execCmdKvOps w s
  | .cmdNop w => Sys2Proof.Machine.execCmdNop w s
  | .kernelStart w => Sys2Proof.Machine.execKernelStart w s
  | .kernelBegin w => Sys2Proof.Machine.execKernelBegin w s
  | .endInstruction c => Sys2Proof.Machine.execEndInstruction c s
  | .endInstructionComplete c => Sys2Proof.Machine.execEndInstructionComplete c s
  | .completionRecordWrite w => Sys2Proof.Machine.execCompletionRecordWrite w s
  | .cqControlReread cq reply => Sys2Proof.Machine.execCqControlReread cq reply s
  | .msixHoldoffExpiry cq => Sys2Proof.Machine.execMsixHoldoffExpiry cq s
  | .msixUnmask fn vector => Sys2Proof.Machine.execMsixUnmask fn vector s
  | .eventsDroppedReport => Sys2Proof.Machine.execEventsDroppedReport s
  | .residencyDecision p => Sys2Proof.Machine.execResidencyDecision p s
  | .beatInstruction c => Sys2Proof.Machine.execBeatInstruction c s
  | .coreStateSaveDone c => Sys2Proof.Machine.execCoreStateSaveDone c s
  | .jobResume w => Sys2Proof.Machine.execJobResume w s
  | .beatLimitExpiry w => Sys2Proof.Machine.execBeatLimitExpiry w s
  | .hintInstruction c level us stagger => Sys2Proof.Machine.execHintInstruction c level us stagger s
  | .snapshotInstruction c => Sys2Proof.Machine.execSnapshotInstruction c s
  | .traceMarkInstruction c a b => Sys2Proof.Machine.execTraceMarkInstruction c a b s
  | .kvOpInstruction c desc => Sys2Proof.Machine.execKvOpInstruction c desc s
  | .partitionCommit p => Sys2Proof.Machine.execPartitionCommit p s
  | .partitionReset p => Sys2Proof.Machine.execPartitionReset p s
  | .partitionResetDone p => Sys2Proof.Machine.execPartitionResetDone p s
  | .rangeCommit => Sys2Proof.Machine.execRangeCommit s
  | .rangeClearDone => Sys2Proof.Machine.execRangeClearDone s
  | .isoCommit => Sys2Proof.Machine.execIsoCommit s
  | .isoApplied => Sys2Proof.Machine.execIsoApplied s
  | .sealImportStart p => Sys2Proof.Machine.execSealImportStart p s
  | .sealImportDone p chunks => Sys2Proof.Machine.execSealImportDone p s chunks
  | .sealClearDone p => Sys2Proof.Machine.execSealClearDone p s
  | .sealUnseal p e => Sys2Proof.Machine.execSealUnseal p e s
  | .rollbackAdvance => Sys2Proof.Machine.execRollbackAdvance s
  | .rollbackAdvanceDone ok => Sys2Proof.Machine.execRollbackAdvanceDone ok s
  | .getVersion fn => Sys2Proof.Machine.execGetVersion fn s
  | .getCapabilities fn => Sys2Proof.Machine.execGetCapabilities fn s
  | .negotiateAlgorithms fn => Sys2Proof.Machine.execNegotiateAlgorithms fn s
  | .getDigests fn => Sys2Proof.Machine.execGetDigests fn s
  | .getCertificate fn slot off len => Sys2Proof.Machine.execGetCertificate fn slot off len s
  | .challenge fn nonce => Sys2Proof.Machine.execChallenge fn nonce s
  | .getMeasurements fn index nonce => Sys2Proof.Machine.execGetMeasurements fn index nonce s
  | .keyExchange fn exchange => Sys2Proof.Machine.execKeyExchange fn exchange s
  | .finish fn verify => Sys2Proof.Machine.execFinish fn verify s
  | .endSession fn => Sys2Proof.Machine.execEndSession fn s
  | .spdmSignatureDone => Sys2Proof.Machine.execSpdmSignatureDone s
  | .getTdispVersion p => Sys2Proof.Machine.execGetTdispVersion p s
  | .getTdispCapabilities p => Sys2Proof.Machine.execGetTdispCapabilities p s
  | .lockInterfaceRequest p => Sys2Proof.Machine.execLockInterfaceRequest p s
  | .getDeviceInterfaceReport p => Sys2Proof.Machine.execGetDeviceInterfaceReport p s
  | .getDeviceInterfaceState p => Sys2Proof.Machine.execGetDeviceInterfaceState p s
  | .startInterfaceRequest p => Sys2Proof.Machine.execStartInterfaceRequest p s
  | .stopInterfaceRequest p => Sys2Proof.Machine.execStopInterfaceRequest p s
  | .ideIntegrityFailure stream => Sys2Proof.Machine.execIdeIntegrityFailure stream s
  | .debugAccess p cls requester addr c data => Sys2Proof.Machine.execDebugAccess p cls requester addr c data s
  | .linkFrameSend l => Sys2Proof.Machine.execLinkFrameSend l s
  | .linkFrameReceive l f => Sys2Proof.Machine.execLinkFrameReceive l f s
  | .linkAckTimeout l => Sys2Proof.Machine.execLinkAckTimeout l s
  | .linkLoss l cause => Sys2Proof.Machine.execLinkLoss l cause s
  | .linkLossOfSignal l => Sys2Proof.Machine.execLinkLossOfSignal l s
  | .msgWrite l => Sys2Proof.Machine.execMsgWrite l s
  | .msgRead l => Sys2Proof.Machine.execMsgRead l s
  | .msgReadData l => Sys2Proof.Machine.execMsgReadData l s
  | .msgAtomic l => Sys2Proof.Machine.execMsgAtomic l s
  | .msgAtomicData l => Sys2Proof.Machine.execMsgAtomicData l s
  | .msgWriteAck l => Sys2Proof.Machine.execMsgWriteAck l s
  | .msgTile l => Sys2Proof.Machine.execMsgTile l s
  | .msgCredit l => Sys2Proof.Machine.execMsgCredit l s
  | .msgRefused l => Sys2Proof.Machine.execMsgRefused l s
  | .hello l => Sys2Proof.Machine.execHello l s
  | .cert l => Sys2Proof.Machine.execCert l s
  | .kem l => Sys2Proof.Machine.execKem l s
  | .confirm l => Sys2Proof.Machine.execConfirm l s
  | .rekey l => Sys2Proof.Machine.execRekey l s
  | .syncReq l => Sys2Proof.Machine.execSyncReq l s
  | .syncResp l => Sys2Proof.Machine.execSyncResp l s
  | .gang l => Sys2Proof.Machine.execGang l s
  | .goodbye l => Sys2Proof.Machine.execGoodbye l s
  | .quiesce l => Sys2Proof.Machine.execQuiesce l s
  | .haltNotice l => Sys2Proof.Machine.execHaltNotice l s
  | .releaseNotice l => Sys2Proof.Machine.execReleaseNotice l s
  | .linkCommit l => Sys2Proof.Machine.execLinkCommit l s
  | .linkRekeyRequest l => Sys2Proof.Machine.execLinkRekeyRequest l s
  | .linkTrainingDone l ok delayNs => Sys2Proof.Machine.execLinkTrainingDone l ok delayNs s
  | .linkRetry l => Sys2Proof.Machine.execLinkRetry l s
  | .linkQuiesceDone l => Sys2Proof.Machine.execLinkQuiesceDone l s
  | .linkRemapResume m => Sys2Proof.Machine.execLinkRemapResume m s
  | .domainCommit => Sys2Proof.Machine.execDomainCommit s
  | .windowCommit => Sys2Proof.Machine.execWindowCommit s
  | .syncExchangeTimer => Sys2Proof.Machine.execSyncExchangeTimer s
  | .syncHoldoverTimeout => Sys2Proof.Machine.execSyncHoldoverTimeout s
  | .lnkInjCfgWrite l v => Sys2Proof.Machine.execLnkInjCfgWrite l v s
  | .perstAssert => Sys2Proof.Machine.execPerstAssert s
  | .perstRelease => Sys2Proof.Machine.execPerstRelease s
  | .hotReset => Sys2Proof.Machine.execHotReset s
  | .flrPf => Sys2Proof.Machine.execFlrPf s
  | .flrVf p => Sys2Proof.Machine.execFlrVf p s
  | .mbxClaim => Sys2Proof.Machine.execMbxClaim s
  | .mbxRelease who => Sys2Proof.Machine.execMbxRelease who s
  | .mbxOwnerTimeout => Sys2Proof.Machine.execMbxOwnerTimeout s
  | .getReport who => Sys2Proof.Machine.execGetReport who s
  | .imageBegin who => Sys2Proof.Machine.execImageBegin who s
  | .imageWrite who => Sys2Proof.Machine.execImageWrite who s
  | .imageVerify who => Sys2Proof.Machine.execImageVerify who s
  | .restart who => Sys2Proof.Machine.execRestart who s
  | .mbxOpDone flashOk => Sys2Proof.Machine.execMbxOpDone flashOk s
  | .pldmRequestUpdate => Sys2Proof.Machine.execPldmRequestUpdate s
  | .pldmSensorRead which => Sys2Proof.Machine.execPldmSensorRead which s
  | .inputVoltageChange centivolts => Sys2Proof.Machine.execInputVoltageChange centivolts s
  | .regulatorFault rail code => Sys2Proof.Machine.execRegulatorFault rail code s
  | .coreGate c => Sys2Proof.Machine.execCoreGate c s
  | .coreSleep c => Sys2Proof.Machine.execCoreSleep c s
  | .coreOff c => Sys2Proof.Machine.execCoreOff c s
  | .coreWakeDone c => Sys2Proof.Machine.execCoreWakeDone c s
  | .deepSleepEntry => Sys2Proof.Machine.execDeepSleepEntry s
  | .deepSleepWake cause => Sys2Proof.Machine.execDeepSleepWake cause s
  | .deepSleepWakeDone failing => Sys2Proof.Machine.execDeepSleepWakeDone s failing
  | .clockStepDone => Sys2Proof.Machine.execClockStepDone s
  | .telemetrySample rails inputW activity => Sys2Proof.Machine.execTelemetrySample rails inputW s activity
  | .estimatorFit k => Sys2Proof.Machine.execEstimatorFit k s
  | .calibCompare k => Sys2Proof.Machine.execCalibCompare k s
  | .telemetryLossTimeout k => Sys2Proof.Machine.execTelemetryLossTimeout k s
  | .currentWindowEval k avg1 avg10 avg100 parts => Sys2Proof.Machine.execCurrentWindowEval k avg1 avg10 avg100 s parts
  | .moduleLimiterTick avgW parts => Sys2Proof.Machine.execModuleLimiterTick avgW parts s
  | .hintLapse k => Sys2Proof.Machine.execHintLapse k s
  | .harpGate c h => Sys2Proof.Machine.execHarpGate c h s
  | .admissionSlot k => Sys2Proof.Machine.execAdmissionSlot k s
  | .thermalLimiterTick dieC stackCs => Sys2Proof.Machine.execThermalLimiterTick dieC stackCs s
  | .thermalClamp dieC stackC => Sys2Proof.Machine.execThermalClamp dieC stackC s
  | .thermalTrip stack tempC => Sys2Proof.Machine.execThermalTrip stack tempC s
  | .pwrCommit => Sys2Proof.Machine.execPwrCommit s
  | .clkCommit => Sys2Proof.Machine.execClkCommit s
  | .stageAonBootRom selfTestOk => Sys2Proof.Machine.execStageAonBootRom selfTestOk s
  | .stageImageVerification => Sys2Proof.Machine.execStageImageVerification s
  | .stageFloorPlanLoad => Sys2Proof.Machine.execStageFloorPlanLoad s
  | .stageClocks locked => Sys2Proof.Machine.execStageClocks locked s
  | .stageMemoryTraining failed => Sys2Proof.Machine.execStageMemoryTraining failed s
  | .stageMemoryTest corrected badRows lostStack => Sys2Proof.Machine.execStageMemoryTest corrected badRows lostStack s
  | .stageCoreKnownAnswer runs => Sys2Proof.Machine.execStageCoreKnownAnswer runs s
  | .stageLinkTraining => Sys2Proof.Machine.execStageLinkTraining s
  | .stageHostFunctionReady => Sys2Proof.Machine.execStageHostFunctionReady s
  | .stageOperational => Sys2Proof.Machine.execStageOperational s
  | .bootNextCommit => Sys2Proof.Machine.execBootNextCommit s
  | .bootNextStored ok => Sys2Proof.Machine.execBootNextStored ok s
  | .bootResetModule => Sys2Proof.Machine.execBootResetModule s
  | .bootResetCompute => Sys2Proof.Machine.execBootResetCompute s
  | .bootResetCore c => Sys2Proof.Machine.execBootResetCore c s
  | .computeResetDone => Sys2Proof.Machine.execComputeResetDone s
  | .fieldTestDue c => Sys2Proof.Machine.execFieldTestDue c s
  | .fieldTestDone c run => Sys2Proof.Machine.execFieldTestDone c run s
  | .rasPddCtlWrite v => Sys2Proof.Machine.execRasPddCtlWrite v s
  | .maintActivityStart a unit sub => Sys2Proof.Machine.execMaintActivityStart a unit sub s
  | .rowRepairDone row spareGood => Sys2Proof.Machine.execRowRepairDone row spareGood s
  | .maintOverdue a unit sub => Sys2Proof.Machine.execMaintOverdue a unit s sub
  | .fatalFault kind => Sys2Proof.Machine.execFatalFault kind s
  | .haltStart leadNs => Sys2Proof.Machine.execHaltStart leadNs s
  | .haltCut => Sys2Proof.Machine.execHaltCut s
  | .haltComplete => Sys2Proof.Machine.execHaltComplete s
  | .haltRelease => Sys2Proof.Machine.execHaltRelease s
  | .errorRecordFlash seq => Sys2Proof.Machine.execErrorRecordFlash seq s
  | .correctedRateCheck source unit others => Sys2Proof.Machine.execCorrectedRateCheck source unit others s
  | .cntClear c => Sys2Proof.Machine.execCntClear c s
  | .cntSnapTake c => Sys2Proof.Machine.execCntSnapTake c s
  | .dbgSnapArm parts => Sys2Proof.Machine.execDbgSnapArm parts s
  | .dbgSnapshot => Sys2Proof.Machine.execDbgSnapshot s
  | .watchpointEnable fn wp cfg => Sys2Proof.Machine.execWatchpointEnable fn wp cfg s
  | .traceRecordWrite c => Sys2Proof.Machine.execTraceRecordWrite c s
  | .tscTick => Sys2Proof.Machine.execTscTick s
  | .ppsEdge => Sys2Proof.Machine.execPpsEdge s
  | .refLock => Sys2Proof.Machine.execRefLock s
  | .timingInputChange refIn ppsIn => Sys2Proof.Machine.execTimingInputChange refIn ppsIn s
  | .ppsTimeout => Sys2Proof.Machine.execPpsTimeout s
  | .tscHoldoverTimeout => Sys2Proof.Machine.execTscHoldoverTimeout s
  | .tscSet v => Sys2Proof.Machine.execTscSet v s
  | .tscPpsNextWrite v => Sys2Proof.Machine.execTscPpsNextWrite v s
  | .leakSensorRead inlet outlet => Sys2Proof.Machine.execLeakSensorRead inlet outlet s
  | .idcode => Sys2Proof.Machine.execIdcode s
  | .bypass => Sys2Proof.Machine.execBypass s
  | .samplePreload pins => Sys2Proof.Machine.execSamplePreload pins s
  | .extest => Sys2Proof.Machine.execExtest s
  | .clamp => Sys2Proof.Machine.execClamp s
  | .highz => Sys2Proof.Machine.execHighz s
  | .debugTransportOpen => Sys2Proof.Machine.execDebugTransportOpen s
  | .pcieLinkUp rate width => Sys2Proof.Machine.execPcieLinkUp rate width s
  | .ideKmRequest stream activate => Sys2Proof.Machine.execIdeKmRequest stream activate s
  | .vendorResetMessage module => Sys2Proof.Machine.execVendorResetMessage module s
  | .vendorDefinedClaim => Sys2Proof.Machine.execVendorDefinedClaim s
  | .prechargeInForce k => Sys2Proof.Machine.execPrechargeInForce k s
  | .hostLinkReadCompletion n reply => Sys2Proof.Machine.execHostLinkReadCompletion n reply s
  | .completionTimeout n => Sys2Proof.Machine.execCompletionTimeout n s

end Sys2Proof.Machine
end

