-- ==== Sys2Proof/Safety.lean ====
section
/-!
DEFINITION. Sys2Proof/Safety.lean: the terms in which claims about commands, steps and runs are stated.
-/
namespace Sys2Proof.Safety

open Sys2Proof.Machine

/-- A command runs from `s` to `t`. -/
def Runs (i : Instr) (s t : State) : Prop := exec i s = .next t

/-- A property that every step keeps, in every state and not only in reachable ones. -/
def Kept (p : State → Prop) : Prop := ∀ s t, p s → step s = .next t → p t

/-- No run from `s` stops: every command its queue holds answers a next state. -/
def NeverStops (s : State) : Prop := ∀ n, ∃ t, Host.Core.run Sys2Proof.core n s = .next t

/-- The parts of the machine's state: one for each field of State. -/
inductive Part
  | pending | mem | spd | regs | shadow | free | utime | out | cores | harps | ord | ms | sch | ras | obs | hst | lnk | kv | time | tru | flash | boot | mgm | pwr | phy
deriving DecidableEq, Repr

/-- Two states have the same part `p`. -/
def Part.Same (s t : State) : Part → Prop
  | .pending => t.pending = s.pending
  | .mem => t.mem = s.mem
  | .spd => t.spd = s.spd
  | .regs => t.regs = s.regs
  | .shadow => t.shadow = s.shadow
  | .free => t.free = s.free
  | .utime => t.utime = s.utime
  | .out => t.out = s.out
  | .cores => t.cores = s.cores
  | .harps => t.harps = s.harps
  | .ord => t.ord = s.ord
  | .ms => t.ms = s.ms
  | .sch => t.sch = s.sch
  | .ras => t.ras = s.ras
  | .obs => t.obs = s.obs
  | .hst => t.hst = s.hst
  | .lnk => t.lnk = s.lnk
  | .kv => t.kv = s.kv
  | .time => t.time = s.time
  | .tru => t.tru = s.tru
  | .flash => t.flash = s.flash
  | .boot => t.boot = s.boot
  | .mgm => t.mgm = s.mgm
  | .pwr => t.pwr = s.pwr
  | .phy => t.phy = s.phy

/-- Two states agree in every part but those of the list: what a command leaves as it was. -/
def AgreeOutside (ps : List Part) (s t : State) : Prop := ∀ p, p ∉ ps → p.Same s t

/-- Every control register reads as before but those at the offsets of the list. -/
def RegsOutside (offs : List Nat) (s t : State) : Prop := ∀ o, o ∉ offs → reg t o = reg s o

/-- Every core is as before but those of the list. -/
def CoresOutside (cs : List Nat) (s t : State) : Prop := ∀ c, c ∉ cs → coreAt t c = coreAt s c

/-- Every harp is as before but those of the list of keys. -/
def HarpsOutside (ks : List Nat) (s t : State) : Prop := ∀ c h, hk c h ∉ ks → harpAt t c h = harpAt s c h

/-- Every request ring is as before but those of the list. -/
def RingsOutside (ws : List Nat) (s t : State) : Prop := ∀ w, w ∉ ws → ringAt t w = ringAt s w

/-- Every byte of module memory reads as before but those of [a, a+n). -/
def MemOutside (a n : Nat) (s t : State) : Prop := ∀ k, ¬ (a ≤ k ∧ k < a + n) → memByte t.mem k = memByte s.mem k

/-- The ring of every core, running or saved, and of every held record is one of the 64 request rings (R233, R253, R260). -/
def RingsOk (s : State) : Prop :=
  (∀ c w, (coreAt s c).ring = some w → w < 64) ∧
  (∀ r y w, y ∈ (ringAt s r).save → y.core.ring = some w → w < 64) ∧
  ∀ h w, h ∈ s.sch.hold → h.ring = some w → w < 64

/-- Every field-log entry of the flash names a core of the grid (R371). -/
def LogOk (s : State) : Prop := ∀ e ∈ s.flash.log, e.core < 288

/-! ### Terms of the statements about single commands -/

/-- Nothing holds a BAR access that arrives: the die is awake, and no posted write waits before it (R31, R344). -/
def NotHeld (s : State) : Prop := dieSleeps s = false ∧ s.ord.held.any Held.posted = false

/-- No scratchpad watchpoint of the core is enabled, and no word of a scratchpad holds an error that no read has met (R142, R432). -/
def SpdQuiet (c : Nat) (s : State) : Prop := (∀ m < 2, rdB s R.CNT_SPWP_CFG_ENABLE c m = false) ∧ s.spd.err = []

/-- No memory watchpoint is enabled (R433). -/
def MemQuiet (s : State) : Prop := ∀ n < 16, rdB s R.DBG_WP_CFG_ENABLE n 0 = false

/-- Operation n waits at its unit with this code, nothing holds it back, and its region and sequence can serve it (R179, R201). -/
def KvReady (op n : Nat) (o : KvOp) (s : State) : Prop :=
  s.kv.ops[n]? = some o ∧ kvOpc o.desc = op ∧ kvHeldBack s n o = false ∧
  kvRegionBad s (kvRgn o.desc) (ringPart s o.ring) = none ∧ kvSq o.desc < (kvGeo s (kvRgn o.desc)).maxSeq ∧
  ∀ pa, Machine.translate s none (kvGeo s (kvRgn o.desc)).part ((kvGeo s (kvRgn o.desc)).seqtab + 64 * kvSq o.desc) true false = .ok pa →
    cohPoisonAt s pa 64 = none

/-- Table pages that a sequence of its own blocks takes (R176). -/
def kvTablePages (s : State) (r : Nat) : Nat := ((kvGeo s r).seqBlocks + 255) / 256

/-- The 32 rows of a valid fetch descriptor from an open sequence within the region (R197). -/
def KvFetchOk (c : CoreIx) (d : List W64) (s : State) : Prop :=
  canIssue s c = true ∧ kvRegionBad s (dw d 0 0 6) (ringPart s ((coreAt s c).ring.getD 0)) = none ∧
  kvFetchReserved d = false ∧ kvFetchBad (kvGeo s (dw d 0 0 6)) d = false ∧ dw d 0 8 24 < (kvGeo s (dw d 0 0 6)).maxSeq ∧
  dw d 0 32 8 < (kvGeo s (dw d 0 0 6)).layers ∧ dw d 0 40 6 < (kvGeo s (dw d 0 0 6)).pairs ∧
  (kvSeq s (dw d 0 0 6) (dw d 0 8 24)).isOpen = true ∧ dw d 1 0 32 + 32 ≤ (kvGeo s (dw d 0 0 6)).maxPos ∧
  dw d 2 0 32 + 31 * 512 + (kvGeo s (dw d 0 0 6)).dim * fmtBits (kvGeo s (dw d 0 0 6)).fmt / 8 ≤ spdBytes ∧
  (kvGeo s (dw d 0 0 6)).scaled = false ∧ dw d 2 32 32 ≤ spdBytes ∧ rdB s R.SPD_OVERLAP_CTL_ACTIVE c 0 = false ∧
  SpdQuiet c s ∧ shadowOf s c = none

/-- The operation that entry i of an array of KV operations names, at a virtual address (R248). -/
def kvEntry (s : State) (p va : Nat) : List W64 :=
  match pieces s none p false false va 48 with
  | .ok ps => bytesWords (readPieces s ps).1
  | .error _ => []

/-- What a link leaving its state for DOWN shows (R309): the state with its cause, and nothing kept to be sent again. -/
def WentDown (l cause : Nat) (s t : State) : Prop :=
  linkState t l = 6 ∧ rd t R.LNK_STATUS_DOWN_CAUSE l 0 = cause ∧ (linkAt t l).sent = [] ∧ (linkAt t l).outq = [] ∧
  (linkAt t l).downAt = s.utime

/-- What a module reset leaves of a state (R384): the state after reset with the flash, the queue and the platform's pins, what the flash
holds in the registers that show it, and frames that said GOODBYE. -/
def ModuleIsReset (s t : State) : Prop :=
  AgreeOutside [.pending, .regs, .shadow, .free, .out, .flash, .phy] State.reset t ∧ t.pending = s.pending ∧ t.free = s.free ∧
  t.flash = s.flash ∧ s.out <+: t.out ∧
  RegsOutside [R.BOOT_NEXT_TEST.at 0 0, R.SEC_SVN_RUNNING.at 0 0, R.PEX_MBX_STATUS_OWNER.at 0 0] State.reset t ∧
  rd t R.SEC_SVN_COUNTER 0 0 = s.flash.rollback % 2 ^ 32 ∧ reg t (R.BOOT_NEXT_TEST.at 0 0) = BitVec.ofNat 64 s.flash.next ∧
  rdB t R.PEX_MBX_STATUS_IMAGE_VALID 0 0 = s.flash.valid ∧ t.phy.boundary = [] ∧ t.phy.inst = 0 ∧ t.phy.transport = false ∧
  t.phy.shut = s.phy.shut ∧ t.phy.tripped = s.phy.tripped

/-- Stage n has ended done, or done with warnings, and the next one runs (R373, R374). -/
def StageEnded (s t : State) (n : Nat) : Prop :=
  rd t R.BOOT_REPORT_STATE n 0 = (if rd t R.BOOT_REPORT_WARNINGS n 0 = 0 then 2 else 3) ∧ rd t R.BOOT_REPORT_END_END_TSC n 0 = tsc s ∧
  (n < 9 → rd t R.BOOT_STATE_STATE 0 0 = 0 ∧ rd t R.BOOT_STATE_STAGE 0 0 = n + 1 ∧ rd t R.BOOT_REPORT_STATE (n + 1) 0 = 1 ∧
    rd t R.BOOT_REPORT_START_START_TSC (n + 1) 0 = tsc s ∧ t.boot.stageAt = s.utime)

/-- Stage n has failed with a status, and the module is in its safe state (R374, R381). -/
def StageFailed (s t : State) (n status : Nat) : Prop :=
  rd t R.BOOT_REPORT_STATE n 0 = 4 ∧ rd t R.BOOT_REPORT_STATUS n 0 = status ∧ rd t R.BOOT_REPORT_END_END_TSC n 0 = tsc s ∧
  rd t R.BOOT_STATE_STATE 0 0 = 2 ∧ rd t R.BOOT_STATE_FAIL_STAGE 0 0 = n ∧ rd t R.BOOT_STATE_STATUS 0 0 = status ∧
  (∀ c : CoreIx, (coreAt t c).power = .off) ∧ (∀ l : LinkIx, linkState t l = 0) ∧ ∀ n : PortIx, rd t R.CXL_PORT_STATUS_STATE n 0 = 0

/-- Codes of the floating-point and integer formats of R63 that a pass descriptor may not name for A or B: F64, F32, I32 (R35), SX8 (R64). -/
def notAnOperand (f : Nat) : Prop := f = 0x0 ∨ f = 0x1 ∨ f = 0x9 ∨ f = 0xE

/-- A floating-point and an integer format, by their codes in R63. -/
def mixedKinds (f g : Nat) : Prop := (f ≤ 0x8 ∧ 0x9 ≤ g ∧ g ≤ 0xD) ∨ (g ≤ 0x8 ∧ 0x9 ≤ f ∧ f ≤ 0xD)

end Sys2Proof.Safety
end

