-- ==== Sys2Proof/Certificates/Slice0/Obligations.lean ====
section
/-!
DEFINITION. Sys2Proof/Certificates/Slice0/Obligations.lean: the statements about the module, family by family of the
opcode table: what a command's next state holds, what it leaves as it was, and the invariants that every step keeps.
-/

open Sys2Proof Sys2Proof.Machine Sys2Proof.Safety

/-! ### Accesses to the BARs and the configuration space -/

/-- A 64-bit write of a register that nothing holds and that starts nothing, and that is no debug access of the operator's,
stores the register's fields (R9, R10, R13): an RW field takes a value that is not a reserved encoding and keeps its old one
otherwise, an RWC field changes in the shadow only, and no other register changes; a virtual function's word is taken with its
own partition (R292). A poisoned write, one that is not 64 bits wide and naturally aligned, and one that the function does not
reach change nothing but the count to deep sleep (R29, R325). A read of BAR0 that nothing holds completes with one word, and a
clearing read leaves every RC field of its register 0 (R9, R10); through the physical function, outside the cores' windows, the
word of a register that derives nothing from the machine's progress is what the register holds; a read that is not 64 bits wide
and naturally aligned, or that the function does not reach, returns 0 and clears nothing (R29). -/
def Obligations.RegisterAccesses : Prop :=
  (∀ (fn : FnIx) (off : Nat) (w v : W64) (s : State) (r : RegRow) (f : FldRow),
    NotHeld s → aligned64 off 8 = true → served s fn off true = true → windowAwake s fn off true = true →
    windowOf off = none ∨ fn.val ≠ 0 → within off 0x380000 0x8100 = false → within off 0xB10000 0x10000 = false →
    off ≠ R.DTU_INVAL_VA_VA.at 0 0 → v = (if fn.val = 0 then w else vfWord s (fn - 1) off w) →
    actionAt off = none → regAt off = some r → f ∈ r.fields →
    ∃ t, Runs (.registerWrite fn off 8 w false) s t ∧ RegsOutside [off] s t ∧ AgreeOutside [.regs, .shadow, .pwr] s t ∧
      (f.acc = .rw → f.least ≤ getBits v f.lo f.width → getBits v f.lo f.width ≤ f.most →
        getBits (reg t off) f.lo f.width = getBits v f.lo f.width) ∧
      (f.acc = .rw → ¬ (f.least ≤ getBits v f.lo f.width ∧ getBits v f.lo f.width ≤ f.most) →
        getBits (reg t off) f.lo f.width = getBits (reg s off) f.lo f.width) ∧
      (f.acc = .rwc → getBits (reg t off) f.lo f.width = getBits (reg s off) f.lo f.width ∧
        getBits (shadowWord t off) f.lo f.width = getBits v f.lo f.width) ∧
      (f.acc = .ro → getBits (reg t off) f.lo f.width = getBits (reg s off) f.lo f.width)) ∧
  (∀ (fn : FnIx) (off size : Nat) (v : W64) (s : State), Runs (.registerWrite fn off size v true) s (notIdle s)) ∧
  (∀ (fn : FnIx) (off size : Nat) (v : W64) (s : State),
    NotHeld s → windowAwake s fn off true = true → (aligned64 off size && served s fn off true) = false →
    Runs (.registerWrite fn off size v false) s (notIdle s)) ∧
(∀ (fn : FnIx) (off : Nat) (s : State),
    NotHeld s → windowAwake s fn off false = true → aligned64 off 8 = true → served s fn off false = true →
    ∃ t v, Runs (.registerReadClear fn off 8) s t ∧ t.out.getLast? = some (.regRead fn off v) ∧
      ∀ r f, regAt off = some r → f ∈ r.fields → f.acc = .rc → getBits (reg t off) f.lo f.width = 0) ∧
  (∀ (off : Nat) (s : State),
    NotHeld s → aligned64 off 8 = true → served s 0 off false = true → windowOf off = none → within off 0x380000 0x8100 = false →
    within off 0xB10000 0x10000 = false → off ≠ R.DTU_INVAL_STATUS_PENDING.at 0 0 →
    (∀ f ∈ readFieldsA ++ readFieldsB, f.fld.ixOf f.n1 f.n2 off = none) → (∀ f ∈ freeFields, f.fld.ixOf f.n1 f.n2 off = none) →
    ∃ t, Runs (.registerReadClear 0 off 8) s t ∧ t.out = s.out ++ [.regRead 0 off (reg s off)] ∧ RegsOutside [off] s t ∧
      AgreeOutside [.regs, .out, .pwr] s t) ∧
  (∀ (fn : FnIx) (off size : Nat) (s : State),
    NotHeld s → windowAwake s fn off false = true → (aligned64 off size && served s fn off false) = false →
    Runs (.registerReadClear fn off size) s (emit (notIdle s) (.regRead fn off 0)))

/-- A BAR2 read that nothing holds completes with as many bytes as it asks for, and within one line that its function reaches
and that is not sealed with the bytes at the point of coherence (R146, R162); a BAR4 read completes with as many bytes as it
asks for (R238); a BAR2 or BAR4 write within one line that its function reaches becomes one write in flight from the host link,
with its number, and no byte of memory changes before it lands (R146, R161, R238); an AtomicOp of another size, another BAR or
an F64 sum, or to bytes the function does not reach, completes with Unsupported Request (R325), and one that reaches its word
returns the old word and leaves the operation's result in the word (R217). -/
def Obligations.Bar2AndBar4 : Prop :=
  (∀ (fn : FnIx) (off len : Nat) (s : State), NotHeld s → hostWritesLeft s = false → bar2Waits s fn off len = false →
    ∃ t data mark, Runs (.bar2Read fn off len) s t ∧ t.out.getLast? = some (.readData fn data mark) ∧ data.length = len) ∧
  (∀ (fn : FnIx) (off len pa : Nat) (s : State), NotHeld s → hostWritesLeft s = false → bar2Waits s fn off len = false →
    0 < len → off / 64 = (off + len - 1) / 64 → bar2Addr s fn off = some pa → sealedPa s pa = false →
    ∃ t mark, Runs (.bar2Read fn off len) s t ∧ t.out.getLast? = some (.readData fn (memRead s.mem pa len) mark)) ∧
  (∀ (fn : FnIx) (off len : Nat) (s : State), NotHeld s → hostWritesLeft s = false → bar4Waits s fn off len = false →
    ∃ t data mark, Runs (.bar2Read fn off len true) s t ∧ t.out.getLast? = some (.readData fn data mark) ∧ data.length = len) ∧
  (∀ (fn : FnIx) (off pa : Nat) (data : List Byte) (poison relaxed : Bool) (s : State), NotHeld s →
    data ≠ [] → off / 64 = (off + data.length - 1) / 64 → bar2Addr s fn off = some pa → sealedPa s pa = false →
    ∃ t f, Runs (.bar2Write fn off data poison relaxed) s t ∧ t.ord.flights = s.ord.flights ++ [f] ∧ f.id = s.ord.nextId ∧
      t.ord.nextId = s.ord.nextId + 1 ∧ f.src = .pcie ∧ f.dst = .mem pa ∧ f.data = data ∧ f.poison = poison ∧
      f.relaxed = relaxed ∧ f.final = false ∧ AgreeOutside [.ord, .pwr] s t) ∧
  (∀ (fn : FnIx) (off base size : Nat) (data : List Byte) (poison : Bool) (s : State), NotHeld s →
    bar4Ring s fn off = some (base, size) → data ≠ [] → off % 0x100000 + data.length ≤ size →
    (base + off % 0x100000) / 64 = (base + off % 0x100000 + data.length - 1) / 64 → sealedPa s (base + off % 0x100000) = false →
    ∃ t f, Runs (.bar4Write fn off data poison) s t ∧ t.ord.flights = s.ord.flights ++ [f] ∧ f.src = .pcie ∧
      f.dst = .mem (base + off % 0x100000) ∧ f.data = data ∧ f.poison = poison ∧ AgreeOutside [.ord, .pwr] s t) ∧
  (∀ (fn : FnIx) (bar off size : Nat) (op : AtomicOp) (x cmp : W64) (s : State), dieSleeps s = false →
    bar ≠ 2 ∨ size ≠ 8 ∨ op = .addF64 → Runs (.barAtomicop fn bar off size op x cmp) s (emit (notIdle s) (.unsupported fn))) ∧
  (∀ (fn : FnIx) (off : Nat) (op : AtomicOp) (x cmp : W64) (s : State), op ≠ .addF64 → NotHeld s → hostWritesLeft s = false →
    bar2Waits s fn off 8 = false → atomicAddr s fn off = none →
    Runs (.barAtomicop fn 2 off 8 op x cmp) s (emit (notIdle s) (.unsupported fn))) ∧
  (∀ (fn : FnIx) (off pa : Nat) (op : AtomicOp) (x cmp : W64) (s : State), op ≠ .addF64 → NotHeld s → hostWritesLeft s = false →
    bar2Waits s fn off 8 = false → atomicAddr s fn off = some pa → cohPoisonAt s pa 8 = none →
    ∃ t, Runs (.barAtomicop fn 2 off 8 op x cmp) s t ∧
      t.out.getLast? = some (.readData fn (leBytes 8 (memWord s.mem pa).toNat) false) ∧
      memWord t.mem pa = atomicResult op (memWord s.mem pa) x cmp)

/-- The fields of configuration space read as R321 and R323 give them and store what is written; before stage 0 has ended a
request is answered with a retry (R373); a held access that may proceed leaves the list of held accesses and takes effect (R31).
-/
def Obligations.ConfigAndHeld : Prop :=
  (∀ (fn : FnIx) (field : CfgField) (w : Option Nat) (s : State), sidebandUp s = false →
    Runs (.configRequest fn field w) s (emit s (.signal "CONFIG_RETRY" [fn]))) ∧
  (∀ (fn : FnIx) (s : State), sidebandUp s = true →
    Runs (.configRequest fn .totalVFs none) s (emit s (.config fn 16)) ∧
    Runs (.configRequest fn .firstVfOffset none) s (emit s (.config fn 1)) ∧
    Runs (.configRequest fn .vfStride none) s (emit s (.config fn 1)) ∧
    Runs (.configRequest fn .completionTimeoutMs none) s (emit s (.config fn s.hst.timeoutMs))) ∧
  (∀ (v : Nat) (s : State), sidebandUp s = true → 10 ≤ v → v ≤ 4000 →
    Runs (.configRequest 0 .completionTimeoutMs (some v)) s { s with hst := { s.hst with timeoutMs := v } }) ∧
  (∀ (v : Nat) (s : State), sidebandUp s = true →
    Runs (.configRequest 0 .vfEnable (some v)) s { s with hst := { s.hst with vfEnable := decide (v % 2 = 1) } }) ∧
  (∀ (n : Nat) (fn : FnIx) (off size : Nat) (s : State), s.ord.held[n]? = some (.read fn off size) → dieSleeps s = false →
    (s.ord.held.take n).any Held.posted = false → windowAwake s fn off false = true →
    (aligned64 off size && served s fn off false) = false →
    ∃ t, Runs (.heldAccessProceed n) s t ∧ t.ord.held = s.ord.held.eraseIdx n ∧ t.out = s.out ++ [.regRead fn off 0] ∧
      AgreeOutside [.ord, .out] s t) ∧
  (∀ (n : Nat) (fn : FnIx) (off pa : Nat) (data : List Byte) (poison relaxed : Bool) (s : State),
    s.ord.held[n]? = some (.bar2write fn off data poison relaxed) → dieSleeps s = false →
    (s.ord.held.take n).any Held.posted = false → data ≠ [] → off / 64 = (off + data.length - 1) / 64 →
    bar2Addr s fn off = some pa → sealedPa s pa = false →
    ∃ t f, Runs (.heldAccessProceed n) s t ∧ t.ord.held = s.ord.held.eraseIdx n ∧ t.ord.flights = s.ord.flights ++ [f] ∧
      f.dst = .mem pa ∧ f.data = data ∧ AgreeOutside [.ord] s t)

/-! ### Harps -/

/-- The sequencer's descriptor joins the harp's issue queue and is counted; while four wait, or the core may not issue, nothing
happens (R56). The descriptor at the head of the issue queue, of a harp in the kernel's HARP_MASK, with no reserved encoding and
with no range that the overlap check stops, becomes the harp's next pass: it works in the set opposite to the previous pass's,
in the same set for CHAIN, and in set 0 for the first pass of a kernel (R38, R40, R57); outside the mask the command fails with
PLACEMENT_INVALID (R57). -/
def Obligations.PassesQueueAndStart : Prop :=
  (∀ (c : CoreIx) (h : HarpIx) (desc : List W64) (s : State), canIssue s c = true → (harpAt s c h).queue.length < 4 →
    ∃ t, Runs (.passIssue c h desc) s t ∧ (harpAt t c h).queue = (harpAt s c h).queue ++ [desc] ∧
      HarpsOutside [hk c h] s t ∧ RegsOutside [R.CNT_COUNT.at c 56] s t ∧ AgreeOutside [.harps, .regs] s t ∧
      (rdB s R.CNT_CTL_FREEZE c 0 = false → rd t R.CNT_COUNT c 56 = (rd s R.CNT_COUNT c 56 + 1) % 2 ^ R.CNT_COUNT.width)) ∧
  (∀ (c : CoreIx) (h : HarpIx) (desc : List W64) (s : State), canIssue s c = false ∨ 4 ≤ (harpAt s c h).queue.length →
    Runs (.passIssue c h desc) s s) ∧
(∀ (c : CoreIx) (h : HarpIx) (d : List W64) (rest : List (List W64)) (s u : State),
    (harpAt s c h).queue = d :: rest → (harpAt s c h).next = none → (coreAt s c).running = true → (coreAt s c).stopped = false →
    (coreAt s c).harpMask / 2 ^ h.val % 2 = 1 → passFieldsBad d = false → passChainBad (coreAt s c) d = false →
    passPlaceBad (coreAt s c) (harpAt s c h).prev d = false →
    register s c (passFootprint (passOwner c h (passOf (coreAt s c) (harpAt s c h) d)) h d) = .ok u →
    ∃ t p, Runs (.passHeadCheck c h) s t ∧ (harpAt t c h).queue = rest ∧ (harpAt t c h).next = some p ∧ p.desc = d ∧ p.k = 0 ∧
      (harpAt t c h).prev = some d ∧ (harpAt t c h).prevSet = p.set ∧ (harpAt t c h).active = (harpAt s c h).active ∧
      ((harpAt s c h).prev = none → p.set = 0) ∧
      ((harpAt s c h).prev ≠ none → pFill d = 2 → p.set = (harpAt s c h).prevSet) ∧
      ((harpAt s c h).prev ≠ none → pFill d ≠ 2 → p.set = 1 - (harpAt s c h).prevSet) ∧
      HarpsOutside [hk c h] s t ∧ CoresOutside [c.val] s t ∧ AgreeOutside [.harps, .cores, .regs] s t) ∧
  (∀ (c : CoreIx) (h : HarpIx) (s : State), (harpAt s c h).queue ≠ [] → (harpAt s c h).next = none →
    (coreAt s c).running = true → (coreAt s c).stopped = false → (coreAt s c).harpMask / 2 ^ h.val % 2 = 0 →
    Runs (.passHeadCheck c h) s (failCore s c 0x1E c))

/-- The fill of the next pass's set begins once the set is empty and ends with the set active and its exception flags clear,
holding zeros or the 32 x 32 words of the fill tile, and the zero points of the pass (R37, R38, R43); a drain begins once the
output stage is free and hands the set's tile to the epilogue, copies its flags to HRP_EXC_LAST and empties the set (R37, R54,
R108). -/
def Obligations.SetFillAndDrain : Prop :=
  (∀ (c : CoreIx) (h : HarpIx) (p : Pass) (s : State), (harpAt s c h).next = some p → pFill p.desc ≠ 2 → p.filled = false →
    ((harpAt s c h).set p.set).use = .empty → (pFill p.desc = 0 ∨ fillReady (coreAt s c) p.desc = true) →
    ∃ t, Runs (.setFillStart c h) s t ∧ ((harpAt t c h).set p.set).use = .filling ∧ HarpsOutside [hk c h] s t ∧
      AgreeOutside [.harps] s t) ∧
  (∀ (c : CoreIx) (h : HarpIx) (p : Pass) (s : State), (harpAt s c h).next = some p →
    ((harpAt s c h).set p.set).use = .filling → pFill p.desc = 0 → zeroRanges p.desc = [] →
    ∃ t, Runs (.setFillDone c h) s t ∧ (harpAt t c h).set p.set = { AccSet.fresh with use := .active, desc := p.desc } ∧
      (harpAt t c h).next = some { p with filled := true } ∧ HarpsOutside [hk c h] s t ∧ AgreeOutside [.harps] s t) ∧
  (∀ (c : CoreIx) (h : HarpIx) (p : Pass) (s : State), (harpAt s c h).next = some p →
    ((harpAt s c h).set p.set).use = .filling → pFill p.desc = 0 → pFmtA p.desc = 0xB ∨ pFmtA p.desc = 0xD → SpdQuiet c s →
    zpPoison s.spd c p.desc = false →
    ∃ t, Runs (.setFillDone c h) s t ∧
      ((harpAt t c h).set p.set).zpA = (List.range 32).map (fun i => (spdByte s.spd c (pZpA p.desc + i)).toNat) ∧
      ((harpAt t c h).set p.set).acc = [] ∧ ((harpAt t c h).set p.set).use = .active) ∧
  (∀ (c : CoreIx) (h : HarpIx) (p : Pass) (s : State), (harpAt s c h).next = some p →
    ((harpAt s c h).set p.set).use = .filling → pFill p.desc = 1 → SpdQuiet c s → fillPoison s.spd c (pFillAddr p.desc) = false →
    zpPoison s.spd c p.desc = false →
    ∃ t, Runs (.setFillDone c h) s t ∧ ((harpAt t c h).set p.set).use = .active ∧
      ((harpAt t c h).set p.set).acc = fillTile s.spd c (pFillAddr p.desc) ∧ ((harpAt t c h).set p.set).flags = 0) ∧
  (∀ (c : CoreIx) (h : HarpIx) (d : Due) (rest : List Due) (s u : State), (harpAt s c h).due = d :: rest →
    (harpAt s c h).drain = none → (harpAt s c h).epi = none → (harpAt s c h).out = none →
    register s c (epiFootprint (coreAt s c) (10000 + hk c h) h ((harpAt s c h).set d.set).desc
      (d.partner.map (fun q => ((harpAt s c h).set q).desc))) = .ok u →
    ∃ t, Runs (.setDrainStart c h) s t ∧ (harpAt t c h).drain = some d ∧ (harpAt t c h).due = rest ∧
      ((harpAt t c h).set d.set).use = .draining ∧ HarpsOutside [hk c h] s t ∧ AgreeOutside [.harps, .cores, .regs] s t) ∧
  (∀ (c : CoreIx) (h : HarpIx) (d : Due) (s : State), (harpAt s c h).drain = some d → d.partner = none →
    ∃ t, Runs (.setDrainDone c h) s t ∧ (harpAt t c h).drain = none ∧
      (harpAt t c h).epi = some ⟨tileOf ((harpAt s c h).set d.set), none, false⟩ ∧ (harpAt t c h).set d.set = AccSet.fresh ∧
      reg t (R.HRP_EXC_LAST_INVALID.at c h) = excLast ((harpAt s c h).set d.set).flags (pTag ((harpAt s c h).set d.set).desc)
        ((harpAt s c h).set d.set).rows ∧
      HarpsOutside [hk c h] s t ∧ RegsOutside [R.HRP_EXC_LAST_INVALID.at c h, R.HRP_EXC_ACC_FLAGS.at c h] s t ∧
      AgreeOutside [.harps, .regs, .sch] s t)

/-- In a cycle with a stall reason the harp takes no step and counts the cycle under the reason (R36); at the 16-bit class the
first of two cycles takes no step (R34); at the 8-bit class a cycle takes one K step of the active pass, the last step of a
block adds the block's value to every accumulator inside ROWS x COLS (R33, R44), and the last step of a pass that drains and is
no partner leaves its set due to drain (R39). The figures of the step are for a core without a scratchpad watchpoint and without
a scratchpad error that no read has met. An internal error of a good harp makes its core suspect, and abandons its pass where
the harp has one, whose command then ends with HARP_FAULT in its mask (R48, R404); once the units of a failed command have
stopped, the command has ended and so have its cores (R51). -/
def Obligations.HarpStepsAndFaults : Prop :=
  (∀ (c : CoreIx) (h : HarpIx) (fc : Fin 16) (ready : Bool) (s : State),
    ((harpAt s c h).active.isSome || (harpAt s c h).next.isSome) = true → (coreAt s c).power = .running → coreCmdRuns s c = true →
    stallReason s c fc ready (harpAt s c h) ≠ 0 → stopAsked s c = false → RingsOk s →
    ∃ t, Runs (.harpKStep c h fc ready []) s t ∧ rd t R.HRP_STATUS_STALL_REASON c h = stallReason s c fc ready (harpAt s c h) ∧
      (rdB s R.CNT_CTL_FREEZE c 0 = false → rd t R.CNT_COUNT c (48 + stallReason s c fc ready (harpAt s c h)) =
        (rd s R.CNT_COUNT c (48 + stallReason s c fc ready (harpAt s c h)) + 1) % 2 ^ R.CNT_COUNT.width) ∧
      (harpAt t c h).active = (harpAt s c h).active ∧ (harpAt t c h).next = (harpAt s c h).next ∧
      (harpAt t c h).set0 = (harpAt s c h).set0 ∧ (harpAt t c h).set1 = (harpAt s c h).set1 ∧ HarpsOutside [hk c h] s t ∧
      AgreeOutside [.regs, .free, .cores, .harps, .sch, .obs] s t) ∧
  (∀ (c : CoreIx) (h : HarpIx) (fc : Fin 16) (ready : Bool) (p : Pass) (s : State),
    (harpAt s c h).active = some p → (coreAt s c).power = .running → coreCmdRuns s c = true →
    stallReason s c fc ready (harpAt s c h) = 0 → pClass p.desc = 16 → p.half = false →
    ∃ t, Runs (.harpKStep c h fc ready []) s t ∧ harpAt t c h = { harpAt s c h with active := some { p with half := true } } ∧
      HarpsOutside [hk c h] s t ∧ AgreeOutside [.harps, .regs, .cores, .obs] s t) ∧
  (∀ (c : CoreIx) (h : HarpIx) (fc : Fin 16) (ready : Bool) (p : Pass) (s : State),
    (harpAt s c h).active = some p → (coreAt s c).power = .running → coreCmdRuns s c = true →
    stallReason s c fc ready (harpAt s c h) = 0 → pClass p.desc = 8 → pTrap p.desc = false → SpdQuiet c s → p.k + 1 < pK p.desc →
    ∃ t q, Runs (.harpKStep c h fc ready []) s t ∧ (harpAt t c h).active = some q ∧ q.k = p.k + 1 ∧ q.desc = p.desc ∧ q.set = p.set ∧
      HarpsOutside [hk c h] s t ∧ t.mem = s.mem ∧ t.spd = s.spd) ∧
  (∀ (c : CoreIx) (h : HarpIx) (fc : Fin 16) (ready : Bool) (p : Pass) (i j : Nat) (s : State),
    (harpAt s c h).active = some p → (coreAt s c).power = .running → coreCmdRuns s c = true →
    stallReason s c fc ready (harpAt s c h) = 0 → pClass p.desc = 8 → pIsInt p.desc = false → pTrap p.desc = false → SpdQuiet c s →
    p.k % 32 = 31 → p.k + 1 < pK p.desc → i < pRows p.desc → j < pCols p.desc → pCols p.desc ≤ 32 →
    ∃ t, Runs (.harpKStep c h fc ready []) s t ∧
      SMap.look (fun _ => (0 : W32)) ((harpAt t c h).set p.set).acc (32 * i + j) =
        BitVec.ofNat 32 (accumulate (SMap.look (fun _ => (0 : W32)) ((harpAt s c h).set p.set).acc (32 * i + j)).toNat
          (blockValue (cellPairs p.desc
              (p.blkA ++ [stepColumn s.spd c (pFmtA p.desc) (pOrientA p.desc) (pA p.desc) (pRows p.desc) p.k])
              (p.blkB ++ [stepColumn s.spd c (pFmtB p.desc) (pOrientB p.desc) (pB p.desc) (pCols p.desc) p.k]) i j)
            (scaleCode s.spd c (pScaledA p.desc) (pScaleA p.desc) (p.k / 32) i)
            (scaleCode s.spd c (pScaledB p.desc) (pScaleB p.desc) (p.k / 32) j))).1) ∧
  (∀ (c : CoreIx) (h : HarpIx) (fc : Fin 16) (ready : Bool) (p : Pass) (s : State),
    (harpAt s c h).active = some p → (coreAt s c).power = .running → coreCmdRuns s c = true →
    stallReason s c fc ready (harpAt s c h) = 0 → pClass p.desc = 8 → pTrap p.desc = false → SpdQuiet c s → p.k + 1 = pK p.desc →
    pDrain p.desc = true → passIsPartner (coreAt s c) p.desc = false → p.bufs = [] → (harpAt s c h).partner = none →
    ∃ t, Runs (.harpKStep c h fc ready []) s t ∧ (harpAt t c h).active = none ∧
      (harpAt t c h).due = (harpAt s c h).due ++ [⟨p.set, none⟩] ∧ HarpsOutside [hk c h] s t) ∧
(∀ (c : CoreIx) (h : HarpIx) (s : State), harpGood s c h = true → coreOn s c = true →
    ∃ t, Runs (.harpInternalError c h) s t ∧ (coreAt t c).suspect.isSome = true ∧
      ((harpAt s c h).active.isSome = true → harpAt t c h = Harp.abandon (harpAt s c h)) ∧
      (∀ w k, (harpAt s c h).active.isSome = true → (coreAt s c).ring = some w → (ringAt s w).cmd = some k → k.phase = .running →
        ∃ k', (ringAt t w).cmd = some k' ∧ k'.causes / 2 ^ 3 % 2 = 1) ∧
      AgreeOutside [.regs, .out, .cores, .harps, .sch, .ras, .hst] s t) ∧
  (∀ (w : RingIx) (k : Cmd) (s : State), (ringAt s w).cmd = some k → k.phase = .stopping →
    ∃ t k', Runs (.commandStopped w) s t ∧ (ringAt t w).cmd = some k' ∧ k'.phase = .ended ∧ k'.causes = k.causes ∧
      ∀ c ∈ k.cores, (coreAt s c).ring = some w.val → (coreAt t c).ended = true ∧ (coreAt t c).running = false)

/-! ### The fiddle unit and the scratchpads -/

/-- A copy moves its bytes and changes no other byte of a scratchpad (R58); a floating-point lane operation writes, element by
element, what the format's arithmetic gives (R58, R66); a conversion writes the converted elements (R58, R82); a form that R58
does not provide, and an instruction word that the core does not recognise, fail the command with DESC_INVALID (R14, R462), and
a range outside the scratchpad with SPD_RANGE (R128). The results are for a core without scratchpad watchpoints or errors that
no read has met, not in pas de deux mode, and with no range that the overlap check stops. -/
def Obligations.FiddleInstructionRuns : Prop :=
  (∀ (c : CoreIx) (n src dst : Nat) (s u : State), canIssue s c = true → (coreAt s c).polyLoad = none →
    SpdQuiet c s → shadowOf s c = none → src + n ≤ spdBytes → dst + n ≤ spdBytes →
    register (count s c 56 1) c [⟨20000, 0, 3, 0, 0, src, src + n, false⟩, ⟨20000, 1, 3, 0, 0, dst, dst + n, true⟩] = .ok u →
    ∃ t, Runs (.fiddleInstruction c (.move n src dst)) s t ∧ spdRead t.spd c dst n = spdRead s.spd c src n ∧
      (∀ k < 2 ^ 32, ¬ (dst ≤ k ∧ k < dst + n) → spdByte t.spd c k = spdByte s.spd c k) ∧
      (∀ c' k, c' ≠ c.val → k < 2 ^ 32 → spdByte t.spd c' k = spdByte s.spd c' k) ∧
      AgreeOutside [.spd, .regs, .cores, .sch] s t) ∧
  (∀ (c : CoreIx) (op : FdlOp) (f : Fin 16) (p : BinFmt) (n a b z dst : Nat) (s : State), canIssue s c = true →
    (coreAt s c).polyLoad = none → SpdQuiet c s → shadowOf s c = none → rdB s R.SPD_OVERLAP_CTL_ACTIVE c 0 = false →
    fdlReserved (.arith op f n a b z dst) = false → fdlOpIsInt op = false → binFmt f = some p →
    (∀ q ∈ fdlSpans (.arith op f n a b z dst), q.lo + q.n ≤ spdBytes) →
    ∃ t, Runs (.fiddleInstruction c (.arith op f n a b z dst)) s t ∧
      spdRead t.spd c dst (packedBytes (fmtBits f) n) = packElems (fmtBits f)
        (((spdVec s c f a n).zip ((spdVec s c f b n).zip (spdVec s c f z n))).map (fun x => (floatOp op p f x.1 x.2.1 x.2.2).1)) ∧
      t.mem = s.mem) ∧
  (∀ (c : CoreIx) (f g : Fin 16) (rtz : Bool) (n a dst va row col : Nat) (s : State), canIssue s c = true →
    (coreAt s c).polyLoad = none → SpdQuiet c s → shadowOf s c = none → rdB s R.SPD_OVERLAP_CTL_ACTIVE c 0 = false →
    fdlReserved (.convert f g rtz n a dst 0 va row col) = false →
    a + packedBytes (fmtBits f) n ≤ spdBytes → dst + packedBytes (fmtBits g) n ≤ spdBytes →
    ∃ t, Runs (.fiddleInstruction c (.convert f g rtz n a dst 0 va row col)) s t ∧
      spdRead t.spd c dst (packedBytes (fmtBits g) n) =
        packElems (fmtBits g) ((spdVec s c f a n).map (fun x => (convertTo g rtz (fmtVal f x)).1)) ∧ t.mem = s.mem) ∧
  (∀ (c : CoreIx) (i : FdlInstr) (s : State), canIssue s c = true → (coreAt s c).polyLoad = none → fdlWaits s c i = false →
    fdlReserved i = true →
    Runs (.fiddleInstruction c i) s (failCmd (count s c 56 1) ((coreAt s c).ring.getD 0) 0x1D 0)) ∧
  (∀ (c : CoreIx) (i : FdlInstr) (s : State), canIssue s c = true → (coreAt s c).polyLoad = none → fdlWaits s c i = false →
    fdlReserved i = false → (∃ p ∈ fdlSpans i, spdBytes < p.lo + p.n) →
    Runs (.fiddleInstruction c i) s (failCmd (count s c 56 1) ((coreAt s c).ring.getD 0) 0x1C 0)) ∧
  (∀ (c : CoreIx) (i : FdlInstr) (s : State), canIssue s c = false → Runs (.fiddleInstruction c i) s s)

/-- An aligned image in the scratchpad whose range is finite and not empty is taken, and when the load ends the table holds its
64 segments' coefficients and its range (R60, R461). A word with a correctable error is written back and holds none (R142); a
cleared scratchpad holds zeros without poison, and the other cores' are as before (R143). -/
def Obligations.TablesAndScratchpadUpkeep : Prop :=
  (∀ (c : CoreIx) (t : Fin 2) (addr : Nat) (s : State), canIssue s c = true → (coreAt s c).polyLoad = none → addr % 8 = 0 →
    addr + 2056 ≤ spdBytes → SpdQuiet c s → rdB s R.SPD_OVERLAP_CTL_ACTIVE c 0 = false → spdPoison s.spd c addr 2056 = false →
    (f32.unpack (leNat (spdRead s.spd c (addr + 2048) 4))).isNan = false → (f32.unpack (leNat (spdRead s.spd c (addr + 2048) 4))).isInf = false →
    (f32.unpack (leNat (spdRead s.spd c (addr + 2052) 4))).isNan = false → (f32.unpack (leNat (spdRead s.spd c (addr + 2052) 4))).isInf = false →
    (f32.unpack (leNat (spdRead s.spd c (addr + 2048) 4))).lt false (f32.unpack (leNat (spdRead s.spd c (addr + 2052) 4))) = true →
    ∃ u, Runs (.polyTableLoad c t addr) s u ∧ (coreAt u c).polyLoad = some (t.val, spdRead s.spd c addr 2056) ∧
      rd u R.FDL_STATUS_STATE c 0 = 3 ∧ CoresOutside [c.val] s u ∧ AgreeOutside [.regs, .cores] s u) ∧
  (∀ (c : CoreIx) (t : Nat) (img : List Byte) (s : State), (coreAt s c).polyLoad = some (t, img) → t < 2 →
    ∃ u, Runs (.polyTableLoadDone c) s u ∧ (coreAt u c).polyLoad = none ∧
      (∀ i < 256, i % 4 ≠ 3 → SMap.look (fun _ => (0 : W64)) (coreAt u c).coef (t * 256 + i) =
        BitVec.ofNat 64 (leNat ((img.drop (8 * i)).take 8))) ∧
      rd u R.FDL_POLY_RANGE_LO c t = leNat ((img.drop 2048).take 4) % 2 ^ 32 ∧ rd u R.FDL_STATUS_STATE c 0 = 0 ∧
      CoresOutside [c.val] s u ∧ AgreeOutside [.regs, .cores] s u) ∧
(∀ (c : CoreIx) (word : Nat) (s : State), spdErr s.spd (c.val * 2 ^ 29 + word) = 1 →
    ∃ t, Runs (.spdEccWriteback c word) s t ∧ spdErr t.spd (c.val * 2 ^ 29 + word) = 0 ∧
      (∀ k, k ≠ c.val * 2 ^ 29 + word → spdErr t.spd k = spdErr s.spd k) ∧
      t.spd.bytes = s.spd.bytes ∧ t.spd.poison = s.spd.poison ∧ AgreeOutside [.spd] s t) ∧
  (∀ (c : CoreIx) (s : State), (coreAt s c).clearing = true →
    ∃ t, Runs (.spdClearDone c) s t ∧ (coreAt t c).clearing = false ∧ (∀ k < 2 ^ 32, spdByte t.spd c k = 0) ∧
      (∀ a n, a + n ≤ 2 ^ 32 → spdPoison t.spd c a n = false) ∧
      (∀ c' k, c' ≠ c.val → k < 2 ^ 32 → spdByte t.spd c' k = spdByte s.spd c' k) ∧
      CoresOutside [c.val] s t ∧ AgreeOutside [.spd, .cores] s t)

/-! ### Epilogues, tiles and gathers -/

/-- A waiting epilogue starts once the output stage is free (R108), and its result, as the chain of R105 forms it, is held in
the output stage with the pass's block coordinates (R117). The result is for a core without scratchpad watchpoints or errors
that no read has met, not in pas de deux mode, and for an entry that gathers no statistic of its errors. -/
def Obligations.EpilogueRuns : Prop :=
  (∀ (c : CoreIx) (h : HarpIx) (ep : Epi) (s : State), (harpAt s c h).epi = some ep → ep.started = false →
    (harpAt s c h).out = none →
    ∃ t, Runs (.epilogueStart c h) s t ∧ (harpAt t c h).epi = some { ep with started := true } ∧
      rd t R.FDL_STATUS_EPILOGUE c 0 = 1 ∧ HarpsOutside [hk c h] s t ∧
      RegsOutside [R.FDL_STATUS_EPILOGUE.at c 0] s t ∧ AgreeOutside [.harps, .regs] s t) ∧
  (∀ (c : CoreIx) (h : HarpIx) (ep : Epi) (s : State), (harpAt s c h).epi = some ep → ep.started = true → shadowOf s c = none →
    SpdQuiet c s → eErrMode (entryOf (coreAt s c) ep.tile.desc) = 0 →
    ∃ t o, Runs (.epilogueResultComplete c h) s t ∧ (harpAt t c h).epi = none ∧ (harpAt t c h).out = some o ∧
      o.rowBlock = pRowBlock ep.tile.desc ∧ o.colBlock = pColBlock ep.tile.desc ∧ o.sent = [] ∧
      o.rowBytes = resultRows (entryOf (coreAt s c) ep.tile.desc) ep.tile.desc (runChain s c ep).2.1.codes ∧
      HarpsOutside [hk c h] s t ∧ t.mem = s.mem)

/-- A target core on the module is sent a body and then, as a final write, a header, for one credit, and is sent once, where no
target before it in the list can be sent (R117, R120, R121); without a credit nothing is sent; the stage is free once every
target has been sent and none of the writes is held at the core (R23, R121); a send, or a gather, that has waited 100 us for a
credit fails the command with its status (R103, R122). -/
def Obligations.TileSending : Prop :=
  (∀ (c : CoreIx) (h : HarpIx) (t : Fin 4) (o : OutStage) (s : State), (harpAt s c h).out = some o →
    sendable s (coreAt s c) o t = true → (∀ k < t.val, sendable s (coreAt s c) o k = false) → tKind o.dest t = 1 →
    ∃ u f g i, Runs (.tileSend c h t) s u ∧ u.ord.flights = s.ord.flights ++ [f, g] ∧ f.final = false ∧ g.final = true ∧
      f.src = .core c ∧ g.src = .core c ∧ f.dst = .tile (tCore o.dest t) i ∧ g.dst = .tile (tCore o.dest t) i ∧
      f.id = s.ord.nextId ∧ g.id = s.ord.nextId + 1 ∧ i.rowBytes = o.rowBytes ∧ i.slot = tSlot o.dest t ∧
      (harpAt u c h).out = some { o with sent := o.sent ++ [t.val], writes := o.writes ++ [s.ord.nextId, s.ord.nextId + 1] } ∧
      SMap.look (fun _ => 0) (coreAt u c).credits (destKey s o.dest t) =
        SMap.look (fun _ => 0) (coreAt s c).credits (destKey s o.dest t) - 1 ∧
      HarpsOutside [hk c h] s u ∧ CoresOutside [c.val] s u ∧ AgreeOutside [.harps, .cores, .ord, .regs] s u) ∧
  (∀ (c : CoreIx) (h : HarpIx) (t : Fin 4) (o : OutStage) (s : State), (harpAt s c h).out = some o → tKind o.dest t ≠ 3 →
    SMap.look (fun _ => 0) (coreAt s c).credits (destKey s o.dest t) = 0 → Runs (.tileSend c h t) s s) ∧
  (∀ (c : CoreIx) (h : HarpIx) (o : OutStage) (s : State), (harpAt s c h).out = some o →
    (∀ t < 4, tKind o.dest t = 0 ∨ t ∈ o.sent) → (∀ f ∈ s.ord.flights, f.leg ≠ .blocked) →
    Runs (.outputStageRelease c h) s (setHarp s c h { harpAt s c h with out := none })) ∧
  (∀ (c : CoreIx) (h : HarpIx) (o : OutStage) (s : State), (harpAt s c h).out = some o → waitsForCredit s (coreAt s c) o = true →
    o.since + us 100 ≤ s.utime → Runs (.tileCreditTimeout c (some h)) s (failCore s c 0x0C 0)) ∧
  (∀ (c : CoreIx) (g : Gather) (k : Nat) (s : State), g ∈ (coreAt s c).gathers → g.waits = some k → k + us 100 ≤ s.utime →
    Runs (.tileCreditTimeout c none) s (failCore s c 0x0C 0))

/-- Arming a slot of a source on the module sets its words and returns as many credits as it has buffers (R119, R120); a header
that lands in an armed slot fills its buffer for the slot's consumers, and the write has left the network (R121); a waiting pass
is ready once its buffers are full; a credit whose route is up joins the source's count, and a credit of a closed slot fails the
source's command (R23, R120, R123). -/
def Obligations.LandingSlots : Prop :=
  (∀ (c : CoreIx) (slot : Fin 16) (words : List W64) (s : State), canIssue s c = true → slotBad words = false →
    slotSrcModule words = myModule s →
    ∃ t, Runs (.landingSlotArm c slot words) s t ∧
      SMap.look (fun _ => Slot.fresh) (coreAt t c).slots slot = ⟨true, words, [], 0⟩ ∧
      t.ord.credits = s.ord.credits ++ [⟨slotSrcCore words, targetKey (myModule s) c slot, 0, slotDepth words, c / 18⟩] ∧
      CoresOutside [c.val] s t ∧ AgreeOutside [.cores, .ord, .regs] s t) ∧
  (∀ (c : CoreIx) (slot : Fin 16) (words : List W64) (s : State), canIssue s c = true → slotBad words = true →
    Runs (.landingSlotArm c slot words) s (failCore (count s c 56 1) c 0x1D 0)) ∧
  (∀ (n words c : Nat) (f : Flight) (img : TileImage) (s : State), s.ord.flights.find? (fun f => decide (f.id = n)) = some f →
    f.dst = .tile c img → f.leg = .arrived → dstAwake s (.spd c 0) = true → f.final = true → finalHeld s f = false →
    ownerMoved s f = false → headerVerdict s c img = 0 → f.mtag = none → SpdQuiet c s → shadowOf s c = none →
    ∃ t, Runs (.tileImageLand n words) s t ∧ (∀ g ∈ t.ord.flights, g.id ≠ n) ∧
      SMap.look (fun _ => 0) (SMap.look (fun _ => Slot.fresh) (coreAt t c).slots img.slot).full
        (tileBuf (SMap.look (fun _ => Slot.fresh) (coreAt s c).slots img.slot) img.header) =
        slotConsumers (SMap.look (fun _ => Slot.fresh) (coreAt s c).slots img.slot).words ∧
      CoresOutside [c] s t ∧ t.mem = s.mem ∧ t.harps = s.harps) ∧
  (∀ (c : CoreIx) (h : HarpIx) (p : Pass) (s : State), (harpAt s c h).next = some p → p.ready = false →
    p.bufs.all (bufferFull (coreAt s c)) = true → (coreAt s c).stopped = false →
    Runs (.passCreditWaitEnd c h) s (setHarp s c h { harpAt s c h with next := some { p with ready := true } })) ∧
  (∀ (n : Nat) (cr : CreditFlight) (s : State), s.ord.credits[n]? = some cr → cr.kind = 1 →
    rowsUp s cr.row (cr.core / 18) = true → (coreAt s cr.core).gathers = [] →
    ∃ t, Runs (.creditArrive n) s t ∧ t.ord.credits = s.ord.credits.eraseIdx n ∧
      SMap.look (fun _ => 0) (coreAt t cr.core).credits cr.key =
        SMap.look (fun _ => 0) (coreAt s cr.core).credits cr.key + cr.count ∧
      CoresOutside [cr.core] s t ∧ AgreeOutside [.ord, .cores] s t) ∧
  (∀ (n : Nat) (cr : CreditFlight) (s : State), s.ord.credits[n]? = some cr → cr.kind = 2 → rowsUp s cr.row (cr.core / 18) = true →
    Runs (.creditArrive n) s (failCore { s with ord := { s.ord with credits := s.ord.credits.eraseIdx n } } cr.core 0x0D 0))

/-- A gather of valid fields reads its indices and waits for its rows (R102); a row that lands lies at the places of R138 with
the table's bytes, an index that names no row as zeros, and is no longer waited for (R102, R103, R138). The rows are of a gather
without scales, at a plain origin, on a core without scratchpad watchpoints or errors that no read has met and not in pas de
deux mode. -/
def Obligations.GatherRuns : Prop :=
  (∀ (c : CoreIx) (d : List W64) (s u : State), canIssue s c = true → gatherBad d = false → gSlot d = false →
    register (count s c 56 1) c (gatherFootprint (30000 + s.ord.nextId) d) = .ok u →
    SpdQuiet c s → spdPoison s.spd c (gIndex d) (4 * gCount d) = false →
    (unpackElems 32 (gCount d) (spdRead s.spd c (gIndex d) (4 * gCount d))).any (gatherOut d) = false →
    ∃ t g, Runs (.gather c d) s t ∧ (coreAt t c).gathers = (coreAt s c).gathers ++ [g] ∧ g.desc = d ∧ g.id = s.ord.nextId ∧
      g.ix = unpackElems 32 (gCount d) (spdRead s.spd c (gIndex d) (4 * gCount d)) ∧ g.left = List.range (gCount d) ∧
      t.ord.nextId = s.ord.nextId + 1 ∧ CoresOutside [c.val] s t ∧ AgreeOutside [.regs, .cores, .ord] s t) ∧
  (∀ (c : CoreIx) (row : Nat) (g : Gather) (s : State),
    (coreAt s c).gathers.find? (fun g => g.waits.isNone && decide (row ∈ g.left)) = some g → gatherBad g.desc = false →
    gSlot g.desc = false → g.buf = none → gScaleBytes g.desc = 0 → row < gCount g.desc → SpdQuiet c s → shadowOf s c = none →
    gatherRow g.desc (g.ix.getD row 0xFFFFFFFF) = none →
    ∃ t, Runs (.gatherRowLand c row) s t ∧ (∀ y ∈ (coreAt t c).gathers, y.id = g.id → row ∉ y.left) ∧ t.mem = s.mem ∧
      ∀ b < gRowBytes g.desc, spdByte t.spd c (gatherByte (gDest g.desc) (gRowBytes g.desc) row b) = 0) ∧
  (∀ (c : CoreIx) (row a : Nat) (g : Gather) (s u : State) (bytes : List Byte) (ps : List (Nat × Nat)),
    (coreAt s c).gathers.find? (fun g => g.waits.isNone && decide (row ∈ g.left)) = some g → gatherBad g.desc = false →
    gSlot g.desc = false → g.buf = none → gScaleBytes g.desc = 0 → row < gCount g.desc → SpdQuiet c s → shadowOf s c = none →
    gatherRow g.desc (g.ix.getD row 0xFFFFFFFF) = some a → gatherWaits s c g row = false →
    moverRead s c g.ring (ringPart s g.ring) (gTable g.desc + a * gRowBytes g.desc) (gRowBytes g.desc) = .ok (u, bytes, ps) →
    ps.all (fun q => (cohPoisonAt s q.1 q.2).isNone) = true → (coreAt u c).gathers = (coreAt s c).gathers →
    ∃ t, Runs (.gatherRowLand c row) s t ∧ (∀ y ∈ (coreAt t c).gathers, y.id = g.id → row ∉ y.left) ∧ MemOutside 0 0 s t ∧
      ∀ b < gRowBytes g.desc, spdByte t.spd c (gatherByte (gDest g.desc) (gRowBytes g.desc) row b) = bytes.getD b 0)

/-! ### Loads, stores and atomics of a core -/

/-- A load that hits the core's data cache gives the cached word and leaves memory alone; one that misses, a volatile read and
an acquire read give the word at the point of coherence with the stores of its own sequencer that are in flight laid over it
(R152, R153); an acquire read also begins the invalidation of the guarded ranges of its flag (R154). A store to a range that
maps one piece of module memory becomes one write in flight with the core as its source, and memory does not change before it
lands (R146, R152); an atomic gives the old word of its address, changes no byte outside the word, and leaves the operation's
result in a word that is neither poisoned nor lost (R217); a misaligned one fails the command. -/
def Obligations.SequencerMemory : Prop :=
  (∀ (c : CoreIx) (va : Nat) (l : CLine) (s : State), canIssue s c = true →
    cacheFind (coreAt s c) (va / 8 * 8) = some l → l.poison = false →
    ∃ t, Runs (.sequencerLoad c va) s t ∧
      (coreAt t c).loaded = BitVec.ofNat 64 (leNat ((l.data.drop (va / 8 * 8 % 64)).take 8)) ∧
      CoresOutside [c.val] s t ∧ AgreeOutside [.regs, .cores] s t) ∧
  (∀ (c : CoreIx) (va pa : Nat) (s : State), RingsOk s → canIssue s c = true → cacheFind (coreAt s c) (va / 8 * 8) = none →
    Machine.translate s (some c.val) (ringPart s ((coreAt s c).ring.getD 0)) (va / 8 * 8) false true = .ok pa → pa < 2 ^ 51 →
    accessWaits s (some c.val) (ringPart s ((coreAt s c).ring.getD 0)) (va / 8 * 8 / 64 * 64) 64 true = false →
    ∃ t, Runs (.sequencerLoad c va) s t ∧ (coreAt t c).loaded =
      BitVec.ofNat 64 (leNat (((ownStores s c (pa / 64 * 64) (memRead s.mem (pa / 64 * 64) 64)).drop (pa % 64)).take 8)) ∧
      MemOutside 0 0 s t) ∧
  (∀ (c : CoreIx) (va pa : Nat) (s : State), RingsOk s → canIssue s c = true →
    Machine.translate s (some c.val) (ringPart s ((coreAt s c).ring.getD 0)) (va / 8 * 8) false true = .ok pa → pa < 2 ^ 51 →
    accessWaits s (some c.val) (ringPart s ((coreAt s c).ring.getD 0)) (va / 8 * 8 / 8 * 8) 8 true = false →
    (∃ t, Runs (.volatileRead c va) s t ∧ (coreAt t c).loaded =
      BitVec.ofNat 64 (leNat (((ownStores s c (pa / 8 * 8) (memRead s.mem (pa / 8 * 8) 8)).drop (pa % 8)).take 8)) ∧
      MemOutside 0 0 s t) ∧
    (∃ t, Runs (.acquireRead c va) s t ∧ (coreAt t c).loaded =
      BitVec.ofNat 64 (leNat (((ownStores s c (pa / 8 * 8) (memRead s.mem (pa / 8 * 8) 8)).drop (pa % 8)).take 8)) ∧
      ((coreAt t c).running = true → (coreAt t c).acquiring =
        some ((coreAt s c).guards.filter (fun g => decide (g.flag = va / 8 * 8)))) ∧ MemOutside 0 0 s t)) ∧
  (∀ (c : CoreIx) (va : Nat) (s : State), canIssue s c = false → Runs (.sequencerLoad c va) s s ∧ Runs (.volatileRead c va) s s ∧
    Runs (.acquireRead c va) s s) ∧
(∀ (c : CoreIx) (va pa : Nat) (data : List Byte) (final : Bool) (s : State), RingsOk s → canIssue s c = true →
    pieces s (some c.val) (ringPart s ((coreAt s c).ring.getD 0)) true true va data.length = .ok [(pa, data.length)] → pa < 2 ^ 51 →
    accessWaits s (some c.val) (ringPart s ((coreAt s c).ring.getD 0)) va data.length false = false → MemQuiet s →
    ∃ t f, Runs (.sequencerStore c va data final) s t ∧ t.ord.flights = s.ord.flights ++ [f] ∧ f.src = .core c ∧ f.dst = .mem pa ∧
      f.data = data ∧ f.final = final ∧ f.poison = false ∧ f.id = s.ord.nextId ∧ t.ord.nextId = s.ord.nextId + 1 ∧
      CoresOutside [c.val] s t ∧ MemOutside 0 0 s t ∧ t.spd = s.spd ∧ t.harps = s.harps) ∧
  (∀ (c : CoreIx) (va pa : Nat) (op : AtomicOp) (x cmp : W64) (s : State), RingsOk s → canIssue s c = true → va % 8 = 0 →
    accessWaits s (some c.val) (ringPart s ((coreAt s c).ring.getD 0)) va 8 true = false →
    Machine.translate s (some c.val) (ringPart s ((coreAt s c).ring.getD 0)) va true false = .ok pa →
    ownWordBusy s c pa = false →
    ∃ t, Runs (.sequencerAtomic c va op x cmp) s t ∧ (coreAt t c).loaded = memWord s.mem pa ∧ MemOutside pa 8 s t ∧
      (pa % 8 = 0 → cohPoisonAt s pa 8 = none → writeLost s pa = false → memWord t.mem pa = atomicResult op (memWord s.mem pa) x cmp)) ∧
  (∀ (c : CoreIx) (va : Nat) (op : AtomicOp) (x cmp : W64) (s : State), canIssue s c = true → va % 8 ≠ 0 →
    Runs (.sequencerAtomic c va op x cmp) s (failCmd (count s c 56 1) ((coreAt s c).ring.getD 0) 0x1D 0))

/-- An acquire read's invalidation and a range invalidation end with no line of their ranges in the cache and every other line
kept (R154, R156); a fence holds the core at the operations issued so far, and is over once all of them have finished (R157). -/
def Obligations.InvalidationsAndFences : Prop :=
  (∀ (c : CoreIx) (gs : List Guard) (s : State), (coreAt s c).acquiring = some gs →
    ∃ t, Runs (.acquireInvalidateDone c) s t ∧ (coreAt t c).acquiring = none ∧
      (∀ l, l ∈ (coreAt t c).cache ↔ l ∈ (coreAt s c).cache ∧ ∀ g ∈ gs, ¬ (g.lo ≤ l.va * 64 + 63 ∧ l.va * 64 < g.hi)) ∧
      CoresOutside [c.val] s t ∧ AgreeOutside [.cores] s t) ∧
  (∀ (c : CoreIx) (lo hi : Nat) (s : State), canIssue s c = true → (coreAt s c).invalidating = none →
    ∃ t, Runs (.rangeInvalidate c lo hi) s t ∧ (coreAt t c).invalidating = some (lo, hi) ∧ CoresOutside [c.val] s t ∧
      RegsOutside [R.CNT_COUNT.at c 56] s t ∧ AgreeOutside [.cores, .regs] s t) ∧
  (∀ (c : CoreIx) (lo hi : Nat) (s : State), (coreAt s c).invalidating = some (lo, hi) →
    ∃ t, Runs (.rangeInvalidateDone c) s t ∧ (coreAt t c).invalidating = none ∧
      (∀ l, l ∈ (coreAt t c).cache ↔ l ∈ (coreAt s c).cache ∧ ¬ (lo ≤ l.va * 64 + 63 ∧ l.va * 64 < hi)) ∧
      CoresOutside [c.val] s t ∧ AgreeOutside [.cores] s t) ∧
  (∀ (c : CoreIx) (s : State), canIssue s c = true →
    ∃ t, Runs (.fence c) s t ∧ (coreAt t c).fenceAt = some s.ord.nextId ∧ t.ord.nextId = s.ord.nextId + 1 ∧
      t.ord.flights = s.ord.flights ∧ canIssue t c = false ∧ CoresOutside [c.val] s t ∧ AgreeOutside [.cores, .regs, .ord] s t) ∧
  (∀ (c : CoreIx) (n : Nat) (s : State), (coreAt s c).fenceAt = some n → coreDone s c n = true →
    Runs (.fenceComplete c) s (setCore s c { coreAt s c with fenceAt := none })) ∧
  (∀ (c : CoreIx) (n : Nat) (f : Flight) (s : State), (coreAt s c).fenceAt = some n → f ∈ s.ord.flights → f.src = .core c → f.id < n →
    Runs (.fenceComplete c) s s)

/-- A load, a store, an atomic and a copy of at most 512 bytes to a peer module with one link up put one request on that link,
numbered with the next tag and kept until its response comes (R298, R307). -/
def Obligations.RemoteRequests : Prop :=
  (∀ (c : CoreIx) (m : Fin 32) (win : Fin 64) (off len l : Nat) (s : State), canIssue s c = true → upLinks s m = [l] →
    SMap.look (fun _ => false) s.lnk.pausedOn m = false →
    ∃ t r x, Runs (.remoteLoad c m win off len) s t ∧ t.lnk.remote = s.lnk.remote ++ [r] ∧ r.mtag = s.lnk.nextTag ∧ r.module = m.val ∧
      r.kind = 2 ∧ r.core = c.val ∧ r.window = win.val ∧ r.off = off ∧ r.len = len ∧ r.id = s.ord.nextId ∧
      (linkAt t l).outq = (linkAt s l).outq ++ [x] ∧ x.msg.type = 2 ∧ x.msg.mtag = s.lnk.nextTag ∧
      AgreeOutside [.regs, .cores, .ord, .lnk] s t) ∧
  (∀ (c : CoreIx) (m : Fin 32) (win : Fin 64) (off l : Nat) (data : List Byte) (final : Bool) (s : State), canIssue s c = true →
    data ≠ [] → data.length ≤ 512 → upLinks s m = [l] → SMap.look (fun _ => false) s.lnk.pausedOn m = false →
    (final = true → copyUnnumbered s c m = false) → (∀ r ∈ s.lnk.remote, r.mtag ≠ s.lnk.nextTag) →
    ∃ t r x, Runs (.remoteStore c m win off data final) s t ∧ t.lnk.remote = s.lnk.remote ++ [r] ∧ r.kind = 1 ∧ r.off = off ∧
      (linkAt t l).outq = (linkAt s l).outq ++ [x] ∧ x.msg.type = 1 ∧ x.msg.data = data ∧ x.msg.final = final ∧
      x.msg.order = SMap.look (fun _ => 0) s.lnk.orderTo m ∧ AgreeOutside [.regs, .cores, .ord, .lnk] s t) ∧
  (∀ (c : CoreIx) (m : Fin 32) (win : Fin 64) (off l : Nat) (op : AtomicOp) (x y : W64) (s : State), canIssue s c = true →
    off % 8 = 0 → upLinks s m = [l] → SMap.look (fun _ => false) s.lnk.pausedOn m = false →
    (∀ r ∈ s.lnk.remote, r.mtag ≠ s.lnk.nextTag) →
    ∃ t r z, Runs (.remoteAtomic c m win off op x y) s t ∧ t.lnk.remote = s.lnk.remote ++ [r] ∧ r.kind = 4 ∧
      (linkAt t l).outq = (linkAt s l).outq ++ [z] ∧ z.msg.type = 4 ∧ z.msg.data = leBytes 8 x.toNat ++ leBytes 8 y.toNat ∧
      AgreeOutside [.regs, .cores, .ord, .lnk] s t) ∧
  (∀ (c : CoreIx) (m : Fin 32) (win : Fin 64) (off : Nat) (op : AtomicOp) (x y : W64) (s : State), canIssue s c = true →
    off % 8 ≠ 0 → Runs (.remoteAtomic c m win off op x y) s (failCore (count s c 56 1) c 0x1D 0)) ∧
  (∀ (c : CoreIx) (m : Fin 32) (win : Fin 64) (off va len l : Nat) (s : State), canIssue s c = true → 0 < len → len ≤ 512 →
    upLinks s m = [l] → SMap.look (fun _ => false) s.lnk.pausedOn m = false →
    ∃ t r x, Runs (.remoteCopy c false m win off va len) s t ∧ t.lnk.remote = s.lnk.remote ++ [r] ∧ r.kind = 2 ∧ r.va = some va ∧
      r.len = len ∧ (linkAt t l).outq = (linkAt s l).outq ++ [x] ∧ x.msg.type = 2 ∧ AgreeOutside [.regs, .cores, .ord, .lnk] s t) ∧
  (∀ (c : CoreIx) (m : Fin 32) (win : Fin 64) (off va pa len l : Nat) (s : State), RingsOk s → canIssue s c = true → 0 < len →
    len ≤ 512 → pieces s (some c.val) (ringPart s ((coreAt s c).ring.getD 0)) false true va len = .ok [(pa, len)] → pa < 2 ^ 51 →
    accessWaits s (some c.val) (ringPart s ((coreAt s c).ring.getD 0)) va len true = false →
    upLinks s m = [l] → SMap.look (fun _ => false) s.lnk.pausedOn m = false → (∀ r ∈ s.lnk.remote, r.mtag ≠ s.lnk.nextTag) →
    ∃ t r x, Runs (.remoteCopy c true m win off va len) s t ∧ t.lnk.remote = s.lnk.remote ++ [r] ∧ r.kind = 1 ∧ r.len = len ∧
      (linkAt t l).outq = (linkAt s l).outq ++ [x] ∧ x.msg.type = 1 ∧ x.msg.data = memRead s.mem pa len ∧ MemOutside 0 0 s t)

/-! ### Writes in flight, the boundary and the guards -/

/-- A write that travels arrives at its destination's port, a plain one to a scratchpad lands there (R21, R147); a blocked one
leaves when its route is up (R23); a final write waits at its source or its port while an earlier write of its source to that
destination is in flight, and is sent again from its source when its port had no room (R148 to R150). A final write of this
module held for 100 us is discarded and counted, and fails its command (R151); a write that lands in module memory changes no
byte but its own and leaves the list of writes in flight, and within one line that is not lost its bytes are those read there
afterwards (R146). -/
def Obligations.FlightsMoveAndLand : Prop :=
  (∀ (n : Nat) (f : Flight) (s : State), flightAt s n = some f → f.leg = .moving → dstAwake s f.dst = true →
    (f.final = true ∨ ∀ c a, f.dst ≠ .spd c a) →
    Runs (.remoteWriteDeliver n) s (setFlight s n (fun f => { f with leg := .arrived }))) ∧
  (∀ (n c a : Nat) (f : Flight) (s : State), flightAt s n = some f → f.leg = .moving → f.dst = .spd c a → f.final = false →
    dstAwake s f.dst = true → spdAfter s f = false → ownerMoved s f = false → c < 288 → a + f.data.length ≤ spdBytes → SpdQuiet c s →
    shadowOf s c = none →
    ∃ t, Runs (.remoteWriteDeliver n) s t ∧ spdRead t.spd c a f.data.length = f.data ∧ (∀ g ∈ t.ord.flights, g.id ≠ n) ∧
      AgreeOutside [.spd, .regs, .cores, .ord] s t) ∧
  (∀ (n : Nat) (f : Flight) (s : State), flightAt s n = some f → f.leg = .blocked → routeUp s f = true →
    Runs (.packetRelease n) s (setFlight s n (fun f => { f with leg := .moving }))) ∧
  (∀ (n c : Nat) (f : Flight) (s : State), flightAt s n = some f → dstCore f.dst = some c → f.final = true → f.leg = .arrived →
    dstAwake s f.dst = true → guardLost s f = none → finalHeld s f = true → f.first = none →
    portEntries s c + resentBefore s c none < 8 →
    Runs (.finalWriteCoreArrive n) s (setFlight s n (fun f => { f with leg := .heldAtPort, since := s.utime }))) ∧
  (∀ (n c : Nat) (f : Flight) (s : State), flightAt s n = some f → dstCore f.dst = some c → f.final = true → f.leg = .arrived →
    dstAwake s f.dst = true → guardLost s f = none → finalHeld s f = false →
    Runs (.finalWriteCoreArrive n) s (landFlight s f)) ∧
  (∀ (n : Nat) (f : Flight) (s : State), flightAt s n = some f → f.leg = .heldAtPort → guardLost s f = none → finalHeld s f = false →
    dstAwake s f.dst = true → ∃ t, Runs (.finalWriteRelease n) s t ∧ t = landFlight s f ∧ ∀ g ∈ t.ord.flights, g.id ≠ n) ∧
  (∀ (n : Nat) (f : Flight) (s : State), flightAt s n = some f → f.leg = .returned →
    Runs (.finalWriteResend n) s (setFlight s n (fun f => { f with leg := if routeUp s f then .moving else .blocked }))) ∧
  (∀ (n : Nat) (f : Flight) (s : State), flightAt s n = some f → f.leg = .heldAtSource → earlierLeft s f = false →
    Runs (.finalWriteSourceRelease n) s (setFlight s n (fun f => { f with leg := if routeUp s f then .moving else .blocked }))) ∧
(∀ (n w : Nat) (f : Flight) (s : State), flightAt s n = some f → f.final = true → f.ring = some w →
    (∀ m, f.src ≠ .peer m) → (∀ m k, f.src ≠ .peerCore m k) →
    (f.leg = .heldAtSource ∨ f.leg = .heldAtPort ∨ f.leg = .returned) → f.since + us 100 ≤ s.utime →
    Runs (.finalTimeout n) s (failCmd (dropFlight (addSat s R.PRT_ORDER_STATUS_FINAL_TIMEOUTS 0 0 1) n) w 0x0B 0)) ∧
  (∀ (n pa : Nat) (f : Flight) (s : State), flightAt s n = some f → f.dst = .mem pa → f.leg = .arrived →
    writeWaits s pa f.data.length = false → landsAfter s f pa = false → (f.final = true → guardLost s f = none ∧ finalHeld s f = false) →
    ∃ t, Runs (.sliceWriteLand n ⟨[], 0, 0⟩) s t ∧ MemOutside pa f.data.length s t ∧ t.spd = s.spd ∧ (∀ g ∈ t.ord.flights, g.id ≠ n)) ∧
  (∀ (n pa : Nat) (f : Flight) (s : State), flightAt s n = some f → f.dst = .mem pa → f.leg = .arrived →
    writeWaits s pa f.data.length = false → landsAfter s f pa = false → f.final = false → ownerMoved s f = false →
    f.data ≠ [] → pa / 64 = (pa + f.data.length - 1) / 64 → writeLost s pa = false →
    ∃ t, Runs (.sliceWriteLand n ⟨[], 0, 0⟩) s t ∧ memRead t.mem pa f.data.length = f.data) ∧
  (∀ (n pa : Nat) (f : Flight) (med : Medium) (s : State), flightAt s n = some f → f.dst = .mem pa → f.leg = .arrived →
    writeWaits s pa f.data.length = false → landsAfter s f pa = false → f.final = true → guardLost s f = none → finalHeld s f = true →
    Runs (.sliceWriteLand n med) s (setFlight s n (fun f => { f with leg := .heldAtPort, since := s.utime })))

/-- A read at a home slice whose medium is clean returns the bytes at the point of coherence (R146, R215), and an atomic returns
the old word, changes no other byte, and leaves the operation's result in a word that is neither poisoned nor lost (R217); a
read of an address that R211 leaves absent, or of the host's range, stops with a fault. A flush takes the dirty lines of its
range and, once every medium is up, leaves none of them dirty (R218); way masks and the memory controls take their shadow values
together, and a mask of 0 refuses the commit (R12, R216). -/
def Obligations.SlicesAndCommits : Prop :=
  (∀ (who : Requester) (pa len : Nat) (s : State), placeOf s pa ≠ .absent → placeOf s pa ≠ .host → memWaits s pa len = false →
    ∃ t mark, Runs (.sliceRead who pa len ⟨[], 0, 0⟩) s t ∧ t.out.getLast? = some (.sliceData who (memRead s.mem pa len) mark) ∧
      MemOutside 0 0 s t) ∧
  (∀ (who : Requester) (pa : Nat) (op : AtomicOp) (x cmp : W64) (bad : Bool) (s : State), placeOf s pa ≠ .absent →
    placeOf s pa ≠ .host → memWaits s pa 8 = false → pa % 8 = 0 →
    ∃ t mark, Runs (.sliceAtomic who pa op x cmp bad ⟨[], 0, 0⟩) s t ∧
      t.out.getLast? = some (.sliceData who (leBytes 8 (memWord s.mem pa).toNat) mark) ∧ MemOutside pa 8 s t ∧
      (cohPoisonAt s pa 8 = none → writeLost s pa = false → memWord t.mem pa = atomicResult op (memWord s.mem pa) x cmp)) ∧
  (∀ (who : Requester) (pa len : Nat) (med : Medium) (op : AtomicOp) (x cmp : W64) (bad : Bool) (s : State),
    placeOf s pa = .absent ∨ placeOf s pa = .host →
    exec (.sliceRead who pa len med) s = .fault .absentAddress ∧ exec (.sliceAtomic who pa op x cmp bad med) s = .fault .absentAddress) ∧
(∀ (s : State), rdB s R.CCH_FLUSH_CTL_BUSY 0 0 = false →
    ∃ t, Runs .cchFlushStart s t ∧ rdB t R.CCH_FLUSH_CTL_BUSY 0 0 = true ∧
      (∀ l, l ∈ t.ms.flush ↔ ((∃ x, (l, x) ∈ s.ms.lines ∧ x.dirty = true) ∨ l ∈ s.ms.wbHeld) ∧
        rd s R.CCH_FLUSH_BASE_ADDR 0 0 ≤ l ∧ l < rd s R.CCH_FLUSH_END_ADDR 0 0) ∧ RegsOutside [R.CCH_FLUSH_CTL_BUSY.at 0 0] s t ∧ AgreeOutside [.regs, .ms] s t) ∧
  (∀ (s : State), rdB s R.CCH_FLUSH_CTL_BUSY 0 0 = true → s.ms.flush.all (mediumUp s) = true →
    ∃ t, Runs .cchFlushDone s t ∧ rdB t R.CCH_FLUSH_CTL_BUSY 0 0 = false ∧ t.ms.flush = [] ∧
      (∀ l x, (l, x) ∈ t.ms.lines → l ∈ s.ms.flush → x.dirty = false) ∧
      RegsOutside [R.CCH_FLUSH_CTL_BUSY.at 0 0] s t ∧ AgreeOutside [.regs, .ms, .out] s t) ∧
  (∀ (s : State), (∀ p < 16, rdS s R.CCH_WAYMASK_WAYS p 0 ≠ 0) → rdB s R.PRT_ISO_STATUS_ACTIVE 0 0 = false →
    ∃ t, Runs .cchWayCommit s t ∧ (∀ p < 16, rd t R.CCH_WAYMASK_WAYS p 0 = rdS s R.CCH_WAYMASK_WAYS p 0) ∧
      RegsOutside ((List.range 16).map (fun p => R.CCH_WAYMASK_WAYS.at p 0)) s t ∧ AgreeOutside [.regs] s t) ∧
  (∀ (p : Nat) (s : State), p < 16 → rdS s R.CCH_WAYMASK_WAYS p 0 = 0 →
    Runs .cchWayCommit s (wr s R.PRT_ISO_STATUS_WAY_REJECTED 0 0 1)) ∧
  (∀ (s : State), 1 ≤ rdS s R.MEM_SCRUB_CTL_PERIOD_H 0 0 → rdS s R.MEM_SCRUB_CTL_PERIOD_H 0 0 ≤ 168 →
    ∃ t, Runs .memCommit s t ∧ rd t R.MEM_SCRUB_CTL_PERIOD_H 0 0 = rdS s R.MEM_SCRUB_CTL_PERIOD_H 0 0 ∧
      rd t R.MEM_SCRUB_CTL_ENABLE 0 0 = rdS s R.MEM_SCRUB_CTL_ENABLE 0 0 ∧
      rd t R.MEM_RETRAIN_CTL_INTERVAL_MIN 0 0 = rdS s R.MEM_RETRAIN_CTL_INTERVAL_MIN 0 0 ∧
      rd t R.MEM_RETRAIN_CTL_TEMP_DELTA 0 0 = rdS s R.MEM_RETRAIN_CTL_TEMP_DELTA 0 0 ∧
      RegsOutside [R.MEM_SCRUB_CTL_ENABLE.at 0 0, R.MEM_RETRAIN_CTL_INTERVAL_MIN.at 0 0] s t ∧ AgreeOutside [.regs] s t)

/-- The boundary of a command without a gang passes once nothing of its ring is left under way, and its cores are free for
another ring (R158); a commit of a guard table with no empty range takes its place and is copied to the cores of the partition,
one with an empty range is rejected and changes no table (R166). -/
def Obligations.BoundaryAndGuards : Prop :=
  (∀ (w : RingIx) (k : Cmd) (s : State), (ringAt s w).cmd = some k → k.phase = .ended → ringBusy s w = false →
    (getBits (k.words.getD 0 0) 8 4 = 1 → rdB s R.SEQ_RQ_CFG_GANG_EN w 0 = false ∧ gangAllEnded s w = true) →
    ∃ t k', Runs (.kernelBoundary w) s t ∧ (ringAt t w).cmd = some k' ∧ k'.phase = .bounded ∧ k'.causes = k.causes ∧
      k'.runNs = (if getBits (k.words.getD 0 0) 8 4 = 1 then k.runNs else s.utime - k.started) ∧
      (∀ c ∈ k.cores, (coreAt t c).ring ≠ some w.val) ∧ RingsOutside [w.val] s t ∧
      AgreeOutside [.cores, .harps, .ord, .sch] s t) ∧
  (∀ (p : PartIx) (s : State), rdB s R.PRT_GUARD_STATUS_PENDING p 0 = false →
    (∃ g ∈ guardSet (rdIn (copyShadow s (guardRegs p))) p, g.hi ≤ g.lo) →
    Runs (.guardCommit p) s (wr s R.PRT_GUARD_STATUS_REJECTED p 0 1)) ∧
  (∀ (p : PartIx) (s : State), rdB s R.PRT_GUARD_STATUS_PENDING p 0 = false →
    (∀ g ∈ guardSet (rdIn (copyShadow s (guardRegs p))) p, g.lo < g.hi) →
    ∃ t, Runs (.guardCommit p) s t ∧ rdB t R.PRT_GUARD_STATUS_PENDING p 0 = true ∧
      SMap.look (fun _ => []) t.ord.guardCopy p = guardSet (rdIn (copyShadow s (guardRegs p))) p ∧ AgreeOutside [.regs, .ord, .cores] s t) ∧
  (∀ (p : PartIx) (s : State), rdB s R.PRT_GUARD_STATUS_PENDING p 0 = true → guardQueue s p = [] →
    ∃ t, Runs (.guardCopyDone p) s t ∧ rdB t R.PRT_GUARD_STATUS_PENDING p 0 = false ∧
      (∀ c ∈ partCores s p, (coreAt t c).guards = SMap.look (fun _ => []) s.ord.guardCopy p) ∧ AgreeOutside [.regs, .ord, .cores] s t)

/-! ### Key-value page units -/

/-- A closed sequence opens empty with its table pages where its unit's near list has them (R176, R182); a fork of an open
parent gives an open child of the length asked for (R184); a close frees an open sequence (R186). Each operation leaves the list
of those waiting. -/
def Obligations.KvOpenForkClose : Prop :=
  (∀ (n : Nat) (o : KvOp) (s : State), KvReady 1 n o s → (kvSeq s (kvRgn o.desc) (kvSq o.desc)).isOpen = false →
    kvTablePages s (kvRgn o.desc) ≤ (kvNear s (kvRgn o.desc) (kvUnit s (kvSq o.desc))).length →
    ∃ t, Runs (.kvOpen n) s t ∧ t.kv.ops = s.kv.ops.eraseIdx n ∧
      (kvSeq t (kvRgn o.desc) (kvSq o.desc)).isOpen = true ∧ (kvSeq t (kvRgn o.desc) (kvSq o.desc)).length = 0 ∧
      (kvSeq t (kvRgn o.desc) (kvSq o.desc)).tables.length = kvTablePages s (kvRgn o.desc)) ∧
  (∀ (n : Nat) (o : KvOp) (s : State), KvReady 4 n o s → kvParent o.desc < (kvGeo s (kvRgn o.desc)).maxSeq →
    (kvSeq s (kvRgn o.desc) (kvParent o.desc)).isOpen = true → (kvSeq s (kvRgn o.desc) (kvSq o.desc)).isOpen = false →
    kvPos o.desc ≤ (kvSeq s (kvRgn o.desc) (kvParent o.desc)).length →
    kvTablePages s (kvRgn o.desc) ≤ (kvNear s (kvRgn o.desc) (kvUnit s (kvSq o.desc))).length →
    ∃ t, Runs (.kvFork n) s t ∧ t.kv.ops = s.kv.ops.eraseIdx n ∧
      (kvSeq t (kvRgn o.desc) (kvSq o.desc)).isOpen = true ∧ (kvSeq t (kvRgn o.desc) (kvSq o.desc)).length = kvPos o.desc ∧
      kvSeq t (kvRgn o.desc) (kvParent o.desc) = kvSeq s (kvRgn o.desc) (kvParent o.desc)) ∧
  (∀ (n : Nat) (o : KvOp) (s : State), KvReady 6 n o s → (kvSeq s (kvRgn o.desc) (kvSq o.desc)).isOpen = true →
    ∃ t, Runs (.kvClose n) s t ∧ t.kv.ops = s.kv.ops.eraseIdx n ∧
      (kvSeq t (kvRgn o.desc) (kvSq o.desc)).isOpen = false ∧ (kvSeq t (kvRgn o.desc) (kvSq o.desc)).length = 0)

/-- A commit sets the length and counts a commit, or, after a step that failed, clears the step's fault and counts a failure
(R189, R190); a truncation sets the length and clears the fault, a pin sets the pin (R186). A commit and a pin touch no other
sequence. -/
def Obligations.KvCommitTruncatePin : Prop :=
  (∀ (n : Nat) (o : KvOp) (s : State), KvReady 3 n o s → (kvSeq s (kvRgn o.desc) (kvSq o.desc)).isOpen = true →
    (kvSeq s (kvRgn o.desc) (kvSq o.desc)).stepFault = false → (kvSeq s (kvRgn o.desc) (kvSq o.desc)).length ≤ kvPos o.desc →
    kvPos o.desc ≤ (kvGeo s (kvRgn o.desc)).maxPos →
    ∃ t, Runs (.kvCommit n) s t ∧ t.kv.ops = s.kv.ops.eraseIdx n ∧
      kvSeq t (kvRgn o.desc) (kvSq o.desc) = { kvSeq s (kvRgn o.desc) (kvSq o.desc) with
        length := kvPos o.desc, commits := ((kvSeq s (kvRgn o.desc) (kvSq o.desc)).commits + 1) % 2 ^ 32, lastOutcome := 0 } ∧
      (∀ r q, ¬ (r = kvRgn o.desc ∧ q = kvSq o.desc) → kvSeq t r q = kvSeq s r q) ∧
      AgreeOutside [.kv, .free, .mem, .regs, .out, .cores, .harps, .ord, .ms, .sch, .ras, .obs, .hst, .pwr] s t) ∧
  (∀ (n : Nat) (o : KvOp) (s : State), KvReady 3 n o s → (kvSeq s (kvRgn o.desc) (kvSq o.desc)).isOpen = true →
    (kvSeq s (kvRgn o.desc) (kvSq o.desc)).stepFault = true →
    ∃ t, Runs (.kvCommit n) s t ∧ (kvSeq t (kvRgn o.desc) (kvSq o.desc)).stepFault = false ∧
      (kvSeq t (kvRgn o.desc) (kvSq o.desc)).length = (kvSeq s (kvRgn o.desc) (kvSq o.desc)).length ∧
      (kvSeq t (kvRgn o.desc) (kvSq o.desc)).lastOutcome = 1) ∧
  (∀ (n : Nat) (o : KvOp) (s : State), KvReady 5 n o s → (kvSeq s (kvRgn o.desc) (kvSq o.desc)).isOpen = true →
    kvPos o.desc ≤ (kvSeq s (kvRgn o.desc) (kvSq o.desc)).length →
    ∃ t, Runs (.kvTruncate n) s t ∧ t.kv.ops = s.kv.ops.eraseIdx n ∧
      (kvSeq t (kvRgn o.desc) (kvSq o.desc)).length = kvPos o.desc ∧ (kvSeq t (kvRgn o.desc) (kvSq o.desc)).stepFault = false ∧
      (kvSeq t (kvRgn o.desc) (kvSq o.desc)).isOpen = true) ∧
  (∀ (n : Nat) (o : KvOp) (s : State), KvReady 7 n o s → (kvSeq s (kvRgn o.desc) (kvSq o.desc)).isOpen = true →
    ∃ t, Runs (.kvPin n) s t ∧ t.kv.ops = s.kv.ops.eraseIdx n ∧
      kvSeq t (kvRgn o.desc) (kvSq o.desc) =
        { kvSeq s (kvRgn o.desc) (kvSq o.desc) with pin := decide (dw o.desc 1 56 1 = 1) } ∧
      (∀ r q, ¬ (r = kvRgn o.desc ∧ q = kvSq o.desc) → kvSeq t r q = kvSeq s r q))

/-- An append at the sequence's length, whose source maps and whose unit has a near page for each page of positions it enters,
maps those pages and leaves the committed length as it was (R187, R189); where no page can be had, the sequence carries a step
fault until its commit (R189). -/
def Obligations.KvAppendMaps : Prop :=
  (∀ (n : Nat) (o : KvOp) (ps : List (Nat × Nat)) (s : State), KvReady 2 n o s →
    (kvSeq s (kvRgn o.desc) (kvSq o.desc)).isOpen = true → (kvSeq s (kvRgn o.desc) (kvSq o.desc)).stepFault = false →
    dw o.desc 2 0 8 < (kvGeo s (kvRgn o.desc)).layers → dw o.desc 2 8 6 < (kvGeo s (kvRgn o.desc)).pairs →
    kvPos o.desc = (kvSeq s (kvRgn o.desc) (kvSq o.desc)).length →
    kvPos o.desc + dw o.desc 2 32 16 ≤ (kvGeo s (kvRgn o.desc)).maxPos → dw o.desc 2 16 2 = 0 → 0 < dw o.desc 2 32 16 →
    pieces s none (kvGeo s (kvRgn o.desc)).part false false (dw o.desc 3 0 48)
      (dw o.desc 2 32 16 * 8 * (kvGeo s (kvRgn o.desc)).dim) = .ok ps →
    dw o.desc 2 32 16 ≤ (kvNear s (kvRgn o.desc) (kvUnit s (kvSq o.desc))).length → 0 < (kvGeo s (kvRgn o.desc)).positions →
    ∃ t, Runs (.kvAppend n) s t ∧ t.kv.ops = s.kv.ops.eraseIdx n ∧ (kvSeq t (kvRgn o.desc) (kvSq o.desc)).stepFault = false ∧
      (kvSeq t (kvRgn o.desc) (kvSq o.desc)).length = (kvSeq s (kvRgn o.desc) (kvSq o.desc)).length ∧
      ∀ k, k = (kvGeo s (kvRgn o.desc)).key (kvSq o.desc) (dw o.desc 2 0 8) (dw o.desc 2 8 6)
          (kvPos o.desc / (kvGeo s (kvRgn o.desc)).positions) →
        SMap.look (fun _ => none) (kvReg s (kvRgn o.desc)).tabs (k / 32) ≠ none → kvPage t (kvRgn o.desc) k ≠ none) ∧
  (∀ (n : Nat) (o : KvOp) (ps : List (Nat × Nat)) (s : State), KvReady 2 n o s →
    (kvSeq s (kvRgn o.desc) (kvSq o.desc)).isOpen = true → (kvSeq s (kvRgn o.desc) (kvSq o.desc)).stepFault = false →
    dw o.desc 2 0 8 < (kvGeo s (kvRgn o.desc)).layers → dw o.desc 2 8 6 < (kvGeo s (kvRgn o.desc)).pairs →
    kvPos o.desc = (kvSeq s (kvRgn o.desc) (kvSq o.desc)).length →
    kvPos o.desc + dw o.desc 2 32 16 ≤ (kvGeo s (kvRgn o.desc)).maxPos → dw o.desc 2 16 2 = 0 →
    pieces s none (kvGeo s (kvRgn o.desc)).part false false (dw o.desc 3 0 48)
      (dw o.desc 2 32 16 * 8 * (kvGeo s (kvRgn o.desc)).dim) = .ok ps →
    kvNear s (kvRgn o.desc) (kvUnit s (kvSq o.desc)) = [] → (kvGeo s (kvRgn o.desc)).borrow = false →
    (kvGeo s (kvRgn o.desc)).demote = false →
    kvPage s (kvRgn o.desc) ((kvGeo s (kvRgn o.desc)).key (kvSq o.desc) (dw o.desc 2 0 8) (dw o.desc 2 8 6)
      (kvPos o.desc / (kvGeo s (kvRgn o.desc)).positions)) = none →
    ∃ t, Runs (.kvAppend n) s t ∧ (kvSeq t (kvRgn o.desc) (kvSq o.desc)).stepFault = true ∧
      (kvSeq t (kvRgn o.desc) (kvSq o.desc)).length = (kvSeq s (kvRgn o.desc) (kvSq o.desc)).length)

/-- A fetch from a region without scales fills 32 rows of the scratchpad: zeros where no page is mapped, and else the rows of
the page up to COUNT and zeros beyond (R197, R198). -/
def Obligations.KvFetchFills : Prop :=
  (∀ (c : CoreIx) (d : List W64) (s : State), KvFetchOk c d s →
    kvPage s (dw d 0 0 6) ((kvGeo s (dw d 0 0 6)).key (dw d 0 8 24) (dw d 0 32 8) (dw d 0 40 6)
      (dw d 1 0 32 / (kvGeo s (dw d 0 0 6)).positions)) = none →
    ∃ t, Runs (.kvFetch c d) s t ∧
      (∀ i < 32, spdRead t.spd c (dw d 2 0 32 + i * 512) ((kvGeo s (dw d 0 0 6)).dim * fmtBits (kvGeo s (dw d 0 0 6)).fmt / 8) =
        List.replicate ((kvGeo s (dw d 0 0 6)).dim * fmtBits (kvGeo s (dw d 0 0 6)).fmt / 8) 0) ∧
      AgreeOutside [.spd, .regs, .cores] s t) ∧
  (∀ (c : CoreIx) (d : List W64) (page base : Nat) (s : State), KvFetchOk c d s →
    kvPage s (dw d 0 0 6) ((kvGeo s (dw d 0 0 6)).key (dw d 0 8 24) (dw d 0 32 8) (dw d 0 40 6)
      (dw d 1 0 32 / (kvGeo s (dw d 0 0 6)).positions)) = some page →
    page < (kvGeo s (dw d 0 0 6)).pages →
    walkWaits s (some c.val) (ringPart s ((coreAt s c).ring.getD 0)) ((kvGeo s (dw d 0 0 6)).key (dw d 0 8 24) (dw d 0 32 8)
      (dw d 0 40 6) (dw d 1 0 32 / (kvGeo s (dw d 0 0 6)).positions) * 65536) = false →
    Machine.translate s (some c.val) (ringPart s ((coreAt s c).ring.getD 0)) ((kvGeo s (dw d 0 0 6)).key (dw d 0 8 24) (dw d 0 32 8)
      (dw d 0 40 6) (dw d 1 0 32 / (kvGeo s (dw d 0 0 6)).positions) * 65536) false false = .ok base →
    memWaits s (base + ((dw d 0 47 1 * 2 + dw d 0 46 1) * 16384 + dw d 1 0 32 % (kvGeo s (dw d 0 0 6)).positions *
      ((kvGeo s (dw d 0 0 6)).dim * fmtBits (kvGeo s (dw d 0 0 6)).fmt / 8)))
      (dw d 0 48 6 * ((kvGeo s (dw d 0 0 6)).dim * fmtBits (kvGeo s (dw d 0 0 6)).fmt / 8)) = false →
    memWaits s ((kvGeo s (dw d 0 0 6)).slotPa page) (kvGeo s (dw d 0 0 6)).slot = false →
    ∃ t, Runs (.kvFetch c d) s t ∧
      MemOutside (kvGeo s (dw d 0 0 6)).metaPa (49152 + 20 * (kvGeo s (dw d 0 0 6)).pages) s t ∧
      ∀ i < 32, spdRead t.spd c (dw d 2 0 32 + i * 512) ((kvGeo s (dw d 0 0 6)).dim * fmtBits (kvGeo s (dw d 0 0 6)).fmt / 8) =
        if i < dw d 0 48 6 then
          memRead s.mem (base + ((dw d 0 47 1 * 2 + dw d 0 46 1) * 16384 + dw d 1 0 32 % (kvGeo s (dw d 0 0 6)).positions *
            ((kvGeo s (dw d 0 0 6)).dim * fmtBits (kvGeo s (dw d 0 0 6)).fmt / 8)) +
            i * ((kvGeo s (dw d 0 0 6)).dim * fmtBits (kvGeo s (dw d 0 0 6)).fmt / 8))
            ((kvGeo s (dw d 0 0 6)).dim * fmtBits (kvGeo s (dw d 0 0 6)).fmt / 8)
        else List.replicate ((kvGeo s (dw d 0 0 6)).dim * fmtBits (kvGeo s (dw d 0 0 6)).fmt / 8) 0)

/-- A commit through the physical function that makes an absent region valid with acceptable fields takes its set and starts its
set-up, one that makes a valid region invalid and changes nothing else starts its removal, and one of unacceptable fields is
refused with a cause (R174, R202); set-up ends with the pools on their owners' lists and removal with nothing left (R176, R181);
a replay ends with the unit ready, every sequence as its operations left it, and the record of a sequence in memory (R196). -/
def Obligations.KvRegions : Prop :=
  (∀ (r : RegionIx) (s : State), (kvGeoOf (rdS s) r).valid = true → (kvGeo s r).valid = false → rd s R.KPU_RGN_STATUS_STATE r 0 ≠ 3 →
    kvCause1 (kvGeoOf (rdS s) r) (kvGeoOf (rdS s) r).farPa (kvGeoOf (rdS s) r).scalePa = false →
    kvCause2 s (kvGeoOf (rdS s) r) = false → kvCause3 s r (kvGeoOf (rdS s) r) = false → kvCause4 s r (kvGeoOf (rdS s) r) = false →
    ∃ t, Runs (.kpuRgnCommit 0 r) s t ∧ rd t R.KPU_RGN_STATUS_STATE r 0 = 1 ∧ kvGeo t r = kvGeoOf (rdS s) r ∧ AgreeOutside [.regs] s t) ∧
  (∀ (r : RegionIx) (s : State), kvGeoOf (rdS s) r = { kvGeo s r with valid := false } → (kvGeo s r).valid = true →
    kvCause1 (kvGeo s r) (kvGeo s r).farPa (kvGeo s r).scalePa = false → rd s R.KPU_RGN_STATUS_STATE r 0 ≠ 3 →
    rd s R.KPU_RGN_STATUS_OPEN_SEQ r 0 = 0 →
    ∃ t, Runs (.kpuRgnCommit 0 r) s t ∧ rd t R.KPU_RGN_STATUS_STATE r 0 = 3 ∧ rdB t R.KPU_RGN_CFG_VALID r 0 = false ∧
      RegsOutside [R.KPU_RGN_CFG_VALID.at r 0, R.KPU_RGN_CFG_POS_LOG2.at r 0, R.KPU_RGN_STATUS_STATE.at r 0] s t ∧
      AgreeOutside [.regs] s t) ∧
  (∀ (r : RegionIx) (s : State), rdB s R.KPU_RGN_STATUS_REJECTED r 0 = false →
    kvCause1 (kvGeoOf (rdS s) r) (kvGeoOf (rdS s) r).farPa (kvGeoOf (rdS s) r).scalePa = true →
    ∃ t, Runs (.kpuRgnCommit 0 r) s t ∧ rdB t R.KPU_RGN_STATUS_REJECTED r 0 = true ∧ rd t R.KPU_RGN_STATUS_CAUSE r 0 = 1 ∧
      RegsOutside [R.KPU_RGN_STATUS_REJECTED.at r 0, R.KPU_RGN_STATUS_CAUSE.at r 0] s t ∧ AgreeOutside [.regs] s t) ∧
  (∀ (r : RegionIx) (s : State), rd s R.KPU_RGN_STATUS_STATE r 0 = 1 →
    ∃ t, Runs (.kpuRgnInitDone r) s t ∧ rd t R.KPU_RGN_STATUS_STATE r 0 = 2 ∧ rd t R.KPU_RGN_STATUS_OPEN_SEQ r 0 = 0 ∧
      (∀ q, kvSeq t r q = KvSeq.closed) ∧ (∀ k, kvPage t r k = none) ∧
      ∀ u < nu s, kvNear t r u = kvOwn (nu s) u (kvGeo s r).setAside (kvGeo s r).nearN ∧
        kvFar t r u = kvOwn (nu s) u (kvGeo s r).nearN (kvGeo s r).pages) ∧
  (∀ (r : RegionIx) (s : State), rd s R.KPU_RGN_STATUS_STATE r 0 = 3 → SMap.look (fun _ => []) s.kv.waiting r = [] →
    ∃ t, Runs (.kpuRgnDestroyDone r) s t ∧ rd t R.KPU_RGN_STATUS_STATE r 0 = 0 ∧ kvReg t r = KvRegion.fresh ∧
      RegsOutside [R.KPU_RGN_STATUS_STATE.at r 0] s t ∧ AgreeOutside [.mem, .regs, .ms, .kv] s t) ∧
  (∀ (r : RegionIx) (s : State), rd s R.KPU_RGN_STATUS_STATE r 0 = 3 →
    ∃ t, Runs (.kpuRgnDestroyDone r) s t ∧ kvReg t r = KvRegion.fresh ∧ SMap.look (fun _ => []) t.kv.waiting r = [] ∧
      AgreeOutside [.mem, .regs, .ms, .kv] s t) ∧
  (∀ (u : StackIx) (s : State), rd s R.KPU_UNIT_STATUS_STATE u 0 = 2 →
    ∃ t, Runs (.kpuJournalReplay u) s t ∧ rd t R.KPU_UNIT_STATUS_STATE u 0 = 1 ∧
      RegsOutside [R.KPU_UNIT_STATUS_STATE.at u 0] s t ∧ AgreeOutside [.mem, .regs] s t ∧
      ((∀ k < 64, rd s R.KPU_RGN_STATUS_STATE k 0 ≠ 2) → t.mem = s.mem)) ∧
  (∀ (u : StackIx) (r : RegionIx) (q pa : Nat) (x : KvSeq) (s : State), rd s R.KPU_UNIT_STATUS_STATE u 0 = 2 →
    (∀ k < 64, rd s R.KPU_RGN_STATUS_STATE k 0 = 2 ↔ k = r.val) → (kvReg s r).seqs = [(q, x)] → stackOfRank s (kvUnit s q) = u.val →
    Machine.translate s none (kvGeo s r).part ((kvGeo s r).seqtab + 64 * q) true false = .ok pa → pa % 64 = 0 → writeLost s pa = false →
    ∃ t, Runs (.kpuJournalReplay u) s t ∧ kvSeq t r q = x ∧ memRead t.mem pa 64 = wordsBytes (x.words u) ∧ MemOutside pa 64 s t)

/-! ### The memory system -/

/-- A channel whose retrain succeeds is in service again, one whose fourth full retrain fails is marked failed (R209, R210);
patrol scrub reads a line that no channel's training or repair holds back, and moves to the next, starting again after the last
(R225). -/
def Obligations.ChannelsAndScrub : Prop :=
  (∀ (k : StackIx) (ch : ChanIx) (s : State), k.val * 8 + ch.val ∈ s.ms.retraining →
    ∃ t, Runs (.channelRetrainDone k ch true) s t ∧ k.val * 8 + ch.val ∉ t.ms.retraining ∧ t.ms.failedCh = s.ms.failedCh ∧
      (∀ x, x ≠ k.val * 8 + ch.val → (x ∈ t.ms.retraining ↔ x ∈ s.ms.retraining)) ∧ AgreeOutside [.regs, .ms, .ras, .pwr] s t) ∧
  (∀ (k : StackIx) (ch : ChanIx) (s : State), k.val * 8 + ch.val ∈ s.ms.retraining →
    SMap.look (fun _ => 0) s.ms.fullTries (k.val * 8 + ch.val) < 3 →
    ∃ t, Runs (.channelRetrainDone k ch false) s t ∧ t.ms.retraining = s.ms.retraining ∧
      SMap.look (fun _ => 0) t.ms.fullTries (k.val * 8 + ch.val) = SMap.look (fun _ => 0) s.ms.fullTries (k.val * 8 + ch.val) + 1 ∧
      AgreeOutside [.ms] s t) ∧
  (∀ (k : StackIx) (ch : ChanIx) (s : State), k.val * 8 + ch.val ∈ s.ms.retraining →
    3 ≤ SMap.look (fun _ => 0) s.ms.fullTries (k.val * 8 + ch.val) →
    ∃ t, Runs (.channelRetrainDone k ch false) s t ∧ k.val * 8 + ch.val ∉ t.ms.retraining ∧
      t.ms.failedCh = s.ms.failedCh ++ [k.val * 8 + ch.val] ∧ rd t R.MEM_STACK_STATUS_CHANNELS_UP k 0 / 2 ^ ch.val % 2 = 0 ∧
      t.mem = s.mem ∧ t.spd = s.spd) ∧
  (∀ (k : StackIx) (ch : ChanIx) (ok : Bool) (s : State), k.val * 8 + ch.val ∉ s.ms.retraining →
    Runs (.channelRetrainDone k ch ok) s s) ∧
  (∀ (s : State), rdB s R.MEM_SCRUB_CTL_ENABLE 0 0 = true → nearLines s ≠ 0 → dieSleeps s = false → waitOf s 1 0 0 = none →
    2 ≤ rd s R.MEM_STACK_STATUS_STATE (bankRowOf s (s.ms.scrub * 64)).stack 0 →
    scrubBlocked s (bankRowOf s (s.ms.scrub * 64)) = false →
    ∃ t, Runs (.patrolScrubRead ⟨[], 0, 0⟩) s t ∧ t.ms.scrub = (if nearLines s ≤ s.ms.scrub + 1 then 0 else s.ms.scrub + 1) ∧
      RegsOutside [R.MEM_SCRUB_STATUS_PASSES.at 0 0, R.MEM_SCRUB_STATUS_PROGRESS.at 0 0, R.MEM_SCRUB_STATUS_STACK.at 0 0] s t ∧
      AgreeOutside [.regs, .ms] s t)

/-- A port that is UP goes DOWN with its cause (R227, R332); a device of type 3 with its medium ready brings an enabled port UP
with the capacity it presents, cut to 8,192 GiB, and a device of another type leaves it DOWN (R332); a reset makes it train
again and pulses its pin (R333, R445); each entry of the device's event log is counted (R332). -/
def Obligations.CxlPorts : Prop :=
  (∀ (n : PortIx) (cause : Nat) (s : State), portUp s n = true →
    ∃ t, Runs (.cxlPortDown n cause) s t ∧ rd t R.CXL_PORT_STATUS_STATE n 0 = 4 ∧
      rd t R.CXL_PORT_STATUS_DOWN_CAUSE n 0 = cause % 2 ^ R.CXL_PORT_STATUS_DOWN_CAUSE.width ∧
      AgreeOutside [.regs, .out, .sch, .hst] s t) ∧
  (∀ (n : PortIx) (gib rate width vendor : Nat) (s : State), rdB s R.CXL_PORT_CTL_ENABLE n 0 = true →
    (rd s R.CXL_PORT_STATUS_STATE n 0 = 1 ∨ rd s R.CXL_PORT_STATUS_STATE n 0 = 2 ∨ rd s R.CXL_PORT_STATUS_STATE n 0 = 4) →
    0 < gib → (rd s R.CXL_PORT_CAP_GIB n 0 = 0 ∨ rd s R.CXL_PORT_CAP_GIB n 0 = min gib 8192) →
    ∃ t, Runs (.cxlPortUp n true true gib rate width vendor) s t ∧ rd t R.CXL_PORT_STATUS_STATE n 0 = 3 ∧
      rd t R.CXL_PORT_CAP_GIB n 0 = min gib 8192 ∧ rd t R.CXL_PORT_STATUS_DOWN_CAUSE n 0 = 0 ∧ n.val ∉ t.ms.swReset ∧
      MemOutside 0 0 s t ∧ AgreeOutside [.regs, .out, .ms, .sch, .hst] s t) ∧
  (∀ (n : PortIx) (ready : Bool) (gib rate width vendor : Nat) (s : State), rdB s R.CXL_PORT_CTL_ENABLE n 0 = true →
    (rd s R.CXL_PORT_STATUS_STATE n 0 = 1 ∨ rd s R.CXL_PORT_STATUS_STATE n 0 = 2 ∨ rd s R.CXL_PORT_STATUS_STATE n 0 = 4) →
    Runs (.cxlPortUp n false ready gib rate width vendor) s
      (wr (wr s R.CXL_PORT_STATUS_STATE n 0 4) R.CXL_PORT_STATUS_DOWN_CAUSE n 0 2)) ∧
  (∀ (n : PortIx) (s : State), rdB s R.CXL_PORT_CTL_ENABLE n 0 = true →
    ∃ t, Runs (.cxlPortReset n) s t ∧ rd t R.CXL_PORT_STATUS_STATE n 0 = 1 ∧ rd t R.CXL_PORT_STATUS_DOWN_CAUSE n 0 = 5 ∧
      n.val ∈ t.ms.swReset ∧ Out.pin (if n.val = 0 then "CXL_RST0#" else "CXL_RST1#") false ∈ t.out ∧
      AgreeOutside [.regs, .out, .ms, .sch, .hst] s t) ∧
  (∀ (n : PortIx) (events : List (Nat × W64)) (s : State), portUp s n = true →
    ∃ t, Runs (.cxlEventLogRead n events) s t ∧ rd t R.CXL_PORT_ERR_MEDIA_EVENTS n 0 =
      min (rd s R.CXL_PORT_ERR_MEDIA_EVENTS n 0 + events.length) (2 ^ R.CXL_PORT_ERR_MEDIA_EVENTS.width - 1) ∧
      AgreeOutside [.regs, .out, .sch, .ras, .hst] s t)

/-- A miss starts a walk (R228); a walk that finds its translation puts it among the cached ones (R230), and one of a unit in a
context without a root is recorded as a fault (R232); an invalidation waits for the accesses before it and leaves no translation
that it covers (R231); a context's root takes a new value with an invalidation of the context, and in a locked interface none
(R231, R289). -/
def Obligations.TranslationCommands : Prop :=
  (∀ (who : Requester) (ctx : PartIx) (va : Nat) (write : Bool) (s : State), translated who = true →
    (∀ x ∈ s.ms.tlb, x.covers (requesterCore who) ctx (va % 2 ^ 48) = false) →
    Runs (.dtuWalk who ctx va write) s { s with ms := { s.ms with walks := s.ms.walks ++ [⟨who, ctx, va, write⟩] } }) ∧
  (∀ (n : Nat) (k : Walk) (x : Xlat) (s : State), s.ms.walks[n]? = some k →
    (walkReads s k.ctx k.va).any (fun a => memWaits s a 8) = false →
    walk s k.ctx k.va k.write (match k.who with | .core _ => true | .mover _ => true | _ => false) = .ok x →
    ∃ t, Runs (.dtuWalkDone n) s t ∧ x ∈ t.ms.tlb ∧ t.ms.walks = s.ms.walks.eraseIdx n ∧ MemOutside 0 0 s t) ∧
  (∀ (n : Nat) (k : Walk) (u : StackIx) (s : State), s.ms.walks[n]? = some k → k.who = .kpu u → k.ctx < 16 →
    rdB s R.DTU_CTX_ROOT_VALID k.ctx 0 = false → rdB s R.DTU_FAULT_VALID 0 0 = false →
    ∃ t, Runs (.dtuWalkDone n) s t ∧ rdB t R.DTU_FAULT_VALID 0 0 = true ∧ rd t R.DTU_FAULT_TYPE 0 0 = 1 ∧
      rd t R.DTU_FAULT_CTX 0 0 = k.ctx ∧ rdB t R.DTU_FAULT_NOT_CORE 0 0 = true ∧ AgreeOutside [.regs, .ms] s t) ∧
  (∀ (v : W64) (s : State), (getBits v 4 1 = 1 ∨ getBits v 8 32 ≠ 0) →
    ∃ t i, Runs (.dtuInvalidate 0 v) s t ∧ t.ms.invals = s.ms.invals ++ [i] ∧ i.fn = 0 ∧ i.ctx = getBits v 0 4 ∧
      i.va = invalVaOf s 0 ∧ i.bytes = getBits v 8 32 * 65536 ∧ i.all = decide (getBits v 4 1 = 1) ∧ rdB t R.DTU_INVAL_STATUS_PENDING 0 0 = true ∧
      RegsOutside [R.DTU_INVAL_STATUS_PENDING.at 0 0] s t ∧ AgreeOutside [.regs, .ms, .ord] s t) ∧
  (∀ (i : Inval) (s : State), s.ms.invals = [i] → bar2Before s i = false → accessUnder s i = false →
    ∃ t, Runs .dtuInvalidateDone s t ∧ t.ms.invals = [] ∧ rdB t R.DTU_INVAL_STATUS_PENDING 0 0 = false ∧
      (∀ x, x ∈ t.ms.tlb ↔ x ∈ s.ms.tlb ∧ i.hits x = false) ∧ AgreeOutside [.regs, .ms] s t) ∧
  (∀ (p : PartIx) (v : W64) (s : State), tdiLocked s p = false → rd s R.PRT_STATUS_TDI_STATE p 0 ≠ 3 → getBits v 8 4 = 0 →
    ∃ t i, Runs (.dtuCtxRootWrite p v) s t ∧ rd t R.DTU_CTX_ROOT_VALID p 0 = getBits v 0 1 ∧
      rd t R.DTU_CTX_ROOT_ROOT p 0 = getBits v 8 44 ∧ t.ms.invals = s.ms.invals ++ [i] ∧ i.ctx = p.val ∧ i.all = true) ∧
  (∀ (p : PartIx) (v : W64) (s : State), rd s R.PRT_STATUS_TDI_STATE p 0 = 3 → Runs (.dtuCtxRootWrite p v) s s) ∧
  (∀ (p : PartIx) (v : W64) (s : State), tdiLocked s p = true → Runs (.dtuCtxRootWrite p v) s (tdiError s p 1))

/-! ### Rings, commands and kernels -/

/-- A landing wakes the sarabande, which then reads word 0 of the ring's next slot (R239); a poll whose GEN does not match
doubles the ring's interval up to POLL_MAX_US, one that matches reads the slot and starts the interval afresh (R239), and one
that fails reads nothing further and is noted (R326); a slot whose GEN matches is taken, NEXT_SLOT moves on and EXPECT_GEN with
it on a wrap (R235, R236). -/
def Obligations.PollsAndSlots : Prop :=
  (∀ (w : RingIx) (s : State), (ringAt s w).woken = true → ringState s w = 2 →
    ∃ t, Runs (.sarabandeWake w) s t ∧ ringAt t w = { ringAt s w with woken := false } ∧ RingsOutside [w.val] s t ∧
      MemOutside 0 0 s t ∧ AgreeOutside [.mem, .regs, .out, .cores, .harps, .ms, .sch, .ras, .obs, .hst] s t) ∧
  (∀ (w : RingIx) (bs : List Byte) (s : State), onHost s w = true → mayTake s w = true → ringReads s w = true → slotRead s w = none →
    (ringAt s w).polledAt + us (ringAt s w).pollUs ≤ s.utime → genMatches s w (BitVec.ofNat 64 (leNat (bs.take 8))) = false →
    ∃ t, Runs (.ringPoll w (.data bs)) s t ∧ (ringAt t w).polledAt = s.utime ∧
      (ringAt t w).pollUs = (if (ringAt s w).pollUs = 0 then 1 else min (2 * (ringAt s w).pollUs) (rd s R.SEQ_SCHED_POLL_MAX_US 0 0)) ∧
      t.out = s.out ++ [.hostRead (fnOfPart (ringPart s w)) (slotAddr s w (rd s R.SEQ_RQ_STATUS_NEXT_SLOT w 0)) 8] ∧
      RingsOutside [w.val] s t ∧ AgreeOutside [.out, .sch, .hst] s t) ∧
  (∀ (w : RingIx) (bs : List Byte) (s : State), onHost s w = true → mayTake s w = true → ringReads s w = true → slotRead s w = none →
    (ringAt s w).polledAt + us (ringAt s w).pollUs ≤ s.utime → genMatches s w (BitVec.ofNat 64 (leNat (bs.take 8))) = true →
    ∃ t, Runs (.ringPoll w (.data bs)) s t ∧ (ringAt t w).polledAt = s.utime ∧ (ringAt t w).pollUs = 1 ∧ (slotRead t w).isSome = true ∧
      t.out = s.out ++ [.hostRead (fnOfPart (ringPart s w)) (slotAddr s w (rd s R.SEQ_RQ_STATUS_NEXT_SLOT w 0)) 8,
        .hostRead (fnOfPart (ringPart s w)) (slotAddr s w (rd s R.SEQ_RQ_STATUS_NEXT_SLOT w 0)) 128] ∧
      RingsOutside [w.val] s t ∧ AgreeOutside [.out, .sch, .ord, .hst] s t) ∧
  (∀ (w : RingIx) (reply : HostReply) (s : State), onHost s w = true → mayTake s w = true → ringReads s w = true → slotRead s w = none →
    (ringAt s w).polledAt + us (ringAt s w).pollUs ≤ s.utime → (∀ bs, reply ≠ .data bs) →
    ∃ t, Runs (.ringPoll w reply) s t ∧ (ringAt t w).polledAt = s.utime ∧ slotRead t w = none ∧ w.val ∈ t.hst.readFailed ∧
      RingsOutside [w.val] s t ∧ AgreeOutside [.regs, .out, .sch, .hst] s t) ∧
  (∀ (w : RingIx) (k a : Nat) (hostWords words : List W64) (s : State), mayTake s w = true → onHost s w = false →
    k = rd s R.SEQ_RQ_STATUS_NEXT_SLOT w 0 → a = slotAddr s w k → words = bytesWords (cohRead s a 128).1 →
    memWaits s a 128 = false → cohPoisonAt s a 128 = none → genMatches s w (words.getD 0 0) = true →
    (ringAt s w).taken = [] → slotWordsBad ⟨k, words, none⟩ = false →
    ∃ t, Runs (.slotTake w hostWords) s t ∧ (ringAt t w).taken = [⟨k, words, none⟩] ∧ (ringAt t w).cmd = (ringAt s w).cmd ∧
      rd t R.SEQ_RQ_STATUS_NEXT_SLOT w 0 = (k + 1) % ringSlots s w % 2 ^ R.SEQ_RQ_STATUS_NEXT_SLOT.width ∧
      rd t R.SEQ_RQ_STATUS_EXPECT_GEN w 0 = (if (k + 1) % ringSlots s w = 0
        then nextGen (rd s R.SEQ_RQ_STATUS_EXPECT_GEN w 0) % 2 ^ R.SEQ_RQ_STATUS_EXPECT_GEN.width else rd s R.SEQ_RQ_STATUS_EXPECT_GEN w 0) ∧
      RingsOutside [w.val] s t ∧ MemOutside 0 0 s t ∧
      AgreeOutside [.mem, .regs, .out, .cores, .harps, .ms, .sch, .ras, .obs, .hst, .pwr] s t) ∧
  (∀ (w : RingIx) (words : List W64) (s : State), mayTake s w = true → onHost s w = true → (slotRead s w).any (fun r => decide (r.addr = slotAddr s w (rd s R.SEQ_RQ_STATUS_NEXT_SLOT w 0))) = true →
    genMatches s w (words.getD 0 0) = true → (ringAt s w).taken = [] →
    slotWordsBad ⟨rd s R.SEQ_RQ_STATUS_NEXT_SLOT w 0, words.take 16, none⟩ = false →
    ∃ t, Runs (.slotTake w words) s t ∧ (ringAt t w).taken = [⟨rd s R.SEQ_RQ_STATUS_NEXT_SLOT w 0, words.take 16, none⟩] ∧
      slotRead t w = none ∧ RegsOutside [R.SEQ_RQ_STATUS_STATE.at w 0] s t ∧ RingsOutside [w.val] s t ∧
      AgreeOutside [.regs, .ord, .sch, .hst, .pwr] s t)

/-- START makes a STOPPED ring ACTIVE, STOP gives back the slots taken and not started and stops the ring, at once where no
command is in progress, ABORT also cancels the command in progress, REWIND goes to slot 0 and generation 1 (R239, R240, R263,
R264); a ring commit that its checks refuse changes nothing but its cause, one of the physical function that they accept takes
the shadow's values (R12, R266), a completion ring's commit likewise (R253), and the scheduling set is taken only whole and
within its ranges (R12, R13, R256). -/
def Obligations.RingControl : Prop :=
  (∀ (w : RingIx) (s : State), ringState s w = 1 →
    ∃ t, Runs (.rqStart w) s t ∧ ringState t w = 2 ∧ ringAt t w = { ringAt s w with pollUs := 0, polledAt := s.utime, woken := true } ∧
      RegsOutside [R.SEQ_RQ_STATUS_STATE.at w 0] s t ∧ RingsOutside [w.val] s t ∧ AgreeOutside [.regs, .sch] s t) ∧
  (∀ (w : RingIx) (s : State), ringState s w = 2 →
    ∃ t, Runs (.rqStop w) s t ∧ ringState t w = (if (ringAt s w).cmd.isSome then 3 else 1) ∧ ringAt t w = { ringAt s w with taken := [] } ∧
      (∀ x rest, (ringAt s w).taken = x :: rest →
        rd t R.SEQ_RQ_STATUS_NEXT_SLOT w 0 = x.slot % 2 ^ R.SEQ_RQ_STATUS_NEXT_SLOT.width) ∧
      ((ringAt s w).taken = [] → rd t R.SEQ_RQ_STATUS_NEXT_SLOT w 0 = rd s R.SEQ_RQ_STATUS_NEXT_SLOT w 0) ∧
      RegsOutside [R.SEQ_RQ_STATUS_STATE.at w 0] s t ∧ RingsOutside [w.val] s t ∧ AgreeOutside [.regs, .sch] s t) ∧
  (∀ (w : RingIx) (s : State), (ringState s w = 2 ∨ ringState s w = 3) → (ringAt s w).cmd = none →
    ∃ t, Runs (.rqAbort w) s t ∧ ringState t w = 1 ∧ rd t R.SEQ_RQ_STATUS_STOP_CAUSE w 0 = 0 ∧ (ringAt t w).taken = [] ∧
      RegsOutside [R.SEQ_RQ_STATUS_STATE.at w 0] s t ∧ RingsOutside [w.val] s t ∧ AgreeOutside [.regs, .sch] s t) ∧
  (∀ (w : RingIx) (d : Cmd) (s : State), (ringState s w = 2 ∨ ringState s w = 3) → (ringAt s w).cmd = some d →
    (d.phase = .running ∨ d.phase = .loading) →
    ∃ t, Runs (.rqAbort w) s t ∧ ringState t w = 4 ∧ (ringAt t w).cmd = some { d.cause 0x20 0 with aborting := true } ∧
      (ringAt t w).taken = [] ∧ RingsOutside [w.val] s t ∧ AgreeOutside [.regs, .sch, .cores] s t) ∧
  (∀ (w : RingIx) (s : State), ringState s w = 1 →
    ∃ t, Runs (.rqRewind w) s t ∧ rd t R.SEQ_RQ_STATUS_NEXT_SLOT w 0 = 0 ∧ rd t R.SEQ_RQ_STATUS_EXPECT_GEN w 0 = 1 ∧ ringState t w = 1 ∧
      RegsOutside [R.SEQ_RQ_STATUS_STATE.at w 0] s t ∧ AgreeOutside [.regs] s t) ∧
  (∀ (fn : FnIx) (w : RingIx) (s : State), reachesRing s fn w = true → rqCause s fn w ≠ 0 → rdB s R.SEQ_RQ_STATUS_REJECTED w 0 = false →
    ∃ t, Runs (.rqCommit fn w) s t ∧ rd t R.SEQ_RQ_STATUS_REJECTED w 0 = 1 ∧ rd t R.SEQ_RQ_STATUS_CAUSE w 0 = rqCause s fn w ∧
      RegsOutside [R.SEQ_RQ_STATUS_STATE.at w 0] s t ∧ AgreeOutside [.regs] s t) ∧
  (∀ (fn : FnIx) (w : RingIx) (s : State), fn.val = 0 → rqCause s fn w = 0 → rdS s R.SEQ_RQ_CFG_VALID w 0 = 1 →
    (ringState s w = 0 ∨ ringState s w = 1) →
    ∃ t, Runs (.rqCommit fn w) s t ∧ ringState t w = 1 ∧ rd t R.SEQ_RQ_CFG_VALID w 0 = 1 ∧
      (∀ f ∈ [R.SEQ_RQ_BASE_LOC, R.SEQ_RQ_BASE_ADDR, R.SEQ_RQ_CFG_PARTITION, R.SEQ_RQ_CFG_SIZE, R.SEQ_RQ_CFG_CQ, R.SEQ_RQ_CFG_SHARES,
        R.SEQ_RQ_CFG_GANG_EN, R.SEQ_RQ_CFG_GANG, R.SEQ_RQ_GANG_MODULES, R.SEQ_RQ_SAVE_PA], rd t f w 0 = rdS s f w 0) ∧
      (∀ i < 5, rd t R.SEQ_RQ_CORES_CORES w i = rdS s R.SEQ_RQ_CORES_CORES w i) ∧ (ringAt t w).created = true ∧
      ((ringAt s w).created = false → rd t R.SEQ_RQ_STATUS_NEXT_SLOT w 0 = 0 ∧ rd t R.SEQ_RQ_STATUS_EXPECT_GEN w 0 = 1) ∧
      RingsOutside [w.val] s t ∧ AgreeOutside [.regs, .cores, .sch] s t) ∧
  (∀ (cq : RingIx) (s : State), (10 < rdS s R.SEQ_CQ_CFG_SIZE cq 0 ∨ rdS s R.SEQ_CQ_CFG_IRQ_MODE cq 0 = 3) →
    Runs (.cqCommit cq) s (wr s R.SEQ_CQ_STATUS_REJECTED cq 0 1)) ∧
  (∀ (cq : RingIx) (s : State), rdS s R.SEQ_CQ_CFG_SIZE cq 0 ≤ 10 → rdS s R.SEQ_CQ_CFG_IRQ_MODE cq 0 ≠ 3 →
    rdS s R.SEQ_CQ_CFG_VALID cq 0 = 1 → (cqAt s cq).created = false →
    (∀ w < 64, rdB s R.SEQ_RQ_CFG_VALID w 0 = true → rd s R.SEQ_RQ_CFG_CQ w 0 ≠ cq.val) → (∀ r ∈ s.sch.hold, r.cq ≠ cq.val) →
    ∃ t, Runs (.cqCommit cq) s t ∧ (cqAt t cq).created = true ∧ (cqAt t cq).consumed = 0 ∧ rd t R.SEQ_CQ_STATUS_PRODUCED cq 0 = 0 ∧
      rd t R.SEQ_CQ_STATUS_GEN cq 0 = 1 ∧
      (∀ f ∈ [R.SEQ_CQ_BASE_ADDR, R.SEQ_CQ_CFG_VALID, R.SEQ_CQ_CFG_PARTITION, R.SEQ_CQ_CFG_EVENTS, R.SEQ_CQ_CFG_MODULE_EVENTS,
        R.SEQ_CQ_CFG_SIZE, R.SEQ_CQ_CFG_IRQ_MODE, R.SEQ_CQ_CFG_VECTOR, R.SEQ_CQ_CFG_HOLDOFF_US], rd t f cq 0 = rdS s f cq 0) ∧
      RegsOutside [R.SEQ_CQ_BASE_ADDR.at cq 0, R.SEQ_CQ_CFG_VALID.at cq 0, R.SEQ_CQ_STATUS_GEN.at cq 0] s t ∧
      AgreeOutside [.regs, .sch] s t) ∧
  (∀ (s : State), 1 ≤ rdS s R.SEQ_SCHED_POLL_MAX_US 0 0 → rdS s R.SEQ_SCHED_POLL_MAX_US 0 0 ≤ 100 →
    100 ≤ rdS s R.SEQ_SCHED_SLICE_US 0 0 → 200 ≤ rdS s R.SEQ_SCHED_BEAT_LIMIT_US 0 0 →
    ∃ t, Runs .seqSchedCommit s t ∧ rd t R.SEQ_SCHED_POLL_MAX_US 0 0 = rdS s R.SEQ_SCHED_POLL_MAX_US 0 0 ∧
      rd t R.SEQ_SCHED_SLICE_US 0 0 = rdS s R.SEQ_SCHED_SLICE_US 0 0 ∧
      rd t R.SEQ_SCHED_BEAT_LIMIT_US 0 0 = rdS s R.SEQ_SCHED_BEAT_LIMIT_US 0 0 ∧
      RegsOutside [R.SEQ_SCHED_POLL_MAX_US.at 0 0] s t ∧ AgreeOutside [.regs] s t) ∧
  (∀ (s : State), (rdS s R.SEQ_SCHED_POLL_MAX_US 0 0 = 0 ∨ 100 < rdS s R.SEQ_SCHED_POLL_MAX_US 0 0 ∨
    rdS s R.SEQ_SCHED_SLICE_US 0 0 < 100 ∨ rdS s R.SEQ_SCHED_BEAT_LIMIT_US 0 0 < 200) → Runs .seqSchedCommit s s)

/-- A KERNEL command whose table its checks accept waits with its placement, one that they refuse ends with the cause found
(R14, R26, R243, R244); a COPY of one row between places of one scratchpad leaves the destination with the bytes of the source
and every other byte of that scratchpad as it was (R247); KV_OPS issues the operations of its array in order, one each time, and
has nothing left with the last (R248); a NOP ends at once (R248). -/
def Obligations.CommandsBegin : Prop :=
  (∀ (w : RingIx) (x : Taken) (ps : List (Nat × Nat)) (es : List (List W64)) (s : State), frontSlot s w 1 = some x → MemQuiet s →
    kernelWordsBad x.words = false → accessWaits s none (ringPart s w) (dw x.words 2 0 48) (dw x.words 3 0 9 * 64) true = false →
    pieces s none (ringPart s w) false false (dw x.words 2 0 48) (dw x.words 3 0 9 * 64) = .ok ps →
    (∀ q ∈ ps, cohPoisonAt s q.1 q.2 = none) →
    es = (List.range (dw x.words 3 0 9)).map (fun i => ((bytesWords (readPieces s ps).1).drop (8 * i)).take 8) →
    ∃ t, Runs (.cmdKernel w) s t ∧ (ringAt t w).taken = (ringAt s w).taken.drop 1 ∧ rdB t R.SEQ_RQ_STATUS_RUNNING w 0 = true ∧
      (tableCause s w es = none → (ringAt t w).cmd = some { freshCmd s x .waiting with cores := es.map entCore, entries := es }) ∧
      (∀ code d, tableCause s w es = some (code, d) →
        (ringAt t w).cmd = some { (freshCmd s x .waiting).cause code d with phase := .ended }) ∧
      RingsOutside [w.val] s t ∧ MemOutside 0 0 s t ∧ AgreeOutside [.mem, .regs, .out, .ms, .sch, .ras, .hst] s t) ∧
  (∀ (w : RingIx) (x : Taken) (m : Nat) (s : State), frontSlot s w 2 = some x → isResident s w = true → copyBad x.words = false →
    cpSrcSpd x.words = true → cpDstSpd x.words = true → cpSrcCore x.words = m → cpDstCore x.words = m → cpRows x.words = 1 →
    m ∉ (ringAt s w).retired → copyPlaceBad s w m = false → copyBeyond x.words = false →
    coresReady s [m] = true → copyOverlaps x.words = false → SpdQuiet m s → rdB s R.SPD_OVERLAP_CTL_ACTIVE m 0 = false →
    ∃ t, Runs (.cmdCopy w) s t ∧ (ringAt t w).cmd = some (freshCmd s x .ended) ∧
      spdRead t.spd m (cpDst x.words) (cpBytes x.words) = spdRead s.spd m (cpSrc x.words) (cpBytes x.words) ∧
      (∀ a < 2 ^ 32, (a < cpDst x.words ∨ cpDst x.words + cpBytes x.words ≤ a) → spdByte t.spd m a = spdByte s.spd m a) ∧
      RingsOutside [w.val] s t ∧ AgreeOutside [.spd, .regs, .cores, .sch, .pwr] s t) ∧
  (∀ (w : RingIx) (x : Taken) (ps : List (Nat × Nat)) (s : State), frontSlot s w 3 = some x → isResident s w = true → MemQuiet s →
    kvOpsBad x.words = false → kvOpsWaits s w (freshCmd s x .running) = false →
    pieces s none (ringPart s w) false false (dw x.words 2 0 48) 48 = .ok ps → (∀ q ∈ ps, cohPoisonAt s q.1 q.2 = none) →
    kvDescBad (kvEntry s (ringPart s w) (dw x.words 2 0 48)) = false →
    ∃ t, Runs (.cmdKvOps w) s t ∧
      (ringAt t w).cmd = some { freshCmd s x .running with
        issued := 1, phase := if dw x.words 3 0 16 = 1 then .ended else .running } ∧
      t.kv.ops = s.kv.ops ++ [⟨s.ord.nextId, none, w, kvEntry s (ringPart s w) (dw x.words 2 0 48)⟩] ∧
      RingsOutside [w.val] s t ∧ MemOutside 0 0 s t ∧
      AgreeOutside [.mem, .regs, .out, .ms, .sch, .ras, .hst, .pwr, .ord, .kv] s t) ∧
  (∀ (w : RingIx) (c : Cmd) (ps : List (Nat × Nat)) (s : State), (ringAt s w).cmd = some c → c.phase = .running → opcodeOf c.words = 3 →
    c.aborting = false → s.ras.cut = false → MemQuiet s → kvOpsWaits s w c = false →
    pieces s none (ringPart s w) false false (kvOpsVa c) 48 = .ok ps → (∀ q ∈ ps, cohPoisonAt s q.1 q.2 = none) →
    kvDescBad (kvEntry s (ringPart s w) (kvOpsVa c)) = false →
    ∃ t, Runs (.cmdKvOps w) s t ∧
      (ringAt t w).cmd = some { c with issued := c.issued + 1, phase := if c.issued + 1 = dw c.words 3 0 16 then .ended else .running } ∧
      t.kv.ops = s.kv.ops ++ [⟨s.ord.nextId, none, w, kvEntry s (ringPart s w) (kvOpsVa c)⟩] ∧ RingsOutside [w.val] s t) ∧
  (∀ (w : RingIx) (x : Taken) (s : State), frontSlot s w 4 = some x → isResident s w = true → (∀ y ∈ x.words.drop 2, y = 0) →
    ∃ t, Runs (.cmdNop w) s t ∧ (ringAt t w).cmd = some (freshCmd s x .ended) ∧ (ringAt t w).taken = (ringAt s w).taken.drop 1 ∧
      RegsOutside [R.SEQ_RQ_STATUS_STATE.at w 0] s t ∧ RingsOutside [w.val] s t ∧ AgreeOutside [.regs, .sch, .pwr] s t)

/-- A resident job's kernel is loaded on its cores, with code, arguments and preload as its core entries say, and begins on all
of them together (R245); its end instruction, a stopping point where the job is asked to stop (R259, R427), waits until
everything the core issued is over, ends the core's part, and with the last core the kernel's; a set left undrained fails the
command (R52, R246). -/
def Obligations.Kernels : Prop :=
  (∀ (w : RingIx) (d : Cmd) (l : List (List (Nat × Nat) × List (Nat × Nat))) (s : State), (ringAt s w).cmd = some d → d.phase = .waiting →
    opcodeOf d.words = 1 → isResident s w = true → (ringAt s w).preempt = false → haltInProgress s = false →
    coresReady s d.cores = true → rdB s R.SEQ_RQ_CFG_GANG_EN w 0 = false → entryPieces s (ringPart s w) d.entries = .ok l →
    entriesWait s (ringPart s w) d.entries = false → (∀ q ∈ l, ∀ r ∈ q.1, cohPoisonAt s r.1 r.2 = none) →
    (d.entries.map entCore).Nodup →
    (∀ e ∈ d.entries, entCore e < 288 ∧ entryBad e = false ∧ entryBeyond e = false ∧ SpdQuiet (entCore e) s) → MemQuiet s →
    ∃ t d', Runs (.kernelStart w) s t ∧ (ringAt t w).cmd = some d' ∧ d'.phase = .loading ∧ d'.cores = d.cores ∧ d'.causes = d.causes ∧
      (∀ i e q, d.entries[i]? = some e → l[i]? = some q →
        (coreAt t (entCore e)).ring = some w.val ∧ (coreAt t (entCore e)).code = (readPieces s q.1).1 ∧
        (coreAt t (entCore e)).harpMask = entMask e ∧
        (coreAt t (entCore e)).args = d.words.drop 4 ++ [BitVec.ofNat 64 i, BitVec.ofNat 64 (dw d.words 3 32 32)] ∧
        ((∀ y ∈ d.entries, shadowOf s (entCore y) = none) → ∀ k b, (readPieces s q.2).1[k]? = some b → k < entPreBytes e →
          spdByte t.spd (entCore e) (entPreDest e + k) = b)) ∧
      RingsOutside [w.val] s t ∧ MemOutside 0 0 s t) ∧
  (∀ (w : RingIx) (d : Cmd) (s : State), (ringAt s w).cmd = some d → d.phase = .loading → d.aborting = false → s.ras.cut = false →
    d.cores.all (coreOn s) = true →
    ∃ t, Runs (.kernelBegin w) s t ∧ (ringAt t w).cmd = some { d with phase := .running, started := s.utime } ∧
      (∀ k ∈ d.cores, coreAt t k = { coreAt s k with running := true }) ∧ CoresOutside d.cores s t ∧ RingsOutside [w.val] s t ∧
      AgreeOutside [.cores, .sch] s t) ∧
  (∀ (c : CoreIx) (w : RingIx) (s : State), canIssue s c = true → (coreAt s c).ring = some w.val → (ringAt s w).preempt = true →
    ∃ t, Runs (.endInstruction c) s t ∧ (coreAt t c).ending = true ∧ rd t R.CNT_SNAP_INFO_CAUSE c 0 = 4 ∧ CoresOutside [c.val] s t ∧
      AgreeOutside [.regs, .cores] s t) ∧
  (∀ (c : CoreIx) (w : RingIx) (s : State), canIssue s c = true → (coreAt s c).ring = some w.val → (ringAt s w).preempt = false →
    ∃ t, Runs (.endInstruction c) s t ∧ coreAt t c = { coreAt s c with ending := true } ∧ CoresOutside [c.val] s t ∧
      RegsOutside [R.CNT_COUNT.at c 56] s t ∧ AgreeOutside [.regs, .cores] s t) ∧
  (∀ (c : CoreIx) (w : RingIx) (d : Cmd) (s : State), (coreAt s c).ring = some w.val → (coreAt s c).ending = true →
    (∀ h < 8, harpOver s c h = true) → coreDone s c s.ord.nextId = true →
    resultsLeft s w = false → (coreAt s c).polyLoad = none → (coreAt s c).invalidating = none →
    (ringAt s w).cmd = some d → d.phase = .running →
    ((∃ h < 8, (harpAt s c h).set0.use ≠ .empty ∨ (harpAt s c h).set1.use ≠ .empty) →
      Runs (.endInstructionComplete c) s (failCmd s w 0x1D 0)) ∧
    ((∀ h < 8, (harpAt s c h).set0.use = .empty ∧ (harpAt s c h).set1.use = .empty) →
      ∃ t, Runs (.endInstructionComplete c) s t ∧ (coreAt t c).running = false ∧ (coreAt t c).ending = false ∧ (coreAt t c).ended = true ∧
        rdB t R.SPD_OVERLAP_CTL_ACTIVE c 0 = false ∧
        ((∀ k ∈ d.cores, k = c.val ∨ (coreAt s k).ended = true) →
          (ringAt t w).cmd = some { d with phase := .ended, runNs := s.utime - d.started }) ∧
        ((∃ k ∈ d.cores, k ≠ c.val ∧ (coreAt s k).ended = false) → (ringAt t w).cmd = some d) ∧
        CoresOutside [c.val] s t ∧ RingsOutside [w.val] s t ∧ AgreeOutside [.regs, .cores, .sch] s t))

/-- A phase hint replaces its command's in the rail regions that hold the job's cores, for its time (R358); a snapshot copies
the core's counters with its cause (R427); a mark joins the core's trace records (R435); a KV operation goes to its unit (R178).
-/
def Obligations.SequencerInstructions : Prop :=
  (∀ (c : CoreIx) (w : RingIx) (level : Fin 4) (u : Nat) (stagger : Fin 3) (s : State), canIssue s c = true →
    (coreAt s c).ring = some w.val →
    ∃ t, Runs (.hintInstruction c level u stagger) s t ∧
      (level.val = 0 → t.pwr.hints = s.pwr.hints.filter (fun h => decide (h.ring ≠ some w.val))) ∧
      (level.val ≠ 0 → t.pwr.hints =
        ((s.pwr.hints.filter (fun h => decide (h.ring ≠ some w.val))).filter (fun h => decide (s.utime < h.till))) ++
          [⟨(List.range 8).filter (fun k => (ringCores s w).any (fun c => decide (regionOf c = k))), s.utime + us (u % 65536), level.val,
            stagger.val, some w.val⟩]) ∧
      RegsOutside [R.CNT_COUNT.at c 56] s t ∧ AgreeOutside [.regs, .pwr] s t) ∧
  (∀ (c : CoreIx) (s : State), canIssue s c = true → rdB s R.CNT_CTL_FREEZE c 0 = true →
    ∃ t, Runs (.snapshotInstruction c) s t ∧ (∀ n < 128, rd t R.CNT_SNAP_COUNT c n = rd s R.CNT_COUNT c n) ∧
      rd t R.CNT_SNAP_INFO_SEQ c 0 = (rd s R.CNT_SNAP_INFO_SEQ c 0 + 1) % 2 ^ 32 ∧ rd t R.CNT_SNAP_INFO_CAUSE c 0 = 2 ∧
      rd t R.CNT_SNAP_TSC_TSC c 0 = tsc s ∧ CoresOutside [c.val] s t ∧ AgreeOutside [.regs, .cores] s t) ∧
  (∀ (c : CoreIx) (s : State), canIssue s c = true → rdB s R.CNT_CTL_FREEZE c 0 = false →
    ∃ t, Runs (.snapshotInstruction c) s t ∧ (∀ n < 128, n ≠ 56 → rd t R.CNT_SNAP_COUNT c n = rd s R.CNT_COUNT c n) ∧
      rd t R.CNT_SNAP_COUNT c 56 = (rd s R.CNT_COUNT c 56 + 1) % 2 ^ R.CNT_COUNT.width ∧ rd t R.CNT_SNAP_INFO_CAUSE c 0 = 2) ∧
  (∀ (c : CoreIx) (a b : W64) (s : State), canIssue s c = true → rdB s R.CNT_TRACE_CTL_ENABLE c 0 = true →
    rd s R.CNT_TRACE_CTL_KINDS c 0 / 2 ^ 10 % 2 = 1 → rdB s R.CNT_TRACE_STATUS_FULL c 0 = false → (coreAt s c).trace.length < 16 →
    ∃ t, Runs (.traceMarkInstruction c a b) s t ∧
      coreAt t c = { coreAt s c with trace := (coreAt s c).trace ++ [[BitVec.ofNat 64 (tsc s), BitVec.ofNat 64 (10 + c.val * 256), a, b]] } ∧
      CoresOutside [c.val] s t ∧ RegsOutside [R.CNT_COUNT.at c 56] s t ∧ AgreeOutside [.regs, .cores] s t) ∧
  (∀ (c : CoreIx) (w : RingIx) (desc : List W64) (s : State), canIssue s c = true → (coreAt s c).ring = some w.val →
    (kvDescBad desc = false → ∃ t, Runs (.kvOpInstruction c desc) s t ∧
      t.kv.ops = s.kv.ops ++ [⟨s.ord.nextId, some c.val, w.val, desc⟩] ∧ t.ord.nextId = s.ord.nextId + 1 ∧
      RegsOutside [R.CNT_COUNT.at c 56] s t ∧ AgreeOutside [.regs, .ord, .kv] s t) ∧
    (kvDescBad desc = true → Runs (.kvOpInstruction c desc) s (failCmd (count s c 56 1) w 0x1D 0)))

/-- The record of a command past its boundary goes to its completion ring where that is reachable, has room and has no record
waiting, and frees the ring; otherwise it is held, up to 256 (R249, R250, R253, R327); records owed for slots not started go the
same way (R265); a control line read gives CONSUMED (R253), and an unanswered one is reported (R326); an interrupt owed at the
end of its hold-off window is sent, or set pending where its vector is masked, and unmasking sends it (R254, R324); dropped
events are reported (R255). -/
def Obligations.Records : Prop :=
  (∀ (w : RingIx) (d : Cmd) (q : Nat) (s : State), (ringAt s w).cmd = some d → d.phase = .bounded → recordsWait s w = false →
    q = rd s R.SEQ_RQ_CFG_CQ w 0 → cqReachable s q = true → cqFull s q = false → (∀ h ∈ s.sch.hold, h.cq ≠ q) → (ringAt s w).taken = [] →
    ∃ t rest, Runs (.completionRecordWrite w) s t ∧ (ringAt t w).cmd = none ∧
      t.out = s.out ++ .hostWrite (fnOfPart (rd s R.SEQ_CQ_CFG_PARTITION q 0))
        (rd s R.SEQ_CQ_BASE_ADDR q 0 * 4096 + rd s R.SEQ_CQ_STATUS_PRODUCED q 0 % cqSize s q * 64)
        (wordsBytes (setBits ((cmdRecord w d).getD 0 0) 0 8 (rd s R.SEQ_CQ_STATUS_GEN q 0) :: (cmdRecord w d).drop 1)) false false :: rest ∧
      rd t R.SEQ_CQ_STATUS_PRODUCED q 0 = (rd s R.SEQ_CQ_STATUS_PRODUCED q 0 + 1) % 2 ^ 32 ∧ rdB t R.SEQ_RQ_STATUS_RUNNING w 0 = false ∧
      RegsOutside [R.SEQ_RQ_STATUS_STATE.at w 0, R.SEQ_CQ_STATUS_GEN.at q 0] s t ∧ RingsOutside [w.val] s t ∧
      AgreeOutside [.regs, .out, .cores, .sch, .hst, .pwr] s t) ∧
  (∀ (w : RingIx) (d : Cmd) (q : Nat) (s : State), (ringAt s w).cmd = some d → d.phase = .bounded → recordsWait s w = false →
    q = rd s R.SEQ_RQ_CFG_CQ w 0 → (cqReachable s q = false ∨ cqFull s q = true ∨ ∃ h ∈ s.sch.hold, h.cq = q) → s.sch.hold.length < 256 →
    ∃ t, Runs (.completionRecordWrite w) s t ∧ (ringAt t w).cmd = some { d with phase := .held } ∧
      t.sch.hold = s.sch.hold ++ [⟨q, cmdRecord w d, some w.val, decide (dw d.words 0 12 1 = 1)⟩] ∧
      RegsOutside [R.SEQ_CQ_STATUS_GEN.at q 0, R.SEQ_STATUS_STATE.at 0 0] s t ∧ AgreeOutside [.regs, .sch] s t) ∧
  (∀ (w : RingIx) (x : Taken) (code : Nat) (rest : List (Taken × Nat)) (s : State), (ringAt s w).cmd = none →
    (ringAt s w).owed = (x, code) :: rest → recordsWait s w = false → s.sch.hold.length < 256 →
    ∃ t, Runs (.completionRecordWrite w) s t ∧ ringAt t w = { ringAt s w with owed := rest } ∧ RingsOutside [w.val] s t ∧
      AgreeOutside [.regs, .out, .sch, .hst, .pwr] s t) ∧
  (∀ (cq : RingIx) (bs : List Byte) (s : State), rdB s R.SEQ_CQ_CFG_VALID cq 0 = true → cqFull s cq = true → cqReachable s cq = true →
    (cqAt s cq).rereadAt ≤ s.utime →
    ∃ t rest, Runs (.cqControlReread cq (.data bs)) s t ∧ (cqAt t cq).consumed = leNat (bs.take 4) ∧
      t.out = s.out ++ .hostRead (fnOfPart (rd s R.SEQ_CQ_CFG_PARTITION cq 0)) (rd s R.SEQ_CQ_BASE_ADDR cq 0 * 4096 + 64 * cqSize s cq) 64 :: rest ∧
      (s.sch.hold = [] → RegsOutside [R.SEQ_CQ_STATUS_GEN.at cq 0] s t) ∧
      AgreeOutside [.regs, .out, .cores, .harps, .sch, .ras, .hst, .pwr] s t) ∧
  (∀ (cq : RingIx) (reply : HostReply) (s : State), rdB s R.SEQ_CQ_CFG_VALID cq 0 = true → cqFull s cq = true → cqReachable s cq = true →
    (cqAt s cq).rereadAt ≤ s.utime →
    (∀ bs, reply ≠ .data bs) → cq.val ∉ s.hst.ctlFailed →
    ∃ t, Runs (.cqControlReread cq reply) s t ∧ t.hst.ctlFailed = s.hst.ctlFailed ++ [cq.val] ∧ (cqAt t cq).consumed = (cqAt s cq).consumed ∧
      AgreeOutside [.regs, .out, .sch, .hst] s t) ∧
  (∀ (cq : RingIx) (s : State), (cqAt s cq).owesIrq = true → (cqAt s cq).holdUntil ≤ s.utime →
    ∃ t, Runs (.msixHoldoffExpiry cq) s t ∧ (cqAt t cq).owesIrq = false ∧
      (cqAt t cq).holdUntil = s.utime + us (rd s R.SEQ_CQ_CFG_HOLDOFF_US cq 0) ∧
      (msixMasked s (fnOfPart (rd s R.SEQ_CQ_CFG_PARTITION cq 0)) (rd s R.SEQ_CQ_CFG_VECTOR cq 0) = false →
        t.out = s.out ++ [.msix (fnOfPart (rd s R.SEQ_CQ_CFG_PARTITION cq 0)) (rd s R.SEQ_CQ_CFG_VECTOR cq 0)]) ∧
      (msixMasked s (fnOfPart (rd s R.SEQ_CQ_CFG_PARTITION cq 0)) (rd s R.SEQ_CQ_CFG_VECTOR cq 0) = true → t.out = s.out ∧
        SMap.look (fun _ => false) t.hst.msixPending
          (fnOfPart (rd s R.SEQ_CQ_CFG_PARTITION cq 0) * 2048 + rd s R.SEQ_CQ_CFG_VECTOR cq 0) = true) ∧
      AgreeOutside [.out, .sch, .hst] s t) ∧
  (∀ (fn : FnIx) (v : Fin 2048) (s : State),
    ∃ t, Runs (.msixUnmask fn v) s t ∧ msixMasked t fn v = false ∧
      t.out = s.out ++ (if SMap.look (fun _ => false) s.hst.msixPending (fn.val * 2048 + v.val) then [.msix fn v] else []) ∧
      SMap.look (fun _ => false) t.hst.msixPending (fn.val * 2048 + v.val) = false ∧ AgreeOutside [.out, .hst] s t) ∧
  (∀ (s : State), s.sch.dropped ≠ 0 → s.sch.hold.length < 256 →
    ∃ t, Runs .eventsDroppedReport s t ∧ t = postEvent { s with sch := { s.sch with dropped := 0 } } none 0x0106 s.sch.dropped 0 0 ∧
      t.sch.dropped = 0 ∧ AgreeOutside [.regs, .out, .sch, .hst] s t)

/-- At a decision only chosen jobs become resident, a chosen one whose cores no resident job holds does, and the next decision
is a time slice away (R256, R257); a core that reaches a beat counts it and stops there where its job is asked to (R259); a
stopped core's state is in the save area, and with the last core, once no tile or credit is under way to the job, the job leaves
its cores (R122, R259, R260); a saved job returns to its cores (R260); a job that does not stop within the beat limit fails
(R261). -/
def Obligations.Residency : Prop :=
  (∀ (p : PartIx) (s : State), SMap.look (fun _ => 0) s.sch.decided p ≤ s.utime → s.ras.cut = false → p.val ∉ s.tru.halted →
    ∃ t, Runs (.residencyDecision p) s t ∧
      SMap.look (fun _ => 0) t.sch.decided p = s.utime + us (rd s R.SEQ_SCHED_SLICE_US 0 0) ∧
      (∀ w < 64, isResident t w = true → isResident s w = true ∨ w ∈ chosenJobs s p) ∧
      (∀ w < 64, isResident s w = true → isResident t w = true) ∧
      (∀ w ∈ chosenJobs s p, isSaved s w = false → (∀ j < 64, isResident s j = true → coresMeet (ringCores s j) (ringCores s w) = false) →
        (∀ c ∈ ringCores s w, (coreAt s c).testing = false ∧ rdB s R.RAS_FIT_CORE_DUE c 0 = false) → isResident t w = true) ∧
      AgreeOutside [.regs, .cores, .harps, .ord, .sch, .lnk] s t) ∧
  (∀ (c : CoreIx) (w : RingIx) (d : Cmd) (s : State), canIssue s c = true → (coreAt s c).ring = some w.val → (ringAt s w).cmd = some d →
    ∃ t, Runs (.beatInstruction c) s t ∧ (coreAt t c).beats = (coreAt s c).beats + 1 ∧
      (coreAt t c).stopped = ((ringAt s w).preempt || d.aborting) ∧ CoresOutside [c.val] s t ∧ AgreeOutside [.regs, .cores] s t) ∧
  (∀ (c : CoreIx) (w : RingIx) (s : State), (coreAt s c).ring = some w.val → (ringAt s w).preempt = true → isResident s w = true →
    (coreAt s c).saved = false → coreSettled s c = true →
    (∀ d, (ringAt s w).cmd = some d → (d.phase = .running ∨ d.phase = .waiting)) →
    (∃ k ∈ ringCores s w, k ≠ c.val ∧ (coreAt s k).saved = false) →
    ∃ t, Runs (.coreStateSaveDone c) s t ∧ (coreAt t c).saved = true ∧ ringAt t w = ringAt s w ∧ isResident t w = true ∧
      CoresOutside [c.val] s t ∧ AgreeOutside [.regs, .cores] s t) ∧
  (∀ (c : CoreIx) (w : RingIx) (s : State), (coreAt s c).ring = some w.val → (ringAt s w).preempt = true → isResident s w = true →
    (coreAt s c).saved = false → coreSettled s c = true →
    (∀ d, (ringAt s w).cmd = some d → (d.phase = .running ∨ d.phase = .waiting) ∧ d.aborting = false) →
    (∀ k ∈ ringCores s w, k ≠ c.val → (coreAt s k).saved = true) → (ringCores s w).any (arriving s) = false →
    ∃ t, Runs (.coreStateSaveDone c) s t ∧ isResident t w = false ∧ isSaved t w = true ∧ (ringAt t w).preempt = false ∧
      (∀ k ∈ ringCores s w, (coreAt t k).ring = none ∧ (coreAt t k).running = false ∧ ∃ y ∈ (ringAt t w).save, y.index = k ∧
        y.bytes = SMap.keep (fun a => decide (a / 2 ^ 32 = k)) s.spd.bytes ∧
        y.harps = SMap.keep (fun a => decide (a / 8 = k)) s.harps) ∧
      (∀ d, (ringAt s w).cmd = some d → d.phase = .running → ∃ d', (ringAt t w).cmd = some d' ∧ d'.phase = .saved ∧
        d'.preempts = d.preempts + 1 ∧ d'.savedAt = s.utime) ∧
      RingsOutside [w.val] s t ∧ AgreeOutside [.regs, .cores, .harps, .sch] s t) ∧
  (∀ (w : RingIx) (s : State), isSaved s w = true → w.val ∈ chosenJobs s (ringPart s w) → coresFree s w = true →
    haltInProgress s = false → ringPart s w ∉ s.tru.halted → coresReady s (usableCores s w) = true →
    rdB s R.SEQ_RQ_CFG_GANG_EN w 0 = false →
    ∃ t, Runs (.jobResume w) s t ∧ isResident t w = true ∧ isSaved t w = false ∧ (ringAt t w).save = [] ∧
      (ringAt t w).residentAt = s.utime ∧
      (∀ d, (ringAt s w).cmd = some d → d.phase = .saved →
        (ringAt t w).cmd = some { d with phase := .running, savedNs := d.savedNs + (s.utime - d.savedAt) }) ∧
      RingsOutside [w.val] s t ∧ AgreeOutside [.spd, .regs, .cores, .harps, .sch] s t) ∧
  (∀ (w : RingIx) (d : Cmd) (at_ : Nat) (s : State), (ringAt s w).cmd = some d → d.preemptAt = some at_ →
    at_ + us (rd s R.SEQ_SCHED_BEAT_LIMIT_US 0 0) ≤ s.utime → (ringAt s w).preempt = true → opcodeOf d.words = 1 →
    (d.phase = .running ∨ d.phase = .loading) → (∃ k ∈ d.cores, atStop s k = false) →
    ∃ t, Runs (.beatLimitExpiry w) s t ∧ (ringAt t w).cmd = some { d.cause 0x0A 0 with phase := .stopping } ∧
      CoresOutside d.cores s t ∧ RingsOutside [w.val] s t ∧ AgreeOutside [.cores, .harps, .sch] s t)

/-! ### Partitions, trust and interfaces -/

/-- A partition commit is refused for the lowest cause and otherwise takes the shadow's set whole, a new partition starting with
clear cores and an unlocked interface (R12, R268, R272, R273); a partition reset stops its rings, clears its cores and ends
READY (R274); the range table is taken whole, and what changes owner is zeros before anyone is served (R270, R271, R222);
isolation mode follows its checks (R276, R278). -/
def Obligations.Partitions : Prop :=
  (∀ (p : PartIx) (s : State), prtCause s p ≠ 0 → prtCause s p ≠ 5 → rdB s R.PRT_STATUS_REJECTED p 0 = false →
    ∃ t, Runs (.partitionCommit p) s t ∧ rd t R.PRT_STATUS_REJECTED p 0 = 1 ∧ rd t R.PRT_STATUS_CAUSE p 0 = prtCause s p ∧
      RegsOutside [R.PRT_STATUS_STATE.at p 0] s t ∧ AgreeOutside [.regs] s t) ∧
  (∀ (p : PartIx) (s : State), prtCause s p = 0 →
    ∃ t, Runs (.partitionCommit p) s t ∧
      (∀ f ∈ [R.PRT_CFG_VALID, R.PRT_CFG_SEALED, R.PRT_CFG_HOST_ACCESS, R.PRT_CFG_HOST_MEM, R.PRT_CFG_MEM_WEIGHT, R.PRT_CFG_LINK_WEIGHT,
        R.PRT_CFG_POWER_W, R.PRT_RINGS_RQ, R.PRT_CQS_CQ, R.PRT_REGIONS_REGIONS], rd t f p 0 = rdS s f p 0) ∧
      (∀ i < 5, rd t R.PRT_CORE_CORES p i = rdS s R.PRT_CORE_CORES p i) ∧
      (∀ i < 4, rd t R.PRT_OWNER_HASH p i = rdS s R.PRT_OWNER_HASH p i) ∧
      (rd s R.PRT_CFG_VALID p 0 = 0 → rdS s R.PRT_CFG_VALID p 0 = 1 → rd t R.PRT_STATUS_STATE p 0 = 1 ∧
        rd t R.PRT_STATUS_TDI_STATE p 0 = 0 ∧ rd t R.PRT_STATUS_DEBUG_TOUCHED p 0 = 0 ∧
        SMap.look (fun _ => 0) t.tru.keys p = Config.freeWord s.free ∧
        ∀ c ∈ shadowCores s p, (coreAt t c).ring = none ∧ ∀ a < 2 ^ 32, spdByte t.spd c a = 0) ∧
      (rd s R.PRT_CFG_VALID p 0 = 1 → rdS s R.PRT_CFG_VALID p 0 = 0 → rd t R.PRT_STATUS_STATE p 0 = 0 ∧
        SMap.look (fun _ => 0) t.tru.keys p = 0) ∧
      AgreeOutside [.spd, .regs, .shadow, .free, .cores, .harps, .ord, .tru] s t) ∧
  (∀ (p : PartIx) (s : State), rd s R.PRT_STATUS_STATE p 0 = 1 → computeBusy s = false →
    ∃ t, Runs (.partitionReset p) s t ∧ rd t R.PRT_STATUS_STATE p 0 = 2 ∧ rd t R.BOOT_RESET_STATUS_LAST_SCOPE 0 0 = 3 ∧
      (∀ w ∈ ringsOf s p, 2 ≤ ringState s w → ringState t w = 1 ∧ rd t R.SEQ_RQ_STATUS_STOP_CAUSE w 0 = 1) ∧
      (∀ w ∈ ringsOf s p, (ringAt t w).taken = []) ∧
      (∀ c ∈ partCores s p, (coreAt t c).ring = none ∧ ∀ a < 2 ^ 32, spdByte t.spd c a = 0) ∧
      AgreeOutside [.spd, .regs, .shadow, .out, .cores, .harps, .ord, .sch, .hst, .lnk, .kv, .tru] s t) ∧
  (∀ (p : PartIx) (s : State), rd s R.PRT_STATUS_STATE p 0 ≠ 1 → Runs (.partitionReset p) s s) ∧
  (∀ (p : PartIx) (s : State), rd s R.PRT_STATUS_STATE p 0 = 2 → computeBusy s = false → kvFlying s p = false →
    ∃ t, Runs (.partitionResetDone p) s t ∧ rd t R.PRT_STATUS_STATE p 0 = 1 ∧
      (p.val ∈ s.tru.stopping → rd t R.PRT_STATUS_TDI_STATE p 0 = 0 ∧ p.val ∉ t.tru.stopping ∧
        (∀ e < 16, rdB t R.SEC_SEAL_BASE_VALID p e = false) ∧
        ∀ b g k, (b, g) ∈ partRanges s p → b * 2 ^ 30 ≤ k → k < (b + g) * 2 ^ 30 → memByte t.mem k = 0) ∧
      AgreeOutside [.mem, .regs, .out, .kv, .tru, .boot] s t) ∧
  (∀ (s : State), rdB s R.PRT_RANGE_STATUS_PENDING 0 0 = true →
    Runs .rangeCommit s { s with tru := { s.tru with rangeWait := s.tru.rangeWait ++ [copyShadow s rangeRegs] } }) ∧
  (∀ (s : State), rdB s R.PRT_RANGE_STATUS_PENDING 0 0 = false → (rangeCause s (rangesIn (rd s)) (rangesIn (rdS s))).1 = 0 →
    ∃ t, Runs .rangeCommit s t ∧
      (∀ e < 64, ∀ f ∈ [R.PRT_RANGE_BASE_VALID, R.PRT_RANGE_BASE_BASE, R.PRT_RANGE_SIZE_GIB, R.PRT_RANGE_SIZE_PARTITION],
        rd t f e 0 = rdS s f e 0) ∧
      (∀ g ∈ changedGib (rangesIn (rd s)) (rangesIn (rdS s)), ∃ o, (g * 2 ^ 30, 2 ^ 30, o) ∈ t.ms.rangeClear) ∧
      (rdB t R.PRT_RANGE_STATUS_PENDING 0 0 = true ↔ changedGib (rangesIn (rd s)) (rangesIn (rdS s)) ≠ []) ∧
      AgreeOutside [.regs, .ms, .ord] s t) ∧
  (∀ (s : State), rdB s R.PRT_RANGE_STATUS_PENDING 0 0 = false → (rangeCause s (rangesIn (rd s)) (rangesIn (rdS s))).1 ≠ 0 →
    (rangeCause s (rangesIn (rd s)) (rangesIn (rdS s))).1 ≠ 6 → rdB s R.PRT_RANGE_STATUS_REJECTED 0 0 = false →
    ∃ t, Runs .rangeCommit s t ∧ rd t R.PRT_RANGE_STATUS_REJECTED 0 0 = 1 ∧
      rd t R.PRT_RANGE_STATUS_CAUSE 0 0 = (rangeCause s (rangesIn (rd s)) (rangesIn (rdS s))).1 % 8 ∧
      RegsOutside [R.PRT_RANGE_STATUS_PENDING.at 0 0] s t ∧ AgreeOutside [.regs] s t) ∧
  (∀ (s : State), rdB s R.PRT_RANGE_STATUS_PENDING 0 0 = true →
    (∀ r ∈ s.ms.rangeClear, ∀ n, placeOf s r.1 = .cxl n → portUp s n = true) →
    ∃ t, Runs .rangeClearDone s t ∧ (∀ r ∈ s.ms.rangeClear, ∀ k, r.1 ≤ k → k < r.1 + r.2.1 → memByte t.mem k = 0) ∧
      (∀ k, (∀ r ∈ s.ms.rangeClear, ¬ (r.1 ≤ k ∧ k < r.1 + r.2.1)) → memByte t.mem k = memByte s.mem k) ∧
      (s.tru.rangeWait = [] → rdB t R.PRT_RANGE_STATUS_PENDING 0 0 = false ∧ t.ms.rangeClear = []) ∧
      AgreeOutside [.mem, .regs, .out, .ms, .ord, .sch, .hst, .tru] s t) ∧
  (∀ (s : State), rdS s R.PRT_ISO_ENABLE 0 0 = 1 → isoCause s ≠ 0 →
    Runs .isoCommit s (refuse s R.PRT_ISO_STATUS_REJECTED R.PRT_ISO_STATUS_CAUSE 0 (isoCause s))) ∧
  (∀ (s : State), (rdS s R.PRT_ISO_ENABLE 0 0 = 0 ∨ isoCause s = 0) →
    ∃ t, Runs .isoCommit s t ∧ rd t R.PRT_ISO_ENABLE 0 0 = rdS s R.PRT_ISO_ENABLE 0 0 ∧
      (rdB t R.PRT_ISO_STATUS_PENDING 0 0 = true ↔ rdS s R.PRT_ISO_ENABLE 0 0 ≠ rd s R.PRT_ISO_STATUS_ACTIVE 0 0) ∧
      RegsOutside [R.PRT_ISO_ENABLE.at 0 0, R.PRT_ISO_STATUS_ACTIVE.at 0 0] s t ∧ AgreeOutside [.regs] s t) ∧
  (∀ (s : State), rdB s R.PRT_ISO_STATUS_PENDING 0 0 = true →
    ∃ t, Runs .isoApplied s t ∧ rd t R.PRT_ISO_STATUS_ACTIVE 0 0 = rd s R.PRT_ISO_ENABLE 0 0 ∧ rdB t R.PRT_ISO_STATUS_PENDING 0 0 = false ∧
      t.pwr.partDuty = [] ∧ AgreeOutside [.regs, .pwr] s t)

/-- An import that passes its checks blocks a target of zeros, decrypts once it is verified, chunk by chunk, and ends with the
plaintext in the target and a sealed entry, or with the code of the check that fails (R285); unsealing frees the entry and
leaves zeros (R286); the rollback counter moves only up, to the running image's number (R283). -/
def Obligations.ImportsAndRollback : Prop :=
  (∀ (p : PartIx) (src dst len units : Nat) (s : State), rd s R.SEC_IMP_STATUS_STATE p 0 = 0 → rdB s R.PRT_CFG_VALID p 0 = true →
    src = rd s R.SEC_IMP_SRC_OFFSET p 0 → dst = rd s R.SEC_IMP_DST_OFFSET p 0 → len = rd s R.SEC_IMP_LEN_BYTES p 0 →
    rdB s R.PRT_CFG_SEALED p 0 = true → units = (bodyBytes (partRead s p src 128).1 + 65535) / 65536 →
    sealRangeBad s p src dst len units = false →
    sealFormatBad (partRead s p src 128).1 (partRead s p (src + 128) (1664 * recipientsOf (partRead s p src 128).1)).1 len = false →
    ∃ t, Runs (.sealImportStart p) s t ∧ rd t R.SEC_IMP_STATUS_STATE p 0 = 1 ∧ importOf t p = some ⟨src, dst, len, units, [], [], 0, []⟩ ∧
      (∀ q ∈ piecesOf (partRanges s p) dst (units * 65536), ∀ k, q.1 ≤ k → k < q.1 + q.2 → memByte t.mem k = 0) ∧
      (∀ k, (∀ q ∈ piecesOf (partRanges s p) dst (units * 65536), ¬ (q.1 ≤ k ∧ k < q.1 + q.2)) → memByte t.mem k = memByte s.mem k) ∧
      RegsOutside [R.SEC_IMP_STATUS_STATE.at p 0] s t ∧ AgreeOutside [.mem, .regs, .tru] s t) ∧
  (∀ (p : PartIx) (s : State), rd s R.SEC_IMP_STATUS_STATE p 0 = 0 → rdB s R.PRT_CFG_VALID p 0 = true → rdB s R.PRT_CFG_SEALED p 0 = false →
    Runs (.sealImportStart p) s (wr s R.SEC_IMP_STATUS_RESULT p 0 2)) ∧
  (∀ (p : PartIx) (i : Import) (code n : Nat) (s : State), importOf s p = some i → rd s R.SEC_IMP_STATUS_STATE p 0 = 1 →
    importKey s p i = .error code →
    ∃ t, Runs (.sealImportDone p n) s t ∧ rd t R.SEC_IMP_STATUS_STATE p 0 = 3 ∧ rd t R.SEC_IMP_STATUS_RESULT p 0 = code % 16 ∧
      RegsOutside [R.SEC_IMP_STATUS_STATE.at p 0] s t ∧ AgreeOutside [.regs] s t) ∧
  (∀ (p : PartIx) (i : Import) (key h : List Byte) (n : Nat) (s : State), importOf s p = some i →
    rd s R.SEC_IMP_STATUS_STATE p 0 = 1 → importKey s p i = .ok (key, h) →
    ∃ t, Runs (.sealImportDone p n) s t ∧ rd t R.SEC_IMP_STATUS_STATE p 0 = 2 ∧ importOf t p = some { i with key := key, hash := h } ∧
      RegsOutside [R.SEC_IMP_STATUS_STATE.at p 0] s t ∧ AgreeOutside [.regs, .tru] s t) ∧
  (∀ (p : PartIx) (i : Import) (n : Nat) (s : State), importOf s p = some i → rd s R.SEC_IMP_STATUS_STATE p 0 = 2 →
    nextChunks s p i n = none →
    ∃ t, Runs (.sealImportDone p n) s t ∧ rd t R.SEC_IMP_STATUS_STATE p 0 = 3 ∧ rd t R.SEC_IMP_STATUS_RESULT p 0 = 10 ∧
      RegsOutside [R.SEC_IMP_STATUS_STATE.at p 0] s t ∧ AgreeOutside [.regs] s t) ∧
  (∀ (p : PartIx) (i : Import) (n : Nat) (plain : List Byte) (s : State), importOf s p = some i →
    rd s R.SEC_IMP_STATUS_STATE p 0 = 2 → nextChunks s p i n = some plain →
    i.opened + n < chunkCount (bodyBytes (partRead s p i.src i.len).1) →
    ∃ t, Runs (.sealImportDone p n) s t ∧ rd t R.SEC_IMP_STATUS_STATE p 0 = 2 ∧
      importOf t p = some { i with opened := i.opened + n, plain := i.plain ++ plain } ∧
      RegsOutside [R.SEC_IMP_STATUS_STATE.at p 0] s t ∧ AgreeOutside [.regs, .tru] s t) ∧
  (∀ (p : PartIx) (i : Import) (n : Nat) (plain : List Byte) (s : State), importOf s p = some i →
    rd s R.SEC_IMP_STATUS_STATE p 0 = 2 → nextChunks s p i n = some plain →
    chunkCount (bodyBytes (partRead s p i.src i.len).1) ≤ i.opened + n → (partRead s p i.src i.len).2 = true →
    ∃ t, Runs (.sealImportDone p n) s t ∧ rd t R.SEC_IMP_STATUS_STATE p 0 = 3 ∧ rd t R.SEC_IMP_STATUS_RESULT p 0 = 11 ∧
      RegsOutside [R.SEC_IMP_STATUS_STATE.at p 0] s t ∧ AgreeOutside [.regs, .tru] s t) ∧
  (∀ (p : PartIx) (i : Import) (plain : List Byte) (n e b g : Nat) (s : State), importOf s p = some i →
    rd s R.SEC_IMP_STATUS_STATE p 0 = 2 → nextChunks s p i n = some plain →
    chunkCount (bodyBytes (partRead s p i.src i.len).1) ≤ i.opened + n → (partRead s p i.src i.len).2 = false →
    e < 16 → (∀ j < e, rdB s R.SEC_SEAL_BASE_VALID p j = true) → rdB s R.SEC_SEAL_BASE_VALID p e = false →
    partRanges s p = [(b, g)] → i.plain ++ plain ≠ [] → (i.plain ++ plain).length ≤ i.units * 65536 →
    i.dst + i.units * 65536 ≤ g * 2 ^ 30 →
    ∃ t, Runs (.sealImportDone p n) s t ∧
      memRead t.mem (b * 2 ^ 30 + i.dst) (i.plain ++ plain).length = i.plain ++ plain ∧
      MemOutside (b * 2 ^ 30 + i.dst) (i.plain ++ plain).length s t ∧ rdB t R.SEC_SEAL_BASE_VALID p e = true ∧
      rd t R.SEC_SEAL_BASE_BASE p e = i.dst / 65536 % 2 ^ 32 ∧ rd t R.SEC_SEAL_SIZE_UNITS p e = i.units % 2 ^ 32 ∧
      SMap.look (fun _ => []) t.tru.hashes (p.val * 16 + e) = i.hash ∧ rd t R.SEC_IMP_STATUS_STATE p 0 = 0 ∧
      rd t R.SEC_IMP_STATUS_RESULT p 0 = 1 ∧ rd t R.SEC_IMP_STATUS_ENTRY p 0 = e ∧ importOf t p = none ∧
      AgreeOutside [.mem, .regs, .tru] s t) ∧
  (∀ (p : PartIx) (s : State), rd s R.SEC_IMP_STATUS_STATE p 0 = 3 →
    ∃ t, Runs (.sealClearDone p) s t ∧ rd t R.SEC_IMP_STATUS_STATE p 0 = 0 ∧ importOf t p = none ∧
      (∀ i, importOf s p = some i → ∀ q ∈ piecesOf (partRanges s p) i.dst (i.units * 65536), ∀ k, q.1 ≤ k → k < q.1 + q.2 →
        memByte t.mem k = 0) ∧
      RegsOutside [R.SEC_IMP_STATUS_STATE.at p 0] s t ∧ AgreeOutside [.mem, .regs, .tru] s t) ∧
  (∀ (p : PartIx) (e : Fin 16) (s : State), rdB s R.SEC_SEAL_BASE_VALID p e = true →
    ∃ t, Runs (.sealUnseal p e) s t ∧ rdB t R.SEC_SEAL_BASE_VALID p e = false ∧
      (∀ q ∈ piecesOf (partRanges s p) (rd s R.SEC_SEAL_BASE_BASE p e * 65536) (rd s R.SEC_SEAL_SIZE_UNITS p e * 65536),
        ∀ k, q.1 ≤ k → k < q.1 + q.2 → memByte t.mem k = 0) ∧
      (∀ k, (∀ q ∈ piecesOf (partRanges s p) (rd s R.SEC_SEAL_BASE_BASE p e * 65536) (rd s R.SEC_SEAL_SIZE_UNITS p e * 65536),
        ¬ (q.1 ≤ k ∧ k < q.1 + q.2)) → memByte t.mem k = memByte s.mem k) ∧
      RegsOutside [R.SEC_SEAL_BASE_VALID.at p e, R.SEC_SEAL_SIZE_UNITS.at p e, R.SEC_SEAL_ID_CONTENT_ID.at p e] s t ∧
      AgreeOutside [.mem, .regs, .tru] s t) ∧
  (∀ (s : State), rdB s R.SEC_STATUS_ADVANCE_BUSY 0 0 = false → rd s R.SEC_SVN_COUNTER 0 0 < rd s R.SEC_SVN_RUNNING 0 0 →
    ∃ t, Runs .rollbackAdvance s t ∧ t.boot = { s.boot with advancing := some (rd s R.SEC_SVN_RUNNING 0 0) } ∧
      rdB t R.SEC_STATUS_ADVANCE_BUSY 0 0 = true ∧ RegsOutside [R.SEC_STATUS_IDENTITY.at 0 0] s t ∧ AgreeOutside [.regs, .boot] s t) ∧
  (∀ (s : State), rd s R.SEC_SVN_RUNNING 0 0 ≤ rd s R.SEC_SVN_COUNTER 0 0 → Runs .rollbackAdvance s s) ∧
  (∀ (n : Nat) (s : State), s.boot.advancing = some n →
    ∃ t, Runs (.rollbackAdvanceDone true) s t ∧ t.flash = { s.flash with rollback := n } ∧ rd t R.SEC_SVN_COUNTER 0 0 = n % 2 ^ 32 ∧
      rdB t R.SEC_STATUS_ADVANCE_BUSY 0 0 = false ∧ t.boot.advancing = none ∧ AgreeOutside [.regs, .flash, .boot] s t) ∧
  (∀ (n : Nat) (s : State), s.boot.advancing = some n →
    ∃ t, Runs (.rollbackAdvanceDone false) s t ∧ rd t R.SEC_SVN_COUNTER 0 0 = rd s R.SEC_SVN_COUNTER 0 0 ∧
      rdB t R.SEC_STATUS_ADVANCE_FAILED 0 0 = true ∧ t.boot.advancing = none ∧ AgreeOutside [.regs, .boot] s t)

/-- Each request is answered, the signed ones once their signature is made, in order, and those that need the attestation key
with an error before it is certified; a session needs its key exchange and a proof that verifies, which is a free value (R282,
R287, R288, log entry 57). -/
def Obligations.SpdmResponses : Prop :=
  (∀ (fn : FnIx) (s : State), ∃ t, Runs (.getVersion fn) s t ∧ t.out = s.out ++ [.response fn "VERSION" [1, 3]] ∧
    spdmOf t fn = ⟨true, false, false, (spdmOf s fn).session⟩ ∧ AgreeOutside [.out, .tru] s t) ∧
  (∀ (fn : FnIx) (s : State), ∃ t, Runs (.getCapabilities fn) s t ∧ t.out = s.out ++ [.response fn "CAPABILITIES" spdmCodes] ∧
    spdmOf t fn = { spdmOf s fn with caps := true } ∧ AgreeOutside [.out, .tru] s t) ∧
  (∀ (fn : FnIx) (s : State), ∃ t, Runs (.negotiateAlgorithms fn) s t ∧ t.out = s.out ++ [.response fn "ALGORITHMS" [Config.slhDsaId, Config.mlKemId, Config.shakeId]] ∧
    spdmOf t fn = { spdmOf s fn with algs := true } ∧ AgreeOutside [.out, .tru] s t) ∧
  (∀ (fn : FnIx) (s : State), akReady s = true →
    ∃ t, Runs (.getDigests fn) s t ∧ t.out = s.out ++ [.response fn "DIGESTS" (bytesVals (Config.shake256 64 (slot0 s)))] ∧
      AgreeOutside [.out] s t) ∧
  (∀ (fn : FnIx) (off len : Nat) (s : State), akReady s = true →
    ∃ t, Runs (.getCertificate fn 0 off len) s t ∧
      t.out = s.out ++ [.response fn "CERTIFICATE" (bytesVals (((slot0 s).drop off).take len))] ∧ AgreeOutside [.out] s t) ∧
  (∀ (fn : FnIx) (nonce : List Byte) (s : State), akReady s = true →
    ∃ t, Runs (.challenge fn nonce) s t ∧ t.tru.signing = s.tru.signing ++ [⟨fn, "CHALLENGE_AUTH", nonce, []⟩] ∧ AgreeOutside [.tru] s t) ∧
  (∀ (fn : FnIx) (index : Nat) (nonce : List Byte) (s : State), akReady s = true → (index = 255 ∨ index ∈ measureIxs s fn) →
    ∃ t r, Runs (.getMeasurements fn index nonce) s t ∧ t.tru.signing = s.tru.signing ++ [r] ∧ r.fn = fn.val ∧ r.name = "MEASUREMENTS" ∧
      r.values.head? = some (if index = 255 then 1 else index) ∧ AgreeOutside [.tru] s t) ∧
  (∀ (fn : FnIx) (x : List Byte) (s : State), akReady s = true →
    ∃ t, Runs (.keyExchange fn x) s t ∧ t.tru.signing = s.tru.signing ++ [⟨fn, "KEY_EXCHANGE_RSP", x, []⟩] ∧ (spdmOf t fn).session = 1 ∧
      AgreeOutside [.tru] s t) ∧
  (∀ (fn : FnIx) (slot off len index : Nat) (x : List Byte) (s : State), akReady s = false →
    Runs (.getDigests fn) s { s with out := s.out ++ [.response fn "ERROR" []] } ∧
    Runs (.getCertificate fn slot off len) s { s with out := s.out ++ [.response fn "ERROR" []] } ∧
    Runs (.challenge fn x) s { s with out := s.out ++ [.response fn "ERROR" []] } ∧
    Runs (.getMeasurements fn index x) s { s with out := s.out ++ [.response fn "ERROR" []] } ∧
    Runs (.keyExchange fn x) s { s with out := s.out ++ [.response fn "ERROR" []] }) ∧
  (∀ (fn : FnIx) (v : List Byte) (s : State), (spdmOf s fn).session = 1 →
    ∃ t, Runs (.finish fn v) s t ∧ t.free = s.free + 1 ∧
      (getBits (Config.freeWord s.free) 0 1 = 1 → (spdmOf t fn).session = 2 ∧ t.out = s.out ++ [.response fn "FINISH_RSP" [v.length]]) ∧
      (getBits (Config.freeWord s.free) 0 1 ≠ 1 → (spdmOf t fn).session = 1 ∧ t.out = s.out ++ [.response fn "ERROR" []]) ∧
      AgreeOutside [.free, .out, .tru] s t) ∧
  (∀ (fn : FnIx) (v : List Byte) (s : State), (spdmOf s fn).session ≠ 1 →
    Runs (.finish fn v) s { s with out := s.out ++ [.response fn "ERROR" []] }) ∧
  (∀ (fn : FnIx) (s : State), (spdmOf s fn).session ≠ 0 →
    ∃ t, Runs (.endSession fn) s t ∧ (spdmOf t fn).session = 0 ∧ t.out = s.out ++ [.response fn "END_SESSION_ACK" []] ∧
      (∀ g, g ≠ fn.val → spdmOf t g = spdmOf s g) ∧ AgreeOutside [.out, .tru] s t) ∧
  (∀ (r : SigReq) (rest : List SigReq) (s : State), s.tru.signing = r :: rest →
    ∃ t, Runs .spdmSignatureDone s t ∧ t.tru = { s.tru with signing := rest } ∧
      t.out = s.out ++ [.response r.fn r.name (r.values ++ bytesVals (Config.sign (s.tru.measured.take 5) r.message))] ∧ AgreeOutside [.out, .tru] s t)

/-- A device interface answers for a partition that exists, is locked from CONFIG_UNLOCKED with HOST_ACCESS 0, started from
CONFIG_LOCKED on a Secure stream, and stopped by a reset of its partition (R289, R329); a stream whose integrity fails is
Insecure and its interface in RUN goes to ERROR, and one that is activated is Secure (R328); an access of the debug unit marks
the partition, and one to memory or a scratchpad reads or writes it, one to the jobs halts or resumes them (R290, R291). -/
def Obligations.InterfacesAndDebug : Prop :=
  (∀ (p : PartIx) (s : State), rdB s R.PRT_CFG_VALID p 0 = true →
    Runs (.getTdispVersion p) s { s with out := s.out ++ [.response (p + 1) "TDISP_VERSION" [1, 0]] } ∧
    Runs (.getTdispCapabilities p) s { s with out := s.out ++ [.response (p + 1) "TDISP_CAPABILITIES" []] } ∧
    Runs (.getDeviceInterfaceState p) s { s with out := s.out ++ [.response (p + 1) "DEVICE_INTERFACE_STATE" [rd s R.PRT_STATUS_TDI_STATE p 0]] } ∧
    ∃ l, Runs (.getDeviceInterfaceReport p) s { s with out := s.out ++ [.response (p + 1) "DEVICE_INTERFACE_REPORT" l] }) ∧
  (∀ (p : PartIx) (s : State), rdB s R.PRT_CFG_VALID p 0 = false →
    Runs (.lockInterfaceRequest p) s { s with out := s.out ++ [.response (p + 1) "TDISP_ERROR" []] } ∧
    Runs (.getDeviceInterfaceState p) s { s with out := s.out ++ [.response (p + 1) "TDISP_ERROR" []] }) ∧
  (∀ (p : PartIx) (s : State), rdB s R.PRT_CFG_VALID p 0 = true → rd s R.PRT_STATUS_TDI_STATE p 0 = 0 →
    rdB s R.PRT_CFG_HOST_ACCESS p 0 = false →
    ∃ t, Runs (.lockInterfaceRequest p) s t ∧ rd t R.PRT_STATUS_TDI_STATE p 0 = 1 ∧
      t.out = s.out ++ [.response (p + 1) "LOCK_INTERFACE_RESPONSE" []] ∧ RegsOutside [R.PRT_STATUS_STATE.at p 0] s t ∧
      AgreeOutside [.regs, .out] s t) ∧
  (∀ (p : PartIx) (s : State), rdB s R.PRT_CFG_VALID p 0 = true → rd s R.PRT_STATUS_TDI_STATE p 0 = 1 → (p.val + 2) ∈ s.hst.ide →
    (p.val + 2) ∉ s.hst.insecure →
    ∃ t, Runs (.startInterfaceRequest p) s t ∧ rd t R.PRT_STATUS_TDI_STATE p 0 = 2 ∧
      t.out = s.out ++ [.response (p + 1) "START_INTERFACE_RESPONSE" []] ∧ RegsOutside [R.PRT_STATUS_STATE.at p 0] s t ∧
      AgreeOutside [.regs, .out] s t) ∧
  (∀ (p : PartIx) (s : State), rdB s R.PRT_CFG_VALID p 0 = true → (computeBusy s = true ∨ rd s R.PRT_STATUS_STATE p 0 = 1) →
    ∃ t, Runs (.stopInterfaceRequest p) s t ∧ p.val ∈ t.tru.stopping ∧ rd t R.PRT_STATUS_STATE p 0 = 2 ∧
      AgreeOutside [.spd, .regs, .shadow, .out, .cores, .harps, .ord, .sch, .hst, .lnk, .kv, .tru] s t) ∧
  (∀ (x : Fin 18) (s : State), x.val ∈ s.hst.ide →
    ∃ t, Runs (.ideIntegrityFailure x) s t ∧ x.val ∈ t.hst.insecure ∧ t.hst.ide = s.hst.ide ∧
      (x.val = 0 → rd t R.PEX_LINK_LINK_IDE 0 0 = 0) ∧
      (2 ≤ x.val → rd s R.PRT_STATUS_TDI_STATE (x.val - 2) 0 = 2 → rd t R.PRT_STATUS_TDI_STATE (x.val - 2) 0 = 3 ∧ t.free = s.free + 1) ∧
      AgreeOutside [.regs, .free, .out, .sch, .hst] s t) ∧
  (∀ (x : Fin 18) (s : State), (spdmOf s (if x.val < 2 then 0 else x.val - 1)).session = 2 →
    ∃ t, Runs (.ideKmRequest x true) s t ∧ x.val ∈ t.hst.ide ∧ x.val ∉ t.hst.insecure ∧ (x.val = 0 → rd t R.PEX_LINK_LINK_IDE 0 0 = 1) ∧
      t.out = s.out ++ [.response (if x.val < 2 then 0 else x.val - 1) "K_GOSTOP_ACK" [x.val]] ∧ AgreeOutside [.regs, .out, .hst] s t) ∧
  (∀ (p : PartIx) (req : Fin 3) (a : Nat) (c : CoreIx) (data : List Byte) (s : State), debugReaches s req = true →
    rdB s R.PRT_CFG_VALID p 0 = true → dieSleeps s = false → coreOwner s c = some p.val → coreUsable s c = true → coreOn s c = true →
    (coreAt s c).clearing = false → s.spd.err = [] → a + data.length ≤ spdBytes →
    (∃ t before, Runs (.debugAccess p 3 req a c data) s t ∧ rd t R.PRT_STATUS_DEBUG_TOUCHED p 0 = 1 ∧
      t.out = before ++ [.readData 0 (spdRead s.spd c a data.length) (spdPoison s.spd c a data.length)] ∧ t.spd = s.spd ∧
      AgreeOutside [.regs, .free, .out, .sch, .hst, .tru] s t) ∧
    (∃ t, Runs (.debugAccess p 4 req a c data) s t ∧ rd t R.PRT_STATUS_DEBUG_TOUCHED p 0 = 1 ∧ spdRead t.spd c a data.length = data ∧
      (∀ b < 2 ^ 32, (b < a ∨ a + data.length ≤ b) → spdByte t.spd c b = spdByte s.spd c b) ∧
      AgreeOutside [.spd, .regs, .free, .out, .sch, .hst, .tru] s t)) ∧
  (∀ (p : PartIx) (req : Fin 3) (a : Nat) (c : CoreIx) (data : List Byte) (s : State), debugReaches s req = true →
    rdB s R.PRT_CFG_VALID p 0 = true → dieSleeps s = false →
    (∃ t, Runs (.debugAccess p 7 req a c data) s t ∧ p.val ∈ t.tru.halted ∧ rd t R.PRT_STATUS_DEBUG_TOUCHED p 0 = 1) ∧
    (∃ t, Runs (.debugAccess p 8 req a c data) s t ∧ p.val ∉ t.tru.halted ∧ rd t R.PRT_STATUS_DEBUG_TOUCHED p 0 = 1) ∧
    ((partPieces s p a data.length).any (fun pc => memWaits s pc.2.1 pc.2.2) = false →
      (∃ t o mark, Runs (.debugAccess p 1 req a c data) s t ∧ t.out.getLast? = some (.readData 0 o mark) ∧
        rd t R.PRT_STATUS_DEBUG_TOUCHED p 0 = 1) ∧
      (∃ t, Runs (.debugAccess p 2 req a c data) s t ∧ rd t R.PRT_STATUS_DEBUG_TOUCHED p 0 = 1)))

/-! ### Links -/

/-- A new frame takes what credits allow, in order, with the next SEQ and the credits owed, and is kept until it is acknowledged
(R295, R296, R298, R299, R300, R310); a frame asked for again is sent again, and after eight tries the link goes DOWN (R299,
R309); a frame is accepted only where its FEC decodes, its tag verifies and it has the SEQ expected, and is otherwise discarded
and asked for again (R299, R310, R311). Faults of R317 are off in the clauses about sending. -/
def Obligations.LinkFrames : Prop :=
  (∀ (l : LinkIx) (go left : List TxMsg) (cr : List Nat) (s : State), 2 ≤ linkState s l → linkState s l ≤ 5 →
    (linkAt s l).replay = none → (linkAt s l).sent.length < 512 → (linkAt s l).heldFrame = none → (linkAt s l).heldMsg = none →
    rd s R.LNK_INJ_CFG_MODE l 0 = 0 → keyExpired s l = false →
    (linkState s l = 4 → rd s R.LNK_KEY_FRAMES l 0 + 1 < 2 ^ rd s R.LNK_CFG_REKEY_LOG2 l 0) →
    pickMsgs (linkAt s l).outq (linkAt s l).credits (100 - (linkAt s l).txPart.length / 16) [] = (go, left, cr) →
    ∃ t fr, Runs (.linkFrameSend l) s t ∧ t.out = s.out ++ [.frame l fr (frameWire fr)] ∧ fr.seq = (linkAt s l).txSeq ∧
      fr.nak = (linkAt s l).nak ∧
      fr.ack = (if (linkAt s l).nak then (linkAt s l).rxSeq else ((linkAt s l).rxSeq + 65535) % 65536) ∧
      [fr.crReq, fr.crRsp, fr.crTile, fr.crCtl] = (List.range 4).map (fun k => (linkAt s l).owed.getD k 0) ∧
      fr.syncMark = (markOf go).isSome ∧ fr.keyPhase = (linkAt s l).txPhase ∧ fr.errs = [] ∧
      (4 ≤ linkState s l → fr.counter = rd s R.LNK_KEY_FRAMES l 0 ∧ rd t R.LNK_KEY_FRAMES l 0 = rd s R.LNK_KEY_FRAMES l 0 + 1 ∧
        fr.key = dirKey (linkAt s l) (if (linkAt s l).txOld then (linkAt s l).oldKeys else (linkAt s l).keys) true) ∧
      (markOf go = none → (packLines (linkAt s l).txPart go).take 1600 <+: fr.lines ∧ fr.lines.length = 64 * fr.linesUsed) ∧
      (linkAt t l).outq = left ∧ (linkAt t l).credits = cr ∧ (linkAt t l).txPart = (packLines (linkAt s l).txPart go).drop 1600 ∧
      (linkAt t l).txSeq = ((linkAt s l).txSeq + 1) % 65536 ∧ (linkAt t l).owed = [0, 0, 0, 0] ∧
      (linkAt t l).sent = (linkAt s l).sent ++
        [⟨(linkAt s l).txSeq, (linkAt s l).txPart, (linkAt s l).txCont, go, (linkAt s l).owed, markOf go, 1⟩] ∧
      rd t R.LNK_TX_MSGS l 0 = (rd s R.LNK_TX_MSGS l 0 + go.length) % 2 ^ 64 ∧ AgreeOutside [.regs, .free, .out, .lnk] s t) ∧
  (∀ (l : LinkIx) (q : Nat) (f : SentFrame) (s : State), 2 ≤ linkState s l → linkState s l ≤ 5 → (linkAt s l).replay = some q →
    (linkAt s l).sent.find? (fun f => decide (f.seq = q)) = some f → f.tries < 8 → keyExpired s l = false →
    rd s R.LNK_INJ_CFG_MODE l 0 = 0 →
    ∃ t fr, Runs (.linkFrameSend l) s t ∧ t.out = s.out ++ [.frame l fr (frameWire fr)] ∧ fr.seq = q ∧
      (f.mark = none → (packLines f.pre f.msgs).take 1600 <+: fr.lines) ∧
      ((linkAt t l).replay = none ∨ (linkAt t l).replay = some ((q + 1) % 65536)) ∧ AgreeOutside [.regs, .free, .out, .lnk] s t) ∧
  (∀ (l : LinkIx) (q : Nat) (f : SentFrame) (s : State), 2 ≤ linkState s l → linkState s l ≤ 5 → (linkAt s l).replay = some q →
    (linkAt s l).sent.find? (fun f => decide (f.seq = q)) = some f → 8 ≤ f.tries →
    ∃ t, Runs (.linkFrameSend l) s t ∧ WentDown l 4 s t) ∧
  (∀ (l : LinkIx) (f : Frame) (s : State), 2 ≤ linkState s l → linkState s l ≤ 5 → fecDecodes f = true →
    (f.keyPhase = (linkAt s l).rxPhase ∨ (linkAt s l).oldKey = true) → tagVerifies (linkAt s l) f = true → f.seq = (linkAt s l).rxSeq →
    f.syncMark = false →
    ∃ t, Runs (.linkFrameReceive l f) s t ∧ (linkAt t l).rxSeq = ((linkAt s l).rxSeq + 1) % 65536 ∧ (linkAt t l).nak = false ∧
      (linkAt t l).inq = (linkAt s l).inq ++ (parseMsgs 101 ((linkAt s l).rxPart ++ f.lines)).1.filter
        (fun m => !msgReserved m && (!s.ras.cut || decide (m.type = 9))) ∧
      (linkAt t l).rxPart = (parseMsgs 101 ((linkAt s l).rxPart ++ f.lines)).2 ∧
      (linkAt t l).sent = (linkAt s l).sent.filter (fun g => !seqLe g.seq (if f.nak then (f.ack + 65535) % 65536 else f.ack)) ∧
      rd t R.LNK_RX_MSGS l 0 = (rd s R.LNK_RX_MSGS l 0 + (parseMsgs 101 ((linkAt s l).rxPart ++ f.lines)).1.length) % 2 ^ 64 ∧
      AgreeOutside [.regs, .ras, .lnk, .pwr] s t) ∧
  (∀ (l : LinkIx) (f : Frame) (s : State), 2 ≤ linkState s l → linkState s l ≤ 5 → fecDecodes f = true →
    (f.keyPhase = (linkAt s l).rxPhase ∨ (linkAt s l).oldKey = true) → tagVerifies (linkAt s l) f = true → f.seq ≠ (linkAt s l).rxSeq →
    ∃ t, Runs (.linkFrameReceive l f) s t ∧ (linkAt t l).nak = true ∧ (linkAt t l).rxSeq = (linkAt s l).rxSeq ∧
      (linkAt t l).inq = (linkAt s l).inq ∧ (linkAt t l).rxPart = (linkAt s l).rxPart ∧
      RegsOutside [R.LNK_ERR_CORRECTED.at l 0] s t ∧ AgreeOutside [.regs, .ras, .lnk] s t) ∧
  (∀ (l : LinkIx) (f : Frame) (s : State), 2 ≤ linkState s l → linkState s l ≤ 5 → fecDecodes f = false →
    (linkAt s l).badAt + us 1000 ≤ s.utime →
    ∃ t, Runs (.linkFrameReceive l f) s t ∧
      linkAt t l = { linkAt s l with nak := true, rxBlank := (linkAt s l).rxBlank + 1, badAt := s.utime, bad := 1 } ∧
      rd t R.LNK_ERR_UNCORRECTED l 0 = min (rd s R.LNK_ERR_UNCORRECTED l 0 + 1) (2 ^ R.LNK_ERR_UNCORRECTED.width - 1) ∧
      RegsOutside [R.LNK_ERR_CORRECTED.at l 0] s t ∧ AgreeOutside [.regs, .ras, .lnk] s t) ∧
  (∀ (l : LinkIx) (f : Frame) (s : State), 2 ≤ linkState s l → linkState s l ≤ 5 → fecDecodes f = true →
    (f.keyPhase = (linkAt s l).rxPhase ∨ (linkAt s l).oldKey = true) → tagVerifies (linkAt s l) f = false →
    (linkAt s l).tagAt + us 1000000 ≤ s.utime →
    ∃ t, Runs (.linkFrameReceive l f) s t ∧
      linkAt t l = { linkAt s l with nak := true, rxBlank := (linkAt s l).rxBlank + 1, tagAt := s.utime, tag := 1 } ∧
      rd t R.LNK_ERR_TAG_FAILS l 0 = min (rd s R.LNK_ERR_TAG_FAILS l 0 + 1) (2 ^ R.LNK_ERR_TAG_FAILS.width - 1) ∧
      AgreeOutside [.regs, .ras, .lnk] s t) ∧
  (∀ (l : LinkIx) (f : Frame) (s : State), 2 ≤ linkState s l → linkState s l ≤ 5 → fecDecodes f = true →
    f.keyPhase ≠ (linkAt s l).rxPhase → (linkAt s l).oldKey = false →
    ∃ t, Runs (.linkFrameReceive l f) s t ∧ linkAt t l = { linkAt s l with nak := true, rxBlank := (linkAt s l).rxBlank + 1 } ∧
      AgreeOutside [.regs, .ras, .lnk] s t) ∧
  (∀ (l : LinkIx) (s : State), 2 ≤ linkState s l → linkState s l ≤ 5 → (linkAt s l).sent ≠ [] → (linkAt s l).ackAt + us 16 ≤ s.utime →
    ∃ t, Runs (.linkAckTimeout l) s t ∧ WentDown l 4 s t) ∧
  (∀ (l : LinkIx) (cause : Nat) (s : State), linkState s l = 4 → 1 ≤ cause → cause ≤ 10 →
    ∃ t, Runs (.linkLoss l cause) s t ∧ WentDown l cause s t ∧ AgreeOutside [.regs, .out, .cores, .harps, .ord, .sch, .ras, .hst, .lnk] s t) ∧
  (∀ (l : LinkIx) (s : State), 1 ≤ linkState s l → linkState s l ≤ 5 → ∃ t, Runs (.linkLossOfSignal l) s t ∧ WentDown l 1 s t) ∧
  (∀ (l : LinkIx) (s : State), linkState s l = 4 → (linkAt s l).rekeying = false → (linkAt s l).oldKey = false →
    ∃ t, Runs (.linkRekeyRequest l) s t ∧ (linkAt t l).rekeying = true ∧ t.free = s.free + 4 ∧
      (linkAt t l).ssOwn = wordsBytes [Config.freeWord s.free, Config.freeWord (s.free + 1), Config.freeWord (s.free + 2),
        Config.freeWord (s.free + 3)] ∧ AgreeOutside [.free, .lnk] s t) ∧
  (∀ (l : LinkIx) (v : W64) (s : State), getBits v 0 3 < 5 →
    ∃ t, Runs (.lnkInjCfgWrite l v) s t ∧
      rd t R.LNK_INJ_CFG_RATE_LOG2 l 0 = (if 1 ≤ getBits v 3 6 ∧ getBits v 3 6 ≤ 40 then getBits v 3 6 else rd s R.LNK_INJ_CFG_RATE_LOG2 l 0) ∧
      rd t R.LNK_INJ_CFG_BYTES l 0 = (if 1 ≤ getBits v 9 4 ∧ getBits v 9 4 ≤ 9 then getBits v 9 4 else rd s R.LNK_INJ_CFG_BYTES l 0) ∧
      rd t R.LNK_INJ_CFG_MODE l 0 = getBits v 0 3 ∧ rd t R.LNK_INJ_CFG_PARTITION l 0 = getBits v 13 4 ∧
      rd t R.LNK_INJ_CFG_SEED l 0 = getBits v 17 15 ∧ rd t R.LNK_INJ_CFG_LIMIT l 0 = getBits v 32 32 ∧ rd t R.LNK_INJ_STATUS_HITS l 0 = 0 ∧
      RegsOutside [R.LNK_INJ_CFG_MODE.at l 0, R.LNK_INJ_STATUS_HITS.at l 0] s t ∧ AgreeOutside [.regs] s t)

/-- A peer's write goes to the place that its window names as one write of that peer, one the window does not allow is refused
(R150, R307); a peer's read is answered with the bytes, sealed ranges as zeros (R286, R307); an atomic acts on its word and is
answered with the old one (R217, R307); answers end what they answer, and a refusal fails its command (R151, R298, R307);
credits and tiles go to the core that they are for (R117, R120, R300). -/
def Obligations.LinkMessages : Prop :=
  (∀ (l : LinkIx) (msg : Msg) (pa n : Nat) (s u : State), takeMsg s l false (fun m => decide (m.type = 1)) = some (msg, u) →
    windowCheck s (linkPeer s l) msg.partition (msgWindow msg) (msgOffset msg) msg.data.length true = none →
    (offsetPieces s (rd s R.LNK_WIN_CFG_PARTITION (msgWindow msg) 0) (msgTarget s msg) msg.data.length).head? = some (pa, n) →
    ∃ t f, Runs (.msgWrite l) s t ∧ f ∈ t.ord.flights ∧ f.src = .peer (linkPeer s l) ∧ f.dst = .mem pa ∧ f.data = msg.data.take n ∧
      f.poison = msg.poison ∧ f.mtag = some (l.val, msg.mtag) ∧
      (n = msg.data.length → f.final = msg.final ∧ f.order = some msg.order) ∧ (linkAt t l).inq = (linkAt u l).inq ∧
      AgreeOutside [.ord, .lnk] s t) ∧
  (∀ (l : LinkIx) (msg : Msg) (st : Nat) (s u : State), takeMsg s l false (fun m => decide (m.type = 1)) = some (msg, u) →
    windowCheck s (linkPeer s l) msg.partition (msgWindow msg) (msgOffset msg) msg.data.length true = some st →
    (linkState s l = 4 ∨ linkState s l = 5) →
    ∃ t x, Runs (.msgWrite l) s t ∧ x ∈ (linkAt t l).outq ∧ x.msg.type = 10 ∧ x.msg.mtag = msg.mtag ∧ x.msg.word1 = BitVec.ofNat 64 st ∧
      (SMap.look (fun _ => none) t.lnk.barred (linkPeer s l)).isSome = true ∧ AgreeOutside [.ord, .lnk] s t) ∧
  (∀ (l : LinkIx) (msg : Msg) (ps : List (Nat × Nat)) (s u : State), takeMsg s l false (fun m => decide (m.type = 2)) = some (msg, u) →
    windowCheck s (linkPeer s l) msg.partition (msgWindow msg) (msgOffset msg) msg.order false = none →
    ps = offsetPieces s (rd s R.LNK_WIN_CFG_PARTITION (msgWindow msg) 0) (msgTarget s msg) msg.order →
    (∀ q ∈ ps, memWaits s q.1 q.2 = false ∧ peerBusy s (linkPeer s l) q.1 q.2 = false) → (linkState s l = 4 ∨ linkState s l = 5) →
    ∃ t x, Runs (.msgRead l) s t ∧ x ∈ (linkAt t l).outq ∧ x.msg.type = 3 ∧ x.msg.mtag = msg.mtag ∧
      x.msg.data = ps.flatMap (fun q => hideSealed s q.1 (memRead s.mem q.1 q.2)) ∧ MemOutside 0 0 s t ∧
      AgreeOutside [.mem, .regs, .out, .cores, .harps, .ms, .sch, .ras, .obs, .hst, .lnk] s t) ∧
  (∀ (l : LinkIx) (msg : Msg) (r : Remote) (s u : State), takeMsg s l false (fun m => decide (m.type = 3)) = some (msg, u) →
    remoteOf s (linkPeer s l) msg.mtag = some r → r.va = none →
    ∃ t, Runs (.msgReadData l) s t ∧ r ∉ t.lnk.remote ∧ (coreAt t r.core).loaded = BitVec.ofNat 64 (leNat (msg.data.take 8)) ∧
      AgreeOutside [.regs, .out, .cores, .harps, .sch, .ras, .hst, .lnk] s t) ∧
  (∀ (l : LinkIx) (msg : Msg) (r : Remote) (va w : Nat) (s u : State), takeMsg s l false (fun m => decide (m.type = 3)) = some (msg, u) →
    remoteOf s (linkPeer s l) msg.mtag = some r → r.va = some va → r.ring = some w →
    accessWaits u (some r.core) (ringPart s w) va r.len false = false →
    ∃ t, Runs (.msgReadData l) s t ∧ r ∉ t.lnk.remote ∧ s.ord.nextId ≤ t.ord.nextId ∧
      (∀ f ∈ t.ord.flights, s.ord.nextId ≤ f.id → f.op = some r.id) ∧ MemOutside 0 0 s t) ∧
  (∀ (l : LinkIx) (msg : Msg) (pa : Nat) (op : AtomicOp) (s u : State), takeMsg s l false (fun m => decide (m.type = 4)) = some (msg, u) →
    windowCheck s (linkPeer s l) msg.partition (msgWindow msg) (msgOffset msg / 8 * 8) 8 true = none →
    partOffset s (rd s R.LNK_WIN_CFG_PARTITION (msgWindow msg) 0) (msgTarget s msg / 8 * 8) = some pa → memWaits s pa 8 = false →
    peerBusy s (linkPeer s l) pa 8 = false → (cohRead s pa 8).2 = false → pa % 8 = 0 → writeLost s pa = false →
    (linkState s l = 4 ∨ linkState s l = 5) →
    op = (match getBits msg.word1 52 3 with | 1 => AtomicOp.addI64 | 2 => .addF64 | 3 => .swap | _ => .cas) →
    ∃ t x, Runs (.msgAtomic l) s t ∧ memWord t.mem pa = atomicResult op (memWord s.mem pa)
        (BitVec.ofNat 64 (leNat ((msg.data.drop 0).take 8))) (BitVec.ofNat 64 (leNat ((msg.data.drop 8).take 8))) ∧ MemOutside pa 8 s t ∧
      x ∈ (linkAt t l).outq ∧ x.msg.type = 5 ∧ x.msg.mtag = msg.mtag ∧ x.msg.data = leBytes 8 (memWord s.mem pa).toNat) ∧
  (∀ (l : LinkIx) (msg : Msg) (r : Remote) (s u : State), takeMsg s l false (fun m => decide (m.type = 5)) = some (msg, u) →
    remoteOf s (linkPeer s l) msg.mtag = some r →
    ∃ t, Runs (.msgAtomicData l) s t ∧ r ∉ t.lnk.remote ∧
      (coreAt t r.core).loaded = BitVec.ofNat 64 (leNat (msg.data.take 8)) ∧
      AgreeOutside [.regs, .out, .cores, .harps, .sch, .ras, .hst, .lnk] s t) ∧
  (∀ (l : LinkIx) (msg : Msg) (s u : State), takeMsg s l false (fun m => decide (m.type = 6)) = some (msg, u) →
    ∃ t, Runs (.msgWriteAck l) s t ∧ t.lnk.links = u.lnk.links ∧
      (∀ r ∈ t.lnk.remote, r.module = linkPeer s l → (r.kind = 1 ∨ r.kind = 7) → r.mtag ≠ msg.mtag) ∧
      (∀ r ∈ s.lnk.remote, (r.module ≠ linkPeer s l ∨ (r.kind ≠ 1 ∧ r.kind ≠ 7)) → r ∈ t.lnk.remote) ∧
      (getBits msg.word1 16 16 = 0 → ∀ r ∈ s.lnk.remote, r.mtag ≠ msg.mtag → r ∈ t.lnk.remote) ∧ AgreeOutside [.lnk] s t) ∧
  (∀ (l : LinkIx) (msg : Msg) (s u : State), takeMsg s l false (fun m => decide (m.type = 7)) = some (msg, u) → msg.final = false →
    ∃ t x, Runs (.msgTile l) s t ∧ x ∈ t.lnk.tiles ∧ x.module = linkPeer s l ∧ x.srcCore = msg.srcCore ∧ x.core = getBits msg.word1 0 9 ∧
      x.slot = getBits msg.word1 9 4 ∧ msg.data <:+ x.bytes ∧ AgreeOutside [.lnk] s t) ∧
  (∀ (l : LinkIx) (msg : Msg) (s u : State), takeMsg s l false (fun m => decide (m.type = 7)) = some (msg, u) → msg.final = true →
    coreUsable s (getBits msg.word1 0 9) = true →
    ∃ t f, Runs (.msgTile l) s t ∧ f ∈ t.ord.flights ∧ f.src = .peerCore (linkPeer s l) msg.srcCore ∧ f.final = true ∧
      f.order = some msg.order ∧ (∃ img, f.dst = .tile (getBits msg.word1 0 9) img) ∧ t.ord.nextId = s.ord.nextId + 2 ∧
      t.ord.flights.length = s.ord.flights.length + 2 ∧ AgreeOutside [.ord, .lnk] s t) ∧
  (∀ (l : LinkIx) (msg : Msg) (s u : State), takeMsg s l true (fun m => decide (m.type = 8)) = some (msg, u) →
    ∃ t, Runs (.msgCredit l) s t ∧ t.ord = { s.ord with credits := s.ord.credits ++
        [⟨getBits msg.word1 0 9, targetKey (linkPeer s l) msg.srcCore (getBits msg.word1 9 4), (msg.data.getD 0 0).toNat,
          (msg.data.getD 1 0).toNat, linkRow l⟩] } ∧ t.lnk.links = u.lnk.links ∧
      ((msg.data.getD 0 0).toNat < 2 → t.lnk.remote = s.lnk.remote) ∧
      (2 ≤ (msg.data.getD 0 0).toNat → ∀ r ∈ t.lnk.remote, ¬ (r.module = linkPeer s l ∧ r.kind = 7 ∧ r.mtag = msg.mtag)) ∧
      AgreeOutside [.ord, .lnk] s t) ∧
  (∀ (l : LinkIx) (msg : Msg) (r : Remote) (w : Nat) (d : Cmd) (s u : State), takeMsg s l false (fun m => decide (m.type = 10)) = some (msg, u) →
    remoteOf s (linkPeer s l) msg.mtag = some r → r.ring = some w → (ringAt s w).cmd = some d → d.phase = .running →
    ∃ t, Runs (.msgRefused l) s t ∧ r ∉ t.lnk.remote ∧
      (ringAt t w).cmd = some { d.cause (getBits msg.word1 0 16 % 64) (if r.kind = 7 then 0 else r.off + r.window * 2 ^ 46) with
        phase := .stopping } ∧
      AgreeOutside [.cores, .harps, .sch, .lnk] s t)

/-- A handshake goes through HELLO, certificates and keys to UP, and a step that does not match takes the link DOWN with its
cause (R304, R308, R310); a rekey changes the key phase (R311); time is exchanged with the master (R312, R313); gang, goodbye,
link, halt and release notices act as they say (R158, R262, R309, R416, R419); commits, retraining, retries and quiescing follow
the states of R308 and R309; the domain and its windows are taken only whole (R12, R318, R319). -/
def Obligations.LinkControl : Prop :=
  (∀ (l : LinkIx) (m : Msg) (s u : State), takeControl s l 1 = some (m, u) → linkState s l = 2 →
    (m.data.getD 4 0).toNat = linkPeer s l → (m.data.getD 6 0).toNat = rd s R.LNK_CFG_PEER_LINK l 0 →
    leNat (m.data.take 4) = rd s R.LNK_DOMAIN_DOMAIN_ID 0 0 → (m.data.getD 5 0).toNat = rd s R.LNK_DOMAIN_MODULES 0 0 →
    (∀ k < 96, linkState s k = 4 → (linkAt u k).peerId = (m.data.drop 8).take 32 → linkPeer s k = linkPeer s l) →
    ∃ t, Runs (.hello l) s t ∧ linkState t l = 3 ∧ (linkAt t l).peerId = (m.data.drop 8).take 32 ∧
      (linkAt t l).outq = (linkAt s l).outq ++ controlChunks 2 [] Config.ownCerts ∧ AgreeOutside [.regs, .lnk] s t) ∧
  (∀ (l : LinkIx) (m : Msg) (s u : State), takeControl s l 1 = some (m, u) → linkState s l = 2 →
    (m.data.getD 4 0).toNat ≠ linkPeer s l → ∃ t, Runs (.hello l) s t ∧ WentDown l 5 s t) ∧
  (∀ (l : LinkIx) (m : Msg) (certs : List Byte) (s u : State), takeControl s l 2 = some (m, u) → linkState s l = 3 → m.order = 0 →
    certs = (linkAt s l).peerCerts ++ m.data → Config.certId certs = (linkAt s l).peerId → Config.chainValid certs = true →
    rdB s R.LNK_DOMAIN_TRUST 0 0 = false →
    ∃ t, Runs (.cert l) s t ∧ linkState t l = 3 ∧ (linkAt t l).peerCerts = certs ∧ (linkAt s l).peerId ∈ t.lnk.verified ∧
      t.free = s.free + 4 ∧ (linkAt s l).outq <+: (linkAt t l).outq ∧ AgreeOutside [.free, .lnk] s t) ∧
  (∀ (l : LinkIx) (m : Msg) (s u : State), takeControl s l 2 = some (m, u) → linkState s l = 3 → m.order = 0 →
    Config.certId ((linkAt s l).peerCerts ++ m.data) ≠ (linkAt s l).peerId → ∃ t, Runs (.cert l) s t ∧ WentDown l 7 s t) ∧
  (∀ (l : LinkIx) (m : Msg) (s u : State), takeControl s l 3 = some (m, u) → linkState s l = 3 → m.order = 0 →
    ∃ t, Runs (.kem l) s t ∧ (linkAt t l).ssPeer = Config.kemDecap ((linkAt s l).peerKem ++ m.data) ∧
      (linkAt t l).outq.length = (linkAt s l).outq.length + 1 ∧ AgreeOutside [.lnk] s t) ∧
  (∀ (l : LinkIx) (m : Msg) (s u : State), takeControl s l 4 = some (m, u) → linkState s l = 3 →
    (m.data.take 32 = confirmation (linkAt u l) (!ownIsLo (linkAt u l)) →
      ∃ t, Runs (.confirm l) s t ∧ linkState t l = 4 ∧ (linkAt t l).wasUp = true ∧ rd t R.LNK_KEY_FRAMES l 0 = 0) ∧
    (m.data.take 32 ≠ confirmation (linkAt u l) (!ownIsLo (linkAt u l)) → ∃ t, Runs (.confirm l) s t ∧ WentDown l 8 s t)) ∧
  (∀ (l : LinkIx) (m : Msg) (s u : State), takeControl s l 5 = some (m, u) → linkState s l = 4 → m.data.getD 0 0 ≠ 0 →
    (m.data.drop 1).take 32 = confirmation (linkAt u l) (!ownIsLo (linkAt u l)) →
    ∃ t, Runs (.rekey l) s t ∧ (linkAt t l).rekeying = false ∧ (linkAt t l).txPhase = !(linkAt s l).txPhase ∧
      rd t R.LNK_KEY_FRAMES l 0 = 0 ∧ rd t R.LNK_KEY_REKEYS l 0 = min (rd s R.LNK_KEY_REKEYS l 0 + 1) 65535 ∧
      AgreeOutside [.regs, .lnk] s t) ∧
  (∀ (l : LinkIx) (m : Msg) (s u : State), takeControl s l 6 = some (m, u) → isFollower s = false →
    ∃ t x, Runs (.syncReq l) s t ∧ (linkAt t l).outq = (linkAt s l).outq ++ [x] ∧ x.msg.type = 9 ∧ Machine.Msg.subtype x.msg = 7 ∧
      x.msg.mtag = m.mtag ∧ AgreeOutside [.lnk] s t) ∧
  (∀ (l : LinkIx) (m : Msg) (t1 : Nat) (s u : State), takeControl s l 7 = some (m, u) → s.lnk.sync = some (m.mtag, t1, l.val) →
    isFollower s = true → (rd s R.LNK_TIME_STATUS_STATE 0 0 = 0 ∨ rd s R.LNK_TIME_STATUS_STATE 0 0 = 3) →
    ∃ t, Runs (.syncResp l) s t ∧ rd t R.LNK_TIME_STATUS_STATE 0 0 = 1 ∧ t.lnk.sync = none ∧ t.lnk.good = 0 ∧
      rd t R.TSC_STATUS_STEPS 0 0 = min (rd s R.TSC_STATUS_STEPS 0 0 + 1) (2 ^ R.TSC_STATUS_STEPS.width - 1)) ∧
  (∀ (l : LinkIx) (m : Msg) (s u : State), takeControl s l 8 = some (m, u) →
    ∃ t, Runs (.gang l) s t ∧ (∀ w ∈ gangRings s (m.data.getD 1 0).toNat (linkPeer s l),
      ((m.data.getD 0 0).toNat = 0 →
        (linkPeer s l, 2 * leNat ((m.data.drop 8).take 8), leNat ((m.data.drop 4).take 4)) ∈ (ringAt t w).gangReady) ∧
      ((m.data.getD 0 0).toNat = 4 →
        (linkPeer s l, 2 * leNat ((m.data.drop 8).take 8) + 1, leNat ((m.data.drop 4).take 4)) ∈ (ringAt t w).gangReady) ∧
      ((m.data.getD 0 0).toNat = 1 → linkPeer s l ∈ (ringAt t w).gangEnded) ∧
      ((m.data.getD 0 0).toNat = 2 → isResident s w = true → (ringAt t w).preempt = true) ∧
      ((m.data.getD 0 0).toNat = 3 → ∀ d, (ringAt s w).cmd = some d → d.phase = .running → ∃ d', (ringAt t w).cmd = some d' ∧ d'.phase = .stopping)) ∧
      AgreeOutside [.regs, .cores, .harps, .sch, .lnk] s t) ∧
  (∀ (l : LinkIx) (m : Msg) (s u : State), takeControl s l 9 = some (m, u) → 1 ≤ linkState s l → linkState s l ≤ 5 →
    ∃ t, Runs (.goodbye l) s t ∧ WentDown l 10 s t) ∧
  (∀ (l : LinkIx) (m : Msg) (s u : State), takeMsg s l true (fun m => decide (m.type = 9) && decide (getBits m.word1 0 8 = 10) &&
      decide (msgNotice m = 0)) = some (m, u) → linkState s l = 4 →
    ∃ t, Runs (.quiesce l) s t ∧ linkState t l = 5 ∧ (linkAt t l).noticeSent = true ∧ (linkAt t l).noticeSeen = true) ∧
  (∀ (l : LinkIx) (m : Msg) (s u : State), takeNotice s l 1 = some (m, u) → rd s R.RAS_HALT_STATUS_STATE 0 0 = 0 →
    cutsAtOnce s (leAt m.data 0 8) = false →
    ∃ t, Runs (.haltNotice l) s t ∧ rd t R.RAS_HALT_STATUS_STATE 0 0 = 1 ∧ rd t R.RAS_HALT_STATUS_CAUSE 0 0 = 2 ∧
      t.ras.cutAt = some (leAt m.data 0 8) ∧ linkPeer s l ∈ t.ras.noticed) ∧
  (∀ (l : LinkIx) (m : Msg) (s u : State), takeNotice s l 2 = some (m, u) → rd s R.RAS_HALT_STATUS_STATE 0 0 = 1 → s.ras.cut = false →
    s.ras.releaseAsked = false →
    ∃ t, Runs (.releaseNotice l) s t ∧ rd t R.RAS_HALT_STATUS_STATE 0 0 = 0 ∧ t.ras.cutAt = none ∧ AgreeOutside [.regs, .ras, .lnk] s t) ∧
  (∀ (l : LinkIx) (s : State), rdS s R.LNK_CFG_PEER_MODULE l 0 < rd s R.LNK_DOMAIN_MODULES 0 0 →
    rdS s R.LNK_CFG_PEER_MODULE l 0 ≠ myModule s → rdS s R.LNK_CFG_ENABLE l 0 = 1 → rdB s R.LNK_STATUS_USABLE l 0 = true →
    (linkState s l = 0 ∨ linkState s l = 6) → 20 ≤ rdS s R.LNK_CFG_REKEY_LOG2 l 0 → rdS s R.LNK_CFG_REKEY_LOG2 l 0 ≤ 47 →
    ∃ t, Runs (.linkCommit l) s t ∧ linkState t l = 1 ∧
      (∀ f ∈ [R.LNK_CFG_ENABLE, R.LNK_CFG_PEER_MODULE, R.LNK_CFG_PEER_LINK, R.LNK_CFG_REKEY_LOG2], rd t f l 0 = rdS s f l 0) ∧
      AgreeOutside [.regs, .lnk] s t) ∧
  (∀ (l : LinkIx) (s : State), (rd s R.LNK_DOMAIN_MODULES 0 0 ≤ rdS s R.LNK_CFG_PEER_MODULE l 0 ∨ rdS s R.LNK_CFG_PEER_MODULE l 0 = myModule s) →
    Runs (.linkCommit l) s (wr s R.LNK_STATUS_REJECTED l 0 1)) ∧
  (∀ (l : LinkIx) (delay : Nat) (s : State), linkState s l = 1 → (linkAt s l).planned = false →
    (∃ t, Runs (.linkTrainingDone l true delay) s t ∧ linkState t l = 2 ∧ (linkAt t l).credits = fullCredits ∧
      (linkAt t l).outq = [controlMsg 1 0 (helloData s l)] ∧ rd t R.LNK_STATUS_DELAY_NS l 0 = min delay 65535 ∧ AgreeOutside [.regs, .lnk] s t) ∧
    (∃ t, Runs (.linkTrainingDone l false delay) s t ∧ WentDown l 2 s t)) ∧
  (∀ (l : LinkIx) (delay : Nat) (s : State), linkState s l = 1 → (linkAt s l).planned = true →
    ∃ t, Runs (.linkTrainingDone l true delay) s t ∧ linkState t l = 4 ∧ (linkAt t l).keys = (linkAt s l).keys) ∧
  (∀ (l : LinkIx) (s : State), linkState s l = 6 → causeRetried (rd s R.LNK_STATUS_DOWN_CAUSE l 0) = true → rdB s R.LNK_CFG_ENABLE l 0 = true →
    (linkAt s l).downAt + rd s R.LNK_TIME_RETRY_MS 0 0 * 1000000 ≤ s.utime →
    ∃ t, Runs (.linkRetry l) s t ∧ linkState t l = 1 ∧ (linkAt t l).downAt = s.utime ∧ AgreeOutside [.regs, .lnk] s t) ∧
  (∀ (l : LinkIx) (s : State), linkState s l = 5 → (linkAt s l).noticeSent = true → (linkAt s l).noticeSeen = true →
    linkDrained (linkAt s l) = true →
    ∃ t, Runs (.linkQuiesceDone l) s t ∧ linkState t l = (if (linkAt s l).disabling then 0 else 1) ∧
      ((linkAt s l).disabling = false → (linkAt t l).planned = true) ∧ AgreeOutside [.regs, .out, .lnk] s t) ∧
  (∀ (m : Fin 32) (s : State), SMap.look (fun _ => false) s.lnk.pausedOn m = true → peerSettled s m = true →
    ∃ t, Runs (.linkRemapResume m) s t ∧ SMap.look (fun _ => false) t.lnk.pausedOn m = false ∧ SMap.look (fun _ => []) t.lnk.paused m = [] ∧
      AgreeOutside [.cores, .harps, .sch, .lnk] s t) ∧
  (∀ (s : State), rdS s R.LNK_DOMAIN_MODULES 0 0 = 0 ∨ 32 < rdS s R.LNK_DOMAIN_MODULES 0 0 → rdB s R.LNK_DOMAIN_STATUS_REJECTED 0 0 = false →
    ∃ t, Runs .domainCommit s t ∧ rd t R.LNK_DOMAIN_STATUS_REJECTED 0 0 = 1 ∧ rd t R.LNK_DOMAIN_STATUS_CAUSE 0 0 = 1 ∧
      RegsOutside [R.LNK_DOMAIN_STATUS_REJECTED.at 0 0] s t ∧ AgreeOutside [.regs] s t) ∧
  (∀ (s : State), 1 ≤ rdS s R.LNK_DOMAIN_MODULES 0 0 → rdS s R.LNK_DOMAIN_MODULES 0 0 ≤ 32 →
    rdS s R.LNK_DOMAIN_MODULE 0 0 < rdS s R.LNK_DOMAIN_MODULES 0 0 → rdS s R.LNK_DOMAIN_TIME_MASTER 0 0 < rdS s R.LNK_DOMAIN_MODULES 0 0 →
    16 ≤ rdS s R.LNK_TIME_SYNC_US 0 0 → rdS s R.LNK_TIME_SYNC_US 0 0 ≤ 1000 → 10 ≤ rdS s R.LNK_TIME_RETRY_MS 0 0 →
    rdS s R.LNK_TIME_RETRY_MS 0 0 ≤ 60000 → (∀ l < 96, linkState s l = 0 ∨ linkState s l = 6) →
    ∃ t, Runs .domainCommit s t ∧ (∀ f ∈ [R.LNK_DOMAIN_DOMAIN_ID, R.LNK_DOMAIN_MODULE, R.LNK_DOMAIN_MODULES, R.LNK_DOMAIN_TIME_MASTER,
        R.LNK_DOMAIN_TRUST, R.LNK_TIME_SYNC_US, R.LNK_TIME_RETRY_MS], rd t f 0 0 = rdS s f 0 0) ∧
      (rdB t R.PRT_ORDER_STATUS_MEM_TRACK 0 0 = true ↔ rdS s R.LNK_DOMAIN_MODULES 0 0 ≤ 8) ∧ AgreeOutside [.regs, .lnk] s t) ∧
  (∀ (s : State), (∀ w < 64, rdS s R.LNK_WIN_CFG_VALID w 0 = 1 → rdB s R.PRT_CFG_VALID (rdS s R.LNK_WIN_CFG_PARTITION w 0) 0 = true ∧
      (rdS s R.LNK_WIN_BASE_BASE w 0 + rdS s R.LNK_WIN_SIZE_SIZE w 0) * 65536 ≤ partSize s (rdS s R.LNK_WIN_CFG_PARTITION w 0)) →
    ∃ t, Runs .windowCommit s t ∧ (∀ w < 64, ∀ f ∈ [R.LNK_WIN_CFG_VALID, R.LNK_WIN_CFG_WRITE, R.LNK_WIN_CFG_PARTITION,
      R.LNK_WIN_CFG_SRC_PARTITION, R.LNK_WIN_SRC_SRC_MODULES, R.LNK_WIN_BASE_BASE, R.LNK_WIN_SIZE_SIZE], rd t f w 0 = rdS s f w 0) ∧
      RegsOutside windowRegs s t ∧ AgreeOutside [.regs] s t) ∧
  (∀ (s : State), (∃ w < 64, rdS s R.LNK_WIN_CFG_VALID w 0 = 1 ∧ rdB s R.PRT_CFG_VALID (rdS s R.LNK_WIN_CFG_PARTITION w 0) 0 = false) →
    ∃ t, Runs .windowCommit s t ∧ rd t R.LNK_WIN_STATUS_REJECTED 0 0 = 1 ∧ RegsOutside [R.LNK_WIN_STATUS_REJECTED.at 0 0] s t ∧
      AgreeOutside [.regs] s t) ∧
  (∀ (l : Nat) (s : State), (upLinks s (rd s R.LNK_DOMAIN_TIME_MASTER 0 0)).head? = some l → isFollower s = true →
    s.lnk.syncAt + us (rd s R.LNK_TIME_SYNC_US 0 0) ≤ s.utime →
    ∃ t x, Runs .syncExchangeTimer s t ∧ (linkAt t l).outq = (linkAt s l).outq ++ [x] ∧ Machine.Msg.subtype x.msg = 6 ∧ x.msg.mtag = s.lnk.syncId ∧
      t.lnk.sync = some (s.lnk.syncId, 0, l) ∧ t.lnk.syncAt = s.utime ∧ AgreeOutside [.lnk] s t) ∧
  (∀ (s : State), isFollower s = true → rd s R.LNK_TIME_STATUS_STATE 0 0 = 3 → s.lnk.holdAt + us 10000000 ≤ s.utime →
    ∃ t, Runs .syncHoldoverTimeout s t ∧ rd t R.LNK_TIME_STATUS_STATE 0 0 = 0 ∧ RegsOutside [R.LNK_TIME_STATUS_STATE.at 0 0] s t ∧
      AgreeOutside [.regs] s t)

/-! ### Host link and mailbox -/

/-- PERST# is a module reset, hot reset and a reset of the physical function return configuration space to its defaults with a
compute reset, and one of a virtual function is its partition's reset (R274, R327, R384, R385, R447); the link trains at a rate
and width (R321); a read of host memory that returns data ends where it was for, and one that fails ends its command failed
(R212, R247, R326). -/
def Obligations.HostLink : Prop :=
  (∀ (s : State), s.phy.perst = false → ∃ t, Runs .perstAssert s t ∧ ModuleIsReset s t ∧ t.phy.perst = true) ∧
  (∀ (s : State), s.phy.perst = true → Runs .perstAssert s s) ∧
  (∀ (s : State), Runs .perstRelease s { s with phy := { s.phy with perst := false } }) ∧
  (∀ (s : State), ∃ t, Runs .hotReset s t ∧ t.hst.linkUp = false ∧ t.hst.bme = [] ∧ t.hst.ide = [] ∧ t.hst.vfEnable = false ∧
    (operational s = true → computeBusy s = false →
      rdB t R.BOOT_RESET_STATUS_BUSY 0 0 = true ∧ rd t R.BOOT_RESET_STATUS_LAST_SCOPE 0 0 = 1) ∧
    (operational s = false → RegsOutside [R.PEX_LINK_LINK_IDE.at 0 0] s t ∧ AgreeOutside [.regs, .hst] s t)) ∧
  (∀ (s : State), ∃ t, Runs .flrPf s t ∧ t.hst.linkUp = s.hst.linkUp ∧ t.hst.bme = [] ∧ t.hst.vfEnable = false ∧ t.hst.timeoutMs = 50 ∧
    (operational s = true → computeBusy s = false →
      rdB t R.BOOT_RESET_STATUS_BUSY 0 0 = true ∧ rd t R.BOOT_RESET_STATUS_LAST_SCOPE 0 0 = 1) ∧
    (operational s = false → AgreeOutside [.hst] s t)) ∧
  (∀ (p : PartIx) (s : State), s.hst.vfEnable = true →
    ∃ t, Runs (.flrVf p) s t ∧ SMap.look (fun _ => false) t.hst.bme (p + 1) = false ∧
      (rd s R.PRT_STATUS_STATE p 0 = 1 → computeBusy s = false → rd t R.PRT_STATUS_STATE p 0 = 2) ∧
      (rd s R.PRT_STATUS_STATE p 0 ≠ 1 → AgreeOutside [.hst] s t)) ∧
  (∀ (rate width : Nat) (s : State), s.phy.perst = false → s.phy.shut = 0 → 1 ≤ rate → rate ≤ 7 → width ∈ [1, 2, 4, 8, 16] →
    ∃ t, Runs (.pcieLinkUp rate width) s t ∧ t.hst.linkUp = true ∧ rd t R.PEX_LINK_RATE 0 0 = rate ∧ rd t R.PEX_LINK_WIDTH 0 0 = width ∧
      (rdB t R.PEX_LINK_FLIT 0 0 = true ↔ 6 ≤ rate) ∧ AgreeOutside [.regs, .out, .cores, .harps, .sch, .ras, .hst, .pwr] s t) ∧
  (∀ (n : Nat) (r : HostRead) (bs : List Byte) (s : State), hostReadAt s n = some r → r.kind = 0 →
    ∃ t, Runs (.hostLinkReadCompletion n (.data bs)) s t ∧ (coreAt t r.core).loaded = BitVec.ofNat 64 (leNat (bs.take 8)) ∧
      (∀ x ∈ t.ord.reads, x.id ≠ n) ∧ CoresOutside [r.core] s t ∧ AgreeOutside [.cores, .ord] s t) ∧
  (∀ (n a : Nat) (c : CoreIx) (r : HostRead) (bs : List Byte) (s : State), hostReadAt s n = some r → r.kind = 1 → r.peer = none →
    r.core = c.val → r.dst = some (.spd c.val a) → r.va = none → bs.length = r.len → a + r.len ≤ spdBytes → SpdQuiet c s →
    ∃ t, Runs (.hostLinkReadCompletion n (.data bs)) s t ∧ spdRead t.spd c a r.len = bs ∧ (∀ x ∈ t.ord.reads, x.id ≠ n) ∧
      (∀ b < 2 ^ 32, (b < a ∨ a + r.len ≤ b) → spdByte t.spd c b = spdByte s.spd c b) ∧ AgreeOutside [.spd, .regs, .cores, .ord, .lnk] s t) ∧
  (∀ (n w : Nat) (r : HostRead) (d : Cmd) (s : State), hostReadAt s n = some r → r.kind ≠ 2 → r.ring = some w → (ringAt s w).cmd = some d →
    d.phase = .running →
    (moveWaits s r = false → ∀ reply ∈ [HostReply.unsupported, .abort], ∃ t, Runs (.hostLinkReadCompletion n reply) s t ∧
      (ringAt t w).cmd = some { d.cause 0x21 0 with phase := .stopping } ∧ (∀ x ∈ t.ord.reads, x.id ≠ n) ∧
      AgreeOutside [.cores, .harps, .ord, .sch] s t) ∧
    (r.since + us (s.hst.timeoutMs * 1000) ≤ s.utime → ∃ t, Runs (.completionTimeout n) s t ∧
      (ringAt t w).cmd = some { d.cause 0x21 0 with phase := .stopping } ∧ (∀ x ∈ t.ord.reads, x.id ≠ n) ∧
      AgreeOutside [.cores, .harps, .ord, .sch] s t)) ∧
  (∀ (n : Nat) (r : HostRead) (s : State), hostReadAt s n = some r → r.kind = 2 → r.since + us (s.hst.timeoutMs * 1000) ≤ s.utime →
    ∃ t, Runs (.completionTimeout n) s t ∧ r.core ∈ t.hst.readFailed ∧ (∀ x ∈ t.ord.reads, x.id ≠ n) ∧
      AgreeOutside [.regs, .out, .ord, .sch, .hst] s t)

/-- The mailbox has one owner, who claims it while it is free and releases it or lets 10 s pass (R335); a GO of another
requester answers NOT_OWNER; reports, image writes and verification run as an operation and end with their result (R335, R368,
R390); RESTART and the vendor messages reset (R384); sensors answer with what the module measures (R334), the input current with
a free value (log entry 77). -/
def Obligations.MailboxAndSideband : Prop :=
  (∀ (s : State), sidebandUp s = true → mbxOwner s = 0 →
    (∃ t, Runs .mbxClaim s t ∧ mbxOwner t = 1 ∧ t.mgm.opAt = s.utime ∧ RegsOutside [R.PEX_MBX_STATUS_OWNER.at 0 0] s t ∧
      AgreeOutside [.regs, .mgm] s t) ∧
    (∃ t, Runs .pldmRequestUpdate s t ∧ mbxOwner t = 2 ∧ t.mgm.opAt = s.utime ∧ AgreeOutside [.regs, .mgm] s t) ∧
    (∃ t, Runs .vendorDefinedClaim s t ∧ mbxOwner t = 2 ∧ t.mgm.opAt = s.utime ∧ AgreeOutside [.regs, .mgm] s t)) ∧
  (∀ (s : State), mbxOwner s ≠ 0 → Runs .mbxClaim s s ∧ Runs .pldmRequestUpdate s s ∧ Runs .vendorDefinedClaim s s) ∧
  (∀ (who : MbxWho) (s : State), sidebandUp s = true → mbxOwner s = mbxCode who →
    ∃ t, Runs (.mbxRelease who) s t ∧ mbxOwner t = 0 ∧ RegsOutside [R.PEX_MBX_STATUS_OWNER.at 0 0] s t ∧ AgreeOutside [.regs] s t) ∧
  (∀ (s : State), mbxOwner s ≠ 0 → mbxBusy s = false → s.mgm.opAt + 10000000000 ≤ s.utime →
    ∃ t, Runs .mbxOwnerTimeout s t ∧ mbxOwner t = 0 ∧ RegsOutside [R.PEX_MBX_STATUS_OWNER.at 0 0] s t ∧ AgreeOutside [.regs] s t) ∧
  (∀ (who : MbxWho) (s : State), sidebandUp s = true → mbxBusy s = false → mbxOwner s ≠ mbxCode who →
    ∀ c ∈ [Instr.getReport who, .imageBegin who, .imageWrite who, .imageVerify who, .restart who],
      Runs c s (wr s R.PEX_MBX_STATUS_RESULT 0 0 2)) ∧
  (∀ (who : MbxWho) (a : W64) (s : State), sidebandUp s = true → mbxBusy s = false → mbxOwner s = mbxCode who →
    a = reg s (R.PEX_MBX_ARG_OFFSET.at 0 0) →
    (∃ t, Runs (.getReport who) s t ∧ mbxBusy t = true ∧ t.mgm = { s.mgm with op := 1, arg := a, opAt := s.utime } ∧
      RegsOutside [R.PEX_MBX_STATUS_OWNER.at 0 0] s t ∧ AgreeOutside [.regs, .mgm] s t) ∧
    (4096 ≤ argLength a → argLength a ≤ 67108864 → argLength a % 4096 = 0 →
      ∃ t, Runs (.imageBegin who) s t ∧ mbxBusy t = true ∧ t.mgm = { s.mgm with op := 2, arg := a, opAt := s.utime } ∧
        (stageRuns s 1 = false → t.flash.valid = false ∧ rdB t R.PEX_MBX_STATUS_IMAGE_VALID 0 0 = false) ∧
        AgreeOutside [.regs, .flash, .mgm] s t) ∧
    (s.mgm.size ≠ 0 → argLength a ≤ 65536 → argLength a % 8 = 0 → argOffset a + argLength a ≤ s.mgm.size →
      ∃ t, Runs (.imageWrite who) s t ∧ mbxBusy t = true ∧ t.mgm = { s.mgm with op := 3, arg := a, opAt := s.utime } ∧
        AgreeOutside [.regs, .mgm] s t) ∧
    (s.mgm.size ≠ 0 → ∃ t, Runs (.imageVerify who) s t ∧ mbxBusy t = true ∧
      t.mgm = { s.mgm with op := 4, arg := a, opAt := s.utime } ∧ AgreeOutside [.regs, .mgm] s t) ∧
    (s.mgm.size = 0 → ∃ t, Runs (.imageVerify who) s t ∧ mbxBusy t = false ∧ rd t R.PEX_MBX_STATUS_RESULT 0 0 = 5) ∧
    (∃ t, Runs (.restart who) s t ∧ ModuleIsReset s t)) ∧
  (∀ (ok : Bool) (s : State), mbxBusy s = true → s.mgm.op = 1 →
    ∃ t, Runs (.mbxOpDone ok) s t ∧ mbxBusy t = false ∧ rd t R.PEX_MBX_STATUS_RESULT 0 0 = 1 ∧ rd t R.PEX_MBX_ARG_LENGTH 0 0 = 320 ∧
      (∀ k < 40, ∀ i < 8, SMap.look (fun _ => 0) t.mgm.buffer (8 * k + i) =
        (leBytes 8 (reg s (R.BOOT_REPORT_STATE.at 0 0 + 8 * k)).toNat).getD i 0) ∧ AgreeOutside [.regs, .mgm] s t) ∧
  (∀ (s : State), mbxBusy s = true → s.mgm.op = 2 → stageRuns s 1 = false →
    ∃ t, Runs (.mbxOpDone true) s t ∧ mbxBusy t = false ∧ rd t R.PEX_MBX_STATUS_RESULT 0 0 = 1 ∧ t.mgm.size = argLength s.mgm.arg ∧
      t.mgm.written = 0 ∧ t.flash.image = [] ∧ t.flash.valid = false ∧ t.free = s.free + 1 ∧ AgreeOutside [.regs, .free, .flash, .mgm] s t) ∧
  (∀ (s : State), mbxBusy s = true → s.mgm.op = 3 → stageRuns s 1 = false →
    ∃ t, Runs (.mbxOpDone true) s t ∧ mbxBusy t = false ∧ rd t R.PEX_MBX_STATUS_RESULT 0 0 = 1 ∧
      (∀ i < argLength s.mgm.arg, SMap.look (fun _ => t.flash.fill) t.flash.image (argOffset s.mgm.arg + i) =
        SMap.look (fun _ => 0) s.mgm.buffer i) ∧
      t.mgm.written = s.mgm.written + argLength s.mgm.arg ∧ AgreeOutside [.regs, .flash, .mgm] s t) ∧
  (∀ (s : State), mbxBusy s = true → s.mgm.op = 4 → stageRuns s 1 = false →
    (imageCheck s.flash = none → ∃ t, Runs (.mbxOpDone true) s t ∧ t.flash = { s.flash with valid := true, marked := false } ∧
      rd t R.PEX_MBX_STATUS_RESULT 0 0 = 1 ∧ rdB t R.PEX_MBX_STATUS_IMAGE_VALID 0 0 = true) ∧
    (imageCheck s.flash ≠ none → ∃ t, Runs (.mbxOpDone true) s t ∧ t.flash = { s.flash with valid := false } ∧
      rdB t R.PEX_MBX_STATUS_IMAGE_VALID 0 0 = false)) ∧
  (∀ (s : State), sidebandUp s = true → ∃ t, Runs (.vendorResetMessage true) s t ∧ ModuleIsReset s t) ∧
  (∀ (s : State), sidebandUp s = true → operational s = true → computeBusy s = false →
    ∃ t, Runs (.vendorResetMessage false) s t ∧ rdB t R.BOOT_RESET_STATUS_BUSY 0 0 = true) ∧
  (∀ (s : State), sidebandUp s = true →
    Runs (.pldmSensorRead .inputPower) s { s with out := s.out ++ [.management "INPUT_POWER" [s.pwr.inputLast]] } ∧
    Runs (.pldmSensorRead .inputVoltage) s { s with out := s.out ++ [.management "INPUT_VOLTAGE" [rd s R.PWR_STATUS_INPUT_DV 0 0]] } ∧
    Runs (.pldmSensorRead .inputCurrent) s { s with
      out := s.out ++ [.management "INPUT_CURRENT" [(Config.freeWord s.free).toNat]], free := s.free + 1 } ∧
    Runs (.pldmSensorRead .dieTemp) s { s with out := s.out ++ [.management "DIE_TEMPERATURE" [rd s R.PWR_THERM_DIE_C 0 0]] } ∧
    Runs (.pldmSensorRead .powerLimit) s { s with out := s.out ++ [.management "POWER_LIMIT" [limitW s]] } ∧
    ∀ k : StackIx, rdB s R.MEM_STACK_STATUS_FITTED k 0 = true →
      Runs (.pldmSensorRead (.stackTemp k)) s { s with out := s.out ++ [.management "STACK_TEMPERATURE" [k.val, rd s R.MEM_STACK_STATUS_TEMP k 0]] })

/-! ### Power, clocks and limiters -/

/-- An input voltage outside its range, a failed regulator and a thermal trip shut the regulators down and lose power, and
inside it the limits follow the band (R338, R362, R393; what keeps the regulators shut is log entry 54); a core goes from
running to gated, asleep and off and back (R342), the die to deep sleep and back (R343, R344; the clock's return is log entry
53), a harp is gated (R359), and the clock moves by 100 MHz towards the lowest of its caps (R346, R347). -/
def Obligations.PowerStates : Prop :=
  (∀ (cv : Nat) (s : State),
    (cv < 3000 → ∃ t, Runs (.inputVoltageChange cv) s t ∧
      ModuleIsReset { s with phy := { s.phy with tripped := false, shut := 1 } } t) ∧
    (4200 < cv → ∃ t, Runs (.inputVoltageChange cv) s t ∧
      ModuleIsReset { s with phy := { s.phy with shut := max 1 s.phy.shut } } t) ∧
    (3000 ≤ cv → cv ≤ 4200 → s.phy.shut = 2 → Runs (.inputVoltageChange cv) s s) ∧
    (3000 ≤ cv → cv ≤ 4200 → s.phy.shut < 2 → ∃ t, Runs (.inputVoltageChange cv) s t ∧ t.phy.shut = 0 ∧
      rd t R.PWR_STATUS_INPUT_DV 0 0 = cv / 10 ∧ t.pwr.inputBand = (if cv < 3200 then 1 else if 4000 < cv then 2 else 0) ∧
      (cv < 3200 → limitW t ≤ 1600) ∧ (3200 ≤ cv → t.pwr.inputHeld = s.pwr.inputHeld) ∧ (t.pwr.inputOkAt = none ↔ cv < 3250) ∧
      AgreeOutside [.regs, .out, .sch, .hst, .pwr, .phy] s t)) ∧
  (∀ (rail : Fin 12) (code : W64) (s : State), ∃ t w, Runs (.regulatorFault rail code) s t ∧
    ModuleIsReset { s with phy := { s.phy with shut := 2 }, flash := t.flash } t ∧ t.flash.events.getLast? = some w ∧
    t.flash = { s.flash with events := t.flash.events } ∧
    getBits (w.getD 1 0) 0 16 = 0x210 ∧ w.getD 5 0 = BitVec.ofNat 64 rail ∧ w.getD 6 0 = code) ∧
  (∀ (stack : Bool) (tempC : Nat) (s : State),
    (tempC < 115 → Runs (.thermalTrip stack tempC) s s) ∧
    (115 ≤ tempC → ∃ t w, Runs (.thermalTrip stack tempC) s t ∧
      ModuleIsReset { s with phy := { s.phy with shut := 2, tripped := true }, flash := t.flash } t ∧
      s.out ++ [.pin "THERM_TRIP#" false] <+: t.out ∧ t.flash = { s.flash with events := t.flash.events } ∧
      t.flash.events.getLast? = some w ∧ getBits (w.getD 1 0) 0 16 = 0x20F ∧ w.getD 5 0 = BitVec.ofNat 64 tempC)) ∧
  (∀ (c : CoreIx) (s : State), (coreAt s c).power = .running → coreQuiet s c = true →
    ∃ t, Runs (.coreGate c) s t ∧ (coreAt t c).power = .gated ∧ (coreAt t c).idleSince = s.utime ∧ CoresOutside [c.val] s t ∧
      RegsOutside [0x200100 + c / 32 * 8] s t ∧ AgreeOutside [.regs, .cores] s t) ∧
  (∀ (c : CoreIx) (s : State), (coreAt s c).power = .gated → coreQuiet s c = true → jobOn s c = true →
    rd s R.PWR_LIMIT_CORE_SLEEP_US 0 0 ≠ 0 → (coreAt s c).idleSince + us (rd s R.PWR_LIMIT_CORE_SLEEP_US 0 0) ≤ s.utime →
    ∃ t, Runs (.coreSleep c) s t ∧ coreAt t c = { coreAt s c with power := .sleep } ∧ pwrDomain t c = 3 ∧ CoresOutside [c.val] s t ∧
      RegsOutside [0x200100 + c / 32 * 8] s t ∧ AgreeOutside [.regs, .cores] s t) ∧
  (∀ (c : CoreIx) (s : State), (coreAt s c).power ∈ [.gated, .sleep] → coreQuiet s c = true → (jobOn s c = false ∨ coreUsable s c = false) →
    ∃ t, Runs (.coreOff c) s t ∧ (coreAt t c).power = .off ∧ pwrDomain t c = 0 ∧ (∀ a < 2 ^ 32, spdByte t.spd c a = 0) ∧
      (∀ c' a, c' ≠ c.val → a < 2 ^ 32 → spdByte t.spd c' a = spdByte s.spd c' a) ∧ CoresOutside [c.val] s t ∧
      AgreeOutside [.spd, .regs, .shadow, .cores, .harps] s t) ∧
  (∀ (c : CoreIx) (s : State), (coreAt s c).power = .waking → dieSleeps s = false → coreUsable s c = true →
    ∃ t, Runs (.coreWakeDone c) s t ∧ (coreAt t c).power = .running ∧ pwrDomain t c = 2 ∧ (∀ h : HarpIx, (harpAt t c h).gated = true) ∧
      CoresOutside [c.val] s t ∧ RegsOutside [0x200100 + c / 32 * 8] s t ∧ AgreeOutside [.regs, .cores, .harps] s t) ∧
  (∀ (s : State), rd s R.PWR_STATUS_DIE_STATE 0 0 = 1 → rd s R.PWR_LIMIT_DEEP_IDLE_MS 0 0 ≠ 0 →
    s.pwr.idleAt + rd s R.PWR_LIMIT_DEEP_IDLE_MS 0 0 * 1000000 ≤ s.utime → noCommands s = true → s.kv.ops = [] → maintBusy s = false → mayEmpty s = true →
    (∀ c : CoreIx, coreQuiet s c = true) →
    ∃ t, Runs .deepSleepEntry s t ∧ rd t R.PWR_STATUS_DIE_STATE 0 0 = 2 ∧ rdB t R.CLK_STATUS_LOCKED 0 0 = false ∧
      rd t R.CLK_STATUS_ARITH_MHZ 0 0 = 0 ∧ t.ms.lines = [] ∧ (∀ c : CoreIx, (coreAt t c).power ∈ [.off, .sleep]) ∧
      AgreeOutside [.mem, .spd, .regs, .shadow, .out, .cores, .harps, .ms, .sch, .ras, .hst] s t) ∧
  (∀ (cause : WakeCause) (s : State),
    (rd s R.PWR_STATUS_DIE_STATE 0 0 = 2 → ∃ t, Runs (.deepSleepWake cause) s t ∧ rd t R.PWR_STATUS_DIE_STATE 0 0 = 3 ∧
      t.pwr.idleAt = s.utime ∧ AgreeOutside [.regs, .pwr] s t) ∧
    (rd s R.PWR_STATUS_DIE_STATE 0 0 ≠ 2 → Runs (.deepSleepWake cause) s s)) ∧
  (∀ (failing : List (Nat × Nat)) (s : State), rd s R.PWR_STATUS_DIE_STATE 0 0 = 3 →
    ∃ t, Runs (.deepSleepWakeDone failing) s t ∧ rd t R.PWR_STATUS_DIE_STATE 0 0 = 1 ∧ rdB t R.CLK_STATUS_LOCKED 0 0 = true ∧
      rd t R.CLK_STATUS_ARITH_MHZ 0 0 = rd s R.CLK_STATUS_TARGET_MHZ 0 0 ∧ AgreeOutside [.regs, .ms, .pwr] s t) ∧
  (∀ (s : State), rdB s R.CLK_STATUS_LOCKED 0 0 = true →
    ∃ t, Runs .clockStepDone s t ∧
      (rd s R.CLK_STATUS_ARITH_MHZ 0 0 < rd s R.CLK_STATUS_TARGET_MHZ 0 0 →
        rd t R.CLK_STATUS_ARITH_MHZ 0 0 = (rd s R.CLK_STATUS_ARITH_MHZ 0 0 + 100) % 4096 ∧ rd t R.CLK_STATUS_TARGET_MHZ 0 0 = lowestCap s) ∧
      (rd s R.CLK_STATUS_TARGET_MHZ 0 0 < rd s R.CLK_STATUS_ARITH_MHZ 0 0 →
        rd t R.CLK_STATUS_ARITH_MHZ 0 0 = rd s R.CLK_STATUS_ARITH_MHZ 0 0 - 100 ∧ rd t R.CLK_STATUS_TARGET_MHZ 0 0 = lowestCap s) ∧
      (rd s R.CLK_STATUS_TARGET_MHZ 0 0 = rd s R.CLK_STATUS_ARITH_MHZ 0 0 → t = s) ∧
      RegsOutside [R.CLK_STATUS_ARITH_MHZ.at 0 0] s t ∧ AgreeOutside [.regs] s t) ∧
  (∀ (c : CoreIx) (h : HarpIx) (s : State), coreOn s c = true → (harpAt s c h).gated = false →
    ∃ t, Runs (.harpGate c h) s t ∧ harpAt t c h = { harpAt s c h with gated := true, asking := false } ∧
      HarpsOutside [hk c h] s t ∧ AgreeOutside [.harps] s t)

/-- Telemetry, the estimator's fit and its comparison with the measurement, a region's calibration fault and lost telemetry
(R350 to R353), the region, module and thermal limiters with their steps (R277, R354 to R357, R362), hints and pre-charge
(R358), admission of harps (R360, R361), and the commits of power and clock settings (R364). How OFFSET is shared by a region's
cores and the forecast of the module limiter are log entry 130, the cooling time is log entry 52. -/
def Obligations.Limiters : Prop :=
  (∀ (rails activity : List Nat) (w : Nat) (s : State), ∃ t, Runs (.telemetrySample rails w activity) s t ∧ t.pwr.inputLast = w ∧
    (∀ k : RailIx, ∀ a, rails[k.val]? = some a → regionAt t k =
      { regionAt s k with
        sum := (regionAt s k).sum + a, estSum := (regionAt s k).estSum + estMa (regionAt s k) (activity.getD k 0) 36,
        count := (regionAt s k).count + 1, sampleAt := s.utime,
        pairs := (if 10000 ≤ (regionAt s k).pairs.length then (regionAt s k).pairs.drop 1 else (regionAt s k).pairs) ++
          [(activity.getD k 0, a)] }) ∧
    (∀ k : RailIx, rails[k.val]? = none → regionAt t k = regionAt s k) ∧ AgreeOutside [.pwr] s t) ∧
  (∀ (k : RailIx) (g o d : Int) (s : State), leastSquares (regionAt s k).pairs = (g, o, d) →
    (railCalibrating s k = true → rd s R.RAS_HALT_STATUS_STATE 0 0 = 0 →
      Runs (.estimatorFit k) s (addSat s R.RAS_MAINT_DEFERRALS 7 0 1)) ∧
    (railCalibrating s k = false → fitGood (regionAt s k).pairs g o d = false → Runs (.estimatorFit k) s s) ∧
    (railCalibrating s k = false → fitGood (regionAt s k).pairs g o d = true →
      (rdB s R.PWR_REGION_STAT_TELEMETRY_LOST k 0 = false ∨ s.utime < (regionAt s k).sampleAt + us 100) →
      ∃ t, Runs (.estimatorFit k) s t ∧ rdB t R.PWR_REGION_STAT_CALIB_FAULT k 0 = false ∧
        rdB t R.PWR_REGION_STAT_TELEMETRY_LOST k 0 = false ∧
        regionAt t k = { regionAt s k with badSince := none, gain := g, offset := o, fitDen := d.toNat } ∧ estFactor t k = (1, 1) ∧
        (∀ j : RailIx, j ≠ k → regionAt t j = regionAt s j) ∧ AgreeOutside [.regs, .out, .sch, .hst, .pwr] s t)) ∧
  (∀ (k : RailIx) (s : State),
    ((regionAt s k).count = 0 → Runs (.calibCompare k) s s) ∧
    ((regionAt s k).count ≠ 0 → ∃ t m e, Runs (.calibCompare k) s t ∧ m = (regionAt s k).sum / (regionAt s k).count ∧
      e = (regionAt s k).estSum / (regionAt s k).count ∧ rd t R.PWR_REGION_STAT_MEAS_A k 0 = min 1023 (m / 1000) ∧
      rd t R.PWR_REGION_STAT_EST_A k 0 = min 1023 (e / 1000) ∧ (regionAt t k).meas = m ∧ (regionAt t k).est = e ∧
      (regionAt t k).sum = 0 ∧ (regionAt t k).estSum = 0 ∧ (regionAt t k).count = 0 ∧
      (100 * (max e m - min e m) ≤ 15 * m → (regionAt t k).badSince = none) ∧
      (15 * m < 100 * (max e m - min e m) → ∀ b, (regionAt s k).badSince = some b → b + us 50000 < s.utime →
        rdB t R.PWR_REGION_STAT_CALIB_FAULT k 0 = true) ∧
      (15 * m < 100 * (max e m - min e m) → (regionAt s k).badSince = none → (regionAt t k).badSince = some s.utime) ∧
      AgreeOutside [.regs, .out, .sch, .hst, .pwr] s t)) ∧
  (∀ (k : RailIx) (s : State), rdB s R.PWR_REGION_STAT_TELEMETRY_LOST k 0 = false → (regionAt s k).sampleAt + us 100 ≤ s.utime →
    ∃ t, Runs (.telemetryLossTimeout k) s t ∧ rdB t R.PWR_REGION_STAT_TELEMETRY_LOST k 0 = true ∧
      rdB t R.PWR_REGION_STAT_CALIB_FAULT k 0 = true ∧ estFactor t k = (5, 4) ∧ AgreeOutside [.regs, .out, .sch, .hst] s t) ∧
  (∀ (k : RailIx) (a1 a10 a100 n d duty : Nat) (parts : List (Nat × Nat × Nat × Nat)) (used : Nat → Nat) (lim : Fld → Nat) (s : State),
    (n, d) = estFactor s k → (∀ x, used x = estMa (regionAt s k) x 36 * n) → (∀ f, lim f = rd s f k 0 * 1000 * d) →
    duty = rd s R.PWR_REGION_STAT_DUTY k 0 → isoActive s = false → s.pwr.atFloor = false →
    ∃ t, Runs (.currentWindowEval k a1 a10 a100 parts) s t ∧ RegsOutside [R.PWR_REGION_STAT_DUTY.at k 0] s t ∧ AgreeOutside [.regs] s t ∧
      rd t R.PWR_REGION_STAT_DUTY k 0 =
        (if lim R.PWR_REGION_LIM_LIM_1US < used a1 ∨ lim R.PWR_REGION_LIM_LIM_10US < used a10 ∨ lim R.PWR_REGION_LIM_LIM_100US < used a100 then
          max 1 (duty - 1)
        else if 100 * used a1 < 95 * lim R.PWR_REGION_LIM_LIM_1US ∧ 100 * used a10 < 95 * lim R.PWR_REGION_LIM_LIM_10US ∧
          100 * used a100 < 95 * lim R.PWR_REGION_LIM_LIM_100US then min 16 (duty + 1)
        else duty)) ∧
  (∀ (k : RailIx) (a1 a10 a100 : Nat) (parts : List (Nat × Nat × Nat × Nat)) (s : State), isoActive s = true →
    ∃ t, Runs (.currentWindowEval k a1 a10 a100 parts) s t ∧ RegsOutside [R.PWR_REGION_STAT_DUTY.at k 0] s t ∧
      rd s R.PWR_REGION_STAT_DUTY k 0 ≤ rd t R.PWR_REGION_STAT_DUTY k 0 ∧
      (∀ (p : PartIx) (e : Nat × Nat × Nat × Nat), rdB s R.PRT_CFG_VALID p 0 = true → coresIn s p k ≠ 0 →
        parts.find? (fun e => decide (e.1 = p.val)) = some e →
        partDutyOf t (shareKey p k) = windowDuty s k (coresIn s p k) e.2 (partDutyOf s (shareKey p k))) ∧
      (∀ p : PartIx, rdB s R.PRT_CFG_VALID p 0 = false → partDutyOf t (shareKey p k) = partDutyOf s (shareKey p k)) ∧
      AgreeOutside [.regs, .pwr] s t) ∧
  (∀ (avgW : Nat) (parts : List (Nat × List Nat × Nat × Nat × Nat)) (s : State), isoActive s = false →
    ∃ t, Runs (.moduleLimiterTick avgW parts) s t ∧ rd t R.PWR_STATUS_INPUT_W 0 0 = min avgW 4095 ∧
      (limitW t < avgW → t.pwr.below = 0 ∧
        (900 < powerCap s → t.pwr.capPower = powerCap s - 100 ∧
          rd t R.PWR_STATUS_LIMIT_STEPS 0 0 = min (rd s R.PWR_STATUS_LIMIT_STEPS 0 0 + 1) 65535) ∧
        (powerCap s ≤ 900 → t.pwr.capPower = s.pwr.capPower ∧ t.pwr.atFloor = true ∧
          ∀ k : RailIx, rd t R.PWR_REGION_STAT_DUTY k 0 = max 1 (rd s R.PWR_REGION_STAT_DUTY k 0 - 1))) ∧
      (avgW ≤ limitW t → ∀ k : RailIx, heavyIn s k = true → s.pwr.clamp = false → limitW t * 1000000 < forecastUw s avgW →
        t.pwr.below = 0 ∧ t.pwr.capPower = (if 900 < powerCap s then powerCap s - 100 else s.pwr.capPower) ∧
        ∀ j : RailIx, rd t R.PWR_REGION_STAT_DUTY j 0 = rd s R.PWR_REGION_STAT_DUTY j 0) ∧
      (avgW ≤ limitW t → (∀ k : RailIx, heavyIn s k = false) ∨ s.pwr.clamp = true ∨ forecastUw s avgW ≤ limitW t * 1000000 →
        t.pwr.atFloor = false ∧
        (95 * limitW t ≤ 100 * avgW → t.pwr.below = 0 ∧ t.pwr.capPower = s.pwr.capPower) ∧
        (100 * avgW < 95 * limitW t → s.pwr.below < 9 → t.pwr.below = s.pwr.below + 1 ∧ t.pwr.capPower = s.pwr.capPower) ∧
        (100 * avgW < 95 * limitW t → 9 ≤ s.pwr.below → t.pwr.below = 0 ∧ t.pwr.capPower = min 1800 (s.pwr.capPower + 100))) ∧
      AgreeOutside [.regs, .pwr] s t) ∧
  (∀ (avgW : Nat) (parts : List (Nat × List Nat × Nat × Nat × Nat)) (s : State), isoActive s = true →
    ∃ t, Runs (.moduleLimiterTick avgW parts) s t ∧ rd t R.PWR_STATUS_INPUT_W 0 0 = min avgW 4095 ∧
      (limitW t < avgW → rdB t R.PWR_STATUS_ISO_BREACH 0 0 = true ∧ t.pwr.below = 0) ∧
      (∀ (p : PartIx) (xs : List Nat) (near cxl link : Nat), rdB s R.PRT_CFG_VALID p 0 = true →
        parts.find? (fun e => decide (e.1 = p.val)) = some (p.val, xs, near, cxl, link) →
        rd t R.PRT_POWER_ATTRIB_W p 0 = min 65535 (attribNw s p xs near cxl link / 1000000000) ∧
        (rdB t R.PRT_POWER_AT_LIMIT p 0 = true ↔ rd s R.PRT_CFG_POWER_W p 0 * 1000000000 < attribNw s p xs near cxl link)) ∧
      AgreeOutside [.regs, .out, .sch, .hst, .pwr] s t) ∧
  (∀ (k : RailIx) (s : State), ∃ t, Runs (.hintLapse k) s t ∧
    t.pwr.hints = s.pwr.hints.filter (fun h => decide (s.utime < h.till)) ∧
    regionAt t k = (if heavyIn s k then regionAt s k else { regionAt s k with pre := false }) ∧
    (∀ j : RailIx, j ≠ k → regionAt t j = regionAt s j) ∧ AgreeOutside [.pwr] s t) ∧
  (∀ (k : RailIx) (s : State), heavyIn s k = true → s.pwr.clamp = false →
    ∃ t, Runs (.prechargeInForce k) s t ∧ regionAt t k = { regionAt s k with pre := true } ∧ preInForce t k = true ∧
      (∀ j : RailIx, j ≠ k → regionAt t j = regionAt s j) ∧ AgreeOutside [.pwr] s t) ∧
  (∀ (k : RailIx) (a : Nat) (s : State), a = (regionAt s k).stagger.getD (admitCount s k) →
    ∃ t, Runs (.admissionSlot k) s t ∧
      (∀ e ∈ (askingHarps s k).take a, (harpAt t e.1 e.2).gated = false ∧ (harpAt t e.1 e.2).asking = false) ∧
      (∀ (c : CoreIx) (h : HarpIx), (c.val, h.val) ∉ (askingHarps s k).take a → harpAt t c h = harpAt s c h) ∧
      ((regionAt t k).stagger = none ↔ (askingHarps s k).length ≤ a ∨ askingHarps s k = []) ∧
      AgreeOutside [.harps, .pwr] s t) ∧
  (∀ (dieC stackC : Nat) (stackCs : List Nat) (s : State),
    stackC = (List.range 12).foldl (fun m k => if rdB s R.MEM_STACK_STATUS_FITTED k 0 then max m (stackCs.getD k 0) else m) 0 →
    ∃ t, Runs (.thermalLimiterTick dieC stackCs) s t ∧ rd t R.PWR_THERM_DIE_C 0 0 = min dieC 255 ∧
    rd t R.PWR_THERM_STACK_C 0 0 = min stackC 255 ∧ rd t R.PWR_THERM_STATE 0 0 = thermState t ∧
    (t.pwr.clamp = true ↔ s.pwr.clamp = true ∧ 100 ≤ dieC) ∧ (t.pwr.stackHot = true ↔ 95 < stackC) ∧
    (∀ k : StackIx, rdB s R.MEM_STACK_STATUS_FITTED k 0 = true → rd t R.MEM_STACK_STATUS_TEMP k 0 = min (stackCs.getD k 0) 255 ∧
      (rdB t R.MEM_STACK_STATUS_REFRESH_2X k 0 = true ↔ 85 < stackCs.getD k 0)) ∧
    (rd s R.PWR_LIMIT_THERM_LIMIT_C 0 0 < dieC → 900 ≤ s.pwr.capTherm →
      t.pwr.capTherm = max 900 (s.pwr.capTherm - 100) ∧ t.pwr.coolSince = none) ∧
    (dieC ≤ rd s R.PWR_LIMIT_THERM_LIMIT_C 0 0 → rd s R.PWR_LIMIT_THERM_LIMIT_C 0 0 < dieC + 3 →
      t.pwr.capTherm = s.pwr.capTherm ∧ t.pwr.coolSince = none) ∧
    (dieC + 3 ≤ rd s R.PWR_LIMIT_THERM_LIMIT_C 0 0 → s.pwr.coolSince = none →
      t.pwr.capTherm = s.pwr.capTherm ∧ t.pwr.coolSince = some s.utime) ∧
    (dieC + 3 ≤ rd s R.PWR_LIMIT_THERM_LIMIT_C 0 0 → s.pwr.clamp = false → ∀ b, s.pwr.coolSince = some b → b + 1000000000 ≤ s.utime →
      t.pwr.capTherm = min 1800 (s.pwr.capTherm + 100) ∧ t.pwr.coolSince = some s.utime) ∧
    AgreeOutside [.regs, .out, .sch, .hst, .pwr] s t) ∧
  (∀ (dieC stackC : Nat) (s : State),
    (dieC < 105 ∨ s.pwr.clamp = true → Runs (.thermalClamp dieC stackC) s s) ∧
    (105 ≤ dieC → s.pwr.clamp = false → ∃ t, Runs (.thermalClamp dieC stackC) s t ∧ t.pwr.clamp = true ∧
      t.pwr.capTherm = min 900 s.pwr.capTherm ∧ rd t R.PWR_THERM_STATE 0 0 = 2 ∧ (∀ k : RailIx, preInForce t k = false) ∧
      AgreeOutside [.regs, .out, .sch, .hst, .pwr] s t)) ∧
  (∀ (s : State),
    (pwrSetOk s = false → Runs .pwrCommit s (wr s R.PWR_STATUS_REJECTED 0 0 1)) ∧
    (pwrSetOk s = true → ∃ t, Runs .pwrCommit s t ∧ rd t R.PWR_LIMIT_LIMIT_W 0 0 = rdS s R.PWR_LIMIT_LIMIT_W 0 0 ∧
      rd t R.PWR_LIMIT_THERM_LIMIT_C 0 0 = rdS s R.PWR_LIMIT_THERM_LIMIT_C 0 0 ∧
      rd t R.PWR_LIMIT_DEEP_IDLE_MS 0 0 = rdS s R.PWR_LIMIT_DEEP_IDLE_MS 0 0 ∧
      rd t R.PWR_LIMIT_CORE_SLEEP_US 0 0 = rdS s R.PWR_LIMIT_CORE_SLEEP_US 0 0 ∧
      (∀ k : RailIx, rd t R.PWR_REGION_LIM_LIM_1US k 0 = rdS s R.PWR_REGION_LIM_LIM_1US k 0 ∧
        rd t R.PWR_REGION_LIM_LIM_10US k 0 = rdS s R.PWR_REGION_LIM_LIM_10US k 0 ∧
        rd t R.PWR_REGION_LIM_LIM_100US k 0 = rdS s R.PWR_REGION_LIM_LIM_100US k 0 ∧
        rd t R.PWR_REGION_LIM_PRECHARGE_MV k 0 = rdS s R.PWR_REGION_LIM_PRECHARGE_MV k 0) ∧
      RegsOutside (R.CLK_STATUS_ARITH_MHZ.at 0 0 :: pwrRegs) s t ∧ AgreeOutside [.regs] s t)) ∧
  (∀ (a b : Nat) (s : State), a = rdS s R.CLK_CTL_MAX_MHZ 0 0 → b = rdS s R.CLK_CTL_ISO_MHZ 0 0 →
    (900 ≤ a ∧ a ≤ 1800 ∧ a % 100 = 0 ∧ 900 ≤ b ∧ b ≤ 1800 ∧ b % 100 = 0 →
      ∃ t, Runs .clkCommit s t ∧ rd t R.CLK_CTL_MAX_MHZ 0 0 = a ∧ rd t R.CLK_CTL_ISO_MHZ 0 0 = b ∧
        (rdB s R.CLK_STATUS_LOCKED 0 0 = true → rd t R.CLK_STATUS_TARGET_MHZ 0 0 = lowestCap t) ∧
        RegsOutside [R.CLK_STATUS_ARITH_MHZ.at 0 0, R.CLK_CTL_MAX_MHZ.at 0 0] s t ∧ AgreeOutside [.regs] s t) ∧
    (¬ (900 ≤ a ∧ a ≤ 1800 ∧ a % 100 = 0 ∧ 900 ≤ b ∧ b ≤ 1800 ∧ b % 100 = 0) →
      Runs .clkCommit s (wr s R.CLK_STATUS_REJECTED 0 0 1)))

/-! ### Bring-up and resets -/

/-- Each stage that runs ends and starts the next, or fails and leaves the module in its safe state: the boot ROM's self-test,
the image's verification, the floor plan, the clocks, memory training and the memory test (R366 to R371, R373 to R377, R379,
R381; what the spec leaves open of them is in log entries 72, 73, 76 to 81). -/
def Obligations.FirstStages : Prop :=
  (∀ (ok : Bool) (s : State), stageRuns s 0 = true →
    ∃ t, Runs (.stageAonBootRom ok) s t ∧ (ok = true → StageEnded s t 0) ∧ (ok = false → StageFailed s t 0 0x280) ∧
      AgreeOutside [.spd, .regs, .shadow, .free, .out, .cores, .harps, .sch, .ras, .hst, .lnk, .boot] s t) ∧
  (∀ (v : W64) (s : State), stageRuns s 1 = true → v = Config.freeWord s.free →
    (getBits v 0 1 = 0 → ∃ t, Runs .stageImageVerification s t ∧ StageFailed s t 1 0x281) ∧
    (getBits v 0 1 = 1 → getBits v 1 1 = 0 → ∃ t, Runs .stageImageVerification s t ∧ StageFailed s t 1 0x287) ∧
    (getBits v 0 1 = 1 → getBits v 1 1 = 1 → s.flash.marked = true →
      ∃ t, Runs .stageImageVerification s t ∧ StageFailed s t 1 0x282 ∧ t.flash = { s.flash with next := 0, valid := false }) ∧
    (getBits v 0 1 = 1 → getBits v 1 1 = 1 → s.flash.marked = false → ∀ e, imageCheck s.flash = some e →
      ∃ t, Runs .stageImageVerification s t ∧ StageFailed s t 1 e ∧ t.flash = { s.flash with next := 0, valid := false }) ∧
    (getBits v 0 1 = 1 → getBits v 1 1 = 1 → s.flash.marked = false → imageCheck s.flash = none → s.flash.next / 16 % 16 ≠ 1 →
      ∃ t, Runs .stageImageVerification s t ∧ StageEnded s t 1 ∧ t.flash = { s.flash with next := 0, valid := true } ∧
        rdB t R.PEX_MBX_STATUS_IMAGE_VALID 0 0 = true ∧ rd t R.SEC_SVN_RUNNING 0 0 = imageSvn s.flash ∧
        rd t R.BOOT_REPORT_DETAIL_DETAIL 1 0 = imageSvn s.flash ∧ reg t (R.BOOT_NEXT_TEST.at 0 0) = 0 ∧
        t.boot.defaults = defaultsOf s.flash ∧ t.boot.test = s.flash.next % 4 ∧ t.boot.hold = s.flash.next / 16 % 16 ∧
        AgreeOutside [.regs, .shadow, .free, .flash, .boot] s t)) ∧
  (∀ (s : State), stageRuns s 2 = true → LogOk s →
    (∀ e, planCheck s.flash.plan = some e → ∃ t, Runs .stageFloorPlanLoad s t ∧ StageFailed s t 2 e) ∧
    (planCheck s.flash.plan = none → s.boot.hold ≠ 2 →
      ∃ t, Runs .stageFloorPlanLoad s t ∧ StageEnded s t 2 ∧ rd t R.BOOT_FP_INFO_GRADE 0 0 = s.flash.plan.grade ∧
        rd t R.BOOT_FP_INFO_STACKS 0 0 = s.flash.plan.fitted ∧ rd t R.BOOT_FP_SERIAL_SERIAL 0 0 = s.flash.plan.serial % 2 ^ 64 ∧
        (∀ k : StackIx, rdB t R.MEM_STACK_STATUS_FITTED k 0 = true ↔ s.flash.plan.fitted / 2 ^ k.val % 2 = 1) ∧
        (∀ c : CoreIx, rdB t R.BOOT_FP_CORE_FACTORY_USABLE c 0 = (planCore s.flash.plan c).usable ∧
          rd t R.BOOT_FP_CORE_FACTORY_HARPS c 0 = (planCore s.flash.plan c).harps) ∧
        (∀ c : CoreIx, (planCore s.flash.plan c).usable = false → rdB t R.BOOT_FP_CORE_USABLE c 0 = false) ∧
        rdB t R.SEC_STATUS_AK_READY 0 0 = true ∧ t.tru.measured.length = 5 ∧
        AgreeOutside [.regs, .free, .out, .cores, .sch, .ras, .hst, .tru, .boot] s t)) ∧
  (∀ (locked : Bool) (s : State), stageRuns s 3 = true → s.boot.hold ≠ 3 →
    ∃ t, Runs (.stageClocks locked) s t ∧ (locked = false → StageFailed s t 3 0x28B) ∧
      (locked = true → StageEnded s t 3 ∧ rdB t R.CLK_STATUS_REF_OK 0 0 = true ∧ rdB t R.CLK_STATUS_LOCKED 0 0 = true ∧
        rd t R.CLK_STATUS_ARITH_MHZ 0 0 = lowestCap t ∧ rd t R.CLK_STATUS_TARGET_MHZ 0 0 = lowestCap t) ∧
      AgreeOutside [.spd, .regs, .shadow, .free, .out, .cores, .harps, .ord, .ms, .sch, .ras, .hst, .lnk, .boot] s t) ∧
  (∀ (fails : List (StackIx × ChanIx)) (s : State), stageRuns s 4 = true →
    ∃ t, Runs (.stageMemoryTraining fails) s t ∧
      (∀ (k : StackIx) (ch : ChanIx), stackFitted s k = true → trains s k ch = true →
        ((k, ch) ∉ fails → trains t k ch = false ∧ rd t R.MEM_STACK_STATUS_CHANNELS_UP k 0 / 2 ^ ch.val % 2 = 1) ∧
        ((k, ch) ∈ fails → SMap.look (fun _ => 0) s.ms.fullTries (k.val * 8 + ch.val) < 3 → trains t k ch = true ∧
          rd t R.BOOT_STATE_STAGE 0 0 = 4 ∧ rd t R.BOOT_REPORT_STATE 4 0 = 1 ∧
          SMap.look (fun _ => 0) t.ms.fullTries (k.val * 8 + ch.val) = SMap.look (fun _ => 0) s.ms.fullTries (k.val * 8 + ch.val) + 1) ∧
        ((k, ch) ∈ fails → 3 ≤ SMap.look (fun _ => 0) s.ms.fullTries (k.val * 8 + ch.val) → trains t k ch = false ∧
          k.val * 8 + ch.val ∈ t.ms.failedCh)) ∧
      (fails = [] → s.boot.hold ≠ 4 → t.ms.failedCh = s.ms.failedCh ∧ (stackLost t = true → StageFailed s t 4 0x28C) ∧
        (stackLost t = false → StageEnded s t 4)) ∧
      AgreeOutside [.spd, .regs, .shadow, .free, .out, .cores, .harps, .ms, .sch, .ras, .hst, .lnk, .boot] s t) ∧
  (∀ (corrected : Nat) (rows : List (BankRow × Nat)) (lost : Bool) (s : State), stageRuns s 5 = true → s.boot.hold ≠ 5 →
    ∃ t, Runs (.stageMemoryTest corrected rows lost) s t ∧ rd t R.BOOT_STATE_TEST_RUN 0 0 = testToRun s ∧
      (lost = true → StageFailed s t 5 0x28C) ∧ (lost = false → StageEnded s t 5) ∧
      (rows = [] → (∀ a, memByte t.mem a = 0) ∧ (lost = false → rd t R.BOOT_REPORT_DETAIL_DETAIL 5 0 = corrected % 2 ^ 32)) ∧
      AgreeOutside [.mem, .spd, .regs, .shadow, .free, .out, .cores, .harps, .ms, .sch, .ras, .hst, .lnk, .flash, .boot] s t)

/-- Known-answer tests, link training, the host function and operation (R373, R378, R380, R382, R401); the boot request (R389);
resets of the module, of the compute part, of one core, and their end (R384 to R387). What the spec leaves open of them is in
log entries 80 to 83. -/
def Obligations.LastStagesAndResets : Prop :=
  (∀ (s : State), stageRuns s 6 = true → s.boot.hold ≠ 6 →
    (goodCores s = [] → ∀ runs, ∃ t, Runs (.stageCoreKnownAnswer runs) s t ∧ StageFailed s t 6 0x28D) ∧
    (goodCores s ≠ [] → (∀ c : CoreIx, (coreAt s c).proc = none ∧ (coreAt s c).suspect = none) →
      ∃ t, Runs (.stageCoreKnownAnswer []) s t ∧ StageEnded s t 6 ∧
        (∀ c : CoreIx, coreUsable s c = true → rd t R.RAS_FIT_CORE_RESULT c 0 = 1 ∧ rdB t R.RAS_FIT_CORE_DUE c 0 = false) ∧
        rd t R.BOOT_REPORT_DETAIL_DETAIL 6 0 = 0 ∧ t.flash = s.flash)) ∧
  (∀ (s : State), stageRuns s 7 = true → s.boot.hold ≠ 7 →
    ((∀ l : LinkIx, rdB s R.LNK_CFG_ENABLE l 0 = true → linkTrains s l = false) ∨ s.boot.stageAt + us 500000 ≤ s.utime) →
    ((∀ n : PortIx, portEnabled s n = true → portSettled s n = true) ∨ s.boot.stageAt + us 2000000 ≤ s.utime) →
    ∃ t, Runs .stageLinkTraining s t ∧ StageEnded s t 7 ∧ AgreeOutside [.regs, .free, .out, .ras, .sch, .hst, .boot] s t) ∧
  (∀ (s : State), stageRuns s 8 = true →
    ∃ t, Runs .stageHostFunctionReady s t ∧ (s.boot.hold ≠ 8 → StageEnded s t 8) ∧
      (s.boot.hold = 8 → rd t R.BOOT_REPORT_STATE 8 0 = 5 ∧ rd t R.BOOT_STATE_STATE 0 0 = 3) ∧
      AgreeOutside [.spd, .regs, .shadow, .free, .out, .cores, .harps, .ord, .sch, .ras, .hst, .lnk, .boot, .pwr] s t) ∧
  (∀ (s : State), stageRuns s 9 = true → s.boot.hold ≠ 9 →
    ∃ t, Runs .stageOperational s t ∧ StageEnded s t 9 ∧ operational t = true ∧ rd t R.PWR_STATUS_DIE_STATE 0 0 = 1 ∧
      t.pwr.idleAt = s.utime ∧ (∀ c : CoreIx, coreUsable s c = true → SMap.look (fun _ => 0) t.ras.testDue c =
        s.utime + c * (rd s R.RAS_FIT_CFG_PERIOD_H 0 0 * 3600000000000) / 288) ∧
      AgreeOutside [.regs, .ms, .ras, .pwr] s t) ∧
  (∀ (test hold : Nat) (s : State), test = rdS s R.BOOT_NEXT_TEST 0 0 → hold = rdS s R.BOOT_NEXT_HOLD 0 0 →
    (test = 3 ∨ 8 < hold → Runs .bootNextCommit s (wr s R.BOOT_STATE_NEXT_REJECTED 0 0 1)) ∧
    (test ≠ 3 → hold ≤ 8 → Runs .bootNextCommit s
      (wr { s with boot := { s.boot with storing := some (test + hold * 16) } } R.BOOT_STATE_NEXT_BUSY 0 0 1))) ∧
  (∀ (ok : Bool) (v : Nat) (s : State), s.boot.storing = some v →
    ∃ t, Runs (.bootNextStored ok) s t ∧ t.boot.storing = none ∧ rdB t R.BOOT_STATE_NEXT_BUSY 0 0 = false ∧
      (ok = true → reg t (R.BOOT_NEXT_TEST.at 0 0) = BitVec.ofNat 64 v ∧ t.flash = { s.flash with next := v }) ∧
      (ok = false → rdB t R.BOOT_STATE_NEXT_REJECTED 0 0 = true ∧ t.flash = s.flash) ∧
      RegsOutside [R.BOOT_NEXT_TEST.at 0 0, R.BOOT_STATE_NEXT_BUSY.at 0 0] s t ∧ AgreeOutside [.regs, .flash, .boot] s t) ∧
  (∀ (s : State), ∃ t, Runs .bootResetModule s t ∧ ModuleIsReset s t) ∧
  (∀ (s : State), (operational s = false ∨ computeBusy s = true → Runs .bootResetCompute s s) ∧
    (operational s = true → computeBusy s = false →
      ∃ t, Runs .bootResetCompute s t ∧ computeBusy t = true ∧ rd t R.BOOT_RESET_STATUS_LAST_SCOPE 0 0 = 1 ∧
        rd t R.BOOT_RESET_STATUS_COMPUTE_RESETS 0 0 = min (rd s R.BOOT_RESET_STATUS_COMPUTE_RESETS 0 0 + 1) 65535 ∧
        t.spd = ⟨[], [], []⟩ ∧ t.harps = [] ∧ t.kv.ops = [] ∧ t.ms.tlb = [] ∧ t.tru.halted = [] ∧
        (∀ c : CoreIx, (coreAt t c).power = .off ∧ (coreAt t c).ring = none) ∧ (∀ r ∈ t.ord.reads, r.kind ≠ 0) ∧
        AgreeOutside [.spd, .regs, .shadow, .out, .cores, .harps, .ord, .ms, .sch, .ras, .obs, .hst, .lnk, .kv, .tru, .boot] s t)) ∧
  (∀ (c : CoreIx) (s : State), operational s = true → rdB s R.BOOT_RESET_STATUS_BUSY 0 0 = false →
    (∀ p, coreOwner s c = some p → rd s R.PRT_STATUS_STATE p 0 ≠ 2) →
    ∃ t, Runs (.bootResetCore c) s t ∧ rdB t R.BOOT_RESET_STATUS_BUSY 0 0 = true ∧ rd t R.BOOT_RESET_STATUS_LAST_SCOPE 0 0 = 2 ∧
      t.boot.coreReset = some c.val ∧ (∀ a < 2 ^ 32, spdByte t.spd c a = 0) ∧
      (∀ c' a, c' ≠ c.val → a < 2 ^ 32 → spdByte t.spd c' a = spdByte s.spd c' a) ∧ (coreAt t c).ring = none ∧
      AgreeOutside [.spd, .regs, .shadow, .out, .cores, .harps, .ord, .sch, .hst, .lnk, .kv, .boot] s t) ∧
  (∀ (s : State), rdB s R.BOOT_RESET_STATUS_BUSY 0 0 = true →
    (∀ c, s.boot.coreReset = some c → (∀ p, coreOwner s c = some p → rd s R.PRT_STATUS_STATE p 0 ≠ 2) →
      Runs .computeResetDone s (wr { s with boot := { s.boot with coreReset := none } } R.BOOT_RESET_STATUS_BUSY 0 0 0)) ∧
    (s.boot.coreReset = none → (∀ u : StackIx, rd s R.KPU_UNIT_STATUS_STATE u 0 ≠ 2) →
      ∃ t, Runs .computeResetDone s t ∧ rdB t R.BOOT_RESET_STATUS_BUSY 0 0 = false ∧
        (∀ p : PartIx, rd s R.PRT_STATUS_STATE p 0 = 2 → rd t R.PRT_STATUS_STATE p 0 = 1) ∧
        AgreeOutside [.mem, .regs, .out, .tru] s t))

/-! ### Field tests, maintenance, halts and records -/

/-- A core's test falls due, waits or starts, takes its runs and ends; a failing core is suspect, gets adjusted or is retired
(R401 to R406); pas de deux follows its control where the rings allow (R407); an activity of maintenance starts or waits (R411,
R414, R415), and a row repair ends (R412). Log entries 61 to 68 say how the model reads what the spec leaves open of them. -/
def Obligations.FieldTestsAndMaintenance : Prop :=
  (∀ (c : CoreIx) (s : State), (rdB s R.RAS_FIT_CORE_DUE c 0 = true ∨
      rdB s R.RAS_FIT_CFG_ENABLE 0 0 = true ∧ SMap.look (fun _ => 0) s.ras.testDue c ≤ s.utime) →
    coreUsable s c = true → operational s = true → (coreAt s c).testing = false →
    (haltInProgress s = true → ∃ t, Runs (.fieldTestDue c) s t ∧ rdB t R.RAS_FIT_CORE_DUE c 0 = true ∧ AgreeOutside [.regs] s t) ∧
    (haltInProgress s = false → railCalibrating s (regionOf c) = true → waitOf s 5 c 0 = none →
      ∃ t, Runs (.fieldTestDue c) s t ∧ rdB t R.RAS_FIT_CORE_DUE c 0 = true ∧ waitOf t 5 c 0 = some ⟨5, c, 0, s.utime, none⟩ ∧
        rd t R.RAS_MAINT_DEFERRALS 5 0 = min (rd s R.RAS_MAINT_DEFERRALS 5 0 + 1) (2 ^ 32 - 1) ∧ AgreeOutside [.regs, .ras] s t) ∧
    (haltInProgress s = false → railCalibrating s (regionOf c) = false → calibrationFirst s c = false → testedWith s c = [c.val] →
      (jobOf s c = none → ∃ t, Runs (.fieldTestDue c) s t ∧ (coreAt t c).testing = true ∧ rdB t R.RAS_FIT_CORE_DUE c 0 = false ∧
        (coreAt t c).power ∈ [.running, .waking] ∧ (5, c.val, 0) ∈ t.ras.running ∧ rdB t R.RAS_MAINT_RUNNING 5 0 = true ∧
        CoresOutside [c.val] s t ∧ AgreeOutside [.regs, .cores, .ras, .pwr] s t) ∧
      (∀ w : RingIx, jobOf s c = some w.val → (ringAt s w).preempt = false → jobIdle s w = true →
        ∃ t, Runs (.fieldTestDue c) s t ∧ rdB t R.RAS_FIT_CORE_DUE c 0 = true ∧ (ringAt t w).preempt = true))) ∧
  (∀ (c : CoreIx) (run : KatRun) (s : State), (coreAt s c).testing = true → coreOn s c = true → (coreAt s c).proc = none →
    (coreAt s c).suspect = none →
    (run.pass = true → ∃ t, Runs (.fieldTestDone c run) s t ∧ (coreAt t c).testing = false ∧ rd t R.RAS_FIT_CORE_RESULT c 0 = 1 ∧
      rdB t R.RAS_FIT_CORE_DUE c 0 = false ∧ (5, c.val, 0) ∉ t.ras.running ∧ (∀ a < 2 ^ 32, spdByte t.spd c a = 0) ∧
      SMap.look (fun _ => 0) t.ras.testDue c = s.utime + rd s R.RAS_FIT_CFG_PERIOD_H 0 0 * 3600000000000 ∧ t.flash = s.flash) ∧
    (run.pass = false → voffOf s c < 10 → ∃ t, Runs (.fieldTestDone c run) s t ∧ (coreAt t c).testing = true ∧
      (coreAt t c).suspect = some run.cls ∧ rd t R.RAS_FIT_CORE_RESULT c 0 = 2 ∧
      (coreAt t c).proc = some (1, 0, min (voffOf s c + 5) 10, derateOf s c, run.onlyHarps, run.harps) ∧
      rd t R.RAS_FIT_STATUS_FAILS 0 0 = min (rd s R.RAS_FIT_STATUS_FAILS 0 0 + 1) 65535 ∧ t.flash = s.flash) ∧
    (run.pass = false → 10 ≤ voffOf s c → 8 ≤ derateOf s c → run.onlyHarps = false →
      ∃ t e, Runs (.fieldTestDone c run) s t ∧ (coreAt t c).testing = false ∧ (coreAt t c).power = .off ∧ coreUsable t c = false ∧
        rdB t R.BOOT_FP_CORE_RETIRED c 0 = true ∧ rd t R.RAS_FIT_CORE_RESULT c 0 = 3 ∧
        rd t R.GLB_FP_GEN_GEN 0 0 = (rd s R.GLB_FP_GEN_GEN 0 0 + 2) % 2 ^ 32 ∧
        t.flash.log = s.flash.log ++ [e] ∧ e.kind = 3 ∧ e.core = c.val ∧ e.seq = s.flash.log.length ∧
        e.tag = Config.flashTag (entryBytes e))) ∧
  (∀ (c : CoreIx) (run : KatRun) (step off der harps : Nat) (only : Bool) (s : State), (coreAt s c).testing = true → coreOn s c = true →
    run.pass = true →
    ((coreAt s c).proc = some (step, 0, off, der, only, harps) → ∃ t, Runs (.fieldTestDone c run) s t ∧
      coreAt t c = { coreAt s c with proc := some (step, 1, off, der, only, harps) } ∧ CoresOutside [c.val] s t ∧ AgreeOutside [.cores] s t) ∧
    ((coreAt s c).proc = some (step, 1, off, der, only, harps) → off ≤ 10 → der ≤ 8 → ∃ t, Runs (.fieldTestDone c run) s t ∧
      (coreAt t c).testing = false ∧ (coreAt t c).proc = none ∧ (coreAt t c).suspect = none ∧ rd t R.RAS_FIT_CORE_RESULT c 0 = 1 ∧
      voffOf t c = max (voffOf s c) off ∧ derateOf t c = max (derateOf s c) der)) ∧
  (∀ (v : W64) (s : State), ∃ t, Runs (.rasPddCtlWrite v) s t ∧
    (∀ p : PartIx, (∀ w ∈ ringsOf s p, ringState s w ≤ 1) →
      rd t R.RAS_PDD_CTL_ENABLE 0 0 / 2 ^ p.val % 2 = getBits v p 1) ∧
    (∀ p : PartIx, (∃ w ∈ ringsOf s p, 1 < ringState s w) →
      rd t R.RAS_PDD_CTL_ENABLE 0 0 / 2 ^ p.val % 2 = rd s R.RAS_PDD_CTL_ENABLE 0 0 / 2 ^ p.val % 2 ∧
      rd t R.RAS_PDD_STATUS_ACTIVE 0 0 / 2 ^ p.val % 2 = rd s R.RAS_PDD_STATUS_ACTIVE 0 0 / 2 ^ p.val % 2 ∧
      (getBits v p 1 ≠ rd s R.RAS_PDD_CTL_ENABLE 0 0 / 2 ^ p.val % 2 → rdB t R.RAS_PDD_STATUS_REFUSED 0 0 = true)) ∧
    RegsOutside [R.RAS_PDD_CTL_ENABLE.at 0 0, R.RAS_PDD_STATUS_ACTIVE.at 0 0] s t ∧ AgreeOutside [.regs] s t) ∧
  (∀ (a : Fin 10) (unit sub : Nat) (s : State), haltInProgress s = false → operational s = true → a.val ≠ 0 →
    (maintStart s a unit sub = none → Runs (.maintActivityStart a unit sub) s (maintWait s a unit sub)) ∧
    (∀ u, maintStart s a unit sub = some u → Runs (.maintActivityStart a unit sub) s u)) ∧
  (∀ (k : StackIx) (ch : ChanIx) (s : State), haltInProgress s = false → operational s = true →
    (maintOn s 3 k ch = true → waitOf s 2 k ch = none → ∃ t, Runs (.maintActivityStart 2 k ch) s t ∧
      rd t R.RAS_MAINT_DEFERRALS 2 0 = min (rd s R.RAS_MAINT_DEFERRALS 2 0 + 1) (2 ^ 32 - 1) ∧
      waitOf t 2 k ch = some ⟨2, k, ch, s.utime, none⟩ ∧
      RegsOutside [R.RAS_MAINT_DEFERRALS.at 2 0] s t ∧ AgreeOutside [.regs, .ras] s t) ∧
    (maintOn s 3 k ch = false → waitOf s 3 k ch = none → 2 ≤ rd s R.MEM_STACK_STATUS_STATE k 0 → k.val * 8 + ch.val ∉ s.ms.retraining →
      k.val * 8 + ch.val ∉ s.ms.failedCh → retrainDue s k ch = true →
      ∃ t, Runs (.maintActivityStart 2 k ch) s t ∧ k.val * 8 + ch.val ∈ t.ms.retraining ∧
        maintOn t 2 k ch = true ∧ rdB t R.RAS_MAINT_RUNNING 2 0 = true ∧
        rd t R.MEM_STACK_STATUS_TRAINING k 0 / 2 ^ ch.val % 2 = 1 ∧ AgreeOutside [.regs, .ms, .ras] s t)) ∧
  (∀ (k : RailIx) (sub : Nat) (s : State), haltInProgress s = false → operational s = true → calibrationDue s k = true →
    (∀ c : CoreIx, regionOf c = k → (coreAt s c).testing = false ∧ rdB s R.RAS_FIT_CORE_DUE c 0 = false) →
    ∃ t, Runs (.maintActivityStart 6 k sub) s t ∧ railCalibrating t k = true ∧ rdB t R.RAS_MAINT_RUNNING 6 0 = true ∧
      AgreeOutside [.regs, .ras] s t) ∧
  (∀ (row : BankRow) (good : Bool) (s : State), row ∈ rowsUnderRepair s →
    ∃ t, Runs (.rowRepairDone row good) s t ∧ row ∉ t.ms.repairDue ∧ (3, row.stack, row.channel) ∉ t.ras.running ∧
      (good = true ∧ sparesUsed s row < 4 → t.ms.repaired = s.ms.repaired ++ [row] ∧
        ∃ e, t.flash.log = s.flash.log ++ [e] ∧ e.kind = 5 ∧ e.row = row ∧ e.seq = s.flash.log.length ∧ e.tag = Config.flashTag (entryBytes e)) ∧
      (good = false ∨ 4 ≤ sparesUsed s row → t.ms.repaired = s.ms.repaired ∧ t.flash = s.flash) ∧
      AgreeOutside [.regs, .out, .ms, .sch, .ras, .hst, .flash, .pwr] s t) ∧
  (∀ (a : Fin 10) (unit sub : Nat) (s : State),
    (haltInProgress s = true → Runs (.maintOverdue a unit sub) s s) ∧
    (a.val ≠ 1 → deferLimit s a = none ∨ waitOf s a unit sub = none → Runs (.maintOverdue a unit sub) s s) ∧
    (∀ lim w, a.val ≠ 1 → deferLimit s a = some lim → waitOf s a unit sub = some w →
      (waitMs s w < lim ∨ w.overdue ≠ none → Runs (.maintOverdue a unit sub) s s) ∧
      (haltInProgress s = false → lim ≤ waitMs s w → w.overdue = none →
        ∃ t, Runs (.maintOverdue a unit sub) s t ∧ rdB t R.RAS_MAINT_OVERDUE a 0 = true ∧
          rd t R.RAS_MAINT_LONGEST_MS a 0 = max (rd s R.RAS_MAINT_LONGEST_MS a 0) (min (waitMs s w) 65535) ∧
          AgreeOutside [.regs, .out, .sch, .ras, .hst] s t)) ∧
    (a.val = 1 → haltInProgress s = false → rdB s R.MEM_SCRUB_CTL_ENABLE 0 0 = true → 3600000 ≤ scrubLagMs s → waitOf s 1 unit sub = none →
      ∃ t, Runs (.maintOverdue a unit sub) s t ∧ rdB t R.RAS_MAINT_OVERDUE 1 0 = true ∧ AgreeOutside [.regs, .out, .sch, .ras, .hst] s t))

/-- A pavane halt is armed with a cut LEAD_NS ahead, cuts, completes and is released (R416 to R419; log entries 47, 69 to 71), a
fatal fault stalls the module (R392, R416), a record of the log goes to the flash, and a unit's corrected events beyond the
limit are recorded once an hour (R398). -/
def Obligations.HaltsAndRecords : Prop :=
  (∀ (kind : FatalKind) (s : State), haltInProgress s = false → s.ras.cut = false →
    ∃ t w, Runs (.fatalFault kind) s t ∧ rd t R.RAS_HALT_STATUS_STATE 0 0 = 1 ∧
      rd t R.RAS_HALT_STATUS_CAUSE 0 0 = (if kind = .clockReference ∨ kind = .clockPll then 3 else 4) ∧ t.ras.cut = true ∧
      (kind = .clockReference → rdB t R.CLK_STATUS_REF_OK 0 0 = false) ∧ (kind = .clockPll → rdB t R.CLK_STATUS_LOCKED 0 0 = false) ∧
      t.ord.flights = [] ∧ t.ms.walks = [] ∧ t.kv.ops = [] ∧ (s.ras.fatal = none → t.ras.fatal = some (fatalInfo kind)) ∧
      (∀ r : RingIx, ∀ d, (ringAt t r).cmd = some d → d.phase ∈ [.bounded, .held]) ∧ t.ras.log.getLast? = some w ∧
      getBits (w.getD 1 0) 0 16 = (fatalInfo kind).1) ∧
  (∀ (leadNs : Nat) (s : State),
    (haltInProgress s = true → ∃ t, Runs (.haltStart leadNs) s t ∧
      rd t R.RAS_HALT_CTL_LEAD_NS 0 0 = (if 500 ≤ leadNs ∧ leadNs ≤ 60000 then leadNs else rd s R.RAS_HALT_CTL_LEAD_NS 0 0) ∧
      RegsOutside [R.RAS_HALT_CTL_LEAD_NS.at 0 0] s t ∧ AgreeOutside [.regs] s t) ∧
    (haltInProgress s = false → ∃ t, Runs (.haltStart leadNs) s t ∧
      rd t R.RAS_HALT_CTL_LEAD_NS 0 0 = (if 500 ≤ leadNs ∧ leadNs ≤ 60000 then leadNs else rd s R.RAS_HALT_CTL_LEAD_NS 0 0) ∧
      rd t R.RAS_HALT_STATUS_STATE 0 0 = 1 ∧ rd t R.RAS_HALT_STATUS_CAUSE 0 0 = 1 ∧
      rd t R.RAS_HALT_STATUS_INITIATOR 0 0 = myModule s ∧ t.ras.releaseAsked = false ∧
      (isFollower s = false → t.ras.cutAt = some (tsc s + rd t R.RAS_HALT_CTL_LEAD_NS 0 0) ∧ rdB t R.RAS_HALT_STATUS_LATE 0 0 = false))) ∧
  (∀ (cut : Nat) (s : State), s.ras.cutAt = some cut → rd s R.RAS_HALT_STATUS_STATE 0 0 = 1 →
    (tsc s < cut → Runs .haltCut s s) ∧
    (cut ≤ tsc s → ∃ t, Runs .haltCut s t ∧ rd t R.RAS_HALT_STATUS_STATE 0 0 = 1 ∧ t.ras.cutAt = none ∧ t.ras.cut = true ∧
      rd t R.RAS_HALT_TSC_CUT 0 0 = cut ∧ rd t R.LNK_CUT_TSC_TSC 0 0 = cut ∧ rdB t R.RAS_HALT_STATUS_LATE 0 0 = false ∧
      (∀ l : LinkIx, rd t R.LNK_CUT_TX_MSGS l 0 = rd t R.LNK_TX_MSGS l 0 ∧ rd t R.LNK_CUT_RX_MSGS l 0 = rd t R.LNK_RX_MSGS l 0) ∧
      (s.ras.cut = false → t.ord.flights = [] ∧ t.kv.ops = [] ∧
        ∀ r : RingIx, ∀ d, (ringAt t r).cmd = some d → d.phase ∈ [.bounded, .held]) ∧
      AgreeOutside [.regs, .out, .cores, .harps, .ord, .ms, .sch, .ras, .hst, .lnk, .kv] s t)) ∧
  (∀ (s : State), s.ras.cut = true → s.ras.cutAt = none → rd s R.RAS_HALT_STATUS_STATE 0 0 = 1 →
    (∀ u : StackIx, rd s R.KPU_UNIT_STATUS_STATE u 0 ≠ 2) → linksQuiet s = true →
    ∃ t, Runs .haltComplete s t ∧
      rd t R.RAS_HALT_STATUS_HALTS 0 0 = min (rd s R.RAS_HALT_STATUS_HALTS 0 0 + 1) 65535 ∧
      (∀ p : PartIx, rd t R.SEC_IMP_STATUS_STATE p 0 ≠ 3) ∧
      (s.ras.releaseAsked = false → rd t R.RAS_HALT_STATUS_STATE 0 0 = 2 ∧ t.ras.cut = true) ∧
      (s.ras.releaseAsked = true → s.ras.fatal = none → rd t R.RAS_HALT_STATUS_STATE 0 0 = 0 ∧ t.ras.cut = false)) ∧
  (∀ (s : State),
    (rd s R.RAS_HALT_STATUS_STATE 0 0 ∉ [1, 2] → Runs .haltRelease s s) ∧
    (rd s R.RAS_HALT_STATUS_STATE 0 0 = 1 → s.ras.releaseAsked = false → s.ras.cut = false →
      ∃ t, Runs .haltRelease s t ∧ rd t R.RAS_HALT_STATUS_STATE 0 0 = 0 ∧ t.ras.cutAt = none ∧ t.ras.fatal = none) ∧
    (rd s R.RAS_HALT_STATUS_STATE 0 0 = 1 → s.ras.releaseAsked = false → s.ras.cut = true →
      ∃ t, Runs .haltRelease s t ∧ rd t R.RAS_HALT_STATUS_STATE 0 0 = 1 ∧ t.ras.releaseAsked = true) ∧
    (rd s R.RAS_HALT_STATUS_STATE 0 0 = 2 → s.ras.fatal = none →
      ∃ t, Runs .haltRelease s t ∧ rd t R.RAS_HALT_STATUS_STATE 0 0 = 0 ∧ t.ras.cut = false ∧ t.harps = [] ∧ t.spd = ⟨[], [], []⟩ ∧
        ∀ c : CoreIx, (coreAt t c).power = .off) ∧
    (rd s R.RAS_HALT_STATUS_STATE 0 0 = 2 → s.ras.fatal ≠ none → getBits (Config.freeWord s.free) 0 1 = 0 →
      ∃ t, Runs .haltRelease s t ∧ rd t R.RAS_HALT_STATUS_STATE 0 0 = 2 ∧ t.ras.fatal = s.ras.fatal ∧ t.cores = s.cores ∧
        t.free = s.free + 1)) ∧
  (∀ (seq : Nat) (w : List W64) (s : State),
    s.ras.log.find? (fun w => decide (getBits (w.getD 7 0) 0 32 = seq) && decide (getBits (w.getD 1 0) 41 1 = 0)) = some w →
    w.length = 8 → ∃ t v, Runs (.errorRecordFlash seq) s t ∧ t.flash.events.getLast? = some v ∧ v ∈ t.ras.log ∧
      v = w.take 1 ++ [setBits (w.getD 1 0) 41 1 1] ++ w.drop 2 ∧ t.ras.log.length = s.ras.log.length ∧
      AgreeOutside [.ras, .flash] s t) ∧
  (∀ (source unit others events last : Nat) (s : State), last = SMap.look (fun _ => 0) s.ras.rateAt (source * 4096 + unit) →
    events = others + (SMap.look (fun _ => []) s.ras.corrected (source * 4096 + unit)).foldl
      (fun n e => if s.utime < e.1 + 3600000000000 then n + e.2 else n) 0 →
    (events ≤ rd s R.RAS_CE_LIMIT_PER_HOUR 0 0 → Runs (.correctedRateCheck source unit others) s s) ∧
    (last ≠ 0 → s.utime < last - 1 + 3600000000000 → Runs (.correctedRateCheck source unit others) s s) ∧
    (rd s R.RAS_CE_LIMIT_PER_HOUR 0 0 < events → source < 16 → unit < 4096 → last = 0 ∨ last - 1 + 3600000000000 ≤ s.utime →
      ∃ t w, Runs (.correctedRateCheck source unit others) s t ∧ t.ras.log.getLast? = some w ∧ getBits (w.getD 1 0) 0 16 = 0x205 ∧
        SMap.look (fun _ => 0) t.ras.rateAt (source * 4096 + unit) = s.utime + 1 ∧ AgreeOutside [.regs, .out, .sch, .ras, .hst] s t))

/-! ### Observation, time, the leak sensor and the test access port -/

/-- Counters are cleared and copied by a snapshot with the identity of the command and the TSC (R426, R427); a snapshot of the
module is armed, as a debug access, and taken on the cores of the partitions named (R290, R430); a watchpoint takes its
configuration and samples its range as it is enabled (R431 to R433); a trace record goes to the next slot of its buffer, and
tracing stops on a fault (R435, R436). -/
def Obligations.Observation : Prop :=
  (∀ (c : CoreIx) (s : State), coreUsable s c = true →
    (∃ t, Runs (.cntClear c) s t ∧ (∀ n < 128, rd t R.CNT_COUNT c n = 0) ∧ rd t R.CNT_SNAP_INFO_SEQ c 0 = 0 ∧ CoresOutside [c.val] s t ∧
      (∀ c' : CoreIx, c' ≠ c → ∀ n < 128, rd t R.CNT_COUNT c' n = rd s R.CNT_COUNT c' n) ∧ AgreeOutside [.regs, .cores] s t) ∧
    (∃ t, Runs (.cntSnapTake c) s t ∧ (∀ n < 128, rd t R.CNT_SNAP_COUNT c n = rd s R.CNT_COUNT c n) ∧
      rd t R.CNT_SNAP_INFO_SEQ c 0 = (rd s R.CNT_SNAP_INFO_SEQ c 0 + 1) % 2 ^ 32 ∧ rd t R.CNT_SNAP_INFO_CAUSE c 0 = 1 ∧
      rdB t R.CNT_SNAP_INFO_LATE c 0 = false ∧ rd t R.CNT_SNAP_TSC_TSC c 0 = tsc s ∧
      rd t R.CNT_SNAP_CMD_TAG c 0 = (coreAt s c).ident.1 % 2 ^ 32 ∧ CoresOutside [c.val] s t ∧ AgreeOutside [.regs, .cores] s t)) ∧
  (∀ (parts : Nat) (s : State),
    (tsc s ≤ rd s R.DBG_SNAP_TSC_TSC 0 0 → ∃ t, Runs (.dbgSnapArm parts) s t ∧ rdB t R.DBG_SNAP_STATUS_ARMED 0 0 = true ∧
      rdB t R.DBG_SNAP_STATUS_LATE 0 0 = false ∧ t.obs.snapParts = parts % 65536 ∧
      (∀ p : PartIx, parts / 2 ^ p.val % 2 = 1 → rdB s R.PRT_CFG_VALID p 0 = true →
        rdB t R.PRT_STATUS_DEBUG_TOUCHED p 0 = true ∧ rdB t R.SEC_LOG_STATUS_DEBUG_TOUCHED p 0 = true) ∧
      AgreeOutside [.regs, .free, .out, .sch, .obs, .hst, .tru] s t) ∧
    (rd s R.DBG_SNAP_TSC_TSC 0 0 < tsc s → ∃ t, Runs (.dbgSnapArm parts) s t ∧ rdB t R.DBG_SNAP_STATUS_ARMED 0 0 = false ∧
      rdB t R.DBG_SNAP_STATUS_LATE 0 0 = true ∧
      ∀ (c : CoreIx) (p : PartIx), coreOwner s c = some p.val → coreUsable s c = true → parts / 2 ^ p.val % 2 = 1 →
        rd t R.CNT_SNAP_INFO_CAUSE c 0 = 5 ∧ rdB t R.CNT_SNAP_INFO_LATE c 0 = true)) ∧
  (∀ (s : State), rdB s R.DBG_SNAP_STATUS_ARMED 0 0 = true → rd s R.DBG_SNAP_TSC_TSC 0 0 ≤ tsc s →
    ∃ t, Runs .dbgSnapshot s t ∧ rdB t R.DBG_SNAP_STATUS_ARMED 0 0 = false ∧ rdB t R.DBG_SNAP_STATUS_LATE 0 0 = false ∧
      (∀ (c : CoreIx) (p : PartIx), coreOwner s c = some p.val → coreUsable s c = true → s.obs.snapParts / 2 ^ p.val % 2 = 1 →
        rd t R.CNT_SNAP_INFO_CAUSE c 0 = 5 ∧ rd t R.CNT_SNAP_TSC_TSC c 0 = tsc s ∧
        ∀ n < 128, rd t R.CNT_SNAP_COUNT c n = rd s R.CNT_COUNT c n) ∧ AgreeOutside [.regs, .cores] s t) ∧
  (∀ (n : Fin 16) (cfg : W64) (s : State),
    (∀ fn : FnIx, fn ≠ 0 → Runs (.watchpointEnable fn (.mem n) cfg) s s) ∧
    ∃ t, Runs (.watchpointEnable 0 (.mem n) cfg) s t ∧ rd t R.DBG_WP_CFG_ENABLE n 0 = getBits cfg 0 1 ∧
      rd t R.DBG_WP_CFG_READ n 0 = getBits cfg 1 1 ∧ rd t R.DBG_WP_CFG_WRITE n 0 = getBits cfg 2 1 ∧
      rd t R.DBG_WP_CFG_SOURCE n 0 = getBits cfg 6 2 ∧
      rd t R.DBG_WP_CFG_ACTION n 0 = (if getBits cfg 4 2 = 3 then rd s R.DBG_WP_CFG_ACTION n 0 else getBits cfg 4 2) ∧
      (getBits cfg 0 1 = 1 → SMap.look (fun _ => (0, 0)) t.obs.wpRange n =
        (rd s R.DBG_WP_BASE_BASE n 0 * 8, rd s R.DBG_WP_END_END n 0 * 8)) ∧
      (getBits cfg 0 1 = 0 → RegsOutside [R.DBG_WP_CFG_ENABLE.at n 0] s t ∧ AgreeOutside [.regs] s t) ∧
      AgreeOutside [.regs, .free, .out, .sch, .obs, .hst, .tru] s t) ∧
  (∀ (fn : FnIx) (c : CoreIx) (m : Fin 2) (cfg : W64) (s : State),
    (coreUsable s c = false → Runs (.watchpointEnable fn (.spd c m) cfg) s s) ∧
    (fn ≠ 0 → coreOwner s c = none → Runs (.watchpointEnable fn (.spd c m) cfg) s s) ∧
    (∀ p : PartIx, fn ≠ 0 → coreOwner s c = some p.val → fn.val ≠ p.val + 1 → Runs (.watchpointEnable fn (.spd c m) cfg) s s) ∧
    (coreUsable s c = true → (fn = 0 ∨ ∃ p : PartIx, coreOwner s c = some p.val ∧ fn.val = p.val + 1) →
      ∃ t, Runs (.watchpointEnable fn (.spd c m) cfg) s t ∧ rd t R.CNT_SPWP_CFG_ENABLE c m = getBits cfg 0 1 ∧
        rd t R.CNT_SPWP_CFG_READ c m = getBits cfg 1 1 ∧ rd t R.CNT_SPWP_CFG_WRITE c m = getBits cfg 2 1 ∧
        (getBits cfg 0 1 = 1 → SMap.look (fun _ => (0, 0)) t.obs.spwpRange (c * 2 + m) =
          (rd s R.CNT_SPWP_RANGE_BASE c m, rd s R.CNT_SPWP_RANGE_END c m)) ∧
        (fn ≠ 0 → RegsOutside [R.CNT_SPWP_CFG_ENABLE.at c m] s t ∧ AgreeOutside [.regs, .obs] s t))) ∧
  (∀ (c : CoreIx) (s : State), (coreAt s c).trace = [] → Runs (.traceRecordWrite c) s s) ∧
  (∀ (c : CoreIx) (r : List W64) (rest : List (List W64)) (s : State), (coreAt s c).trace = r :: rest →
    (traceSlot s c = none → ∃ t, Runs (.traceRecordWrite c) s t ∧ rdB t R.CNT_TRACE_STATUS_FULL c 0 = true ∧
      (coreAt t c).trace = [] ∧ CoresOutside [c.val] s t ∧ RegsOutside [R.CNT_TRACE_STATUS_FULL.at c 0] s t ∧
      AgreeOutside [.regs, .cores] s t) ∧
    (∀ slot va e, traceSlot s c = some slot → va = rd s R.CNT_TRACE_VA_TRACE_VA c 0 * 64 + 32 * slot →
      accessWaits s (some c.val) (corePart s c) va 32 false = false →
      Machine.translate s (some c.val) (corePart s c) va true true = .error e →
      ∃ t, Runs (.traceRecordWrite c) s t ∧ rdB t R.CNT_TRACE_CTL_ENABLE c 0 = false ∧ rdB t R.CNT_TRACE_STATUS_FAULT c 0 = true ∧
        (coreAt t c).trace = []) ∧
    (∀ slot va pa, traceSlot s c = some slot → rdB s R.CNT_TRACE_CTL_WRAP c 0 = true → (coreAt s c).lost = 0 →
      va = rd s R.CNT_TRACE_VA_TRACE_VA c 0 * 64 + 32 * slot →
      accessWaits s (some c.val) (corePart s c) va 32 false = false →
      Machine.translate s (some c.val) (corePart s c) va true true = .ok pa → pa < 2 ^ 51 → MemQuiet s →
      ∃ t f, Runs (.traceRecordWrite c) s t ∧ t.ord.flights = s.ord.flights ++ [f] ∧ f.src = .core c ∧ f.dst = .mem pa ∧
        f.data = wordsBytes r ∧ f.final = false ∧ (coreAt t c).trace = rest ∧
        rd t R.CNT_TRACE_STATUS_WRITTEN c 0 = (rd s R.CNT_TRACE_STATUS_WRITTEN c 0 + 1) % 2 ^ 32 ∧ CoresOutside [c.val] s t ∧
        MemOutside 0 0 s t))

/-- A tick advances the TSC by 10 ns as steered (R437); a 1PPS edge latches, acquires or steers (R439; the rate is free, log
entry 1, and log entry 34 says what the return of an input does); inputs that go leave the module in HOLDOVER and then UNSYNCED
(R439); TSC_SET steps the TSC where the module neither follows nor has a source (R441); a leak is posted and logged (R456; word
1 is log entry 89's); instructions of the test access port answer, drive the pins in the safe state only, and open the transport
(R451). -/
def Obligations.TimeLeakAndTestPort : Prop :=
  (∀ (s : State) (ppb : Int), ppb = (if isFollower s then s.lnk.steer else if usesInputs s then s.time.steer else 0) →
    ∃ t, Runs .tscTick s t ∧ t.utime = s.utime + (10 + (s.time.frac + 10 * ppb).fdiv 1000000000).toNat ∧
      tsc t = (tsc s + (t.utime - s.utime)) % 2 ^ 64 ∧ t.time = { s.time with frac := (s.time.frac + 10 * ppb).fmod 1000000000 } ∧
      AgreeOutside [.regs, .utime, .cores, .sch, .time] s t) ∧
  (∀ (s : State), usesInputs s = false →
    ∃ t, Runs .ppsEdge s t ∧ rdB t R.TSC_STATUS_PPS_IN 0 0 = true ∧ t.time = { s.time with edgeAt := s.utime } ∧ tsc t = tsc s ∧
      AgreeOutside [.regs, .out, .sch, .hst, .time] s t) ∧
  (∀ (s : State) (e θ : Int), usesInputs s = true → e = s.time.next + signedOf 32 (rd s R.TSC_CTL_PPS_DELAY 0 0) → θ = tsc s - e →
    ∃ t, Runs .ppsEdge s t ∧ rdB t R.TSC_STATUS_PPS_IN 0 0 = true ∧ rd t R.TSC_PPS_LATCH_TSC 0 0 = tsc s ∧ t.time.edgeAt = s.utime ∧
      t.time.next = (s.time.next + 1000000000) % 2 ^ 64 ∧
      (rdB s R.TSC_STATUS_REF_LOCKED 0 0 = false → tsc t = tsc s ∧ t.time.state = s.time.state) ∧
      (rdB s R.TSC_STATUS_REF_LOCKED 0 0 = true →
        (s.time.state = 0 ∨ (s.time.state = 2 ∨ s.time.state = 3) ∧ (θ < -1000 ∨ 1000 < θ) →
          t.time.state = 1 ∧ t.time.good = 0 ∧ (tsc t : Int) = e % 2 ^ 64 ∧
          rd t R.TSC_STATUS_STEPS 0 0 = min (rd s R.TSC_STATUS_STEPS 0 0 + 1) 65535) ∧
        (s.time.state = 1 → tsc t = tsc s ∧ t.time.good = (if -2 ≤ θ ∧ θ ≤ 2 then s.time.good + 1 else 0) ∧
          t.time.state = (if 4 ≤ t.time.good then 2 else 1)) ∧
        ((s.time.state = 2 ∨ s.time.state = 3) ∧ -1000 ≤ θ ∧ θ ≤ 1000 →
          tsc t = tsc s ∧ t.time.state = 2 ∧ -100000 ≤ t.time.steer ∧ t.time.steer ≤ 100000 ∧
          rd t R.TSC_STATUS_OFFSET 0 0 = (θ * 8 % 65536).toNat)) ∧
      AgreeOutside [.regs, .free, .out, .cores, .sch, .hst, .time] s t) ∧
  (∀ (s : State), usesInputs s = true → rdB s R.TSC_STATUS_REF_IN 0 0 = true →
    Runs .refLock s (wr s R.TSC_STATUS_REF_LOCKED 0 0 1)) ∧
  (∀ (refIn ppsIn : Bool) (s : State),
    (rdB s R.TSC_STATUS_REF_IN 0 0 = refIn ∧ rdB s R.TSC_STATUS_PPS_IN 0 0 = ppsIn → Runs (.timingInputChange refIn ppsIn) s s) ∧
    (¬ (rdB s R.TSC_STATUS_REF_IN 0 0 = refIn ∧ rdB s R.TSC_STATUS_PPS_IN 0 0 = ppsIn) →
      ∃ t, Runs (.timingInputChange refIn ppsIn) s t ∧ rdB t R.TSC_STATUS_REF_IN 0 0 = refIn ∧
        rdB t R.TSC_STATUS_PPS_IN 0 0 = ppsIn ∧
        (refIn = true → t.time = s.time ∧ rdB t R.TSC_STATUS_REF_LOCKED 0 0 = rdB s R.TSC_STATUS_REF_LOCKED 0 0) ∧
        (refIn = false → rdB t R.TSC_STATUS_REF_LOCKED 0 0 = false ∧
          (usesInputs s = true → s.time.state = 1 ∨ s.time.state = 2 → t.time.state = 3 ∧ t.time.holdAt = s.utime)) ∧
        AgreeOutside [.regs, .out, .sch, .hst, .time] s t)) ∧
  (∀ (s : State),
    (s.utime < s.time.edgeAt + 1500000000 → Runs .ppsTimeout s s) ∧
    (s.time.edgeAt + 1500000000 ≤ s.utime → ∃ t, Runs .ppsTimeout s t ∧ rdB t R.TSC_STATUS_PPS_IN 0 0 = false ∧
      (usesInputs s = true → s.time.state = 1 ∨ s.time.state = 2 → t.time.state = 3 ∧ t.time.holdAt = s.utime) ∧
      (usesInputs s = false → t.time = s.time) ∧ AgreeOutside [.regs, .out, .sch, .hst, .time] s t)) ∧
  (∀ (s : State), usesInputs s = true → s.time.state = 3 →
    (s.time.holdAt + 1000000000000 ≤ s.utime → Runs .tscHoldoverTimeout s { s with time := { s.time with state := 0 } }) ∧
    (s.utime < s.time.holdAt + 1000000000000 → Runs .tscHoldoverTimeout s s)) ∧
  (∀ (v : W64) (s : State),
    (isFollower s = true ∨ rd s R.TSC_CTL_SOURCE 0 0 = 1 → Runs (.tscSet v) s s) ∧
    (isFollower s = false → rd s R.TSC_CTL_SOURCE 0 0 = 0 → ∃ t, Runs (.tscSet v) s t ∧ tsc t = v.toNat ∧
      rd t R.TSC_STATUS_STEPS 0 0 = min (rd s R.TSC_STATUS_STEPS 0 0 + 1) 65535 ∧ t.utime = s.utime ∧
      AgreeOutside [.regs, .out, .cores, .sch, .hst] s t)) ∧
  (∀ (v : W64) (s : State), ∃ t, Runs (.tscPpsNextWrite v) s t ∧ reg t (R.TSC_PPS_NEXT_NEXT.at 0 0) = v ∧ t.time.next = v.toNat ∧
    RegsOutside [R.TSC_PPS_NEXT_NEXT.at 0 0] s t ∧ AgreeOutside [.regs, .time] s t) ∧
  (∀ (i o : Bool) (s : State),
    (i = s.mgm.leakIn ∧ o = s.mgm.leakOut → Runs (.leakSensorRead i o) s s) ∧
    (¬ (i = s.mgm.leakIn ∧ o = s.mgm.leakOut) → ∃ t, Runs (.leakSensorRead i o) s t ∧
      t.mgm = { s.mgm with leakIn := i, leakOut := o } ∧ ((i = false ∧ o = false) → t.flash = s.flash) ∧
      (i = true ∨ o = true → t.flash.events.getLast? =
        some (eventWords 0x0118 1 ((if i then 1 else 0) + (if o then 2 else 0)) 0 (tsc s))) ∧
      AgreeOutside [.regs, .out, .sch, .hst, .flash, .mgm] s t)) ∧
  (∀ (s : State),
    (∃ v, Runs .idcode s { s with phy := { s.phy with inst := 0 }, out := s.out ++ [.jtag "IDCODE" v] } ∧ v % 2 = 1 ∧
      v / 2 ^ 12 % 2 ^ 16 = 0x4E49 ∧ v / 2 ^ 28 = rd s R.GLB_ID_DIE_STEP 0 0 % 16) ∧
    Runs .bypass s { s with phy := { s.phy with inst := 0 }, out := s.out ++ [.jtag "BYPASS" 0] } ∧
    Runs .debugTransportOpen s { s with phy := { s.phy with transport := true } } ∧
    (rd s R.BOOT_STATE_STATE 0 0 ∈ [2, 3] →
      Runs .extest s { s with phy := { s.phy with inst := 1 }, out := s.out ++ [.jtag "EXTEST" (boundaryValue s.phy.boundary)] } ∧
      Runs .clamp s { s with phy := { s.phy with inst := 2 }, out := s.out ++ [.jtag "CLAMP" (boundaryValue s.phy.boundary)] } ∧
      Runs .highz s { s with phy := { s.phy with inst := 3 }, out := s.out ++ [.jtag "HIGHZ" 0] }) ∧
    (rd s R.BOOT_STATE_STATE 0 0 ∉ [2, 3] → ∀ i ∈ [Instr.extest, .clamp, .highz],
      Runs i s { s with phy := { s.phy with inst := 0 }, out := s.out ++ [.jtag "BYPASS" 0] })) ∧
  (∀ (pins : List Bool) (s : State), Runs (.samplePreload pins) s { s with phy := { s.phy with boundary := pins, inst := 0 } })

/-! ### Reserved encodings and formats -/

/-- A pass descriptor at the head of a harp's queue that names F64, F32, I32 or SX8 for A or B, or pairs a floating-point with
an integer format, is a reserved encoding: no pass starts, and the command of the core ends DESC_INVALID (R35, R64). -/
def Obligations.ReservedHarpFormats : Prop :=
  ∀ (c : CoreIx) (h : HarpIx) (d : List W64) (rest : List (List W64)) (w : Nat) (k : Cmd) (s : State),
    (harpAt s c h).queue = d :: rest → (harpAt s c h).next = none → (coreAt s c).running = true → (coreAt s c).stopped = false →
    (coreAt s c).harpMask / 2 ^ h.val % 2 = 1 → (coreAt s c).ring = some w → (ringAt s w).cmd = some k → k.phase = .running →
    (notAnOperand (pFmtA d) ∨ notAnOperand (pFmtB d) ∨ mixedKinds (pFmtA d) (pFmtB d)) →
    ∃ t, Runs (.passHeadCheck c h) s t ∧ (ringAt t w).cmd = some { k.cause 0x1D 0 with phase := .stopping } ∧
      (c.val ∈ k.cores → (harpAt t c h).queue = [] ∧ (harpAt t c h).next = none ∧ (harpAt t c h).active = none) ∧
      AgreeOutside [.harps, .cores, .sch] s t

/-- The positive codes of SF4 have the values of the table of R71, as a sign, a magnitude and a power of two, and codes 0x8 to
0xF are their negatives. -/
def Obligations.Sf4Values : Prop :=
  ∀ p, binFmt 0x8 = some p →
    (∀ neg : Bool, ∀ o, o = (if neg then 0x8 else 0) →
      p.unpack (o + 0) = .fin neg 0 (-1) ∧ p.unpack (o + 1) = .fin neg 1 (-1) ∧ p.unpack (o + 2) = .fin neg 2 (-1) ∧
      p.unpack (o + 3) = .fin neg 3 (-1) ∧ p.unpack (o + 4) = .fin neg 2 0 ∧ p.unpack (o + 5) = .fin neg 3 0 ∧
      p.unpack (o + 6) = .inf neg ∧ p.unpack (o + 7) = .nan false)

/-! ### The whole machine -/

/-- A step takes the command at the front of the queue and runs it on the state with the rest of the queue; on an empty queue
the block idles (log entry 6). -/
def Obligations.StepTakesTheFront : Prop :=
  (∀ (s : State) (i : Instr) (rest : List Instr), s.pending = i :: rest → step s = exec i { s with pending := rest }) ∧
  ∀ s : State, s.pending = [] → step s = .next s

/-- After a module reset the registers hold the values of their reset columns: the grid and the harps of a core (R16, R20),
every core's scratchpad size (R127), limits and clocks (R356, R362, R347, R342, R343), the residency and halt settings (R256,
R261, R416), the tests' period (R401) and the stage that runs (R373); every core is OFF and holds no command. Memory reads zeros
(log entry 15). -/
def Obligations.ResetState : Prop :=
  (∀ c : CoreIx, rd State.reset R.SPD_SIZE_BYTES c 0 = 0x200000 ∧ rd State.reset R.SPD_SIZE_ROWS c 0 = 0x1000 ∧
    (coreAt State.reset c).power = .off ∧ (coreAt State.reset c).ring = none ∧ coreUsable State.reset c = false) ∧
  (rd State.reset R.GLB_GEOMETRY_GRID_X 0 0 = 18 ∧ rd State.reset R.GLB_GEOMETRY_GRID_Y 0 0 = 16 ∧
    rd State.reset R.GLB_GEOMETRY_HARPS_PER_CORE 0 0 = 8) ∧
  (rd State.reset R.PWR_LIMIT_LIMIT_W 0 0 = 2400 ∧ rd State.reset R.PWR_LIMIT_THERM_LIMIT_C 0 0 = 95 ∧
    rd State.reset R.PWR_LIMIT_DEEP_IDLE_MS 0 0 = 10 ∧ rd State.reset R.PWR_LIMIT_CORE_SLEEP_US 0 0 = 20 ∧
    rd State.reset R.CLK_CTL_MAX_MHZ 0 0 = 1800 ∧ rdB State.reset R.CLK_STATUS_LOCKED 0 0 = false) ∧
  (∀ k : RailIx, rd State.reset R.PWR_REGION_LIM_LIM_1US k 0 = 260 ∧ rd State.reset R.PWR_REGION_LIM_LIM_10US k 0 = 240 ∧
    rd State.reset R.PWR_REGION_LIM_LIM_100US k 0 = 220 ∧ rd State.reset R.PWR_REGION_LIM_PRECHARGE_MV k 0 = 15) ∧
  (rd State.reset R.SEQ_SCHED_SLICE_US 0 0 = 2000 ∧ rd State.reset R.SEQ_SCHED_BEAT_LIMIT_US 0 0 = 1000 ∧
    rd State.reset R.RAS_HALT_CTL_LEAD_NS 0 0 = 2000 ∧ rd State.reset R.RAS_FIT_CFG_PERIOD_H 0 0 = 24) ∧
  (rd State.reset R.BOOT_STATE_STATE 0 0 = 0 ∧ rd State.reset R.BOOT_STATE_STAGE 0 0 = 0 ∧ stageRuns State.reset 0 = true) ∧
  (∀ p : PartIx, rdB State.reset R.PRT_CFG_VALID p 0 = false) ∧ (∀ l : LinkIx, linkState State.reset l = 0) ∧
  (∀ w : RingIx, (ringAt State.reset w).cmd = none ∧ ringState State.reset w = 0) ∧
  ∀ a, memByte State.reset.mem a = 0 ∧ memPoison State.reset.mem a = false

/-- The state after reset has memory in its canonical form, ring numbers below 64 where cores, save areas and held records name
a ring, and core numbers below 288 in the field log; its queue is empty. The forms are the model's own. -/
def Obligations.ResetMeetsTheInvariants : Prop :=
  State.reset.mem.wf = true ∧ RingsOk State.reset ∧ LogOk State.reset ∧ State.reset.pending = []

/-- Every step that answers a next state keeps memory in its canonical form: addresses strictly rising, nothing listed that an
unlisted address reads as. The form is the model's own; what memory holds follows R146, R211 and R222. -/
def Obligations.MemoryFormIsKept : Prop :=
  Kept (fun s => s.mem.wf = true)

/-- Every step that answers a next state keeps the rings that cores, save areas and held records name below 64 (R233, R260), and
the cores that field-log entries name below 288 (R371). -/
def Obligations.NumbersStayInRange : Prop :=
  Kept (fun s => RingsOk s ∧ LogOk s)

/-- Every command in every state answers a next state and leaves the waiting commands as they were, but a slice's read or atomic
of an address that is not in module memory, which faults (R211). -/
def Obligations.CommandsAnswer : Prop :=
  ∀ (i : Instr) (s : State),
    (∃ t, Runs i s t ∧ t.pending = s.pending) ∨
    (exec i s = .fault .absentAddress ∧
      ((∃ who pa len ecc, i = .sliceRead who pa len ecc ∧ (placeOf s pa = .absent ∨ placeOf s pa = .host)) ∨
       (∃ who pa op x y m ecc, i = .sliceAtomic who pa op x y m ecc ∧ (placeOf s pa = .absent ∨ placeOf s pa = .host))))

/-- A machine whose queue holds no slice read and no slice atomic takes any number of steps without a stop, whatever state it
starts from. -/
def Obligations.QueuesNeverStop : Prop :=
  ∀ s : State, (∀ i ∈ s.pending, (∀ who pa len ecc, i ≠ .sliceRead who pa len ecc) ∧
    ∀ who pa op x y m ecc, i ≠ .sliceAtomic who pa op x y m ecc) → NeverStops s

/-- No command takes back what has left the module, an entry of the field log (R371) or the floor-plan record (R369), none uses
a free value twice (log entry 1), and the unstepped time moves at a tick of the reference only (R437, R442), or restarts with a
module reset. -/
def Obligations.NothingGoesBack : Prop :=
  ∀ (i : Instr) (s t : State), Runs i s t → s.out <+: t.out ∧ s.flash.log <+: t.flash.log ∧ t.flash.plan = s.flash.plan ∧
    s.free ≤ t.free ∧ (t.utime = s.utime ∨ i = .tscTick ∨ t.utime = State.reset.utime)
end

