-- ==== Sys2Proof/Laws/Agree.lean ====
section
/-!
SUPPORT. Sys2Proof/Laws/Agree.lean: how statements of the form "agrees outside these parts" are put together.
-/
namespace Sys2Proof.Laws
open Sys2Proof.Machine Sys2Proof.Safety

theorem Agree.refl (L : List Part) (s : State) : AgreeOutside L s s := by
  intro p _; cases p <;> rfl

theorem Agree.sub {L m : List Part} {p : Part} (hm : (m.all (fun q => L.contains q)) = true) (h : p ∉ L) : p ∉ m := by
  intro hp
  have := List.all_eq_true.mp hm p hp
  exact h (by simpa using this)

theorem Agree.trans {L : List Part} {s t u : State} (h1 : AgreeOutside L s t) (h2 : AgreeOutside L t u) : AgreeOutside L s u := by
  intro p hp
  have a := h1 p hp
  have b := h2 p hp
  cases p <;> exact b.trans a

theorem Agree.mono {L m : List Part} {s t : State} (h : AgreeOutside m s t) (hm : (m.all (fun q => L.contains q)) = true) :
    AgreeOutside L s t := fun p hp => h p (Agree.sub hm hp)

/-- One more operation, whose own changes lie within the list. -/
theorem Agree.step {L m : List Part} {s t u : State} (h : AgreeOutside m t u) (hm : (m.all (fun q => L.contains q)) = true)
    (hs : AgreeOutside L s t) : AgreeOutside L s u := Agree.trans hs (Agree.mono h hm)

theorem Agree.foldl {α : Type} {L : List Part} {s t : State} {f : State → α → State} {l : List α}
    (hf : ∀ u x, AgreeOutside L u (f u x)) (hs : AgreeOutside L s t) : AgreeOutside L s (l.foldl f t) := by
  induction l generalizing t with
  | nil => exact hs
  | cons a l ih => exact ih (Agree.trans hs (hf t a))

theorem Agree.ite {L : List Part} {s a b : State} {c : Prop} [Decidable c] (ha : AgreeOutside L s a) (hb : AgreeOutside L s b) :
    AgreeOutside L s (if c then a else b) := by
  split
  · exact ha
  · exact hb

theorem Agree.of_fst {α : Type} {L : List Part} {s t : State} {e : State × α} {a : α} (h : AgreeOutside L s e.1) (he : e = (t, a)) :
    AgreeOutside L s t := by rw [he] at h; exact h

theorem Agree.of_snd {α : Type} {L : List Part} {s t : State} {e : α × State} {a : α} (h : AgreeOutside L s e.2) (he : e = (a, t)) :
    AgreeOutside L s t := by rw [he] at h; exact h

/-- A fold whose accumulator holds a state first. -/
theorem Agree.foldl_fst {α β : Type} {L : List Part} {s : State} {f : State × β → α → State × β} {l : List α} {a : State × β}
    (hf : ∀ u x, AgreeOutside L u.1 (f u x).1) (hs : AgreeOutside L s a.1) : AgreeOutside L s (l.foldl f a).1 := by
  induction l generalizing a with
  | nil => exact hs
  | cons x l ih => exact ih (Agree.trans hs (hf a x))

/-- A fold whose accumulator holds a state second. -/
theorem Agree.foldl_snd {α β : Type} {L : List Part} {s : State} {f : β × State → α → β × State} {l : List α} {a : β × State}
    (hf : ∀ u x, AgreeOutside L u.2 (f u x).2) (hs : AgreeOutside L s a.2) : AgreeOutside L s (l.foldl f a).2 := by
  induction l generalizing a with
  | nil => exact hs
  | cons x l ih => exact ih (Agree.trans hs (hf a x))

theorem Agree.with_spd (s : State) (v : Spd) : AgreeOutside [.spd] s { s with spd := v } := by
  intro p hp; cases p <;> first | exact absurd (by decide) hp | exact rfl

theorem Agree.with_tru (s : State) (v : Trust) : AgreeOutside [.tru] s { s with tru := v } := by
  intro p hp; cases p <;> first | exact absurd (by decide) hp | exact rfl

theorem Agree.with_ras (s : State) (v : Ras) : AgreeOutside [.ras] s { s with ras := v } := by
  intro p hp; cases p <;> first | exact absurd (by decide) hp | exact rfl

theorem Agree.with_ord (s : State) (v : Order) : AgreeOutside [.ord] s { s with ord := v } := by
  intro p hp; cases p <;> first | exact absurd (by decide) hp | exact rfl

theorem Agree.with_cut (s : State) (a : Order) (b : MemSys) (c : Kv) (d : Links) (e : Ras) :
    AgreeOutside [.ord, .ms, .kv, .lnk, .ras] s { s with ord := a, ms := b, kv := c, lnk := d, ras := e } := by
  intro p hp; cases p <;> first | exact absurd (by decide) hp | exact rfl

theorem Agree.with_ms (s : State) (v : MemSys) : AgreeOutside [.ms] s { s with ms := v } := by
  intro p hp; cases p <;> first | exact absurd (by decide) hp | exact rfl

/-- A record update of fields within the list. -/
theorem Agree.update {L : List Part} {s x : State} {mem spd regs shadow free utime out cores harps ord ms sch ras obs hst lnk kv time tru flash boot mgm pwr phy}
    (h : ∀ p, p ∉ L → p.Same x ⟨x.pending, mem, spd, regs, shadow, free, utime, out, cores, harps, ord, ms, sch, ras, obs, hst, lnk, kv, time, tru, flash, boot, mgm, pwr, phy⟩)
    (hx : AgreeOutside L s x) : AgreeOutside L s ⟨x.pending, mem, spd, regs, shadow, free, utime, out, cores, harps, ord, ms, sch, ras, obs, hst, lnk, kv, time, tru, flash, boot, mgm, pwr, phy⟩ := Agree.trans hx h

end Sys2Proof.Laws
end

