-- ==== Sys2Proof/Laws/Exec.lean ====
section
/-!
SUPPORT. Sys2Proof/Laws/Exec.lean: for each command, exec of it is its meaning.
-/
namespace Sys2Proof.Laws
open Sys2Proof.Machine

theorem exec_registerWrite (fn off size v poison s) : exec (.registerWrite fn off size v poison) s = execRegisterWrite fn off size v s poison := rfl
theorem exec_registerReadClear (fn off size s) : exec (.registerReadClear fn off size) s = execRegisterReadClear fn off size s := rfl
theorem exec_barAtomicop (fn bar off size op operand comparand s) : exec (.barAtomicop fn bar off size op operand comparand) s = execBarAtomicop fn bar off size op operand comparand s := rfl
theorem exec_bar2Read (fn off len bar4 s) : exec (.bar2Read fn off len bar4) s = execBar2Read fn off len s bar4 := rfl
theorem exec_bar2Write (fn off data poison relaxed s) : exec (.bar2Write fn off data poison relaxed) s = execBar2Write fn off data poison relaxed s := rfl
theorem exec_bar4Write (fn off data poison s) : exec (.bar4Write fn off data poison) s = execBar4Write fn off data poison s := rfl
theorem exec_configRequest (fn field write s) : exec (.configRequest fn field write) s = execConfigRequest fn field write s := rfl
theorem exec_heldAccessProceed (n s) : exec (.heldAccessProceed n) s = execHeldAccessProceed n s := rfl
theorem exec_remoteWriteDeliver (n s) : exec (.remoteWriteDeliver n) s = execRemoteWriteDeliver n s := rfl
theorem exec_packetRelease (n s) : exec (.packetRelease n) s = execPacketRelease n s := rfl
theorem exec_passIssue (c h desc s) : exec (.passIssue c h desc) s = execPassIssue c h desc s := rfl
theorem exec_passHeadCheck (c h s) : exec (.passHeadCheck c h) s = execPassHeadCheck c h s := rfl
theorem exec_setFillStart (c h s) : exec (.setFillStart c h) s = execSetFillStart c h s := rfl
theorem exec_setFillDone (c h s) : exec (.setFillDone c h) s = execSetFillDone c h s := rfl
theorem exec_harpKStep (c h frameCycle feedersReady upsets s) : exec (.harpKStep c h frameCycle feedersReady upsets) s = execHarpKStep c h frameCycle feedersReady s upsets := rfl
theorem exec_setDrainStart (c h s) : exec (.setDrainStart c h) s = execSetDrainStart c h s := rfl
theorem exec_setDrainDone (c h s) : exec (.setDrainDone c h) s = execSetDrainDone c h s := rfl
theorem exec_harpInternalError (c h s) : exec (.harpInternalError c h) s = execHarpInternalError c h s := rfl
theorem exec_commandStopped (w s) : exec (.commandStopped w) s = execCommandStopped w s := rfl
theorem exec_fiddleInstruction (c k s) : exec (.fiddleInstruction c k) s = execFiddleInstruction c k s := rfl
theorem exec_polyTableLoad (c t addr s) : exec (.polyTableLoad c t addr) s = execPolyTableLoad c t addr s := rfl
theorem exec_polyTableLoadDone (c s) : exec (.polyTableLoadDone c) s = execPolyTableLoadDone c s := rfl
theorem exec_epilogueStart (c h s) : exec (.epilogueStart c h) s = execEpilogueStart c h s := rfl
theorem exec_epilogueResultComplete (c h s) : exec (.epilogueResultComplete c h) s = execEpilogueResultComplete c h s := rfl
theorem exec_tileSend (c h t s) : exec (.tileSend c h t) s = execTileSend c h t s := rfl
theorem exec_outputStageRelease (c h s) : exec (.outputStageRelease c h) s = execOutputStageRelease c h s := rfl
theorem exec_tileCreditTimeout (c h s) : exec (.tileCreditTimeout c h) s = execTileCreditTimeout c h s := rfl
theorem exec_landingSlotArm (c slot words s) : exec (.landingSlotArm c slot words) s = execLandingSlotArm c slot words s := rfl
theorem exec_tileImageLand (n words s) : exec (.tileImageLand n words) s = execTileImageLand n s words := rfl
theorem exec_passCreditWaitEnd (c h s) : exec (.passCreditWaitEnd c h) s = execPassCreditWaitEnd c h s := rfl
theorem exec_creditArrive (n s) : exec (.creditArrive n) s = execCreditArrive n s := rfl
theorem exec_gather (c desc s) : exec (.gather c desc) s = execGather c desc s := rfl
theorem exec_gatherRowLand (c row s) : exec (.gatherRowLand c row) s = execGatherRowLand c row s := rfl
theorem exec_spdEccWriteback (c word s) : exec (.spdEccWriteback c word) s = execSpdEccWriteback c word s := rfl
theorem exec_spdClearDone (c s) : exec (.spdClearDone c) s = execSpdClearDone c s := rfl
theorem exec_sequencerLoad (c va s) : exec (.sequencerLoad c va) s = execSequencerLoad c va s := rfl
theorem exec_sequencerStore (c va data final s) : exec (.sequencerStore c va data final) s = execSequencerStore c va data final s := rfl
theorem exec_sequencerAtomic (c va op operand comparand s) : exec (.sequencerAtomic c va op operand comparand) s = execSequencerAtomic c va op operand comparand s := rfl
theorem exec_volatileRead (c va s) : exec (.volatileRead c va) s = execVolatileRead c va s := rfl
theorem exec_acquireRead (c va s) : exec (.acquireRead c va) s = execAcquireRead c va s := rfl
theorem exec_acquireInvalidateDone (c s) : exec (.acquireInvalidateDone c) s = execAcquireInvalidateDone c s := rfl
theorem exec_rangeInvalidate (c lo hi s) : exec (.rangeInvalidate c lo hi) s = execRangeInvalidate c lo hi s := rfl
theorem exec_rangeInvalidateDone (c s) : exec (.rangeInvalidateDone c) s = execRangeInvalidateDone c s := rfl
theorem exec_fence (c s) : exec (.fence c) s = execFence c s := rfl
theorem exec_fenceComplete (c s) : exec (.fenceComplete c) s = execFenceComplete c s := rfl
theorem exec_remoteLoad (c m win off len s) : exec (.remoteLoad c m win off len) s = execRemoteLoad c m win off len s := rfl
theorem exec_remoteStore (c m win off data final s) : exec (.remoteStore c m win off data final) s = execRemoteStore c m win off data final s := rfl
theorem exec_remoteAtomic (c m win off op operand comparand s) : exec (.remoteAtomic c m win off op operand comparand) s = execRemoteAtomic c m win off op operand comparand s := rfl
theorem exec_remoteCopy (c toPeer m win off va len s) : exec (.remoteCopy c toPeer m win off va len) s = execRemoteCopy c toPeer m win off va len s := rfl
theorem exec_finalWriteCoreArrive (n s) : exec (.finalWriteCoreArrive n) s = execFinalWriteCoreArrive n s := rfl
theorem exec_finalWriteRelease (n s) : exec (.finalWriteRelease n) s = execFinalWriteRelease n s := rfl
theorem exec_finalWriteResend (n s) : exec (.finalWriteResend n) s = execFinalWriteResend n s := rfl
theorem exec_finalWriteSourceRelease (n s) : exec (.finalWriteSourceRelease n) s = execFinalWriteSourceRelease n s := rfl
theorem exec_finalTimeout (n s) : exec (.finalTimeout n) s = execFinalTimeout n s := rfl
theorem exec_sliceWriteLand (n med s) : exec (.sliceWriteLand n med) s = execSliceWriteLand n s med := rfl
theorem exec_sliceRead (who pa len med s) : exec (.sliceRead who pa len med) s = execSliceRead who pa len med s := rfl
theorem exec_sliceAtomic (who pa op operand comparand operandPoison med s) : exec (.sliceAtomic who pa op operand comparand operandPoison med) s = execSliceAtomic who pa op operand comparand operandPoison s med := rfl
theorem exec_kernelBoundary (w s) : exec (.kernelBoundary w) s = execKernelBoundary w s := rfl
theorem exec_guardCommit (p s) : exec (.guardCommit p) s = execGuardCommit p s := rfl
theorem exec_guardCopyDone (p s) : exec (.guardCopyDone p) s = execGuardCopyDone p s := rfl
theorem exec_kvOpen (n s) : exec (.kvOpen n) s = execKvOpen n s := rfl
theorem exec_kvAppend (n s) : exec (.kvAppend n) s = execKvAppend n s := rfl
theorem exec_kvCommit (n s) : exec (.kvCommit n) s = execKvCommit n s := rfl
theorem exec_kvFork (n s) : exec (.kvFork n) s = execKvFork n s := rfl
theorem exec_kvTruncate (n s) : exec (.kvTruncate n) s = execKvTruncate n s := rfl
theorem exec_kvClose (n s) : exec (.kvClose n) s = execKvClose n s := rfl
theorem exec_kvPin (n s) : exec (.kvPin n) s = execKvPin n s := rfl
theorem exec_kvFetch (c desc s) : exec (.kvFetch c desc) s = execKvFetch c desc s := rfl
theorem exec_kpuJournalReplay (u s) : exec (.kpuJournalReplay u) s = execKpuJournalReplay u s := rfl
theorem exec_kpuRgnCommit (fn r s) : exec (.kpuRgnCommit fn r) s = execKpuRgnCommit fn r s := rfl
theorem exec_kpuRgnInitDone (r s) : exec (.kpuRgnInitDone r) s = execKpuRgnInitDone r s := rfl
theorem exec_kpuRgnDestroyDone (r s) : exec (.kpuRgnDestroyDone r) s = execKpuRgnDestroyDone r s := rfl
theorem exec_channelRetrainDone (k ch ok s) : exec (.channelRetrainDone k ch ok) s = execChannelRetrainDone k ch ok s := rfl
theorem exec_patrolScrubRead (med s) : exec (.patrolScrubRead med) s = execPatrolScrubRead med s := rfl
theorem exec_cchFlushStart (s) : exec (.cchFlushStart) s = execCchFlushStart s := rfl
theorem exec_cchFlushDone (s) : exec (.cchFlushDone) s = execCchFlushDone s := rfl
theorem exec_cchWayCommit (s) : exec (.cchWayCommit) s = execCchWayCommit s := rfl
theorem exec_memCommit (s) : exec (.memCommit) s = execMemCommit s := rfl
theorem exec_cxlPortDown (n cause s) : exec (.cxlPortDown n cause) s = execCxlPortDown n cause s := rfl
theorem exec_cxlPortUp (n type3 mediaReady gib rate width vendor s) : exec (.cxlPortUp n type3 mediaReady gib rate width vendor) s = execCxlPortUp n type3 mediaReady gib rate width vendor s := rfl
theorem exec_cxlPortReset (n s) : exec (.cxlPortReset n) s = execCxlPortReset n s := rfl
theorem exec_cxlEventLogRead (n events s) : exec (.cxlEventLogRead n events) s = execCxlEventLogRead n events s := rfl
theorem exec_dtuWalk (who ctx va write s) : exec (.dtuWalk who ctx va write) s = execDtuWalk who ctx va write s := rfl
theorem exec_dtuWalkDone (n s) : exec (.dtuWalkDone n) s = execDtuWalkDone n s := rfl
theorem exec_dtuInvalidate (fn v s) : exec (.dtuInvalidate fn v) s = execDtuInvalidate fn v s := rfl
theorem exec_dtuInvalidateDone (s) : exec (.dtuInvalidateDone) s = execDtuInvalidateDone s := rfl
theorem exec_dtuCtxRootWrite (p v s) : exec (.dtuCtxRootWrite p v) s = execDtuCtxRootWrite p v s := rfl
theorem exec_sarabandeWake (w s) : exec (.sarabandeWake w) s = execSarabandeWake w s := rfl
theorem exec_ringPoll (w reply s) : exec (.ringPoll w reply) s = execRingPoll w reply s := rfl
theorem exec_slotTake (w hostWords s) : exec (.slotTake w hostWords) s = execSlotTake w hostWords s := rfl
theorem exec_rqCommit (fn w s) : exec (.rqCommit fn w) s = execRqCommit fn w s := rfl
theorem exec_rqStart (w s) : exec (.rqStart w) s = execRqStart w s := rfl
theorem exec_rqStop (w s) : exec (.rqStop w) s = execRqStop w s := rfl
theorem exec_rqAbort (w s) : exec (.rqAbort w) s = execRqAbort w s := rfl
theorem exec_rqRewind (w s) : exec (.rqRewind w) s = execRqRewind w s := rfl
theorem exec_cqCommit (cq s) : exec (.cqCommit cq) s = execCqCommit cq s := rfl
theorem exec_seqSchedCommit (s) : exec (.seqSchedCommit) s = execSeqSchedCommit s := rfl
theorem exec_cmdKernel (w s) : exec (.cmdKernel w) s = execCmdKernel w s := rfl
theorem exec_cmdCopy (w s) : exec (.cmdCopy w) s = execCmdCopy w s := rfl
theorem exec_cmdKvOps (w s) : exec (.cmdKvOps w) s = execCmdKvOps w s := rfl
theorem exec_cmdNop (w s) : exec (.cmdNop w) s = execCmdNop w s := rfl
theorem exec_kernelStart (w s) : exec (.kernelStart w) s = execKernelStart w s := rfl
theorem exec_kernelBegin (w s) : exec (.kernelBegin w) s = execKernelBegin w s := rfl
theorem exec_endInstruction (c s) : exec (.endInstruction c) s = execEndInstruction c s := rfl
theorem exec_endInstructionComplete (c s) : exec (.endInstructionComplete c) s = execEndInstructionComplete c s := rfl
theorem exec_completionRecordWrite (w s) : exec (.completionRecordWrite w) s = execCompletionRecordWrite w s := rfl
theorem exec_cqControlReread (cq reply s) : exec (.cqControlReread cq reply) s = execCqControlReread cq reply s := rfl
theorem exec_msixHoldoffExpiry (cq s) : exec (.msixHoldoffExpiry cq) s = execMsixHoldoffExpiry cq s := rfl
theorem exec_msixUnmask (fn vector s) : exec (.msixUnmask fn vector) s = execMsixUnmask fn vector s := rfl
theorem exec_eventsDroppedReport (s) : exec (.eventsDroppedReport) s = execEventsDroppedReport s := rfl
theorem exec_residencyDecision (p s) : exec (.residencyDecision p) s = execResidencyDecision p s := rfl
theorem exec_beatInstruction (c s) : exec (.beatInstruction c) s = execBeatInstruction c s := rfl
theorem exec_coreStateSaveDone (c s) : exec (.coreStateSaveDone c) s = execCoreStateSaveDone c s := rfl
theorem exec_jobResume (w s) : exec (.jobResume w) s = execJobResume w s := rfl
theorem exec_beatLimitExpiry (w s) : exec (.beatLimitExpiry w) s = execBeatLimitExpiry w s := rfl
theorem exec_hintInstruction (c level us stagger s) : exec (.hintInstruction c level us stagger) s = execHintInstruction c level us stagger s := rfl
theorem exec_snapshotInstruction (c s) : exec (.snapshotInstruction c) s = execSnapshotInstruction c s := rfl
theorem exec_traceMarkInstruction (c a b s) : exec (.traceMarkInstruction c a b) s = execTraceMarkInstruction c a b s := rfl
theorem exec_kvOpInstruction (c desc s) : exec (.kvOpInstruction c desc) s = execKvOpInstruction c desc s := rfl
theorem exec_partitionCommit (p s) : exec (.partitionCommit p) s = execPartitionCommit p s := rfl
theorem exec_partitionReset (p s) : exec (.partitionReset p) s = execPartitionReset p s := rfl
theorem exec_partitionResetDone (p s) : exec (.partitionResetDone p) s = execPartitionResetDone p s := rfl
theorem exec_rangeCommit (s) : exec (.rangeCommit) s = execRangeCommit s := rfl
theorem exec_rangeClearDone (s) : exec (.rangeClearDone) s = execRangeClearDone s := rfl
theorem exec_isoCommit (s) : exec (.isoCommit) s = execIsoCommit s := rfl
theorem exec_isoApplied (s) : exec (.isoApplied) s = execIsoApplied s := rfl
theorem exec_sealImportStart (p s) : exec (.sealImportStart p) s = execSealImportStart p s := rfl
theorem exec_sealImportDone (p chunks s) : exec (.sealImportDone p chunks) s = execSealImportDone p s chunks := rfl
theorem exec_sealClearDone (p s) : exec (.sealClearDone p) s = execSealClearDone p s := rfl
theorem exec_sealUnseal (p e s) : exec (.sealUnseal p e) s = execSealUnseal p e s := rfl
theorem exec_rollbackAdvance (s) : exec (.rollbackAdvance) s = execRollbackAdvance s := rfl
theorem exec_rollbackAdvanceDone (ok s) : exec (.rollbackAdvanceDone ok) s = execRollbackAdvanceDone ok s := rfl
theorem exec_getVersion (fn s) : exec (.getVersion fn) s = execGetVersion fn s := rfl
theorem exec_getCapabilities (fn s) : exec (.getCapabilities fn) s = execGetCapabilities fn s := rfl
theorem exec_negotiateAlgorithms (fn s) : exec (.negotiateAlgorithms fn) s = execNegotiateAlgorithms fn s := rfl
theorem exec_getDigests (fn s) : exec (.getDigests fn) s = execGetDigests fn s := rfl
theorem exec_getCertificate (fn slot off len s) : exec (.getCertificate fn slot off len) s = execGetCertificate fn slot off len s := rfl
theorem exec_challenge (fn nonce s) : exec (.challenge fn nonce) s = execChallenge fn nonce s := rfl
theorem exec_getMeasurements (fn index nonce s) : exec (.getMeasurements fn index nonce) s = execGetMeasurements fn index nonce s := rfl
theorem exec_keyExchange (fn exchange s) : exec (.keyExchange fn exchange) s = execKeyExchange fn exchange s := rfl
theorem exec_finish (fn verify s) : exec (.finish fn verify) s = execFinish fn verify s := rfl
theorem exec_endSession (fn s) : exec (.endSession fn) s = execEndSession fn s := rfl
theorem exec_spdmSignatureDone (s) : exec (.spdmSignatureDone) s = execSpdmSignatureDone s := rfl
theorem exec_getTdispVersion (p s) : exec (.getTdispVersion p) s = execGetTdispVersion p s := rfl
theorem exec_getTdispCapabilities (p s) : exec (.getTdispCapabilities p) s = execGetTdispCapabilities p s := rfl
theorem exec_lockInterfaceRequest (p s) : exec (.lockInterfaceRequest p) s = execLockInterfaceRequest p s := rfl
theorem exec_getDeviceInterfaceReport (p s) : exec (.getDeviceInterfaceReport p) s = execGetDeviceInterfaceReport p s := rfl
theorem exec_getDeviceInterfaceState (p s) : exec (.getDeviceInterfaceState p) s = execGetDeviceInterfaceState p s := rfl
theorem exec_startInterfaceRequest (p s) : exec (.startInterfaceRequest p) s = execStartInterfaceRequest p s := rfl
theorem exec_stopInterfaceRequest (p s) : exec (.stopInterfaceRequest p) s = execStopInterfaceRequest p s := rfl
theorem exec_ideIntegrityFailure (stream s) : exec (.ideIntegrityFailure stream) s = execIdeIntegrityFailure stream s := rfl
theorem exec_debugAccess (p cls requester addr c data s) : exec (.debugAccess p cls requester addr c data) s = execDebugAccess p cls requester addr c data s := rfl
theorem exec_linkFrameSend (l s) : exec (.linkFrameSend l) s = execLinkFrameSend l s := rfl
theorem exec_linkFrameReceive (l f s) : exec (.linkFrameReceive l f) s = execLinkFrameReceive l f s := rfl
theorem exec_linkAckTimeout (l s) : exec (.linkAckTimeout l) s = execLinkAckTimeout l s := rfl
theorem exec_linkLoss (l cause s) : exec (.linkLoss l cause) s = execLinkLoss l cause s := rfl
theorem exec_linkLossOfSignal (l s) : exec (.linkLossOfSignal l) s = execLinkLossOfSignal l s := rfl
theorem exec_msgWrite (l s) : exec (.msgWrite l) s = execMsgWrite l s := rfl
theorem exec_msgRead (l s) : exec (.msgRead l) s = execMsgRead l s := rfl
theorem exec_msgReadData (l s) : exec (.msgReadData l) s = execMsgReadData l s := rfl
theorem exec_msgAtomic (l s) : exec (.msgAtomic l) s = execMsgAtomic l s := rfl
theorem exec_msgAtomicData (l s) : exec (.msgAtomicData l) s = execMsgAtomicData l s := rfl
theorem exec_msgWriteAck (l s) : exec (.msgWriteAck l) s = execMsgWriteAck l s := rfl
theorem exec_msgTile (l s) : exec (.msgTile l) s = execMsgTile l s := rfl
theorem exec_msgCredit (l s) : exec (.msgCredit l) s = execMsgCredit l s := rfl
theorem exec_msgRefused (l s) : exec (.msgRefused l) s = execMsgRefused l s := rfl
theorem exec_hello (l s) : exec (.hello l) s = execHello l s := rfl
theorem exec_cert (l s) : exec (.cert l) s = execCert l s := rfl
theorem exec_kem (l s) : exec (.kem l) s = execKem l s := rfl
theorem exec_confirm (l s) : exec (.confirm l) s = execConfirm l s := rfl
theorem exec_rekey (l s) : exec (.rekey l) s = execRekey l s := rfl
theorem exec_syncReq (l s) : exec (.syncReq l) s = execSyncReq l s := rfl
theorem exec_syncResp (l s) : exec (.syncResp l) s = execSyncResp l s := rfl
theorem exec_gang (l s) : exec (.gang l) s = execGang l s := rfl
theorem exec_goodbye (l s) : exec (.goodbye l) s = execGoodbye l s := rfl
theorem exec_quiesce (l s) : exec (.quiesce l) s = execQuiesce l s := rfl
theorem exec_haltNotice (l s) : exec (.haltNotice l) s = execHaltNotice l s := rfl
theorem exec_releaseNotice (l s) : exec (.releaseNotice l) s = execReleaseNotice l s := rfl
theorem exec_linkCommit (l s) : exec (.linkCommit l) s = execLinkCommit l s := rfl
theorem exec_linkRekeyRequest (l s) : exec (.linkRekeyRequest l) s = execLinkRekeyRequest l s := rfl
theorem exec_linkTrainingDone (l ok delayNs s) : exec (.linkTrainingDone l ok delayNs) s = execLinkTrainingDone l ok delayNs s := rfl
theorem exec_linkRetry (l s) : exec (.linkRetry l) s = execLinkRetry l s := rfl
theorem exec_linkQuiesceDone (l s) : exec (.linkQuiesceDone l) s = execLinkQuiesceDone l s := rfl
theorem exec_linkRemapResume (m s) : exec (.linkRemapResume m) s = execLinkRemapResume m s := rfl
theorem exec_domainCommit (s) : exec (.domainCommit) s = execDomainCommit s := rfl
theorem exec_windowCommit (s) : exec (.windowCommit) s = execWindowCommit s := rfl
theorem exec_syncExchangeTimer (s) : exec (.syncExchangeTimer) s = execSyncExchangeTimer s := rfl
theorem exec_syncHoldoverTimeout (s) : exec (.syncHoldoverTimeout) s = execSyncHoldoverTimeout s := rfl
theorem exec_lnkInjCfgWrite (l v s) : exec (.lnkInjCfgWrite l v) s = execLnkInjCfgWrite l v s := rfl
theorem exec_perstAssert (s) : exec (.perstAssert) s = execPerstAssert s := rfl
theorem exec_perstRelease (s) : exec (.perstRelease) s = execPerstRelease s := rfl
theorem exec_hotReset (s) : exec (.hotReset) s = execHotReset s := rfl
theorem exec_flrPf (s) : exec (.flrPf) s = execFlrPf s := rfl
theorem exec_flrVf (p s) : exec (.flrVf p) s = execFlrVf p s := rfl
theorem exec_mbxClaim (s) : exec (.mbxClaim) s = execMbxClaim s := rfl
theorem exec_mbxRelease (who s) : exec (.mbxRelease who) s = execMbxRelease who s := rfl
theorem exec_mbxOwnerTimeout (s) : exec (.mbxOwnerTimeout) s = execMbxOwnerTimeout s := rfl
theorem exec_getReport (who s) : exec (.getReport who) s = execGetReport who s := rfl
theorem exec_imageBegin (who s) : exec (.imageBegin who) s = execImageBegin who s := rfl
theorem exec_imageWrite (who s) : exec (.imageWrite who) s = execImageWrite who s := rfl
theorem exec_imageVerify (who s) : exec (.imageVerify who) s = execImageVerify who s := rfl
theorem exec_restart (who s) : exec (.restart who) s = execRestart who s := rfl
theorem exec_mbxOpDone (flashOk s) : exec (.mbxOpDone flashOk) s = execMbxOpDone flashOk s := rfl
theorem exec_pldmRequestUpdate (s) : exec (.pldmRequestUpdate) s = execPldmRequestUpdate s := rfl
theorem exec_pldmSensorRead (which s) : exec (.pldmSensorRead which) s = execPldmSensorRead which s := rfl
theorem exec_inputVoltageChange (centivolts s) : exec (.inputVoltageChange centivolts) s = execInputVoltageChange centivolts s := rfl
theorem exec_regulatorFault (rail code s) : exec (.regulatorFault rail code) s = execRegulatorFault rail code s := rfl
theorem exec_coreGate (c s) : exec (.coreGate c) s = execCoreGate c s := rfl
theorem exec_coreSleep (c s) : exec (.coreSleep c) s = execCoreSleep c s := rfl
theorem exec_coreOff (c s) : exec (.coreOff c) s = execCoreOff c s := rfl
theorem exec_coreWakeDone (c s) : exec (.coreWakeDone c) s = execCoreWakeDone c s := rfl
theorem exec_deepSleepEntry (s) : exec (.deepSleepEntry) s = execDeepSleepEntry s := rfl
theorem exec_deepSleepWake (cause s) : exec (.deepSleepWake cause) s = execDeepSleepWake cause s := rfl
theorem exec_deepSleepWakeDone (failing s) : exec (.deepSleepWakeDone failing) s = execDeepSleepWakeDone s failing := rfl
theorem exec_clockStepDone (s) : exec (.clockStepDone) s = execClockStepDone s := rfl
theorem exec_telemetrySample (rails inputW activity s) : exec (.telemetrySample rails inputW activity) s = execTelemetrySample rails inputW s activity := rfl
theorem exec_estimatorFit (k s) : exec (.estimatorFit k) s = execEstimatorFit k s := rfl
theorem exec_calibCompare (k s) : exec (.calibCompare k) s = execCalibCompare k s := rfl
theorem exec_telemetryLossTimeout (k s) : exec (.telemetryLossTimeout k) s = execTelemetryLossTimeout k s := rfl
theorem exec_currentWindowEval (k avg1 avg10 avg100 parts s) : exec (.currentWindowEval k avg1 avg10 avg100 parts) s = execCurrentWindowEval k avg1 avg10 avg100 s parts := rfl
theorem exec_moduleLimiterTick (avgW parts s) : exec (.moduleLimiterTick avgW parts) s = execModuleLimiterTick avgW parts s := rfl
theorem exec_hintLapse (k s) : exec (.hintLapse k) s = execHintLapse k s := rfl
theorem exec_harpGate (c h s) : exec (.harpGate c h) s = execHarpGate c h s := rfl
theorem exec_admissionSlot (k s) : exec (.admissionSlot k) s = execAdmissionSlot k s := rfl
theorem exec_thermalLimiterTick (dieC stackCs s) : exec (.thermalLimiterTick dieC stackCs) s = execThermalLimiterTick dieC stackCs s := rfl
theorem exec_thermalClamp (dieC stackC s) : exec (.thermalClamp dieC stackC) s = execThermalClamp dieC stackC s := rfl
theorem exec_thermalTrip (stack tempC s) : exec (.thermalTrip stack tempC) s = execThermalTrip stack tempC s := rfl
theorem exec_pwrCommit (s) : exec (.pwrCommit) s = execPwrCommit s := rfl
theorem exec_clkCommit (s) : exec (.clkCommit) s = execClkCommit s := rfl
theorem exec_stageAonBootRom (selfTestOk s) : exec (.stageAonBootRom selfTestOk) s = execStageAonBootRom selfTestOk s := rfl
theorem exec_stageImageVerification (s) : exec (.stageImageVerification) s = execStageImageVerification s := rfl
theorem exec_stageFloorPlanLoad (s) : exec (.stageFloorPlanLoad) s = execStageFloorPlanLoad s := rfl
theorem exec_stageClocks (locked s) : exec (.stageClocks locked) s = execStageClocks locked s := rfl
theorem exec_stageMemoryTraining (failed s) : exec (.stageMemoryTraining failed) s = execStageMemoryTraining failed s := rfl
theorem exec_stageMemoryTest (corrected badRows lostStack s) : exec (.stageMemoryTest corrected badRows lostStack) s = execStageMemoryTest corrected badRows lostStack s := rfl
theorem exec_stageCoreKnownAnswer (runs s) : exec (.stageCoreKnownAnswer runs) s = execStageCoreKnownAnswer runs s := rfl
theorem exec_stageLinkTraining (s) : exec (.stageLinkTraining) s = execStageLinkTraining s := rfl
theorem exec_stageHostFunctionReady (s) : exec (.stageHostFunctionReady) s = execStageHostFunctionReady s := rfl
theorem exec_stageOperational (s) : exec (.stageOperational) s = execStageOperational s := rfl
theorem exec_bootNextCommit (s) : exec (.bootNextCommit) s = execBootNextCommit s := rfl
theorem exec_bootNextStored (ok s) : exec (.bootNextStored ok) s = execBootNextStored ok s := rfl
theorem exec_bootResetModule (s) : exec (.bootResetModule) s = execBootResetModule s := rfl
theorem exec_bootResetCompute (s) : exec (.bootResetCompute) s = execBootResetCompute s := rfl
theorem exec_bootResetCore (c s) : exec (.bootResetCore c) s = execBootResetCore c s := rfl
theorem exec_computeResetDone (s) : exec (.computeResetDone) s = execComputeResetDone s := rfl
theorem exec_fieldTestDue (c s) : exec (.fieldTestDue c) s = execFieldTestDue c s := rfl
theorem exec_fieldTestDone (c run s) : exec (.fieldTestDone c run) s = execFieldTestDone c run s := rfl
theorem exec_rasPddCtlWrite (v s) : exec (.rasPddCtlWrite v) s = execRasPddCtlWrite v s := rfl
theorem exec_maintActivityStart (a unit sub s) : exec (.maintActivityStart a unit sub) s = execMaintActivityStart a unit sub s := rfl
theorem exec_rowRepairDone (row spareGood s) : exec (.rowRepairDone row spareGood) s = execRowRepairDone row spareGood s := rfl
theorem exec_maintOverdue (a unit sub s) : exec (.maintOverdue a unit sub) s = execMaintOverdue a unit s sub := rfl
theorem exec_fatalFault (kind s) : exec (.fatalFault kind) s = execFatalFault kind s := rfl
theorem exec_haltStart (leadNs s) : exec (.haltStart leadNs) s = execHaltStart leadNs s := rfl
theorem exec_haltCut (s) : exec (.haltCut) s = execHaltCut s := rfl
theorem exec_haltComplete (s) : exec (.haltComplete) s = execHaltComplete s := rfl
theorem exec_haltRelease (s) : exec (.haltRelease) s = execHaltRelease s := rfl
theorem exec_errorRecordFlash (seq s) : exec (.errorRecordFlash seq) s = execErrorRecordFlash seq s := rfl
theorem exec_correctedRateCheck (source unit others s) : exec (.correctedRateCheck source unit others) s = execCorrectedRateCheck source unit others s := rfl
theorem exec_cntClear (c s) : exec (.cntClear c) s = execCntClear c s := rfl
theorem exec_cntSnapTake (c s) : exec (.cntSnapTake c) s = execCntSnapTake c s := rfl
theorem exec_dbgSnapArm (parts s) : exec (.dbgSnapArm parts) s = execDbgSnapArm parts s := rfl
theorem exec_dbgSnapshot (s) : exec (.dbgSnapshot) s = execDbgSnapshot s := rfl
theorem exec_watchpointEnable (fn wp cfg s) : exec (.watchpointEnable fn wp cfg) s = execWatchpointEnable fn wp cfg s := rfl
theorem exec_traceRecordWrite (c s) : exec (.traceRecordWrite c) s = execTraceRecordWrite c s := rfl
theorem exec_tscTick (s) : exec (.tscTick) s = execTscTick s := rfl
theorem exec_ppsEdge (s) : exec (.ppsEdge) s = execPpsEdge s := rfl
theorem exec_refLock (s) : exec (.refLock) s = execRefLock s := rfl
theorem exec_timingInputChange (refIn ppsIn s) : exec (.timingInputChange refIn ppsIn) s = execTimingInputChange refIn ppsIn s := rfl
theorem exec_ppsTimeout (s) : exec (.ppsTimeout) s = execPpsTimeout s := rfl
theorem exec_tscHoldoverTimeout (s) : exec (.tscHoldoverTimeout) s = execTscHoldoverTimeout s := rfl
theorem exec_tscSet (v s) : exec (.tscSet v) s = execTscSet v s := rfl
theorem exec_tscPpsNextWrite (v s) : exec (.tscPpsNextWrite v) s = execTscPpsNextWrite v s := rfl
theorem exec_leakSensorRead (inlet outlet s) : exec (.leakSensorRead inlet outlet) s = execLeakSensorRead inlet outlet s := rfl
theorem exec_idcode (s) : exec (.idcode) s = execIdcode s := rfl
theorem exec_bypass (s) : exec (.bypass) s = execBypass s := rfl
theorem exec_samplePreload (pins s) : exec (.samplePreload pins) s = execSamplePreload pins s := rfl
theorem exec_extest (s) : exec (.extest) s = execExtest s := rfl
theorem exec_clamp (s) : exec (.clamp) s = execClamp s := rfl
theorem exec_highz (s) : exec (.highz) s = execHighz s := rfl
theorem exec_debugTransportOpen (s) : exec (.debugTransportOpen) s = execDebugTransportOpen s := rfl
theorem exec_pcieLinkUp (rate width s) : exec (.pcieLinkUp rate width) s = execPcieLinkUp rate width s := rfl
theorem exec_ideKmRequest (stream activate s) : exec (.ideKmRequest stream activate) s = execIdeKmRequest stream activate s := rfl
theorem exec_vendorResetMessage (module s) : exec (.vendorResetMessage module) s = execVendorResetMessage module s := rfl
theorem exec_vendorDefinedClaim (s) : exec (.vendorDefinedClaim) s = execVendorDefinedClaim s := rfl
theorem exec_prechargeInForce (k s) : exec (.prechargeInForce k) s = execPrechargeInForce k s := rfl
theorem exec_hostLinkReadCompletion (n reply s) : exec (.hostLinkReadCompletion n reply) s = execHostLinkReadCompletion n reply s := rfl
theorem exec_completionTimeout (n s) : exec (.completionTimeout n) s = execCompletionTimeout n s := rfl

end Sys2Proof.Laws
end

