-- ==== Sys2Proof/Laws/Keeps1.lean ====
section
/-!
SUPPORT. Sys2Proof/Laws/Keeps1.lean: for each operation, the parts of the state outside which it changes nothing
(1 of 6, in the order in which the operations use one another).
-/
namespace Sys2Proof.Laws
open Sys2Proof.Machine Sys2Proof.Safety

theorem setCore_keeps (s : State) (c : ℕ) (v : Core) : AgreeOutside [.cores] s (setCore s c v) := by
  unfold setCore
  refine Agree.update (fun p hp => by cases p <;> first | exact absurd (by decide) hp | exact rfl) ?_
  exact Agree.refl _ _

theorem onCore_keeps (s : State) (c : ℕ) (f : Core → Core) : AgreeOutside [.cores] s (onCore s c f) := by
  unfold onCore
  refine Agree.step (setCore_keeps _ _ _) rfl ?_
  exact Agree.refl _ _

theorem dropRegs_keeps (s : State) (lo : ℕ) (hi : ℕ) : AgreeOutside [.regs] s (dropRegs s lo hi) := by
  unfold dropRegs
  refine Agree.update (fun p hp => by cases p <;> first | exact absurd (by decide) hp | exact rfl) ?_
  exact Agree.refl _ _

theorem clearCounters_keeps (s : State) (c : ℕ) : AgreeOutside [.regs, .cores] s (clearCounters s c) := by
  unfold clearCounters
  refine Agree.step (onCore_keeps _ _ _) rfl ?_
  refine Agree.step (dropRegs_keeps _ _ _) rfl ?_
  exact Agree.refl _ _

theorem putBuffer_keeps (s : State) (a : ℕ) (bytes : List Byte) : AgreeOutside [.mgm] s (putBuffer s a bytes) := by
  unfold putBuffer
  dsimp only
  refine Agree.update (fun p hp => by cases p <;> first | exact absurd (by decide) hp | exact rfl) ?_
  exact Agree.refl _ _

theorem emit_keeps (s : State) (o : Out) : AgreeOutside [.out] s (emit s o) := by
  unfold emit
  refine Agree.update (fun p hp => by cases p <;> first | exact absurd (by decide) hp | exact rfl) ?_
  exact Agree.refl _ _

theorem writeBackTo_keeps (s : State) (line : ℕ) (a2 : Place) : AgreeOutside [.out] s (writeBackTo s line a2) := by
  cases a2
  · exact Agree.refl _ _
  · exact Agree.mono (emit_keeps _ _) rfl
  · exact Agree.refl _ _
  · exact Agree.refl _ _

theorem writeBack_keeps (s : State) (line : ℕ) : AgreeOutside [.out] s (writeBack s line) := by
  exact writeBackTo_keeps _ _ _

theorem setReg_keeps (s : State) (off : ℕ) (v : W64) : AgreeOutside [.regs] s (setReg s off v) := by
  unfold setReg
  refine Agree.update (fun p hp => by cases p <;> first | exact absurd (by decide) hp | exact rfl) ?_
  exact Agree.refl _ _

theorem wr_keeps (s : State) (f : Fld) (i : ℕ) (j : ℕ) (v : ℕ) : AgreeOutside [.regs] s (wr s f i j v) := by
  unfold wr
  refine Agree.step (setReg_keeps _ _ _) rfl ?_
  exact Agree.refl _ _

theorem addSat_keeps (s : State) (f : Fld) (i : ℕ) (j : ℕ) (n : ℕ) : AgreeOutside [.regs] s (addSat s f i j n) := by
  unfold addSat
  refine Agree.step (wr_keeps _ _ _ _ _) rfl ?_
  exact Agree.refl _ _

theorem wrB_keeps (s : State) (f : Fld) (i : ℕ) (j : ℕ) (b : Bool) : AgreeOutside [.regs] s (wrB s f i j b) := by
  unfold wrB
  refine Agree.step (wr_keeps _ _ _ _ _) rfl ?_
  exact Agree.refl _ _

theorem setCq_keeps (s : State) (q : ℕ) (v : Cq) : AgreeOutside [.sch] s (setCq s q v) := by
  unfold setCq
  dsimp only
  refine Agree.update (fun p hp => by cases p <;> first | exact absurd (by decide) hp | exact rfl) ?_
  exact Agree.refl _ _

theorem sendMsix_keeps (s : State) (fn : ℕ) (v : ℕ) : AgreeOutside [.out, .hst] s (sendMsix s fn v) := by
  unfold sendMsix
  dsimp only
  split
  · refine Agree.update (fun p hp => by cases p <;> first | exact absurd (by decide) hp | exact rfl) ?_
    exact Agree.refl _ _
  · refine Agree.step (emit_keeps _ _) rfl ?_
    exact Agree.refl _ _

theorem signalIrq_keeps (s : State) (q : ℕ) (qualifies : Bool) : AgreeOutside [.out, .sch, .hst] s (signalIrq s q qualifies) := by
  unfold signalIrq
  dsimp only
  split
  · exact Agree.refl _ _
  · split
    · refine Agree.step (setCq_keeps _ _ _) rfl ?_
      exact Agree.refl _ _
    · refine Agree.step (sendMsix_keeps _ _ _) rfl ?_
      refine Agree.step (setCq_keeps _ _ _) rfl ?_
      exact Agree.refl _ _

theorem writeRecord_keeps (s : State) (q : ℕ) (words : List W64) (irq : Bool) : AgreeOutside [.regs, .out, .sch, .hst] s (writeRecord s q words irq) := by
  unfold writeRecord
  dsimp only
  refine Agree.step (signalIrq_keeps _ _ _) rfl ?_
  refine Agree.step (wrB_keeps _ _ _ _ _) rfl ?_
  split
  · refine Agree.step (wr_keeps _ _ _ _ _) rfl ?_
    refine Agree.step (wr_keeps _ _ _ _ _) rfl ?_
    refine Agree.step (emit_keeps _ _) rfl ?_
    exact Agree.refl _ _
  · refine Agree.step (wr_keeps _ _ _ _ _) rfl ?_
    refine Agree.step (emit_keeps _ _) rfl ?_
    exact Agree.refl _ _

theorem holdRecord_keeps (s : State) (r : HeldRec) : AgreeOutside [.regs, .sch] s (holdRecord s r) := by
  unfold holdRecord
  dsimp only
  refine Agree.step (wr_keeps _ _ _ _ _) rfl ?_
  refine Agree.step (addSat_keeps _ _ _ _ _) rfl ?_
  refine Agree.update (fun p hp => by cases p <;> first | exact absurd (by decide) hp | exact rfl) ?_
  exact Agree.refl _ _

theorem deliver_keeps (s : State) (r : HeldRec) (t : State) (h : deliver s r = some t) : AgreeOutside [.regs, .out, .sch, .hst] s t := by
  unfold deliver at h
  split at h
  · cases h
    refine Agree.step (writeRecord_keeps _ _ _ _) rfl (Agree.refl _ _)
  · split at h
    · cases h
      refine Agree.step (holdRecord_keeps _ _) rfl (Agree.refl _ _)
    · cases h

theorem postEvent_keeps (s : State) (part : Option ℕ) (code : ℕ) (w1 : ℕ) (w2 : ℕ) (w3 : ℕ) : AgreeOutside [.regs, .out, .sch, .hst] s (postEvent s part code w1 w2 w3) := by
  unfold postEvent
  dsimp only
  split
  · refine Agree.step (addSat_keeps _ _ _ _ _) rfl ?_
    exact Agree.refl _ _
  · split
    · refine Agree.step (deliver_keeps _ _ _ (by assumption)) rfl ?_
      exact Agree.refl _ _
    · refine Agree.update (fun p hp => by cases p <;> first | exact absurd (by decide) hp | exact rfl) ?_
      refine Agree.step (addSat_keeps _ _ _ _ _) rfl ?_
      exact Agree.refl _ _

theorem evErrorRecord_keeps (s : State) (seq : ℕ) (w1 : W64) : AgreeOutside [.regs, .out, .sch, .hst] s (evErrorRecord s seq w1) := by
  unfold evErrorRecord
  refine Agree.step (postEvent_keeps _ _ _ _ _ _) rfl ?_
  exact Agree.refl _ _

theorem errRecord_keeps (s : State) (e : ErrInfo) : AgreeOutside [.regs, .out, .sch, .ras, .hst] s (errRecord s e).1 := by
  unfold errRecord
  dsimp only
  split
  · split
    · dsimp only
      refine Agree.update (fun p hp => by cases p <;> first | exact absurd (by decide) hp | exact rfl) ?_
      exact Agree.refl _ _
    · dsimp only
      refine Agree.step (evErrorRecord_keeps _ _ _) rfl ?_
      refine Agree.step (wr_keeps _ _ _ _ _) rfl ?_
      refine Agree.step (wr_keeps _ _ _ _ _) rfl ?_
      refine Agree.update (fun p hp => by cases p <;> first | exact absurd (by decide) hp | exact rfl) ?_
      exact Agree.refl _ _
  · dsimp only
    refine Agree.step (evErrorRecord_keeps _ _ _) rfl ?_
    refine Agree.step (wr_keeps _ _ _ _ _) rfl ?_
    refine Agree.step (wr_keeps _ _ _ _ _) rfl ?_
    refine Agree.update (fun p hp => by cases p <;> first | exact absurd (by decide) hp | exact rfl) ?_
    exact Agree.refl _ _

theorem logErr_keeps (s : State) (e : ErrInfo) : AgreeOutside [.regs, .out, .sch, .ras, .hst] s (logErr s e) := by
  unfold logErr
  refine Agree.step (errRecord_keeps _ _) rfl ?_
  exact Agree.refl _ _

theorem failPort_keeps (s : State) (n : ℕ) : AgreeOutside [.regs, .out, .sch, .ras, .hst] s (failPort s n) := by
  unfold failPort
  split
  · exact Agree.refl _ _
  · refine Agree.step (logErr_keeps _ _) rfl ?_
    refine Agree.step (wr_keeps _ _ _ _ _) rfl ?_
    exact Agree.refl _ _

theorem evictDown_keeps (s : State) (n : ℕ) (line : ℕ) : AgreeOutside [.mem, .regs, .out, .ms, .sch, .ras, .hst] s (evictDown s n line) := by
  unfold evictDown
  dsimp only
  split
  · exact Agree.refl _ _
  · split
    · refine Agree.update (fun p hp => by cases p <;> first | exact absurd (by decide) hp | exact rfl) ?_
      exact Agree.refl _ _
    · split
      · refine Agree.update (fun p hp => by cases p <;> first | exact absurd (by decide) hp | exact rfl) ?_
        refine Agree.step (logErr_keeps _ _) rfl ?_
        exact Agree.refl _ _
      · split
        · refine Agree.update (fun p hp => by cases p <;> first | exact absurd (by decide) hp | exact rfl) ?_
          refine Agree.step (logErr_keeps _ _) rfl ?_
          exact Agree.refl _ _
        · refine Agree.step (failPort_keeps _ _) rfl ?_
          refine Agree.update (fun p hp => by cases p <;> first | exact absurd (by decide) hp | exact rfl) ?_
          refine Agree.step (logErr_keeps _ _) rfl ?_
          exact Agree.refl _ _

theorem evict_keeps (s : State) (line : ℕ) (x : SLine) : AgreeOutside [.mem, .regs, .out, .ms, .sch, .ras, .hst] s (evict s line x) := by
  unfold evict
  dsimp only
  split
  · split
    · split
      · split
        · refine Agree.step (writeBack_keeps _ _) rfl ?_
          refine Agree.update (fun p hp => by cases p <;> first | exact absurd (by decide) hp | exact rfl) ?_
          exact Agree.refl _ _
        · refine Agree.step (evictDown_keeps _ _ _) rfl ?_
          refine Agree.update (fun p hp => by cases p <;> first | exact absurd (by decide) hp | exact rfl) ?_
          exact Agree.refl _ _
      · split
        · refine Agree.step (writeBack_keeps _ _) rfl ?_
          refine Agree.update (fun p hp => by cases p <;> first | exact absurd (by decide) hp | exact rfl) ?_
          exact Agree.refl _ _
        · refine Agree.step (evictDown_keeps _ _ _) rfl ?_
          refine Agree.update (fun p hp => by cases p <;> first | exact absurd (by decide) hp | exact rfl) ?_
          exact Agree.refl _ _
    · split
      · refine Agree.update (fun p hp => by cases p <;> first | exact absurd (by decide) hp | exact rfl) ?_
        exact Agree.refl _ _
      · refine Agree.update (fun p hp => by cases p <;> first | exact absurd (by decide) hp | exact rfl) ?_
        exact Agree.refl _ _
  · split
    · refine Agree.update (fun p hp => by cases p <;> first | exact absurd (by decide) hp | exact rfl) ?_
      exact Agree.refl _ _
    · refine Agree.update (fun p hp => by cases p <;> first | exact absurd (by decide) hp | exact rfl) ?_
      exact Agree.refl _ _

theorem allocate_keeps (s : State) (line : ℕ) (dirty : Bool) : AgreeOutside [.mem, .regs, .out, .ms, .sch, .ras, .hst] s (allocate s line dirty) := by
  unfold allocate
  dsimp only
  split
  · exact Agree.refl _ _
  · split
    · refine Agree.update (fun p hp => by cases p <;> first | exact absurd (by decide) hp | exact rfl) ?_
      exact Agree.refl _ _
    · split
      · exact Agree.refl _ _
      · refine Agree.update (fun p hp => by cases p <;> first | exact absurd (by decide) hp | exact rfl) ?_
        refine Agree.step (evict_keeps _ _ _) rfl ?_
        exact Agree.refl _ _

theorem touchLine_keeps (s : State) (line : ℕ) (isWrite : Bool) : AgreeOutside [.mem, .regs, .out, .ms, .sch, .ras, .hst] s (touchLine s line isWrite) := by
  unfold touchLine
  dsimp only
  split
  · refine Agree.update (fun p hp => by cases p <;> first | exact absurd (by decide) hp | exact rfl) ?_
    exact Agree.refl _ _
  · split
    · exact Agree.refl _ _
    · refine Agree.step (allocate_keeps _ _ _) rfl ?_
      exact Agree.refl _ _

theorem touch_keeps (s : State) (pa : ℕ) (n : ℕ) (isWrite : Bool) : AgreeOutside [.mem, .regs, .out, .ms, .sch, .ras, .hst] s (touch s pa n isWrite) := by
  unfold touch
  refine Agree.foldl (fun u x => ?_) ?_
  · refine Agree.step (touchLine_keeps _ _ _) rfl ?_
    exact Agree.refl _ _
  exact Agree.refl _ _

theorem hitRecord_keeps (s : State) (n : ℕ) (words : List W64) : AgreeOutside [.regs, .obs] s (hitRecord s n words) := by
  unfold hitRecord
  dsimp only
  split
  · exact Agree.refl _ _
  · refine Agree.step (wr_keeps _ _ _ _ _) rfl ?_
    refine Agree.update (fun p hp => by cases p <;> first | exact absurd (by decide) hp | exact rfl) ?_
    exact Agree.refl _ _

theorem setRing_keeps (s : State) (w : ℕ) (v : Ring) : AgreeOutside [.sch] s (setRing s w v) := by
  unfold setRing
  dsimp only
  refine Agree.update (fun p hp => by cases p <;> first | exact absurd (by decide) hp | exact rfl) ?_
  exact Agree.refl _ _

theorem onRing_keeps (s : State) (w : ℕ) (f : Ring → Ring) : AgreeOutside [.sch] s (onRing s w f) := by
  unfold onRing
  refine Agree.step (setRing_keeps _ _ _) rfl ?_
  exact Agree.refl _ _

theorem returnTaken_keeps (s : State) (w : ℕ) : AgreeOutside [.regs, .sch] s (returnTaken s w) := by
  unfold returnTaken
  dsimp only
  split
  · exact Agree.refl _ _
  · split
    · refine Agree.step (wr_keeps _ _ _ _ _) rfl ?_
      refine Agree.step (wr_keeps _ _ _ _ _) rfl ?_
      refine Agree.step (onRing_keeps _ _ _) rfl ?_
      exact Agree.refl _ _
    · refine Agree.step (wr_keeps _ _ _ _ _) rfl ?_
      refine Agree.step (onRing_keeps _ _ _) rfl ?_
      exact Agree.refl _ _

theorem stopRing_keeps (s : State) (w : ℕ) : AgreeOutside [.regs, .sch] s (stopRing s w) := by
  unfold stopRing
  dsimp only
  split
  · split
    · refine Agree.step (wr_keeps _ _ _ _ _) rfl ?_
      refine Agree.step (returnTaken_keeps _ _) rfl ?_
      exact Agree.refl _ _
    · refine Agree.step (wr_keeps _ _ _ _ _) rfl ?_
      refine Agree.step (wr_keeps _ _ _ _ _) rfl ?_
      refine Agree.step (returnTaken_keeps _ _) rfl ?_
      exact Agree.refl _ _
  · exact Agree.refl _ _

theorem stopRings_keeps (s : State) (p : ℕ) : AgreeOutside [.regs, .sch] s (stopRings s p) := by
  unfold stopRings
  refine Agree.foldl (fun u x => ?_) ?_
  · split
    · refine Agree.step (stopRing_keeps _ _) rfl ?_
      exact Agree.refl _ _
    · exact Agree.refl _ _
  exact Agree.refl _ _

theorem setHarp_keeps (s : State) (c : ℕ) (h : ℕ) (v : Harp) : AgreeOutside [.harps] s (setHarp s c h v) := by
  unfold setHarp
  refine Agree.update (fun p hp => by cases p <;> first | exact absurd (by decide) hp | exact rfl) ?_
  exact Agree.refl _ _

theorem onHarp_keeps (s : State) (c : ℕ) (h : ℕ) (f : Harp → Harp) : AgreeOutside [.harps] s (onHarp s c h f) := by
  unfold onHarp
  refine Agree.step (setHarp_keeps _ _ _ _) rfl ?_
  exact Agree.refl _ _

theorem abandonCore_keeps (s : State) (c : ℕ) : AgreeOutside [.harps] s (abandonCore s c) := by
  unfold abandonCore
  refine Agree.foldl (fun u x => ?_) ?_
  · refine Agree.step (onHarp_keeps _ _ _ _) rfl ?_
    exact Agree.refl _ _
  exact Agree.refl _ _

theorem stopCore_keeps (s : State) (c : ℕ) : AgreeOutside [.cores, .harps] s (stopCore s c) := by
  unfold stopCore
  refine Agree.step (onCore_keeps _ _ _) rfl ?_
  refine Agree.step (abandonCore_keeps _ _) rfl ?_
  exact Agree.refl _ _

theorem failCmd_keeps (s : State) (w : ℕ) (code : ℕ) (detail : ℕ) : AgreeOutside [.cores, .harps, .sch] s (failCmd s w code detail) := by
  unfold failCmd
  dsimp only
  split
  · exact Agree.refl _ _
  · split
    · exact Agree.refl _ _
    · refine Agree.foldl (fun u x => ?_) ?_
      · split
        · refine Agree.step (stopCore_keeps _ _) rfl ?_
          exact Agree.refl _ _
        · exact Agree.refl _ _
      refine Agree.step (setRing_keeps _ _ _) rfl ?_
      exact Agree.refl _ _

theorem watchMem_keeps (s : State) (op : ℕ) (who : Requester) (va : Option ℕ) (w : Option ℕ) (pa : ℕ) (len : ℕ) : AgreeOutside [.regs, .out, .cores, .harps, .sch, .obs, .hst] s (watchMem s op who va w pa len) := by
  unfold watchMem
  dsimp only
  split
  · exact Agree.refl _ _
  · split
    · exact Agree.refl _ _
    · split
      · refine Agree.step (stopRings_keeps _ _) rfl ?_
        refine Agree.step (failCmd_keeps _ _ _ _) rfl ?_
        split
        · refine Agree.step (postEvent_keeps _ _ _ _ _ _) rfl ?_
          refine Agree.update (fun p hp => by cases p <;> first | exact absurd (by decide) hp | exact rfl) ?_
          refine Agree.step (hitRecord_keeps _ _ _) rfl ?_
          refine Agree.foldl (fun u x => ?_) ?_
          · refine Agree.step (addSat_keeps _ _ _ _ _) rfl ?_
            exact Agree.refl _ _
          exact Agree.refl _ _
        · refine Agree.step (hitRecord_keeps _ _ _) rfl ?_
          refine Agree.foldl (fun u x => ?_) ?_
          · refine Agree.step (addSat_keeps _ _ _ _ _) rfl ?_
            exact Agree.refl _ _
          exact Agree.refl _ _
      · split
        · refine Agree.step (postEvent_keeps _ _ _ _ _ _) rfl ?_
          refine Agree.update (fun p hp => by cases p <;> first | exact absurd (by decide) hp | exact rfl) ?_
          refine Agree.step (hitRecord_keeps _ _ _) rfl ?_
          refine Agree.foldl (fun u x => ?_) ?_
          · refine Agree.step (addSat_keeps _ _ _ _ _) rfl ?_
            exact Agree.refl _ _
          exact Agree.refl _ _
        · refine Agree.step (hitRecord_keeps _ _ _) rfl ?_
          refine Agree.foldl (fun u x => ?_) ?_
          · refine Agree.step (addSat_keeps _ _ _ _ _) rfl ?_
            exact Agree.refl _ _
          exact Agree.refl _ _

theorem countUnits_keeps (s : State) (c : ℕ) (n : ℕ) (u : ℕ) (k : ℕ) : AgreeOutside [.regs, .cores] s (countUnits s c n u k) := by
  unfold countUnits
  dsimp only
  split
  · exact Agree.refl _ _
  · refine Agree.step (wr_keeps _ _ _ _ _) rfl ?_
    refine Agree.step (onCore_keeps _ _ _) rfl ?_
    exact Agree.refl _ _

theorem countPlace_keeps (s : State) (c : ℕ) (n : ℕ) (isWrite : Bool) (p : Place) : AgreeOutside [.regs, .cores] s (countPlace s c n isWrite p) := by
  unfold countPlace
  split
  · refine Agree.step (countUnits_keeps _ _ _ _ _) rfl ?_
    exact Agree.refl _ _
  · refine Agree.step (countUnits_keeps _ _ _ _ _) rfl ?_
    exact Agree.refl _ _
  · split
    · refine Agree.step (countUnits_keeps _ _ _ _ _) rfl ?_
      exact Agree.refl _ _
    · exact Agree.refl _ _
  · exact Agree.refl _ _

theorem countMem_keeps (s : State) (who : Requester) (pa : ℕ) (n : ℕ) (isWrite : Bool) : AgreeOutside [.regs, .cores] s (countMem s who pa n isWrite) := by
  unfold countMem
  split
  · exact Agree.refl _ _
  · refine Agree.step (countPlace_keeps _ _ _ _ _) rfl ?_
    exact Agree.refl _ _

theorem sliceRd_keeps (s : State) (who : Requester) (va : Option ℕ) (w : Option ℕ) (pa : ℕ) (n : ℕ) : AgreeOutside [.mem, .regs, .out, .cores, .harps, .ms, .sch, .ras, .obs, .hst] s (sliceRd s who va w pa n) := by
  unfold sliceRd
  refine Agree.step (touch_keeps _ _ _ _) rfl ?_
  refine Agree.step (watchMem_keeps _ _ _ _ _ _ _) rfl ?_
  refine Agree.step (countMem_keeps _ _ _ _ _) rfl ?_
  exact Agree.refl _ _

theorem poisonFound_keeps (s : State) (source : ℕ) (unit : ℕ) (d0 : ℕ) (pa : ℕ) : AgreeOutside [.regs, .out, .sch, .ras, .hst] s (poisonFound s source unit d0 pa) := by
  unfold poisonFound
  dsimp only
  split
  · refine Agree.step (postEvent_keeps _ _ _ _ _ _) rfl ?_
    refine Agree.step (errRecord_keeps _ _) rfl ?_
    exact Agree.refl _ _
  · refine Agree.step (errRecord_keeps _ _) rfl ?_
    exact Agree.refl _ _

theorem hostPoison_keeps (s : State) (pa : ℕ) (n : ℕ) : AgreeOutside [.regs, .out, .sch, .ras, .hst] s (hostPoison s pa n) := by
  unfold hostPoison
  split
  · refine Agree.step (poisonFound_keeps _ _ _ _ _) rfl ?_
    exact Agree.refl _ _
  · exact Agree.refl _ _

theorem hostPiece_keeps (fn : Nat) (a : State × List Byte × Bool) (at_ : Option Nat) (n : Nat) :
    AgreeOutside [.mem, .regs, .out, .cores, .harps, .ms, .sch, .ras, .obs, .hst] a.1 (hostPiece fn a at_ n).1 := by
  unfold hostPiece
  split
  · exact Agree.refl _ _
  · split
    · exact Agree.refl _ _
    · refine Agree.step (hostPoison_keeps _ _ _) rfl ?_
      exact Agree.step (sliceRd_keeps _ _ _ _ _ _) rfl (Agree.refl _ _)

theorem bar2Piece_keeps (fn : Nat) (a : State × List Byte × Bool) (pc : Nat × Nat) :
    AgreeOutside [.mem, .regs, .out, .cores, .harps, .ms, .sch, .ras, .obs, .hst] a.1 (bar2Piece fn a pc).1 := by
  exact hostPiece_keeps fn a _ _

theorem bar2ReadNow_keeps (s : State) (fn : ℕ) (off : ℕ) (len : ℕ) : AgreeOutside [.mem, .regs, .out, .cores, .harps, .ms, .sch, .ras, .obs, .hst] s (bar2ReadNow s fn off len) := by
  unfold bar2ReadNow
  refine Agree.step (emit_keeps _ _) rfl ?_
  exact Agree.foldl_fst (fun u x => bar2Piece_keeps fn u x) (Agree.refl _ _)

theorem takeFree_keeps (s : State) : AgreeOutside [.free] s (takeFree s).2 := by
  unfold takeFree
  dsimp only
  refine Agree.update (fun p hp => by cases p <;> first | exact absurd (by decide) hp | exact rfl) ?_
  exact Agree.refl _ _

theorem setGuardQueue_keeps (s : State) (p : ℕ) (q : List (List (ℕ × W64))) : AgreeOutside [.ord] s (setGuardQueue s p q) := by
  unfold setGuardQueue
  dsimp only
  refine Agree.update (fun p hp => by cases p <;> first | exact absurd (by decide) hp | exact rfl) ?_
  exact Agree.refl _ _

theorem setShadow_keeps (s : State) (off : ℕ) (v : W64) : AgreeOutside [.shadow] s (setShadow s off v) := by
  unfold setShadow
  refine Agree.update (fun p hp => by cases p <;> first | exact absurd (by decide) hp | exact rfl) ?_
  exact Agree.refl _ _

theorem resetRegs_keeps (s : State) (offs : List ℕ) : AgreeOutside [.regs, .shadow] s (resetRegs s offs) := by
  unfold resetRegs
  refine Agree.foldl (fun u x => ?_) ?_
  · refine Agree.step (setShadow_keeps _ _ _) rfl ?_
    refine Agree.step (setReg_keeps _ _ _) rfl ?_
    exact Agree.refl _ _
  exact Agree.refl _ _

theorem clearGuards_keeps (s : State) (p : ℕ) : AgreeOutside [.regs, .shadow, .cores, .ord] s (clearGuards s p) := by
  unfold clearGuards
  dsimp only
  refine Agree.foldl (fun u x => ?_) ?_
  · refine Agree.step (onCore_keeps _ _ _) rfl ?_
    exact Agree.refl _ _
  refine Agree.step (wr_keeps _ _ _ _ _) rfl ?_
  refine Agree.step (wr_keeps _ _ _ _ _) rfl ?_
  refine Agree.update (fun p hp => by cases p <;> first | exact absurd (by decide) hp | exact rfl) ?_
  refine Agree.step (setGuardQueue_keeps _ _ _) rfl ?_
  refine Agree.step (resetRegs_keeps _ _) rfl ?_
  exact Agree.refl _ _

theorem createPart_keeps (s : State) (p : ℕ) : AgreeOutside [.regs, .shadow, .free, .cores, .ord, .tru] s (createPart s p) := by
  unfold createPart
  dsimp only
  refine Agree.step (wr_keeps _ _ _ _ _) rfl ?_
  refine Agree.step (wr_keeps _ _ _ _ _) rfl ?_
  refine Agree.step (wr_keeps _ _ _ _ _) rfl ?_
  refine Agree.step (wr_keeps _ _ _ _ _) rfl ?_
  refine Agree.step (wr_keeps _ _ _ _ _) rfl ?_
  refine Agree.update (fun p hp => by cases p <;> first | exact absurd (by decide) hp | exact rfl) ?_
  refine Agree.step (clearGuards_keeps _ _) rfl ?_
  refine Agree.step (takeFree_keeps _) rfl ?_
  exact Agree.refl _ _

theorem laneSum_keeps (s : State) (xs : List FV) : AgreeOutside [.free] s (laneSum s xs).1 := by
  unfold laneSum
  dsimp only
  split
  · dsimp only
    exact Agree.refl _ _
  · dsimp only
    refine Agree.step (takeFree_keeps _) rfl ?_
    exact Agree.refl _ _

theorem bootRecord_keeps (s : State) (status : ℕ) : AgreeOutside [.regs, .free, .out, .sch, .ras, .hst] s (bootRecord s status) := by
  unfold bootRecord
  dsimp only
  refine Agree.step (logErr_keeps _ _) rfl ?_
  refine Agree.step (takeFree_keeps _) rfl ?_
  refine Agree.step (takeFree_keeps _) rfl ?_
  refine Agree.step (takeFree_keeps _) rfl ?_
  exact Agree.refl _ _

theorem poisonRecord_keeps (s : State) (w : ℕ) (pa : Option ℕ) (va : Option ℕ) : AgreeOutside [.regs, .out, .sch, .ras, .hst] s (poisonRecord s w pa va) := by
  unfold poisonRecord
  refine Agree.step (logErr_keeps _ _) rfl ?_
  exact Agree.refl _ _

theorem consumePoison_keeps (s : State) (w : ℕ) (pa : Option ℕ) (va : Option ℕ) : AgreeOutside [.regs, .out, .cores, .harps, .sch, .ras, .hst] s (consumePoison s w pa va) := by
  unfold consumePoison
  refine Agree.step (failCmd_keeps _ _ _ _) rfl ?_
  refine Agree.step (poisonRecord_keeps _ _ _ _) rfl ?_
  exact Agree.refl _ _

theorem markFrom_keeps (s : State) (n : ℕ) (g : Flight → Flight) : AgreeOutside [.ord] s (markFrom s n g) := by
  unfold markFrom
  dsimp only
  refine Agree.update (fun p hp => by cases p <;> first | exact absurd (by decide) hp | exact rfl) ?_
  exact Agree.refl _ _

theorem markCopy_keeps (s : State) (n : ℕ) (op : ℕ) : AgreeOutside [.ord, .lnk] s (markCopy s n op) := by
  unfold markCopy
  dsimp only
  refine Agree.update (fun p hp => by cases p <;> first | exact absurd (by decide) hp | exact rfl) ?_
  refine Agree.step (markFrom_keeps _ _ _) rfl ?_
  exact Agree.refl _ _

theorem numberMsg_keeps (s : State) (m : ℕ) (t : TxMsg) : AgreeOutside [.lnk] s (numberMsg s m t).1 := by
  unfold numberMsg
  dsimp only
  split
  · dsimp only
    refine Agree.update (fun p hp => by cases p <;> first | exact absurd (by decide) hp | exact rfl) ?_
    exact Agree.refl _ _
  · dsimp only
    exact Agree.refl _ _

theorem setLink_keeps (s : State) (l : ℕ) (v : LinkRt) : AgreeOutside [.lnk] s (setLink s l v) := by
  unfold setLink
  dsimp only
  refine Agree.update (fun p hp => by cases p <;> first | exact absurd (by decide) hp | exact rfl) ?_
  exact Agree.refl _ _

theorem onLink_keeps (s : State) (l : ℕ) (f : LinkRt → LinkRt) : AgreeOutside [.lnk] s (onLink s l f) := by
  unfold onLink
  refine Agree.step (setLink_keeps _ _ _) rfl ?_
  exact Agree.refl _ _

theorem enqueue_keeps (s : State) (l : ℕ) (t : TxMsg) : AgreeOutside [.lnk] s (enqueue s l t) := by
  unfold enqueue
  refine Agree.step (onLink_keeps _ _ _) rfl ?_
  exact Agree.refl _ _

theorem dropGuards_keeps (s : State) (m : ℕ) (lost : Msg) (code : ℕ) : AgreeOutside [.cores, .harps, .sch, .lnk] s (dropGuards s m lost code) := by
  unfold dropGuards
  dsimp only
  refine Agree.foldl (fun u x => ?_) ?_
  · split
    · refine Agree.step (failCmd_keeps _ _ _ _) rfl ?_
      exact Agree.refl _ _
    · exact Agree.refl _ _
  refine Agree.update (fun p hp => by cases p <;> first | exact absurd (by decide) hp | exact rfl) ?_
  refine Agree.foldl (fun u x => ?_) ?_
  · refine Agree.step (onLink_keeps _ _ _) rfl ?_
    exact Agree.refl _ _
  exact Agree.refl _ _

theorem askBreak_keeps (s : State) (m : ℕ) : AgreeOutside [.lnk] s (askBreak s m) := by
  unfold askBreak
  dsimp only
  refine Agree.update (fun p hp => by cases p <;> first | exact absurd (by decide) hp | exact rfl) ?_
  exact Agree.refl _ _

theorem loseMsg_keeps (s : State) (m : ℕ) (t : TxMsg) : AgreeOutside [.cores, .harps, .sch, .lnk] s (loseMsg s m t) := by
  unfold loseMsg
  dsimp only
  split
  · split
    · refine Agree.step (failCmd_keeps _ _ _ _) rfl ?_
      split
      · split
        · exact Agree.refl _ _
        · refine Agree.update (fun p hp => by cases p <;> first | exact absurd (by decide) hp | exact rfl) ?_
          exact Agree.refl _ _
      · refine Agree.step (dropGuards_keeps _ _ _ _) rfl ?_
        refine Agree.step (askBreak_keeps _ _) rfl ?_
        split
        · exact Agree.refl _ _
        · refine Agree.update (fun p hp => by cases p <;> first | exact absurd (by decide) hp | exact rfl) ?_
          exact Agree.refl _ _
    · split
      · split
        · exact Agree.refl _ _
        · refine Agree.update (fun p hp => by cases p <;> first | exact absurd (by decide) hp | exact rfl) ?_
          exact Agree.refl _ _
      · refine Agree.step (dropGuards_keeps _ _ _ _) rfl ?_
        refine Agree.step (askBreak_keeps _ _) rfl ?_
        split
        · exact Agree.refl _ _
        · refine Agree.update (fun p hp => by cases p <;> first | exact absurd (by decide) hp | exact rfl) ?_
          exact Agree.refl _ _
  · exact Agree.refl _ _

theorem sendPeer_keeps (s : State) (m : ℕ) (t : TxMsg) : AgreeOutside [.cores, .harps, .sch, .lnk] s (sendPeer s m t) := by
  unfold sendPeer
  dsimp only
  split
  · refine Agree.update (fun p hp => by cases p <;> first | exact absurd (by decide) hp | exact rfl) ?_
    exact Agree.refl _ _
  · split
    · refine Agree.step (enqueue_keeps _ _ _) rfl ?_
      refine Agree.step (numberMsg_keeps _ _ _) rfl ?_
      exact Agree.refl _ _
    · refine Agree.step (loseMsg_keeps _ _ _) rfl ?_
      exact Agree.refl _ _

theorem sendRequest_keeps (s : State) (c : ℕ) (m : ℕ) (kind : ℕ) (window : ℕ) (off : ℕ) (len : ℕ) (op : ℕ) (data : List Byte) (poison : Bool) (final : Bool) (va : Option ℕ) : AgreeOutside [.regs, .cores, .harps, .ord, .sch, .lnk] s (sendRequest s c m kind window off len op data poison final va) := by
  unfold sendRequest
  dsimp only
  refine Agree.step (sendPeer_keeps _ _ _) rfl ?_
  refine Agree.step (countUnits_keeps _ _ _ _ _) rfl ?_
  refine Agree.update (fun p hp => by cases p <;> first | exact absurd (by decide) hp | exact rfl) ?_
  exact Agree.refl _ _

theorem noteCorrected_keeps (s : State) (source : ℕ) (unit : ℕ) (n : ℕ) : AgreeOutside [.ras] s (noteCorrected s source unit n) := by
  unfold noteCorrected
  dsimp only
  split
  · exact Agree.refl _ _
  · refine Agree.update (fun p hp => by cases p <;> first | exact absurd (by decide) hp | exact rfl) ?_
    exact Agree.refl _ _

theorem spdFoundBad_keeps (s : State) (c : ℕ) (w : ℕ) : AgreeOutside [.spd, .regs, .out, .sch, .ras, .hst] s (spdFoundBad s c w) := by
  unfold spdFoundBad
  dsimp only
  split
  · refine Agree.step (logErr_keeps _ _) rfl ?_
    refine Agree.step (addSat_keeps _ _ _ _ _) rfl ?_
    refine Agree.update (fun p hp => by cases p <;> first | exact absurd (by decide) hp | exact rfl) ?_
    exact Agree.refl _ _
  · refine Agree.step (wr_keeps _ _ _ _ _) rfl ?_
    refine Agree.step (wr_keeps _ _ _ _ _) rfl ?_
    refine Agree.step (logErr_keeps _ _) rfl ?_
    refine Agree.step (addSat_keeps _ _ _ _ _) rfl ?_
    refine Agree.update (fun p hp => by cases p <;> first | exact absurd (by decide) hp | exact rfl) ?_
    exact Agree.refl _ _

theorem spdCheck_keeps (s : State) (c : ℕ) (ws : List ℕ) : AgreeOutside [.spd, .regs, .out, .sch, .ras, .hst] s (spdCheck s c ws) := by
  unfold spdCheck
  dsimp only
  refine Agree.foldl (fun u x => ?_) ?_
  · refine Agree.step (spdFoundBad_keeps _ _ _) rfl ?_
    exact Agree.refl _ _
  split
  · exact Agree.refl _ _
  · refine Agree.step (noteCorrected_keeps _ _ _ _) rfl ?_
    refine Agree.step (addSat_keeps _ _ _ _ _) rfl ?_
    exact Agree.refl _ _

theorem traceRec_keeps (s : State) (c : ℕ) (kind : ℕ) (harp : ℕ) (w2 : W64) (w3 : W64) : AgreeOutside [.regs, .cores] s (traceRec s c kind harp w2 w3) := by
  unfold traceRec
  split
  · split
    · refine Agree.step (onCore_keeps _ _ _) rfl ?_
      exact Agree.refl _ _
    · refine Agree.step (onCore_keeps _ _ _) rfl ?_
      refine Agree.step (addSat_keeps _ _ _ _ _) rfl ?_
      exact Agree.refl _ _
  · exact Agree.refl _ _

theorem failCore_keeps (s : State) (c : ℕ) (code : ℕ) (detail : ℕ) : AgreeOutside [.cores, .harps, .sch] s (failCore s c code detail) := by
  unfold failCore
  split
  · refine Agree.step (failCmd_keeps _ _ _ _) rfl ?_
    exact Agree.refl _ _
  · exact Agree.refl _ _

theorem spdAccess_keeps (s : State) (c : ℕ) (a : ℕ) (n : ℕ) (kind : ℕ) (isWrite : Bool) (harp : ℕ) (tag : ℕ) : AgreeOutside [.spd, .regs, .out, .cores, .harps, .sch, .ras, .obs, .hst] s (spdAccess s c a n kind isWrite harp tag) := by
  unfold spdAccess
  dsimp only
  split
  · split
    · exact Agree.refl _ _
    · refine Agree.step (spdCheck_keeps _ _ _) rfl ?_
      exact Agree.refl _ _
  · split
    · split
      · split
        · split
          · split
            · refine Agree.step (stopRings_keeps _ _) rfl ?_
              refine Agree.step (failCore_keeps _ _ _ _) rfl ?_
              refine Agree.step (postEvent_keeps _ _ _ _ _ _) rfl ?_
              refine Agree.update (fun p hp => by cases p <;> first | exact absurd (by decide) hp | exact rfl) ?_
              refine Agree.step (traceRec_keeps _ _ _ _ _ _) rfl ?_
              refine Agree.foldl (fun u x => ?_) ?_
              · refine Agree.step (addSat_keeps _ _ _ _ _) rfl ?_
                exact Agree.refl _ _
              exact Agree.refl _ _
            · refine Agree.step (failCore_keeps _ _ _ _) rfl ?_
              refine Agree.step (postEvent_keeps _ _ _ _ _ _) rfl ?_
              refine Agree.update (fun p hp => by cases p <;> first | exact absurd (by decide) hp | exact rfl) ?_
              refine Agree.step (traceRec_keeps _ _ _ _ _ _) rfl ?_
              refine Agree.foldl (fun u x => ?_) ?_
              · refine Agree.step (addSat_keeps _ _ _ _ _) rfl ?_
                exact Agree.refl _ _
              exact Agree.refl _ _
          · refine Agree.step (postEvent_keeps _ _ _ _ _ _) rfl ?_
            refine Agree.update (fun p hp => by cases p <;> first | exact absurd (by decide) hp | exact rfl) ?_
            refine Agree.step (traceRec_keeps _ _ _ _ _ _) rfl ?_
            refine Agree.foldl (fun u x => ?_) ?_
            · refine Agree.step (addSat_keeps _ _ _ _ _) rfl ?_
              exact Agree.refl _ _
            exact Agree.refl _ _
        · split
          · split
            · refine Agree.step (stopRings_keeps _ _) rfl ?_
              refine Agree.step (failCore_keeps _ _ _ _) rfl ?_
              refine Agree.step (traceRec_keeps _ _ _ _ _ _) rfl ?_
              refine Agree.foldl (fun u x => ?_) ?_
              · refine Agree.step (addSat_keeps _ _ _ _ _) rfl ?_
                exact Agree.refl _ _
              exact Agree.refl _ _
            · refine Agree.step (failCore_keeps _ _ _ _) rfl ?_
              refine Agree.step (traceRec_keeps _ _ _ _ _ _) rfl ?_
              refine Agree.foldl (fun u x => ?_) ?_
              · refine Agree.step (addSat_keeps _ _ _ _ _) rfl ?_
                exact Agree.refl _ _
              exact Agree.refl _ _
          · refine Agree.step (traceRec_keeps _ _ _ _ _ _) rfl ?_
            refine Agree.foldl (fun u x => ?_) ?_
            · refine Agree.step (addSat_keeps _ _ _ _ _) rfl ?_
              exact Agree.refl _ _
            exact Agree.refl _ _
      · split
        · split
          · split
            · refine Agree.step (stopRings_keeps _ _) rfl ?_
              refine Agree.step (failCore_keeps _ _ _ _) rfl ?_
              refine Agree.step (postEvent_keeps _ _ _ _ _ _) rfl ?_
              refine Agree.update (fun p hp => by cases p <;> first | exact absurd (by decide) hp | exact rfl) ?_
              refine Agree.step (traceRec_keeps _ _ _ _ _ _) rfl ?_
              refine Agree.step (wr_keeps _ _ _ _ _) rfl ?_
              refine Agree.step (wr_keeps _ _ _ _ _) rfl ?_
              refine Agree.step (wr_keeps _ _ _ _ _) rfl ?_
              refine Agree.step (wrB_keeps _ _ _ _ _) rfl ?_
              refine Agree.step (wr_keeps _ _ _ _ _) rfl ?_
              refine Agree.step (wr_keeps _ _ _ _ _) rfl ?_
              refine Agree.step (wr_keeps _ _ _ _ _) rfl ?_
              refine Agree.foldl (fun u x => ?_) ?_
              · refine Agree.step (addSat_keeps _ _ _ _ _) rfl ?_
                exact Agree.refl _ _
              exact Agree.refl _ _
            · refine Agree.step (failCore_keeps _ _ _ _) rfl ?_
              refine Agree.step (postEvent_keeps _ _ _ _ _ _) rfl ?_
              refine Agree.update (fun p hp => by cases p <;> first | exact absurd (by decide) hp | exact rfl) ?_
              refine Agree.step (traceRec_keeps _ _ _ _ _ _) rfl ?_
              refine Agree.step (wr_keeps _ _ _ _ _) rfl ?_
              refine Agree.step (wr_keeps _ _ _ _ _) rfl ?_
              refine Agree.step (wr_keeps _ _ _ _ _) rfl ?_
              refine Agree.step (wrB_keeps _ _ _ _ _) rfl ?_
              refine Agree.step (wr_keeps _ _ _ _ _) rfl ?_
              refine Agree.step (wr_keeps _ _ _ _ _) rfl ?_
              refine Agree.step (wr_keeps _ _ _ _ _) rfl ?_
              refine Agree.foldl (fun u x => ?_) ?_
              · refine Agree.step (addSat_keeps _ _ _ _ _) rfl ?_
                exact Agree.refl _ _
              exact Agree.refl _ _
          · refine Agree.step (postEvent_keeps _ _ _ _ _ _) rfl ?_
            refine Agree.update (fun p hp => by cases p <;> first | exact absurd (by decide) hp | exact rfl) ?_
            refine Agree.step (traceRec_keeps _ _ _ _ _ _) rfl ?_
            refine Agree.step (wr_keeps _ _ _ _ _) rfl ?_
            refine Agree.step (wr_keeps _ _ _ _ _) rfl ?_
            refine Agree.step (wr_keeps _ _ _ _ _) rfl ?_
            refine Agree.step (wrB_keeps _ _ _ _ _) rfl ?_
            refine Agree.step (wr_keeps _ _ _ _ _) rfl ?_
            refine Agree.step (wr_keeps _ _ _ _ _) rfl ?_
            refine Agree.step (wr_keeps _ _ _ _ _) rfl ?_
            refine Agree.foldl (fun u x => ?_) ?_
            · refine Agree.step (addSat_keeps _ _ _ _ _) rfl ?_
              exact Agree.refl _ _
            exact Agree.refl _ _
        · split
          · split
            · refine Agree.step (stopRings_keeps _ _) rfl ?_
              refine Agree.step (failCore_keeps _ _ _ _) rfl ?_
              refine Agree.step (traceRec_keeps _ _ _ _ _ _) rfl ?_
              refine Agree.step (wr_keeps _ _ _ _ _) rfl ?_
              refine Agree.step (wr_keeps _ _ _ _ _) rfl ?_
              refine Agree.step (wr_keeps _ _ _ _ _) rfl ?_
              refine Agree.step (wrB_keeps _ _ _ _ _) rfl ?_
              refine Agree.step (wr_keeps _ _ _ _ _) rfl ?_
              refine Agree.step (wr_keeps _ _ _ _ _) rfl ?_
              refine Agree.step (wr_keeps _ _ _ _ _) rfl ?_
              refine Agree.foldl (fun u x => ?_) ?_
              · refine Agree.step (addSat_keeps _ _ _ _ _) rfl ?_
                exact Agree.refl _ _
              exact Agree.refl _ _
            · refine Agree.step (failCore_keeps _ _ _ _) rfl ?_
              refine Agree.step (traceRec_keeps _ _ _ _ _ _) rfl ?_
              refine Agree.step (wr_keeps _ _ _ _ _) rfl ?_
              refine Agree.step (wr_keeps _ _ _ _ _) rfl ?_
              refine Agree.step (wr_keeps _ _ _ _ _) rfl ?_
              refine Agree.step (wrB_keeps _ _ _ _ _) rfl ?_
              refine Agree.step (wr_keeps _ _ _ _ _) rfl ?_
              refine Agree.step (wr_keeps _ _ _ _ _) rfl ?_
              refine Agree.step (wr_keeps _ _ _ _ _) rfl ?_
              refine Agree.foldl (fun u x => ?_) ?_
              · refine Agree.step (addSat_keeps _ _ _ _ _) rfl ?_
                exact Agree.refl _ _
              exact Agree.refl _ _
          · refine Agree.step (traceRec_keeps _ _ _ _ _ _) rfl ?_
            refine Agree.step (wr_keeps _ _ _ _ _) rfl ?_
            refine Agree.step (wr_keeps _ _ _ _ _) rfl ?_
            refine Agree.step (wr_keeps _ _ _ _ _) rfl ?_
            refine Agree.step (wrB_keeps _ _ _ _ _) rfl ?_
            refine Agree.step (wr_keeps _ _ _ _ _) rfl ?_
            refine Agree.step (wr_keeps _ _ _ _ _) rfl ?_
            refine Agree.step (wr_keeps _ _ _ _ _) rfl ?_
            refine Agree.foldl (fun u x => ?_) ?_
            · refine Agree.step (addSat_keeps _ _ _ _ _) rfl ?_
              exact Agree.refl _ _
            exact Agree.refl _ _
    · split
      · split
        · split
          · split
            · refine Agree.step (stopRings_keeps _ _) rfl ?_
              refine Agree.step (failCore_keeps _ _ _ _) rfl ?_
              refine Agree.step (postEvent_keeps _ _ _ _ _ _) rfl ?_
              refine Agree.update (fun p hp => by cases p <;> first | exact absurd (by decide) hp | exact rfl) ?_
              refine Agree.step (traceRec_keeps _ _ _ _ _ _) rfl ?_
              refine Agree.foldl (fun u x => ?_) ?_
              · refine Agree.step (addSat_keeps _ _ _ _ _) rfl ?_
                exact Agree.refl _ _
              refine Agree.step (spdCheck_keeps _ _ _) rfl ?_
              exact Agree.refl _ _
            · refine Agree.step (failCore_keeps _ _ _ _) rfl ?_
              refine Agree.step (postEvent_keeps _ _ _ _ _ _) rfl ?_
              refine Agree.update (fun p hp => by cases p <;> first | exact absurd (by decide) hp | exact rfl) ?_
              refine Agree.step (traceRec_keeps _ _ _ _ _ _) rfl ?_
              refine Agree.foldl (fun u x => ?_) ?_
              · refine Agree.step (addSat_keeps _ _ _ _ _) rfl ?_
                exact Agree.refl _ _
              refine Agree.step (spdCheck_keeps _ _ _) rfl ?_
              exact Agree.refl _ _
          · refine Agree.step (postEvent_keeps _ _ _ _ _ _) rfl ?_
            refine Agree.update (fun p hp => by cases p <;> first | exact absurd (by decide) hp | exact rfl) ?_
            refine Agree.step (traceRec_keeps _ _ _ _ _ _) rfl ?_
            refine Agree.foldl (fun u x => ?_) ?_
            · refine Agree.step (addSat_keeps _ _ _ _ _) rfl ?_
              exact Agree.refl _ _
            refine Agree.step (spdCheck_keeps _ _ _) rfl ?_
            exact Agree.refl _ _
        · split
          · split
            · refine Agree.step (stopRings_keeps _ _) rfl ?_
              refine Agree.step (failCore_keeps _ _ _ _) rfl ?_
              refine Agree.step (traceRec_keeps _ _ _ _ _ _) rfl ?_
              refine Agree.foldl (fun u x => ?_) ?_
              · refine Agree.step (addSat_keeps _ _ _ _ _) rfl ?_
                exact Agree.refl _ _
              refine Agree.step (spdCheck_keeps _ _ _) rfl ?_
              exact Agree.refl _ _
            · refine Agree.step (failCore_keeps _ _ _ _) rfl ?_
              refine Agree.step (traceRec_keeps _ _ _ _ _ _) rfl ?_
              refine Agree.foldl (fun u x => ?_) ?_
              · refine Agree.step (addSat_keeps _ _ _ _ _) rfl ?_
                exact Agree.refl _ _
              refine Agree.step (spdCheck_keeps _ _ _) rfl ?_
              exact Agree.refl _ _
          · refine Agree.step (traceRec_keeps _ _ _ _ _ _) rfl ?_
            refine Agree.foldl (fun u x => ?_) ?_
            · refine Agree.step (addSat_keeps _ _ _ _ _) rfl ?_
              exact Agree.refl _ _
            refine Agree.step (spdCheck_keeps _ _ _) rfl ?_
            exact Agree.refl _ _
      · split
        · split
          · split
            · refine Agree.step (stopRings_keeps _ _) rfl ?_
              refine Agree.step (failCore_keeps _ _ _ _) rfl ?_
              refine Agree.step (postEvent_keeps _ _ _ _ _ _) rfl ?_
              refine Agree.update (fun p hp => by cases p <;> first | exact absurd (by decide) hp | exact rfl) ?_
              refine Agree.step (traceRec_keeps _ _ _ _ _ _) rfl ?_
              refine Agree.step (wr_keeps _ _ _ _ _) rfl ?_
              refine Agree.step (wr_keeps _ _ _ _ _) rfl ?_
              refine Agree.step (wr_keeps _ _ _ _ _) rfl ?_
              refine Agree.step (wrB_keeps _ _ _ _ _) rfl ?_
              refine Agree.step (wr_keeps _ _ _ _ _) rfl ?_
              refine Agree.step (wr_keeps _ _ _ _ _) rfl ?_
              refine Agree.step (wr_keeps _ _ _ _ _) rfl ?_
              refine Agree.foldl (fun u x => ?_) ?_
              · refine Agree.step (addSat_keeps _ _ _ _ _) rfl ?_
                exact Agree.refl _ _
              refine Agree.step (spdCheck_keeps _ _ _) rfl ?_
              exact Agree.refl _ _
            · refine Agree.step (failCore_keeps _ _ _ _) rfl ?_
              refine Agree.step (postEvent_keeps _ _ _ _ _ _) rfl ?_
              refine Agree.update (fun p hp => by cases p <;> first | exact absurd (by decide) hp | exact rfl) ?_
              refine Agree.step (traceRec_keeps _ _ _ _ _ _) rfl ?_
              refine Agree.step (wr_keeps _ _ _ _ _) rfl ?_
              refine Agree.step (wr_keeps _ _ _ _ _) rfl ?_
              refine Agree.step (wr_keeps _ _ _ _ _) rfl ?_
              refine Agree.step (wrB_keeps _ _ _ _ _) rfl ?_
              refine Agree.step (wr_keeps _ _ _ _ _) rfl ?_
              refine Agree.step (wr_keeps _ _ _ _ _) rfl ?_
              refine Agree.step (wr_keeps _ _ _ _ _) rfl ?_
              refine Agree.foldl (fun u x => ?_) ?_
              · refine Agree.step (addSat_keeps _ _ _ _ _) rfl ?_
                exact Agree.refl _ _
              refine Agree.step (spdCheck_keeps _ _ _) rfl ?_
              exact Agree.refl _ _
          · refine Agree.step (postEvent_keeps _ _ _ _ _ _) rfl ?_
            refine Agree.update (fun p hp => by cases p <;> first | exact absurd (by decide) hp | exact rfl) ?_
            refine Agree.step (traceRec_keeps _ _ _ _ _ _) rfl ?_
            refine Agree.step (wr_keeps _ _ _ _ _) rfl ?_
            refine Agree.step (wr_keeps _ _ _ _ _) rfl ?_
            refine Agree.step (wr_keeps _ _ _ _ _) rfl ?_
            refine Agree.step (wrB_keeps _ _ _ _ _) rfl ?_
            refine Agree.step (wr_keeps _ _ _ _ _) rfl ?_
            refine Agree.step (wr_keeps _ _ _ _ _) rfl ?_
            refine Agree.step (wr_keeps _ _ _ _ _) rfl ?_
            refine Agree.foldl (fun u x => ?_) ?_
            · refine Agree.step (addSat_keeps _ _ _ _ _) rfl ?_
              exact Agree.refl _ _
            refine Agree.step (spdCheck_keeps _ _ _) rfl ?_
            exact Agree.refl _ _
        · split
          · split
            · refine Agree.step (stopRings_keeps _ _) rfl ?_
              refine Agree.step (failCore_keeps _ _ _ _) rfl ?_
              refine Agree.step (traceRec_keeps _ _ _ _ _ _) rfl ?_
              refine Agree.step (wr_keeps _ _ _ _ _) rfl ?_
              refine Agree.step (wr_keeps _ _ _ _ _) rfl ?_
              refine Agree.step (wr_keeps _ _ _ _ _) rfl ?_
              refine Agree.step (wrB_keeps _ _ _ _ _) rfl ?_
              refine Agree.step (wr_keeps _ _ _ _ _) rfl ?_
              refine Agree.step (wr_keeps _ _ _ _ _) rfl ?_
              refine Agree.step (wr_keeps _ _ _ _ _) rfl ?_
              refine Agree.foldl (fun u x => ?_) ?_
              · refine Agree.step (addSat_keeps _ _ _ _ _) rfl ?_
                exact Agree.refl _ _
              refine Agree.step (spdCheck_keeps _ _ _) rfl ?_
              exact Agree.refl _ _
            · refine Agree.step (failCore_keeps _ _ _ _) rfl ?_
              refine Agree.step (traceRec_keeps _ _ _ _ _ _) rfl ?_
              refine Agree.step (wr_keeps _ _ _ _ _) rfl ?_
              refine Agree.step (wr_keeps _ _ _ _ _) rfl ?_
              refine Agree.step (wr_keeps _ _ _ _ _) rfl ?_
              refine Agree.step (wrB_keeps _ _ _ _ _) rfl ?_
              refine Agree.step (wr_keeps _ _ _ _ _) rfl ?_
              refine Agree.step (wr_keeps _ _ _ _ _) rfl ?_
              refine Agree.step (wr_keeps _ _ _ _ _) rfl ?_
              refine Agree.foldl (fun u x => ?_) ?_
              · refine Agree.step (addSat_keeps _ _ _ _ _) rfl ?_
                exact Agree.refl _ _
              refine Agree.step (spdCheck_keeps _ _ _) rfl ?_
              exact Agree.refl _ _
          · refine Agree.step (traceRec_keeps _ _ _ _ _ _) rfl ?_
            refine Agree.step (wr_keeps _ _ _ _ _) rfl ?_
            refine Agree.step (wr_keeps _ _ _ _ _) rfl ?_
            refine Agree.step (wr_keeps _ _ _ _ _) rfl ?_
            refine Agree.step (wrB_keeps _ _ _ _ _) rfl ?_
            refine Agree.step (wr_keeps _ _ _ _ _) rfl ?_
            refine Agree.step (wr_keeps _ _ _ _ _) rfl ?_
            refine Agree.step (wr_keeps _ _ _ _ _) rfl ?_
            refine Agree.foldl (fun u x => ?_) ?_
            · refine Agree.step (addSat_keeps _ _ _ _ _) rfl ?_
              exact Agree.refl _ _
            refine Agree.step (spdCheck_keeps _ _ _) rfl ?_
            exact Agree.refl _ _

end Sys2Proof.Laws
end

