-- ==== Sys2Proof/Laws/Keeps2.lean ====
section
/-!
SUPPORT. Sys2Proof/Laws/Keeps2.lean: for each operation, the parts of the state outside which it changes nothing
(2 of 6, in the order in which the operations use one another).
-/
namespace Sys2Proof.Laws
open Sys2Proof.Machine Sys2Proof.Safety

theorem putSpd_keeps (s : State) (c : ℕ) (a : ℕ) (data : List Byte) (bad : Bool) : AgreeOutside [.spd, .regs, .out, .sch, .ras, .hst] s (putSpd s c a data bad) := by
  unfold putSpd
  dsimp only
  refine Agree.update (fun p hp => by cases p <;> first | exact absurd (by decide) hp | exact rfl) ?_
  refine Agree.step (spdCheck_keeps _ _ _) rfl ?_
  exact Agree.refl _ _

theorem spdStore_keeps (s : State) (c : ℕ) (a : ℕ) (kind : ℕ) (harp : ℕ) (tag : ℕ) (data : List Byte) (bad : Bool) : AgreeOutside [.spd, .regs, .out, .cores, .harps, .sch, .ras, .obs, .hst] s (spdStore s c a kind harp tag data bad) := by
  unfold spdStore
  dsimp only
  split
  · refine Agree.step (putSpd_keeps _ _ _ _ _) rfl ?_
    refine Agree.step (putSpd_keeps _ _ _ _ _) rfl ?_
    refine Agree.step (countUnits_keeps _ _ _ _ _) rfl ?_
    refine Agree.step (spdAccess_keeps _ _ _ _ _ _ _ _) rfl ?_
    exact Agree.refl _ _
  · refine Agree.step (putSpd_keeps _ _ _ _ _) rfl ?_
    refine Agree.step (countUnits_keeps _ _ _ _ _) rfl ?_
    refine Agree.step (spdAccess_keeps _ _ _ _ _ _ _ _) rfl ?_
    exact Agree.refl _ _

theorem storeMoved_keeps (s : State) (c : ℕ) (kind : ℕ) (bytes : List Byte) (poison : ℕ → Bool) (g : ℕ → ℕ) (seg : ℕ → ℕ) : AgreeOutside [.spd, .regs, .out, .cores, .harps, .sch, .ras, .obs, .hst] s (storeMoved s c kind bytes poison g seg) := by
  unfold storeMoved
  dsimp only
  refine Agree.foldl (fun u x => ?_) ?_
  · split
    · refine Agree.step (putSpd_keeps _ _ _ _ _) rfl ?_
      exact Agree.refl _ _
    · exact Agree.refl _ _
  refine Agree.foldl_fst (fun u x => ?_) ?_
  · split
    · exact Agree.refl _ _
    · dsimp only
      refine Agree.step (spdStore_keeps _ _ _ _ _ _ _ _) rfl ?_
      exact Agree.refl _ _
  dsimp only
  exact Agree.refl _ _

theorem issue_keeps (s : State) (f : Flight) : AgreeOutside [.out, .cores, .harps, .ord, .sch] s (issue s f) := by
  unfold issue
  dsimp only
  split
  · split
    · refine Agree.step (emit_keeps _ _) rfl ?_
      refine Agree.update (fun p hp => by cases p <;> first | exact absurd (by decide) hp | exact rfl) ?_
      exact Agree.refl _ _
    · split
      · refine Agree.step (failCmd_keeps _ _ _ _) rfl ?_
        refine Agree.update (fun p hp => by cases p <;> first | exact absurd (by decide) hp | exact rfl) ?_
        exact Agree.refl _ _
      · refine Agree.update (fun p hp => by cases p <;> first | exact absurd (by decide) hp | exact rfl) ?_
        exact Agree.refl _ _
  · refine Agree.update (fun p hp => by cases p <;> first | exact absurd (by decide) hp | exact rfl) ?_
    exact Agree.refl _ _

theorem keepXlat_keeps (s : State) (x : Xlat) : AgreeOutside [.ms] s (keepXlat s x) := by
  unfold keepXlat
  dsimp only
  refine Agree.update (fun p hp => by cases p <;> first | exact absurd (by decide) hp | exact rfl) ?_
  exact Agree.refl _ _

theorem keepOwn_keeps (s : State) (who : Option ℕ) (x : Xlat) : AgreeOutside [.ms] s (keepOwn s who x) := by
  unfold keepOwn
  split
  · refine Agree.step (keepXlat_keeps _ _) rfl ?_
    exact Agree.refl _ _
  · exact Agree.refl _ _

theorem learn_keeps (s : State) (who : Option ℕ) (p : ℕ) (va : ℕ) (write : Bool) (hostOk : Bool) (w : Option ℕ) : AgreeOutside [.mem, .regs, .out, .cores, .harps, .ms, .sch, .ras, .obs, .hst] s (learn s who p va write hostOk w) := by
  unfold learn
  dsimp only
  split
  · split
    · exact Agree.refl _ _
    · refine Agree.step (keepOwn_keeps _ _ _) rfl ?_
      exact Agree.refl _ _
  · split
    · refine Agree.step (keepOwn_keeps _ _ _) rfl ?_
      refine Agree.step (keepXlat_keeps _ _) rfl ?_
      refine Agree.foldl (fun u x => ?_) ?_
      · refine Agree.step (sliceRd_keeps _ _ _ _ _ _) rfl ?_
        exact Agree.refl _ _
      exact Agree.refl _ _
    · refine Agree.foldl (fun u x => ?_) ?_
      · refine Agree.step (sliceRd_keeps _ _ _ _ _ _) rfl ?_
        exact Agree.refl _ _
      exact Agree.refl _ _

theorem learnRange_keeps (s : State) (who : Option ℕ) (p : ℕ) (va : ℕ) (n : ℕ) (write : Bool) (hostOk : Bool) (w : Option ℕ) : AgreeOutside [.mem, .regs, .out, .cores, .harps, .ms, .sch, .ras, .obs, .hst] s (learnRange s who p va n write hostOk w) := by
  unfold learnRange
  refine Agree.foldl (fun u x => ?_) ?_
  · refine Agree.step (learn_keeps _ _ _ _ _ _ _) rfl ?_
    exact Agree.refl _ _
  exact Agree.refl _ _

theorem dtuFault_keeps (s : State) (p : ℕ) (va : ℕ) (write : Bool) (core : Option ℕ) (e : XFault) : AgreeOutside [.regs] s (dtuFault s p va write core e) := by
  unfold dtuFault
  dsimp only
  split
  · exact Agree.refl _ _
  · refine Agree.step (wr_keeps _ _ _ _ _) rfl ?_
    refine Agree.step (wrB_keeps _ _ _ _ _) rfl ?_
    refine Agree.step (wr_keeps _ _ _ _ _) rfl ?_
    refine Agree.step (wrB_keeps _ _ _ _ _) rfl ?_
    refine Agree.step (wr_keeps _ _ _ _ _) rfl ?_
    refine Agree.step (wr_keeps _ _ _ _ _) rfl ?_
    refine Agree.step (wr_keeps _ _ _ _ _) rfl ?_
    refine Agree.step (wr_keeps _ _ _ _ _) rfl ?_
    exact Agree.refl _ _

theorem xlateFail_keeps (s : State) (w : ℕ) (p : ℕ) (va : ℕ) (write : Bool) (core : Option ℕ) (e : XFault) : AgreeOutside [.regs, .out, .cores, .harps, .sch, .ras, .hst] s (xlateFail s w p va write core e) := by
  unfold xlateFail
  dsimp only
  split
  · refine Agree.step (consumePoison_keeps _ _ _ _) rfl ?_
    refine Agree.step (dtuFault_keeps _ _ _ _ _ _) rfl ?_
    exact Agree.refl _ _
  · refine Agree.step (failCmd_keeps _ _ _ _) rfl ?_
    refine Agree.step (dtuFault_keeps _ _ _ _ _ _) rfl ?_
    exact Agree.refl _ _

theorem issueVirtual_keeps (s : State) (src : Src) (w : ℕ) (p : ℕ) (va : ℕ) (data : List Byte) (poison : Bool) (final : Bool) (core : Option ℕ) : AgreeOutside [.mem, .regs, .out, .cores, .harps, .ord, .ms, .sch, .ras, .obs, .hst] s (issueVirtual s src w p va data poison final core) := by
  unfold issueVirtual
  dsimp only
  split
  · refine Agree.step (xlateFail_keeps _ _ _ _ _ _ _) rfl ?_
    refine Agree.step (learnRange_keeps _ _ _ _ _ _ _ _) rfl ?_
    exact Agree.refl _ _
  · refine Agree.foldl_fst (fun u x => ?_) ?_
    · dsimp only
      refine Agree.step (issue_keeps _ _) rfl ?_
      exact Agree.refl _ _
    dsimp only
    refine Agree.step (learnRange_keeps _ _ _ _ _ _ _ _) rfl ?_
    exact Agree.refl _ _

theorem moveIn_keeps (s : State) (r : HostRead) (bytes : List Byte) (bad : Bool) : AgreeOutside [.mem, .spd, .regs, .out, .cores, .harps, .ord, .ms, .sch, .ras, .obs, .hst, .lnk] s (moveIn s r bytes bad) := by
  unfold moveIn
  dsimp only
  split
  · refine Agree.step (sendRequest_keeps _ _ _ _ _ _ _ _ _ _ _ _) rfl ?_
    exact Agree.refl _ _
  · split
    · refine Agree.step (storeMoved_keeps _ _ _ _ _ _ _) rfl ?_
      exact Agree.refl _ _
    · refine Agree.foldl (fun u x => ?_) ?_
      · refine Agree.step (issue_keeps _ _) rfl ?_
        exact Agree.refl _ _
      exact Agree.refl _ _
  · refine Agree.foldl (fun u x => ?_) ?_
    · refine Agree.step (issueVirtual_keeps _ _ _ _ _ _ _ _ _) rfl ?_
      exact Agree.refl _ _
    exact Agree.refl _ _
  · exact Agree.refl _ _

theorem hostReadFailed_keeps (s : State) (k : ℕ) (ring : ℕ) (why : ℕ) : AgreeOutside [.regs, .out, .sch, .hst] s (hostReadFailed s k ring why) := by
  unfold hostReadFailed
  dsimp only
  split
  · split
    · exact Agree.refl _ _
    · refine Agree.step (postEvent_keeps _ _ _ _ _ _) rfl ?_
      refine Agree.update (fun p hp => by cases p <;> first | exact absurd (by decide) hp | exact rfl) ?_
      exact Agree.refl _ _
  · split
    · exact Agree.refl _ _
    · refine Agree.step (postEvent_keeps _ _ _ _ _ _) rfl ?_
      refine Agree.update (fun p hp => by cases p <;> first | exact absurd (by decide) hp | exact rfl) ?_
      exact Agree.refl _ _

theorem failRead_keeps (s : State) (r : HostRead) (why : ℕ) : AgreeOutside [.regs, .out, .cores, .harps, .sch, .hst] s (failRead s r why) := by
  unfold failRead
  split
  · refine Agree.step (hostReadFailed_keeps _ _ _ _) rfl ?_
    exact Agree.refl _ _
  · split
    · refine Agree.step (failCmd_keeps _ _ _ _) rfl ?_
      exact Agree.refl _ _
    · exact Agree.refl _ _

theorem decideNow_keeps (s : State) (p : ℕ) : AgreeOutside [.sch] s (decideNow s p) := by
  unfold decideNow
  dsimp only
  refine Agree.update (fun p hp => by cases p <;> first | exact absurd (by decide) hp | exact rfl) ?_
  exact Agree.refl _ _

theorem raiseV_keeps (s : State) (w : ℕ) : AgreeOutside [.sch] s (raiseV s w) := by
  unfold raiseV
  dsimp only
  split
  · exact Agree.refl _ _
  · split
    · refine Agree.step (onRing_keeps _ _ _) rfl ?_
      exact Agree.refl _ _
    · exact Agree.refl _ _

theorem onCmd_keeps (s : State) (w : ℕ) (f : Cmd → Cmd) : AgreeOutside [.sch] s (onCmd s w f) := by
  unfold onCmd
  refine Agree.step (onRing_keeps _ _ _) rfl ?_
  exact Agree.refl _ _

theorem putCmd_keeps (s : State) (w : ℕ) (t : Taken) (phase : Phase) : AgreeOutside [.regs, .sch] s (putCmd s w t phase) := by
  unfold putCmd
  dsimp only
  refine Agree.step (wr_keeps _ _ _ _ _) rfl ?_
  refine Agree.step (wr_keeps _ _ _ _ _) rfl ?_
  refine Agree.step (onRing_keeps _ _ _) rfl ?_
  exact Agree.refl _ _

theorem startBad_keeps (s : State) (w : ℕ) : AgreeOutside [.regs, .out, .cores, .harps, .sch, .ras, .hst] s (startBad s w) := by
  unfold startBad
  split
  · split
    · exact Agree.refl _ _
    · split
      · refine Agree.step (onCmd_keeps _ _ _) rfl ?_
        refine Agree.step (consumePoison_keeps _ _ _ _) rfl ?_
        refine Agree.step (putCmd_keeps _ _ _ _) rfl ?_
        exact Agree.refl _ _
      · split
        · refine Agree.step (onCmd_keeps _ _ _) rfl ?_
          refine Agree.step (putCmd_keeps _ _ _ _) rfl ?_
          exact Agree.refl _ _
        · exact Agree.refl _ _
  · exact Agree.refl _ _

theorem notIdle_keeps (s : State) : AgreeOutside [.pwr] s (notIdle s) := by
  unfold notIdle
  dsimp only
  refine Agree.update (fun p hp => by cases p <;> first | exact absurd (by decide) hp | exact rfl) ?_
  exact Agree.refl _ _

theorem takeSlot_keeps (s : State) (w : ℕ) (words : List W64) (poison : Option ℕ) : AgreeOutside [.regs, .out, .cores, .harps, .sch, .ras, .hst, .pwr] s (takeSlot s w words poison) := by
  unfold takeSlot
  dsimp only
  refine Agree.step (startBad_keeps _ _) rfl ?_
  refine Agree.step (notIdle_keeps _) rfl ?_
  split
  · split
    · refine Agree.step (wr_keeps _ _ _ _ _) rfl ?_
      refine Agree.step (wr_keeps _ _ _ _ _) rfl ?_
      refine Agree.step (decideNow_keeps _ _) rfl ?_
      refine Agree.step (raiseV_keeps _ _) rfl ?_
      refine Agree.step (onRing_keeps _ _ _) rfl ?_
      exact Agree.refl _ _
    · refine Agree.step (wr_keeps _ _ _ _ _) rfl ?_
      refine Agree.step (decideNow_keeps _ _) rfl ?_
      refine Agree.step (raiseV_keeps _ _) rfl ?_
      refine Agree.step (onRing_keeps _ _ _) rfl ?_
      exact Agree.refl _ _
  · split
    · refine Agree.step (wr_keeps _ _ _ _ _) rfl ?_
      refine Agree.step (wr_keeps _ _ _ _ _) rfl ?_
      refine Agree.step (onRing_keeps _ _ _) rfl ?_
      exact Agree.refl _ _
    · refine Agree.step (wr_keeps _ _ _ _ _) rfl ?_
      refine Agree.step (onRing_keeps _ _ _) rfl ?_
      exact Agree.refl _ _

theorem hostSlot_keeps (s : State) (w : ℕ) (words : List W64) : AgreeOutside [.regs, .out, .cores, .harps, .ord, .sch, .ras, .hst, .pwr] s (hostSlot s w words) := by
  unfold hostSlot
  dsimp only
  split
  · refine Agree.step (takeSlot_keeps _ _ _ _) rfl ?_
    refine Agree.update (fun p hp => by cases p <;> first | exact absurd (by decide) hp | exact rfl) ?_
    exact Agree.refl _ _
  · refine Agree.update (fun p hp => by cases p <;> first | exact absurd (by decide) hp | exact rfl) ?_
    exact Agree.refl _ _

theorem readReturned_keeps (s : State) (r : HostRead) (bytes : List Byte) (bad : Bool) : AgreeOutside [.mem, .spd, .regs, .out, .cores, .harps, .ord, .ms, .sch, .ras, .obs, .hst, .lnk, .pwr] s (readReturned s r bytes bad) := by
  unfold readReturned
  dsimp only
  split
  · split
    · refine Agree.step (consumePoison_keeps _ _ _ _) rfl ?_
      refine Agree.step (onCore_keeps _ _ _) rfl ?_
      exact Agree.refl _ _
    · refine Agree.step (onCore_keeps _ _ _) rfl ?_
      exact Agree.refl _ _
  · refine Agree.step (markCopy_keeps _ _ _) rfl ?_
    refine Agree.step (moveIn_keeps _ _ _ _) rfl ?_
    exact Agree.refl _ _
  · split
    · refine Agree.step (failRead_keeps _ _ _) rfl ?_
      exact Agree.refl _ _
    · refine Agree.step (hostSlot_keeps _ _ _) rfl ?_
      exact Agree.refl _ _

theorem setTemps_keeps (s : State) (dieC : ℕ) (stackC : ℕ) : AgreeOutside [.regs] s (setTemps s dieC stackC) := by
  unfold setTemps
  refine Agree.step (wr_keeps _ _ _ _ _) rfl ?_
  refine Agree.step (wr_keeps _ _ _ _ _) rfl ?_
  exact Agree.refl _ _

theorem landedOrder_keeps (s : State) (key : ℕ) (o : ℕ) : AgreeOutside [.lnk] s (landedOrder s key o) := by
  unfold landedOrder
  dsimp only
  split
  · exact Agree.refl _ _
  · refine Agree.update (fun p hp => by cases p <;> first | exact absurd (by decide) hp | exact rfl) ?_
    exact Agree.refl _ _

theorem answer_keeps (s : State) (l : ℕ) (m : ℕ) (msg : Msg) : AgreeOutside [.cores, .harps, .sch, .lnk] s (answer s l m msg) := by
  unfold answer
  split
  · refine Agree.step (enqueue_keeps _ _ _) rfl ?_
    exact Agree.refl _ _
  · refine Agree.step (sendPeer_keeps _ _ _) rfl ?_
    exact Agree.refl _ _

theorem sayRefused_keeps (s : State) (l : ℕ) (m : ℕ) (mtag : ℕ) (order : ℕ) (status : ℕ) : AgreeOutside [.cores, .harps, .sch, .lnk] s (sayRefused s l m mtag order status) := by
  unfold sayRefused
  refine Agree.step (answer_keeps _ _ _ _) rfl ?_
  exact Agree.refl _ _

theorem dropFlight_keeps (s : State) (id : ℕ) : AgreeOutside [.ord] s (dropFlight s id) := by
  unfold dropFlight
  dsimp only
  refine Agree.update (fun p hp => by cases p <;> first | exact absurd (by decide) hp | exact rfl) ?_
  exact Agree.refl _ _

theorem discardFinal_keeps (s : State) (f : Flight) (status : ℕ) : AgreeOutside [.cores, .harps, .ord, .sch, .lnk] s (discardFinal s f status) := by
  unfold discardFinal
  dsimp only
  split
  · refine Agree.step (sendPeer_keeps _ _ _) rfl ?_
    refine Agree.step (landedOrder_keeps _ _ _) rfl ?_
    refine Agree.step (dropFlight_keeps _ _) rfl ?_
    exact Agree.refl _ _
  · refine Agree.step (dropFlight_keeps _ _) rfl ?_
    exact Agree.refl _ _

theorem refuseWrite_keeps (s : State) (l : ℕ) (m : ℕ) (msg : Msg) (status : ℕ) : AgreeOutside [.cores, .harps, .ord, .sch, .lnk] s (refuseWrite s l m msg status) := by
  unfold refuseWrite
  dsimp only
  refine Agree.foldl (fun u x => ?_) ?_
  · refine Agree.step (discardFinal_keeps _ _ _) rfl ?_
    exact Agree.refl _ _
  refine Agree.update (fun p hp => by cases p <;> first | exact absurd (by decide) hp | exact rfl) ?_
  refine Agree.step (landedOrder_keeps _ _ _) rfl ?_
  refine Agree.step (sayRefused_keeps _ _ _ _ _ _) rfl ?_
  exact Agree.refl _ _

theorem setImport_keeps (s : State) (p : ℕ) (i : Option Import) : AgreeOutside [.tru] s (setImport s p i) := by
  unfold setImport
  dsimp only
  refine Agree.update (fun p hp => by cases p <;> first | exact absurd (by decide) hp | exact rfl) ?_
  exact Agree.refl _ _

theorem clearPieces_keeps (s : State) (ps : List (ℕ × ℕ)) : AgreeOutside [.mem] s (clearPieces s ps) := by
  unfold clearPieces
  refine Agree.update (fun p hp => by cases p <;> first | exact absurd (by decide) hp | exact rfl) ?_
  exact Agree.refl _ _

theorem clearPart_keeps (s : State) (p : ℕ) (o : ℕ) (n : ℕ) : AgreeOutside [.mem] s (clearPart s p o n) := by
  unfold clearPart
  refine Agree.step (clearPieces_keeps _ _) rfl ?_
  exact Agree.refl _ _

theorem endClear_keeps (s : State) (p : ℕ) : AgreeOutside [.mem, .regs, .tru] s (endClear s p) := by
  unfold endClear
  split
  · refine Agree.step (wr_keeps _ _ _ _ _) rfl ?_
    refine Agree.step (setImport_keeps _ _ _) rfl ?_
    refine Agree.step (clearPart_keeps _ _ _ _) rfl ?_
    exact Agree.refl _ _
  · refine Agree.step (wr_keeps _ _ _ _ _) rfl ?_
    exact Agree.refl _ _

theorem freeBytes_keeps (s : State) (n : ℕ) : AgreeOutside [.free] s (freeBytes s n).2 := by
  unfold freeBytes
  dsimp only
  refine Agree.update (fun p hp => by cases p <;> first | exact absurd (by decide) hp | exact rfl) ?_
  exact Agree.refl _ _

theorem copyOut_keeps (s : State) (w : ℕ) (p : ℕ) (m : ℕ) (d : List W64) (row : ℕ) (bytes : List Byte) (poison : ℕ → Bool) : AgreeOutside [.mem, .spd, .regs, .out, .cores, .harps, .ord, .ms, .sch, .ras, .obs, .hst] s (copyOut s w p m d row bytes poison) := by
  unfold copyOut
  dsimp only
  split
  · refine Agree.step (storeMoved_keeps _ _ _ _ _ _ _) rfl ?_
    exact Agree.refl _ _
  · refine Agree.foldl (fun u x => ?_) ?_
    · split
      · refine Agree.step (issue_keeps _ _) rfl ?_
        exact Agree.refl _ _
      · refine Agree.step (issueVirtual_keeps _ _ _ _ _ _ _ _ _) rfl ?_
        exact Agree.refl _ _
    exact Agree.refl _ _

theorem hostReadOut_keeps (s : State) (fn : ℕ) (addr : ℕ) (len : ℕ) (kind : ℕ) (core : ℕ) (ring : Option ℕ) (dst : Option Dst) (peer : Option (ℕ × ℕ × ℕ)) (va : Option ℕ) (src : Option (ℕ × ℕ)) : AgreeOutside [.out, .cores, .harps, .ord, .sch] s (hostReadOut s fn addr len kind core ring dst peer va src) := by
  unfold hostReadOut
  dsimp only
  split
  · refine Agree.step (emit_keeps _ _) rfl ?_
    refine Agree.update (fun p hp => by cases p <;> first | exact absurd (by decide) hp | exact rfl) ?_
    exact Agree.refl _ _
  · split
    · refine Agree.step (failCmd_keeps _ _ _ _) rfl ?_
      exact Agree.refl _ _
    · exact Agree.refl _ _

theorem copyPiece_keeps (w p m : Nat) (d : List W64) (row : Nat) (st : State × Nat) (q : Nat × Nat) :
    AgreeOutside [.mem, .spd, .regs, .out, .cores, .harps, .ord, .ms, .sch, .ras, .obs, .hst] st.1 (copyPiece w p m d row st q).1 := by
  unfold copyPiece
  dsimp only
  split
  · exact Agree.step (hostReadOut_keeps _ _ _ _ _ _ _ _ _ _ _) rfl (Agree.refl _ _)
  · refine Agree.step (copyOut_keeps _ _ _ _ _ _ _ _) rfl ?_
    exact Agree.step (sliceRd_keeps _ _ _ _ _ _) rfl (Agree.refl _ _)

theorem copyRow_keeps (s : State) (w : ℕ) (p : ℕ) (m : ℕ) (d : List W64) (overlap : Bool) (row : ℕ) : AgreeOutside [.mem, .spd, .regs, .free, .out, .cores, .harps, .ord, .ms, .sch, .ras, .obs, .hst] s (copyRow s w p m d overlap row) := by
  unfold copyRow
  dsimp only
  split
  · refine Agree.step (copyOut_keeps _ _ _ _ _ _ _ _) rfl ?_
    exact Agree.step (freeBytes_keeps _ _) rfl (Agree.refl _ _)
  · split
    · refine Agree.step (copyOut_keeps _ _ _ _ _ _ _ _) rfl ?_
      exact Agree.step (spdAccess_keeps _ _ _ _ _ _ _ _) rfl (Agree.refl _ _)
    · split
      · exact Agree.step (xlateFail_keeps _ _ _ _ _ _ _) rfl (Agree.refl _ _)
      · split
        · refine Agree.foldl_fst (fun u x => Agree.step (copyPiece_keeps _ _ _ _ _ _ _) rfl (Agree.refl _ _)) ?_
          exact Agree.mono (learnRange_keeps _ _ _ _ _ _ _ _) rfl
        · refine Agree.step (copyOut_keeps _ _ _ _ _ _ _ _) rfl ?_
          split
          · refine Agree.step (poisonFound_keeps _ _ _ _ _) rfl ?_
            refine Agree.foldl (fun u x => ?_) (Agree.mono (learnRange_keeps _ _ _ _ _ _ _ _) rfl)
            exact Agree.step (sliceRd_keeps _ _ _ _ _ _) rfl (Agree.refl _ _)
          · refine Agree.foldl (fun u x => ?_) (Agree.mono (learnRange_keeps _ _ _ _ _ _ _ _) rfl)
            exact Agree.step (sliceRd_keeps _ _ _ _ _ _) rfl (Agree.refl _ _)

theorem queueSig_keeps (s : State) (r : SigReq) : AgreeOutside [.tru] s (queueSig s r) := by
  unfold queueSig
  dsimp only
  refine Agree.update (fun p hp => by cases p <;> first | exact absurd (by decide) hp | exact rfl) ?_
  exact Agree.refl _ _

theorem debugPiece_keeps (a : State × List Byte × Bool) (pc : Nat × Nat × Nat) :
    AgreeOutside [.mem, .regs, .out, .ms, .sch, .ras, .hst] a.1 (debugPiece a pc).1 := by
  unfold debugPiece
  split
  · exact Agree.refl _ _
  · refine Agree.trans (Agree.mono (touch_keeps a.1 pc.2.1 pc.2.2 false) rfl) ?_
    show AgreeOutside _ _ (match cohPoisonAt (touch a.1 pc.2.1 pc.2.2 false) pc.2.1 pc.2.2 with
      | some x => poisonFound (touch a.1 pc.2.1 pc.2.2 false) 0 0 1 x
      | none => touch a.1 pc.2.1 pc.2.2 false)
    split
    · exact Agree.step (poisonFound_keeps _ _ _ _ _) rfl (Agree.refl _ _)
    · exact Agree.refl _ _

theorem updClock_keeps (s : State) : AgreeOutside [.regs] s (updClock s) := by
  unfold updClock
  dsimp only
  split
  · refine Agree.step (wr_keeps _ _ _ _ _) rfl ?_
    exact Agree.refl _ _
  · refine Agree.step (wr_keeps _ _ _ _ _) rfl ?_
    refine Agree.step (wr_keeps _ _ _ _ _) rfl ?_
    exact Agree.refl _ _

theorem faultPersists_keeps (s : State) : AgreeOutside [.regs, .free] s (faultPersists s).2 := by
  unfold faultPersists
  split
  · exact Agree.refl _ _
  · dsimp only
    split
    · exact Agree.step (takeFree_keeps _) rfl (Agree.refl _ _)
    · dsimp only
      split
      · refine Agree.step (updClock_keeps _) rfl ?_
        refine Agree.step (wr_keeps _ _ _ _ _) rfl ?_
        refine Agree.step (wr_keeps _ _ _ _ _) rfl ?_
        exact Agree.step (takeFree_keeps _) rfl (Agree.refl _ _)
      · exact Agree.step (takeFree_keeps _) rfl (Agree.refl _ _)

theorem updOverdue_keeps (s : State) (a : ℕ) : AgreeOutside [.regs] s (updOverdue s a) := by
  unfold updOverdue
  refine Agree.step (wrB_keeps _ _ _ _ _) rfl ?_
  exact Agree.refl _ _

theorem endWait_keeps (s : State) (a : ℕ) (unit : ℕ) (sub : ℕ) : AgreeOutside [.regs, .ras] s (endWait s a unit sub) := by
  unfold endWait
  dsimp only
  split
  · exact Agree.refl _ _
  · refine Agree.step (updOverdue_keeps _ _) rfl ?_
    refine Agree.update (fun p hp => by cases p <;> first | exact absurd (by decide) hp | exact rfl) ?_
    refine Agree.step (wr_keeps _ _ _ _ _) rfl ?_
    exact Agree.refl _ _

theorem maintBegin_keeps (s : State) (a : ℕ) (unit : ℕ) (sub : ℕ) : AgreeOutside [.regs, .ras] s (maintBegin s a unit sub) := by
  unfold maintBegin
  dsimp only
  refine Agree.step (endWait_keeps _ _ _ _) rfl ?_
  refine Agree.step (wr_keeps _ _ _ _ _) rfl ?_
  refine Agree.update (fun p hp => by cases p <;> first | exact absurd (by decide) hp | exact rfl) ?_
  exact Agree.refl _ _

theorem randomBytes_keeps (s : State) : AgreeOutside [.free] s (randomBytes s).2 := by
  unfold randomBytes
  dsimp only
  refine Agree.step (takeFree_keeps _) rfl ?_
  refine Agree.step (takeFree_keeps _) rfl ?_
  refine Agree.step (takeFree_keeps _) rfl ?_
  refine Agree.step (takeFree_keeps _) rfl ?_
  exact Agree.refl _ _

theorem setUsable_keeps (s : State) (c : ℕ) (on : Bool) : AgreeOutside [.regs] s (setUsable s c on) := by
  unfold setUsable
  dsimp only
  refine Agree.step (wrB_keeps _ _ _ _ _) rfl ?_
  refine Agree.step (wr_keeps _ _ _ _ _) rfl ?_
  exact Agree.refl _ _

theorem cfgDefaults_keeps (s : State) : AgreeOutside [.hst] s (cfgDefaults s) := by
  unfold cfgDefaults
  dsimp only
  refine Agree.update (fun p hp => by cases p <;> first | exact absurd (by decide) hp | exact rfl) ?_
  exact Agree.refl _ _

theorem mbxResult_keeps (s : State) (r : ℕ) : AgreeOutside [.regs] s (mbxResult s r) := by
  unfold mbxResult
  refine Agree.step (wr_keeps _ _ _ _ _) rfl ?_
  exact Agree.refl _ _

theorem setValid_keeps (s : State) (ok : Bool) : AgreeOutside [.regs, .flash] s (setValid s ok) := by
  unfold setValid
  dsimp only
  refine Agree.step (wrB_keeps _ _ _ _ _) rfl ?_
  refine Agree.update (fun p hp => by cases p <;> first | exact absurd (by decide) hp | exact rfl) ?_
  exact Agree.refl _ _

theorem endVerify_keeps (s : State) (ok : Bool) : AgreeOutside [.regs, .flash] s (endVerify s ok) := by
  unfold endVerify
  dsimp only
  split
  · refine Agree.step (mbxResult_keeps _ _) rfl ?_
    exact Agree.refl _ _
  · split
    · refine Agree.step (mbxResult_keeps _ _) rfl ?_
      refine Agree.step (setValid_keeps _ _) rfl ?_
      refine Agree.update (fun p hp => by cases p <;> first | exact absurd (by decide) hp | exact rfl) ?_
      exact Agree.refl _ _
    · refine Agree.step (mbxResult_keeps _ _) rfl ?_
      refine Agree.step (setValid_keeps _ _) rfl ?_
      exact Agree.refl _ _

theorem passHeldMsg_keeps (s : State) (l : ℕ) (t : TxMsg) (out : List TxMsg) : AgreeOutside [.lnk] s (passHeldMsg s l t out).1 := by
  unfold passHeldMsg
  split
  · split
    · dsimp only
      refine Agree.step (onLink_keeps _ _ _) rfl ?_
      exact Agree.refl _ _
    · dsimp only
      refine Agree.step (onLink_keeps _ _ _) rfl ?_
      exact Agree.refl _ _
  · dsimp only
    exact Agree.refl _ _

theorem pinTime_keeps (s : State) : AgreeOutside [.free] s (pinTime s).2 := by
  unfold pinTime
  dsimp only
  refine Agree.step (takeFree_keeps _) rfl ?_
  exact Agree.refl _ _

theorem stampArrival_keeps (s : State) (f : Frame) (ms : List Msg) : AgreeOutside [.free] s (stampArrival s f ms).1 := by
  unfold stampArrival
  dsimp only
  split
  · dsimp only
    exact Agree.refl _ _
  · dsimp only
    refine Agree.step (pinTime_keeps _) rfl ?_
    exact Agree.refl _ _

theorem takeAck_keeps (s : State) (l : ℕ) (f : Frame) : AgreeOutside [.regs, .ras, .lnk] s (takeAck s l f) := by
  unfold takeAck
  dsimp only
  split
  · split
    · refine Agree.step (noteCorrected_keeps _ _ _ _) rfl ?_
      refine Agree.step (addSat_keeps _ _ _ _ _) rfl ?_
      refine Agree.step (onLink_keeps _ _ _) rfl ?_
      exact Agree.refl _ _
    · refine Agree.step (onLink_keeps _ _ _) rfl ?_
      exact Agree.refl _ _
  · split
    · refine Agree.step (noteCorrected_keeps _ _ _ _) rfl ?_
      refine Agree.step (addSat_keeps _ _ _ _ _) rfl ?_
      refine Agree.step (onLink_keeps _ _ _) rfl ?_
      exact Agree.refl _ _
    · refine Agree.step (onLink_keeps _ _ _) rfl ?_
      exact Agree.refl _ _

theorem acceptFrame_keeps (s : State) (l : ℕ) (f : Frame) : AgreeOutside [.regs, .free, .ras, .lnk, .pwr] s (acceptFrame s l f) := by
  unfold acceptFrame
  dsimp only
  refine Agree.step (takeAck_keeps _ _ _) rfl ?_
  split
  · refine Agree.step (onLink_keeps _ _ _) rfl ?_
    refine Agree.step (stampArrival_keeps _ _ _) rfl ?_
    refine Agree.step (wr_keeps _ _ _ _ _) rfl ?_
    exact Agree.refl _ _
  · refine Agree.step (notIdle_keeps _) rfl ?_
    refine Agree.step (onLink_keeps _ _ _) rfl ?_
    refine Agree.step (stampArrival_keeps _ _ _) rfl ?_
    refine Agree.step (wr_keeps _ _ _ _ _) rfl ?_
    exact Agree.refl _ _

theorem issueKv_keeps (s : State) (core : Option ℕ) (w : ℕ) (desc : List W64) : AgreeOutside [.ord, .kv] s (issueKv s core w desc) := by
  unfold issueKv
  dsimp only
  refine Agree.update (fun p hp => by cases p <;> first | exact absurd (by decide) hp | exact rfl) ?_
  exact Agree.refl _ _

theorem orExceptions_keeps (s : State) (w : ℕ) (bits : ℕ) : AgreeOutside [.sch] s (orExceptions s w bits) := by
  unfold orExceptions
  refine Agree.step (onRing_keeps _ _ _) rfl ?_
  exact Agree.refl _ _

theorem noteCause_keeps (s : State) (w : ℕ) (code : ℕ) : AgreeOutside [.sch] s (noteCause s w code) := by
  unfold noteCause
  refine Agree.step (onRing_keeps _ _ _) rfl ?_
  exact Agree.refl _ _

theorem kvFinish_keeps (s : State) (o : KvOp) (stack q r : Nat) (e : KvEnd) :
    AgreeOutside [.mem, .regs, .out, .cores, .harps, .ord, .ms, .sch, .ras, .obs, .hst] e.s (kvFinish s o stack q r e) := by
  unfold kvFinish
  dsimp only
  split
  · refine Agree.step (xlateFail_keeps _ _ _ _ _ _ _) rfl ?_
    split
    · refine Agree.step (orExceptions_keeps _ _ _) rfl ?_
      exact Agree.refl _ _
    · split
      · refine Agree.step (issue_keeps _ _) rfl ?_
        refine Agree.step (learn_keeps _ _ _ _ _ _ _) rfl ?_
        refine Agree.step (orExceptions_keeps _ _ _) rfl ?_
        exact Agree.refl _ _
      · refine Agree.step (xlateFail_keeps _ _ _ _ _ _ _) rfl ?_
        refine Agree.step (learn_keeps _ _ _ _ _ _ _) rfl ?_
        refine Agree.step (orExceptions_keeps _ _ _) rfl ?_
        exact Agree.refl _ _
  · refine Agree.step (noteCause_keeps _ _ _) rfl ?_
    split
    · refine Agree.step (orExceptions_keeps _ _ _) rfl ?_
      exact Agree.refl _ _
    · split
      · refine Agree.step (issue_keeps _ _) rfl ?_
        refine Agree.step (learn_keeps _ _ _ _ _ _ _) rfl ?_
        refine Agree.step (orExceptions_keeps _ _ _) rfl ?_
        exact Agree.refl _ _
      · refine Agree.step (xlateFail_keeps _ _ _ _ _ _ _) rfl ?_
        refine Agree.step (learn_keeps _ _ _ _ _ _ _) rfl ?_
        refine Agree.step (orExceptions_keeps _ _ _) rfl ?_
        exact Agree.refl _ _
  · refine Agree.step (noteCause_keeps _ _ _) rfl ?_
    split
    · refine Agree.step (orExceptions_keeps _ _ _) rfl ?_
      exact Agree.refl _ _
    · split
      · refine Agree.step (issue_keeps _ _) rfl ?_
        refine Agree.step (learn_keeps _ _ _ _ _ _ _) rfl ?_
        refine Agree.step (orExceptions_keeps _ _ _) rfl ?_
        exact Agree.refl _ _
      · refine Agree.step (xlateFail_keeps _ _ _ _ _ _ _) rfl ?_
        refine Agree.step (learn_keeps _ _ _ _ _ _ _) rfl ?_
        refine Agree.step (orExceptions_keeps _ _ _) rfl ?_
        exact Agree.refl _ _
  · split
    · split
      · refine Agree.step (orExceptions_keeps _ _ _) rfl ?_
        exact Agree.refl _ _
      · split
        · refine Agree.step (issue_keeps _ _) rfl ?_
          refine Agree.step (learn_keeps _ _ _ _ _ _ _) rfl ?_
          refine Agree.step (orExceptions_keeps _ _ _) rfl ?_
          exact Agree.refl _ _
        · refine Agree.step (xlateFail_keeps _ _ _ _ _ _ _) rfl ?_
          refine Agree.step (learn_keeps _ _ _ _ _ _ _) rfl ?_
          refine Agree.step (orExceptions_keeps _ _ _) rfl ?_
          exact Agree.refl _ _
    · refine Agree.step (failCmd_keeps _ _ _ _) rfl ?_
      split
      · refine Agree.step (orExceptions_keeps _ _ _) rfl ?_
        exact Agree.refl _ _
      · split
        · refine Agree.step (issue_keeps _ _) rfl ?_
          refine Agree.step (learn_keeps _ _ _ _ _ _ _) rfl ?_
          refine Agree.step (orExceptions_keeps _ _ _) rfl ?_
          exact Agree.refl _ _
        · refine Agree.step (xlateFail_keeps _ _ _ _ _ _ _) rfl ?_
          refine Agree.step (learn_keeps _ _ _ _ _ _ _) rfl ?_
          refine Agree.step (orExceptions_keeps _ _ _) rfl ?_
          exact Agree.refl _ _
  · split
    · refine Agree.step (orExceptions_keeps _ _ _) rfl ?_
      exact Agree.refl _ _
    · split
      · refine Agree.step (issue_keeps _ _) rfl ?_
        refine Agree.step (learn_keeps _ _ _ _ _ _ _) rfl ?_
        refine Agree.step (orExceptions_keeps _ _ _) rfl ?_
        exact Agree.refl _ _
      · refine Agree.step (xlateFail_keeps _ _ _ _ _ _ _) rfl ?_
        refine Agree.step (learn_keeps _ _ _ _ _ _ _) rfl ?_
        refine Agree.step (orExceptions_keeps _ _ _) rfl ?_
        exact Agree.refl _ _

theorem promote_keeps (s : State) (c : ℕ) (h : ℕ) (p : Pass) : AgreeOutside [.regs, .cores, .harps] s (promote s c h p) := by
  unfold promote
  dsimp only
  refine Agree.step (traceRec_keeps _ _ _ _ _ _) rfl ?_
  refine Agree.step (setHarp_keeps _ _ _ _) rfl ?_
  refine Agree.step (wr_keeps _ _ _ _ _) rfl ?_
  exact Agree.refl _ _

theorem release_keeps (s : State) (c : ℕ) (owner : ℕ) : AgreeOutside [.regs, .cores] s (release s c owner) := by
  unfold release
  dsimp only
  split
  · exact Agree.refl _ _
  · refine Agree.step (wr_keeps _ _ _ _ _) rfl ?_
    refine Agree.step (setCore_keeps _ _ _) rfl ?_
    exact Agree.refl _ _

theorem refuse_keeps (s : State) (rej : Fld) (cause : Fld) (i : ℕ) (c : ℕ) : AgreeOutside [.regs] s (refuse s rej cause i c) := by
  unfold refuse
  split
  · exact Agree.refl _ _
  · refine Agree.step (wr_keeps _ _ _ _ _) rfl ?_
    refine Agree.step (wr_keeps _ _ _ _ _) rfl ?_
    exact Agree.refl _ _

theorem tdiError_keeps (s : State) (p : ℕ) (cause : ℕ) : AgreeOutside [.regs, .out, .sch, .hst] s (tdiError s p cause) := by
  unfold tdiError
  refine Agree.step (postEvent_keeps _ _ _ _ _ _) rfl ?_
  refine Agree.step (stopRings_keeps _ _) rfl ?_
  refine Agree.step (wr_keeps _ _ _ _ _) rfl ?_
  exact Agree.refl _ _

theorem commitWord_keeps (s : State) (off : ℕ) (v : W64) : AgreeOutside [.regs] s (commitWord s off v) := by
  unfold commitWord
  split
  · exact Agree.refl _ _
  · refine Agree.step (setReg_keeps _ _ _) rfl ?_
    exact Agree.refl _ _

theorem commitCopy_keeps (s : State) (cp : List (ℕ × W64)) : AgreeOutside [.regs] s (commitCopy s cp) := by
  unfold commitCopy
  refine Agree.foldl (fun u x => ?_) ?_
  · refine Agree.step (commitWord_keeps _ _ _) rfl ?_
    exact Agree.refl _ _
  exact Agree.refl _ _

theorem applyInval_keeps (s : State) (i : Inval) : AgreeOutside [.ms] s (applyInval s i) := by
  unfold applyInval
  dsimp only
  refine Agree.update (fun p hp => by cases p <;> first | exact absurd (by decide) hp | exact rfl) ?_
  exact Agree.refl _ _

theorem askInval_keeps (s : State) (fn : ℕ) (ctx : ℕ) (va : ℕ) (bytes : ℕ) (all : Bool) : AgreeOutside [.regs, .ord, .ms] s (askInval s fn ctx va bytes all) := by
  unfold askInval
  dsimp only
  split
  · refine Agree.step (applyInval_keeps _ _) rfl ?_
    refine Agree.step (wr_keeps _ _ _ _ _) rfl ?_
    refine Agree.update (fun p hp => by cases p <;> first | exact absurd (by decide) hp | exact rfl) ?_
    exact Agree.refl _ _
  · refine Agree.step (wr_keeps _ _ _ _ _) rfl ?_
    refine Agree.update (fun p hp => by cases p <;> first | exact absurd (by decide) hp | exact rfl) ?_
    exact Agree.refl _ _

theorem dropContext_keeps (s : State) (p : ℕ) : AgreeOutside [.regs, .ord, .ms] s (dropContext s p) := by
  unfold dropContext
  dsimp only
  refine Agree.step (askInval_keeps _ _ _ _ _ _) rfl ?_
  refine Agree.update (fun p hp => by cases p <;> first | exact absurd (by decide) hp | exact rfl) ?_
  exact Agree.refl _ _

theorem updPartStatus_keeps (s : State) (p : ℕ) : AgreeOutside [.regs] s (updPartStatus s p) := by
  unfold updPartStatus
  dsimp only
  refine Agree.step (wr_keeps _ _ _ _ _) rfl ?_
  refine Agree.step (wr_keeps _ _ _ _ _) rfl ?_
  refine Agree.step (wr_keeps _ _ _ _ _) rfl ?_
  exact Agree.refl _ _

theorem applyRanges_keeps (s : State) (cp : List (ℕ × W64)) : AgreeOutside [.regs, .out, .ord, .ms, .sch, .hst] s (applyRanges s cp) := by
  unfold applyRanges
  dsimp only
  split
  · split
    · refine Agree.foldl (fun u x => ?_) ?_
      · split
        · refine Agree.step (tdiError_keeps _ _ _) rfl ?_
          exact Agree.refl _ _
        · exact Agree.refl _ _
      split
      · refine Agree.step (refuse_keeps _ _ _ _ _) rfl ?_
        exact Agree.refl _ _
      · refine Agree.step (wr_keeps _ _ _ _ _) rfl ?_
        refine Agree.step (refuse_keeps _ _ _ _ _) rfl ?_
        exact Agree.refl _ _
    · split
      · refine Agree.step (refuse_keeps _ _ _ _ _) rfl ?_
        exact Agree.refl _ _
      · refine Agree.step (wr_keeps _ _ _ _ _) rfl ?_
        refine Agree.step (refuse_keeps _ _ _ _ _) rfl ?_
        exact Agree.refl _ _
  · refine Agree.foldl (fun u x => ?_) ?_
    · refine Agree.step (updPartStatus_keeps _ _) rfl ?_
      exact Agree.refl _ _
    refine Agree.step (wrB_keeps _ _ _ _ _) rfl ?_
    refine Agree.foldl (fun u x => ?_) ?_
    · refine Agree.step (dropContext_keeps _ _) rfl ?_
      exact Agree.refl _ _
    refine Agree.update (fun p hp => by cases p <;> first | exact absurd (by decide) hp | exact rfl) ?_
    refine Agree.step (commitCopy_keeps _ _) rfl ?_
    exact Agree.refl _ _

theorem drainRanges_keeps (a0 : ℕ) (a1 : State) : AgreeOutside [.regs, .out, .ord, .ms, .sch, .hst, .tru] a1 (drainRanges a0 a1) := by
  induction a0 generalizing a1 with
  | zero => exact Agree.refl _ _
  | succ n ih =>
    unfold drainRanges
    split
    · refine Agree.trans ?_ (ih _)
      refine Agree.step (applyRanges_keeps _ _) rfl ?_
      exact Agree.update (fun p hp => by cases p <;> first | exact absurd (by decide) hp | exact rfl) (Agree.refl _ _)
    · exact Agree.refl _ _

theorem startReplay_keeps (s : State) : AgreeOutside [.regs] s (startReplay s) := by
  unfold startReplay
  refine Agree.foldl (fun u x => ?_) ?_
  · split
    · refine Agree.step (wr_keeps _ _ _ _ _) rfl ?_
      exact Agree.refl _ _
    · exact Agree.refl _ _
  exact Agree.refl _ _

theorem setPwrDomain_keeps (s : State) (d : ℕ) (v : ℕ) : AgreeOutside [.regs] s (setPwrDomain s d v) := by
  unfold setPwrDomain
  refine Agree.step (setReg_keeps _ _ _) rfl ?_
  exact Agree.refl _ _

theorem setPower_keeps (s : State) (c : ℕ) (p : CorePower) : AgreeOutside [.regs, .cores] s (setPower s c p) := by
  unfold setPower
  refine Agree.step (setPwrDomain_keeps _ _ _) rfl ?_
  refine Agree.step (onCore_keeps _ _ _) rfl ?_
  exact Agree.refl _ _

theorem coreOff_keeps (s : State) (c : ℕ) : AgreeOutside [.spd, .regs, .shadow, .cores, .harps] s (coreOff s c) := by
  unfold coreOff
  dsimp only
  refine Agree.step (setPower_keeps _ _ _) rfl ?_
  refine Agree.step (setCore_keeps _ _ _) rfl ?_
  refine Agree.update (fun p hp => by cases p <;> first | exact absurd (by decide) hp | exact rfl) ?_
  exact Agree.refl _ _

theorem setLinkState_keeps (s : State) (l : ℕ) (st : ℕ) : AgreeOutside [.regs] s (setLinkState s l st) := by
  unfold setLinkState
  dsimp only
  refine Agree.step (setPwrDomain_keeps _ _ _) rfl ?_
  refine Agree.step (wr_keeps _ _ _ _ _) rfl ?_
  exact Agree.refl _ _

theorem safeState_keeps (s : State) : AgreeOutside [.spd, .regs, .shadow, .cores, .harps, .lnk] s (safeState s) := by
  unfold safeState
  dsimp only
  refine Agree.foldl (fun u x => ?_) ?_
  · refine Agree.step (setPwrDomain_keeps _ _ _) rfl ?_
    refine Agree.step (wr_keeps _ _ _ _ _) rfl ?_
    exact Agree.refl _ _
  refine Agree.foldl (fun u x => ?_) ?_
  · split
    · exact Agree.refl _ _
    · refine Agree.step (setLink_keeps _ _ _) rfl ?_
      refine Agree.step (setLinkState_keeps _ _ _) rfl ?_
      exact Agree.refl _ _
  refine Agree.foldl (fun u x => ?_) ?_
  · refine Agree.step (coreOff_keeps _ _) rfl ?_
    exact Agree.refl _ _
  exact Agree.refl _ _

theorem failStage_keeps (s : State) (n : ℕ) (status : ℕ) : AgreeOutside [.spd, .regs, .shadow, .free, .out, .cores, .harps, .sch, .ras, .hst, .lnk] s (failStage s n status) := by
  unfold failStage
  dsimp only
  refine Agree.step (safeState_keeps _) rfl ?_
  refine Agree.step (bootRecord_keeps _ _) rfl ?_
  refine Agree.step (wr_keeps _ _ _ _ _) rfl ?_
  refine Agree.step (wr_keeps _ _ _ _ _) rfl ?_
  refine Agree.step (wr_keeps _ _ _ _ _) rfl ?_
  refine Agree.step (wr_keeps _ _ _ _ _) rfl ?_
  refine Agree.step (wr_keeps _ _ _ _ _) rfl ?_
  refine Agree.step (wr_keeps _ _ _ _ _) rfl ?_
  exact Agree.refl _ _

theorem warn_keeps (s : State) (n : ℕ) (status : ℕ) : AgreeOutside [.regs, .free, .out, .sch, .ras, .hst] s (warn s n status) := by
  unfold warn
  dsimp only
  refine Agree.step (bootRecord_keeps _ _) rfl ?_
  refine Agree.step (addSat_keeps _ _ _ _ _) rfl ?_
  split
  · refine Agree.step (wr_keeps _ _ _ _ _) rfl ?_
    exact Agree.refl _ _
  · exact Agree.refl _ _

theorem estimateStage_keeps (s : State) (n : ℕ) : AgreeOutside [.free, .boot] s (estimateStage s n) := by
  unfold estimateStage
  dsimp only
  split
  · refine Agree.update (fun p hp => by cases p <;> first | exact absurd (by decide) hp | exact rfl) ?_
    exact Agree.refl _ _
  · split
    · refine Agree.update (fun p hp => by cases p <;> first | exact absurd (by decide) hp | exact rfl) ?_
      refine Agree.step (takeFree_keeps _) rfl ?_
      exact Agree.refl _ _
    · exact Agree.refl _ _

theorem enterStage_keeps (s : State) (n : ℕ) : AgreeOutside [.regs, .free, .boot] s (enterStage s n) := by
  unfold enterStage
  dsimp only
  refine Agree.step (estimateStage_keeps _ _) rfl ?_
  refine Agree.update (fun p hp => by cases p <;> first | exact absurd (by decide) hp | exact rfl) ?_
  refine Agree.step (wr_keeps _ _ _ _ _) rfl ?_
  refine Agree.step (wr_keeps _ _ _ _ _) rfl ?_
  refine Agree.step (wr_keeps _ _ _ _ _) rfl ?_
  exact Agree.refl _ _

theorem endStage_keeps (s : State) (n : ℕ) (detail : ℕ) : AgreeOutside [.spd, .regs, .shadow, .free, .out, .cores, .harps, .sch, .ras, .hst, .lnk, .boot] s (endStage s n detail) := by
  unfold endStage
  dsimp only
  split
  · split
    · refine Agree.step (safeState_keeps _) rfl ?_
      refine Agree.step (wr_keeps _ _ _ _ _) rfl ?_
      refine Agree.step (wr_keeps _ _ _ _ _) rfl ?_
      refine Agree.step (warn_keeps _ _ _) rfl ?_
      refine Agree.step (wr_keeps _ _ _ _ _) rfl ?_
      refine Agree.step (wr_keeps _ _ _ _ _) rfl ?_
      refine Agree.step (wr_keeps _ _ _ _ _) rfl ?_
      exact Agree.refl _ _
    · split
      · refine Agree.step (enterStage_keeps _ _) rfl ?_
        refine Agree.step (wr_keeps _ _ _ _ _) rfl ?_
        refine Agree.step (wr_keeps _ _ _ _ _) rfl ?_
        refine Agree.step (wr_keeps _ _ _ _ _) rfl ?_
        refine Agree.step (wr_keeps _ _ _ _ _) rfl ?_
        exact Agree.refl _ _
      · refine Agree.step (wr_keeps _ _ _ _ _) rfl ?_
        refine Agree.step (wr_keeps _ _ _ _ _) rfl ?_
        refine Agree.step (wr_keeps _ _ _ _ _) rfl ?_
        refine Agree.step (wr_keeps _ _ _ _ _) rfl ?_
        exact Agree.refl _ _
  · split
    · refine Agree.step (safeState_keeps _) rfl ?_
      refine Agree.step (wr_keeps _ _ _ _ _) rfl ?_
      refine Agree.step (wr_keeps _ _ _ _ _) rfl ?_
      refine Agree.step (warn_keeps _ _ _) rfl ?_
      refine Agree.step (wr_keeps _ _ _ _ _) rfl ?_
      refine Agree.step (wr_keeps _ _ _ _ _) rfl ?_
      exact Agree.refl _ _
    · split
      · refine Agree.step (enterStage_keeps _ _) rfl ?_
        refine Agree.step (wr_keeps _ _ _ _ _) rfl ?_
        refine Agree.step (wr_keeps _ _ _ _ _) rfl ?_
        refine Agree.step (wr_keeps _ _ _ _ _) rfl ?_
        exact Agree.refl _ _
      · refine Agree.step (wr_keeps _ _ _ _ _) rfl ?_
        refine Agree.step (wr_keeps _ _ _ _ _) rfl ?_
        refine Agree.step (wr_keeps _ _ _ _ _) rfl ?_
        exact Agree.refl _ _

theorem verifyImage_keeps (s : State) : AgreeOutside [.spd, .regs, .shadow, .free, .out, .cores, .harps, .sch, .ras, .hst, .lnk, .flash, .boot] s (verifyImage s) := by
  unfold verifyImage
  dsimp only
  split
  · refine Agree.step (failStage_keeps _ _ _) rfl ?_
    refine Agree.step (setValid_keeps _ _) rfl ?_
    exact Agree.refl _ _
  · refine Agree.step (endStage_keeps _ _ _) rfl ?_
    refine Agree.step (wr_keeps _ _ _ _ _) rfl ?_
    refine Agree.update (fun p hp => by cases p <;> first | exact absurd (by decide) hp | exact rfl) ?_
    refine Agree.step (setValid_keeps _ _) rfl ?_
    exact Agree.refl _ _

end Sys2Proof.Laws
end

