-- ==== Sys2Proof/Laws/Keeps3.lean ====
section
/-!
SUPPORT. Sys2Proof/Laws/Keeps3.lean: for each operation, the parts of the state outside which it changes nothing
(3 of 6, in the order in which the operations use one another).
-/
namespace Sys2Proof.Laws
open Sys2Proof.Machine Sys2Proof.Safety

theorem mbxStart_keeps (s : State) (op : ℕ) : AgreeOutside [.regs, .mgm] s (mbxStart s op) := by
  unfold mbxStart
  dsimp only
  refine Agree.step (wr_keeps _ _ _ _ _) rfl ?_
  refine Agree.update (fun p hp => by cases p <;> first | exact absurd (by decide) hp | exact rfl) ?_
  exact Agree.refl _ _

theorem setKvReg_keeps (s : State) (r : ℕ) (v : KvRegion) : AgreeOutside [.kv] s (setKvReg s r v) := by
  unfold setKvReg
  dsimp only
  refine Agree.update (fun p hp => by cases p <;> first | exact absurd (by decide) hp | exact rfl) ?_
  exact Agree.refl _ _

theorem overlapFault_keeps (s : State) (c : ℕ) (new : List Footprint) (n : Footprint) (h : Footprint) (a : ℕ) : AgreeOutside [.regs, .cores, .harps, .sch] s (overlapFault s c new n h a) := by
  unfold overlapFault
  dsimp only
  refine Agree.step (failCore_keeps _ _ _ _) rfl ?_
  split
  · exact Agree.refl _ _
  · refine Agree.step (wrB_keeps _ _ _ _ _) rfl ?_
    refine Agree.step (wrB_keeps _ _ _ _ _) rfl ?_
    refine Agree.step (wr_keeps _ _ _ _ _) rfl ?_
    refine Agree.step (wr_keeps _ _ _ _ _) rfl ?_
    refine Agree.step (wr_keeps _ _ _ _ _) rfl ?_
    refine Agree.step (wr_keeps _ _ _ _ _) rfl ?_
    refine Agree.step (wr_keeps _ _ _ _ _) rfl ?_
    refine Agree.step (wr_keeps _ _ _ _ _) rfl ?_
    refine Agree.step (wr_keeps _ _ _ _ _) rfl ?_
    refine Agree.step (wr_keeps _ _ _ _ _) rfl ?_
    exact Agree.refl _ _

theorem chainAccess_keeps (s : State) (c : ℕ) (h : ℕ) (ep : Epi) : AgreeOutside [.spd, .regs, .out, .cores, .harps, .sch, .ras, .obs, .hst] s (chainAccess s c h ep) := by
  unfold chainAccess
  refine Agree.foldl (fun u x => ?_) ?_
  · refine Agree.step (spdAccess_keeps _ _ _ _ _ _ _ _) rfl ?_
    exact Agree.refl _ _
  exact Agree.refl _ _

theorem setHarps_keeps (s : State) (c : ℕ) (mask : ℕ) : AgreeOutside [.regs] s (setHarps s c mask) := by
  unfold setHarps
  refine Agree.foldl (fun u x => ?_) ?_
  · refine Agree.step (wr_keeps _ _ _ _ _) rfl ?_
    refine Agree.step (wr_keeps _ _ _ _ _) rfl ?_
    exact Agree.refl _ _
  refine Agree.step (wr_keeps _ _ _ _ _) rfl ?_
  exact Agree.refl _ _

theorem noteSealed_keeps (s : State) (l : ℕ) (f : Frame) : AgreeOutside [.lnk] s (noteSealed s l f) := by
  unfold noteSealed
  refine Agree.step (onLink_keeps _ _ _) rfl ?_
  exact Agree.refl _ _

theorem gangUsed_keeps (s : State) (w : ℕ) (key : ℕ) : AgreeOutside [.sch] s (gangUsed s w key) := by
  unfold gangUsed
  refine Agree.step (onRing_keeps _ _ _) rfl ?_
  exact Agree.refl _ _

theorem gangNext_keeps (s : State) (w : ℕ) (n : ℕ) : AgreeOutside [.sch] s (gangNext s w n) := by
  unfold gangNext
  dsimp only
  split
  · refine Agree.step (gangUsed_keeps _ _ _) rfl ?_
    refine Agree.step (onRing_keeps _ _ _) rfl ?_
    exact Agree.refl _ _
  · exact Agree.refl _ _

theorem gangSend_keeps (s : State) (w : ℕ) (kind : ℕ) : AgreeOutside [.cores, .harps, .sch, .lnk] s (gangSend s w kind) := by
  unfold gangSend
  dsimp only
  refine Agree.foldl (fun u x => ?_) ?_
  · refine Agree.step (sendPeer_keeps _ _ _) rfl ?_
    exact Agree.refl _ _
  exact Agree.refl _ _

theorem freeCore_keeps (s : State) (c : ℕ) : AgreeOutside [.regs, .cores] s (freeCore s c) := by
  unfold freeCore
  refine Agree.step (wr_keeps _ _ _ _ _) rfl ?_
  refine Agree.step (onCore_keeps _ _ _) rfl ?_
  exact Agree.refl _ _

theorem endCommand_keeps (s : State) (w : ℕ) (code : ℕ) : AgreeOutside [.regs, .cores, .harps, .sch, .lnk] s (endCommand s w code) := by
  unfold endCommand
  dsimp only
  split
  · exact Agree.refl _ _
  · split
    · exact Agree.refl _ _
    · split
      · refine Agree.step (onCmd_keeps _ _ _) rfl ?_
        exact Agree.refl _ _
      · split
        · refine Agree.step (wr_keeps _ _ _ _ _) rfl ?_
          refine Agree.step (onRing_keeps _ _ _) rfl ?_
          refine Agree.step (gangNext_keeps _ _ _) rfl ?_
          exact Agree.refl _ _
        · refine Agree.step (onCmd_keeps _ _ _) rfl ?_
          refine Agree.foldl (fun u x => ?_) ?_
          · refine Agree.step (freeCore_keeps _ _) rfl ?_
            refine Agree.step (stopCore_keeps _ _) rfl ?_
            exact Agree.refl _ _
          split
          · refine Agree.step (gangSend_keeps _ _ _) rfl ?_
            exact Agree.refl _ _
          · exact Agree.refl _ _

theorem dropJob_keeps (s : State) (w : ℕ) : AgreeOutside [.regs, .cores, .sch] s (dropJob s w) := by
  unfold dropJob
  dsimp only
  refine Agree.step (wr_keeps _ _ _ _ _) rfl ?_
  refine Agree.step (wr_keeps _ _ _ _ _) rfl ?_
  refine Agree.step (onRing_keeps _ _ _) rfl ?_
  refine Agree.foldl (fun u x => ?_) ?_
  · split
    · refine Agree.step (onCore_keeps _ _ _) rfl ?_
      exact Agree.refl _ _
    · exact Agree.refl _ _
  exact Agree.refl _ _

theorem setRingState_keeps (s : State) (w : ℕ) (st : ℕ) : AgreeOutside [.regs] s (setRingState s w st) := by
  unfold setRingState
  refine Agree.step (wr_keeps _ _ _ _ _) rfl ?_
  exact Agree.refl _ _

theorem endRing_keeps (s : State) (w : ℕ) (code : ℕ) (stop : ℕ) : AgreeOutside [.regs, .out, .cores, .harps, .ord, .sch, .hst, .lnk] s (endRing s w code stop) := by
  unfold endRing
  dsimp only
  split
  · refine Agree.step (postEvent_keeps _ _ _ _ _ _) rfl ?_
    refine Agree.step (wr_keeps _ _ _ _ _) rfl ?_
    refine Agree.step (setRingState_keeps _ _ _) rfl ?_
    refine Agree.update (fun p hp => by cases p <;> first | exact absurd (by decide) hp | exact rfl) ?_
    refine Agree.step (dropJob_keeps _ _) rfl ?_
    refine Agree.step (onRing_keeps _ _ _) rfl ?_
    refine Agree.step (gangNext_keeps _ _ _) rfl ?_
    refine Agree.step (endCommand_keeps _ _ _) rfl ?_
    exact Agree.refl _ _
  · refine Agree.update (fun p hp => by cases p <;> first | exact absurd (by decide) hp | exact rfl) ?_
    refine Agree.step (dropJob_keeps _ _) rfl ?_
    refine Agree.step (onRing_keeps _ _ _) rfl ?_
    refine Agree.step (gangNext_keeps _ _ _) rfl ?_
    refine Agree.step (endCommand_keeps _ _ _) rfl ?_
    exact Agree.refl _ _

theorem endCommands_keeps (s : State) (rings : List ℕ) (code : ℕ) (stop : ℕ) : AgreeOutside [.regs, .out, .cores, .harps, .ord, .sch, .hst, .lnk] s (endCommands s rings code stop).1 := by
  unfold endCommands
  refine Agree.foldl_fst (fun u x => ?_) ?_
  · dsimp only
    refine Agree.step (endRing_keeps _ _ _ _) rfl ?_
    exact Agree.refl _ _
  dsimp only
  exact Agree.refl _ _

theorem resetCommands_keeps (s : State) (rings : List ℕ) (code : ℕ) (stop : ℕ) : AgreeOutside [.regs, .out, .cores, .harps, .ord, .sch, .hst, .lnk] s (resetCommands s rings code stop) := by
  unfold resetCommands
  refine Agree.step (endCommands_keeps _ _ _ _) rfl ?_
  exact Agree.refl _ _

theorem commitReg_keeps (s : State) (off : ℕ) : AgreeOutside [.regs] s (commitReg s off) := by
  unfold commitReg
  refine Agree.step (commitWord_keeps _ _ _) rfl ?_
  exact Agree.refl _ _

theorem commitRegs_keeps (s : State) (offs : List ℕ) : AgreeOutside [.regs] s (commitRegs s offs) := by
  unfold commitRegs
  refine Agree.foldl (fun u x => ?_) ?_
  · refine Agree.step (commitReg_keeps _ _) rfl ?_
    exact Agree.refl _ _
  exact Agree.refl _ _

theorem readFlash_keeps (s : State) : AgreeOutside [.regs, .shadow] s (readFlash s) := by
  unfold readFlash
  dsimp only
  refine Agree.step (wrB_keeps _ _ _ _ _) rfl ?_
  refine Agree.step (wr_keeps _ _ _ _ _) rfl ?_
  refine Agree.step (setShadow_keeps _ _ _) rfl ?_
  refine Agree.step (setReg_keeps _ _ _) rfl ?_
  exact Agree.refl _ _

theorem markDue_keeps (s : State) (c : ℕ) : AgreeOutside [.regs] s (markDue s c) := by
  unfold markDue
  refine Agree.step (wr_keeps _ _ _ _ _) rfl ?_
  exact Agree.refl _ _

theorem noteOffset_keeps (s : State) (θ : ℤ) : AgreeOutside [.regs, .free] s (noteOffset s θ) := by
  unfold noteOffset
  dsimp only
  split
  · refine Agree.step (wr_keeps _ _ _ _ _) rfl ?_
    exact Agree.refl _ _
  · refine Agree.step (wr_keeps _ _ _ _ _) rfl ?_
    refine Agree.step (takeFree_keeps _) rfl ?_
    exact Agree.refl _ _

theorem fillPart_keeps (s : State) (pa : ℕ) (n : ℕ) : AgreeOutside [.mem] s (fillPart s pa n) := by
  unfold fillPart
  refine Agree.foldl (fun u x => ?_) ?_
  · split
    · refine Agree.update (fun p hp => by cases p <;> first | exact absurd (by decide) hp | exact rfl) ?_
      exact Agree.refl _ _
    · exact Agree.refl _ _
  exact Agree.refl _ _

theorem wakeRings_keeps (s : State) (pa : ℕ) (n : ℕ) : AgreeOutside [.sch] s (wakeRings s pa n) := by
  unfold wakeRings
  refine Agree.foldl (fun u x => ?_) ?_
  · refine Agree.step (onRing_keeps _ _ _) rfl ?_
    exact Agree.refl _ _
  exact Agree.refl _ _

theorem landMem_keeps (s : State) (pa : ℕ) (data : List Byte) (bad : Bool) : AgreeOutside [.mem] s (landMem s pa data bad) := by
  unfold landMem
  refine Agree.foldl (fun u x => ?_) ?_
  · split
    · exact Agree.refl _ _
    · refine Agree.update (fun p hp => by cases p <;> first | exact absurd (by decide) hp | exact rfl) ?_
      exact Agree.refl _ _
  exact Agree.refl _ _

theorem sliceWr_keeps (s : State) (who : Requester) (va : Option ℕ) (w : Option ℕ) (pa : ℕ) (data : List Byte) (bad : Bool) : AgreeOutside [.mem, .regs, .out, .cores, .harps, .ms, .sch, .ras, .obs, .hst] s (sliceWr s who va w pa data bad) := by
  unfold sliceWr
  dsimp only
  refine Agree.step (wakeRings_keeps _ _ _) rfl ?_
  refine Agree.step (landMem_keeps _ _ _ _) rfl ?_
  refine Agree.step (touch_keeps _ _ _ _) rfl ?_
  refine Agree.step (fillPart_keeps _ _ _) rfl ?_
  refine Agree.step (watchMem_keeps _ _ _ _ _ _ _) rfl ?_
  exact Agree.refl _ _

theorem kvStore_keeps (s : State) (stack : ℕ) (w : Option ℕ) (pa : ℕ) (data : List Byte) (bad : Bool) : AgreeOutside [.mem, .regs, .out, .cores, .harps, .ms, .sch, .ras, .obs, .hst] s (kvStore s stack w pa data bad) := by
  unfold kvStore
  refine Agree.step (sliceWr_keeps _ _ _ _ _ _ _) rfl ?_
  exact Agree.refl _ _

theorem kvJournal_keeps (s : State) (r : ℕ) (stack : ℕ) : AgreeOutside [.mem, .regs, .free, .out, .cores, .harps, .ms, .sch, .ras, .obs, .hst] s (kvJournal s r stack) := by
  unfold kvJournal
  dsimp only
  refine Agree.step (kvStore_keeps _ _ _ _ _ _) rfl ?_
  refine Agree.step (freeBytes_keeps _ _) rfl ?_
  exact Agree.refl _ _

theorem kvMeta_keeps (s : State) (r : ℕ) (n : ℕ) : AgreeOutside [.mem, .regs, .free, .out, .cores, .harps, .ms, .sch, .ras, .obs, .hst] s (kvMeta s r n) := by
  unfold kvMeta
  dsimp only
  refine Agree.step (kvStore_keeps _ _ _ _ _ _) rfl ?_
  refine Agree.step (kvStore_keeps _ _ _ _ _ _) rfl ?_
  refine Agree.step (freeBytes_keeps _ _) rfl ?_
  refine Agree.step (kvJournal_keeps _ _ _) rfl ?_
  exact Agree.refl _ _

theorem loseFlight_keeps (s : State) (f : Flight) (code : ℕ) : AgreeOutside [.cores, .harps, .ord, .sch, .lnk] s (loseFlight s f code) := by
  unfold loseFlight
  dsimp only
  split
  · refine Agree.step (dropFlight_keeps _ _) rfl ?_
    exact Agree.refl _ _
  · split
    · refine Agree.step (discardFinal_keeps _ _ _) rfl ?_
      refine Agree.update (fun p hp => by cases p <;> first | exact absurd (by decide) hp | exact rfl) ?_
      refine Agree.step (dropFlight_keeps _ _) rfl ?_
      exact Agree.refl _ _
    · refine Agree.step (dropFlight_keeps _ _) rfl ?_
      exact Agree.refl _ _
  · refine Agree.step (discardFinal_keeps _ _ _) rfl ?_
    refine Agree.step (dropFlight_keeps _ _) rfl ?_
    exact Agree.refl _ _
  · refine Agree.foldl (fun u x => ?_) ?_
    · split
      · refine Agree.step (failCmd_keeps _ _ _ _) rfl ?_
        exact Agree.refl _ _
      · exact Agree.refl _ _
    refine Agree.foldl (fun u x => ?_) ?_
    · refine Agree.step (dropFlight_keeps _ _) rfl ?_
      exact Agree.refl _ _
    refine Agree.step (dropFlight_keeps _ _) rfl ?_
    exact Agree.refl _ _

theorem tileLanded_keeps (s : State) (f : Flight) (parts : ℕ) (refused : Bool) : AgreeOutside [.cores, .harps, .sch, .lnk] s (tileLanded s f parts refused) := by
  unfold tileLanded
  split
  · split
    · refine Agree.step (landedOrder_keeps _ _ _) rfl ?_
      exact Agree.refl _ _
    · split
      · refine Agree.step (answer_keeps _ _ _ _) rfl ?_
        refine Agree.step (landedOrder_keeps _ _ _) rfl ?_
        exact Agree.refl _ _
      · refine Agree.foldl (fun u x => ?_) ?_
        · refine Agree.step (landedOrder_keeps _ _ _) rfl ?_
          exact Agree.refl _ _
        exact Agree.refl _ _
  · exact Agree.refl _ _

theorem returnCredit_keeps (s : State) (c : ℕ) (slot : ℕ) (kind : ℕ) (n : ℕ) (m : ℕ) (core : ℕ) (tag : ℕ) : AgreeOutside [.cores, .harps, .ord, .sch, .lnk] s (returnCredit s c slot kind n m core tag) := by
  unfold returnCredit
  dsimp only
  split
  · refine Agree.update (fun p hp => by cases p <;> first | exact absurd (by decide) hp | exact rfl) ?_
    exact Agree.refl _ _
  · refine Agree.step (sendPeer_keeps _ _ _) rfl ?_
    exact Agree.refl _ _

theorem landHeader_keeps (s : State) (c : ℕ) (tag : ℕ) (img : TileImage) : AgreeOutside [.spd, .regs, .out, .cores, .harps, .ord, .sch, .ras, .obs, .hst, .lnk] s (landHeader s c tag img) := by
  unfold landHeader
  dsimp only
  split
  · refine Agree.step (onCore_keeps _ _ _) rfl ?_
    refine Agree.step (spdStore_keeps _ _ _ _ _ _ _ _) rfl ?_
    refine Agree.step (countUnits_keeps _ _ _ _ _) rfl ?_
    exact Agree.refl _ _
  · split
    · refine Agree.step (failCore_keeps _ _ _ _) rfl ?_
      refine Agree.step (returnCredit_keeps _ _ _ _ _ _ _ _) rfl ?_
      exact Agree.refl _ _
    · refine Agree.step (returnCredit_keeps _ _ _ _ _ _ _ _) rfl ?_
      exact Agree.refl _ _

theorem landBody_keeps (s : State) (c : ℕ) (img : TileImage) (words : ℕ) : AgreeOutside [.spd, .regs, .out, .cores, .harps, .ord, .sch, .ras, .obs, .hst] s (landBody s c img words) := by
  unfold landBody
  dsimp only
  split
  · refine Agree.update (fun p hp => by cases p <;> first | exact absurd (by decide) hp | exact rfl) ?_
    exact Agree.refl _ _
  · refine Agree.foldl (fun u x => ?_) ?_
    · refine Agree.step (spdStore_keeps _ _ _ _ _ _ _ _) rfl ?_
      refine Agree.step (countUnits_keeps _ _ _ _ _) rfl ?_
      exact Agree.refl _ _
    exact Agree.refl _ _

theorem landFlight_keeps (s : State) (f : Flight) : AgreeOutside [.mem, .spd, .regs, .out, .cores, .harps, .ord, .ms, .sch, .ras, .obs, .hst, .lnk] s (landFlight s f) := by
  unfold landFlight
  dsimp only
  split
  · split
    · refine Agree.step (loseFlight_keeps _ _ _) rfl ?_
      exact Agree.refl _ _
    · split
      · split
        · refine Agree.step (answer_keeps _ _ _ _) rfl ?_
          refine Agree.step (landedOrder_keeps _ _ _) rfl ?_
          split
          · refine Agree.step (poisonFound_keeps _ _ _ _ _) rfl ?_
            refine Agree.step (sliceWr_keeps _ _ _ _ _ _ _) rfl ?_
            refine Agree.step (dropFlight_keeps _ _) rfl ?_
            exact Agree.refl _ _
          · refine Agree.step (sliceWr_keeps _ _ _ _ _ _ _) rfl ?_
            refine Agree.step (dropFlight_keeps _ _) rfl ?_
            exact Agree.refl _ _
        · split
          · refine Agree.step (poisonFound_keeps _ _ _ _ _) rfl ?_
            refine Agree.step (sliceWr_keeps _ _ _ _ _ _ _) rfl ?_
            refine Agree.step (dropFlight_keeps _ _) rfl ?_
            exact Agree.refl _ _
          · refine Agree.step (sliceWr_keeps _ _ _ _ _ _ _) rfl ?_
            refine Agree.step (dropFlight_keeps _ _) rfl ?_
            exact Agree.refl _ _
      · refine Agree.step (spdStore_keeps _ _ _ _ _ _ _ _) rfl ?_
        refine Agree.step (dropFlight_keeps _ _) rfl ?_
        exact Agree.refl _ _
      · refine Agree.step (tileLanded_keeps _ _ _ _) rfl ?_
        split
        · refine Agree.step (landHeader_keeps _ _ _ _) rfl ?_
          refine Agree.step (dropFlight_keeps _ _) rfl ?_
          exact Agree.refl _ _
        · split
          · refine Agree.step (dropFlight_keeps _ _) rfl ?_
            exact Agree.refl _ _
          · refine Agree.step (landBody_keeps _ _ _ _) rfl ?_
            refine Agree.step (dropFlight_keeps _ _) rfl ?_
            exact Agree.refl _ _
      · refine Agree.step (dropFlight_keeps _ _) rfl ?_
        exact Agree.refl _ _
  · split
    · refine Agree.step (loseFlight_keeps _ _ _) rfl ?_
      exact Agree.refl _ _
    · split
      · split
        · refine Agree.step (answer_keeps _ _ _ _) rfl ?_
          refine Agree.step (landedOrder_keeps _ _ _) rfl ?_
          split
          · refine Agree.step (poisonFound_keeps _ _ _ _ _) rfl ?_
            refine Agree.step (sliceWr_keeps _ _ _ _ _ _ _) rfl ?_
            refine Agree.step (dropFlight_keeps _ _) rfl ?_
            exact Agree.refl _ _
          · refine Agree.step (sliceWr_keeps _ _ _ _ _ _ _) rfl ?_
            refine Agree.step (dropFlight_keeps _ _) rfl ?_
            exact Agree.refl _ _
        · split
          · refine Agree.step (poisonFound_keeps _ _ _ _ _) rfl ?_
            refine Agree.step (sliceWr_keeps _ _ _ _ _ _ _) rfl ?_
            refine Agree.step (dropFlight_keeps _ _) rfl ?_
            exact Agree.refl _ _
          · refine Agree.step (sliceWr_keeps _ _ _ _ _ _ _) rfl ?_
            refine Agree.step (dropFlight_keeps _ _) rfl ?_
            exact Agree.refl _ _
      · refine Agree.step (spdStore_keeps _ _ _ _ _ _ _ _) rfl ?_
        refine Agree.step (dropFlight_keeps _ _) rfl ?_
        exact Agree.refl _ _
      · refine Agree.step (tileLanded_keeps _ _ _ _) rfl ?_
        split
        · refine Agree.step (landHeader_keeps _ _ _ _) rfl ?_
          refine Agree.step (dropFlight_keeps _ _) rfl ?_
          exact Agree.refl _ _
        · split
          · refine Agree.step (dropFlight_keeps _ _) rfl ?_
            exact Agree.refl _ _
          · refine Agree.step (landBody_keeps _ _ _ _) rfl ?_
            refine Agree.step (dropFlight_keeps _ _) rfl ?_
            exact Agree.refl _ _
      · refine Agree.step (dropFlight_keeps _ _) rfl ?_
        exact Agree.refl _ _

theorem setRegion_keeps (s : State) (k : ℕ) (v : Region) : AgreeOutside [.pwr] s (setRegion s k v) := by
  unfold setRegion
  dsimp only
  refine Agree.update (fun p hp => by cases p <;> first | exact absurd (by decide) hp | exact rfl) ?_
  exact Agree.refl _ _

theorem applyHint_keeps (s : State) (w : ℕ) (level : ℕ) (us_ : ℕ) (stagger : ℕ) : AgreeOutside [.pwr] s (applyHint s w level us_ stagger) := by
  unfold applyHint
  dsimp only
  split
  · exact Agree.refl _ _
  · refine Agree.update (fun p hp => by cases p <;> first | exact absurd (by decide) hp | exact rfl) ?_
    split
    · refine Agree.foldl (fun u x => ?_) ?_
      · split
        · exact Agree.refl _ _
        · refine Agree.step (setRegion_keeps _ _ _) rfl ?_
          exact Agree.refl _ _
      exact Agree.refl _ _
    · exact Agree.refl _ _

theorem injHit_keeps (s : State) (l : ℕ) (mode : ℕ) : AgreeOutside [.regs, .free] s (injHit s l mode).2 := by
  unfold injHit
  split
  · dsimp only
    split
    · refine Agree.step (addSat_keeps _ _ _ _ _) rfl ?_
      exact Agree.step (takeFree_keeps _) rfl (Agree.refl _ _)
    · exact Agree.step (takeFree_keeps _) rfl (Agree.refl _ _)
  · exact Agree.refl _ _

theorem markTime_keeps (s : State) (l : ℕ) (id : ℕ) (ms : List TxMsg) : AgreeOutside [.free, .lnk] s (markTime s l id ms).1 := by
  unfold markTime
  dsimp only
  refine Agree.update (fun p hp => by cases p <;> first | exact absurd (by decide) hp | exact rfl) ?_
  refine Agree.step (pinTime_keeps _) rfl ?_
  exact Agree.refl _ _

theorem injErrs_keeps (s : State) (n : ℕ) : AgreeOutside [.free] s (injErrs s n).2 := by
  unfold injErrs
  dsimp only
  refine Agree.step (takeFree_keeps _) rfl ?_
  exact Agree.refl _ _

theorem nextCounter_keeps (s : State) (l : ℕ) : AgreeOutside [.regs] s (nextCounter s l).2 := by
  unfold nextCounter
  dsimp only
  split
  · exact Agree.refl _ _
  · refine Agree.step (wr_keeps _ _ _ _ _) rfl ?_
    exact Agree.refl _ _

theorem putFrame_keeps (s : State) (l : ℕ) (f : SentFrame) (inject : Bool) : AgreeOutside [.regs, .free, .out, .lnk] s (putFrame s l f inject) := by
  unfold putFrame
  dsimp only
  split
  · split
    · refine Agree.step (injHit_keeps _ _ _) rfl ?_
      exact Agree.refl _ _
    · refine Agree.step (emit_keeps _ _) rfl ?_
      refine Agree.step (nextCounter_keeps _ _) rfl ?_
      split
      · split
        · refine Agree.step (injErrs_keeps _ _) rfl ?_
          refine Agree.step (injHit_keeps _ _ _) rfl ?_
          refine Agree.step (injHit_keeps _ _ _) rfl ?_
          refine Agree.step (markTime_keeps _ _ _ _) rfl ?_
          refine Agree.step (injHit_keeps _ _ _) rfl ?_
          exact Agree.refl _ _
        · split
          · refine Agree.step (injErrs_keeps _ _) rfl ?_
            refine Agree.step (injHit_keeps _ _ _) rfl ?_
            refine Agree.step (injHit_keeps _ _ _) rfl ?_
            refine Agree.step (markTime_keeps _ _ _ _) rfl ?_
            refine Agree.step (injHit_keeps _ _ _) rfl ?_
            exact Agree.refl _ _
          · dsimp only
            refine Agree.step (injHit_keeps _ _ _) rfl ?_
            refine Agree.step (injHit_keeps _ _ _) rfl ?_
            refine Agree.step (markTime_keeps _ _ _ _) rfl ?_
            refine Agree.step (injHit_keeps _ _ _) rfl ?_
            exact Agree.refl _ _
      · split
        · refine Agree.step (injErrs_keeps _ _) rfl ?_
          refine Agree.step (injHit_keeps _ _ _) rfl ?_
          refine Agree.step (injHit_keeps _ _ _) rfl ?_
          dsimp only
          refine Agree.step (injHit_keeps _ _ _) rfl ?_
          exact Agree.refl _ _
        · split
          · refine Agree.step (injErrs_keeps _ _) rfl ?_
            refine Agree.step (injHit_keeps _ _ _) rfl ?_
            refine Agree.step (injHit_keeps _ _ _) rfl ?_
            dsimp only
            refine Agree.step (injHit_keeps _ _ _) rfl ?_
            exact Agree.refl _ _
          · dsimp only
            refine Agree.step (injHit_keeps _ _ _) rfl ?_
            refine Agree.step (injHit_keeps _ _ _) rfl ?_
            refine Agree.step (injHit_keeps _ _ _) rfl ?_
            exact Agree.refl _ _
  · split
    · dsimp only
      exact Agree.refl _ _
    · refine Agree.step (emit_keeps _ _) rfl ?_
      refine Agree.step (nextCounter_keeps _ _) rfl ?_
      dsimp only
      split
      · refine Agree.step (markTime_keeps _ _ _ _) rfl ?_
        exact Agree.refl _ _
      · dsimp only
        exact Agree.refl _ _

theorem sayGoodbye_keeps (s : State) : AgreeOutside [.regs, .free, .out, .lnk] s (sayGoodbye s) := by
  unfold sayGoodbye
  refine Agree.foldl (fun u x => ?_) ?_
  · split
    · refine Agree.step (putFrame_keeps _ _ _ _) rfl ?_
      exact Agree.refl _ _
    · exact Agree.refl _ _
  exact Agree.refl _ _

theorem fieldLog_keeps (s : State) (e : FieldEntry) : AgreeOutside [.flash] s (fieldLog s e) := by
  unfold fieldLog
  dsimp only
  refine Agree.update (fun p hp => by cases p <;> first | exact absurd (by decide) hp | exact rfl) ?_
  exact Agree.refl _ _

theorem logCore_keeps (s : State) (cls : ℕ) (core : Option ℕ) : AgreeOutside [.free] s (logCore s cls core).2 := by
  unfold logCore
  cases core with
  | some c => exact Agree.refl _ _
  | none => exact takeFree_keeps s

theorem debugEvent_keeps (s : State) (p : ℕ) : AgreeOutside [.regs, .out, .sch, .hst, .tru] s (debugEvent s p) := by
  unfold debugEvent
  dsimp only
  split
  · refine Agree.step (postEvent_keeps _ _ _ _ _ _) rfl ?_
    refine Agree.update (fun p hp => by cases p <;> first | exact absurd (by decide) hp | exact rfl) ?_
    exact Agree.refl _ _
  · exact Agree.refl _ _

theorem putLog_keeps (s : State) (p : ℕ) (l : List (List W64)) : AgreeOutside [.tru] s (putLog s p l) := by
  unfold putLog
  dsimp only
  refine Agree.update (fun p hp => by cases p <;> first | exact absurd (by decide) hp | exact rfl) ?_
  exact Agree.refl _ _

theorem addLog_keeps (s : State) (p : ℕ) (e : List W64) : AgreeOutside [.regs, .tru] s (addLog s p e) := by
  unfold addLog
  dsimp only
  refine Agree.step (wr_keeps _ _ _ _ _) rfl ?_
  refine Agree.step (putLog_keeps _ _ _) rfl ?_
  exact Agree.refl _ _

theorem logDebug_keeps (s : State) (p : ℕ) (cls : ℕ) (requester : ℕ) (addr : ℕ) (c : ℕ) : AgreeOutside [.regs, .tru] s (logDebug s p cls requester addr c) := by
  unfold logDebug
  dsimp only
  split
  · refine Agree.step (addLog_keeps _ _ _) rfl ?_
    exact Agree.refl _ _
  · split
    · refine Agree.step (putLog_keeps _ _ _) rfl ?_
      exact Agree.refl _ _
    · refine Agree.step (addLog_keeps _ _ _) rfl ?_
      exact Agree.refl _ _

theorem debugAccess_keeps (s : State) (p : ℕ) (cls : ℕ) (requester : ℕ) (addr : ℕ) (core : Option ℕ) : AgreeOutside [.regs, .free, .out, .sch, .hst, .tru] s (debugAccess s p cls requester addr core) := by
  unfold debugAccess
  dsimp only
  split
  · exact Agree.refl _ _
  · refine Agree.step (debugEvent_keeps _ _) rfl ?_
    refine Agree.step (logDebug_keeps _ _ _ _ _ _) rfl ?_
    refine Agree.step (logCore_keeps _ _ _) rfl ?_
    split
    · refine Agree.step (tdiError_keeps _ _ _) rfl ?_
      refine Agree.step (wr_keeps _ _ _ _ _) rfl ?_
      refine Agree.step (wr_keeps _ _ _ _ _) rfl ?_
      exact Agree.refl _ _
    · refine Agree.step (wr_keeps _ _ _ _ _) rfl ?_
      refine Agree.step (wr_keeps _ _ _ _ _) rfl ?_
      exact Agree.refl _ _

theorem dropWork_keeps (s : State) (rings : List ℕ) : AgreeOutside [.ord, .lnk, .kv] s (dropWork s rings) := by
  unfold dropWork
  dsimp only
  refine Agree.update (fun p hp => by cases p <;> first | exact absurd (by decide) hp | exact rfl) ?_
  exact Agree.refl _ _

theorem discardFinals_keeps (s : State) (mine : Flight → Bool) : AgreeOutside [.ord] s (discardFinals s mine) := by
  unfold discardFinals
  dsimp only
  refine Agree.update (fun p hp => by cases p <;> first | exact absurd (by decide) hp | exact rfl) ?_
  exact Agree.refl _ _

theorem resetCounters_keeps (s : State) (c : ℕ) : AgreeOutside [.regs, .cores] s (resetCounters s c) := by
  unfold resetCounters
  refine Agree.step (wr_keeps _ _ _ _ _) rfl ?_
  refine Agree.step (clearCounters_keeps _ _) rfl ?_
  exact Agree.refl _ _

theorem resetCore_keeps (s : State) (c : ℕ) : AgreeOutside [.spd, .regs, .shadow, .cores, .harps] s (resetCore s c) := by
  unfold resetCore
  refine Agree.step (Agree.with_spd _ _) rfl ?_
  refine Agree.step (setCore_keeps _ _ _) rfl ?_
  refine Agree.step (resetCounters_keeps _ _) rfl ?_
  refine Agree.step (resetRegs_keeps _ _) rfl ?_
  exact Agree.foldl (fun u h => Agree.mono (onHarp_keeps _ _ _ _) rfl) (Agree.refl _ _)

theorem failImport_keeps (s : State) (p : ℕ) (code : ℕ) : AgreeOutside [.regs] s (failImport s p code) := by
  unfold failImport
  refine Agree.step (wr_keeps _ _ _ _ _) rfl ?_
  refine Agree.step (wr_keeps _ _ _ _ _) rfl ?_
  exact Agree.refl _ _

theorem abortImport_keeps (s : State) (p : ℕ) : AgreeOutside [.regs] s (abortImport s p) := by
  unfold abortImport
  split
  · refine Agree.step (failImport_keeps _ _ _) rfl ?_
    exact Agree.refl _ _
  · exact Agree.refl _ _

theorem partitionReset_keeps (s : State) (p : ℕ) : AgreeOutside [.spd, .regs, .shadow, .out, .cores, .harps, .ord, .sch, .hst, .lnk, .kv, .tru] s (partitionReset s p) := by
  unfold partitionReset
  dsimp only
  split
  · exact Agree.refl _ _
  · refine Agree.step (abortImport_keeps _ _) rfl ?_
    refine Agree.step (clearGuards_keeps _ _) rfl ?_
    refine Agree.update (fun p hp => by cases p <;> first | exact absurd (by decide) hp | exact rfl) ?_
    refine Agree.foldl (fun u x => ?_) ?_
    · refine Agree.step (resetCore_keeps _ _) rfl ?_
      exact Agree.refl _ _
    refine Agree.step (discardFinals_keeps _ _) rfl ?_
    refine Agree.step (dropWork_keeps _ _) rfl ?_
    refine Agree.step (resetCommands_keeps _ _ _ _) rfl ?_
    refine Agree.step (wr_keeps _ _ _ _ _) rfl ?_
    refine Agree.step (wr_keeps _ _ _ _ _) rfl ?_
    exact Agree.refl _ _

theorem respond_keeps (s : State) (fn : ℕ) (name : String) (values : List ℕ) : AgreeOutside [.out] s (respond s fn name values) := by
  unfold respond
  refine Agree.step (emit_keeps _ _) rfl ?_
  exact Agree.refl _ _

theorem emits_keeps (s : State) (os : List Out) : AgreeOutside [.out] s (emits s os) := by
  unfold emits
  refine Agree.update (fun p hp => by cases p <;> first | exact absurd (by decide) hp | exact rfl) ?_
  exact Agree.refl _ _

theorem stallAll_keeps (s : State) : AgreeOutside [.regs, .out, .cores, .harps, .ord, .ms, .sch, .ras, .hst, .lnk, .kv] s (stallAll s) := by
  unfold stallAll
  dsimp only
  refine Agree.foldl (fun u p => Agree.mono (abortImport_keeps _ _) rfl) ?_
  refine Agree.step (startReplay_keeps _) rfl ?_
  refine Agree.step (Agree.with_cut _ _ _ _ _ _) rfl ?_
  refine Agree.step (dropWork_keeps _ _) rfl ?_
  refine Agree.step (wr_keeps _ _ _ _ _) rfl ?_
  refine Agree.step (wr_keeps _ _ _ _ _) rfl ?_
  refine Agree.foldl (fun u c => Agree.ite (Agree.refl _ _) ?_) ?_
  · exact Agree.mono (abandonCore_keeps _ _) rfl
  exact Agree.mono (endCommands_keeps _ _ _ _) rfl

theorem takeCut_keeps (s : State) (t : ℕ) (late : Bool) : AgreeOutside [.regs, .out, .cores, .harps, .ord, .ms, .sch, .ras, .hst, .lnk, .kv] s (takeCut s t late) := by
  unfold takeCut
  refine Agree.step (Agree.with_ras _ _) rfl ?_
  refine Agree.step (wrB_keeps _ _ _ _ _) rfl ?_
  refine Agree.step (wr_keeps _ _ _ _ _) rfl ?_
  refine Agree.step (wr_keeps _ _ _ _ _) rfl ?_
  refine Agree.foldl (fun u l => Agree.step (wr_keeps _ _ _ _ _) rfl (Agree.mono (wr_keeps _ _ _ _ _) rfl)) ?_
  exact Agree.ite (Agree.refl _ _) (Agree.mono (stallAll_keeps _) rfl)

theorem startGather_keeps (s : State) (c : ℕ) (key : ℕ) : AgreeOutside [.cores] s (startGather s c key) := by
  unfold startGather
  dsimp only
  split
  · exact Agree.refl _ _
  · split
    · exact Agree.refl _ _
    · refine Agree.step (setCore_keeps _ _ _) rfl ?_
      exact Agree.refl _ _

theorem setPartDuty_keeps (s : State) (key : ℕ) (d : ℕ) : AgreeOutside [.pwr] s (setPartDuty s key d) := by
  unfold setPartDuty
  dsimp only
  refine Agree.update (fun p hp => by cases p <;> first | exact absurd (by decide) hp | exact rfl) ?_
  exact Agree.refl _ _

theorem replayRegion_keeps (s : State) (r : ℕ) (mine : ℕ → Bool) : AgreeOutside [.mem] s (replayRegion s r mine) := by
  unfold replayRegion
  dsimp only
  split
  · exact Agree.refl _ _
  · refine Agree.foldl (fun u x => ?_) ?_
    · split
      · exact Agree.refl _ _
      · split
        · exact Agree.refl _ _
        · refine Agree.step (landMem_keeps _ _ _ _) rfl ?_
          exact Agree.refl _ _
    exact Agree.refl _ _

theorem markBad_keeps (s : State) (line : ℕ) : AgreeOutside [.mem, .ms] s (markBad s line) := by
  unfold markBad
  dsimp only
  split
  · split
    · exact Agree.refl _ _
    · refine Agree.update (fun p hp => by cases p <;> first | exact absurd (by decide) hp | exact rfl) ?_
      exact Agree.refl _ _
  · refine Agree.update (fun p hp => by cases p <;> first | exact absurd (by decide) hp | exact rfl) ?_
    exact Agree.refl _ _

theorem scheduleRepair_keeps (s : State) (b : BankRow) : AgreeOutside [.ms] s (scheduleRepair s b) := by
  unfold scheduleRepair
  dsimp only
  split
  · exact Agree.refl _ _
  · refine Agree.update (fun p hp => by cases p <;> first | exact absurd (by decide) hp | exact rfl) ?_
    exact Agree.refl _ _

theorem eccUncorrectable_keeps (s : State) (line : ℕ) (d0 : ℕ) : AgreeOutside [.mem, .regs, .out, .ms, .sch, .ras, .hst] s (eccUncorrectable s line d0) := by
  unfold eccUncorrectable
  dsimp only
  refine Agree.step (poisonFound_keeps _ _ _ _ _) rfl ?_
  refine Agree.step (scheduleRepair_keeps _ _) rfl ?_
  split
  · refine Agree.step (addSat_keeps _ _ _ _ _) rfl ?_
    refine Agree.step (markBad_keeps _ _) rfl ?_
    exact Agree.refl _ _
  · refine Agree.step (wr_keeps _ _ _ _ _) rfl ?_
    refine Agree.step (wr_keeps _ _ _ _ _) rfl ?_
    refine Agree.step (wr_keeps _ _ _ _ _) rfl ?_
    refine Agree.step (wr_keeps _ _ _ _ _) rfl ?_
    refine Agree.step (wr_keeps _ _ _ _ _) rfl ?_
    refine Agree.step (addSat_keeps _ _ _ _ _) rfl ?_
    refine Agree.step (markBad_keeps _ _) rfl ?_
    exact Agree.refl _ _

theorem garbleLine_keeps (s : State) (line : ℕ) : AgreeOutside [.mem, .free] s (garbleLine s line) := by
  unfold garbleLine
  dsimp only
  split
  · exact Agree.refl _ _
  · refine Agree.update (fun p hp => by cases p <;> first | exact absurd (by decide) hp | exact rfl) ?_
    refine Agree.foldl_snd (fun u x => ?_) ?_
    · dsimp only
      refine Agree.step (takeFree_keeps _) rfl ?_
      exact Agree.refl _ _
    dsimp only
    exact Agree.refl _ _

theorem eccNear_keeps (s : State) (line : ℕ) (d0 : ℕ) (m : Medium) : AgreeOutside [.mem, .regs, .free, .out, .ms, .sch, .ras, .hst] s (eccNear s line d0 m) := by
  unfold eccNear
  dsimp only
  split
  · split
    · refine Agree.step (noteCorrected_keeps _ _ _ _) rfl ?_
      refine Agree.step (addSat_keeps _ _ _ _ _) rfl ?_
      exact Agree.refl _ _
    · refine Agree.step (addSat_keeps _ _ _ _ _) rfl ?_
      exact Agree.refl _ _
  · refine Agree.step (noteCorrected_keeps _ _ _ _) rfl ?_
    refine Agree.step (addSat_keeps _ _ _ _ _) rfl ?_
    split
    · refine Agree.step (noteCorrected_keeps _ _ _ _) rfl ?_
      refine Agree.step (addSat_keeps _ _ _ _ _) rfl ?_
      exact Agree.refl _ _
    · refine Agree.step (addSat_keeps _ _ _ _ _) rfl ?_
      exact Agree.refl _ _
  · refine Agree.step (eccUncorrectable_keeps _ _ _) rfl ?_
    split
    · refine Agree.step (noteCorrected_keeps _ _ _ _) rfl ?_
      refine Agree.step (addSat_keeps _ _ _ _ _) rfl ?_
      exact Agree.refl _ _
    · refine Agree.step (addSat_keeps _ _ _ _ _) rfl ?_
      exact Agree.refl _ _
  · split
    · refine Agree.step (eccUncorrectable_keeps _ _ _) rfl ?_
      refine Agree.step (takeFree_keeps _) rfl ?_
      split
      · refine Agree.step (noteCorrected_keeps _ _ _ _) rfl ?_
        refine Agree.step (addSat_keeps _ _ _ _ _) rfl ?_
        exact Agree.refl _ _
      · refine Agree.step (addSat_keeps _ _ _ _ _) rfl ?_
        exact Agree.refl _ _
    · refine Agree.step (noteCorrected_keeps _ _ _ _) rfl ?_
      refine Agree.step (addSat_keeps _ _ _ _ _) rfl ?_
      refine Agree.step (garbleLine_keeps _ _) rfl ?_
      refine Agree.step (takeFree_keeps _) rfl ?_
      split
      · refine Agree.step (noteCorrected_keeps _ _ _ _) rfl ?_
        refine Agree.step (addSat_keeps _ _ _ _ _) rfl ?_
        exact Agree.refl _ _
      · refine Agree.step (addSat_keeps _ _ _ _ _) rfl ?_
        exact Agree.refl _ _
    · refine Agree.step (garbleLine_keeps _ _) rfl ?_
      refine Agree.step (takeFree_keeps _) rfl ?_
      split
      · refine Agree.step (noteCorrected_keeps _ _ _ _) rfl ?_
        refine Agree.step (addSat_keeps _ _ _ _ _) rfl ?_
        exact Agree.refl _ _
      · refine Agree.step (addSat_keeps _ _ _ _ _) rfl ?_
        exact Agree.refl _ _

theorem eccIn_keeps (s : State) (line : ℕ) (m : Medium) (d0 : ℕ) (a4 : Place) : AgreeOutside [.mem, .regs, .free, .out, .ms, .sch, .ras, .hst] s (eccIn s line m d0 a4) := by
  cases a4
  · exact Agree.mono (eccNear_keeps _ _ _ _) rfl
  · refine Agree.ite (Agree.step (addSat_keeps _ _ _ _ _) rfl (Agree.refl _ _)) (Agree.ite ?_ (Agree.refl _ _))
    refine Agree.step (poisonFound_keeps _ _ _ _ _) rfl ?_
    refine Agree.step (addSat_keeps _ _ _ _ _) rfl ?_
    exact Agree.mono (markBad_keeps _ _) rfl
  · exact Agree.refl _ _
  · exact Agree.refl _ _

theorem eccFound_keeps (s : State) (line : ℕ) (m : Medium) (d0 : ℕ) : AgreeOutside [.mem, .regs, .free, .out, .ms, .sch, .ras, .hst] s (eccFound s line m d0) := by
  exact eccIn_keeps _ _ _ _ _

theorem dropRead_keeps (s : State) (n : ℕ) : AgreeOutside [.ord] s (dropRead s n) := by
  unfold dropRead
  dsimp only
  refine Agree.update (fun p hp => by cases p <;> first | exact absurd (by decide) hp | exact rfl) ?_
  exact Agree.refl _ _

theorem injMsgs_keeps (s : State) (l : ℕ) (a2 : List TxMsg) (a3 : List TxMsg) : AgreeOutside [.regs, .free, .cores, .harps, .sch, .lnk] s (injMsgs s l a2 a3).1 := by
  induction a2 generalizing s a3 with
  | nil => exact Agree.refl _ _
  | cons t ts ih =>
    have hi : ∀ (u : State) (o : List TxMsg), AgreeOutside [.regs, .free, .cores, .harps, .sch, .lnk] s u →
        AgreeOutside [.regs, .free, .cores, .harps, .sch, .lnk] s (injMsgs u l ts o).1 := fun u o h => Agree.trans h (ih u o)
    have hj : ∀ (u : State) (n : Nat), AgreeOutside [.regs, .free, .cores, .harps, .sch, .lnk] s u →
        AgreeOutside [.regs, .free, .cores, .harps, .sch, .lnk] s (injHit u l n).2 := fun u n h => Agree.step (injHit_keeps _ _ _) rfl h
    have hk : ∀ (u : State) (f : LinkRt → LinkRt), AgreeOutside [.regs, .free, .cores, .harps, .sch, .lnk] s u →
        AgreeOutside [.regs, .free, .cores, .harps, .sch, .lnk] s (onLink u l f) := fun u f h => Agree.step (onLink_keeps _ _ _) rfl h
    have hm : ∀ (u : State), AgreeOutside [.regs, .free, .cores, .harps, .sch, .lnk] s u →
        AgreeOutside [.regs, .free, .cores, .harps, .sch, .lnk] s (loseMsg u (linkPeer u l) t) := fun u h => Agree.step (loseMsg_keeps _ _ _) rfl h
    have hf : ∀ (u : State), AgreeOutside [.regs, .free, .cores, .harps, .sch, .lnk] s u →
        AgreeOutside [.regs, .free, .cores, .harps, .sch, .lnk] s (takeFree u).2 := fun u h => Agree.step (takeFree_keeps _) rfl h
    unfold injMsgs
    have h0 : AgreeOutside [.regs, .free, .cores, .harps, .sch, .lnk] s (passHeldMsg s l t a3).1 := Agree.mono (passHeldMsg_keeps _ _ _ _) rfl
    dsimp only
    generalize passHeldMsg s l t a3 = q at *
    split
    · exact hi _ _ h0
    · split
      · exact hi _ _ (hm _ (hj _ _ h0))
      · split
        · exact hi _ _ (hf _ (hj _ _ (hj _ _ h0)))
        · split
          · exact hi _ _ (hj _ _ (hj _ _ h0))
          · split
            · exact hi _ _ (hk _ _ (hf _ (hj _ _ (hj _ _ (hj _ _ h0)))))
            · exact hi _ _ (hj _ _ (hj _ _ (hj _ _ h0)))

theorem putSwapped_keeps (s : State) (l : ℕ) (f : SentFrame) : AgreeOutside [.regs, .free, .out, .lnk] s (putSwapped s l f) := by
  unfold putSwapped
  dsimp only
  split
  · refine Agree.step (putFrame_keeps _ _ _ _) rfl ?_
    refine Agree.step (putFrame_keeps _ _ _ _) rfl ?_
    refine Agree.step (onLink_keeps _ _ _) rfl ?_
    exact Agree.refl _ _
  · split
    · refine Agree.step (onLink_keeps _ _ _) rfl ?_
      refine Agree.step (injHit_keeps _ _ _) rfl ?_
      exact Agree.refl _ _
    · refine Agree.step (putFrame_keeps _ _ _ _) rfl ?_
      refine Agree.step (injHit_keeps _ _ _) rfl ?_
      exact Agree.refl _ _

theorem newFrame_keeps (s : State) (l : ℕ) : AgreeOutside [.regs, .free, .out, .cores, .harps, .sch, .lnk] s (newFrame s l) := by
  unfold newFrame
  dsimp only
  refine Agree.step (putSwapped_keeps _ _ _) rfl ?_
  refine Agree.step (onLink_keeps _ _ _) rfl ?_
  refine Agree.step (wr_keeps _ _ _ _ _) rfl ?_
  refine Agree.step (injMsgs_keeps _ _ _ _) rfl ?_
  refine Agree.step (onLink_keeps _ _ _) rfl ?_
  exact Agree.refl _ _

theorem endTest_keeps (s : State) (c : ℕ) (result : ℕ) : AgreeOutside [.spd, .regs, .cores, .sch, .ras] s (endTest s c result) := by
  unfold endTest
  dsimp only
  split
  · refine Agree.step (decideNow_keeps _ _) rfl ?_
    refine Agree.update (fun p hp => by cases p <;> first | exact absurd (by decide) hp | exact rfl) ?_
    refine Agree.step (wr_keeps _ _ _ _ _) rfl ?_
    refine Agree.step (wr_keeps _ _ _ _ _) rfl ?_
    refine Agree.step (onCore_keeps _ _ _) rfl ?_
    exact Agree.refl _ _
  · refine Agree.update (fun p hp => by cases p <;> first | exact absurd (by decide) hp | exact rfl) ?_
    refine Agree.step (wr_keeps _ _ _ _ _) rfl ?_
    refine Agree.step (wr_keeps _ _ _ _ _) rfl ?_
    refine Agree.step (onCore_keeps _ _ _) rfl ?_
    exact Agree.refl _ _

theorem clearOrders_keeps (s : State) (m : ℕ) : AgreeOutside [.lnk] s (clearOrders s m) := by
  unfold clearOrders
  dsimp only
  refine Agree.update (fun p hp => by cases p <;> first | exact absurd (by decide) hp | exact rfl) ?_
  exact Agree.refl _ _

theorem consumeBuffer_keeps (s : State) (c : ℕ) (b : ℕ) : AgreeOutside [.cores, .harps, .ord, .sch, .lnk] s (consumeBuffer s c b) := by
  unfold consumeBuffer
  dsimp only
  split
  · exact Agree.refl _ _
  · split
    · refine Agree.step (returnCredit_keeps _ _ _ _ _ _ _ _) rfl ?_
      refine Agree.step (setCore_keeps _ _ _) rfl ?_
      exact Agree.refl _ _
    · refine Agree.step (setCore_keeps _ _ _) rfl ?_
      exact Agree.refl _ _

theorem endPass_keeps (s : State) (c : ℕ) (h : ℕ) (p : Pass) : AgreeOutside [.regs, .cores, .harps, .ord, .sch, .lnk] s (endPass s c h p) := by
  unfold endPass
  dsimp only
  refine Agree.step (setHarp_keeps _ _ _ _) rfl ?_
  refine Agree.step (release_keeps _ _ _) rfl ?_
  refine Agree.foldl (fun u x => ?_) ?_
  · refine Agree.step (consumeBuffer_keeps _ _ _) rfl ?_
    exact Agree.refl _ _
  exact Agree.refl _ _

theorem suspectCore_keeps (s : State) (c : ℕ) (cls : ℕ) (harps : ℕ) (byTest : Bool) : AgreeOutside [.regs, .out, .cores, .sch, .ras, .hst] s (suspectCore s c cls harps byTest) := by
  unfold suspectCore
  dsimp only
  split
  · exact Agree.refl _ _
  · refine Agree.step (logErr_keeps _ _) rfl ?_
    split
    · refine Agree.step (wr_keeps _ _ _ _ _) rfl ?_
      refine Agree.step (onCore_keeps _ _ _) rfl ?_
      exact Agree.refl _ _
    · refine Agree.step (wr_keeps _ _ _ _ _) rfl ?_
      refine Agree.update (fun p hp => by cases p <;> first | exact absurd (by decide) hp | exact rfl) ?_
      refine Agree.step (wr_keeps _ _ _ _ _) rfl ?_
      refine Agree.step (onCore_keeps _ _ _) rfl ?_
      exact Agree.refl _ _

theorem writePieces_keeps (s : State) (a1 : List (ℕ × ℕ)) (a2 : List Byte) : AgreeOutside [.mem] s (writePieces s a1 a2) := by
  induction a1 generalizing s a2 with
  | nil => exact Agree.refl _ _
  | cons x t ih =>
    refine Agree.trans ?_ (ih _ _)
    exact Agree.update (fun p hp => by cases p <;> first | exact absurd (by decide) hp | exact rfl) (Agree.refl _ _)

theorem endImport_keeps (s : State) (p : ℕ) (i : Import) : AgreeOutside [.mem, .regs, .tru] s (endImport s p i) := by
  unfold endImport
  dsimp only
  refine Agree.step (setImport_keeps _ _ _) rfl ?_
  refine Agree.step (wr_keeps _ _ _ _ _) rfl ?_
  refine Agree.step (wr_keeps _ _ _ _ _) rfl ?_
  refine Agree.step (wr_keeps _ _ _ _ _) rfl ?_
  refine Agree.update (fun p hp => by cases p <;> first | exact absurd (by decide) hp | exact rfl) ?_
  refine Agree.step (wr_keeps _ _ _ _ _) rfl ?_
  refine Agree.step (wr_keeps _ _ _ _ _) rfl ?_
  refine Agree.step (wr_keeps _ _ _ _ _) rfl ?_
  refine Agree.step (wr_keeps _ _ _ _ _) rfl ?_
  refine Agree.step (writePieces_keeps _ _ _) rfl ?_
  exact Agree.refl _ _

end Sys2Proof.Laws
end

