-- ==== Sys2Proof/Laws/Keeps4.lean ====
section
/-!
SUPPORT. Sys2Proof/Laws/Keeps4.lean: for each operation, the parts of the state outside which it changes nothing
(4 of 6, in the order in which the operations use one another).
-/
namespace Sys2Proof.Laws
open Sys2Proof.Machine Sys2Proof.Safety

theorem remoteLoaded_keeps (s : State) (r : Remote) (msg : Msg) : AgreeOutside [.regs, .out, .cores, .harps, .sch, .ras, .hst] s (remoteLoaded s r msg) := by
  unfold remoteLoaded
  dsimp only
  split
  · refine Agree.step (consumePoison_keeps _ _ _ _) rfl ?_
    refine Agree.step (onCore_keeps _ _ _) rfl ?_
    exact Agree.refl _ _
  · refine Agree.step (onCore_keeps _ _ _) rfl ?_
    exact Agree.refl _ _

theorem fdlFlags_keeps (s : State) (c : ℕ) (fl : ℕ) : AgreeOutside [.regs, .sch] s (fdlFlags s c fl) := by
  unfold fdlFlags
  dsimp only
  split
  · refine Agree.step (orExceptions_keeps _ _ _) rfl ?_
    refine Agree.step (setReg_keeps _ _ _) rfl ?_
    exact Agree.refl _ _
  · refine Agree.step (setReg_keeps _ _ _) rfl ?_
    exact Agree.refl _ _

theorem passTile_keeps (s : State) (key : ℕ) (o : ℕ) (parts : ℕ) : AgreeOutside [.lnk] s (passTile s key o parts) := by
  unfold passTile
  refine Agree.foldl (fun u x => ?_) ?_
  · refine Agree.step (landedOrder_keeps _ _ _) rfl ?_
    exact Agree.refl _ _
  exact Agree.refl _ _

theorem flashAppend_keeps (s : State) (words : List W64) : AgreeOutside [.flash] s (flashAppend s words) := by
  unfold flashAppend
  dsimp only
  refine Agree.update (fun p hp => by cases p <;> first | exact absurd (by decide) hp | exact rfl) ?_
  exact Agree.refl _ _

theorem flashTrip_keeps (s : State) (e : ErrInfo) : AgreeOutside [.flash] s (flashTrip s e) := by
  unfold flashTrip
  dsimp only
  refine Agree.step (flashAppend_keeps _ _) rfl ?_
  exact Agree.refl _ _

theorem bufferWrite_keeps (s : State) (off : ℕ) (v : W64) : AgreeOutside [.mgm] s (bufferWrite s off v) := by
  unfold bufferWrite
  refine Agree.step (putBuffer_keeps _ _ _) rfl ?_
  exact Agree.refl _ _

theorem discardSave_keeps (s : State) (w : ℕ) : AgreeOutside [.regs, .sch] s (discardSave s w) := by
  unfold discardSave
  dsimp only
  refine Agree.step (wr_keeps _ _ _ _ _) rfl ?_
  refine Agree.step (onRing_keeps _ _ _) rfl ?_
  refine Agree.step (onCmd_keeps _ _ _) rfl ?_
  exact Agree.refl _ _

theorem finishSave_keeps (s : State) (w : ℕ) : AgreeOutside [.regs, .cores, .harps, .sch] s (finishSave s w) := by
  unfold finishSave
  dsimp only
  split
  · exact Agree.refl _ _
  · split
    · split
      · split
        · refine Agree.step (discardSave_keeps _ _) rfl ?_
          refine Agree.step (onCmd_keeps _ _ _) rfl ?_
          refine Agree.step (decideNow_keeps _ _) rfl ?_
          refine Agree.step (wr_keeps _ _ _ _ _) rfl ?_
          refine Agree.step (wr_keeps _ _ _ _ _) rfl ?_
          refine Agree.step (onRing_keeps _ _ _) rfl ?_
          refine Agree.foldl (fun u x => ?_) ?_
          · refine Agree.step (onCore_keeps _ _ _) rfl ?_
            refine Agree.step (abandonCore_keeps _ _) rfl ?_
            exact Agree.refl _ _
          refine Agree.step (onRing_keeps _ _ _) rfl ?_
          exact Agree.refl _ _
        · refine Agree.step (onCmd_keeps _ _ _) rfl ?_
          refine Agree.step (decideNow_keeps _ _) rfl ?_
          refine Agree.step (wr_keeps _ _ _ _ _) rfl ?_
          refine Agree.step (wr_keeps _ _ _ _ _) rfl ?_
          refine Agree.step (onRing_keeps _ _ _) rfl ?_
          refine Agree.foldl (fun u x => ?_) ?_
          · refine Agree.step (onCore_keeps _ _ _) rfl ?_
            refine Agree.step (abandonCore_keeps _ _) rfl ?_
            exact Agree.refl _ _
          refine Agree.step (onRing_keeps _ _ _) rfl ?_
          exact Agree.refl _ _
      · refine Agree.step (decideNow_keeps _ _) rfl ?_
        refine Agree.step (wr_keeps _ _ _ _ _) rfl ?_
        refine Agree.step (wr_keeps _ _ _ _ _) rfl ?_
        refine Agree.step (onRing_keeps _ _ _) rfl ?_
        refine Agree.foldl (fun u x => ?_) ?_
        · refine Agree.step (onCore_keeps _ _ _) rfl ?_
          refine Agree.step (abandonCore_keeps _ _) rfl ?_
          exact Agree.refl _ _
        refine Agree.step (onRing_keeps _ _ _) rfl ?_
        exact Agree.refl _ _
    · refine Agree.step (decideNow_keeps _ _) rfl ?_
      refine Agree.step (wr_keeps _ _ _ _ _) rfl ?_
      refine Agree.step (wr_keeps _ _ _ _ _) rfl ?_
      refine Agree.step (onRing_keeps _ _ _) rfl ?_
      refine Agree.foldl (fun u x => ?_) ?_
      · refine Agree.step (onCore_keeps _ _ _) rfl ?_
        refine Agree.step (abandonCore_keeps _ _) rfl ?_
        exact Agree.refl _ _
      refine Agree.step (onRing_keeps _ _ _) rfl ?_
      exact Agree.refl _ _

theorem intLanes_keeps (op : FdlOp) (f : ℕ) (a2 : State) (a3 : List (ℕ × ℕ)) : AgreeOutside [.free] a2 (intLanes op f a2 a3).1 := by
  induction a3 generalizing a2 with
  | nil => exact Agree.refl _ _
  | cons x t ih =>
    unfold intLanes
    split
    · exact ih _
    · exact Agree.trans (takeFree_keeps _) (ih _)

theorem loadCore_keeps (s : State) (w : ℕ) (cmd : Cmd) (i : ℕ) (e : List W64) (ks : List (ℕ × ℕ)) (ps : List (ℕ × ℕ)) : AgreeOutside [.mem, .spd, .regs, .out, .cores, .harps, .ms, .sch, .ras, .obs, .hst] s (loadCore s w cmd i e ks ps) := by
  unfold loadCore
  dsimp only
  refine Agree.step (onCore_keeps _ _ _) rfl ?_
  refine Agree.step (wr_keeps _ _ _ _ _) rfl ?_
  refine Agree.step (storeMoved_keeps _ _ _ _ _ _ _) rfl ?_
  split
  · refine Agree.step (poisonFound_keeps _ _ _ _ _) rfl ?_
    refine Agree.foldl (fun u x => ?_) ?_
    · refine Agree.step (sliceRd_keeps _ _ _ _ _ _) rfl ?_
      exact Agree.refl _ _
    refine Agree.foldl (fun u x => ?_) ?_
    · refine Agree.step (sliceRd_keeps _ _ _ _ _ _) rfl ?_
      exact Agree.refl _ _
    refine Agree.step (traceRec_keeps _ _ _ _ _ _) rfl ?_
    refine Agree.step (onCore_keeps _ _ _) rfl ?_
    split
    · refine Agree.step (clearCounters_keeps _ _) rfl ?_
      exact Agree.refl _ _
    · exact Agree.refl _ _
  · refine Agree.foldl (fun u x => ?_) ?_
    · refine Agree.step (sliceRd_keeps _ _ _ _ _ _) rfl ?_
      exact Agree.refl _ _
    refine Agree.foldl (fun u x => ?_) ?_
    · refine Agree.step (sliceRd_keeps _ _ _ _ _ _) rfl ?_
      exact Agree.refl _ _
    refine Agree.step (traceRec_keeps _ _ _ _ _ _) rfl ?_
    refine Agree.step (onCore_keeps _ _ _) rfl ?_
    split
    · refine Agree.step (clearCounters_keeps _ _) rfl ?_
      exact Agree.refl _ _
    · exact Agree.refl _ _

theorem takeSnap_keeps (s : State) (c : ℕ) (cause : ℕ) (late : Bool) : AgreeOutside [.regs, .cores] s (takeSnap s c cause late) := by
  unfold takeSnap
  dsimp only
  refine Agree.step (traceRec_keeps _ _ _ _ _ _) rfl ?_
  refine Agree.step (wr_keeps _ _ _ _ _) rfl ?_
  refine Agree.step (wr_keeps _ _ _ _ _) rfl ?_
  refine Agree.step (wr_keeps _ _ _ _ _) rfl ?_
  refine Agree.step (wr_keeps _ _ _ _ _) rfl ?_
  refine Agree.step (wrB_keeps _ _ _ _ _) rfl ?_
  refine Agree.step (wr_keeps _ _ _ _ _) rfl ?_
  refine Agree.step (wr_keeps _ _ _ _ _) rfl ?_
  refine Agree.foldl (fun u x => ?_) ?_
  · refine Agree.step (wr_keeps _ _ _ _ _) rfl ?_
    exact Agree.refl _ _
  exact Agree.refl _ _

theorem stopHere_keeps (s : State) (c : ℕ) : AgreeOutside [.regs, .cores] s (stopHere s c) := by
  unfold stopHere
  dsimp only
  split
  · exact Agree.refl _ _
  · split
    · split
      · refine Agree.step (takeSnap_keeps _ _ _ _) rfl ?_
        refine Agree.step (onCore_keeps _ _ _) rfl ?_
        exact Agree.refl _ _
      · refine Agree.step (onCore_keeps _ _ _) rfl ?_
        exact Agree.refl _ _
    · refine Agree.step (onCore_keeps _ _ _) rfl ?_
      exact Agree.refl _ _

theorem creditStop_keeps (s : State) (c : ℕ) : AgreeOutside [.regs, .cores] s (creditStop s c) := by
  unfold creditStop
  dsimp only
  split
  · refine Agree.step (stopHere_keeps _ _) rfl ?_
    exact Agree.refl _ _
  · exact Agree.refl _ _

theorem issueNext_keeps (s : State) (w : ℕ) (c : Cmd) : AgreeOutside [.mem, .regs, .out, .cores, .harps, .ord, .ms, .sch, .ras, .obs, .hst, .kv] s (issueNext s w c) := by
  unfold issueNext
  dsimp only
  split
  · refine Agree.step (xlateFail_keeps _ _ _ _ _ _ _) rfl ?_
    refine Agree.step (learnRange_keeps _ _ _ _ _ _ _ _) rfl ?_
    exact Agree.refl _ _
  · split
    · refine Agree.step (consumePoison_keeps _ _ _ _) rfl ?_
      refine Agree.foldl (fun u x => ?_) ?_
      · refine Agree.step (sliceRd_keeps _ _ _ _ _ _) rfl ?_
        exact Agree.refl _ _
      refine Agree.step (learnRange_keeps _ _ _ _ _ _ _ _) rfl ?_
      exact Agree.refl _ _
    · split
      · refine Agree.step (failCmd_keeps _ _ _ _) rfl ?_
        refine Agree.foldl (fun u x => ?_) ?_
        · refine Agree.step (sliceRd_keeps _ _ _ _ _ _) rfl ?_
          exact Agree.refl _ _
        refine Agree.step (learnRange_keeps _ _ _ _ _ _ _ _) rfl ?_
        exact Agree.refl _ _
      · refine Agree.step (onCmd_keeps _ _ _) rfl ?_
        refine Agree.step (issueKv_keeps _ _ _ _) rfl ?_
        refine Agree.foldl (fun u x => ?_) ?_
        · refine Agree.step (sliceRd_keeps _ _ _ _ _ _) rfl ?_
          exact Agree.refl _ _
        refine Agree.step (learnRange_keeps _ _ _ _ _ _ _ _) rfl ?_
        exact Agree.refl _ _

theorem notePoison_keeps (s : State) (w : ℕ) (pa : Option ℕ) : AgreeOutside [.regs, .out, .sch, .ras, .hst] s (notePoison s w pa) := by
  unfold notePoison
  dsimp only
  split
  · exact Agree.refl _ _
  · split
    · exact Agree.refl _ _
    · refine Agree.step (poisonRecord_keeps _ _ _ _) rfl ?_
      refine Agree.step (setRing_keeps _ _ _) rfl ?_
      exact Agree.refl _ _

theorem takeMeasurements_keeps (s : State) : AgreeOutside [.regs, .tru] s (takeMeasurements s) := by
  unfold takeMeasurements
  dsimp only
  refine Agree.step (wr_keeps _ _ _ _ _) rfl ?_
  refine Agree.update (fun p hp => by cases p <;> first | exact absurd (by decide) hp | exact rfl) ?_
  exact Agree.refl _ _

theorem avoidRetired_keeps (s : State) (w : ℕ) (cs : List ℕ) : AgreeOutside [.sch] s (avoidRetired s w cs) := by
  unfold avoidRetired
  refine Agree.step (onRing_keeps _ _ _) rfl ?_
  exact Agree.refl _ _

theorem endStallRun_keeps (s : State) (c : ℕ) (h : ℕ) : AgreeOutside [.regs, .cores, .obs] s (endStallRun s c h) := by
  unfold endStallRun
  dsimp only
  split
  · exact Agree.refl _ _
  · split
    · refine Agree.step (traceRec_keeps _ _ _ _ _ _) rfl ?_
      refine Agree.update (fun p hp => by cases p <;> first | exact absurd (by decide) hp | exact rfl) ?_
      exact Agree.refl _ _
    · refine Agree.update (fun p hp => by cases p <;> first | exact absurd (by decide) hp | exact rfl) ?_
      exact Agree.refl _ _

theorem cleanLines_keeps (s : State) (ls : List ℕ) : AgreeOutside [.ms] s (cleanLines s ls) := by
  unfold cleanLines
  dsimp only
  refine Agree.update (fun p hp => by cases p <;> first | exact absurd (by decide) hp | exact rfl) ?_
  exact Agree.refl _ _

theorem writeBackAll_keeps (s : State) (ls : List ℕ) : AgreeOutside [.out, .ms] s (writeBackAll s ls) := by
  unfold writeBackAll
  refine Agree.step (cleanLines_keeps _ _) rfl ?_
  refine Agree.foldl (fun u x => ?_) ?_
  · refine Agree.step (writeBack_keeps _ _) rfl ?_
    exact Agree.refl _ _
  exact Agree.refl _ _

theorem rememberPeer_keeps (s : State) (id : List Byte) : AgreeOutside [.lnk] s (rememberPeer s id) := by
  unfold rememberPeer
  dsimp only
  split
  · exact Agree.refl _ _
  · refine Agree.update (fun p hp => by cases p <;> first | exact absurd (by decide) hp | exact rfl) ?_
    exact Agree.refl _ _

theorem blankFrame_keeps (s : State) (l : ℕ) : AgreeOutside [.lnk] s (blankFrame s l) := by
  unfold blankFrame
  refine Agree.step (onLink_keeps _ _ _) rfl ?_
  exact Agree.refl _ _

theorem discardFrame_keeps (s : State) (l : ℕ) : AgreeOutside [.lnk] s (discardFrame s l) := by
  unfold discardFrame
  refine Agree.step (onLink_keeps _ _ _) rfl ?_
  exact Agree.refl _ _

theorem linkStop_keeps (s : State) (l : ℕ) (cause : ℕ) : AgreeOutside [.regs, .lnk] s (linkStop s l cause) := by
  unfold linkStop
  dsimp only
  refine Agree.step (setLink_keeps _ _ _) rfl ?_
  refine Agree.step (wr_keeps _ _ _ _ _) rfl ?_
  refine Agree.step (setLinkState_keeps _ _ _) rfl ?_
  exact Agree.refl _ _

theorem loseRemote_keeps (s : State) (m : ℕ) : AgreeOutside [.cores, .harps, .sch, .lnk] s (loseRemote s m) := by
  unfold loseRemote
  dsimp only
  refine Agree.update (fun p hp => by cases p <;> first | exact absurd (by decide) hp | exact rfl) ?_
  refine Agree.foldl (fun u x => ?_) ?_
  · split
    · refine Agree.step (failCmd_keeps _ _ _ _) rfl ?_
      exact Agree.refl _ _
    · exact Agree.refl _ _
  exact Agree.refl _ _

theorem checkHoldover_keeps (s : State) : AgreeOutside [.regs, .out, .sch, .hst, .lnk] s (checkHoldover s) := by
  unfold checkHoldover
  dsimp only
  split
  · split
    · refine Agree.step (postEvent_keeps _ _ _ _ _ _) rfl ?_
      refine Agree.update (fun p hp => by cases p <;> first | exact absurd (by decide) hp | exact rfl) ?_
      refine Agree.step (wr_keeps _ _ _ _ _) rfl ?_
      exact Agree.refl _ _
    · refine Agree.update (fun p hp => by cases p <;> first | exact absurd (by decide) hp | exact rfl) ?_
      refine Agree.step (wr_keeps _ _ _ _ _) rfl ?_
      exact Agree.refl _ _
  · exact Agree.refl _ _

theorem failGangs_keeps (s : State) (m : ℕ) (code : ℕ) : AgreeOutside [.cores, .harps, .sch] s (failGangs s m code) := by
  unfold failGangs
  refine Agree.foldl (fun u x => ?_) ?_
  · split
    · refine Agree.step (failCmd_keeps _ _ _ _) rfl ?_
      exact Agree.refl _ _
    · exact Agree.refl _ _
  exact Agree.refl _ _

theorem remap_keeps (s : State) (m : ℕ) : AgreeOutside [.cores, .harps, .sch, .lnk] s (remap s m) := by
  unfold remap
  dsimp only
  split
  · refine Agree.update (fun p hp => by cases p <;> first | exact absurd (by decide) hp | exact rfl) ?_
    exact Agree.refl _ _
  · refine Agree.step (failGangs_keeps _ _ _) rfl ?_
    refine Agree.foldl (fun u x => ?_) ?_
    · refine Agree.step (loseMsg_keeps _ _ _) rfl ?_
      exact Agree.refl _ _
    refine Agree.update (fun p hp => by cases p <;> first | exact absurd (by decide) hp | exact rfl) ?_
    exact Agree.refl _ _

theorem leftUp_keeps (s : State) (l : ℕ) : AgreeOutside [.regs, .out, .cores, .harps, .sch, .hst, .lnk] s (leftUp s l) := by
  unfold leftUp
  dsimp only
  refine Agree.step (checkHoldover_keeps _) rfl ?_
  refine Agree.step (remap_keeps _ _) rfl ?_
  refine Agree.update (fun p hp => by cases p <;> first | exact absurd (by decide) hp | exact rfl) ?_
  exact Agree.refl _ _

theorem dropPeerHeld_keeps (s : State) (m : ℕ) : AgreeOutside [.cores, .harps, .ord, .sch, .lnk] s (dropPeerHeld s m) := by
  unfold dropPeerHeld
  refine Agree.foldl (fun u x => ?_) ?_
  · refine Agree.step (discardFinal_keeps _ _ _) rfl ?_
    exact Agree.refl _ _
  exact Agree.refl _ _

theorem linkDown_keeps (s : State) (l : ℕ) (cause : ℕ) : AgreeOutside [.regs, .out, .cores, .harps, .ord, .sch, .ras, .hst, .lnk] s (linkDown s l cause) := by
  unfold linkDown
  dsimp only
  split
  · refine Agree.step (linkStop_keeps _ _ _) rfl ?_
    exact Agree.refl _ _
  · refine Agree.step (logErr_keeps _ _) rfl ?_
    refine Agree.step (postEvent_keeps _ _ _ _ _ _) rfl ?_
    refine Agree.step (dropPeerHeld_keeps _ _) rfl ?_
    refine Agree.step (leftUp_keeps _ _) rfl ?_
    refine Agree.update (fun p hp => by cases p <;> first | exact absurd (by decide) hp | exact rfl) ?_
    split
    · split
      · split
        · refine Agree.step (loseRemote_keeps _ _) rfl ?_
          refine Agree.foldl (fun u x => ?_) ?_
          · refine Agree.step (loseMsg_keeps _ _ _) rfl ?_
            exact Agree.refl _ _
          refine Agree.step (linkStop_keeps _ _ _) rfl ?_
          exact Agree.refl _ _
        · refine Agree.foldl (fun u x => ?_) ?_
          · refine Agree.step (loseMsg_keeps _ _ _) rfl ?_
            exact Agree.refl _ _
          refine Agree.step (linkStop_keeps _ _ _) rfl ?_
          exact Agree.refl _ _
      · split
        · refine Agree.step (loseRemote_keeps _ _) rfl ?_
          refine Agree.foldl (fun u x => ?_) ?_
          · refine Agree.step (loseMsg_keeps _ _ _) rfl ?_
            exact Agree.refl _ _
          refine Agree.step (linkStop_keeps _ _ _) rfl ?_
          exact Agree.refl _ _
        · refine Agree.foldl (fun u x => ?_) ?_
          · refine Agree.step (loseMsg_keeps _ _ _) rfl ?_
            exact Agree.refl _ _
          refine Agree.step (linkStop_keeps _ _ _) rfl ?_
          exact Agree.refl _ _
    · split
      · split
        · refine Agree.step (loseRemote_keeps _ _) rfl ?_
          refine Agree.foldl (fun u x => ?_) ?_
          · refine Agree.step (loseMsg_keeps _ _ _) rfl ?_
            exact Agree.refl _ _
          refine Agree.step (linkStop_keeps _ _ _) rfl ?_
          exact Agree.refl _ _
        · refine Agree.foldl (fun u x => ?_) ?_
          · refine Agree.step (loseMsg_keeps _ _ _) rfl ?_
            exact Agree.refl _ _
          refine Agree.step (linkStop_keeps _ _ _) rfl ?_
          exact Agree.refl _ _
      · split
        · refine Agree.step (loseRemote_keeps _ _) rfl ?_
          refine Agree.foldl (fun u x => ?_) ?_
          · refine Agree.step (loseMsg_keeps _ _ _) rfl ?_
            exact Agree.refl _ _
          refine Agree.step (linkStop_keeps _ _ _) rfl ?_
          exact Agree.refl _ _
        · refine Agree.foldl (fun u x => ?_) ?_
          · refine Agree.step (loseMsg_keeps _ _ _) rfl ?_
            exact Agree.refl _ _
          refine Agree.step (linkStop_keeps _ _ _) rfl ?_
          exact Agree.refl _ _

theorem badFrame_keeps (s : State) (l : ℕ) : AgreeOutside [.regs, .out, .cores, .harps, .ord, .sch, .ras, .hst, .lnk] s (badFrame s l) := by
  unfold badFrame
  dsimp only
  split
  · split
    · refine Agree.step (linkDown_keeps _ _ _) rfl ?_
      refine Agree.step (setLink_keeps _ _ _) rfl ?_
      refine Agree.step (blankFrame_keeps _ _) rfl ?_
      refine Agree.step (discardFrame_keeps _ _) rfl ?_
      refine Agree.step (addSat_keeps _ _ _ _ _) rfl ?_
      exact Agree.refl _ _
    · refine Agree.step (setLink_keeps _ _ _) rfl ?_
      refine Agree.step (blankFrame_keeps _ _) rfl ?_
      refine Agree.step (discardFrame_keeps _ _) rfl ?_
      refine Agree.step (addSat_keeps _ _ _ _ _) rfl ?_
      exact Agree.refl _ _
  · split
    · refine Agree.step (linkDown_keeps _ _ _) rfl ?_
      refine Agree.step (setLink_keeps _ _ _) rfl ?_
      refine Agree.step (blankFrame_keeps _ _) rfl ?_
      refine Agree.step (discardFrame_keeps _ _) rfl ?_
      refine Agree.step (addSat_keeps _ _ _ _ _) rfl ?_
      exact Agree.refl _ _
    · refine Agree.step (setLink_keeps _ _ _) rfl ?_
      refine Agree.step (blankFrame_keeps _ _) rfl ?_
      refine Agree.step (discardFrame_keeps _ _) rfl ?_
      refine Agree.step (addSat_keeps _ _ _ _ _) rfl ?_
      exact Agree.refl _ _

theorem enqueueAll_keeps (s : State) (l : ℕ) (ts : List TxMsg) : AgreeOutside [.lnk] s (enqueueAll s l ts) := by
  unfold enqueueAll
  refine Agree.foldl (fun u x => ?_) ?_
  · refine Agree.step (enqueue_keeps _ _ _) rfl ?_
    exact Agree.refl _ _
  exact Agree.refl _ _

theorem debugResume_keeps (s : State) (p : ℕ) : AgreeOutside [.sch, .tru] s (debugResume s p) := by
  unfold debugResume
  dsimp only
  refine Agree.step (decideNow_keeps _ _) rfl ?_
  refine Agree.update (fun p hp => by cases p <;> first | exact absurd (by decide) hp | exact rfl) ?_
  exact Agree.refl _ _

theorem restoreCore_keeps (s : State) (y : SavedCore) (kernel : Bool) : AgreeOutside [.spd, .regs, .cores, .harps] s (restoreCore s y kernel) := by
  unfold restoreCore
  dsimp only
  split
  · split
    · split
      · refine Agree.step (resetCounters_keeps _ _) rfl ?_
        refine Agree.step (setCore_keeps _ _ _) rfl ?_
        refine Agree.foldl (fun u x => ?_) ?_
        · refine Agree.step (setReg_keeps _ _ _) rfl ?_
          exact Agree.refl _ _
        refine Agree.foldl (fun u x => ?_) ?_
        · refine Agree.step (setHarp_keeps _ _ _ _) rfl ?_
          exact Agree.refl _ _
        refine Agree.update (fun p hp => by cases p <;> first | exact absurd (by decide) hp | exact rfl) ?_
        exact Agree.refl _ _
      · refine Agree.step (setCore_keeps _ _ _) rfl ?_
        refine Agree.foldl (fun u x => ?_) ?_
        · refine Agree.step (setReg_keeps _ _ _) rfl ?_
          exact Agree.refl _ _
        refine Agree.foldl (fun u x => ?_) ?_
        · refine Agree.step (setHarp_keeps _ _ _ _) rfl ?_
          exact Agree.refl _ _
        refine Agree.update (fun p hp => by cases p <;> first | exact absurd (by decide) hp | exact rfl) ?_
        exact Agree.refl _ _
    · split
      · refine Agree.step (resetCounters_keeps _ _) rfl ?_
        refine Agree.step (setCore_keeps _ _ _) rfl ?_
        refine Agree.foldl (fun u x => ?_) ?_
        · refine Agree.step (setReg_keeps _ _ _) rfl ?_
          exact Agree.refl _ _
        refine Agree.foldl (fun u x => ?_) ?_
        · refine Agree.step (setHarp_keeps _ _ _ _) rfl ?_
          exact Agree.refl _ _
        refine Agree.update (fun p hp => by cases p <;> first | exact absurd (by decide) hp | exact rfl) ?_
        exact Agree.refl _ _
      · refine Agree.step (setCore_keeps _ _ _) rfl ?_
        refine Agree.foldl (fun u x => ?_) ?_
        · refine Agree.step (setReg_keeps _ _ _) rfl ?_
          exact Agree.refl _ _
        refine Agree.foldl (fun u x => ?_) ?_
        · refine Agree.step (setHarp_keeps _ _ _ _) rfl ?_
          exact Agree.refl _ _
        refine Agree.update (fun p hp => by cases p <;> first | exact absurd (by decide) hp | exact rfl) ?_
        exact Agree.refl _ _
  · split
    · split
      · refine Agree.step (resetCounters_keeps _ _) rfl ?_
        refine Agree.step (setCore_keeps _ _ _) rfl ?_
        refine Agree.foldl (fun u x => ?_) ?_
        · refine Agree.step (setReg_keeps _ _ _) rfl ?_
          exact Agree.refl _ _
        refine Agree.foldl (fun u x => ?_) ?_
        · refine Agree.step (setHarp_keeps _ _ _ _) rfl ?_
          exact Agree.refl _ _
        refine Agree.update (fun p hp => by cases p <;> first | exact absurd (by decide) hp | exact rfl) ?_
        exact Agree.refl _ _
      · refine Agree.step (setCore_keeps _ _ _) rfl ?_
        refine Agree.foldl (fun u x => ?_) ?_
        · refine Agree.step (setReg_keeps _ _ _) rfl ?_
          exact Agree.refl _ _
        refine Agree.foldl (fun u x => ?_) ?_
        · refine Agree.step (setHarp_keeps _ _ _ _) rfl ?_
          exact Agree.refl _ _
        refine Agree.update (fun p hp => by cases p <;> first | exact absurd (by decide) hp | exact rfl) ?_
        exact Agree.refl _ _
    · split
      · refine Agree.step (resetCounters_keeps _ _) rfl ?_
        refine Agree.step (setCore_keeps _ _ _) rfl ?_
        refine Agree.foldl (fun u x => ?_) ?_
        · refine Agree.step (setReg_keeps _ _ _) rfl ?_
          exact Agree.refl _ _
        refine Agree.foldl (fun u x => ?_) ?_
        · refine Agree.step (setHarp_keeps _ _ _ _) rfl ?_
          exact Agree.refl _ _
        refine Agree.update (fun p hp => by cases p <;> first | exact absurd (by decide) hp | exact rfl) ?_
        exact Agree.refl _ _
      · refine Agree.step (setCore_keeps _ _ _) rfl ?_
        refine Agree.foldl (fun u x => ?_) ?_
        · refine Agree.step (setReg_keeps _ _ _) rfl ?_
          exact Agree.refl _ _
        refine Agree.foldl (fun u x => ?_) ?_
        · refine Agree.step (setHarp_keeps _ _ _ _) rfl ?_
          exact Agree.refl _ _
        refine Agree.update (fun p hp => by cases p <;> first | exact absurd (by decide) hp | exact rfl) ?_
        exact Agree.refl _ _

theorem count_keeps (s : State) (c : ℕ) (n : ℕ) (k : ℕ) : AgreeOutside [.regs] s (count s c n k) := by
  unfold count
  split
  · exact Agree.refl _ _
  · refine Agree.step (wr_keeps _ _ _ _ _) rfl ?_
    exact Agree.refl _ _

theorem coreLoad_keeps (s : State) (c : ℕ) (va : ℕ) (cached : Bool) (t : State) (h : coreLoad s c va cached = some t) : AgreeOutside [.mem, .regs, .out, .cores, .harps, .ord, .ms, .sch, .ras, .obs, .hst] s t := by
  unfold coreLoad at h
  cases cached <;> simp only [↓reduceIte, Bool.false_eq_true] at h
  · split at h
    · cases h
    · split at h
      · cases h
        refine Agree.step (xlateFail_keeps _ _ _ _ _ _ _) rfl ?_
        exact Agree.step (learn_keeps _ _ _ _ _ _ _) rfl (Agree.refl _ _)
      · split at h
        · cases h
          refine Agree.step (hostReadOut_keeps _ _ _ _ _ _ _ _ _ _ _) rfl ?_
          exact Agree.step (learn_keeps _ _ _ _ _ _ _) rfl (Agree.refl _ _)
        · cases h
          refine Agree.ite (Agree.step (consumePoison_keeps _ _ _ _) rfl ?_) ?_
          all_goals
            refine Agree.step (onCore_keeps _ _ _) rfl ?_
            refine Agree.step (sliceRd_keeps _ _ _ _ _ _) rfl ?_
            exact Agree.mono (learn_keeps _ _ _ _ _ _ _) rfl
  · split at h
    · cases h
      refine Agree.ite (Agree.step (consumePoison_keeps _ _ _ _) rfl ?_) ?_
      all_goals
        refine Agree.step (onCore_keeps _ _ _) rfl ?_
        exact Agree.mono (count_keeps _ _ _ _) rfl
    · split at h
      · cases h
      · split at h
        · cases h
          refine Agree.step (xlateFail_keeps _ _ _ _ _ _ _) rfl ?_
          exact Agree.step (learn_keeps _ _ _ _ _ _ _) rfl (Agree.refl _ _)
        · split at h
          · cases h
            refine Agree.step (hostReadOut_keeps _ _ _ _ _ _ _ _ _ _ _) rfl ?_
            exact Agree.step (learn_keeps _ _ _ _ _ _ _) rfl (Agree.refl _ _)
          · cases h
            refine Agree.ite (Agree.step (consumePoison_keeps _ _ _ _) rfl ?_) ?_
            all_goals
              refine Agree.step (onCore_keeps _ _ _) rfl ?_
              refine Agree.step (sliceRd_keeps _ _ _ _ _ _) rfl ?_
              refine Agree.step (count_keeps _ _ _ _) rfl ?_
              exact Agree.mono (learn_keeps _ _ _ _ _ _ _) rfl

theorem timeHold_keeps (s : State) : AgreeOutside [.time] s (timeHold s) := by
  unfold timeHold
  dsimp only
  split
  · refine Agree.update (fun p hp => by cases p <;> first | exact absurd (by decide) hp | exact rfl) ?_
    exact Agree.refl _ _
  · exact Agree.refl _ _

theorem steerFree_keeps (s : State) : AgreeOutside [.free] s (steerFree s).2 := by
  unfold steerFree
  dsimp only
  refine Agree.step (takeFree_keeps _) rfl ?_
  exact Agree.refl _ _

theorem openSome_keeps (s : State) (p : ℕ) (i : Import) (n : ℕ) : AgreeOutside [.mem, .regs, .tru] s (openSome s p i n) := by
  unfold openSome
  dsimp only
  split
  · refine Agree.step (failImport_keeps _ _ _) rfl ?_
    exact Agree.refl _ _
  · split
    · refine Agree.step (wr_keeps _ _ _ _ _) rfl ?_
      refine Agree.step (setImport_keeps _ _ _) rfl ?_
      exact Agree.refl _ _
    · split
      · refine Agree.step (failImport_keeps _ _ _) rfl ?_
        refine Agree.step (wr_keeps _ _ _ _ _) rfl ?_
        refine Agree.step (setImport_keeps _ _ _) rfl ?_
        exact Agree.refl _ _
      · refine Agree.step (endImport_keeps _ _ _) rfl ?_
        refine Agree.step (wr_keeps _ _ _ _ _) rfl ?_
        refine Agree.step (setImport_keeps _ _ _) rfl ?_
        exact Agree.refl _ _

theorem writeField_keeps (off : ℕ) (v : W64) (s : State) (f : FldRow) : AgreeOutside [.regs, .shadow] s (writeField off v s f) := by
  unfold writeField
  dsimp only
  split
  · split
    · refine Agree.step (setReg_keeps _ _ _) rfl ?_
      exact Agree.refl _ _
    · exact Agree.refl _ _
  · refine Agree.step (setShadow_keeps _ _ _) rfl ?_
    exact Agree.refl _ _
  · refine Agree.step (setReg_keeps _ _ _) rfl ?_
    exact Agree.refl _ _
  · exact Agree.refl _ _

theorem drainFlags_keeps (s : State) (c : ℕ) (h : ℕ) (tag : ℕ) (flags : ℕ) (rows : ℕ) : AgreeOutside [.regs, .sch] s (drainFlags s c h tag flags rows) := by
  unfold drainFlags
  dsimp only
  split
  · refine Agree.step (orExceptions_keeps _ _ _) rfl ?_
    refine Agree.step (setReg_keeps _ _ _) rfl ?_
    refine Agree.step (setReg_keeps _ _ _) rfl ?_
    exact Agree.refl _ _
  · refine Agree.step (setReg_keeps _ _ _) rfl ?_
    refine Agree.step (setReg_keeps _ _ _) rfl ?_
    exact Agree.refl _ _

theorem publishStack_keeps (p : Plan) (s : State) (k : ℕ) : AgreeOutside [.regs] s (publishStack p s k) := by
  unfold publishStack
  dsimp only
  split
  · refine Agree.step (wr_keeps _ _ _ _ _) rfl ?_
    refine Agree.step (wrB_keeps _ _ _ _ _) rfl ?_
    refine Agree.step (wrB_keeps _ _ _ _ _) rfl ?_
    refine Agree.step (wrB_keeps _ _ _ _ _) rfl ?_
    exact Agree.refl _ _
  · refine Agree.step (wrB_keeps _ _ _ _ _) rfl ?_
    refine Agree.step (wrB_keeps _ _ _ _ _) rfl ?_
    refine Agree.step (wrB_keeps _ _ _ _ _) rfl ?_
    exact Agree.refl _ _

theorem moduleReset_keeps (s : State) : AgreeOutside [.pending, .mem, .spd, .regs, .shadow, .free, .utime, .out, .cores, .harps, .ord, .ms, .sch, .ras, .obs, .hst, .lnk, .kv, .time, .tru, .flash, .boot, .mgm, .pwr, .phy] s (moduleReset s) := by
  unfold moduleReset
  dsimp only
  refine Agree.step (readFlash_keeps _) rfl ?_
  refine Agree.update (fun p hp => by cases p <;> first | exact absurd (by decide) hp | exact rfl) ?_
  refine Agree.step (sayGoodbye_keeps _) rfl ?_
  exact Agree.refl _ _

theorem trap_keeps (s : State) (c : ℕ) (h : ℕ) (p : Pass) (row : ℕ) : AgreeOutside [.regs, .cores, .harps, .sch] s (trap s c h p row) := by
  unfold trap
  dsimp only
  refine Agree.step (onHarp_keeps _ _ _ _) rfl ?_
  refine Agree.step (failCore_keeps _ _ _ _) rfl ?_
  split
  · exact Agree.refl _ _
  · refine Agree.step (wr_keeps _ _ _ _ _) rfl ?_
    refine Agree.step (wr_keeps _ _ _ _ _) rfl ?_
    refine Agree.step (wr_keeps _ _ _ _ _) rfl ?_
    refine Agree.step (wr_keeps _ _ _ _ _) rfl ?_
    refine Agree.step (wr_keeps _ _ _ _ _) rfl ?_
    refine Agree.step (wr_keeps _ _ _ _ _) rfl ?_
    exact Agree.refl _ _

theorem stopIdle_keeps (s : State) (w : ℕ) (cs : List ℕ) : AgreeOutside [.cores] s (stopIdle s w cs) := by
  unfold stopIdle
  refine Agree.foldl (fun u x => ?_) ?_
  · split
    · exact Agree.refl _ _
    · refine Agree.step (onCore_keeps _ _ _) rfl ?_
      exact Agree.refl _ _
  exact Agree.refl _ _

theorem requestPreempt_keeps (s : State) (w : ℕ) (tell : Bool) : AgreeOutside [.regs, .cores, .harps, .sch, .lnk] s (requestPreempt s w tell) := by
  unfold requestPreempt
  dsimp only
  split
  · exact Agree.refl _ _
  · split
    · split
      · refine Agree.step (stopIdle_keeps _ _ _) rfl ?_
        refine Agree.step (gangSend_keeps _ _ _) rfl ?_
        refine Agree.step (onRing_keeps _ _ _) rfl ?_
        exact Agree.refl _ _
      · split
        · split
          · refine Agree.foldl (fun u x => ?_) ?_
            · split
              · refine Agree.step (takeSnap_keeps _ _ _ _) rfl ?_
                exact Agree.refl _ _
              · refine Agree.step (creditStop_keeps _ _) rfl ?_
                exact Agree.refl _ _
            refine Agree.step (stopIdle_keeps _ _ _) rfl ?_
            refine Agree.step (onCmd_keeps _ _ _) rfl ?_
            refine Agree.step (gangSend_keeps _ _ _) rfl ?_
            refine Agree.step (onRing_keeps _ _ _) rfl ?_
            exact Agree.refl _ _
          · refine Agree.step (onCmd_keeps _ _ _) rfl ?_
            refine Agree.step (gangSend_keeps _ _ _) rfl ?_
            refine Agree.step (onRing_keeps _ _ _) rfl ?_
            exact Agree.refl _ _
        · refine Agree.step (onCmd_keeps _ _ _) rfl ?_
          refine Agree.step (gangSend_keeps _ _ _) rfl ?_
          refine Agree.step (onRing_keeps _ _ _) rfl ?_
          exact Agree.refl _ _
    · split
      · refine Agree.step (stopIdle_keeps _ _ _) rfl ?_
        refine Agree.step (onRing_keeps _ _ _) rfl ?_
        exact Agree.refl _ _
      · split
        · split
          · refine Agree.foldl (fun u x => ?_) ?_
            · split
              · refine Agree.step (takeSnap_keeps _ _ _ _) rfl ?_
                exact Agree.refl _ _
              · refine Agree.step (creditStop_keeps _ _) rfl ?_
                exact Agree.refl _ _
            refine Agree.step (stopIdle_keeps _ _ _) rfl ?_
            refine Agree.step (onCmd_keeps _ _ _) rfl ?_
            refine Agree.step (onRing_keeps _ _ _) rfl ?_
            exact Agree.refl _ _
          · refine Agree.step (onCmd_keeps _ _ _) rfl ?_
            refine Agree.step (onRing_keeps _ _ _) rfl ?_
            exact Agree.refl _ _
        · refine Agree.step (onCmd_keeps _ _ _) rfl ?_
          refine Agree.step (onRing_keeps _ _ _) rfl ?_
          exact Agree.refl _ _

theorem coreReset_keeps (s : State) (c : ℕ) : AgreeOutside [.spd, .regs, .shadow, .out, .cores, .harps, .ord, .sch, .hst, .lnk, .kv, .boot] s (coreReset s c) := by
  unfold coreReset
  dsimp only
  split
  · split
    · exact Agree.refl _ _
    · refine Agree.step (resetCore_keeps _ _) rfl ?_
      refine Agree.step (dropWork_keeps _ _) rfl ?_
      refine Agree.step (resetCommands_keeps _ _ _ _) rfl ?_
      refine Agree.update (fun p hp => by cases p <;> first | exact absurd (by decide) hp | exact rfl) ?_
      refine Agree.step (wr_keeps _ _ _ _ _) rfl ?_
      refine Agree.step (wr_keeps _ _ _ _ _) rfl ?_
      exact Agree.refl _ _
  · split
    · exact Agree.refl _ _
    · refine Agree.step (resetCore_keeps _ _) rfl ?_
      refine Agree.step (dropWork_keeps _ _) rfl ?_
      refine Agree.step (resetCommands_keeps _ _ _ _) rfl ?_
      refine Agree.update (fun p hp => by cases p <;> first | exact absurd (by decide) hp | exact rfl) ?_
      refine Agree.step (wr_keeps _ _ _ _ _) rfl ?_
      refine Agree.step (wr_keeps _ _ _ _ _) rfl ?_
      exact Agree.refl _ _

theorem linkUp_keeps (s : State) (l : ℕ) (fresh : Bool) : AgreeOutside [.regs, .out, .cores, .harps, .sch, .hst, .lnk] s (linkUp s l fresh) := by
  unfold linkUp
  dsimp only
  split
  · refine Agree.step (postEvent_keeps _ _ _ _ _ _) rfl ?_
    split
    · refine Agree.step (remap_keeps _ _) rfl ?_
      refine Agree.step (onLink_keeps _ _ _) rfl ?_
      split
      · refine Agree.step (wr_keeps _ _ _ _ _) rfl ?_
        refine Agree.step (wr_keeps _ _ _ _ _) rfl ?_
        refine Agree.step (setLinkState_keeps _ _ _) rfl ?_
        exact Agree.refl _ _
      · refine Agree.step (setLinkState_keeps _ _ _) rfl ?_
        exact Agree.refl _ _
    · split
      · refine Agree.step (clearOrders_keeps _ _) rfl ?_
        refine Agree.step (onLink_keeps _ _ _) rfl ?_
        refine Agree.step (wr_keeps _ _ _ _ _) rfl ?_
        refine Agree.step (wr_keeps _ _ _ _ _) rfl ?_
        refine Agree.step (setLinkState_keeps _ _ _) rfl ?_
        exact Agree.refl _ _
      · refine Agree.step (onLink_keeps _ _ _) rfl ?_
        refine Agree.step (setLinkState_keeps _ _ _) rfl ?_
        exact Agree.refl _ _
  · split
    · refine Agree.step (remap_keeps _ _) rfl ?_
      refine Agree.step (onLink_keeps _ _ _) rfl ?_
      split
      · refine Agree.step (wr_keeps _ _ _ _ _) rfl ?_
        refine Agree.step (wr_keeps _ _ _ _ _) rfl ?_
        refine Agree.step (setLinkState_keeps _ _ _) rfl ?_
        exact Agree.refl _ _
      · refine Agree.step (setLinkState_keeps _ _ _) rfl ?_
        exact Agree.refl _ _
    · split
      · refine Agree.step (clearOrders_keeps _ _) rfl ?_
        refine Agree.step (onLink_keeps _ _ _) rfl ?_
        refine Agree.step (wr_keeps _ _ _ _ _) rfl ?_
        refine Agree.step (wr_keeps _ _ _ _ _) rfl ?_
        refine Agree.step (setLinkState_keeps _ _ _) rfl ?_
        exact Agree.refl _ _
      · refine Agree.step (onLink_keeps _ _ _) rfl ?_
        refine Agree.step (setLinkState_keeps _ _ _) rfl ?_
        exact Agree.refl _ _

theorem sendNotice_keeps (s : State) (flags : ℕ) (data : List Byte) (skip : List ℕ) : AgreeOutside [.lnk] s (sendNotice s flags data skip) := by
  unfold sendNotice
  refine Agree.foldl (fun u x => ?_) ?_
  · split
    · exact Agree.refl _ _
    · split
      · refine Agree.step (enqueue_keeps _ _ _) rfl ?_
        exact Agree.refl _ _
      · exact Agree.refl _ _
  exact Agree.refl _ _

theorem leaveHalt_keeps (s : State) : AgreeOutside [.regs, .ras] s (leaveHalt s) := by
  unfold leaveHalt
  dsimp only
  refine Agree.step (wr_keeps _ _ _ _ _) rfl ?_
  refine Agree.update (fun p hp => by cases p <;> first | exact absurd (by decide) hp | exact rfl) ?_
  exact Agree.refl _ _

theorem breakOrders_keeps (s : State) (m : ℕ) : AgreeOutside [.lnk] s (breakOrders s m) := by
  unfold breakOrders
  dsimp only
  split
  · exact Agree.refl _ _
  · refine Agree.update (fun p hp => by cases p <;> first | exact absurd (by decide) hp | exact rfl) ?_
    exact Agree.refl _ _

theorem computeWork_keeps (s : State) : AgreeOutside [.spd, .regs, .shadow, .cores, .harps, .ord, .ms, .ras, .obs, .kv, .tru] s (computeWork s) := by
  unfold computeWork
  dsimp only
  refine Agree.foldl (fun u x => ?_) ?_
  · refine Agree.step (setPower_keeps _ _ _) rfl ?_
    exact Agree.refl _ _
  refine Agree.foldl (fun u x => ?_) ?_
  · refine Agree.step (wr_keeps _ _ _ _ _) rfl ?_
    exact Agree.refl _ _
  refine Agree.update (fun p hp => by cases p <;> first | exact absurd (by decide) hp | exact rfl) ?_
  refine Agree.step (discardFinals_keeps _ _) rfl ?_
  exact Agree.refl _ _

theorem releaseHalted_keeps (s : State) : AgreeOutside [.spd, .regs, .shadow, .free, .out, .cores, .harps, .ord, .ms, .sch, .ras, .obs, .hst, .lnk, .kv, .tru] s (releaseHalted s) := by
  unfold releaseHalted
  dsimp only
  split
  · refine Agree.update (fun p hp => by cases p <;> first | exact absurd (by decide) hp | exact rfl) ?_
    refine Agree.step (Agree.of_snd (faultPersists_keeps _) (by assumption)) rfl ?_
    exact Agree.refl _ _
  · refine Agree.step (postEvent_keeps _ _ _ _ _ _) rfl ?_
    refine Agree.step (leaveHalt_keeps _) rfl ?_
    refine Agree.foldl (fun u x => ?_) ?_
    · refine Agree.step (breakOrders_keeps _ _) rfl ?_
      exact Agree.refl _ _
    refine Agree.step (computeWork_keeps _) rfl ?_
    refine Agree.step (wr_keeps _ _ _ _ _) rfl ?_
    refine Agree.step (Agree.of_snd (faultPersists_keeps _) (by assumption)) rfl ?_
    exact Agree.refl _ _

theorem releaseHalt_keeps (s : State) (skip : List ℕ) : AgreeOutside [.spd, .regs, .shadow, .free, .out, .cores, .harps, .ord, .ms, .sch, .ras, .obs, .hst, .lnk, .kv, .tru] s (releaseHalt s skip) := by
  unfold releaseHalt
  dsimp only
  split
  · split
    · exact Agree.refl _ _
    · split
      · refine Agree.update (fun p hp => by cases p <;> first | exact absurd (by decide) hp | exact rfl) ?_
        refine Agree.step (sendNotice_keeps _ _ _ _) rfl ?_
        exact Agree.refl _ _
      · refine Agree.step (leaveHalt_keeps _) rfl ?_
        refine Agree.step (sendNotice_keeps _ _ _ _) rfl ?_
        exact Agree.refl _ _
  · refine Agree.step (releaseHalted_keeps _) rfl ?_
    refine Agree.step (sendNotice_keeps _ _ _ _) rfl ?_
    exact Agree.refl _ _
  · exact Agree.refl _ _

theorem writeFields_keeps (s : State) (off : ℕ) (v : W64) : AgreeOutside [.regs, .shadow] s (writeFields s off v) := by
  unfold writeFields
  split
  · refine Agree.foldl (fun u x => ?_) ?_
    · refine Agree.step (writeField_keeps _ _ _ _) rfl ?_
      exact Agree.refl _ _
    exact Agree.refl _ _
  · exact Agree.refl _ _

theorem wakeCore_keeps (s : State) (c : ℕ) : AgreeOutside [.regs, .cores] s (wakeCore s c) := by
  unfold wakeCore
  split
  · exact Agree.refl _ _
  · exact Agree.refl _ _
  · refine Agree.step (setPower_keeps _ _ _) rfl ?_
    exact Agree.refl _ _
  · refine Agree.step (setPower_keeps _ _ _) rfl ?_
    exact Agree.refl _ _
  · refine Agree.step (onCore_keeps _ _ _) rfl ?_
    refine Agree.step (setPower_keeps _ _ _) rfl ?_
    exact Agree.refl _ _

theorem onKvReg_keeps (s : State) (r : ℕ) (f : KvRegion → KvRegion) : AgreeOutside [.kv] s (onKvReg s r f) := by
  unfold onKvReg
  refine Agree.step (setKvReg_keeps _ _ _) rfl ?_
  exact Agree.refl _ _

theorem setKvNear_keeps (s : State) (r : ℕ) (u : ℕ) (l : List ℕ) : AgreeOutside [.kv] s (setKvNear s r u l) := by
  unfold setKvNear
  refine Agree.step (onKvReg_keeps _ _ _) rfl ?_
  exact Agree.refl _ _

theorem kvPop_keeps (s : State) (r : ℕ) (u : ℕ) : AgreeOutside [.mem, .regs, .free, .out, .cores, .harps, .ms, .sch, .ras, .obs, .hst, .kv] s (kvPop s r u).1 := by
  unfold kvPop
  dsimp only
  split
  · dsimp only
    exact Agree.refl _ _
  · dsimp only
    split
    · refine Agree.step (postEvent_keeps _ _ _ _ _ _) rfl ?_
      refine Agree.step (onKvReg_keeps _ _ _) rfl ?_
      refine Agree.step (wr_keeps _ _ _ _ _) rfl ?_
      refine Agree.step (kvMeta_keeps _ _ _) rfl ?_
      refine Agree.step (setKvNear_keeps _ _ _ _) rfl ?_
      exact Agree.refl _ _
    · refine Agree.step (kvMeta_keeps _ _ _) rfl ?_
      refine Agree.step (setKvNear_keeps _ _ _ _) rfl ?_
      exact Agree.refl _ _

theorem wakeDie_keeps (s : State) : AgreeOutside [.regs, .pwr] s (wakeDie s) := by
  unfold wakeDie
  dsimp only
  split
  · refine Agree.step (notIdle_keeps _) rfl ?_
    refine Agree.step (wr_keeps _ _ _ _ _) rfl ?_
    refine Agree.foldl (fun u x => ?_) ?_
    · split
      · exact Agree.refl _ _
      · refine Agree.step (setPwrDomain_keeps _ _ _) rfl ?_
        exact Agree.refl _ _
    exact Agree.refl _ _
  · exact Agree.refl _ _

theorem wakeFor_keeps (s : State) (h : Held) : AgreeOutside [.regs, .cores, .pwr] s (wakeFor s h) := by
  unfold wakeFor
  split
  · refine Agree.step (wakeDie_keeps _) rfl ?_
    exact Agree.refl _ _
  · split
    · split
      · exact Agree.refl _ _
      · refine Agree.step (wakeCore_keeps _ _) rfl ?_
        exact Agree.refl _ _
    · split
      · exact Agree.refl _ _
      · refine Agree.step (wakeCore_keeps _ _) rfl ?_
        exact Agree.refl _ _
    · exact Agree.refl _ _

theorem eccRead_keeps (s : State) (pa : ℕ) (n : ℕ) (m : Medium) (d0 : ℕ) : AgreeOutside [.mem, .regs, .free, .out, .ms, .sch, .ras, .hst] s (eccRead s pa n m d0) := by
  unfold eccRead
  split
  · refine Agree.step (eccFound_keeps _ _ _ _) rfl ?_
    exact Agree.refl _ _
  · exact Agree.refl _ _

theorem spareRow_keeps (s : State) (b : BankRow) : AgreeOutside [.regs, .ms, .flash] s (spareRow s b) := by
  unfold spareRow
  dsimp only
  refine Agree.update (fun p hp => by cases p <;> first | exact absurd (by decide) hp | exact rfl) ?_
  refine Agree.step (wr_keeps _ _ _ _ _) rfl ?_
  refine Agree.step (fieldLog_keeps _ _) rfl ?_
  exact Agree.refl _ _

theorem passReads_keeps (s : State) (c : ℕ) (h : ℕ) (d : List W64) (rs : List (ℕ × ℕ)) : AgreeOutside [.spd, .regs, .out, .cores, .harps, .sch, .ras, .obs, .hst] s (passReads s c h d rs) := by
  unfold passReads
  refine Agree.foldl (fun u x => ?_) ?_
  · refine Agree.step (spdAccess_keeps _ _ _ _ _ _ _ _) rfl ?_
    exact Agree.refl _ _
  exact Agree.refl _ _

end Sys2Proof.Laws
end

