-- ==== Sys2Proof/Laws/Keeps5.lean ====
section
/-!
SUPPORT. Sys2Proof/Laws/Keeps5.lean: for each operation, the parts of the state outside which it changes nothing
(5 of 6, in the order in which the operations use one another).
-/
namespace Sys2Proof.Laws
open Sys2Proof.Machine Sys2Proof.Safety

theorem stepReads_keeps (s : State) (c : ℕ) (h : ℕ) (p : Pass) : AgreeOutside [.spd, .regs, .out, .cores, .harps, .sch, .ras, .obs, .hst] s (stepReads s c h p) := by
  unfold stepReads
  refine Agree.step (passReads_keeps _ _ _ _ _) rfl ?_
  exact Agree.refl _ _

theorem stepEnd_keeps (s : State) (c : ℕ) (h : ℕ) (p : Pass) (hp : Harp) (a : AccSet) (inv : List ℕ) (ba : List (List ℕ)) (bb : List (List ℕ)) : AgreeOutside [.regs, .cores, .harps, .ord, .sch, .lnk] s (stepEnd s c h p hp a inv ba bb) := by
  unfold stepEnd
  dsimp only
  split
  · refine Agree.step (trap_keeps _ _ _ _ _) rfl ?_
    exact Agree.refl _ _
  · split
    · refine Agree.step (endPass_keeps _ _ _ _) rfl ?_
      refine Agree.step (setHarp_keeps _ _ _ _) rfl ?_
      exact Agree.refl _ _
    · refine Agree.step (setHarp_keeps _ _ _ _) rfl ?_
      exact Agree.refl _ _

theorem stepCount_keeps (s : State) (c : ℕ) (h : ℕ) (p : Pass) : AgreeOutside [.regs, .cores] s (stepCount s c h p) := by
  unfold stepCount
  dsimp only
  refine Agree.step (wr_keeps _ _ _ _ _) rfl ?_
  refine Agree.step (wr_keeps _ _ _ _ _) rfl ?_
  refine Agree.step (wr_keeps _ _ _ _ _) rfl ?_
  refine Agree.step (wr_keeps _ _ _ _ _) rfl ?_
  split
  · split
    · split
      · refine Agree.step (countUnits_keeps _ _ _ _ _) rfl ?_
        split
        · refine Agree.step (countUnits_keeps _ _ _ _ _) rfl ?_
          refine Agree.step (countUnits_keeps _ _ _ _ _) rfl ?_
          exact Agree.refl _ _
        · refine Agree.step (countUnits_keeps _ _ _ _ _) rfl ?_
          refine Agree.step (countUnits_keeps _ _ _ _ _) rfl ?_
          refine Agree.step (countUnits_keeps _ _ _ _ _) rfl ?_
          exact Agree.refl _ _
      · refine Agree.step (countUnits_keeps _ _ _ _ _) rfl ?_
        refine Agree.step (countUnits_keeps _ _ _ _ _) rfl ?_
        split
        · refine Agree.step (countUnits_keeps _ _ _ _ _) rfl ?_
          refine Agree.step (countUnits_keeps _ _ _ _ _) rfl ?_
          exact Agree.refl _ _
        · refine Agree.step (countUnits_keeps _ _ _ _ _) rfl ?_
          refine Agree.step (countUnits_keeps _ _ _ _ _) rfl ?_
          refine Agree.step (countUnits_keeps _ _ _ _ _) rfl ?_
          exact Agree.refl _ _
    · split
      · refine Agree.step (countUnits_keeps _ _ _ _ _) rfl ?_
        split
        · refine Agree.step (countUnits_keeps _ _ _ _ _) rfl ?_
          refine Agree.step (countUnits_keeps _ _ _ _ _) rfl ?_
          exact Agree.refl _ _
        · refine Agree.step (countUnits_keeps _ _ _ _ _) rfl ?_
          refine Agree.step (countUnits_keeps _ _ _ _ _) rfl ?_
          refine Agree.step (countUnits_keeps _ _ _ _ _) rfl ?_
          exact Agree.refl _ _
      · refine Agree.step (countUnits_keeps _ _ _ _ _) rfl ?_
        refine Agree.step (countUnits_keeps _ _ _ _ _) rfl ?_
        split
        · refine Agree.step (countUnits_keeps _ _ _ _ _) rfl ?_
          refine Agree.step (countUnits_keeps _ _ _ _ _) rfl ?_
          exact Agree.refl _ _
        · refine Agree.step (countUnits_keeps _ _ _ _ _) rfl ?_
          refine Agree.step (countUnits_keeps _ _ _ _ _) rfl ?_
          refine Agree.step (countUnits_keeps _ _ _ _ _) rfl ?_
          exact Agree.refl _ _
  · split
    · split
      · refine Agree.step (countUnits_keeps _ _ _ _ _) rfl ?_
        split
        · refine Agree.step (countUnits_keeps _ _ _ _ _) rfl ?_
          refine Agree.step (countUnits_keeps _ _ _ _ _) rfl ?_
          exact Agree.refl _ _
        · refine Agree.step (countUnits_keeps _ _ _ _ _) rfl ?_
          refine Agree.step (countUnits_keeps _ _ _ _ _) rfl ?_
          refine Agree.step (countUnits_keeps _ _ _ _ _) rfl ?_
          exact Agree.refl _ _
      · refine Agree.step (countUnits_keeps _ _ _ _ _) rfl ?_
        refine Agree.step (countUnits_keeps _ _ _ _ _) rfl ?_
        split
        · refine Agree.step (countUnits_keeps _ _ _ _ _) rfl ?_
          refine Agree.step (countUnits_keeps _ _ _ _ _) rfl ?_
          exact Agree.refl _ _
        · refine Agree.step (countUnits_keeps _ _ _ _ _) rfl ?_
          refine Agree.step (countUnits_keeps _ _ _ _ _) rfl ?_
          refine Agree.step (countUnits_keeps _ _ _ _ _) rfl ?_
          exact Agree.refl _ _
    · split
      · refine Agree.step (countUnits_keeps _ _ _ _ _) rfl ?_
        split
        · refine Agree.step (countUnits_keeps _ _ _ _ _) rfl ?_
          refine Agree.step (countUnits_keeps _ _ _ _ _) rfl ?_
          exact Agree.refl _ _
        · refine Agree.step (countUnits_keeps _ _ _ _ _) rfl ?_
          refine Agree.step (countUnits_keeps _ _ _ _ _) rfl ?_
          refine Agree.step (countUnits_keeps _ _ _ _ _) rfl ?_
          exact Agree.refl _ _
      · refine Agree.step (countUnits_keeps _ _ _ _ _) rfl ?_
        refine Agree.step (countUnits_keeps _ _ _ _ _) rfl ?_
        split
        · refine Agree.step (countUnits_keeps _ _ _ _ _) rfl ?_
          refine Agree.step (countUnits_keeps _ _ _ _ _) rfl ?_
          exact Agree.refl _ _
        · refine Agree.step (countUnits_keeps _ _ _ _ _) rfl ?_
          refine Agree.step (countUnits_keeps _ _ _ _ _) rfl ?_
          refine Agree.step (countUnits_keeps _ _ _ _ _) rfl ?_
          exact Agree.refl _ _

theorem takeStep_keeps (s : State) (c : ℕ) (h : ℕ) : AgreeOutside [.spd, .regs, .out, .cores, .harps, .ord, .sch, .ras, .obs, .hst, .lnk] s (takeStep s c h) := by
  unfold takeStep
  dsimp only
  split
  · exact Agree.refl _ _
  · split
    · refine Agree.step (stepReads_keeps _ _ _ _) rfl ?_
      exact Agree.refl _ _
    · refine Agree.step (stepEnd_keeps _ _ _ _ _ _ _ _ _) rfl ?_
      refine Agree.step (stepCount_keeps _ _ _ _) rfl ?_
      split
      · refine Agree.step (notePoison_keeps _ _ _) rfl ?_
        refine Agree.step (stepReads_keeps _ _ _ _) rfl ?_
        exact Agree.refl _ _
      · refine Agree.step (stepReads_keeps _ _ _ _) rfl ?_
        exact Agree.refl _ _

theorem armHalt_keeps (s : State) (cut : ℕ) (cause : ℕ) (initiator : ℕ) : AgreeOutside [.regs, .out, .cores, .harps, .ord, .ms, .sch, .ras, .hst, .lnk, .kv, .pwr] s (armHalt s cut cause initiator) := by
  unfold armHalt
  dsimp only
  split
  · refine Agree.step (takeCut_keeps _ _ _) rfl ?_
    refine Agree.step (wakeDie_keeps _) rfl ?_
    refine Agree.update (fun p hp => by cases p <;> first | exact absurd (by decide) hp | exact rfl) ?_
    refine Agree.step (sendNotice_keeps _ _ _ _) rfl ?_
    refine Agree.step (wr_keeps _ _ _ _ _) rfl ?_
    refine Agree.step (wr_keeps _ _ _ _ _) rfl ?_
    refine Agree.step (wr_keeps _ _ _ _ _) rfl ?_
    refine Agree.step (wr_keeps _ _ _ _ _) rfl ?_
    exact Agree.refl _ _
  · refine Agree.step (wakeDie_keeps _) rfl ?_
    refine Agree.update (fun p hp => by cases p <;> first | exact absurd (by decide) hp | exact rfl) ?_
    refine Agree.step (sendNotice_keeps _ _ _ _) rfl ?_
    refine Agree.step (wr_keeps _ _ _ _ _) rfl ?_
    refine Agree.step (wr_keeps _ _ _ _ _) rfl ?_
    refine Agree.step (wr_keeps _ _ _ _ _) rfl ?_
    refine Agree.step (wr_keeps _ _ _ _ _) rfl ?_
    exact Agree.refl _ _

theorem freeTemps_keeps (s : State) : AgreeOutside [.free] s (freeTemps s).2 := by
  unfold freeTemps
  dsimp only
  refine Agree.foldl_snd (fun u x => ?_) ?_
  · dsimp only
    refine Agree.step (takeFree_keeps _) rfl ?_
    exact Agree.refl _ _
  dsimp only
  exact Agree.refl _ _

theorem saveForTest_keeps (s : State) (w : ℕ) : AgreeOutside [.regs, .cores, .harps, .sch, .lnk] s (saveForTest s w) := by
  unfold saveForTest
  dsimp only
  refine Agree.step (requestPreempt_keeps _ _ _) rfl ?_
  split
  · refine Agree.foldl (fun u x => ?_) ?_
    · split
      · refine Agree.step (markDue_keeps _ _) rfl ?_
        exact Agree.refl _ _
      · exact Agree.refl _ _
    exact Agree.refl _ _
  · exact Agree.refl _ _

theorem writeTscCtl_keeps (v : W64) (s : State) : AgreeOutside [.regs, .shadow, .time] s (writeTscCtl v s) := by
  unfold writeTscCtl
  dsimp only
  split
  · split
    · refine Agree.step (writeFields_keeps _ _ _) rfl ?_
      exact Agree.refl _ _
    · refine Agree.step (wr_keeps _ _ _ _ _) rfl ?_
      refine Agree.update (fun p hp => by cases p <;> first | exact absurd (by decide) hp | exact rfl) ?_
      refine Agree.step (writeFields_keeps _ _ _) rfl ?_
      exact Agree.refl _ _
  · exact Agree.refl _ _

theorem setKvFar_keeps (s : State) (r : ℕ) (u : ℕ) (l : List ℕ) : AgreeOutside [.kv] s (setKvFar s r u l) := by
  unfold setKvFar
  refine Agree.step (onKvReg_keeps _ _ _) rfl ?_
  exact Agree.refl _ _

theorem windowDebug_keeps (s : State) (fn : ℕ) (off : ℕ) (cls : ℕ) : AgreeOutside [.regs, .free, .out, .sch, .hst, .tru] s (windowDebug s fn off cls) := by
  unfold windowDebug
  split
  · exact Agree.refl _ _
  · split
    · split
      · refine Agree.step (debugAccess_keeps _ _ _ _ _ _) rfl ?_
        exact Agree.refl _ _
      · exact Agree.refl _ _
    · exact Agree.refl _ _

theorem eccWrite_keeps (s : State) (pa : ℕ) (n : ℕ) (m : Medium) (d0 : ℕ) : AgreeOutside [.mem, .regs, .free, .out, .ms, .sch, .ras, .hst] s (eccWrite s pa n m d0) := by
  unfold eccWrite
  split
  · refine Agree.step (eccFound_keeps _ _ _ _) rfl ?_
    exact Agree.refl _ _
  · exact Agree.refl _ _

theorem onKvSeq_keeps (s : State) (r : ℕ) (q : ℕ) (f : KvSeq → KvSeq) : AgreeOutside [.kv] s (onKvSeq s r q f) := by
  unfold onKvSeq
  refine Agree.step (onKvReg_keeps _ _ _) rfl ?_
  exact Agree.refl _ _

theorem failRetired_keeps (s : State) (w : ℕ) (core : ℕ) : AgreeOutside [.regs, .cores, .harps, .sch] s (failRetired s w core) := by
  unfold failRetired
  dsimp only
  split
  · exact Agree.refl _ _
  · split
    · refine Agree.step (wr_keeps _ _ _ _ _) rfl ?_
      refine Agree.step (onRing_keeps _ _ _) rfl ?_
      refine Agree.step (onCmd_keeps _ _ _) rfl ?_
      exact Agree.refl _ _
    · refine Agree.step (failCmd_keeps _ _ _ _) rfl ?_
      exact Agree.refl _ _

theorem endOnCore_keeps (s : State) (c : ℕ) (mask : ℕ) : AgreeOutside [.regs, .cores, .harps, .sch] s (endOnCore s c mask) := by
  unfold endOnCore
  refine Agree.foldl (fun u x => ?_) ?_
  · split
    · exact Agree.refl _ _
    · split
      · refine Agree.step (failRetired_keeps _ _ _) rfl ?_
        exact Agree.refl _ _
      · split
        · split
          · refine Agree.step (failRetired_keeps _ _ _) rfl ?_
            exact Agree.refl _ _
          · exact Agree.refl _ _
        · exact Agree.refl _ _
  exact Agree.refl _ _

theorem retireCore_keeps (s : State) (c : ℕ) : AgreeOutside [.spd, .regs, .shadow, .cores, .harps, .sch] s (retireCore s c) := by
  unfold retireCore
  dsimp only
  refine Agree.step (onCore_keeps _ _ _) rfl ?_
  refine Agree.step (coreOff_keeps _ _) rfl ?_
  refine Agree.foldl (fun u x => ?_) ?_
  · refine Agree.step (onRing_keeps _ _ _) rfl ?_
    exact Agree.refl _ _
  refine Agree.step (endOnCore_keeps _ _ _) rfl ?_
  exact Agree.refl _ _

theorem sliceAtom_keeps (s : State) (who : Requester) (va : Option ℕ) (w : Option ℕ) (pa : ℕ) (op : AtomicOp) (x : W64) (cmp : W64) (bad : Bool) : AgreeOutside [.mem, .regs, .out, .cores, .harps, .ms, .sch, .ras, .obs, .hst] s (sliceAtom s who va w pa op x cmp bad).1 := by
  unfold sliceAtom
  dsimp only
  split
  · dsimp only
    refine Agree.step (touch_keeps _ _ _ _) rfl ?_
    refine Agree.step (watchMem_keeps _ _ _ _ _ _ _) rfl ?_
    exact Agree.refl _ _
  · dsimp only
    refine Agree.step (wakeRings_keeps _ _ _) rfl ?_
    refine Agree.step (landMem_keeps _ _ _ _) rfl ?_
    refine Agree.step (touch_keeps _ _ _ _) rfl ?_
    refine Agree.step (watchMem_keeps _ _ _ _ _ _ _) rfl ?_
    exact Agree.refl _ _

theorem applyGuards_keeps (s : State) (p : ℕ) (cp : List (ℕ × W64)) : AgreeOutside [.regs, .cores, .ord] s (applyGuards s p cp) := by
  unfold applyGuards
  dsimp only
  split
  · refine Agree.step (wr_keeps _ _ _ _ _) rfl ?_
    exact Agree.refl _ _
  · refine Agree.foldl (fun u x => ?_) ?_
    · split
      · exact Agree.refl _ _
      · refine Agree.step (onCore_keeps _ _ _) rfl ?_
        exact Agree.refl _ _
    refine Agree.update (fun p hp => by cases p <;> first | exact absurd (by decide) hp | exact rfl) ?_
    refine Agree.step (wr_keeps _ _ _ _ _) rfl ?_
    refine Agree.step (wr_keeps _ _ _ _ _) rfl ?_
    refine Agree.step (commitCopy_keeps _ _) rfl ?_
    exact Agree.refl _ _

theorem drainGuards_keeps (a0 : ℕ) (a1 : State) (a2 : ℕ) : AgreeOutside [.regs, .cores, .ord] a1 (drainGuards a0 a1 a2) := by
  induction a0 generalizing a1 with
  | zero => exact Agree.refl _ _
  | succ n ih =>
    unfold drainGuards
    split
    · refine Agree.trans ?_ (ih _)
      refine Agree.step (applyGuards_keeps _ _ _) rfl ?_
      exact Agree.step (setGuardQueue_keeps _ _ _) rfl (Agree.refl _ _)
    · exact Agree.refl _ _

theorem takeMsg_keeps (s : State) (l : Nat) (control : Bool) (p : Msg → Bool) (m : Msg) (t : State)
    (h : takeMsg s l control p = some (m, t)) : AgreeOutside [.lnk] s t := by
  unfold takeMsg at h
  split at h
  · cases h
  · split at h
    · cases h
    · split at h
      · cases h
        exact Agree.step (onLink_keeps _ _ _) rfl (Agree.refl _ _)
      · cases h

theorem takeNotice_keeps (s : State) (l bits : Nat) (m : Msg) (t : State) (h : takeNotice s l bits = some (m, t)) : AgreeOutside [.lnk] s t := by
  exact takeMsg_keeps _ _ _ _ _ _ h

theorem timeInput_keeps (s : State) : AgreeOutside [.regs, .out, .sch, .hst] s (timeInput s) := by
  unfold timeInput
  refine Agree.step (postEvent_keeps _ _ _ _ _ _) rfl ?_
  exact Agree.refl _ _

theorem tickCore_keeps (s : State) (c : ℕ) : AgreeOutside [.regs, .cores, .sch] s (tickCore s c) := by
  unfold tickCore
  dsimp only
  split
  · split
    · split
      · refine Agree.step (count_keeps _ _ _ _) rfl ?_
        refine Agree.step (onCore_keeps _ _ _) rfl ?_
        exact Agree.refl _ _
      · refine Agree.step (count_keeps _ _ _ _) rfl ?_
        refine Agree.step (onCore_keeps _ _ _) rfl ?_
        exact Agree.refl _ _
      · refine Agree.step (onCore_keeps _ _ _) rfl ?_
        exact Agree.refl _ _
    · refine Agree.step (wr_keeps _ _ _ _ _) rfl ?_
      refine Agree.step (onRing_keeps _ _ _) rfl ?_
      split
      · refine Agree.step (count_keeps _ _ _ _) rfl ?_
        refine Agree.step (onCore_keeps _ _ _) rfl ?_
        exact Agree.refl _ _
      · refine Agree.step (count_keeps _ _ _ _) rfl ?_
        refine Agree.step (onCore_keeps _ _ _) rfl ?_
        exact Agree.refl _ _
      · refine Agree.step (onCore_keeps _ _ _) rfl ?_
        exact Agree.refl _ _
  · split
    · refine Agree.step (count_keeps _ _ _ _) rfl ?_
      refine Agree.step (onCore_keeps _ _ _) rfl ?_
      exact Agree.refl _ _
    · refine Agree.step (count_keeps _ _ _ _) rfl ?_
      refine Agree.step (onCore_keeps _ _ _) rfl ?_
      exact Agree.refl _ _
    · refine Agree.step (onCore_keeps _ _ _) rfl ?_
      exact Agree.refl _ _

theorem markInvalid_keeps (s : State) : AgreeOutside [.regs, .flash] s (markInvalid s) := by
  unfold markInvalid
  dsimp only
  refine Agree.step (wr_keeps _ _ _ _ _) rfl ?_
  refine Agree.update (fun p hp => by cases p <;> first | exact absurd (by decide) hp | exact rfl) ?_
  exact Agree.refl _ _

theorem portDown_keeps (s : State) (n : ℕ) (cause : ℕ) : AgreeOutside [.regs, .out, .sch, .hst] s (portDown s n cause) := by
  unfold portDown
  dsimp only
  refine Agree.step (postEvent_keeps _ _ _ _ _ _) rfl ?_
  refine Agree.step (wr_keeps _ _ _ _ _) rfl ?_
  refine Agree.step (wr_keeps _ _ _ _ _) rfl ?_
  exact Agree.refl _ _

theorem dropRemote_keeps (s : State) (r : Remote) : AgreeOutside [.lnk] s (dropRemote s r) := by
  unfold dropRemote
  dsimp only
  refine Agree.update (fun p hp => by cases p <;> first | exact absurd (by decide) hp | exact rfl) ?_
  exact Agree.refl _ _

theorem withPending_keeps (s : State) (q : List Instr) : AgreeOutside [.pending] s (s.withPending q) := by
  intro p hp
  cases p <;> first | exact absurd (by decide) hp | exact rfl

theorem bar4WriteNow_keeps (s : State) (fn : ℕ) (off : ℕ) (data : List Byte) (poison : Bool) : AgreeOutside [.out, .cores, .harps, .ord, .sch] s (bar4WriteNow s fn off data poison) := by
  unfold bar4WriteNow
  dsimp only
  split
  · exact Agree.refl _ _
  · refine Agree.foldl (fun u x => ?_) ?_
    · split
      · exact Agree.refl _ _
      · refine Agree.step (issue_keeps _ _) rfl ?_
        exact Agree.refl _ _
    exact Agree.refl _ _

theorem maintWait_keeps (s : State) (a : ℕ) (unit : ℕ) (sub : ℕ) : AgreeOutside [.regs, .ras] s (maintWait s a unit sub) := by
  unfold maintWait
  dsimp only
  split
  · exact Agree.refl _ _
  · refine Agree.update (fun p hp => by cases p <;> first | exact absurd (by decide) hp | exact rfl) ?_
    refine Agree.step (addSat_keeps _ _ _ _ _) rfl ?_
    exact Agree.refl _ _

theorem debugWrite_keeps (s : State) (p : ℕ) (o : ℕ) (data : List Byte) : AgreeOutside [.mem, .regs, .out, .ms, .sch, .ras, .hst] s (debugWrite s p o data) := by
  unfold debugWrite
  dsimp only
  refine Agree.foldl (fun u x => ?_) ?_
  · split
    · exact Agree.refl _ _
    · refine Agree.step (wakeRings_keeps _ _ _) rfl ?_
      refine Agree.step (landMem_keeps _ _ _ _) rfl ?_
      refine Agree.step (touch_keeps _ _ _ _) rfl ?_
      exact Agree.refl _ _
  exact Agree.refl _ _

theorem gatherErrBy_keeps (s : State) (who : Requester) (core : Option ℕ) (w : ℕ) (mode : ℕ) (va : ℕ) (rowBase : ℕ) (colBase : ℕ) (items : List ErrItem) : AgreeOutside [.mem, .regs, .out, .cores, .harps, .ms, .sch, .ras, .obs, .hst] s (gatherErrBy s who core w mode va rowBase colBase items) := by
  unfold gatherErrBy
  dsimp only
  refine Agree.foldl (fun u x => ?_) ?_
  · split
    · refine Agree.step (xlateFail_keeps _ _ _ _ _ _ _) rfl ?_
      refine Agree.step (learn_keeps _ _ _ _ _ _ _) rfl ?_
      exact Agree.refl _ _
    · split
      · refine Agree.step (touch_keeps _ _ _ _) rfl ?_
        refine Agree.step (watchMem_keeps _ _ _ _ _ _ _) rfl ?_
        refine Agree.step (countMem_keeps _ _ _ _ _) rfl ?_
        refine Agree.step (learn_keeps _ _ _ _ _ _ _) rfl ?_
        exact Agree.refl _ _
      · refine Agree.update (fun p hp => by cases p <;> first | exact absurd (by decide) hp | exact rfl) ?_
        refine Agree.step (touch_keeps _ _ _ _) rfl ?_
        refine Agree.step (watchMem_keeps _ _ _ _ _ _ _) rfl ?_
        refine Agree.step (countMem_keeps _ _ _ _ _) rfl ?_
        refine Agree.step (learn_keeps _ _ _ _ _ _ _) rfl ?_
        exact Agree.refl _ _
  exact Agree.refl _ _

theorem setOverdue_keeps (s : State) (w : MaintWait) (ms : ℕ) : AgreeOutside [.regs, .out, .sch, .ras, .hst] s (setOverdue s w ms) := by
  unfold setOverdue
  dsimp only
  refine Agree.step (logErr_keeps _ _) rfl ?_
  refine Agree.step (updOverdue_keeps _ _) rfl ?_
  refine Agree.update (fun p hp => by cases p <;> first | exact absurd (by decide) hp | exact rfl) ?_
  refine Agree.step (wr_keeps _ _ _ _ _) rfl ?_
  exact Agree.refl _ _

theorem kvStamp_keeps (s : State) (r : ℕ) (n : ℕ) : AgreeOutside [.mem, .regs, .free, .out, .cores, .harps, .ms, .sch, .ras, .obs, .hst, .kv] s (kvStamp s r n) := by
  unfold kvStamp
  refine Agree.step (kvMeta_keeps _ _ _) rfl ?_
  refine Agree.step (onKvReg_keeps _ _ _) rfl ?_
  exact Agree.refl _ _

theorem setSpdm_keeps (s : State) (fn : ℕ) (v : Spdm) : AgreeOutside [.tru] s (setSpdm s fn v) := by
  unfold setSpdm
  dsimp only
  refine Agree.update (fun p hp => by cases p <;> first | exact absurd (by decide) hp | exact rfl) ?_
  exact Agree.refl _ _

theorem finishCmd_keeps (s : State) (w : ℕ) : AgreeOutside [.regs, .out, .cores, .harps, .sch, .ras, .hst, .pwr] s (finishCmd s w) := by
  unfold finishCmd
  dsimp only
  refine Agree.step (startBad_keeps _ _) rfl ?_
  split
  · split
    · split
      · split
        · refine Agree.step (stopIdle_keeps _ _ _) rfl ?_
          refine Agree.step (notIdle_keeps _) rfl ?_
          refine Agree.step (decideNow_keeps _ _) rfl ?_
          refine Agree.step (wr_keeps _ _ _ _ _) rfl ?_
          refine Agree.step (setRingState_keeps _ _ _) rfl ?_
          refine Agree.step (wr_keeps _ _ _ _ _) rfl ?_
          refine Agree.step (onRing_keeps _ _ _) rfl ?_
          refine Agree.step (gangNext_keeps _ _ _) rfl ?_
          exact Agree.refl _ _
        · refine Agree.step (notIdle_keeps _) rfl ?_
          refine Agree.step (decideNow_keeps _ _) rfl ?_
          refine Agree.step (wr_keeps _ _ _ _ _) rfl ?_
          refine Agree.step (setRingState_keeps _ _ _) rfl ?_
          refine Agree.step (wr_keeps _ _ _ _ _) rfl ?_
          refine Agree.step (onRing_keeps _ _ _) rfl ?_
          refine Agree.step (gangNext_keeps _ _ _) rfl ?_
          exact Agree.refl _ _
      · split
        · refine Agree.step (stopIdle_keeps _ _ _) rfl ?_
          refine Agree.step (notIdle_keeps _) rfl ?_
          refine Agree.step (decideNow_keeps _ _) rfl ?_
          refine Agree.step (wr_keeps _ _ _ _ _) rfl ?_
          refine Agree.step (onRing_keeps _ _ _) rfl ?_
          refine Agree.step (gangNext_keeps _ _ _) rfl ?_
          exact Agree.refl _ _
        · refine Agree.step (notIdle_keeps _) rfl ?_
          refine Agree.step (decideNow_keeps _ _) rfl ?_
          refine Agree.step (wr_keeps _ _ _ _ _) rfl ?_
          refine Agree.step (onRing_keeps _ _ _) rfl ?_
          refine Agree.step (gangNext_keeps _ _ _) rfl ?_
          exact Agree.refl _ _
    · split
      · split
        · refine Agree.step (stopIdle_keeps _ _ _) rfl ?_
          refine Agree.step (notIdle_keeps _) rfl ?_
          refine Agree.step (decideNow_keeps _ _) rfl ?_
          refine Agree.step (wr_keeps _ _ _ _ _) rfl ?_
          refine Agree.step (setRingState_keeps _ _ _) rfl ?_
          refine Agree.step (wr_keeps _ _ _ _ _) rfl ?_
          refine Agree.step (onRing_keeps _ _ _) rfl ?_
          exact Agree.refl _ _
        · refine Agree.step (notIdle_keeps _) rfl ?_
          refine Agree.step (decideNow_keeps _ _) rfl ?_
          refine Agree.step (wr_keeps _ _ _ _ _) rfl ?_
          refine Agree.step (setRingState_keeps _ _ _) rfl ?_
          refine Agree.step (wr_keeps _ _ _ _ _) rfl ?_
          refine Agree.step (onRing_keeps _ _ _) rfl ?_
          exact Agree.refl _ _
      · split
        · refine Agree.step (stopIdle_keeps _ _ _) rfl ?_
          refine Agree.step (notIdle_keeps _) rfl ?_
          refine Agree.step (decideNow_keeps _ _) rfl ?_
          refine Agree.step (wr_keeps _ _ _ _ _) rfl ?_
          refine Agree.step (onRing_keeps _ _ _) rfl ?_
          exact Agree.refl _ _
        · refine Agree.step (notIdle_keeps _) rfl ?_
          refine Agree.step (decideNow_keeps _ _) rfl ?_
          refine Agree.step (wr_keeps _ _ _ _ _) rfl ?_
          refine Agree.step (onRing_keeps _ _ _) rfl ?_
          exact Agree.refl _ _
  · split
    · split
      · refine Agree.step (stopIdle_keeps _ _ _) rfl ?_
        refine Agree.step (notIdle_keeps _) rfl ?_
        refine Agree.step (decideNow_keeps _ _) rfl ?_
        refine Agree.step (wr_keeps _ _ _ _ _) rfl ?_
        refine Agree.step (setRingState_keeps _ _ _) rfl ?_
        refine Agree.step (wr_keeps _ _ _ _ _) rfl ?_
        refine Agree.step (onRing_keeps _ _ _) rfl ?_
        exact Agree.refl _ _
      · refine Agree.step (notIdle_keeps _) rfl ?_
        refine Agree.step (decideNow_keeps _ _) rfl ?_
        refine Agree.step (wr_keeps _ _ _ _ _) rfl ?_
        refine Agree.step (setRingState_keeps _ _ _) rfl ?_
        refine Agree.step (wr_keeps _ _ _ _ _) rfl ?_
        refine Agree.step (onRing_keeps _ _ _) rfl ?_
        exact Agree.refl _ _
    · split
      · refine Agree.step (stopIdle_keeps _ _ _) rfl ?_
        refine Agree.step (notIdle_keeps _) rfl ?_
        refine Agree.step (decideNow_keeps _ _) rfl ?_
        refine Agree.step (wr_keeps _ _ _ _ _) rfl ?_
        refine Agree.step (onRing_keeps _ _ _) rfl ?_
        exact Agree.refl _ _
      · refine Agree.step (notIdle_keeps _) rfl ?_
        refine Agree.step (decideNow_keeps _ _) rfl ?_
        refine Agree.step (wr_keeps _ _ _ _ _) rfl ?_
        refine Agree.step (onRing_keeps _ _ _) rfl ?_
        exact Agree.refl _ _

theorem flushHold_keeps (a0 : ℕ) (a1 : State) : AgreeOutside [.regs, .out, .cores, .harps, .sch, .ras, .hst, .pwr] a1 (flushHold a0 a1) := by
  induction a0 generalizing a1 with
  | zero => exact Agree.refl _ _
  | succ n ih =>
    unfold flushHold
    split
    · exact Agree.refl _ _
    · split
      · exact Agree.refl _ _
      · refine Agree.trans ?_ (ih _)
        split
        · refine Agree.step (finishCmd_keeps _ _) rfl ?_
          refine Agree.step (writeRecord_keeps _ _ _ _) rfl ?_
          refine Agree.step (wr_keeps _ _ _ _ _) rfl ?_
          refine Agree.step (wr_keeps _ _ _ _ _) rfl ?_
          exact Agree.update (fun p hp => by cases p <;> first | exact absurd (by decide) hp | exact rfl) (Agree.refl _ _)
        · refine Agree.step (notIdle_keeps _) rfl ?_
          refine Agree.step (writeRecord_keeps _ _ _ _) rfl ?_
          refine Agree.step (wr_keeps _ _ _ _ _) rfl ?_
          refine Agree.step (wr_keeps _ _ _ _ _) rfl ?_
          exact Agree.update (fun p hp => by cases p <;> first | exact absurd (by decide) hp | exact rfl) (Agree.refl _ _)

theorem clearOnRead_keeps (s : State) (off : ℕ) : AgreeOutside [.regs] s (clearOnRead s off) := by
  unfold clearOnRead
  split
  · exact Agree.refl _ _
  · refine Agree.foldl (fun u x => ?_) ?_
    · split
      · refine Agree.step (setReg_keeps _ _ _) rfl ?_
        exact Agree.refl _ _
      · exact Agree.refl _ _
    exact Agree.refl _ _

theorem trained_keeps (s : State) (k : ℕ) (ch : ℕ) : AgreeOutside [.ms] s (trained s k ch) := by
  unfold trained
  dsimp only
  refine Agree.update (fun p hp => by cases p <;> first | exact absurd (by decide) hp | exact rfl) ?_
  exact Agree.refl _ _

theorem laneReduce_keeps (s : State) (kind : ℕ) (xs : List FV) : AgreeOutside [.free] s (laneReduce s kind xs).1 := by
  unfold laneReduce
  dsimp only
  split
  · refine Agree.step (laneSum_keeps _ _) rfl ?_
    exact Agree.refl _ _
  · dsimp only
    exact Agree.refl _ _
  · dsimp only
    exact Agree.refl _ _

theorem permuteLanes_keeps (w : ℕ) (src : List Byte) (n : ℕ) (a3 : State) (a4 : List ℕ) : AgreeOutside [.free] a3 (permuteLanes w src n a3 a4).1 := by
  induction a4 generalizing a3 with
  | nil => exact Agree.refl _ _
  | cons i t ih =>
    unfold permuteLanes
    split
    · exact ih _
    · exact Agree.trans (takeFree_keeps _) (ih _)

theorem fdlResult_keeps (s : State) (c : ℕ) (a2 : FdlInstr) : AgreeOutside [.free] s (fdlResult s c a2).1 := by
  unfold fdlResult
  dsimp only
  split
  · split
    · dsimp only
      refine Agree.step (intLanes_keeps _ _ _ _) rfl ?_
      exact Agree.refl _ _
    · split
      · dsimp only
        exact Agree.refl _ _
      · dsimp only
        exact Agree.refl _ _
  · dsimp only
    exact Agree.refl _ _
  · dsimp only
    exact Agree.refl _ _
  · dsimp only
    refine Agree.step (laneReduce_keeps _ _ _) rfl ?_
    exact Agree.refl _ _
  · dsimp only
    exact Agree.refl _ _
  · dsimp only
    exact Agree.refl _ _
  · split
    · dsimp only
      exact Agree.refl _ _
    · dsimp only
      exact Agree.refl _ _
  · dsimp only
    exact Agree.refl _ _
  · dsimp only
    refine Agree.step (permuteLanes_keeps _ _ _ _ _) rfl ?_
    exact Agree.refl _ _
  · dsimp only
    exact Agree.refl _ _
  · dsimp only
    exact Agree.refl _ _

theorem stall_keeps (s : State) (c : ℕ) (h : ℕ) (reason : ℕ) : AgreeOutside [.regs, .free, .sch] s (stall s c h reason) := by
  unfold stall
  dsimp only
  split
  · refine Agree.step (wr_keeps _ _ _ _ _) rfl ?_
    refine Agree.step (count_keeps _ _ _ _) rfl ?_
    exact Agree.refl _ _
  · split
    · refine Agree.step (onRing_keeps _ _ _) rfl ?_
      refine Agree.step (wr_keeps _ _ _ _ _) rfl ?_
      refine Agree.step (wr_keeps _ _ _ _ _) rfl ?_
      refine Agree.step (count_keeps _ _ _ _) rfl ?_
      exact Agree.refl _ _
    · split
      · split
        · refine Agree.step (onRing_keeps _ _ _) rfl ?_
          refine Agree.step (wr_keeps _ _ _ _ _) rfl ?_
          refine Agree.step (takeFree_keeps _) rfl ?_
          refine Agree.step (wr_keeps _ _ _ _ _) rfl ?_
          refine Agree.step (count_keeps _ _ _ _) rfl ?_
          exact Agree.refl _ _
        · refine Agree.step (takeFree_keeps _) rfl ?_
          refine Agree.step (wr_keeps _ _ _ _ _) rfl ?_
          refine Agree.step (count_keeps _ _ _ _) rfl ?_
          exact Agree.refl _ _
      · refine Agree.step (wr_keeps _ _ _ _ _) rfl ?_
        refine Agree.step (count_keeps _ _ _ _) rfl ?_
        exact Agree.refl _ _

theorem commitDefault_keeps (s : State) (f : Fld) (i : Nat) (run : State → Res) {L : List Part}
    (hr : ∀ u t, run u = .next t → AgreeOutside L u t) : AgreeOutside L s (commitDefault s f i run).1 := by
  unfold commitDefault
  dsimp only
  split
  · exact hr _ _ (by assumption)
  · exact Agree.refl _ _
  · exact Agree.refl _ _

theorem commitSilent_keeps (s : State) (offs : List Nat) (run : State → Res) {L : List Part}
    (hr : ∀ u t, run u = .next t → AgreeOutside L u t) : AgreeOutside L s (commitSilent s offs run).1 := by
  unfold commitSilent
  split
  · exact hr _ _ (by assumption)
  · exact Agree.refl _ _
  · exact Agree.refl _ _

theorem spdUpset_keeps (s : State) (c : ℕ) (u : ℕ × Bool) : AgreeOutside [.spd] s (spdUpset s c u) := by
  unfold spdUpset
  dsimp only
  refine Agree.update (fun p hp => by cases p <;> first | exact absurd (by decide) hp | exact rfl) ?_
  exact Agree.refl _ _

theorem noteSent_keeps (s : State) (c : ℕ) (h : ℕ) (t : ℕ) (n : ℕ) : AgreeOutside [.harps] s (noteSent s c h t n) := by
  unfold noteSent
  dsimp only
  refine Agree.step (onHarp_keeps _ _ _ _) rfl ?_
  exact Agree.refl _ _

theorem capUp_keeps (s : State) : AgreeOutside [.pwr] s (capUp s) := by
  unfold capUp
  dsimp only
  split
  · refine Agree.update (fun p hp => by cases p <;> first | exact absurd (by decide) hp | exact rfl) ?_
    exact Agree.refl _ _
  · refine Agree.update (fun p hp => by cases p <;> first | exact absurd (by decide) hp | exact rfl) ?_
    exact Agree.refl _ _

theorem limitHolds_keeps (s : State) (under : Bool) : AgreeOutside [.pwr] s (limitHolds s under) := by
  unfold limitHolds
  dsimp only
  split
  · refine Agree.step (capUp_keeps _) rfl ?_
    refine Agree.update (fun p hp => by cases p <;> first | exact absurd (by decide) hp | exact rfl) ?_
    exact Agree.refl _ _
  · refine Agree.update (fun p hp => by cases p <;> first | exact absurd (by decide) hp | exact rfl) ?_
    exact Agree.refl _ _

theorem updStack_keeps (s : State) (k : ℕ) : AgreeOutside [.regs] s (updStack s k) := by
  unfold updStack
  split
  · exact Agree.refl _ _
  · refine Agree.step (wr_keeps _ _ _ _ _) rfl ?_
    exact Agree.refl _ _

theorem stackTemps_keeps (s : State) (stackCs : List ℕ) : AgreeOutside [.regs] s (stackTemps s stackCs) := by
  unfold stackTemps
  dsimp only
  refine Agree.foldl (fun u x => ?_) ?_
  · split
    · exact Agree.refl _ _
    · refine Agree.step (wrB_keeps _ _ _ _ _) rfl ?_
      refine Agree.step (wr_keeps _ _ _ _ _) rfl ?_
      exact Agree.refl _ _
  exact Agree.refl _ _

theorem traceEnable_keeps (fn c : Nat) (before after : State) :
    AgreeOutside [.regs, .free, .out, .cores, .sch, .hst, .tru] after (traceEnable fn c before after) := by
  unfold traceEnable
  split
  · dsimp only
    split
    · refine Agree.step (debugAccess_keeps _ _ _ _ _ _) rfl ?_
      refine Agree.step (onCore_keeps _ _ _) rfl ?_
      refine Agree.step (wr_keeps _ _ _ _ _) rfl ?_
      refine Agree.step (wr_keeps _ _ _ _ _) rfl ?_
      exact Agree.refl _ _
    · refine Agree.step (onCore_keeps _ _ _) rfl ?_
      refine Agree.step (wr_keeps _ _ _ _ _) rfl ?_
      refine Agree.step (wr_keeps _ _ _ _ _) rfl ?_
      exact Agree.refl _ _
  · exact Agree.refl _ _

theorem takeControl_keeps (s : State) (l sub : Nat) (m : Msg) (t : State) (h : takeControl s l sub = some (m, t)) : AgreeOutside [.lnk] s t := by
  exact takeMsg_keeps _ _ _ _ _ _ h

theorem moverRead_keeps (s : State) (c w p va n : Nat) (t : State) (b : List Byte) (ps : List (Nat × Nat))
    (h : moverRead s c w p va n = .ok (t, b, ps)) : AgreeOutside [.mem, .regs, .out, .cores, .harps, .ms, .sch, .ras, .obs, .hst] s t := by
  unfold moverRead at h
  dsimp only at h
  split at h
  · cases h
  · cases h
    refine Agree.foldl (fun u x => ?_) ?_
    · exact Agree.step (sliceRd_keeps _ _ _ _ _ _) rfl (Agree.refl _ _)
    · exact Agree.mono (learnRange_keeps _ _ _ _ _ _ _ _) rfl

theorem setDerate_keeps (s : State) (c : ℕ) (d : ℕ) : AgreeOutside [.regs] s (setDerate s c d) := by
  unfold setDerate
  dsimp only
  refine Agree.step (setReg_keeps _ _ _) rfl ?_
  refine Agree.step (wr_keeps _ _ _ _ _) rfl ?_
  exact Agree.refl _ _

theorem stacksOn_keeps (s : State) : AgreeOutside [.regs] s (stacksOn s) := by
  unfold stacksOn
  dsimp only
  refine Agree.foldl (fun u x => ?_) ?_
  · split
    · refine Agree.step (wr_keeps _ _ _ _ _) rfl ?_
      refine Agree.step (wr_keeps _ _ _ _ _) rfl ?_
      exact Agree.refl _ _
    · exact Agree.refl _ _
  refine Agree.foldl (fun u x => ?_) ?_
  · split
    · exact Agree.refl _ _
    · refine Agree.step (setPwrDomain_keeps _ _ _) rfl ?_
      exact Agree.refl _ _
  exact Agree.refl _ _

theorem endUnstarted_keeps (s : State) (w : ℕ) (code : ℕ) (detail : ℕ) : AgreeOutside [.sch] s (endUnstarted s w code detail) := by
  unfold endUnstarted
  dsimp only
  refine Agree.step (onCmd_keeps _ _ _) rfl ?_
  exact Agree.refl _ _

theorem setFlight_keeps (s : State) (id : ℕ) (g : Flight → Flight) : AgreeOutside [.ord] s (setFlight s id g) := by
  unfold setFlight
  dsimp only
  refine Agree.update (fun p hp => by cases p <;> first | exact absurd (by decide) hp | exact rfl) ?_
  exact Agree.refl _ _

theorem setKvCount_keeps (s : State) (r : ℕ) (n : ℕ) (v : ℕ) : AgreeOutside [.mem, .regs, .free, .out, .cores, .harps, .ms, .sch, .ras, .obs, .hst, .kv] s (setKvCount s r n v) := by
  unfold setKvCount
  refine Agree.step (kvMeta_keeps _ _ _) rfl ?_
  refine Agree.step (onKvReg_keeps _ _ _) rfl ?_
  exact Agree.refl _ _

theorem shutDown_keeps (s : State) (why : ℕ) : AgreeOutside [.pending, .mem, .spd, .regs, .shadow, .free, .utime, .out, .cores, .harps, .ord, .ms, .sch, .ras, .obs, .hst, .lnk, .kv, .time, .tru, .flash, .boot, .mgm, .pwr, .phy] s (shutDown s why) := by
  unfold shutDown
  dsimp only
  refine Agree.update (fun p hp => by cases p <;> first | exact absurd (by decide) hp | exact rfl) ?_
  refine Agree.step (moduleReset_keeps _) rfl ?_
  split
  · refine Agree.step (emit_keeps _ _) rfl ?_
    exact Agree.refl _ _
  · exact Agree.refl _ _

theorem wakeChannel_keeps (failing : List (ℕ × ℕ)) (s : State) (k : ℕ) (ch : ℕ) : AgreeOutside [.regs, .ms] s (wakeChannel failing s k ch) := by
  unfold wakeChannel
  dsimp only
  split
  · exact Agree.refl _ _
  · split
    · refine Agree.step (updStack_keeps _ _) rfl ?_
      refine Agree.step (wr_keeps _ _ _ _ _) rfl ?_
      refine Agree.update (fun p hp => by cases p <;> first | exact absurd (by decide) hp | exact rfl) ?_
      exact Agree.refl _ _
    · refine Agree.step (trained_keeps _ _ _) rfl ?_
      exact Agree.refl _ _

theorem publishCore_keeps (p : Plan) (s : State) (c : ℕ) : AgreeOutside [.regs] s (publishCore p s c) := by
  unfold publishCore
  dsimp only
  refine Agree.step (setUsable_keeps _ _ _) rfl ?_
  refine Agree.step (setHarps_keeps _ _ _) rfl ?_
  refine Agree.step (setDerate_keeps _ _ _) rfl ?_
  refine Agree.step (wr_keeps _ _ _ _ _) rfl ?_
  refine Agree.step (wr_keeps _ _ _ _ _) rfl ?_
  refine Agree.step (wrB_keeps _ _ _ _ _) rfl ?_
  refine Agree.step (wr_keeps _ _ _ _ _) rfl ?_
  refine Agree.step (wr_keeps _ _ _ _ _) rfl ?_
  exact Agree.refl _ _

theorem bar4ReadNow_keeps (s : State) (fn : ℕ) (off : ℕ) (len : ℕ) : AgreeOutside [.mem, .regs, .out, .cores, .harps, .ms, .sch, .ras, .obs, .hst] s (bar4ReadNow s fn off len) := by
  unfold bar4ReadNow
  refine Agree.step (emit_keeps _ _) rfl ?_
  exact Agree.foldl_fst (fun u x => hostPiece_keeps fn u _ _) (Agree.refl _ _)

theorem setCounts_keeps (s : State) : AgreeOutside [.regs] s (setCounts s) := by
  unfold setCounts
  dsimp only
  refine Agree.step (wr_keeps _ _ _ _ _) rfl ?_
  refine Agree.step (wr_keeps _ _ _ _ _) rfl ?_
  exact Agree.refl _ _

theorem applyEntry_keeps (s : State) (e : FieldEntry) : AgreeOutside [.regs] s (applyEntry s e) := by
  unfold applyEntry
  dsimp only
  split
  · refine Agree.step (wr_keeps _ _ _ _ _) rfl ?_
    exact Agree.refl _ _
  · refine Agree.step (setDerate_keeps _ _ _) rfl ?_
    exact Agree.refl _ _
  · refine Agree.step (setHarps_keeps _ _ _) rfl ?_
    refine Agree.step (wr_keeps _ _ _ _ _) rfl ?_
    refine Agree.step (setUsable_keeps _ _ _) rfl ?_
    exact Agree.refl _ _
  · refine Agree.step (setHarps_keeps _ _ _) rfl ?_
    exact Agree.refl _ _
  · exact Agree.refl _ _

theorem belowGrade_keeps (s : State) (before : ℕ) : AgreeOutside [.regs, .out, .sch, .hst, .flash] s (belowGrade s before) := by
  unfold belowGrade
  dsimp only
  split
  · refine Agree.step (postEvent_keeps _ _ _ _ _ _) rfl ?_
    refine Agree.step (flashAppend_keeps _ _) rfl ?_
    exact Agree.refl _ _
  · exact Agree.refl _ _

theorem publish_keeps (s : State) (e : FieldEntry) : AgreeOutside [.regs, .out, .sch, .hst, .flash] s (publish s e) := by
  unfold publish
  dsimp only
  refine Agree.step (belowGrade_keeps _ _) rfl ?_
  refine Agree.step (postEvent_keeps _ _ _ _ _ _) rfl ?_
  refine Agree.step (wr_keeps _ _ _ _ _) rfl ?_
  refine Agree.step (wr_keeps _ _ _ _ _) rfl ?_
  refine Agree.step (setCounts_keeps _) rfl ?_
  refine Agree.step (applyEntry_keeps _ _) rfl ?_
  refine Agree.step (fieldLog_keeps _ _) rfl ?_
  refine Agree.step (wr_keeps _ _ _ _ _) rfl ?_
  exact Agree.refl _ _

theorem adjust_keeps (s : State) (c : ℕ) (off : ℕ) (der : ℕ) : AgreeOutside [.spd, .regs, .out, .cores, .sch, .ras, .hst, .flash] s (adjust s c off der) := by
  unfold adjust
  dsimp only
  refine Agree.step (endTest_keeps _ _ _) rfl ?_
  refine Agree.step (logErr_keeps _ _) rfl ?_
  split
  · refine Agree.step (publish_keeps _ _) rfl ?_
    split
    · refine Agree.step (publish_keeps _ _) rfl ?_
      exact Agree.refl _ _
    · exact Agree.refl _ _
  · split
    · refine Agree.step (publish_keeps _ _) rfl ?_
      exact Agree.refl _ _
    · exact Agree.refl _ _

theorem mbxTouch_keeps (s : State) : AgreeOutside [.mgm] s (mbxTouch s) := by
  unfold mbxTouch
  dsimp only
  refine Agree.update (fun p hp => by cases p <;> first | exact absurd (by decide) hp | exact rfl) ?_
  exact Agree.refl _ _

theorem claim_keeps (s : State) (who : MbxWho) : AgreeOutside [.regs, .mgm] s (claim s who) := by
  unfold claim
  split
  · refine Agree.step (mbxTouch_keeps _) rfl ?_
    refine Agree.step (wr_keeps _ _ _ _ _) rfl ?_
    exact Agree.refl _ _
  · exact Agree.refl _ _

theorem tableFault_keeps (s : State) (w : ℕ) (p : ℕ) (va : ℕ) (e : XFault) : AgreeOutside [.regs, .out, .cores, .harps, .sch, .ras, .hst] s (tableFault s w p va e) := by
  unfold tableFault
  dsimp only
  split
  · refine Agree.step (onCmd_keeps _ _ _) rfl ?_
    refine Agree.step (consumePoison_keeps _ _ _ _) rfl ?_
    refine Agree.step (dtuFault_keeps _ _ _ _ _ _) rfl ?_
    exact Agree.refl _ _
  · refine Agree.step (endUnstarted_keeps _ _ _ _) rfl ?_
    refine Agree.step (dtuFault_keeps _ _ _ _ _ _) rfl ?_
    exact Agree.refl _ _

theorem computeReset_keeps (s : State) : AgreeOutside [.spd, .regs, .shadow, .out, .cores, .harps, .ord, .ms, .sch, .ras, .obs, .hst, .lnk, .kv, .tru, .boot] s (computeReset s) := by
  unfold computeReset
  dsimp only
  split
  · exact Agree.refl _ _
  · refine Agree.foldl (fun u x => ?_) ?_
    · refine Agree.step (abortImport_keeps _ _) rfl ?_
      exact Agree.refl _ _
    refine Agree.step (startReplay_keeps _) rfl ?_
    refine Agree.step (computeWork_keeps _) rfl ?_
    refine Agree.step (dropWork_keeps _ _) rfl ?_
    refine Agree.step (resetCommands_keeps _ _ _ _) rfl ?_
    refine Agree.step (addSat_keeps _ _ _ _ _) rfl ?_
    refine Agree.step (wr_keeps _ _ _ _ _) rfl ?_
    refine Agree.step (wr_keeps _ _ _ _ _) rfl ?_
    refine Agree.update (fun p hp => by cases p <;> first | exact absurd (by decide) hp | exact rfl) ?_
    exact Agree.refl _ _

theorem bar2WriteNow_keeps (s : State) (fn : ℕ) (off : ℕ) (data : List Byte) (poison : Bool) (relaxed : Bool) : AgreeOutside [.out, .cores, .harps, .ord, .sch] s (bar2WriteNow s fn off data poison relaxed) := by
  unfold bar2WriteNow
  refine Agree.foldl (fun u x => ?_) ?_
  · split
    · exact Agree.refl _ _
    · split
      · exact Agree.refl _ _
      · refine Agree.step (issue_keeps _ _) rfl ?_
        exact Agree.refl _ _
  exact Agree.refl _ _

theorem dropXlat_keeps (s : State) (p : ℕ) (va : ℕ) (n : ℕ) : AgreeOutside [.ms] s (dropXlat s p va n) := by
  unfold dropXlat
  dsimp only
  refine Agree.update (fun p hp => by cases p <;> first | exact absurd (by decide) hp | exact rfl) ?_
  exact Agree.refl _ _

theorem kvLeaf_keeps (s : State) (r : ℕ) (stack : ℕ) (w : Option ℕ) (k : ℕ) (page : Option ℕ) : AgreeOutside [.mem, .regs, .free, .out, .cores, .harps, .ms, .sch, .ras, .obs, .hst, .kv] s (kvLeaf s r stack w k page) := by
  unfold kvLeaf
  dsimp only
  split
  · exact Agree.refl _ _
  · refine Agree.step (onKvReg_keeps _ _ _) rfl ?_
    refine Agree.step (dropXlat_keeps _ _ _ _) rfl ?_
    refine Agree.step (kvStore_keeps _ _ _ _ _ _) rfl ?_
    refine Agree.step (takeFree_keeps _) rfl ?_
    exact Agree.refl _ _

theorem learnEntry_keeps (s : State) (p : ℕ) (w : ℕ) (e : List W64) : AgreeOutside [.mem, .regs, .out, .cores, .harps, .ms, .sch, .ras, .obs, .hst] s (learnEntry s p w e) := by
  unfold learnEntry
  dsimp only
  refine Agree.step (learnRange_keeps _ _ _ _ _ _ _ _) rfl ?_
  refine Agree.step (learnRange_keeps _ _ _ _ _ _ _ _) rfl ?_
  exact Agree.refl _ _

theorem badTag_keeps (s : State) (l : ℕ) : AgreeOutside [.regs, .out, .cores, .harps, .ord, .sch, .ras, .hst, .lnk] s (badTag s l) := by
  unfold badTag
  dsimp only
  split
  · split
    · refine Agree.step (linkDown_keeps _ _ _) rfl ?_
      refine Agree.step (setLink_keeps _ _ _) rfl ?_
      refine Agree.step (blankFrame_keeps _ _) rfl ?_
      refine Agree.step (discardFrame_keeps _ _) rfl ?_
      refine Agree.step (addSat_keeps _ _ _ _ _) rfl ?_
      exact Agree.refl _ _
    · refine Agree.step (setLink_keeps _ _ _) rfl ?_
      refine Agree.step (blankFrame_keeps _ _) rfl ?_
      refine Agree.step (discardFrame_keeps _ _) rfl ?_
      refine Agree.step (addSat_keeps _ _ _ _ _) rfl ?_
      exact Agree.refl _ _
  · split
    · refine Agree.step (linkDown_keeps _ _ _) rfl ?_
      refine Agree.step (setLink_keeps _ _ _) rfl ?_
      refine Agree.step (blankFrame_keeps _ _) rfl ?_
      refine Agree.step (discardFrame_keeps _ _) rfl ?_
      refine Agree.step (addSat_keeps _ _ _ _ _) rfl ?_
      exact Agree.refl _ _
    · refine Agree.step (setLink_keeps _ _ _) rfl ?_
      refine Agree.step (blankFrame_keeps _ _) rfl ?_
      refine Agree.step (discardFrame_keeps _ _) rfl ?_
      refine Agree.step (addSat_keeps _ _ _ _ _) rfl ?_
      exact Agree.refl _ _

end Sys2Proof.Laws
end

