-- ==== Sys2Proof/Laws/Keeps6.lean ====
section
/-!
SUPPORT. Sys2Proof/Laws/Keeps6.lean: for each operation, the parts of the state outside which it changes nothing
(6 of 6, in the order in which the operations use one another).
-/
namespace Sys2Proof.Laws
open Sys2Proof.Machine Sys2Proof.Safety

theorem retire_keeps (s : State) (c : ℕ) (cls : ℕ) (onlyHarps : Bool) (harps : ℕ) : AgreeOutside [.spd, .regs, .shadow, .out, .cores, .harps, .sch, .ras, .hst, .flash] s (retire s c cls onlyHarps harps) := by
  unfold retire
  dsimp only
  split
  · refine Agree.step (endTest_keeps _ _ _) rfl ?_
    refine Agree.step (endOnCore_keeps _ _ _) rfl ?_
    refine Agree.step (logErr_keeps _ _) rfl ?_
    refine Agree.foldl (fun u x => ?_) ?_
    · refine Agree.step (publish_keeps _ _) rfl ?_
      exact Agree.refl _ _
    exact Agree.refl _ _
  · refine Agree.step (endTest_keeps _ _ _) rfl ?_
    refine Agree.step (retireCore_keeps _ _) rfl ?_
    refine Agree.step (logErr_keeps _ _) rfl ?_
    refine Agree.step (publish_keeps _ _) rfl ?_
    exact Agree.refl _ _

theorem tapBypass_keeps (s : State) : AgreeOutside [.out, .phy] s (tapBypass s) := by
  unfold tapBypass
  dsimp only
  refine Agree.step (emit_keeps _ _) rfl ?_
  refine Agree.update (fun p hp => by cases p <;> first | exact absurd (by decide) hp | exact rfl) ?_
  exact Agree.refl _ _

theorem readView_keeps (s : State) (off : ℕ) : AgreeOutside [.free] s (readView s off).2 := by
  unfold readView
  refine Agree.foldl_snd (fun u x => ?_) (Agree.refl _ _)
  split
  · split
    · exact takeFree_keeps _
    · exact Agree.refl _ _
  · exact Agree.refl _ _

theorem startTraining_keeps (s : State) (l : ℕ) : AgreeOutside [.regs, .lnk] s (startTraining s l) := by
  unfold startTraining
  refine Agree.step (onLink_keeps _ _ _) rfl ?_
  refine Agree.step (setLinkState_keeps _ _ _) rfl ?_
  exact Agree.refl _ _

theorem kvBlock_keeps (s : State) (r : ℕ) (stack : ℕ) (w : Option ℕ) (blk : ℕ) (tab : Option ℕ) : AgreeOutside [.mem, .regs, .out, .cores, .harps, .ms, .sch, .ras, .obs, .hst, .kv] s (kvBlock s r stack w blk tab) := by
  unfold kvBlock
  dsimp only
  refine Agree.step (onKvReg_keeps _ _ _) rfl ?_
  refine Agree.step (dropXlat_keeps _ _ _ _) rfl ?_
  split
  · refine Agree.step (kvStore_keeps _ _ _ _ _ _) rfl ?_
    exact Agree.refl _ _
  · exact Agree.refl _ _

theorem kvStart_keeps (s : State) (r : ℕ) : AgreeOutside [.regs] s (kvStart s r) := by
  unfold kvStart
  refine Agree.step (wr_keeps _ _ _ _ _) rfl ?_
  refine Agree.step (wr_keeps _ _ _ _ _) rfl ?_
  exact Agree.refl _ _

theorem destroyPart_keeps (s : State) (p : ℕ) : AgreeOutside [.regs, .tru] s (destroyPart s p) := by
  unfold destroyPart
  dsimp only
  refine Agree.step (wr_keeps _ _ _ _ _) rfl ?_
  refine Agree.step (wr_keeps _ _ _ _ _) rfl ?_
  refine Agree.step (wr_keeps _ _ _ _ _) rfl ?_
  refine Agree.update (fun p hp => by cases p <;> first | exact absurd (by decide) hp | exact rfl) ?_
  exact Agree.refl _ _

theorem encapsulate_keeps (s : State) (l : ℕ) : AgreeOutside [.free, .lnk] s (encapsulate s l) := by
  unfold encapsulate
  dsimp only
  refine Agree.step (onLink_keeps _ _ _) rfl ?_
  refine Agree.step (randomBytes_keeps _) rfl ?_
  exact Agree.refl _ _

theorem startRekey_keeps (s : State) (l : ℕ) : AgreeOutside [.free, .lnk] s (startRekey s l) := by
  unfold startRekey
  dsimp only
  split
  · exact Agree.refl _ _
  · refine Agree.step (enqueueAll_keeps _ _ _) rfl ?_
    refine Agree.step (onLink_keeps _ _ _) rfl ?_
    refine Agree.step (encapsulate_keeps _ _) rfl ?_
    exact Agree.refl _ _

theorem rekeyDue_keeps (s : State) (l : ℕ) : AgreeOutside [.free, .lnk] s (rekeyDue s l) := by
  unfold rekeyDue
  split
  · refine Agree.step (startRekey_keeps _ _) rfl ?_
    exact Agree.refl _ _
  · exact Agree.refl _ _

theorem freeSeal_keeps (s : State) (p : ℕ) (e : ℕ) : AgreeOutside [.regs, .tru] s (freeSeal s p e) := by
  unfold freeSeal
  dsimp only
  refine Agree.update (fun p hp => by cases p <;> first | exact absurd (by decide) hp | exact rfl) ?_
  refine Agree.step (wr_keeps _ _ _ _ _) rfl ?_
  refine Agree.step (wr_keeps _ _ _ _ _) rfl ?_
  refine Agree.step (wr_keeps _ _ _ _ _) rfl ?_
  refine Agree.step (wr_keeps _ _ _ _ _) rfl ?_
  exact Agree.refl _ _

theorem wakeDst_keeps (s : State) (a1 : Dst) : AgreeOutside [.regs, .cores] s (wakeDst s a1) := by
  unfold wakeDst
  split
  · refine Agree.step (wakeCore_keeps _ _) rfl ?_
    exact Agree.refl _ _
  · refine Agree.step (wakeCore_keeps _ _) rfl ?_
    exact Agree.refl _ _
  · exact Agree.refl _ _

theorem kvClearRange_keeps (s : State) (g : KvGeo) : AgreeOutside [.mem, .ms] s (kvClearRange s g) := by
  unfold kvClearRange
  dsimp only
  refine Agree.step (dropXlat_keeps _ _ _ _) rfl ?_
  refine Agree.foldl (fun u x => ?_) ?_
  · split
    · refine Agree.step (landMem_keeps _ _ _ _) rfl ?_
      exact Agree.refl _ _
    · exact Agree.refl _ _
  exact Agree.refl _ _

theorem startTest_keeps (s : State) (c : ℕ) : AgreeOutside [.regs, .cores, .ras] s (startTest s c) := by
  unfold startTest
  split
  · exact Agree.refl _ _
  · refine Agree.step (wakeCore_keeps _ _) rfl ?_
    refine Agree.step (wr_keeps _ _ _ _ _) rfl ?_
    refine Agree.step (maintBegin_keeps _ _ _ _) rfl ?_
    refine Agree.step (onCore_keeps _ _ _) rfl ?_
    exact Agree.refl _ _

theorem portEnable_keeps (n : Nat) (before after : State) :
    AgreeOutside [.regs, .free, .out, .sch, .hst] after (portEnable n before after) := by
  unfold portEnable
  split
  · dsimp only
    split
    · refine Agree.step (postEvent_keeps _ _ _ _ _ _) rfl ?_
      refine Agree.step (takeFree_keeps _) rfl ?_
      refine Agree.step (setPwrDomain_keeps _ _ _) rfl ?_
      exact Agree.step (wr_keeps _ _ _ _ _) rfl (Agree.refl _ _)
    · refine Agree.step (setPwrDomain_keeps _ _ _) rfl ?_
      exact Agree.step (wr_keeps _ _ _ _ _) rfl (Agree.refl _ _)
  · refine Agree.step (wr_keeps _ _ _ _ _) rfl ?_
    exact Agree.step (setPwrDomain_keeps _ _ _) rfl (Agree.refl _ _)
  · exact Agree.refl _ _

theorem wakeCores_keeps (s : State) (cs : List ℕ) : AgreeOutside [.regs, .cores] s (wakeCores s cs) := by
  unfold wakeCores
  refine Agree.foldl (fun u x => ?_) ?_
  · split
    · exact Agree.refl _ _
    · refine Agree.step (wakeCore_keeps _ _) rfl ?_
      exact Agree.refl _ _
  exact Agree.refl _ _

theorem trySetting_keeps (s : State) (c : ℕ) (next : ℕ × ℕ × ℕ) (cls : ℕ) (only : Bool) (harps : ℕ) : AgreeOutside [.spd, .regs, .shadow, .out, .cores, .harps, .sch, .ras, .hst, .flash] s (trySetting s c next cls only harps) := by
  unfold trySetting
  split
  · refine Agree.step (retire_keeps _ _ _ _ _) rfl ?_
    exact Agree.refl _ _
  · refine Agree.step (onCore_keeps _ _ _) rfl ?_
    exact Agree.refl _ _

theorem procRun_keeps (s : State) (c : ℕ) (p : ℕ × ℕ × ℕ × ℕ × Bool × ℕ) (run : KatRun) : AgreeOutside [.spd, .regs, .shadow, .out, .cores, .harps, .sch, .ras, .hst, .flash] s (procRun s c p run) := by
  unfold procRun
  dsimp only
  split
  · split
    · refine Agree.step (onCore_keeps _ _ _) rfl ?_
      exact Agree.refl _ _
    · refine Agree.step (adjust_keeps _ _ _ _) rfl ?_
      exact Agree.refl _ _
  · refine Agree.step (trySetting_keeps _ _ _ _ _ _) rfl ?_
    exact Agree.refl _ _

theorem katRun_keeps (s : State) (c : ℕ) (run : KatRun) : AgreeOutside [.spd, .regs, .shadow, .out, .cores, .harps, .sch, .ras, .hst, .flash] s (katRun s c run) := by
  unfold katRun
  dsimp only
  split
  · refine Agree.step (procRun_keeps _ _ _ _) rfl ?_
    exact Agree.refl _ _
  · split
    · refine Agree.step (retire_keeps _ _ _ _ _) rfl ?_
      exact Agree.refl _ _
    · refine Agree.step (procRun_keeps _ _ _ _) rfl ?_
      exact Agree.refl _ _
  · split
    · refine Agree.step (endTest_keeps _ _ _) rfl ?_
      exact Agree.refl _ _
    · refine Agree.step (trySetting_keeps _ _ _ _ _ _) rfl ?_
      refine Agree.step (suspectCore_keeps _ _ _ _ _) rfl ?_
      refine Agree.step (addSat_keeps _ _ _ _ _) rfl ?_
      exact Agree.refl _ _

theorem testRuns_keeps (c : ℕ) (a1 : List KatRun) (a2 : State) : AgreeOutside [.spd, .regs, .shadow, .out, .cores, .harps, .sch, .ras, .hst, .flash] a2 (testRuns c a1 a2) := by
  induction a1 generalizing a2 with
  | nil => exact Agree.refl _ _
  | cons x t ih =>
    unfold testRuns
    split
    · refine Agree.trans ?_ (ih _)
      exact Agree.step (katRun_keeps _ _ _) rfl (Agree.refl _ _)
    · exact Agree.refl _ _

theorem failChannel_keeps (s : State) (k : ℕ) (ch : ℕ) : AgreeOutside [.regs, .out, .ms, .sch, .ras, .hst] s (failChannel s k ch) := by
  unfold failChannel
  dsimp only
  refine Agree.step (logErr_keeps _ _) rfl ?_
  refine Agree.step (wr_keeps _ _ _ _ _) rfl ?_
  refine Agree.update (fun p hp => by cases p <;> first | exact absurd (by decide) hp | exact rfl) ?_
  exact Agree.refl _ _

theorem marginCheck_keeps (fails : List (StackIx × ChanIx)) (s : State) (k : ℕ) (ch : ℕ) : AgreeOutside [.regs, .free, .out, .ms, .sch, .ras, .hst] s (marginCheck fails s k ch) := by
  unfold marginCheck
  dsimp only
  split
  · exact Agree.refl _ _
  · split
    · refine Agree.update (fun p hp => by cases p <;> first | exact absurd (by decide) hp | exact rfl) ?_
      exact Agree.refl _ _
    · split
      · refine Agree.step (warn_keeps _ _ _) rfl ?_
        refine Agree.step (failChannel_keeps _ _ _) rfl ?_
        refine Agree.step (wr_keeps _ _ _ _ _) rfl ?_
        refine Agree.update (fun p hp => by cases p <;> first | exact absurd (by decide) hp | exact rfl) ?_
        exact Agree.refl _ _
      · refine Agree.step (trained_keeps _ _ _) rfl ?_
        refine Agree.step (wr_keeps _ _ _ _ _) rfl ?_
        refine Agree.step (wr_keeps _ _ _ _ _) rfl ?_
        refine Agree.update (fun p hp => by cases p <;> first | exact absurd (by decide) hp | exact rfl) ?_
        exact Agree.refl _ _

theorem coreWoken_keeps (s : State) (c : ℕ) : AgreeOutside [.regs, .cores, .harps] s (coreWoken s c) := by
  unfold coreWoken
  dsimp only
  refine Agree.foldl (fun u x => ?_) ?_
  · refine Agree.step (onHarp_keeps _ _ _ _) rfl ?_
    exact Agree.refl _ _
  refine Agree.step (onCore_keeps _ _ _) rfl ?_
  refine Agree.step (setPower_keeps _ _ _) rfl ?_
  exact Agree.refl _ _

theorem linkIdeOff_keeps (s : State) : AgreeOutside [.regs, .hst] s (linkIdeOff s) := by
  unfold linkIdeOff
  dsimp only
  refine Agree.step (wr_keeps _ _ _ _ _) rfl ?_
  refine Agree.update (fun p hp => by cases p <;> first | exact absurd (by decide) hp | exact rfl) ?_
  exact Agree.refl _ _

theorem readServed_keeps (s : State) (fn : ℕ) (off : ℕ) : AgreeOutside [.free] s (readServed s fn off).2 := by
  unfold readServed
  dsimp only
  split
  · dsimp only
    exact Agree.refl _ _
  · split
    · dsimp only
      exact Agree.refl _ _
    · dsimp only
      refine Agree.step (readView_keeps _ _) rfl ?_
      exact Agree.refl _ _

theorem replayPartition_keeps (s : State) (p : ℕ) : AgreeOutside [.mem] s (replayPartition s p) := by
  unfold replayPartition
  refine Agree.foldl (fun u x => ?_) ?_
  · split
    · refine Agree.step (replayRegion_keeps _ _ _) rfl ?_
      exact Agree.refl _ _
    · exact Agree.refl _ _
  exact Agree.refl _ _

theorem endStop_keeps (s : State) (p : ℕ) : AgreeOutside [.mem, .regs, .out, .tru] s (endStop s p) := by
  unfold endStop
  split
  · refine Agree.step (emit_keeps _ _) rfl ?_
    refine Agree.step (wr_keeps _ _ _ _ _) rfl ?_
    refine Agree.step (Agree.with_tru _ _) rfl ?_
    refine Agree.foldl (fun u e => Agree.mono (freeSeal_keeps _ _ _) rfl) ?_
    exact Agree.mono (clearPart_keeps _ _ _ _) rfl
  · exact Agree.refl _ _

theorem absorbCore_keeps (s : State) (p : ℕ) : AgreeOutside [.regs, .boot] s (absorbCore s p) := by
  unfold absorbCore
  dsimp only
  split
  · split
    · refine Agree.step (wr_keeps _ _ _ _ _) rfl ?_
      refine Agree.update (fun p hp => by cases p <;> first | exact absurd (by decide) hp | exact rfl) ?_
      exact Agree.refl _ _
    · exact Agree.refl _ _
  · exact Agree.refl _ _

theorem finishPartition_keeps (s : State) (p : ℕ) : AgreeOutside [.mem, .regs, .out, .tru, .boot] s (finishPartition s p) := by
  unfold finishPartition
  dsimp only
  refine Agree.step (endStop_keeps _ _) rfl ?_
  refine Agree.step (absorbCore_keeps _ _) rfl ?_
  refine Agree.step (wr_keeps _ _ _ _ _) rfl ?_
  split
  · refine Agree.step (endClear_keeps _ _) rfl ?_
    refine Agree.step (replayPartition_keeps _ _) rfl ?_
    exact Agree.refl _ _
  · refine Agree.step (replayPartition_keeps _ _) rfl ?_
    exact Agree.refl _ _

theorem meetOrder_keeps (s : State) (m : ℕ) (key : ℕ) (o : ℕ) : AgreeOutside [.lnk] s (meetOrder s m key o) := by
  unfold meetOrder
  dsimp only
  split
  · exact Agree.refl _ _
  · split
    · refine Agree.update (fun p hp => by cases p <;> first | exact absurd (by decide) hp | exact rfl) ?_
      exact Agree.refl _ _
    · refine Agree.update (fun p hp => by cases p <;> first | exact absurd (by decide) hp | exact rfl) ?_
      exact Agree.refl _ _

theorem capDown_keeps (s : State) (measured : Bool) : AgreeOutside [.regs, .pwr] s (capDown s measured) := by
  unfold capDown
  dsimp only
  split
  · refine Agree.step (addSat_keeps _ _ _ _ _) rfl ?_
    refine Agree.update (fun p hp => by cases p <;> first | exact absurd (by decide) hp | exact rfl) ?_
    exact Agree.refl _ _
  · split
    · refine Agree.foldl (fun u x => ?_) ?_
      · refine Agree.step (wr_keeps _ _ _ _ _) rfl ?_
        exact Agree.refl _ _
      refine Agree.update (fun p hp => by cases p <;> first | exact absurd (by decide) hp | exact rfl) ?_
      exact Agree.refl _ _
    · refine Agree.update (fun p hp => by cases p <;> first | exact absurd (by decide) hp | exact rfl) ?_
      exact Agree.refl _ _

theorem tscStep_keeps (s : State) (v : ℕ) : AgreeOutside [.regs, .out, .cores, .sch, .hst] s (tscStep s v) := by
  unfold tscStep
  dsimp only
  refine Agree.step (postEvent_keeps _ _ _ _ _ _) rfl ?_
  refine Agree.step (addSat_keeps _ _ _ _ _) rfl ?_
  refine Agree.step (wr_keeps _ _ _ _ _) rfl ?_
  refine Agree.foldl (fun u x => ?_) ?_
  · refine Agree.step (traceRec_keeps _ _ _ _ _ _) rfl ?_
    exact Agree.refl _ _
  exact Agree.refl _ _

theorem acquireMaster_keeps (s : State) (θ : ℤ) : AgreeOutside [.regs, .out, .cores, .sch, .hst, .lnk] s (acquireMaster s θ) := by
  unfold acquireMaster
  dsimp only
  split
  · refine Agree.step (postEvent_keeps _ _ _ _ _ _) rfl ?_
    refine Agree.step (tscStep_keeps _ _) rfl ?_
    refine Agree.step (wr_keeps _ _ _ _ _) rfl ?_
    refine Agree.update (fun p hp => by cases p <;> first | exact absurd (by decide) hp | exact rfl) ?_
    exact Agree.refl _ _
  · refine Agree.step (tscStep_keeps _ _) rfl ?_
    refine Agree.step (wr_keeps _ _ _ _ _) rfl ?_
    refine Agree.update (fun p hp => by cases p <;> first | exact absurd (by decide) hp | exact rfl) ?_
    exact Agree.refl _ _

theorem publishPlan_keeps (s : State) (p : Plan) : AgreeOutside [.regs] s (publishPlan s p) := by
  unfold publishPlan
  dsimp only
  refine Agree.step (wr_keeps _ _ _ _ _) rfl ?_
  refine Agree.step (wr_keeps _ _ _ _ _) rfl ?_
  refine Agree.step (setCounts_keeps _) rfl ?_
  refine Agree.foldl (fun u x => ?_) ?_
  · refine Agree.step (applyEntry_keeps _ _) rfl ?_
    exact Agree.refl _ _
  refine Agree.foldl (fun u x => ?_) ?_
  · refine Agree.step (publishCore_keeps _ _ _) rfl ?_
    exact Agree.refl _ _
  refine Agree.foldl (fun u x => ?_) ?_
  · refine Agree.step (publishStack_keeps _ _ _) rfl ?_
    exact Agree.refl _ _
  refine Agree.foldl (fun u x => ?_) ?_
  · refine Agree.step (wr_keeps _ _ _ _ _) rfl ?_
    exact Agree.refl _ _
  refine Agree.step (wr_keeps _ _ _ _ _) rfl ?_
  refine Agree.step (wr_keeps _ _ _ _ _) rfl ?_
  refine Agree.step (wr_keeps _ _ _ _ _) rfl ?_
  refine Agree.step (wr_keeps _ _ _ _ _) rfl ?_
  refine Agree.step (wr_keeps _ _ _ _ _) rfl ?_
  refine Agree.step (wr_keeps _ _ _ _ _) rfl ?_
  refine Agree.step (wr_keeps _ _ _ _ _) rfl ?_
  refine Agree.step (wr_keeps _ _ _ _ _) rfl ?_
  refine Agree.step (wr_keeps _ _ _ _ _) rfl ?_
  refine Agree.step (wr_keeps _ _ _ _ _) rfl ?_
  exact Agree.refl _ _

theorem pinInstruction_keeps (s : State) (code : ℕ) (name : String) (v : ℕ) : AgreeOutside [.out, .phy] s (pinInstruction s code name v) := by
  unfold pinInstruction
  dsimp only
  split
  · refine Agree.step (emit_keeps _ _) rfl ?_
    refine Agree.update (fun p hp => by cases p <;> first | exact absurd (by decide) hp | exact rfl) ?_
    exact Agree.refl _ _
  · refine Agree.step (tapBypass_keeps _) rfl ?_
    exact Agree.refl _ _

theorem loadFault_keeps (s : State) (w : ℕ) (p : ℕ) (va : ℕ) (e : XFault) : AgreeOutside [.regs, .out, .cores, .harps, .sch, .ras, .hst] s (loadFault s w p va e) := by
  unfold loadFault
  refine Agree.step (onCmd_keeps _ _ _) rfl ?_
  refine Agree.step (xlateFail_keeps _ _ _ _ _ _ _) rfl ?_
  exact Agree.refl _ _

theorem kvFreePage_keeps (s : State) (r : ℕ) (n : ℕ) : AgreeOutside [.mem, .regs, .free, .out, .cores, .harps, .ms, .sch, .ras, .obs, .hst, .kv] s (kvFreePage s r n) := by
  unfold kvFreePage
  dsimp only
  split
  · split
    · refine Agree.step (onKvReg_keeps _ _ _) rfl ?_
      refine Agree.step (setKvNear_keeps _ _ _ _) rfl ?_
      refine Agree.step (setKvCount_keeps _ _ _ _) rfl ?_
      exact Agree.refl _ _
    · refine Agree.step (setKvNear_keeps _ _ _ _) rfl ?_
      refine Agree.step (setKvCount_keeps _ _ _ _) rfl ?_
      exact Agree.refl _ _
  · refine Agree.step (setKvFar_keeps _ _ _ _) rfl ?_
    refine Agree.step (setKvCount_keeps _ _ _ _) rfl ?_
    exact Agree.refl _ _

theorem debugRead_keeps (s : State) (p : ℕ) (o : ℕ) (n : ℕ) : AgreeOutside [.mem, .regs, .out, .ms, .sch, .ras, .hst] s (debugRead s p o n) := by
  unfold debugRead
  refine Agree.step (emit_keeps _ _) rfl ?_
  exact Agree.foldl_fst (fun u x => debugPiece_keeps u x) (Agree.refl _ _)

theorem fatalClock_keeps (s : State) (a1 : FatalKind) : AgreeOutside [.regs] s (fatalClock s a1) := by
  unfold fatalClock
  split
  · refine Agree.step (wr_keeps _ _ _ _ _) rfl ?_
    exact Agree.refl _ _
  · refine Agree.step (wr_keeps _ _ _ _ _) rfl ?_
    exact Agree.refl _ _
  · exact Agree.refl _ _

theorem kvCopy_keeps (s : State) (stack : ℕ) (w : Option ℕ) (src : ℕ) (dst : ℕ) (n : ℕ) : AgreeOutside [.mem, .regs, .out, .cores, .harps, .ms, .sch, .ras, .obs, .hst] s (kvCopy s stack w src dst n) := by
  unfold kvCopy
  dsimp only
  refine Agree.foldl (fun u x => ?_) ?_
  · refine Agree.step (kvStore_keeps _ _ _ _ _ _) rfl ?_
    refine Agree.step (sliceRd_keeps _ _ _ _ _ _) rfl ?_
    exact Agree.refl _ _
  exact Agree.refl _ _

theorem runStall_keeps (s : State) (c : ℕ) (h : ℕ) (reason : ℕ) : AgreeOutside [.regs, .free, .cores, .sch, .obs] s (runStall s c h reason) := by
  unfold runStall
  dsimp only
  refine Agree.step (stall_keeps _ _ _ _) rfl ?_
  refine Agree.update (fun p hp => by cases p <;> first | exact absurd (by decide) hp | exact rfl) ?_
  split
  · refine Agree.step (endStallRun_keeps _ _ _) rfl ?_
    exact Agree.refl _ _
  · exact Agree.refl _ _

theorem leaveKernel_keeps (s : State) (k : ℕ) : AgreeOutside [.cores, .harps, .ord] s (leaveKernel s k) := by
  unfold leaveKernel
  refine Agree.step (Agree.with_ord _ _) rfl ?_
  refine Agree.step (onCore_keeps _ _ _) rfl ?_
  exact Agree.mono (abandonCore_keeps _ _) rfl

theorem configWrite_keeps (s : State) (fn : ℕ) (f : CfgField) (v : ℕ) : AgreeOutside [.regs, .out, .cores, .harps, .sch, .ras, .hst, .pwr] s (configWrite s fn f v) := by
  unfold configWrite
  dsimp only
  split
  · refine Agree.step (flushHold_keeps _ _) rfl ?_
    refine Agree.update (fun p hp => by cases p <;> first | exact absurd (by decide) hp | exact rfl) ?_
    exact Agree.refl _ _
  · split
    · refine Agree.update (fun p hp => by cases p <;> first | exact absurd (by decide) hp | exact rfl) ?_
      exact Agree.refl _ _
    · exact Agree.refl _ _
  · refine Agree.update (fun p hp => by cases p <;> first | exact absurd (by decide) hp | exact rfl) ?_
    exact Agree.refl _ _
  · split
    · refine Agree.update (fun p hp => by cases p <;> first | exact absurd (by decide) hp | exact rfl) ?_
      exact Agree.refl _ _
    · exact Agree.refl _ _
  · split
    · refine Agree.update (fun p hp => by cases p <;> first | exact absurd (by decide) hp | exact rfl) ?_
      exact Agree.refl _ _
    · exact Agree.refl _ _
  · split
    · refine Agree.update (fun p hp => by cases p <;> first | exact absurd (by decide) hp | exact rfl) ?_
      exact Agree.refl _ _
    · exact Agree.refl _ _
  · exact Agree.refl _ _
  · exact Agree.refl _ _
  · exact Agree.refl _ _
  · exact Agree.refl _ _

theorem startQuiesce_keeps (s : State) (l : ℕ) (disabling : Bool) : AgreeOutside [.regs, .out, .cores, .harps, .sch, .hst, .lnk] s (startQuiesce s l disabling) := by
  unfold startQuiesce
  dsimp only
  split
  · exact Agree.refl _ _
  · refine Agree.step (onLink_keeps _ _ _) rfl ?_
    refine Agree.step (enqueue_keeps _ _ _) rfl ?_
    refine Agree.step (leftUp_keeps _ _) rfl ?_
    refine Agree.step (setLinkState_keeps _ _ _) rfl ?_
    exact Agree.refl _ _

theorem putImage_keeps (s : State) (a : ℕ) (bytes : List Byte) : AgreeOutside [.flash] s (putImage s a bytes) := by
  unfold putImage
  dsimp only
  refine Agree.update (fun p hp => by cases p <;> first | exact absurd (by decide) hp | exact rfl) ?_
  exact Agree.refl _ _

theorem attribPart_keeps (parts : List (ℕ × List ℕ × ℕ × ℕ × ℕ)) (s : State) (p : ℕ) : AgreeOutside [.regs, .pwr] s (attribPart parts s p) := by
  unfold attribPart
  dsimp only
  refine Agree.step (setPartDuty_keeps _ _ _) rfl ?_
  refine Agree.step (wrB_keeps _ _ _ _ _) rfl ?_
  refine Agree.step (wr_keeps _ _ _ _ _) rfl ?_
  exact Agree.refl _ _

theorem thermDown_keeps (s : State) (m : ℕ) : AgreeOutside [.regs, .pwr] s (thermDown s m) := by
  unfold thermDown
  dsimp only
  split
  · refine Agree.step (addSat_keeps _ _ _ _ _) rfl ?_
    refine Agree.update (fun p hp => by cases p <;> first | exact absurd (by decide) hp | exact rfl) ?_
    exact Agree.refl _ _
  · exact Agree.refl _ _

theorem setFault_keeps (s : State) (k : ℕ) (on : Bool) : AgreeOutside [.regs, .out, .sch, .hst] s (setFault s k on) := by
  unfold setFault
  dsimp only
  refine Agree.step (postEvent_keeps _ _ _ _ _ _) rfl ?_
  refine Agree.step (wr_keeps _ _ _ _ _) rfl ?_
  refine Agree.step (wrB_keeps _ _ _ _ _) rfl ?_
  exact Agree.refl _ _

theorem endWrite_keeps (s : State) (a : W64) (ok : Bool) : AgreeOutside [.regs, .free, .flash, .mgm] s (endWrite s a ok) := by
  unfold endWrite
  dsimp only
  split
  · refine Agree.step (mbxResult_keeps _ _) rfl ?_
    refine Agree.step (wr_keeps _ _ _ _ _) rfl ?_
    refine Agree.update (fun p hp => by cases p <;> first | exact absurd (by decide) hp | exact rfl) ?_
    refine Agree.step (putImage_keeps _ _ _) rfl ?_
    refine Agree.step (wr_keeps _ _ _ _ _) rfl ?_
    refine Agree.update (fun p hp => by cases p <;> first | exact absurd (by decide) hp | exact rfl) ?_
    exact Agree.refl _ _
  · refine Agree.step (mbxResult_keeps _ _) rfl ?_
    refine Agree.step (putImage_keeps _ _ _) rfl ?_
    refine Agree.step (freeBytes_keeps _ _) rfl ?_
    refine Agree.step (wr_keeps _ _ _ _ _) rfl ?_
    refine Agree.update (fun p hp => by cases p <;> first | exact absurd (by decide) hp | exact rfl) ?_
    exact Agree.refl _ _

theorem kvPutRec_keeps (s : State) (r q : Nat) (w : Option Nat) (final : Bool) (t : State)
    (h : kvPutRec s r q w final = .ok t) : AgreeOutside [.mem, .regs, .free, .out, .cores, .harps, .ord, .ms, .sch, .ras, .obs, .hst, .kv] s t := by
  unfold kvPutRec at h
  dsimp only at h
  split at h
  · cases h
  · split at h
    · cases h
      refine Agree.step (issue_keeps _ _) rfl ?_
      refine Agree.step (issue_keeps _ _) rfl ?_
      exact Agree.step (learn_keeps _ _ _ _ _ _ _) rfl (Agree.step (kvJournal_keeps _ _ _) rfl (Agree.refl _ _))
    · cases h
      refine Agree.step (issue_keeps _ _) rfl ?_
      exact Agree.step (learn_keeps _ _ _ _ _ _ _) rfl (Agree.step (kvJournal_keeps _ _ _) rfl (Agree.refl _ _))

theorem runDue_keeps (s : State) (c : ℕ) : AgreeOutside [.regs, .cores, .harps, .sch, .ras, .lnk, .pwr] s (runDue s c) := by
  unfold runDue
  dsimp only
  split
  · exact Agree.refl _ _
  · split
    · refine Agree.foldl (fun u x => ?_) ?_
      · refine Agree.step (startTest_keeps _ _) rfl ?_
        exact Agree.refl _ _
      refine Agree.step (wakeDie_keeps _) rfl ?_
      exact Agree.refl _ _
    · split
      · refine Agree.step (wakeDie_keeps _) rfl ?_
        exact Agree.refl _ _
      · split
        · refine Agree.step (saveForTest_keeps _ _) rfl ?_
          refine Agree.step (wakeDie_keeps _) rfl ?_
          exact Agree.refl _ _
        · split
          · refine Agree.step (saveForTest_keeps _ _) rfl ?_
            refine Agree.step (addSat_keeps _ _ _ _ _) rfl ?_
            refine Agree.step (wakeDie_keeps _) rfl ?_
            exact Agree.refl _ _
          · refine Agree.step (wakeDie_keeps _) rfl ?_
            exact Agree.refl _ _

theorem maintStart_keeps (s : State) (a : ℕ) (unit : ℕ) (sub : ℕ) (t : State) (h : maintStart s a unit sub = some t) : AgreeOutside [.regs, .out, .cores, .harps, .ms, .sch, .ras, .hst, .lnk, .pwr] s t := by
  have hr : ∀ u : State, AgreeOutside [.regs, .out, .cores, .harps, .ms, .sch, .ras, .hst, .lnk, .pwr] u u := fun u => Agree.refl _ u
  unfold maintStart at h
  split at h
  · split at h
    · cases h
    · split at h
      · cases h; exact hr _
      · cases h
        refine Agree.step (updStack_keeps _ _) rfl ?_
        refine Agree.step (maintBegin_keeps _ _ _ _) rfl ?_
        refine Agree.step (wr_keeps _ _ _ _ _) rfl ?_
        exact Agree.mono (Agree.with_ms _ _) rfl
  · split at h
    · cases h
    · split at h
      · cases h
        exact Agree.mono (maintBegin_keeps _ _ _ _) rfl
      · cases h; exact hr _
  · split at h
    · cases h; exact hr _
    · split at h
      · split at h
        · cases h
        · cases h; exact hr _
      · split at h
        · cases h
        · cases h
          refine Agree.step (endWait_keeps _ _ _ _) rfl ?_
          exact Agree.mono (startQuiesce_keeps _ _ _) rfl
  · split at h
    · cases h
      exact Agree.ite (Agree.mono (runDue_keeps _ _) rfl) (Agree.step (maintWait_keeps _ _ _ _) rfl (Agree.mono (runDue_keeps _ _) rfl))
    · cases h; exact hr _
  · split at h
    · cases h; exact hr _
    · split at h
      · cases h
      · cases h
        refine Agree.step (endWait_keeps _ _ _ _) rfl ?_
        refine Agree.step (maintBegin_keeps _ _ _ _) rfl ?_
        exact Agree.mono (Agree.with_ras _ _) rfl
  · split at h
    · cases h
    · cases h
      exact Agree.mono (endWait_keeps _ _ _ _) rfl
  · cases h; exact hr _

theorem atomicNow_keeps (s : State) (fn : ℕ) (off : ℕ) (op : AtomicOp) (x : W64) (cmp : W64) : AgreeOutside [.mem, .regs, .out, .cores, .harps, .ms, .sch, .ras, .obs, .hst] s (atomicNow s fn off op x cmp) := by
  unfold atomicNow
  dsimp only
  split
  · refine Agree.step (emit_keeps _ _) rfl ?_
    exact Agree.refl _ _
  · refine Agree.step (emit_keeps _ _) rfl ?_
    refine Agree.step (sliceAtom_keeps _ _ _ _ _ _ _ _ _) rfl ?_
    refine Agree.step (hostPoison_keeps _ _ _) rfl ?_
    exact Agree.refl _ _

theorem setNext_keeps (s : State) (v : ℕ) : AgreeOutside [.regs, .shadow, .flash] s (setNext s v) := by
  unfold setNext
  dsimp only
  refine Agree.step (setShadow_keeps _ _ _) rfl ?_
  refine Agree.step (setReg_keeps _ _ _) rfl ?_
  refine Agree.update (fun p hp => by cases p <;> first | exact absurd (by decide) hp | exact rfl) ?_
  exact Agree.refl _ _

theorem stageTest_keeps (runs : List (CoreIx × List KatRun)) (s : State) (c : ℕ) : AgreeOutside [.spd, .regs, .shadow, .out, .cores, .harps, .sch, .ras, .hst, .flash] s (stageTest runs s c) := by
  unfold stageTest
  dsimp only
  refine Agree.step (testRuns_keeps _ _ _) rfl ?_
  refine Agree.step (onCore_keeps _ _ _) rfl ?_
  exact Agree.refl _ _

theorem dbgSnap_keeps (s : State) (late : Bool) : AgreeOutside [.regs, .cores] s (dbgSnap s late) := by
  unfold dbgSnap
  dsimp only
  refine Agree.step (wrB_keeps _ _ _ _ _) rfl ?_
  refine Agree.step (wr_keeps _ _ _ _ _) rfl ?_
  refine Agree.foldl (fun u x => ?_) ?_
  · split
    · split
      · refine Agree.step (takeSnap_keeps _ _ _ _) rfl ?_
        exact Agree.refl _ _
      · exact Agree.refl _ _
    · exact Agree.refl _ _
  exact Agree.refl _ _

theorem debugHalt_keeps (s : State) (p : ℕ) : AgreeOutside [.regs, .cores, .harps, .sch, .lnk, .tru] s (debugHalt s p) := by
  unfold debugHalt
  dsimp only
  refine Agree.foldl (fun u x => ?_) ?_
  · refine Agree.step (requestPreempt_keeps _ _ _) rfl ?_
    exact Agree.refl _ _
  refine Agree.update (fun p hp => by cases p <;> first | exact absurd (by decide) hp | exact rfl) ?_
  exact Agree.refl _ _

theorem maintEnd_keeps (s : State) (a : ℕ) (unit : ℕ) (sub : ℕ) : AgreeOutside [.regs, .ras, .pwr] s (maintEnd s a unit sub) := by
  unfold maintEnd
  dsimp only
  refine Agree.step (wrB_keeps _ _ _ _ _) rfl ?_
  refine Agree.step (notIdle_keeps _) rfl ?_
  refine Agree.update (fun p hp => by cases p <;> first | exact absurd (by decide) hp | exact rfl) ?_
  exact Agree.refl _ _

theorem startHalt_keeps (s : State) (cause : ℕ) : AgreeOutside [.regs, .out, .cores, .harps, .ord, .ms, .sch, .ras, .hst, .lnk, .kv, .pwr] s (startHalt s cause) := by
  unfold startHalt
  dsimp only
  refine Agree.step (armHalt_keeps _ _ _ _) rfl ?_
  refine Agree.update (fun p hp => by cases p <;> first | exact absurd (by decide) hp | exact rfl) ?_
  exact Agree.refl _ _

theorem pollLater_keeps (s : State) (w : ℕ) : AgreeOutside [.sch] s (pollLater s w) := by
  unfold pollLater
  dsimp only
  refine Agree.step (onRing_keeps _ _ _) rfl ?_
  exact Agree.refl _ _

theorem readNow_keeps (s : State) (fn : ℕ) (off : ℕ) (size : ℕ) : AgreeOutside [.regs, .free, .out, .sch, .hst, .tru] s (readNow s fn off size) := by
  unfold readNow
  dsimp only
  split
  · refine Agree.step (emit_keeps _ _) rfl ?_
    exact Agree.refl _ _
  · refine Agree.step (emit_keeps _ _) rfl ?_
    refine Agree.step (clearOnRead_keeps _ _) rfl ?_
    refine Agree.step (readServed_keeps _ _ _) rfl ?_
    refine Agree.step (windowDebug_keeps _ _ _ _) rfl ?_
    exact Agree.refl _ _

theorem endBegin_keeps (s : State) (n : ℕ) (ok : Bool) : AgreeOutside [.regs, .free, .flash, .mgm] s (endBegin s n ok) := by
  unfold endBegin
  dsimp only
  refine Agree.step (mbxResult_keeps _ _) rfl ?_
  refine Agree.step (wr_keeps _ _ _ _ _) rfl ?_
  refine Agree.update (fun p hp => by cases p <;> first | exact absurd (by decide) hp | exact rfl) ?_
  refine Agree.step (takeFree_keeps _) rfl ?_
  refine Agree.step (markInvalid_keeps _) rfl ?_
  exact Agree.refl _ _

theorem askAdmission_keeps (s : State) (c : ℕ) (h : ℕ) (r : ℕ) (feedersReady : Bool) : AgreeOutside [.harps] s (askAdmission s c h r feedersReady) := by
  unfold askAdmission
  split
  · refine Agree.step (onHarp_keeps _ _ _ _) rfl ?_
    exact Agree.refl _ _
  · exact Agree.refl _ _

theorem gangAnnounce_keeps (s : State) (w : ℕ) (id : ℕ) (resume : Bool) : AgreeOutside [.cores, .harps, .sch, .lnk] s (gangAnnounce s w id resume) := by
  unfold gangAnnounce
  dsimp only
  split
  · exact Agree.refl _ _
  · refine Agree.step (gangSend_keeps _ _ _) rfl ?_
    refine Agree.step (onRing_keeps _ _ _) rfl ?_
    exact Agree.refl _ _

theorem testRow_keeps (a : State × Nat × Nat) (e : BankRow × Nat) :
    AgreeOutside [.mem, .regs, .out, .ms, .sch, .ras, .hst, .flash] a.1 (testRow a e).1 := by
  unfold testRow
  have h1 : AgreeOutside [.mem, .regs, .out, .ms, .sch, .ras, .hst, .flash] a.1
      ((List.range (min (e.2 + 1) (4 - sparesUsed a.1 e.1))).foldl (fun s _ => spareRow s e.1) a.1) :=
    Agree.foldl (fun _ _ => Agree.mono (spareRow_keeps _ _) rfl) (Agree.refl _ _)
  dsimp only
  generalize (List.range (min (e.2 + 1) (4 - sparesUsed a.1 e.1))).foldl (fun s _ => spareRow s e.1) a.1 = t at *
  split
  · exact h1
  · refine Agree.step (addSat_keeps _ _ _ _ _) rfl ?_
    have h : AgreeOutside [.mem, .regs, .out, .ms, .sch, .ras, .hst, .flash] a.1
        (logErr { t with mem := (rowLines t e.1).foldl memMark t.mem }
          ⟨0x0293, 2, 1, e.1.stack, none, none, none, none, rowWord e.1, 0⟩) :=
      Agree.step (logErr_keeps _ _) rfl
        (Agree.update (fun p hp => by cases p <;> first | exact absurd (by decide) hp | exact rfl) h1)
    exact Agree.ite (Agree.step (wr_keeps _ _ _ _ _) rfl h) h

theorem commandHint_keeps (s : State) (w : ℕ) (words : List W64) : AgreeOutside [.pwr] s (commandHint s w words) := by
  unfold commandHint
  dsimp only
  refine Agree.step (applyHint_keeps _ _ _ _ _) rfl ?_
  refine Agree.update (fun p hp => by cases p <;> first | exact absurd (by decide) hp | exact rfl) ?_
  exact Agree.refl _ _

theorem harpFault_keeps (s : State) (c : ℕ) (h : ℕ) : AgreeOutside [.regs, .out, .cores, .harps, .sch, .ras, .hst] s (harpFault s c h) := by
  unfold harpFault
  dsimp only
  refine Agree.step (suspectCore_keeps _ _ _ _ _) rfl ?_
  split
  · refine Agree.step (failCore_keeps _ _ _ _) rfl ?_
    refine Agree.step (onHarp_keeps _ _ _ _) rfl ?_
    refine Agree.step (logErr_keeps _ _) rfl ?_
    exact Agree.refl _ _
  · refine Agree.step (logErr_keeps _ _) rfl ?_
    exact Agree.refl _ _

theorem issuePeer_keeps (s : State) (l : ℕ) (m : ℕ) (msg : Msg) (pa : ℕ) (data : List Byte) (last : Bool) (part : ℕ) : AgreeOutside [.out, .cores, .harps, .ord, .sch] s (issuePeer s l m msg pa data last part) := by
  unfold issuePeer
  dsimp only
  split
  · refine Agree.step (setFlight_keeps _ _ _) rfl ?_
    refine Agree.step (issue_keeps _ _) rfl ?_
    exact Agree.refl _ _
  · refine Agree.step (issue_keeps _ _) rfl ?_
    exact Agree.refl _ _

theorem gatherErr_keeps (s : State) (c : ℕ) (w : ℕ) (mode : ℕ) (va : ℕ) (rowBase : ℕ) (colBase : ℕ) (items : List ErrItem) : AgreeOutside [.mem, .regs, .out, .cores, .harps, .ms, .sch, .ras, .obs, .hst] s (gatherErr s c w mode va rowBase colBase items) := by
  unfold gatherErr
  refine Agree.step (gatherErrBy_keeps _ _ _ _ _ _ _ _ _) rfl ?_
  exact Agree.refl _ _

theorem kvTrim_keeps (s : State) (r : ℕ) (q : ℕ) (len : ℕ) (w : Option ℕ) : AgreeOutside [.mem, .regs, .free, .out, .cores, .harps, .ms, .sch, .ras, .obs, .hst, .kv] s (kvTrim s r q len w) := by
  unfold kvTrim
  dsimp only
  refine Agree.foldl (fun u x => ?_) ?_
  · split
    · exact Agree.refl _ _
    · refine Agree.step (onKvSeq_keeps _ _ _ _) rfl ?_
      split
      · refine Agree.step (kvFreePage_keeps _ _ _) rfl ?_
        refine Agree.step (kvLeaf_keeps _ _ _ _ _ _) rfl ?_
        exact Agree.refl _ _
      · refine Agree.step (setKvCount_keeps _ _ _ _) rfl ?_
        refine Agree.step (kvLeaf_keeps _ _ _ _ _ _) rfl ?_
        exact Agree.refl _ _
  exact Agree.refl _ _

end Sys2Proof.Laws
end

