-- ==== Sys2Proof/Laws/SMap.lean ====
section
/-!
SUPPORT. Sys2Proof/Laws/SMap.lean: what a sparse map answers after a write, and that every operation keeps the
canonical form.
-/
namespace Sys2Proof.Laws
open Sys2Proof.Machine

theorem smap_look_drop_self {α : Type} (d : Nat → α) (m : SMap α) (k : Nat) :
    SMap.look d (SMap.drop k m) k = d k := by
  induction m with
  | nil => rfl
  | cons e t ih =>
    obtain ⟨k', v⟩ := e
    by_cases h : k' = k <;> simp [SMap.drop, SMap.look, h, ih]

theorem smap_look_drop_other {α : Type} (d : Nat → α) (m : SMap α) {k j : Nat} (h : j ≠ k) :
    SMap.look d (SMap.drop k m) j = SMap.look d m j := by
  induction m with
  | nil => rfl
  | cons e t ih =>
    obtain ⟨k', v⟩ := e
    by_cases h1 : k' = k
    · subst h1; simp [SMap.drop, SMap.look, ih, Ne.symm h]
    · simp [SMap.drop, SMap.look, h1, ih]

theorem smap_look_place_other {α : Type} (d : Nat → α) (m : SMap α) {k j : Nat} (v : α) (h : j ≠ k) :
    SMap.look d (SMap.place k v m) j = SMap.look d m j := by
  induction m with
  | nil => simp [SMap.place, SMap.look, Ne.symm h]
  | cons e t ih =>
    obtain ⟨k', v'⟩ := e
    by_cases h1 : k < k'
    · simp [SMap.place, SMap.look, h1, Ne.symm h]
    · simp [SMap.place, SMap.look, h1, ih]

theorem smap_look_place_drop_self {α : Type} (d : Nat → α) (m : SMap α) (k : Nat) (v : α) :
    SMap.look d (SMap.place k v (SMap.drop k m)) k = v := by
  induction m with
  | nil => simp [SMap.drop, SMap.place, SMap.look]
  | cons e t ih =>
    obtain ⟨k', v'⟩ := e
    by_cases h1 : k' = k
    · simp [SMap.drop, h1, ih]
    · by_cases h2 : k < k'
      · simp [SMap.drop, SMap.place, SMap.look, h1, h2]
      · simp [SMap.drop, SMap.place, SMap.look, h1, h2, ih]

/-- Reading the key just written gives the value written. -/
@[simp] theorem smap_look_put_self {α : Type} [DecidableEq α] (d : Nat → α) (m : SMap α) (k : Nat) (v : α) :
    SMap.look d (SMap.put d m k v) k = v := by
  by_cases h : v = d k
  · simp [SMap.put, h, smap_look_drop_self]
  · simp [SMap.put, h, smap_look_place_drop_self]

/-- A write leaves every other key as it was. -/
theorem smap_look_put_other {α : Type} [DecidableEq α] (d : Nat → α) (m : SMap α) {k j : Nat} (v : α) (h : j ≠ k) :
    SMap.look d (SMap.put d m k v) j = SMap.look d m j := by
  by_cases hv : v = d k
  · simp [SMap.put, hv, smap_look_drop_other d m h]
  · simp [SMap.put, hv, smap_look_place_other d _ v h, smap_look_drop_other d m h]

/-- Both cases of a read after a write. -/
theorem smap_look_put {α : Type} [DecidableEq α] (d : Nat → α) (m : SMap α) (k j : Nat) (v : α) :
    SMap.look d (SMap.put d m k v) j = if j = k then v else SMap.look d m j := by
  by_cases h : j = k
  · subst h; simp
  · simp [h, smap_look_put_other d m v h]

theorem smap_rising_mono {α : Type} {a b : Nat} (m : SMap α) (hab : a ≤ b) (h : SMap.risingFrom b m = true) :
    SMap.risingFrom a m = true := by
  cases m with
  | nil => rfl
  | cons e t =>
    obtain ⟨k, v⟩ := e
    simp [SMap.risingFrom] at h ⊢
    exact ⟨by omega, h.2⟩

theorem smap_rising_drop {α : Type} (b k : Nat) (m : SMap α) (h : SMap.risingFrom b m = true) :
    SMap.risingFrom b (SMap.drop k m) = true := by
  induction m generalizing b with
  | nil => rfl
  | cons e t ih =>
    obtain ⟨k', v⟩ := e
    simp [SMap.risingFrom] at h
    by_cases h1 : k' = k
    · simp [SMap.drop, h1]
      exact smap_rising_mono _ (by omega) (ih (k' + 1) h.2)
    · simp [SMap.drop, h1, SMap.risingFrom]
      exact ⟨h.1, ih _ h.2⟩

theorem smap_rising_keep {α : Type} (b : Nat) (p : Nat → Bool) (m : SMap α) (h : SMap.risingFrom b m = true) :
    SMap.risingFrom b (SMap.keep p m) = true := by
  induction m generalizing b with
  | nil => rfl
  | cons e t ih =>
    obtain ⟨k', v⟩ := e
    simp [SMap.risingFrom] at h
    by_cases h1 : p k'
    · simp [SMap.keep, h1, SMap.risingFrom]
      exact ⟨h.1, ih _ h.2⟩
    · simp [SMap.keep, h1]
      exact smap_rising_mono _ (by omega) (ih (k' + 1) h.2)

theorem smap_rising_place_drop {α : Type} (b k : Nat) (v : α) (m : SMap α) (hb : b ≤ k)
    (h : SMap.risingFrom b m = true) : SMap.risingFrom b (SMap.place k v (SMap.drop k m)) = true := by
  induction m generalizing b with
  | nil => simp [SMap.drop, SMap.place, SMap.risingFrom, hb]
  | cons e t ih =>
    obtain ⟨k', v'⟩ := e
    simp [SMap.risingFrom] at h
    by_cases h1 : k' = k
    · subst h1
      simp [SMap.drop]
      have hd := smap_rising_drop (k' + 1) k' t h.2
      cases hc : SMap.drop k' t with
      | nil => simp [SMap.place, SMap.risingFrom, hb]
      | cons e2 t2 =>
        obtain ⟨k2, v2⟩ := e2
        rw [hc] at hd
        simp [SMap.risingFrom] at hd
        have : k' < k2 := by omega
        simp [SMap.place, SMap.risingFrom, this, hb, hd.2]
    · by_cases h2 : k < k'
      · simp [SMap.drop, h1, SMap.place, h2, SMap.risingFrom, hb]
        exact smap_rising_drop _ _ _ h.2
      · simp [SMap.drop, h1, SMap.place, h2, SMap.risingFrom, h.1]
        exact ih _ (by omega) h.2

theorem smap_noDefault_drop {α : Type} [DecidableEq α] (d : Nat → α) (k : Nat) (m : SMap α)
    (h : SMap.noDefault d m = true) : SMap.noDefault d (SMap.drop k m) = true := by
  induction m with
  | nil => rfl
  | cons e t ih =>
    obtain ⟨k', v⟩ := e
    simp [SMap.noDefault] at h
    by_cases h1 : k' = k
    · simp [SMap.drop, h1, ih h.2]
    · simp [SMap.drop, h1, SMap.noDefault, h.1, ih h.2]

theorem smap_noDefault_keep {α : Type} [DecidableEq α] (d : Nat → α) (p : Nat → Bool) (m : SMap α)
    (h : SMap.noDefault d m = true) : SMap.noDefault d (SMap.keep p m) = true := by
  induction m with
  | nil => rfl
  | cons e t ih =>
    obtain ⟨k', v⟩ := e
    simp [SMap.noDefault] at h
    by_cases h1 : p k'
    · simp [SMap.keep, h1, SMap.noDefault, h.1, ih h.2]
    · simp [SMap.keep, h1, ih h.2]

theorem smap_noDefault_place {α : Type} [DecidableEq α] (d : Nat → α) (k : Nat) (v : α) (m : SMap α)
    (hv : v ≠ d k) (h : SMap.noDefault d m = true) : SMap.noDefault d (SMap.place k v m) = true := by
  induction m with
  | nil => simp [SMap.place, SMap.noDefault, hv]
  | cons e t ih =>
    obtain ⟨k', v'⟩ := e
    simp [SMap.noDefault] at h
    by_cases h1 : k < k'
    · simp [SMap.place, h1, SMap.noDefault, hv, h.1, h.2]
    · simp [SMap.place, h1, SMap.noDefault, h.1, ih h.2]

/-- A write keeps the canonical form. -/
theorem smap_wf_put {α : Type} [DecidableEq α] (d : Nat → α) (m : SMap α) (k : Nat) (v : α)
    (h : SMap.wf d m = true) : SMap.wf d (SMap.put d m k v) = true := by
  simp [SMap.wf] at h ⊢
  by_cases hv : v = d k
  · simp [SMap.put, hv]
    exact ⟨smap_rising_drop _ _ _ h.1, smap_noDefault_drop _ _ _ h.2⟩
  · simp [SMap.put, hv]
    exact ⟨smap_rising_place_drop _ _ _ _ (Nat.zero_le _) h.1,
      smap_noDefault_place _ _ _ _ hv (smap_noDefault_drop _ _ _ h.2)⟩

/-- Restricting the keys keeps the canonical form. -/
theorem smap_wf_keep {α : Type} [DecidableEq α] (d : Nat → α) (p : Nat → Bool) (m : SMap α)
    (h : SMap.wf d m = true) : SMap.wf d (SMap.keep p m) = true := by
  simp [SMap.wf] at h ⊢
  exact ⟨smap_rising_keep _ _ _ h.1, smap_noDefault_keep _ _ _ h.2⟩

/-- Any number of writes keeps the canonical form. -/
theorem smap_wf_putAll {α : Type} [DecidableEq α] (d : Nat → α) (m : SMap α) (kvs : List (Nat × α))
    (h : SMap.wf d m = true) : SMap.wf d (SMap.putAll d m kvs) = true := by
  induction kvs generalizing m with
  | nil => exact h
  | cons e t ih => exact ih _ (smap_wf_put d m e.1 e.2 h)

end Sys2Proof.Laws
end

