-- ==== Sys2Proof/Laws/Regs.lean ====
section
/-!
SUPPORT. Sys2Proof/Laws/Regs.lean: what a register field reads as after a field has been written.
-/
namespace Sys2Proof.Laws
open Sys2Proof.Machine

/-- Bit k of a field's value. -/
theorem getBits_testBit (x : W64) (lo w k : Nat) :
    (getBits x lo w).testBit k = (decide (k < w) && x.getLsbD (lo + k)) := by
  rw [getBits, Nat.testBit_mod_two_pow, Nat.testBit_div_two_pow, Nat.add_comm k lo]
  rfl

/-- Bit k of a word with a field replaced. -/
theorem setBits_getLsbD (x : W64) (lo w v k : Nat) (h : lo + w ≤ 64) :
    (setBits x lo w v).getLsbD k =
      if lo ≤ k ∧ k < lo + w then v.testBit (k - lo) else x.getLsbD k := by
  have hm : (fieldMask lo w).getLsbD k = decide (lo ≤ k ∧ k < lo + w) := by
    simp only [fieldMask, BitVec.getLsbD_ofNat, Nat.testBit_mul_two_pow, Nat.testBit_two_pow_sub_one]
    by_cases h1 : lo ≤ k <;> by_cases h2 : k < lo + w <;> simp [h1, h2] <;> omega
  have hv : (BitVec.ofNat 64 (v % 2 ^ w * 2 ^ lo)).getLsbD k = (decide (lo ≤ k ∧ k < lo + w) && v.testBit (k - lo)) := by
    simp only [BitVec.getLsbD_ofNat, Nat.testBit_mul_two_pow, Nat.testBit_mod_two_pow]
    by_cases h1 : lo ≤ k <;> by_cases h2 : k < lo + w
    · have : k - lo < w := by omega
      have : k < 64 := by omega
      simp [*]
    · have : ¬ k - lo < w := by omega
      simp [h1, h2, this]
    · simp [h1]
    · simp [h1]
  simp only [setBits, BitVec.getLsbD_or, BitVec.getLsbD_and, BitVec.getLsbD_not, hm, hv]
  by_cases hk : lo ≤ k ∧ k < lo + w
  · simp [hk]
  · rw [if_neg hk, decide_eq_false hk]
    by_cases h64 : k < 64
    · simp [h64]
    · simp [BitVec.getLsbD_of_ge x k (by omega)]

/-- A field reads as what was written to it, cut to its width. -/
theorem getBits_setBits_self (x : W64) (lo w v : Nat) (h : lo + w ≤ 64) : getBits (setBits x lo w v) lo w = v % 2 ^ w := by
  apply Nat.eq_of_testBit_eq
  intro k
  rw [getBits_testBit, setBits_getLsbD _ _ _ _ _ h, Nat.testBit_mod_two_pow]
  by_cases hk : k < w
  · simp [hk]
  · simp [hk]

/-- A write to one field leaves a field of other bits as it was. -/
theorem getBits_setBits_other (x : W64) (lo w v lo' w' : Nat) (h : lo + w ≤ 64) (hd : lo' + w' ≤ lo ∨ lo + w ≤ lo') :
    getBits (setBits x lo w v) lo' w' = getBits x lo' w' := by
  apply Nat.eq_of_testBit_eq
  intro k
  rw [getBits_testBit, getBits_testBit, setBits_getLsbD _ _ _ _ _ h]
  by_cases hk : k < w'
  · rw [if_neg (by omega)]
  · simp [hk]

/-! ### Registers -/

theorem reg_setReg (s : State) (o o' : Nat) (v : W64) : reg (setReg s o v) o' = if o' = o then v else reg s o' := by
  simp [reg, setReg, smap_look_put]

theorem reg_setReg_self (s : State) (o : Nat) (v : W64) : reg (setReg s o v) o = v := by simp [reg_setReg]

theorem reg_setReg_other (s : State) {o o' : Nat} (v : W64) (h : o' ≠ o) : reg (setReg s o v) o' = reg s o' := by
  simp [reg_setReg, h]

theorem reg_wr_other (s : State) (f : Fld) (i j v : Nat) {o : Nat} (h : o ≠ f.at i j) : reg (wr s f i j v) o = reg s o :=
  reg_setReg_other s _ h

theorem rd_setReg_other (s : State) (g : Fld) (i j : Nat) {o : Nat} (v : W64) (h : g.at i j ≠ o) :
    rd (setReg s o v) g i j = rd s g i j := by
  simp [rd, reg_setReg, h]

/-- A field reads as what was written to it (R9). -/
theorem rd_wr_self (s : State) (f : Fld) (i j v : Nat) (h : f.lo + f.width ≤ 64) : rd (wr s f i j v) f i j = v % 2 ^ f.width := by
  simp [rd, wr, reg_setReg, getBits_setBits_self _ _ _ _ h]

/-- A write to one register leaves the fields of every other as they were. -/
theorem rd_wr_ne (s : State) (f g : Fld) (i j i' j' v : Nat) (h : g.at i' j' ≠ f.at i j) :
    rd (wr s f i j v) g i' j' = rd s g i' j' := rd_setReg_other s g i' j' _ h

/-- A write to one field leaves the fields of other bits of its register as they were. -/
theorem rd_wr_disjoint (s : State) (f g : Fld) (i j i' j' v : Nat) (h : f.lo + f.width ≤ 64)
    (hd : g.lo + g.width ≤ f.lo ∨ f.lo + f.width ≤ g.lo) : rd (wr s f i j v) g i' j' = rd s g i' j' := by
  by_cases ha : g.at i' j' = f.at i j
  · simp [rd, wr, reg_setReg, ha, getBits_setBits_other _ _ _ _ _ _ h hd]
  · exact rd_wr_ne s f g i j i' j' v ha

theorem rdB_eq (s : State) (f : Fld) (i j : Nat) : rdB s f i j = decide (rd s f i j = 1) := rfl

theorem rd_addSat_self (s : State) (f : Fld) (i j n : Nat) (h : f.lo + f.width ≤ 64) :
    rd (addSat s f i j n) f i j = min (rd s f i j + n) (2 ^ f.width - 1) := by
  rw [addSat, rd_wr_self _ _ _ _ _ h, Nat.mod_eq_of_lt]
  have : 0 < 2 ^ f.width := Nat.two_pow_pos _
  omega

theorem rd_lt (s : State) (f : Fld) (i j : Nat) : rd s f i j < 2 ^ f.width := Nat.mod_lt _ (Nat.two_pow_pos _)

theorem shadowWord_setShadow (s : State) (o o' : Nat) (v : W64) :
    shadowWord (setShadow s o v) o' = if o' = o then v else shadowWord s o' := by
  simp [shadowWord, setShadow, smap_look_put]

/-! ### Units -/

theorem coreAt_setCore (s : State) (c c' : Nat) (v : Core) : coreAt (setCore s c v) c' = if c' = c then v else coreAt s c' := by
  simp [coreAt, setCore, smap_look_put]

theorem coreAt_onCore (s : State) (c c' : Nat) (f : Core → Core) :
    coreAt (onCore s c f) c' = if c' = c then f (coreAt s c) else coreAt s c' := coreAt_setCore s c c' _

theorem hk_inj {c c' h h' : Nat} (hh : h < 8) (hh' : h' < 8) (e : hk c h = hk c' h') : c = c' ∧ h = h' := by
  simp only [hk] at e; omega

theorem harpAt_setHarp (s : State) (c h c' h' : Nat) (v : Harp) :
    harpAt (setHarp s c h v) c' h' = if hk c' h' = hk c h then v else harpAt s c' h' := by
  simp [harpAt, setHarp, smap_look_put]

theorem harpAt_onHarp (s : State) (c h c' h' : Nat) (f : Harp → Harp) :
    harpAt (onHarp s c h f) c' h' = if hk c' h' = hk c h then f (harpAt s c h) else harpAt s c' h' := harpAt_setHarp s c h c' h' _

theorem ringAt_setRing (s : State) (w w' : Nat) (v : Ring) : ringAt (setRing s w v) w' = if w' = w then v else ringAt s w' := by
  simp [ringAt, setRing, smap_look_put]

theorem ringAt_onRing (s : State) (w w' : Nat) (f : Ring → Ring) :
    ringAt (onRing s w f) w' = if w' = w then f (ringAt s w) else ringAt s w' := ringAt_setRing s w w' _

theorem cqAt_setCq (s : State) (q q' : Nat) (v : Cq) : cqAt (setCq s q v) q' = if q' = q then v else cqAt s q' := by
  simp [cqAt, setCq, smap_look_put]

end Sys2Proof.Laws
end

