-- ==== Sys2Proof/Laws/State.lean ====
section
/-!
SUPPORT. Sys2Proof/Laws/State.lean: for each update of the state and each field, what the field is after the update; and for
each reader of registers and units and each update that leaves it alone, that it does.
-/
namespace Sys2Proof.Laws
open Sys2Proof.Machine

/-! ### setReg -/

@[simp] theorem setReg_pending (s : State) (o : Nat) (v : W64) : (setReg s o v).pending = s.pending := rfl
@[simp] theorem setReg_mem (s : State) (o : Nat) (v : W64) : (setReg s o v).mem = s.mem := rfl
@[simp] theorem setReg_spd (s : State) (o : Nat) (v : W64) : (setReg s o v).spd = s.spd := rfl
@[simp] theorem setReg_shadow (s : State) (o : Nat) (v : W64) : (setReg s o v).shadow = s.shadow := rfl
@[simp] theorem setReg_free (s : State) (o : Nat) (v : W64) : (setReg s o v).free = s.free := rfl
@[simp] theorem setReg_utime (s : State) (o : Nat) (v : W64) : (setReg s o v).utime = s.utime := rfl
@[simp] theorem setReg_out (s : State) (o : Nat) (v : W64) : (setReg s o v).out = s.out := rfl
@[simp] theorem setReg_cores (s : State) (o : Nat) (v : W64) : (setReg s o v).cores = s.cores := rfl
@[simp] theorem setReg_harps (s : State) (o : Nat) (v : W64) : (setReg s o v).harps = s.harps := rfl
@[simp] theorem setReg_ord (s : State) (o : Nat) (v : W64) : (setReg s o v).ord = s.ord := rfl
@[simp] theorem setReg_ms (s : State) (o : Nat) (v : W64) : (setReg s o v).ms = s.ms := rfl
@[simp] theorem setReg_sch (s : State) (o : Nat) (v : W64) : (setReg s o v).sch = s.sch := rfl
@[simp] theorem setReg_ras (s : State) (o : Nat) (v : W64) : (setReg s o v).ras = s.ras := rfl
@[simp] theorem setReg_obs (s : State) (o : Nat) (v : W64) : (setReg s o v).obs = s.obs := rfl
@[simp] theorem setReg_hst (s : State) (o : Nat) (v : W64) : (setReg s o v).hst = s.hst := rfl
@[simp] theorem setReg_lnk (s : State) (o : Nat) (v : W64) : (setReg s o v).lnk = s.lnk := rfl
@[simp] theorem setReg_kv (s : State) (o : Nat) (v : W64) : (setReg s o v).kv = s.kv := rfl
@[simp] theorem setReg_time (s : State) (o : Nat) (v : W64) : (setReg s o v).time = s.time := rfl
@[simp] theorem setReg_tru (s : State) (o : Nat) (v : W64) : (setReg s o v).tru = s.tru := rfl
@[simp] theorem setReg_flash (s : State) (o : Nat) (v : W64) : (setReg s o v).flash = s.flash := rfl
@[simp] theorem setReg_boot (s : State) (o : Nat) (v : W64) : (setReg s o v).boot = s.boot := rfl
@[simp] theorem setReg_mgm (s : State) (o : Nat) (v : W64) : (setReg s o v).mgm = s.mgm := rfl
@[simp] theorem setReg_pwr (s : State) (o : Nat) (v : W64) : (setReg s o v).pwr = s.pwr := rfl
@[simp] theorem setReg_phy (s : State) (o : Nat) (v : W64) : (setReg s o v).phy = s.phy := rfl
theorem setReg_regs (s : State) (o : Nat) (v : W64) : (setReg s o v).regs = SMap.put regDefault s.regs o v := rfl
@[simp] theorem shadowWord_setReg (s : State) (o : Nat) (v : W64) (o' : Nat) : shadowWord (setReg s o v) o' = shadowWord s o' := rfl
@[simp] theorem coreAt_setReg (s : State) (o : Nat) (v : W64) (c' : Nat) : coreAt (setReg s o v) c' = coreAt s c' := rfl
@[simp] theorem harpAt_setReg (s : State) (o : Nat) (v : W64) (c' h' : Nat) : harpAt (setReg s o v) c' h' = harpAt s c' h' := rfl
@[simp] theorem ringAt_setReg (s : State) (o : Nat) (v : W64) (w' : Nat) : ringAt (setReg s o v) w' = ringAt s w' := rfl
@[simp] theorem cqAt_setReg (s : State) (o : Nat) (v : W64) (q' : Nat) : cqAt (setReg s o v) q' = cqAt s q' := rfl

/-! ### wr -/

@[simp] theorem wr_pending (s : State) (f : Fld) (i j v : Nat) : (wr s f i j v).pending = s.pending := rfl
@[simp] theorem wr_mem (s : State) (f : Fld) (i j v : Nat) : (wr s f i j v).mem = s.mem := rfl
@[simp] theorem wr_spd (s : State) (f : Fld) (i j v : Nat) : (wr s f i j v).spd = s.spd := rfl
@[simp] theorem wr_shadow (s : State) (f : Fld) (i j v : Nat) : (wr s f i j v).shadow = s.shadow := rfl
@[simp] theorem wr_free (s : State) (f : Fld) (i j v : Nat) : (wr s f i j v).free = s.free := rfl
@[simp] theorem wr_utime (s : State) (f : Fld) (i j v : Nat) : (wr s f i j v).utime = s.utime := rfl
@[simp] theorem wr_out (s : State) (f : Fld) (i j v : Nat) : (wr s f i j v).out = s.out := rfl
@[simp] theorem wr_cores (s : State) (f : Fld) (i j v : Nat) : (wr s f i j v).cores = s.cores := rfl
@[simp] theorem wr_harps (s : State) (f : Fld) (i j v : Nat) : (wr s f i j v).harps = s.harps := rfl
@[simp] theorem wr_ord (s : State) (f : Fld) (i j v : Nat) : (wr s f i j v).ord = s.ord := rfl
@[simp] theorem wr_ms (s : State) (f : Fld) (i j v : Nat) : (wr s f i j v).ms = s.ms := rfl
@[simp] theorem wr_sch (s : State) (f : Fld) (i j v : Nat) : (wr s f i j v).sch = s.sch := rfl
@[simp] theorem wr_ras (s : State) (f : Fld) (i j v : Nat) : (wr s f i j v).ras = s.ras := rfl
@[simp] theorem wr_obs (s : State) (f : Fld) (i j v : Nat) : (wr s f i j v).obs = s.obs := rfl
@[simp] theorem wr_hst (s : State) (f : Fld) (i j v : Nat) : (wr s f i j v).hst = s.hst := rfl
@[simp] theorem wr_lnk (s : State) (f : Fld) (i j v : Nat) : (wr s f i j v).lnk = s.lnk := rfl
@[simp] theorem wr_kv (s : State) (f : Fld) (i j v : Nat) : (wr s f i j v).kv = s.kv := rfl
@[simp] theorem wr_time (s : State) (f : Fld) (i j v : Nat) : (wr s f i j v).time = s.time := rfl
@[simp] theorem wr_tru (s : State) (f : Fld) (i j v : Nat) : (wr s f i j v).tru = s.tru := rfl
@[simp] theorem wr_flash (s : State) (f : Fld) (i j v : Nat) : (wr s f i j v).flash = s.flash := rfl
@[simp] theorem wr_boot (s : State) (f : Fld) (i j v : Nat) : (wr s f i j v).boot = s.boot := rfl
@[simp] theorem wr_mgm (s : State) (f : Fld) (i j v : Nat) : (wr s f i j v).mgm = s.mgm := rfl
@[simp] theorem wr_pwr (s : State) (f : Fld) (i j v : Nat) : (wr s f i j v).pwr = s.pwr := rfl
@[simp] theorem wr_phy (s : State) (f : Fld) (i j v : Nat) : (wr s f i j v).phy = s.phy := rfl
@[simp] theorem shadowWord_wr (s : State) (f : Fld) (i j v : Nat) (o' : Nat) : shadowWord (wr s f i j v) o' = shadowWord s o' := rfl
@[simp] theorem coreAt_wr (s : State) (f : Fld) (i j v : Nat) (c' : Nat) : coreAt (wr s f i j v) c' = coreAt s c' := rfl
@[simp] theorem harpAt_wr (s : State) (f : Fld) (i j v : Nat) (c' h' : Nat) : harpAt (wr s f i j v) c' h' = harpAt s c' h' := rfl
@[simp] theorem ringAt_wr (s : State) (f : Fld) (i j v : Nat) (w' : Nat) : ringAt (wr s f i j v) w' = ringAt s w' := rfl
@[simp] theorem cqAt_wr (s : State) (f : Fld) (i j v : Nat) (q' : Nat) : cqAt (wr s f i j v) q' = cqAt s q' := rfl

/-! ### wrB -/

@[simp] theorem wrB_pending (s : State) (f : Fld) (i j : Nat) (b : Bool) : (wrB s f i j b).pending = s.pending := rfl
@[simp] theorem wrB_mem (s : State) (f : Fld) (i j : Nat) (b : Bool) : (wrB s f i j b).mem = s.mem := rfl
@[simp] theorem wrB_spd (s : State) (f : Fld) (i j : Nat) (b : Bool) : (wrB s f i j b).spd = s.spd := rfl
@[simp] theorem wrB_shadow (s : State) (f : Fld) (i j : Nat) (b : Bool) : (wrB s f i j b).shadow = s.shadow := rfl
@[simp] theorem wrB_free (s : State) (f : Fld) (i j : Nat) (b : Bool) : (wrB s f i j b).free = s.free := rfl
@[simp] theorem wrB_utime (s : State) (f : Fld) (i j : Nat) (b : Bool) : (wrB s f i j b).utime = s.utime := rfl
@[simp] theorem wrB_out (s : State) (f : Fld) (i j : Nat) (b : Bool) : (wrB s f i j b).out = s.out := rfl
@[simp] theorem wrB_cores (s : State) (f : Fld) (i j : Nat) (b : Bool) : (wrB s f i j b).cores = s.cores := rfl
@[simp] theorem wrB_harps (s : State) (f : Fld) (i j : Nat) (b : Bool) : (wrB s f i j b).harps = s.harps := rfl
@[simp] theorem wrB_ord (s : State) (f : Fld) (i j : Nat) (b : Bool) : (wrB s f i j b).ord = s.ord := rfl
@[simp] theorem wrB_ms (s : State) (f : Fld) (i j : Nat) (b : Bool) : (wrB s f i j b).ms = s.ms := rfl
@[simp] theorem wrB_sch (s : State) (f : Fld) (i j : Nat) (b : Bool) : (wrB s f i j b).sch = s.sch := rfl
@[simp] theorem wrB_ras (s : State) (f : Fld) (i j : Nat) (b : Bool) : (wrB s f i j b).ras = s.ras := rfl
@[simp] theorem wrB_obs (s : State) (f : Fld) (i j : Nat) (b : Bool) : (wrB s f i j b).obs = s.obs := rfl
@[simp] theorem wrB_hst (s : State) (f : Fld) (i j : Nat) (b : Bool) : (wrB s f i j b).hst = s.hst := rfl
@[simp] theorem wrB_lnk (s : State) (f : Fld) (i j : Nat) (b : Bool) : (wrB s f i j b).lnk = s.lnk := rfl
@[simp] theorem wrB_kv (s : State) (f : Fld) (i j : Nat) (b : Bool) : (wrB s f i j b).kv = s.kv := rfl
@[simp] theorem wrB_time (s : State) (f : Fld) (i j : Nat) (b : Bool) : (wrB s f i j b).time = s.time := rfl
@[simp] theorem wrB_tru (s : State) (f : Fld) (i j : Nat) (b : Bool) : (wrB s f i j b).tru = s.tru := rfl
@[simp] theorem wrB_flash (s : State) (f : Fld) (i j : Nat) (b : Bool) : (wrB s f i j b).flash = s.flash := rfl
@[simp] theorem wrB_boot (s : State) (f : Fld) (i j : Nat) (b : Bool) : (wrB s f i j b).boot = s.boot := rfl
@[simp] theorem wrB_mgm (s : State) (f : Fld) (i j : Nat) (b : Bool) : (wrB s f i j b).mgm = s.mgm := rfl
@[simp] theorem wrB_pwr (s : State) (f : Fld) (i j : Nat) (b : Bool) : (wrB s f i j b).pwr = s.pwr := rfl
@[simp] theorem wrB_phy (s : State) (f : Fld) (i j : Nat) (b : Bool) : (wrB s f i j b).phy = s.phy := rfl
@[simp] theorem shadowWord_wrB (s : State) (f : Fld) (i j : Nat) (b : Bool) (o' : Nat) : shadowWord (wrB s f i j b) o' = shadowWord s o' := rfl
@[simp] theorem coreAt_wrB (s : State) (f : Fld) (i j : Nat) (b : Bool) (c' : Nat) : coreAt (wrB s f i j b) c' = coreAt s c' := rfl
@[simp] theorem harpAt_wrB (s : State) (f : Fld) (i j : Nat) (b : Bool) (c' h' : Nat) : harpAt (wrB s f i j b) c' h' = harpAt s c' h' := rfl
@[simp] theorem ringAt_wrB (s : State) (f : Fld) (i j : Nat) (b : Bool) (w' : Nat) : ringAt (wrB s f i j b) w' = ringAt s w' := rfl
@[simp] theorem cqAt_wrB (s : State) (f : Fld) (i j : Nat) (b : Bool) (q' : Nat) : cqAt (wrB s f i j b) q' = cqAt s q' := rfl

/-! ### addSat -/

@[simp] theorem addSat_pending (s : State) (f : Fld) (i j n : Nat) : (addSat s f i j n).pending = s.pending := rfl
@[simp] theorem addSat_mem (s : State) (f : Fld) (i j n : Nat) : (addSat s f i j n).mem = s.mem := rfl
@[simp] theorem addSat_spd (s : State) (f : Fld) (i j n : Nat) : (addSat s f i j n).spd = s.spd := rfl
@[simp] theorem addSat_shadow (s : State) (f : Fld) (i j n : Nat) : (addSat s f i j n).shadow = s.shadow := rfl
@[simp] theorem addSat_free (s : State) (f : Fld) (i j n : Nat) : (addSat s f i j n).free = s.free := rfl
@[simp] theorem addSat_utime (s : State) (f : Fld) (i j n : Nat) : (addSat s f i j n).utime = s.utime := rfl
@[simp] theorem addSat_out (s : State) (f : Fld) (i j n : Nat) : (addSat s f i j n).out = s.out := rfl
@[simp] theorem addSat_cores (s : State) (f : Fld) (i j n : Nat) : (addSat s f i j n).cores = s.cores := rfl
@[simp] theorem addSat_harps (s : State) (f : Fld) (i j n : Nat) : (addSat s f i j n).harps = s.harps := rfl
@[simp] theorem addSat_ord (s : State) (f : Fld) (i j n : Nat) : (addSat s f i j n).ord = s.ord := rfl
@[simp] theorem addSat_ms (s : State) (f : Fld) (i j n : Nat) : (addSat s f i j n).ms = s.ms := rfl
@[simp] theorem addSat_sch (s : State) (f : Fld) (i j n : Nat) : (addSat s f i j n).sch = s.sch := rfl
@[simp] theorem addSat_ras (s : State) (f : Fld) (i j n : Nat) : (addSat s f i j n).ras = s.ras := rfl
@[simp] theorem addSat_obs (s : State) (f : Fld) (i j n : Nat) : (addSat s f i j n).obs = s.obs := rfl
@[simp] theorem addSat_hst (s : State) (f : Fld) (i j n : Nat) : (addSat s f i j n).hst = s.hst := rfl
@[simp] theorem addSat_lnk (s : State) (f : Fld) (i j n : Nat) : (addSat s f i j n).lnk = s.lnk := rfl
@[simp] theorem addSat_kv (s : State) (f : Fld) (i j n : Nat) : (addSat s f i j n).kv = s.kv := rfl
@[simp] theorem addSat_time (s : State) (f : Fld) (i j n : Nat) : (addSat s f i j n).time = s.time := rfl
@[simp] theorem addSat_tru (s : State) (f : Fld) (i j n : Nat) : (addSat s f i j n).tru = s.tru := rfl
@[simp] theorem addSat_flash (s : State) (f : Fld) (i j n : Nat) : (addSat s f i j n).flash = s.flash := rfl
@[simp] theorem addSat_boot (s : State) (f : Fld) (i j n : Nat) : (addSat s f i j n).boot = s.boot := rfl
@[simp] theorem addSat_mgm (s : State) (f : Fld) (i j n : Nat) : (addSat s f i j n).mgm = s.mgm := rfl
@[simp] theorem addSat_pwr (s : State) (f : Fld) (i j n : Nat) : (addSat s f i j n).pwr = s.pwr := rfl
@[simp] theorem addSat_phy (s : State) (f : Fld) (i j n : Nat) : (addSat s f i j n).phy = s.phy := rfl
@[simp] theorem shadowWord_addSat (s : State) (f : Fld) (i j n : Nat) (o' : Nat) : shadowWord (addSat s f i j n) o' = shadowWord s o' := rfl
@[simp] theorem coreAt_addSat (s : State) (f : Fld) (i j n : Nat) (c' : Nat) : coreAt (addSat s f i j n) c' = coreAt s c' := rfl
@[simp] theorem harpAt_addSat (s : State) (f : Fld) (i j n : Nat) (c' h' : Nat) : harpAt (addSat s f i j n) c' h' = harpAt s c' h' := rfl
@[simp] theorem ringAt_addSat (s : State) (f : Fld) (i j n : Nat) (w' : Nat) : ringAt (addSat s f i j n) w' = ringAt s w' := rfl
@[simp] theorem cqAt_addSat (s : State) (f : Fld) (i j n : Nat) (q' : Nat) : cqAt (addSat s f i j n) q' = cqAt s q' := rfl

/-! ### setPwrDomain -/

@[simp] theorem setPwrDomain_pending (s : State) (d v : Nat) : (setPwrDomain s d v).pending = s.pending := rfl
@[simp] theorem setPwrDomain_mem (s : State) (d v : Nat) : (setPwrDomain s d v).mem = s.mem := rfl
@[simp] theorem setPwrDomain_spd (s : State) (d v : Nat) : (setPwrDomain s d v).spd = s.spd := rfl
@[simp] theorem setPwrDomain_shadow (s : State) (d v : Nat) : (setPwrDomain s d v).shadow = s.shadow := rfl
@[simp] theorem setPwrDomain_free (s : State) (d v : Nat) : (setPwrDomain s d v).free = s.free := rfl
@[simp] theorem setPwrDomain_utime (s : State) (d v : Nat) : (setPwrDomain s d v).utime = s.utime := rfl
@[simp] theorem setPwrDomain_out (s : State) (d v : Nat) : (setPwrDomain s d v).out = s.out := rfl
@[simp] theorem setPwrDomain_cores (s : State) (d v : Nat) : (setPwrDomain s d v).cores = s.cores := rfl
@[simp] theorem setPwrDomain_harps (s : State) (d v : Nat) : (setPwrDomain s d v).harps = s.harps := rfl
@[simp] theorem setPwrDomain_ord (s : State) (d v : Nat) : (setPwrDomain s d v).ord = s.ord := rfl
@[simp] theorem setPwrDomain_ms (s : State) (d v : Nat) : (setPwrDomain s d v).ms = s.ms := rfl
@[simp] theorem setPwrDomain_sch (s : State) (d v : Nat) : (setPwrDomain s d v).sch = s.sch := rfl
@[simp] theorem setPwrDomain_ras (s : State) (d v : Nat) : (setPwrDomain s d v).ras = s.ras := rfl
@[simp] theorem setPwrDomain_obs (s : State) (d v : Nat) : (setPwrDomain s d v).obs = s.obs := rfl
@[simp] theorem setPwrDomain_hst (s : State) (d v : Nat) : (setPwrDomain s d v).hst = s.hst := rfl
@[simp] theorem setPwrDomain_lnk (s : State) (d v : Nat) : (setPwrDomain s d v).lnk = s.lnk := rfl
@[simp] theorem setPwrDomain_kv (s : State) (d v : Nat) : (setPwrDomain s d v).kv = s.kv := rfl
@[simp] theorem setPwrDomain_time (s : State) (d v : Nat) : (setPwrDomain s d v).time = s.time := rfl
@[simp] theorem setPwrDomain_tru (s : State) (d v : Nat) : (setPwrDomain s d v).tru = s.tru := rfl
@[simp] theorem setPwrDomain_flash (s : State) (d v : Nat) : (setPwrDomain s d v).flash = s.flash := rfl
@[simp] theorem setPwrDomain_boot (s : State) (d v : Nat) : (setPwrDomain s d v).boot = s.boot := rfl
@[simp] theorem setPwrDomain_mgm (s : State) (d v : Nat) : (setPwrDomain s d v).mgm = s.mgm := rfl
@[simp] theorem setPwrDomain_pwr (s : State) (d v : Nat) : (setPwrDomain s d v).pwr = s.pwr := rfl
@[simp] theorem setPwrDomain_phy (s : State) (d v : Nat) : (setPwrDomain s d v).phy = s.phy := rfl
@[simp] theorem shadowWord_setPwrDomain (s : State) (d v : Nat) (o' : Nat) : shadowWord (setPwrDomain s d v) o' = shadowWord s o' := rfl
@[simp] theorem coreAt_setPwrDomain (s : State) (d v : Nat) (c' : Nat) : coreAt (setPwrDomain s d v) c' = coreAt s c' := rfl
@[simp] theorem harpAt_setPwrDomain (s : State) (d v : Nat) (c' h' : Nat) : harpAt (setPwrDomain s d v) c' h' = harpAt s c' h' := rfl
@[simp] theorem ringAt_setPwrDomain (s : State) (d v : Nat) (w' : Nat) : ringAt (setPwrDomain s d v) w' = ringAt s w' := rfl
@[simp] theorem cqAt_setPwrDomain (s : State) (d v : Nat) (q' : Nat) : cqAt (setPwrDomain s d v) q' = cqAt s q' := rfl

/-! ### setShadow -/

@[simp] theorem setShadow_pending (s : State) (o : Nat) (v : W64) : (setShadow s o v).pending = s.pending := rfl
@[simp] theorem setShadow_mem (s : State) (o : Nat) (v : W64) : (setShadow s o v).mem = s.mem := rfl
@[simp] theorem setShadow_spd (s : State) (o : Nat) (v : W64) : (setShadow s o v).spd = s.spd := rfl
@[simp] theorem setShadow_regs (s : State) (o : Nat) (v : W64) : (setShadow s o v).regs = s.regs := rfl
@[simp] theorem setShadow_free (s : State) (o : Nat) (v : W64) : (setShadow s o v).free = s.free := rfl
@[simp] theorem setShadow_utime (s : State) (o : Nat) (v : W64) : (setShadow s o v).utime = s.utime := rfl
@[simp] theorem setShadow_out (s : State) (o : Nat) (v : W64) : (setShadow s o v).out = s.out := rfl
@[simp] theorem setShadow_cores (s : State) (o : Nat) (v : W64) : (setShadow s o v).cores = s.cores := rfl
@[simp] theorem setShadow_harps (s : State) (o : Nat) (v : W64) : (setShadow s o v).harps = s.harps := rfl
@[simp] theorem setShadow_ord (s : State) (o : Nat) (v : W64) : (setShadow s o v).ord = s.ord := rfl
@[simp] theorem setShadow_ms (s : State) (o : Nat) (v : W64) : (setShadow s o v).ms = s.ms := rfl
@[simp] theorem setShadow_sch (s : State) (o : Nat) (v : W64) : (setShadow s o v).sch = s.sch := rfl
@[simp] theorem setShadow_ras (s : State) (o : Nat) (v : W64) : (setShadow s o v).ras = s.ras := rfl
@[simp] theorem setShadow_obs (s : State) (o : Nat) (v : W64) : (setShadow s o v).obs = s.obs := rfl
@[simp] theorem setShadow_hst (s : State) (o : Nat) (v : W64) : (setShadow s o v).hst = s.hst := rfl
@[simp] theorem setShadow_lnk (s : State) (o : Nat) (v : W64) : (setShadow s o v).lnk = s.lnk := rfl
@[simp] theorem setShadow_kv (s : State) (o : Nat) (v : W64) : (setShadow s o v).kv = s.kv := rfl
@[simp] theorem setShadow_time (s : State) (o : Nat) (v : W64) : (setShadow s o v).time = s.time := rfl
@[simp] theorem setShadow_tru (s : State) (o : Nat) (v : W64) : (setShadow s o v).tru = s.tru := rfl
@[simp] theorem setShadow_flash (s : State) (o : Nat) (v : W64) : (setShadow s o v).flash = s.flash := rfl
@[simp] theorem setShadow_boot (s : State) (o : Nat) (v : W64) : (setShadow s o v).boot = s.boot := rfl
@[simp] theorem setShadow_mgm (s : State) (o : Nat) (v : W64) : (setShadow s o v).mgm = s.mgm := rfl
@[simp] theorem setShadow_pwr (s : State) (o : Nat) (v : W64) : (setShadow s o v).pwr = s.pwr := rfl
@[simp] theorem setShadow_phy (s : State) (o : Nat) (v : W64) : (setShadow s o v).phy = s.phy := rfl
theorem setShadow_shadow (s : State) (o : Nat) (v : W64) : (setShadow s o v).shadow = SMap.put regDefault s.shadow o v := rfl
@[simp] theorem reg_setShadow (s : State) (o : Nat) (v : W64) (o' : Nat) : reg (setShadow s o v) o' = reg s o' := rfl
@[simp] theorem rd_setShadow (s : State) (o : Nat) (v : W64) (g' : Fld) (i' j' : Nat) : rd (setShadow s o v) g' i' j' = rd s g' i' j' := rfl
@[simp] theorem rdB_setShadow (s : State) (o : Nat) (v : W64) (g' : Fld) (i' j' : Nat) : rdB (setShadow s o v) g' i' j' = rdB s g' i' j' := rfl
@[simp] theorem coreAt_setShadow (s : State) (o : Nat) (v : W64) (c' : Nat) : coreAt (setShadow s o v) c' = coreAt s c' := rfl
@[simp] theorem harpAt_setShadow (s : State) (o : Nat) (v : W64) (c' h' : Nat) : harpAt (setShadow s o v) c' h' = harpAt s c' h' := rfl
@[simp] theorem ringAt_setShadow (s : State) (o : Nat) (v : W64) (w' : Nat) : ringAt (setShadow s o v) w' = ringAt s w' := rfl
@[simp] theorem cqAt_setShadow (s : State) (o : Nat) (v : W64) (q' : Nat) : cqAt (setShadow s o v) q' = cqAt s q' := rfl

/-! ### setCore -/

@[simp] theorem setCore_pending (s : State) (c : Nat) (v : Core) : (setCore s c v).pending = s.pending := rfl
@[simp] theorem setCore_mem (s : State) (c : Nat) (v : Core) : (setCore s c v).mem = s.mem := rfl
@[simp] theorem setCore_spd (s : State) (c : Nat) (v : Core) : (setCore s c v).spd = s.spd := rfl
@[simp] theorem setCore_regs (s : State) (c : Nat) (v : Core) : (setCore s c v).regs = s.regs := rfl
@[simp] theorem setCore_shadow (s : State) (c : Nat) (v : Core) : (setCore s c v).shadow = s.shadow := rfl
@[simp] theorem setCore_free (s : State) (c : Nat) (v : Core) : (setCore s c v).free = s.free := rfl
@[simp] theorem setCore_utime (s : State) (c : Nat) (v : Core) : (setCore s c v).utime = s.utime := rfl
@[simp] theorem setCore_out (s : State) (c : Nat) (v : Core) : (setCore s c v).out = s.out := rfl
@[simp] theorem setCore_harps (s : State) (c : Nat) (v : Core) : (setCore s c v).harps = s.harps := rfl
@[simp] theorem setCore_ord (s : State) (c : Nat) (v : Core) : (setCore s c v).ord = s.ord := rfl
@[simp] theorem setCore_ms (s : State) (c : Nat) (v : Core) : (setCore s c v).ms = s.ms := rfl
@[simp] theorem setCore_sch (s : State) (c : Nat) (v : Core) : (setCore s c v).sch = s.sch := rfl
@[simp] theorem setCore_ras (s : State) (c : Nat) (v : Core) : (setCore s c v).ras = s.ras := rfl
@[simp] theorem setCore_obs (s : State) (c : Nat) (v : Core) : (setCore s c v).obs = s.obs := rfl
@[simp] theorem setCore_hst (s : State) (c : Nat) (v : Core) : (setCore s c v).hst = s.hst := rfl
@[simp] theorem setCore_lnk (s : State) (c : Nat) (v : Core) : (setCore s c v).lnk = s.lnk := rfl
@[simp] theorem setCore_kv (s : State) (c : Nat) (v : Core) : (setCore s c v).kv = s.kv := rfl
@[simp] theorem setCore_time (s : State) (c : Nat) (v : Core) : (setCore s c v).time = s.time := rfl
@[simp] theorem setCore_tru (s : State) (c : Nat) (v : Core) : (setCore s c v).tru = s.tru := rfl
@[simp] theorem setCore_flash (s : State) (c : Nat) (v : Core) : (setCore s c v).flash = s.flash := rfl
@[simp] theorem setCore_boot (s : State) (c : Nat) (v : Core) : (setCore s c v).boot = s.boot := rfl
@[simp] theorem setCore_mgm (s : State) (c : Nat) (v : Core) : (setCore s c v).mgm = s.mgm := rfl
@[simp] theorem setCore_pwr (s : State) (c : Nat) (v : Core) : (setCore s c v).pwr = s.pwr := rfl
@[simp] theorem setCore_phy (s : State) (c : Nat) (v : Core) : (setCore s c v).phy = s.phy := rfl
theorem setCore_cores (s : State) (c : Nat) (v : Core) : (setCore s c v).cores = SMap.put (fun _ => Core.fresh) s.cores c v := rfl
@[simp] theorem reg_setCore (s : State) (c : Nat) (v : Core) (o' : Nat) : reg (setCore s c v) o' = reg s o' := rfl
@[simp] theorem rd_setCore (s : State) (c : Nat) (v : Core) (g' : Fld) (i' j' : Nat) : rd (setCore s c v) g' i' j' = rd s g' i' j' := rfl
@[simp] theorem rdB_setCore (s : State) (c : Nat) (v : Core) (g' : Fld) (i' j' : Nat) : rdB (setCore s c v) g' i' j' = rdB s g' i' j' := rfl
@[simp] theorem shadowWord_setCore (s : State) (c : Nat) (v : Core) (o' : Nat) : shadowWord (setCore s c v) o' = shadowWord s o' := rfl
@[simp] theorem harpAt_setCore (s : State) (c : Nat) (v : Core) (c' h' : Nat) : harpAt (setCore s c v) c' h' = harpAt s c' h' := rfl
@[simp] theorem ringAt_setCore (s : State) (c : Nat) (v : Core) (w' : Nat) : ringAt (setCore s c v) w' = ringAt s w' := rfl
@[simp] theorem cqAt_setCore (s : State) (c : Nat) (v : Core) (q' : Nat) : cqAt (setCore s c v) q' = cqAt s q' := rfl

/-! ### onCore -/

@[simp] theorem onCore_pending (s : State) (c : Nat) (g : Core → Core) : (onCore s c g).pending = s.pending := rfl
@[simp] theorem onCore_mem (s : State) (c : Nat) (g : Core → Core) : (onCore s c g).mem = s.mem := rfl
@[simp] theorem onCore_spd (s : State) (c : Nat) (g : Core → Core) : (onCore s c g).spd = s.spd := rfl
@[simp] theorem onCore_regs (s : State) (c : Nat) (g : Core → Core) : (onCore s c g).regs = s.regs := rfl
@[simp] theorem onCore_shadow (s : State) (c : Nat) (g : Core → Core) : (onCore s c g).shadow = s.shadow := rfl
@[simp] theorem onCore_free (s : State) (c : Nat) (g : Core → Core) : (onCore s c g).free = s.free := rfl
@[simp] theorem onCore_utime (s : State) (c : Nat) (g : Core → Core) : (onCore s c g).utime = s.utime := rfl
@[simp] theorem onCore_out (s : State) (c : Nat) (g : Core → Core) : (onCore s c g).out = s.out := rfl
@[simp] theorem onCore_harps (s : State) (c : Nat) (g : Core → Core) : (onCore s c g).harps = s.harps := rfl
@[simp] theorem onCore_ord (s : State) (c : Nat) (g : Core → Core) : (onCore s c g).ord = s.ord := rfl
@[simp] theorem onCore_ms (s : State) (c : Nat) (g : Core → Core) : (onCore s c g).ms = s.ms := rfl
@[simp] theorem onCore_sch (s : State) (c : Nat) (g : Core → Core) : (onCore s c g).sch = s.sch := rfl
@[simp] theorem onCore_ras (s : State) (c : Nat) (g : Core → Core) : (onCore s c g).ras = s.ras := rfl
@[simp] theorem onCore_obs (s : State) (c : Nat) (g : Core → Core) : (onCore s c g).obs = s.obs := rfl
@[simp] theorem onCore_hst (s : State) (c : Nat) (g : Core → Core) : (onCore s c g).hst = s.hst := rfl
@[simp] theorem onCore_lnk (s : State) (c : Nat) (g : Core → Core) : (onCore s c g).lnk = s.lnk := rfl
@[simp] theorem onCore_kv (s : State) (c : Nat) (g : Core → Core) : (onCore s c g).kv = s.kv := rfl
@[simp] theorem onCore_time (s : State) (c : Nat) (g : Core → Core) : (onCore s c g).time = s.time := rfl
@[simp] theorem onCore_tru (s : State) (c : Nat) (g : Core → Core) : (onCore s c g).tru = s.tru := rfl
@[simp] theorem onCore_flash (s : State) (c : Nat) (g : Core → Core) : (onCore s c g).flash = s.flash := rfl
@[simp] theorem onCore_boot (s : State) (c : Nat) (g : Core → Core) : (onCore s c g).boot = s.boot := rfl
@[simp] theorem onCore_mgm (s : State) (c : Nat) (g : Core → Core) : (onCore s c g).mgm = s.mgm := rfl
@[simp] theorem onCore_pwr (s : State) (c : Nat) (g : Core → Core) : (onCore s c g).pwr = s.pwr := rfl
@[simp] theorem onCore_phy (s : State) (c : Nat) (g : Core → Core) : (onCore s c g).phy = s.phy := rfl
@[simp] theorem reg_onCore (s : State) (c : Nat) (g : Core → Core) (o' : Nat) : reg (onCore s c g) o' = reg s o' := rfl
@[simp] theorem rd_onCore (s : State) (c : Nat) (g : Core → Core) (g' : Fld) (i' j' : Nat) : rd (onCore s c g) g' i' j' = rd s g' i' j' := rfl
@[simp] theorem rdB_onCore (s : State) (c : Nat) (g : Core → Core) (g' : Fld) (i' j' : Nat) : rdB (onCore s c g) g' i' j' = rdB s g' i' j' := rfl
@[simp] theorem shadowWord_onCore (s : State) (c : Nat) (g : Core → Core) (o' : Nat) : shadowWord (onCore s c g) o' = shadowWord s o' := rfl
@[simp] theorem harpAt_onCore (s : State) (c : Nat) (g : Core → Core) (c' h' : Nat) : harpAt (onCore s c g) c' h' = harpAt s c' h' := rfl
@[simp] theorem ringAt_onCore (s : State) (c : Nat) (g : Core → Core) (w' : Nat) : ringAt (onCore s c g) w' = ringAt s w' := rfl
@[simp] theorem cqAt_onCore (s : State) (c : Nat) (g : Core → Core) (q' : Nat) : cqAt (onCore s c g) q' = cqAt s q' := rfl

/-! ### setHarp -/

@[simp] theorem setHarp_pending (s : State) (c h : Nat) (v : Harp) : (setHarp s c h v).pending = s.pending := rfl
@[simp] theorem setHarp_mem (s : State) (c h : Nat) (v : Harp) : (setHarp s c h v).mem = s.mem := rfl
@[simp] theorem setHarp_spd (s : State) (c h : Nat) (v : Harp) : (setHarp s c h v).spd = s.spd := rfl
@[simp] theorem setHarp_regs (s : State) (c h : Nat) (v : Harp) : (setHarp s c h v).regs = s.regs := rfl
@[simp] theorem setHarp_shadow (s : State) (c h : Nat) (v : Harp) : (setHarp s c h v).shadow = s.shadow := rfl
@[simp] theorem setHarp_free (s : State) (c h : Nat) (v : Harp) : (setHarp s c h v).free = s.free := rfl
@[simp] theorem setHarp_utime (s : State) (c h : Nat) (v : Harp) : (setHarp s c h v).utime = s.utime := rfl
@[simp] theorem setHarp_out (s : State) (c h : Nat) (v : Harp) : (setHarp s c h v).out = s.out := rfl
@[simp] theorem setHarp_cores (s : State) (c h : Nat) (v : Harp) : (setHarp s c h v).cores = s.cores := rfl
@[simp] theorem setHarp_ord (s : State) (c h : Nat) (v : Harp) : (setHarp s c h v).ord = s.ord := rfl
@[simp] theorem setHarp_ms (s : State) (c h : Nat) (v : Harp) : (setHarp s c h v).ms = s.ms := rfl
@[simp] theorem setHarp_sch (s : State) (c h : Nat) (v : Harp) : (setHarp s c h v).sch = s.sch := rfl
@[simp] theorem setHarp_ras (s : State) (c h : Nat) (v : Harp) : (setHarp s c h v).ras = s.ras := rfl
@[simp] theorem setHarp_obs (s : State) (c h : Nat) (v : Harp) : (setHarp s c h v).obs = s.obs := rfl
@[simp] theorem setHarp_hst (s : State) (c h : Nat) (v : Harp) : (setHarp s c h v).hst = s.hst := rfl
@[simp] theorem setHarp_lnk (s : State) (c h : Nat) (v : Harp) : (setHarp s c h v).lnk = s.lnk := rfl
@[simp] theorem setHarp_kv (s : State) (c h : Nat) (v : Harp) : (setHarp s c h v).kv = s.kv := rfl
@[simp] theorem setHarp_time (s : State) (c h : Nat) (v : Harp) : (setHarp s c h v).time = s.time := rfl
@[simp] theorem setHarp_tru (s : State) (c h : Nat) (v : Harp) : (setHarp s c h v).tru = s.tru := rfl
@[simp] theorem setHarp_flash (s : State) (c h : Nat) (v : Harp) : (setHarp s c h v).flash = s.flash := rfl
@[simp] theorem setHarp_boot (s : State) (c h : Nat) (v : Harp) : (setHarp s c h v).boot = s.boot := rfl
@[simp] theorem setHarp_mgm (s : State) (c h : Nat) (v : Harp) : (setHarp s c h v).mgm = s.mgm := rfl
@[simp] theorem setHarp_pwr (s : State) (c h : Nat) (v : Harp) : (setHarp s c h v).pwr = s.pwr := rfl
@[simp] theorem setHarp_phy (s : State) (c h : Nat) (v : Harp) : (setHarp s c h v).phy = s.phy := rfl
theorem setHarp_harps (s : State) (c h : Nat) (v : Harp) : (setHarp s c h v).harps = SMap.put (fun _ => Harp.fresh) s.harps (hk c h) v := rfl
@[simp] theorem reg_setHarp (s : State) (c h : Nat) (v : Harp) (o' : Nat) : reg (setHarp s c h v) o' = reg s o' := rfl
@[simp] theorem rd_setHarp (s : State) (c h : Nat) (v : Harp) (g' : Fld) (i' j' : Nat) : rd (setHarp s c h v) g' i' j' = rd s g' i' j' := rfl
@[simp] theorem rdB_setHarp (s : State) (c h : Nat) (v : Harp) (g' : Fld) (i' j' : Nat) : rdB (setHarp s c h v) g' i' j' = rdB s g' i' j' := rfl
@[simp] theorem shadowWord_setHarp (s : State) (c h : Nat) (v : Harp) (o' : Nat) : shadowWord (setHarp s c h v) o' = shadowWord s o' := rfl
@[simp] theorem coreAt_setHarp (s : State) (c h : Nat) (v : Harp) (c' : Nat) : coreAt (setHarp s c h v) c' = coreAt s c' := rfl
@[simp] theorem ringAt_setHarp (s : State) (c h : Nat) (v : Harp) (w' : Nat) : ringAt (setHarp s c h v) w' = ringAt s w' := rfl
@[simp] theorem cqAt_setHarp (s : State) (c h : Nat) (v : Harp) (q' : Nat) : cqAt (setHarp s c h v) q' = cqAt s q' := rfl

/-! ### onHarp -/

@[simp] theorem onHarp_pending (s : State) (c h : Nat) (g : Harp → Harp) : (onHarp s c h g).pending = s.pending := rfl
@[simp] theorem onHarp_mem (s : State) (c h : Nat) (g : Harp → Harp) : (onHarp s c h g).mem = s.mem := rfl
@[simp] theorem onHarp_spd (s : State) (c h : Nat) (g : Harp → Harp) : (onHarp s c h g).spd = s.spd := rfl
@[simp] theorem onHarp_regs (s : State) (c h : Nat) (g : Harp → Harp) : (onHarp s c h g).regs = s.regs := rfl
@[simp] theorem onHarp_shadow (s : State) (c h : Nat) (g : Harp → Harp) : (onHarp s c h g).shadow = s.shadow := rfl
@[simp] theorem onHarp_free (s : State) (c h : Nat) (g : Harp → Harp) : (onHarp s c h g).free = s.free := rfl
@[simp] theorem onHarp_utime (s : State) (c h : Nat) (g : Harp → Harp) : (onHarp s c h g).utime = s.utime := rfl
@[simp] theorem onHarp_out (s : State) (c h : Nat) (g : Harp → Harp) : (onHarp s c h g).out = s.out := rfl
@[simp] theorem onHarp_cores (s : State) (c h : Nat) (g : Harp → Harp) : (onHarp s c h g).cores = s.cores := rfl
@[simp] theorem onHarp_ord (s : State) (c h : Nat) (g : Harp → Harp) : (onHarp s c h g).ord = s.ord := rfl
@[simp] theorem onHarp_ms (s : State) (c h : Nat) (g : Harp → Harp) : (onHarp s c h g).ms = s.ms := rfl
@[simp] theorem onHarp_sch (s : State) (c h : Nat) (g : Harp → Harp) : (onHarp s c h g).sch = s.sch := rfl
@[simp] theorem onHarp_ras (s : State) (c h : Nat) (g : Harp → Harp) : (onHarp s c h g).ras = s.ras := rfl
@[simp] theorem onHarp_obs (s : State) (c h : Nat) (g : Harp → Harp) : (onHarp s c h g).obs = s.obs := rfl
@[simp] theorem onHarp_hst (s : State) (c h : Nat) (g : Harp → Harp) : (onHarp s c h g).hst = s.hst := rfl
@[simp] theorem onHarp_lnk (s : State) (c h : Nat) (g : Harp → Harp) : (onHarp s c h g).lnk = s.lnk := rfl
@[simp] theorem onHarp_kv (s : State) (c h : Nat) (g : Harp → Harp) : (onHarp s c h g).kv = s.kv := rfl
@[simp] theorem onHarp_time (s : State) (c h : Nat) (g : Harp → Harp) : (onHarp s c h g).time = s.time := rfl
@[simp] theorem onHarp_tru (s : State) (c h : Nat) (g : Harp → Harp) : (onHarp s c h g).tru = s.tru := rfl
@[simp] theorem onHarp_flash (s : State) (c h : Nat) (g : Harp → Harp) : (onHarp s c h g).flash = s.flash := rfl
@[simp] theorem onHarp_boot (s : State) (c h : Nat) (g : Harp → Harp) : (onHarp s c h g).boot = s.boot := rfl
@[simp] theorem onHarp_mgm (s : State) (c h : Nat) (g : Harp → Harp) : (onHarp s c h g).mgm = s.mgm := rfl
@[simp] theorem onHarp_pwr (s : State) (c h : Nat) (g : Harp → Harp) : (onHarp s c h g).pwr = s.pwr := rfl
@[simp] theorem onHarp_phy (s : State) (c h : Nat) (g : Harp → Harp) : (onHarp s c h g).phy = s.phy := rfl
@[simp] theorem reg_onHarp (s : State) (c h : Nat) (g : Harp → Harp) (o' : Nat) : reg (onHarp s c h g) o' = reg s o' := rfl
@[simp] theorem rd_onHarp (s : State) (c h : Nat) (g : Harp → Harp) (g' : Fld) (i' j' : Nat) : rd (onHarp s c h g) g' i' j' = rd s g' i' j' := rfl
@[simp] theorem rdB_onHarp (s : State) (c h : Nat) (g : Harp → Harp) (g' : Fld) (i' j' : Nat) : rdB (onHarp s c h g) g' i' j' = rdB s g' i' j' := rfl
@[simp] theorem shadowWord_onHarp (s : State) (c h : Nat) (g : Harp → Harp) (o' : Nat) : shadowWord (onHarp s c h g) o' = shadowWord s o' := rfl
@[simp] theorem coreAt_onHarp (s : State) (c h : Nat) (g : Harp → Harp) (c' : Nat) : coreAt (onHarp s c h g) c' = coreAt s c' := rfl
@[simp] theorem ringAt_onHarp (s : State) (c h : Nat) (g : Harp → Harp) (w' : Nat) : ringAt (onHarp s c h g) w' = ringAt s w' := rfl
@[simp] theorem cqAt_onHarp (s : State) (c h : Nat) (g : Harp → Harp) (q' : Nat) : cqAt (onHarp s c h g) q' = cqAt s q' := rfl

/-! ### setRing -/

@[simp] theorem setRing_pending (s : State) (w : Nat) (v : Ring) : (setRing s w v).pending = s.pending := rfl
@[simp] theorem setRing_mem (s : State) (w : Nat) (v : Ring) : (setRing s w v).mem = s.mem := rfl
@[simp] theorem setRing_spd (s : State) (w : Nat) (v : Ring) : (setRing s w v).spd = s.spd := rfl
@[simp] theorem setRing_regs (s : State) (w : Nat) (v : Ring) : (setRing s w v).regs = s.regs := rfl
@[simp] theorem setRing_shadow (s : State) (w : Nat) (v : Ring) : (setRing s w v).shadow = s.shadow := rfl
@[simp] theorem setRing_free (s : State) (w : Nat) (v : Ring) : (setRing s w v).free = s.free := rfl
@[simp] theorem setRing_utime (s : State) (w : Nat) (v : Ring) : (setRing s w v).utime = s.utime := rfl
@[simp] theorem setRing_out (s : State) (w : Nat) (v : Ring) : (setRing s w v).out = s.out := rfl
@[simp] theorem setRing_cores (s : State) (w : Nat) (v : Ring) : (setRing s w v).cores = s.cores := rfl
@[simp] theorem setRing_harps (s : State) (w : Nat) (v : Ring) : (setRing s w v).harps = s.harps := rfl
@[simp] theorem setRing_ord (s : State) (w : Nat) (v : Ring) : (setRing s w v).ord = s.ord := rfl
@[simp] theorem setRing_ms (s : State) (w : Nat) (v : Ring) : (setRing s w v).ms = s.ms := rfl
@[simp] theorem setRing_ras (s : State) (w : Nat) (v : Ring) : (setRing s w v).ras = s.ras := rfl
@[simp] theorem setRing_obs (s : State) (w : Nat) (v : Ring) : (setRing s w v).obs = s.obs := rfl
@[simp] theorem setRing_hst (s : State) (w : Nat) (v : Ring) : (setRing s w v).hst = s.hst := rfl
@[simp] theorem setRing_lnk (s : State) (w : Nat) (v : Ring) : (setRing s w v).lnk = s.lnk := rfl
@[simp] theorem setRing_kv (s : State) (w : Nat) (v : Ring) : (setRing s w v).kv = s.kv := rfl
@[simp] theorem setRing_time (s : State) (w : Nat) (v : Ring) : (setRing s w v).time = s.time := rfl
@[simp] theorem setRing_tru (s : State) (w : Nat) (v : Ring) : (setRing s w v).tru = s.tru := rfl
@[simp] theorem setRing_flash (s : State) (w : Nat) (v : Ring) : (setRing s w v).flash = s.flash := rfl
@[simp] theorem setRing_boot (s : State) (w : Nat) (v : Ring) : (setRing s w v).boot = s.boot := rfl
@[simp] theorem setRing_mgm (s : State) (w : Nat) (v : Ring) : (setRing s w v).mgm = s.mgm := rfl
@[simp] theorem setRing_pwr (s : State) (w : Nat) (v : Ring) : (setRing s w v).pwr = s.pwr := rfl
@[simp] theorem setRing_phy (s : State) (w : Nat) (v : Ring) : (setRing s w v).phy = s.phy := rfl
theorem setRing_sch (s : State) (w : Nat) (v : Ring) : (setRing s w v).sch = { s.sch with rings := SMap.put (fun _ => Ring.fresh) s.sch.rings w v } := rfl
@[simp] theorem reg_setRing (s : State) (w : Nat) (v : Ring) (o' : Nat) : reg (setRing s w v) o' = reg s o' := rfl
@[simp] theorem rd_setRing (s : State) (w : Nat) (v : Ring) (g' : Fld) (i' j' : Nat) : rd (setRing s w v) g' i' j' = rd s g' i' j' := rfl
@[simp] theorem rdB_setRing (s : State) (w : Nat) (v : Ring) (g' : Fld) (i' j' : Nat) : rdB (setRing s w v) g' i' j' = rdB s g' i' j' := rfl
@[simp] theorem shadowWord_setRing (s : State) (w : Nat) (v : Ring) (o' : Nat) : shadowWord (setRing s w v) o' = shadowWord s o' := rfl
@[simp] theorem coreAt_setRing (s : State) (w : Nat) (v : Ring) (c' : Nat) : coreAt (setRing s w v) c' = coreAt s c' := rfl
@[simp] theorem harpAt_setRing (s : State) (w : Nat) (v : Ring) (c' h' : Nat) : harpAt (setRing s w v) c' h' = harpAt s c' h' := rfl

/-! ### onRing -/

@[simp] theorem onRing_pending (s : State) (w : Nat) (g : Ring → Ring) : (onRing s w g).pending = s.pending := rfl
@[simp] theorem onRing_mem (s : State) (w : Nat) (g : Ring → Ring) : (onRing s w g).mem = s.mem := rfl
@[simp] theorem onRing_spd (s : State) (w : Nat) (g : Ring → Ring) : (onRing s w g).spd = s.spd := rfl
@[simp] theorem onRing_regs (s : State) (w : Nat) (g : Ring → Ring) : (onRing s w g).regs = s.regs := rfl
@[simp] theorem onRing_shadow (s : State) (w : Nat) (g : Ring → Ring) : (onRing s w g).shadow = s.shadow := rfl
@[simp] theorem onRing_free (s : State) (w : Nat) (g : Ring → Ring) : (onRing s w g).free = s.free := rfl
@[simp] theorem onRing_utime (s : State) (w : Nat) (g : Ring → Ring) : (onRing s w g).utime = s.utime := rfl
@[simp] theorem onRing_out (s : State) (w : Nat) (g : Ring → Ring) : (onRing s w g).out = s.out := rfl
@[simp] theorem onRing_cores (s : State) (w : Nat) (g : Ring → Ring) : (onRing s w g).cores = s.cores := rfl
@[simp] theorem onRing_harps (s : State) (w : Nat) (g : Ring → Ring) : (onRing s w g).harps = s.harps := rfl
@[simp] theorem onRing_ord (s : State) (w : Nat) (g : Ring → Ring) : (onRing s w g).ord = s.ord := rfl
@[simp] theorem onRing_ms (s : State) (w : Nat) (g : Ring → Ring) : (onRing s w g).ms = s.ms := rfl
@[simp] theorem onRing_ras (s : State) (w : Nat) (g : Ring → Ring) : (onRing s w g).ras = s.ras := rfl
@[simp] theorem onRing_obs (s : State) (w : Nat) (g : Ring → Ring) : (onRing s w g).obs = s.obs := rfl
@[simp] theorem onRing_hst (s : State) (w : Nat) (g : Ring → Ring) : (onRing s w g).hst = s.hst := rfl
@[simp] theorem onRing_lnk (s : State) (w : Nat) (g : Ring → Ring) : (onRing s w g).lnk = s.lnk := rfl
@[simp] theorem onRing_kv (s : State) (w : Nat) (g : Ring → Ring) : (onRing s w g).kv = s.kv := rfl
@[simp] theorem onRing_time (s : State) (w : Nat) (g : Ring → Ring) : (onRing s w g).time = s.time := rfl
@[simp] theorem onRing_tru (s : State) (w : Nat) (g : Ring → Ring) : (onRing s w g).tru = s.tru := rfl
@[simp] theorem onRing_flash (s : State) (w : Nat) (g : Ring → Ring) : (onRing s w g).flash = s.flash := rfl
@[simp] theorem onRing_boot (s : State) (w : Nat) (g : Ring → Ring) : (onRing s w g).boot = s.boot := rfl
@[simp] theorem onRing_mgm (s : State) (w : Nat) (g : Ring → Ring) : (onRing s w g).mgm = s.mgm := rfl
@[simp] theorem onRing_pwr (s : State) (w : Nat) (g : Ring → Ring) : (onRing s w g).pwr = s.pwr := rfl
@[simp] theorem onRing_phy (s : State) (w : Nat) (g : Ring → Ring) : (onRing s w g).phy = s.phy := rfl
@[simp] theorem reg_onRing (s : State) (w : Nat) (g : Ring → Ring) (o' : Nat) : reg (onRing s w g) o' = reg s o' := rfl
@[simp] theorem rd_onRing (s : State) (w : Nat) (g : Ring → Ring) (g' : Fld) (i' j' : Nat) : rd (onRing s w g) g' i' j' = rd s g' i' j' := rfl
@[simp] theorem rdB_onRing (s : State) (w : Nat) (g : Ring → Ring) (g' : Fld) (i' j' : Nat) : rdB (onRing s w g) g' i' j' = rdB s g' i' j' := rfl
@[simp] theorem shadowWord_onRing (s : State) (w : Nat) (g : Ring → Ring) (o' : Nat) : shadowWord (onRing s w g) o' = shadowWord s o' := rfl
@[simp] theorem coreAt_onRing (s : State) (w : Nat) (g : Ring → Ring) (c' : Nat) : coreAt (onRing s w g) c' = coreAt s c' := rfl
@[simp] theorem harpAt_onRing (s : State) (w : Nat) (g : Ring → Ring) (c' h' : Nat) : harpAt (onRing s w g) c' h' = harpAt s c' h' := rfl

/-! ### setCq -/

@[simp] theorem setCq_pending (s : State) (q : Nat) (v : Cq) : (setCq s q v).pending = s.pending := rfl
@[simp] theorem setCq_mem (s : State) (q : Nat) (v : Cq) : (setCq s q v).mem = s.mem := rfl
@[simp] theorem setCq_spd (s : State) (q : Nat) (v : Cq) : (setCq s q v).spd = s.spd := rfl
@[simp] theorem setCq_regs (s : State) (q : Nat) (v : Cq) : (setCq s q v).regs = s.regs := rfl
@[simp] theorem setCq_shadow (s : State) (q : Nat) (v : Cq) : (setCq s q v).shadow = s.shadow := rfl
@[simp] theorem setCq_free (s : State) (q : Nat) (v : Cq) : (setCq s q v).free = s.free := rfl
@[simp] theorem setCq_utime (s : State) (q : Nat) (v : Cq) : (setCq s q v).utime = s.utime := rfl
@[simp] theorem setCq_out (s : State) (q : Nat) (v : Cq) : (setCq s q v).out = s.out := rfl
@[simp] theorem setCq_cores (s : State) (q : Nat) (v : Cq) : (setCq s q v).cores = s.cores := rfl
@[simp] theorem setCq_harps (s : State) (q : Nat) (v : Cq) : (setCq s q v).harps = s.harps := rfl
@[simp] theorem setCq_ord (s : State) (q : Nat) (v : Cq) : (setCq s q v).ord = s.ord := rfl
@[simp] theorem setCq_ms (s : State) (q : Nat) (v : Cq) : (setCq s q v).ms = s.ms := rfl
@[simp] theorem setCq_ras (s : State) (q : Nat) (v : Cq) : (setCq s q v).ras = s.ras := rfl
@[simp] theorem setCq_obs (s : State) (q : Nat) (v : Cq) : (setCq s q v).obs = s.obs := rfl
@[simp] theorem setCq_hst (s : State) (q : Nat) (v : Cq) : (setCq s q v).hst = s.hst := rfl
@[simp] theorem setCq_lnk (s : State) (q : Nat) (v : Cq) : (setCq s q v).lnk = s.lnk := rfl
@[simp] theorem setCq_kv (s : State) (q : Nat) (v : Cq) : (setCq s q v).kv = s.kv := rfl
@[simp] theorem setCq_time (s : State) (q : Nat) (v : Cq) : (setCq s q v).time = s.time := rfl
@[simp] theorem setCq_tru (s : State) (q : Nat) (v : Cq) : (setCq s q v).tru = s.tru := rfl
@[simp] theorem setCq_flash (s : State) (q : Nat) (v : Cq) : (setCq s q v).flash = s.flash := rfl
@[simp] theorem setCq_boot (s : State) (q : Nat) (v : Cq) : (setCq s q v).boot = s.boot := rfl
@[simp] theorem setCq_mgm (s : State) (q : Nat) (v : Cq) : (setCq s q v).mgm = s.mgm := rfl
@[simp] theorem setCq_pwr (s : State) (q : Nat) (v : Cq) : (setCq s q v).pwr = s.pwr := rfl
@[simp] theorem setCq_phy (s : State) (q : Nat) (v : Cq) : (setCq s q v).phy = s.phy := rfl
theorem setCq_sch (s : State) (q : Nat) (v : Cq) : (setCq s q v).sch = { s.sch with cqs := SMap.put (fun _ => Cq.fresh) s.sch.cqs q v } := rfl
@[simp] theorem reg_setCq (s : State) (q : Nat) (v : Cq) (o' : Nat) : reg (setCq s q v) o' = reg s o' := rfl
@[simp] theorem rd_setCq (s : State) (q : Nat) (v : Cq) (g' : Fld) (i' j' : Nat) : rd (setCq s q v) g' i' j' = rd s g' i' j' := rfl
@[simp] theorem rdB_setCq (s : State) (q : Nat) (v : Cq) (g' : Fld) (i' j' : Nat) : rdB (setCq s q v) g' i' j' = rdB s g' i' j' := rfl
@[simp] theorem shadowWord_setCq (s : State) (q : Nat) (v : Cq) (o' : Nat) : shadowWord (setCq s q v) o' = shadowWord s o' := rfl
@[simp] theorem coreAt_setCq (s : State) (q : Nat) (v : Cq) (c' : Nat) : coreAt (setCq s q v) c' = coreAt s c' := rfl
@[simp] theorem harpAt_setCq (s : State) (q : Nat) (v : Cq) (c' h' : Nat) : harpAt (setCq s q v) c' h' = harpAt s c' h' := rfl

/-! ### emit -/

@[simp] theorem emit_pending (s : State) (x : Out) : (emit s x).pending = s.pending := rfl
@[simp] theorem emit_mem (s : State) (x : Out) : (emit s x).mem = s.mem := rfl
@[simp] theorem emit_spd (s : State) (x : Out) : (emit s x).spd = s.spd := rfl
@[simp] theorem emit_regs (s : State) (x : Out) : (emit s x).regs = s.regs := rfl
@[simp] theorem emit_shadow (s : State) (x : Out) : (emit s x).shadow = s.shadow := rfl
@[simp] theorem emit_free (s : State) (x : Out) : (emit s x).free = s.free := rfl
@[simp] theorem emit_utime (s : State) (x : Out) : (emit s x).utime = s.utime := rfl
@[simp] theorem emit_cores (s : State) (x : Out) : (emit s x).cores = s.cores := rfl
@[simp] theorem emit_harps (s : State) (x : Out) : (emit s x).harps = s.harps := rfl
@[simp] theorem emit_ord (s : State) (x : Out) : (emit s x).ord = s.ord := rfl
@[simp] theorem emit_ms (s : State) (x : Out) : (emit s x).ms = s.ms := rfl
@[simp] theorem emit_sch (s : State) (x : Out) : (emit s x).sch = s.sch := rfl
@[simp] theorem emit_ras (s : State) (x : Out) : (emit s x).ras = s.ras := rfl
@[simp] theorem emit_obs (s : State) (x : Out) : (emit s x).obs = s.obs := rfl
@[simp] theorem emit_hst (s : State) (x : Out) : (emit s x).hst = s.hst := rfl
@[simp] theorem emit_lnk (s : State) (x : Out) : (emit s x).lnk = s.lnk := rfl
@[simp] theorem emit_kv (s : State) (x : Out) : (emit s x).kv = s.kv := rfl
@[simp] theorem emit_time (s : State) (x : Out) : (emit s x).time = s.time := rfl
@[simp] theorem emit_tru (s : State) (x : Out) : (emit s x).tru = s.tru := rfl
@[simp] theorem emit_flash (s : State) (x : Out) : (emit s x).flash = s.flash := rfl
@[simp] theorem emit_boot (s : State) (x : Out) : (emit s x).boot = s.boot := rfl
@[simp] theorem emit_mgm (s : State) (x : Out) : (emit s x).mgm = s.mgm := rfl
@[simp] theorem emit_pwr (s : State) (x : Out) : (emit s x).pwr = s.pwr := rfl
@[simp] theorem emit_phy (s : State) (x : Out) : (emit s x).phy = s.phy := rfl
theorem emit_out (s : State) (x : Out) : (emit s x).out = s.out ++ [x] := rfl
@[simp] theorem reg_emit (s : State) (x : Out) (o' : Nat) : reg (emit s x) o' = reg s o' := rfl
@[simp] theorem rd_emit (s : State) (x : Out) (g' : Fld) (i' j' : Nat) : rd (emit s x) g' i' j' = rd s g' i' j' := rfl
@[simp] theorem rdB_emit (s : State) (x : Out) (g' : Fld) (i' j' : Nat) : rdB (emit s x) g' i' j' = rdB s g' i' j' := rfl
@[simp] theorem shadowWord_emit (s : State) (x : Out) (o' : Nat) : shadowWord (emit s x) o' = shadowWord s o' := rfl
@[simp] theorem coreAt_emit (s : State) (x : Out) (c' : Nat) : coreAt (emit s x) c' = coreAt s c' := rfl
@[simp] theorem harpAt_emit (s : State) (x : Out) (c' h' : Nat) : harpAt (emit s x) c' h' = harpAt s c' h' := rfl
@[simp] theorem ringAt_emit (s : State) (x : Out) (w' : Nat) : ringAt (emit s x) w' = ringAt s w' := rfl
@[simp] theorem cqAt_emit (s : State) (x : Out) (q' : Nat) : cqAt (emit s x) q' = cqAt s q' := rfl

/-! ### emits -/

@[simp] theorem emits_pending (s : State) (x : List Out) : (emits s x).pending = s.pending := rfl
@[simp] theorem emits_mem (s : State) (x : List Out) : (emits s x).mem = s.mem := rfl
@[simp] theorem emits_spd (s : State) (x : List Out) : (emits s x).spd = s.spd := rfl
@[simp] theorem emits_regs (s : State) (x : List Out) : (emits s x).regs = s.regs := rfl
@[simp] theorem emits_shadow (s : State) (x : List Out) : (emits s x).shadow = s.shadow := rfl
@[simp] theorem emits_free (s : State) (x : List Out) : (emits s x).free = s.free := rfl
@[simp] theorem emits_utime (s : State) (x : List Out) : (emits s x).utime = s.utime := rfl
@[simp] theorem emits_cores (s : State) (x : List Out) : (emits s x).cores = s.cores := rfl
@[simp] theorem emits_harps (s : State) (x : List Out) : (emits s x).harps = s.harps := rfl
@[simp] theorem emits_ord (s : State) (x : List Out) : (emits s x).ord = s.ord := rfl
@[simp] theorem emits_ms (s : State) (x : List Out) : (emits s x).ms = s.ms := rfl
@[simp] theorem emits_sch (s : State) (x : List Out) : (emits s x).sch = s.sch := rfl
@[simp] theorem emits_ras (s : State) (x : List Out) : (emits s x).ras = s.ras := rfl
@[simp] theorem emits_obs (s : State) (x : List Out) : (emits s x).obs = s.obs := rfl
@[simp] theorem emits_hst (s : State) (x : List Out) : (emits s x).hst = s.hst := rfl
@[simp] theorem emits_lnk (s : State) (x : List Out) : (emits s x).lnk = s.lnk := rfl
@[simp] theorem emits_kv (s : State) (x : List Out) : (emits s x).kv = s.kv := rfl
@[simp] theorem emits_time (s : State) (x : List Out) : (emits s x).time = s.time := rfl
@[simp] theorem emits_tru (s : State) (x : List Out) : (emits s x).tru = s.tru := rfl
@[simp] theorem emits_flash (s : State) (x : List Out) : (emits s x).flash = s.flash := rfl
@[simp] theorem emits_boot (s : State) (x : List Out) : (emits s x).boot = s.boot := rfl
@[simp] theorem emits_mgm (s : State) (x : List Out) : (emits s x).mgm = s.mgm := rfl
@[simp] theorem emits_pwr (s : State) (x : List Out) : (emits s x).pwr = s.pwr := rfl
@[simp] theorem emits_phy (s : State) (x : List Out) : (emits s x).phy = s.phy := rfl
theorem emits_out (s : State) (x : List Out) : (emits s x).out = s.out ++ x := rfl
@[simp] theorem reg_emits (s : State) (x : List Out) (o' : Nat) : reg (emits s x) o' = reg s o' := rfl
@[simp] theorem rd_emits (s : State) (x : List Out) (g' : Fld) (i' j' : Nat) : rd (emits s x) g' i' j' = rd s g' i' j' := rfl
@[simp] theorem rdB_emits (s : State) (x : List Out) (g' : Fld) (i' j' : Nat) : rdB (emits s x) g' i' j' = rdB s g' i' j' := rfl
@[simp] theorem shadowWord_emits (s : State) (x : List Out) (o' : Nat) : shadowWord (emits s x) o' = shadowWord s o' := rfl
@[simp] theorem coreAt_emits (s : State) (x : List Out) (c' : Nat) : coreAt (emits s x) c' = coreAt s c' := rfl
@[simp] theorem harpAt_emits (s : State) (x : List Out) (c' h' : Nat) : harpAt (emits s x) c' h' = harpAt s c' h' := rfl
@[simp] theorem ringAt_emits (s : State) (x : List Out) (w' : Nat) : ringAt (emits s x) w' = ringAt s w' := rfl
@[simp] theorem cqAt_emits (s : State) (x : List Out) (q' : Nat) : cqAt (emits s x) q' = cqAt s q' := rfl

/-! ### notIdle -/

@[simp] theorem notIdle_pending (s : State) : (notIdle s).pending = s.pending := rfl
@[simp] theorem notIdle_mem (s : State) : (notIdle s).mem = s.mem := rfl
@[simp] theorem notIdle_spd (s : State) : (notIdle s).spd = s.spd := rfl
@[simp] theorem notIdle_regs (s : State) : (notIdle s).regs = s.regs := rfl
@[simp] theorem notIdle_shadow (s : State) : (notIdle s).shadow = s.shadow := rfl
@[simp] theorem notIdle_free (s : State) : (notIdle s).free = s.free := rfl
@[simp] theorem notIdle_utime (s : State) : (notIdle s).utime = s.utime := rfl
@[simp] theorem notIdle_out (s : State) : (notIdle s).out = s.out := rfl
@[simp] theorem notIdle_cores (s : State) : (notIdle s).cores = s.cores := rfl
@[simp] theorem notIdle_harps (s : State) : (notIdle s).harps = s.harps := rfl
@[simp] theorem notIdle_ord (s : State) : (notIdle s).ord = s.ord := rfl
@[simp] theorem notIdle_ms (s : State) : (notIdle s).ms = s.ms := rfl
@[simp] theorem notIdle_sch (s : State) : (notIdle s).sch = s.sch := rfl
@[simp] theorem notIdle_ras (s : State) : (notIdle s).ras = s.ras := rfl
@[simp] theorem notIdle_obs (s : State) : (notIdle s).obs = s.obs := rfl
@[simp] theorem notIdle_hst (s : State) : (notIdle s).hst = s.hst := rfl
@[simp] theorem notIdle_lnk (s : State) : (notIdle s).lnk = s.lnk := rfl
@[simp] theorem notIdle_kv (s : State) : (notIdle s).kv = s.kv := rfl
@[simp] theorem notIdle_time (s : State) : (notIdle s).time = s.time := rfl
@[simp] theorem notIdle_tru (s : State) : (notIdle s).tru = s.tru := rfl
@[simp] theorem notIdle_flash (s : State) : (notIdle s).flash = s.flash := rfl
@[simp] theorem notIdle_boot (s : State) : (notIdle s).boot = s.boot := rfl
@[simp] theorem notIdle_mgm (s : State) : (notIdle s).mgm = s.mgm := rfl
@[simp] theorem notIdle_phy (s : State) : (notIdle s).phy = s.phy := rfl
theorem notIdle_pwr (s : State) : (notIdle s).pwr = { s.pwr with idleAt := s.utime } := rfl
@[simp] theorem reg_notIdle (s : State) (o' : Nat) : reg (notIdle s) o' = reg s o' := rfl
@[simp] theorem rd_notIdle (s : State) (g' : Fld) (i' j' : Nat) : rd (notIdle s) g' i' j' = rd s g' i' j' := rfl
@[simp] theorem rdB_notIdle (s : State) (g' : Fld) (i' j' : Nat) : rdB (notIdle s) g' i' j' = rdB s g' i' j' := rfl
@[simp] theorem shadowWord_notIdle (s : State) (o' : Nat) : shadowWord (notIdle s) o' = shadowWord s o' := rfl
@[simp] theorem coreAt_notIdle (s : State) (c' : Nat) : coreAt (notIdle s) c' = coreAt s c' := rfl
@[simp] theorem harpAt_notIdle (s : State) (c' h' : Nat) : harpAt (notIdle s) c' h' = harpAt s c' h' := rfl
@[simp] theorem ringAt_notIdle (s : State) (w' : Nat) : ringAt (notIdle s) w' = ringAt s w' := rfl
@[simp] theorem cqAt_notIdle (s : State) (q' : Nat) : cqAt (notIdle s) q' = cqAt s q' := rfl

/-! ### State.withPending -/

@[simp] theorem withPending_mem (s : State) (q : List Instr) : (s.withPending q).mem = s.mem := rfl
@[simp] theorem withPending_spd (s : State) (q : List Instr) : (s.withPending q).spd = s.spd := rfl
@[simp] theorem withPending_regs (s : State) (q : List Instr) : (s.withPending q).regs = s.regs := rfl
@[simp] theorem withPending_shadow (s : State) (q : List Instr) : (s.withPending q).shadow = s.shadow := rfl
@[simp] theorem withPending_free (s : State) (q : List Instr) : (s.withPending q).free = s.free := rfl
@[simp] theorem withPending_utime (s : State) (q : List Instr) : (s.withPending q).utime = s.utime := rfl
@[simp] theorem withPending_out (s : State) (q : List Instr) : (s.withPending q).out = s.out := rfl
@[simp] theorem withPending_cores (s : State) (q : List Instr) : (s.withPending q).cores = s.cores := rfl
@[simp] theorem withPending_harps (s : State) (q : List Instr) : (s.withPending q).harps = s.harps := rfl
@[simp] theorem withPending_ord (s : State) (q : List Instr) : (s.withPending q).ord = s.ord := rfl
@[simp] theorem withPending_ms (s : State) (q : List Instr) : (s.withPending q).ms = s.ms := rfl
@[simp] theorem withPending_sch (s : State) (q : List Instr) : (s.withPending q).sch = s.sch := rfl
@[simp] theorem withPending_ras (s : State) (q : List Instr) : (s.withPending q).ras = s.ras := rfl
@[simp] theorem withPending_obs (s : State) (q : List Instr) : (s.withPending q).obs = s.obs := rfl
@[simp] theorem withPending_hst (s : State) (q : List Instr) : (s.withPending q).hst = s.hst := rfl
@[simp] theorem withPending_lnk (s : State) (q : List Instr) : (s.withPending q).lnk = s.lnk := rfl
@[simp] theorem withPending_kv (s : State) (q : List Instr) : (s.withPending q).kv = s.kv := rfl
@[simp] theorem withPending_time (s : State) (q : List Instr) : (s.withPending q).time = s.time := rfl
@[simp] theorem withPending_tru (s : State) (q : List Instr) : (s.withPending q).tru = s.tru := rfl
@[simp] theorem withPending_flash (s : State) (q : List Instr) : (s.withPending q).flash = s.flash := rfl
@[simp] theorem withPending_boot (s : State) (q : List Instr) : (s.withPending q).boot = s.boot := rfl
@[simp] theorem withPending_mgm (s : State) (q : List Instr) : (s.withPending q).mgm = s.mgm := rfl
@[simp] theorem withPending_pwr (s : State) (q : List Instr) : (s.withPending q).pwr = s.pwr := rfl
@[simp] theorem withPending_phy (s : State) (q : List Instr) : (s.withPending q).phy = s.phy := rfl
theorem withPending_pending (s : State) (q : List Instr) : (s.withPending q).pending = q := rfl
@[simp] theorem reg_withPending (s : State) (q : List Instr) (o' : Nat) : reg (s.withPending q) o' = reg s o' := rfl
@[simp] theorem rd_withPending (s : State) (q : List Instr) (g' : Fld) (i' j' : Nat) : rd (s.withPending q) g' i' j' = rd s g' i' j' := rfl
@[simp] theorem rdB_withPending (s : State) (q : List Instr) (g' : Fld) (i' j' : Nat) : rdB (s.withPending q) g' i' j' = rdB s g' i' j' := rfl
@[simp] theorem shadowWord_withPending (s : State) (q : List Instr) (o' : Nat) : shadowWord (s.withPending q) o' = shadowWord s o' := rfl
@[simp] theorem coreAt_withPending (s : State) (q : List Instr) (c' : Nat) : coreAt (s.withPending q) c' = coreAt s c' := rfl
@[simp] theorem harpAt_withPending (s : State) (q : List Instr) (c' h' : Nat) : harpAt (s.withPending q) c' h' = harpAt s c' h' := rfl
@[simp] theorem ringAt_withPending (s : State) (q : List Instr) (w' : Nat) : ringAt (s.withPending q) w' = ringAt s w' := rfl
@[simp] theorem cqAt_withPending (s : State) (q : List Instr) (q' : Nat) : cqAt (s.withPending q) q' = cqAt s q' := rfl

/-! ### Readers depend on one field -/

theorem reg_congr {s t : State} (h : t.regs = s.regs) (o : Nat) : reg t o = reg s o := by simp only [reg, h]
theorem rd_congr {s t : State} (h : t.regs = s.regs) (f : Fld) (i j : Nat) : rd t f i j = rd s f i j := by simp only [rd, reg, h]
theorem coreAt_congr {s t : State} (h : t.cores = s.cores) (c : Nat) : coreAt t c = coreAt s c := by simp only [coreAt, h]
theorem harpAt_congr {s t : State} (e : t.harps = s.harps) (c h : Nat) : harpAt t c h = harpAt s c h := by simp only [harpAt, e]
theorem ringAt_congr {s t : State} (h : t.sch = s.sch) (w : Nat) : ringAt t w = ringAt s w := by simp only [ringAt, h]
theorem cqAt_congr {s t : State} (h : t.sch = s.sch) (q : Nat) : cqAt t q = cqAt s q := by simp only [cqAt, h]

end Sys2Proof.Laws
end

