-- ==== Sys2Proof/Laws/Low.lean ====
section
/-!
SUPPORT. Sys2Proof/Laws/Low.lean: registers below the cores' windows. What is read from them, translation among it, is as
before where they are, whatever the windows hold (R28, R30).
-/
namespace Sys2Proof.Laws
open Sys2Proof.Machine

/-- Every register below the cores' windows is as before. -/
def LowSame (s t : State) : Prop := ∀ o < 0x1000000, reg t o = reg s o

theorem LowSame.rd {s t : State} (h : LowSame s t) (f : Fld) (i j : Nat) (hf : f.at i j < 0x1000000) :
    Machine.rd t f i j = Machine.rd s f i j := by simp only [Machine.rd, h _ hf]

theorem LowSame.rdB {s t : State} (h : LowSame s t) (f : Fld) (i j : Nat) (hf : f.at i j < 0x1000000) :
    Machine.rdB t f i j = Machine.rdB s f i j := by simp only [Machine.rdB, h.rd f i j hf]

theorem LowSame.of_regs {s t : State} (h : t.regs = s.regs) : LowSame s t := fun o _ => reg_congr h o

theorem LowSame.trans {s t u : State} (h : LowSame s t) (h' : LowSame t u) : LowSame s u := fun o ho => (h' o ho).trans (h o ho)

theorem LowSame.wr {s : State} (f : Fld) (i j v : Nat) (hf : 0x1000000 ≤ f.at i j) : LowSame s (Machine.wr s f i j v) :=
  fun o ho => reg_wr_other s f i j v (by omega)

theorem LowSame.count (s : State) (c n k : Nat) : LowSame s (Machine.count s c n k) := by
  unfold Machine.count
  split
  · exact fun _ _ => rfl
  · exact LowSame.wr _ _ _ _ (by simp only [Fld.at, R.CNT_COUNT]; omega)

theorem LowSame.countUnits (s : State) (c n u k : Nat) : LowSame s (Machine.countUnits s c n u k) := by
  unfold Machine.countUnits
  split
  · exact fun _ _ => rfl
  · exact LowSame.trans (LowSame.of_regs rfl) (LowSame.wr _ _ _ _ (by simp only [Fld.at, R.CNT_COUNT]; omega))

theorem partRanges_congr {s t : State} (h : LowSame s t) (p : Nat) : partRanges t p = partRanges s p := by
  have e : ∀ e < 64, Machine.rdB t R.PRT_RANGE_BASE_VALID e 0 = Machine.rdB s R.PRT_RANGE_BASE_VALID e 0 ∧
      Machine.rd t R.PRT_RANGE_SIZE_PARTITION e 0 = Machine.rd s R.PRT_RANGE_SIZE_PARTITION e 0 ∧
      Machine.rd t R.PRT_RANGE_BASE_BASE e 0 = Machine.rd s R.PRT_RANGE_BASE_BASE e 0 ∧
      Machine.rd t R.PRT_RANGE_SIZE_GIB e 0 = Machine.rd s R.PRT_RANGE_SIZE_GIB e 0 := by
    intro e he
    refine ⟨h.rdB _ _ _ ?_, h.rd _ _ _ ?_, h.rd _ _ _ ?_, h.rd _ _ _ ?_⟩ <;>
      simp only [Fld.at, R.PRT_RANGE_BASE_VALID, R.PRT_RANGE_SIZE_PARTITION, R.PRT_RANGE_BASE_BASE, R.PRT_RANGE_SIZE_GIB] <;> omega
  unfold partRanges
  rw [List.filter_congr (q := fun e => Machine.rdB s R.PRT_RANGE_BASE_VALID e 0 && decide (Machine.rd s R.PRT_RANGE_SIZE_PARTITION e 0 = p))]
  · apply List.map_congr_left
    intro a ha
    have := e a (List.mem_range.mp (List.mem_of_mem_filter ha))
    rw [this.2.2.1, this.2.2.2]
  · intro a ha
    have := e a (List.mem_range.mp ha)
    rw [this.1, this.2.1]

theorem partOffset_congr {s t : State} (h : LowSame s t) (p o : Nat) : partOffset t p o = partOffset s p o := by
  simp only [partOffset, partRanges_congr h]

theorem nu_congr {s t : State} (h : LowSame s t) : nu t = nu s :=
  h.rd R.GLB_GEOMETRY_STACKS_USABLE 0 0 (by simp only [Fld.at, R.GLB_GEOMETRY_STACKS_USABLE]; omega)

theorem placeOf_congr {s t : State} (h : LowSame s t) (pa : Nat) : placeOf t pa = placeOf s pa := by
  simp only [placeOf, nu_congr h, h.rd R.CXL_PORT_CAP_GIB 0 0 (by simp only [Fld.at, R.CXL_PORT_CAP_GIB]; omega),
    h.rd R.CXL_PORT_CAP_GIB 1 0 (by simp only [Fld.at, R.CXL_PORT_CAP_GIB]; omega)]

theorem stackOfRank_congr {s t : State} (h : LowSame s t) (r : Nat) : stackOfRank t r = stackOfRank s r := by
  unfold stackOfRank
  rw [List.filter_congr (q := fun i => Machine.rdB s R.MEM_STACK_STATUS_FITTED i 0)]
  intro i hi
  have := List.mem_range.mp hi
  exact h.rdB _ _ _ (by simp only [Fld.at, R.MEM_STACK_STATUS_FITTED]; omega)

theorem bankRowOf_congr {s t : State} (h : LowSame s t) (pa : Nat) : bankRowOf t pa = bankRowOf s pa := by
  simp only [bankRowOf, nu_congr h, homeStack, homeRank, stackOfRank_congr h]

theorem portUp_congr {s t : State} (h : LowSame s t) (n : Nat) (hn : n < 2) : portUp t n = portUp s n := by
  simp only [portUp, h.rd R.CXL_PORT_STATUS_STATE n 0 (by simp only [Fld.at, R.CXL_PORT_STATUS_STATE]; omega)]

theorem placeOf_cxl {s : State} {pa n : Nat} (h : placeOf s pa = .cxl n) : n < 2 := by
  unfold placeOf at h
  repeat' split at h
  all_goals first | (cases h; omega) | cases h

theorem lineHeld_congr {s t : State} (hx : t.ms = s.ms) (l : Nat) : lineHeld t l = lineHeld s l := by simp only [lineHeld, hx]

theorem lineChannelFailed_congr {s t : State} (h : LowSame s t) (hx : t.ms = s.ms) (pa : Nat) :
    lineChannelFailed t pa = lineChannelFailed s pa := by simp only [lineChannelFailed, bankRowOf_congr h, hx]

theorem lostIn_congr {s t : State} (h : LowSame s t) (hx : t.ms = s.ms) (l : Nat) (x : Place) (hp : ∀ n, x = .cxl n → n < 2) :
    lostIn t l x = lostIn s l x := by
  cases x with
  | near => simp only [lostIn, lineChannelFailed_congr h hx, lineHeld_congr hx]
  | cxl n =>
    have hn := hp n rfl
    have e := h.rdB R.CXL_PORT_STATUS_FAILED n 0 (by simp only [Fld.at, R.CXL_PORT_STATUS_FAILED]; omega)
    simp only [lostIn, e, portUp_congr h n hn, lineHeld_congr hx, hx]
  | host => rfl
  | absent => rfl

/-- Whether a line is lost depends on the slices, the ports and the channels, and on registers below the windows (R210, R227). -/
theorem lineLost_congr {s t : State} (h : LowSame s t) (hx : t.ms = s.ms) (l : Nat) : lineLost t l = lineLost s l :=
  (congrArg (lostIn t l) (placeOf_congr h _)).trans (lostIn_congr h hx l _ (fun _ hn => placeOf_cxl hn))

theorem cohRead_congr {s t : State} (h : LowSame s t) (hm : t.mem = s.mem) (hx : t.ms = s.ms) (pa n : Nat) :
    cohRead t pa n = cohRead s pa n := by
  have e : lineLost t = lineLost s := funext (lineLost_congr h hx)
  simp only [cohRead, hm, e]

theorem walkFrom_congr {s t : State} (h : LowSame s t) (hm : t.mem = s.mem) (hx : t.ms = s.ms) (p va : Nat) (write hostOk : Bool) (hp : p < 16)
    (fuel lev tab : Nat) : walkFrom t p va write hostOk fuel lev tab = walkFrom s p va write hostOk fuel lev tab := by
  have e := h.rdB R.PRT_CFG_HOST_MEM p 0 (by simp only [Fld.at, R.PRT_CFG_HOST_MEM]; omega)
  induction fuel generalizing lev tab with
  | zero => rfl
  | succ n ih => simp only [walkFrom, hm, e, cohRead_congr h hm hx, partOffset_congr h, ih]

theorem walk_congr {s t : State} (h : LowSame s t) (hm : t.mem = s.mem) (hx : t.ms = s.ms) (p va : Nat) (write hostOk : Bool)
    (hp : p < 16) : walk t p va write hostOk = walk s p va write hostOk := by
  have e1 := h.rdB R.DTU_CTX_ROOT_VALID p 0 (by simp only [Fld.at, R.DTU_CTX_ROOT_VALID]; omega)
  have e2 : ctxRoot t p = ctxRoot s p :=
    congrArg (· * 256) (h.rd R.DTU_CTX_ROOT_ROOT p 0 (by simp only [Fld.at, R.DTU_CTX_ROOT_ROOT]; omega))
  simp only [walk, e1, e2, walkFrom_congr h hm hx _ _ _ _ hp]

theorem cachedXlat_congr {s t : State} (hx : t.ms = s.ms) (who : Option Nat) (p va : Nat) :
    cachedXlat t who p va = cachedXlat s who p va := by simp only [cachedXlat, hx]

/-- Translation depends on the memory system, module memory and registers below the windows (R228 to R232). -/
theorem translate_congr {s t : State} (h : LowSame s t) (hm : t.mem = s.mem) (hx : t.ms = s.ms) (who : Option Nat) (p va : Nat)
    (write hostOk : Bool) (hp : p < 16) :
    Machine.translate t who p va write hostOk = Machine.translate s who p va write hostOk := by
  have e := h.rdB R.PRT_CFG_HOST_MEM p 0 (by simp only [Fld.at, R.PRT_CFG_HOST_MEM]; omega)
  simp only [Machine.translate, cachedXlat_congr hx, e, walk_congr h hm hx _ _ _ _ hp]

theorem translateRange_congr {s t : State} (h : LowSame s t) (hm : t.mem = s.mem) (hx : t.ms = s.ms) (who : Option Nat) (p : Nat)
    (write hostOk : Bool) (hp : p < 16) (fuel va n : Nat) :
    translateRange t who p write hostOk fuel va n = translateRange s who p write hostOk fuel va n := by
  induction fuel generalizing va n with
  | zero => rfl
  | succ k ih => simp only [translateRange, translate_congr h hm hx _ _ _ _ _ hp, ih]

/-- The pieces of a virtual range, under the same conditions. -/
theorem pieces_congr {s t : State} (h : LowSame s t) (hm : t.mem = s.mem) (hx : t.ms = s.ms) (who : Option Nat) (p : Nat)
    (write hostOk : Bool) (hp : p < 16) (va n : Nat) : pieces t who p write hostOk va n = pieces s who p write hostOk va n :=
  translateRange_congr h hm hx who p write hostOk hp _ _ _

/-- The partition of a request ring is one of sixteen (R267). -/
theorem ringPart_lt (s : State) (w : Nat) : ringPart s w < 16 := rd_lt s R.SEQ_RQ_CFG_PARTITION w 0

end Sys2Proof.Laws
end

