-- ==== Sys2Proof/Laws/Memory.lean ====
section
/-!
SUPPORT. Sys2Proof/Laws/Memory.lean: module memory and scratchpads. Every operation keeps the canonical form of module
memory; a read after a write gives what was written, and every other byte and mark is as it was.
-/
namespace Sys2Proof.Laws
open Sys2Proof.Machine

/-! ### Bytes -/

theorem smap_wf_putBytes (m : SMap Byte) (a : Nat) (data : List Byte) (h : SMap.wf (fun _ => (0 : Byte)) m = true) :
    SMap.wf (fun _ => (0 : Byte)) (putBytes m a data) = true := by
  induction data generalizing m a with
  | nil => exact h
  | cons b t ih => exact ih _ _ (smap_wf_put _ _ _ _ h)

/-- The byte at `k` after bytes have been stored from `a` up. -/
theorem look_putBytes (m : SMap Byte) (a k : Nat) (data : List Byte) :
    SMap.look (fun _ => (0 : Byte)) (putBytes m a data) k =
      if a ≤ k ∧ k < a + data.length then data.getD (k - a) 0 else SMap.look (fun _ => (0 : Byte)) m k := by
  induction data generalizing m a with
  | nil => rw [if_neg (by simp)]; rfl
  | cons b t ih =>
    rw [putBytes, ih, smap_look_put]
    by_cases h1 : a + 1 ≤ k ∧ k < a + 1 + t.length
    · obtain ⟨d, hd⟩ : ∃ d, k = a + 1 + d := ⟨k - (a + 1), by omega⟩
      have e1 : k - (a + 1) = d := by omega
      have e2 : k - a = d + 1 := by omega
      rw [if_pos h1, if_pos (by simp; omega), e1, e2]; simp
    · by_cases h2 : k = a
      · subst h2; simp
      · rw [if_neg h1, if_neg h2, if_neg (by simp; omega)]

/-! ### Marks -/

theorem smap_wf_markLines (m : SMap Bool) (a n : Nat) (bad : Bool) (ls : List Nat)
    (h : SMap.wf (fun _ => false) m = true) : SMap.wf (fun _ => false) (markLines m a n bad ls) = true := by
  induction ls generalizing m with
  | nil => exact h
  | cons l t ih =>
    rw [markLines]
    apply ih
    split
    · exact smap_wf_put _ _ _ _ h
    · split
      · exact smap_wf_put _ _ _ _ h
      · exact h

/-! ### Module memory -/

theorem memory_wf_iff (m : Memory) : m.wf = true ↔
    SMap.wf (fun _ => (0 : Byte)) m.bytes = true ∧ SMap.wf (fun _ => false) m.poison = true := by
  simp [Memory.wf]

theorem memory_wf_empty : Memory.wf ⟨[], []⟩ = true := rfl

theorem memWrite_wf (m : Memory) (a : Nat) (data : List Byte) (bad : Bool) (h : m.wf = true) : (memWrite m a data bad).wf = true := by
  rw [memory_wf_iff] at h ⊢
  exact ⟨smap_wf_putBytes _ _ _ h.1, smap_wf_markLines _ _ _ _ _ h.2⟩

theorem memMark_wf (m : Memory) (line : Nat) (h : m.wf = true) : (memMark m line).wf = true := by
  rw [memory_wf_iff] at h ⊢
  exact ⟨h.1, smap_wf_put (fun _ => false) m.poison line true h.2⟩

theorem memClear_wf (m : Memory) (a n : Nat) (h : m.wf = true) : (memClear m a n).wf = true := by
  rw [memory_wf_iff] at h ⊢
  exact ⟨smap_wf_keep _ _ _ h.1, smap_wf_keep _ _ _ h.2⟩

theorem addEntry_wf (m : Memory) (pa : Nat) (p : ErrPart) (h : m.wf = true) : (addEntry m pa p).wf = true :=
  memWrite_wf _ _ _ _ h

/-- A read after a write (R146): the bytes written, and every other byte as it was. -/
theorem memByte_memWrite (m : Memory) (a k : Nat) (data : List Byte) (bad : Bool) :
    memByte (memWrite m a data bad) k = if a ≤ k ∧ k < a + data.length then data.getD (k - a) 0 else memByte m k :=
  look_putBytes _ _ _ _

theorem memByte_memMark (m : Memory) (line k : Nat) : memByte (memMark m line) k = memByte m k := rfl

theorem memPoison_memMark (m : Memory) (line l : Nat) : memPoison (memMark m line) l = (decide (l = line) || memPoison m l) := by
  simp only [memPoison, memMark, smap_look_put]
  by_cases h : l = line <;> simp [h]

theorem memRead_length (m : Memory) (a n : Nat) : (memRead m a n).length = n := by simp [memRead]

/-- The bytes read where they were written. -/
theorem memRead_memWrite_self (m : Memory) (a : Nat) (data : List Byte) (bad : Bool) :
    memRead (memWrite m a data bad) a data.length = data := by
  apply List.ext_getElem
  · simp [memRead]
  · intro i h1 h2
    simp only [memRead, List.getElem_map, List.getElem_range, memByte_memWrite]
    rw [if_pos (by omega)]
    simp [h2]

/-- Bytes that a write does not touch read as before. -/
theorem memRead_memWrite_apart (m : Memory) (a b n : Nat) (data : List Byte) (bad : Bool)
    (h : b + n ≤ a ∨ a + data.length ≤ b) : memRead (memWrite m a data bad) b n = memRead m b n := by
  apply List.map_congr_left
  intro i hi
  rw [memByte_memWrite, if_neg]
  have := List.mem_range.mp hi
  omega

/-! ### Scratchpads -/

theorem markWords_bytes (p : Spd) (a n base : Nat) (bad : Bool) (ws : List Nat) : (markWords p a n base bad ws).bytes = p.bytes := by
  induction ws generalizing p with
  | nil => rfl
  | cons w t ih => rw [markWords, ih]

/-- A read of a scratchpad after a write (R129): keys of two cores never meet. -/
theorem spdByte_spdWrite (p : Spd) (c a c' k : Nat) (data : List Byte) (bad : Bool) (ha : a + data.length ≤ 2 ^ 32)
    (hk : k < 2 ^ 32) :
    spdByte (spdWrite p c a data bad) c' k =
      if c' = c ∧ a ≤ k ∧ k < a + data.length then data.getD (k - a) 0 else spdByte p c' k := by
  simp only [spdByte, spdWrite, markWords_bytes, look_putBytes, spdKey]
  by_cases hc : c' = c
  · subst hc
    have e : c' * 2 ^ 32 + k - (c' * 2 ^ 32 + a) = k - a := by omega
    by_cases hr : a ≤ k ∧ k < a + data.length
    · rw [if_pos (by omega), if_pos ⟨rfl, hr⟩, e]
    · rw [if_neg (by omega), if_neg (by tauto)]
  · rw [if_neg (by omega), if_neg (by tauto)]

end Sys2Proof.Laws
end

