-- ==== Sys2Proof/WellFormed.lean ====
section
/-!
DEFINITION. Sys2Proof/WellFormed.lean: which commands the outside world can send: operands within the widths and lengths that
spec/ gives them. The meanings are total: a command that is not well formed has a meaning too.
-/
namespace Sys2Proof

/-- A request of 1 to 4,096 bytes (R321) within a window of `n` bytes. -/
def reqIn (off size n : Nat) : Bool := decide (1 ≤ size ∧ size ≤ 4096 ∧ off < n)

/-- A posted write of 1 to 512 bytes (R321) that starts within a window of `n` bytes. -/
def payloadIn (off : Nat) (data : List Byte) (n : Nat) : Bool := decide (1 ≤ data.length ∧ data.length ≤ 512 ∧ off < n)

/-- A device virtual address has 48 bits. -/
def vaIn (va : Nat) : Bool := decide (va < 2 ^ 48)

/-- A scratchpad address has 21 bits (R127). -/
def padIn (a : Nat) : Bool := decide (a < 2 ^ 21)

/-- A bank row of near memory (R371): stack, channel, die-select, bank and row within their fields. -/
def rowIn (b : BankRow) : Bool :=
  decide (b.stack < 12 ∧ b.channel < 8 ∧ b.dieSel < 2 ∧ b.bank < 32 ∧ b.row < 2 ^ 17)

/-- The vectors of a fiddle instruction start in the scratchpad (R58, R127). -/
def fdlIn (i : FdlInstr) : Bool :=
  match i with
  | .arith _ _ _ a b c dst => padIn a && padIn b && padIn c && padIn dst
  | .convert _ _ _ _ a dst _ _ _ _ => padIn a && padIn dst
  | .poly _ _ _ a dst => padIn a && padIn dst
  | .reduce _ _ a dst => padIn a && padIn dst
  | .blockDot _ _ _ a b _ _ _ _ dst => padIn a && padIn b && padIn dst
  | .move _ src dst => padIn src && padIn dst
  | .column _ _ col vec => padIn col && padIn vec
  | .gatherIx _ _ src ix dst => padIn src && padIn ix && padIn dst
  | .permute _ _ src ix dst => padIn src && padIn ix && padIn dst
  | .unrecognised _ => true
  | .normalise _ x _ _ _ _ _ _ _ _ _ dst _ => padIn x && padIn dst

/-- A frame header fits its fields, its lines are whole, and the wire changes bytes that the frame has (R296). -/
def frameIn (f : Frame) : Bool :=
  decide (f.seq < 2 ^ 16 ∧ f.ack < 2 ^ 16 ∧ f.linesUsed ≤ 25 ∧ f.firstMsg < 128 ∧ f.lines.length = 64 * f.linesUsed ∧ f.syncId < 256) &&
    decide (f.crReq < 2 ^ 16 ∧ f.crRsp < 2 ^ 16 ∧ f.crTile < 2 ^ 16 ∧ f.crCtl < 2 ^ 16) &&
    decide (f.key.length = 0 ∨ f.key.length = 36) && f.errs.all (fun e => decide (e.1 < 1792 ∧ e.2 ≠ 0))

/-- The operands of a command are within their ranges. -/
def wellFormed (i : Instr) : Bool :=
  match i with
  | .registerWrite _ off size _ _ => reqIn off size 0x4000000
  | .registerReadClear _ off size => reqIn off size 0x4000000
  | .barAtomicop _ bar off size _ _ _ => decide (bar = 0 ∨ bar = 2 ∨ bar = 4) && decide (size = 4 ∨ size = 8 ∨ size = 16) && decide (off < 2 ^ 41)
  | .bar2Read _ off len bar4 => reqIn off len (if bar4 then 0x4000000 else 2 ^ 41)
  | .bar2Write _ off data _ _ => payloadIn off data (2 ^ 41)
  | .bar4Write _ off data _ => payloadIn off data 0x4000000
  | .configRequest _ _ write => match write with
    | some v => decide (v < 2 ^ 32)
    | none => true
  | .heldAccessProceed _ => true
  | .remoteWriteDeliver _ => true
  | .packetRelease _ => true
  | .passIssue _ _ desc => decide (desc.length = 6)
  | .passHeadCheck _ _ => true
  | .setFillStart _ _ => true
  | .setFillDone _ _ => true
  | .harpKStep _ _ _ _ upsets => upsets.all (fun u => decide (u.1 < 262144))
  | .setDrainStart _ _ => true
  | .setDrainDone _ _ => true
  | .harpInternalError _ _ => true
  | .commandStopped _ => true
  | .fiddleInstruction _ i => fdlIn i
  | .polyTableLoad _ _ addr => padIn addr
  | .polyTableLoadDone _ => true
  | .epilogueStart _ _ => true
  | .epilogueResultComplete _ _ => true
  | .tileSend _ _ _ => true
  | .outputStageRelease _ _ => true
  | .tileCreditTimeout _ _ => true
  | .landingSlotArm _ _ words => decide (words.length = 3)
  | .tileImageLand _ _ => true
  | .passCreditWaitEnd _ _ => true
  | .creditArrive _ => true
  | .gather _ desc => decide (desc.length = 6)
  | .gatherRowLand _ _ => true
  | .spdEccWriteback _ word => decide (word < 262144)
  | .spdClearDone _ => true
  | .sequencerLoad _ va => vaIn va
  | .sequencerStore _ va data _ => vaIn va && decide (1 ≤ data.length ∧ data.length ≤ 8)
  | .sequencerAtomic _ va _ _ _ => vaIn va
  | .volatileRead _ va => vaIn va
  | .acquireRead _ va => vaIn va
  | .acquireInvalidateDone _ => true
  | .rangeInvalidate _ lo hi => vaIn lo && decide (lo ≤ hi ∧ hi ≤ 2 ^ 48)
  | .rangeInvalidateDone _ => true
  | .fence _ => true
  | .fenceComplete _ => true
  | .remoteLoad _ _ _ off len => decide (off < 2 ^ 48 ∧ 1 ≤ len ∧ len ≤ 512)
  | .remoteStore _ _ _ off data _ => decide (off < 2 ^ 48 ∧ 1 ≤ data.length ∧ data.length ≤ 512)
  | .remoteAtomic _ _ _ off _ _ _ => decide (off < 2 ^ 48)
  | .remoteCopy _ _ _ _ off va _ => decide (off < 2 ^ 48) && vaIn va
  | .finalWriteCoreArrive _ => true
  | .finalWriteRelease _ => true
  | .finalWriteResend _ => true
  | .finalWriteSourceRelease _ => true
  | .finalTimeout _ => true
  | .sliceWriteLand _ _ => true
  | .sliceRead _ pa len _ => decide (pa < 2 ^ 52 ∧ 1 ≤ len)
  | .sliceAtomic _ pa _ _ _ _ _ => decide (pa < 2 ^ 52)
  | .kernelBoundary _ => true
  | .guardCommit _ => true
  | .guardCopyDone _ => true
  | .kvOpen _ => true
  | .kvAppend _ => true
  | .kvCommit _ => true
  | .kvFork _ => true
  | .kvTruncate _ => true
  | .kvClose _ => true
  | .kvPin _ => true
  | .kvFetch _ desc => decide (desc.length = 3)
  | .kpuJournalReplay _ => true
  | .kpuRgnCommit _ _ => true
  | .kpuRgnInitDone _ => true
  | .kpuRgnDestroyDone _ => true
  | .channelRetrainDone _ _ _ => true
  | .patrolScrubRead _ => true
  | .cchFlushStart => true
  | .cchFlushDone => true
  | .cchWayCommit => true
  | .memCommit => true
  | .cxlPortDown _ cause => decide (cause < 16)
  | .cxlPortUp _ _ _ _ rate width _ => decide (rate ≤ 7 ∧ width ≤ 16)
  | .cxlPortReset _ => true
  | .cxlEventLogRead _ _ => true
  | .dtuWalk _ _ va _ => vaIn va
  | .dtuWalkDone _ => true
  | .dtuInvalidate _ _ => true
  | .dtuInvalidateDone => true
  | .dtuCtxRootWrite _ _ => true
  | .sarabandeWake _ => true
  | .ringPoll _ _ => true
  | .slotTake _ hostWords => decide (hostWords.length = 0 ∨ hostWords.length = 16)
  | .rqCommit _ _ => true
  | .rqStart _ => true
  | .rqStop _ => true
  | .rqAbort _ => true
  | .rqRewind _ => true
  | .cqCommit _ => true
  | .seqSchedCommit => true
  | .cmdKernel _ => true
  | .cmdCopy _ => true
  | .cmdKvOps _ => true
  | .cmdNop _ => true
  | .kernelStart _ => true
  | .kernelBegin _ => true
  | .endInstruction _ => true
  | .endInstructionComplete _ => true
  | .completionRecordWrite _ => true
  | .cqControlReread _ _ => true
  | .msixHoldoffExpiry _ => true
  | .msixUnmask _ _ => true
  | .eventsDroppedReport => true
  | .residencyDecision _ => true
  | .beatInstruction _ => true
  | .coreStateSaveDone _ => true
  | .jobResume _ => true
  | .beatLimitExpiry _ => true
  | .hintInstruction _ _ us _ => decide (us < 65536)
  | .snapshotInstruction _ => true
  | .traceMarkInstruction _ _ _ => true
  | .kvOpInstruction _ desc => decide (desc.length = 6)
  | .partitionCommit _ => true
  | .partitionReset _ => true
  | .partitionResetDone _ => true
  | .rangeCommit => true
  | .rangeClearDone => true
  | .isoCommit => true
  | .isoApplied => true
  | .sealImportStart _ => true
  | .sealImportDone _ _ => true
  | .sealClearDone _ => true
  | .sealUnseal _ _ => true
  | .rollbackAdvance => true
  | .rollbackAdvanceDone _ => true
  | .getVersion _ => true
  | .getCapabilities _ => true
  | .negotiateAlgorithms _ => true
  | .getDigests _ => true
  | .getCertificate _ _ _ _ => true
  | .challenge _ _ => true
  | .getMeasurements _ _ _ => true
  | .keyExchange _ _ => true
  | .finish _ _ => true
  | .endSession _ => true
  | .spdmSignatureDone => true
  | .getTdispVersion _ => true
  | .getTdispCapabilities _ => true
  | .lockInterfaceRequest _ => true
  | .getDeviceInterfaceReport _ => true
  | .getDeviceInterfaceState _ => true
  | .startInterfaceRequest _ => true
  | .stopInterfaceRequest _ => true
  | .ideIntegrityFailure _ => true
  | .debugAccess _ cls _ addr _ _ => decide (1 ≤ cls ∧ cls ≤ 8 ∧ addr < 2 ^ 48)
  | .linkFrameSend _ => true
  | .linkFrameReceive _ f => frameIn f
  | .linkAckTimeout _ => true
  | .linkLoss _ cause => decide (cause < 16)
  | .linkLossOfSignal _ => true
  | .msgWrite _ => true
  | .msgRead _ => true
  | .msgReadData _ => true
  | .msgAtomic _ => true
  | .msgAtomicData _ => true
  | .msgWriteAck _ => true
  | .msgTile _ => true
  | .msgCredit _ => true
  | .msgRefused _ => true
  | .hello _ => true
  | .cert _ => true
  | .kem _ => true
  | .confirm _ => true
  | .rekey _ => true
  | .syncReq _ => true
  | .syncResp _ => true
  | .gang _ => true
  | .goodbye _ => true
  | .quiesce _ => true
  | .haltNotice _ => true
  | .releaseNotice _ => true
  | .linkCommit _ => true
  | .linkRekeyRequest _ => true
  | .linkTrainingDone _ _ _ => true
  | .linkRetry _ => true
  | .linkQuiesceDone _ => true
  | .linkRemapResume _ => true
  | .domainCommit => true
  | .windowCommit => true
  | .syncExchangeTimer => true
  | .syncHoldoverTimeout => true
  | .lnkInjCfgWrite _ _ => true
  | .perstAssert => true
  | .perstRelease => true
  | .hotReset => true
  | .flrPf => true
  | .flrVf _ => true
  | .mbxClaim => true
  | .mbxRelease _ => true
  | .mbxOwnerTimeout => true
  | .getReport _ => true
  | .imageBegin _ => true
  | .imageWrite _ => true
  | .imageVerify _ => true
  | .restart _ => true
  | .mbxOpDone _ => true
  | .pldmRequestUpdate => true
  | .pldmSensorRead _ => true
  | .inputVoltageChange _ => true
  | .regulatorFault _ _ => true
  | .coreGate _ => true
  | .coreSleep _ => true
  | .coreOff _ => true
  | .coreWakeDone _ => true
  | .deepSleepEntry => true
  | .deepSleepWake _ => true
  | .deepSleepWakeDone _ => true
  | .clockStepDone => true
  | .telemetrySample _ _ _ => true
  | .estimatorFit _ => true
  | .calibCompare _ => true
  | .telemetryLossTimeout _ => true
  | .currentWindowEval _ _ _ _ _ => true
  | .moduleLimiterTick _ _ => true
  | .hintLapse _ => true
  | .harpGate _ _ => true
  | .admissionSlot _ => true
  | .thermalLimiterTick _ _ => true
  | .thermalClamp _ _ => true
  | .thermalTrip _ _ => true
  | .pwrCommit => true
  | .clkCommit => true
  | .stageAonBootRom _ => true
  | .stageImageVerification => true
  | .stageFloorPlanLoad => true
  | .stageClocks _ => true
  | .stageMemoryTraining _ => true
  | .stageMemoryTest _ badRows _ => badRows.all (fun e => rowIn e.1)
  | .stageCoreKnownAnswer _ => true
  | .stageLinkTraining => true
  | .stageHostFunctionReady => true
  | .stageOperational => true
  | .bootNextCommit => true
  | .bootNextStored _ => true
  | .bootResetModule => true
  | .bootResetCompute => true
  | .bootResetCore _ => true
  | .computeResetDone => true
  | .fieldTestDue _ => true
  | .fieldTestDone _ _ => true
  | .rasPddCtlWrite _ => true
  | .maintActivityStart a _ _ => decide (1 ≤ a.val)
  | .rowRepairDone row _ => rowIn row
  | .maintOverdue a _ _ => decide (1 ≤ a.val)
  | .fatalFault _ => true
  | .haltStart leadNs => decide (leadNs < 65536)
  | .haltCut => true
  | .haltComplete => true
  | .haltRelease => true
  | .errorRecordFlash _ => true
  | .correctedRateCheck source unit _ => decide (source < 16 ∧ unit < 4096)
  | .cntClear _ => true
  | .cntSnapTake _ => true
  | .dbgSnapArm parts => decide (parts < 65536)
  | .dbgSnapshot => true
  | .watchpointEnable _ _ _ => true
  | .traceRecordWrite _ => true
  | .tscTick => true
  | .ppsEdge => true
  | .refLock => true
  | .timingInputChange _ _ => true
  | .ppsTimeout => true
  | .tscHoldoverTimeout => true
  | .tscSet _ => true
  | .tscPpsNextWrite _ => true
  | .leakSensorRead _ _ => true
  | .idcode => true
  | .bypass => true
  | .samplePreload _ => true
  | .extest => true
  | .clamp => true
  | .highz => true
  | .debugTransportOpen => true
  | .pcieLinkUp rate width => decide (1 ≤ rate ∧ rate ≤ 7 ∧ (width = 1 ∨ width = 2 ∨ width = 4 ∨ width = 8 ∨ width = 16))
  | .ideKmRequest _ _ => true
  | .vendorResetMessage _ => true
  | .vendorDefinedClaim => true
  | .prechargeInForce _ => true
  | .hostLinkReadCompletion _ _ => true
  | .completionTimeout _ => true

end Sys2Proof
end

