-- ==== Sys2Proof/Tests/Slice0.lean ====
section
/-!
SUPPORT. Sys2Proof/Tests/Slice0.lean: the model's own tests. Worked examples of the spec; a command out of range for each check of
WellFormed; and, for every statement with hypotheses, a state and operands that meet them, clause by clause, with what meets each
clause's branches. Where a hypothesis is about a constant of Config, which has no body, it is a premise of its theorem.
-/
set_option autoImplicit false
set_option linter.unusedVariables false
set_option Elab.async false
namespace Sys2Proof.Tests
open Sys2Proof Sys2Proof.Machine Sys2Proof.Safety

/-! ### Small states -/

/-- Write a list of register fields: field, indices, value. -/
def put (l : List (Fld × Nat × Nat × Nat)) (s : State) : State := l.foldl (fun s e => wr s e.1 e.2.1 e.2.2.1 e.2.2.2) s

/-- Write a list of fields of shadow copies. -/
def putS (l : List (Fld × Nat × Nat × Nat)) (s : State) : State :=
  l.foldl (fun s e => setShadow s (e.1.at e.2.1 e.2.2.1) (setBits (shadowWord s (e.1.at e.2.1 e.2.2.1)) e.1.lo e.1.width e.2.2.2)) s

/-- A command in progress on cores 0 and 1. -/
def cmdA : Cmd := ⟨0, List.replicate 16 0, .running, 0, 0, 0, 0, 0, 0, 0, 5, 0, 0, 0, [0, 1], [], none, false, 0⟩

/-- A module in operation: cores 0 to 7 usable, two stacks, partition 0 with cores 0 to 3, 4 GiB and rings 0 and 1, a committed
request ring 0 with a command in progress on cores 0 and 1, a completion ring 0, the host link up. Its registers are written
out as words; `test_live_registers` says which fields they hold. -/
def live : State :=
  { State.reset with
    regs := [(0x0, 0x14e49454e), (0x8, 0x281012), (0x10, 0xff), (0x100000, 0x10), (0x100100, 0x2), (0x100200, 0x2),
      (0x200058, 0x1), (0x200150, 0x2AAAAAAA8000), (0x280000, 0x1000000), (0x310008, 0x1000001), (0x310018, 0x3), (0x310050, 0x100000a),
      (0x320000, 0x10000), (0x320008, 0x1), (0x320018, 0x100000000), (0x400000, 0x10105), (0x400008, 0xf),
      (0x400030, 0x3), (0x400038, 0x3), (0x400040, 0x1), (0x400070, 0x1), (0x410000, 0x1), (0x410008, 0x4),
      (0x900000, 0xa), (0x901000, 0xa), (0x1000008, 0x100), (0x1000808, 0x100), (0x1010008, 0x100)]
    utime := 1000000000000
    cores := [(0, { Core.fresh with power := .running, ring := some 0, running := true, harpMask := 255 }),
      (1, { Core.fresh with power := .running, ring := some 0, running := true, harpMask := 255 })]
    ms := { MemSys.fresh with tlb := [⟨none, 0, 0, 0, 2 ^ 32, true⟩] }
    hst := { HostSide.fresh with linkUp := true, vfEnable := true, bme := [(0, true), (1, true)] }
    sch := ⟨[(0, { Ring.fresh with created := true, cmd := some cmdA })], [(0, ⟨true, 0, 0, false, 0⟩)], [], 0, []⟩ }

/-- `live` with ring 0's command in a phase. -/
def inPhase (p : Phase) : State := onRing live 0 (fun r => { r with cmd := some { cmdA with phase := p } })

/-- A pass descriptor: 8-bit operands, one K block, 2 x 2. -/
def descA : List W64 := [0x7020200010044, 0x800000000000, 0x0, 0x0, 0x0, 0x20001]

/-- The pass of that descriptor. -/
def passA : Pass := ⟨descA, 0, 0, false, [], [], [], true, true, 0⟩

/-- Harp 0 of core 0 of `live` changed. -/
def withHarp (f : Harp → Harp) : State := onHarp live 0 0 f

/-- Core 0 of `live` changed. -/
def withCore (f : Core → Core) : State := onCore live 0 f

/-- `live` with bytes in core 0's scratchpad. -/
def withSpd (a : Nat) (bs : List Byte) : State := { live with spd := spdWrite live.spd 0 a bs false }

/-- A range of 1.0 to 2.0 at the end of a table image at address 8. -/
def polyRange : State := withSpd (8 + 2048) [0, 0, 0x80, 0x3F, 0, 0, 0, 0x40]

/-- An output stage that sends a one-row tile to slot 3 of core 1. -/
def outA : OutStage := ⟨0, 1, 2, 1, 2, 1, false, false, false, [[1, 2, 3, 4, 5, 6, 7, 8]], [], [], [0x3000005, 0, 0, 0, 0, 0, 0, 0], [], [], 0⟩

/-- `live` with that output stage and credits of its target. -/
def sendA (n : Nat) : State := onCore (withHarp (fun h => { h with out := some outA })) 0 (fun x => { x with credits := [(19, n)] })

/-- Words of a landing slot: source core 0 of this module, depth 2, one consumer, 32 rows a buffer. -/
def slotA : List W64 := [0x20010200001000, 0, 0]

/-- A tile image for slot 3 with one row of 8 bytes. -/
def imgA : TileImage := ⟨[0, 0x2000100020001, 0, 0, 0, 0, 0, 0], [[1, 2, 3, 4, 5, 6, 7, 8]], [], [], 0, 0, 3, 0, 0, 1⟩

/-- A write in flight. -/
def flightA : Flight := ⟨7, .core 0, .mem 0x1000, [1, 2, 3], false, false, false, .moving, 0, some 0, some 0, none, none, none, none, none, false⟩

/-- `live` with writes in flight. -/
def withFlights (l : List Flight) : State := { live with ord := { live.ord with nextId := 20, flights := l } }

/-- A gather of two rows of 8 bytes from table 0x1000, with its indices at scratchpad address 0x200. -/
def gathD : List W64 := [0x200000008, 0x1000, 0, 0x20000000004, 0x8000, 0]

/-- That gather in progress: row 0 has index 1, row 1 names no row. -/
def gathA : Gather := ⟨gathD, [1, 0xFFFFFFFF], [0, 1], none, none, 0, 4⟩

/-- `live` with link 0 UP to module 5. -/
def linked : State := put [(R.LNK_STATUS_STATE, 0, 0, 4), (R.LNK_CFG_PEER_MODULE, 0, 0, 5)] live

/-- A line of core 0's data cache. -/
def lineA : CLine := ⟨0x40, List.replicate 64 7, false⟩

/-- `live` with words in memory at 0x1000 and a write of core 0 in flight there. -/
def loadA : State := { withFlights [{ flightA with dst := .mem 0x1002, data := [9, 9] }] with mem := memWrite live.mem 0x1000 [1, 2, 3, 4, 5, 6, 7, 8] false }

/-- A request of core 0 to module 5 awaiting its response. -/
def remoteA : Remote := ⟨3, 5, 2, 0, 0, some 0, 4, 0x10, 8, none, 9⟩

/-- `live` with region 0 ready: F16, 32 elements, one layer and pair, four sequences, 16 near pages. -/
def kvS : State :=
  let s := put [(R.KPU_RGN_STATUS_STATE, 0, 0, 2), (R.KPU_RGN_CFG_VALID, 0, 0, 1), (R.KPU_RGN_CFG_FMT, 0, 0, 2),
    (R.KPU_RGN_CFG_LAYERS, 0, 0, 1), (R.KPU_RGN_CFG_PAIRS, 0, 0, 1), (R.KPU_RGN_CFG_LP_SHIFT, 0, 0, 16),
    (R.KPU_RGN_CFG_SEQ_SHIFT, 0, 0, 21), (R.KPU_RGN_BASE_KV_BASE, 0, 0, 1), (R.KPU_RGN_SEQTAB_SEQ_TABLE_VA, 0, 0, 0x8000),
    (R.KPU_RGN_NEAR_NEAR_PA, 0, 0, 0x30), (R.KPU_RGN_META_META_PA, 0, 0, 0x600), (R.KPU_RGN_POOLS_NEAR_PAGES, 0, 0, 16),
    (R.KPU_RGN_LIMITS_MAX_SEQ, 0, 0, 4), (R.KPU_UNIT_STATUS_STATE, 0, 0, 1), (R.KPU_UNIT_STATUS_STATE, 1, 0, 1),
    (R.DTU_CTX_ROOT_VALID, 0, 0, 1), (R.DTU_CTX_ROOT_ROOT, 0, 0, 0x4000)] live
  { s with
    mem := memWrite (memWrite s.mem 0x400000 [1, 0x10, 0x40] false) 0x401008 [1, 0x20, 0x40] false
    ms := { s.ms with tlb := [⟨none, 0, 0, 0, 2 ^ 30, true⟩] } }

/-- Sequence q open with a length, its table page and its level-3 table. -/
def kvOpened (q len : Nat) (s : State) : State :=
  onKvReg s 0 (fun x => { x with
    near := [(0, [0, 2, 4]), (1, [1, 3])], seqs := [(q, { KvSeq.closed with isOpen := true, length := len, tables := [15] })]
    tabs := [(512 + q, some 0x3F0000)] })

/-- An operation of core 0 waits. -/
def kvOp1 (d : List W64) (s : State) : State := { s with kv := { s.kv with ops := [⟨4, some 0, 0, d⟩] } }

/-- A descriptor: code, sequence, position, parent, pin. -/
def kvD (op q pos parent pin : Nat) : List W64 :=
  [BitVec.ofNat 64 (op + q * 2 ^ 16), BitVec.ofNat 64 (pos + parent * 2 ^ 32 + pin * 2 ^ 56), 0, 0, 0, 0]

/-- A descriptor of an append of n positions at a position, from a virtual address. -/
def kvA (q pos n va : Nat) : List W64 := [BitVec.ofNat 64 (2 + q * 2 ^ 16), BitVec.ofNat 64 pos, BitVec.ofNat 64 (n * 2 ^ 32), BitVec.ofNat 64 va, 0, 0]

/-- A fetch of 2 rows of sequence 1 into scratchpad rows at 0x1000. -/
def fetchD : List W64 := [0x2000000000100, 0, 0x1000]

/-- `live` with memory-system state changed. -/
def withMs (f : MemSys → MemSys) : State := { live with ms := f live.ms }

/-- `live` with ring 0 free of a command and changed. -/
def ring0 (f : Ring → Ring) : State := onRing live 0 (fun r => f { r with cmd := none })

/-- `ring0` with a slot of these words taken. -/
def takenS (ws : List W64) : State := ring0 (fun r => { r with taken := [⟨4, ws, none⟩] })

/-- A KERNEL slot: one core entry at 0x2000. -/
def kernelW : List W64 := [0x101, 7, 0x2000, 1, 11, 12, 13, 14, 15, 16, 17, 18, 19, 20, 21, 22]

/-- Its core entry: core 0, harp 0, 8 bytes of code at 0x3000. -/
def entryW : List W64 := [0x10000, 0x3000, 8, 0, 0, 0, 0, 0]

/-- `takenS kernelW` with the entry in memory. -/
def kernelS : State := { takenS kernelW with mem := memWrite live.mem 0x2000 (wordsBytes entryW) false }

/-- A COPY slot within core 1's scratchpad. -/
def copyW : List W64 := [0x201, 7, 0x1000001000103, 0x100, 0x1F8, 0x80, 0, 0, 0, 0, 0, 0, 0, 0, 0, 0]

/-- A KV_OPS slot of two operations at 0x4000. -/
def kvW : List W64 := [0x301, 7, 0x4000, 2, 0, 0, 0, 0, 0, 0, 0, 0, 0, 0, 0, 0]

/-- A committed set of ring 1 in the shadow: core 2, save area at 1 GiB. -/
def ring1S : State := putS [(R.SEQ_RQ_CFG_VALID, 1, 0, 1), (R.SEQ_RQ_CFG_SHARES, 1, 0, 3), (R.SEQ_RQ_CORES_CORES, 1, 0, 4),
  (R.SEQ_RQ_BASE_ADDR, 1, 0, 0x100), (R.SEQ_RQ_SAVE_PA, 1, 0, 0x4000)] live

/-- A kernel command of core 0 that waits, with its entry. -/
def kcmd (p : Phase) : Cmd := { cmdA with phase := p, words := kernelW, cores := [0], entries := [entryW] }

/-- `live` with cores 0 and 1 free and ring 0's command as given. -/
def idleS (k : Cmd) : State :=
  { onRing live 0 (fun r => { r with cmd := some k }) with
    cores := [(0, { Core.fresh with power := .running }), (1, { Core.fresh with power := .running })] }

/-- `live` with ring 0's command past its boundary. -/
def boundedS : State := onRing live 0 (fun r => { r with cmd := some { cmdA with phase := .bounded, causes := 2 ^ 29 } })

/-- `live` with ring 0 pre-empted, core 0 stopped at a beat, and core 1 saved or not. -/
def preS (saved1 : Bool) : State :=
  { onRing live 0 (fun r => { r with preempt := true }) with
    cores := [(0, { Core.fresh with power := .running, ring := some 0, running := true, stopped := true }),
      (1, { Core.fresh with power := .running, ring := some 0, running := true, stopped := true, saved := saved1 })] }

/-- `live` with partition 1 written in the shadow: core 4, request ring 2, completion ring 2. -/
def shadowP1 : State :=
  putS [(R.PRT_CFG_VALID, 1, 0, 1), (R.PRT_CORE_CORES, 1, 0, 16), (R.PRT_RINGS_RQ, 1, 0, 4), (R.PRT_CQS_CQ, 1, 0, 4),
    (R.PRT_CFG_MEM_WEIGHT, 1, 0, 1), (R.PRT_CFG_LINK_WEIGHT, 1, 0, 1), (R.PRT_CFG_POWER_W, 1, 0, 100)] live

/-- `live` with bytes below 4 GiB, and with a range-table shadow that keeps entry 0 and adds entry 1. -/
def shadowRanges : State :=
  putS [(R.PRT_RANGE_BASE_VALID, 0, 0, 1), (R.PRT_RANGE_SIZE_GIB, 0, 0, 4), (R.PRT_RANGE_BASE_VALID, 1, 0, 1),
    (R.PRT_RANGE_BASE_BASE, 1, 0, 8), (R.PRT_RANGE_SIZE_GIB, 1, 0, 1)] { live with mem := memWrite live.mem 0x200000010 [1, 2, 3] false }

/-- A bundle in memory: a header for one recipient and a body of 8 bytes. -/
def bundleHead : List Byte := [0x31, 0x42, 0x53, 0x4E, 1, 1, 0, 0, 8, 0, 0, 0, 0, 0, 0, 0, 0, 0, 0, 0, 0, 0, 0, 0]

/-- `live` with partition 0 sealed and an import of that bundle asked for, its target at 64 KiB. -/
def importS : State :=
  put [(R.PRT_CFG_SEALED, 0, 0, 1), (R.SEC_IMP_SRC_OFFSET, 0, 0, 0x100000), (R.SEC_IMP_DST_OFFSET, 0, 0, 65536),
    (R.SEC_IMP_LEN_BYTES, 0, 0, 31640)] { live with mem := memWrite (memWrite live.mem 0x100000 bundleHead false) 65540 [9, 9] false }

/-- An import in progress. -/
def importRuns : State :=
  setImport (put [(R.SEC_IMP_STATUS_STATE, 0, 0, 1)] importS) 0 (some ⟨0x100000, 65536, 31640, 1, [], [], 0, []⟩)

/-- `live` with the attestation key ready. -/
def keyed : State := put [(R.SEC_STATUS_AK_READY, 0, 0, 1)] live

/-- `live` with host memory access off for partition 0 and an interface state, its stream 2 Secure. -/
def tdiS (n : Nat) : State := put [(R.PRT_STATUS_TDI_STATE, 0, 0, n)] { live with hst := { live.hst with ide := [0, 1, 2] } }

/-- Link 0 to module 5 in a state, with a record, and window 3 of partition 0 open to partition 1 of module 5. -/
def lk (st : Nat) (x : LinkRt) : State :=
  setLink (put [(R.LNK_STATUS_STATE, 0, 0, st), (R.LNK_CFG_PEER_MODULE, 0, 0, 5), (R.LNK_CFG_PEER_LINK, 0, 0, 7), (R.LNK_DOMAIN_MODULES, 0, 0, 8),
    (R.LNK_DOMAIN_DOMAIN_ID, 0, 0, 9), (R.LNK_CFG_ENABLE, 0, 0, 1), (R.LNK_CFG_REKEY_LOG2, 0, 0, 40),
    (R.LNK_STATUS_USABLE, 0, 0, 1), (R.LNK_TIME_SYNC_US, 0, 0, 20), (R.LNK_TIME_RETRY_MS, 0, 0, 10), (R.LNK_WIN_CFG_VALID, 3, 0, 1), (R.LNK_WIN_CFG_WRITE, 3, 0, 1),
    (R.LNK_WIN_CFG_SRC_PARTITION, 3, 0, 1), (R.LNK_WIN_SRC_SRC_MODULES, 3, 0, 32), (R.LNK_WIN_BASE_BASE, 3, 0, 1), (R.LNK_WIN_SIZE_SIZE, 3, 0, 16)]
    { live with mem := memWrite live.mem 0x10018 [1, 2, 3, 4, 5, 6, 7, 8] false }) 0 x

/-- A link record with credits. -/
def lx : LinkRt := { LinkRt.fresh with credits := fullCredits, peerId := [1, 2], txSeq := 65535, rxSeq := 4 }

/-- A link that is UP with messages received. -/
def inS (ms : List Msg) : State := lk 4 { lx with inq := ms }

/-- The state that a message is taken in. -/
def gotS (o : Option (Msg × State)) : State := (o.map (fun e => e.2)).getD State.reset

/-- A message through window 3. -/
def winMsg (type off : Nat) (data : List Byte) : Msg := ⟨type, 0, true, false, 1, 2, 0, 77, BitVec.ofNat 64 (3 * 2 ^ 46 + off), data⟩

/-- A CONTROL message. -/
def ctlMsg (sub flags : Nat) (data : List Byte) : Msg := (controlMsg sub flags data).msg

/-- A message to send, and a frame of module 5. -/
def outMsg : TxMsg := ⟨winMsg 1 0 [1, 2, 3], some 0⟩
def sentF (seq tries : Nat) : SentFrame := ⟨seq, [], none, [outMsg], [1, 2, 3, 4], none, tries⟩
def frameA (seq : Nat) : Frame := ⟨seq, 7, false, false, 1, 0, 1, 2, 3, 4, false, 0, packLines [] [outMsg] ++ List.replicate 32 0, [], 0, []⟩

/-- A request of core 0 to module 5, of a kind. -/
def askedOf (kind : Nat) : Remote := ⟨77, 5, kind, 0, 0, some 0, 4, 0x10, 8, none, 9⟩
def asked (kind : Nat) (s : State) : State := { s with lnk := { s.lnk with remote := [askedOf kind, { askedOf 1 with mtag := 78 }] } }

/-- A host read outstanding, of a kind. -/
def readA (kind : Nat) : HostRead := ⟨7, 1, 0x100, 8, kind, 1, some 0, if kind = 1 then some (.spd 1 0x200) else none, none, 0, none, none⟩

/-- `live` with a host read outstanding. -/
def readS (kind : Nat) : State :=
  { live with ord := { live.ord with reads := [{ readA 2 with id := 3 }, readA kind] } }

/-- `live` with a mailbox owner, an operation in progress or none, and an argument. -/
def mbx (owner busy op : Nat) (arg : W64) : State :=
  setReg (put [(R.BOOT_REPORT_STATE, 0, 0, 2), (R.PEX_MBX_STATUS_OWNER, 0, 0, owner), (R.PEX_MBX_STATUS_BUSY, 0, 0, busy)]
    { live with mgm := { live.mgm with op := op, arg := arg, size := 8192, buffer := [(0, 5), (1, 6), (7, 9)] } }) (R.PEX_MBX_ARG_OFFSET.at 0 0) arg

/-- `live` with core 0 idle in a power state, and core 1 and others off. -/
def idleCore (c : Nat) (p : CorePower) : State := setPower { live with cores := [(c, { Core.fresh with power := p })] } c p

/-- `live` without commands, its slices holding a line, idle for long. -/
def sleepy : State :=
  put [(R.PWR_LIMIT_DEEP_IDLE_MS, 0, 0, 5), (R.SEQ_RQ_STATUS_STATE, 0, 0, 1), (R.RAS_FIT_CFG_ENABLE, 0, 0, 0)]
    { live with cores := [(0, { Core.fresh with power := .gated }), (9, { Core.fresh with power := .running })],
                sch := { live.sch with rings := [] }, ms := { live.ms with lines := [], trainedAt := (List.range 96).map (fun k => (k, 10 ^ 12)) },
                phy := live.phy }

/-- `live` with a region record. -/
def regionS (k : Nat) (r : Region) : State := setRegion live k r

/-- `live` with a heavy hint of ring 0 in regions 0 and 1, and hints of another that have lapsed. -/
def hinted : State :=
  (fun s => { s with pwr := { s.pwr with hints := [⟨[0, 1], 2 * 10 ^ 12, 3, 1, some 0⟩, ⟨[0, 2], 5, 3, 2, some 1⟩, ⟨[3], 10 ^ 12, 2, 2, none⟩] } })
    (setRegion live 0 { Region.fresh with pre := true })

/-- `live` in stage n of bring-up. -/
def stageS (n : Nat) : State :=
  put [(R.BOOT_STATE_STATE, 0, 0, 0), (R.BOOT_STATE_STAGE, 0, 0, n), (R.BOOT_REPORT_STATE, n, 0, 1)]
    { live with flash := { live.flash with next := 2 + 16 * 9, log := [⟨1, 3, 0, 4, 0, ⟨0, 0, 0, 0, 0⟩, 5, []⟩] }, boot := { live.boot with hold := 0, stageAt := 0 } }

/-- `live` with core c under test, its settings as given. -/
def testS (c voff derate : Nat) : State :=
  put [(R.BOOT_FP_CORE_VOFF, c, 0, voff), (R.BOOT_FP_CORE_DERATE, c, 0, derate), (R.BOOT_FP_CORE_HARP_GOOD, c, 0, 255)]
    { live with cores := (live.cores.filter (fun e => decide (e.1 ≠ c))) ++ [(c, { Core.fresh with power := .running, testing := true })],
                ras := { live.ras with running := [(5, c, 0)] } }

/-- `live` with core 5 due for its test. -/
def dueS (c : Nat) : State := put [(R.RAS_FIT_CORE_DUE, c, 0, 1)] live

/-- `live` in a state of a halt. -/
def haltS (st : Nat) (f : Ras → Ras) : State := put [(R.RAS_HALT_STATUS_STATE, 0, 0, st), (R.RAS_HALT_CTL_LEAD_NS, 0, 0, 700)] { live with ras := f live.ras }
/-- `live` with a retrain that has waited since time 0. -/
def waitS (a : Nat) (o : Option Nat) : State := { live with ras := { live.ras with waits := [⟨a, 0, 3, 0, o⟩] } }
def rowA : BankRow := ⟨0, 3, 0, 0, 5⟩
def repairS : State := { live with ms := { live.ms with repairDue := [rowA] }, ras := { live.ras with running := [(3, 0, 3)] } }
/-- `live` with n corrected events of unit 7 of source 3, and the time of its last record. -/
def ceS (last n : Nat) : State :=
  { live with ras := { live.ras with rateAt := [(3 * 4096 + 7, last)], corrected := [(3 * 4096 + 7, [(1, 99), (4 * 10 ^ 12, n)])] }, utime := 5 * 10 ^ 12 }
def recW : List W64 := [5, 0x205, 0, 0, 0, 0, 0, 3]

/-- `live` with counters on cores 0 and 1. -/
def counted : State := put [(R.CNT_COUNT, 0, 5, 77), (R.CNT_COUNT, 1, 5, 88), (R.TSC_VALUE_TSC, 0, 0, 1000)] (onCore live 0 (fun x => { x with ident := (9, 1, 2) }))

/-- A core with trace records waiting, its buffer of 4 slots in partition 0. -/
def traced (w : Nat) : State :=
  put [(R.CNT_TRACE_CTL_ENABLE, 0, 0, 1), (R.CNT_TRACE_CTL_WRAP, 0, 0, w), (R.CNT_TRACE_CTL_SIZE_LOG2, 0, 0, 2), (R.CNT_TRACE_STATUS_WRITTEN, 0, 0, 5),
    (R.CNT_TRACE_VA_TRACE_VA, 0, 0, 0x100)] (onCore live 0 (fun x => { x with trace := [[1, 2, 3, 4], [5, 6, 7, 8]] }))

/-- `live` taking time from its inputs, in a state, at a TSC. -/
def timed (st good v : Nat) : State :=
  put [(R.TSC_CTL_SOURCE, 0, 0, 1), (R.TSC_STATUS_REF_IN, 0, 0, 1), (R.TSC_STATUS_REF_LOCKED, 0, 0, 1), (R.TSC_VALUE_TSC, 0, 0, v)]
    { live with time := { live.time with state := st, good := good, next := 5000 } }

/-! ### How hypotheses that are not plain evaluations are met -/

/-- A message of zeros. -/
def msg0 : Msg := { type := 0, channel := 0, final := false, poison := false, partition := 0, srcCore := 0, order := 0, mtag := 0, word1 := 0, data := [] }

theorem getD_eq {α : Type} {o : Option α} {d : α} (h : o.isSome = true) : o = some (o.getD d) := by
  cases o with
  | some a => rfl
  | none => exact absurd h Bool.false_ne_true

theorem getD_pair_eq {α β : Type} {o : Option (α × β)} {d : α × β} (h : o.isSome = true) : o = some ((o.getD d).1, (o.getD d).2) :=
  getD_eq h

/-- A check that answered. -/
def isOk {ε α : Type} : Except ε α → Bool
  | .ok _ => true
  | .error _ => false

/-- Its answer. -/
def getOk {ε α : Type} (d : α) : Except ε α → α
  | .ok a => a
  | .error _ => d

theorem getOk_eq {ε α : Type} {x : Except ε α} {d : α} (h : isOk x = true) : x = .ok (getOk d x) := by
  cases x with
  | ok a => rfl
  | error e => exact absurd h Bool.false_ne_true

theorem getOk_triple_eq {ε α β γ : Type} {x : Except ε (α × β × γ)} {d : α × β × γ} (h : isOk x = true) :
    x = .ok ((getOk d x).1, (getOk d x).2.1, (getOk d x).2.2) := getOk_eq h

/-- A registration of footprints that succeeded. -/
def isIn : Registered → Bool
  | .ok _ => true
  | .waits => false
  | .faults _ => false

/-- Its state. -/
def getIn : Registered → State
  | .ok a => a
  | .waits => State.reset
  | .faults a => a

theorem getIn_eq {x : Registered} (h : isIn x = true) : x = .ok (getIn x) := by
  cases x with
  | ok a => rfl
  | waits => exact absurd h Bool.false_ne_true
  | faults a => exact absurd h Bool.false_ne_true

/-- A Boolean test of the answer, where there is one. -/
def okAll {ε α : Type} (x : Except ε α) (p : α → Bool) : Bool :=
  match x with
  | .ok a => p a
  | .error _ => true

theorem of_okAll {ε α : Type} {x : Except ε α} {P : α → Prop} [DecidablePred P] (h : okAll x (fun a => decide (P a)) = true) :
    ∀ a, x = .ok a → P a := by
  rintro a rfl
  simpa [okAll] using h

theorem of_optAll {α : Type} {o : Option α} {P : α → Prop} [DecidablePred P] (h : o.all (fun a => decide (P a)) = true) :
    ∀ a, o = some a → P a := by
  rintro a rfl
  simpa using h

theorem of_all {α : Type} {l : List α} {P : α → Prop} [DecidablePred P] (h : l.all (fun a => decide (P a)) = true) :
    ∀ a ∈ l, P a := by
  simpa using h

theorem of_empty {α : Type} {l : List α} {P : α → Prop} (h : l.isEmpty = true) : ∀ a ∈ l, P a := by
  cases l with
  | nil => simp
  | cons a t => simp at h

theorem smap_look_of {α : Type} {d : Nat → α} {P : α → Prop} [DecidablePred P] (m : SMap α) (hd : ∀ k, P (d k))
    (h : m.all (fun e => decide (P e.2)) = true) (k : Nat) : P (SMap.look d m k) := by
  induction m with
  | nil => simpa [SMap.look] using hd k
  | cons e t ih =>
    simp only [List.all_cons, Bool.and_eq_true, decide_eq_true_eq] at h
    simp only [SMap.look]
    split
    · exact h.1
    · exact ih h.2

/-- Ring numbers below 64, tested in what the sparse maps list. -/
def ringsBelow (s : State) : Bool :=
  s.cores.all (fun e => decide (e.2.ring.all (fun w => decide (w < 64)) = true)) &&
  s.sch.rings.all (fun e => decide ((e.2.save.all (fun y => y.core.ring.all (fun w => decide (w < 64)))) = true)) &&
  s.sch.hold.all (fun h => h.ring.all (fun w => decide (w < 64)))

theorem ringsOk_of {s : State} (h : ringsBelow s = true) : RingsOk s := by
  simp only [ringsBelow, Bool.and_eq_true] at h
  obtain ⟨⟨h1, h2⟩, h3⟩ := h
  refine ⟨fun c w e => ?_, fun r y w hy e => ?_, fun h w hh e => ?_⟩
  · have := smap_look_of (d := fun _ => Core.fresh) (P := fun x => x.ring.all (fun w => decide (w < 64)) = true) s.cores
      (fun _ => rfl) h1 c
    rw [show SMap.look (fun _ => Core.fresh) s.cores c = coreAt s c from rfl, e] at this
    simpa using this
  · have := smap_look_of (d := fun _ => Ring.fresh)
      (P := fun x => (x.save.all (fun y => y.core.ring.all (fun w => decide (w < 64)))) = true) s.sch.rings (fun _ => rfl) h2 r
    rw [show SMap.look (fun _ => Ring.fresh) s.sch.rings r = ringAt s r from rfl] at this
    have := List.all_eq_true.mp this y hy
    rw [e] at this
    simpa using this
  · have := List.all_eq_true.mp h3 h hh
    rw [e] at this
    simpa using this

theorem kvReady_of {op n : Nat} {o : KvOp} {s : State}
    (h : (s.kv.ops[n]? = some o ∧ kvOpc o.desc = op ∧ kvHeldBack s n o = false ∧
      kvRegionBad s (kvRgn o.desc) (ringPart s o.ring) = none ∧ kvSq o.desc < (kvGeo s (kvRgn o.desc)).maxSeq) ∧
      okAll (Machine.translate s none (kvGeo s (kvRgn o.desc)).part ((kvGeo s (kvRgn o.desc)).seqtab + 64 * kvSq o.desc) true false)
        (fun pa => decide (cohPoisonAt s pa 64 = none)) = true) : KvReady op n o s :=
  ⟨h.1.1, h.1.2.1, h.1.2.2.1, h.1.2.2.2.1, h.1.2.2.2.2, of_okAll h.2⟩

theorem of_halves {α : Type} {l : List (List α × List α)} {P : α → Prop} [DecidablePred P]
    (h : l.all (fun q => (q.1 ++ q.2).all (fun r => decide (P r))) = true) : ∀ q ∈ l, ∀ r, r ∈ q.1 ∨ r ∈ q.2 → P r := by
  intro q hq r hr
  simpa using List.all_eq_true.mp (List.all_eq_true.mp h q hq) r (List.mem_append.mpr hr)

theorem of_ports {α : Type} {l : List α} {f : α → Place} {P : Nat → Prop} [DecidablePred P]
    (h : l.all (fun r => match f r with | .cxl n => decide (P n) | _ => true) = true) : ∀ r ∈ l, ∀ n, f r = .cxl n → P n := by
  intro r hr n e
  have := List.all_eq_true.mp h r hr
  rw [e] at this
  simpa using this

theorem of_entries {ε α : Type} {n : Nat} {A : Nat → Prop} {x : Nat → Except ε α} {P : α → Prop} [DecidablePred A] [DecidablePred P]
    (h : (List.range n).all (fun i => decide (A i) && isOk (x i) && okAll (x i) (fun a => decide (P a))) = true) :
    ∀ i < n, A i ∧ ∃ a, x i = .ok a ∧ P a := by
  intro i hi
  have := List.all_eq_true.mp h i (List.mem_range.mpr hi)
  simp only [Bool.and_eq_true, decide_eq_true_eq] at this
  cases hx : x i with
  | error e => simp [hx, isOk] at this
  | ok a => exact ⟨this.1.1, a, rfl, of_okAll this.2 a hx⟩

/-! ### What `live` holds -/

/-- The fields behind the register words of `live`. -/
theorem test_live_registers :
    ([(R.BOOT_STATE_STATE, 0, 0, 1), (R.BOOT_REPORT_STATE, 0, 0, 2), (R.BOOT_REPORT_STATE, 8, 0, 2), (R.PWR_STATUS_DIE_STATE, 0, 0, 1),
      (R.GLB_CORE_MAP_USABLE, 0, 0, 255), (R.GLB_GEOMETRY_STACKS_USABLE, 0, 0, 2), (R.MEM_STACK_STATUS_FITTED, 0, 0, 1),
      (R.MEM_STACK_STATUS_FITTED, 1, 0, 1), (R.MEM_STACK_STATUS_STATE, 0, 0, 2), (R.MEM_STACK_STATUS_STATE, 1, 0, 2), (R.PRT_CFG_VALID, 0, 0, 1),
      (R.PRT_CORE_CORES, 0, 0, 15), (R.PRT_STATUS_STATE, 0, 0, 1), (R.PRT_RINGS_RQ, 0, 0, 3), (R.PRT_CQS_CQ, 0, 0, 3),
      (R.PRT_REGIONS_REGIONS, 0, 0, 1), (R.PRT_RANGE_BASE_VALID, 0, 0, 1), (R.PRT_RANGE_SIZE_GIB, 0, 0, 4), (R.HRP_GOOD_SELF, 0, 0, 1),
      (R.HRP_GOOD_SELF, 0, 1, 1), (R.HRP_GOOD_SELF, 1, 0, 1), (R.SEQ_RQ_CFG_VALID, 0, 0, 1), (R.SEQ_RQ_STATUS_STATE, 0, 0, 2),
      (R.SEQ_RQ_STATUS_EXPECT_GEN, 0, 0, 1), (R.SEQ_RQ_STATUS_RESIDENT, 0, 0, 1), (R.SEQ_RQ_CORES_CORES, 0, 0, 3),
      (R.SEQ_CQ_CFG_VALID, 0, 0, 1), (R.SEQ_CQ_BASE_ADDR, 0, 0, 16), (R.SEQ_CQ_STATUS_GEN, 0, 0, 1), (R.CLK_STATUS_LOCKED, 0, 0, 1)]
      ).all (fun e => decide (rd live e.1 e.2.1 e.2.2.1 = e.2.2.2)) = true := by decide +kernel

/-! ### Worked examples of the spec -/

/-- 03_number_formats.md, the example after R84: ties round to even, an ordinary rescale, a zero point, saturation. -/
theorem test_rescale_examples :
    rescale 6 3 2 0 0xA = (4, false) ∧ rescale 10 3 2 0 0xA = (8, false) ∧ rescale (-6) 3 2 0 0xA = (-4, false) ∧
    rescale 52417 1288490189 40 0 0xA = (61, false) ∧ rescale 52417 1288490189 40 128 0xB = (189, false) ∧
    rescale 52417 1288490189 32 0 0xA = (127, true) := by decide +kernel

/-- 03_number_formats.md, beside R82: I32 2,147,483,647 converts to SF8a as +infinity under RNE and as 416 under RTZ, and either sets the
overflow flag. -/
theorem test_i32_to_sf8a :
    convertTo 0x4 false (fmtVal 0x9 0x7FFFFFFF) = (0x7E, flOverflow ||| flInexact) ∧
    (convertTo 0x4 true (fmtVal 0x9 0x7FFFFFFF)).1 = 0x7D ∧ (convertTo 0x4 true (fmtVal 0x9 0x7FFFFFFF)).2 &&& flOverflow ≠ 0 := by
  decide +kernel

/-- 03_number_formats.md, the example after R78: a block whose largest magnitude is 5.0 has the scale 1.75, code 0x7E, in SF4. -/
theorem test_block_scale : sx8Up 5 3 = 0x7E ∧ sx8Val 0x7E = .fin false 14 (-3) := by decide +kernel

/-- 02_harp_engine.md, the example of R46: 2^24 takes a block of 36 at scales 2^-4 and 1.25 to 16,777,218, rounded once. -/
theorem test_block_rounds_once :
    (f32.fma (.fin false 36 0) (.fin false 10 (-7)) (.fin false 16777216 0)).1 = 0x4B800001 := by decide +kernel

/-- 02_harp_engine.md, the example beside R57: HRP_EXC_ACC of harp 3 of core (5, 3) is at 0x013B_1820. -/
theorem test_window_of_core_59 : R.HRP_EXC_ACC_FLAGS.at (3 * 18 + 5) 3 = 0x013B1820 := by decide

/-- A module with twelve stacks. -/
def twelve : State :=
  put ([(R.GLB_GEOMETRY_STACKS_USABLE, 0, 0, 12)] ++ (List.range 12).map (fun k => (R.MEM_STACK_STATUS_FITTED, k, 0, 1))) live

/-- 08_memory_system.md, the example after R214: 0x0040_0000_1840 is in stack 11, channel 2, first die, bank 21, row 21,845. -/
theorem test_address_example :
    placeOf twelve 0x4000001840 = .near ∧ bankRowOf twelve 0x4000001840 = ⟨11, 2, 0, 21, 21845⟩ := by decide +kernel

/-- 04_fused_chains.md, the example of R125: h = 0x3F80_A000 and u = 0x3F80_4000 multiply to 0x3F80_E050, which is 0x3C07 in F16; rounded
to BF16 first they give 0x3F81_0000, which is 0x3C08. -/
theorem test_gate_example :
    (f32.mul (f32.unpack 0x3F80A000) (f32.unpack 0x3F804000)).1 = 0x3F80E050 ∧ (convertTo 0x2 false (f32.unpack 0x3F80E050)).1 = 0x3C07 ∧
    (convertTo 0x3 false (f32.unpack 0x3F80A000)).1 = 0x3F81 ∧ (convertTo 0x3 false (f32.unpack 0x3F804000)).1 = 0x3F80 ∧
    (convertTo 0x2 false (f32.unpack 0x3F810000)).1 = 0x3C08 := by decide +kernel

/-! ### Commands that are not well formed -/

/-- A bank row of a stack that no module has. -/
def noRow : BankRow := ⟨12, 0, 0, 0, 0⟩

/-- One command for each check of `wellFormed` on a register, window or configuration access, out of range there. -/
theorem test_ill_formed_accesses :
    wellFormed (.registerWrite 0 0 0 0 false) = false ∧ wellFormed (.registerReadClear 0 0x4000000 8) = false ∧
    wellFormed (.barAtomicop 0 1 0 8 .swap 0 0) = false ∧ wellFormed (.barAtomicop 0 2 0 5 .swap 0 0) = false ∧
    wellFormed (.barAtomicop 0 2 (2 ^ 41) 8 .swap 0 0) = false ∧ wellFormed (.bar2Read 0 0 0) = false ∧
    wellFormed (.bar2Read 0 0x4000000 8 true) = false ∧ wellFormed (.bar2Write 0 0 [] false false) = false ∧
    wellFormed (.bar4Write 0 0x4000000 [1] false) = false ∧ wellFormed (.configRequest 0 .totalVFs (some (2 ^ 32))) = false ∧
    wellFormed (.debugAccess 0 0 0 0 0 []) = false ∧ wellFormed (.dbgSnapArm 65536) = false := by decide +kernel

/-- The same for the checks on commands of a core. -/
theorem test_ill_formed_core :
    wellFormed (.passIssue 0 0 [1, 2]) = false ∧ wellFormed (.harpKStep 0 0 0 true [(262144, false)]) = false ∧
    wellFormed (.fiddleInstruction 0 (.move 1 (2 ^ 21) 0)) = false ∧ wellFormed (.polyTableLoad 0 0 (2 ^ 21)) = false ∧
    wellFormed (.landingSlotArm 0 0 []) = false ∧ wellFormed (.gather 0 []) = false ∧ wellFormed (.spdEccWriteback 0 262144) = false ∧
    wellFormed (.sequencerLoad 0 (2 ^ 48)) = false ∧ wellFormed (.sequencerStore 0 0 [] false) = false ∧
    wellFormed (.sequencerAtomic 0 (2 ^ 48) .swap 0 0) = false ∧ wellFormed (.volatileRead 0 (2 ^ 48)) = false ∧
    wellFormed (.acquireRead 0 (2 ^ 48)) = false ∧ wellFormed (.rangeInvalidate 0 2 1) = false ∧
    wellFormed (.remoteLoad 0 0 0 0 0) = false ∧ wellFormed (.remoteStore 0 0 0 0 [] false) = false ∧
    wellFormed (.remoteAtomic 0 0 0 (2 ^ 48) .swap 0 0) = false ∧ wellFormed (.remoteCopy 0 true 0 0 0 (2 ^ 48) 1) = false ∧
    wellFormed (.kvFetch 0 []) = false ∧ wellFormed (.kvOpInstruction 0 []) = false ∧ wellFormed (.hintInstruction 0 0 65536 0) = false := by
  decide +kernel

/-- The same for the checks on commands of the rest of the module. -/
theorem test_ill_formed_module :
    wellFormed (.sliceRead (.core 0) (2 ^ 52) 1 ⟨[], 0, 0⟩) = false ∧ wellFormed (.sliceAtomic (.core 0) (2 ^ 52) .swap 0 0 false ⟨[], 0, 0⟩) = false ∧
    wellFormed (.dtuWalk (.core 0) 0 (2 ^ 48) false) = false ∧ wellFormed (.cxlPortDown 0 16) = false ∧
    wellFormed (.cxlPortUp 0 true true 0 8 16 0) = false ∧ wellFormed (.slotTake 0 [1]) = false ∧ wellFormed (.linkLoss 0 16) = false ∧
    wellFormed (.linkFrameReceive 0 { frameA 0 with linesUsed := 26 }) = false ∧ wellFormed (.stageMemoryTest 0 [(noRow, 0)] false) = false ∧
    wellFormed (.maintActivityStart 0 0 0) = false ∧ wellFormed (.maintOverdue 0 0 0) = false ∧ wellFormed (.rowRepairDone noRow true) = false ∧
    wellFormed (.haltStart 65536) = false ∧ wellFormed (.correctedRateCheck 16 0 0) = false ∧ wellFormed (.pcieLinkUp 8 1) = false := by
  decide +kernel

/-! ### Hypotheses that are met -/

/-- Hypotheses of RegisterAccesses are met: one state and operands for each clause that has hypotheses. -/
theorem witness_RegisterAccesses :
    (∃ (fn : FnIx) (off : Nat) (w v : W64) (s : State) (r : RegRow) (f : FldRow), NotHeld s ∧ aligned64 off 8 = true ∧ served s fn off
      true = true ∧ windowAwake s fn off true = true ∧ (windowOf off = none ∨ fn.val ≠ 0) ∧ within off 0x380000 0x8100 = false ∧ within
      off 0xB10000 0x10000 = false ∧ off ≠ R.DTU_INVAL_VA_VA.at 0 0 ∧ v = (if fn.val = 0 then w else vfWord s (fn - 1) off w) ∧ actionAt
      off = none ∧ regAt off = some r ∧ f ∈ r.fields) ∧
    (∃ (fn : FnIx) (off size : Nat) (v : W64) (s : State), NotHeld s ∧ windowAwake s fn off true = true ∧ (aligned64 off size && served
      s fn off true) = false) ∧
    (∃ (fn : FnIx) (off : Nat) (s : State), NotHeld s ∧ windowAwake s fn off false = true ∧ aligned64 off 8 = true ∧ served s fn off
      false = true) ∧
    (∃ (off : Nat) (s : State), NotHeld s ∧ aligned64 off 8 = true ∧ served s 0 off false = true ∧ windowOf off = none ∧ within off
      0x380000 0x8100 = false ∧ within off 0xB10000 0x10000 = false ∧ off ≠ R.DTU_INVAL_STATUS_PENDING.at 0 0 ∧ ((∀ f ∈ readFieldsA ++
      readFieldsB, f.fld.ixOf f.n1 f.n2 off = none)) ∧ ((∀ f ∈ freeFields, f.fld.ixOf f.n1 f.n2 off = none))) ∧
    (∃ (fn : FnIx) (off size : Nat) (s : State), NotHeld s ∧ windowAwake s fn off false = true ∧ (aligned64 off size && served s fn off
      false) = false) :=
  ⟨⟨0, R.SEQ_RQ_CFG_VALID.at 0 0, 0x0102030405060701, 0x0102030405060701, live, (regAt (R.SEQ_RQ_CFG_VALID.at 0 0)).getD ⟨0, 0, 0, 0, 0, 0, []⟩, (((regAt (R.SEQ_RQ_CFG_VALID.at 0 0)).getD ⟨0, 0, 0, 0, 0, 0, []⟩).fields.getD 0 ⟨0, 0, .rw, 0, 0⟩), by unfold NotHeld; decide +kernel, by decide +kernel⟩,
   ⟨0, 5, 4, 7, live, by unfold NotHeld; decide +kernel, by decide +kernel⟩,
   ⟨0, 0, live, by unfold NotHeld; decide +kernel, by decide +kernel⟩,
   ⟨R.SEQ_RQ_CFG_VALID.at 0 0, live, by unfold NotHeld; decide +kernel, by decide +kernel⟩,
   ⟨0, 3, 8, live, by unfold NotHeld; decide +kernel, by decide +kernel⟩⟩

def state_Bar2AndBar4_2 : State :=
  { live with mem := memWrite live.mem 0x1004 [5,6,7] false }

def state_Bar2AndBar4_8 : State :=
  { live with mem := memWrite live.mem 0x1008 [5,6,7,8,0,0,0,1] false }

/-- Hypotheses of Bar2AndBar4 are met: one state and operands for each clause that has hypotheses. -/
theorem witness_Bar2AndBar4 :
    (∃ (fn : FnIx) (off len : Nat) (s : State), NotHeld s ∧ hostWritesLeft s = false ∧ bar2Waits s fn off len = false) ∧
    (∃ (fn : FnIx) (off len pa : Nat) (s : State), NotHeld s ∧ hostWritesLeft s = false ∧ bar2Waits s fn off len = false ∧ 0 < len ∧ off
      / 64 = (off + len - 1) / 64 ∧ bar2Addr s fn off = some pa ∧ sealedPa s pa = false) ∧
    (∃ (fn : FnIx) (off len : Nat) (s : State), NotHeld s ∧ hostWritesLeft s = false ∧ bar4Waits s fn off len = false) ∧
    (∃ (fn : FnIx) (off pa : Nat) (data : List Byte) (poison relaxed : Bool) (s : State), NotHeld s ∧ data ≠ [] ∧ off / 64 = (off +
      data.length - 1) / 64 ∧ bar2Addr s fn off = some pa ∧ sealedPa s pa = false) ∧
    (∃ (fn : FnIx) (off base size : Nat) (data : List Byte) (poison : Bool) (s : State), NotHeld s ∧ bar4Ring s fn off = some (base,
      size) ∧ data ≠ [] ∧ off % 0x100000 + data.length ≤ size ∧ (base + off % 0x100000) / 64 = (base + off % 0x100000 + data.length - 1)
      / 64 ∧ sealedPa s (base + off % 0x100000) = false) ∧
    (∃ (fn : FnIx) (bar off size : Nat) (op : AtomicOp) (x cmp : W64) (s : State), dieSleeps s = false ∧ (bar ≠ 2 ∨ size ≠ 8 ∨ op =
      .addF64)) ∧
    (∃ (fn : FnIx) (off : Nat) (op : AtomicOp) (x cmp : W64) (s : State), op ≠ .addF64 ∧ NotHeld s ∧ hostWritesLeft s = false ∧
      bar2Waits s fn off 8 = false ∧ atomicAddr s fn off = none) ∧
    (∃ (fn : FnIx) (off pa : Nat) (op : AtomicOp) (x cmp : W64) (s : State), op ≠ .addF64 ∧ NotHeld s ∧ hostWritesLeft s = false ∧
      bar2Waits s fn off 8 = false ∧ atomicAddr s fn off = some pa ∧ cohPoisonAt s pa 8 = none) :=
  ⟨⟨1, 0x1000, 5, live, by unfold NotHeld; decide +kernel, by decide +kernel⟩,
   ⟨1, 0x1003, 5, 0x1003, state_Bar2AndBar4_2, by unfold NotHeld; decide +kernel, by decide +kernel⟩,
   ⟨0, 0x40, 5, live, by unfold NotHeld; decide +kernel, by decide +kernel⟩,
   ⟨1, 0x1038, 0x1038, [1,2,3,4,5,6,7,8], false, true, live, by unfold NotHeld; decide +kernel, by decide +kernel⟩,
   ⟨0, 0x40, 0, 2048, [9,8,7], true, live, by unfold NotHeld; decide +kernel, by decide +kernel⟩,
   ⟨0, 2, 8, 8, .addF64, 1, 2, live, by decide +kernel⟩,
   ⟨0, 0x1001, .swap, 1, 2, live, by decide +kernel, by unfold NotHeld; decide +kernel, by decide +kernel⟩,
   ⟨1, 0x1008, 0x1008, .addI64, 1, 2, state_Bar2AndBar4_8, by decide +kernel, by unfold NotHeld; decide +kernel, by decide +kernel⟩⟩

def state_ConfigAndHeld_1 : State :=
  put [(R.BOOT_REPORT_STATE,0,0,1)] live

def state_ConfigAndHeld_5 : State :=
  { live with ord := { live.ord with held := [.read 0 4 8, .read 0 3 8] } }

def state_ConfigAndHeld_6 : State :=
  put [(R.PRT_CFG_HOST_ACCESS,0,0,1)] ({ live with ord := { live.ord with held := [.read 0 4 8, .bar2write 0 0x123 [1,2,3] true false] } })

/-- Hypotheses of ConfigAndHeld are met: one state and operands for each clause that has hypotheses. -/
theorem witness_ConfigAndHeld :
    (∃ (fn : FnIx) (field : CfgField) (w : Option Nat) (s : State), sidebandUp s = false) ∧
    (∃ (fn : FnIx) (s : State), sidebandUp s = true) ∧
    (∃ (v : Nat) (s : State), sidebandUp s = true ∧ 10 ≤ v ∧ v ≤ 4000) ∧
    (∃ (v : Nat) (s : State), sidebandUp s = true) ∧
    (∃ (n : Nat) (fn : FnIx) (off size : Nat) (s : State), s.ord.held[n]? = some (.read fn off size) ∧ dieSleeps s = false ∧
      (s.ord.held.take n).any Held.posted = false ∧ windowAwake s fn off false = true ∧ (aligned64 off size && served s fn off false) =
      false) ∧
    (∃ (n : Nat) (fn : FnIx) (off pa : Nat) (data : List Byte) (poison relaxed : Bool) (s : State), s.ord.held[n]? = some (.bar2write fn
      off data poison relaxed) ∧ dieSleeps s = false ∧ (s.ord.held.take n).any Held.posted = false ∧ data ≠ [] ∧ off / 64 = (off +
      data.length - 1) / 64 ∧ bar2Addr s fn off = some pa ∧ sealedPa s pa = false) :=
  ⟨⟨3, .vfEnable, some 1, state_ConfigAndHeld_1, by decide +kernel⟩,
   ⟨1, live, by decide +kernel⟩,
   ⟨10, live, by decide +kernel⟩,
   ⟨1, live, by decide +kernel⟩,
   ⟨1, 0, 3, 8, state_ConfigAndHeld_5, by decide +kernel⟩,
   ⟨1, 0, 0x123, 0x123, [1,2,3], true, false, state_ConfigAndHeld_6, by decide +kernel⟩⟩

def state_PassesQueueAndStart_1 : State :=
  withHarp (fun h => { h with queue := [[1], [2], [3]] })

def state_PassesQueueAndStart_2 : State :=
  withHarp (fun h => { h with queue := [[1], [2], [3], [4]] })

def state_PassesQueueAndStart_3 : State :=
  withHarp (fun h => { h with queue := [descA, [1]] })

def state_PassesQueueAndStart_4 : State :=
  onCore (onHarp live 0 3 (fun h => { h with queue := [[1]] })) 0 (fun x => { x with harpMask := 0xF7 })

/-- Hypotheses of PassesQueueAndStart are met: one state and operands for each clause that has hypotheses. -/
theorem witness_PassesQueueAndStart :
    (∃ (c : CoreIx) (h : HarpIx) (desc : List W64) (s : State), canIssue s c = true ∧ (harpAt s c h).queue.length < 4) ∧
    (∃ (c : CoreIx) (h : HarpIx) (desc : List W64) (s : State), (canIssue s c = false ∨ 4 ≤ (harpAt s c h).queue.length)) ∧
    (∃ (c : CoreIx) (h : HarpIx) (d : List W64) (rest : List (List W64)) (s u : State), (harpAt s c h).queue = d :: rest ∧ (harpAt s c
      h).next = none ∧ (coreAt s c).running = true ∧ (coreAt s c).stopped = false ∧ (coreAt s c).harpMask / 2 ^ h.val % 2 = 1 ∧
      passFieldsBad d = false ∧ passChainBad (coreAt s c) d = false ∧ passPlaceBad (coreAt s c) (harpAt s c h).prev d = false ∧ register
      s c (passFootprint (passOwner c h (passOf (coreAt s c) (harpAt s c h) d)) h d) = .ok u) ∧
    (∃ (c : CoreIx) (h : HarpIx) (s : State), (harpAt s c h).queue ≠ [] ∧ (harpAt s c h).next = none ∧ (coreAt s c).running = true ∧
      (coreAt s c).stopped = false ∧ (coreAt s c).harpMask / 2 ^ h.val % 2 = 0) :=
  ⟨⟨0, 0, [5, 6], state_PassesQueueAndStart_1, by decide +kernel⟩,
   ⟨0, 0, [5], state_PassesQueueAndStart_2, by decide +kernel⟩,
   (have h8 : isIn (register (state_PassesQueueAndStart_3) (0) (passFootprint (passOwner (0) (0) (passOf (coreAt (state_PassesQueueAndStart_3) (0)) (harpAt (state_PassesQueueAndStart_3) (0) (0)) (descA))) (0) (descA))) = true := (by decide +kernel); ⟨0, 0, descA, [[1]], state_PassesQueueAndStart_3, (getIn (register (state_PassesQueueAndStart_3) (0) (passFootprint (passOwner (0) (0) (passOf (coreAt (state_PassesQueueAndStart_3) (0)) (harpAt (state_PassesQueueAndStart_3) (0) (0)) (descA))) (0) (descA)))), by decide +kernel, by decide +kernel, by decide +kernel, by decide +kernel, by decide +kernel, by decide +kernel, by decide +kernel, by decide +kernel, getIn_eq h8⟩),
   ⟨0, 3, state_PassesQueueAndStart_4, by decide +kernel⟩⟩

def state_SetFillAndDrain_1 : State :=
  withHarp (fun h => { h with next := some { passA with filled := false } })

def state_SetFillAndDrain_2 : State :=
  withHarp (fun h => { h with next := some { passA with filled := false, desc := descA }, set0 := { AccSet.fresh with use := .filling } })

def state_SetFillAndDrain_3 : State :=
  (fun s => { s with spd := spdWrite s.spd 0 0x103 [7] false }) (withHarp (fun h => { h with next := some { passA with filled := false, desc := [0x70202000100bb, 0x800000000000, 0x0, 0x20000000100, 0x0, 0x20001] }, set0 := { AccSet.fresh with use := .filling } }))

def state_SetFillAndDrain_4 : State :=
  (fun s => { s with spd := spdWrite s.spd 0 0x10004 [7,8,9,1] false }) (withHarp (fun h => { h with next := some { passA with filled := false, desc := [0x7020200011044, 0x800000000000, 0x0, 0x0, 0x10000, 0x20001] }, set0 := { AccSet.fresh with use := .filling } }))

def state_SetFillAndDrain_5 : State :=
  withHarp (fun h => { h with due := [⟨0, none⟩], set0 := { AccSet.fresh with use := .active, flags := 5, rows := 3, desc := descA } })

def state_SetFillAndDrain_6 : State :=
  withHarp (fun h => { h with drain := some ⟨0, none⟩, set0 := { AccSet.fresh with use := .draining, flags := 5, rows := 3, desc := descA } })

/-- Hypotheses of SetFillAndDrain are met: one state and operands for each clause that has hypotheses. -/
theorem witness_SetFillAndDrain :
    (∃ (c : CoreIx) (h : HarpIx) (p : Pass) (s : State), (harpAt s c h).next = some p ∧ pFill p.desc ≠ 2 ∧ p.filled = false ∧ ((harpAt s
      c h).set p.set).use = .empty ∧ ((pFill p.desc = 0 ∨ fillReady (coreAt s c) p.desc = true))) ∧
    (∃ (c : CoreIx) (h : HarpIx) (p : Pass) (s : State), (harpAt s c h).next = some p ∧ ((harpAt s c h).set p.set).use = .filling ∧
      pFill p.desc = 0 ∧ zeroRanges p.desc = []) ∧
    (∃ (c : CoreIx) (h : HarpIx) (p : Pass) (s : State), (harpAt s c h).next = some p ∧ ((harpAt s c h).set p.set).use = .filling ∧
      pFill p.desc = 0 ∧ (pFmtA p.desc = 0xB ∨ pFmtA p.desc = 0xD) ∧ SpdQuiet c s ∧ zpPoison s.spd c p.desc = false) ∧
    (∃ (c : CoreIx) (h : HarpIx) (p : Pass) (s : State), (harpAt s c h).next = some p ∧ ((harpAt s c h).set p.set).use = .filling ∧
      pFill p.desc = 1 ∧ SpdQuiet c s ∧ fillPoison s.spd c (pFillAddr p.desc) = false ∧ zpPoison s.spd c p.desc = false) ∧
    (∃ (c : CoreIx) (h : HarpIx) (d : Due) (rest : List Due) (s u : State), (harpAt s c h).due = d :: rest ∧ (harpAt s c h).drain = none
      ∧ (harpAt s c h).epi = none ∧ (harpAt s c h).out = none ∧ register s c (epiFootprint (coreAt s c) (10000 + hk c h) h ((harpAt s c
      h).set d.set).desc (d.partner.map (fun q => ((harpAt s c h).set q).desc))) = .ok u) ∧
    (∃ (c : CoreIx) (h : HarpIx) (d : Due) (s : State), (harpAt s c h).drain = some d ∧ d.partner = none) :=
  ⟨⟨0, 0, { passA with filled := false, desc := descA }, state_SetFillAndDrain_1, by decide +kernel⟩,
   ⟨0, 0, { passA with filled := false, desc := descA }, state_SetFillAndDrain_2, by decide +kernel⟩,
   ⟨0, 0, { passA with filled := false, desc := [0x70202000100bb, 0x800000000000, 0x0, 0x20000000100, 0x0, 0x20001] }, state_SetFillAndDrain_3, by decide +kernel, by decide +kernel, by decide +kernel, by decide +kernel, by unfold SpdQuiet; decide +kernel, by decide +kernel⟩,
   ⟨0, 0, { passA with filled := false, desc := [0x7020200011044, 0x800000000000, 0x0, 0x0, 0x10000, 0x20001] }, state_SetFillAndDrain_4, by decide +kernel, by decide +kernel, by decide +kernel, by unfold SpdQuiet; decide +kernel, by decide +kernel⟩,
   (have h4 : isIn (register (state_SetFillAndDrain_5) (0) (epiFootprint (coreAt (state_SetFillAndDrain_5) (0)) (10000 + hk (0) (0)) (0) ((harpAt (state_SetFillAndDrain_5) (0) (0)).set (⟨0, none⟩ : Due).set).desc ((⟨0, none⟩ : Due).partner.map (fun q => ((harpAt (state_SetFillAndDrain_5) (0) (0)).set q).desc)))) = true := (by decide +kernel); ⟨0, 0, ⟨0, none⟩, [], state_SetFillAndDrain_5, (getIn (register (state_SetFillAndDrain_5) (0) (epiFootprint (coreAt (state_SetFillAndDrain_5) (0)) (10000 + hk (0) (0)) (0) ((harpAt (state_SetFillAndDrain_5) (0) (0)).set (⟨0, none⟩ : Due).set).desc ((⟨0, none⟩ : Due).partner.map (fun q => ((harpAt (state_SetFillAndDrain_5) (0) (0)).set q).desc))))), by decide +kernel, by decide +kernel, by decide +kernel, by decide +kernel, getIn_eq h4⟩),
   ⟨0, 0, ⟨0, none⟩, state_SetFillAndDrain_6, by decide +kernel⟩⟩

def state_HarpStepsAndFaults_1 : State :=
  put [(R.PWR_REGION_STAT_DUTY, 0, 0, 3)] (withHarp (fun h => { h with active := some passA }))

def state_HarpStepsAndFaults_2 : State :=
  put [(R.PWR_REGION_STAT_DUTY, 0, 0, 16)]  (withHarp (fun h => { h with active := some { passA with desc := [0x7020200010022, 0x800000000000, 0x0, 0x0, 0x0, 0x20001] } }))

def state_HarpStepsAndFaults_3 : State :=
  put [(R.PWR_REGION_STAT_DUTY, 0, 0, 16)]  (withHarp (fun h => { h with active := some passA }))

def state_HarpStepsAndFaults_4 : State :=
  (fun s => { s with spd := spdWrite s.spd 0 0x803f [0x40] false }) ((fun s => { s with spd := spdWrite s.spd 0 0x801f [0x40] false }) ((fun s => { s with spd := spdWrite s.spd 0 63 [0x38] false }) ((fun s => { s with spd := spdWrite s.spd 0 31 [0x38] false }) (put [(R.PWR_REGION_STAT_DUTY, 0, 0, 16)]  (withHarp (fun h => { h with active := some { passA with desc := [0x7020200020044, 0x800000000000, 0x0, 0x0, 0x0, 0x20001], k := 31, blkA := List.replicate 31 [0x38, 0x38], blkB := List.replicate 31 [0x38, 0x40] }, set0 := { AccSet.fresh with use := .active, acc := [(33, 0x3F800000)] } }))))))

def state_HarpStepsAndFaults_5 : State :=
  put [(R.PWR_REGION_STAT_DUTY, 0, 0, 16)]  (withHarp (fun h => { h with active := some { passA with k := 31, desc := [0x7020200014044, 0x800000000000, 0x0, 0x0, 0x0, 0x20001] } }))

def state_HarpStepsAndFaults_6 : State :=
  withHarp (fun h => { h with active := some passA })

def state_HarpStepsAndFaults_7 : State :=
  onRing live 0 (fun r => { r with cmd := some (cmdA.cause 5 0 |> fun k => { k with phase := .stopping }) })

/-- Hypotheses of HarpStepsAndFaults are met: one state and operands for each clause that has hypotheses. -/
theorem witness_HarpStepsAndFaults :
    (∃ (c : CoreIx) (h : HarpIx) (fc : Fin 16) (ready : Bool) (s : State), ((harpAt s c h).active.isSome || (harpAt s c h).next.isSome)
      = true ∧ (coreAt s c).power = .running ∧ coreCmdRuns s c = true ∧ stallReason s c fc ready (harpAt s c h) ≠ 0 ∧ stopAsked s c =
      false ∧ RingsOk s) ∧
    (∃ (c : CoreIx) (h : HarpIx) (fc : Fin 16) (ready : Bool) (p : Pass) (s : State), (harpAt s c h).active = some p ∧ (coreAt s
      c).power = .running ∧ coreCmdRuns s c = true ∧ stallReason s c fc ready (harpAt s c h) = 0 ∧ pClass p.desc = 16 ∧ p.half = false) ∧
    (∃ (c : CoreIx) (h : HarpIx) (fc : Fin 16) (ready : Bool) (p : Pass) (s : State), (harpAt s c h).active = some p ∧ (coreAt s
      c).power = .running ∧ coreCmdRuns s c = true ∧ stallReason s c fc ready (harpAt s c h) = 0 ∧ pClass p.desc = 8 ∧ pTrap p.desc =
      false ∧ SpdQuiet c s ∧ p.k + 1 < pK p.desc) ∧
    (∃ (c : CoreIx) (h : HarpIx) (fc : Fin 16) (ready : Bool) (p : Pass) (i j : Nat) (s : State), (harpAt s c h).active = some p ∧
      (coreAt s c).power = .running ∧ coreCmdRuns s c = true ∧ stallReason s c fc ready (harpAt s c h) = 0 ∧ pClass p.desc = 8 ∧ pIsInt
      p.desc = false ∧ pTrap p.desc = false ∧ SpdQuiet c s ∧ p.k % 32 = 31 ∧ p.k + 1 < pK p.desc ∧ i < pRows p.desc ∧ j < pCols p.desc ∧
      pCols p.desc ≤ 32) ∧
    (∃ (c : CoreIx) (h : HarpIx) (fc : Fin 16) (ready : Bool) (p : Pass) (s : State), (harpAt s c h).active = some p ∧ (coreAt s
      c).power = .running ∧ coreCmdRuns s c = true ∧ stallReason s c fc ready (harpAt s c h) = 0 ∧ pClass p.desc = 8 ∧ pTrap p.desc =
      false ∧ SpdQuiet c s ∧ p.k + 1 = pK p.desc ∧ pDrain p.desc = true ∧ passIsPartner (coreAt s c) p.desc = false ∧ p.bufs = [] ∧
      (harpAt s c h).partner = none) ∧
    (∃ (c : CoreIx) (h : HarpIx) (s : State), harpGood s c h = true ∧ coreOn s c = true) ∧
    (∃ (w : RingIx) (k : Cmd) (s : State), (ringAt s w).cmd = some k ∧ k.phase = .stopping) :=
  ⟨⟨0, 0, 3, true, state_HarpStepsAndFaults_1, by decide +kernel, by decide +kernel, by decide +kernel, by decide +kernel, by decide +kernel, ringsOk_of (by decide +kernel)⟩,
   ⟨0, 0, 15, true, { passA with desc := [0x7020200010022, 0x800000000000, 0x0, 0x0, 0x0, 0x20001] }, state_HarpStepsAndFaults_2, by decide +kernel⟩,
   ⟨0, 0, 0, true, passA, state_HarpStepsAndFaults_3, by decide +kernel, by decide +kernel, by decide +kernel, by decide +kernel, by decide +kernel, by decide +kernel, by unfold SpdQuiet; decide +kernel, by decide +kernel⟩,
   ⟨0, 0, 0, true, { passA with desc := [0x7020200020044, 0x800000000000, 0x0, 0x0, 0x0, 0x20001], k := 31, blkA := List.replicate 31 [0x38, 0x38], blkB := List.replicate 31 [0x38, 0x40] }, 1, 1, state_HarpStepsAndFaults_4, by decide +kernel, by decide +kernel, by decide +kernel, by decide +kernel, by decide +kernel, by decide +kernel, by decide +kernel, by unfold SpdQuiet; decide +kernel, by decide +kernel⟩,
   ⟨0, 0, 0, true, { passA with k := 31, desc := [0x7020200014044, 0x800000000000, 0x0, 0x0, 0x0, 0x20001] }, state_HarpStepsAndFaults_5, by decide +kernel, by decide +kernel, by decide +kernel, by decide +kernel, by decide +kernel, by decide +kernel, by unfold SpdQuiet; decide +kernel, by decide +kernel⟩,
   ⟨0, 0, state_HarpStepsAndFaults_6, by decide +kernel⟩,
   ⟨0, cmdA.cause 5 0 |> fun k => { k with phase := .stopping }, state_HarpStepsAndFaults_7, by decide +kernel⟩⟩

def state_FiddleInstructionRuns_2 : State :=
  withSpd 0 [0, 0, 0x80, 0x3F, 0, 0, 0, 0x40, 0, 0, 0x40, 0x40, 0,0,0x80,0xC0]

/-- Hypotheses of FiddleInstructionRuns are met: one state and operands for each clause that has hypotheses. -/
theorem witness_FiddleInstructionRuns :
    (∃ (c : CoreIx) (n src dst : Nat) (s u : State), canIssue s c = true ∧ (coreAt s c).polyLoad = none ∧ SpdQuiet c s ∧ shadowOf s c =
      none ∧ src + n ≤ spdBytes ∧ dst + n ≤ spdBytes ∧ register (count s c 56 1) c [⟨20000, 0, 3, 0, 0, src, src + n, false⟩, ⟨20000, 1,
      3, 0, 0, dst, dst + n, true⟩] = .ok u) ∧
    (∃ (c : CoreIx) (op : FdlOp) (f : Fin 16) (p : BinFmt) (n a b z dst : Nat) (s : State), canIssue s c = true ∧ (coreAt s c).polyLoad
      = none ∧ SpdQuiet c s ∧ shadowOf s c = none ∧ rdB s R.SPD_OVERLAP_CTL_ACTIVE c 0 = false ∧ fdlReserved (.arith op f n a b z dst) =
      false ∧ fdlOpIsInt op = false ∧ binFmt f = some p ∧ ((∀ q ∈ fdlSpans (.arith op f n a b z dst), q.lo + q.n ≤ spdBytes))) ∧
    (∃ (c : CoreIx) (f g : Fin 16) (rtz : Bool) (n a dst va row col : Nat) (s : State), canIssue s c = true ∧ (coreAt s c).polyLoad =
      none ∧ SpdQuiet c s ∧ shadowOf s c = none ∧ rdB s R.SPD_OVERLAP_CTL_ACTIVE c 0 = false ∧ fdlReserved (.convert f g rtz n a dst 0
      va row col) = false ∧ a + packedBytes (fmtBits f) n ≤ spdBytes ∧ dst + packedBytes (fmtBits g) n ≤ spdBytes) ∧
    (∃ (c : CoreIx) (i : FdlInstr) (s : State), canIssue s c = true ∧ (coreAt s c).polyLoad = none ∧ fdlWaits s c i = false ∧
      fdlReserved i = true) ∧
    (∃ (c : CoreIx) (i : FdlInstr) (s : State), canIssue s c = true ∧ (coreAt s c).polyLoad = none ∧ fdlWaits s c i = false ∧
      fdlReserved i = false ∧ (∃ p ∈ fdlSpans i, spdBytes < p.lo + p.n)) ∧
    (∃ (c : CoreIx) (i : FdlInstr) (s : State), canIssue s c = false) :=
  ⟨(have h6 : isIn (register (count (withSpd 0 [1, 2, 3, 4, 5, 6]) (0) 56 1) (0) [⟨20000, 0, 3, 0, 0, (0), (0) + (5), false⟩, ⟨20000, 1, 3, 0, 0, (0x1FFFFB), (0x1FFFFB) + (5), true⟩]) = true := (by decide +kernel); ⟨0, 5, 0, 0x1FFFFB, withSpd 0 [1, 2, 3, 4, 5, 6], (getIn (register (count (withSpd 0 [1, 2, 3, 4, 5, 6]) (0) 56 1) (0) [⟨20000, 0, 3, 0, 0, (0), (0) + (5), false⟩, ⟨20000, 1, 3, 0, 0, (0x1FFFFB), (0x1FFFFB) + (5), true⟩])), by decide +kernel, by decide +kernel, by unfold SpdQuiet; decide +kernel, by decide +kernel, by decide +kernel, by decide +kernel, getIn_eq h6⟩),
   ⟨0, .add, 1, f32, 2, 0, 8, 0, 0x40, state_FiddleInstructionRuns_2, by decide +kernel, by decide +kernel, by unfold SpdQuiet; decide +kernel, by decide +kernel⟩,
   ⟨0, 1, 2, false, 3, 0, 0x40, 0, 0, 0, state_FiddleInstructionRuns_2, by decide +kernel, by decide +kernel, by unfold SpdQuiet; decide +kernel, by decide +kernel⟩,
   ⟨0, .poly 0 9 4 0 0, live, by decide +kernel⟩,
   ⟨0, .move 8 0x1FFFFC 0, live, by decide +kernel⟩,
   ⟨0, .move 8 0 0, State.reset, by decide +kernel⟩⟩

def state_TablesAndScratchpadUpkeep_2 : State :=
  withCore (fun x => { x with polyLoad := some (0, (List.range 2056).map (BitVec.ofNat 8)) })

def state_TablesAndScratchpadUpkeep_3 : State :=
  { live with spd := { live.spd with err := [(5, 1)] } }

def state_TablesAndScratchpadUpkeep_4 : State :=
  { withCore (fun x => { x with clearing := true }) with spd := spdWrite (spdWrite live.spd 0 0 [1, 2] true) 1 8 [5] false }

/-- Hypotheses of TablesAndScratchpadUpkeep are met: one state and operands for each clause that has hypotheses. -/
theorem witness_TablesAndScratchpadUpkeep :
    (∃ (c : CoreIx) (t : Fin 2) (addr : Nat) (s : State), canIssue s c = true ∧ (coreAt s c).polyLoad = none ∧ addr % 8 = 0 ∧ addr +
      2056 ≤ spdBytes ∧ SpdQuiet c s ∧ rdB s R.SPD_OVERLAP_CTL_ACTIVE c 0 = false ∧ spdPoison s.spd c addr 2056 = false ∧ (f32.unpack
      (leNat (spdRead s.spd c (addr + 2048) 4))).isNan = false ∧ (f32.unpack (leNat (spdRead s.spd c (addr + 2048) 4))).isInf = false ∧
      (f32.unpack (leNat (spdRead s.spd c (addr + 2052) 4))).isNan = false ∧ (f32.unpack (leNat (spdRead s.spd c (addr + 2052)
      4))).isInf = false ∧ (f32.unpack (leNat (spdRead s.spd c (addr + 2048) 4))).lt false (f32.unpack (leNat (spdRead s.spd c (addr +
      2052) 4))) = true) ∧
    (∃ (c : CoreIx) (t : Nat) (img : List Byte) (s : State), (coreAt s c).polyLoad = some (t, img) ∧ t < 2) ∧
    (∃ (c : CoreIx) (word : Nat) (s : State), spdErr s.spd (c.val * 2 ^ 29 + word) = 1) ∧
    (∃ (c : CoreIx) (s : State), (coreAt s c).clearing = true) :=
  ⟨⟨0, 1, 8, polyRange, by decide +kernel, by decide +kernel, by decide +kernel, by decide +kernel, by unfold SpdQuiet; decide +kernel, by decide +kernel⟩,
   ⟨0, 0, (List.range 2056).map (BitVec.ofNat 8), state_TablesAndScratchpadUpkeep_2, by decide +kernel⟩,
   ⟨0, 5, state_TablesAndScratchpadUpkeep_3, by decide +kernel⟩,
   ⟨0, state_TablesAndScratchpadUpkeep_4, by decide +kernel⟩⟩

def state_EpilogueRuns_1 : State :=
  withHarp (fun h => { h with epi := some (⟨⟨[0x7020100014044, 0x800000000000, 0x0, 0x0, 0x0, 0x20001], [0x3F800000, 0x40000000], 0, 1, false⟩, none, false⟩ : Epi) })

def state_EpilogueRuns_2 : State :=
  onCore (withHarp (fun h => { h with epi := some (⟨⟨[0x7020100014044, 0x800000000000, 0x0, 0x0, 0x0, 0x20001], [0x3F800000, 0x40000000], 0, 1, false⟩, none, true⟩ : Epi) })) 0 (fun x => { x with chain := [[0x11000000000000 + 0x10000 + 0x1000000 - 0x11000000000000, 0, 0, 0, 0, 0, 0, 0]] })

/-- Hypotheses of EpilogueRuns are met: one state and operands for each clause that has hypotheses. -/
theorem witness_EpilogueRuns :
    (∃ (c : CoreIx) (h : HarpIx) (ep : Epi) (s : State), (harpAt s c h).epi = some ep ∧ ep.started = false ∧ (harpAt s c h).out = none) ∧
    (∃ (c : CoreIx) (h : HarpIx) (ep : Epi) (s : State), (harpAt s c h).epi = some ep ∧ ep.started = true ∧ shadowOf s c = none ∧
      SpdQuiet c s ∧ eErrMode (entryOf (coreAt s c) ep.tile.desc) = 0) :=
  ⟨⟨0, 0, (⟨⟨[0x7020100014044, 0x800000000000, 0x0, 0x0, 0x0, 0x20001], [0x3F800000, 0x40000000], 0, 1, false⟩, none, false⟩ : Epi), state_EpilogueRuns_1, by decide +kernel⟩,
   ⟨0, 0, (⟨⟨[0x7020100014044, 0x800000000000, 0x0, 0x0, 0x0, 0x20001], [0x3F800000, 0x40000000], 0, 1, false⟩, none, true⟩ : Epi), state_EpilogueRuns_2, by decide +kernel, by decide +kernel, by decide +kernel, by unfold SpdQuiet; decide +kernel, by decide +kernel⟩⟩

def state_TileSending_3 : State :=
  withHarp (fun h => { h with out := some { outA with sent := [0] } })

def state_TileSending_5 : State :=
  withCore (fun x => { x with gathers := [{ gathA with waits := some 5 }] })

/-- Hypotheses of TileSending are met: one state and operands for each clause that has hypotheses. -/
theorem witness_TileSending :
    (∃ (c : CoreIx) (h : HarpIx) (t : Fin 4) (o : OutStage) (s : State), (harpAt s c h).out = some o ∧ sendable s (coreAt s c) o t =
      true ∧ ((∀ k < t.val, sendable s (coreAt s c) o k = false)) ∧ tKind o.dest t = 1) ∧
    (∃ (c : CoreIx) (h : HarpIx) (t : Fin 4) (o : OutStage) (s : State), (harpAt s c h).out = some o ∧ tKind o.dest t ≠ 3 ∧ SMap.look
      (fun _ => 0) (coreAt s c).credits (destKey s o.dest t) = 0) ∧
    (∃ (c : CoreIx) (h : HarpIx) (o : OutStage) (s : State), (harpAt s c h).out = some o ∧ ((∀ t < 4, tKind o.dest t = 0 ∨ t ∈ o.sent))
      ∧ ((∀ f ∈ s.ord.flights, f.leg ≠ .blocked))) ∧
    (∃ (c : CoreIx) (h : HarpIx) (o : OutStage) (s : State), (harpAt s c h).out = some o ∧ waitsForCredit s (coreAt s c) o = true ∧
      o.since + us 100 ≤ s.utime) ∧
    (∃ (c : CoreIx) (g : Gather) (k : Nat) (s : State), g ∈ (coreAt s c).gathers ∧ g.waits = some k ∧ k + us 100 ≤ s.utime) :=
  ⟨⟨0, 0, 0, outA, sendA 2, by decide +kernel⟩,
   ⟨0, 0, 0, outA, sendA 0, by decide +kernel⟩,
   ⟨0, 0, { outA with sent := [0] }, state_TileSending_3, by decide +kernel⟩,
   ⟨0, 0, outA, sendA 0, by decide +kernel⟩,
   ⟨0, { gathA with waits := some 5 }, 5, state_TileSending_5, by decide +kernel⟩⟩

def state_LandingSlots_3 : State :=
  { onCore live 0 (fun x => { x with slots := [(3, ⟨true, slotA, [], 0⟩)] }) with ord := { live.ord with flights := [{ flightA with dst := .tile 0 imgA, final := true, leg := .arrived }] } }

def state_LandingSlots_4 : State :=
  withHarp (fun h => { h with next := some { passA with ready := false } })

def state_LandingSlots_5 : State :=
  { live with ord := { live.ord with credits := [⟨1, 5, 1, 1, 0⟩, ⟨0, 19, 1, 2, 0⟩] } }

def state_LandingSlots_6 : State :=
  { live with ord := { live.ord with credits := [⟨0, 19, 2, 1, 0⟩] } }

/-- Hypotheses of LandingSlots are met: one state and operands for each clause that has hypotheses. -/
theorem witness_LandingSlots :
    (∃ (c : CoreIx) (slot : Fin 16) (words : List W64) (s : State), canIssue s c = true ∧ slotBad words = false ∧ slotSrcModule words =
      myModule s) ∧
    (∃ (c : CoreIx) (slot : Fin 16) (words : List W64) (s : State), canIssue s c = true ∧ slotBad words = true) ∧
    (∃ (n words c : Nat) (f : Flight) (img : TileImage) (s : State), s.ord.flights.find? (fun f => decide (f.id = n)) = some f ∧ f.dst =
      .tile c img ∧ f.leg = .arrived ∧ dstAwake s (.spd c 0) = true ∧ f.final = true ∧ finalHeld s f = false ∧ ownerMoved s f = false ∧
      headerVerdict s c img = 0 ∧ f.mtag = none ∧ SpdQuiet c s ∧ shadowOf s c = none) ∧
    (∃ (c : CoreIx) (h : HarpIx) (p : Pass) (s : State), (harpAt s c h).next = some p ∧ p.ready = false ∧ p.bufs.all (bufferFull (coreAt
      s c)) = true ∧ (coreAt s c).stopped = false) ∧
    (∃ (n : Nat) (cr : CreditFlight) (s : State), s.ord.credits[n]? = some cr ∧ cr.kind = 1 ∧ rowsUp s cr.row (cr.core / 18) = true ∧
      (coreAt s cr.core).gathers = []) ∧
    (∃ (n : Nat) (cr : CreditFlight) (s : State), s.ord.credits[n]? = some cr ∧ cr.kind = 2 ∧ rowsUp s cr.row (cr.core / 18) = true) :=
  ⟨⟨0, 3, slotA, live, by decide +kernel⟩,
   ⟨0, 3, [0, 0, 0], live, by decide +kernel⟩,
   ⟨7, 8, 0, { flightA with dst := .tile 0 imgA, final := true, leg := .arrived }, imgA, state_LandingSlots_3, by decide +kernel, by decide +kernel, by decide +kernel, by decide +kernel, by decide +kernel, by decide +kernel, by decide +kernel, by decide +kernel, by decide +kernel, by unfold SpdQuiet; decide +kernel, by decide +kernel⟩,
   ⟨0, 0, { passA with ready := false }, state_LandingSlots_4, by decide +kernel⟩,
   ⟨1, ⟨0, 19, 1, 2, 0⟩, state_LandingSlots_5, by decide +kernel⟩,
   ⟨0, ⟨0, 19, 2, 1, 0⟩, state_LandingSlots_6, by decide +kernel⟩⟩

def state_GatherRuns_1 : State :=
  withSpd 0x200 [1, 0, 0, 0, 255, 255, 255, 255]

def state_GatherRuns_2 : State :=
  withCore (fun x => { x with gathers := [gathA] })

/-- Hypotheses of GatherRuns are met: one state and operands for each clause that has hypotheses. -/
theorem witness_GatherRuns :
    (∃ (c : CoreIx) (d : List W64) (s u : State), canIssue s c = true ∧ gatherBad d = false ∧ gSlot d = false ∧ register (count s c 56
      1) c (gatherFootprint (30000 + s.ord.nextId) d) = .ok u ∧ SpdQuiet c s ∧ spdPoison s.spd c (gIndex d) (4 * gCount d) = false ∧
      (unpackElems 32 (gCount d) (spdRead s.spd c (gIndex d) (4 * gCount d))).any (gatherOut d) = false) ∧
    (∃ (c : CoreIx) (row : Nat) (g : Gather) (s : State), (coreAt s c).gathers.find? (fun g => g.waits.isNone && decide (row ∈ g.left))
      = some g ∧ gatherBad g.desc = false ∧ gSlot g.desc = false ∧ g.buf = none ∧ gScaleBytes g.desc = 0 ∧ row < gCount g.desc ∧
      SpdQuiet c s ∧ shadowOf s c = none ∧ gatherRow g.desc (g.ix.getD row 0xFFFFFFFF) = none) ∧
    (∃ (c : CoreIx) (row a : Nat) (g : Gather) (s u : State) (bytes : List Byte) (ps : List (Nat × Nat)), (coreAt s c).gathers.find?
      (fun g => g.waits.isNone && decide (row ∈ g.left)) = some g ∧ gatherBad g.desc = false ∧ gSlot g.desc = false ∧ g.buf = none ∧
      gScaleBytes g.desc = 0 ∧ row < gCount g.desc ∧ SpdQuiet c s ∧ shadowOf s c = none ∧ gatherRow g.desc (g.ix.getD row 0xFFFFFFFF) =
      some a ∧ gatherWaits s c g row = false ∧ moverRead s c g.ring (ringPart s g.ring) (gTable g.desc + a * gRowBytes g.desc)
      (gRowBytes g.desc) = .ok (u, bytes, ps) ∧ ps.all (fun q => (cohPoisonAt s q.1 q.2).isNone) = true ∧ (coreAt u c).gathers = (coreAt
      s c).gathers) :=
  ⟨(have h3 : isIn (register (count (state_GatherRuns_1) (0) 56 1) (0) (gatherFootprint (30000 + (state_GatherRuns_1).ord.nextId) (gathD))) = true := (by decide +kernel); ⟨0, gathD, state_GatherRuns_1, (getIn (register (count (state_GatherRuns_1) (0) 56 1) (0) (gatherFootprint (30000 + (state_GatherRuns_1).ord.nextId) (gathD)))), by decide +kernel, by decide +kernel, by decide +kernel, getIn_eq h3, by unfold SpdQuiet; decide +kernel, by decide +kernel⟩),
   ⟨0, 1, gathA, state_GatherRuns_2, by decide +kernel, by decide +kernel, by decide +kernel, by decide +kernel, by decide +kernel, by decide +kernel, by unfold SpdQuiet; decide +kernel, by decide +kernel⟩,
   (have h10 : isOk (moverRead (state_GatherRuns_2) (0) (gathA).ring (ringPart (state_GatherRuns_2) (gathA).ring) (gTable (gathA).desc + (1) * gRowBytes (gathA).desc) (gRowBytes (gathA).desc)) = true := (by decide +kernel); ⟨0, 0, 1, gathA, state_GatherRuns_2, (getOk (State.reset, [], []) (moverRead (state_GatherRuns_2) (0) (gathA).ring (ringPart (state_GatherRuns_2) (gathA).ring) (gTable (gathA).desc + (1) * gRowBytes (gathA).desc) (gRowBytes (gathA).desc))).1, (getOk (State.reset, [], []) (moverRead (state_GatherRuns_2) (0) (gathA).ring (ringPart (state_GatherRuns_2) (gathA).ring) (gTable (gathA).desc + (1) * gRowBytes (gathA).desc) (gRowBytes (gathA).desc))).2.1, (getOk (State.reset, [], []) (moverRead (state_GatherRuns_2) (0) (gathA).ring (ringPart (state_GatherRuns_2) (gathA).ring) (gTable (gathA).desc + (1) * gRowBytes (gathA).desc) (gRowBytes (gathA).desc))).2.2, by decide +kernel, by decide +kernel, by decide +kernel, by decide +kernel, by decide +kernel, by decide +kernel, by unfold SpdQuiet; decide +kernel, by decide +kernel, by decide +kernel, by decide +kernel, getOk_triple_eq h10, by decide +kernel⟩)⟩

def state_SequencerMemory_1 : State :=
  withCore (fun x => { x with cache := [lineA] })

/-- Hypotheses of SequencerMemory are met: one state and operands for each clause that has hypotheses. -/
theorem witness_SequencerMemory :
    (∃ (c : CoreIx) (va : Nat) (l : CLine) (s : State), canIssue s c = true ∧ cacheFind (coreAt s c) (va / 8 * 8) = some l ∧ l.poison =
      false) ∧
    (∃ (c : CoreIx) (va pa : Nat) (s : State), RingsOk s ∧ canIssue s c = true ∧ cacheFind (coreAt s c) (va / 8 * 8) = none ∧
      Machine.translate s (some c.val) (ringPart s ((coreAt s c).ring.getD 0)) (va / 8 * 8) false true = .ok pa ∧ pa < 2 ^ 51 ∧
      accessWaits s (some c.val) (ringPart s ((coreAt s c).ring.getD 0)) (va / 8 * 8 / 64 * 64) 64 true = false) ∧
    (∃ (c : CoreIx) (va pa : Nat) (s : State), RingsOk s ∧ canIssue s c = true ∧ Machine.translate s (some c.val) (ringPart s ((coreAt s
      c).ring.getD 0)) (va / 8 * 8) false true = .ok pa ∧ pa < 2 ^ 51 ∧ accessWaits s (some c.val) (ringPart s ((coreAt s c).ring.getD
      0)) (va / 8 * 8 / 8 * 8) 8 true = false) ∧
    (∃ (c : CoreIx) (va : Nat) (s : State), canIssue s c = false) ∧
    (∃ (c : CoreIx) (va pa : Nat) (data : List Byte) (final : Bool) (s : State), RingsOk s ∧ canIssue s c = true ∧ pieces s (some c.val)
      (ringPart s ((coreAt s c).ring.getD 0)) true true va data.length = .ok [(pa, data.length)] ∧ pa < 2 ^ 51 ∧ accessWaits s (some
      c.val) (ringPart s ((coreAt s c).ring.getD 0)) va data.length false = false ∧ MemQuiet s) ∧
    (∃ (c : CoreIx) (va pa : Nat) (op : AtomicOp) (x cmp : W64) (s : State), RingsOk s ∧ canIssue s c = true ∧ va % 8 = 0 ∧ accessWaits
      s (some c.val) (ringPart s ((coreAt s c).ring.getD 0)) va 8 true = false ∧ Machine.translate s (some c.val) (ringPart s ((coreAt s
      c).ring.getD 0)) va true false = .ok pa ∧ ownWordBusy s c pa = false) ∧
    (∃ (c : CoreIx) (va : Nat) (op : AtomicOp) (x cmp : W64) (s : State), canIssue s c = true ∧ va % 8 ≠ 0) :=
  ⟨⟨0, 0x1013, lineA, state_SequencerMemory_1, by decide +kernel⟩,
   ⟨0, 0x1005, 0x1000, loadA, ringsOk_of (by decide +kernel), by decide +kernel⟩,
   ⟨0, 0x1005, 0x1000, loadA, ringsOk_of (by decide +kernel), by decide +kernel⟩,
   ⟨0, 8, State.reset, by decide +kernel⟩,
   ⟨0, 0x1003, 0x1003, [1, 2, 3, 4, 5], true, live, ringsOk_of (by decide +kernel), by decide +kernel, by decide +kernel, by decide +kernel, by decide +kernel, by unfold MemQuiet; decide +kernel⟩,
   ⟨0, 0x2000, 0x2000, .addI64, 1, 2, loadA, ringsOk_of (by decide +kernel), by decide +kernel⟩,
   ⟨0, 0x2001, .swap, 1, 2, live, by decide +kernel⟩⟩

def state_InvalidationsAndFences_1 : State :=
  withCore (fun x => { x with cache := [lineA, { lineA with va := 0x41 }], acquiring := some [⟨0, 0x1000, 0x1040⟩] })

def state_InvalidationsAndFences_3 : State :=
  withCore (fun x => { x with cache := [lineA, { lineA with va := 0x41 }], invalidating := some (0x1040, 0x1041) })

def state_InvalidationsAndFences_5 : State :=
  onCore (withFlights [{ flightA with id := 8 }]) 0 (fun x => { x with fenceAt := some 7 })

def state_InvalidationsAndFences_6 : State :=
  onCore (withFlights [flightA]) 0 (fun x => { x with fenceAt := some 8 })

/-- Hypotheses of InvalidationsAndFences are met: one state and operands for each clause that has hypotheses. -/
theorem witness_InvalidationsAndFences :
    (∃ (c : CoreIx) (gs : List Guard) (s : State), (coreAt s c).acquiring = some gs) ∧
    (∃ (c : CoreIx) (lo hi : Nat) (s : State), canIssue s c = true ∧ (coreAt s c).invalidating = none) ∧
    (∃ (c : CoreIx) (lo hi : Nat) (s : State), (coreAt s c).invalidating = some (lo, hi)) ∧
    (∃ (c : CoreIx) (s : State), canIssue s c = true) ∧
    (∃ (c : CoreIx) (n : Nat) (s : State), (coreAt s c).fenceAt = some n ∧ coreDone s c n = true) ∧
    (∃ (c : CoreIx) (n : Nat) (f : Flight) (s : State), (coreAt s c).fenceAt = some n ∧ f ∈ s.ord.flights ∧ f.src = .core c ∧ f.id < n) :=
  ⟨⟨0, [⟨0, 0x1000, 0x1040⟩], state_InvalidationsAndFences_1, by decide +kernel⟩,
   ⟨0, 0x1000, 0x2000, live, by decide +kernel⟩,
   ⟨0, 0x1040, 0x1041, state_InvalidationsAndFences_3, by decide +kernel⟩,
   ⟨0, live, by decide +kernel⟩,
   ⟨0, 7, state_InvalidationsAndFences_5, by decide +kernel⟩,
   ⟨0, 8, flightA, state_InvalidationsAndFences_6, by decide +kernel⟩⟩

/-- Hypotheses of RemoteRequests are met: one state and operands for each clause that has hypotheses. -/
theorem witness_RemoteRequests :
    (∃ (c : CoreIx) (m : Fin 32) (win : Fin 64) (off len l : Nat) (s : State), canIssue s c = true ∧ upLinks s m = [l] ∧ SMap.look (fun
      _ => false) s.lnk.pausedOn m = false) ∧
    (∃ (c : CoreIx) (m : Fin 32) (win : Fin 64) (off l : Nat) (data : List Byte) (final : Bool) (s : State), canIssue s c = true ∧ data
      ≠ [] ∧ data.length ≤ 512 ∧ upLinks s m = [l] ∧ SMap.look (fun _ => false) s.lnk.pausedOn m = false ∧ ((final = true →
      copyUnnumbered s c m = false)) ∧ ((∀ r ∈ s.lnk.remote, r.mtag ≠ s.lnk.nextTag))) ∧
    (∃ (c : CoreIx) (m : Fin 32) (win : Fin 64) (off l : Nat) (op : AtomicOp) (x y : W64) (s : State), canIssue s c = true ∧ off % 8 = 0
      ∧ upLinks s m = [l] ∧ SMap.look (fun _ => false) s.lnk.pausedOn m = false ∧ ((∀ r ∈ s.lnk.remote, r.mtag ≠ s.lnk.nextTag))) ∧
    (∃ (c : CoreIx) (m : Fin 32) (win : Fin 64) (off : Nat) (op : AtomicOp) (x y : W64) (s : State), canIssue s c = true ∧ off % 8 ≠ 0) ∧
    (∃ (c : CoreIx) (m : Fin 32) (win : Fin 64) (off va len l : Nat) (s : State), canIssue s c = true ∧ 0 < len ∧ len ≤ 512 ∧ upLinks s
      m = [l] ∧ SMap.look (fun _ => false) s.lnk.pausedOn m = false) ∧
    (∃ (c : CoreIx) (m : Fin 32) (win : Fin 64) (off va pa len l : Nat) (s : State), RingsOk s ∧ canIssue s c = true ∧ 0 < len ∧ len ≤
      512 ∧ pieces s (some c.val) (ringPart s ((coreAt s c).ring.getD 0)) false true va len = .ok [(pa, len)] ∧ pa < 2 ^ 51 ∧
      accessWaits s (some c.val) (ringPart s ((coreAt s c).ring.getD 0)) va len true = false ∧ upLinks s m = [l] ∧ SMap.look (fun _ =>
      false) s.lnk.pausedOn m = false ∧ ((∀ r ∈ s.lnk.remote, r.mtag ≠ s.lnk.nextTag))) :=
  ⟨⟨0, 5, 3, 8, 8, 0, linked, by decide +kernel⟩,
   ⟨0, 5, 3, 8, 0, [1, 2], true, linked, by decide +kernel⟩,
   ⟨0, 5, 3, 8, 0, .swap, 1, 2, linked, by decide +kernel⟩,
   ⟨0, 5, 3, 9, .cas, 1, 2, live, by decide +kernel⟩,
   ⟨0, 5, 3, 8, 0x1000, 512, 0, linked, by decide +kernel⟩,
   ⟨0, 5, 3, 8, 0x1000, 0x1000, 512, 0, linked, ringsOk_of (by decide +kernel), by decide +kernel⟩⟩

def state_FlightsMoveAndLand_2 : State :=
  withFlights [{ flightA with dst := .spd 1 0x100, final := false, leg := .moving }]

def state_FlightsMoveAndLand_3 : State :=
  withFlights [{ flightA with leg := .blocked }]

def state_FlightsMoveAndLand_4 : State :=
  withFlights [{ flightA with id := 3, dst := .spd 1 0 }, { flightA with dst := .spd 1 0x100, final := true, leg := .arrived }]

def state_FlightsMoveAndLand_5 : State :=
  withFlights [{ flightA with dst := .spd 1 0x100, final := true, leg := .arrived }]

def state_FlightsMoveAndLand_6 : State :=
  withFlights [{ flightA with dst := .spd 1 0x100, final := true, leg := .heldAtPort }]

def state_FlightsMoveAndLand_7 : State :=
  withFlights [{ flightA with leg := .returned }]

def state_FlightsMoveAndLand_8 : State :=
  withFlights [{ flightA with leg := .heldAtSource }]

def state_FlightsMoveAndLand_9 : State :=
  withFlights [{ flightA with leg := .heldAtSource, final := true }]

def state_FlightsMoveAndLand_10 : State :=
  { withFlights [{ flightA with leg := .arrived }] with mem := memWrite live.mem 0xFFC [1, 2, 3, 4, 5, 6, 7, 8] false }

def state_FlightsMoveAndLand_12 : State :=
  withFlights [{ flightA with id := 3, dst := .mem 0x1040, data := [1] }, { flightA with leg := .arrived, final := true }]

/-- Hypotheses of FlightsMoveAndLand are met: one state and operands for each clause that has hypotheses. -/
theorem witness_FlightsMoveAndLand :
    (∃ (n : Nat) (f : Flight) (s : State), flightAt s n = some f ∧ f.leg = .moving ∧ dstAwake s f.dst = true ∧ ((f.final = true ∨ ∀ c a,
      f.dst ≠ .spd c a))) ∧
    (∃ (n c a : Nat) (f : Flight) (s : State), flightAt s n = some f ∧ f.leg = .moving ∧ f.dst = .spd c a ∧ f.final = false ∧ dstAwake s
      f.dst = true ∧ spdAfter s f = false ∧ ownerMoved s f = false ∧ c < 288 ∧ a + f.data.length ≤ spdBytes ∧ SpdQuiet c s ∧ shadowOf s
      c = none) ∧
    (∃ (n : Nat) (f : Flight) (s : State), flightAt s n = some f ∧ f.leg = .blocked ∧ routeUp s f = true) ∧
    (∃ (n c : Nat) (f : Flight) (s : State), flightAt s n = some f ∧ dstCore f.dst = some c ∧ f.final = true ∧ f.leg = .arrived ∧
      dstAwake s f.dst = true ∧ guardLost s f = none ∧ finalHeld s f = true ∧ f.first = none ∧ portEntries s c + resentBefore s c none <
      8) ∧
    (∃ (n c : Nat) (f : Flight) (s : State), flightAt s n = some f ∧ dstCore f.dst = some c ∧ f.final = true ∧ f.leg = .arrived ∧
      dstAwake s f.dst = true ∧ guardLost s f = none ∧ finalHeld s f = false) ∧
    (∃ (n : Nat) (f : Flight) (s : State), flightAt s n = some f ∧ f.leg = .heldAtPort ∧ guardLost s f = none ∧ finalHeld s f = false ∧
      dstAwake s f.dst = true) ∧
    (∃ (n : Nat) (f : Flight) (s : State), flightAt s n = some f ∧ f.leg = .returned) ∧
    (∃ (n : Nat) (f : Flight) (s : State), flightAt s n = some f ∧ f.leg = .heldAtSource ∧ earlierLeft s f = false) ∧
    (∃ (n w : Nat) (f : Flight) (s : State), flightAt s n = some f ∧ f.final = true ∧ f.ring = some w ∧ ((∀ m, f.src ≠ .peer m)) ∧ ((∀ m
      k, f.src ≠ .peerCore m k)) ∧ ((f.leg = .heldAtSource ∨ f.leg = .heldAtPort ∨ f.leg = .returned)) ∧ f.since + us 100 ≤ s.utime) ∧
    (∃ (n pa : Nat) (f : Flight) (s : State), flightAt s n = some f ∧ f.dst = .mem pa ∧ f.leg = .arrived ∧ writeWaits s pa f.data.length
      = false ∧ landsAfter s f pa = false ∧ ((f.final = true → guardLost s f = none ∧ finalHeld s f = false))) ∧
    (∃ (n pa : Nat) (f : Flight) (s : State), flightAt s n = some f ∧ f.dst = .mem pa ∧ f.leg = .arrived ∧ writeWaits s pa f.data.length
      = false ∧ landsAfter s f pa = false ∧ f.final = false ∧ ownerMoved s f = false ∧ f.data ≠ [] ∧ pa / 64 = (pa + f.data.length - 1)
      / 64 ∧ writeLost s pa = false) ∧
    (∃ (n pa : Nat) (f : Flight) (med : Medium) (s : State), flightAt s n = some f ∧ f.dst = .mem pa ∧ f.leg = .arrived ∧ writeWaits s
      pa f.data.length = false ∧ landsAfter s f pa = false ∧ f.final = true ∧ guardLost s f = none ∧ finalHeld s f = true) :=
  ⟨⟨7, flightA, withFlights [flightA], by decide +kernel, by decide +kernel, by decide +kernel, Or.inr (by intro c a h; simp [flightA] at h)⟩,
   ⟨7, 1, 0x100, { flightA with dst := .spd 1 0x100, final := false, leg := .moving }, state_FlightsMoveAndLand_2, by decide +kernel, by decide +kernel, by decide +kernel, by decide +kernel, by decide +kernel, by decide +kernel, by decide +kernel, by decide +kernel, by decide +kernel, by unfold SpdQuiet; decide +kernel, by decide +kernel⟩,
   ⟨7, { flightA with leg := .blocked }, state_FlightsMoveAndLand_3, by decide +kernel⟩,
   ⟨7, 1, { flightA with dst := .spd 1 0x100, final := true, leg := .arrived }, state_FlightsMoveAndLand_4, by decide +kernel⟩,
   ⟨7, 1, { flightA with dst := .spd 1 0x100, final := true, leg := .arrived }, state_FlightsMoveAndLand_5, by decide +kernel⟩,
   ⟨7, { flightA with dst := .spd 1 0x100, final := true, leg := .heldAtPort }, state_FlightsMoveAndLand_6, by decide +kernel⟩,
   ⟨7, { flightA with leg := .returned }, state_FlightsMoveAndLand_7, by decide +kernel⟩,
   ⟨7, { flightA with leg := .heldAtSource }, state_FlightsMoveAndLand_8, by decide +kernel⟩,
   ⟨7, 0, { flightA with leg := .heldAtSource, final := true }, state_FlightsMoveAndLand_9, by decide +kernel, by decide +kernel, by decide +kernel, (by intro m h; cases h), (by intro m k h; cases h), by decide +kernel⟩,
   ⟨7, 0x1000, { flightA with leg := .arrived }, state_FlightsMoveAndLand_10, by decide +kernel⟩,
   ⟨7, 0x1000, { flightA with leg := .arrived }, state_FlightsMoveAndLand_10, by decide +kernel⟩,
   ⟨7, 0x1000, { flightA with leg := .arrived, final := true }, ⟨[], 0, 0⟩, state_FlightsMoveAndLand_12, by decide +kernel⟩⟩

def state_SlicesAndCommits_2 : State :=
  { live with mem := memWrite live.mem 0xFFC [1, 2, 3, 4, 5, 6, 7, 8] false }

def state_SlicesAndCommits_4 : State :=
  put [(R.CCH_FLUSH_END_ADDR, 0, 0, 0x41)] { live with ms := { live.ms with lines := [(0x40, ⟨0, true⟩), (0x41, ⟨0, true⟩), (5, ⟨0, false⟩)] } }

def state_SlicesAndCommits_5 : State :=
  put [(R.CCH_FLUSH_CTL_BUSY, 0, 0, 1)] { live with ms := { live.ms with lines := [(0x40, ⟨0, true⟩), (0x41, ⟨0, true⟩)], flush := [0x40] } }

def state_SlicesAndCommits_7 : State :=
  putS [(R.CCH_WAYMASK_WAYS, 3, 0, 0)] live

def state_SlicesAndCommits_8 : State :=
  putS [(R.MEM_SCRUB_CTL_PERIOD_H, 0, 0, 168)] live

/-- Hypotheses of SlicesAndCommits are met: one state and operands for each clause that has hypotheses. -/
theorem witness_SlicesAndCommits :
    (∃ (who : Requester) (pa len : Nat) (s : State), placeOf s pa ≠ .absent ∧ placeOf s pa ≠ .host ∧ memWaits s pa len = false) ∧
    (∃ (who : Requester) (pa : Nat) (op : AtomicOp) (x cmp : W64) (bad : Bool) (s : State), placeOf s pa ≠ .absent ∧ placeOf s pa ≠
      .host ∧ memWaits s pa 8 = false ∧ pa % 8 = 0) ∧
    (∃ (who : Requester) (pa len : Nat) (med : Medium) (op : AtomicOp) (x cmp : W64) (bad : Bool) (s : State), (placeOf s pa = .absent ∨
      placeOf s pa = .host)) ∧
    (∃ (s : State), rdB s R.CCH_FLUSH_CTL_BUSY 0 0 = false) ∧
    (∃ (s : State), rdB s R.CCH_FLUSH_CTL_BUSY 0 0 = true ∧ s.ms.flush.all (mediumUp s) = true) ∧
    (∃ (s : State), ((∀ p < 16, rdS s R.CCH_WAYMASK_WAYS p 0 ≠ 0)) ∧ rdB s R.PRT_ISO_STATUS_ACTIVE 0 0 = false) ∧
    (∃ (p : Nat) (s : State), p < 16 ∧ rdS s R.CCH_WAYMASK_WAYS p 0 = 0) ∧
    (∃ (s : State), 1 ≤ rdS s R.MEM_SCRUB_CTL_PERIOD_H 0 0 ∧ rdS s R.MEM_SCRUB_CTL_PERIOD_H 0 0 ≤ 168) :=
  ⟨⟨.core 0, 0x1000, 8, live, by decide +kernel⟩,
   ⟨.core 0, 0x1000, .addI64, 1, 0, false, state_SlicesAndCommits_2, by decide +kernel⟩,
   ⟨.core 0, 0x90000000000, 8, ⟨[], 0, 0⟩, .swap, 0, 0, false, live, by decide +kernel⟩,
   ⟨state_SlicesAndCommits_4, by decide +kernel⟩,
   ⟨state_SlicesAndCommits_5, by decide +kernel⟩,
   ⟨live, by decide +kernel⟩,
   ⟨3, state_SlicesAndCommits_7, by decide +kernel⟩,
   ⟨state_SlicesAndCommits_8, by decide +kernel⟩⟩

def state_BoundaryAndGuards_1 : State :=
  onRing live 0 (fun r => { r with cmd := some { cmdA with phase := .ended, causes := 32 } })

def state_BoundaryAndGuards_2 : State :=
  putS [(R.PRT_GUARD_FLAG_VALID, 0, 0, 1)] live

def state_BoundaryAndGuards_3 : State :=
  putS [(R.PRT_GUARD_FLAG_VALID, 0, 0, 1), (R.PRT_GUARD_END_END, 0, 0, 9)] live

def state_BoundaryAndGuards_4 : State :=
  put [(R.PRT_GUARD_STATUS_PENDING, 0, 0, 1)] { live with ord := { live.ord with guardCopy := [(0, [⟨8, 64, 128⟩])] } }

/-- Hypotheses of BoundaryAndGuards are met: one state and operands for each clause that has hypotheses. -/
theorem witness_BoundaryAndGuards :
    (∃ (w : RingIx) (k : Cmd) (s : State), (ringAt s w).cmd = some k ∧ k.phase = .ended ∧ ringBusy s w = false ∧ ((getBits (k.words.getD
      0 0) 8 4 = 1 → rdB s R.SEQ_RQ_CFG_GANG_EN w 0 = false ∧ gangAllEnded s w = true))) ∧
    (∃ (p : PartIx) (s : State), rdB s R.PRT_GUARD_STATUS_PENDING p 0 = false ∧ (∃ g ∈ guardSet (rdIn (copyShadow s (guardRegs p))) p,
      g.hi ≤ g.lo)) ∧
    (∃ (p : PartIx) (s : State), rdB s R.PRT_GUARD_STATUS_PENDING p 0 = false ∧ ((∀ g ∈ guardSet (rdIn (copyShadow s (guardRegs p))) p,
      g.lo < g.hi))) ∧
    (∃ (p : PartIx) (s : State), rdB s R.PRT_GUARD_STATUS_PENDING p 0 = true ∧ guardQueue s p = []) :=
  ⟨⟨0, { cmdA with phase := .ended, causes := 32 }, state_BoundaryAndGuards_1, by decide +kernel⟩,
   ⟨0, state_BoundaryAndGuards_2, by decide +kernel⟩,
   ⟨0, state_BoundaryAndGuards_3, by decide +kernel⟩,
   ⟨0, state_BoundaryAndGuards_4, by decide +kernel⟩⟩

def state_KvOpenForkClose_1 : State :=
  kvOp1 (kvD 1 1 0 0 0) (onKvReg kvS 0 (fun x => { x with near := [(0, [0, 2, 4]), (1, [1, 3])] }))

def state_KvOpenForkClose_2 : State :=
  kvOp1 (kvD 4 2 5 1 0) (kvOpened 1 7 kvS)

def state_KvOpenForkClose_3 : State :=
  kvOp1 (kvD 6 1 0 0 0) (kvOpened 1 7 kvS)

/-- Hypotheses of KvOpenForkClose are met: one state and operands for each clause that has hypotheses. -/
theorem witness_KvOpenForkClose :
    (∃ (n : Nat) (o : KvOp) (s : State), KvReady 1 n o s ∧ (kvSeq s (kvRgn o.desc) (kvSq o.desc)).isOpen = false ∧ kvTablePages s (kvRgn
      o.desc) ≤ (kvNear s (kvRgn o.desc) (kvUnit s (kvSq o.desc))).length) ∧
    (∃ (n : Nat) (o : KvOp) (s : State), KvReady 4 n o s ∧ kvParent o.desc < (kvGeo s (kvRgn o.desc)).maxSeq ∧ (kvSeq s (kvRgn o.desc)
      (kvParent o.desc)).isOpen = true ∧ (kvSeq s (kvRgn o.desc) (kvSq o.desc)).isOpen = false ∧ kvPos o.desc ≤ (kvSeq s (kvRgn o.desc)
      (kvParent o.desc)).length ∧ kvTablePages s (kvRgn o.desc) ≤ (kvNear s (kvRgn o.desc) (kvUnit s (kvSq o.desc))).length) ∧
    (∃ (n : Nat) (o : KvOp) (s : State), KvReady 6 n o s ∧ (kvSeq s (kvRgn o.desc) (kvSq o.desc)).isOpen = true) :=
  ⟨⟨0, ⟨4, some 0, 0, kvD 1 1 0 0 0⟩, state_KvOpenForkClose_1, kvReady_of (by decide +kernel), by decide +kernel⟩,
   ⟨0, ⟨4, some 0, 0, kvD 4 2 5 1 0⟩, state_KvOpenForkClose_2, kvReady_of (by decide +kernel), by decide +kernel⟩,
   ⟨0, ⟨4, some 0, 0, kvD 6 1 0 0 0⟩, state_KvOpenForkClose_3, kvReady_of (by decide +kernel), by decide +kernel⟩⟩

def state_KvCommitTruncatePin_1 : State :=
  kvOp1 (kvD 3 1 9 0 0) (kvOpened 1 7 kvS)

def state_KvCommitTruncatePin_2 : State :=
  kvOp1 (kvD 3 1 9 0 0) (onKvSeq (kvOpened 1 7 kvS) 0 1 (fun x => { x with stepFault := true }))

def state_KvCommitTruncatePin_3 : State :=
  kvOp1 (kvD 5 1 3 0 0) (onKvSeq (kvOpened 1 7 kvS) 0 1 (fun x => { x with stepFault := true }))

def state_KvCommitTruncatePin_4 : State :=
  kvOp1 (kvD 7 1 0 0 1) (kvOpened 1 7 kvS)

/-- Hypotheses of KvCommitTruncatePin are met: one state and operands for each clause that has hypotheses. -/
theorem witness_KvCommitTruncatePin :
    (∃ (n : Nat) (o : KvOp) (s : State), KvReady 3 n o s ∧ (kvSeq s (kvRgn o.desc) (kvSq o.desc)).isOpen = true ∧ (kvSeq s (kvRgn
      o.desc) (kvSq o.desc)).stepFault = false ∧ (kvSeq s (kvRgn o.desc) (kvSq o.desc)).length ≤ kvPos o.desc ∧ kvPos o.desc ≤ (kvGeo s
      (kvRgn o.desc)).maxPos) ∧
    (∃ (n : Nat) (o : KvOp) (s : State), KvReady 3 n o s ∧ (kvSeq s (kvRgn o.desc) (kvSq o.desc)).isOpen = true ∧ (kvSeq s (kvRgn
      o.desc) (kvSq o.desc)).stepFault = true) ∧
    (∃ (n : Nat) (o : KvOp) (s : State), KvReady 5 n o s ∧ (kvSeq s (kvRgn o.desc) (kvSq o.desc)).isOpen = true ∧ kvPos o.desc ≤ (kvSeq
      s (kvRgn o.desc) (kvSq o.desc)).length) ∧
    (∃ (n : Nat) (o : KvOp) (s : State), KvReady 7 n o s ∧ (kvSeq s (kvRgn o.desc) (kvSq o.desc)).isOpen = true) :=
  ⟨⟨0, ⟨4, some 0, 0, kvD 3 1 9 0 0⟩, state_KvCommitTruncatePin_1, kvReady_of (by decide +kernel), by decide +kernel⟩,
   ⟨0, ⟨4, some 0, 0, kvD 3 1 9 0 0⟩, state_KvCommitTruncatePin_2, kvReady_of (by decide +kernel), by decide +kernel⟩,
   ⟨0, ⟨4, some 0, 0, kvD 5 1 3 0 0⟩, state_KvCommitTruncatePin_3, kvReady_of (by decide +kernel), by decide +kernel⟩,
   ⟨0, ⟨4, some 0, 0, kvD 7 1 0 0 1⟩, state_KvCommitTruncatePin_4, kvReady_of (by decide +kernel), by decide +kernel⟩⟩

def state_KvAppendMaps_1 : State :=
  kvOp1 (kvA 1 7 2 0x10000) (kvOpened 1 7 kvS)

def state_KvAppendMaps_2 : State :=
  kvOp1 (kvA 1 7 2 0x10000) (onKvReg (kvOpened 1 7 kvS) 0 (fun x => { x with near := [] }))

/-- Hypotheses of KvAppendMaps are met: one state and operands for each clause that has hypotheses. -/
theorem witness_KvAppendMaps :
    (∃ (n : Nat) (o : KvOp) (ps : List (Nat × Nat)) (s : State), KvReady 2 n o s ∧ (kvSeq s (kvRgn o.desc) (kvSq o.desc)).isOpen = true
      ∧ (kvSeq s (kvRgn o.desc) (kvSq o.desc)).stepFault = false ∧ dw o.desc 2 0 8 < (kvGeo s (kvRgn o.desc)).layers ∧ dw o.desc 2 8 6 <
      (kvGeo s (kvRgn o.desc)).pairs ∧ kvPos o.desc = (kvSeq s (kvRgn o.desc) (kvSq o.desc)).length ∧ kvPos o.desc + dw o.desc 2 32 16 ≤
      (kvGeo s (kvRgn o.desc)).maxPos ∧ dw o.desc 2 16 2 = 0 ∧ 0 < dw o.desc 2 32 16 ∧ pieces s none (kvGeo s (kvRgn o.desc)).part false
      false (dw o.desc 3 0 48) (dw o.desc 2 32 16 * 8 * (kvGeo s (kvRgn o.desc)).dim) = .ok ps ∧ dw o.desc 2 32 16 ≤ (kvNear s (kvRgn
      o.desc) (kvUnit s (kvSq o.desc))).length ∧ 0 < (kvGeo s (kvRgn o.desc)).positions) ∧
    (∃ (n : Nat) (o : KvOp) (ps : List (Nat × Nat)) (s : State), KvReady 2 n o s ∧ (kvSeq s (kvRgn o.desc) (kvSq o.desc)).isOpen = true
      ∧ (kvSeq s (kvRgn o.desc) (kvSq o.desc)).stepFault = false ∧ dw o.desc 2 0 8 < (kvGeo s (kvRgn o.desc)).layers ∧ dw o.desc 2 8 6 <
      (kvGeo s (kvRgn o.desc)).pairs ∧ kvPos o.desc = (kvSeq s (kvRgn o.desc) (kvSq o.desc)).length ∧ kvPos o.desc + dw o.desc 2 32 16 ≤
      (kvGeo s (kvRgn o.desc)).maxPos ∧ dw o.desc 2 16 2 = 0 ∧ pieces s none (kvGeo s (kvRgn o.desc)).part false false (dw o.desc 3 0
      48) (dw o.desc 2 32 16 * 8 * (kvGeo s (kvRgn o.desc)).dim) = .ok ps ∧ kvNear s (kvRgn o.desc) (kvUnit s (kvSq o.desc)) = [] ∧
      (kvGeo s (kvRgn o.desc)).borrow = false ∧ (kvGeo s (kvRgn o.desc)).demote = false ∧ kvPage s (kvRgn o.desc) ((kvGeo s (kvRgn
      o.desc)).key (kvSq o.desc) (dw o.desc 2 0 8) (dw o.desc 2 8 6) (kvPos o.desc / (kvGeo s (kvRgn o.desc)).positions)) = none) :=
  ⟨⟨0, ⟨4, some 0, 0, kvA 1 7 2 0x10000⟩, [(0x10000, 512)], state_KvAppendMaps_1, kvReady_of (by decide +kernel), by decide +kernel⟩,
   ⟨0, ⟨4, some 0, 0, kvA 1 7 2 0x10000⟩, [(0x10000, 512)], state_KvAppendMaps_2, kvReady_of (by decide +kernel), by decide +kernel⟩⟩

def state_KvFetchFills_2 : State :=
  onKvReg { kvOpened 1 40 kvS with mem := memWrite kvS.mem 0x500000 ((List.range 200).map (BitVec.ofNat 8)) false, ms := { kvS.ms with tlb := [⟨none, 0, 2 ^ 30 + 2 ^ 21, 0x500000, 65536, false⟩] } } 0 (fun x => { x with map := [(16384 + 32, some 0)] })

/-- Hypotheses of KvFetchFills are met: one state and operands for each clause that has hypotheses. -/
theorem witness_KvFetchFills :
    (∃ (c : CoreIx) (d : List W64) (s : State), KvFetchOk c d s ∧ kvPage s (dw d 0 0 6) ((kvGeo s (dw d 0 0 6)).key (dw d 0 8 24) (dw d
      0 32 8) (dw d 0 40 6) (dw d 1 0 32 / (kvGeo s (dw d 0 0 6)).positions)) = none) ∧
    (∃ (c : CoreIx) (d : List W64) (page base : Nat) (s : State), KvFetchOk c d s ∧ kvPage s (dw d 0 0 6) ((kvGeo s (dw d 0 0 6)).key
      (dw d 0 8 24) (dw d 0 32 8) (dw d 0 40 6) (dw d 1 0 32 / (kvGeo s (dw d 0 0 6)).positions)) = some page ∧ page < (kvGeo s (dw d 0
      0 6)).pages ∧ walkWaits s (some c.val) (ringPart s ((coreAt s c).ring.getD 0)) ((kvGeo s (dw d 0 0 6)).key (dw d 0 8 24) (dw d 0
      32 8) (dw d 0 40 6) (dw d 1 0 32 / (kvGeo s (dw d 0 0 6)).positions) * 65536) = false ∧ Machine.translate s (some c.val) (ringPart
      s ((coreAt s c).ring.getD 0)) ((kvGeo s (dw d 0 0 6)).key (dw d 0 8 24) (dw d 0 32 8) (dw d 0 40 6) (dw d 1 0 32 / (kvGeo s (dw d
      0 0 6)).positions) * 65536) false false = .ok base ∧ memWaits s (base + ((dw d 0 47 1 * 2 + dw d 0 46 1) * 16384 + dw d 1 0 32 %
      (kvGeo s (dw d 0 0 6)).positions * ((kvGeo s (dw d 0 0 6)).dim * fmtBits (kvGeo s (dw d 0 0 6)).fmt / 8))) (dw d 0 48 6 * ((kvGeo
      s (dw d 0 0 6)).dim * fmtBits (kvGeo s (dw d 0 0 6)).fmt / 8)) = false ∧ memWaits s ((kvGeo s (dw d 0 0 6)).slotPa page) (kvGeo s
      (dw d 0 0 6)).slot = false) :=
  ⟨⟨0, fetchD, kvOpened 1 40 kvS, by unfold KvFetchOk SpdQuiet; decide +kernel, by decide +kernel⟩,
   ⟨0, fetchD, 0, 0x500000, state_KvFetchFills_2, by unfold KvFetchOk SpdQuiet; decide +kernel, by decide +kernel⟩⟩

def state_KvRegions_1 : State :=
  putS [(R.KPU_RGN_CFG_VALID, 0, 0, 1), (R.KPU_RGN_CFG_FMT, 0, 0, 2), (R.KPU_RGN_CFG_LAYERS, 0, 0, 1), (R.KPU_RGN_CFG_PAIRS, 0, 0, 1), (R.KPU_RGN_CFG_LP_SHIFT, 0, 0, 16), (R.KPU_RGN_CFG_SEQ_SHIFT, 0, 0, 21), (R.KPU_RGN_BASE_KV_BASE, 0, 0, 1), (R.KPU_RGN_SEQTAB_SEQ_TABLE_VA, 0, 0, 0x8000), (R.KPU_RGN_NEAR_NEAR_PA, 0, 0, 0x30), (R.KPU_RGN_META_META_PA, 0, 0, 0x600), (R.KPU_RGN_POOLS_NEAR_PAGES, 0, 0, 16), (R.KPU_RGN_LIMITS_MAX_SEQ, 0, 0, 4)] (put [(R.KPU_RGN_STATUS_STATE, 0, 0, 0), (R.KPU_RGN_CFG_VALID, 0, 0, 0)] kvS)

def state_KvRegions_2 : State :=
  putS [(R.KPU_RGN_CFG_VALID, 0, 0, 0), (R.KPU_RGN_CFG_FMT, 0, 0, 2), (R.KPU_RGN_CFG_LAYERS, 0, 0, 1), (R.KPU_RGN_CFG_PAIRS, 0, 0, 1), (R.KPU_RGN_CFG_LP_SHIFT, 0, 0, 16), (R.KPU_RGN_CFG_SEQ_SHIFT, 0, 0, 21), (R.KPU_RGN_BASE_KV_BASE, 0, 0, 1), (R.KPU_RGN_SEQTAB_SEQ_TABLE_VA, 0, 0, 0x8000), (R.KPU_RGN_NEAR_NEAR_PA, 0, 0, 0x30), (R.KPU_RGN_META_META_PA, 0, 0, 0x600), (R.KPU_RGN_POOLS_NEAR_PAGES, 0, 0, 16), (R.KPU_RGN_LIMITS_MAX_SEQ, 0, 0, 4)] kvS

def state_KvRegions_3 : State :=
  putS [(R.KPU_RGN_CFG_VALID, 0, 0, 1)] live

def state_KvRegions_4 : State :=
  put [(R.KPU_RGN_STATUS_STATE, 0, 0, 1)] kvS

def state_KvRegions_5 : State :=
  put [(R.KPU_RGN_STATUS_STATE, 0, 0, 3), (R.KPU_RGN_CFG_VALID, 0, 0, 0)] (kvOpened 1 7 kvS)

def state_KvRegions_6 : State :=
  (fun s => { s with kv := { s.kv with waiting := [(0, (kvRegOffs 0).map (fun o => (o, reg kvS o)))] } }) (put [(R.KPU_RGN_STATUS_STATE, 0, 0, 3), (R.KPU_RGN_CFG_VALID, 0, 0, 0)] (kvOpened 1 7 kvS))

def state_KvRegions_7 : State :=
  put [(R.KPU_UNIT_STATUS_STATE, 1, 0, 2)] { kvOpened 1 7 kvS with mem := memWrite kvS.mem 0x200040 [5] false }

/-- Hypotheses of KvRegions are met: one state and operands for each clause that has hypotheses. -/
theorem witness_KvRegions :
    (∃ (r : RegionIx) (s : State), (kvGeoOf (rdS s) r).valid = true ∧ (kvGeo s r).valid = false ∧ rd s R.KPU_RGN_STATUS_STATE r 0 ≠ 3 ∧
      kvCause1 (kvGeoOf (rdS s) r) (kvGeoOf (rdS s) r).farPa (kvGeoOf (rdS s) r).scalePa = false ∧ kvCause2 s (kvGeoOf (rdS s) r) =
      false ∧ kvCause3 s r (kvGeoOf (rdS s) r) = false ∧ kvCause4 s r (kvGeoOf (rdS s) r) = false) ∧
    (∃ (r : RegionIx) (s : State), kvGeoOf (rdS s) r = { kvGeo s r with valid := false } ∧ (kvGeo s r).valid = true ∧ kvCause1 (kvGeo s
      r) (kvGeo s r).farPa (kvGeo s r).scalePa = false ∧ rd s R.KPU_RGN_STATUS_STATE r 0 ≠ 3 ∧ rd s R.KPU_RGN_STATUS_OPEN_SEQ r 0 = 0) ∧
    (∃ (r : RegionIx) (s : State), rdB s R.KPU_RGN_STATUS_REJECTED r 0 = false ∧ kvCause1 (kvGeoOf (rdS s) r) (kvGeoOf (rdS s) r).farPa
      (kvGeoOf (rdS s) r).scalePa = true) ∧
    (∃ (r : RegionIx) (s : State), rd s R.KPU_RGN_STATUS_STATE r 0 = 1) ∧
    (∃ (r : RegionIx) (s : State), rd s R.KPU_RGN_STATUS_STATE r 0 = 3 ∧ SMap.look (fun _ => []) s.kv.waiting r = []) ∧
    (∃ (r : RegionIx) (s : State), rd s R.KPU_RGN_STATUS_STATE r 0 = 3) ∧
    (∃ (u : StackIx) (s : State), rd s R.KPU_UNIT_STATUS_STATE u 0 = 2) ∧
    (∃ (u : StackIx) (r : RegionIx) (q pa : Nat) (x : KvSeq) (s : State), rd s R.KPU_UNIT_STATUS_STATE u 0 = 2 ∧ ((∀ k < 64, rd s
      R.KPU_RGN_STATUS_STATE k 0 = 2 ↔ k = r.val)) ∧ (kvReg s r).seqs = [(q, x)] ∧ stackOfRank s (kvUnit s q) = u.val ∧
      Machine.translate s none (kvGeo s r).part ((kvGeo s r).seqtab + 64 * q) true false = .ok pa ∧ pa % 64 = 0 ∧ writeLost s pa =
      false) :=
  ⟨⟨0, state_KvRegions_1, by decide +kernel⟩,
   ⟨0, state_KvRegions_2, by decide +kernel⟩,
   ⟨0, state_KvRegions_3, by decide +kernel⟩,
   ⟨0, state_KvRegions_4, by decide +kernel⟩,
   ⟨0, state_KvRegions_5, by decide +kernel⟩,
   ⟨0, state_KvRegions_6, by decide +kernel⟩,
   ⟨1, state_KvRegions_7, by decide +kernel⟩,
   ⟨1, 0, 1, 0x200040, (kvSeq (kvOpened 1 7 kvS) 0 1), state_KvRegions_7, by decide +kernel⟩⟩

def state_ChannelsAndScrub_1 : State :=
  withMs (fun m => { m with retraining := [9, 3], fullTries := [(9, 2)] })

def state_ChannelsAndScrub_3 : State :=
  withMs (fun m => { m with retraining := [9, 3], fullTries := [(9, 3)] })

def state_ChannelsAndScrub_5 : State :=
  put [(R.MEM_SCRUB_CTL_ENABLE, 0, 0, 1)] (withMs (fun m => { m with scrub := 2 ^ 32 - 1 }))

/-- Hypotheses of ChannelsAndScrub are met: one state and operands for each clause that has hypotheses. -/
theorem witness_ChannelsAndScrub :
    (∃ (k : StackIx) (ch : ChanIx) (s : State), k.val * 8 + ch.val ∈ s.ms.retraining) ∧
    (∃ (k : StackIx) (ch : ChanIx) (s : State), k.val * 8 + ch.val ∈ s.ms.retraining ∧ SMap.look (fun _ => 0) s.ms.fullTries (k.val * 8
      + ch.val) < 3) ∧
    (∃ (k : StackIx) (ch : ChanIx) (s : State), k.val * 8 + ch.val ∈ s.ms.retraining ∧ 3 ≤ SMap.look (fun _ => 0) s.ms.fullTries (k.val
      * 8 + ch.val)) ∧
    (∃ (k : StackIx) (ch : ChanIx) (ok : Bool) (s : State), k.val * 8 + ch.val ∉ s.ms.retraining) ∧
    (∃ (s : State), rdB s R.MEM_SCRUB_CTL_ENABLE 0 0 = true ∧ nearLines s ≠ 0 ∧ dieSleeps s = false ∧ waitOf s 1 0 0 = none ∧ 2 ≤ rd s
      R.MEM_STACK_STATUS_STATE (bankRowOf s (s.ms.scrub * 64)).stack 0 ∧ scrubBlocked s (bankRowOf s (s.ms.scrub * 64)) = false) :=
  ⟨⟨1, 1, state_ChannelsAndScrub_1, by decide +kernel⟩,
   ⟨1, 1, state_ChannelsAndScrub_1, by decide +kernel⟩,
   ⟨1, 1, state_ChannelsAndScrub_3, by decide +kernel⟩,
   ⟨2, 1, true, state_ChannelsAndScrub_3, by decide +kernel⟩,
   ⟨state_ChannelsAndScrub_5, by decide +kernel⟩⟩

def state_CxlPorts_1 : State :=
  put [(R.CXL_PORT_STATUS_STATE, 0, 0, 3), (R.CXL_PORT_CAP_GIB, 0, 0, 100), (R.CXL_PORT_CTL_ENABLE, 0, 0, 1)] live

def state_CxlPorts_2 : State :=
  put [(R.CXL_PORT_STATUS_STATE, 1, 0, 1), (R.CXL_PORT_CTL_ENABLE, 1, 0, 1)] live

/-- Hypotheses of CxlPorts are met: one state and operands for each clause that has hypotheses. -/
theorem witness_CxlPorts :
    (∃ (n : PortIx) (cause : Nat) (s : State), portUp s n = true) ∧
    (∃ (n : PortIx) (gib rate width vendor : Nat) (s : State), rdB s R.CXL_PORT_CTL_ENABLE n 0 = true ∧ ((rd s R.CXL_PORT_STATUS_STATE n
      0 = 1 ∨ rd s R.CXL_PORT_STATUS_STATE n 0 = 2 ∨ rd s R.CXL_PORT_STATUS_STATE n 0 = 4)) ∧ 0 < gib ∧ ((rd s R.CXL_PORT_CAP_GIB n 0 =
      0 ∨ rd s R.CXL_PORT_CAP_GIB n 0 = min gib 8192))) ∧
    (∃ (n : PortIx) (ready : Bool) (gib rate width vendor : Nat) (s : State), rdB s R.CXL_PORT_CTL_ENABLE n 0 = true ∧ ((rd s
      R.CXL_PORT_STATUS_STATE n 0 = 1 ∨ rd s R.CXL_PORT_STATUS_STATE n 0 = 2 ∨ rd s R.CXL_PORT_STATUS_STATE n 0 = 4))) ∧
    (∃ (n : PortIx) (s : State), rdB s R.CXL_PORT_CTL_ENABLE n 0 = true) ∧
    (∃ (n : PortIx) (events : List (Nat × W64)) (s : State), portUp s n = true) :=
  ⟨⟨0, 3, state_CxlPorts_1, by decide +kernel⟩,
   ⟨1, 9000, 5, 8, 77, state_CxlPorts_2, by decide +kernel⟩,
   ⟨1, true, 9000, 5, 8, 77, state_CxlPorts_2, by decide +kernel⟩,
   ⟨0, state_CxlPorts_1, by decide +kernel⟩,
   ⟨0, [(0, 5), (1, 6)], state_CxlPorts_1, by decide +kernel⟩⟩

def state_TranslationCommands_2 : State :=
  { put [(R.DTU_CTX_ROOT_VALID, 0, 0, 1), (R.DTU_CTX_ROOT_ROOT, 0, 0, 0x4000)] (withMs (fun m => { m with walks := [⟨.core 0, 0, 0x40000123, false⟩] })) with mem := memWrite (memWrite live.mem 0x400000 [1, 0x10, 0x40] false) 0x401008 [3, 0, 0, 0x40] false }

def state_TranslationCommands_3 : State :=
  withMs (fun m => { m with walks := [⟨.kpu 3, 2, 0x5000, false⟩] })

def state_TranslationCommands_5 : State :=
  put [(R.DTU_INVAL_STATUS_PENDING, 0, 0, 1)] (withMs (fun m => { m with invals := [⟨3, 0, 0, 0x10000, 65536, false⟩], tlb := [⟨none, 0, 0, 0, 0x10000, true⟩, ⟨none, 0, 0x10000, 0, 0x10000, true⟩] }))

def state_TranslationCommands_7 : State :=
  put [(R.PRT_STATUS_TDI_STATE, 0, 0, 3)] live

def state_TranslationCommands_8 : State :=
  put [(R.PRT_STATUS_TDI_STATE, 0, 0, 2)] live

/-- Hypotheses of TranslationCommands are met: one state and operands for each clause that has hypotheses. -/
theorem witness_TranslationCommands :
    (∃ (who : Requester) (ctx : PartIx) (va : Nat) (write : Bool) (s : State), translated who = true ∧ ((∀ x ∈ s.ms.tlb, x.covers
      (requesterCore who) ctx (va % 2 ^ 48) = false))) ∧
    (∃ (n : Nat) (k : Walk) (x : Xlat) (s : State), s.ms.walks[n]? = some k ∧ (walkReads s k.ctx k.va).any (fun a => memWaits s a 8) =
      false ∧ walk s k.ctx k.va k.write (match k.who with | .core _ => true | .mover _ => true | _ => false) = .ok x) ∧
    (∃ (n : Nat) (k : Walk) (u : StackIx) (s : State), s.ms.walks[n]? = some k ∧ k.who = .kpu u ∧ k.ctx < 16 ∧ rdB s
      R.DTU_CTX_ROOT_VALID k.ctx 0 = false ∧ rdB s R.DTU_FAULT_VALID 0 0 = false) ∧
    (∃ (v : W64) (s : State), ((getBits v 4 1 = 1 ∨ getBits v 8 32 ≠ 0))) ∧
    (∃ (i : Inval) (s : State), s.ms.invals = [i] ∧ bar2Before s i = false ∧ accessUnder s i = false) ∧
    (∃ (p : PartIx) (v : W64) (s : State), tdiLocked s p = false ∧ rd s R.PRT_STATUS_TDI_STATE p 0 ≠ 3 ∧ getBits v 8 4 = 0) ∧
    (∃ (p : PartIx) (v : W64) (s : State), rd s R.PRT_STATUS_TDI_STATE p 0 = 3) ∧
    (∃ (p : PartIx) (v : W64) (s : State), tdiLocked s p = true) :=
  ⟨⟨.core 0, 1, 0x123456, true, live, by decide +kernel⟩,
   ⟨0, ⟨.core 0, 0, 0x40000123, false⟩, ⟨none, 0, 2 ^ 30, 2 ^ 30, 2 ^ 30, false⟩, state_TranslationCommands_2, by decide +kernel⟩,
   ⟨0, ⟨.kpu 3, 2, 0x5000, false⟩, 3, state_TranslationCommands_3, by decide +kernel⟩,
   ⟨0x300, live, by decide +kernel⟩,
   ⟨⟨3, 0, 0, 0x10000, 65536, false⟩, state_TranslationCommands_5, by decide +kernel⟩,
   ⟨0, 0x400001, live, by decide +kernel⟩,
   ⟨0, 0x400001, state_TranslationCommands_7, by decide +kernel⟩,
   ⟨0, 0x400001, state_TranslationCommands_8, by decide +kernel⟩⟩

def state_PollsAndSlots_1 : State :=
  ring0 (fun r => { r with woken := true })

def state_PollsAndSlots_2 : State :=
  put [(R.SEQ_RQ_BASE_LOC, 0, 0, 1)] (ring0 (fun r => { r with pollUs := 64 }))

def state_PollsAndSlots_5 : State :=
  { put [(R.SEQ_RQ_STATUS_NEXT_SLOT, 0, 0, 15)] (ring0 (fun r => r)) with mem := memWrite live.mem 0x780 [1, 4, 0, 0, 0, 0, 0, 0, 9] false }

def state_PollsAndSlots_6 : State :=
  { put [(R.SEQ_RQ_BASE_LOC, 0, 0, 1)] (ring0 (fun r => r)) with ord := { live.ord with reads := [⟨6, 1, 0, 128, 2, 0, none, none, none, 0, none, none⟩] } }

/-- Hypotheses of PollsAndSlots are met: one state and operands for each clause that has hypotheses. -/
theorem witness_PollsAndSlots :
    (∃ (w : RingIx) (s : State), (ringAt s w).woken = true ∧ ringState s w = 2) ∧
    (∃ (w : RingIx) (bs : List Byte) (s : State), onHost s w = true ∧ mayTake s w = true ∧ ringReads s w = true ∧ slotRead s w = none ∧
      (ringAt s w).polledAt + us (ringAt s w).pollUs ≤ s.utime ∧ genMatches s w (BitVec.ofNat 64 (leNat (bs.take 8))) = false) ∧
    (∃ (w : RingIx) (bs : List Byte) (s : State), onHost s w = true ∧ mayTake s w = true ∧ ringReads s w = true ∧ slotRead s w = none ∧
      (ringAt s w).polledAt + us (ringAt s w).pollUs ≤ s.utime ∧ genMatches s w (BitVec.ofNat 64 (leNat (bs.take 8))) = true) ∧
    (∃ (w : RingIx) (reply : HostReply) (s : State), onHost s w = true ∧ mayTake s w = true ∧ ringReads s w = true ∧ slotRead s w = none
      ∧ (ringAt s w).polledAt + us (ringAt s w).pollUs ≤ s.utime ∧ ((∀ bs, reply ≠ .data bs))) ∧
    (∃ (w : RingIx) (k a : Nat) (hostWords words : List W64) (s : State), mayTake s w = true ∧ onHost s w = false ∧ k = rd s
      R.SEQ_RQ_STATUS_NEXT_SLOT w 0 ∧ a = slotAddr s w k ∧ words = bytesWords (cohRead s a 128).1 ∧ memWaits s a 128 = false ∧
      cohPoisonAt s a 128 = none ∧ genMatches s w (words.getD 0 0) = true ∧ (ringAt s w).taken = [] ∧ slotWordsBad ⟨k, words, none⟩ =
      false) ∧
    (∃ (w : RingIx) (words : List W64) (s : State), mayTake s w = true ∧ onHost s w = true ∧ (slotRead s w).any (fun r => decide (r.addr
      = slotAddr s w (rd s R.SEQ_RQ_STATUS_NEXT_SLOT w 0))) = true ∧ genMatches s w (words.getD 0 0) = true ∧ (ringAt s w).taken = [] ∧
      slotWordsBad ⟨rd s R.SEQ_RQ_STATUS_NEXT_SLOT w 0, words.take 16, none⟩ = false) :=
  ⟨⟨0, state_PollsAndSlots_1, by decide +kernel⟩,
   ⟨0, [9, 2, 3, 4, 5, 6, 7, 8], state_PollsAndSlots_2, by decide +kernel⟩,
   ⟨0, [1, 4], state_PollsAndSlots_2, by decide +kernel⟩,
   ⟨0, .timeout, state_PollsAndSlots_2, by decide +kernel, by decide +kernel, by decide +kernel, by decide +kernel, by decide +kernel, by intro bs h; cases h⟩,
   ⟨0, 15, 0x780, [], bytesWords (cohRead ({ put [(R.SEQ_RQ_STATUS_NEXT_SLOT, 0, 0, 15)] (ring0 (fun r => r)) with mem := memWrite live.mem 0x780 [1, 4, 0, 0, 0, 0, 0, 0, 9] false }) 0x780 128).1, state_PollsAndSlots_5, by decide +kernel⟩,
   ⟨0, 0x401 :: List.replicate 17 0, state_PollsAndSlots_6, by decide +kernel⟩⟩

def state_RingControl_1 : State :=
  put [(R.SEQ_RQ_STATUS_STATE, 0, 0, 1)] (ring0 (fun r => r))

def state_RingControl_2 : State :=
  ring0 (fun r => { r with taken := [⟨4, [], none⟩, ⟨5, [], none⟩] })

def state_RingControl_3 : State :=
  put [(R.SEQ_RQ_STATUS_STATE, 0, 0, 3)] (ring0 (fun r => { r with taken := [⟨4, [], none⟩] }))

def state_RingControl_5 : State :=
  put [(R.SEQ_RQ_STATUS_STATE, 0, 0, 1)] (put [(R.SEQ_RQ_STATUS_NEXT_SLOT, 0, 0, 9), (R.SEQ_RQ_STATUS_EXPECT_GEN, 0, 0, 200)] live)

def state_RingControl_8 : State :=
  putS [(R.SEQ_CQ_CFG_SIZE, 1, 0, 11)] live

def state_RingControl_9 : State :=
  putS [(R.SEQ_CQ_CFG_VALID, 1, 0, 1), (R.SEQ_CQ_CFG_SIZE, 1, 0, 10), (R.SEQ_CQ_CFG_IRQ_MODE, 1, 0, 2), (R.SEQ_CQ_BASE_ADDR, 1, 0, 7)] live

def state_RingControl_10 : State :=
  putS [(R.SEQ_SCHED_POLL_MAX_US, 0, 0, 100), (R.SEQ_SCHED_SLICE_US, 0, 0, 100), (R.SEQ_SCHED_BEAT_LIMIT_US, 0, 0, 200)] live

def state_RingControl_11 : State :=
  putS [(R.SEQ_SCHED_POLL_MAX_US, 0, 0, 101)] live

/-- Hypotheses of RingControl are met: one state and operands for each clause that has hypotheses. -/
theorem witness_RingControl :
    (∃ (w : RingIx) (s : State), ringState s w = 1) ∧
    (∃ (w : RingIx) (s : State), ringState s w = 2) ∧
    (∃ (w : RingIx) (s : State), ((ringState s w = 2 ∨ ringState s w = 3)) ∧ (ringAt s w).cmd = none) ∧
    (∃ (w : RingIx) (d : Cmd) (s : State), ((ringState s w = 2 ∨ ringState s w = 3)) ∧ (ringAt s w).cmd = some d ∧ ((d.phase = .running
      ∨ d.phase = .loading))) ∧
    (∃ (w : RingIx) (s : State), ringState s w = 1) ∧
    (∃ (fn : FnIx) (w : RingIx) (s : State), reachesRing s fn w = true ∧ rqCause s fn w ≠ 0 ∧ rdB s R.SEQ_RQ_STATUS_REJECTED w 0 =
      false) ∧
    (∃ (fn : FnIx) (w : RingIx) (s : State), fn.val = 0 ∧ rqCause s fn w = 0 ∧ rdS s R.SEQ_RQ_CFG_VALID w 0 = 1 ∧ ((ringState s w = 0 ∨
      ringState s w = 1))) ∧
    (∃ (cq : RingIx) (s : State), ((10 < rdS s R.SEQ_CQ_CFG_SIZE cq 0 ∨ rdS s R.SEQ_CQ_CFG_IRQ_MODE cq 0 = 3))) ∧
    (∃ (cq : RingIx) (s : State), rdS s R.SEQ_CQ_CFG_SIZE cq 0 ≤ 10 ∧ rdS s R.SEQ_CQ_CFG_IRQ_MODE cq 0 ≠ 3 ∧ rdS s R.SEQ_CQ_CFG_VALID cq
      0 = 1 ∧ (cqAt s cq).created = false ∧ ((∀ w < 64, rdB s R.SEQ_RQ_CFG_VALID w 0 = true → rd s R.SEQ_RQ_CFG_CQ w 0 ≠ cq.val)) ∧ ((∀
      r ∈ s.sch.hold, r.cq ≠ cq.val))) ∧
    (∃ (s : State), 1 ≤ rdS s R.SEQ_SCHED_POLL_MAX_US 0 0 ∧ rdS s R.SEQ_SCHED_POLL_MAX_US 0 0 ≤ 100 ∧ 100 ≤ rdS s R.SEQ_SCHED_SLICE_US 0
      0 ∧ 200 ≤ rdS s R.SEQ_SCHED_BEAT_LIMIT_US 0 0) ∧
    (∃ (s : State), ((rdS s R.SEQ_SCHED_POLL_MAX_US 0 0 = 0 ∨ 100 < rdS s R.SEQ_SCHED_POLL_MAX_US 0 0 ∨ rdS s R.SEQ_SCHED_SLICE_US 0 0 <
      100 ∨ rdS s R.SEQ_SCHED_BEAT_LIMIT_US 0 0 < 200))) :=
  ⟨⟨0, state_RingControl_1, by decide +kernel⟩,
   ⟨0, state_RingControl_2, by decide +kernel⟩,
   ⟨0, state_RingControl_3, by decide +kernel⟩,
   ⟨0, cmdA, live, by decide +kernel⟩,
   ⟨0, state_RingControl_5, by decide +kernel⟩,
   ⟨0, 0, live, by decide +kernel⟩,
   ⟨0, 1, ring1S, by decide +kernel⟩,
   ⟨1, state_RingControl_8, by decide +kernel⟩,
   ⟨1, state_RingControl_9, by decide +kernel⟩,
   ⟨state_RingControl_10, by decide +kernel⟩,
   ⟨state_RingControl_11, by decide +kernel⟩⟩

def state_CommandsBegin_2 : State :=
  { takenS copyW with spd := spdWrite live.spd 1 0x100 [1, 2, 3, 4, 5, 6, 7, 8, 9] false }

def state_CommandsBegin_3 : State :=
  { takenS kvW with mem := memWrite live.mem 0x4000 (wordsBytes (kvD 1 1 0 0 0 ++ kvD 6 2 0 0 0)) false, ms := { live.ms with lines := [(256, ⟨0, false⟩), (257, ⟨0, false⟩)] } }

def state_CommandsBegin_4 : State :=
  (fun s => onRing { s with mem := memWrite live.mem 0x4000 (wordsBytes (kvD 1 1 0 0 0 ++ kvD 6 2 0 0 0)) false, ms := { live.ms with lines := [(256, ⟨0, false⟩), (257, ⟨0, false⟩)] } } 0 (fun r => { r with cmd := some { cmdA with words := kvW, cores := [], issued := 1 } })) live

/-- Hypotheses of CommandsBegin are met: one state and operands for each clause that has hypotheses. -/
theorem witness_CommandsBegin :
    (∃ (w : RingIx) (x : Taken) (ps : List (Nat × Nat)) (es : List (List W64)) (s : State), frontSlot s w 1 = some x ∧ MemQuiet s ∧
      kernelWordsBad x.words = false ∧ accessWaits s none (ringPart s w) (dw x.words 2 0 48) (dw x.words 3 0 9 * 64) true = false ∧
      pieces s none (ringPart s w) false false (dw x.words 2 0 48) (dw x.words 3 0 9 * 64) = .ok ps ∧ ((∀ q ∈ ps, cohPoisonAt s q.1 q.2
      = none)) ∧ es = (List.range (dw x.words 3 0 9)).map (fun i => ((bytesWords (readPieces s ps).1).drop (8 * i)).take 8)) ∧
    (∃ (w : RingIx) (x : Taken) (m : Nat) (s : State), frontSlot s w 2 = some x ∧ isResident s w = true ∧ copyBad x.words = false ∧
      cpSrcSpd x.words = true ∧ cpDstSpd x.words = true ∧ cpSrcCore x.words = m ∧ cpDstCore x.words = m ∧ cpRows x.words = 1 ∧ m ∉
      (ringAt s w).retired ∧ copyPlaceBad s w m = false ∧ copyBeyond x.words = false ∧ coresReady s [m] = true ∧ copyOverlaps x.words =
      false ∧ SpdQuiet m s ∧ rdB s R.SPD_OVERLAP_CTL_ACTIVE m 0 = false) ∧
    (∃ (w : RingIx) (x : Taken) (ps : List (Nat × Nat)) (s : State), frontSlot s w 3 = some x ∧ isResident s w = true ∧ MemQuiet s ∧
      kvOpsBad x.words = false ∧ kvOpsWaits s w (freshCmd s x .running) = false ∧ pieces s none (ringPart s w) false false (dw x.words 2
      0 48) 48 = .ok ps ∧ ((∀ q ∈ ps, cohPoisonAt s q.1 q.2 = none)) ∧ kvDescBad (kvEntry s (ringPart s w) (dw x.words 2 0 48)) = false) ∧
    (∃ (w : RingIx) (c : Cmd) (ps : List (Nat × Nat)) (s : State), (ringAt s w).cmd = some c ∧ c.phase = .running ∧ opcodeOf c.words = 3
      ∧ c.aborting = false ∧ s.ras.cut = false ∧ MemQuiet s ∧ kvOpsWaits s w c = false ∧ pieces s none (ringPart s w) false false
      (kvOpsVa c) 48 = .ok ps ∧ ((∀ q ∈ ps, cohPoisonAt s q.1 q.2 = none)) ∧ kvDescBad (kvEntry s (ringPart s w) (kvOpsVa c)) = false) ∧
    (∃ (w : RingIx) (x : Taken) (s : State), frontSlot s w 4 = some x ∧ isResident s w = true ∧ ((∀ y ∈ x.words.drop 2, y = 0))) :=
  ⟨⟨0, ⟨4, kernelW, none⟩, [(0x2000, 64)], [entryW], kernelS, by decide +kernel, by unfold MemQuiet; decide +kernel, by decide +kernel⟩,
   ⟨0, ⟨4, copyW, none⟩, 1, state_CommandsBegin_2, by decide +kernel, by decide +kernel, by decide +kernel, by decide +kernel, by decide +kernel, by decide +kernel, by decide +kernel, by decide +kernel, by decide +kernel, by decide +kernel, by decide +kernel, by decide +kernel, by decide +kernel, by unfold SpdQuiet; decide +kernel, by decide +kernel⟩,
   ⟨0, ⟨4, kvW, none⟩, [(0x4000, 48)], state_CommandsBegin_3, by decide +kernel, by decide +kernel, by unfold MemQuiet; decide +kernel, by decide +kernel⟩,
   ⟨0, { cmdA with words := kvW, cores := [], issued := 1 }, [(0x4030, 48)], state_CommandsBegin_4, by decide +kernel, by decide +kernel, by decide +kernel, by decide +kernel, by decide +kernel, by unfold MemQuiet; decide +kernel, by decide +kernel⟩,
   ⟨0, ⟨4, [0x401, 7], none⟩, takenS [0x401, 7], by decide +kernel, by decide +kernel, of_all (by decide +kernel)⟩⟩

def state_Kernels_1 : State :=
  { idleS { kcmd .waiting with entries := [[0x10000, 0x3000, 0x800000008, 0x3000, 0x100, 0, 0, 0]] } with mem := memWrite live.mem 0x3000 [1, 2, 3, 4, 5, 6, 7, 8] false }

def state_Kernels_3 : State :=
  onRing live 0 (fun r => { r with preempt := true })

def state_Kernels_5 : State :=
  onHarp (onCore { live with ord := { live.ord with nextId := 5 } } 0 (fun x => { x with ending := true })) 0 2 (fun h => { h with set1 := { AccSet.fresh with use := .active } })

def state_Kernels_5b : State :=
  onCore { live with ord := { live.ord with nextId := 5 } } 0 (fun x => { x with ending := true })

/-- Hypotheses of Kernels are met: one state and operands for each clause that has hypotheses. -/
theorem witness_Kernels :
    (∃ (w : RingIx) (d : Cmd) (l : List (List (Nat × Nat) × List (Nat × Nat))) (s : State), (ringAt s w).cmd = some d ∧ d.phase =
      .waiting ∧ opcodeOf d.words = 1 ∧ isResident s w = true ∧ (ringAt s w).preempt = false ∧ haltInProgress s = false ∧ coresReady s
      d.cores = true ∧ rdB s R.SEQ_RQ_CFG_GANG_EN w 0 = false ∧ entryPieces s (ringPart s w) d.entries = .ok l ∧ entriesWait s (ringPart
      s w) d.entries = false ∧ ((∀ q ∈ l, ∀ r ∈ q.1, cohPoisonAt s r.1 r.2 = none)) ∧ (d.entries.map entCore).Nodup ∧ ((∀ e ∈ d.entries,
      entCore e < 288 ∧ entryBad e = false ∧ entryBeyond e = false ∧ SpdQuiet (entCore e) s)) ∧ MemQuiet s) ∧
    (∃ (w : RingIx) (d : Cmd) (s : State), (ringAt s w).cmd = some d ∧ d.phase = .loading ∧ d.aborting = false ∧ s.ras.cut = false ∧
      d.cores.all (coreOn s) = true) ∧
    (∃ (c : CoreIx) (w : RingIx) (s : State), canIssue s c = true ∧ (coreAt s c).ring = some w.val ∧ (ringAt s w).preempt = true) ∧
    (∃ (c : CoreIx) (w : RingIx) (s : State), canIssue s c = true ∧ (coreAt s c).ring = some w.val ∧ (ringAt s w).preempt = false) ∧
    (∃ (c : CoreIx) (w : RingIx) (d : Cmd) (s : State), (coreAt s c).ring = some w.val ∧ (coreAt s c).ending = true ∧ ((∀ h < 8,
      harpOver s c h = true)) ∧ coreDone s c s.ord.nextId = true ∧ resultsLeft s w = false ∧ (coreAt s c).polyLoad = none ∧ (coreAt s
      c).invalidating = none ∧ (ringAt s w).cmd = some d ∧ d.phase = .running ∧ ((∃ h < 8, (harpAt s c h).set0.use ≠ .empty ∨ (harpAt s
      c h).set1.use ≠ .empty))) ∧
    (∃ (c : CoreIx) (w : RingIx) (d : Cmd) (s : State), (coreAt s c).ring = some w.val ∧ (coreAt s c).ending = true ∧ ((∀ h < 8,
      harpOver s c h = true)) ∧ coreDone s c s.ord.nextId = true ∧ resultsLeft s w = false ∧ (coreAt s c).polyLoad = none ∧ (coreAt s
      c).invalidating = none ∧ (ringAt s w).cmd = some d ∧ d.phase = .running ∧ ((∀ h < 8, (harpAt s c h).set0.use = .empty ∧ (harpAt s
      c h).set1.use = .empty))) :=
  ⟨⟨0, { kcmd .waiting with entries := [[0x10000, 0x3000, 0x800000008, 0x3000, 0x100, 0, 0, 0]] }, [([(0x3000, 8)], [(0x3000, 8)])], state_Kernels_1, by decide +kernel, by decide +kernel, by decide +kernel, by decide +kernel, by decide +kernel, by decide +kernel, by decide +kernel, by decide +kernel, by decide +kernel, by decide +kernel, by decide +kernel, by decide +kernel, by unfold SpdQuiet; decide +kernel, by unfold MemQuiet; decide +kernel⟩,
   ⟨0, kcmd .loading, idleS (kcmd .loading), by decide +kernel⟩,
   ⟨0, 0, state_Kernels_3, by decide +kernel⟩,
   ⟨0, 0, live, by decide +kernel⟩,
   ⟨0, 0, cmdA, state_Kernels_5, by decide +kernel⟩,
   ⟨0, 0, cmdA, state_Kernels_5b, by decide +kernel⟩⟩

def state_SequencerInstructions_2 : State :=
  put [(R.CNT_CTL_FREEZE, 0, 0, 1), (R.CNT_COUNT, 0, 5, 77)] live

def state_SequencerInstructions_3 : State :=
  put [(R.CNT_COUNT, 0, 5, 77), (R.CNT_COUNT, 0, 56, 2 ^ 40)] live

def state_SequencerInstructions_4 : State :=
  put [(R.CNT_TRACE_CTL_ENABLE, 0, 0, 1), (R.CNT_TRACE_CTL_KINDS, 0, 0, 0x400)] live

/-- Hypotheses of SequencerInstructions are met: one state and operands for each clause that has hypotheses. -/
theorem witness_SequencerInstructions :
    (∃ (c : CoreIx) (w : RingIx) (level : Fin 4) (u : Nat) (stagger : Fin 3) (s : State), canIssue s c = true ∧ (coreAt s c).ring = some
      w.val) ∧
    (∃ (c : CoreIx) (s : State), canIssue s c = true ∧ rdB s R.CNT_CTL_FREEZE c 0 = true) ∧
    (∃ (c : CoreIx) (s : State), canIssue s c = true ∧ rdB s R.CNT_CTL_FREEZE c 0 = false) ∧
    (∃ (c : CoreIx) (a b : W64) (s : State), canIssue s c = true ∧ rdB s R.CNT_TRACE_CTL_ENABLE c 0 = true ∧ rd s R.CNT_TRACE_CTL_KINDS
      c 0 / 2 ^ 10 % 2 = 1 ∧ rdB s R.CNT_TRACE_STATUS_FULL c 0 = false ∧ (coreAt s c).trace.length < 16) ∧
    (∃ (c : CoreIx) (w : RingIx) (desc : List W64) (s : State), canIssue s c = true ∧ (coreAt s c).ring = some w.val ∧ kvDescBad desc =
      false) ∧
    (∃ (c : CoreIx) (w : RingIx) (desc : List W64) (s : State), canIssue s c = true ∧ (coreAt s c).ring = some w.val ∧ kvDescBad desc =
      true) :=
  ⟨⟨0, 0, 2, 70000, 1, live, by decide +kernel⟩,
   ⟨0, state_SequencerInstructions_2, by decide +kernel⟩,
   ⟨0, state_SequencerInstructions_3, by decide +kernel⟩,
   ⟨0, 5, 6, state_SequencerInstructions_4, by decide +kernel⟩,
   ⟨0, 0, kvD 1 1 0 0 0, live, by decide +kernel⟩,
   ⟨0, 0, kvD 1 1 5 0 0, live, by decide +kernel⟩⟩

def state_Records_2 : State :=
  { boundedS with hst := { boundedS.hst with linkUp := false } }

def state_Records_3 : State :=
  ring0 (fun r => { r with owed := [(⟨4, [], none⟩, 0x20)] })

def state_Records_4 : State :=
  put [(R.SEQ_CQ_STATUS_PRODUCED, 0, 0, 64)] live

def state_Records_6 : State :=
  { live with sch := { live.sch with cqs := [(0, ⟨true, 0, 5, true, 0⟩)] } }

def state_Records_8 : State :=
  put [(R.SEQ_CQ_CFG_MODULE_EVENTS, 0, 0, 1)] { live with sch := { live.sch with dropped := 3 } }

/-- Hypotheses of Records are met: one state and operands for each clause that has hypotheses. -/
theorem witness_Records :
    (∃ (w : RingIx) (d : Cmd) (q : Nat) (s : State), (ringAt s w).cmd = some d ∧ d.phase = .bounded ∧ recordsWait s w = false ∧ q = rd s
      R.SEQ_RQ_CFG_CQ w 0 ∧ cqReachable s q = true ∧ cqFull s q = false ∧ ((∀ h ∈ s.sch.hold, h.cq ≠ q)) ∧ (ringAt s w).taken = []) ∧
    (∃ (w : RingIx) (d : Cmd) (q : Nat) (s : State), (ringAt s w).cmd = some d ∧ d.phase = .bounded ∧ recordsWait s w = false ∧ q = rd s
      R.SEQ_RQ_CFG_CQ w 0 ∧ ((cqReachable s q = false ∨ cqFull s q = true ∨ ∃ h ∈ s.sch.hold, h.cq = q)) ∧ s.sch.hold.length < 256) ∧
    (∃ (w : RingIx) (x : Taken) (code : Nat) (rest : List (Taken × Nat)) (s : State), (ringAt s w).cmd = none ∧ (ringAt s w).owed = (x,
      code) :: rest ∧ recordsWait s w = false ∧ s.sch.hold.length < 256) ∧
    (∃ (cq : RingIx) (bs : List Byte) (s : State), rdB s R.SEQ_CQ_CFG_VALID cq 0 = true ∧ cqFull s cq = true ∧ cqReachable s cq = true ∧
      (cqAt s cq).rereadAt ≤ s.utime) ∧
    (∃ (cq : RingIx) (reply : HostReply) (s : State), rdB s R.SEQ_CQ_CFG_VALID cq 0 = true ∧ cqFull s cq = true ∧ cqReachable s cq =
      true ∧ (cqAt s cq).rereadAt ≤ s.utime ∧ ((∀ bs, reply ≠ .data bs)) ∧ cq.val ∉ s.hst.ctlFailed) ∧
    (∃ (cq : RingIx) (s : State), (cqAt s cq).owesIrq = true ∧ (cqAt s cq).holdUntil ≤ s.utime) ∧
    (∃ (s : State), s.sch.dropped ≠ 0 ∧ s.sch.hold.length < 256) :=
  ⟨⟨0, { cmdA with phase := .bounded, causes := 2 ^ 29 }, 0, boundedS, by decide +kernel⟩,
   ⟨0, { cmdA with phase := .bounded, causes := 2 ^ 29 }, 0, state_Records_2, by decide +kernel⟩,
   ⟨0, ⟨4, [], none⟩, 0x20, [], state_Records_3, by decide +kernel⟩,
   ⟨0, [7, 0, 0, 0, 1], state_Records_4, by decide +kernel⟩,
   ⟨0, .timeout, state_Records_4, by decide +kernel, by decide +kernel, by decide +kernel, by decide +kernel, (by intro bs h; cases h), by decide +kernel⟩,
   ⟨0, state_Records_6, by decide +kernel⟩,
   ⟨state_Records_8, by decide +kernel⟩⟩

def state_Residency_1 : State :=
  put [(R.SEQ_RQ_STATUS_RESIDENT, 0, 0, 0), (R.SEQ_RQ_CFG_SHARES, 0, 0, 1)] live

def state_Residency_5 : State :=
  put [(R.SEQ_RQ_STATUS_SAVED, 0, 0, 1), (R.SEQ_RQ_STATUS_RESIDENT, 0, 0, 0)] { onRing live 0 (fun r => { r with cmd := some { cmdA with phase := .saved, savedAt := 7, savedNs := 4 }, save := [⟨0, { Core.fresh with ring := some 0, running := true }, [], [], [], []⟩] }) with cores := [(0, { Core.fresh with power := .running }), (1, { Core.fresh with power := .running })] }

def state_Residency_6 : State :=
  onRing live 0 (fun r => { r with preempt := true, cmd := some { cmdA with words := [0x100], preemptAt := some 5 } })

/-- Hypotheses of Residency are met: one state and operands for each clause that has hypotheses. -/
theorem witness_Residency :
    (∃ (p : PartIx) (s : State), SMap.look (fun _ => 0) s.sch.decided p ≤ s.utime ∧ s.ras.cut = false ∧ p.val ∉ s.tru.halted) ∧
    (∃ (c : CoreIx) (w : RingIx) (d : Cmd) (s : State), canIssue s c = true ∧ (coreAt s c).ring = some w.val ∧ (ringAt s w).cmd = some
      d) ∧
    (∃ (c : CoreIx) (w : RingIx) (s : State), (coreAt s c).ring = some w.val ∧ (ringAt s w).preempt = true ∧ isResident s w = true ∧
      (coreAt s c).saved = false ∧ coreSettled s c = true ∧ ((∀ d, (ringAt s w).cmd = some d → (d.phase = .running ∨ d.phase =
      .waiting))) ∧ (∃ k ∈ ringCores s w, k ≠ c.val ∧ (coreAt s k).saved = false)) ∧
    (∃ (c : CoreIx) (w : RingIx) (s : State), (coreAt s c).ring = some w.val ∧ (ringAt s w).preempt = true ∧ isResident s w = true ∧
      (coreAt s c).saved = false ∧ coreSettled s c = true ∧ ((∀ d, (ringAt s w).cmd = some d → (d.phase = .running ∨ d.phase = .waiting)
      ∧ d.aborting = false)) ∧ ((∀ k ∈ ringCores s w, k ≠ c.val → (coreAt s k).saved = true)) ∧ (ringCores s w).any (arriving s) =
      false) ∧
    (∃ (w : RingIx) (s : State), isSaved s w = true ∧ w.val ∈ chosenJobs s (ringPart s w) ∧ coresFree s w = true ∧ haltInProgress s =
      false ∧ ringPart s w ∉ s.tru.halted ∧ coresReady s (usableCores s w) = true ∧ rdB s R.SEQ_RQ_CFG_GANG_EN w 0 = false) ∧
    (∃ (w : RingIx) (d : Cmd) (at_ : Nat) (s : State), (ringAt s w).cmd = some d ∧ d.preemptAt = some at_ ∧ at_ + us (rd s
      R.SEQ_SCHED_BEAT_LIMIT_US 0 0) ≤ s.utime ∧ (ringAt s w).preempt = true ∧ opcodeOf d.words = 1 ∧ ((d.phase = .running ∨ d.phase =
      .loading)) ∧ (∃ k ∈ d.cores, atStop s k = false)) :=
  ⟨⟨0, state_Residency_1, by decide +kernel⟩,
   ⟨0, 0, cmdA, state_Kernels_3, by decide +kernel⟩,
   ⟨0, 0, preS false, by decide +kernel⟩,
   ⟨0, 0, preS true, by decide +kernel⟩,
   ⟨0, state_Residency_5, by decide +kernel⟩,
   ⟨0, { cmdA with words := [0x100], preemptAt := some 5 }, 5, state_Residency_6, by decide +kernel⟩⟩

def state_Partitions_4 : State :=
  put [(R.PRT_STATUS_STATE, 0, 0, 2)] live

def state_Partitions_6 : State :=
  put [(R.PRT_RANGE_STATUS_PENDING, 0, 0, 1)] shadowRanges

def state_Partitions_8 : State :=
  putS [(R.PRT_RANGE_BASE_VALID, 1, 0, 1)] shadowRanges |> putS [(R.PRT_RANGE_SIZE_GIB, 1, 0, 0)]

def state_Partitions_9 : State :=
  put [(R.PRT_RANGE_STATUS_PENDING, 0, 0, 1)] { shadowRanges with ms := { shadowRanges.ms with rangeClear := [(0x200000000, 1024, 0)] } }

def state_Partitions_10 : State :=
  putS [(R.PRT_ISO_ENABLE, 0, 0, 1)] live

def state_Partitions_12 : State :=
  put [(R.PRT_ISO_STATUS_PENDING, 0, 0, 1), (R.PRT_ISO_ENABLE, 0, 0, 1)] live

/-- Hypotheses of Partitions are met: one state and operands for each clause that has hypotheses. -/
theorem witness_Partitions :
    (∃ (p : PartIx) (s : State), prtCause s p ≠ 0 ∧ prtCause s p ≠ 5 ∧ rdB s R.PRT_STATUS_REJECTED p 0 = false) ∧
    (∃ (p : PartIx) (s : State), prtCause s p = 0) ∧
    (∃ (p : PartIx) (s : State), rd s R.PRT_STATUS_STATE p 0 = 1 ∧ computeBusy s = false) ∧
    (∃ (p : PartIx) (s : State), rd s R.PRT_STATUS_STATE p 0 ≠ 1) ∧
    (∃ (p : PartIx) (s : State), rd s R.PRT_STATUS_STATE p 0 = 2 ∧ computeBusy s = false ∧ kvFlying s p = false) ∧
    (∃ (s : State), rdB s R.PRT_RANGE_STATUS_PENDING 0 0 = true) ∧
    (∃ (s : State), rdB s R.PRT_RANGE_STATUS_PENDING 0 0 = false ∧ (rangeCause s (rangesIn (rd s)) (rangesIn (rdS s))).1 = 0) ∧
    (∃ (s : State), rdB s R.PRT_RANGE_STATUS_PENDING 0 0 = false ∧ (rangeCause s (rangesIn (rd s)) (rangesIn (rdS s))).1 ≠ 0 ∧
      (rangeCause s (rangesIn (rd s)) (rangesIn (rdS s))).1 ≠ 6 ∧ rdB s R.PRT_RANGE_STATUS_REJECTED 0 0 = false) ∧
    (∃ (s : State), rdB s R.PRT_RANGE_STATUS_PENDING 0 0 = true ∧ ((∀ r ∈ s.ms.rangeClear, ∀ n, placeOf s r.1 = .cxl n → portUp s n =
      true))) ∧
    (∃ (s : State), rdS s R.PRT_ISO_ENABLE 0 0 = 1 ∧ isoCause s ≠ 0) ∧
    (∃ (s : State), ((rdS s R.PRT_ISO_ENABLE 0 0 = 0 ∨ isoCause s = 0))) ∧
    (∃ (s : State), rdB s R.PRT_ISO_STATUS_PENDING 0 0 = true) :=
  ⟨⟨0, live, by decide +kernel⟩,
   ⟨1, shadowP1, by decide +kernel⟩,
   ⟨0, live, by decide +kernel⟩,
   ⟨0, state_Partitions_4, by decide +kernel⟩,
   ⟨0, state_Partitions_4, by decide +kernel⟩,
   ⟨state_Partitions_6, by decide +kernel⟩,
   ⟨shadowRanges, by decide +kernel⟩,
   ⟨state_Partitions_8, by decide +kernel⟩,
   ⟨state_Partitions_9, by decide +kernel, of_ports (by decide +kernel)⟩,
   ⟨state_Partitions_10, by decide +kernel⟩,
   ⟨live, by decide +kernel⟩,
   ⟨state_Partitions_12, by decide +kernel⟩⟩

def state_ImportsAndRollback_6 : State :=
  setImport (put [(R.SEC_IMP_STATUS_STATE, 0, 0, 2)] (importS)) 0 (some ⟨0x100000, 65536, 31640, 1, [], [], 0, []⟩)

def state_ImportsAndRollback_7 : State :=
  setImport (put [(R.SEC_IMP_STATUS_STATE, 0, 0, 2)] ({ importS with mem := memWrite importS.mem 0x100040 [1] true })) 0 (some ⟨0x100000, 65536, 31640, 1, [], [], 1, [1, 2, 3, 4, 5, 6, 7, 8]⟩)

def state_ImportsAndRollback_8 : State :=
  setImport (put [(R.SEC_IMP_STATUS_STATE, 0, 0, 2)] (importS)) 0 (some ⟨0x100000, 65536, 31640, 1, [], [], 1, [1, 2, 3, 4, 5, 6, 7, 8]⟩)

def state_ImportsAndRollback_9 : State :=
  put [(R.SEC_IMP_STATUS_STATE, 0, 0, 3)] importRuns

def state_ImportsAndRollback_10 : State :=
  put [(R.SEC_SEAL_BASE_VALID, 0, 3, 1), (R.SEC_SEAL_BASE_BASE, 0, 3, 1), (R.SEC_SEAL_SIZE_UNITS, 0, 3, 1)] importS

def state_ImportsAndRollback_11 : State :=
  put [(R.SEC_SVN_RUNNING, 0, 0, 5), (R.SEC_SVN_COUNTER, 0, 0, 3)] live

def state_ImportsAndRollback_13 : State :=
  { live with boot := { live.boot with advancing := some 5 } }

/-- Hypotheses of ImportsAndRollback are met: one state and operands for each clause that has hypotheses, given what a constant without
  a body answers. -/
theorem witness_ImportsAndRollback
    (q3_2_2 : importKey (importRuns) (0) (⟨0x100000, 65536, 31640, 1, [], [], 0, []⟩ : Import) = .error (5)) :
    (∃ (p : PartIx) (src dst len units : Nat) (s : State), rd s R.SEC_IMP_STATUS_STATE p 0 = 0 ∧ rdB s R.PRT_CFG_VALID p 0 = true ∧ src
      = rd s R.SEC_IMP_SRC_OFFSET p 0 ∧ dst = rd s R.SEC_IMP_DST_OFFSET p 0 ∧ len = rd s R.SEC_IMP_LEN_BYTES p 0 ∧ rdB s
      R.PRT_CFG_SEALED p 0 = true ∧ units = (bodyBytes (partRead s p src 128).1 + 65535) / 65536 ∧ sealRangeBad s p src dst len units =
      false ∧ sealFormatBad (partRead s p src 128).1 (partRead s p (src + 128) (1664 * recipientsOf (partRead s p src 128).1)).1 len =
      false) ∧
    (∃ (p : PartIx) (s : State), rd s R.SEC_IMP_STATUS_STATE p 0 = 0 ∧ rdB s R.PRT_CFG_VALID p 0 = true ∧ rdB s R.PRT_CFG_SEALED p 0 =
      false) ∧
    (∃ (p : PartIx) (i : Import) (code n : Nat) (s : State), importOf s p = some i ∧ rd s R.SEC_IMP_STATUS_STATE p 0 = 1 ∧ importKey s p
      i = .error code) ∧
    (∃ (p : PartIx) (i : Import) (n : Nat) (plain : List Byte) (s : State), importOf s p = some i ∧ rd s R.SEC_IMP_STATUS_STATE p 0 = 2
      ∧ nextChunks s p i n = some plain ∧ i.opened + n < chunkCount (bodyBytes (partRead s p i.src i.len).1)) ∧
    (∃ (p : PartIx) (i : Import) (n : Nat) (plain : List Byte) (s : State), importOf s p = some i ∧ rd s R.SEC_IMP_STATUS_STATE p 0 = 2
      ∧ nextChunks s p i n = some plain ∧ chunkCount (bodyBytes (partRead s p i.src i.len).1) ≤ i.opened + n ∧ (partRead s p i.src
      i.len).2 = true) ∧
    (∃ (p : PartIx) (i : Import) (plain : List Byte) (n e b g : Nat) (s : State), importOf s p = some i ∧ rd s R.SEC_IMP_STATUS_STATE p
      0 = 2 ∧ nextChunks s p i n = some plain ∧ chunkCount (bodyBytes (partRead s p i.src i.len).1) ≤ i.opened + n ∧ (partRead s p i.src
      i.len).2 = false ∧ e < 16 ∧ ((∀ j < e, rdB s R.SEC_SEAL_BASE_VALID p j = true)) ∧ rdB s R.SEC_SEAL_BASE_VALID p e = false ∧
      partRanges s p = [(b, g)] ∧ i.plain ++ plain ≠ [] ∧ (i.plain ++ plain).length ≤ i.units * 65536 ∧ i.dst + i.units * 65536 ≤ g * 2
      ^ 30) ∧
    (∃ (p : PartIx) (s : State), rd s R.SEC_IMP_STATUS_STATE p 0 = 3) ∧
    (∃ (p : PartIx) (e : Fin 16) (s : State), rdB s R.SEC_SEAL_BASE_VALID p e = true) ∧
    (∃ (s : State), rdB s R.SEC_STATUS_ADVANCE_BUSY 0 0 = false ∧ rd s R.SEC_SVN_COUNTER 0 0 < rd s R.SEC_SVN_RUNNING 0 0) ∧
    (∃ (s : State), rd s R.SEC_SVN_RUNNING 0 0 ≤ rd s R.SEC_SVN_COUNTER 0 0) ∧
    (∃ (n : Nat) (s : State), s.boot.advancing = some n) ∧
    (∃ (n : Nat) (s : State), s.boot.advancing = some n) :=
  ⟨⟨0, 0x100000, 65536, 31640, 1, importS, by decide +kernel⟩,
   ⟨0, live, by decide +kernel⟩,
   ⟨0, ⟨0x100000, 65536, 31640, 1, [], [], 0, []⟩, 5, 1, importRuns, by decide +kernel, by decide +kernel, q3_2_2⟩,
   ⟨0, ⟨0x100000, 65536, 31640, 1, [], [], 0, []⟩, 0, [], state_ImportsAndRollback_6, by decide +kernel⟩,
   ⟨0, ⟨0x100000, 65536, 31640, 1, [], [], 1, [1, 2, 3, 4, 5, 6, 7, 8]⟩, 0, [], state_ImportsAndRollback_7, by decide +kernel⟩,
   ⟨0, ⟨0x100000, 65536, 31640, 1, [], [], 1, [1, 2, 3, 4, 5, 6, 7, 8]⟩, [], 0, 0, 0, 4, state_ImportsAndRollback_8, by decide +kernel⟩,
   ⟨0, state_ImportsAndRollback_9, by decide +kernel⟩,
   ⟨0, 3, state_ImportsAndRollback_10, by decide +kernel⟩,
   ⟨state_ImportsAndRollback_11, by decide +kernel⟩,
   ⟨live, by decide +kernel⟩,
   ⟨5, state_ImportsAndRollback_13, by decide +kernel⟩,
   ⟨5, state_ImportsAndRollback_13, by decide +kernel⟩⟩

def state_SpdmResponses_10 : State :=
  setSpdm live 2 ⟨true, true, true, 1⟩

def state_SpdmResponses_12 : State :=
  setSpdm live 2 ⟨true, true, true, 2⟩

def state_SpdmResponses_13 : State :=
  { live with tru := { live.tru with signing := [⟨1, "CHALLENGE_AUTH", [1], []⟩, ⟨2, "KEY_EXCHANGE_RSP", [2], []⟩] } }

/-- Hypotheses of SpdmResponses are met: one state and operands for each clause that has hypotheses. -/
theorem witness_SpdmResponses :
    (∃ (fn : FnIx) (s : State), akReady s = true) ∧
    (∃ (fn : FnIx) (off len : Nat) (s : State), akReady s = true) ∧
    (∃ (fn : FnIx) (nonce : List Byte) (s : State), akReady s = true) ∧
    (∃ (fn : FnIx) (index : Nat) (nonce : List Byte) (s : State), akReady s = true ∧ ((index = 255 ∨ index ∈ measureIxs s fn))) ∧
    (∃ (fn : FnIx) (x : List Byte) (s : State), akReady s = true) ∧
    (∃ (fn : FnIx) (slot off len index : Nat) (x : List Byte) (s : State), akReady s = false) ∧
    (∃ (fn : FnIx) (v : List Byte) (s : State), (spdmOf s fn).session = 1) ∧
    (∃ (fn : FnIx) (v : List Byte) (s : State), (spdmOf s fn).session ≠ 1) ∧
    (∃ (fn : FnIx) (s : State), (spdmOf s fn).session ≠ 0) ∧
    (∃ (r : SigReq) (rest : List SigReq) (s : State), s.tru.signing = r :: rest) :=
  ⟨⟨0, keyed, by decide +kernel⟩,
   ⟨0, 3, 8, keyed, by decide +kernel⟩,
   ⟨0, [1, 2], keyed, by decide +kernel⟩,
   ⟨1, 16, [7], keyed, by decide +kernel⟩,
   ⟨2, [5], keyed, by decide +kernel⟩,
   ⟨2, 0, 3, 9, 16, [5], live, by decide +kernel⟩,
   ⟨2, [5, 6], state_SpdmResponses_10, by decide +kernel⟩,
   ⟨2, [5, 6], live, by decide +kernel⟩,
   ⟨2, state_SpdmResponses_12, by decide +kernel⟩,
   ⟨⟨1, "CHALLENGE_AUTH", [1], []⟩, [⟨2, "KEY_EXCHANGE_RSP", [2], []⟩], state_SpdmResponses_13, by decide +kernel⟩⟩

def state_InterfacesAndDebug_3 : State :=
  put [(R.PRT_CFG_HOST_ACCESS, 0, 0, 0)] live

def state_InterfacesAndDebug_7 : State :=
  setSpdm (tdiS 1) 1 ⟨true, true, true, 2⟩

def state_InterfacesAndDebug_8 : State :=
  { live with phy := { live.phy with transport := true } }

/-- Hypotheses of InterfacesAndDebug are met: one state and operands for each clause that has hypotheses. -/
theorem witness_InterfacesAndDebug :
    (∃ (p : PartIx) (s : State), rdB s R.PRT_CFG_VALID p 0 = true) ∧
    (∃ (p : PartIx) (s : State), rdB s R.PRT_CFG_VALID p 0 = false) ∧
    (∃ (p : PartIx) (s : State), rdB s R.PRT_CFG_VALID p 0 = true ∧ rd s R.PRT_STATUS_TDI_STATE p 0 = 0 ∧ rdB s R.PRT_CFG_HOST_ACCESS p
      0 = false) ∧
    (∃ (p : PartIx) (s : State), rdB s R.PRT_CFG_VALID p 0 = true ∧ rd s R.PRT_STATUS_TDI_STATE p 0 = 1 ∧ (p.val + 2) ∈ s.hst.ide ∧
      (p.val + 2) ∉ s.hst.insecure) ∧
    (∃ (p : PartIx) (s : State), rdB s R.PRT_CFG_VALID p 0 = true ∧ ((computeBusy s = true ∨ rd s R.PRT_STATUS_STATE p 0 = 1))) ∧
    (∃ (x : Fin 18) (s : State), x.val ∈ s.hst.ide) ∧
    (∃ (x : Fin 18) (s : State), (spdmOf s (if x.val < 2 then 0 else x.val - 1)).session = 2) ∧
    (∃ (p : PartIx) (req : Fin 3) (a : Nat) (c : CoreIx) (data : List Byte) (s : State), debugReaches s req = true ∧ rdB s
      R.PRT_CFG_VALID p 0 = true ∧ dieSleeps s = false ∧ coreOwner s c = some p.val ∧ coreUsable s c = true ∧ coreOn s c = true ∧
      (coreAt s c).clearing = false ∧ s.spd.err = [] ∧ a + data.length ≤ spdBytes) ∧
    (∃ (p : PartIx) (req : Fin 3) (a : Nat) (c : CoreIx) (data : List Byte) (s : State), debugReaches s req = true ∧ rdB s
      R.PRT_CFG_VALID p 0 = true ∧ dieSleeps s = false ∧ (partPieces s p a data.length).any (fun pc => memWaits s pc.2.1 pc.2.2) =
      false) :=
  ⟨⟨0, live, by decide +kernel⟩,
   ⟨1, live, by decide +kernel⟩,
   ⟨0, state_InterfacesAndDebug_3, by decide +kernel⟩,
   ⟨0, tdiS 1, by decide +kernel⟩,
   ⟨0, live, by decide +kernel⟩,
   ⟨2, tdiS 2, by decide +kernel⟩,
   ⟨2, state_InterfacesAndDebug_7, by decide +kernel⟩,
   ⟨0, 2, 8, 0, [1, 2], state_InterfacesAndDebug_8, by decide +kernel⟩,
   ⟨0, 2, 8, 0, [1, 2], state_InterfacesAndDebug_8, by decide +kernel⟩⟩

def state_LinkFrames_1 : State :=
  lk 4 { lx with outq := [outMsg, { outMsg with msg := { outMsg.msg with channel := 3 } }], owed := [1, 2, 3, 4], nak := true, sent := [sentF 65534 1] }

def state_LinkFrames_2 : State :=
  lk 4 { lx with replay := some 7, sent := [sentF 7 1, sentF 8 1] }

def state_LinkFrames_3 : State :=
  lk 4 { lx with replay := some 7, sent := [sentF 7 8, sentF 8 1] }

def state_LinkFrames_4 : State :=
  lk 4 { lx with sent := [sentF 6 1, sentF 7 1, sentF 8 1], nak := true }

def state_LinkFrames_9 : State :=
  lk 4 { lx with sent := [sentF 6 1] }

/-- Hypotheses of LinkFrames are met: one state and operands for each clause that has hypotheses. -/
theorem witness_LinkFrames :
    (∃ (l : LinkIx) (go left : List TxMsg) (cr : List Nat) (s : State), 2 ≤ linkState s l ∧ linkState s l ≤ 5 ∧ (linkAt s l).replay =
      none ∧ (linkAt s l).sent.length < 512 ∧ (linkAt s l).heldFrame = none ∧ (linkAt s l).heldMsg = none ∧ rd s R.LNK_INJ_CFG_MODE l 0
      = 0 ∧ keyExpired s l = false ∧ ((linkState s l = 4 → rd s R.LNK_KEY_FRAMES l 0 + 1 < 2 ^ rd s R.LNK_CFG_REKEY_LOG2 l 0)) ∧
      pickMsgs (linkAt s l).outq (linkAt s l).credits (100 - (linkAt s l).txPart.length / 16) [] = (go, left, cr)) ∧
    (∃ (l : LinkIx) (q : Nat) (f : SentFrame) (s : State), 2 ≤ linkState s l ∧ linkState s l ≤ 5 ∧ (linkAt s l).replay = some q ∧
      (linkAt s l).sent.find? (fun f => decide (f.seq = q)) = some f ∧ f.tries < 8 ∧ keyExpired s l = false ∧ rd s R.LNK_INJ_CFG_MODE l
      0 = 0) ∧
    (∃ (l : LinkIx) (q : Nat) (f : SentFrame) (s : State), 2 ≤ linkState s l ∧ linkState s l ≤ 5 ∧ (linkAt s l).replay = some q ∧
      (linkAt s l).sent.find? (fun f => decide (f.seq = q)) = some f ∧ 8 ≤ f.tries) ∧
    (∃ (l : LinkIx) (f : Frame) (s : State), 2 ≤ linkState s l ∧ linkState s l ≤ 5 ∧ fecDecodes f = true ∧ ((f.keyPhase = (linkAt s
      l).rxPhase ∨ (linkAt s l).oldKey = true)) ∧ tagVerifies (linkAt s l) f = true ∧ f.seq = (linkAt s l).rxSeq ∧ f.syncMark = false) ∧
    (∃ (l : LinkIx) (f : Frame) (s : State), 2 ≤ linkState s l ∧ linkState s l ≤ 5 ∧ fecDecodes f = true ∧ ((f.keyPhase = (linkAt s
      l).rxPhase ∨ (linkAt s l).oldKey = true)) ∧ tagVerifies (linkAt s l) f = true ∧ f.seq ≠ (linkAt s l).rxSeq) ∧
    (∃ (l : LinkIx) (f : Frame) (s : State), 2 ≤ linkState s l ∧ linkState s l ≤ 5 ∧ fecDecodes f = false ∧ (linkAt s l).badAt + us 1000
      ≤ s.utime) ∧
    (∃ (l : LinkIx) (f : Frame) (s : State), 2 ≤ linkState s l ∧ linkState s l ≤ 5 ∧ fecDecodes f = true ∧ ((f.keyPhase = (linkAt s
      l).rxPhase ∨ (linkAt s l).oldKey = true)) ∧ tagVerifies (linkAt s l) f = false ∧ (linkAt s l).tagAt + us 1000000 ≤ s.utime) ∧
    (∃ (l : LinkIx) (f : Frame) (s : State), 2 ≤ linkState s l ∧ linkState s l ≤ 5 ∧ fecDecodes f = true ∧ f.keyPhase ≠ (linkAt s
      l).rxPhase ∧ (linkAt s l).oldKey = false) ∧
    (∃ (l : LinkIx) (s : State), 2 ≤ linkState s l ∧ linkState s l ≤ 5 ∧ (linkAt s l).sent ≠ [] ∧ (linkAt s l).ackAt + us 16 ≤ s.utime) ∧
    (∃ (l : LinkIx) (cause : Nat) (s : State), linkState s l = 4 ∧ 1 ≤ cause ∧ cause ≤ 10) ∧
    (∃ (l : LinkIx) (s : State), 1 ≤ linkState s l ∧ linkState s l ≤ 5) ∧
    (∃ (l : LinkIx) (s : State), linkState s l = 4 ∧ (linkAt s l).rekeying = false ∧ (linkAt s l).oldKey = false) ∧
    (∃ (l : LinkIx) (v : W64) (s : State), getBits v 0 3 < 5) :=
  ⟨⟨0, (pickMsgs (linkAt (lk 4 { lx with outq := [outMsg, { outMsg with msg := { outMsg.msg with channel := 3 } }], owed := [1, 2, 3, 4], nak := true, sent := [sentF 65534 1] }) 0).outq (linkAt (lk 4 { lx with outq := [outMsg, { outMsg with msg := { outMsg.msg with channel := 3 } }], owed := [1, 2, 3, 4], nak := true, sent := [sentF 65534 1] }) 0).credits (100 - (linkAt (lk 4 { lx with outq := [outMsg, { outMsg with msg := { outMsg.msg with channel := 3 } }], owed := [1, 2, 3, 4], nak := true, sent := [sentF 65534 1] }) 0).txPart.length / 16) []).1, (pickMsgs (linkAt (lk 4 { lx with outq := [outMsg, { outMsg with msg := { outMsg.msg with channel := 3 } }], owed := [1, 2, 3, 4], nak := true, sent := [sentF 65534 1] }) 0).outq (linkAt (lk 4 { lx with outq := [outMsg, { outMsg with msg := { outMsg.msg with channel := 3 } }], owed := [1, 2, 3, 4], nak := true, sent := [sentF 65534 1] }) 0).credits (100 - (linkAt (lk 4 { lx with outq := [outMsg, { outMsg with msg := { outMsg.msg with channel := 3 } }], owed := [1, 2, 3, 4], nak := true, sent := [sentF 65534 1] }) 0).txPart.length / 16) []).2.1, (pickMsgs (linkAt (lk 4 { lx with outq := [outMsg, { outMsg with msg := { outMsg.msg with channel := 3 } }], owed := [1, 2, 3, 4], nak := true, sent := [sentF 65534 1] }) 0).outq (linkAt (lk 4 { lx with outq := [outMsg, { outMsg with msg := { outMsg.msg with channel := 3 } }], owed := [1, 2, 3, 4], nak := true, sent := [sentF 65534 1] }) 0).credits (100 - (linkAt (lk 4 { lx with outq := [outMsg, { outMsg with msg := { outMsg.msg with channel := 3 } }], owed := [1, 2, 3, 4], nak := true, sent := [sentF 65534 1] }) 0).txPart.length / 16) []).2.2, state_LinkFrames_1, by decide +kernel⟩,
   ⟨0, 7, sentF 7 1, state_LinkFrames_2, by decide +kernel⟩,
   ⟨0, 7, sentF 7 8, state_LinkFrames_3, by decide +kernel⟩,
   ⟨0, frameA 4, state_LinkFrames_4, by decide +kernel⟩,
   ⟨0, frameA 5, lk 4 lx, by decide +kernel⟩,
   ⟨0, { frameA 4 with errs := (List.range 10).map (fun i => (8 * i, 1)) }, lk 4 lx, by decide +kernel⟩,
   ⟨0, { frameA 4 with key := [1, 2] }, lk 4 lx, by decide +kernel⟩,
   ⟨0, { frameA 4 with keyPhase := true }, lk 4 lx, by decide +kernel⟩,
   ⟨0, state_LinkFrames_9, by decide +kernel⟩,
   ⟨0, 3, state_LinkFrames_9, by decide +kernel⟩,
   ⟨0, lk 2 lx, by decide +kernel⟩,
   ⟨0, lk 4 lx, by decide +kernel⟩,
   ⟨0, 1569, lk 4 lx, by decide +kernel⟩⟩

def state_LinkMessages_2 : State :=
  inS [winMsg 1 0xFFFFE [1, 2, 3]]

def state_LinkMessages_3 : State :=
  inS [{ winMsg 2 9 [] with order := 7 }]

def state_LinkMessages_4 : State :=
  asked 2 (inS [winMsg 3 0 (leBytes 8 99)])

def state_LinkMessages_5 : State :=
  (fun s => { s with lnk := { s.lnk with remote := [{ askedOf 2 with va := some 0x2000 }] } }) (inS [winMsg 3 0 (leBytes 8 99)])

def state_LinkMessages_6 : State :=
  inS [{ winMsg 4 9 (leBytes 8 5 ++ leBytes 8 6) with word1 := BitVec.ofNat 64 (2 ^ 52 + 3 * 2 ^ 46 + 9) }]

def state_LinkMessages_7 : State :=
  asked 4 (inS [winMsg 5 0 (leBytes 8 99)])

def state_LinkMessages_8 : State :=
  asked 1 (inS [winMsg 6 0 []])

def state_LinkMessages_9 : State :=
  { inS [{ winMsg 7 0 (List.replicate 32 1) with word1 := BitVec.ofNat 64 (1 + 2 * 512), final := false }] with lnk := { (inS [{ winMsg 7 0 (List.replicate 32 1) with word1 := BitVec.ofNat 64 (1 + 2 * 512), final := false }]).lnk with tiles := [⟨5, 2, 1, 2, [9, 8], false, 1⟩] } }

def state_LinkMessages_10 : State :=
  { inS [{ winMsg 7 0 (List.replicate 32 1) with word1 := BitVec.ofNat 64 (1 + 2 * 512), final := true }] with lnk := { (inS [{ winMsg 7 0 (List.replicate 32 1) with word1 := BitVec.ofNat 64 (1 + 2 * 512), final := true }]).lnk with tiles := [⟨5, 2, 1, 2, [9, 8], false, 1⟩] } }

def state_LinkMessages_11 : State :=
  inS [{ winMsg 8 0 [2, 3] with channel := 3, word1 := BitVec.ofNat 64 (1 + 2 * 512) }]

def state_LinkMessages_12 : State :=
  asked 2 (inS [{ winMsg 10 0 [] with word1 := 0x12 }])

/-- Hypotheses of LinkMessages are met: one state and operands for each clause that has hypotheses. -/
theorem witness_LinkMessages :
    (∃ (l : LinkIx) (msg : Msg) (pa n : Nat) (s u : State), takeMsg s l false (fun m => decide (m.type = 1)) = some (msg, u) ∧
      windowCheck s (linkPeer s l) msg.partition (msgWindow msg) (msgOffset msg) msg.data.length true = none ∧ (offsetPieces s (rd s
      R.LNK_WIN_CFG_PARTITION (msgWindow msg) 0) (msgTarget s msg) msg.data.length).head? = some (pa, n)) ∧
    (∃ (l : LinkIx) (msg : Msg) (st : Nat) (s u : State), takeMsg s l false (fun m => decide (m.type = 1)) = some (msg, u) ∧ windowCheck
      s (linkPeer s l) msg.partition (msgWindow msg) (msgOffset msg) msg.data.length true = some st ∧ ((linkState s l = 4 ∨ linkState s
      l = 5))) ∧
    (∃ (l : LinkIx) (msg : Msg) (ps : List (Nat × Nat)) (s u : State), takeMsg s l false (fun m => decide (m.type = 2)) = some (msg, u)
      ∧ windowCheck s (linkPeer s l) msg.partition (msgWindow msg) (msgOffset msg) msg.order false = none ∧ ps = offsetPieces s (rd s
      R.LNK_WIN_CFG_PARTITION (msgWindow msg) 0) (msgTarget s msg) msg.order ∧ ((∀ q ∈ ps, memWaits s q.1 q.2 = false ∧ peerBusy s
      (linkPeer s l) q.1 q.2 = false)) ∧ ((linkState s l = 4 ∨ linkState s l = 5))) ∧
    (∃ (l : LinkIx) (msg : Msg) (r : Remote) (s u : State), takeMsg s l false (fun m => decide (m.type = 3)) = some (msg, u) ∧ remoteOf
      s (linkPeer s l) msg.mtag = some r ∧ r.va = none) ∧
    (∃ (l : LinkIx) (msg : Msg) (r : Remote) (va w : Nat) (s u : State), takeMsg s l false (fun m => decide (m.type = 3)) = some (msg,
      u) ∧ remoteOf s (linkPeer s l) msg.mtag = some r ∧ r.va = some va ∧ r.ring = some w ∧ accessWaits u (some r.core) (ringPart s w)
      va r.len false = false) ∧
    (∃ (l : LinkIx) (msg : Msg) (pa : Nat) (op : AtomicOp) (s u : State), takeMsg s l false (fun m => decide (m.type = 4)) = some (msg,
      u) ∧ windowCheck s (linkPeer s l) msg.partition (msgWindow msg) (msgOffset msg / 8 * 8) 8 true = none ∧ partOffset s (rd s
      R.LNK_WIN_CFG_PARTITION (msgWindow msg) 0) (msgTarget s msg / 8 * 8) = some pa ∧ memWaits s pa 8 = false ∧ peerBusy s (linkPeer s
      l) pa 8 = false ∧ (cohRead s pa 8).2 = false ∧ pa % 8 = 0 ∧ writeLost s pa = false ∧ ((linkState s l = 4 ∨ linkState s l = 5)) ∧
      op = (match getBits msg.word1 52 3 with | 1 => AtomicOp.addI64 | 2 => .addF64 | 3 => .swap | _ => .cas)) ∧
    (∃ (l : LinkIx) (msg : Msg) (r : Remote) (s u : State), takeMsg s l false (fun m => decide (m.type = 5)) = some (msg, u) ∧ remoteOf
      s (linkPeer s l) msg.mtag = some r) ∧
    (∃ (l : LinkIx) (msg : Msg) (s u : State), takeMsg s l false (fun m => decide (m.type = 6)) = some (msg, u)) ∧
    (∃ (l : LinkIx) (msg : Msg) (s u : State), takeMsg s l false (fun m => decide (m.type = 7)) = some (msg, u) ∧ msg.final = false) ∧
    (∃ (l : LinkIx) (msg : Msg) (s u : State), takeMsg s l false (fun m => decide (m.type = 7)) = some (msg, u) ∧ msg.final = true ∧
      coreUsable s (getBits msg.word1 0 9) = true) ∧
    (∃ (l : LinkIx) (msg : Msg) (s u : State), takeMsg s l true (fun m => decide (m.type = 8)) = some (msg, u)) ∧
    (∃ (l : LinkIx) (msg : Msg) (r : Remote) (w : Nat) (d : Cmd) (s u : State), takeMsg s l false (fun m => decide (m.type = 10)) = some
      (msg, u) ∧ remoteOf s (linkPeer s l) msg.mtag = some r ∧ r.ring = some w ∧ (ringAt s w).cmd = some d ∧ d.phase = .running) :=
  ⟨(have h0 : (takeMsg (inS [winMsg 1 8 [1, 2, 3]]) (0) false (fun m => decide (m.type = 1))).isSome = true := (by decide +kernel); ⟨0, ((takeMsg (inS [winMsg 1 8 [1, 2, 3]]) (0) false (fun m => decide (m.type = 1))).getD (msg0, State.reset)).1, 0x10008, 3, inS [winMsg 1 8 [1, 2, 3]], ((takeMsg (inS [winMsg 1 8 [1, 2, 3]]) (0) false (fun m => decide (m.type = 1))).getD (msg0, State.reset)).2, getD_pair_eq h0, by decide +kernel⟩),
   (have h0 : (takeMsg (state_LinkMessages_2) (0) false (fun m => decide (m.type = 1))).isSome = true := (by decide +kernel); ⟨0, ((takeMsg (state_LinkMessages_2) (0) false (fun m => decide (m.type = 1))).getD (msg0, State.reset)).1, 0x0F, state_LinkMessages_2, ((takeMsg (state_LinkMessages_2) (0) false (fun m => decide (m.type = 1))).getD (msg0, State.reset)).2, getD_pair_eq h0, by decide +kernel⟩),
   (have h0 : (takeMsg (state_LinkMessages_3) (0) false (fun m => decide (m.type = 2))).isSome = true := (by decide +kernel); ⟨0, ((takeMsg (state_LinkMessages_3) (0) false (fun m => decide (m.type = 2))).getD (msg0, State.reset)).1, (offsetPieces (inS []) 0 0x10009 7), state_LinkMessages_3, ((takeMsg (state_LinkMessages_3) (0) false (fun m => decide (m.type = 2))).getD (msg0, State.reset)).2, getD_pair_eq h0, by decide +kernel⟩),
   (have h0 : (takeMsg (state_LinkMessages_4) (0) false (fun m => decide (m.type = 3))).isSome = true := (by decide +kernel); ⟨0, ((takeMsg (state_LinkMessages_4) (0) false (fun m => decide (m.type = 3))).getD (msg0, State.reset)).1, askedOf 2, state_LinkMessages_4, ((takeMsg (state_LinkMessages_4) (0) false (fun m => decide (m.type = 3))).getD (msg0, State.reset)).2, getD_pair_eq h0, by decide +kernel⟩),
   (have h0 : (takeMsg (state_LinkMessages_5) (0) false (fun m => decide (m.type = 3))).isSome = true := (by decide +kernel); ⟨0, ((takeMsg (state_LinkMessages_5) (0) false (fun m => decide (m.type = 3))).getD (msg0, State.reset)).1, { askedOf 2 with va := some 0x2000 }, 0x2000, 0, state_LinkMessages_5, ((takeMsg (state_LinkMessages_5) (0) false (fun m => decide (m.type = 3))).getD (msg0, State.reset)).2, getD_pair_eq h0, by decide +kernel⟩),
   (have h0 : (takeMsg (state_LinkMessages_6) (0) false (fun m => decide (m.type = 4))).isSome = true := (by decide +kernel); ⟨0, ((takeMsg (state_LinkMessages_6) (0) false (fun m => decide (m.type = 4))).getD (msg0, State.reset)).1, 0x10008, .addI64, state_LinkMessages_6, ((takeMsg (state_LinkMessages_6) (0) false (fun m => decide (m.type = 4))).getD (msg0, State.reset)).2, getD_pair_eq h0, by decide +kernel⟩),
   (have h0 : (takeMsg (state_LinkMessages_7) (0) false (fun m => decide (m.type = 5))).isSome = true := (by decide +kernel); ⟨0, ((takeMsg (state_LinkMessages_7) (0) false (fun m => decide (m.type = 5))).getD (msg0, State.reset)).1, askedOf 4, state_LinkMessages_7, ((takeMsg (state_LinkMessages_7) (0) false (fun m => decide (m.type = 5))).getD (msg0, State.reset)).2, getD_pair_eq h0, by decide +kernel⟩),
   (have h0 : (takeMsg (state_LinkMessages_8) (0) false (fun m => decide (m.type = 6))).isSome = true := (by decide +kernel); ⟨0, ((takeMsg (state_LinkMessages_8) (0) false (fun m => decide (m.type = 6))).getD (msg0, State.reset)).1, state_LinkMessages_8, ((takeMsg (state_LinkMessages_8) (0) false (fun m => decide (m.type = 6))).getD (msg0, State.reset)).2, getD_pair_eq h0⟩),
   (have h0 : (takeMsg (state_LinkMessages_9) (0) false (fun m => decide (m.type = 7))).isSome = true := (by decide +kernel); ⟨0, ((takeMsg (state_LinkMessages_9) (0) false (fun m => decide (m.type = 7))).getD (msg0, State.reset)).1, state_LinkMessages_9, ((takeMsg (state_LinkMessages_9) (0) false (fun m => decide (m.type = 7))).getD (msg0, State.reset)).2, getD_pair_eq h0, by decide +kernel⟩),
   (have h0 : (takeMsg (state_LinkMessages_10) (0) false (fun m => decide (m.type = 7))).isSome = true := (by decide +kernel); ⟨0, ((takeMsg (state_LinkMessages_10) (0) false (fun m => decide (m.type = 7))).getD (msg0, State.reset)).1, state_LinkMessages_10, ((takeMsg (state_LinkMessages_10) (0) false (fun m => decide (m.type = 7))).getD (msg0, State.reset)).2, getD_pair_eq h0, by decide +kernel⟩),
   (have h0 : (takeMsg (state_LinkMessages_11) (0) true (fun m => decide (m.type = 8))).isSome = true := (by decide +kernel); ⟨0, ((takeMsg (state_LinkMessages_11) (0) true (fun m => decide (m.type = 8))).getD (msg0, State.reset)).1, state_LinkMessages_11, ((takeMsg (state_LinkMessages_11) (0) true (fun m => decide (m.type = 8))).getD (msg0, State.reset)).2, getD_pair_eq h0⟩),
   (have h0 : (takeMsg (state_LinkMessages_12) (0) false (fun m => decide (m.type = 10))).isSome = true := (by decide +kernel); ⟨0, ((takeMsg (state_LinkMessages_12) (0) false (fun m => decide (m.type = 10))).getD (msg0, State.reset)).1, askedOf 2, 0, cmdA, state_LinkMessages_12, ((takeMsg (state_LinkMessages_12) (0) false (fun m => decide (m.type = 10))).getD (msg0, State.reset)).2, getD_pair_eq h0, by decide +kernel⟩)⟩

def state_LinkControl_1 : State :=
  lk 2 { lx with inq := [ctlMsg 1 0 (leBytes 4 9 ++ [5, 8, 7, 0] ++ List.replicate 40 3)] }

def state_LinkControl_2 : State :=
  lk 2 { lx with inq := [ctlMsg 1 0 (leBytes 4 9 ++ [6, 8, 7, 0] ++ List.replicate 40 3)] }

def state_LinkControl_5 : State :=
  lk 3 { lx with inq := [ctlMsg 3 0 ([4, 5])] }

def state_LinkControl_6 : State :=
  lk 3 { lx with inq := [ctlMsg 4 0 ([4, 5])] }

def state_LinkControl_8 : State :=
  lk 4 { lx with inq := [ctlMsg 6 0 (leBytes 8 4000)] }

def state_LinkControl_9 : State :=
  (fun s => { s with lnk := { s.lnk with sync := some (0, 3900, 0) } }) (put [(R.LNK_DOMAIN_TIME_MASTER, 0, 0, 5)] (lk 4 { lx with inq := [ctlMsg 7 0 (leBytes 8 4000 ++ leBytes 8 4100 ++ leBytes 8 4300)] }))

def state_LinkControl_10 : State :=
  put [(R.SEQ_RQ_CFG_GANG_EN, 0, 0, 1), (R.SEQ_RQ_CFG_GANG, 0, 0, 3), (R.SEQ_RQ_GANG_MODULES, 0, 0, 33)] (lk 4 { lx with inq := [ctlMsg 8 0 ([0, 3, 0, 0, 7, 0, 0, 0])] })

def state_LinkControl_11 : State :=
  lk 4 { lx with inq := [ctlMsg 9 0 ([])] }

def state_LinkControl_13 : State :=
  lk 4 { lx with inq := [ctlMsg 10 1 (leBytes 8 (2 ^ 50) ++ [5])] }

def state_LinkControl_14 : State :=
  (fun s => { s with ras := { s.ras with cutAt := some 5 } }) (put [(R.RAS_HALT_STATUS_STATE, 0, 0, 1)] (lk 4 { lx with inq := [ctlMsg 10 2 (leBytes 8 0)] }))

def state_LinkControl_15 : State :=
  putS [(R.LNK_CFG_PEER_MODULE, 0, 0, 5), (R.LNK_CFG_PEER_LINK, 0, 0, 2), (R.LNK_CFG_ENABLE, 0, 0, 1), (R.LNK_CFG_REKEY_LOG2, 0, 0, 30)] (lk 0 LinkRt.fresh)

def state_LinkControl_16 : State :=
  putS [(R.LNK_CFG_PEER_MODULE, 0, 0, 9), (R.LNK_CFG_PEER_LINK, 0, 0, 2), (R.LNK_CFG_ENABLE, 0, 0, 1), (R.LNK_CFG_REKEY_LOG2, 0, 0, 30)] (lk 0 LinkRt.fresh)

def state_LinkControl_17 : State :=
  lk 1 { lx with wasUp := true }

def state_LinkControl_18 : State :=
  lk 1 { lx with planned := true }

def state_LinkControl_19 : State :=
  put [(R.LNK_STATUS_DOWN_CAUSE, 0, 0, 3)] (lk 6 lx)

def state_LinkControl_20 : State :=
  lk 5 { lx with noticeSent := true, noticeSeen := true }

def state_LinkControl_21 : State :=
  (fun s => { s with lnk := { s.lnk with pausedOn := [(5, true)], paused := [(5, [outMsg])] } }) (lk 4 lx)

def state_LinkControl_22 : State :=
  putS [(R.LNK_DOMAIN_MODULES, 0, 0, 0), (R.LNK_DOMAIN_MODULE, 0, 0, 3), (R.LNK_DOMAIN_TIME_MASTER, 0, 0, 2), (R.LNK_TIME_SYNC_US, 0, 0, 16), (R.LNK_TIME_RETRY_MS, 0, 0, 10)] live

def state_LinkControl_23 : State :=
  putS [(R.LNK_DOMAIN_MODULES, 0, 0, 4), (R.LNK_DOMAIN_MODULE, 0, 0, 3), (R.LNK_DOMAIN_TIME_MASTER, 0, 0, 2), (R.LNK_TIME_SYNC_US, 0, 0, 16), (R.LNK_TIME_RETRY_MS, 0, 0, 10)] live

def state_LinkControl_24 : State :=
  putS [(R.LNK_WIN_CFG_VALID, 4, 0, 1), (R.LNK_WIN_CFG_PARTITION, 4, 0, 0), (R.LNK_WIN_BASE_BASE, 4, 0, 1), (R.LNK_WIN_SIZE_SIZE, 4, 0, 2)] live

def state_LinkControl_25 : State :=
  putS [(R.LNK_WIN_CFG_VALID, 4, 0, 1), (R.LNK_WIN_CFG_PARTITION, 4, 0, 1), (R.LNK_WIN_BASE_BASE, 4, 0, 1), (R.LNK_WIN_SIZE_SIZE, 4, 0, 2)] live

def state_LinkControl_26 : State :=
  put [(R.LNK_DOMAIN_TIME_MASTER, 0, 0, 5)] (lk 4 lx)

def state_LinkControl_27 : State :=
  put [(R.LNK_TIME_STATUS_STATE, 0, 0, 3)] (put [(R.LNK_DOMAIN_TIME_MASTER, 0, 0, 5)] (lk 4 lx))

/-- Hypotheses of LinkControl are met: one state and operands for each clause that has hypotheses. -/
theorem witness_LinkControl :
    (∃ (l : LinkIx) (m : Msg) (s u : State), takeControl s l 1 = some (m, u) ∧ linkState s l = 2 ∧ (m.data.getD 4 0).toNat = linkPeer s
      l ∧ (m.data.getD 6 0).toNat = rd s R.LNK_CFG_PEER_LINK l 0 ∧ leNat (m.data.take 4) = rd s R.LNK_DOMAIN_DOMAIN_ID 0 0 ∧
      (m.data.getD 5 0).toNat = rd s R.LNK_DOMAIN_MODULES 0 0 ∧ ((∀ k < 96, linkState s k = 4 → (linkAt u k).peerId = (m.data.drop
      8).take 32 → linkPeer s k = linkPeer s l))) ∧
    (∃ (l : LinkIx) (m : Msg) (s u : State), takeControl s l 1 = some (m, u) ∧ linkState s l = 2 ∧ (m.data.getD 4 0).toNat ≠ linkPeer s
      l) ∧
    (∃ (l : LinkIx) (m : Msg) (s u : State), takeControl s l 3 = some (m, u) ∧ linkState s l = 3 ∧ m.order = 0) ∧
    (∃ (l : LinkIx) (m : Msg) (s u : State), takeControl s l 4 = some (m, u) ∧ linkState s l = 3) ∧
    (∃ (l : LinkIx) (m : Msg) (s u : State), takeControl s l 6 = some (m, u) ∧ isFollower s = false) ∧
    (∃ (l : LinkIx) (m : Msg) (t1 : Nat) (s u : State), takeControl s l 7 = some (m, u) ∧ s.lnk.sync = some (m.mtag, t1, l.val) ∧
      isFollower s = true ∧ ((rd s R.LNK_TIME_STATUS_STATE 0 0 = 0 ∨ rd s R.LNK_TIME_STATUS_STATE 0 0 = 3))) ∧
    (∃ (l : LinkIx) (m : Msg) (s u : State), takeControl s l 8 = some (m, u)) ∧
    (∃ (l : LinkIx) (m : Msg) (s u : State), takeControl s l 9 = some (m, u) ∧ 1 ≤ linkState s l ∧ linkState s l ≤ 5) ∧
    (∃ (l : LinkIx) (m : Msg) (s u : State), takeMsg s l true (fun m => decide (m.type = 9) && decide (getBits m.word1 0 8 = 10) &&
      decide (msgNotice m = 0)) = some (m, u) ∧ linkState s l = 4) ∧
    (∃ (l : LinkIx) (m : Msg) (s u : State), takeNotice s l 1 = some (m, u) ∧ rd s R.RAS_HALT_STATUS_STATE 0 0 = 0 ∧ cutsAtOnce s (leAt
      m.data 0 8) = false) ∧
    (∃ (l : LinkIx) (m : Msg) (s u : State), takeNotice s l 2 = some (m, u) ∧ rd s R.RAS_HALT_STATUS_STATE 0 0 = 1 ∧ s.ras.cut = false ∧
      s.ras.releaseAsked = false) ∧
    (∃ (l : LinkIx) (s : State), rdS s R.LNK_CFG_PEER_MODULE l 0 < rd s R.LNK_DOMAIN_MODULES 0 0 ∧ rdS s R.LNK_CFG_PEER_MODULE l 0 ≠
      myModule s ∧ rdS s R.LNK_CFG_ENABLE l 0 = 1 ∧ rdB s R.LNK_STATUS_USABLE l 0 = true ∧ ((linkState s l = 0 ∨ linkState s l = 6)) ∧
      20 ≤ rdS s R.LNK_CFG_REKEY_LOG2 l 0 ∧ rdS s R.LNK_CFG_REKEY_LOG2 l 0 ≤ 47) ∧
    (∃ (l : LinkIx) (s : State), ((rd s R.LNK_DOMAIN_MODULES 0 0 ≤ rdS s R.LNK_CFG_PEER_MODULE l 0 ∨ rdS s R.LNK_CFG_PEER_MODULE l 0 =
      myModule s))) ∧
    (∃ (l : LinkIx) (delay : Nat) (s : State), linkState s l = 1 ∧ (linkAt s l).planned = false) ∧
    (∃ (l : LinkIx) (delay : Nat) (s : State), linkState s l = 1 ∧ (linkAt s l).planned = true) ∧
    (∃ (l : LinkIx) (s : State), linkState s l = 6 ∧ causeRetried (rd s R.LNK_STATUS_DOWN_CAUSE l 0) = true ∧ rdB s R.LNK_CFG_ENABLE l 0
      = true ∧ (linkAt s l).downAt + rd s R.LNK_TIME_RETRY_MS 0 0 * 1000000 ≤ s.utime) ∧
    (∃ (l : LinkIx) (s : State), linkState s l = 5 ∧ (linkAt s l).noticeSent = true ∧ (linkAt s l).noticeSeen = true ∧ linkDrained
      (linkAt s l) = true) ∧
    (∃ (m : Fin 32) (s : State), SMap.look (fun _ => false) s.lnk.pausedOn m = true ∧ peerSettled s m = true) ∧
    (∃ (s : State), (rdS s R.LNK_DOMAIN_MODULES 0 0 = 0 ∨ 32 < rdS s R.LNK_DOMAIN_MODULES 0 0) ∧ rdB s R.LNK_DOMAIN_STATUS_REJECTED 0 0
      = false) ∧
    (∃ (s : State), 1 ≤ rdS s R.LNK_DOMAIN_MODULES 0 0 ∧ rdS s R.LNK_DOMAIN_MODULES 0 0 ≤ 32 ∧ rdS s R.LNK_DOMAIN_MODULE 0 0 < rdS s
      R.LNK_DOMAIN_MODULES 0 0 ∧ rdS s R.LNK_DOMAIN_TIME_MASTER 0 0 < rdS s R.LNK_DOMAIN_MODULES 0 0 ∧ 16 ≤ rdS s R.LNK_TIME_SYNC_US 0 0
      ∧ rdS s R.LNK_TIME_SYNC_US 0 0 ≤ 1000 ∧ 10 ≤ rdS s R.LNK_TIME_RETRY_MS 0 0 ∧ rdS s R.LNK_TIME_RETRY_MS 0 0 ≤ 60000 ∧ ((∀ l < 96,
      linkState s l = 0 ∨ linkState s l = 6))) ∧
    (∃ (s : State), ((∀ w < 64, rdS s R.LNK_WIN_CFG_VALID w 0 = 1 → rdB s R.PRT_CFG_VALID (rdS s R.LNK_WIN_CFG_PARTITION w 0) 0 = true ∧
      (rdS s R.LNK_WIN_BASE_BASE w 0 + rdS s R.LNK_WIN_SIZE_SIZE w 0) * 65536 ≤ partSize s (rdS s R.LNK_WIN_CFG_PARTITION w 0)))) ∧
    (∃ (s : State), (∃ w < 64, rdS s R.LNK_WIN_CFG_VALID w 0 = 1 ∧ rdB s R.PRT_CFG_VALID (rdS s R.LNK_WIN_CFG_PARTITION w 0) 0 = false)) ∧
    (∃ (l : Nat) (s : State), (upLinks s (rd s R.LNK_DOMAIN_TIME_MASTER 0 0)).head? = some l ∧ isFollower s = true ∧ s.lnk.syncAt + us
      (rd s R.LNK_TIME_SYNC_US 0 0) ≤ s.utime) ∧
    (∃ (s : State), isFollower s = true ∧ rd s R.LNK_TIME_STATUS_STATE 0 0 = 3 ∧ s.lnk.holdAt + us 10000000 ≤ s.utime) :=
  ⟨(have h0 : (takeControl (state_LinkControl_1) (0) 1).isSome = true := (by decide +kernel); ⟨0, ((takeControl (state_LinkControl_1) (0) 1).getD (msg0, State.reset)).1, state_LinkControl_1, ((takeControl (state_LinkControl_1) (0) 1).getD (msg0, State.reset)).2, getD_pair_eq h0, by decide +kernel⟩),
   (have h0 : (takeControl (state_LinkControl_2) (0) 1).isSome = true := (by decide +kernel); ⟨0, ((takeControl (state_LinkControl_2) (0) 1).getD (msg0, State.reset)).1, state_LinkControl_2, ((takeControl (state_LinkControl_2) (0) 1).getD (msg0, State.reset)).2, getD_pair_eq h0, by decide +kernel⟩),
   (have h0 : (takeControl (state_LinkControl_5) (0) 3).isSome = true := (by decide +kernel); ⟨0, ((takeControl (state_LinkControl_5) (0) 3).getD (msg0, State.reset)).1, state_LinkControl_5, ((takeControl (state_LinkControl_5) (0) 3).getD (msg0, State.reset)).2, getD_pair_eq h0, by decide +kernel⟩),
   (have h0 : (takeControl (state_LinkControl_6) (0) 4).isSome = true := (by decide +kernel); ⟨0, ((takeControl (state_LinkControl_6) (0) 4).getD (msg0, State.reset)).1, state_LinkControl_6, ((takeControl (state_LinkControl_6) (0) 4).getD (msg0, State.reset)).2, getD_pair_eq h0, by decide +kernel⟩),
   (have h0 : (takeControl (state_LinkControl_8) (0) 6).isSome = true := (by decide +kernel); ⟨0, ((takeControl (state_LinkControl_8) (0) 6).getD (msg0, State.reset)).1, state_LinkControl_8, ((takeControl (state_LinkControl_8) (0) 6).getD (msg0, State.reset)).2, getD_pair_eq h0, by decide +kernel⟩),
   (have h0 : (takeControl (state_LinkControl_9) (0) 7).isSome = true := (by decide +kernel); ⟨0, ((takeControl (state_LinkControl_9) (0) 7).getD (msg0, State.reset)).1, 3900, state_LinkControl_9, ((takeControl (state_LinkControl_9) (0) 7).getD (msg0, State.reset)).2, getD_pair_eq h0, by decide +kernel⟩),
   (have h0 : (takeControl (state_LinkControl_10) (0) 8).isSome = true := (by decide +kernel); ⟨0, ((takeControl (state_LinkControl_10) (0) 8).getD (msg0, State.reset)).1, state_LinkControl_10, ((takeControl (state_LinkControl_10) (0) 8).getD (msg0, State.reset)).2, getD_pair_eq h0⟩),
   (have h0 : (takeControl (state_LinkControl_11) (0) 9).isSome = true := (by decide +kernel); ⟨0, ((takeControl (state_LinkControl_11) (0) 9).getD (msg0, State.reset)).1, state_LinkControl_11, ((takeControl (state_LinkControl_11) (0) 9).getD (msg0, State.reset)).2, getD_pair_eq h0, by decide +kernel⟩),
   (have h0 : (takeMsg (inS [ctlMsg 10 0 []]) (0) true (fun m => decide (m.type = 9) && decide (getBits m.word1 0 8 = 10) && decide (msgNotice m = 0))).isSome = true := (by decide +kernel); ⟨0, ((takeMsg (inS [ctlMsg 10 0 []]) (0) true (fun m => decide (m.type = 9) && decide (getBits m.word1 0 8 = 10) && decide (msgNotice m = 0))).getD (msg0, State.reset)).1, inS [ctlMsg 10 0 []], ((takeMsg (inS [ctlMsg 10 0 []]) (0) true (fun m => decide (m.type = 9) && decide (getBits m.word1 0 8 = 10) && decide (msgNotice m = 0))).getD (msg0, State.reset)).2, getD_pair_eq h0, by decide +kernel⟩),
   (have h0 : (takeNotice (state_LinkControl_13) (0) 1).isSome = true := (by decide +kernel); ⟨0, ((takeNotice (state_LinkControl_13) (0) 1).getD (msg0, State.reset)).1, state_LinkControl_13, ((takeNotice (state_LinkControl_13) (0) 1).getD (msg0, State.reset)).2, getD_pair_eq h0, by decide +kernel⟩),
   (have h0 : (takeNotice (state_LinkControl_14) (0) 2).isSome = true := (by decide +kernel); ⟨0, ((takeNotice (state_LinkControl_14) (0) 2).getD (msg0, State.reset)).1, state_LinkControl_14, ((takeNotice (state_LinkControl_14) (0) 2).getD (msg0, State.reset)).2, getD_pair_eq h0, by decide +kernel⟩),
   ⟨0, state_LinkControl_15, by decide +kernel⟩,
   ⟨0, state_LinkControl_16, by decide +kernel⟩,
   ⟨0, 123, state_LinkControl_17, by decide +kernel⟩,
   ⟨0, 123, state_LinkControl_18, by decide +kernel⟩,
   ⟨0, state_LinkControl_19, by decide +kernel⟩,
   ⟨0, state_LinkControl_20, by decide +kernel⟩,
   ⟨5, state_LinkControl_21, by decide +kernel⟩,
   ⟨state_LinkControl_22, by decide +kernel⟩,
   ⟨state_LinkControl_23, by decide +kernel⟩,
   ⟨state_LinkControl_24, by decide +kernel⟩,
   ⟨state_LinkControl_25, by decide +kernel⟩,
   ⟨0, state_LinkControl_26, by decide +kernel⟩,
   ⟨state_LinkControl_27, by decide +kernel⟩⟩

def state_HostLink_2 : State :=
  { live with phy := { live.phy with perst := true } }

def state_HostLink_6 : State :=
  { live with hst := { live.hst with vfEnable := true } }

/-- Hypotheses of HostLink are met: one state and operands for each clause that has hypotheses. -/
theorem witness_HostLink :
    (∃ (s : State), s.phy.perst = false) ∧
    (∃ (s : State), s.phy.perst = true) ∧
    (∃ (p : PartIx) (s : State), s.hst.vfEnable = true) ∧
    (∃ (rate width : Nat) (s : State), s.phy.perst = false ∧ s.phy.shut = 0 ∧ 1 ≤ rate ∧ rate ≤ 7 ∧ width ∈ [1, 2, 4, 8, 16]) ∧
    (∃ (n : Nat) (r : HostRead) (bs : List Byte) (s : State), hostReadAt s n = some r ∧ r.kind = 0) ∧
    (∃ (n a : Nat) (c : CoreIx) (r : HostRead) (bs : List Byte) (s : State), hostReadAt s n = some r ∧ r.kind = 1 ∧ r.peer = none ∧
      r.core = c.val ∧ r.dst = some (.spd c.val a) ∧ r.va = none ∧ bs.length = r.len ∧ a + r.len ≤ spdBytes ∧ SpdQuiet c s) ∧
    (∃ (n w : Nat) (r : HostRead) (d : Cmd) (s : State), hostReadAt s n = some r ∧ r.kind ≠ 2 ∧ r.ring = some w ∧ (ringAt s w).cmd =
      some d ∧ d.phase = .running ∧ r.since + us (s.hst.timeoutMs * 1000) ≤ s.utime) ∧
    (∃ (n : Nat) (r : HostRead) (s : State), hostReadAt s n = some r ∧ r.kind = 2 ∧ r.since + us (s.hst.timeoutMs * 1000) ≤ s.utime) :=
  ⟨⟨live, by decide +kernel⟩,
   ⟨state_HostLink_2, by decide +kernel⟩,
   ⟨0, state_HostLink_6, by decide +kernel⟩,
   ⟨5, 4, live, by decide +kernel⟩,
   ⟨7, readA 0, [1, 2, 3, 4, 5, 6, 7, 8], readS 0, by decide +kernel⟩,
   ⟨7, 0x200, 1, readA 1, [1, 2, 3, 4, 5, 6, 7, 8], readS 1, by decide +kernel, by decide +kernel, by decide +kernel, by decide +kernel, by decide +kernel, by decide +kernel, by decide +kernel, by decide +kernel, by unfold SpdQuiet; decide +kernel⟩,
   ⟨7, 0, readA 0, cmdA, readS 0, by decide +kernel⟩,
   ⟨7, readA 2, readS 2, by decide +kernel⟩⟩

def state_MailboxAndSideband_6 : State :=
  (fun s => { s with mgm := { s.mgm with size := 0 } }) (mbx 2 0 0 0x1000000000)

/-- Hypotheses of MailboxAndSideband are met: one state and operands for each clause that has hypotheses. -/
theorem witness_MailboxAndSideband :
    (∃ (s : State), sidebandUp s = true ∧ mbxOwner s = 0) ∧
    (∃ (s : State), mbxOwner s ≠ 0) ∧
    (∃ (who : MbxWho) (s : State), sidebandUp s = true ∧ mbxOwner s = mbxCode who) ∧
    (∃ (s : State), mbxOwner s ≠ 0 ∧ mbxBusy s = false ∧ s.mgm.opAt + 10000000000 ≤ s.utime) ∧
    (∃ (who : MbxWho) (s : State), sidebandUp s = true ∧ mbxBusy s = false ∧ mbxOwner s ≠ mbxCode who) ∧
    (∃ (who : MbxWho) (a : W64) (s : State), sidebandUp s = true ∧ mbxBusy s = false ∧ mbxOwner s = mbxCode who ∧ a = reg s
      (R.PEX_MBX_ARG_OFFSET.at 0 0) ∧ 4096 ≤ argLength a ∧ argLength a ≤ 67108864 ∧ argLength a % 4096 = 0) ∧
    (∃ (who : MbxWho) (a : W64) (s : State), sidebandUp s = true ∧ mbxBusy s = false ∧ mbxOwner s = mbxCode who ∧ a = reg s
      (R.PEX_MBX_ARG_OFFSET.at 0 0) ∧ s.mgm.size ≠ 0 ∧ argLength a ≤ 65536 ∧ argLength a % 8 = 0 ∧ argOffset a + argLength a ≤
      s.mgm.size) ∧
    (∃ (who : MbxWho) (a : W64) (s : State), sidebandUp s = true ∧ mbxBusy s = false ∧ mbxOwner s = mbxCode who ∧ a = reg s
      (R.PEX_MBX_ARG_OFFSET.at 0 0) ∧ s.mgm.size ≠ 0) ∧
    (∃ (who : MbxWho) (a : W64) (s : State), sidebandUp s = true ∧ mbxBusy s = false ∧ mbxOwner s = mbxCode who ∧ a = reg s
      (R.PEX_MBX_ARG_OFFSET.at 0 0) ∧ s.mgm.size = 0) ∧
    (∃ (ok : Bool) (s : State), mbxBusy s = true ∧ s.mgm.op = 1) ∧
    (∃ (s : State), mbxBusy s = true ∧ s.mgm.op = 2 ∧ stageRuns s 1 = false) ∧
    (∃ (s : State), mbxBusy s = true ∧ s.mgm.op = 3 ∧ stageRuns s 1 = false) ∧
    (∃ (s : State), mbxBusy s = true ∧ s.mgm.op = 4 ∧ stageRuns s 1 = false ∧ imageCheck s.flash ≠ none) ∧
    (∃ (s : State), sidebandUp s = true) ∧
    (∃ (s : State), sidebandUp s = true ∧ operational s = true ∧ computeBusy s = false) ∧
    (∃ (s : State), sidebandUp s = true) :=
  ⟨⟨mbx 0 0 0 0, by decide +kernel⟩,
   ⟨mbx 1 0 0 0, by decide +kernel⟩,
   ⟨.sideband, mbx 2 0 0 0, by decide +kernel⟩,
   ⟨mbx 1 0 0 0, by decide +kernel⟩,
   ⟨.sideband, mbx 1 0 0 0, by decide +kernel⟩,
   ⟨.host, 0x100000000000, mbx 1 0 0 0x100000000000, by decide +kernel⟩,
   ⟨.host, 0x100000000000, mbx 1 0 0 0x100000000000, by decide +kernel⟩,
   ⟨.host, 0x100000000000, mbx 1 0 0 0x100000000000, by decide +kernel⟩,
   ⟨.sideband, 0x1000000000, state_MailboxAndSideband_6, by decide +kernel⟩,
   ⟨true, mbx 1 1 1 0, by decide +kernel⟩,
   ⟨mbx 1 1 2 0x100000000000, by decide +kernel⟩,
   ⟨mbx 1 1 3 0x800000010, by decide +kernel⟩,
   ⟨mbx 1 1 4 0, by decide +kernel⟩,
   ⟨mbx 0 0 0 0, by decide +kernel⟩,
   ⟨mbx 0 0 0 0, by decide +kernel⟩,
   ⟨mbx 0 0 0 0, by decide +kernel⟩⟩

def state_PowerStates_1 : State :=
  { live with phy := { live.phy with shut := 2, tripped := true } }

def state_PowerStates_5 : State :=
  put [(R.PWR_LIMIT_CORE_SLEEP_US, 0, 0, 5)] (idleCore 0 .gated)

def state_PowerStates_9 : State :=
  put [(R.PWR_STATUS_DIE_STATE, 0, 0, 2)] live

def state_PowerStates_10 : State :=
  put [(R.PWR_STATUS_DIE_STATE, 0, 0, 3), (R.CLK_STATUS_TARGET_MHZ, 0, 0, 1300)] live

def state_PowerStates_11 : State :=
  put [(R.CLK_STATUS_ARITH_MHZ, 0, 0, 1000), (R.CLK_STATUS_TARGET_MHZ, 0, 0, 1300)] live

def state_PowerStates_12 : State :=
  onHarp live 0 3 (fun h => { h with asking := true, gated := false })

/-- Hypotheses of PowerStates are met: one state and operands for each clause that has hypotheses. -/
theorem witness_PowerStates :
    (∃ (cv : Nat) (s : State), cv < 3000) ∧
    (∃ (cv : Nat) (s : State), 4200 < cv) ∧
    (∃ (cv : Nat) (s : State), 3000 ≤ cv ∧ cv ≤ 4200 ∧ s.phy.shut = 2) ∧
    (∃ (cv : Nat) (s : State), 3000 ≤ cv ∧ cv ≤ 4200 ∧ s.phy.shut < 2) ∧
    (∃ (stack : Bool) (tempC : Nat) (s : State), tempC < 115) ∧
    (∃ (stack : Bool) (tempC : Nat) (s : State), 115 ≤ tempC) ∧
    (∃ (c : CoreIx) (s : State), (coreAt s c).power = .running ∧ coreQuiet s c = true) ∧
    (∃ (c : CoreIx) (s : State), (coreAt s c).power = .gated ∧ coreQuiet s c = true ∧ jobOn s c = true ∧ rd s R.PWR_LIMIT_CORE_SLEEP_US
      0 0 ≠ 0 ∧ (coreAt s c).idleSince + us (rd s R.PWR_LIMIT_CORE_SLEEP_US 0 0) ≤ s.utime) ∧
    (∃ (c : CoreIx) (s : State), (coreAt s c).power ∈ [.gated, .sleep] ∧ coreQuiet s c = true ∧ ((jobOn s c = false ∨ coreUsable s c =
      false))) ∧
    (∃ (c : CoreIx) (s : State), (coreAt s c).power = .waking ∧ dieSleeps s = false ∧ coreUsable s c = true) ∧
    (∃ (s : State), rd s R.PWR_STATUS_DIE_STATE 0 0 = 1 ∧ rd s R.PWR_LIMIT_DEEP_IDLE_MS 0 0 ≠ 0 ∧ s.pwr.idleAt + rd s
      R.PWR_LIMIT_DEEP_IDLE_MS 0 0 * 1000000 ≤ s.utime ∧ noCommands s = true ∧ s.kv.ops = [] ∧ maintBusy s = false ∧ mayEmpty s = true ∧
      ((∀ c : CoreIx, coreQuiet s c = true))) ∧
    (∃ (cause : WakeCause) (s : State), rd s R.PWR_STATUS_DIE_STATE 0 0 = 2) ∧
    (∃ (cause : WakeCause) (s : State), rd s R.PWR_STATUS_DIE_STATE 0 0 ≠ 2) ∧
    (∃ (failing : List (Nat × Nat)) (s : State), rd s R.PWR_STATUS_DIE_STATE 0 0 = 3) ∧
    (∃ (s : State), rdB s R.CLK_STATUS_LOCKED 0 0 = true) ∧
    (∃ (c : CoreIx) (h : HarpIx) (s : State), coreOn s c = true ∧ (harpAt s c h).gated = false) :=
  ⟨⟨2999, live, by decide +kernel⟩,
   ⟨4201, live, by decide +kernel⟩,
   ⟨3100, state_PowerStates_1, by decide +kernel⟩,
   ⟨3500, live, by decide +kernel⟩,
   ⟨false, 100, live, by decide +kernel⟩,
   ⟨true, 120, live, by decide +kernel⟩,
   ⟨0, idleCore 0 .running, by decide +kernel⟩,
   ⟨0, state_PowerStates_5, by decide +kernel⟩,
   ⟨7, idleCore 7 .gated, by decide +kernel⟩,
   ⟨1, idleCore 1 .waking, by decide +kernel⟩,
   ⟨sleepy, by decide +kernel⟩,
   ⟨.poll, state_PowerStates_9, by decide +kernel⟩,
   ⟨.pcie, live, by decide +kernel⟩,
   ⟨[], state_PowerStates_10, by decide +kernel⟩,
   ⟨state_PowerStates_11, by decide +kernel⟩,
   ⟨0, 3, state_PowerStates_12, by decide +kernel⟩⟩

def state_Limiters_2 : State :=
  (fun s => { s with ras := { s.ras with running := [(6, 0, 10 ^ 12)] } }) (regionS 0 { Region.fresh with pairs := [(1000, 1100), (2000, 2100), (3000, 3110)], badSince := some 4 })

def state_Limiters_2b : State :=
  regionS 0 { Region.fresh with pairs := [(1000, 100), (2000, 2100), (3000, 3110)], badSince := some 4 }

def state_Limiters_2c : State :=
  regionS 0 { Region.fresh with pairs := [(1000, 1100), (2000, 2100), (3000, 3110)], badSince := some 4 }

def state_Limiters_3 : State :=
  regionS 0 { Region.fresh with sum := 20000, estSum := 19000, count := 10 }

def state_Limiters_5 : State :=
  put [(R.PWR_REGION_LIM_LIM_1US, 0, 0, 100), (R.PWR_REGION_LIM_LIM_10US, 0, 0, 100), (R.PWR_REGION_LIM_LIM_100US, 0, 0, 100), (R.PWR_REGION_STAT_DUTY, 0, 0, 9)] (live)

def state_Limiters_6 : State :=
  put [(R.PWR_REGION_LIM_LIM_1US, 0, 0, 100), (R.PWR_REGION_LIM_LIM_10US, 0, 0, 100), (R.PWR_REGION_LIM_LIM_100US, 0, 0, 100), (R.PWR_REGION_STAT_DUTY, 0, 0, 9)] (put [(R.PRT_ISO_STATUS_ACTIVE, 0, 0, 1)] (live))

def state_Limiters_8 : State :=
  put [(R.PRT_ISO_STATUS_ACTIVE, 0, 0, 1)] (put [(R.PRT_CFG_POWER_W, 0, 0, 300)] live)

def state_Limiters_11 : State :=
  onHarp (onHarp live 0 3 (fun h => { h with asking := true, gated := true })) 1 3 (fun h => { h with asking := true, gated := true })

def state_Limiters_14 : State :=
  putS [(R.PWR_LIMIT_LIMIT_W, 0, 0, 1599)] live

def state_Limiters_15 : State :=
  putS [(R.CLK_CTL_MAX_MHZ, 0, 0, 1800), (R.CLK_CTL_ISO_MHZ, 0, 0, 1800)] live

def state_Limiters_15b : State :=
  putS [(R.CLK_CTL_MAX_MHZ, 0, 0, 1850), (R.CLK_CTL_ISO_MHZ, 0, 0, 1800)] live

/-- Hypotheses of Limiters are met: one state and operands for each clause that has hypotheses. -/
theorem witness_Limiters :
    (∃ (k : RailIx) (g o d : Int) (s : State), leastSquares (regionAt s k).pairs = (g, o, d) ∧ railCalibrating s k = true ∧ rd s
      R.RAS_HALT_STATUS_STATE 0 0 = 0) ∧
    (∃ (k : RailIx) (g o d : Int) (s : State), leastSquares (regionAt s k).pairs = (g, o, d) ∧ railCalibrating s k = false ∧ fitGood
      (regionAt s k).pairs g o d = false) ∧
    (∃ (k : RailIx) (g o d : Int) (s : State), leastSquares (regionAt s k).pairs = (g, o, d) ∧ railCalibrating s k = false ∧ fitGood
      (regionAt s k).pairs g o d = true ∧ ((rdB s R.PWR_REGION_STAT_TELEMETRY_LOST k 0 = false ∨ s.utime < (regionAt s k).sampleAt + us
      100))) ∧
    (∃ (k : RailIx) (s : State), (regionAt s k).count = 0) ∧
    (∃ (k : RailIx) (s : State), (regionAt s k).count ≠ 0) ∧
    (∃ (k : RailIx) (s : State), rdB s R.PWR_REGION_STAT_TELEMETRY_LOST k 0 = false ∧ (regionAt s k).sampleAt + us 100 ≤ s.utime) ∧
    (∃ (k : RailIx) (a1 a10 a100 n d duty : Nat) (parts : List (Nat × Nat × Nat × Nat)) (used : Nat → Nat) (lim : Fld → Nat) (s :
      State), (n, d) = estFactor s k ∧ ((∀ x, used x = estMa (regionAt s k) x 36 * n)) ∧ ((∀ f, lim f = rd s f k 0 * 1000 * d)) ∧ duty =
      rd s R.PWR_REGION_STAT_DUTY k 0 ∧ isoActive s = false ∧ s.pwr.atFloor = false) ∧
    (∃ (k : RailIx) (a1 a10 a100 : Nat) (parts : List (Nat × Nat × Nat × Nat)) (s : State), isoActive s = true) ∧
    (∃ (avgW : Nat) (parts : List (Nat × List Nat × Nat × Nat × Nat)) (s : State), isoActive s = false) ∧
    (∃ (avgW : Nat) (parts : List (Nat × List Nat × Nat × Nat × Nat)) (s : State), isoActive s = true) ∧
    (∃ (k : RailIx) (s : State), heavyIn s k = true ∧ s.pwr.clamp = false) ∧
    (∃ (k : RailIx) (a : Nat) (s : State), a = (regionAt s k).stagger.getD (admitCount s k)) ∧
    (∃ (dieC stackC : Nat) (stackCs : List Nat) (s : State), stackC = (List.range 12).foldl (fun m k => if rdB s
      R.MEM_STACK_STATUS_FITTED k 0 then max m (stackCs.getD k 0) else m) 0) ∧
    (∃ (dieC stackC : Nat) (s : State), (dieC < 105 ∨ s.pwr.clamp = true)) ∧
    (∃ (dieC stackC : Nat) (s : State), 105 ≤ dieC ∧ s.pwr.clamp = false) ∧
    (∃ (s : State), pwrSetOk s = false) ∧
    (∃ (s : State), pwrSetOk s = true) ∧
    (∃ (a b : Nat) (s : State), a = rdS s R.CLK_CTL_MAX_MHZ 0 0 ∧ b = rdS s R.CLK_CTL_ISO_MHZ 0 0 ∧ 900 ≤ a ∧ a ≤ 1800 ∧ a % 100 = 0 ∧
      900 ≤ b ∧ b ≤ 1800 ∧ b % 100 = 0) ∧
    (∃ (a b : Nat) (s : State), a = rdS s R.CLK_CTL_MAX_MHZ 0 0 ∧ b = rdS s R.CLK_CTL_ISO_MHZ 0 0 ∧ ¬ (900 ≤ a ∧ a ≤ 1800 ∧ a % 100 = 0
      ∧ 900 ≤ b ∧ b ≤ 1800 ∧ b % 100 = 0)) :=
  ⟨⟨0, (leastSquares [(1000, 1100), (2000, 2100), (3000, 3110)]).1, (leastSquares [(1000, 1100), (2000, 2100), (3000, 3110)]).2.1, (leastSquares [(1000, 1100), (2000, 2100), (3000, 3110)]).2.2, state_Limiters_2, by decide +kernel⟩,
   ⟨0, (leastSquares [(1000, 100), (2000, 2100), (3000, 3110)]).1, (leastSquares [(1000, 100), (2000, 2100), (3000, 3110)]).2.1, (leastSquares [(1000, 100), (2000, 2100), (3000, 3110)]).2.2, state_Limiters_2b, by decide +kernel⟩,
   ⟨0, (leastSquares [(1000, 1100), (2000, 2100), (3000, 3110)]).1, (leastSquares [(1000, 1100), (2000, 2100), (3000, 3110)]).2.1, (leastSquares [(1000, 1100), (2000, 2100), (3000, 3110)]).2.2, state_Limiters_2c, by decide +kernel⟩,
   ⟨0, live, by decide +kernel⟩,
   ⟨0, state_Limiters_3, by decide +kernel⟩,
   ⟨0, live, by decide +kernel⟩,
   ⟨0, 50000, 60000, 70000, (estFactor (put [(R.PWR_REGION_LIM_LIM_1US, 0, 0, 100), (R.PWR_REGION_LIM_LIM_10US, 0, 0, 100), (R.PWR_REGION_LIM_LIM_100US, 0, 0, 100), (R.PWR_REGION_STAT_DUTY, 0, 0, 9)] (live)) 0).1, (estFactor (put [(R.PWR_REGION_LIM_LIM_1US, 0, 0, 100), (R.PWR_REGION_LIM_LIM_10US, 0, 0, 100), (R.PWR_REGION_LIM_LIM_100US, 0, 0, 100), (R.PWR_REGION_STAT_DUTY, 0, 0, 9)] (live)) 0).2, (rd (put [(R.PWR_REGION_LIM_LIM_1US, 0, 0, 100), (R.PWR_REGION_LIM_LIM_10US, 0, 0, 100), (R.PWR_REGION_LIM_LIM_100US, 0, 0, 100), (R.PWR_REGION_STAT_DUTY, 0, 0, 9)] (live)) R.PWR_REGION_STAT_DUTY 0 0), [], (fun x => estMa (regionAt (put [(R.PWR_REGION_LIM_LIM_1US, 0, 0, 100), (R.PWR_REGION_LIM_LIM_10US, 0, 0, 100), (R.PWR_REGION_LIM_LIM_100US, 0, 0, 100), (R.PWR_REGION_STAT_DUTY, 0, 0, 9)] (live)) 0) x 36 * (estFactor (put [(R.PWR_REGION_LIM_LIM_1US, 0, 0, 100), (R.PWR_REGION_LIM_LIM_10US, 0, 0, 100), (R.PWR_REGION_LIM_LIM_100US, 0, 0, 100), (R.PWR_REGION_STAT_DUTY, 0, 0, 9)] (live)) 0).1), (fun f => rd (put [(R.PWR_REGION_LIM_LIM_1US, 0, 0, 100), (R.PWR_REGION_LIM_LIM_10US, 0, 0, 100), (R.PWR_REGION_LIM_LIM_100US, 0, 0, 100), (R.PWR_REGION_STAT_DUTY, 0, 0, 9)] (live)) f 0 0 * 1000 * (estFactor (put [(R.PWR_REGION_LIM_LIM_1US, 0, 0, 100), (R.PWR_REGION_LIM_LIM_10US, 0, 0, 100), (R.PWR_REGION_LIM_LIM_100US, 0, 0, 100), (R.PWR_REGION_STAT_DUTY, 0, 0, 9)] (live)) 0).2), state_Limiters_5, by decide +kernel, by intro x; rfl, by intro x; rfl, by decide +kernel⟩,
   ⟨0, 50, 60, 70, [(0, 10000, 20000, 30000), (1, 5, 6, 7)], state_Limiters_6, by decide +kernel⟩,
   ⟨500, [], live, by decide +kernel⟩,
   ⟨2500, [(0, [5000, 0, 0, 0, 0, 0, 0, 0], 100, 200, 300)], state_Limiters_8, by decide +kernel⟩,
   ⟨0, hinted, by decide +kernel⟩,
   ⟨0, 18, state_Limiters_11, by decide +kernel⟩,
   ⟨70, 60, [60, 5], live, by decide +kernel⟩,
   ⟨90, 60, live, by decide +kernel⟩,
   ⟨110, 60, live, by decide +kernel⟩,
   ⟨state_Limiters_14, by decide +kernel⟩,
   ⟨live, by decide +kernel⟩,
   ⟨1800, 1800, state_Limiters_15, by decide +kernel⟩,
   ⟨1850, 1800, state_Limiters_15b, by decide +kernel⟩⟩

def state_FirstStages_2 : State :=
  (fun s => { s with flash := { s.flash with marked := true } }) (stageS 1)

def state_FirstStages_3 : State :=
  (fun s => { s with flash := { s.flash with plan := { s.flash.plan with magic := 3 } } }) (stageS 2)

/-- Hypotheses of FirstStages are met: one state and operands for each clause that has hypotheses, given what a constant without a body
  answers. -/
theorem witness_FirstStages
    (q2_1_2 : getBits (Config.freeWord 0) 0 1 = 0)
    (q2_2_2 : getBits (Config.freeWord 0) 0 1 = 1) (q2_2_3 : getBits (Config.freeWord 0) 1 1 = 0)
    (q2_3_2 : getBits (Config.freeWord 0) 0 1 = 1) (q2_3_3 : getBits (Config.freeWord 0) 1 1 = 1) :
    (∃ (ok : Bool) (s : State), stageRuns s 0 = true) ∧
    (∃ (v : W64) (s : State), stageRuns s 1 = true ∧ v = Config.freeWord s.free ∧ getBits v 0 1 = 0) ∧
    (∃ (v : W64) (s : State), stageRuns s 1 = true ∧ v = Config.freeWord s.free ∧ getBits v 0 1 = 1 ∧ getBits v 1 1 = 0) ∧
    (∃ (v : W64) (s : State), stageRuns s 1 = true ∧ v = Config.freeWord s.free ∧ getBits v 0 1 = 1 ∧ getBits v 1 1 = 1 ∧ s.flash.marked
      = true) ∧
    (∃ (s : State), stageRuns s 2 = true ∧ LogOk s) ∧
    (∃ (locked : Bool) (s : State), stageRuns s 3 = true ∧ s.boot.hold ≠ 3) ∧
    (∃ (fails : List (StackIx × ChanIx)) (s : State), stageRuns s 4 = true) ∧
    (∃ (corrected : Nat) (rows : List (BankRow × Nat)) (lost : Bool) (s : State), stageRuns s 5 = true ∧ s.boot.hold ≠ 5) :=
  ⟨⟨true, stageS 0, by decide +kernel⟩,
   ⟨Config.freeWord 0, stageS 1, by decide +kernel, rfl, q2_1_2⟩,
   ⟨Config.freeWord 0, stageS 1, by decide +kernel, rfl, q2_2_2, q2_2_3⟩,
   ⟨Config.freeWord 0, state_FirstStages_2, by decide +kernel, rfl, q2_3_2, q2_3_3, by decide +kernel⟩,
   ⟨state_FirstStages_3, by decide +kernel, by unfold LogOk; decide +kernel⟩,
   ⟨true, stageS 3, by decide +kernel⟩,
   ⟨[], stageS 4, by decide +kernel⟩,
   ⟨77, [], false, stageS 5, by decide +kernel⟩⟩

def state_LastStagesAndResets_5 : State :=
  putS [(R.BOOT_NEXT_TEST, 0, 0, 3)] live

def state_LastStagesAndResets_5b : State :=
  putS [(R.BOOT_NEXT_TEST, 0, 0, 1)] live

def state_LastStagesAndResets_6 : State :=
  { live with boot := { live.boot with storing := some 5 } }

def state_LastStagesAndResets_8 : State :=
  put [(R.BOOT_RESET_STATUS_BUSY, 0, 0, 1)] live

/-- Hypotheses of LastStagesAndResets are met: one state and operands for each clause that has hypotheses. -/
theorem witness_LastStagesAndResets :
    (∃ (s : State), stageRuns s 6 = true ∧ s.boot.hold ≠ 6 ∧ goodCores s ≠ [] ∧ ((∀ c : CoreIx, (coreAt s c).proc = none ∧ (coreAt s
      c).suspect = none))) ∧
    (∃ (s : State), stageRuns s 7 = true ∧ s.boot.hold ≠ 7 ∧ (((∀ l : LinkIx, rdB s R.LNK_CFG_ENABLE l 0 = true → linkTrains s l =
      false) ∨ s.boot.stageAt + us 500000 ≤ s.utime)) ∧ (((∀ n : PortIx, portEnabled s n = true → portSettled s n = true) ∨
      s.boot.stageAt + us 2000000 ≤ s.utime))) ∧
    (∃ (s : State), stageRuns s 8 = true) ∧
    (∃ (s : State), stageRuns s 9 = true ∧ s.boot.hold ≠ 9) ∧
    (∃ (test hold : Nat) (s : State), test = rdS s R.BOOT_NEXT_TEST 0 0 ∧ hold = rdS s R.BOOT_NEXT_HOLD 0 0 ∧ (test = 3 ∨ 8 < hold)) ∧
    (∃ (test hold : Nat) (s : State), test = rdS s R.BOOT_NEXT_TEST 0 0 ∧ hold = rdS s R.BOOT_NEXT_HOLD 0 0 ∧ test ≠ 3 ∧ hold ≤ 8) ∧
    (∃ (ok : Bool) (v : Nat) (s : State), s.boot.storing = some v) ∧
    (∃ (s : State), (operational s = false ∨ computeBusy s = true)) ∧
    (∃ (s : State), operational s = true ∧ computeBusy s = false) ∧
    (∃ (c : CoreIx) (s : State), operational s = true ∧ rdB s R.BOOT_RESET_STATUS_BUSY 0 0 = false ∧ ((∀ p, coreOwner s c = some p → rd
      s R.PRT_STATUS_STATE p 0 ≠ 2))) ∧
    (∃ (s : State), rdB s R.BOOT_RESET_STATUS_BUSY 0 0 = true ∧ s.boot.coreReset = none ∧ ((∀ u : StackIx, rd s R.KPU_UNIT_STATUS_STATE
      u 0 ≠ 2))) :=
  ⟨⟨stageS 6, by decide +kernel⟩,
   ⟨stageS 7, by decide +kernel⟩,
   ⟨stageS 8, by decide +kernel⟩,
   ⟨stageS 9, by decide +kernel⟩,
   ⟨3, 0, state_LastStagesAndResets_5, by decide +kernel⟩,
   ⟨1, 0, state_LastStagesAndResets_5b, by decide +kernel⟩,
   ⟨true, 5, state_LastStagesAndResets_6, by decide +kernel⟩,
   ⟨state_LastStagesAndResets_8, by decide +kernel⟩,
   ⟨live, by decide +kernel⟩,
   ⟨0, live, by decide +kernel⟩,
   ⟨state_LastStagesAndResets_8, by decide +kernel⟩⟩

def state_FieldTestsAndMaintenance_1 : State :=
  put [(R.RAS_HALT_STATUS_STATE, 0, 0, 1)] (dueS 5)

def state_FieldTestsAndMaintenance_1b : State :=
  { dueS 5 with ras := { live.ras with running := [(6, (regionOf 5 : Nat), 10 ^ 12)] } }

def state_FieldTestsAndMaintenance_3 : State :=
  onCore (testS 5 0 0) 5 (fun x => { x with suspect := some 1, proc := some (1, 0, 5, 0, false, 0) })

def state_FieldTestsAndMaintenance_3b : State :=
  onCore (testS 0 0 0) 0 (fun x => { x with suspect := some 1, proc := some (2, 1, 7, 3, false, 0) })

def state_FieldTestsAndMaintenance_6 : State :=
  put [(R.MEM_RETRAIN_CTL_INTERVAL_MIN, 0, 0, 1), (R.MEM_STACK_STATUS_STATE, 0, 0, 2)] live

def state_FieldTestsAndMaintenance_7 : State :=
  { live with utime := 10 ^ 14 }

def state_FieldTestsAndMaintenance_9 : State :=
  put [(R.RAS_HALT_STATUS_STATE, 0, 0, 1)] (waitS 2 none)

def state_FieldTestsAndMaintenance_9b : State :=
  put [(R.MEM_SCRUB_CTL_ENABLE, 0, 0, 1)] { live with utime := 10 ^ 17 }

/-- Hypotheses of FieldTestsAndMaintenance are met: one state and operands for each clause that has hypotheses. -/
theorem witness_FieldTestsAndMaintenance :
    (∃ (c : CoreIx) (s : State), ((rdB s R.RAS_FIT_CORE_DUE c 0 = true ∨ rdB s R.RAS_FIT_CFG_ENABLE 0 0 = true ∧ SMap.look (fun _ => 0)
      s.ras.testDue c ≤ s.utime)) ∧ coreUsable s c = true ∧ operational s = true ∧ (coreAt s c).testing = false ∧ haltInProgress s =
      true) ∧
    (∃ (c : CoreIx) (s : State), ((rdB s R.RAS_FIT_CORE_DUE c 0 = true ∨ rdB s R.RAS_FIT_CFG_ENABLE 0 0 = true ∧ SMap.look (fun _ => 0)
      s.ras.testDue c ≤ s.utime)) ∧ coreUsable s c = true ∧ operational s = true ∧ (coreAt s c).testing = false ∧ haltInProgress s =
      false ∧ railCalibrating s (regionOf c) = true ∧ waitOf s 5 c 0 = none) ∧
    (∃ (c : CoreIx) (s : State), ((rdB s R.RAS_FIT_CORE_DUE c 0 = true ∨ rdB s R.RAS_FIT_CFG_ENABLE 0 0 = true ∧ SMap.look (fun _ => 0)
      s.ras.testDue c ≤ s.utime)) ∧ coreUsable s c = true ∧ operational s = true ∧ (coreAt s c).testing = false ∧ haltInProgress s =
      false ∧ railCalibrating s (regionOf c) = false ∧ calibrationFirst s c = false ∧ testedWith s c = [c.val] ∧ jobOf s c = none) ∧
    (∃ (c : CoreIx) (run : KatRun) (s : State), (coreAt s c).testing = true ∧ coreOn s c = true ∧ (coreAt s c).proc = none ∧ (coreAt s
      c).suspect = none ∧ run.pass = true) ∧
    (∃ (c : CoreIx) (run : KatRun) (s : State), (coreAt s c).testing = true ∧ coreOn s c = true ∧ (coreAt s c).proc = none ∧ (coreAt s
      c).suspect = none ∧ run.pass = false ∧ voffOf s c < 10) ∧
    (∃ (c : CoreIx) (run : KatRun) (s : State), (coreAt s c).testing = true ∧ coreOn s c = true ∧ (coreAt s c).proc = none ∧ (coreAt s
      c).suspect = none ∧ run.pass = false ∧ 10 ≤ voffOf s c ∧ 8 ≤ derateOf s c ∧ run.onlyHarps = false) ∧
    (∃ (c : CoreIx) (run : KatRun) (step off der harps : Nat) (only : Bool) (s : State), (coreAt s c).testing = true ∧ coreOn s c = true
      ∧ run.pass = true ∧ (coreAt s c).proc = some (step, 0, off, der, only, harps)) ∧
    (∃ (c : CoreIx) (run : KatRun) (step off der harps : Nat) (only : Bool) (s : State), (coreAt s c).testing = true ∧ coreOn s c = true
      ∧ run.pass = true ∧ (coreAt s c).proc = some (step, 1, off, der, only, harps) ∧ off ≤ 10 ∧ der ≤ 8) ∧
    (∃ (a : Fin 10) (unit sub : Nat) (s : State), haltInProgress s = false ∧ operational s = true ∧ a.val ≠ 0 ∧ maintStart s a unit sub
      = none) ∧
    (∃ (k : StackIx) (ch : ChanIx) (s : State), haltInProgress s = false ∧ operational s = true ∧ maintOn s 3 k ch = true ∧ waitOf s 2 k
      ch = none) ∧
    (∃ (k : StackIx) (ch : ChanIx) (s : State), haltInProgress s = false ∧ operational s = true ∧ maintOn s 3 k ch = false ∧ waitOf s 3
      k ch = none ∧ 2 ≤ rd s R.MEM_STACK_STATUS_STATE k 0 ∧ k.val * 8 + ch.val ∉ s.ms.retraining ∧ k.val * 8 + ch.val ∉ s.ms.failedCh ∧
      retrainDue s k ch = true) ∧
    (∃ (k : RailIx) (sub : Nat) (s : State), haltInProgress s = false ∧ operational s = true ∧ calibrationDue s k = true ∧ ((∀ c :
      CoreIx, regionOf c = k → (coreAt s c).testing = false ∧ rdB s R.RAS_FIT_CORE_DUE c 0 = false))) ∧
    (∃ (row : BankRow) (good : Bool) (s : State), row ∈ rowsUnderRepair s) ∧
    (∃ (a : Fin 10) (unit sub : Nat) (s : State), haltInProgress s = true) ∧
    (∃ (a : Fin 10) (unit sub : Nat) (s : State), a.val ≠ 1 ∧ (deferLimit s a = none ∨ waitOf s a unit sub = none)) ∧
    (∃ (a : Fin 10) (unit sub : Nat) (s : State), a.val = 1 ∧ haltInProgress s = false ∧ rdB s R.MEM_SCRUB_CTL_ENABLE 0 0 = true ∧
      3600000 ≤ scrubLagMs s ∧ waitOf s 1 unit sub = none) :=
  ⟨⟨5, state_FieldTestsAndMaintenance_1, by decide +kernel⟩,
   ⟨5, state_FieldTestsAndMaintenance_1b, by decide +kernel⟩,
   ⟨5, dueS 5, by decide +kernel⟩,
   ⟨5, ⟨true, 0, 0, false⟩, testS 5 0 0, by decide +kernel⟩,
   ⟨5, ⟨false, 7, 6, false⟩, testS 5 3 2, by decide +kernel⟩,
   ⟨0, ⟨false, 7, 6, false⟩, testS 0 10 8, by decide +kernel⟩,
   ⟨5, ⟨true, 0, 0, false⟩, 1, 5, 0, 0, false, state_FieldTestsAndMaintenance_3, by decide +kernel⟩,
   ⟨0, ⟨true, 0, 0, false⟩, 2, 7, 3, 0, false, state_FieldTestsAndMaintenance_3b, by decide +kernel⟩,
   ⟨3, 0, 3, repairS, by decide +kernel⟩,
   ⟨0, 3, repairS, by decide +kernel⟩,
   ⟨0, 3, state_FieldTestsAndMaintenance_6, by decide +kernel⟩,
   ⟨0, 0, state_FieldTestsAndMaintenance_7, by decide +kernel⟩,
   ⟨rowA, true, repairS, by decide +kernel⟩,
   ⟨2, 0, 3, state_FieldTestsAndMaintenance_9, by decide +kernel⟩,
   ⟨2, 0, 3, live, by decide +kernel⟩,
   ⟨1, 0, 0, state_FieldTestsAndMaintenance_9b, by decide +kernel⟩⟩

def state_HaltsAndRecords_3 : State :=
  { haltS 1 (fun r => { r with cutAt := some 5 }) with utime := 7, time := { live.time with } }

def state_HaltsAndRecords_3b : State :=
  haltS 1 (fun r => { r with cutAt := some 0 })

def state_HaltsAndRecords_4 : State :=
  haltS 1 (fun r => { r with cut := true })

def state_HaltsAndRecords_5 : State :=
  haltS 2 (fun r => { r with fatal := some (0x20C, 0, 0, 0) })

def state_HaltsAndRecords_6 : State :=
  { live with ras := { live.ras with log := [recW, recW] } }

def state_HaltsAndRecords_7 : State :=
  put [(R.RAS_CE_LIMIT_PER_HOUR, 0, 0, 100)] (ceS (4 * 10 ^ 12) 5000)

def state_HaltsAndRecords_7b : State :=
  put [(R.RAS_CE_LIMIT_PER_HOUR, 0, 0, 100)] (ceS (0) 5000)

/-- Hypotheses of HaltsAndRecords are met: one state and operands for each clause that has hypotheses, given what a constant without a
  body answers. -/
theorem witness_HaltsAndRecords
    (q5_10_2 : getBits (Config.freeWord (state_HaltsAndRecords_5).free) 0 1 = 0) :
    (∃ (kind : FatalKind) (s : State), haltInProgress s = false ∧ s.ras.cut = false) ∧
    (∃ (leadNs : Nat) (s : State), haltInProgress s = true) ∧
    (∃ (leadNs : Nat) (s : State), haltInProgress s = false) ∧
    (∃ (cut : Nat) (s : State), s.ras.cutAt = some cut ∧ rd s R.RAS_HALT_STATUS_STATE 0 0 = 1 ∧ tsc s < cut) ∧
    (∃ (cut : Nat) (s : State), s.ras.cutAt = some cut ∧ rd s R.RAS_HALT_STATUS_STATE 0 0 = 1 ∧ cut ≤ tsc s) ∧
    (∃ (s : State), s.ras.cut = true ∧ s.ras.cutAt = none ∧ rd s R.RAS_HALT_STATUS_STATE 0 0 = 1 ∧ ((∀ u : StackIx, rd s
      R.KPU_UNIT_STATUS_STATE u 0 ≠ 2)) ∧ linksQuiet s = true) ∧
    (∃ (s : State), rd s R.RAS_HALT_STATUS_STATE 0 0 ∉ [1, 2]) ∧
    (∃ (s : State), rd s R.RAS_HALT_STATUS_STATE 0 0 = 1 ∧ s.ras.releaseAsked = false ∧ s.ras.cut = false) ∧
    (∃ (s : State), rd s R.RAS_HALT_STATUS_STATE 0 0 = 1 ∧ s.ras.releaseAsked = false ∧ s.ras.cut = true) ∧
    (∃ (s : State), rd s R.RAS_HALT_STATUS_STATE 0 0 = 2 ∧ s.ras.fatal = none) ∧
    (∃ (s : State), rd s R.RAS_HALT_STATUS_STATE 0 0 = 2 ∧ s.ras.fatal ≠ none ∧ getBits (Config.freeWord s.free) 0 1 = 0) ∧
    (∃ (seq : Nat) (w : List W64) (s : State), s.ras.log.find? (fun w => decide (getBits (w.getD 7 0) 0 32 = seq) && decide (getBits
      (w.getD 1 0) 41 1 = 0)) = some w ∧ w.length = 8) ∧
    (∃ (source unit others events last : Nat) (s : State), last = SMap.look (fun _ => 0) s.ras.rateAt (source * 4096 + unit) ∧ events =
      others + (SMap.look (fun _ => []) s.ras.corrected (source * 4096 + unit)).foldl (fun n e => if s.utime < e.1 + 3600000000000 then
      n + e.2 else n) 0 ∧ events ≤ rd s R.RAS_CE_LIMIT_PER_HOUR 0 0) ∧
    (∃ (source unit others events last : Nat) (s : State), last = SMap.look (fun _ => 0) s.ras.rateAt (source * 4096 + unit) ∧ events =
      others + (SMap.look (fun _ => []) s.ras.corrected (source * 4096 + unit)).foldl (fun n e => if s.utime < e.1 + 3600000000000 then
      n + e.2 else n) 0 ∧ last ≠ 0 ∧ s.utime < last - 1 + 3600000000000) ∧
    (∃ (source unit others events last : Nat) (s : State), last = SMap.look (fun _ => 0) s.ras.rateAt (source * 4096 + unit) ∧ events =
      others + (SMap.look (fun _ => []) s.ras.corrected (source * 4096 + unit)).foldl (fun n e => if s.utime < e.1 + 3600000000000 then
      n + e.2 else n) 0 ∧ rd s R.RAS_CE_LIMIT_PER_HOUR 0 0 < events ∧ source < 16 ∧ unit < 4096 ∧ (last = 0 ∨ last - 1 + 3600000000000 ≤
      s.utime)) :=
  ⟨⟨.clockPll, loadA, by decide +kernel⟩,
   ⟨60001, haltS 1 id, by decide +kernel⟩,
   ⟨800, live, by decide +kernel⟩,
   ⟨5, state_HaltsAndRecords_3, by decide +kernel⟩,
   ⟨0, state_HaltsAndRecords_3b, by decide +kernel⟩,
   ⟨state_HaltsAndRecords_4, by decide +kernel⟩,
   ⟨haltS 0 id, by decide +kernel⟩,
   ⟨haltS 1 id, by decide +kernel⟩,
   ⟨state_HaltsAndRecords_4, by decide +kernel⟩,
   ⟨haltS 2 id, by decide +kernel⟩,
   ⟨state_HaltsAndRecords_5, by decide +kernel, by decide +kernel, q5_10_2⟩,
   ⟨3, recW, state_HaltsAndRecords_6, by decide +kernel⟩,
   ⟨3, 7, 0, 90, 0, ceS 0 90, by decide +kernel⟩,
   ⟨3, 7, 0, 5000, 4 * 10 ^ 12, state_HaltsAndRecords_7, by decide +kernel⟩,
   ⟨3, 7, 0, 5000, 0, state_HaltsAndRecords_7b, by decide +kernel⟩⟩

def state_Observation_2 : State :=
  put [(R.DBG_SNAP_TSC_TSC, 0, 0, 2000)] counted

def state_Observation_3 : State :=
  put [(R.DBG_SNAP_STATUS_ARMED, 0, 0, 1)] { counted with obs := { counted.obs with snapParts := 1 } }

def state_Observation_5 : State :=
  put [(R.CNT_SPWP_RANGE_BASE, 1, 1, 16), (R.CNT_SPWP_RANGE_END, 1, 1, 32)] live

/-- Hypotheses of Observation are met: one state and operands for each clause that has hypotheses. -/
theorem witness_Observation :
    (∃ (c : CoreIx) (s : State), coreUsable s c = true) ∧
    (∃ (parts : Nat) (s : State), tsc s ≤ rd s R.DBG_SNAP_TSC_TSC 0 0) ∧
    (∃ (parts : Nat) (s : State), rd s R.DBG_SNAP_TSC_TSC 0 0 < tsc s) ∧
    (∃ (s : State), rdB s R.DBG_SNAP_STATUS_ARMED 0 0 = true ∧ rd s R.DBG_SNAP_TSC_TSC 0 0 ≤ tsc s) ∧
    (∃ (fn : FnIx) (c : CoreIx) (m : Fin 2) (cfg : W64) (s : State), coreUsable s c = false) ∧
    (∃ (fn : FnIx) (c : CoreIx) (m : Fin 2) (cfg : W64) (s : State), fn ≠ 0 ∧ coreOwner s c = none) ∧
    (∃ (fn : FnIx) (c : CoreIx) (m : Fin 2) (cfg : W64) (s : State), coreUsable s c = true ∧ ((fn = 0 ∨ ∃ p : PartIx, coreOwner s c =
      some p.val ∧ fn.val = p.val + 1))) ∧
    (∃ (c : CoreIx) (s : State), (coreAt s c).trace = []) ∧
    (∃ (c : CoreIx) (r : List W64) (rest : List (List W64)) (s : State), (coreAt s c).trace = r :: rest ∧ traceSlot s c = none) :=
  ⟨⟨0, counted, by decide +kernel⟩,
   ⟨3, state_Observation_2, by decide +kernel⟩,
   ⟨1, counted, by decide +kernel⟩,
   ⟨state_Observation_3, by decide +kernel⟩,
   ⟨0, 200, 0, 0x7, live, by decide +kernel⟩,
   ⟨1, 5, 0, 0x7, live, by decide +kernel⟩,
   ⟨0, 1, 1, 0x7, state_Observation_5, by decide +kernel⟩,
   ⟨0, live, by decide +kernel⟩,
   ⟨0, [1, 2, 3, 4], [[5, 6, 7, 8]], traced 0, by decide +kernel⟩⟩

def state_TimeLeakAndTestPort_7 : State :=
  { timed 3 0 0 with utime := 5 }

def state_TimeLeakAndTestPort_11 : State :=
  put [(R.BOOT_STATE_STATE, 0, 0, 2)] { live with phy := { live.phy with boundary := [true, false, true] } }

/-- Hypotheses of TimeLeakAndTestPort are met: one state and operands for each clause that has hypotheses. -/
theorem witness_TimeLeakAndTestPort :
    (∃ (s : State) (ppb : Int), ppb = (if isFollower s then s.lnk.steer else if usesInputs s then s.time.steer else 0)) ∧
    (∃ (s : State), usesInputs s = false) ∧
    (∃ (s : State) (e θ : Int), usesInputs s = true ∧ e = s.time.next + signedOf 32 (rd s R.TSC_CTL_PPS_DELAY 0 0) ∧ θ = tsc s - e) ∧
    (∃ (s : State), usesInputs s = true ∧ rdB s R.TSC_STATUS_REF_IN 0 0 = true) ∧
    (∃ (refIn ppsIn : Bool) (s : State), rdB s R.TSC_STATUS_REF_IN 0 0 = refIn ∧ rdB s R.TSC_STATUS_PPS_IN 0 0 = ppsIn) ∧
    (∃ (refIn ppsIn : Bool) (s : State), ¬ (rdB s R.TSC_STATUS_REF_IN 0 0 = refIn ∧ rdB s R.TSC_STATUS_PPS_IN 0 0 = ppsIn)) ∧
    (∃ (s : State), s.utime < s.time.edgeAt + 1500000000) ∧
    (∃ (s : State), s.time.edgeAt + 1500000000 ≤ s.utime) ∧
    (∃ (s : State), usesInputs s = true ∧ s.time.state = 3 ∧ s.time.holdAt + 1000000000000 ≤ s.utime) ∧
    (∃ (s : State), usesInputs s = true ∧ s.time.state = 3 ∧ s.utime < s.time.holdAt + 1000000000000) ∧
    (∃ (v : W64) (s : State), (isFollower s = true ∨ rd s R.TSC_CTL_SOURCE 0 0 = 1)) ∧
    (∃ (v : W64) (s : State), isFollower s = false ∧ rd s R.TSC_CTL_SOURCE 0 0 = 0) ∧
    (∃ (i o : Bool) (s : State), i = s.mgm.leakIn ∧ o = s.mgm.leakOut) ∧
    (∃ (i o : Bool) (s : State), ¬ (i = s.mgm.leakIn ∧ o = s.mgm.leakOut)) ∧
    (∃ (s : State), rd s R.BOOT_STATE_STATE 0 0 ∈ [2, 3]) :=
  ⟨⟨live, 0, by decide +kernel⟩,
   ⟨live, by decide +kernel⟩,
   ⟨timed 1 3 5001, 5000, (5001 - 5000 : Int), by decide +kernel⟩,
   ⟨timed 0 0 5, by decide +kernel⟩,
   ⟨false, false, live, by decide +kernel⟩,
   ⟨true, true, live, by decide +kernel⟩,
   ⟨{ live with utime := 5 }, by decide +kernel⟩,
   ⟨live, by decide +kernel⟩,
   ⟨timed 3 0 0, by decide +kernel⟩,
   ⟨state_TimeLeakAndTestPort_7, by decide +kernel⟩,
   ⟨77, timed 1 0 0, by decide +kernel⟩,
   ⟨77, live, by decide +kernel⟩,
   ⟨false, false, live, by decide +kernel⟩,
   ⟨true, false, live, by decide +kernel⟩,
   ⟨state_TimeLeakAndTestPort_11, by decide +kernel⟩⟩

def state_ReservedHarpFormats_1 : State :=
  withHarp (fun h => { h with queue := [0x7020200010020, 0x800000000000, 0x0, 0x0, 0x0, 0x20001] :: [] })

/-- Hypotheses of ReservedHarpFormats are met: one state and operands for each clause that has hypotheses. -/
theorem witness_ReservedHarpFormats :
    ∃ (c : CoreIx) (h : HarpIx) (d : List W64) (rest : List (List W64)) (w : Nat) (k : Cmd) (s : State), (harpAt s c h).queue = d ::
      rest ∧ (harpAt s c h).next = none ∧ (coreAt s c).running = true ∧ (coreAt s c).stopped = false ∧ (coreAt s c).harpMask / 2 ^ h.val
      % 2 = 1 ∧ (coreAt s c).ring = some w ∧ (ringAt s w).cmd = some k ∧ k.phase = .running ∧ ((notAnOperand (pFmtA d) ∨ notAnOperand
      (pFmtB d) ∨ mixedKinds (pFmtA d) (pFmtB d))) :=
  ⟨0, 0, [0x7020200010020, 0x800000000000, 0x0, 0x0, 0x0, 0x20001], [], 0, cmdA, state_ReservedHarpFormats_1, by decide +kernel, by decide +kernel, by decide +kernel, by decide +kernel, by decide +kernel, by decide +kernel, by decide +kernel, by decide +kernel, by unfold notAnOperand mixedKinds; decide +kernel⟩

def state_StepTakesTheFront_1 : State :=
  { live with pending := [.tscTick, .idcode] }

/-- Hypotheses of StepTakesTheFront are met: one state and operands for each clause that has hypotheses. -/
theorem witness_StepTakesTheFront :
    (∃ (s : State) (i : Instr) (rest : List Instr), s.pending = i :: rest) ∧
    (∃ s : State, s.pending = []) :=
  ⟨⟨state_StepTakesTheFront_1, .tscTick, [.idcode], by decide +kernel⟩,
   ⟨live, by decide +kernel⟩⟩

/-! ### Hypotheses on constants without a body, and on the whole machine -/

theorem linkAt_setLink (s : State) (l : Nat) (x : LinkRt) : linkAt (setLink s l x) l = x :=
  Sys2Proof.Laws.smap_look_put_self (fun _ => LinkRt.fresh) s.lnk.links l x

theorem linkAt_lk (st : Nat) (x : LinkRt) : linkAt (lk st x) 0 = x := linkAt_setLink _ _ _

/-- A CONTROL message that is the only one received is taken, whatever else the link record holds. -/
theorem takeControl_lk (st sub : Nat) (x : LinkRt) (m : Msg) (hx : x.inq = [m]) (hm : m.type = 9 ∧ isControl m = true ∧ getBits m.word1 0 8 = sub) :
    takeControl (lk st x) 0 sub = some (m, onLink (lk st x) 0 (fun x => oweCredit { x with inq := x.inq.erase m } m)) := by
  unfold takeControl takeMsg
  rw [linkAt_lk]
  simp [hx, hm]

/-- A link record whose peer's identity is not that of any certificate chain. -/
def strange : LinkRt := { lx with peerId := Config.certId [1, 2] ++ [0], inq := [ctlMsg 2 0 [1, 2]] }

/-- Clause 4 of LinkControl. -/
theorem witness_LinkControl_wrong_certificates :
    ∃ (l : LinkIx) (m : Msg) (s u : State), takeControl s l 2 = some (m, u) ∧ linkState s l = 3 ∧ m.order = 0 ∧
      Config.certId ((linkAt s l).peerCerts ++ m.data) ≠ (linkAt s l).peerId := by
  refine ⟨0, ctlMsg 2 0 [1, 2], lk 3 strange, _, takeControl_lk 3 2 strange _ rfl (by decide +kernel), by decide +kernel, by decide +kernel, ?_⟩
  show Config.certId ((linkAt (lk 3 strange) 0).peerCerts ++ [1, 2]) ≠ (linkAt (lk 3 strange) 0).peerId
  rw [linkAt_lk]
  show Config.certId [1, 2] ≠ Config.certId [1, 2] ++ [0]
  intro h
  simpa using congrArg List.length h

/-- A link record whose peer's identity is that of its certificates. -/
def known : LinkRt := { lx with peerId := Config.certId [1, 2], inq := [ctlMsg 2 0 [1, 2]] }

/-- Clause 3 of LinkControl. -/
theorem witness_LinkControl_certificates (h : Config.chainValid [1, 2] = true) :
    ∃ (l : LinkIx) (m : Msg) (certs : List Byte) (s u : State), takeControl s l 2 = some (m, u) ∧ linkState s l = 3 ∧ m.order = 0 ∧
      certs = (linkAt s l).peerCerts ++ m.data ∧ Config.certId certs = (linkAt s l).peerId ∧ Config.chainValid certs = true ∧
      rdB s R.LNK_DOMAIN_TRUST 0 0 = false := by
  refine ⟨0, ctlMsg 2 0 [1, 2], [1, 2], lk 3 known, _, takeControl_lk 3 2 known _ rfl (by decide +kernel), by decide +kernel,
    by decide +kernel, ?_, ?_, h, by decide +kernel⟩
  · show [1, 2] = (linkAt (lk 3 known) 0).peerCerts ++ [1, 2]
    rw [linkAt_lk]
    rfl
  · show Config.certId [1, 2] = (linkAt (lk 3 known) 0).peerId
    rw [linkAt_lk]
    rfl

/-- A link record that has received its peer's confirmation. -/
def confirmed : LinkRt := { lx with inq := [ctlMsg 5 0 (1 :: confirmation lx (!ownIsLo lx))] }

/-- Clause 7 of LinkControl. -/
theorem witness_LinkControl_confirm (h : (confirmation lx (!ownIsLo lx)).length = 32) :
    ∃ (l : LinkIx) (m : Msg) (s u : State), takeControl s l 5 = some (m, u) ∧ linkState s l = 4 ∧ m.data.getD 0 0 ≠ 0 ∧
      (m.data.drop 1).take 32 = confirmation (linkAt u l) (!ownIsLo (linkAt u l)) := by
  refine ⟨0, ctlMsg 5 0 (1 :: confirmation lx (!ownIsLo lx)), lk 4 confirmed, _,
    takeControl_lk 4 5 confirmed _ rfl ⟨by decide, rfl, by decide⟩, by decide +kernel, ?_, ?_⟩
  · show (1 : Byte) ≠ 0
    decide
  · have e : linkAt (onLink (lk 4 confirmed) 0 (fun x => oweCredit { x with inq := x.inq.erase (ctlMsg 5 0 (1 :: confirmation lx (!ownIsLo lx))) }
        (ctlMsg 5 0 (1 :: confirmation lx (!ownIsLo lx))))) 0 =
        oweCredit { confirmed with inq := confirmed.inq.erase (ctlMsg 5 0 (1 :: confirmation lx (!ownIsLo lx))) }
          (ctlMsg 5 0 (1 :: confirmation lx (!ownIsLo lx))) := by
      unfold onLink
      rw [linkAt_setLink, linkAt_lk]
    show (confirmation lx (!ownIsLo lx)).take 32 = confirmation (linkAt _ 0) (!ownIsLo (linkAt _ 0))
    rw [e]
    show (confirmation lx (!ownIsLo lx)).take 32 = confirmation lx (!ownIsLo lx)
    exact List.take_of_length_le (by omega)

/-- Clause 4 of ImportsAndRollback. -/
theorem witness_ImportsAndRollback_opened (key hash : List Byte)
    (h : importKey importRuns 0 ⟨0x100000, 65536, 31640, 1, [], [], 0, []⟩ = .ok (key, hash)) :
    ∃ (p : PartIx) (i : Import) (key h : List Byte) (s : State), importOf s p = some i ∧ rd s R.SEC_IMP_STATUS_STATE p 0 = 1 ∧
      importKey s p i = .ok (key, h) :=
  ⟨0, ⟨0x100000, 65536, 31640, 1, [], [], 0, []⟩, key, hash, importRuns, by decide +kernel, by decide +kernel, h⟩

/-- An import whose chunks are being opened. -/
def importOpens : State := wr importRuns R.SEC_IMP_STATUS_STATE 0 0 2

/-- Clause 5 of ImportsAndRollback. -/
theorem witness_ImportsAndRollback_bad_chunk (h : nextChunks importOpens 0 ⟨0x100000, 65536, 31640, 1, [], [], 0, []⟩ 1 = none) :
    ∃ (p : PartIx) (i : Import) (n : Nat) (s : State), importOf s p = some i ∧ rd s R.SEC_IMP_STATUS_STATE p 0 = 2 ∧
      nextChunks s p i n = none :=
  ⟨0, ⟨0x100000, 65536, 31640, 1, [], [], 0, []⟩, 1, importOpens, by decide +kernel, by decide +kernel, h⟩

/-- Sf4Values, for the negative codes. -/
theorem witness_Sf4Values : ∃ p, binFmt 0x8 = some p ∧ ∃ (neg : Bool) (o : Nat), neg = true ∧ o = (if neg then 0x8 else 0) :=
  ⟨_, rfl, true, 8, rfl, rfl⟩

/-- MemoryFormIsKept, NumbersStayInRange and QueuesNeverStop: a state with a command that a step runs. -/
theorem witness_Invariants :
    ∃ s t : State, (s.mem.wf = true ∧ RingsOk s ∧ LogOk s) ∧ step s = .next t ∧ s.pending = [.getVersion 0] :=
  ⟨{ live with pending := [.getVersion 0] }, _, ⟨by decide +kernel, ringsOk_of (by decide +kernel), by unfold LogOk; decide +kernel⟩, rfl, rfl⟩

/-- QueuesNeverStop: a queue without slice accesses. -/
theorem witness_QueuesNeverStop :
    ∃ s : State, s.pending ≠ [] ∧ ∀ i ∈ s.pending, (∀ who pa len ecc, i ≠ .sliceRead who pa len ecc) ∧
      ∀ who pa op x y m ecc, i ≠ .sliceAtomic who pa op x y m ecc := by
  refine ⟨{ live with pending := [.tscTick] }, by simp, ?_⟩
  intro i hi
  obtain rfl : i = .tscTick := by simpa using hi
  exact ⟨by intros; simp, by intros; simp⟩

/-- NothingGoesBack: a command that runs. -/
theorem witness_NothingGoesBack : ∃ (i : Instr) (s t : State), Runs i s t := ⟨.getVersion 0, live, _, rfl⟩

/-! ### One step -/

/-- 09_work_submission.md gives nothing to an empty queue: the block idles. -/
theorem test_idle : step State.reset = .next State.reset := rfl

end Sys2Proof.Tests
end

section
/-!
PROOFS. Which control registers an operation can change, and what a read of module memory that no watchpoint sees leaves as
it was.
-/
namespace Sys2Proof.Proofs
open Sys2Proof.Machine Sys2Proof.Safety Sys2Proof.Laws

/-! ### Registers outside a set of offsets -/

/-- Every control register outside a set of offsets reads as before. -/
def RegsOff (P : Nat → Prop) (s t : State) : Prop := ∀ o, ¬ P o → reg t o = reg s o

section
variable {P Q : Nat → Prop} {s t u : State}

theorem RegsOff.refl (P : Nat → Prop) (s : State) : RegsOff P s s := fun _ _ => rfl

theorem RegsOff.trans (h : RegsOff P s t) (h' : RegsOff P t u) : RegsOff P s u := fun o ho => (h' o ho).trans (h o ho)

theorem RegsOff.mono (h : RegsOff P s t) (hPQ : ∀ o, P o → Q o) : RegsOff Q s t := fun o ho => h o (fun hp => ho (hPQ o hp))

theorem RegsOff.of_regs (h : t.regs = s.regs) : RegsOff P s t := fun o _ => reg_congr h o

theorem RegsOff.of_agree {L : List Part} (h : AgreeOutside L s t) (hL : Part.regs ∉ L) : RegsOff P s t :=
  RegsOff.of_regs (h .regs hL)

theorem RegsOff.of_wr (s : State) {f : Fld} {i j : Nat} (v : Nat) (h : P (f.at i j)) : RegsOff P s (wr s f i j v) :=
  fun _ ho => reg_wr_other s f i j v (fun e => ho (e ▸ h))

theorem RegsOff.wr (hs : RegsOff P s t) {f : Fld} {i j v : Nat} (h : P (f.at i j)) : RegsOff P s (wr t f i j v) :=
  hs.trans (RegsOff.of_wr t v h)

theorem RegsOff.foldl {α : Type} {f : State → α → State} {l : List α} (hf : ∀ v, ∀ x ∈ l, RegsOff P v (f v x))
    (hs : RegsOff P s t) : RegsOff P s (l.foldl f t) :=
  List.foldlRecOn l f hs (fun v hv x hx => hv.trans (hf v x hx))

theorem RegsOff.rd (h : RegsOff P s t) {f : Fld} {i j : Nat} (hf : ¬ P (f.at i j)) :
    Machine.rd t f i j = Machine.rd s f i j := by simp only [Machine.rd, h _ hf]

theorem RegsOff.rdB (h : RegsOff P s t) {f : Fld} {i j : Nat} (hf : ¬ P (f.at i j)) :
    Machine.rdB t f i j = Machine.rdB s f i j := by simp only [Machine.rdB, h.rd hf]

end

/-! ### Records and events (R253, R255, R398) -/

/-- Registers of the completion rings, of the scheduler's and the error log's status and of the CXL ports: what a record, an
event or the failing of a port's range can change. -/
def RecordReg (o : Nat) : Prop :=
  o = 0x300018 ∨ (0x320000 ≤ o ∧ o < 0x321000) ∨ (0xa00000 ≤ o ∧ o < 0xa02000) ∨ o = 0xd00000

theorem recordReg_cq {q : Nat} (hq : q < 64) :
    RecordReg (R.SEQ_CQ_STATUS_PRODUCED.at q 0) ∧ RecordReg (R.SEQ_CQ_STATUS_GEN.at q 0) ∧
      RecordReg (R.SEQ_CQ_STATUS_FULL.at q 0) ∧ RecordReg (R.SEQ_CQ_STATUS_HELD.at q 0) := by
  simp only [RecordReg, Fld.at, R.SEQ_CQ_STATUS_PRODUCED, R.SEQ_CQ_STATUS_GEN, R.SEQ_CQ_STATUS_FULL, R.SEQ_CQ_STATUS_HELD]
  omega

theorem recordReg_port {n : Nat} (hn : n < 2) : RecordReg (R.CXL_PORT_STATUS_FAILED.at n 0) := by
  simp only [RecordReg, Fld.at, R.CXL_PORT_STATUS_FAILED]; omega

theorem recordReg_status : RecordReg (R.SEQ_STATUS_HELD.at 0 0) ∧ RecordReg (R.SEQ_STATUS_EVT_DROPPED.at 0 0) ∧
    RecordReg (R.RAS_ERR_STATUS_WRITTEN.at 0 0) ∧ RecordReg (R.RAS_ERR_STATUS_HELD.at 0 0) := by
  simp [RecordReg, Fld.at, R.SEQ_STATUS_HELD, R.SEQ_STATUS_EVT_DROPPED, R.RAS_ERR_STATUS_WRITTEN, R.RAS_ERR_STATUS_HELD]

/-- What records, events and reads of module memory leave as it was: all registers but those of `RecordReg`, the request rings,
every byte of memory, and the parts of the state outside a list. -/
structure ReadFrame (s t : State) : Prop where
  regs : RegsOff RecordReg s t
  rings : t.sch.rings = s.sch.rings
  bytes : t.mem.bytes = s.mem.bytes
  agree : AgreeOutside [.mem, .regs, .out, .ms, .sch, .ras, .hst] s t

section
variable {s t u : State}

theorem ReadFrame.refl (s : State) : ReadFrame s s := ⟨RegsOff.refl _ s, rfl, rfl, Agree.refl _ s⟩

theorem ReadFrame.trans (h : ReadFrame s t) (h' : ReadFrame t u) : ReadFrame s u :=
  ⟨h.regs.trans h'.regs, h'.rings.trans h.rings, h'.bytes.trans h.bytes, Agree.trans h.agree h'.agree⟩

/-- An operation outside the registers, of which only the frame of parts is known. -/
theorem ReadFrame.of_parts {L : List Part} (h : AgreeOutside L s t)
    (hL : (L.all (fun q => [Part.mem, .out, .ms, .sch, .ras, .hst].contains q)) = true)
    (hr : t.sch.rings = s.sch.rings) (hb : t.mem.bytes = s.mem.bytes) : ReadFrame s t :=
  have h' : AgreeOutside [.mem, .out, .ms, .sch, .ras, .hst] s t := Agree.mono h hL
  ⟨RegsOff.of_agree h' (by decide), hr, hb, Agree.mono h' rfl⟩

theorem ReadFrame.of_wr (s : State) {f : Fld} {i j : Nat} (v : Nat) (h : RecordReg (f.at i j)) : ReadFrame s (wr s f i j v) :=
  ⟨RegsOff.of_wr s v h, rfl, rfl, Agree.mono (wr_keeps s f i j v) rfl⟩

theorem ReadFrame.foldl {α : Type} {f : State → α → State} {l : List α} (hf : ∀ v, ∀ x ∈ l, ReadFrame v (f v x))
    (hs : ReadFrame s t) : ReadFrame s (l.foldl f t) :=
  List.foldlRecOn l f hs (fun v hv x hx => hv.trans (hf v x hx))

theorem ReadFrame.ringAt (h : ReadFrame s t) (w : Nat) : ringAt t w = ringAt s w := by simp only [Machine.ringAt, h.rings]

theorem ReadFrame.memByte (h : ReadFrame s t) (k : Nat) : memByte t.mem k = memByte s.mem k := by
  simp only [Machine.memByte, h.bytes]

end

theorem signalIrq_frame (s : State) (q : Nat) (b : Bool) : ReadFrame s (signalIrq s q b) := by
  have hr : (signalIrq s q b).sch.rings = s.sch.rings := by
    unfold signalIrq
    dsimp only
    split
    · rfl
    · split
      · rfl
      · exact (congrArg Sched.rings (sendMsix_keeps (setCq s q _) _ _ .sch (by decide))).trans rfl
  have hk := signalIrq_keeps s q b
  exact ReadFrame.of_parts hk rfl hr (congrArg Memory.bytes (hk .mem (by decide)))

theorem writeRecord_frame (s : State) {q : Nat} (hq : q < 64) (ws : List W64) (irq : Bool) :
    ReadFrame s (writeRecord s q ws irq) := by
  obtain ⟨hprod, hgen, hfull, -⟩ := recordReg_cq hq
  have hemit : ∀ o, ReadFrame s (emit s o) := fun o => ReadFrame.of_parts (emit_keeps s o) rfl rfl rfl
  unfold writeRecord
  dsimp only
  refine ReadFrame.trans ?_ (signalIrq_frame _ _ _)
  refine ReadFrame.trans ?_ (ReadFrame.of_wr _ _ hfull)
  split
  · exact ((hemit _).trans (ReadFrame.of_wr _ _ hprod)).trans (ReadFrame.of_wr _ _ hgen)
  · exact (hemit _).trans (ReadFrame.of_wr _ _ hprod)

theorem holdRecord_frame (s : State) {r : HeldRec} (hq : r.cq < 64) : ReadFrame s (holdRecord s r) := by
  obtain ⟨-, -, -, hheld⟩ := recordReg_cq hq
  have hk := holdRecord_keeps s r
  exact ⟨((RegsOff.of_regs rfl).wr hheld).wr recordReg_status.1, rfl, rfl, Agree.mono hk rfl⟩

theorem deliver_frame {s t : State} {r : HeldRec} (hq : r.cq < 64) (h : deliver s r = some t) : ReadFrame s t := by
  unfold deliver at h
  split at h
  · cases h; exact writeRecord_frame s hq _ _
  · split at h
    · cases h; exact holdRecord_frame s hq
    · cases h

theorem eventRing_lt {s : State} {p : Option Nat} {q : Nat} (h : eventRing s p = some q) : q < 64 :=
  List.mem_range.mp (List.mem_of_find?_eq_some h)

theorem postEvent_frame (s : State) (p : Option Nat) (code a b c : Nat) : ReadFrame s (postEvent s p code a b c) := by
  have hdrop : ReadFrame s (addSat s R.SEQ_STATUS_EVT_DROPPED 0 0 1) := ReadFrame.of_wr s _ recordReg_status.2.1
  unfold postEvent
  split
  · exact hdrop
  · rename_i q hq
    split
    · exact deliver_frame (eventRing_lt hq) ‹_›
    · exact hdrop.trans (ReadFrame.of_parts (L := [.sch])
        (Agree.update (fun p hp => by cases p <;> first | exact absurd (by decide) hp | exact rfl) (Agree.refl _ _)) rfl rfl rfl)

theorem logErr_frame (s : State) (e : ErrInfo) : ReadFrame s (logErr s e) := by
  obtain ⟨-, -, hwritten, hheld⟩ := recordReg_status
  have hras : ∀ r, ReadFrame s { s with ras := r } := fun r => ReadFrame.of_parts (Agree.with_ras s r) rfl rfl rfl
  unfold logErr errRecord evErrorRecord
  dsimp only
  split
  · split
    · exact hras _
    · exact (((hras _).trans (ReadFrame.of_wr _ _ hwritten)).trans (ReadFrame.of_wr _ _ hheld)).trans (postEvent_frame _ _ _ _ _ _)
  · exact (((hras _).trans (ReadFrame.of_wr _ _ hwritten)).trans (ReadFrame.of_wr _ _ hheld)).trans (postEvent_frame _ _ _ _ _ _)

/-! ### Reads of module memory (R215, R226, R227) -/

theorem failPort_frame (s : State) {n : Nat} (hn : n < 2) : ReadFrame s (failPort s n) := by
  unfold failPort
  split
  · exact ReadFrame.refl s
  · exact (ReadFrame.of_wr s _ (recordReg_port hn)).trans (logErr_frame _ _)

theorem ReadFrame.with_ms (s : State) (v : MemSys) : ReadFrame s { s with ms := v } :=
  ReadFrame.of_parts (Agree.with_ms s v) rfl rfl rfl

theorem ReadFrame.with_mark (s : State) (line : Nat) : ReadFrame s { s with mem := memMark s.mem line } :=
  ReadFrame.of_parts (L := [.mem])
    (Agree.update (fun p hp => by cases p <;> first | exact absurd (by decide) hp | exact rfl) (Agree.refl _ s)) rfl rfl rfl

theorem evictDown_frame (s : State) {n : Nat} (hn : n < 2) (line : Nat) : ReadFrame s (evictDown s n line) := by
  unfold evictDown
  dsimp only
  split
  · exact ReadFrame.refl s
  · split
    · exact ReadFrame.with_ms s _
    · have h := (logErr_frame s ⟨0x0201, 3, 6, n, ownerOf s (line * 64), some (line * 64), none, none, n, 0⟩).trans
        (ReadFrame.with_mark _ line)
      split
      · exact h
      · split
        · exact h.trans (ReadFrame.with_ms _ _)
        · exact h.trans (failPort_frame _ hn)

theorem writeBack_frame (s : State) (line : Nat) : ReadFrame s (writeBack s line) := by
  have hk := writeBack_keeps s line
  exact ReadFrame.of_parts hk rfl (congrArg Sched.rings (hk .sch (by decide))) (congrArg Memory.bytes (hk .mem (by decide)))

theorem evict_frame (s : State) (line : Nat) (x : SLine) : ReadFrame s (evict s line x) := by
  have hout := ReadFrame.with_ms s { s.ms with
    lines := s.ms.lines.filter (fun e => decide (e.1 ≠ line)), badUnder := s.ms.badUnder.filter (· ≠ line) }
  have hmark := hout.trans (ReadFrame.with_mark _ line)
  unfold evict
  dsimp only
  split
  · split
    · have hn := placeOf_cxl ‹_›
      split <;> split
      · exact hmark.trans (writeBack_frame _ line)
      · exact hmark.trans (evictDown_frame _ hn line)
      · exact hout.trans (writeBack_frame _ line)
      · exact hout.trans (evictDown_frame _ hn line)
    · split
      · exact hmark
      · exact hout
  · split
    · exact hmark
    · exact hout

theorem touch_frame (s : State) (pa n : Nat) (isWrite : Bool) : ReadFrame s (touch s pa n isWrite) := by
  have hallocate : ∀ v line, ReadFrame v (allocate v line isWrite) := by
    intro v line
    unfold allocate
    dsimp only
    split
    · exact ReadFrame.refl v
    · split
      · exact ReadFrame.with_ms v _
      · split
        · exact ReadFrame.refl v
        · exact (evict_frame v _ _).trans (ReadFrame.with_ms _ _)
  unfold touch
  refine ReadFrame.foldl (fun v line _ => ?_) (ReadFrame.refl s)
  unfold touchLine
  split
  · exact ReadFrame.with_ms v _
  · split
    · exact ReadFrame.refl v
    · exact hallocate v line

theorem memQuiet_of_frame {s t : State} (h : ReadFrame s t) (hq : MemQuiet s) : MemQuiet t := by
  intro n hn
  refine (h.regs.rdB ?_).trans (hq n hn)
  simp only [RecordReg, Fld.at, R.DBG_WP_CFG_ENABLE]
  omega

/-- With no memory watchpoint enabled a slice watches no access (R433). -/
theorem watchMem_quiet {s : State} (hq : MemQuiet s) (op : Nat) (who : Requester) (va w : Option Nat) (pa len : Nat) :
    watchMem s op who va w pa len = s := by
  have hnone : ∀ code, (List.range 16).filter (fun n => wpMatches s n op code pa len) = [] := by
    intro code
    rw [List.filter_eq_nil_iff]
    intro n hn
    simp [wpMatches, hq n (List.mem_range.mp hn)]
  unfold watchMem
  split
  · rfl
  · rw [hnone]

/-- A read by a requester that is no core, with no watchpoint enabled. -/
theorem sliceRd_frame {s : State} (hq : MemQuiet s) {who : Requester} (hw : requesterCore who = none) (va w : Option Nat) (pa n : Nat) :
    ReadFrame s (sliceRd s who va w pa n) := by
  have hcount : countMem s who pa n false = s := by simp only [countMem, hw]
  rw [sliceRd, hcount, watchMem_quiet hq]
  exact touch_frame s pa n false

/-- Any number of such reads. -/
theorem sliceRds_frame {α : Type} {s t : State} (hq : MemQuiet s) (hs : ReadFrame s t) {who : Requester} (hw : requesterCore who = none)
    (va w : Option Nat) (pa n : α → Nat) (l : List α) : ReadFrame s (l.foldl (fun v x => sliceRd v who va w (pa x) (n x)) t) :=
  List.foldlRecOn l _ hs (fun _ hv _ _ => hv.trans (sliceRd_frame (memQuiet_of_frame hv hq) hw _ _ _ _))

/-- Translations of the sarabande's own reads are kept, with what the walks read (R230). -/
theorem learnRange_frame {s : State} (hq : MemQuiet s) (p va n : Nat) (write hostOk : Bool) (w : Option Nat) :
    ReadFrame s (learnRange s none p va n write hostOk w) := by
  refine List.foldlRecOn (vaBlocks va n) _ (ReadFrame.refl s) (fun v hv a _ => hv.trans ?_)
  have hvq := memQuiet_of_frame hv hq
  have hkeep : ∀ u x, ReadFrame u (keepOwn (keepXlat u x) none x) := fun u x => ReadFrame.of_parts (keepXlat_keeps u x) rfl rfl rfl
  unfold learn
  split
  · split
    · exact ReadFrame.refl v
    · exact ReadFrame.refl v
  · have hreads := sliceRds_frame hvq (ReadFrame.refl v) (who := .dtu) rfl none w (fun a => a) (fun _ => 8) (walkReads v p a)
    dsimp only
    split
    · exact hreads.trans (hkeep _ _)
    · exact hreads

end Sys2Proof.Proofs
end

section
/-!
PROOFS. What a commit takes from the shadow (R10, R12), what a refusal records, and folds over units.
-/
namespace Sys2Proof.Proofs
open Sys2Proof.Machine Sys2Proof.Safety Sys2Proof.Laws

/-! ### Commits of registers (R12) -/

/-- Field `f` is one that a commit takes among the fields of its register: RWC, and apart from every other field. -/
def takenField (f : Fld) (fs : List FldRow) : Bool :=
  decide (f.lo + f.width ≤ 64) && fs.any (fun r => decide (r.lo = f.lo ∧ r.width = f.width ∧ r.acc = .rwc)) &&
    fs.all (fun r => decide (r.lo + r.width ≤ 64 ∧
      ((r.lo = f.lo ∧ r.width = f.width) ∨ r.lo + r.width ≤ f.lo ∨ f.lo + f.width ≤ r.lo)))

/-- A commit of the register at offset `o` takes field `f` from the shadow. -/
def committable (f : Fld) (o : Nat) : Bool :=
  match regAt o with
  | some r => takenField f r.fields
  | none => false

theorem getBits_lt (x : W64) (lo w : Nat) : getBits x lo w < 2 ^ w := Nat.mod_lt _ (Nat.two_pow_pos w)

/-- A word after a commit holds the shadow's value in a field that some RWC field is, and its own where none is. -/
theorem getBits_commitFields (f : Fld) (v : W64) (fs : List FldRow) (w : W64)
    (h : ∀ r ∈ fs, r.lo + r.width ≤ 64 ∧ ((r.lo = f.lo ∧ r.width = f.width) ∨ r.lo + r.width ≤ f.lo ∨ f.lo + f.width ≤ r.lo)) :
    getBits (fs.foldl (fun w r => if r.acc = .rwc then setBits w r.lo r.width (getBits v r.lo r.width) else w) w) f.lo f.width =
      if ∃ r ∈ fs, r.lo = f.lo ∧ r.width = f.width ∧ r.acc = .rwc then getBits v f.lo f.width else getBits w f.lo f.width := by
  induction fs generalizing w with
  | nil => simp
  | cons r t ih =>
    obtain ⟨hin, hwhere⟩ := h r (by simp)
    rw [List.foldl_cons, ih _ (fun x hx => h x (by simp [hx]))]
    simp only [List.exists_mem_cons_iff]
    by_cases ht : ∃ x ∈ t, x.lo = f.lo ∧ x.width = f.width ∧ x.acc = .rwc
    · simp only [ht, or_true, if_true]
    · simp only [ht, or_false, if_false]
      by_cases hacc : r.acc = .rwc
      · rw [if_pos hacc]
        rcases hwhere with ⟨hlo, hw⟩ | hapart
        · rw [if_pos ⟨hlo, hw, hacc⟩, hlo, hw, getBits_setBits_self _ _ _ _ (by omega)]
          exact Nat.mod_eq_of_lt (getBits_lt v f.lo f.width)
        · rw [getBits_setBits_other _ _ _ _ _ _ hin (by omega)]
          split
          · rename_i hr
            obtain ⟨hlo, hw, -⟩ := hr
            rw [hlo, hw] at hapart
            have hzero : f.width = 0 := by omega
            simp [getBits, hzero, Nat.mod_one]
          · rfl
      · rw [if_neg hacc, if_neg (fun hr => hacc hr.2.2)]

theorem rd_commitWord {f : Fld} {i j : Nat} (h : committable f (f.at i j) = true) (s : State) (v : W64) :
    rd (commitWord s (f.at i j) v) f i j = getBits v f.lo f.width := by
  unfold committable at h
  unfold commitWord
  split at h
  · rename_i r hr
    simp only [takenField, Bool.and_eq_true, decide_eq_true_eq, List.any_eq_true, List.all_eq_true] at h
    obtain ⟨⟨-, hex⟩, hall⟩ := h
    rw [hr]
    simp only [rd, reg_setReg_self]
    rw [getBits_commitFields f v r.fields _ hall, if_pos hex]
  · exact absurd h (by simp)

theorem commitWord_regs (s : State) (o : Nat) (v : W64) : RegsOff (· = o) s (commitWord s o v) := by
  unfold commitWord
  split
  · exact RegsOff.refl _ s
  · exact fun o' ho => reg_setReg_other s _ ho

theorem commitCopy_regs (s : State) (cp : List (Nat × W64)) : RegsOff (fun o => ∃ e ∈ cp, o = e.1) s (commitCopy s cp) :=
  RegsOff.foldl (fun v e he => (commitWord_regs v e.1 e.2).mono (fun _ h => ⟨e, he, h⟩)) (RegsOff.refl _ s)

theorem copyShadow_regs (s t : State) (offs : List Nat) : RegsOff (· ∈ offs) t (commitCopy t (copyShadow s offs)) := by
  refine (commitCopy_regs t _).mono ?_
  rintro o ⟨e, he, rfl⟩
  obtain ⟨o', ho', rfl⟩ := List.mem_map.mp he
  exact ho'

/-- A committed copy of the shadow holds the shadow's value in every field that a commit takes. -/
theorem rd_commitCopy {f : Fld} {i j : Nat} (hc : committable f (f.at i j) = true) (s t : State) {offs : List Nat}
    (hm : f.at i j ∈ offs) : rd (commitCopy t (copyShadow s offs)) f i j = rdS s f i j := by
  induction offs generalizing t with
  | nil => cases hm
  | cons o offs ih =>
    have hstep : commitCopy t (copyShadow s (o :: offs)) = commitCopy (commitWord t o (shadowWord s o)) (copyShadow s offs) := rfl
    rw [hstep]
    by_cases h : f.at i j ∈ offs
    · exact ih _ h
    · rw [(copyShadow_regs s _ offs).rd h]
      obtain rfl := (List.mem_cons.mp hm).resolve_right h
      exact rd_commitWord hc t _

theorem commitRegs_eq_commitCopy (s : State) (offs : List Nat) : commitRegs s offs = commitCopy s (copyShadow s offs) := by
  suffices h : ∀ t : State, t.shadow = s.shadow → commitRegs t offs = commitCopy t (copyShadow s offs) from h s rfl
  induction offs with
  | nil => exact fun _ _ => rfl
  | cons o offs ih =>
    intro t ht
    have hword : commitReg t o = commitWord t o (shadowWord s o) := by simp only [commitReg, shadowWord, ht]
    have hstep : commitRegs t (o :: offs) = commitRegs (commitReg t o) offs := rfl
    rw [hstep, ih _ ((commitReg_keeps t o .shadow (by decide)).trans ht), hword]
    rfl

/-- The committed set holds the shadow's value in every field that a commit takes (R12). -/
theorem rd_commitRegs {f : Fld} {i j : Nat} (hc : committable f (f.at i j) = true) (s : State) {offs : List Nat}
    (hm : f.at i j ∈ offs) : rd (commitRegs s offs) f i j = rdS s f i j := by
  rw [commitRegs_eq_commitCopy]; exact rd_commitCopy hc s s hm

/-- A field of a copy of the shadow. -/
theorem rdIn_copyShadow (s : State) (f : Fld) (i j : Nat) {offs : List Nat} (hm : f.at i j ∈ offs) :
    rdIn (copyShadow s offs) f i j = rdS s f i j := by
  have hfind : (copyShadow s offs).find? (fun e => decide (e.1 = f.at i j)) = some (f.at i j, shadowWord s (f.at i j)) := by
    induction offs with
    | nil => cases hm
    | cons o offs ih =>
      by_cases ho : o = f.at i j
      · subst ho; simp [copyShadow]
      · have := ih ((List.mem_cons.mp hm).resolve_left (Ne.symm ho))
        simpa [copyShadow, ho] using this
  simp only [rdIn, hfind, rdS, Option.map_some, Option.getD_some]

/-! ### Refusals -/

/-- A refusal with none held sets REJECTED and records its cause; no other register changes. -/
theorem refuse_records {s : State} {rej cause : Fld} {i : Nat} (c : Nat) (h : rdB s rej i 0 = false) (hat : cause.at i 0 = rej.at i 0)
    (hrej : rej.lo + rej.width ≤ 64) (hcause : cause.lo + cause.width ≤ 64) (hapart : rej.lo + rej.width ≤ cause.lo) :
    rd (refuse s rej cause i c) rej i 0 = 1 % 2 ^ rej.width ∧ rd (refuse s rej cause i c) cause i 0 = c % 2 ^ cause.width ∧
      RegsOutside [rej.at i 0] s (refuse s rej cause i c) := by
  have hstep : refuse s rej cause i c = wr (wr s rej i 0 1) cause i 0 c := by simp [refuse, h]
  rw [hstep]
  refine ⟨?_, rd_wr_self _ _ _ _ _ hcause, ?_⟩
  · rw [rd_wr_disjoint _ _ _ _ _ _ _ _ hcause (Or.inl hapart), rd_wr_self _ _ _ _ _ hrej]
  · exact ((RegsOff.of_wr (P := (· ∈ [rej.at i 0])) s 1 (by simp)).wr (by simp [hat]))

/-! ### Folds over units -/

/-- What each step of a fold establishes for its own element, and no step undoes, holds of every element at the end. -/
theorem foldl_establishes {σ α : Type} {f : σ → α → σ} {Q : α → σ → Prop} {l : List α} (hself : ∀ s, ∀ x ∈ l, Q x (f s x))
    (hkeep : ∀ s, ∀ x ∈ l, ∀ y, Q y s → Q y (f s x)) {y : α} (hy : y ∈ l) (s : σ) : Q y (l.foldl f s) := by
  induction l generalizing s with
  | nil => cases hy
  | cons x t ih =>
    rw [List.foldl_cons]
    by_cases ht : y ∈ t
    · exact ih (fun s z hz => hself s z (by simp [hz])) (fun s z hz => hkeep s z (by simp [hz])) ht _
    · obtain rfl := (List.mem_cons.mp hy).resolve_right ht
      exact List.foldlRecOn t f (hself s y (by simp)) (fun s hs z hz => hkeep s z (by simp [hz]) y hs)

theorem smap_look_keep {α : Type} (d : Nat → α) (p : Nat → Bool) (m : SMap α) (k : Nat) :
    SMap.look d (SMap.keep p m) k = if p k then SMap.look d m k else d k := by
  induction m with
  | nil => simp [SMap.keep, SMap.look]
  | cons e t ih =>
    obtain ⟨k', v⟩ := e
    by_cases h : k' = k
    · subst h
      by_cases hp : p k' <;> simp [SMap.keep, SMap.look, hp, ih]
    · by_cases hp : p k' <;> simp [SMap.keep, SMap.look, hp, h, ih]

theorem smap_look_keep_in {α : Type} (d : Nat → α) {p : Nat → Bool} (m : SMap α) {k : Nat} (h : p k = true) :
    SMap.look d (SMap.keep p m) k = SMap.look d m k := by rw [smap_look_keep, if_pos h]

theorem smap_look_keep_out {α : Type} (d : Nat → α) {p : Nat → Bool} (m : SMap α) {k : Nat} (h : p k = false) :
    SMap.look d (SMap.keep p m) k = d k := by simp [smap_look_keep, h]

/-! ### Clearing (R222) -/

theorem memByte_memClear (m : Memory) (a n k : Nat) :
    memByte (memClear m a n) k = if a ≤ k ∧ k < a + n then 0 else memByte m k := by
  simp only [memByte, memClear, smap_look_keep]
  by_cases h : a ≤ k ∧ k < a + n <;> simp [h]

/-- Pieces that are cleared hold zeros. -/
theorem memByte_clearPieces_in (s : State) {ps : List (Nat × Nat)} {q : Nat × Nat} (hq : q ∈ ps) {k : Nat} (hk : q.1 ≤ k ∧ k < q.1 + q.2) :
    memByte (clearPieces s ps).mem k = 0 := by
  refine foldl_establishes (f := fun m (p : Nat × Nat) => memClear m p.1 p.2)
    (Q := fun (q : Nat × Nat) m => q.1 ≤ k ∧ k < q.1 + q.2 → memByte m k = 0) ?_ ?_ hq s.mem hk
  · intro m x _ hx
    rw [memByte_memClear, if_pos hx]
  · intro m x _ y hy hyk
    rw [memByte_memClear]
    split
    · rfl
    · exact hy hyk

/-- Bytes that no cleared piece holds are as before. -/
theorem memByte_clearPieces_out (s : State) {ps : List (Nat × Nat)} {k : Nat} (hk : ∀ q ∈ ps, ¬ (q.1 ≤ k ∧ k < q.1 + q.2)) :
    memByte (clearPieces s ps).mem k = memByte s.mem k :=
  List.foldlRecOn (motive := fun m => memByte m k = memByte s.mem k) ps _ rfl (fun m hm q hq => by rw [memByte_memClear, if_neg (hk q hq), hm])

/-- The pieces of the whole of a list of ranges hold every byte of every range (R269). -/
theorem piecesOf_whole {rs : List (Nat × Nat)} {b g k : Nat} (h : (b, g) ∈ rs) (hk : b * 2 ^ 30 ≤ k ∧ k < (b + g) * 2 ^ 30) (n : Nat)
    (hn : n = (rs.map (fun r => r.2 * 2 ^ 30)).sum) : ∃ q ∈ piecesOf rs 0 n, q.1 ≤ k ∧ k < q.1 + q.2 := by
  induction rs generalizing n with
  | nil => cases h
  | cons r rs ih =>
    obtain ⟨b', g'⟩ := r
    simp only [List.map_cons, List.sum_cons] at hn
    have hrest : (b, g) ∈ rs → ∃ q ∈ piecesOf rs 0 (n - g' * 2 ^ 30), q.1 ≤ k ∧ k < q.1 + q.2 := fun hm => ih hm _ (by omega)
    unfold piecesOf
    by_cases hz : n = 0
    · have hg : g * 2 ^ 30 ≤ n := by
        rcases List.mem_cons.mp h with e | hm
        · cases e; omega
        · have := List.single_le_sum (l := rs.map (fun r => r.2 * 2 ^ 30)) (by simp) _ (List.mem_map_of_mem hm)
          simp only at this
          omega
      omega
    · rw [if_neg hz]
      by_cases hg : 0 < g' * 2 ^ 30
      · rw [if_pos hg]
        have hmin : min n (g' * 2 ^ 30 - 0) = g' * 2 ^ 30 := by omega
        rcases List.mem_cons.mp h with e | hm
        · cases e
          refine ⟨(b * 2 ^ 30 + 0, min n (g * 2 ^ 30 - 0)), List.mem_cons_self, ?_⟩
          rw [hmin]
          exact ⟨by simpa using hk.1, by simpa [Nat.add_mul] using hk.2⟩
        · obtain ⟨q, hq, hqk⟩ := hrest hm
          exact ⟨q, List.mem_cons_of_mem _ (by rw [hmin]; exact hq), hqk⟩
      · rw [if_neg hg]
        have hg0 : g' = 0 := by omega
        subst hg0
        rcases List.mem_cons.mp h with e | hm
        · cases e; omega
        · simpa using hrest hm

theorem partSize_eq_sum (s : State) (p : Nat) : partSize s p = ((partRanges s p).map (fun r => r.2 * 2 ^ 30)).sum := by
  rw [partSize, List.sum_eq_foldl, List.foldl_map]

/-- A partition's memory cleared whole holds zeros in every range of the partition (R289). -/
theorem memByte_clearPart_whole (s : State) {p b g k : Nat} (h : (b, g) ∈ partRanges s p) (hk : b * 2 ^ 30 ≤ k ∧ k < (b + g) * 2 ^ 30) :
    memByte (clearPart s p 0 (partSize s p)).mem k = 0 := by
  obtain ⟨q, hq, hqk⟩ := piecesOf_whole h hk _ (partSize_eq_sum s p)
  exact memByte_clearPieces_in s hq hqk

end Sys2Proof.Proofs
end

section
/-!
PROOFS. Resets: what the reset of a core and the ending of a ring's work leave, and the frame of each (R265, R274, R385).
-/
namespace Sys2Proof.Proofs
open Sys2Proof.Machine Sys2Proof.Safety Sys2Proof.Laws

/-! ### Registers of the cores' windows -/

/-- Registers of the cores' windows (R30). -/
def WindowReg (o : Nat) : Prop := 0x1000000 ≤ o

theorem resetRegs_regs (s : State) (offs : List Nat) : RegsOff (· ∈ offs) s (resetRegs s offs) := by
  refine RegsOff.foldl (fun v o ho => ?_) (RegsOff.refl _ s)
  intro o' ho'
  rw [reg_setShadow]
  exact reg_setReg_other v _ (fun e => ho' (e ▸ ho))

/-! ### The reset of a core (R143, R385) -/

/-- No ring holds a core, and its scratchpad holds zeros. -/
def CoreClear (c : Nat) (s : State) : Prop := (coreAt s c).ring = none ∧ ∀ a < 2 ^ 32, spdByte s.spd c a = 0

theorem spdKey_core (c : Nat) {a : Nat} (ha : a < 2 ^ 32) : spdKey c a / 2 ^ 32 = c := by
  unfold spdKey; omega

theorem spdByte_spdClear_self (p : Spd) (c : Nat) {a : Nat} (h : spdKey c a / 2 ^ 32 = c) : spdByte (spdClear p c) c a = 0 := by
  unfold spdByte spdClear
  rw [smap_look_keep_out]
  simpa using h

theorem spdByte_spdClear_other (p : Spd) {c c' a : Nat} (h : spdKey c' a / 2 ^ 32 ≠ c) :
    spdByte (spdClear p c) c' a = spdByte p c' a := by
  unfold spdByte spdClear
  rw [smap_look_keep_in]
  simpa using h

theorem coreAt_clearCounters_ring (s : State) (c c' : Nat) : (coreAt (clearCounters s c) c').ring = (coreAt s c').ring := by
  have hdrop : ∀ k, coreAt (dropRegs s (R.CNT_COUNT.at c 0) (R.CNT_COUNT.at c 128)) k = coreAt s k :=
    fun k => coreAt_congr (dropRegs_keeps s _ _ .cores (by decide)) k
  rw [clearCounters, coreAt_onCore, hdrop, hdrop]
  split
  · subst_vars; rfl
  · rfl

theorem coreAt_resetCore_ring (s : State) (c c' : Nat) :
    (coreAt (resetCore s c) c').ring = if c' = c then none else (coreAt s c').ring := by
  have hcores : AgreeOutside [.regs, .shadow, .harps] s
      (resetRegs (harpIxs.foldl (fun s h => onHarp s c h Harp.abandon) s) (coreResetRegs c)) :=
    Agree.step (resetRegs_keeps _ _) rfl (Agree.mono (abandonCore_keeps s c) rfl)
  have hspd : ∀ v : State, coreAt { v with spd := spdClear v.spd c } c' = coreAt v c' := fun _ => rfl
  unfold resetCore
  dsimp only
  rw [hspd, coreAt_setCore]
  by_cases h : c' = c
  · rw [if_pos h, if_pos h]; rfl
  · rw [if_neg h, if_neg h, resetCounters, coreAt_wr, coreAt_clearCounters_ring]
    exact congrArg Core.ring (coreAt_congr (hcores .cores (by decide)) c')

theorem spd_resetCore (s : State) (c : Nat) : (resetCore s c).spd = spdClear s.spd c := by
  have hharps : (harpIxs.foldl (fun s h => onHarp s c h Harp.abandon) s).spd = s.spd := abandonCore_keeps s c .spd (by decide)
  have hregs : ∀ v : State, (resetCounters (resetRegs v (coreResetRegs c)) c).spd = v.spd := fun v =>
    (resetCounters_keeps _ c .spd (by decide)).trans (resetRegs_keeps v _ .spd (by decide))
  unfold resetCore
  dsimp only
  rw [setCore_spd, hregs, hharps]

theorem resetCore_clears (s : State) (c : Nat) : CoreClear c (resetCore s c) := by
  refine ⟨by simp [coreAt_resetCore_ring], fun a ha => ?_⟩
  rw [spd_resetCore]
  exact spdByte_spdClear_self _ c (spdKey_core c ha)

theorem resetCore_keeps_clear (s : State) (c c' : Nat) (h : CoreClear c' s) : CoreClear c' (resetCore s c) := by
  by_cases hc : c' = c
  · subst hc; exact resetCore_clears s c'
  · refine ⟨?_, fun a ha => ?_⟩
    · rw [coreAt_resetCore_ring, if_neg hc]; exact h.1
    · have hkey : spdKey c' a / 2 ^ 32 ≠ c := by rw [spdKey_core c' ha]; exact hc
      rw [spd_resetCore, spdByte_spdClear_other _ hkey]; exact h.2 a ha

theorem CoreClear.of_same {s t : State} {c : Nat} (h : CoreClear c s) (hr : (coreAt t c).ring = (coreAt s c).ring) (hs : t.spd = s.spd) :
    CoreClear c t := ⟨hr.trans h.1, fun a ha => by rw [hs]; exact h.2 a ha⟩

theorem CoreClear.onCore {s : State} {c : Nat} (h : CoreClear c s) (c' : Nat) {g : Core → Core} (hg : ∀ x, (g x).ring = x.ring) :
    CoreClear c (onCore s c' g) := by
  refine h.of_same ?_ rfl
  rw [coreAt_onCore]
  split
  · subst_vars; exact hg _
  · rfl

theorem clearCounters_regs (s : State) (c : Nat) : RegsOff WindowReg s (clearCounters s c) := by
  intro o ho
  have hout : ¬ (R.CNT_COUNT.at c 0 ≤ o ∧ o < R.CNT_COUNT.at c 128) := by
    simp only [WindowReg, Fld.at, R.CNT_COUNT] at ho ⊢; omega
  simp only [clearCounters, reg_onCore]
  simp [reg, dropRegs, smap_look_keep, hout]

theorem coreResetRegs_window {c o : Nat} (h : o ∈ coreResetRegs c) : WindowReg o := by
  simp only [coreResetRegs, List.mem_append, List.mem_flatMap, List.mem_cons, List.not_mem_nil, or_false, Fld.at, R.HRP_EXC_ACC_FLAGS,
    R.HRP_TRAP_VALID, R.HRP_TRAP_K_K_STEP, R.FDL_FLAGS_INVALID, R.SPD_OVERLAP_CTL_ENABLE, R.SPD_OVERLAP_REC0_VALID,
    R.SPD_OVERLAP_REC1_ADDR, R.SPD_ECC_CORRECTED, R.SPD_ECC_ADDR_VALID] at h
  simp only [WindowReg]
  omega

theorem resetCore_regs (s : State) (c : Nat) : RegsOff WindowReg s (resetCore s c) := by
  have hharps : RegsOff WindowReg s (harpIxs.foldl (fun s h => onHarp s c h Harp.abandon) s) :=
    RegsOff.of_agree (abandonCore_keeps s c) (by decide)
  have hlist := hharps.trans ((resetRegs_regs _ (coreResetRegs c)).mono (fun _ h => coreResetRegs_window h))
  have hcount := (hlist.trans (clearCounters_regs _ c)).wr (f := R.CNT_SNAP_INFO_SEQ) (i := c) (j := 0) (v := 0)
    (by simp only [WindowReg, Fld.at, R.CNT_SNAP_INFO_SEQ]; omega)
  exact hcount.trans (RegsOff.of_regs rfl)

/-! ### The guard table (R167) -/

/-- Registers of the guard tables. -/
def GuardReg (o : Nat) : Prop := 0x480000 ≤ o ∧ o < 0x485000

theorem guardRegs_guard {p o : Nat} (hp : p < 16) (h : o ∈ guardRegs p) : GuardReg o := by
  simp only [guardRegs, List.mem_flatMap, List.mem_range, List.mem_cons, List.not_mem_nil, or_false, Fld.at, R.PRT_GUARD_FLAG_VALID,
    R.PRT_GUARD_BASE_BASE, R.PRT_GUARD_END_END] at h
  simp only [GuardReg]
  omega

theorem clearGuards_regs (s : State) {p : Nat} (hp : p < 16) : RegsOff GuardReg s (clearGuards s p) := by
  have hstatus : GuardReg (R.PRT_GUARD_STATUS_PENDING.at p 0) ∧ GuardReg (R.PRT_GUARD_STATUS_ENTRIES.at p 0) := by
    simp only [GuardReg, Fld.at, R.PRT_GUARD_STATUS_PENDING, R.PRT_GUARD_STATUS_ENTRIES]; omega
  unfold clearGuards
  dsimp only
  refine RegsOff.foldl (fun v c _ => RegsOff.of_agree (onCore_keeps v c _) (by decide)) ?_
  refine RegsOff.wr (RegsOff.wr ?_ hstatus.1) hstatus.2
  refine RegsOff.trans ?_ (RegsOff.of_agree (Agree.with_ord _ _) (by decide))
  refine RegsOff.trans ?_ (RegsOff.of_agree (setGuardQueue_keeps _ _ _) (by decide))
  exact (resetRegs_regs s (guardRegs p)).mono (fun _ h => guardRegs_guard hp h)

theorem coreAt_clearGuards_ring (s : State) (p c : Nat) : (coreAt (clearGuards s p) c).ring = (coreAt s c).ring := by
  unfold clearGuards
  dsimp only
  refine List.foldlRecOn (motive := fun v => (coreAt v c).ring = (coreAt s c).ring) _ _ ?_ (fun v hv k _ => ?_)
  · have hkeeps : AgreeOutside [.regs, .shadow, .ord] s (setGuardQueue (resetRegs s (guardRegs p)) p []) :=
      Agree.step (setGuardQueue_keeps _ _ _) rfl (Agree.mono (resetRegs_keeps s _) rfl)
    rw [coreAt_wr, coreAt_wr]
    exact congrArg Core.ring (coreAt_congr (Agree.step (Agree.with_ord _ _) rfl hkeeps .cores (by decide)) c)
  · rw [coreAt_onCore]
    split
    · subst_vars; exact hv
    · exact hv

/-! ### The ending of a ring's work (R265) -/

/-- Every ring has taken what it had taken before. -/
def TakenKept (s t : State) : Prop := ∀ w, (ringAt t w).taken = (ringAt s w).taken

section
variable {s t u : State}

theorem TakenKept.refl (s : State) : TakenKept s s := fun _ => rfl

theorem TakenKept.trans (h : TakenKept s t) (h' : TakenKept t u) : TakenKept s u := fun w => (h' w).trans (h w)

theorem TakenKept.of_agree {L : List Part} (h : AgreeOutside L s t) (hL : Part.sch ∉ L) : TakenKept s t :=
  fun w => by rw [ringAt_congr (h .sch hL)]

theorem TakenKept.setRing (s : State) (w : Nat) {v : Ring} (hv : v.taken = (ringAt s w).taken) : TakenKept s (setRing s w v) := by
  intro w'
  rw [ringAt_setRing]
  split
  · subst_vars; exact hv
  · rfl

theorem TakenKept.onRing (s : State) (w : Nat) {g : Ring → Ring} (hg : ∀ r, (g r).taken = r.taken) : TakenKept s (onRing s w g) :=
  TakenKept.setRing s w (hg _)

theorem TakenKept.foldl {α : Type} {f : State → α → State} {l : List α} (hf : ∀ v, ∀ x ∈ l, TakenKept v (f v x))
    (hs : TakenKept s t) : TakenKept s (l.foldl f t) :=
  List.foldlRecOn l f hs (fun v hv x hx => hv.trans (hf v x hx))

end

theorem failCmd_taken (s : State) (w code detail : Nat) : TakenKept s (failCmd s w code detail) := by
  unfold failCmd
  split
  · exact TakenKept.refl s
  · split
    · exact TakenKept.refl s
    · refine TakenKept.foldl (fun v k _ => ?_) (TakenKept.setRing s w rfl)
      split
      · exact TakenKept.of_agree (stopCore_keeps v k) (by decide)
      · exact TakenKept.refl v

/-- A message that fails a command of some ring. -/
theorem failRing_taken (s : State) (ring : Option Nat) (code : Nat) :
    TakenKept s (match ring with | some w => failCmd s w code 0 | none => s) := by
  cases ring with
  | none => exact TakenKept.refl s
  | some w => exact failCmd_taken s w code 0

theorem dropGuards_taken (s : State) (m : Nat) (lost : Msg) (code : Nat) : TakenKept s (dropGuards s m lost code) := by
  unfold dropGuards
  dsimp only
  refine TakenKept.foldl (fun v x _ => failRing_taken v x.ring code) ?_
  intro w
  exact congrArg Ring.taken (ringAt_congr (Agree.foldl (L := [.lnk]) (fun v l => onLink_keeps v l _) (Agree.refl _ s) .sch (by decide)) w)

theorem loseMsg_taken (s : State) (m : Nat) (t : TxMsg) : TakenKept s (loseMsg s m t) := by
  have hask : ∀ v, TakenKept v (dropGuards (askBreak v m) m t.msg 0x06) := fun v => dropGuards_taken (askBreak v m) m t.msg 0x06
  unfold loseMsg
  dsimp only
  split
  · refine TakenKept.trans ?_ (failRing_taken _ t.ring 0x06)
    split
    · split <;> exact TakenKept.refl s
    · split
      · exact hask s
      · exact hask { s with lnk := _ }
  · exact TakenKept.refl s

theorem sendPeer_taken (s : State) (m : Nat) (t : TxMsg) : TakenKept s (sendPeer s m t) := by
  unfold sendPeer
  split
  · exact TakenKept.refl s
  · split
    · exact (TakenKept.of_agree (numberMsg_keeps s m t) (by decide)).trans (TakenKept.of_agree (enqueue_keeps _ _ _) (by decide))
    · exact loseMsg_taken s m t

theorem gangNext_taken (s : State) (w n : Nat) : TakenKept s (gangNext s w n) := by
  unfold gangNext
  split
  · dsimp only [gangUsed]
    refine TakenKept.trans ?_ (TakenKept.onRing _ w (fun _ => rfl))
    exact TakenKept.onRing s w (fun _ => rfl)
  · exact TakenKept.refl s

theorem endCommand_taken (s : State) (w code : Nat) : TakenKept s (endCommand s w code) := by
  have hstop : ∀ (l : List Nat) v, TakenKept v (l.foldl (fun s k => freeCore (stopCore s k) k) v) := fun l v =>
    TakenKept.foldl (fun x k _ => (TakenKept.of_agree (stopCore_keeps x k) (by decide)).trans
      (TakenKept.of_agree (freeCore_keeps _ k) (by decide))) (TakenKept.refl v)
  have hgang : TakenKept s (gangSend s w 3) := TakenKept.foldl (fun v m _ => sendPeer_taken v m _) (TakenKept.refl s)
  unfold endCommand
  split
  · exact TakenKept.refl s
  · split
    · exact TakenKept.refl s
    · split
      · exact TakenKept.onRing s w (fun _ => rfl)
      · split
        · refine (gangNext_taken s w 1).trans ?_
          refine TakenKept.trans ?_ (TakenKept.of_agree (wr_keeps _ _ _ _ _) (by decide))
          exact TakenKept.onRing _ w (fun _ => rfl)
        · dsimp only
          refine TakenKept.trans ?_ (TakenKept.onRing _ w (fun _ => rfl))
          refine TakenKept.trans ?_ (hstop _ _)
          split
          · exact hgang
          · exact TakenKept.refl s

/-- The status register of a request ring. -/
def RingStatusReg (w o : Nat) : Prop := o = R.SEQ_RQ_STATUS_STATE.at w 0

theorem freeCore_regs (s : State) (c : Nat) : RegsOff WindowReg s (freeCore s c) :=
  (RegsOff.of_regs rfl).wr (by simp only [WindowReg, Fld.at, R.SPD_OVERLAP_CTL_ACTIVE]; omega)

theorem endCommand_regs (s : State) (w code : Nat) : RegsOff (fun o => RingStatusReg w o ∨ WindowReg o) s (endCommand s w code) := by
  have hstop : ∀ (l : List Nat) v, RegsOff WindowReg v (l.foldl (fun s k => freeCore (stopCore s k) k) v) := fun l v =>
    RegsOff.foldl (fun x k _ => (RegsOff.of_agree (stopCore_keeps x k) (by decide)).trans (freeCore_regs _ k)) (RegsOff.refl _ v)
  unfold endCommand
  split
  · exact RegsOff.refl _ s
  · split
    · exact RegsOff.refl _ s
    · split
      · exact RegsOff.of_regs rfl
      · split
        · refine RegsOff.wr ?_ (Or.inl rfl)
          exact (RegsOff.of_agree (gangNext_keeps s w 1) (by decide)).trans (RegsOff.of_regs rfl)
        · dsimp only
          refine RegsOff.trans ?_ (RegsOff.of_regs rfl)
          refine RegsOff.trans ?_ ((hstop _ _).mono (fun _ h => Or.inr h))
          split
          · exact RegsOff.of_agree (gangSend_keeps s w 3) (by decide)
          · exact RegsOff.refl _ s

theorem dropJob_taken (s : State) (w : Nat) : TakenKept s (dropJob s w) := by
  have hcores : ∀ (l : List Nat), TakenKept s (l.foldl (fun s c => if (coreAt s c).ring = some w then
      onCore s c (fun x => { x with ring := none, stopped := false, saved := false }) else s) s) := fun l =>
    TakenKept.foldl (fun v c _ => by split <;> exact TakenKept.refl v) (TakenKept.refl s)
  refine (hcores (ringCores s w)).trans ?_
  unfold dropJob
  dsimp only
  refine TakenKept.trans ?_ (TakenKept.of_agree (wr_keeps _ _ _ _ _) (by decide))
  refine TakenKept.trans ?_ (TakenKept.of_agree (wr_keeps _ _ _ _ _) (by decide))
  exact TakenKept.onRing _ w (fun _ => rfl)

theorem dropJob_regs (s : State) (w : Nat) : RegsOff (RingStatusReg w) s (dropJob s w) := by
  have hresident : RingStatusReg w (R.SEQ_RQ_STATUS_RESIDENT.at w 0) := rfl
  have hsaved : RingStatusReg w (R.SEQ_RQ_STATUS_SAVED.at w 0) := rfl
  unfold dropJob
  dsimp only
  refine RegsOff.wr (RegsOff.wr ?_ hresident) hsaved
  refine RegsOff.trans ?_ (RegsOff.of_agree (onRing_keeps _ _ _) (by decide))
  refine RegsOff.foldl (fun v c _ => ?_) (RegsOff.refl _ s)
  split
  · exact RegsOff.of_agree (onCore_keeps v c _) (by decide)
  · exact RegsOff.refl _ v

/-- What the ending of a ring's work can change among the registers. -/
def RingEndReg (w o : Nat) : Prop := RingStatusReg w o ∨ RecordReg o ∨ WindowReg o

theorem not_recordReg_ringStatus {w : Nat} (hw : w < 64) {o : Nat} (h : RingStatusReg w o) : ¬ RecordReg o := by
  simp only [RingStatusReg, Fld.at, R.SEQ_RQ_STATUS_STATE, RecordReg] at h ⊢; omega

/-- The ring's work up to the event that it has stopped. -/
def dropRing (s : State) (w code : Nat) : State :=
  let s := endCommand s w code
  let s := gangNext s w (((ringAt s w).taken.filter (fun t => decide (opcodeOf t.words = 1))).length)
  let s := onRing s w (fun r => { r with owed := r.owed ++ r.taken.map (fun t => (t, code)), taken := [], gangReady := [], gangEnded := [] })
  let s := dropJob s w
  { s with ord := { s.ord with reads := s.ord.reads.filter (fun r => !(decide (r.kind = 2 ∧ r.core = w))) } }

theorem endRing_eq (s : State) (w code stop : Nat) : endRing s w code stop =
    if 2 ≤ ringState s w then
      postEvent (wr (setRingState (dropRing s w code) w 1) R.SEQ_RQ_STATUS_STOP_CAUSE w 0 stop)
        (some (ringPart (dropRing s w code) w)) 0x0105 w stop 0
    else dropRing s w code := by
  unfold endRing dropRing
  rfl

end Sys2Proof.Proofs
end

section
/-!
PROOFS. The reset of a partition's rings (R265, R274).
-/
namespace Sys2Proof.Proofs
open Sys2Proof.Machine Sys2Proof.Safety Sys2Proof.Laws

theorem dropRing_regs (s : State) (w code : Nat) : RegsOff (RingEndReg w) s (dropRing s w code) := by
  unfold dropRing
  dsimp only
  refine RegsOff.trans ?_ (RegsOff.of_agree (Agree.with_ord _ _) (by decide))
  refine RegsOff.trans ?_ ((dropJob_regs _ w).mono (fun _ h => Or.inl h))
  refine RegsOff.trans ?_ (RegsOff.of_agree (onRing_keeps _ _ _) (by decide))
  refine RegsOff.trans ?_ (RegsOff.of_agree (gangNext_keeps _ _ _) (by decide))
  exact (endCommand_regs s w code).mono (fun _ h => h.imp_right Or.inr)

/-- The ring has no slots taken any more, and every other ring has those it had. -/
theorem dropRing_taken (s : State) (w code w' : Nat) :
    (ringAt (dropRing s w code) w').taken = if w' = w then [] else (ringAt s w').taken := by
  unfold dropRing
  dsimp only
  refine (TakenKept.of_agree (Agree.with_ord _ _) (by decide) w').trans ?_
  rw [dropJob_taken _ w w', ringAt_onRing]
  split
  · rfl
  · rw [gangNext_taken _ w _ w', endCommand_taken s w code w']

theorem endRing_regs (s : State) (w code stop : Nat) : RegsOff (RingEndReg w) s (endRing s w code stop) := by
  rw [endRing_eq]
  split
  · refine RegsOff.trans ?_ ((postEvent_frame _ _ _ _ _ _).regs.mono (fun _ h => Or.inr (Or.inl h)))
    exact ((dropRing_regs s w code).wr (Or.inl rfl)).wr (Or.inl rfl)
  · exact dropRing_regs s w code

theorem endRing_taken (s : State) (w code stop w' : Nat) :
    (ringAt (endRing s w code stop) w').taken = if w' = w then [] else (ringAt s w').taken := by
  rw [endRing_eq]
  split
  · rw [(postEvent_frame _ _ _ _ _ _).ringAt, setRingState, ringAt_wr, ringAt_wr, dropRing_taken]
  · exact dropRing_taken s w code w'

/-- A ring that was ACTIVE, DRAINING or ABORTING is STOPPED with its cause. -/
theorem endRing_stops (s : State) {w : Nat} (hw : w < 64) (code stop : Nat) (h : 2 ≤ ringState s w) :
    ringState (endRing s w code stop) w = 1 ∧ rd (endRing s w code stop) R.SEQ_RQ_STATUS_STOP_CAUSE w 0 = stop % 4 := by
  have hoff : ¬ RecordReg (R.SEQ_RQ_STATUS_STATE.at w 0) := not_recordReg_ringStatus hw rfl
  rw [endRing_eq, if_pos h, ringState, (postEvent_frame _ _ _ _ _ _).regs.rd (f := R.SEQ_RQ_STATUS_STATE) hoff,
    (postEvent_frame _ _ _ _ _ _).regs.rd (f := R.SEQ_RQ_STATUS_STOP_CAUSE) hoff]
  constructor
  · rw [rd_wr_disjoint _ _ _ _ _ _ _ _ (by decide) (by decide), setRingState, rd_wr_self _ _ _ _ _ (by decide)]
    rfl
  · exact rd_wr_self _ _ _ _ _ (by decide)

theorem resetCommands_eq (s : State) (rings : List Nat) (code stop : Nat) :
    resetCommands s rings code stop = rings.foldl (fun s w => endRing s w code stop) s := by
  suffices h : ∀ acc : State × Nat × Nat, (rings.foldl (fun (acc : State × Nat × Nat) w =>
      (endRing acc.1 w code stop, acc.2.1 + (endCounts acc.1 w code).1,
        acc.2.2 + (endCounts acc.1 w code).2 + (ringAt acc.1 w).taken.length)) acc).1 =
      rings.foldl (fun s w => endRing s w code stop) acc.1 from h (s, 0, 0)
  induction rings with
  | nil => exact fun _ => rfl
  | cons w t ih => exact fun acc => ih _

/-- Registers that the ending of the work of some rings can change. -/
def RingsEndReg (rings : List Nat) (o : Nat) : Prop := ∃ w ∈ rings, RingEndReg w o

section
variable {rings : List Nat} (code stop : Nat)

theorem resetCommands_regs (s : State) : RegsOff (RingsEndReg rings) s (resetCommands s rings code stop) := by
  rw [resetCommands_eq]
  exact RegsOff.foldl (fun v w hw => (endRing_regs v w code stop).mono (fun _ h => ⟨w, hw, h⟩)) (RegsOff.refl _ s)

theorem resetCommands_taken (s : State) {w : Nat} (hw : w ∈ rings) : (ringAt (resetCommands s rings code stop) w).taken = [] := by
  rw [resetCommands_eq]
  refine foldl_establishes (Q := fun w s => (ringAt s w).taken = []) (fun v x _ => ?_) (fun v x _ y hy => ?_) hw s
  · rw [endRing_taken, if_pos rfl]
  · rw [endRing_taken]; split
    · rfl
    · exact hy

/-- Every ring of the list that was ACTIVE, DRAINING or ABORTING is STOPPED with the cause. -/
theorem resetCommands_stops (hlt : ∀ w ∈ rings, w < 64) (hnodup : rings.Nodup) (s : State) {w : Nat} (hw : w ∈ rings) (h : 2 ≤ ringState s w) :
    ringState (resetCommands s rings code stop) w = 1 ∧
      rd (resetCommands s rings code stop) R.SEQ_RQ_STATUS_STOP_CAUSE w 0 = stop % 4 := by
  have hapart : ∀ v ∈ rings, w ≠ v → ¬ RingEndReg v (R.SEQ_RQ_STATUS_STATE.at w 0) := by
    intro v hv hne
    have hvlt := hlt v hv
    have hwlt := hlt w hw
    simp only [RingEndReg, RingStatusReg, RecordReg, WindowReg, Fld.at, R.SEQ_RQ_STATUS_STATE]
    omega
  simp only [resetCommands_eq]
  induction rings generalizing s with
  | nil => cases hw
  | cons x t ih =>
    obtain ⟨hx, ht⟩ := List.nodup_cons.mp hnodup
    have hltx := hlt x (by simp)
    rw [List.foldl_cons]
    by_cases hwx : w = x
    · subst hwx
      have hrest : RegsOff (RingsEndReg t) (endRing s w code stop) (t.foldl (fun s w => endRing s w code stop) (endRing s w code stop)) :=
        RegsOff.foldl (fun v y hy => (endRing_regs v y code stop).mono (fun _ h => ⟨y, hy, h⟩)) (RegsOff.refl _ _)
      have hout : ¬ RingsEndReg t (R.SEQ_RQ_STATUS_STATE.at w 0) := by
        rintro ⟨v, hv, hreg⟩
        exact hapart v (by simp [hv]) (fun e => hx (e ▸ hv)) hreg
      rw [ringState, hrest.rd (f := R.SEQ_RQ_STATUS_STATE) hout, hrest.rd (f := R.SEQ_RQ_STATUS_STOP_CAUSE) hout]
      exact endRing_stops s hltx code stop h
    · have hsame : ringState (endRing s x code stop) w = ringState s w :=
        (endRing_regs s x code stop).rd (hapart x (by simp) hwx)
      exact ih (fun v hv => hlt v (by simp [hv])) ht _ ((List.mem_cons.mp hw).resolve_left hwx) (hsame ▸ h)
        (fun v hv => hapart v (by simp [hv]))

end

theorem ringsOf_lt (s : State) (p : Nat) : ∀ w ∈ ringsOf s p, w < 64 :=
  fun _ hw => List.mem_range.mp (List.mem_of_mem_filter hw)

theorem ringsOf_nodup (s : State) (p : Nat) : (ringsOf s p).Nodup := List.nodup_range.filter _

/-! ### The reset of a partition (R274) -/

/-- A partition is RESETTING, and the reset's scope is recorded. -/
def markReset (s : State) (p : Nat) : State := wr (wr s R.PRT_STATUS_STATE p 0 2) R.BOOT_RESET_STATUS_LAST_SCOPE 0 0 3

/-- What a partition reset does before its cores are reset. -/
def stopWork (s : State) (p : Nat) : State :=
  discardFinals (dropWork (resetCommands (markReset s p) (ringsOf s p) 1 1) (ringsOf s p))
    (fun f => decide (f.part = some p) || (match dstCore f.dst with | some c => decide (c ∈ partCores s p) | none => false))

/-- What a partition reset does after its cores are reset. -/
def endReset (s : State) (p : Nat) : State :=
  abortImport (clearGuards { s with tru := { s.tru with halted := s.tru.halted.filter (· ≠ p) } } p) p

theorem partitionReset_eq {s : State} {p : Nat} (h : rd s R.PRT_STATUS_STATE p 0 = 1) (hb : computeBusy s = false) :
    partitionReset s p = endReset ((partCores s p).foldl resetCore (stopWork s p)) p := by
  unfold partitionReset
  rw [if_neg (by simp [h, hb])]
  rfl

theorem stopWork_agree (s : State) (p : Nat) :
    AgreeOutside [.ord, .lnk, .kv] (resetCommands (markReset s p) (ringsOf s p) 1 1) (stopWork s p) :=
  Agree.step (discardFinals_keeps _ _) rfl (dropWork_keeps _ _)

/-- Registers that a partition reset can change once its rings' work has ended. -/
def ResetTailReg (o : Nat) : Prop := WindowReg o ∨ GuardReg o ∨ (0x510000 ≤ o ∧ o < 0x511000)

theorem abortImport_regs (s : State) {p : Nat} (hp : p < 16) : RegsOff (fun o => 0x510000 ≤ o ∧ o < 0x511000) s (abortImport s p) := by
  have hstatus : 0x510000 ≤ R.SEC_IMP_STATUS_RESULT.at p 0 ∧ R.SEC_IMP_STATUS_RESULT.at p 0 < 0x511000 := by
    simp only [Fld.at, R.SEC_IMP_STATUS_RESULT]; omega
  unfold abortImport failImport
  split
  · exact ((RegsOff.refl _ s).wr hstatus).wr hstatus
  · exact RegsOff.refl _ s

theorem partitionReset_tail {s : State} {p : Nat} (hp : p < 16) (h : rd s R.PRT_STATUS_STATE p 0 = 1) (hb : computeBusy s = false) :
    RegsOff ResetTailReg (resetCommands (markReset s p) (ringsOf s p) 1 1) (partitionReset s p) ∧
      (partitionReset s p).sch = (resetCommands (markReset s p) (ringsOf s p) 1 1).sch := by
  have hwork := stopWork_agree s p
  rw [partitionReset_eq h hb]
  constructor
  · refine (RegsOff.of_agree hwork (by decide)).trans (RegsOff.trans ?_ ((abortImport_regs _ hp).mono (fun _ h => Or.inr (Or.inr h))))
    refine RegsOff.trans ?_ ((clearGuards_regs _ hp).mono (fun _ h => Or.inr (Or.inl h)))
    refine RegsOff.trans ?_ (RegsOff.of_agree (Agree.with_tru _ _) (by decide))
    exact RegsOff.foldl (fun v c _ => (resetCore_regs v c).mono (fun _ h => Or.inl h)) (RegsOff.refl _ _)
  · have hcores : AgreeOutside [.spd, .regs, .shadow, .cores, .harps] (stopWork s p) ((partCores s p).foldl resetCore (stopWork s p)) :=
      Agree.foldl (fun v c => resetCore_keeps v c) (Agree.refl _ _)
    have hend : ∀ v, AgreeOutside [.regs, .shadow, .cores, .ord, .tru] v (endReset v p) := fun v =>
      Agree.step (abortImport_keeps _ p) rfl (Agree.step (clearGuards_keeps _ p) rfl (Agree.mono (Agree.with_tru v _) rfl))
    exact ((hend _ .sch (by decide)).trans (hcores .sch (by decide))).trans (hwork .sch (by decide))

/-- The cores of the partition are clear at the end of the request. -/
theorem partitionReset_clears {s : State} {p : Nat} (h : rd s R.PRT_STATUS_STATE p 0 = 1) (hb : computeBusy s = false) {c : Nat}
    (hc : c ∈ partCores s p) : CoreClear c (partitionReset s p) := by
  have hcores : CoreClear c ((partCores s p).foldl resetCore (stopWork s p)) :=
    foldl_establishes (fun v x _ => resetCore_clears v x) (fun v x _ y hy => resetCore_keeps_clear v x y hy) hc _
  rw [partitionReset_eq h hb]
  generalize (partCores s p).foldl resetCore (stopWork s p) = v at hcores ⊢
  refine hcores.of_same ?_ ?_
  · rw [endReset, coreAt_congr (abortImport_keeps _ p .cores (by decide)), coreAt_clearGuards_ring]; rfl
  · exact (abortImport_keeps _ p .spd (by decide)).trans (clearGuards_keeps _ p .spd (by decide))

theorem partitionReset_state {s : State} {p : Nat} (hp : p < 16) (h : rd s R.PRT_STATUS_STATE p 0 = 1) (hb : computeBusy s = false) :
    rd (partitionReset s p) R.PRT_STATUS_STATE p 0 = 2 ∧ rd (partitionReset s p) R.BOOT_RESET_STATUS_LAST_SCOPE 0 0 = 3 := by
  have hrings := ringsOf_lt s p
  have hreg : RegsOff (fun o => RingsEndReg (ringsOf s p) o ∨ ResetTailReg o) (markReset s p) (partitionReset s p) :=
    ((resetCommands_regs 1 1 (markReset s p)).mono (fun _ h => Or.inl h)).trans
      ((partitionReset_tail hp h hb).1.mono (fun _ h => Or.inr h))
  have hstate : ¬ (RingsEndReg (ringsOf s p) (R.PRT_STATUS_STATE.at p 0) ∨ ResetTailReg (R.PRT_STATUS_STATE.at p 0)) := by
    rintro (⟨w, hw, hreg⟩ | hreg)
    · have := hrings w hw
      simp only [RingEndReg, RingStatusReg, RecordReg, WindowReg, Fld.at, R.SEQ_RQ_STATUS_STATE, R.PRT_STATUS_STATE] at hreg
      omega
    · simp only [ResetTailReg, WindowReg, GuardReg, Fld.at, R.PRT_STATUS_STATE] at hreg
      omega
  have hscope : ¬ (RingsEndReg (ringsOf s p) (R.BOOT_RESET_STATUS_LAST_SCOPE.at 0 0) ∨ ResetTailReg (R.BOOT_RESET_STATUS_LAST_SCOPE.at 0 0)) := by
    rintro (⟨w, hw, hreg⟩ | hreg)
    · have := hrings w hw
      simp only [RingEndReg, RingStatusReg, RecordReg, WindowReg, Fld.at, R.SEQ_RQ_STATUS_STATE, R.BOOT_RESET_STATUS_LAST_SCOPE] at hreg
      omega
    · simp only [ResetTailReg, WindowReg, GuardReg, Fld.at, R.BOOT_RESET_STATUS_LAST_SCOPE] at hreg
      omega
  have hne : R.PRT_STATUS_STATE.at p 0 ≠ R.BOOT_RESET_STATUS_LAST_SCOPE.at 0 0 := by
    simp only [Fld.at, R.PRT_STATUS_STATE, R.BOOT_RESET_STATUS_LAST_SCOPE]; omega
  constructor
  · rw [hreg.rd hstate, markReset, rd_wr_ne _ _ _ _ _ _ _ _ hne, rd_wr_self _ _ _ _ _ (by decide)]; rfl
  · rw [hreg.rd hscope, markReset, rd_wr_self _ _ _ _ _ (by decide)]; rfl

/-- The rings of the partition that ran are STOPPED with cause 1. -/
theorem partitionReset_stops {s : State} {p : Nat} (hp : p < 16) (h : rd s R.PRT_STATUS_STATE p 0 = 1) (hb : computeBusy s = false)
    {w : Nat} (hw : w ∈ ringsOf s p) (hrun : 2 ≤ ringState s w) :
    ringState (partitionReset s p) w = 1 ∧ rd (partitionReset s p) R.SEQ_RQ_STATUS_STOP_CAUSE w 0 = 1 := by
  have hwlt := ringsOf_lt s p w hw
  have htail := (partitionReset_tail hp h hb).1
  have hout : ¬ ResetTailReg (R.SEQ_RQ_STATUS_STATE.at w 0) := by
    simp only [ResetTailReg, WindowReg, GuardReg, Fld.at, R.SEQ_RQ_STATUS_STATE]; omega
  have hmark : ringState (markReset s p) w = ringState s w := by
    have hne : R.SEQ_RQ_STATUS_STATE.at w 0 ≠ R.BOOT_RESET_STATUS_LAST_SCOPE.at 0 0 ∧
        R.SEQ_RQ_STATUS_STATE.at w 0 ≠ R.PRT_STATUS_STATE.at p 0 := by
      simp only [Fld.at, R.SEQ_RQ_STATUS_STATE, R.BOOT_RESET_STATUS_LAST_SCOPE, R.PRT_STATUS_STATE]; omega
    rw [ringState, markReset, rd_wr_ne _ _ _ _ _ _ _ _ hne.1, rd_wr_ne _ _ _ _ _ _ _ _ hne.2]; rfl
  rw [ringState, htail.rd (f := R.SEQ_RQ_STATUS_STATE) hout, htail.rd (f := R.SEQ_RQ_STATUS_STOP_CAUSE) hout]
  exact resetCommands_stops 1 1 (ringsOf_lt s p) (ringsOf_nodup s p) (markReset s p) hw (by rw [hmark]; exact hrun)

theorem partitionReset_taken {s : State} {p : Nat} (hp : p < 16) (h : rd s R.PRT_STATUS_STATE p 0 = 1) (hb : computeBusy s = false)
    {w : Nat} (hw : w ∈ ringsOf s p) : (ringAt (partitionReset s p) w).taken = [] := by
  rw [ringAt_congr (partitionReset_tail hp h hb).2]
  exact resetCommands_taken 1 1 (markReset s p) hw

end Sys2Proof.Proofs
end

section
/-!
PROOFS. Partition commits (R12, R268, R272, R273) and the end of a partition reset (R274, R289).
-/
namespace Sys2Proof.Proofs
open Sys2Proof.Machine Sys2Proof.Safety Sys2Proof.Laws

/-! ### The fields of a partition's set (R272) -/

/-- Fields of a partition's set that one register holds each. -/
def prtFields : List Fld :=
  [R.PRT_CFG_VALID, R.PRT_CFG_SEALED, R.PRT_CFG_HOST_ACCESS, R.PRT_CFG_HOST_MEM, R.PRT_CFG_MEM_WEIGHT, R.PRT_CFG_LINK_WEIGHT,
   R.PRT_CFG_POWER_W, R.PRT_RINGS_RQ, R.PRT_CQS_CQ, R.PRT_REGIONS_REGIONS]

/-- A commit of partition p's set takes this field, and it lies below the partition's status and the guard tables. -/
def inPrtSet (p : Nat) (f : Fld) (i : Nat) : Bool :=
  committable f (f.at p i) && decide (f.at p i ∈ prtRegs p) && decide (f.at p i < R.PRT_STATUS_STATE.at p 0)

theorem prtFields_inSet : ∀ p : PartIx, ∀ f ∈ prtFields, inPrtSet p f 0 = true := by decide +kernel

theorem prtCores_inSet : ∀ p : PartIx, ∀ i < 5, inPrtSet p R.PRT_CORE_CORES i = true := by decide +kernel

theorem prtOwner_inSet : ∀ p : PartIx, ∀ i < 4, inPrtSet p R.PRT_OWNER_HASH i = true := by decide +kernel

/-! ### The refusal (R272) -/

theorem prtCause_lt (s : State) (p : Nat) : prtCause s p < 8 := by
  unfold prtCause
  dsimp only
  repeat' split
  all_goals omega

theorem partitionCommit_refused (p : PartIx) {s : State} (h0 : prtCause s p ≠ 0) (h5 : prtCause s p ≠ 5)
    (hrej : rdB s R.PRT_STATUS_REJECTED p 0 = false) :
    ∃ t, Runs (.partitionCommit p) s t ∧ rd t R.PRT_STATUS_REJECTED p 0 = 1 ∧ rd t R.PRT_STATUS_CAUSE p 0 = prtCause s p ∧
      RegsOutside [R.PRT_STATUS_STATE.at p 0] s t ∧ AgreeOutside [.regs] s t := by
  have hrun : Runs (.partitionCommit p) s (refuse s R.PRT_STATUS_REJECTED R.PRT_STATUS_CAUSE p (prtCause s p)) := by
    rw [Runs, exec_partitionCommit, execPartitionCommit]
    simp only [if_pos h0, if_neg h5]
  obtain ⟨hset, hcause, hregs⟩ := refuse_records (cause := R.PRT_STATUS_CAUSE) (prtCause s p) hrej rfl (by decide) (by decide) (by decide)
  exact ⟨_, hrun, hset, hcause.trans (Nat.mod_eq_of_lt (prtCause_lt s p)), hregs, refuse_keeps _ _ _ _ _⟩

/-! ### Creation and destruction (R268) -/

/-- Registers that a partition's creation or destruction can change: its status, and what lies above the partitions' sets. -/
def PrtStatusReg (p o : Nat) : Prop := o = R.PRT_STATUS_STATE.at p 0 ∨ 0x480000 ≤ o

theorem prtStatusReg_fields (p : Nat) : PrtStatusReg p (R.PRT_STATUS_STATE.at p 0) ∧ PrtStatusReg p (R.PRT_STATUS_TDI_STATE.at p 0) ∧
    PrtStatusReg p (R.PRT_STATUS_DEBUG_TOUCHED.at p 0) ∧ PrtStatusReg p (R.SEC_LOG_STATUS_DEBUG_TOUCHED.at p 0) ∧
    PrtStatusReg p (R.SEC_LOG_STATUS_WRITTEN.at p 0) := by
  refine ⟨Or.inl rfl, Or.inl rfl, Or.inl rfl, Or.inr ?_, Or.inr ?_⟩
  · simp only [Fld.at, R.SEC_LOG_STATUS_DEBUG_TOUCHED]; omega
  · simp only [Fld.at, R.SEC_LOG_STATUS_WRITTEN]; omega

theorem createPart_regs (s : State) {p : Nat} (hp : p < 16) : RegsOff (PrtStatusReg p) s (createPart s p) := by
  obtain ⟨hstate, htdi, hdebug, hlogged, hwritten⟩ := prtStatusReg_fields p
  unfold createPart
  dsimp only
  refine RegsOff.wr (RegsOff.wr ?_ htdi) hstate
  refine RegsOff.wr (RegsOff.wr (RegsOff.wr ?_ hdebug) hlogged) hwritten
  refine RegsOff.trans ?_ (RegsOff.of_agree (Agree.with_tru _ _) (by decide))
  refine RegsOff.trans ?_ ((clearGuards_regs _ hp).mono (fun _ h => Or.inr h.1))
  exact RegsOff.of_agree (takeFree_keeps s) (by decide)

theorem createPart_status (s : State) (p : Nat) : rd (createPart s p) R.PRT_STATUS_STATE p 0 = 1 ∧
    rd (createPart s p) R.PRT_STATUS_TDI_STATE p 0 = 0 ∧ rd (createPart s p) R.PRT_STATUS_DEBUG_TOUCHED p 0 = 0 := by
  have hlog : R.PRT_STATUS_DEBUG_TOUCHED.at p 0 ≠ R.SEC_LOG_STATUS_DEBUG_TOUCHED.at p 0 := by
    simp only [Fld.at, R.PRT_STATUS_DEBUG_TOUCHED, R.SEC_LOG_STATUS_DEBUG_TOUCHED]; omega
  have hwritten : R.PRT_STATUS_DEBUG_TOUCHED.at p 0 ≠ R.SEC_LOG_STATUS_WRITTEN.at p 0 := by
    simp only [Fld.at, R.PRT_STATUS_DEBUG_TOUCHED, R.SEC_LOG_STATUS_WRITTEN]; omega
  unfold createPart
  dsimp only
  refine ⟨?_, ?_, ?_⟩
  · rw [rd_wr_self _ _ _ _ _ (by decide)]; rfl
  · rw [rd_wr_disjoint _ _ _ _ _ _ _ _ (by decide) (by decide), rd_wr_self _ _ _ _ _ (by decide)]; rfl
  · rw [rd_wr_disjoint _ _ _ _ _ _ _ _ (by decide) (by decide), rd_wr_disjoint _ _ _ _ _ _ _ _ (by decide) (by decide),
      rd_wr_ne _ _ _ _ _ _ _ _ hwritten, rd_wr_ne _ _ _ _ _ _ _ _ hlog, rd_wr_self _ _ _ _ _ (by decide)]
    rfl

theorem createPart_key (s : State) (p : Nat) : SMap.look (fun _ => 0) (createPart s p).tru.keys p = Config.freeWord s.free := by
  unfold createPart
  dsimp only [takeFree]
  simp only [wr_tru, smap_look_put_self]

theorem destroyPart_regs (s : State) {p : Nat} : RegsOff (PrtStatusReg p) s (destroyPart s p) := by
  obtain ⟨hstate, -, hdebug, hlogged, -⟩ := prtStatusReg_fields p
  unfold destroyPart
  dsimp only
  refine RegsOff.wr (RegsOff.wr (RegsOff.wr ?_ hdebug) hlogged) hstate
  exact RegsOff.of_agree (Agree.with_tru s _) (by decide)

theorem destroyPart_status (s : State) (p : Nat) : rd (destroyPart s p) R.PRT_STATUS_STATE p 0 = 0 ∧
    SMap.look (fun _ => 0) (destroyPart s p).tru.keys p = 0 := by
  unfold destroyPart
  dsimp only
  refine ⟨?_, ?_⟩
  · rw [rd_wr_self _ _ _ _ _ (by decide)]; rfl
  · simp only [wr_tru, smap_look_put_self]

/-! ### The commit (R272, R273) -/

/-- A committed set with the partition created or destroyed where VALID changes. -/
def commitOwner (s : State) (p : Nat) : State :=
  if rdB (commitRegs s (prtRegs p)) R.PRT_CFG_VALID p 0 && !rdB s R.PRT_CFG_VALID p 0 then createPart (commitRegs s (prtRegs p)) p
  else if rdB s R.PRT_CFG_VALID p 0 && !rdB (commitRegs s (prtRegs p)) R.PRT_CFG_VALID p 0 then destroyPart (commitRegs s (prtRegs p)) p
  else commitRegs s (prtRegs p)

/-- A core that changes owner is reset, and takes the guard set of a partition that gains it. -/
def moveCore (new : List Nat) (held : List Guard) (s : State) (c : Nat) : State :=
  onCore (resetCore s c) c (fun x => { x with guards := if c ∈ new then held else [] })

/-- Cores that a commit of partition p's set gains or loses it. -/
def movedCores (s : State) (p : Nat) : List Nat :=
  coreIxs.filter (fun c => decide (c ∈ heldCores s p) != decide (c ∈ heldCores (commitRegs s (prtRegs p)) p))

/-- The state after a commit of partition p's set that is not refused. -/
def committedPart (s : State) (p : Nat) : State :=
  updPartStatus ((movedCores s p).foldl
    (moveCore (heldCores (commitRegs s (prtRegs p)) p) (guardSet (rd (commitOwner s p)) p)) (commitOwner s p)) p

theorem partitionCommit_runs (p : PartIx) {s : State} (h0 : prtCause s p = 0) : Runs (.partitionCommit p) s (committedPart s p) := by
  rw [Runs, exec_partitionCommit, execPartitionCommit]
  simp only [h0, ne_eq, not_true_eq_false, if_false]
  rfl

theorem updPartStatus_regs (s : State) (p : Nat) : RegsOff (· = R.PRT_STATUS_STATE.at p 0) s (updPartStatus s p) := by
  unfold updPartStatus
  dsimp only
  have hcores : R.PRT_STATUS_CORES.at p 0 = R.PRT_STATUS_STATE.at p 0 := rfl
  have hnear : R.PRT_STATUS_NEAR_GIB.at p 0 = R.PRT_STATUS_STATE.at p 0 := rfl
  have hcxl : R.PRT_STATUS_CXL_GIB.at p 0 = R.PRT_STATUS_STATE.at p 0 := rfl
  have hsame : RegsOff (· = R.PRT_STATUS_STATE.at p 0) s s := RegsOff.refl _ s
  exact ((hsame.wr hcores).wr hnear).wr hcxl

/-- The fields of a partition's status that lie below its counts of cores and memory. -/
theorem rd_updPartStatus (s : State) (p : Nat) {f : Fld} (hf : f.lo + f.width ≤ 10) : rd (updPartStatus s p) f p 0 = rd s f p 0 := by
  have hcores : f.lo + f.width ≤ R.PRT_STATUS_CORES.lo := hf
  have hnear : f.lo + f.width ≤ R.PRT_STATUS_NEAR_GIB.lo := hf.trans (by decide)
  have hcxl : f.lo + f.width ≤ R.PRT_STATUS_CXL_GIB.lo := hf.trans (by decide)
  unfold updPartStatus
  dsimp only
  rw [rd_wr_disjoint _ _ _ _ _ _ _ _ (by decide) (Or.inl hcxl), rd_wr_disjoint _ _ _ _ _ _ _ _ (by decide) (Or.inl hnear),
    rd_wr_disjoint _ _ _ _ _ _ _ _ (by decide) (Or.inl hcores)]

theorem moveCore_keeps (new : List Nat) (held : List Guard) (s : State) (c : Nat) :
    AgreeOutside [.spd, .regs, .shadow, .cores, .harps] s (moveCore new held s c) :=
  Agree.step (onCore_keeps _ _ _) rfl (resetCore_keeps s c)

theorem moveCore_regs (new : List Nat) (held : List Guard) (s : State) (c : Nat) : RegsOff WindowReg s (moveCore new held s c) :=
  (resetCore_regs s c).trans (RegsOff.of_agree (onCore_keeps _ _ _) (by decide))

theorem moveCore_clears (new : List Nat) (held : List Guard) (s : State) (c : Nat) : CoreClear c (moveCore new held s c) := by
  unfold moveCore
  refine CoreClear.onCore ?_ c (fun _ => rfl)
  exact resetCore_clears s c

theorem moveCore_keeps_clear (new : List Nat) (held : List Guard) (s : State) (c c' : Nat) (h : CoreClear c' s) :
    CoreClear c' (moveCore new held s c) := by
  unfold moveCore
  refine CoreClear.onCore ?_ c (fun _ => rfl)
  exact resetCore_keeps_clear s c c' h

theorem commitOwner_regs (s : State) {p : Nat} (hp : p < 16) : RegsOff (PrtStatusReg p) (commitRegs s (prtRegs p)) (commitOwner s p) := by
  unfold commitOwner
  split
  · exact createPart_regs _ hp
  · split
    · exact destroyPart_regs _
    · exact RegsOff.refl _ _

/-- The cores that move change registers of their windows alone. -/
theorem movedCores_regs (s : State) (cs new : List Nat) (held : List Guard) : RegsOff WindowReg s (cs.foldl (moveCore new held) s) :=
  RegsOff.foldl (fun v c _ => moveCore_regs new held v c) (RegsOff.refl _ s)

theorem movedCores_keeps (s : State) (cs new : List Nat) (held : List Guard) :
    AgreeOutside [.spd, .regs, .shadow, .cores, .harps] s (cs.foldl (moveCore new held) s) :=
  Agree.foldl (fun v c => moveCore_keeps new held v c) (Agree.refl _ s)

theorem committedPart_regs (s : State) {p : Nat} (hp : p < 16) : RegsOff (PrtStatusReg p) (commitRegs s (prtRegs p)) (committedPart s p) := by
  have hwindow : ∀ o, WindowReg o → PrtStatusReg p o := fun o h => Or.inr (Nat.le_trans (by decide) h)
  refine (commitOwner_regs s hp).trans (RegsOff.trans ?_ ((updPartStatus_regs _ p).mono (fun _ h => Or.inl h)))
  exact (movedCores_regs _ _ _ _).mono hwindow

/-- Every field of the set is the shadow's. -/
theorem rd_committedPart (s : State) (p : PartIx) {f : Fld} {i : Nat} (h : inPrtSet p f i = true) :
    rd (committedPart s p) f p i = rdS s f p i := by
  simp only [inPrtSet, Bool.and_eq_true, decide_eq_true_eq] at h
  obtain ⟨⟨hcommit, hmem⟩, hbelow⟩ := h
  have hp := p.isLt
  have hout : ¬ PrtStatusReg p (f.at p i) := by
    simp only [Fld.at, R.PRT_STATUS_STATE, PrtStatusReg] at hbelow ⊢; omega
  rw [(committedPart_regs s hp).rd hout]
  exact rd_commitRegs hcommit s hmem

theorem rd_commitOwner_status (s : State) (p : Nat) {f : Fld} (hf : f.lo + f.width ≤ 10) (hat : f.at p 0 < 0x1000000) :
    rd (committedPart s p) f p 0 = rd (commitOwner s p) f p 0 := by
  have hout : ¬ WindowReg (f.at p 0) := by simp only [WindowReg]; omega
  rw [committedPart, rd_updPartStatus _ p hf, (movedCores_regs _ _ _ _).rd hout]

theorem keys_committedPart (s : State) (p : Nat) : (committedPart s p).tru = (commitOwner s p).tru :=
  (updPartStatus_keeps _ p .tru (by decide)).trans (movedCores_keeps _ _ _ _ .tru (by decide))

theorem committedPart_agree (s : State) (p : Nat) :
    AgreeOutside [.spd, .regs, .shadow, .free, .cores, .harps, .ord, .tru] s (committedPart s p) := by
  have howner : AgreeOutside [.regs, .shadow, .free, .cores, .ord, .tru] s (commitOwner s p) := by
    have hcommit := commitRegs_keeps s (prtRegs p)
    unfold commitOwner
    split
    · exact Agree.step (createPart_keeps _ p) rfl (Agree.mono hcommit rfl)
    · split
      · exact Agree.step (destroyPart_keeps _ p) rfl (Agree.mono hcommit rfl)
      · exact Agree.mono hcommit rfl
  exact Agree.step (updPartStatus_keeps _ p) rfl (Agree.step (movedCores_keeps _ _ _ _) rfl (Agree.mono howner rfl))

/-- VALID in the committed set is the shadow's. -/
theorem rdB_commitRegs_valid (s : State) (p : PartIx) :
    rdB (commitRegs s (prtRegs p)) R.PRT_CFG_VALID p 0 = decide (rdS s R.PRT_CFG_VALID p 0 = 1) := by
  have h := prtFields_inSet p R.PRT_CFG_VALID (by simp [prtFields])
  simp only [inPrtSet, Bool.and_eq_true, decide_eq_true_eq] at h
  obtain ⟨⟨hcommit, hmem⟩, -⟩ := h
  rw [rdB, rd_commitRegs hcommit s hmem]

/-- The core set of the committed set is the shadow's. -/
theorem partCores_commitRegs (s : State) (p : PartIx) : partCores (commitRegs s (prtRegs p)) p = shadowCores s p := by
  refine List.filter_congr (fun c hc => ?_)
  have hc288 : c < 288 := List.mem_range.mp hc
  have h := prtCores_inSet p (c / 64) (by omega)
  simp only [inPrtSet, Bool.and_eq_true, decide_eq_true_eq] at h
  obtain ⟨⟨hcommit, hmem⟩, -⟩ := h
  rw [inMask, rd_commitRegs hcommit s hmem]
  simp [hc288]

/-- A new partition: READY with a key of its own, an unlocked interface and no debug mark, and clear cores (R268). -/
theorem partitionCommit_creates (p : PartIx) {s : State} (hwas : rd s R.PRT_CFG_VALID p 0 = 0) (hnow : rdS s R.PRT_CFG_VALID p 0 = 1) :
    rd (committedPart s p) R.PRT_STATUS_STATE p 0 = 1 ∧ rd (committedPart s p) R.PRT_STATUS_TDI_STATE p 0 = 0 ∧
      rd (committedPart s p) R.PRT_STATUS_DEBUG_TOUCHED p 0 = 0 ∧
      SMap.look (fun _ => 0) (committedPart s p).tru.keys p = Config.freeWord s.free ∧
      ∀ c ∈ shadowCores s p, CoreClear c (committedPart s p) := by
  have hvalid : rdB (commitRegs s (prtRegs p)) R.PRT_CFG_VALID p 0 = true := by rw [rdB_commitRegs_valid]; simp [hnow]
  have hold : rdB s R.PRT_CFG_VALID p 0 = false := by simp [rdB, hwas]
  have howner : commitOwner s p = createPart (commitRegs s (prtRegs p)) p := by simp [commitOwner, hvalid, hold]
  have hwindow : ∀ {f : Fld}, f.base = 0x400070 → f.step1 = 256 → f.at p 0 < 0x1000000 := by
    intro f hb h1; simp only [Fld.at, hb, h1]; omega
  obtain ⟨hstate, htdi, hdebug⟩ := createPart_status (commitRegs s (prtRegs p)) p
  refine ⟨?_, ?_, ?_, ?_, fun c hc => ?_⟩
  · rw [rd_commitOwner_status s p (by decide) (hwindow rfl rfl), howner]; exact hstate
  · rw [rd_commitOwner_status s p (by decide) (hwindow rfl rfl), howner]; exact htdi
  · rw [rd_commitOwner_status s p (by decide) (hwindow rfl rfl), howner]; exact hdebug
  · rw [keys_committedPart, howner, createPart_key, commitRegs_keeps s (prtRegs p) .free (by decide)]
  · have hmoved : c ∈ movedCores s p := by
      refine List.mem_filter.mpr ⟨List.mem_of_mem_filter hc, ?_⟩
      simp [heldCores, hvalid, hold, partCores_commitRegs, hc]
    have hclear : ∀ new held v, CoreClear c ((movedCores s p).foldl (moveCore new held) v) := fun new held v =>
      foldl_establishes (f := moveCore new held) (Q := CoreClear) (fun u x _ => moveCore_clears new held u x)
        (fun u x _ y hy => moveCore_keeps_clear new held u x y hy) hmoved v
    have hupd := updPartStatus_keeps ((movedCores s p).foldl (moveCore (heldCores (commitRegs s (prtRegs p)) p)
      (guardSet (rd (commitOwner s p)) p)) (commitOwner s p)) p
    exact (hclear _ _ _).of_same (congrArg Core.ring (coreAt_congr (hupd .cores (by decide)) c)) (hupd .spd (by decide))

/-- A partition that is destroyed is DISABLED and holds no key (R268). -/
theorem partitionCommit_destroys (p : PartIx) {s : State} (hwas : rd s R.PRT_CFG_VALID p 0 = 1) (hnow : rdS s R.PRT_CFG_VALID p 0 = 0) :
    rd (committedPart s p) R.PRT_STATUS_STATE p 0 = 0 ∧ SMap.look (fun _ => 0) (committedPart s p).tru.keys p = 0 := by
  have hvalid : rdB (commitRegs s (prtRegs p)) R.PRT_CFG_VALID p 0 = false := by rw [rdB_commitRegs_valid]; simp [hnow]
  have hold : rdB s R.PRT_CFG_VALID p 0 = true := by simp [rdB, hwas]
  have howner : commitOwner s p = destroyPart (commitRegs s (prtRegs p)) p := by simp [commitOwner, hvalid, hold]
  have hat : R.PRT_STATUS_STATE.at p 0 < 0x1000000 := by simp only [Fld.at, R.PRT_STATUS_STATE]; omega
  obtain ⟨hstate, hkey⟩ := destroyPart_status (commitRegs s (prtRegs p)) p
  refine ⟨?_, ?_⟩
  · rw [rd_commitOwner_status s p (by decide) hat, howner]; exact hstate
  · rw [keys_committedPart, howner]; exact hkey

/-! ### The end of a partition reset (R274, R289) -/

theorem endClear_stopping (s : State) (p : Nat) : (endClear s p).tru.stopping = s.tru.stopping := by
  unfold endClear
  split
  · rw [wr_tru]; rfl
  · rw [wr_tru]

theorem freeSeal_regs (s : State) {p e : Nat} (hp : p < 16) (he : e < 16) :
    RegsOff (fun o => 0x520000 ≤ o ∧ o < 0x522000) s (freeSeal s p e) := by
  have hseal : ∀ {f : Fld}, f ∈ [R.SEC_SEAL_BASE_VALID, R.SEC_SEAL_BASE_BASE, R.SEC_SEAL_SIZE_UNITS, R.SEC_SEAL_ID_CONTENT_ID] →
      0x520000 ≤ f.at p e ∧ f.at p e < 0x522000 := by
    intro f hf
    simp only [List.mem_cons, List.not_mem_nil, or_false] at hf
    rcases hf with rfl | rfl | rfl | rfl <;>
      simp only [Fld.at, R.SEC_SEAL_BASE_VALID, R.SEC_SEAL_BASE_BASE, R.SEC_SEAL_SIZE_UNITS, R.SEC_SEAL_ID_CONTENT_ID] <;> omega
  unfold freeSeal
  dsimp only
  refine RegsOff.trans ?_ (RegsOff.of_agree (Agree.with_tru _ _) (by decide))
  refine RegsOff.wr (RegsOff.wr (RegsOff.wr (RegsOff.wr (RegsOff.refl _ s) (hseal ?_)) (hseal ?_)) (hseal ?_)) (hseal ?_) <;> simp

/-- The entry is free, and every entry of the partition that was free still is. -/
theorem freeSeal_frees (s : State) (p e e' : Nat) (h : e' = e ∨ rdB s R.SEC_SEAL_BASE_VALID p e' = false) :
    rdB (freeSeal s p e) R.SEC_SEAL_BASE_VALID p e' = false := by
  have hsize : R.SEC_SEAL_BASE_VALID.at p e' ≠ R.SEC_SEAL_SIZE_UNITS.at p e := by
    simp only [Fld.at, R.SEC_SEAL_BASE_VALID, R.SEC_SEAL_SIZE_UNITS]; omega
  have hid : R.SEC_SEAL_BASE_VALID.at p e' ≠ R.SEC_SEAL_ID_CONTENT_ID.at p e := by
    simp only [Fld.at, R.SEC_SEAL_BASE_VALID, R.SEC_SEAL_ID_CONTENT_ID]; omega
  have hfield : rd (freeSeal s p e) R.SEC_SEAL_BASE_VALID p e' = rd (wr s R.SEC_SEAL_BASE_VALID p e 0) R.SEC_SEAL_BASE_VALID p e' := by
    unfold freeSeal
    dsimp only
    rw [rd_congr (Agree.with_tru _ _ .regs (by decide)), rd_wr_ne _ _ _ _ _ _ _ _ hid, rd_wr_ne _ _ _ _ _ _ _ _ hsize,
      rd_wr_disjoint _ _ _ _ _ _ _ _ (by decide) (by decide)]
  rw [rdB, hfield]
  by_cases he : e' = e
  · subst he
    rw [rd_wr_self _ _ _ _ _ (by decide)]; rfl
  · have hne : R.SEC_SEAL_BASE_VALID.at p e' ≠ R.SEC_SEAL_BASE_VALID.at p e := by
      simp only [Fld.at, R.SEC_SEAL_BASE_VALID]; omega
    rw [rd_wr_ne _ _ _ _ _ _ _ _ hne]
    exact h.resolve_left he

theorem partRanges_off {P : Nat → Prop} {s t : State} (h : RegsOff P s t) (hP : ∀ o, 0x410000 ≤ o → o < 0x410400 → ¬ P o) (p : Nat) :
    partRanges t p = partRanges s p := by
  have hfld : ∀ {f : Fld}, f.base = 0x410000 ∨ f.base = 0x410008 → f.step1 = 16 → ∀ e ∈ List.range 64, rd t f e 0 = rd s f e 0 := by
    intro f hb h1 e he
    have := List.mem_range.mp he
    exact h.rd (hP _ (by simp only [Fld.at, h1]; omega) (by simp only [Fld.at, h1]; omega))
  unfold partRanges
  rw [List.filter_congr (q := fun e => rdB s R.PRT_RANGE_BASE_VALID e 0 && decide (rd s R.PRT_RANGE_SIZE_PARTITION e 0 = p))]
  · refine List.map_congr_left (fun e he => ?_)
    have he' := List.mem_of_mem_filter he
    rw [hfld (f := R.PRT_RANGE_BASE_BASE) (Or.inl rfl) rfl e he', hfld (f := R.PRT_RANGE_SIZE_GIB) (Or.inr rfl) rfl e he']
  · intro e he
    rw [rdB, rdB, hfld (f := R.PRT_RANGE_BASE_VALID) (Or.inl rfl) rfl e he, hfld (f := R.PRT_RANGE_SIZE_PARTITION) (Or.inr rfl) rfl e he]

end Sys2Proof.Proofs
end

section
/-!
PROOFS. The end of a partition reset (R274, R289), range commits (R270, R271, R222) and isolation mode (R276, R278).
-/
namespace Sys2Proof.Proofs
open Sys2Proof.Machine Sys2Proof.Safety Sys2Proof.Laws

/-! ### The end of a partition reset (R274, R289) -/

/-- A partition whose reset has ended, before a stop of its interface ends with it. -/
def readyPartition (s : State) (p : Nat) : State :=
  absorbCore (wr (if rd (replayPartition s p) R.SEC_IMP_STATUS_STATE p 0 = 3 then endClear (replayPartition s p) p
    else replayPartition s p) R.PRT_STATUS_STATE p 0 1) p

theorem finishPartition_eq (s : State) (p : Nat) : finishPartition s p = endStop (readyPartition s p) p := rfl

/-- Registers that the end of a partition's reset can change before its interface stops. -/
def ReadyReg (p o : Nat) : Prop := o = R.PRT_STATUS_STATE.at p 0 ∨ (0x510000 ≤ o ∧ o < 0x511000) ∨ o = R.BOOT_RESET_STATUS_BUSY.at 0 0

theorem endClear_regs (s : State) {p : Nat} (hp : p < 16) : RegsOff (fun o => 0x510000 ≤ o ∧ o < 0x511000) s (endClear s p) := by
  have hstate : 0x510000 ≤ R.SEC_IMP_STATUS_STATE.at p 0 ∧ R.SEC_IMP_STATUS_STATE.at p 0 < 0x511000 := by
    simp only [Fld.at, R.SEC_IMP_STATUS_STATE]; omega
  unfold endClear
  split
  · refine RegsOff.wr ?_ hstate
    exact RegsOff.of_agree (Agree.step (setImport_keeps _ _ _) rfl (Agree.mono (clearPart_keeps s p _ _) rfl) : AgreeOutside [.mem, .tru] s _)
      (by decide)
  · exact RegsOff.wr (RegsOff.refl _ s) hstate

theorem absorbCore_regs (s : State) (p : Nat) : RegsOff (· = R.BOOT_RESET_STATUS_BUSY.at 0 0) s (absorbCore s p) := by
  unfold absorbCore
  split
  · split
    · refine RegsOff.wr ?_ rfl
      exact RegsOff.of_regs rfl
    · exact RegsOff.refl _ s
  · exact RegsOff.refl _ s

theorem readyPartition_regs (s : State) {p : Nat} (hp : p < 16) : RegsOff (ReadyReg p) s (readyPartition s p) := by
  have hstate : ReadyReg p (R.PRT_STATUS_STATE.at p 0) := Or.inl rfl
  refine RegsOff.trans ?_ ((absorbCore_regs _ p).mono (fun _ h => Or.inr (Or.inr h)))
  refine RegsOff.wr ?_ hstate
  split
  · exact (RegsOff.of_agree (replayPartition_keeps s p) (by decide)).trans ((endClear_regs _ hp).mono (fun _ h => Or.inr (Or.inl h)))
  · exact RegsOff.of_agree (replayPartition_keeps s p) (by decide)

theorem readyPartition_state (s : State) (p : Nat) : rd (readyPartition s p) R.PRT_STATUS_STATE p 0 = 1 := by
  have hout : ¬ R.PRT_STATUS_STATE.at p 0 = R.BOOT_RESET_STATUS_BUSY.at 0 0 := by
    simp only [Fld.at, R.PRT_STATUS_STATE, R.BOOT_RESET_STATUS_BUSY]; omega
  rw [readyPartition, (absorbCore_regs _ p).rd hout, rd_wr_self _ _ _ _ _ (by decide)]
  rfl

theorem readyPartition_stopping (s : State) (p : Nat) : (readyPartition s p).tru.stopping = s.tru.stopping := by
  have hreplay : (replayPartition s p).tru = s.tru := replayPartition_keeps s p .tru (by decide)
  rw [readyPartition, absorbCore_keeps _ p .tru (by decide), wr_tru]
  split
  · rw [endClear_stopping, hreplay]
  · rw [hreplay]

theorem partRanges_readyPartition (s : State) {p : Nat} (hp : p < 16) : partRanges (readyPartition s p) p = partRanges s p := by
  refine partRanges_off (readyPartition_regs s hp) (fun o hlo hhi h => ?_) p
  simp only [ReadyReg, Fld.at, R.PRT_STATUS_STATE, R.BOOT_RESET_STATUS_BUSY] at h
  omega

/-- The seals of a partition, all freed (R286). -/
def freeSeals (s : State) (p : Nat) : State := (List.range 16).foldl (fun s e => freeSeal s p e) s

theorem freeSeals_keeps (s : State) (p : Nat) : AgreeOutside [.regs, .tru] s (freeSeals s p) :=
  Agree.foldl (fun v e => freeSeal_keeps v p e) (Agree.refl _ s)

theorem freeSeals_regs (s : State) {p : Nat} (hp : p < 16) : RegsOff (fun o => 0x520000 ≤ o ∧ o < 0x522000) s (freeSeals s p) :=
  RegsOff.foldl (fun v _ he => freeSeal_regs v hp (List.mem_range.mp he)) (RegsOff.refl _ s)

theorem freeSeals_frees (s : State) (p : Nat) {e : Nat} (he : e < 16) : rdB (freeSeals s p) R.SEC_SEAL_BASE_VALID p e = false :=
  foldl_establishes (f := fun s e => freeSeal s p e) (Q := fun e s => rdB s R.SEC_SEAL_BASE_VALID p e = false)
    (fun v x _ => freeSeal_frees v p x x (Or.inl rfl)) (fun v x _ y hy => freeSeal_frees v p x y (Or.inr hy)) (List.mem_range.mpr he) s

/-- What a stop of an interface leaves once the partition's memory and seals are clear. -/
def stopped (s : State) (p : Nat) : State :=
  let s := freeSeals (clearPart s p 0 (partSize s p)) p
  { s with tru := { s.tru with stopping := s.tru.stopping.filter (· ≠ p) } }

theorem rd_emit (s : State) (o : Out) (f : Fld) (i j : Nat) : rd (emit s o) f i j = rd s f i j := rfl

theorem endStop_stopped {s : State} {p : Nat} (h : p ∈ s.tru.stopping) : endStop s p =
    emit (wr (stopped s p) R.PRT_STATUS_TDI_STATE p 0 0) (.response (fnOfPart p) "STOP_INTERFACE_RESPONSE" []) := by
  have hany : s.tru.stopping.any (fun q => decide (q = p)) = true := by simp [h]
  rw [endStop, if_pos hany]
  rfl

theorem stopped_regs (s : State) {p : Nat} (hp : p < 16) : RegsOff (fun o => 0x520000 ≤ o ∧ o < 0x522000) s (stopped s p) := by
  refine RegsOff.trans ?_ (RegsOff.of_agree (Agree.with_tru _ _) (by decide))
  exact (RegsOff.of_agree (clearPart_keeps s p _ _) (by decide)).trans (freeSeals_regs _ hp)

theorem stopped_agree (s : State) (p : Nat) : AgreeOutside [.tru] (freeSeals (clearPart s p 0 (partSize s p)) p) (stopped s p) :=
  Agree.with_tru _ _

theorem stopped_mem (s : State) (p : Nat) : (stopped s p).mem = (clearPart s p 0 (partSize s p)).mem :=
  (stopped_agree s p .mem (by decide)).trans (freeSeals_keeps (clearPart s p 0 (partSize s p)) p .mem (by decide))

theorem endStop_state (s : State) {p : Nat} (hp : p < 16) : rd (endStop s p) R.PRT_STATUS_STATE p 0 = rd s R.PRT_STATUS_STATE p 0 := by
  have hout : ¬ (0x520000 ≤ R.PRT_STATUS_STATE.at p 0 ∧ R.PRT_STATUS_STATE.at p 0 < 0x522000) := by
    simp only [Fld.at, R.PRT_STATUS_STATE]; omega
  by_cases h : p ∈ s.tru.stopping
  · rw [endStop_stopped h, rd_emit, rd_wr_disjoint _ _ _ _ _ _ _ _ (by decide) (by decide),
      (stopped_regs s hp).rd hout]
  · have hany : ¬ s.tru.stopping.any (fun q => decide (q = p)) = true := by simp [h]
    rw [endStop, if_neg hany]

/-- A partition whose interface stops is unlocked, with every seal freed and its memory cleared (R286, R289). -/
theorem endStop_clears {s : State} {p : Nat} (h : p ∈ s.tru.stopping) :
    rd (endStop s p) R.PRT_STATUS_TDI_STATE p 0 = 0 ∧ p ∉ (endStop s p).tru.stopping ∧
      (∀ e < 16, rdB (endStop s p) R.SEC_SEAL_BASE_VALID p e = false) ∧
      ∀ b g k, (b, g) ∈ partRanges s p → b * 2 ^ 30 ≤ k → k < (b + g) * 2 ^ 30 → memByte (endStop s p).mem k = 0 := by
  rw [endStop_stopped h]
  refine ⟨?_, ?_, fun e he => ?_, fun b g k hr hlo hhi => ?_⟩
  · rw [rd_emit, rd_wr_self _ _ _ _ _ (by decide)]; rfl
  · rw [emit_tru, wr_tru]
    simp [stopped]
  · have hseal : R.SEC_SEAL_BASE_VALID.at p e ≠ R.PRT_STATUS_TDI_STATE.at p 0 := by
      simp only [Fld.at, R.SEC_SEAL_BASE_VALID, R.PRT_STATUS_TDI_STATE]; omega
    have hfree := freeSeals_frees (clearPart s p 0 (partSize s p)) p he
    rw [rdB, rd_emit, rd_wr_ne _ _ _ _ _ _ _ _ hseal, rd_congr (stopped_agree s p .regs (by decide))]
    exact hfree
  · rw [emit_mem, wr_mem, stopped_mem]
    exact memByte_clearPart_whole s hr ⟨hlo, hhi⟩

theorem partitionResetDone_runs (p : PartIx) {s : State} (h : rd s R.PRT_STATUS_STATE p 0 = 2) (hb : computeBusy s = false)
    (hk : kvFlying s p = false) : Runs (.partitionResetDone p) s (finishPartition s p) := by
  rw [Runs, exec_partitionResetDone, execPartitionResetDone, whenDo, if_pos (by simp [h, hb, hk])]

/-! ### Range commits (R270, R271) -/

/-- A commit of the range table takes this field of entry e. -/
def inRangeSet (e : Nat) (f : Fld) : Bool := committable f (f.at e 0) && decide (f.at e 0 ∈ rangeRegs)

/-- The fields of an entry of the range table (R270). -/
def rangeFields : List Fld := [R.PRT_RANGE_BASE_VALID, R.PRT_RANGE_BASE_BASE, R.PRT_RANGE_SIZE_GIB, R.PRT_RANGE_SIZE_PARTITION]

theorem rangeFields_inSet : ∀ e < 64, ∀ f ∈ rangeFields, inRangeSet e f = true := by decide +kernel

theorem rangeField_spec {e : Nat} (he : e < 64) {f : Fld} (hf : f ∈ rangeFields) :
    committable f (f.at e 0) = true ∧ f.at e 0 ∈ rangeRegs := by
  have h := rangeFields_inSet e he f hf
  simpa [inRangeSet] using h

/-- The copy that a range commit takes holds the shadow's table. -/
theorem rangesIn_copyShadow (s : State) : rangesIn (rdIn (copyShadow s rangeRegs)) = rangesIn (rdS s) := by
  refine List.map_congr_left (fun e he => ?_)
  have hfield : ∀ f ∈ rangeFields, rdIn (copyShadow s rangeRegs) f e 0 = rdS s f e 0 := fun f hf =>
    rdIn_copyShadow s f e 0 (rangeField_spec (List.mem_range.mp he) hf).2
  rw [hfield R.PRT_RANGE_BASE_VALID (by simp [rangeFields]), hfield R.PRT_RANGE_BASE_BASE (by simp [rangeFields]),
    hfield R.PRT_RANGE_SIZE_GIB (by simp [rangeFields]), hfield R.PRT_RANGE_SIZE_PARTITION (by simp [rangeFields])]

theorem rangeCommit_runs {s : State} (h : rdB s R.PRT_RANGE_STATUS_PENDING 0 0 = false) :
    Runs .rangeCommit s (applyRanges s (copyShadow s rangeRegs)) := by
  rw [Runs, exec_rangeCommit, execRangeCommit]
  simp [h]

theorem rangeCommit_waits {s : State} (h : rdB s R.PRT_RANGE_STATUS_PENDING 0 0 = true) :
    Runs .rangeCommit s { s with tru := { s.tru with rangeWait := s.tru.rangeWait ++ [copyShadow s rangeRegs] } } := by
  rw [Runs, exec_rangeCommit, execRangeCommit]
  simp [h]

/-- GiB of which a copy of the range table changes the owner. -/
def changedBy (s : State) (cp : List (Nat × W64)) : List Nat := changedGib (rangesIn (rd s)) (rangesIn (rdIn cp))

/-- The table taken, with what changes owner to be cleared. -/
def takeRanges (s : State) (cp : List (Nat × W64)) : State :=
  { commitCopy s cp with ms := { (commitCopy s cp).ms with
      rangeClear := (commitCopy s cp).ms.rangeClear ++ (changedBy s cp).map (fun g =>
        (g * 2 ^ 30, 2 ^ 30, match ownerIn (rangesIn (rdIn cp)) g with | some p => p + 1 | none => 0))
      failReset := (commitCopy s cp).ms.failReset.map (fun n =>
        if n ∈ [0, 1].filter (portFreed s (rangesIn (rd s)) (changedBy s cp)) then n + 2 else n) } }

/-- The table taken, with the translations of every partition whose ranges changed dropped. -/
def dropRanges (s : State) (cp : List (Nat × W64)) : State :=
  ((List.range 16).filter (fun p => decide (partRanges (takeRanges s cp) p ≠ partRanges s p))).foldl dropContext (takeRanges s cp)

theorem applyRanges_taken {s : State} {cp : List (Nat × W64)} (h : (rangeCause s (rangesIn (rd s)) (rangesIn (rdIn cp))).1 = 0) :
    applyRanges s cp = (List.range 16).foldl updPartStatus
      (wrB (dropRanges s cp) R.PRT_RANGE_STATUS_PENDING 0 0 (!(changedBy s cp).isEmpty)) := by
  unfold applyRanges
  simp only [h, ne_eq, not_true_eq_false, if_false]
  rfl

theorem dropContext_regs (s : State) (p : Nat) : RegsOff (· = R.DTU_INVAL_STATUS_PENDING.at 0 0) s (dropContext s p) := by
  unfold dropContext askInval
  dsimp only
  split
  · refine RegsOff.trans ?_ (RegsOff.of_agree (applyInval_keeps _ _) (by decide))
    refine RegsOff.wr ?_ rfl
    exact RegsOff.of_regs rfl
  · refine RegsOff.wr ?_ rfl
    exact RegsOff.of_regs rfl

theorem dropContext_rangeClear (s : State) (p : Nat) : (dropContext s p).ms.rangeClear = s.ms.rangeClear := by
  unfold dropContext askInval applyInval
  dsimp only
  split
  · simp only [wr_ms]
  · simp only [wr_ms]

theorem dropRanges_regs (s : State) (cp : List (Nat × W64)) :
    RegsOff (· = R.DTU_INVAL_STATUS_PENDING.at 0 0) (commitCopy s cp) (dropRanges s cp) :=
  RegsOff.foldl (fun v p _ => dropContext_regs v p) (RegsOff.of_agree (Agree.with_ms _ _) (by decide))

theorem dropRanges_rangeClear (s : State) (cp : List (Nat × W64)) : (dropRanges s cp).ms.rangeClear = (takeRanges s cp).ms.rangeClear :=
  List.foldlRecOn (motive := fun v : State => v.ms.rangeClear = (takeRanges s cp).ms.rangeClear) _ _ rfl
    (fun v hv p _ => (dropContext_rangeClear v p).trans hv)

theorem dropRanges_agree (s : State) (cp : List (Nat × W64)) : AgreeOutside [.regs, .ord, .ms] s (dropRanges s cp) :=
  Agree.foldl (fun v p => dropContext_keeps v p) (Agree.step (Agree.with_ms _ _) rfl (Agree.mono (commitCopy_keeps s cp) rfl))

/-- The status registers of the partitions. -/
def PrtStatusesReg (o : Nat) : Prop := 0x400070 ≤ o ∧ o < 0x401000

theorem updPartStatuses_regs (s : State) : RegsOff PrtStatusesReg s ((List.range 16).foldl updPartStatus s) := by
  refine RegsOff.foldl (fun v p hp => (updPartStatus_regs v p).mono (fun o ho => ?_)) (RegsOff.refl _ s)
  have := List.mem_range.mp hp
  simp only [PrtStatusesReg, ho, Fld.at, R.PRT_STATUS_STATE]
  omega

theorem updPartStatuses_keeps (s : State) : AgreeOutside [.regs] s ((List.range 16).foldl updPartStatus s) :=
  Agree.foldl (fun v p => updPartStatus_keeps v p) (Agree.refl _ s)

/-- A table that is taken: its fields, what is to be cleared, and whether anything is (R270, R271). -/
theorem applyRanges_records {s t : State} {cp : List (Nat × W64)} (h : (rangeCause s (rangesIn (rd s)) (rangesIn (rdIn cp))).1 = 0)
    (ht : t = applyRanges s cp) :
    RegsOff (fun o => o = R.PRT_RANGE_STATUS_PENDING.at 0 0 ∨ o = R.DTU_INVAL_STATUS_PENDING.at 0 0 ∨ PrtStatusesReg o) (commitCopy s cp) t ∧
      (∀ g ∈ changedBy s cp, ∃ o, (g * 2 ^ 30, 2 ^ 30, o) ∈ t.ms.rangeClear) ∧
      (rdB t R.PRT_RANGE_STATUS_PENDING 0 0 = true ↔ changedBy s cp ≠ []) ∧ AgreeOutside [.regs, .ms, .ord] s t := by
  obtain rfl := ht
  have hpend : ¬ PrtStatusesReg (R.PRT_RANGE_STATUS_PENDING.at 0 0) := by simp [PrtStatusesReg, Fld.at, R.PRT_RANGE_STATUS_PENDING]
  rw [applyRanges_taken h]
  refine ⟨?_, fun g hg => ?_, ?_, ?_⟩
  · refine RegsOff.trans ?_ ((updPartStatuses_regs _).mono (fun _ h => Or.inr (Or.inr h)))
    refine RegsOff.wr ?_ (Or.inl rfl)
    exact (dropRanges_regs s cp).mono (fun _ h => Or.inr (Or.inl h))
  · rw [updPartStatuses_keeps _ .ms (by decide), wrB_ms, dropRanges_rangeClear]
    exact ⟨_, List.mem_append_right _ (List.mem_map_of_mem hg)⟩
  · rw [(updPartStatuses_regs _).rdB hpend, rdB, wrB, rd_wr_self _ _ _ _ _ (by decide)]
    cases changedBy s cp <;> simp [R.PRT_RANGE_STATUS_PENDING]
  · exact Agree.step (updPartStatuses_keeps _) rfl (Agree.step (wrB_keeps _ _ _ _ _) rfl (Agree.mono (dropRanges_agree s cp) rfl))

/-- A refused table is recorded and changes nothing else (R270). -/
theorem applyRanges_refused {s : State} {cp : List (Nat × W64)} {c : Nat} (hc : (rangeCause s (rangesIn (rd s)) (rangesIn (rdIn cp))).1 = c)
    (h0 : c ≠ 0) (h6 : c ≠ 6) (hrej : rdB s R.PRT_RANGE_STATUS_REJECTED 0 0 = false) :
    rd (applyRanges s cp) R.PRT_RANGE_STATUS_REJECTED 0 0 = 1 ∧ rd (applyRanges s cp) R.PRT_RANGE_STATUS_CAUSE 0 0 = c % 8 ∧
      RegsOutside [R.PRT_RANGE_STATUS_PENDING.at 0 0] s (applyRanges s cp) ∧ AgreeOutside [.regs] s (applyRanges s cp) := by
  have hstep : applyRanges s cp = wr (refuse s R.PRT_RANGE_STATUS_REJECTED R.PRT_RANGE_STATUS_CAUSE 0 c) R.PRT_RANGE_STATUS_ENTRY 0 0
      (rangeCause s (rangesIn (rd s)) (rangesIn (rdIn cp))).2 := by
    unfold applyRanges
    simp only [hc, ne_eq, h0, h6, not_false_eq_true, if_true, if_false, hrej]
    rfl
  obtain ⟨hset, hcause, hregs⟩ := refuse_records (rej := R.PRT_RANGE_STATUS_REJECTED) (cause := R.PRT_RANGE_STATUS_CAUSE) (i := 0) c hrej rfl
    (by decide) (by decide) (by decide)
  have hrefused : RegsOff (· ∈ [R.PRT_RANGE_STATUS_PENDING.at 0 0]) s (refuse s R.PRT_RANGE_STATUS_REJECTED R.PRT_RANGE_STATUS_CAUSE 0 c) :=
    hregs
  have hentry : R.PRT_RANGE_STATUS_ENTRY.at 0 0 ∈ [R.PRT_RANGE_STATUS_PENDING.at 0 0] := by decide
  rw [hstep]
  refine ⟨?_, ?_, hrefused.wr hentry, Agree.step (wr_keeps _ _ _ _ _) rfl (refuse_keeps _ _ _ _ _)⟩
  · rw [rd_wr_disjoint _ _ _ _ _ _ _ _ (by decide) (by decide)]; exact hset
  · rw [rd_wr_disjoint _ _ _ _ _ _ _ _ (by decide) (by decide)]; exact hcause

/-- The commit of the range table (R270, R271). -/
theorem rangeCommit_takes {s : State} (hp : rdB s R.PRT_RANGE_STATUS_PENDING 0 0 = false)
    (h : (rangeCause s (rangesIn (rd s)) (rangesIn (rdS s))).1 = 0) : ∃ t, Runs .rangeCommit s t ∧
      (∀ e < 64, ∀ f ∈ rangeFields, rd t f e 0 = rdS s f e 0) ∧
      (∀ g ∈ changedGib (rangesIn (rd s)) (rangesIn (rdS s)), ∃ o, (g * 2 ^ 30, 2 ^ 30, o) ∈ t.ms.rangeClear) ∧
      (rdB t R.PRT_RANGE_STATUS_PENDING 0 0 = true ↔ changedGib (rangesIn (rd s)) (rangesIn (rdS s)) ≠ []) ∧
      AgreeOutside [.regs, .ms, .ord] s t := by
  have hchanged : changedBy s (copyShadow s rangeRegs) = changedGib (rangesIn (rd s)) (rangesIn (rdS s)) := by
    rw [changedBy, rangesIn_copyShadow]
  obtain ⟨hregs, hclear, hpending, hagree⟩ := applyRanges_records (cp := copyShadow s rangeRegs) (by rw [rangesIn_copyShadow]; exact h) rfl
  rw [hchanged] at hclear hpending
  refine ⟨_, rangeCommit_runs hp, fun e he f hf => ?_, hclear, hpending, hagree⟩
  obtain ⟨hcommit, hmem⟩ := rangeField_spec he hf
  have hrange : 0x410000 ≤ f.at e 0 ∧ f.at e 0 < 0x410400 := by
    simp only [rangeFields, List.mem_cons, List.not_mem_nil, or_false] at hf
    rcases hf with rfl | rfl | rfl | rfl <;>
      simp only [Fld.at, R.PRT_RANGE_BASE_VALID, R.PRT_RANGE_BASE_BASE, R.PRT_RANGE_SIZE_GIB, R.PRT_RANGE_SIZE_PARTITION] <;> omega
  rw [hregs.rd]
  · exact rd_commitCopy hcommit s s hmem
  · rintro (hr | hr | hr)
    · rw [hr] at hrange; exact absurd hrange (by decide)
    · rw [hr] at hrange; exact absurd hrange (by decide)
    · simp only [PrtStatusesReg] at hr; omega

/-! ### The end of the clearing (R222, R271) -/

/-- The changed ranges cleared, the ports they freed working again, and nothing pending. -/
def clearedRanges (s : State) : State :=
  let s := clearPieces s (s.ms.rangeClear.map (fun r => (r.1, r.2.1)))
  let s := ([0, 1].filter (fun n => decide (n + 2 ∈ s.ms.failReset))).foldl (fun s n => wr s R.CXL_PORT_STATUS_FAILED n 0 0) s
  let s := { s with ms := { s.ms with rangeClear := [], failReset := s.ms.failReset.filter (fun n => decide (n < 2)) } }
  wr s R.PRT_RANGE_STATUS_PENDING 0 0 0

theorem rangeClearDone_runs {s : State} (hp : rdB s R.PRT_RANGE_STATUS_PENDING 0 0 = true)
    (h : ∀ r ∈ s.ms.rangeClear, ∀ n, placeOf s r.1 = .cxl n → portUp s n = true) :
    Runs .rangeClearDone s (drainRanges (clearedRanges s).tru.rangeWait.length (clearedRanges s)) := by
  rw [Runs, exec_rangeClearDone, execRangeClearDone]
  dsimp only
  rw [if_neg]
  · rfl
  · simp only [hp, Bool.not_true, Bool.false_or, List.any_eq_true, not_exists, not_and]
    intro r hr
    split
    · rename_i n hn
      simp [h r hr n hn]
    · exact Bool.false_ne_true

theorem clearedRanges_agree (s : State) : AgreeOutside [.regs, .ms] (clearPieces s (s.ms.rangeClear.map (fun r => (r.1, r.2.1)))) (clearedRanges s) := by
  refine Agree.step (wr_keeps _ _ _ _ _) rfl (Agree.step (Agree.with_ms _ _) rfl ?_)
  exact Agree.foldl (fun v n => Agree.mono (wr_keeps v _ _ _ _) rfl) (Agree.refl _ _)

theorem rangeClearDone_clears {s : State} (hp : rdB s R.PRT_RANGE_STATUS_PENDING 0 0 = true)
    (h : ∀ r ∈ s.ms.rangeClear, ∀ n, placeOf s r.1 = .cxl n → portUp s n = true) :
    ∃ t, Runs .rangeClearDone s t ∧ (∀ r ∈ s.ms.rangeClear, ∀ k, r.1 ≤ k → k < r.1 + r.2.1 → memByte t.mem k = 0) ∧
      (∀ k, (∀ r ∈ s.ms.rangeClear, ¬ (r.1 ≤ k ∧ k < r.1 + r.2.1)) → memByte t.mem k = memByte s.mem k) ∧
      (s.tru.rangeWait = [] → rdB t R.PRT_RANGE_STATUS_PENDING 0 0 = false ∧ t.ms.rangeClear = []) ∧
      AgreeOutside [.mem, .regs, .out, .ms, .ord, .sch, .hst, .tru] s t := by
  have hagree := clearedRanges_agree s
  have hdrain := drainRanges_keeps (clearedRanges s).tru.rangeWait.length (clearedRanges s)
  have hmem := (hdrain .mem (by decide)).trans (hagree .mem (by decide))
  refine ⟨_, rangeClearDone_runs hp h, fun r hr k hlo hhi => ?_, fun k hk => ?_, fun hw => ?_, ?_⟩
  · rw [hmem]
    exact memByte_clearPieces_in s (q := (r.1, r.2.1)) (List.mem_map.mpr ⟨r, hr, rfl⟩) ⟨hlo, hhi⟩
  · rw [hmem]
    refine memByte_clearPieces_out s (fun q hq => ?_)
    obtain ⟨r, hr, rfl⟩ := List.mem_map.mp hq
    exact hk r hr
  · have hwait : (clearedRanges s).tru.rangeWait = [] := (congrArg Trust.rangeWait (hagree .tru (by decide))).trans hw
    rw [hwait]
    refine ⟨?_, rfl⟩
    rw [List.length_nil, drainRanges, rdB, clearedRanges, rd_wr_self _ _ _ _ _ (by decide)]
    rfl
  · exact Agree.step hdrain rfl (Agree.step hagree rfl (Agree.mono (clearPieces_keeps s _) rfl))

/-! ### Isolation mode (R276, R278) -/

theorem isoCommit_refused {s : State} (hon : rdS s R.PRT_ISO_ENABLE 0 0 = 1) (hc : isoCause s ≠ 0) :
    Runs .isoCommit s (refuse s R.PRT_ISO_STATUS_REJECTED R.PRT_ISO_STATUS_CAUSE 0 (isoCause s)) := by
  rw [Runs, exec_isoCommit, execIsoCommit]
  simp [hon, hc]

theorem isoEnable_committable : committable R.PRT_ISO_ENABLE (R.PRT_ISO_ENABLE.at 0 0) = true := by decide +kernel

theorem isoCommit_runs {s : State} (h : rdS s R.PRT_ISO_ENABLE 0 0 = 0 ∨ isoCause s = 0) :
    Runs .isoCommit s (wrB (commitReg s (R.PRT_ISO_ENABLE.at 0 0)) R.PRT_ISO_STATUS_PENDING 0 0
      (decide (rdS s R.PRT_ISO_ENABLE 0 0 = 1) != isoActive (commitReg s (R.PRT_ISO_ENABLE.at 0 0)))) := by
  have hcond : (decide (rdS s R.PRT_ISO_ENABLE 0 0 = 1) && decide (isoCause s ≠ 0)) = false := by
    rcases h with h | h <;> simp [h]
  rw [Runs, exec_isoCommit, execIsoCommit]
  simp only [hcond]
  rfl

/-- A field of one bit is 0 or 1. -/
theorem rd_bit (s : State) {f : Fld} (hw : f.width = 1) (i j : Nat) : rd s f i j = 0 ∨ rd s f i j = 1 := by
  have h := getBits_lt (reg s (f.at i j)) f.lo f.width
  rw [hw] at h
  simp only [rd, hw]
  omega

theorem rdS_bit (s : State) {f : Fld} (hw : f.width = 1) (i j : Nat) : rdS s f i j = 0 ∨ rdS s f i j = 1 := by
  have h := getBits_lt (shadowWord s (f.at i j)) f.lo f.width
  rw [hw] at h
  simp only [rdS, hw]
  omega

theorem isoCommit_takes {s : State} (h : rdS s R.PRT_ISO_ENABLE 0 0 = 0 ∨ isoCause s = 0) :
    ∃ t, Runs .isoCommit s t ∧ rd t R.PRT_ISO_ENABLE 0 0 = rdS s R.PRT_ISO_ENABLE 0 0 ∧
      (rdB t R.PRT_ISO_STATUS_PENDING 0 0 = true ↔ rdS s R.PRT_ISO_ENABLE 0 0 ≠ rd s R.PRT_ISO_STATUS_ACTIVE 0 0) ∧
      RegsOutside [R.PRT_ISO_ENABLE.at 0 0, R.PRT_ISO_STATUS_ACTIVE.at 0 0] s t ∧ AgreeOutside [.regs] s t := by
  have hword : RegsOff (· = R.PRT_ISO_ENABLE.at 0 0) s (commitReg s (R.PRT_ISO_ENABLE.at 0 0)) := commitWord_regs s _ _
  have hactive : rd (commitReg s (R.PRT_ISO_ENABLE.at 0 0)) R.PRT_ISO_STATUS_ACTIVE 0 0 = rd s R.PRT_ISO_STATUS_ACTIVE 0 0 :=
    hword.rd (by decide)
  have htake : rd (commitReg s (R.PRT_ISO_ENABLE.at 0 0)) R.PRT_ISO_ENABLE 0 0 = rdS s R.PRT_ISO_ENABLE 0 0 :=
    rd_commitWord isoEnable_committable s _
  have hwide : RegsOff (· ∈ [R.PRT_ISO_ENABLE.at 0 0, R.PRT_ISO_STATUS_ACTIVE.at 0 0]) s (commitReg s (R.PRT_ISO_ENABLE.at 0 0)) :=
    hword.mono (fun o ho => by simp [ho])
  have hstatus : R.PRT_ISO_STATUS_PENDING.at 0 0 ∈ [R.PRT_ISO_ENABLE.at 0 0, R.PRT_ISO_STATUS_ACTIVE.at 0 0] := by decide
  refine ⟨_, isoCommit_runs h, ?_, ?_, hwide.wr hstatus, Agree.step (wrB_keeps _ _ _ _ _) rfl (commitReg_keeps _ _)⟩
  · rw [wrB, rd_wr_ne _ _ _ _ _ _ _ _ (by decide)]; exact htake
  · rw [rdB, wrB, rd_wr_self _ _ _ _ _ (by decide), isoActive, rdB, hactive]
    rcases rdS_bit s (f := R.PRT_ISO_ENABLE) rfl 0 0 with he | he <;>
      rcases rd_bit s (f := R.PRT_ISO_STATUS_ACTIVE) rfl 0 0 with ha | ha <;> simp [he, ha, R.PRT_ISO_STATUS_PENDING]

theorem updClock_regs (s : State) : RegsOff (· = R.CLK_STATUS_CAP_SOURCE.at 0 0) s (updClock s) := by
  have htarget : R.CLK_STATUS_TARGET_MHZ.at 0 0 = R.CLK_STATUS_CAP_SOURCE.at 0 0 := rfl
  have hsame : RegsOff (· = R.CLK_STATUS_CAP_SOURCE.at 0 0) s s := RegsOff.refl _ s
  unfold updClock
  split
  · exact hsame.wr rfl
  · exact (hsame.wr htarget).wr rfl

/-- The mode in effect, before the marks of the partitions' power and the clock follow. -/
def isoSwitched (s : State) : State :=
  let on := rdB s R.PRT_ISO_ENABLE 0 0
  let s := wr (wrB s R.PRT_ISO_STATUS_ACTIVE 0 0 on) R.PRT_ISO_STATUS_PENDING 0 0 0
  { s with pwr := { s.pwr with partDuty := [], below := 0, capPower := if on then 1800 else s.pwr.capPower } }

/-- The marks of partitions held at their power limits go when isolation mode ends. -/
def limitsFollow (on : Bool) (s : State) : State :=
  if on then s else (List.range 16).foldl (fun s p => wr s R.PRT_POWER_AT_LIMIT p 0 0) s

theorem limitsFollow_regs (on : Bool) (s : State) : RegsOff (fun o => 0x400078 ≤ o ∧ o < 0x401000) s (limitsFollow on s) := by
  unfold limitsFollow
  split
  · exact RegsOff.refl _ s
  · refine RegsOff.foldl (fun v p hp => RegsOff.of_wr v 0 ?_) (RegsOff.refl _ s)
    have := List.mem_range.mp hp
    simp only [Fld.at, R.PRT_POWER_AT_LIMIT]
    omega

theorem limitsFollow_keeps (on : Bool) (s : State) : AgreeOutside [.regs] s (limitsFollow on s) := by
  unfold limitsFollow
  split
  · exact Agree.refl _ s
  · exact Agree.foldl (fun v p => wr_keeps v _ _ _ _) (Agree.refl _ s)

theorem isoApplied_runs {s : State} (h : rdB s R.PRT_ISO_STATUS_PENDING 0 0 = true) :
    Runs .isoApplied s (updClock (limitsFollow (rdB s R.PRT_ISO_ENABLE 0 0) (isoSwitched s))) := by
  rw [Runs, exec_isoApplied, execIsoApplied, if_neg (by simp [h])]
  rfl

theorem isoApplied_takes {s : State} (h : rdB s R.PRT_ISO_STATUS_PENDING 0 0 = true) :
    ∃ t, Runs .isoApplied s t ∧ rd t R.PRT_ISO_STATUS_ACTIVE 0 0 = rd s R.PRT_ISO_ENABLE 0 0 ∧
      rdB t R.PRT_ISO_STATUS_PENDING 0 0 = false ∧ t.pwr.partDuty = [] ∧ AgreeOutside [.regs, .pwr] s t := by
  have hagree : AgreeOutside [.regs] (isoSwitched s) (updClock (limitsFollow (rdB s R.PRT_ISO_ENABLE 0 0) (isoSwitched s))) :=
    Agree.step (updClock_keeps _) rfl (limitsFollow_keeps _ _)
  have hregs : RegsOff (fun o => 0x400078 ≤ o ∧ o < 0x401000 ∨ o = R.CLK_STATUS_CAP_SOURCE.at 0 0) (isoSwitched s)
      (updClock (limitsFollow (rdB s R.PRT_ISO_ENABLE 0 0) (isoSwitched s))) :=
    ((limitsFollow_regs _ _).mono (fun _ h => Or.inl h)).trans ((updClock_regs _).mono (fun _ h => Or.inr h))
  have hswitch : AgreeOutside [.regs, .pwr] s (isoSwitched s) :=
    Agree.update (fun p hp => by cases p <;> first | exact absurd (by decide) hp | exact rfl)
      (Agree.step (wr_keeps _ _ _ _ _) rfl (Agree.mono (wrB_keeps s R.PRT_ISO_STATUS_ACTIVE 0 0 _) rfl))
  refine ⟨_, isoApplied_runs h, ?_, ?_, (congrArg Power.partDuty (hagree .pwr (by decide))), ?_⟩
  · rw [hregs.rd (by decide)]
    have hfield : rd (isoSwitched s) R.PRT_ISO_STATUS_ACTIVE 0 0 =
        rd (wr (wrB s R.PRT_ISO_STATUS_ACTIVE 0 0 (rdB s R.PRT_ISO_ENABLE 0 0)) R.PRT_ISO_STATUS_PENDING 0 0 0) R.PRT_ISO_STATUS_ACTIVE 0 0 := rfl
    rw [hfield, rd_wr_disjoint _ _ _ _ _ _ _ _ (by decide) (by decide), wrB, rd_wr_self _ _ _ _ _ (by decide), rdB]
    rcases rd_bit s (f := R.PRT_ISO_ENABLE) rfl 0 0 with he | he <;> simp [he, R.PRT_ISO_STATUS_ACTIVE]
  · rw [hregs.rdB (by decide)]
    have hfield : rdB (isoSwitched s) R.PRT_ISO_STATUS_PENDING 0 0 =
        rdB (wr (wrB s R.PRT_ISO_STATUS_ACTIVE 0 0 (rdB s R.PRT_ISO_ENABLE 0 0)) R.PRT_ISO_STATUS_PENDING 0 0 0) R.PRT_ISO_STATUS_PENDING 0 0 := rfl
    rw [hfield, rdB, rd_wr_self _ _ _ _ _ (by decide)]
    rfl
  · exact Agree.step hagree rfl hswitch

/-! ### The obligation -/

/-- Settles O34: every clause is what the command's own lemmas above say of it. -/
theorem partitions : Obligations.Partitions := by
  unfold Obligations.Partitions
  refine ⟨fun p s h0 h5 hrej => partitionCommit_refused p h0 h5 hrej, fun p s h0 => ?_, fun p s h hb => ?_, fun p s h => ?_,
    fun p s h hb hk => ?_, fun s h => rangeCommit_waits h, fun s hp h => rangeCommit_takes hp h, fun s hp h0 h6 hrej => ?_,
    fun s hp h => rangeClearDone_clears hp h, fun s hon hc => isoCommit_refused hon hc, fun s h => isoCommit_takes h,
    fun s h => isoApplied_takes h⟩
  · exact ⟨_, partitionCommit_runs p h0, fun f hf => rd_committedPart s p (prtFields_inSet p f hf),
      fun i hi => rd_committedPart s p (prtCores_inSet p i hi), fun i hi => rd_committedPart s p (prtOwner_inSet p i hi),
      fun hwas hnow => partitionCommit_creates p hwas hnow, fun hwas hnow => partitionCommit_destroys p hwas hnow, committedPart_agree s p⟩
  · obtain ⟨hstate, hscope⟩ := partitionReset_state p.isLt h hb
    exact ⟨partitionReset s p, rfl, hstate, hscope, fun w hw hrun => partitionReset_stops p.isLt h hb hw hrun,
      fun w hw => partitionReset_taken p.isLt h hb hw, fun c hc => partitionReset_clears h hb hc, partitionReset_keeps s p⟩
  · have hnone : partitionReset s p = s := by rw [partitionReset, if_pos (by simp [h])]
    rw [Runs, exec_partitionReset, execPartitionReset, hnone]
  · have hagree : AgreeOutside [.mem, .regs, .out, .kv, .tru, .boot] s (finishPartition s p) := Agree.mono (finishPartition_keeps s p) rfl
    refine ⟨_, partitionResetDone_runs p h hb hk, ?_, fun hstop => ?_, hagree⟩
    · rw [finishPartition_eq, endStop_state _ p.isLt, readyPartition_state]
    · rw [← readyPartition_stopping s p] at hstop
      rw [finishPartition_eq, ← partRanges_readyPartition s p.isLt]
      exact endStop_clears hstop
  · obtain ⟨hset, hcause, hregs, hagree⟩ := applyRanges_refused (cp := copyShadow s rangeRegs) (by rw [rangesIn_copyShadow]) h0 h6 hrej
    exact ⟨_, rangeCommit_runs hp, hset, hcause, hregs, hagree⟩

end Sys2Proof.Proofs
end

section
/-!
PROOFS. The beginning of a command: what taking its slot changes, and the sarabande's reads for it (R242 to R248).
-/
namespace Sys2Proof.Proofs
open Sys2Proof.Machine Sys2Proof.Safety Sys2Proof.Laws

/-! ### The slot taken (R242) -/

theorem frontSlot_idle {s : State} {w op : Nat} {x : Taken} (h : frontSlot s w op = some x) : (ringAt s w).cmd = none := by
  unfold frontSlot at h
  split at h
  · assumption
  · cases h

/-- A ring whose first taken slot has become its command. -/
def startedRing (s : State) (w : Nat) (x : Taken) (ph : Phase) : Ring :=
  { ringAt s w with taken := (ringAt s w).taken.drop 1, cmd := some (freshCmd s x ph) }

theorem ringAt_putCmd (s : State) (w w' : Nat) (x : Taken) (ph : Phase) :
    ringAt (putCmd s w x ph) w' = if w' = w then startedRing s w x ph else ringAt s w' := by
  unfold putCmd
  dsimp only
  rw [ringAt_wr, ringAt_wr, ringAt_onRing]
  rfl

theorem putCmd_regs (s : State) (w : Nat) (x : Taken) (ph : Phase) : RegsOff (RingStatusReg w) s (putCmd s w x ph) := by
  have hslot : RingStatusReg w (R.SEQ_RQ_STATUS_RUN_SLOT.at w 0) := rfl
  have hrunning : RingStatusReg w (R.SEQ_RQ_STATUS_RUNNING.at w 0) := rfl
  unfold putCmd
  dsimp only
  refine RegsOff.wr (RegsOff.wr ?_ hslot) hrunning
  exact RegsOff.of_agree (onRing_keeps s w _) (by decide)

theorem putCmd_running (s : State) (w : Nat) (x : Taken) (ph : Phase) : rdB (putCmd s w x ph) R.SEQ_RQ_STATUS_RUNNING w 0 = true := by
  unfold putCmd
  dsimp only
  rw [rdB, rd_wr_self _ _ _ _ _ (by decide)]
  rfl

theorem memQuiet_putCmd {s : State} (h : MemQuiet s) (w : RingIx) (x : Taken) (ph : Phase) : MemQuiet (putCmd s w x ph) := by
  intro n hn
  refine ((putCmd_regs s w x ph).rdB ?_).trans (h n hn)
  simp only [RingStatusReg, Fld.at, R.DBG_WP_CFG_ENABLE, R.SEQ_RQ_STATUS_STATE]
  omega

/-! ### Rings that a command leaves as they were -/

theorem ringsOutside_trans {ws : List Nat} {s t u : State} (h : RingsOutside ws s t) (h' : RingsOutside ws t u) : RingsOutside ws s u :=
  fun w hw => (h' w hw).trans (h w hw)

theorem ringsOutside_of_agree {ws : List Nat} {s t : State} {L : List Part} (h : AgreeOutside L s t) (hL : Part.sch ∉ L) :
    RingsOutside ws s t := fun w _ => ringAt_congr (h .sch hL) w

theorem ringsOutside_of_frame {ws : List Nat} {s t : State} (h : ReadFrame s t) : RingsOutside ws s t := fun w _ => h.ringAt w

theorem ringsOutside_putCmd (s : State) (w : Nat) (x : Taken) (ph : Phase) : RingsOutside [w] s (putCmd s w x ph) := by
  intro w' hw'
  rw [ringAt_putCmd, if_neg (by simpa using hw')]

theorem ringsOutside_onRing (s : State) (w : Nat) (g : Ring → Ring) : RingsOutside [w] s (onRing s w g) := by
  intro w' hw'
  rw [ringAt_onRing, if_neg (by simpa using hw')]

theorem ringAt_onCmd (s : State) (w : Nat) (g : Cmd → Cmd) :
    ringAt (onCmd s w g) w = { ringAt s w with cmd := (ringAt s w).cmd.map g } := by
  rw [onCmd, ringAt_onRing, if_pos rfl]

theorem ringsOutside_onCmd (s : State) (w : Nat) (g : Cmd → Cmd) : RingsOutside [w] s (onCmd s w g) := ringsOutside_onRing s w _

/-! ### NOP (R248) -/

theorem cmdNop_ends (w : RingIx) {x : Taken} {s : State} (hf : frontSlot s w 4 = some x) (hr : isResident s w = true)
    (hz : ∀ y ∈ x.words.drop 2, y = 0) : ∃ t, Runs (.cmdNop w) s t ∧ (ringAt t w).cmd = some (freshCmd s x .ended) ∧
      (ringAt t w).taken = (ringAt s w).taken.drop 1 ∧ RegsOutside [R.SEQ_RQ_STATUS_STATE.at w 0] s t ∧ RingsOutside [w.val] s t ∧
      AgreeOutside [.regs, .sch, .pwr] s t := by
  have hzero : (x.words.drop 2).any (fun y => decide (y ≠ 0)) = false := by
    rw [List.any_eq_false]; intro y hy; simp [hz y hy]
  have hrun : Runs (.cmdNop w) s (commandHint (putCmd s w x .ended) w x.words) := by
    rw [Runs, exec_cmdNop, execCmdNop]
    simp only [hf, hr, hzero, Bool.true_eq_false, Bool.false_eq_true, if_false]
  have hhint := commandHint_keeps (putCmd s w x .ended) w x.words
  have hring : ringAt (commandHint (putCmd s w x .ended) w x.words) w = startedRing s w x .ended := by
    rw [ringAt_congr (hhint .sch (by decide)), ringAt_putCmd, if_pos rfl]
  have hregs : RegsOff (RingStatusReg w) s (commandHint (putCmd s w x .ended) w x.words) :=
    (putCmd_regs s w x .ended).trans (RegsOff.of_agree hhint (by decide))
  refine ⟨_, hrun, ?_, ?_, fun o ho => hregs o (by simpa [RingStatusReg] using ho), ?_, ?_⟩
  · rw [hring]; rfl
  · rw [hring]; rfl
  · exact ringsOutside_trans (ringsOutside_putCmd s w x .ended) (ringsOutside_of_agree hhint (by decide))
  · exact Agree.step hhint rfl (Agree.mono (putCmd_keeps s w x .ended) rfl)

/-! ### What the sarabande reads for a command (R245) -/

/-- Module memory read for a ring's command, its translations kept (R230). -/
def readForRing (s : State) (w p va n : Nat) (ps : List (Nat × Nat)) : State :=
  ps.foldl (fun s q => sliceRd s .sarabande (some va) (some w) q.1 q.2) (learnRange s none p va n false false (some w))

theorem readForRing_frame {s : State} (hq : MemQuiet s) (w p va n : Nat) (ps : List (Nat × Nat)) :
    ReadFrame s (readForRing s w p va n ps) :=
  sliceRds_frame hq (learnRange_frame hq p va n false false (some w)) rfl (some va) (some w) Prod.fst Prod.snd ps

theorem noPoison_findSome {s : State} {ps : List (Nat × Nat)} (h : ∀ q ∈ ps, cohPoisonAt s q.1 q.2 = none) :
    ps.findSome? (fun q => cohPoisonAt s q.1 q.2) = none := List.findSome?_eq_none_iff.mpr h

theorem memOutside_of_bytes {s t : State} (a n : Nat) (h : t.mem.bytes = s.mem.bytes) : MemOutside a n s t :=
  fun k _ => by simp only [memByte, h]

/-! ### KERNEL (R14, R26, R243, R244) -/

/-- A command whose table has been read. -/
def tableRead (s : State) (w : Nat) (x : Taken) (ps : List (Nat × Nat)) : State :=
  readForRing (putCmd s w x .waiting) w (ringPart s w) (dw x.words 2 0 48) (dw x.words 3 0 9 * 64) ps

/-- A command whose table its checks have judged: it waits with its placement, or has ended with the cause found. -/
def judgedTable (s : State) (w : Nat) (x : Taken) (ps : List (Nat × Nat)) (es : List (List W64)) : State :=
  match tableCause s w es with
  | some (code, d) => endUnstarted (tableRead s w x ps) w code d
  | none => onCmd (avoidRetired (tableRead s w x ps) w (es.map entCore)) w (fun c => { c with cores := es.map entCore, entries := es })

section
variable {w : RingIx} {x : Taken} {ps : List (Nat × Nat)} {es : List (List W64)} {s : State}

theorem cmdKernel_runs (hf : frontSlot s w 1 = some x) (hb : kernelWordsBad x.words = false)
    (hw : accessWaits s none (ringPart s w) (dw x.words 2 0 48) (dw x.words 3 0 9 * 64) true = false)
    (hps : pieces s none (ringPart s w) false false (dw x.words 2 0 48) (dw x.words 3 0 9 * 64) = .ok ps)
    (hc : ∀ q ∈ ps, cohPoisonAt s q.1 q.2 = none)
    (hes : es = (List.range (dw x.words 3 0 9)).map (fun i => ((bytesWords (readPieces s ps).1).drop (8 * i)).take 8)) :
    Runs (.cmdKernel w) s (judgedTable s w x ps es) := by
  rw [Runs, exec_cmdKernel, execCmdKernel]
  simp only [hf, hb, hw, hps, noPoison_findSome hc, Bool.false_eq_true, if_false]
  rw [← hes]
  unfold judgedTable
  generalize tableCause s w es = v
  rcases v with _ | ⟨code, d⟩ <;> rfl

theorem tableRead_frame (hq : MemQuiet s) : ReadFrame (putCmd s w x .waiting) (tableRead s w x ps) :=
  readForRing_frame (memQuiet_putCmd hq w x .waiting) _ _ _ _ _

theorem ringAt_tableRead (hq : MemQuiet s) : ringAt (tableRead s w x ps) w = startedRing s w x .waiting := by
  rw [(tableRead_frame hq).ringAt, ringAt_putCmd, if_pos rfl]

/-- What the judgement adds to the reading of the table: it concerns the ring alone. -/
theorem judgedTable_agree : AgreeOutside [.sch] (tableRead s w x ps) (judgedTable s w x ps es) := by
  unfold judgedTable
  split
  · exact onCmd_keeps _ _ _
  · exact Agree.step (onCmd_keeps _ _ _) rfl (onRing_keeps _ _ _)

theorem judgedTable_rings : RingsOutside [w.val] (tableRead s w x ps) (judgedTable s w x ps es) := by
  unfold judgedTable
  split
  · exact ringsOutside_onCmd _ _ _
  · exact ringsOutside_trans (ringsOutside_onRing _ _ _) (ringsOutside_onCmd _ _ _)

theorem judgedTable_taken (hq : MemQuiet s) : (ringAt (judgedTable s w x ps es) w).taken = (ringAt s w).taken.drop 1 := by
  unfold judgedTable
  split
  · rw [endUnstarted, ringAt_onCmd, ringAt_tableRead hq]; rfl
  · rw [ringAt_onCmd, avoidRetired, ringAt_onRing, if_pos rfl, ringAt_tableRead hq]; rfl

theorem judgedTable_waits (hq : MemQuiet s) (h : tableCause s w es = none) : (ringAt (judgedTable s w x ps es) w).cmd =
    some { freshCmd s x .waiting with cores := es.map entCore, entries := es } := by
  simp only [judgedTable, h]
  rw [ringAt_onCmd, avoidRetired, ringAt_onRing, if_pos rfl, ringAt_tableRead hq]
  rfl

theorem judgedTable_ends (hq : MemQuiet s) {code d : Nat} (h : tableCause s w es = some (code, d)) :
    (ringAt (judgedTable s w x ps es) w).cmd = some { (freshCmd s x .waiting).cause code d with phase := .ended } := by
  simp only [judgedTable, h]
  rw [endUnstarted, ringAt_onCmd, ringAt_tableRead hq]
  rfl

/-- Everything but the ring and what its reads touch is as it was (R245). -/
theorem judgedTable_frame (hq : MemQuiet s) : rdB (judgedTable s w x ps es) R.SEQ_RQ_STATUS_RUNNING w 0 = true ∧
    RingsOutside [w.val] s (judgedTable s w x ps es) ∧ MemOutside 0 0 s (judgedTable s w x ps es) ∧
    AgreeOutside [.mem, .regs, .out, .ms, .sch, .ras, .hst] s (judgedTable s w x ps es) := by
  have hframe : ReadFrame (putCmd s w x .waiting) (tableRead s w x ps) := tableRead_frame hq
  have hjudge : AgreeOutside [.sch] (tableRead s w x ps) (judgedTable s w x ps es) := judgedTable_agree
  have hout : ¬ RecordReg (R.SEQ_RQ_STATUS_RUNNING.at w 0) := not_recordReg_ringStatus w.isLt rfl
  have hput := putCmd_keeps s w x .waiting
  refine ⟨?_, ?_, memOutside_of_bytes 0 0 ?_, Agree.step hjudge rfl (Agree.trans (Agree.mono hput rfl) hframe.agree)⟩
  · rw [rdB, rd_congr (hjudge .regs (by decide)), ← rdB, hframe.regs.rdB hout, putCmd_running]
  · exact ringsOutside_trans (ringsOutside_trans (ringsOutside_putCmd s w x .waiting) (ringsOutside_of_frame hframe)) judgedTable_rings
  · rw [hjudge .mem (by decide), hframe.bytes, hput .mem (by decide)]

end

/-! ### KV_OPS (R248) -/

/-- A ring's operation issued to its unit, counted by the command. -/
def issuedKv (s : State) (w : Nat) (desc : List W64) : State :=
  onCmd (issueKv s none w desc) w (fun c =>
    { c with issued := c.issued + 1, phase := if c.issued + 1 = dw c.words 3 0 16 then .ended else c.phase })

theorem issuedKv_agree (s : State) (w : Nat) (desc : List W64) : AgreeOutside [.sch, .ord, .kv] s (issuedKv s w desc) := by
  refine Agree.step (onCmd_keeps _ _ _) rfl ?_
  exact Agree.update (fun p hp => by cases p <;> first | exact absurd (by decide) hp | exact rfl) (Agree.refl _ s)

theorem issuedKv_rings (s : State) (w : Nat) (desc : List W64) : RingsOutside [w] s (issuedKv s w desc) :=
  fun w' hw' => ringsOutside_onCmd (issueKv s none w desc) w _ w' hw'

theorem issuedKv_ops (s : State) (w : Nat) (desc : List W64) : (issuedKv s w desc).kv.ops = s.kv.ops ++ [⟨s.ord.nextId, none, w, desc⟩] := rfl

theorem issuedKv_cmd {s : State} {w : Nat} {c : Cmd} (h : (ringAt s w).cmd = some c) (desc : List W64) :
    (ringAt (issuedKv s w desc) w).cmd = some { c with
      issued := c.issued + 1, phase := if c.issued + 1 = dw c.words 3 0 16 then .ended else c.phase } := by
  have hsame : ringAt (issueKv s none w desc) w = ringAt s w := rfl
  rw [issuedKv, ringAt_onCmd, hsame, h]
  rfl

/-- The next operation of the array that a sound entry names is read and issued. -/
theorem issueNext_issues {s : State} {w : Nat} {c : Cmd} {ps : List (Nat × Nat)}
    (hps : pieces s none (ringPart s w) false false (kvOpsVa c) 48 = .ok ps) (hc : ∀ q ∈ ps, cohPoisonAt s q.1 q.2 = none)
    (hd : kvDescBad (kvEntry s (ringPart s w) (kvOpsVa c)) = false) :
    issueNext s w c = issuedKv (readForRing s w (ringPart s w) (kvOpsVa c) 48 ps) w (kvEntry s (ringPart s w) (kvOpsVa c)) := by
  have hentry : kvEntry s (ringPart s w) (kvOpsVa c) = bytesWords (readPieces s ps).1 := by simp only [kvEntry, hps]
  rw [hentry] at hd ⊢
  unfold issueNext
  simp only [hps, noPoison_findSome hc, hd, Bool.false_eq_true, if_false]
  rfl

theorem cmdKvOps_next (w : RingIx) {c : Cmd} {ps : List (Nat × Nat)} {s : State} (hcmd : (ringAt s w).cmd = some c)
    (hph : c.phase = .running) (hop : opcodeOf c.words = 3) (hab : c.aborting = false) (hcut : s.ras.cut = false) (hq : MemQuiet s)
    (hw : kvOpsWaits s w c = false) (hps : pieces s none (ringPart s w) false false (kvOpsVa c) 48 = .ok ps)
    (hc : ∀ q ∈ ps, cohPoisonAt s q.1 q.2 = none) (hd : kvDescBad (kvEntry s (ringPart s w) (kvOpsVa c)) = false) :
    ∃ t, Runs (.cmdKvOps w) s t ∧
      (ringAt t w).cmd = some { c with issued := c.issued + 1, phase := if c.issued + 1 = dw c.words 3 0 16 then .ended else .running } ∧
      t.kv.ops = s.kv.ops ++ [⟨s.ord.nextId, none, w, kvEntry s (ringPart s w) (kvOpsVa c)⟩] ∧ RingsOutside [w.val] s t := by
  have hrun : Runs (.cmdKvOps w) s (issueNext s w c) := by
    rw [Runs, exec_cmdKvOps, execCmdKvOps]
    simp [hcmd, whenDo, hph, hop, hab, hcut, hw]
  have hframe := readForRing_frame hq w (ringPart s w) (kvOpsVa c) 48 ps
  rw [issueNext_issues hps hc hd] at hrun
  refine ⟨_, hrun, ?_, ?_, ringsOutside_trans (ringsOutside_of_frame hframe) (issuedKv_rings _ _ _)⟩
  · rw [issuedKv_cmd (by rw [hframe.ringAt, hcmd]), hph]
  · rw [issuedKv_ops, hframe.agree .kv (by decide), hframe.agree .ord (by decide)]

end Sys2Proof.Proofs
end

section
/-!
PROOFS. Translation and the reads of module memory do not look at the request rings' status: they find the same after a slot
has been taken as before (R228 to R232).
-/
namespace Sys2Proof.Proofs
open Sys2Proof.Machine Sys2Proof.Safety Sys2Proof.Laws

/-- The status registers of the request rings. -/
def RingStatusesReg (o : Nat) : Prop := 0x310000 ≤ o ∧ o < 0x320000 ∧ o % 256 = 0x50

/-- Module memory, the memory system and every register but the rings' status are as before. -/
structure MapSame (s t : State) : Prop where
  regs : RegsOff RingStatusesReg s t
  mem : t.mem = s.mem
  ms : t.ms = s.ms

theorem ringStatus_statuses {w o : Nat} (hw : w < 64) (h : RingStatusReg w o) : RingStatusesReg o := by
  simp only [RingStatusReg, Fld.at, R.SEQ_RQ_STATUS_STATE] at h
  simp only [RingStatusesReg]
  omega

theorem mapSame_putCmd (s : State) {w : Nat} (hw : w < 64) (x : Taken) (ph : Phase) : MapSame s (putCmd s w x ph) :=
  ⟨(putCmd_regs s w x ph).mono (fun _ h => ringStatus_statuses hw h), putCmd_keeps s w x ph .mem (by decide),
    putCmd_keeps s w x ph .ms (by decide)⟩

section
variable {s t : State} (h : MapSame s t)
include h

theorem MapSame.agree {u : State} {L : List Part} (h' : AgreeOutside L t u)
    (hL : (L.all (fun q => !([Part.mem, .regs, .ms].contains q))) = true) : MapSame s u := by
  have hout : ∀ q ∈ [Part.mem, .regs, .ms], q ∉ L := by
    intro q hq hmem
    have := List.all_eq_true.mp hL q hmem
    simp only [List.contains_eq_mem, Bool.not_eq_true', decide_eq_false_iff_not] at this
    exact this hq
  exact ⟨h.regs.trans (RegsOff.of_agree h' (hout _ (by decide))), (h' .mem (hout _ (by decide))).trans h.mem,
    (h' .ms (hout _ (by decide))).trans h.ms⟩

/-- Fields of registers that are not the rings' status. -/
theorem MapSame.rd {f : Fld} {i j : Nat} (hf : f.at i j < 0x310000 ∨ 0x320000 ≤ f.at i j) : Machine.rd t f i j = Machine.rd s f i j :=
  h.regs.rd (fun ⟨hlo, hhi, _⟩ => by omega)

theorem MapSame.rdB {f : Fld} {i j : Nat} (hf : f.at i j < 0x310000 ∨ 0x320000 ≤ f.at i j) : Machine.rdB t f i j = Machine.rdB s f i j := by
  simp only [Machine.rdB, h.rd hf]

theorem MapSame.ringPart (w : Nat) : Machine.ringPart t w = Machine.ringPart s w :=
  h.regs.rd (fun ⟨_, _, hmod⟩ => by simp only [Fld.at, R.SEQ_RQ_CFG_PARTITION] at hmod; omega)

theorem MapSame.partRanges (p : Nat) : Machine.partRanges t p = Machine.partRanges s p :=
  partRanges_off h.regs (fun _ hlo _ ⟨_, hhi, _⟩ => by omega) p

theorem MapSame.partOffset (p o : Nat) : Machine.partOffset t p o = Machine.partOffset s p o := by
  simp only [Machine.partOffset, h.partRanges]

theorem MapSame.nu : Machine.nu t = Machine.nu s :=
  h.rd (f := R.GLB_GEOMETRY_STACKS_USABLE) (by simp only [Fld.at, R.GLB_GEOMETRY_STACKS_USABLE]; omega)

theorem MapSame.placeOf (pa : Nat) : Machine.placeOf t pa = Machine.placeOf s pa := by
  have h0 : Machine.rd t R.CXL_PORT_CAP_GIB 0 0 = Machine.rd s R.CXL_PORT_CAP_GIB 0 0 := h.rd (by decide)
  have h1 : Machine.rd t R.CXL_PORT_CAP_GIB 1 0 = Machine.rd s R.CXL_PORT_CAP_GIB 1 0 := h.rd (by decide)
  simp only [Machine.placeOf, h.nu, h0, h1]

theorem MapSame.stackOfRank (r : Nat) : Machine.stackOfRank t r = Machine.stackOfRank s r := by
  unfold Machine.stackOfRank
  rw [List.filter_congr (q := fun i => Machine.rdB s R.MEM_STACK_STATUS_FITTED i 0)]
  intro i _
  exact h.rdB (by simp only [Fld.at, R.MEM_STACK_STATUS_FITTED]; omega)

theorem MapSame.bankRowOf (pa : Nat) : Machine.bankRowOf t pa = Machine.bankRowOf s pa := by
  simp only [Machine.bankRowOf, h.nu, homeStack, homeRank, h.stackOfRank]

/-- Whether a read of a line answers poison beside its mark (R210, R227). -/
theorem MapSame.lineLost (l : Nat) : Machine.lineLost t l = Machine.lineLost s l := by
  unfold Machine.lineLost
  rw [h.placeOf]
  cases Machine.placeOf s (l * 64) with
  | near => simp only [lostIn, lineChannelFailed, h.bankRowOf, lineHeld, h.ms]
  | cxl n =>
    have hfailed : Machine.rdB t R.CXL_PORT_STATUS_FAILED n 0 = Machine.rdB s R.CXL_PORT_STATUS_FAILED n 0 :=
      h.rdB (by simp only [Fld.at, R.CXL_PORT_STATUS_FAILED]; omega)
    have hstate : Machine.rd t R.CXL_PORT_STATUS_STATE n 0 = Machine.rd s R.CXL_PORT_STATUS_STATE n 0 :=
      h.rd (by simp only [Fld.at, R.CXL_PORT_STATUS_STATE]; omega)
    simp only [lostIn, hfailed, portUp, hstate, lineHeld, h.ms]
  | host => rfl
  | absent => rfl

theorem MapSame.cohRead (pa n : Nat) : Machine.cohRead t pa n = Machine.cohRead s pa n := by
  have hlost : Machine.lineLost t = Machine.lineLost s := funext h.lineLost
  simp only [Machine.cohRead, h.mem, hlost]

theorem MapSame.cohPoisonAt (pa n : Nat) : Machine.cohPoisonAt t pa n = Machine.cohPoisonAt s pa n := by
  simp only [Machine.cohPoisonAt, h.mem, h.lineLost]

theorem MapSame.readPieces (ps : List (Nat × Nat)) : Machine.readPieces t ps = Machine.readPieces s ps := by
  simp only [Machine.readPieces, h.cohRead]

theorem MapSame.hostMem (p : Nat) : Machine.rdB t R.PRT_CFG_HOST_MEM p 0 = Machine.rdB s R.PRT_CFG_HOST_MEM p 0 :=
  h.rdB (by simp only [Fld.at, R.PRT_CFG_HOST_MEM]; omega)

theorem MapSame.walkFrom (p va : Nat) (write hostOk : Bool) (fuel lev tab : Nat) :
    Machine.walkFrom t p va write hostOk fuel lev tab = Machine.walkFrom s p va write hostOk fuel lev tab := by
  induction fuel generalizing lev tab with
  | zero => rfl
  | succ n ih => simp only [Machine.walkFrom, h.mem, h.hostMem, h.cohRead, h.partOffset, ih]

theorem MapSame.walk (p va : Nat) (write hostOk : Bool) : Machine.walk t p va write hostOk = Machine.walk s p va write hostOk := by
  have hvalid : Machine.rdB t R.DTU_CTX_ROOT_VALID p 0 = Machine.rdB s R.DTU_CTX_ROOT_VALID p 0 :=
    h.rdB (by simp only [Fld.at, R.DTU_CTX_ROOT_VALID]; omega)
  have hroot : ctxRoot t p = ctxRoot s p :=
    congrArg (· * 256) (h.rd (f := R.DTU_CTX_ROOT_ROOT) (by simp only [Fld.at, R.DTU_CTX_ROOT_ROOT]; omega))
  simp only [Machine.walk, hvalid, hroot, h.walkFrom]

theorem MapSame.translate (who : Option Nat) (p va : Nat) (write hostOk : Bool) :
    Machine.translate t who p va write hostOk = Machine.translate s who p va write hostOk := by
  simp only [Machine.translate, cachedXlat_congr h.ms, h.hostMem, h.walk]

theorem MapSame.translateRange (who : Option Nat) (p : Nat) (write hostOk : Bool) (fuel va n : Nat) :
    Machine.translateRange t who p write hostOk fuel va n = Machine.translateRange s who p write hostOk fuel va n := by
  induction fuel generalizing va n with
  | zero => rfl
  | succ k ih => simp only [Machine.translateRange, h.translate, ih]

theorem MapSame.pieces (who : Option Nat) (p : Nat) (write hostOk : Bool) (va n : Nat) :
    Machine.pieces t who p write hostOk va n = Machine.pieces s who p write hostOk va n := h.translateRange who p write hostOk _ va n

/-- An entry of an array of KV operations. -/
theorem MapSame.kvEntry (p va : Nat) : Safety.kvEntry t p va = Safety.kvEntry s p va := by
  simp only [Safety.kvEntry, h.pieces, h.readPieces]

theorem MapSame.memQuiet (hq : MemQuiet s) : MemQuiet t := fun n hn =>
  (h.rdB (by simp only [Fld.at, R.DBG_WP_CFG_ENABLE]; omega)).trans (hq n hn)

end

/-! ### The first operation of KV_OPS (R248) -/

/-- A KV_OPS command in progress with nothing issued. -/
def startedKvOps (s : State) (w : Nat) (x : Taken) : State := commandHint (putCmd s w x .running) w x.words

theorem mapSame_startedKvOps (s : State) {w : Nat} (hw : w < 64) (x : Taken) : MapSame s (startedKvOps s w x) :=
  (mapSame_putCmd s hw x .running).agree (commandHint_keeps _ w x.words) rfl

theorem startedKvOps_agree (s : State) (w : Nat) (x : Taken) : AgreeOutside [.regs, .sch, .pwr] s (startedKvOps s w x) :=
  Agree.step (commandHint_keeps _ w x.words) rfl (Agree.mono (putCmd_keeps s w x .running) rfl)

theorem ringAt_startedKvOps (s : State) (w : Nat) (x : Taken) : ringAt (startedKvOps s w x) w = startedRing s w x .running := by
  rw [startedKvOps, ringAt_congr (commandHint_keeps _ w x.words .sch (by decide)), ringAt_putCmd, if_pos rfl]

theorem ringsOutside_startedKvOps (s : State) (w : Nat) (x : Taken) : RingsOutside [w] s (startedKvOps s w x) :=
  ringsOutside_trans (ringsOutside_putCmd s w x .running) (ringsOutside_of_agree (commandHint_keeps _ w x.words) (by decide))

theorem kvOpsVa_fresh (s : State) (x : Taken) : kvOpsVa (freshCmd s x .running) = dw x.words 2 0 48 := rfl

theorem cmdKvOps_first (w : RingIx) {x : Taken} {ps : List (Nat × Nat)} {s : State} (hf : frontSlot s w 3 = some x)
    (hr : isResident s w = true) (hq : MemQuiet s) (hb : kvOpsBad x.words = false) (hw : kvOpsWaits s w (freshCmd s x .running) = false)
    (hps : pieces s none (ringPart s w) false false (dw x.words 2 0 48) 48 = .ok ps) (hc : ∀ q ∈ ps, cohPoisonAt s q.1 q.2 = none)
    (hd : kvDescBad (kvEntry s (ringPart s w) (dw x.words 2 0 48)) = false) :
    ∃ t, Runs (.cmdKvOps w) s t ∧
      (ringAt t w).cmd = some { freshCmd s x .running with
        issued := 1, phase := if dw x.words 3 0 16 = 1 then .ended else .running } ∧
      t.kv.ops = s.kv.ops ++ [⟨s.ord.nextId, none, w, kvEntry s (ringPart s w) (dw x.words 2 0 48)⟩] ∧
      RingsOutside [w.val] s t ∧ MemOutside 0 0 s t ∧
      AgreeOutside [.mem, .regs, .out, .ms, .sch, .ras, .hst, .pwr, .ord, .kv] s t := by
  have hmap : MapSame s (startedKvOps s w x) := mapSame_startedKvOps s w.isLt x
  have hstart := startedKvOps_agree s w x
  have hrun : Runs (.cmdKvOps w) s (issueNext (startedKvOps s w x) w (freshCmd s x .running)) := by
    rw [Runs, exec_cmdKvOps, execCmdKvOps]
    simp only [frontSlot_idle hf, hf, hr, hb, hw, Bool.true_eq_false, Bool.false_eq_true, if_false]
    rfl
  have hentry : kvEntry (startedKvOps s w x) (ringPart (startedKvOps s w x) w) (kvOpsVa (freshCmd s x .running)) =
      kvEntry s (ringPart s w) (dw x.words 2 0 48) := by rw [hmap.kvEntry, hmap.ringPart, kvOpsVa_fresh]
  rw [issueNext_issues (ps := ps) (by rw [hmap.pieces, hmap.ringPart, kvOpsVa_fresh, hps])
    (fun q hq => (hmap.cohPoisonAt q.1 q.2).trans (hc q hq)) (by rw [hentry, hd]), hentry] at hrun
  have hframe := readForRing_frame (hmap.memQuiet hq) w (ringPart (startedKvOps s w x) w) (kvOpsVa (freshCmd s x .running)) 48 ps
  have hissue := issuedKv_agree (readForRing (startedKvOps s w x) w (ringPart (startedKvOps s w x) w)
    (kvOpsVa (freshCmd s x .running)) 48 ps) w (kvEntry s (ringPart s w) (dw x.words 2 0 48))
  refine ⟨_, hrun, ?_, ?_, ?_, memOutside_of_bytes 0 0 ?_, ?_⟩
  · rw [issuedKv_cmd (c := freshCmd s x .running) (by rw [hframe.ringAt, ringAt_startedKvOps]; rfl)]
    have hlast : ((freshCmd s x .running).issued + 1 = dw (freshCmd s x .running).words 3 0 16) = (dw x.words 3 0 16 = 1) :=
      propext eq_comm
    simp only [hlast]
    rfl
  · rw [issuedKv_ops, hframe.agree .kv (by decide), hframe.agree .ord (by decide), hstart .kv (by decide), hstart .ord (by decide)]
  · exact ringsOutside_trans (ringsOutside_trans (ringsOutside_startedKvOps s w x) (ringsOutside_of_frame hframe)) (issuedKv_rings _ _ _)
  · rw [hissue .mem (by decide), hframe.bytes, hstart .mem (by decide)]
  · exact Agree.trans (Agree.mono hstart rfl) (Agree.trans (Agree.mono hframe.agree rfl) (Agree.mono hissue rfl))

end Sys2Proof.Proofs
end

section
/-!
PROOFS. A copy within one scratchpad (R247): what the writes of its data mover leave.
-/
namespace Sys2Proof.Proofs
open Sys2Proof.Machine Sys2Proof.Safety Sys2Proof.Laws

/-! ### Accesses that no watchpoint and no error meets (R142, R432) -/

theorem spdCheck_quiet {s : State} (h : s.spd.err = []) (c : Nat) (ws : List Nat) : spdCheck s c ws = s := by
  have hnone : ∀ v ≠ 0, ws.filter (fun w => decide (spdErr s.spd w = v)) = [] := by
    intro v hv
    rw [List.filter_eq_nil_iff]
    intro w _
    simp [spdErr, h, SMap.look, Ne.symm hv]
  simp [spdCheck, hnone]

theorem spdAccess_quiet {s : State} {c : Nat} (h : SpdQuiet c s) (a n kind : Nat) (isWrite : Bool) (harp tag : Nat) :
    spdAccess s c a n kind isWrite harp tag = s := by
  obtain ⟨hwatch, herr⟩ := h
  have hread : (if isWrite = true then s else spdCheck s c (spdWords c a n)) = s := by rw [spdCheck_quiet herr, ite_self]
  unfold spdAccess
  dsimp only
  rw [hread]
  simp [hwatch 0 (by decide), hwatch 1 (by decide)]

theorem markWords_err {p : Spd} (h : p.err = []) (a n base : Nat) (bad : Bool) (ws : List Nat) : (markWords p a n base bad ws).err = [] := by
  induction ws generalizing p with
  | nil => exact h
  | cons w t ih =>
    rw [markWords]
    exact ih (by simp [h, SMap.put, SMap.drop])

theorem spdWrite_err {p : Spd} (h : p.err = []) (c a : Nat) (data : List Byte) (bad : Bool) : (spdWrite p c a data bad).err = [] :=
  markWords_err (p := { p with bytes := putBytes p.bytes (spdKey c a) data }) h _ _ _ _ _

theorem putSpd_quiet {s : State} (h : s.spd.err = []) (c a : Nat) (data : List Byte) (bad : Bool) :
    putSpd s c a data bad = { s with spd := spdWrite s.spd c a data bad } := by
  rw [putSpd, spdCheck_quiet h]

/-! ### What the writes of a data mover leave -/

/-- Only scratchpads, registers and cores differ, and core c's scratchpad is quiet. -/
structure MoveFrame (c : Nat) (s t : State) : Prop where
  agree : AgreeOutside [.spd, .regs, .cores] s t
  quiet : SpdQuiet c t

/-- Bytes of a scratchpad after `data` has been written at `a`. -/
def overlaid (p : Spd) (c a : Nat) (data : List Byte) (k : Nat) : Byte :=
  if a ≤ k ∧ k < a + data.length then data.getD (k - a) 0 else spdByte p c k

theorem spdQuiet_countUnits {s : State} {c : Nat} (h : SpdQuiet c s) (k : Nat) : SpdQuiet c (countUnits s c 65 64 k) := by
  obtain ⟨hwatch, herr⟩ := h
  have hregs : RegsOff (· = R.CNT_COUNT.at c 65) s (countUnits s c 65 64 k) := by
    unfold countUnits
    split
    · exact RegsOff.refl _ s
    · refine RegsOff.wr ?_ rfl
      exact RegsOff.of_agree (onCore_keeps s c _) (by decide)
  refine ⟨fun m hm => (hregs.rdB ?_).trans (hwatch m hm), (congrArg Spd.err (countUnits_keeps s c 65 64 k .spd (by decide))).trans herr⟩
  simp only [Fld.at, R.CNT_SPWP_CFG_ENABLE, R.CNT_COUNT]
  omega

section
variable {s : State} {c a : Nat} {data : List Byte}

theorem putSpd_frame (h : SpdQuiet c s) (d : Nat) (bad : Bool) : MoveFrame c s (putSpd s d a data bad) := by
  obtain ⟨hwatch, herr⟩ := h
  rw [putSpd_quiet herr]
  exact ⟨Agree.mono (Agree.with_spd s _) rfl, hwatch, spdWrite_err herr d a data bad⟩

theorem spdByte_putSpd_same (h : SpdQuiet c s) (bad : Bool) (ha : a + data.length ≤ 2 ^ 32) {k : Nat} (hk : k < 2 ^ 32) :
    spdByte (putSpd s c a data bad).spd c k = overlaid s.spd c a data k := by
  rw [putSpd_quiet h.2, spdByte_spdWrite _ _ _ _ _ _ _ ha hk]
  simp [overlaid]

theorem spdByte_putSpd_other (h : SpdQuiet c s) (bad : Bool) (ha : a + data.length ≤ 2 ^ 32) {d k : Nat} (hk : k < 2 ^ 32) (hd : d ≠ c) :
    spdByte (putSpd s d a data bad).spd c k = spdByte s.spd c k := by
  rw [putSpd_quiet h.2, spdByte_spdWrite _ _ _ _ _ _ _ ha hk, if_neg (fun hc => hd hc.1.symm)]

theorem shadowOf_ne {d : Nat} (h : shadowOf s c = some d) : d ≠ c := by
  unfold shadowOf at h
  split at h
  · split at h
    · cases h; omega
    · cases h
  · cases h

theorem spdStore_moves (h : SpdQuiet c s) (kind harp tag : Nat) (bad : Bool) (ha : a + data.length ≤ 2 ^ 32) :
    MoveFrame c s (spdStore s c a kind harp tag data bad) ∧
      ∀ k < 2 ^ 32, spdByte (spdStore s c a kind harp tag data bad).spd c k = overlaid s.spd c a data k := by
  have hcount := spdQuiet_countUnits h data.length
  have hkeep := countUnits_keeps s c 65 64 data.length
  have hput : MoveFrame c (countUnits s c 65 64 data.length) (putSpd (countUnits s c 65 64 data.length) c a data bad) :=
    putSpd_frame hcount c bad
  have hagree : AgreeOutside [.spd, .regs, .cores] s (putSpd (countUnits s c 65 64 data.length) c a data bad) :=
    Agree.trans (Agree.mono hkeep rfl) hput.agree
  have hbytes : ∀ k < 2 ^ 32, spdByte (putSpd (countUnits s c 65 64 data.length) c a data bad).spd c k = overlaid s.spd c a data k := by
    intro k hk
    rw [spdByte_putSpd_same hcount bad ha hk, hkeep .spd (by decide)]
  unfold spdStore
  dsimp only
  rw [spdAccess_quiet h]
  split
  · rename_i d hd
    have hshadow : MoveFrame c _ (putSpd (putSpd (countUnits s c 65 64 data.length) c a data bad) d a data bad) := putSpd_frame hput.quiet d bad
    exact ⟨⟨Agree.trans hagree hshadow.agree, hshadow.quiet⟩,
      fun k hk => (spdByte_putSpd_other hput.quiet bad ha hk (shadowOf_ne hd)).trans (hbytes k hk)⟩
  · exact ⟨⟨hagree, hput.quiet⟩, hbytes⟩

end

/-- A row of bytes written up to offset j at dst, with everything else of the scratchpad as it was. -/
structure Moved (c dst : Nat) (bytes : List Byte) (s : State) (j : Nat) (t : State) : Prop where
  frame : MoveFrame c s t
  holds : ∀ k < 2 ^ 32, spdByte t.spd c k = overlaid s.spd c dst (bytes.take j) k

/-- Bytes o to o + m of the row. -/
def segment (bytes : List Byte) (o m : Nat) : List Byte := (bytes.drop o).take m

theorem segment_fits {bytes : List Byte} {dst o : Nat} (hfit : dst + bytes.length ≤ 2 ^ 32) (ho : o ≤ bytes.length) (m : Nat) :
    dst + o + (segment bytes o m).length ≤ 2 ^ 32 := by
  simp only [segment, List.length_take, List.length_drop]; omega

theorem getD_segment (bytes : List Byte) (o : Nat) {m i : Nat} (hi : i < m) : (segment bytes o m).getD i 0 = bytes.getD (o + i) 0 := by
  simp [segment, List.getD_eq_getElem?_getD, hi]

theorem getD_take (bytes : List Byte) {j i : Nat} (hi : i < j) : (bytes.take j).getD i 0 = bytes.getD i 0 := by
  simp [List.getD_eq_getElem?_getD, hi]

/-- A segment written over a row that has reached it extends the row. -/
theorem overlaid_segment (p q : Spd) {c dst j o : Nat} {bytes : List Byte} (m k : Nat) (ho : o ≤ j)
    (hq : spdByte q c k = overlaid p c dst (bytes.take j) k) :
    overlaid q c (dst + o) (segment bytes o m) k = overlaid p c dst (bytes.take (max j (o + m))) k := by
  unfold overlaid at hq ⊢
  rw [hq]
  have hlen : (segment bytes o m).length = min m (bytes.length - o) := by simp [segment]
  simp only [hlen, List.length_take]
  by_cases hseg : dst + o ≤ k ∧ k < dst + o + min m (bytes.length - o)
  · have hin : dst ≤ k ∧ k < dst + min (max j (o + m)) bytes.length := by omega
    have hoff : o + (k - (dst + o)) = k - dst := by omega
    rw [if_pos hseg, if_pos hin, getD_segment _ _ (by omega), hoff, getD_take _ (by omega)]
  · rw [if_neg hseg]
    by_cases hold : dst ≤ k ∧ k < dst + min j bytes.length
    · have hin : dst ≤ k ∧ k < dst + min (max j (o + m)) bytes.length := by omega
      rw [if_pos hold, if_pos hin, getD_take _ (by omega), getD_take _ (by omega)]
    · rw [if_neg hold, if_neg (by omega)]

section
variable {c dst j o : Nat} {bytes : List Byte} {s t : State}

theorem Moved.store (h : Moved c dst bytes s j t) (hfit : dst + bytes.length ≤ 2 ^ 32) (ho : o ≤ j) (hlen : o ≤ bytes.length) (kind m : Nat) :
    Moved c dst bytes s (max j (o + m)) (spdStore t c (dst + o) kind 0 0 (segment bytes o m) false) := by
  obtain ⟨hframe, hbytes⟩ := spdStore_moves h.frame.quiet kind 0 0 false (segment_fits hfit hlen m)
  exact ⟨⟨Agree.trans h.frame.agree hframe.agree, hframe.quiet⟩,
    fun k hk => (hbytes k hk).trans (overlaid_segment _ _ m k ho (h.holds k hk))⟩

theorem Moved.put (h : Moved c dst bytes s j t) (hfit : dst + bytes.length ≤ 2 ^ 32) (ho : o ≤ j) (hlen : o ≤ bytes.length) (m : Nat) (bad : Bool) :
    Moved c dst bytes s (max j (o + m)) (putSpd t c (dst + o) (segment bytes o m) bad) := by
  have hframe : MoveFrame c t (putSpd t c (dst + o) (segment bytes o m) bad) := putSpd_frame h.frame.quiet c bad
  exact ⟨⟨Agree.trans h.frame.agree hframe.agree, hframe.quiet⟩,
    fun k hk => (spdByte_putSpd_same h.frame.quiet bad (segment_fits hfit hlen m) hk).trans (overlaid_segment _ _ m k ho (h.holds k hk))⟩

/-- A row that has reached its end is the same however far beyond it the offset runs. -/
theorem Moved.whole (h : Moved c dst bytes s j t) (hj : bytes.length ≤ j) {i : Nat} (hi : bytes.length ≤ i) : Moved c dst bytes s i t :=
  ⟨h.frame, fun k hk => by rw [h.holds k hk, List.take_of_length_le hj, List.take_of_length_le hi]⟩

theorem Moved.start (h : SpdQuiet c s) : Moved c dst bytes s 0 s :=
  ⟨⟨Agree.refl _ s, h⟩, fun k _ => by rw [overlaid, if_neg (by simp)]⟩

end

/-- One step of a move in segments of 512 B: nothing where the row has been written. -/
def moveStep (c kind dst : Nat) (bytes : List Byte) (st : State × Nat) (i : Nat) : State × Nat :=
  if i < st.2 then st else (spdStore st.1 c (dst + i) kind 0 0 (segment bytes i 512) false, i + 512)

/-- The marks of a move, put over the words that the row poisons. -/
def markStep (c dst : Nat) (bytes : List Byte) (poison : Nat → Bool) (s : State) (q : Nat) : State :=
  if poison (8 * q) then putSpd s c (dst + 8 * q) (segment bytes (8 * q) 8) true else s

theorem storeMoved_eq (s : State) (c kind dst : Nat) (bytes : List Byte) (poison : Nat → Bool) :
    storeMoved s c kind bytes poison (fun k => dst + k) (fun _ => 512) =
      (List.range ((bytes.length + 7) / 8)).foldl (markStep c dst bytes poison)
        ((List.range bytes.length).foldl (moveStep c kind dst bytes) (s, 0)).1 := rfl

section
variable {c dst : Nat} {bytes : List Byte} {s : State}

theorem moveSteps_move (h : SpdQuiet c s) (hfit : dst + bytes.length ≤ 2 ^ 32) (kind n : Nat) (hn : n ≤ bytes.length) :
    n ≤ ((List.range n).foldl (moveStep c kind dst bytes) (s, 0)).2 ∧
      Moved c dst bytes s ((List.range n).foldl (moveStep c kind dst bytes) (s, 0)).2 ((List.range n).foldl (moveStep c kind dst bytes) (s, 0)).1 := by
  induction n with
  | zero => exact ⟨Nat.le_refl 0, Moved.start h⟩
  | succ n ih =>
    obtain ⟨hreached, hmoved⟩ := ih (by omega)
    rw [List.range_succ, List.foldl_append, List.foldl_cons, List.foldl_nil]
    generalize (List.range n).foldl (moveStep c kind dst bytes) (s, 0) = st at hreached hmoved ⊢
    unfold moveStep
    split
    · rename_i hlt
      exact ⟨hlt, hmoved⟩
    · have hat : st.2 = n := by omega
      have hnext := hmoved.store hfit hreached (by omega) kind 512
      rw [hat, max_eq_right (by omega)] at hnext
      exact ⟨by dsimp only; omega, hnext⟩

theorem storeMoved_moves (h : SpdQuiet c s) (hfit : dst + bytes.length ≤ 2 ^ 32) (kind : Nat) (poison : Nat → Bool) :
    Moved c dst bytes s bytes.length (storeMoved s c kind bytes poison (fun k => dst + k) (fun _ => 512)) := by
  obtain ⟨hreached, hmoved⟩ := moveSteps_move h hfit kind bytes.length (Nat.le_refl _)
  rw [storeMoved_eq]
  refine List.foldlRecOn _ _ (hmoved.whole hreached (Nat.le_refl _)) (fun v hv q hq => ?_)
  have hq' := List.mem_range.mp hq
  unfold markStep
  split
  · exact (hv.put hfit (by omega) (by omega) 8 true).whole (by omega) (Nat.le_refl _)
  · exact hv

end

/-! ### The command (R247) -/

/-- A COPY of one row within core m's scratchpad stands at the front of ring w, its checks accept it, and nothing holds it back. -/
structure PadCopy (w : RingIx) (x : Taken) (m : Nat) (s : State) : Prop where
  front : frontSlot s w 2 = some x
  resident : isResident s w = true
  encoded : copyBad x.words = false
  srcSpd : cpSrcSpd x.words = true
  dstSpd : cpDstSpd x.words = true
  srcCore : cpSrcCore x.words = m
  dstCore : cpDstCore x.words = m
  rows : cpRows x.words = 1
  notRetired : m ∉ (ringAt s w).retired
  placed : copyPlaceBad s w m = false
  within : copyBeyond x.words = false
  ready : coresReady s [m] = true
  apart : copyOverlaps x.words = false
  quiet : SpdQuiet m s
  unwatched : rdB s R.SPD_OVERLAP_CTL_ACTIVE m 0 = false

/-- A COPY command in progress, its retired cores avoided. -/
def startedCopy (s : State) (w : Nat) (x : Taken) : State :=
  commandHint (avoidRetired (putCmd s w x .running) w (copyCores x.words)) w x.words

/-- A copy of one row whose data have moved. -/
def movedCopy (s : State) (w m : Nat) (x : Taken) : State :=
  (copyCores x.words).foldl (fun s c => release s c 40000)
    (copyOut (startedCopy s w x) w (ringPart (startedCopy s w x) w) m x.words 0
      (spdRead (startedCopy s w x).spd m (cpSrc x.words + 0 * cpSrcStride x.words) (cpBytes x.words))
      (fun k => spdPoison (startedCopy s w x).spd m (cpSrc x.words + 0 * cpSrcStride x.words + k) 8))

section
variable {w : RingIx} {x : Taken} {m : Nat} {s : State}

theorem startedCopy_agree : AgreeOutside [.regs, .sch, .pwr] s (startedCopy s w x) :=
  Agree.step (commandHint_keeps _ _ _) rfl (Agree.step (onRing_keeps _ _ _) rfl (Agree.mono (putCmd_keeps s w x .running) rfl))

theorem startedCopy_regs : RegsOff (RingStatusReg w) s (startedCopy s w x) :=
  ((putCmd_regs s w x .running).trans (RegsOff.of_agree (onRing_keeps _ _ _) (by decide))).trans
    (RegsOff.of_agree (commandHint_keeps _ w x.words) (by decide))

theorem startedCopy_cmd : (ringAt (startedCopy s w x) w).cmd = some (freshCmd s x .running) := by
  rw [startedCopy, ringAt_congr (commandHint_keeps _ w x.words .sch (by decide)), avoidRetired, ringAt_onRing, if_pos rfl, ringAt_putCmd,
    if_pos rfl]
  rfl

theorem startedCopy_rings : RingsOutside [w.val] s (startedCopy s w x) :=
  ringsOutside_trans (ringsOutside_trans (ringsOutside_putCmd s w x .running) (ringsOutside_onRing _ _ _))
    (ringsOutside_of_agree (commandHint_keeps _ w x.words) (by decide))

/-- No register of the cores' windows is a ring's status. -/
theorem not_ringStatus_window {o : Nat} (h : WindowReg o) : ¬ RingStatusReg w o := by
  have := w.isLt
  simp only [WindowReg] at h
  simp only [RingStatusReg, Fld.at, R.SEQ_RQ_STATUS_STATE]
  omega

theorem spdQuiet_startedCopy (h : SpdQuiet m s) : SpdQuiet m (startedCopy s w x) := by
  obtain ⟨hwatch, herr⟩ := h
  refine ⟨fun k hk => (startedCopy_regs.rdB (not_ringStatus_window ?_)).trans (hwatch k hk),
    (congrArg Spd.err (startedCopy_agree .spd (by decide))).trans herr⟩
  simp only [WindowReg, Fld.at, R.CNT_SPWP_CFG_ENABLE]
  omega

theorem overlapOff_startedCopy (h : rdB s R.SPD_OVERLAP_CTL_ACTIVE m 0 = false) :
    rdB (startedCopy s w x) R.SPD_OVERLAP_CTL_ACTIVE m 0 = false := by
  refine (startedCopy_regs.rdB (not_ringStatus_window ?_)).trans h
  simp only [WindowReg, Fld.at, R.SPD_OVERLAP_CTL_ACTIVE]
  omega

theorem register_off {v : State} (h : rdB v R.SPD_OVERLAP_CTL_ACTIVE m 0 = false) (fs : List Footprint) : register v m fs = .ok v := by
  simp [register, h]

/-- Only footprints and their counts follow the data. -/
theorem releases_keep (v : State) (cs : List Nat) : AgreeOutside [.regs, .cores] v (cs.foldl (fun s c => release s c 40000) v) :=
  Agree.foldl (fun u c => release_keeps u c 40000) (Agree.refl _ v)

theorem movedCopy_moves (hdst : cpDstSpd x.words = true) (hcore : cpDstCore x.words = m) (hfit : cpDst x.words + cpBytes x.words ≤ 2 ^ 32)
    (hq : SpdQuiet m s) : AgreeOutside [.spd, .regs, .cores] (startedCopy s w x) (movedCopy s w m x) ∧
      ∀ k < 2 ^ 32, spdByte (movedCopy s w m x).spd m k =
        overlaid s.spd m (cpDst x.words) (spdRead s.spd m (cpSrc x.words) (cpBytes x.words)) k := by
  have hspd : (startedCopy s w x).spd = s.spd := startedCopy_agree .spd (by decide)
  have hlen : (spdRead s.spd m (cpSrc x.words) (cpBytes x.words)).length = cpBytes x.words := by simp [spdRead]
  have hmoved := storeMoved_moves (bytes := spdRead s.spd m (cpSrc x.words) (cpBytes x.words)) (dst := cpDst x.words)
    (spdQuiet_startedCopy (w := w) (x := x) hq) (by rw [hlen]; exact hfit) 4 (fun k => spdPoison s.spd m (cpSrc x.words + k) 8)
  obtain ⟨hframe, hbytes⟩ := hmoved
  unfold movedCopy
  simp only [copyOut, hdst, hcore, and_self, if_true, hspd, Nat.zero_mul, Nat.add_zero]
  have hrelease := releases_keep (storeMoved (startedCopy s w x) m 4 (spdRead s.spd m (cpSrc x.words) (cpBytes x.words))
    (fun k => spdPoison s.spd m (cpSrc x.words + k) 8) (fun k => cpDst x.words + k) (fun _ => 512)) (copyCores x.words)
  refine ⟨Agree.step hrelease rfl hframe.agree, fun k hk => ?_⟩
  rw [hrelease .spd (by decide), hbytes k hk, List.take_length, hspd]

theorem cmdCopy_runs (h : PadCopy w x m s) :
    Runs (.cmdCopy w) s (onCmd (movedCopy s w m x) w (fun c => if c.phase = .running then { c with phase := .ended } else c)) := by
  obtain ⟨hf, hr, hb, hsrc, hdst, hsc, hdc, hrows, hret, hplace, hbeyond, hready, hover, hq, hoff⟩ := h
  have hcores : copyCores x.words = [m, m] := by simp [copyCores, hsrc, hdst, hsc, hdc]
  have hmover : copyMover s w x.words = m := by simp [copyMover, hsrc, hsc]
  have hwaits : copyWaits s (ringPart s w) m x.words = false := by simp [copyWaits, hsrc, hdst]
  have hretired : (copyCores x.words).find? (fun c => decide (c ∈ (ringAt s w).retired)) = none := by simp [hcores, hret]
  have hplaces : (copyCores x.words ++ [m]).find? (copyPlaceBad s w) = none := by simp [hcores, hplace]
  have hreg : registerCopy (startedCopy s w x) x.words = .ok (startedCopy s w x) := by
    simp [registerCopy, hsrc, hdst, hsc, hdc, register_off (overlapOff_startedCopy hoff)]
  have hsome : (copyCores x.words).isEmpty = false := by simp [hcores]
  have hruns : cmdRuns (startedCopy s w x) w = true := by simp [cmdRuns, startedCopy_cmd, freshCmd]
  have hrow : copyRow (startedCopy s w x) w (ringPart (startedCopy s w x) w) m x.words false 0 =
      copyOut (startedCopy s w x) w (ringPart (startedCopy s w x) w) m x.words 0
        (spdRead (startedCopy s w x).spd m (cpSrc x.words + 0 * cpSrcStride x.words) (cpBytes x.words))
        (fun k => spdPoison (startedCopy s w x).spd m (cpSrc x.words + 0 * cpSrcStride x.words + k) 8) := by
    simp only [copyRow, hsrc, Bool.false_eq_true, if_false, if_true, spdAccess_quiet (spdQuiet_startedCopy hq)]
  have hstart : commandHint (avoidRetired (putCmd s w x .running) w (copyCores x.words)) w x.words = startedCopy s w x := rfl
  have hone : List.range 1 = [0] := rfl
  rw [Runs, exec_cmdCopy, execCmdCopy]
  simp only [hf, hr, hb, hretired, hmover, hplaces, hbeyond, hready, hwaits, hsome, hstart, hreg, hover, hrows, hone, List.foldl_cons,
    List.foldl_nil, hruns, hrow, Bool.true_eq_false, Bool.false_eq_true, Bool.not_true, if_false, if_true]
  rfl

theorem cmdCopy_copies (h : PadCopy w x m s) :
    ∃ t, Runs (.cmdCopy w) s t ∧ (ringAt t w).cmd = some (freshCmd s x .ended) ∧
      spdRead t.spd m (cpDst x.words) (cpBytes x.words) = spdRead s.spd m (cpSrc x.words) (cpBytes x.words) ∧
      (∀ a < 2 ^ 32, (a < cpDst x.words ∨ cpDst x.words + cpBytes x.words ≤ a) → spdByte t.spd m a = spdByte s.spd m a) ∧
      RingsOutside [w.val] s t ∧ AgreeOutside [.spd, .regs, .cores, .sch, .pwr] s t := by
  have hroom : cpDst x.words + cpBytes x.words ≤ 2 ^ 32 := by
    have hwithin := h.within
    simp [copyBeyond, h.srcSpd, h.dstSpd, h.rows, spdBytes] at hwithin
    omega
  have hlen : (spdRead s.spd m (cpSrc x.words) (cpBytes x.words)).length = cpBytes x.words := by simp [spdRead]
  obtain ⟨hagree, hbytes⟩ := movedCopy_moves (w := w) h.dstSpd h.dstCore hroom h.quiet
  have hring : ringAt (movedCopy s w m x) w = ringAt (startedCopy s w x) w := ringAt_congr (hagree .sch (by decide)) w
  have hstart : AgreeOutside [.regs, .sch, .pwr] s (startedCopy s w x) := startedCopy_agree
  refine ⟨_, cmdCopy_runs h, ?_, ?_, fun a ha hout => ?_, ?_, ?_⟩
  · rw [ringAt_onCmd, hring, startedCopy_cmd]; rfl
  · refine List.map_congr_left (fun i hi => ?_)
    have hi' := List.mem_range.mp hi
    have hoffset : cpDst x.words + i - cpDst x.words = i := by omega
    have hin : cpDst x.words ≤ cpDst x.words + i ∧ cpDst x.words + i < cpDst x.words + cpBytes x.words := by omega
    refine (hbytes _ (by omega)).trans ?_
    rw [overlaid, hlen, if_pos hin, hoffset]
    simp [spdRead, List.getD_eq_getElem?_getD, hi']
  · refine (hbytes a ha).trans ?_
    rw [overlaid, hlen, if_neg (by omega)]
  · exact ringsOutside_trans (ringsOutside_trans startedCopy_rings (ringsOutside_of_agree hagree (by decide))) (ringsOutside_onCmd _ _ _)
  · exact Agree.step (onCmd_keeps _ _ _) rfl (Agree.trans (Agree.mono hstart rfl) (Agree.mono hagree rfl))

end

/-! ### The obligation -/

/-- Settles O29: each clause is what the command's own lemmas say of it. -/
theorem commandsBegin : Obligations.CommandsBegin := by
  unfold Obligations.CommandsBegin
  refine ⟨fun w x ps es s hf hq hb hw hps hc hes => ?_, fun w x m s hf hr hb hsrc hdst hsc hdc hrows hret hplace hbeyond hready hover hq hoff =>
    cmdCopy_copies ⟨hf, hr, hb, hsrc, hdst, hsc, hdc, hrows, hret, hplace, hbeyond, hready, hover, hq, hoff⟩, fun w x ps s => cmdKvOps_first w,
    fun w c ps s => cmdKvOps_next w, fun w x s => cmdNop_ends w⟩
  obtain ⟨hrunning, hrings, hmem, hagree⟩ := judgedTable_frame (w := w) (x := x) (ps := ps) (es := es) hq
  exact ⟨_, cmdKernel_runs hf hb hw hps hc hes, judgedTable_taken hq, hrunning, judgedTable_waits hq, fun _ _ h => judgedTable_ends hq h,
    hrings, hmem, hagree⟩

end Sys2Proof.Proofs
end

section
/-!
PROOFS. What a module reset leaves (R10, R16, R127, R342): the reset columns of the registers, and the fresh record of every unit.
-/
namespace Sys2Proof.Proofs
open Sys2Proof.Machine Sys2Proof.Safety Sys2Proof.Laws

/-! ### Units and memory -/

theorem coreAt_reset (c : Nat) : coreAt State.reset c = Core.fresh := rfl

theorem ringAt_reset (w : Nat) : ringAt State.reset w = Ring.fresh := rfl

theorem memByte_reset (a : Nat) : memByte State.reset.mem a = 0 := rfl

theorem memPoison_reset (line : Nat) : memPoison State.reset.mem line = false := rfl

/-! ### Reset columns -/

theorem spdSize_reset : ∀ c : CoreIx, rd State.reset R.SPD_SIZE_BYTES c 0 = 0x200000 ∧ rd State.reset R.SPD_SIZE_ROWS c 0 = 0x1000 := by
  decide +kernel

theorem coreMap_reset : ∀ i < 5, rd State.reset R.GLB_CORE_MAP_USABLE i 0 = 0 := by decide +kernel

/-- Before stage 2 the floor plan names no usable core (R26). -/
theorem coreUsable_reset (c : CoreIx) : coreUsable State.reset c = false := by
  have hmap := coreMap_reset (c / 64) (by omega)
  simp [coreUsable, hmap]

theorem geometry_reset : rd State.reset R.GLB_GEOMETRY_GRID_X 0 0 = 18 ∧ rd State.reset R.GLB_GEOMETRY_GRID_Y 0 0 = 16 ∧
    rd State.reset R.GLB_GEOMETRY_HARPS_PER_CORE 0 0 = 8 := by decide +kernel

theorem limits_reset : rd State.reset R.PWR_LIMIT_LIMIT_W 0 0 = 2400 ∧ rd State.reset R.PWR_LIMIT_THERM_LIMIT_C 0 0 = 95 ∧
    rd State.reset R.PWR_LIMIT_DEEP_IDLE_MS 0 0 = 10 ∧ rd State.reset R.PWR_LIMIT_CORE_SLEEP_US 0 0 = 20 ∧
    rd State.reset R.CLK_CTL_MAX_MHZ 0 0 = 1800 ∧ rdB State.reset R.CLK_STATUS_LOCKED 0 0 = false := by decide +kernel

theorem regionLimits_reset : ∀ k : RailIx, rd State.reset R.PWR_REGION_LIM_LIM_1US k 0 = 260 ∧
    rd State.reset R.PWR_REGION_LIM_LIM_10US k 0 = 240 ∧ rd State.reset R.PWR_REGION_LIM_LIM_100US k 0 = 220 ∧
    rd State.reset R.PWR_REGION_LIM_PRECHARGE_MV k 0 = 15 := by decide +kernel

theorem schedule_reset : rd State.reset R.SEQ_SCHED_SLICE_US 0 0 = 2000 ∧ rd State.reset R.SEQ_SCHED_BEAT_LIMIT_US 0 0 = 1000 ∧
    rd State.reset R.RAS_HALT_CTL_LEAD_NS 0 0 = 2000 ∧ rd State.reset R.RAS_FIT_CFG_PERIOD_H 0 0 = 24 := by decide +kernel

/-- Stage 0 of bring-up runs (R373). -/
theorem boot_reset : rd State.reset R.BOOT_STATE_STATE 0 0 = 0 ∧ rd State.reset R.BOOT_STATE_STAGE 0 0 = 0 ∧
    stageRuns State.reset 0 = true := by decide +kernel

theorem partitions_reset : ∀ p : PartIx, rdB State.reset R.PRT_CFG_VALID p 0 = false := by decide +kernel

theorem linkState_reset : ∀ l : LinkIx, linkState State.reset l = 0 := by decide +kernel

theorem ringState_reset : ∀ w : RingIx, ringState State.reset w = 0 := by decide +kernel

/-! ### The obligation -/

/-- Settles O54: the reset columns evaluate to the values named, and an unlisted unit is in its fresh record. -/
theorem resetState : Obligations.ResetState := by
  unfold Obligations.ResetState
  refine ⟨fun c => ?_, geometry_reset, limits_reset, regionLimits_reset, schedule_reset, boot_reset, partitions_reset, linkState_reset,
    fun w => ?_, fun a => ⟨memByte_reset a, memPoison_reset a⟩⟩
  · obtain ⟨hbytes, hrows⟩ := spdSize_reset c
    rw [coreAt_reset]
    exact ⟨hbytes, hrows, rfl, rfl, coreUsable_reset c⟩
  · rw [ringAt_reset]
    exact ⟨rfl, ringState_reset w⟩

end Sys2Proof.Proofs
end

section
/-!
PROOFS. What a write meets at its home slice where its line takes the place of another (R215, R226, R227): which registers an
error record can change, the failing of a port's range, and the writes that are discarded.
-/
namespace Sys2Proof.Proofs
open Sys2Proof.Machine Sys2Proof.Safety Sys2Proof.Laws

/-! ### Registers that an error record can change (R253, R255, R398) -/

/-- Registers of the completion rings and of the scheduler's and the error log's status: the registers of `RecordReg` but those
of the CXL ports. -/
def ErrLogReg (o : Nat) : Prop := o = 0x300018 ∨ (0x320000 ≤ o ∧ o < 0x321000) ∨ o = 0xd00000

theorem errLogReg_cq {q : Nat} (hq : q < 64) :
    ErrLogReg (R.SEQ_CQ_STATUS_PRODUCED.at q 0) ∧ ErrLogReg (R.SEQ_CQ_STATUS_GEN.at q 0) ∧
      ErrLogReg (R.SEQ_CQ_STATUS_FULL.at q 0) ∧ ErrLogReg (R.SEQ_CQ_STATUS_HELD.at q 0) := by
  simp only [ErrLogReg, Fld.at, R.SEQ_CQ_STATUS_PRODUCED, R.SEQ_CQ_STATUS_GEN, R.SEQ_CQ_STATUS_FULL, R.SEQ_CQ_STATUS_HELD]
  omega

theorem errLogReg_status : ErrLogReg (R.SEQ_STATUS_HELD.at 0 0) ∧ ErrLogReg (R.SEQ_STATUS_EVT_DROPPED.at 0 0) ∧
    ErrLogReg (R.RAS_ERR_STATUS_WRITTEN.at 0 0) ∧ ErrLogReg (R.RAS_ERR_STATUS_HELD.at 0 0) := by
  simp [ErrLogReg, Fld.at, R.SEQ_STATUS_HELD, R.SEQ_STATUS_EVT_DROPPED, R.RAS_ERR_STATUS_WRITTEN, R.RAS_ERR_STATUS_HELD]

theorem deliver_regs {s t : State} {r : HeldRec} (hq : r.cq < 64) (h : deliver s r = some t) : RegsOff ErrLogReg s t := by
  obtain ⟨hprod, hgen, hfull, hheld⟩ := errLogReg_cq hq
  unfold deliver at h
  split at h
  · cases h
    unfold writeRecord
    dsimp only
    refine RegsOff.trans (RegsOff.wr ?_ hfull) (RegsOff.of_agree (signalIrq_keeps _ _ _) (by decide))
    split
    · exact RegsOff.wr (RegsOff.wr (RegsOff.of_regs rfl) hprod) hgen
    · exact RegsOff.wr (RegsOff.of_regs rfl) hprod
  · split at h
    · cases h; exact RegsOff.wr (RegsOff.wr (RegsOff.of_regs rfl) hheld) errLogReg_status.1
    · cases h

theorem postEvent_regs (s : State) (p : Option Nat) (code a b c : Nat) : RegsOff ErrLogReg s (postEvent s p code a b c) := by
  have hdrop : RegsOff ErrLogReg s (addSat s R.SEQ_STATUS_EVT_DROPPED 0 0 1) := RegsOff.of_wr s _ errLogReg_status.2.1
  unfold postEvent
  split
  · exact hdrop
  · rename_i q hq
    split
    · exact deliver_regs (eventRing_lt hq) ‹_›
    · exact hdrop

theorem logErr_regs (s : State) (e : ErrInfo) : RegsOff ErrLogReg s (logErr s e) := by
  obtain ⟨-, -, hwritten, hheld⟩ := errLogReg_status
  have hras : ∀ r, RegsOff ErrLogReg s { s with ras := r } := fun _ => RegsOff.of_regs rfl
  unfold logErr errRecord evErrorRecord
  dsimp only
  split
  · split
    · exact hras _
    · exact (((hras _).wr hwritten).wr hheld).trans (postEvent_regs _ _ _ _ _ _)
  · exact (((hras _).wr hwritten).wr hheld).trans (postEvent_regs _ _ _ _ _ _)

theorem not_errLogReg_port {n : Nat} (hn : n < 2) : ¬ ErrLogReg (R.CXL_PORT_STATUS_FAILED.at n 0) := by
  simp only [ErrLogReg, Fld.at, R.CXL_PORT_STATUS_FAILED]; omega

/-- A port whose range fails shows it (R227). -/
theorem failPort_fails (s : State) {n : Nat} (hn : n < 2) : rdB (failPort s n) R.CXL_PORT_STATUS_FAILED n 0 = true := by
  unfold failPort
  split
  · assumption
  · rw [(logErr_regs _ _).rdB (not_errLogReg_port hn), rdB_eq, rd_wr_self _ _ _ _ _ (by decide)]
    rfl

theorem failPort_regs (s : State) (n : Nat) :
    RegsOff (fun o => ErrLogReg o ∨ o = R.CXL_PORT_STATUS_FAILED.at n 0) s (failPort s n) := by
  unfold failPort
  split
  · exact RegsOff.refl _ s
  · exact (RegsOff.of_wr s _ (Or.inr rfl)).trans ((logErr_regs _ _).mono (fun _ => Or.inl))

/-! ### Where a line lies after an error record (R211, R213, R214) -/

section
variable {P : Nat → Prop} {s t : State}

theorem placeOf_off (h : RegsOff P s t) (hnu : ¬ P 0x8) (h0 : ¬ P 0xa00008) (h1 : ¬ P 0xa01008) (pa : Nat) :
    placeOf t pa = placeOf s pa := by
  have hn : nu t = nu s := h.rd hnu
  have hcap0 : rd t R.CXL_PORT_CAP_GIB 0 0 = rd s R.CXL_PORT_CAP_GIB 0 0 := h.rd h0
  have hcap1 : rd t R.CXL_PORT_CAP_GIB 1 0 = rd s R.CXL_PORT_CAP_GIB 1 0 := h.rd h1
  simp only [placeOf, hn, hcap0, hcap1]

theorem lineSlice_errLog (h : RegsOff ErrLogReg s t) (line : Nat) : lineSlice t line = lineSlice s line := by
  have hn : nu t = nu s := h.rd (by simp [ErrLogReg, Fld.at, R.GLB_GEOMETRY_STACKS_USABLE])
  have hfitted : (List.range 12).filter (fun i => rdB t R.MEM_STACK_STATUS_FITTED i 0) =
      (List.range 12).filter (fun i => rdB s R.MEM_STACK_STATUS_FITTED i 0) := by
    refine List.filter_congr (fun i hi => h.rdB ?_)
    have hlt := List.mem_range.mp hi
    simp only [ErrLogReg, Fld.at, R.MEM_STACK_STATUS_FITTED]
    omega
  simp only [lineSlice, homeStack, homeRank, stackOfRank, hn, hfitted]

/-- The data of a line are lost as it leaves its slice with the port down and the write-back buffer full (R227). -/
def lineDropped (s : State) (n line : Nat) : State :=
  let u := logErr s ⟨0x0201, 3, 6, n, ownerOf s (line * 64), some (line * 64), none, none, n, 0⟩
  { u with mem := memMark u.mem line }

theorem lineDropped_regs (s : State) (n line : Nat) : RegsOff ErrLogReg s (lineDropped s n line) :=
  (logErr_regs s _).trans (RegsOff.of_regs rfl)

theorem lineDropped_ms (s : State) (n line : Nat) : (lineDropped s n line).ms = s.ms := logErr_keeps s _ .ms (by decide)

/-- A dirty line that leaves its slice with the port down, the write-back buffer full and the lost list full fails the port's
range (R227). -/
theorem evictDown_overflows {n line : Nat} (hheld : line ∉ s.ms.wbHeld) (hlost : line ∉ s.ms.lost)
    (hbuffer : 256 ≤ (ofSlice s (lineSlice s line) s.ms.wbHeld).length)
    (hlist : 256 ≤ (ofSlice s (lineSlice s line) s.ms.lost).length) :
    evictDown s n line = failPort (lineDropped s n line) n := by
  have hlost' : line ∉ (lineDropped s n line).ms.lost := by rwa [lineDropped_ms]
  have hslice : ofSlice (lineDropped s n line) = ofSlice s := by
    funext k ls
    simp only [ofSlice, lineSlice_errLog (lineDropped_regs s n line)]
  have hlist' : ¬ (ofSlice (lineDropped s n line) (lineSlice s line) (lineDropped s n line).ms.lost).length < 256 := by
    rw [hslice, lineDropped_ms]; omega
  calc evictDown s n line
      = if line ∈ (lineDropped s n line).ms.lost then lineDropped s n line
        else if (ofSlice (lineDropped s n line) (lineSlice s line) (lineDropped s n line).ms.lost).length < 256 then
          { lineDropped s n line with ms := { (lineDropped s n line).ms with lost := (lineDropped s n line).ms.lost ++ [line] } }
        else failPort (lineDropped s n line) n := by
          unfold evictDown
          rw [if_neg hheld, if_neg (Nat.not_lt.mpr hbuffer)]
          rfl
    _ = failPort (lineDropped s n line) n := by rw [if_neg hlost', if_neg hlist']

end

/-! ### What a write meets at its slice (R215, R227) -/

section
variable {s : State} {line : Nat}

theorem touchLine_miss {w : Bool} (hmiss : s.ms.lines.find? (fun e => decide (e.1 = line)) = none) (hserved : lineLost s line = false) :
    touchLine s line w = allocate s line w := by
  unfold touchLine
  split
  · rename_i h; rw [hmiss] at h; cases h
  · rw [hserved, Bool.false_and, if_neg Bool.false_ne_true]

theorem allocate_replaces {p : Nat} {e : Nat × SLine} {d : Bool} (howner : ownerOf s (line * 64) = some p)
    (hset : setLines s line = [e])
    (hways : (List.range 16).filter (fun w => decide (rd s R.CCH_WAYMASK_WAYS p 0 / 2 ^ w % 2 = 1)) = [e.2.way]) :
    (allocate s line d).regs = (evict s e.1 e.2).regs := by
  unfold allocate
  rw [howner]
  dsimp only
  rw [hways, hset]
  simp

/-- A state with a line out of its slice. -/
def lineOut (s : State) (line : Nat) : State :=
  { s with ms := { s.ms with lines := s.ms.lines.filter (fun e => decide (e.1 ≠ line))
                             badUnder := s.ms.badUnder.filter (· ≠ line) } }

theorem evict_down {n : Nat} {x : SLine} (hx : x.dirty = true) (hplace : placeOf s (line * 64) = .cxl n)
    (hdown : portUp s n = false) :
    evict s line x = evictDown (lineOut s line) n line := by
  have hclean : (decide (line ∈ s.ms.badUnder) && !x.dirty) = false := by simp [hx]
  unfold evict
  dsimp only
  rw [if_pos hx, hclean]
  split
  · rename_i m hm
    have hmn : Place.cxl m = .cxl n := hm.symm.trans hplace
    cases hmn
    exact if_neg (hdown ▸ Bool.false_ne_true : portUp (lineOut s line) n ≠ true)
  · rename_i hm
    exact absurd hplace (hm n)

theorem linesOf_one (line : Nat) : linesOf (line * 64) 1 = [line] := by simp [linesOf]

/-- A write of lines whose reads are served leaves no mark on the line it reads. -/
theorem fillPart_served {pa n : Nat} (h : ∀ l ∈ linesOf pa n, lineLost s l = false) : fillPart s pa n = s := by
  have hfold : ∀ ls : List Nat, (∀ l ∈ ls, lineLost s l = false) →
      ls.foldl (fun s l => if lineLost s l && landsDown s l then { s with mem := memMark s.mem l } else s) s = s := by
    intro ls hls
    induction ls with
    | nil => rfl
    | cons l ls ih =>
      obtain ⟨hl, hrest⟩ := List.forall_mem_cons.mp hls
      rw [List.foldl_cons, hl, Bool.false_and, if_neg Bool.false_ne_true]
      exact ih hrest
  exact hfold _ (fun l hl => h l (List.mem_of_mem_filter hl))

/-- A line of a port's range is read from an expander that corrects and poisons nothing (R226). -/
theorem eccWrite_clean {pa n d0 p : Nat} (h : ∀ l ∈ linesOf pa n, placeOf s (l * 64) = .cxl p) :
    eccWrite s pa n ⟨[], 0, 0⟩ d0 = s := by
  unfold eccWrite
  split
  · rename_i l hl
    rw [eccFound, h l (List.mem_of_mem_filter (List.mem_of_find?_eq_some hl))]
    rfl
  · rfl

theorem writeLost_port {pa n : Nat} (h : placeOf s pa = .cxl n) :
    writeLost s pa = (importBlocks s pa || rdB s R.CXL_PORT_STATUS_FAILED n 0) := by
  unfold writeLost
  rw [h]

/-- A write of a byte whose line is lost changes no byte. -/
theorem landMem_lost {pa : Nat} {b : Byte} {bad : Bool} (h : writeLost s pa = true) : landMem s pa [b] bad = s := by
  have hpos : min 1 (64 - pa % 64) = 1 := by omega
  simp [landMem, splitLines, hpos, h]

theorem ofSlice_all {k : Nat} (h : ∀ l, lineSlice s l = k) (ls : List Nat) : ofSlice s k ls = ls :=
  List.filter_eq_self.mpr (fun l _ => by simp [h l])

end

end Sys2Proof.Proofs
end

section
/-!
PROOFS. O16 fails: a write whose line takes the place of a dirty line can itself fail its port's range, and is then discarded.
-/
namespace Sys2Proof.Proofs
open Sys2Proof.Machine Sys2Proof.Safety Sys2Proof.Laws

/-! ### A port that is down, with its slice's buffers full (R215, R227) -/

/-- The first line of port 0's range (R211). -/
def portLine : Nat := 0x100000000000 / 64

/-- The lines of the buffers: 2^20 lines and more from the range's first. -/
def bufferLine (i : Nat) : Nat := portLine + 2 ^ 20 + i

/-- Registers of a module with one stack, whose port 0 is down and presents 1 GiB, which is partition 0's memory; the partition
may fill way 0 (R211, R216, R269). -/
def downRegs : SMap W64 :=
  [(0x8, 0x181012), (0x400000, 1), (0x410000, 0x100000000001), (0x410008, 1), (0x80c000, 1), (0x900000, 8), (0xa00008, 1)]

/-- A write of one byte 1 that has arrived at the home slice of a line. -/
def landing (line : Nat) : Flight :=
  ⟨7, .sarabande, .mem (line * 64), [1], false, false, false, .arrived, 0, none, none, none, none, none, none, none, false⟩

/-- That write arrives while its line's one way is taken by the dirty line `victim`, and the write-back buffer and the lost list
hold 256 lines each (R227). -/
def overfull (line victim : Nat) : State :=
  { State.reset with
    regs := downRegs
    ord := { State.reset.ord with nextId := 20, flights := [landing line] }
    ms := { MemSys.fresh with
      lines := [(victim, ⟨0, true⟩)]
      wbHeld := line :: (List.range 255).map bufferLine
      lost := (List.range 256).map (fun i => bufferLine (256 + i)) } }

theorem overfull_lines (line victim : Nat) : (overfull line victim).ms.lines = [(victim, ⟨0, true⟩)] := rfl

theorem overfull_wbHeld (line victim : Nat) : (overfull line victim).ms.wbHeld = line :: (List.range 255).map bufferLine := rfl

theorem overfull_lost (line victim : Nat) : (overfull line victim).ms.lost = (List.range 256).map (fun i => bufferLine (256 + i)) := rfl

/-- Two lines of port 0's range, apart from the buffers' lines, in one set of their slice. -/
structure OneSet (line victim : Nat) : Prop where
  ne : victim ≠ line
  lineIn : portLine ≤ line ∧ line < portLine + 2 ^ 20
  victimIn : portLine ≤ victim ∧ victim < portLine + 2 ^ 20
  sameSet : setOf victim = setOf line

/-- A slice has 16,384 sets, so whatever map of lines to sets there is takes two of 16,385 lines to one. -/
theorem exists_oneSet : ∃ line victim, OneSet line victim := by
  have hmaps : ∀ i ∈ Finset.range 16385, setOf (portLine + i) ∈ Finset.range 16384 := fun i _ =>
    Finset.mem_range.mpr (Nat.mod_lt _ (by decide))
  obtain ⟨i, hi, j, hj, hij, hset⟩ := Finset.exists_ne_map_eq_of_card_lt_of_maps_to (by simp) hmaps
  have hi' := Finset.mem_range.mp hi
  have hj' := Finset.mem_range.mp hj
  exact ⟨portLine + j, portLine + i, by omega, by omega, by omega, hset⟩

/-- The same registers in a state after reset. -/
def downState : State := { State.reset with regs := downRegs }

theorem downState_values : nu downState = 1 ∧ rd downState R.CXL_PORT_CAP_GIB 0 0 = 1 ∧ portUp downState 0 = false ∧
    rdB downState R.CXL_PORT_STATUS_FAILED 0 0 = false ∧ rd downState R.CCH_WAYMASK_WAYS 0 0 = 1 ∧
    partRanges downState 0 = [(2 ^ 14, 1)] := by decide +kernel

/-- Registers and slices as in `overfull`: what the write meets on its way to memory. -/
structure Overfull (line victim : Nat) (s : State) : Prop where
  regs : s.regs = downRegs
  ms : s.ms = (overfull line victim).ms

section
variable {line victim l : Nat} {s : State}

theorem Overfull.low (h : Overfull line victim s) : LowSame downState s := LowSame.of_regs h.regs

theorem Overfull.inPort (h : Overfull line victim s) (hl : portLine ≤ l ∧ l < portLine + 2 ^ 20) : placeOf s (l * 64) = .cxl 0 := by
  obtain ⟨hnu, hcap, -⟩ := downState_values
  simp only [portLine] at hl
  rw [placeOf_congr h.low, placeOf, hnu, hcap, if_neg (by omega), if_pos (by omega)]

theorem Overfull.port (h : Overfull line victim s) : portUp s 0 = false ∧ rdB s R.CXL_PORT_STATUS_FAILED 0 0 = false := by
  obtain ⟨-, -, hdown, hfailed, -⟩ := downState_values
  exact ⟨(portUp_congr h.low 0 (by decide)).trans hdown, (h.low.rdB _ _ _ (by decide)).trans hfailed⟩

theorem Overfull.owner (h : Overfull line victim s) (hl : portLine ≤ l ∧ l < portLine + 2 ^ 20) : ownerOf s (l * 64) = some 0 := by
  obtain ⟨-, -, -, -, -, hranges⟩ := downState_values
  have hin : (offsetOf (partRanges s 0) 0 (l * 64)).isSome = true := by
    simp only [portLine] at hl
    rw [partRanges_congr h.low, hranges, offsetOf, if_pos (by omega)]
    rfl
  exact List.find?_cons_of_pos hin

/-- With one stack usable one slice homes every line (R214). -/
theorem Overfull.slice_eq (h : Overfull line victim s) (l l' : Nat) : lineSlice s l = lineSlice s l' := by
  have hnu : nu s = 1 := (nu_congr h.low).trans downState_values.1
  simp [lineSlice, homeStack, homeRank, hnu, Nat.mod_one]

/-- The write-back buffer has the line, so that reads of it are served (R227). -/
theorem Overfull.served (h : Overfull line victim s) (hl : OneSet line victim) : lineLost s line = false := by
  have hbuffer : line ∈ s.ms.wbHeld := by rw [h.ms, overfull_wbHeld]; exact List.mem_cons_self
  rw [lineLost, h.inPort hl.lineIn]
  simp [lostIn, h.port, hbuffer]

/-- The line takes the place of the dirty one (R215, R216). -/
theorem Overfull.touch_regs (h : Overfull line victim s) (hl : OneSet line victim) :
    (touchLine s line true).regs = (evict s victim ⟨0, true⟩).regs := by
  obtain ⟨-, -, -, -, hmask, -⟩ := downState_values
  have hways : rd s R.CCH_WAYMASK_WAYS 0 0 = 1 := (h.low.rd _ _ _ (by decide)).trans hmask
  have hmiss : s.ms.lines.find? (fun e => decide (e.1 = line)) = none := by simp [h.ms, overfull_lines, hl.ne]
  have hset : setLines s line = [(victim, ⟨0, true⟩)] := by
    simp [setLines, h.ms, overfull_lines, h.slice_eq victim line, hl.sameSet]
  rw [touchLine_miss hmiss (h.served hl)]
  exact allocate_replaces (h.owner hl.lineIn) hset (by simp only [hways]; decide)

/-- The dirty line finds its port down and both buffers of its slice full (R227). -/
theorem Overfull.evicts (h : Overfull line victim s) (hl : OneSet line victim) :
    ∃ u, RegsOff ErrLogReg s u ∧ evict s victim ⟨0, true⟩ = failPort u 0 := by
  obtain ⟨hne, -, hin, -⟩ := hl
  have hout : RegsOff ErrLogReg s (lineOut s victim) := RegsOff.of_regs rfl
  have hslice : ∀ l, lineSlice (lineOut s victim) l = lineSlice (lineOut s victim) victim := fun l => by
    rw [lineSlice_errLog hout, lineSlice_errLog hout]
    exact h.slice_eq l victim
  have hheld : (lineOut s victim).ms.wbHeld = line :: (List.range 255).map bufferLine :=
    (congrArg MemSys.wbHeld h.ms).trans (overfull_wbHeld _ _)
  have hlost : (lineOut s victim).ms.lost = (List.range 256).map (fun i => bufferLine (256 + i)) :=
    (congrArg MemSys.lost h.ms).trans (overfull_lost _ _)
  refine ⟨_, hout.trans (lineDropped_regs _ 0 victim), (evict_down rfl (h.inPort hin) h.port.1).trans (evictDown_overflows ?_ ?_ ?_ ?_)⟩
  · rw [hheld]
    simp only [List.mem_cons, List.mem_map, bufferLine]
    rintro (heq | ⟨i, -, hi⟩)
    · exact hne heq
    · omega
  · rw [hlost]
    simp only [List.mem_map, bufferLine]
    rintro ⟨i, -, hi⟩
    omega
  · simp [ofSlice_all hslice, hheld]
  · simp [ofSlice_all hslice, hlost]

/-- The write's own port has failed once its line has its place, and the write is discarded (R215, R227). -/
theorem Overfull.discards (h : Overfull line victim s) (hl : OneSet line victim) :
    writeLost (touchLine s line true) (line * 64) = true := by
  obtain ⟨u, hu, hevict⟩ := h.evicts hl
  have hregs : (touchLine s line true).regs = (failPort u 0).regs := hevict ▸ h.touch_regs hl
  have hfailed : rdB (touchLine s line true) R.CXL_PORT_STATUS_FAILED 0 0 = true := by
    rw [rdB_eq, rd_congr hregs]
    exact failPort_fails u (by decide)
  have hoff : RegsOff (fun o => ErrLogReg o ∨ o = R.CXL_PORT_STATUS_FAILED.at 0 0) s (touchLine s line true) :=
    ((hu.mono (fun _ => Or.inl)).trans (failPort_regs u 0)).trans (RegsOff.of_regs hregs)
  have hplace : placeOf (touchLine s line true) (line * 64) = .cxl 0 := by
    rw [placeOf_off hoff, h.inPort hl.lineIn] <;> simp [ErrLogReg, Fld.at, R.CXL_PORT_STATUS_FAILED]
  rw [writeLost_port hplace, hfailed, Bool.or_true]

/-- The write changes no byte of memory: its slice discards it. -/
theorem Overfull.bytes (h : Overfull line victim s) (hl : OneSet line victim) (va w : Option Nat) :
    (sliceWr s .sarabande va w (line * 64) [1] false).mem.bytes = s.mem.bytes := by
  have hserved : ∀ l ∈ linesOf (line * 64) 1, lineLost s l = false := by simpa [linesOf_one] using h.served hl
  have htouch : touch s (line * 64) 1 true = touchLine s line true := by rw [touch, linesOf_one]; rfl
  have hwr : sliceWr s .sarabande va w (line * 64) [1] false =
      wakeRings (landMem (touch (fillPart s (line * 64) 1) (line * 64) 1 true) (line * 64) [1] false) (line * 64) 1 := rfl
  rw [hwr, fillPart_served hserved, htouch, landMem_lost (h.discards hl), wakeRings_keeps _ _ _ .mem (by decide), ← htouch]
  exact (touch_frame s _ _ _).bytes

end

/-! ### The statement fails -/

section
variable {line victim : Nat}

theorem overfull_meets (line victim : Nat) : Overfull line victim (overfull line victim) := ⟨rfl, rfl⟩

theorem overfull_waits (line victim pa n : Nat) : writeWaits (overfull line victim) pa n = false := by
  have htraining : ∀ a k, trainingAt (overfull line victim) a k = false := fun _ _ => rfl
  have hclearing : clearingAt (overfull line victim) pa n = false := rfl
  have hrepair : repairAt (overfull line victim) pa n = false := rfl
  simp [writeWaits, htraining, hclearing, hrepair]

theorem overfull_after (line victim pa : Nat) : landsAfter (overfull line victim) (landing line) pa = false := by
  have hflights : (overfull line victim).ord.flights = [landing line] := rfl
  have hself : issuedBefore (landing line) (landing line) = false := by simp [issuedBefore]
  have hcopy : copyToWord (overfull line victim) (landing line) = false := rfl
  simp [landsAfter, hflights, hself, hcopy]

theorem landFlight_landing (s : State) (line : Nat) :
    landFlight s (landing line) = sliceWr (dropFlight s 7) .sarabande none none (line * 64) [1] false := rfl

/-- Nothing holds the write back, and the read of its line finds no error. -/
theorem overfull_lands (hl : OneSet line victim) : Runs (.sliceWriteLand 7 ⟨[], 0, 0⟩) (overfull line victim)
    (sliceWr (dropFlight (overfull line victim) 7) .sarabande none none (line * 64) [1] false) := by
  have hclean : ∀ l ∈ linesOf (line * 64) 1, placeOf (overfull line victim) (l * 64) = .cxl 0 := by
    simpa [linesOf_one] using (overfull_meets line victim).inPort hl.lineIn
  have hflight : flightAt (overfull line victim) 7 = some (landing line) := rfl
  have hdst : (landing line).dst = .mem (line * 64) := rfl
  have hleg : (landing line).leg = .arrived := rfl
  have hfinal : (landing line).final = false := rfl
  have hlen : (landing line).data.length = 1 := rfl
  rw [Runs, exec_sliceWriteLand, execSliceWriteLand, hflight]
  simp only [hdst, hleg, hfinal, hlen, overfull_waits, overfull_after, eccWrite_clean hclean, landFlight_landing]
  rfl

end

/-- Refutes O16: the clause that a write within a line that is not lost is read back (R146). The write's line takes the place of
a dirty line of the same port; the port is down, the write-back buffer and the lost list of the slice are full, so the port's
range fails (R227), and the write that comes next in the same command is discarded: the byte reads 0, not 1. -/
theorem not_flightsMoveAndLand : ¬ Obligations.FlightsMoveAndLand := by
  unfold Obligations.FlightsMoveAndLand
  rintro ⟨-, -, -, -, -, -, -, -, -, -, hread, -⟩
  obtain ⟨line, victim, hl⟩ := exists_oneSet
  have hplace := (overfull_meets line victim).inPort hl.lineIn
  have hkept : writeLost (overfull line victim) (line * 64) = false := by
    rw [writeLost_port hplace, (overfull_meets line victim).port.2]
    rfl
  obtain ⟨t, hruns, hbyte⟩ := hread 7 (line * 64) (landing line) (overfull line victim) rfl rfl rfl (overfull_waits _ _ _ _)
    (overfull_after _ _ _) rfl rfl (by simp [landing]) (by simp [landing]) hkept
  have ht : sliceWr (dropFlight (overfull line victim) 7) .sarabande none none (line * 64) [1] false = t :=
    Host.Outcome.next.inj ((overfull_lands hl).symm.trans hruns)
  have hbytes : t.mem.bytes = [] := by
    rw [← ht]
    exact Overfull.bytes (s := dropFlight (overfull line victim) 7) ⟨rfl, rfl⟩ hl none none
  have hzero : memRead t.mem (line * 64) 1 = [0] := by simp [memRead, memByte, hbytes, SMap.look]
  have hone : memRead t.mem (line * 64) 1 = [1] := hbyte
  exact absurd (hzero.symm.trans hone) (by decide)

end Sys2Proof.Proofs
end

section
/-!
PROOFS. What a core's own accounts change (R144, R424, R435): its counters, its trace, its footprint table and the registers of
its harps; and the readers that do not see them.
-/
namespace Sys2Proof.Proofs
open Sys2Proof.Machine Sys2Proof.Safety Sys2Proof.Laws

/-! ### Registers of the accounts -/

/-- The counters of the cores' windows (R424). -/
def CounterReg (o : Nat) : Prop := WindowReg o ∧ 0x8000 ≤ o % 0x10000 ∧ o % 0x10000 < 0x8400

/-- Registers of the cores' windows up to the counters, and the trace status (R28). -/
def AccountReg (o : Nat) : Prop := WindowReg o ∧ (o % 0x10000 < 0x8400 ∨ o % 0x10000 = 0x8910)

theorem CounterReg.account {o : Nat} (h : CounterReg o) : AccountReg o := ⟨h.1, Or.inl h.2.2⟩

theorem counterReg_count (c : Nat) {n : Nat} (hn : n < 128) : CounterReg (R.CNT_COUNT.at c n) := by
  simp only [CounterReg, WindowReg, Fld.at, R.CNT_COUNT]; omega

theorem accountReg_harp (c : Nat) {h : Nat} (hh : h < 8) : AccountReg (R.HRP_STATUS_STALL_REASON.at c h) ∧
    AccountReg (R.HRP_PASS_PASS_TAG.at c h) := by
  simp only [AccountReg, WindowReg, Fld.at, R.HRP_STATUS_STALL_REASON, R.HRP_PASS_PASS_TAG]; omega

/-! ### The frame -/

/-- A core without what its accounts change: the remainders of its counters, its footprint table and its trace. -/
def bareCore (x : Core) : Core := { x with rem := [], footprints := [], trace := [], lost := 0 }

/-- Outside the parts of a list nothing differs, and of registers and cores only what the accounts of core c change. -/
structure Accounted (L : List Part) (c : Nat) (s t : State) : Prop where
  agree : AgreeOutside L s t
  regs : RegsOff AccountReg s t
  others : CoresOutside [c] s t
  bare : bareCore (coreAt t c) = bareCore (coreAt s c)

section
variable {L M : List Part} {c : Nat} {s t u : State}

theorem Accounted.refl (L : List Part) (c : Nat) (s : State) : Accounted L c s s :=
  ⟨Agree.refl L s, RegsOff.refl _ s, fun _ _ => rfl, rfl⟩

theorem Accounted.trans (h : Accounted L c s t) (h' : Accounted L c t u) : Accounted L c s u :=
  ⟨Agree.trans h.agree h'.agree, h.regs.trans h'.regs, fun k hk => (h'.others k hk).trans (h.others k hk), h'.bare.trans h.bare⟩

theorem Accounted.mono (h : Accounted M c s t) (hM : (M.all (fun q => L.contains q)) = true) : Accounted L c s t :=
  ⟨Agree.mono h.agree hM, h.regs, h.others, h.bare⟩

/-- One more step of the accounts, whose own parts lie within the list. -/
theorem Accounted.step (h : Accounted M c t u) (hM : (M.all (fun q => L.contains q)) = true) (hs : Accounted L c s t) :
    Accounted L c s u := hs.trans (h.mono hM)

theorem Accounted.of_agree (h : AgreeOutside L s t) (hr : Part.regs ∉ L) (hc : Part.cores ∉ L) : Accounted L c s t :=
  ⟨h, RegsOff.of_agree h hr, fun k _ => coreAt_congr (h .cores hc) k, congrArg bareCore (coreAt_congr (h .cores hc) c)⟩

theorem accounted_wr (s : State) (c : Nat) {f : Fld} {i j : Nat} (v : Nat) (h : AccountReg (f.at i j)) :
    Accounted [.regs] c s (wr s f i j v) := ⟨wr_keeps s f i j v, RegsOff.of_wr s v h, fun _ _ => rfl, rfl⟩

theorem coresOutside_onCore (s : State) (c : Nat) (g : Core → Core) : CoresOutside [c] s (onCore s c g) := fun k hk => by
  rw [coreAt_onCore, if_neg (by simpa using hk)]

theorem accounted_onCore (s : State) (c : Nat) (g : Core → Core) (hg : ∀ x, bareCore (g x) = bareCore x) :
    Accounted [.cores] c s (onCore s c g) :=
  ⟨onCore_keeps s c g, RegsOff.of_agree (onCore_keeps s c g) (by decide), coresOutside_onCore s c g, by
    rw [coreAt_onCore, if_pos rfl, hg]⟩

/-! ### Readers that do not see the accounts -/

/-- A field that the accounts do not change is the bare core's. -/
theorem field_of_bare {α : Type} {g : Core → α} (hg : ∀ x, g (bareCore x) = g x) {x y : Core} (h : bareCore x = bareCore y) : g x = g y := by
  rw [← hg x, h, hg]

theorem Accounted.ring (h : Accounted L c s t) (k : Nat) : (coreAt t k).ring = (coreAt s k).ring := by
  by_cases hk : k = c
  · subst hk; exact field_of_bare (fun _ => rfl) h.bare
  · rw [h.others k (by simpa using hk)]

theorem Accounted.quiet (h : Accounted L c s t) (hL : Part.spd ∉ L) (hq : SpdQuiet c s) : SpdQuiet c t := by
  obtain ⟨hwatch, herr⟩ := hq
  refine ⟨fun m hm => (h.regs.rdB ?_).trans (hwatch m hm), (congrArg Spd.err (h.agree .spd hL)).trans herr⟩
  simp only [AccountReg, WindowReg, Fld.at, R.CNT_SPWP_CFG_ENABLE]
  omega

theorem Accounted.freeze (h : Accounted L c s t) : rdB t R.CNT_CTL_FREEZE c 0 = rdB s R.CNT_CTL_FREEZE c 0 :=
  h.regs.rdB (by simp only [AccountReg, WindowReg, Fld.at, R.CNT_CTL_FREEZE]; omega)

theorem Accounted.low (h : Accounted L c s t) : LowSame s t :=
  fun o ho => h.regs o (fun ha => by have hw := ha.1; simp only [WindowReg] at hw; omega)

theorem coreOwner_congr (h : LowSame s t) (k : Nat) : coreOwner t k = coreOwner s k := by
  have hpart : ∀ p < 16, (rdB t R.PRT_CFG_VALID p 0 && inMask t R.PRT_CORE_CORES p k) =
      (rdB s R.PRT_CFG_VALID p 0 && inMask s R.PRT_CORE_CORES p k) := fun p hp => by
    by_cases hk : k < 288
    · rw [inMask, inMask, h.rdB _ _ _ (by simp only [Fld.at, R.PRT_CFG_VALID]; omega),
        h.rd _ _ _ (by simp only [Fld.at, R.PRT_CORE_CORES]; omega)]
    · simp [inMask, hk]
  exact List.find?_congr fun p hp => hpart p (List.mem_range.mp hp)

theorem shadowOf_congr (h : LowSame s t) (k : Nat) : shadowOf t k = shadowOf s k := by
  rw [shadowOf, shadowOf, coreOwner_congr h, h.rd _ _ _ (by decide)]

end

/-! ### Counters (R424, R425) -/

section
variable {s : State} {c n : Nat}

theorem count_regs (s : State) (c n k : Nat) : RegsOff (· = R.CNT_COUNT.at c n) s (count s c n k) := by
  unfold count
  split
  · exact RegsOff.refl _ s
  · exact RegsOff.of_wr s _ rfl

theorem countUnits_regs (s : State) (c n u k : Nat) : RegsOff (· = R.CNT_COUNT.at c n) s (countUnits s c n u k) := by
  unfold countUnits
  split
  · exact RegsOff.refl _ s
  · exact RegsOff.wr (RegsOff.of_agree (onCore_keeps s c _) (by decide)) rfl

theorem count_accounts (s : State) (c : Nat) {n : Nat} (hn : n < 128) (k : Nat) : Accounted [.regs] c s (count s c n k) := by
  unfold count
  split
  · exact Accounted.refl _ c s
  · exact accounted_wr s c _ (counterReg_count c hn).account

theorem countUnits_accounts (s : State) (c : Nat) {n : Nat} (hn : n < 128) (u k : Nat) :
    Accounted [.regs, .cores] c s (countUnits s c n u k) := by
  unfold countUnits
  split
  · exact Accounted.refl _ c s
  · exact (accounted_wr _ c _ (counterReg_count c hn).account).step rfl ((accounted_onCore s c _ (by intro; rfl)).mono rfl)

theorem rd_count_self (h : rdB s R.CNT_CTL_FREEZE c 0 = false) (n k : Nat) :
    rd (count s c n k) R.CNT_COUNT c n = (rd s R.CNT_COUNT c n + k) % 2 ^ R.CNT_COUNT.width := by
  rw [count, h, if_neg (by decide), rd_wr_self _ _ _ _ _ (by decide)]

/-- A counter is not the control of the overlap check. -/
theorem overlapOff_of_counter {t : State} (hn : n < 128) (h : RegsOff (· = R.CNT_COUNT.at c n) s t)
    (hoff : rdB s R.SPD_OVERLAP_CTL_ACTIVE c 0 = false) : rdB t R.SPD_OVERLAP_CTL_ACTIVE c 0 = false := by
  refine (h.rdB ?_).trans hoff
  simp only [Fld.at, R.SPD_OVERLAP_CTL_ACTIVE, R.CNT_COUNT]
  omega

end

/-! ### The trace and the footprint table (R144, R435) -/

theorem traceRec_accounts (s : State) (c kind harp : Nat) (w2 w3 : W64) : Accounted [.regs, .cores] c s (traceRec s c kind harp w2 w3) := by
  have hstatus : AccountReg (R.CNT_TRACE_STATUS_LOST.at c 0) := by
    simp only [AccountReg, WindowReg, Fld.at, R.CNT_TRACE_STATUS_LOST]; omega
  unfold traceRec
  split
  · split
    · exact Accounted.mono (accounted_onCore s c _ (by intro; rfl)) rfl
    · exact Accounted.step (accounted_onCore _ c _ (by intro; rfl)) rfl (Accounted.mono (accounted_wr s c _ hstatus) rfl)
  · exact Accounted.refl _ c s

/-- Core c's footprint table set, with the count of its entries. -/
def tableSet (s : State) (c : Nat) (fs : List Footprint) (n : Nat) : State :=
  wr (setCore s c { coreAt s c with footprints := fs }) R.SPD_OVERLAP_CTL_TABLE_USED c 0 n

theorem tableSet_accounts (s : State) (c : Nat) (fs : List Footprint) (n : Nat) : Accounted [.regs, .cores] c s (tableSet s c fs n) := by
  have htable : AccountReg (R.SPD_OVERLAP_CTL_TABLE_USED.at c 0) := by
    simp only [AccountReg, WindowReg, Fld.at, R.SPD_OVERLAP_CTL_TABLE_USED]; omega
  exact (accounted_wr _ c n htable).step rfl
    ((accounted_onCore s c (fun x => { x with footprints := fs }) (fun _ => rfl)).mono rfl)

/-- A footprint that registers leaves the core as it was but for its table (R144). -/
theorem register_accounts {s u : State} {c : Nat} {fs : List Footprint} (h : register s c fs = .ok u) : Accounted [.regs, .cores] c s u := by
  unfold register at h
  split at h
  · cases h; exact Accounted.refl _ c s
  · dsimp only at h
    split at h
    · cases h
    · split at h
      · cases h
      · cases h; exact tableSet_accounts s c _ _

theorem release_accounts (s : State) (c owner : Nat) : Accounted [.regs, .cores] c s (release s c owner) := by
  unfold release
  dsimp only
  split
  · exact Accounted.refl _ c s
  · exact tableSet_accounts s c _ _

end Sys2Proof.Proofs
end

section
/-!
PROOFS. Harps and their sets, what the failing of a command leaves of its ring, cores and harps (R48, R51), and the issue and
the start of passes (R56, R57).
-/
namespace Sys2Proof.Proofs
open Sys2Proof.Machine Sys2Proof.Safety Sys2Proof.Laws

/-! ### Harps -/

section
variable {s u : State} {c h : Nat}

theorem harpAt_setHarp_self (s : State) (c h : Nat) (v : Harp) : harpAt (setHarp s c h v) c h = v := by
  rw [harpAt_setHarp, if_pos rfl]

theorem harpsOutside_setHarp (hu : u.harps = s.harps) (v : Harp) : HarpsOutside [hk c h] s (setHarp u c h v) := fun k j hkj => by
  rw [harpAt_setHarp, if_neg (by simpa using hkj), harpAt_congr hu]

end

/-! ### Sets of a harp (R37) -/

@[simp] theorem set_putSet (x : Harp) (n : Nat) (a : AccSet) : (x.putSet n a).set n = a := by
  unfold Harp.set Harp.putSet; split <;> rfl

@[simp] theorem putSet_active (x : Harp) (n : Nat) (a : AccSet) : (x.putSet n a).active = x.active := by unfold Harp.putSet; split <;> rfl

@[simp] theorem putSet_due (x : Harp) (n : Nat) (a : AccSet) : (x.putSet n a).due = x.due := by unfold Harp.putSet; split <;> rfl

@[simp] theorem putSet_partner (x : Harp) (n : Nat) (a : AccSet) : (x.putSet n a).partner = x.partner := by unfold Harp.putSet; split <;> rfl

/-- A set of a harp is its two sets' alone. -/
theorem set_congr {x y : Harp} (h0 : x.set0 = y.set0) (h1 : x.set1 = y.set1) (n : Nat) : x.set n = y.set n := by
  rw [Harp.set, Harp.set, h0, h1]

/-! ### The stopping of cores (R51) -/

section
variable {P : State → Prop} {s : State} {c h w : Nat}

theorem abandon_abandon (x : Harp) : x.abandon.abandon = x.abandon := rfl

theorem harpAt_onHarp_abandon (s : State) (k j c h : Nat) :
    harpAt (onHarp s k j Harp.abandon) c h = if hk c h = hk k j then (harpAt s c h).abandon else harpAt s c h := by
  rw [harpAt_onHarp]
  split
  · rename_i he
    rw [show harpAt s k j = harpAt s c h by rw [harpAt, harpAt, he]]
  · rfl

/-- A harp that has been abandoned stays so when any harp is abandoned. -/
theorem abandoned_onHarp {x : Harp} (hx : harpAt s c h = x.abandon) (k j : Nat) : harpAt (onHarp s k j Harp.abandon) c h = x.abandon := by
  rw [harpAt_onHarp_abandon, hx, abandon_abandon, ite_self]

theorem abandonCore_abandons (s : State) (c : Nat) (hh : h < 8) :
    (harpAt (abandonCore s c) c h).abandon = harpAt (abandonCore s c) c h := by
  refine foldl_establishes (l := harpIxs) (Q := fun j v => (harpAt v c j).abandon = harpAt v c j) (fun v j _ => ?_)
    (fun v k _ j hj => ?_) (List.mem_range.mpr hh) s
  · rw [harpAt_onHarp_abandon, if_pos rfl, abandon_abandon]
  · rw [abandoned_onHarp hj.symm, abandon_abandon]

theorem harpAt_stopCore (s : State) (k c h : Nat) : harpAt (stopCore s k) c h = harpAt (abandonCore s k) c h :=
  harpAt_congr (onCore_keeps (abandonCore s k) k Core.halt .harps (by decide)) c h

/-- What the abandoning of a harp and the halting of a core keep, the stopping of a core keeps. -/
theorem stopCore_induct (hharp : ∀ v k j, P v → P (onHarp v k j Harp.abandon)) (hcore : ∀ v k, P v → P (onCore v k Core.halt))
    (k : Nat) (hs : P s) : P (stopCore s k) :=
  hcore _ k (List.foldlRecOn harpIxs _ hs (fun v hv j _ => hharp v k j hv))

/-- A core of a failed command stops where the command's ring holds it. -/
def stopHeld (w : Nat) (s : State) (k : Nat) : State := if (coreAt s k).ring = some w then stopCore s k else s

theorem stopHeld_induct (hharp : ∀ v k j, P v → P (onHarp v k j Harp.abandon)) (hcore : ∀ v k, P v → P (onCore v k Core.halt))
    (k : Nat) (hs : P s) : P (stopHeld w s k) := by
  unfold stopHeld
  split
  · exact stopCore_induct hharp hcore k hs
  · exact hs

theorem failCmd_eq {k : Cmd} (hcmd : (ringAt s w).cmd = some k) (hph : k.phase = .running) (code d : Nat) :
    failCmd s w code d = k.cores.foldl (stopHeld w)
      (setRing s w { ringAt s w with cmd := some { k.cause code d with phase := .stopping } }) := by
  unfold failCmd
  rw [hcmd]
  simp only [hph]
  rw [if_neg (by simp)]
  rfl

/-- What holds of a failed command's state when its ring, its cores and its harps have been stopped one by one. -/
theorem failCmd_induct (hring : ∀ v r, P v → P (setRing v w r)) (hharp : ∀ v k j, P v → P (onHarp v k j Harp.abandon))
    (hcore : ∀ v k, P v → P (onCore v k Core.halt)) (code d : Nat) (hs : P s) : P (failCmd s w code d) := by
  unfold failCmd
  split
  · exact hs
  · split
    · exact hs
    · exact List.foldlRecOn _ _ (hring s _ hs) (fun v hv k _ => stopHeld_induct hharp hcore k hv)

theorem failCore_induct (hring : ∀ v w r, P v → P (setRing v w r)) (hharp : ∀ v k j, P v → P (onHarp v k j Harp.abandon))
    (hcore : ∀ v k, P v → P (onCore v k Core.halt)) (c code d : Nat) (hs : P s) : P (failCore s c code d) := by
  unfold failCore
  split
  · exact failCmd_induct (hring · _) hharp hcore code d hs
  · exact hs

/-- A field that the halting of a core keeps. -/
theorem onCore_halt_field {α : Type} {g : Core → α} (hg : ∀ x, g (Core.halt x) = g x) (s : State) (k c : Nat) :
    g (coreAt (onCore s k Core.halt) c) = g (coreAt s c) := by
  rw [coreAt_onCore]
  split
  · rename_i he; rw [hg, he]
  · rfl

theorem stopHeld_ring (s : State) (w k c : Nat) : (coreAt (stopHeld w s k) c).ring = (coreAt s c).ring :=
  stopHeld_induct (P := fun v => (coreAt v c).ring = (coreAt s c).ring) (fun _ _ _ hv => hv)
    (fun v k hv => (onCore_halt_field (g := Core.ring) (fun _ => rfl) v k c).trans hv) k rfl

theorem stopHeld_keeps (s : State) (w k : Nat) : AgreeOutside [.cores, .harps] s (stopHeld w s k) := by
  unfold stopHeld
  split
  · exact stopCore_keeps s k
  · exact Agree.refl _ s

/-! ### The failing of a command (R51, R251) -/

theorem failCmd_cmd {k : Cmd} (hcmd : (ringAt s w).cmd = some k) (hph : k.phase = .running) (code d : Nat) :
    (ringAt (failCmd s w code d) w).cmd = some { k.cause code d with phase := .stopping } := by
  have hsch := Agree.foldl (l := k.cores) (fun v j => stopHeld_keeps v w j) (Agree.refl [.cores, .harps]
    (setRing s w { ringAt s w with cmd := some { k.cause code d with phase := .stopping } })) .sch (by decide)
  rw [failCmd_eq hcmd hph, ringAt_congr hsch, ringAt_setRing, if_pos rfl]

/-- The harps of a failed command's cores hold nothing (R48, R51). -/
theorem failCmd_abandons {k : Cmd} (hcmd : (ringAt s w).cmd = some k) (hph : k.phase = .running) (code d : Nat) (hc : c ∈ k.cores)
    (hw : (coreAt s c).ring = some w) (hh : h < 8) :
    (harpAt (failCmd s w code d) c h).abandon = harpAt (failCmd s w code d) c h := by
  have hring : (coreAt (failCmd s w code d) c).ring = some w :=
    failCmd_induct (P := fun v => (coreAt v c).ring = some w) (fun _ _ hv => hv) (fun _ _ _ hv => hv)
      (fun v k hv => (onCore_halt_field (g := Core.ring) (fun _ => rfl) v k c).trans hv) code d hw
  revert hring
  rw [failCmd_eq hcmd hph]
  refine foldl_establishes (Q := fun y v => (coreAt v y).ring = some w → (harpAt v y h).abandon = harpAt v y h)
    (fun v y _ => ?_) (fun v y _ z hz => ?_) hc _
  · intro hr
    rw [stopHeld_ring] at hr
    rw [stopHeld, if_pos hr, harpAt_stopCore]
    exact abandonCore_abandons v y hh
  · rw [stopHeld_ring]
    intro hr
    have hfix := stopHeld_induct (P := fun u => harpAt u z h = (harpAt v z h).abandon) (w := w)
      (fun u k j hu => abandoned_onHarp hu k j) (fun _ _ hu => hu) y (hz hr).symm
    rw [hfix, abandon_abandon]

theorem cause_mem (k : Cmd) (code d : Nat) : (k.cause code d).causes / 2 ^ code % 2 = 1 := by
  unfold Cmd.cause
  split
  · assumption
  · rename_i hunset
    have hadd : (k.causes + 2 ^ code) / 2 ^ code = k.causes / 2 ^ code + 1 := Nat.add_div_right _ (Nat.two_pow_pos code)
    split <;> (simp only [hadd]; omega)

end

/-! ### The issue of passes (R56) -/

theorem passIssue_queues (c : CoreIx) (h : HarpIx) (desc : List W64) (s : State) (hi : canIssue s c = true)
    (hlen : (harpAt s c h).queue.length < 4) :
    ∃ t, Runs (.passIssue c h desc) s t ∧ (harpAt t c h).queue = (harpAt s c h).queue ++ [desc] ∧
      HarpsOutside [hk c h] s t ∧ RegsOutside [R.CNT_COUNT.at c 56] s t ∧ AgreeOutside [.harps, .regs] s t ∧
      (rdB s R.CNT_CTL_FREEZE c 0 = false → rd t R.CNT_COUNT c 56 = (rd s R.CNT_COUNT c 56 + 1) % 2 ^ R.CNT_COUNT.width) := by
  let u := setHarp s c h { harpAt s c h with queue := (harpAt s c h).queue ++ [desc] }
  have hcount := (count_accounts u c (n := 56) (by decide) 1).agree
  refine ⟨count u c 56 1, ?_, ?_, ?_, ?_, ?_, fun hf => rd_count_self (s := u) hf 56 1⟩
  · rw [Runs, exec_passIssue, execPassIssue, hi, decide_eq_true hlen]
    rfl
  · rw [harpAt_congr (hcount .harps (by decide)), harpAt_setHarp_self]
  · exact fun k j hkj => (harpAt_congr (hcount .harps (by decide)) k j).trans (harpsOutside_setHarp rfl _ k j hkj)
  · exact fun o ho => count_regs u c 56 1 o (by simpa using ho)
  · exact Agree.step hcount rfl (Agree.mono (setHarp_keeps s c h _) rfl)

theorem passIssue_stalls (c : CoreIx) (h : HarpIx) (desc : List W64) (s : State)
    (hno : canIssue s c = false ∨ 4 ≤ (harpAt s c h).queue.length) : Runs (.passIssue c h desc) s s := by
  have hguard : (canIssue s c && decide ((harpAt s c h).queue.length < 4)) = false := by
    rcases hno with hi | hlen
    · simp [hi]
    · simp [hlen]
  rw [Runs, exec_passIssue, execPassIssue, hguard]
  rfl

/-! ### The check of the head of the queue (R57) -/

section
variable {c : CoreIx} {h : HarpIx} {d : List W64} {rest : List (List W64)} {s : State}

/-- The accepted head of the queue starts as the next pass, unless the overlap check stops it (R57, R144). -/
def startHead (s : State) (c : CoreIx) (h : HarpIx) (d : List W64) (rest : List (List W64)) : Res :=
  match register s c (passFootprint (passOwner c h (passOf (coreAt s c) (harpAt s c h) d)) h d) with
  | .waits => .next s
  | .faults t => .next t
  | .ok t => .next (setHarp t c h { harpAt s c h with
      queue := rest, next := some (passOf (coreAt s c) (harpAt s c h) d), prev := some d,
      prevSet := (passOf (coreAt s c) (harpAt s c h) d).set })

/-- Nothing keeps the head of the queue from its check: no pass is checked already, and the core runs. -/
theorem passHeadCheck_eq (hq : (harpAt s c h).queue = d :: rest) (hn : (harpAt s c h).next = none) (hr : (coreAt s c).running = true)
    (hs : (coreAt s c).stopped = false) : exec (.passHeadCheck c h) s =
      if (coreAt s c).harpMask / 2 ^ h.val % 2 = 0 then .next (failCore s c 0x1E c)
      else if (passFieldsBad d || passChainBad (coreAt s c) d || passPlaceBad (coreAt s c) (harpAt s c h).prev d) = true then
        .next (failCore s c 0x1D 0)
      else startHead s c h d rest := by
  rw [exec_passHeadCheck, execPassHeadCheck, hq]
  simp only [hn, hr, hs, askedToStop, Option.isSome_none, Bool.not_true, Bool.false_and, Bool.or_false, Bool.false_eq_true, if_false]
  rfl

theorem passHeadCheck_starts {u : State} (hq : (harpAt s c h).queue = d :: rest) (hn : (harpAt s c h).next = none)
    (hr : (coreAt s c).running = true) (hs : (coreAt s c).stopped = false) (hm : (coreAt s c).harpMask / 2 ^ h.val % 2 = 1)
    (hf : passFieldsBad d = false) (hc : passChainBad (coreAt s c) d = false)
    (hp : passPlaceBad (coreAt s c) (harpAt s c h).prev d = false)
    (hreg : register s c (passFootprint (passOwner c h (passOf (coreAt s c) (harpAt s c h) d)) h d) = .ok u) :
    ∃ t p, Runs (.passHeadCheck c h) s t ∧ (harpAt t c h).queue = rest ∧ (harpAt t c h).next = some p ∧ p.desc = d ∧ p.k = 0 ∧
      (harpAt t c h).prev = some d ∧ (harpAt t c h).prevSet = p.set ∧ (harpAt t c h).active = (harpAt s c h).active ∧
      ((harpAt s c h).prev = none → p.set = 0) ∧
      ((harpAt s c h).prev ≠ none → pFill d = 2 → p.set = (harpAt s c h).prevSet) ∧
      ((harpAt s c h).prev ≠ none → pFill d ≠ 2 → p.set = 1 - (harpAt s c h).prevSet) ∧
      HarpsOutside [hk c h] s t ∧ CoresOutside [c.val] s t ∧ AgreeOutside [.harps, .cores, .regs] s t := by
  have hacc := register_accounts hreg
  have hset : ∀ q, (harpAt s c h).prev = some q →
      (passOf (coreAt s c) (harpAt s c h) d).set = if pFill d = 2 then (harpAt s c h).prevSet else 1 - (harpAt s c h).prevSet :=
    fun q hprev => by simp only [passOf, hprev]
  refine ⟨setHarp u c h { harpAt s c h with
      queue := rest, next := some (passOf (coreAt s c) (harpAt s c h) d), prev := some d,
      prevSet := (passOf (coreAt s c) (harpAt s c h) d).set }, passOf (coreAt s c) (harpAt s c h) d, ?_, ?_⟩
  · rw [Runs, passHeadCheck_eq hq hn hr hs, hm, hf, hc, hp, startHead, hreg]
    rfl
  · rw [harpAt_setHarp_self]
    refine ⟨rfl, rfl, rfl, rfl, rfl, rfl, rfl, fun hprev => by simp only [passOf, hprev], fun hprev hfill => ?_, fun hprev hfill => ?_,
      harpsOutside_setHarp (hacc.agree .harps (by decide)) _, hacc.others,
      Agree.step (setHarp_keeps u c h _) rfl (Agree.mono hacc.agree rfl)⟩
    · obtain ⟨q, hq⟩ := Option.ne_none_iff_exists'.mp hprev
      rw [hset q hq, if_pos hfill]
    · obtain ⟨q, hq⟩ := Option.ne_none_iff_exists'.mp hprev
      rw [hset q hq, if_neg hfill]

theorem passHeadCheck_misplaced (hq : (harpAt s c h).queue ≠ []) (hn : (harpAt s c h).next = none) (hr : (coreAt s c).running = true)
    (hs : (coreAt s c).stopped = false) (hm : (coreAt s c).harpMask / 2 ^ h.val % 2 = 0) :
    Runs (.passHeadCheck c h) s (failCore s c 0x1E c) := by
  obtain ⟨d, rest, hqueue⟩ := List.exists_cons_of_ne_nil hq
  rw [Runs, passHeadCheck_eq hqueue hn hr hs, if_pos hm]

/-- A format that is no operand of a harp (R35, R64) has no class. -/
theorem fmtClass_notAnOperand {f : Nat} (hf : notAnOperand f) : fmtClass f = 0 := by
  rcases hf with rfl | rfl | rfl | rfl <;> rfl

/-- What the fields of a descriptor that is no reserved encoding say of its formats. -/
theorem formats_of_passFieldsBad (h : passFieldsBad d = false) :
    fmtClass (pFmtA d) ≠ 0 ∧ fmtClass (pFmtB d) ≠ 0 ∧ fmtIsInt (pFmtA d) = fmtIsInt (pFmtB d) := by
  simp only [passFieldsBad, Bool.or_eq_false_iff, decide_eq_false_iff_not, bne_eq_false_iff_eq, and_assoc] at h
  obtain ⟨-, ha, hb, hkind, -⟩ := h
  exact ⟨ha, hb, hkind⟩

theorem passFieldsBad_of_formats
    (hf : notAnOperand (pFmtA d) ∨ notAnOperand (pFmtB d) ∨ mixedKinds (pFmtA d) (pFmtB d)) : passFieldsBad d = true := by
  by_contra hgood
  obtain ⟨ha, hb, hkind⟩ := formats_of_passFieldsBad (Bool.not_eq_true _ ▸ hgood)
  rcases hf with hfa | hfb | hmix
  · exact ha (fmtClass_notAnOperand hfa)
  · exact hb (fmtClass_notAnOperand hfb)
  · simp only [fmtIsInt, decide_eq_decide] at hkind
    rcases hmix with hm | hm <;> omega

theorem passHeadCheck_reserved {w : Nat} {k : Cmd} (hq : (harpAt s c h).queue = d :: rest) (hn : (harpAt s c h).next = none)
    (hr : (coreAt s c).running = true) (hs : (coreAt s c).stopped = false) (hm : (coreAt s c).harpMask / 2 ^ h.val % 2 = 1)
    (hw : (coreAt s c).ring = some w) (hcmd : (ringAt s w).cmd = some k) (hph : k.phase = .running)
    (hf : passFieldsBad d = true) :
    ∃ t, Runs (.passHeadCheck c h) s t ∧ (ringAt t w).cmd = some { k.cause 0x1D 0 with phase := .stopping } ∧
      (c.val ∈ k.cores → (harpAt t c h).queue = [] ∧ (harpAt t c h).next = none ∧ (harpAt t c h).active = none) ∧
      AgreeOutside [.harps, .cores, .sch] s t := by
  refine ⟨failCmd s w 0x1D 0, ?_, failCmd_cmd hcmd hph _ _, fun hc => ?_, Agree.mono (failCmd_keeps s w 0x1D 0) rfl⟩
  · rw [Runs, passHeadCheck_eq hq hn hr hs, hm, hf]
    simp [failCore, hw]
  · rw [← failCmd_abandons hcmd hph 0x1D 0 hc hw h.isLt]
    exact ⟨rfl, rfl, rfl⟩

end

/-! ### The obligations -/

/-- Settles O4, clause by clause from what the two commands answer. -/
theorem passesQueueAndStart : Obligations.PassesQueueAndStart := by
  unfold Obligations.PassesQueueAndStart
  exact ⟨passIssue_queues, passIssue_stalls,
    fun _ _ _ _ _ _ hq hn hr hs hm hf hc hp hreg => passHeadCheck_starts hq hn hr hs hm hf hc hp hreg,
    fun _ _ _ hq hn hr hs hm => passHeadCheck_misplaced hq hn hr hs hm⟩

/-- Settles O51: such a descriptor fails the check of its fields, and its command fails. -/
theorem reservedHarpFormats : Obligations.ReservedHarpFormats := by
  unfold Obligations.ReservedHarpFormats
  exact fun _ _ _ _ _ _ _ hq hn hr hs hm hw hcmd hph hf =>
    passHeadCheck_reserved hq hn hr hs hm hw hcmd hph (passFieldsBad_of_formats hf)

end Sys2Proof.Proofs
end

section
/-!
PROOFS. The fill and the drain of an accumulator set (R37, R38, R43, R54).
-/
namespace Sys2Proof.Proofs
open Sys2Proof.Machine Sys2Proof.Safety Sys2Proof.Laws

/-! ### The start of a fill (R38) -/

section
variable {c : CoreIx} {h : HarpIx} {p : Pass} {s : State}

theorem fillReady_of {x : Core} {d : List W64} (hr : pFill d = 0 ∨ fillReady x d = true) : fillReady x d = true := by
  rcases hr with hzero | hready
  · simp [fillReady, hzero]
  · exact hready

theorem setFillStart_fills (hn : (harpAt s c h).next = some p) (hfill : pFill p.desc ≠ 2) (hnot : p.filled = false)
    (huse : ((harpAt s c h).set p.set).use = .empty) (hr : pFill p.desc = 0 ∨ fillReady (coreAt s c) p.desc = true) :
    ∃ t, Runs (.setFillStart c h) s t ∧ ((harpAt t c h).set p.set).use = .filling ∧ HarpsOutside [hk c h] s t ∧
      AgreeOutside [.harps] s t := by
  have hok : (decide (pFill p.desc ≠ 2) && !p.filled && decide (((harpAt s c h).set p.set).use = .empty) &&
      fillReady (coreAt s c) p.desc) = true := by
    simp [hfill, hnot, huse, fillReady_of hr]
  refine ⟨setHarp s c h ((harpAt s c h).putSet p.set { AccSet.fresh with use := .filling }), ?_, ?_, harpsOutside_setHarp rfl _,
    setHarp_keeps s c h _⟩
  · rw [Runs, exec_setFillStart, execSetFillStart, hn]
    simp only [hok]
    rfl
  · rw [harpAt_setHarp_self, set_putSet]

/-! ### The end of a fill (R37, R38, R43) -/

/-- The set that a fill without poison ends with. -/
def filledSet (s : State) (c : Nat) (d : List W64) : AccSet :=
  loadZero s c d { AccSet.fresh with use := .active, acc := if pFill d = 1 then fillTile s.spd c (pFillAddr d) else [], desc := d }

/-- The harp once the set of its next pass is filled. -/
def filledHarp (s : State) (c h : Nat) (p : Pass) : Harp :=
  { (harpAt s c h).putSet p.set (filledSet s c p.desc) with next := some { p with filled := true } }

/-- The state once the set is filled, the fill tile's bytes counted (R424). -/
def filled (s : State) (c h : Nat) (p : Pass) : State :=
  setHarp (if pFill p.desc = 1 then countUnits s c 64 64 4096 else s) c h (filledHarp s c h p)

theorem filledHarp_set (s : State) (c h : Nat) (p : Pass) : (filledHarp s c h p).set p.set = filledSet s c p.desc :=
  (set_congr rfl rfl p.set).trans (set_putSet (harpAt s c h) p.set _)

theorem harpAt_filled (s : State) (c h : Nat) (p : Pass) : harpAt (filled s c h p) c h = filledHarp s c h p := harpAt_setHarp_self _ c h _

theorem passReads_quiet {c : Nat} (hq : SpdQuiet c s) (h : Nat) (d : List W64) (rs : List (Nat × Nat)) : passReads s c h d rs = s :=
  List.foldlRecOn rs _ (motive := fun v => v = s) rfl (fun v hv r _ => by rw [hv, spdAccess_quiet hq])

/-- A fill whose reads meet nothing and find no poison. -/
theorem setFillDone_fills (hn : (harpAt s c h).next = some p) (huse : ((harpAt s c h).set p.set).use = .filling)
    (hreads : passReads s c h p.desc (fillRanges p.desc) = s)
    (hfill : (decide (pFill p.desc = 1) && fillPoison s.spd c (pFillAddr p.desc)) = false) (hzero : zpPoison s.spd c p.desc = false) :
    Runs (.setFillDone c h) s (filled s c h p) := by
  rw [Runs, exec_setFillDone, execSetFillDone, hn]
  simp only [huse, hreads, hn, hfill, hzero, Bool.or_false, decide_eq_true_eq, ne_eq, not_true_eq_false, if_false, Option.isNone_some,
    Bool.false_eq_true]
  rfl

/-- A pass with no zero points to read. -/
theorem noZeroPoints {d : List W64} (hz : zeroRanges d = []) : ¬ (pFmtA d = 0xB ∨ pFmtA d = 0xD) ∧ ¬ (pFmtB d = 0xB ∨ pFmtB d = 0xD) := by
  rw [zeroRanges, List.append_eq_nil_iff] at hz
  obtain ⟨ha, hb⟩ := hz
  exact ⟨by simpa using ha, by simpa using hb⟩

theorem setFillDone_zeroes (hn : (harpAt s c h).next = some p) (huse : ((harpAt s c h).set p.set).use = .filling)
    (hfill : pFill p.desc = 0) (hz : zeroRanges p.desc = []) :
    ∃ t, Runs (.setFillDone c h) s t ∧ (harpAt t c h).set p.set = { AccSet.fresh with use := .active, desc := p.desc } ∧
      (harpAt t c h).next = some { p with filled := true } ∧ HarpsOutside [hk c h] s t ∧ AgreeOutside [.harps] s t := by
  obtain ⟨hA, hB⟩ := noZeroPoints hz
  have hreads : passReads s c h p.desc (fillRanges p.desc) = s := by simp [fillRanges, hfill, hz, passReads]
  have hset : filledSet s c p.desc = { AccSet.fresh with use := .active, desc := p.desc } := by
    simp [filledSet, loadZero, zpRead, hA, hB, hfill]
    rfl
  refine ⟨_, setFillDone_fills hn huse hreads (by simp [hfill]) (by simp [zpPoison, hA, hB]), ?_, ?_, ?_, ?_⟩
  · rw [harpAt_filled, filledHarp_set, hset]
  · rw [harpAt_filled]; rfl
  · rw [filled, hfill]; exact harpsOutside_setHarp rfl _
  · rw [filled, hfill]; exact setHarp_keeps s c h _

theorem setFillDone_readsZeros (hn : (harpAt s c h).next = some p) (huse : ((harpAt s c h).set p.set).use = .filling)
    (hfill : pFill p.desc = 0) (hfmt : pFmtA p.desc = 0xB ∨ pFmtA p.desc = 0xD) (hq : SpdQuiet c s)
    (hzero : zpPoison s.spd c p.desc = false) :
    ∃ t, Runs (.setFillDone c h) s t ∧
      ((harpAt t c h).set p.set).zpA = (List.range 32).map (fun i => (spdByte s.spd c (pZpA p.desc + i)).toNat) ∧
      ((harpAt t c h).set p.set).acc = [] ∧ ((harpAt t c h).set p.set).use = .active := by
  refine ⟨_, setFillDone_fills hn huse (passReads_quiet hq _ _ _) (by simp [hfill]) hzero, ?_⟩
  rw [harpAt_filled, filledHarp_set]
  simp [filledSet, loadZero, zpRead, hfmt, hfill]

theorem setFillDone_loads (hn : (harpAt s c h).next = some p) (huse : ((harpAt s c h).set p.set).use = .filling)
    (hfill : pFill p.desc = 1) (hq : SpdQuiet c s) (hpoison : fillPoison s.spd c (pFillAddr p.desc) = false)
    (hzero : zpPoison s.spd c p.desc = false) :
    ∃ t, Runs (.setFillDone c h) s t ∧ ((harpAt t c h).set p.set).use = .active ∧
      ((harpAt t c h).set p.set).acc = fillTile s.spd c (pFillAddr p.desc) ∧ ((harpAt t c h).set p.set).flags = 0 := by
  refine ⟨_, setFillDone_fills hn huse (passReads_quiet hq _ _ _) (by simp [hpoison]) hzero, ?_⟩
  rw [harpAt_filled, filledHarp_set]
  simp [filledSet, loadZero, hfill, AccSet.fresh]

/-! ### The start of a drain (R37, R109) -/

/-- The harp with the sets of a drain marked. -/
def drainingSets (x : Harp) (d : Due) : Harp :=
  match d.partner with
  | some q => (x.putSet d.set { x.set d.set with use := .draining }).putSet q
      { (x.putSet d.set { x.set d.set with use := .draining }).set q with use := .draining }
  | none => x.putSet d.set { x.set d.set with use := .draining }

/-- A set whose use is one value keeps it when that of any set becomes the same. -/
theorem use_putSet {x : Harp} {n : Nat} {v : SetUse} (hx : (x.set n).use = v) (q : Nat) :
    ((x.putSet q { x.set q with use := v }).set n).use = v := by
  unfold Harp.set Harp.putSet at *
  split <;> split <;> simp_all

theorem drainingSets_use (x : Harp) (d : Due) : ((drainingSets x d).set d.set).use = .draining := by
  have hown : ((x.putSet d.set { x.set d.set with use := .draining }).set d.set).use = .draining := by rw [set_putSet]
  unfold drainingSets
  split
  · exact use_putSet hown _
  · exact hown

theorem setDrainStart_drains {d : Due} {rest : List Due} {u : State} (hdue : (harpAt s c h).due = d :: rest)
    (hdrain : (harpAt s c h).drain = none) (hepi : (harpAt s c h).epi = none) (hout : (harpAt s c h).out = none)
    (hreg : register s c (epiFootprint (coreAt s c) (10000 + hk c h) h ((harpAt s c h).set d.set).desc
      (d.partner.map (fun q => ((harpAt s c h).set q).desc))) = .ok u) :
    ∃ t, Runs (.setDrainStart c h) s t ∧ (harpAt t c h).drain = some d ∧ (harpAt t c h).due = rest ∧
      ((harpAt t c h).set d.set).use = .draining ∧ HarpsOutside [hk c h] s t ∧ AgreeOutside [.harps, .cores, .regs] s t := by
  have hacc := (register_accounts hreg).agree
  refine ⟨setHarp u c h { drainingSets (harpAt s c h) d with due := rest, drain := some d }, ?_, ?_⟩
  · rw [Runs, exec_setDrainStart, execSetDrainStart, hdue]
    simp only [hdrain, hepi, hout, hreg, Option.isSome_none, Bool.or_false, Bool.false_eq_true, if_false]
    unfold drainingSets
    rfl
  · rw [harpAt_setHarp_self]
    exact ⟨rfl, rfl, (congrArg AccSet.use (set_congr rfl rfl d.set)).trans (drainingSets_use (harpAt s c h) d),
      harpsOutside_setHarp (hacc .harps (by decide)) _, Agree.step (setHarp_keeps u c h _) rfl (Agree.mono hacc rfl)⟩

/-! ### The end of a drain (R54) -/

/-- The exception registers of a harp as a drain leaves them (R54). -/
def excWritten (s : State) (c h tag flags rows : Nat) : State :=
  setReg (setReg s (R.HRP_EXC_LAST_INVALID.at c h) (excLast flags tag rows)) (R.HRP_EXC_ACC_FLAGS.at c h)
    (reg (setReg s (R.HRP_EXC_LAST_INVALID.at c h) (excLast flags tag rows)) (R.HRP_EXC_ACC_FLAGS.at c h) |||
      BitVec.ofNat 64 (flags % 16 + rows % 2 ^ 32 * 2 ^ 32))

theorem drainFlags_regs (s : State) (c h tag flags rows : Nat) :
    (drainFlags s c h tag flags rows).regs = (excWritten s c h tag flags rows).regs := by
  unfold drainFlags
  dsimp only
  split
  · exact orExceptions_keeps (excWritten s c h tag flags rows) _ _ .regs (by decide)
  · rfl

theorem reg_drainFlags_last (s : State) (c h tag flags rows : Nat) :
    reg (drainFlags s c h tag flags rows) (R.HRP_EXC_LAST_INVALID.at c h) = excLast flags tag rows := by
  have hne : R.HRP_EXC_LAST_INVALID.at c h ≠ R.HRP_EXC_ACC_FLAGS.at c h := by
    simp only [Fld.at, R.HRP_EXC_LAST_INVALID, R.HRP_EXC_ACC_FLAGS]; omega
  rw [reg_congr (drainFlags_regs s c h tag flags rows), excWritten, reg_setReg_other _ _ hne, reg_setReg_self]

theorem drainFlags_regsOutside (s : State) (c h tag flags rows : Nat) :
    RegsOutside [R.HRP_EXC_LAST_INVALID.at c h, R.HRP_EXC_ACC_FLAGS.at c h] s (drainFlags s c h tag flags rows) := fun o ho => by
  simp only [List.mem_cons, List.not_mem_nil, or_false, not_or] at ho
  obtain ⟨hlast, hacc⟩ := ho
  rw [reg_congr (drainFlags_regs s c h tag flags rows), excWritten, reg_setReg_other _ _ hacc, reg_setReg_other _ _ hlast]

/-- The harp once a set has drained alone. -/
def drainedHarp (x : Harp) (d : Due) : Harp :=
  { x.putSet d.set AccSet.fresh with drain := none, epi := some ⟨tileOf (x.set d.set), none, false⟩ }

theorem setDrainDone_empties {d : Due} (hdrain : (harpAt s c h).drain = some d) (halone : d.partner = none) :
    ∃ t, Runs (.setDrainDone c h) s t ∧ (harpAt t c h).drain = none ∧
      (harpAt t c h).epi = some ⟨tileOf ((harpAt s c h).set d.set), none, false⟩ ∧ (harpAt t c h).set d.set = AccSet.fresh ∧
      reg t (R.HRP_EXC_LAST_INVALID.at c h) = excLast ((harpAt s c h).set d.set).flags (pTag ((harpAt s c h).set d.set).desc)
        ((harpAt s c h).set d.set).rows ∧
      HarpsOutside [hk c h] s t ∧ RegsOutside [R.HRP_EXC_LAST_INVALID.at c h, R.HRP_EXC_ACC_FLAGS.at c h] s t ∧
      AgreeOutside [.harps, .regs, .sch] s t := by
  let u := setHarp s c h (drainedHarp (harpAt s c h) d)
  let a := (harpAt s c h).set d.set
  have hkeep := drainFlags_keeps u c h (pTag a.desc) a.flags a.rows
  have hharps := hkeep .harps (by decide)
  have hharp : harpAt (drainFlags u c h (pTag a.desc) a.flags a.rows) c h = drainedHarp (harpAt s c h) d := by
    rw [harpAt_congr hharps, harpAt_setHarp_self]
  refine ⟨drainFlags u c h (pTag a.desc) a.flags a.rows, ?_, ?_, ?_, ?_, reg_drainFlags_last _ _ _ _ _ _, fun k j hkj => ?_,
    drainFlags_regsOutside u c h _ _ _, Agree.step hkeep rfl (Agree.mono (setHarp_keeps s c h _) rfl)⟩
  · rw [Runs, exec_setDrainDone, execSetDrainDone, hdrain]
    simp only [halone, Option.map_none, Nat.or_zero]
    rfl
  · rw [hharp]; rfl
  · rw [hharp]; rfl
  · rw [hharp]
    exact (set_congr rfl rfl d.set).trans (set_putSet (harpAt s c h) d.set _)
  · exact (harpAt_congr hharps k j).trans (harpsOutside_setHarp rfl _ k j hkj)

end

/-! ### The obligation -/

/-- Settles O5, clause by clause from what the four commands answer. -/
theorem setFillAndDrain : Obligations.SetFillAndDrain := by
  unfold Obligations.SetFillAndDrain
  exact ⟨fun _ _ _ _ hn hfill hnot huse hr => setFillStart_fills hn hfill hnot huse hr,
    fun _ _ _ _ hn huse hfill hz => setFillDone_zeroes hn huse hfill hz,
    fun _ _ _ _ hn huse hfill hfmt hq hzero => setFillDone_readsZeros hn huse hfill hfmt hq hzero,
    fun _ _ _ _ hn huse hfill hq hpoison hzero => setFillDone_loads hn huse hfill hq hpoison hzero,
    fun _ _ _ _ _ _ hdue hdrain hepi hout hreg => setDrainStart_drains hdue hdrain hepi hout hreg,
    fun _ _ _ _ hdrain halone => setDrainDone_empties hdrain halone⟩

end Sys2Proof.Proofs
end

section
/-!
PROOFS. Polynomial tables and the upkeep of scratchpads (R60, R142, R143, R461).
-/
namespace Sys2Proof.Proofs
open Sys2Proof.Machine Sys2Proof.Safety Sys2Proof.Laws

/-! ### Reads of a scratchpad -/

theorem length_spdRead (p : Spd) (c a n : Nat) : (spdRead p c a n).length = n := by simp [spdRead]

/-- Part of a range read is the read of that part. -/
theorem spdRead_part (p : Spd) (c a : Nat) {i m n : Nat} (h : i + m ≤ n) : ((spdRead p c a n).drop i).take m = spdRead p c (a + i) m := by
  refine List.ext_getElem (by simp [spdRead]; omega) (fun k hk _ => ?_)
  simp [spdRead, Nat.add_assoc]

/-- The end of a range read is the read of that end. -/
theorem spdRead_end (p : Spd) (c a i m : Nat) : (spdRead p c a (i + m)).drop i = spdRead p c (a + i) m := by
  rw [← spdRead_part p c a (Nat.le_refl (i + m)), List.take_of_length_le (by simp [length_spdRead])]

/-! ### Runs of entries in a sparse map -/

/-- Entries put at consecutive keys are found there. -/
theorem look_putAll_run {α : Type} [DecidableEq α] (d : Nat → α) (m : SMap α) (base n : Nat) (g : Nat → α) {i : Nat} (hi : i < n) :
    SMap.look d (SMap.putAll d m ((List.range n).map (fun k => (base + k, g k)))) (base + i) = g i := by
  induction n with
  | zero => omega
  | succ n ih =>
    rw [List.range_succ, List.map_append, SMap.putAll, List.foldl_append]
    simp only [List.map_cons, List.map_nil, List.foldl_cons, List.foldl_nil, smap_look_put]
    by_cases hin : i = n
    · rw [if_pos (by omega), hin]
    · rw [if_neg (by omega)]
      exact ih (by omega)

/-! ### Table loads (R60, R461) -/

section
variable {c : CoreIx} {s : State}

/-- A core once its load has been counted (R424). -/
def loadCounted (s : State) (c : Nat) : State := countUnits (count s c 56 1) c 64 64 2056

theorem loadCounted_accounts (s : State) (c : Nat) : Accounted [.regs, .cores] c s (loadCounted s c) :=
  (countUnits_accounts _ c (by decide) 64 2056).step rfl ((count_accounts s c (by decide) 1).mono rfl)

theorem loadCounted_overlapOff {c : Nat} (hoff : rdB s R.SPD_OVERLAP_CTL_ACTIVE c 0 = false) :
    rdB (loadCounted s c) R.SPD_OVERLAP_CTL_ACTIVE c 0 = false :=
  overlapOff_of_counter (by decide) (countUnits_regs _ c 64 64 2056) (overlapOff_of_counter (by decide) (count_regs s c 56 1) hoff)

/-- A finite, not empty range [lo, hi) of a table's image (R60). -/
structure TableRange (p : Spd) (c addr : Nat) : Prop where
  loNum : (f32.unpack (leNat (spdRead p c (addr + 2048) 4))).isNan = false
  loFin : (f32.unpack (leNat (spdRead p c (addr + 2048) 4))).isInf = false
  hiNum : (f32.unpack (leNat (spdRead p c (addr + 2052) 4))).isNan = false
  hiFin : (f32.unpack (leNat (spdRead p c (addr + 2052) 4))).isInf = false
  below : (f32.unpack (leNat (spdRead p c (addr + 2048) 4))).lt false (f32.unpack (leNat (spdRead p c (addr + 2052) 4))) = true

theorem polyTableLoad_takes {t : Fin 2} {addr : Nat} (hi : canIssue s c = true) (hp : (coreAt s c).polyLoad = none) (ha : addr % 8 = 0)
    (hfit : addr + 2056 ≤ spdBytes) (hq : SpdQuiet c s) (hoff : rdB s R.SPD_OVERLAP_CTL_ACTIVE c 0 = false)
    (hclean : spdPoison s.spd c addr 2056 = false) (hr : TableRange s.spd c addr) :
    ∃ u, Runs (.polyTableLoad c t addr) s u ∧ (coreAt u c).polyLoad = some (t.val, spdRead s.spd c addr 2056) ∧
      rd u R.FDL_STATUS_STATE c 0 = 3 ∧ CoresOutside [c.val] s u ∧ AgreeOutside [.regs, .cores] s u := by
  let load : Core → Core := fun x => { x with polyLoad := some (t.val, spdRead s.spd c addr 2056) }
  have hacc := loadCounted_accounts s c
  have hcount := count_accounts s c (n := 56) (by decide) 1
  have hspd : (count s c 56 1).spd = s.spd := hcount.agree .spd (by decide)
  have hlo : ((spdRead s.spd c addr 2056).drop 2048).take 4 = spdRead s.spd c (addr + 2048) 4 := spdRead_part _ _ _ (by decide)
  have hhi : (spdRead s.spd c addr 2056).drop 2052 = spdRead s.spd c (addr + 2052) 4 := spdRead_end s.spd c addr 2052 4
  refine ⟨wr (onCore (loadCounted s c) c load) R.FDL_STATUS_STATE c 0 3, ?_, ?_, rd_wr_self _ _ _ _ _ (by decide), fun k hk => ?_, ?_⟩
  · rw [Runs, exec_polyTableLoad, execPolyTableLoad]
    simp only [hi, hp, ha, hspd, hlo, hhi, hclean, hr.loNum, hr.loFin, hr.hiNum, hr.hiFin, hr.below, Nat.not_lt.mpr hfit,
      spdAccess_quiet (hcount.quiet (by decide) hq), Option.isSome_none, Bool.not_true, Bool.or_false, Bool.false_eq_true, if_false, ne_eq, not_true_eq_false]
    rw [show countUnits (count s c 56 1) c 64 64 2056 = loadCounted s c from rfl, register_off (loadCounted_overlapOff hoff)]
  · rw [coreAt_wr, coreAt_onCore, if_pos rfl]
  · rw [coreAt_wr, coresOutside_onCore _ _ _ k hk, hacc.others k hk]
  · exact Agree.step (wr_keeps _ _ _ _ _) rfl (Agree.step (onCore_keeps _ _ _) rfl hacc.agree)

/-- The word that segment i / 4 of an image gives for coefficient i % 4; the fourth word of a segment is none (R461). -/
def tableCoef (img : List Byte) (i : Nat) : W64 := if i % 4 = 3 then 0 else BitVec.ofNat 64 (leNat ((img.drop (8 * i)).take 8))

/-- A coefficient store with the image of table t. -/
def coefStore (m : SMap W64) (t : Nat) (img : List Byte) : SMap W64 :=
  SMap.putAll (fun _ => (0 : W64)) m ((List.range 256).map (fun i => (t * 256 + i, tableCoef img i)))

theorem look_coefStore (m : SMap W64) (t : Nat) (img : List Byte) {i : Nat} (hi : i < 256) (hk : i % 4 ≠ 3) :
    SMap.look (fun _ => (0 : W64)) (coefStore m t img) (t * 256 + i) = BitVec.ofNat 64 (leNat ((img.drop (8 * i)).take 8)) := by
  rw [coefStore, look_putAll_run _ m (t * 256) 256 (tableCoef img) hi, tableCoef, if_neg hk]

/-- The core whose table load has ended. -/
def tableHeld (t : Nat) (img : List Byte) (x : Core) : Core := { x with coef := coefStore x.coef t img, polyLoad := none }

theorem coef_tableHeld (t : Nat) (img : List Byte) (x : Core) : (tableHeld t img x).coef = coefStore x.coef t img := by rw [tableHeld]

theorem polyTableLoadDone_holds {t : Nat} {img : List Byte} (hp : (coreAt s c).polyLoad = some (t, img)) :
    ∃ u, Runs (.polyTableLoadDone c) s u ∧ (coreAt u c).polyLoad = none ∧
      (∀ i < 256, i % 4 ≠ 3 → SMap.look (fun _ => (0 : W64)) (coreAt u c).coef (t * 256 + i) =
        BitVec.ofNat 64 (leNat ((img.drop (8 * i)).take 8))) ∧
      rd u R.FDL_POLY_RANGE_LO c t = leNat ((img.drop 2048).take 4) % 2 ^ 32 ∧ rd u R.FDL_STATUS_STATE c 0 = 0 ∧
      CoresOutside [c.val] s u ∧ AgreeOutside [.regs, .cores] s u := by
  let v := release (onCore s c (tableHeld t img)) c 20001
  let lo := leNat ((img.drop 2048).take 4)
  let ranged := wr (wr v R.FDL_POLY_RANGE_LO c t lo) R.FDL_POLY_RANGE_HI c t (leNat (img.drop 2052))
  have hacc : Accounted [.regs, .cores] c (onCore s c (tableHeld t img)) v := release_accounts _ c 20001
  have hheld : bareCore (coreAt v c) = bareCore (tableHeld t img (coreAt s c)) := by rw [hacc.bare, coreAt_onCore, if_pos rfl]
  have hcoef : (coreAt v c).coef = (tableHeld t img (coreAt s c)).coef := field_of_bare (g := Core.coef) (fun _ => rfl) hheld
  have hload : (coreAt v c).polyLoad = none := field_of_bare (g := Core.polyLoad) (fun _ => rfl) hheld
  have hcores : ∀ k, coreAt (wr ranged R.FDL_STATUS_STATE c 0 0) k = coreAt v k := fun k => by rw [coreAt_wr, coreAt_wr, coreAt_wr]
  have hne : R.FDL_POLY_RANGE_LO.at c t ≠ R.FDL_STATUS_STATE.at c 0 := by
    simp only [Fld.at, R.FDL_POLY_RANGE_LO, R.FDL_STATUS_STATE]; omega
  refine ⟨wr ranged R.FDL_STATUS_STATE c 0 0, ?_, ?_, fun i hi hk => ?_, ?_, rd_wr_self _ _ _ _ _ (by decide), fun k hk => ?_, ?_⟩
  · rw [Runs, exec_polyTableLoadDone, execPolyTableLoadDone, hp]
    rfl
  · rw [hcores, hload]
  · rw [hcores, hcoef, coef_tableHeld, look_coefStore _ t img hi hk]
  · rw [rd_wr_ne _ _ _ _ _ _ _ _ hne, rd_wr_disjoint _ _ _ _ _ _ _ _ (by decide) (by decide), rd_wr_self _ _ _ _ _ (by decide)]
    rfl
  · rw [hcores, hacc.others k hk, coresOutside_onCore s c _ k hk]
  · exact Agree.step (wr_keeps _ _ _ _ _) rfl (Agree.step (wr_keeps _ _ _ _ _) rfl (Agree.step (wr_keeps _ _ _ _ _) rfl
      (Agree.step hacc.agree rfl (Agree.mono (onCore_keeps s c _) rfl))))

/-! ### Upkeep (R142, R143) -/

/-- The state with a word's error corrected. -/
def corrected (s : State) (k : Nat) : State := { s with spd := { s.spd with err := SMap.put (fun _ => 0) s.spd.err k 0 } }

theorem spdErr_corrected (s : State) (k j : Nat) : spdErr (corrected s k).spd j = if j = k then 0 else spdErr s.spd j :=
  smap_look_put _ s.spd.err k j 0

theorem spdEccWriteback_clears {word : Nat} (herr : spdErr s.spd (c.val * 2 ^ 29 + word) = 1) :
    ∃ t, Runs (.spdEccWriteback c word) s t ∧ spdErr t.spd (c.val * 2 ^ 29 + word) = 0 ∧
      (∀ k, k ≠ c.val * 2 ^ 29 + word → spdErr t.spd k = spdErr s.spd k) ∧
      t.spd.bytes = s.spd.bytes ∧ t.spd.poison = s.spd.poison ∧ AgreeOutside [.spd] s t := by
  refine ⟨corrected s (c.val * 2 ^ 29 + word), ?_, (spdErr_corrected s _ _).trans (if_pos rfl),
    fun k hk => (spdErr_corrected s _ _).trans (if_neg hk), rfl, rfl, Agree.with_spd s _⟩
  rw [Runs, exec_spdEccWriteback, execSpdEccWriteback, decide_eq_true herr]
  rfl

/-- A cleared scratchpad holds no poison. -/
theorem spdPoison_spdClear (p : Spd) (c : Nat) {a n : Nat} (h : a + n ≤ 2 ^ 32) : spdPoison (spdClear p c) c a n = false := by
  refine List.any_eq_false.mpr (fun w hw => ?_)
  have hcore : w / 2 ^ 29 = c := by
    unfold spdWords at hw
    split at hw
    · cases hw
    · obtain ⟨i, hi, rfl⟩ := List.mem_map.mp hw
      have hi' := List.mem_range.mp hi
      omega
  rw [spdClear, smap_look_keep_out _ _ (by rw [hcore]; simp)]
  decide

/-- The state with core c's scratchpad cleared. -/
def padCleared (s : State) (c : Nat) : State := { onCore s c (fun x => { x with clearing := false }) with spd := spdClear s.spd c }

theorem coreAt_padCleared (s : State) (c k : Nat) :
    coreAt (padCleared s c) k = if k = c then { coreAt s c with clearing := false } else coreAt s k :=
  coreAt_onCore s c k (fun x => { x with clearing := false })

theorem spdClearDone_clears (hc : (coreAt s c).clearing = true) :
    ∃ t, Runs (.spdClearDone c) s t ∧ (coreAt t c).clearing = false ∧ (∀ k < 2 ^ 32, spdByte t.spd c k = 0) ∧
      (∀ a n, a + n ≤ 2 ^ 32 → spdPoison t.spd c a n = false) ∧
      (∀ c' k, c' ≠ c.val → k < 2 ^ 32 → spdByte t.spd c' k = spdByte s.spd c' k) ∧
      CoresOutside [c.val] s t ∧ AgreeOutside [.spd, .cores] s t := by
  refine ⟨padCleared s c, ?_, ?_, fun k hk => spdByte_spdClear_self _ _ (spdKey_core _ hk), fun a n h => spdPoison_spdClear _ _ h,
    fun c' k hne hk => spdByte_spdClear_other _ (by rw [spdKey_core _ hk]; exact hne), fun k hk => ?_,
    Agree.step (Agree.with_spd _ _) rfl (Agree.mono (onCore_keeps s c _) rfl)⟩
  · rw [Runs, exec_spdClearDone, execSpdClearDone, hc]
    rfl
  · rw [coreAt_padCleared, if_pos rfl]
  · rw [coreAt_padCleared, if_neg (by simpa using hk)]

end

/-! ### The obligation -/

/-- Settles O8, clause by clause from what the four commands answer. -/
theorem tablesAndScratchpadUpkeep : Obligations.TablesAndScratchpadUpkeep := by
  unfold Obligations.TablesAndScratchpadUpkeep
  exact ⟨fun _ _ _ _ hi hp ha hfit hq hoff hclean hln hlf hhn hhf hlt =>
      polyTableLoad_takes hi hp ha hfit hq hoff hclean ⟨hln, hlf, hhn, hhf, hlt⟩,
    fun _ _ _ _ hp _ => polyTableLoadDone_holds hp,
    fun _ _ _ herr => spdEccWriteback_clears herr,
    fun _ _ hc => spdClearDone_clears hc⟩

end Sys2Proof.Proofs
end

section
/-!
PROOFS. Instructions of the fiddle unit (R58, R62, R128, R144): their one write, what it leaves, and what stops them.
-/
namespace Sys2Proof.Proofs
open Sys2Proof.Machine Sys2Proof.Safety Sys2Proof.Laws

/-! ### Vectors of elements (R65) -/

theorem length_packElems (w : Nat) (xs : List Nat) : (packElems w xs).length = packedBytes w xs.length := by simp [packElems]

theorem length_spdVec (s : State) (c f o n : Nat) : (spdVec s c f o n).length = n := by simp [spdVec, unpackElems]

theorem spdVec_congr {s t : State} (h : t.spd = s.spd) (c f o n : Nat) : spdVec t c f o n = spdVec s c f o n := by rw [spdVec, spdVec, h]

/-- The overlaid bytes read back are the data. -/
theorem spdRead_of_overlaid {p q : Spd} {c a : Nat} {data : List Byte} (h : ∀ k < 2 ^ 32, spdByte q c k = overlaid p c a data k)
    (hfit : a + data.length ≤ 2 ^ 32) : spdRead q c a data.length = data := by
  refine List.ext_getElem (by rw [length_spdRead]) (fun i hi hdata => ?_)
  have hk : spdByte q c (a + i) = data.getD (a + i - a) 0 := by rw [h _ (by omega), overlaid, if_pos (by omega)]
  simpa [spdRead, hdata] using hk

/-! ### A store without a shadow (R408) -/

section
variable {s : State} {c a : Nat} {data : List Byte}

theorem spdStore_alone (hq : SpdQuiet c s) (hshadow : shadowOf s c = none) (kind harp tag : Nat) (bad : Bool) :
    spdStore s c a kind harp tag data bad = putSpd (countUnits s c 65 64 data.length) c a data bad := by
  have hcount := countUnits_accounts s c (n := 65) (by decide) 64 data.length
  have hnone : shadowOf (putSpd (countUnits s c 65 64 data.length) c a data bad) c = none := by
    rw [putSpd_quiet (hcount.quiet (by decide) hq).2]
    exact (shadowOf_congr hcount.low c).trans hshadow
  rw [spdStore, spdAccess_quiet hq]
  simp only [hnone]

/-- Only the written core's bytes change when it has no shadow. -/
theorem spdByte_spdStore_other (hq : SpdQuiet c s) (hshadow : shadowOf s c = none) (kind harp tag : Nat) (bad : Bool)
    (hfit : a + data.length ≤ 2 ^ 32) {d k : Nat} (hd : d ≠ c) (hk : k < 2 ^ 32) :
    spdByte (spdStore s c a kind harp tag data bad).spd d k = spdByte s.spd d k := by
  have hcount := countUnits_accounts s c (n := 65) (by decide) 64 data.length
  rw [spdStore_alone hq hshadow, putSpd_quiet (hcount.quiet (by decide) hq).2, spdByte_spdWrite _ _ _ _ _ _ _ hfit hk,
    if_neg (fun h => hd h.1), hcount.agree .spd (by decide)]

end

/-! ### The run of an instruction -/

/-- What an instruction registers with the overlap check (R144). -/
def fdlFootprint (i : FdlInstr) : List Footprint :=
  (fdlSpans i).zipIdx.map (fun p => ⟨20000, spanPart i p.2, 3, 0, 0, p.1.lo, p.1.lo + p.1.n, p.1.writes⟩)

/-- A core once an instruction has read its vectors (R424, R432). -/
def fdlRead (s : State) (c : Nat) (i : FdlInstr) : State :=
  ((fdlSpans i).filter (fun p => !p.writes)).foldl (fun v p => countUnits (spdAccess v c p.lo p.n 3 false 0 0) c 64 64 p.n) s

/-- An instruction whose poison moves with its bytes (R394). -/
def fdlMoves : FdlInstr → Bool
  | .move .. => true
  | .column .. => true
  | .gatherIx .. => true
  | .permute .. => true
  | _ => false

/-- The mode of an instruction's statistic, 0 where it gathers none (R96). -/
def fdlStat : FdlInstr → Nat
  | .convert _ _ _ _ _ _ mode _ _ _ => mode
  | _ => 0

/-- Has an instruction met poison: in what it reads, or in the accumulator of a block dot (R394). -/
def fdlPoisoned (s : State) (c : Nat) (i : FdlInstr) : Bool :=
  ((fdlSpans i).filter (fun p => !p.writes)).any (fun p => spdPoison s.spd c p.lo p.n) ||
    match i with
    | .blockDot _ _ _ _ _ _ _ _ _ dst => spdPoison s.spd c dst 4
    | _ => false

/-- The state once an instruction's one write and its flags are done (R58, R62). -/
def fdlWritten (v : State) (c : Nat) (i : FdlInstr) (dst : Nat) (data : List Byte) (fl : Nat) (bad : Bool) : State :=
  fdlFlags (spdStore (count v c (fdlCounted i).1 (fdlCounted i).2) c dst 3 0 0 data bad) c fl

/-- Its end: poison that it computed with is noted (R394, R396). -/
def fdlEnd (v : State) (c w : Nat) (i : FdlInstr) (dst : Nat) (data : List Byte) (fl : Nat) (bad : Bool) : State :=
  if bad && !fdlMoves i then notePoison (fdlWritten v c i dst data fl bad) w none else fdlWritten v c i dst data fl bad

/-- Nothing keeps an instruction from running: state u is the core's with its footprint registered. -/
structure FdlReady (c : Nat) (i : FdlInstr) (s u : State) : Prop where
  issues : canIssue s c = true
  noLoad : (coreAt s c).polyLoad = none
  noWait : fdlWaits s c i = false
  provided : fdlReserved i = false
  inRange : ∀ p ∈ fdlSpans i, p.lo + p.n ≤ spdBytes
  noIndex : ∀ v, indexSpans v c i = []
  free : register (count s c 56 1) c (fdlFootprint i) = .ok u
  quiet : SpdQuiet c s
  alone : shadowOf s c = none

theorem fdlCounted_lt (i : FdlInstr) : (fdlCounted i).1 < 128 := by
  unfold fdlCounted
  repeat' split
  all_goals exact Nat.le_of_ble_eq_true rfl

section
variable {c : CoreIx} {i : FdlInstr} {s u : State}

theorem not_beyond {ps : List Span} (h : ∀ p ∈ ps, p.lo + p.n ≤ spdBytes) : ps.any (fun p => decide (spdBytes < p.lo + p.n)) = false :=
  List.any_eq_false.mpr fun p hp => by simpa using h p hp

/-- An instruction that is ready runs to its end, where it has one write and gathers no statistic. -/
theorem fiddleInstruction_runs {dst fl : Nat} {data : List Byte} {items : List ErrItem} (h : FdlReady c i s u)
    (hres : fdlResult (fdlRead (release u c 20000) c i) c i = (fdlRead (release u c 20000) c i, [(dst, data)], fl, items))
    (hstat : fdlStat i = 0) :
    Runs (.fiddleInstruction c i) s (fdlEnd (fdlRead (release u c 20000) c i) c ((coreAt s c).ring.getD 0) i dst data fl
      (fdlPoisoned (fdlRead (release u c 20000) c i) c i)) := by
  have hfree := h.free
  rw [fdlFootprint] at hfree
  unfold fdlRead at hres
  rw [Runs, exec_fiddleInstruction]
  unfold execFiddleInstruction
  simp only [h.issues, h.noLoad, h.noWait, h.provided, not_beyond h.inRange, h.noIndex, hfree, hres, List.append_nil,
    Option.isSome_none, Bool.not_true, Bool.or_false, Bool.false_eq_true, if_false]
  cases i with
  | convert => exact congrArg Host.Outcome.next (if_pos hstat)
  | _ => rfl

/-- Reading and registering are accounts of the core (R144, R424). -/
theorem FdlReady.accounts (h : FdlReady c i s u) : Accounted [.regs, .cores] c s (fdlRead (release u c 20000) c i) := by
  have hreleased : Accounted [.regs, .cores] c s (release u c 20000) :=
    (release_accounts u c 20000).step rfl ((register_accounts h.free).step rfl ((count_accounts s c (by decide) 1).mono rfl))
  refine List.foldlRecOn _ _ (motive := fun v => Accounted [.regs, .cores] c s v) hreleased (fun v hv p _ => ?_)
  rw [spdAccess_quiet (hv.quiet (by decide) h.quiet)]
  exact (countUnits_accounts v c (by decide) 64 p.n).step rfl hv

/-- Data stand at dst of core c's scratchpad, and no other byte of a scratchpad differs. -/
structure Placed (c dst : Nat) (data : List Byte) (s t : State) : Prop where
  here : ∀ k < 2 ^ 32, spdByte t.spd c k = overlaid s.spd c dst data k
  elsewhere : ∀ d k, d ≠ c → k < 2 ^ 32 → spdByte t.spd d k = spdByte s.spd d k

theorem Placed.congr {t v : State} {c dst : Nat} {data : List Byte} (h : Placed c dst data s t) (hv : v.spd = t.spd) : Placed c dst data s v :=
  ⟨fun k hk => by rw [hv, h.here k hk], fun d k hd hk => by rw [hv, h.elsewhere d k hd hk]⟩

theorem fdlWritten_places {v : State} {c dst : Nat} {data : List Byte} (hacc : Accounted [.regs, .cores] c s v) (hq : SpdQuiet c s)
    (hshadow : shadowOf s c = none) (hfit : dst + data.length ≤ 2 ^ 32) (i : FdlInstr) (fl : Nat) (bad : Bool) :
    Placed c dst data s (fdlWritten v c i dst data fl bad) ∧
      AgreeOutside [.spd, .regs, .cores, .sch] s (fdlWritten v c i dst data fl bad) := by
  have hcount : Accounted [.regs, .cores] c s (count v c (fdlCounted i).1 (fdlCounted i).2) :=
    (count_accounts v c (fdlCounted_lt i) _).step rfl hacc
  have hquiet := hcount.quiet (by decide) hq
  have hspd := hcount.agree .spd (by decide)
  obtain ⟨hframe, hbytes⟩ := spdStore_moves hquiet 3 0 0 bad hfit
  have hflags := fdlFlags_keeps (spdStore (count v c (fdlCounted i).1 (fdlCounted i).2) c dst 3 0 0 data bad) c fl
  refine ⟨Placed.congr ⟨fun k hk => ?_, fun d k hd hk => ?_⟩ (hflags .spd (by decide)),
    Agree.step hflags rfl (Agree.step hframe.agree rfl (Agree.mono hcount.agree rfl))⟩
  · rw [hbytes k hk, hspd]
  · rw [spdByte_spdStore_other hquiet ((shadowOf_congr hcount.low c).trans hshadow) 3 0 0 bad hfit hd hk, hspd]

theorem fdlEnd_places {v : State} {c dst : Nat} {data : List Byte} (hacc : Accounted [.regs, .cores] c s v) (hq : SpdQuiet c s)
    (hshadow : shadowOf s c = none) (hfit : dst + data.length ≤ 2 ^ 32) (w : Nat) (i : FdlInstr) (fl : Nat) (bad : Bool) :
    Placed c dst data s (fdlEnd v c w i dst data fl bad) ∧ (fdlEnd v c w i dst data fl bad).mem = s.mem := by
  obtain ⟨hplaced, hagree⟩ := fdlWritten_places hacc hq hshadow hfit i fl bad
  unfold fdlEnd
  split
  · have hnote := notePoison_keeps (fdlWritten v c i dst data fl bad) w none
    exact ⟨hplaced.congr (hnote .spd (by decide)), (hnote .mem (by decide)).trans (hagree .mem (by decide))⟩
  · exact ⟨hplaced, hagree .mem (by decide)⟩

theorem Placed.read {t : State} {c dst : Nat} {data : List Byte} (h : Placed c dst data s t) (hfit : dst + data.length ≤ 2 ^ 32) :
    spdRead t.spd c dst data.length = data := spdRead_of_overlaid h.here hfit

/-- The end of an instruction with one write of the given data, and no statistic. -/
theorem fiddleInstruction_places {dst : Nat} {data : List Byte} (h : FdlReady c i s u)
    (hres : ∀ v, v.spd = s.spd → (fdlResult v c i).1 = v ∧ (fdlResult v c i).2.1 = [(dst, data)]) (hstat : fdlStat i = 0)
    (hfit : dst + data.length ≤ 2 ^ 32) :
    ∃ t, Runs (.fiddleInstruction c i) s t ∧ spdRead t.spd c dst data.length = data ∧ t.mem = s.mem := by
  obtain ⟨hstate, hwrite⟩ := hres _ (h.accounts.agree .spd (by decide))
  obtain ⟨hplaced, hmem⟩ := fdlEnd_places h.accounts h.quiet h.alone hfit _ i _ _
  exact ⟨_, fiddleInstruction_runs h (Prod.ext hstate (Prod.ext hwrite rfl)) hstat, hplaced.read hfit, hmem⟩

end

/-! ### Copies, lane operations and conversions (R58, R66, R82) -/

section
variable {c : CoreIx} {s : State}

theorem move_places {n src dst : Nat} {u : State} (hi : canIssue s c = true) (hp : (coreAt s c).polyLoad = none) (hq : SpdQuiet c s)
    (hshadow : shadowOf s c = none) (hsrc : src + n ≤ spdBytes) (hdst : dst + n ≤ spdBytes)
    (hreg : register (count s c 56 1) c [⟨20000, 0, 3, 0, 0, src, src + n, false⟩, ⟨20000, 1, 3, 0, 0, dst, dst + n, true⟩] = .ok u) :
    ∃ t, Runs (.fiddleInstruction c (.move n src dst)) s t ∧ spdRead t.spd c dst n = spdRead s.spd c src n ∧
      (∀ k < 2 ^ 32, ¬ (dst ≤ k ∧ k < dst + n) → spdByte t.spd c k = spdByte s.spd c k) ∧
      (∀ c' k, c' ≠ c.val → k < 2 ^ 32 → spdByte t.spd c' k = spdByte s.spd c' k) ∧
      AgreeOutside [.spd, .regs, .cores, .sch] s t := by
  have hready : FdlReady c (.move n src dst) s u :=
    ⟨hi, hp, rfl, rfl, by simp [fdlSpans, hsrc, hdst], fun _ => rfl, hreg, hq, hshadow⟩
  have hlen := length_spdRead s.spd c src n
  have hfit : dst + (spdRead s.spd c src n).length ≤ 2 ^ 32 := by simp only [spdBytes] at hdst; omega
  have hrun := fiddleInstruction_runs (dst := dst) (data := spdRead s.spd c src n) (fl := 0) (items := []) hready
    (by rw [fdlResult, hready.accounts.agree .spd (by decide)]) rfl
  rw [fdlEnd, fdlMoves, Bool.not_true, Bool.and_false, if_neg Bool.false_ne_true] at hrun
  obtain ⟨hplaced, hagree⟩ := fdlWritten_places hready.accounts hq hshadow hfit (.move n src dst) 0
    (fdlPoisoned (fdlRead (release u c 20000) c (.move n src dst)) c (.move n src dst))
  refine ⟨_, hrun, ?_, fun k hk hout => ?_, hplaced.elsewhere, hagree⟩
  · have hread := hplaced.read hfit
    rwa [hlen] at hread
  · rw [hplaced.here k hk, overlaid, hlen, if_neg hout]

theorem arith_places {op : FdlOp} {f : Fin 16} {p : BinFmt} {n a b z dst : Nat} (hi : canIssue s c = true)
    (hp : (coreAt s c).polyLoad = none) (hq : SpdQuiet c s) (hshadow : shadowOf s c = none)
    (hoff : rdB s R.SPD_OVERLAP_CTL_ACTIVE c 0 = false) (hres : fdlReserved (.arith op f n a b z dst) = false)
    (hop : fdlOpIsInt op = false) (hf : binFmt f = some p)
    (hspans : ∀ q ∈ fdlSpans (.arith op f n a b z dst), q.lo + q.n ≤ spdBytes) :
    ∃ t, Runs (.fiddleInstruction c (.arith op f n a b z dst)) s t ∧
      spdRead t.spd c dst (packedBytes (fmtBits f) n) = packElems (fmtBits f)
        (((spdVec s c f a n).zip ((spdVec s c f b n).zip (spdVec s c f z n))).map (fun x => (floatOp op p f x.1 x.2.1 x.2.2).1)) ∧
      t.mem = s.mem := by
  have hready : FdlReady c (.arith op f n a b z dst) s (count s c 56 1) :=
    ⟨hi, hp, rfl, hres, hspans, fun _ => rfl, register_off (overlapOff_of_counter (by decide) (count_regs s c 56 1) hoff) _, hq, hshadow⟩
  have hlen : (packElems (fmtBits f) (((spdVec s c f a n).zip ((spdVec s c f b n).zip (spdVec s c f z n))).map
      (fun x => (floatOp op p f x.1 x.2.1 x.2.2).1))).length = packedBytes (fmtBits f) n := by
    simp [length_packElems, length_spdVec]
  have hdst : dst + packedBytes (fmtBits f) n ≤ spdBytes := hspans (span f dst n true) (by simp [fdlSpans])
  rw [← hlen]
  refine fiddleInstruction_places hready (fun v hv => ?_) rfl (by simp only [spdBytes] at hdst; omega)
  simp [fdlResult, hop, hf, spdVec_congr hv, Function.comp_def]

theorem convert_places {f g : Fin 16} {rtz : Bool} {n a dst va row col : Nat} (hi : canIssue s c = true)
    (hp : (coreAt s c).polyLoad = none) (hq : SpdQuiet c s) (hshadow : shadowOf s c = none)
    (hoff : rdB s R.SPD_OVERLAP_CTL_ACTIVE c 0 = false) (hres : fdlReserved (.convert f g rtz n a dst 0 va row col) = false)
    (hsrc : a + packedBytes (fmtBits f) n ≤ spdBytes) (hdst : dst + packedBytes (fmtBits g) n ≤ spdBytes) :
    ∃ t, Runs (.fiddleInstruction c (.convert f g rtz n a dst 0 va row col)) s t ∧
      spdRead t.spd c dst (packedBytes (fmtBits g) n) =
        packElems (fmtBits g) ((spdVec s c f a n).map (fun x => (convertTo g rtz (fmtVal f x)).1)) ∧ t.mem = s.mem := by
  have hready : FdlReady c (.convert f g rtz n a dst 0 va row col) s (count s c 56 1) :=
    ⟨hi, hp, by simp [fdlWaits, gatherErrWaits], hres, by simp [fdlSpans, span, hsrc, hdst], fun _ => rfl,
      register_off (overlapOff_of_counter (by decide) (count_regs s c 56 1) hoff) _, hq, hshadow⟩
  have hlen : (packElems (fmtBits g) ((spdVec s c f a n).map (fun x => (convertTo g rtz (fmtVal f x)).1))).length =
      packedBytes (fmtBits g) n := by simp [length_packElems, length_spdVec]
  rw [← hlen]
  refine fiddleInstruction_places hready (fun v hv => ?_) rfl (by simp only [spdBytes] at hdst; omega)
  simp [fdlResult, spdVec_congr hv, Function.comp_def]

/-! ### What stops an instruction (R14, R128, R462) -/

theorem fiddleInstruction_reserved {i : FdlInstr} (hi : canIssue s c = true) (hp : (coreAt s c).polyLoad = none)
    (hw : fdlWaits s c i = false) (hres : fdlReserved i = true) :
    Runs (.fiddleInstruction c i) s (failCmd (count s c 56 1) ((coreAt s c).ring.getD 0) 0x1D 0) := by
  rw [Runs, exec_fiddleInstruction]
  unfold execFiddleInstruction
  simp [hi, hp, hw, hres]

theorem fiddleInstruction_beyond {i : FdlInstr} (hi : canIssue s c = true) (hp : (coreAt s c).polyLoad = none)
    (hw : fdlWaits s c i = false) (hres : fdlReserved i = false) (hbeyond : ∃ p ∈ fdlSpans i, spdBytes < p.lo + p.n) :
    Runs (.fiddleInstruction c i) s (failCmd (count s c 56 1) ((coreAt s c).ring.getD 0) 0x1C 0) := by
  have hany : (fdlSpans i).any (fun p => decide (spdBytes < p.lo + p.n)) = true := by simpa using hbeyond
  rw [Runs, exec_fiddleInstruction]
  unfold execFiddleInstruction
  simp only [hi, hp, hw, hres, hany, Option.isSome_none, Bool.not_true, Bool.or_false, Bool.false_eq_true, if_false, if_true]

theorem fiddleInstruction_stalls {i : FdlInstr} (hi : canIssue s c = false) : Runs (.fiddleInstruction c i) s s := by
  rw [Runs, exec_fiddleInstruction]
  unfold execFiddleInstruction
  simp [hi]

end

/-! ### The obligation -/

/-- Settles O7, clause by clause from what an instruction answers. -/
theorem fiddleInstructionRuns : Obligations.FiddleInstructionRuns := by
  unfold Obligations.FiddleInstructionRuns
  exact ⟨fun _ _ _ _ _ _ hi hp hq hshadow hsrc hdst hreg => move_places hi hp hq hshadow hsrc hdst hreg,
    fun _ _ _ _ _ _ _ _ _ _ hi hp hq hshadow hoff hres hop hf hspans => arith_places hi hp hq hshadow hoff hres hop hf hspans,
    fun _ _ _ _ _ _ _ _ _ _ _ hi hp hq hshadow hoff hres hsrc hdst => convert_places hi hp hq hshadow hoff hres hsrc hdst,
    fun _ _ _ hi hp hw hres => fiddleInstruction_reserved hi hp hw hres,
    fun _ _ _ hi hp hw hres hbeyond => fiddleInstruction_beyond hi hp hw hres hbeyond,
    fun _ _ _ hi => fiddleInstruction_stalls hi⟩

end Sys2Proof.Proofs
end

section
/-!
PROOFS. The cycles of a harp (R34, R36, R39, R44): stalls, the two cycles of the 16-bit class, and K steps.
-/
namespace Sys2Proof.Proofs
open Sys2Proof.Machine Sys2Proof.Safety Sys2Proof.Laws

/-! ### Stall runs (R36, R435) -/

section
variable {s t : State} {c h w r : Nat}

theorem traceRec_regs (s : State) (c kind harp : Nat) (w2 w3 : W64) :
    RegsOff (· = R.CNT_TRACE_STATUS_LOST.at c 0) s (traceRec s c kind harp w2 w3) := by
  unfold traceRec
  split
  · split
    · exact RegsOff.of_agree (onCore_keeps s c _) (by decide)
    · exact (RegsOff.of_wr (P := (· = R.CNT_TRACE_STATUS_LOST.at c 0)) s _ rfl).trans (RegsOff.of_agree (onCore_keeps _ c _) (by decide))
  · exact RegsOff.refl _ s

/-- The state with a harp's stall run set (R435). -/
def runSet (s : State) (c h : Nat) (v : Nat × Nat) : State :=
  { s with obs := { s.obs with stallRun := SMap.put (fun _ => ((0 : Nat), (0 : Nat))) s.obs.stallRun (hk c h) v } }

theorem runSet_keeps (s : State) (c h : Nat) (v : Nat × Nat) : AgreeOutside [.obs] s (runSet s c h v) := by
  intro p hp
  cases p
  case obs => exact absurd (by decide) hp
  all_goals rfl

/-- The cycles of a harp's trace change only the core's trace and the stall runs. -/
structure Traced (c : Nat) (s t : State) : Prop where
  accounts : Accounted [.regs, .cores, .obs] c s t
  regs : RegsOff (· = R.CNT_TRACE_STATUS_LOST.at c 0) s t

theorem Traced.trans {u : State} (h : Traced c s t) (h' : Traced c t u) : Traced c s u :=
  ⟨h.accounts.trans h'.accounts, h.regs.trans h'.regs⟩

theorem runSet_traced (s : State) (c h : Nat) (v : Nat × Nat) : Traced c s (runSet s c h v) :=
  ⟨Accounted.mono (.of_agree (runSet_keeps s c h v) (by decide) (by decide)) rfl, RegsOff.of_agree (runSet_keeps s c h v) (by decide)⟩

theorem traceRec_traced (s : State) (c kind harp : Nat) (w2 w3 : W64) : Traced c s (traceRec s c kind harp w2 w3) :=
  ⟨Accounted.mono (traceRec_accounts s c kind harp w2 w3) rfl, traceRec_regs s c kind harp w2 w3⟩

theorem endStallRun_traced (s : State) (c h : Nat) : Traced c s (endStallRun s c h) := by
  unfold endStallRun
  dsimp only
  split
  · exact ⟨Accounted.refl _ c s, RegsOff.refl _ s⟩
  · split
    · exact (runSet_traced s c h (0, 0)).trans (traceRec_traced _ c _ _ _ _)
    · exact runSet_traced s c h (0, 0)

/-- A cycle with a stall reason: what goes before its count is traced (R36). -/
theorem runStall_eq (s : State) (c h r : Nat) : ∃ v, Traced c s v ∧ runStall s c h r = stall v c h r := by
  unfold runStall
  dsimp only
  split
  · exact ⟨_, (endStallRun_traced s c h).trans (runSet_traced _ c h _), rfl⟩
  · exact ⟨_, runSet_traced s c h _, rfl⟩

/-! ### The count of a stalled cycle (R36, R258) -/

/-- THROTTLE_CYCLES and CONTENTION_CYCLES of the request rings (R258). -/
def StallReg (o : Nat) : Prop :=
  ∃ w < 64, (o = R.SEQ_RQ_THROTTLE_CYCLES.at w 0 ∨ o = R.SEQ_RQ_CONTEND_CYCLES.at w 0)

/-- What a stalled cycle leaves of a state, besides its counter and its reason. -/
structure StallNoted (c : Nat) (s t : State) : Prop where
  agree : AgreeOutside [.regs, .free, .sch] s t
  regs : RegsOff StallReg s t
  asked : stopAsked t c = stopAsked s c

theorem stopAsked_onRing (s : State) (w c : Nat) {g : Cmd → Cmd} (hg : ∀ x, (g x).aborting = x.aborting) :
    stopAsked (onRing s w (fun x => { x with cmd := x.cmd.map g })) c = stopAsked s c := by
  unfold stopAsked
  rw [show coreAt (onRing s w (fun x => { x with cmd := x.cmd.map g })) c = coreAt s c from rfl]
  split
  · rename_i u _
    rw [ringAt_onRing]
    split
    · rename_i he
      subst he
      cases (ringAt s u).cmd with
      | none => rfl
      | some d => simp [hg]
    · rfl
  · rfl

theorem StallNoted.trans {u : State} (h : StallNoted c s t) (h' : StallNoted c t u) : StallNoted c s u :=
  ⟨Agree.trans h.agree h'.agree, h.regs.trans h'.regs, h'.asked.trans h.asked⟩

theorem stallNoted_refl (s : State) (c : Nat) : StallNoted c s s := ⟨Agree.refl _ s, RegsOff.refl _ s, rfl⟩

theorem stallNoted_free (s : State) (c : Nat) : StallNoted c s (takeFree s).2 :=
  ⟨Agree.mono (takeFree_keeps s) rfl, RegsOff.of_agree (takeFree_keeps s) (by decide), rfl⟩

/-- A ring's cycle register and its command's count both move (R258). -/
theorem stallNoted_count (s : State) {c w : Nat} (hw : w < 64) {f : Fld} (hf : f = R.SEQ_RQ_THROTTLE_CYCLES ∨ f = R.SEQ_RQ_CONTEND_CYCLES)
    (v : Nat) {g : Cmd → Cmd} (hg : ∀ x, (g x).aborting = x.aborting) :
    StallNoted c s (onRing (wr s f w 0 v) w (fun x => { x with cmd := x.cmd.map g })) := by
  have hreg : StallReg (f.at w 0) := ⟨w, hw, hf.imp (congrArg (Fld.at · w 0)) (congrArg (Fld.at · w 0))⟩
  refine ⟨Agree.step (onRing_keeps _ w _) rfl (Agree.mono (wr_keeps s f w 0 v) rfl),
    (RegsOff.of_wr s v hreg).trans (RegsOff.of_agree (onRing_keeps _ w _) (by decide)), ?_⟩
  rw [stopAsked_onRing _ w c hg]
  rfl

/-- A stalled cycle's counter and its reason are registers (R36). -/
theorem stallCounted_keeps (s : State) (c h r : Nat) :
    AgreeOutside [.regs] s (wr (count s c (48 + r) 1) R.HRP_STATUS_STALL_REASON c h r) :=
  Agree.step (wr_keeps _ _ _ _ _) rfl (count_keeps s c (48 + r) 1)

theorem stall_noted (s : State) {c : Nat} (hok : ∀ w, (coreAt s c).ring = some w → w < 64) (h r : Nat) :
    StallNoted c (wr (count s c (48 + r) 1) R.HRP_STATUS_STALL_REASON c h r) (stall s c h r) := by
  have hring : (coreAt (wr (count s c (48 + r) 1) R.HRP_STATUS_STALL_REASON c h r) c).ring = (coreAt s c).ring :=
    congrArg Core.ring (coreAt_congr (stallCounted_keeps s c h r .cores (by decide)) c)
  unfold stall
  dsimp only
  split
  · exact stallNoted_refl _ c
  · rename_i w hw
    have hlt := hok w (hring.symm.trans hw)
    split
    · exact stallNoted_count _ hlt (.inl rfl) _ (fun _ => rfl)
    · split
      · split
        · exact (stallNoted_free _ c).trans (stallNoted_count _ hlt (.inr rfl) _ (fun _ => rfl))
        · exact stallNoted_free _ c
      · exact stallNoted_refl _ c

/-! ### The stalled cycle (R36) -/

theorem passReason_le (x : Core) (ready : Bool) (hp : Harp) : passReason x ready hp ≤ 5 := by
  unfold passReason
  repeat' split
  all_goals decide

theorem stallReason_le (s : State) (c fc : Nat) (ready : Bool) (hp : Harp) : stallReason s c fc ready hp ≤ 5 := by
  unfold stallReason
  split
  · decide
  · split
    · decide
    · exact passReason_le _ _ _

theorem stopAsked_congr (hring : (coreAt t c).ring = (coreAt s c).ring) (hsch : t.sch = s.sch) : stopAsked t c = stopAsked s c := by
  unfold stopAsked
  rw [hring]
  split
  · rw [ringAt_congr hsch]
  · rfl

theorem not_stallReg_window {o : Nat} (h : 0x1000000 ≤ o) : ¬ StallReg o := by
  rintro ⟨w, hw, rfl | rfl⟩
  · simp only [Fld.at, R.SEQ_RQ_THROTTLE_CYCLES] at h; omega
  · simp only [Fld.at, R.SEQ_RQ_CONTEND_CYCLES] at h; omega

/-- What a stalled cycle of a harp shows: its reason, its count, and no new reason to stop the core. -/
structure StallShown (c h r : Nat) (s t : State) : Prop where
  reason : rd t R.HRP_STATUS_STALL_REASON c h = r
  counted : rdB s R.CNT_CTL_FREEZE c 0 = false → rd t R.CNT_COUNT c (48 + r) = (rd s R.CNT_COUNT c (48 + r) + 1) % 2 ^ R.CNT_COUNT.width
  asked : stopAsked t c = stopAsked s c

theorem runStall_shows (hok : ∀ w, (coreAt s c).ring = some w → w < 64) (hh : h < 8) (hr : r ≤ 5) : StallShown c h r s (runStall s c h r) := by
  obtain ⟨v, htraced, heq⟩ := runStall_eq s c h r
  have hnoted := stall_noted v (c := c) (fun w hw => hok w ((htraced.accounts.ring c).symm.trans hw)) h r
  have hcount := stallCounted_keeps v c h r
  have hstatus : ¬ StallReg (R.HRP_STATUS_STALL_REASON.at c h) :=
    not_stallReg_window (by simp only [Fld.at, R.HRP_STATUS_STALL_REASON]; omega)
  have hcounter : ¬ StallReg (R.CNT_COUNT.at c (48 + r)) := not_stallReg_window (by simp only [Fld.at, R.CNT_COUNT]; omega)
  have hapart : R.CNT_COUNT.at c (48 + r) ≠ R.HRP_STATUS_STALL_REASON.at c h := by
    simp only [Fld.at, R.CNT_COUNT, R.HRP_STATUS_STALL_REASON]; omega
  have htrace : R.CNT_COUNT.at c (48 + r) ≠ R.CNT_TRACE_STATUS_LOST.at c 0 := by
    simp only [Fld.at, R.CNT_COUNT, R.CNT_TRACE_STATUS_LOST]; omega
  rw [heq]
  refine ⟨?_, fun hf => ?_, ?_⟩
  · rw [hnoted.regs.rd hstatus, rd_wr_self _ _ _ _ _ (by decide)]
    exact Nat.mod_eq_of_lt (Nat.lt_of_le_of_lt hr (by decide))
  · rw [hnoted.regs.rd hcounter, rd_wr_ne _ _ _ _ _ _ _ _ hapart, rd_count_self (htraced.accounts.freeze.trans hf), htraced.regs.rd htrace]
  · rw [hnoted.asked, ← stopAsked_congr (htraced.accounts.ring c) (htraced.accounts.agree .sch (by decide))]
    exact stopAsked_congr (congrArg Core.ring (coreAt_congr (hcount .cores (by decide)) c)) (hcount .sch (by decide))

theorem StallShown.congr {u : State} (hs : StallShown c h r s t) (hu : AgreeOutside [.harps] t u) : StallShown c h r s u :=
  have hregs : RegsOff (fun _ => False) t u := RegsOff.of_agree hu (by decide)
  ⟨(hregs.rd id).trans hs.reason, fun hf => (hregs.rd id).trans (hs.counted hf),
    (stopAsked_congr (congrArg Core.ring (coreAt_congr (hu .cores (by decide)) c)) (hu .sch (by decide))).trans hs.asked⟩

theorem creditStop_unasked (h : stopAsked s c = false) : creditStop s c = s := by
  unfold creditStop
  simp [h]

/-- A harp that asks for admission is otherwise as it was (R360). -/
theorem harpAt_askAdmission (s : State) (c h r : Nat) (ready : Bool) :
    ∃ b, harpAt (askAdmission s c h r ready) c h = { harpAt s c h with asking := b } := by
  unfold askAdmission
  split
  · exact ⟨true, by rw [harpAt_onHarp, if_pos rfl]⟩
  · exact ⟨(harpAt s c h).asking, rfl⟩

theorem harpsOutside_askAdmission (s : State) (c h r : Nat) (ready : Bool) : HarpsOutside [hk c h] s (askAdmission s c h r ready) := by
  unfold askAdmission
  split
  · exact harpsOutside_setHarp rfl _
  · exact fun _ _ _ => rfl

end

/-! ### The cycle (R34, R36) -/

section
variable {c : CoreIx} {h : HarpIx} {fc : Fin 16} {ready : Bool} {s : State}

/-- A harp with a pass on a running core of a running command takes its cycle. -/
structure Cycles (c : CoreIx) (h : HarpIx) (s : State) : Prop where
  works : ((harpAt s c h).active.isSome || (harpAt s c h).next.isSome) = true
  power : (coreAt s c).power = .running
  runs : coreCmdRuns s c = true

theorem Cycles.notIdle (hc : Cycles c h s) :
    ((harpAt s c h).active.isNone && (harpAt s c h).next.isNone || decide ((coreAt s c).power ≠ .running) || !coreCmdRuns s c) = false := by
  obtain ⟨hworks, hpower, hruns⟩ := hc
  rw [hpower, hruns]
  cases hactive : (harpAt s c h).active with
  | none => simpa [hactive] using hworks
  | some p => rfl

/-- A cycle with a stall reason (R36). -/
theorem Cycles.stalls (hc : Cycles c h s) (hr : stallReason s c fc ready (harpAt s c h) ≠ 0) :
    execHarpKStep c h fc ready s [] = .next (creditStop (askAdmission (runStall s c h (stallReason s c fc ready (harpAt s c h))) c h
      (stallReason s c fc ready (harpAt s c h)) ready) c) := by
  unfold execHarpKStep
  dsimp only [List.foldl_nil]
  rw [hc.notIdle, if_neg Bool.false_ne_true, if_pos hr]

/-- The state once a cycle without a stall reason has begun (R36). -/
def cycleBegun (s : State) (c h : Nat) : State := count (wr (endStallRun s c h) R.HRP_STATUS_STALL_REASON c h 0) c 48 1

/-- The active pass's half cycle of the 16-bit class set (R34). -/
def halfSet (s : State) (c h : Nat) (p : Pass) (half : Bool) : State :=
  onHarp s c h (fun x => { x with active := some { p with half := half } })

theorem cycleBegun_accounts (s : State) (c : Nat) {h : Nat} (hh : h < 8) : Accounted [.regs, .cores, .obs] c s (cycleBegun s c h) :=
  (count_accounts _ c (by decide) 1).step rfl ((accounted_wr _ c 0 (accountReg_harp c hh).1).step rfl (endStallRun_traced s c h).accounts)

theorem harpAt_cycleBegun (s : State) (c h k j : Nat) : harpAt (cycleBegun s c h) k j = harpAt s k j :=
  harpAt_congr (Agree.step (L := [.regs, .cores, .obs]) (count_keeps _ c 48 1) rfl (Agree.step (wr_keeps _ _ _ _ _) rfl
    (endStallRun_keeps s c h)) .harps (by decide)) k j

/-- A cycle without a stall reason of a harp with an active pass. -/
theorem Cycles.works_active {p : Pass} (hc : Cycles c h s) (hr : stallReason s c fc ready (harpAt s c h) = 0)
    (hp : (harpAt s c h).active = some p) :
    execHarpKStep c h fc ready s [] = .next (if pClass p.desc = 16 ∧ !p.half then halfSet (cycleBegun s c h) c h p true
      else if pClass p.desc = 4 then takeStep (takeStep (halfSet (cycleBegun s c h) c h p false) c h) c h
      else takeStep (halfSet (cycleBegun s c h) c h p false) c h) := by
  have hpass : (harpAt (count (wr (endStallRun s c h) R.HRP_STATUS_STALL_REASON c h 0) c 48 1) c h).active = some p :=
    (congrArg Harp.active (harpAt_cycleBegun s c h c h)).trans hp
  unfold execHarpKStep
  dsimp only [List.foldl_nil]
  rw [hc.notIdle, if_neg Bool.false_ne_true, if_neg (not_not.mpr hr), apply_ite Host.Outcome.next, apply_ite Host.Outcome.next]
  simp only [hp, hpass]
  rfl

theorem harpKStep_stalls (hc : Cycles c h s) (hr : stallReason s c fc ready (harpAt s c h) ≠ 0) (hasked : stopAsked s c = false)
    (hok : RingsOk s) :
    ∃ t, Runs (.harpKStep c h fc ready []) s t ∧ rd t R.HRP_STATUS_STALL_REASON c h = stallReason s c fc ready (harpAt s c h) ∧
      (rdB s R.CNT_CTL_FREEZE c 0 = false → rd t R.CNT_COUNT c (48 + stallReason s c fc ready (harpAt s c h)) =
        (rd s R.CNT_COUNT c (48 + stallReason s c fc ready (harpAt s c h)) + 1) % 2 ^ R.CNT_COUNT.width) ∧
      (harpAt t c h).active = (harpAt s c h).active ∧ (harpAt t c h).next = (harpAt s c h).next ∧
      (harpAt t c h).set0 = (harpAt s c h).set0 ∧ (harpAt t c h).set1 = (harpAt s c h).set1 ∧ HarpsOutside [hk c h] s t ∧
      AgreeOutside [.regs, .free, .cores, .harps, .sch, .obs] s t := by
  obtain ⟨hrings, -, -⟩ := hok
  let r := stallReason s c fc ready (harpAt s c h)
  have hkeep := runStall_keeps s c h r
  have hadmit := askAdmission_keeps (runStall s c h r) c h r ready
  have hshown := (runStall_shows (hrings c) h.isLt (stallReason_le s c fc ready (harpAt s c h))).congr hadmit
  have hharps := hkeep .harps (by decide)
  obtain ⟨b, hharp⟩ := harpAt_askAdmission (runStall s c h r) c h r ready
  rw [harpAt_congr hharps] at hharp
  refine ⟨askAdmission (runStall s c h r) c h r ready, ?_, hshown.reason, hshown.counted, by rw [hharp], by rw [hharp], by rw [hharp],
    by rw [hharp], fun k j hkj => ?_, Agree.step hadmit rfl (Agree.mono hkeep rfl)⟩
  · rw [Runs, exec_harpKStep, hc.stalls hr, creditStop_unasked (hshown.asked.trans hasked)]
  · rw [harpsOutside_askAdmission _ c h r ready k j hkj, harpAt_congr hharps]

theorem harpAt_halfSet (s : State) (c h : Nat) (p : Pass) (half : Bool) :
    harpAt (halfSet (cycleBegun s c h) c h p half) c h = { harpAt s c h with active := some { p with half := half } } := by
  rw [halfSet, harpAt_onHarp, if_pos rfl, harpAt_cycleBegun]

theorem harpsOutside_halfSet (s : State) (c h : Nat) (p : Pass) (half : Bool) :
    HarpsOutside [hk c h] s (halfSet (cycleBegun s c h) c h p half) := fun k j hkj => by
  rw [halfSet, harpAt_onHarp, if_neg (by simpa using hkj), harpAt_cycleBegun]

theorem harpKStep_halves {p : Pass} (hp : (harpAt s c h).active = some p) (hpower : (coreAt s c).power = .running)
    (hruns : coreCmdRuns s c = true) (hr : stallReason s c fc ready (harpAt s c h) = 0) (hclass : pClass p.desc = 16) (hhalf : p.half = false) :
    ∃ t, Runs (.harpKStep c h fc ready []) s t ∧ harpAt t c h = { harpAt s c h with active := some { p with half := true } } ∧
      HarpsOutside [hk c h] s t ∧ AgreeOutside [.harps, .regs, .cores, .obs] s t := by
  have hc : Cycles c h s := ⟨by rw [hp]; rfl, hpower, hruns⟩
  refine ⟨halfSet (cycleBegun s c h) c h p true, ?_, harpAt_halfSet s c h p true, harpsOutside_halfSet s c h p true,
    Agree.step (onHarp_keeps _ c h _) rfl (Agree.mono (cycleBegun_accounts s c h.isLt).agree rfl)⟩
  rw [Runs, exec_harpKStep, hc.works_active hr hp, if_pos ⟨hclass, by rw [hhalf]; rfl⟩]

/-! ### K steps (R36, R44) -/

/-- The column of A and the row of B that a step of pass p reads, with the block so far. -/
def stepBlockA (s : State) (c : Nat) (p : Pass) : List (List Nat) :=
  p.blkA ++ [stepColumn s.spd c (pFmtA p.desc) (pOrientA p.desc) (pA p.desc) (pRows p.desc) p.k]

def stepBlockB (s : State) (c : Nat) (p : Pass) : List (List Nat) :=
  p.blkB ++ [stepColumn s.spd c (pFmtB p.desc) (pOrientB p.desc) (pB p.desc) (pCols p.desc) p.k]

/-- The set that a step of pass p works on, and what it makes of it. -/
def stepSource (s : State) (c h : Nat) (p : Pass) : AccSet :=
  if p.k = 0 ∧ pFill p.desc = 2 then loadZero s c p.desc ((harpAt s c h).set p.set) else (harpAt s c h).set p.set

def stepMade (s : State) (c h : Nat) (p : Pass) : AccSet × List Nat :=
  stepCells s.spd c p.desc p.k (stepBlockA s c p) (stepBlockB s c p) (stepSource s c h p)

/-- The pass with one step more taken. -/
def stepped (s : State) (c : Nat) (p : Pass) : Pass :=
  { p with k := p.k + 1, blkA := if decide (p.k % 32 = 31) then [] else stepBlockA s c p,
           blkB := if decide (p.k % 32 = 31) then [] else stepBlockB s c p }

/-- The harp with one step of pass p taken. -/
def steppedHarp (s : State) (c h : Nat) (p : Pass) : Harp :=
  { harpAt s c h with active := some (stepped s c p) }.putSet p.set
    { (stepMade s c h p).1 with poison := (stepMade s c h p).1.poison || stepBad s c p, desc := p.desc }

/-- Poison that a step reads is noted in the command (R53, R396). -/
def stepNoted (s : State) (c : Nat) (p : Pass) : State :=
  match stepBad s c p, (coreAt s c).ring with
  | true, some w => notePoison s w none
  | _, _ => s

/-- The state with one step of pass p taken, before the pass ends. -/
def stepTaken (s : State) (c h : Nat) (p : Pass) : State :=
  setHarp (stepCount (stepNoted s c p) c h p) c h (steppedHarp s c h p)

theorem takeStep_eq {c h : Nat} {p : Pass} (hp : (harpAt s c h).active = some p) (hq : SpdQuiet c s) (htrap : pTrap p.desc = false) :
    takeStep s c h = if p.k + 1 = pK p.desc then endPass (stepTaken s c h p) c h (stepped s c p) else stepTaken s c h p := by
  have hreads : stepReads s c h p = s := passReads_quiet hq _ _ _
  unfold takeStep
  simp only [hp, hreads, Option.isNone_some, Bool.false_eq_true, if_false, stepEnd, htrap]
  rfl

theorem stepNoted_keeps (s : State) (c : Nat) (p : Pass) : AgreeOutside [.regs, .out, .sch, .ras, .hst] s (stepNoted s c p) := by
  unfold stepNoted
  split
  · exact notePoison_keeps s _ none
  · exact Agree.refl _ s

/-- A step of the accounts that may be left out. -/
theorem accounted_unless {L : List Part} {c : Nat} {t u : State} {q : Prop} [Decidable q] (ht : Accounted L c s t)
    (hu : Accounted L c t u) : Accounted L c s (if q then t else u) := by
  split
  · exact ht
  · exact ht.trans hu

/-- The counters of a pass's formats (R424). -/
theorem fmtCounter_lt (d : List W64) : 16 + pFmtA d < 128 ∧ 16 + pFmtB d < 128 :=
  ⟨Nat.lt_trans (Nat.add_lt_add_left (getBits_lt _ 0 4) 16) (by decide), Nat.lt_trans (Nat.add_lt_add_left (getBits_lt _ 4 4) 16) (by decide)⟩

theorem stepCount_accounts (s : State) (c : Nat) {h : Nat} (hh : h < 8) (p : Pass) : Accounted [.regs, .cores] c s (stepCount s c h p) := by
  have hpass := (accountReg_harp c hh).2
  have hrow : AccountReg (R.HRP_PASS_ROW_BLOCK.at c h) := hpass
  have hcol : AccountReg (R.HRP_PASS_COL_BLOCK.at c h) := hpass
  have hblock : AccountReg (R.HRP_PASS_BLOCK.at c h) := hpass
  obtain ⟨hA, hB⟩ := fmtCounter_lt p.desc
  have hclass : (if pClass p.desc = 4 then 2 else if pClass p.desc = 8 then 3 else 4) < 128 := by
    split
    · decide
    · split <;> decide
  unfold stepCount
  extract_lets d macs s1 s2 s3 s4 narrow s5 s6 s7 s8
  have hmacs : Accounted [.regs, .cores] c s s2 :=
    (countUnits_accounts s c hclass 256 macs).trans (countUnits_accounts s1 c hA 256 macs)
  have hfmts : Accounted [.regs, .cores] c s s3 := accounted_unless hmacs (countUnits_accounts s2 c hB 256 macs)
  have hread : Accounted [.regs, .cores] c s s4 := hfmts.trans (countUnits_accounts s3 c (by decide) 64 _)
  have hnarrow : Accounted [.regs, .cores] c s s5 := accounted_unless hread (countUnits_accounts s4 c (by decide) 64 narrow)
  have hplace : Accounted [.regs, .cores] c s s7 :=
    (accounted_wr s6 c _ hrow).step rfl ((accounted_wr s5 c _ hpass).step rfl hnarrow)
  exact (accounted_wr s8 c _ hblock).step rfl ((accounted_wr s7 c _ hcol).step rfl hplace)

theorem stepTaken_bare (s : State) (c : Nat) {h : Nat} (hh : h < 8) (p : Pass) :
    bareCore (coreAt (stepTaken s c h p) c) = bareCore (coreAt s c) := by
  rw [stepTaken, coreAt_setHarp, (stepCount_accounts (stepNoted s c p) c hh p).bare, coreAt_congr (stepNoted_keeps s c p .cores (by decide))]

theorem stepTaken_keeps (s : State) (c h : Nat) (p : Pass) :
    AgreeOutside [.regs, .out, .cores, .harps, .sch, .ras, .hst] s (stepTaken s c h p) :=
  Agree.step (setHarp_keeps _ c h _) rfl (Agree.step (stepCount_keeps _ c h p) rfl (Agree.mono (stepNoted_keeps s c p) rfl))

theorem harpAt_stepTaken (s : State) (c h : Nat) (p : Pass) : harpAt (stepTaken s c h p) c h = steppedHarp s c h p :=
  harpAt_setHarp_self _ c h _

theorem harpsOutside_stepTaken (s : State) (c h : Nat) (p : Pass) : HarpsOutside [hk c h] s (stepTaken s c h p) :=
  harpsOutside_setHarp (Agree.step (L := [.regs, .out, .cores, .sch, .ras, .hst]) (stepCount_keeps _ c h p) rfl
    (Agree.mono (stepNoted_keeps s c p) rfl) .harps (by decide)) _

theorem steppedHarp_active (s : State) (c h : Nat) (p : Pass) : (steppedHarp s c h p).active = some (stepped s c p) := putSet_active _ _ _

theorem steppedHarp_acc (s : State) (c h : Nat) (p : Pass) : ((steppedHarp s c h p).set p.set).acc = (stepMade s c h p).1.acc := by
  rw [steppedHarp, set_putSet]

/-! ### The cycle of the 8-bit class (R33) -/

/-- Pass p as a cycle of the 8-bit class finds it, and the state in which it takes its step. -/
def wholePass (p : Pass) : Pass := { p with half := false }

def stepBegun (s : State) (c h : Nat) (p : Pass) : State := halfSet (cycleBegun s c h) c h p false

/-- A cycle without a stall reason in which pass p, active, takes one K step at the 8-bit class. -/
structure StepsOnce (c : CoreIx) (h : HarpIx) (fc : Fin 16) (ready : Bool) (p : Pass) (s : State) : Prop where
  active : (harpAt s c h).active = some p
  power : (coreAt s c).power = .running
  runs : coreCmdRuns s c = true
  noStall : stallReason s c fc ready (harpAt s c h) = 0
  cls : pClass p.desc = 8
  noTrap : pTrap p.desc = false
  quiet : SpdQuiet c s

theorem stepBegun_accounts (s : State) (c : Nat) {h : Nat} (hh : h < 8) (p : Pass) :
    Accounted [.regs, .cores, .obs, .harps] c s (stepBegun s c h p) := by
  rw [stepBegun, halfSet]
  exact (Accounted.of_agree (onHarp_keeps _ c h _) (by decide) (by decide)).step rfl ((cycleBegun_accounts s c hh).mono rfl)

theorem harpAt_stepBegun (s : State) (c h : Nat) (p : Pass) :
    harpAt (stepBegun s c h p) c h = { harpAt s c h with active := some (wholePass p) } := harpAt_halfSet s c h p false

theorem StepsOnce.steps {p : Pass} (hs : StepsOnce c h fc ready p s) :
    Runs (.harpKStep c h fc ready []) s (if p.k + 1 = pK p.desc then
      endPass (stepTaken (stepBegun s c h p) c h (wholePass p)) c h (stepped (stepBegun s c h p) c (wholePass p))
      else stepTaken (stepBegun s c h p) c h (wholePass p)) := by
  have hc : Cycles c h s := ⟨by rw [hs.active]; rfl, hs.power, hs.runs⟩
  have hquiet := (stepBegun_accounts s c h.isLt p).quiet (by decide) hs.quiet
  have hactive : (harpAt (stepBegun s c h p) c h).active = some (wholePass p) := by rw [harpAt_stepBegun]
  rw [Runs, exec_harpKStep, hc.works_active hs.noStall hs.active, hs.cls, if_neg (by simp), if_neg (by decide)]
  exact congrArg Host.Outcome.next (takeStep_eq hactive hquiet hs.noTrap)

/-- What a step of pass p leaves alone. -/
structure StepFrame (c h : Nat) (s t : State) : Prop where
  harps : HarpsOutside [hk c h] s t
  agree : AgreeOutside [.regs, .out, .cores, .harps, .sch, .ras, .obs, .hst] s t

theorem stepTaken_frame (s : State) (c : Nat) {h : Nat} (hh : h < 8) (p : Pass) :
    StepFrame c h s (stepTaken (stepBegun s c h p) c h (wholePass p)) :=
  ⟨fun k j hkj => (harpsOutside_stepTaken _ c h _ k j hkj).trans (harpsOutside_halfSet s c h p false k j hkj),
    Agree.step (stepTaken_keeps _ c h _) rfl (Agree.mono (stepBegun_accounts s c hh p).agree rfl)⟩

section
variable {p : Pass}

theorem harpKStep_steps (hs : StepsOnce c h fc ready p s) (hmore : p.k + 1 < pK p.desc) :
    ∃ t q, Runs (.harpKStep c h fc ready []) s t ∧ (harpAt t c h).active = some q ∧ q.k = p.k + 1 ∧ q.desc = p.desc ∧ q.set = p.set ∧
      HarpsOutside [hk c h] s t ∧ t.mem = s.mem ∧ t.spd = s.spd := by
  have hrun := hs.steps
  rw [if_neg (Nat.ne_of_lt hmore)] at hrun
  obtain ⟨hharps, hagree⟩ := stepTaken_frame s c h.isLt p
  refine ⟨_, stepped (stepBegun s c h p) c (wholePass p), hrun, ?_, rfl, rfl, rfl, hharps, hagree .mem (by decide), hagree .spd (by decide)⟩
  rw [harpAt_stepTaken, steppedHarp_active]

/-! ### The last step of a block (R44) -/

/-- Where a cell's accumulator stands in a set. -/
def cellKey (ij : Nat × Nat) : Nat := 32 * ij.1 + ij.2

section
variable {f : AccSet × List Nat → Nat × Nat → AccSet × List Nat} {g : Nat × Nat → W32 → W32}
  (hf : ∀ st ij, (f st ij).1.acc = SMap.put (fun _ => (0 : W32)) st.1.acc (cellKey ij)
    (g ij (SMap.look (fun _ => (0 : W32)) st.1.acc (cellKey ij)))) {l : List (Nat × Nat)}
include hf

/-- A fold over cells leaves the accumulators of other cells. -/
theorem acc_foldl_other {st : AccSet × List Nat} {k : Nat} (hk : k ∉ l.map cellKey) :
    SMap.look (fun _ => (0 : W32)) (l.foldl f st).1.acc k = SMap.look (fun _ => (0 : W32)) st.1.acc k := by
  induction l generalizing st with
  | nil => rfl
  | cons x l ih =>
    simp only [List.map_cons, List.mem_cons, not_or] at hk
    obtain ⟨hx, hl⟩ := hk
    rw [List.foldl_cons, ih hl, hf, smap_look_put, if_neg hx]

/-- A fold that changes one accumulator a cell, each from its own value, leaves in each its new value. -/
theorem acc_foldl_cells (hl : (l.map cellKey).Nodup) (st : AccSet × List Nat) {ij : Nat × Nat} (hij : ij ∈ l) :
    SMap.look (fun _ => (0 : W32)) (l.foldl f st).1.acc (cellKey ij) = g ij (SMap.look (fun _ => (0 : W32)) st.1.acc (cellKey ij)) := by
  induction l generalizing st with
  | nil => cases hij
  | cons x l ih =>
    rw [List.map_cons, List.nodup_cons] at hl
    rw [List.foldl_cons]
    rcases List.mem_cons.mp hij with rfl | hin
    · rw [acc_foldl_other hf hl.1, hf, smap_look_put, if_pos rfl]
    · have hne : cellKey ij ≠ cellKey x := fun he => hl.1 (he ▸ List.mem_map_of_mem hin)
      rw [ih hl.2 _ hin, hf, smap_look_put, if_neg hne]

end

theorem cells_eq (d : List W64) : cells d = List.range (pRows d) ×ˢ List.range (pCols d) := rfl

theorem mem_cells {d : List W64} {i j : Nat} (hi : i < pRows d) (hj : j < pCols d) : (i, j) ∈ cells d := by
  rw [cells_eq, List.mem_product]
  exact ⟨List.mem_range.mpr hi, List.mem_range.mpr hj⟩

theorem nodup_cellKeys {d : List W64} (hcols : pCols d ≤ 32) : ((cells d).map cellKey).Nodup := by
  refine List.Nodup.map_on (fun x hx y hy he => ?_) (by rw [cells_eq]; exact List.nodup_range.product List.nodup_range)
  rw [cells_eq, List.mem_product] at hx hy
  have hx2 := List.mem_range.mp hx.2
  have hy2 := List.mem_range.mp hy.2
  simp only [cellKey] at he
  exact Prod.ext (by omega) (by omega)

/-- At the last step of a block the block's value joins each accumulator inside ROWS x COLS (R44). -/
theorem stepCells_block {c : Nat} {d : List W64} {k : Nat} (q : Spd) (ba bb : List (List Nat)) (a : AccSet) {i j : Nat}
    (hint : pIsInt d = false) (hclass : pClass d = 8) (hlast : k % 32 = 31) (hcols : pCols d ≤ 32) (hi : i < pRows d) (hj : j < pCols d) :
    SMap.look (fun _ => (0 : W32)) (stepCells q c d k ba bb a).1.acc (32 * i + j) =
      BitVec.ofNat 32 (accumulate (SMap.look (fun _ => (0 : W32)) a.acc (32 * i + j)).toNat
        (blockValue (cellPairs d ba bb i j) (scaleCode q c (pScaledA d) (pScaleA d) (k / 32) i)
          (scaleCode q c (pScaledB d) (pScaleB d) (k / 32) j))).1 := by
  refine acc_foldl_cells (g := fun ij v => BitVec.ofNat 32 (accumulate v.toNat (blockValue (cellPairs d ba bb ij.1 ij.2)
    (scaleCode q c (pScaledA d) (pScaleA d) (k / 32) ij.1) (scaleCode q c (pScaledB d) (pScaleB d) (k / 32) ij.2))).1)
    (fun st ij => ?_) (nodup_cellKeys hcols) (a, []) (mem_cells hi hj)
  simp [hint, hclass, hlast, cellKey]

theorem harpKStep_accumulates {i j : Nat} (hs : StepsOnce c h fc ready p s) (hint : pIsInt p.desc = false) (hlast : p.k % 32 = 31)
    (hmore : p.k + 1 < pK p.desc) (hi : i < pRows p.desc) (hj : j < pCols p.desc) (hcols : pCols p.desc ≤ 32) :
    ∃ t, Runs (.harpKStep c h fc ready []) s t ∧
      SMap.look (fun _ => (0 : W32)) ((harpAt t c h).set p.set).acc (32 * i + j) =
        BitVec.ofNat 32 (accumulate (SMap.look (fun _ => (0 : W32)) ((harpAt s c h).set p.set).acc (32 * i + j)).toNat
          (blockValue (cellPairs p.desc (stepBlockA s c p) (stepBlockB s c p) i j)
            (scaleCode s.spd c (pScaledA p.desc) (pScaleA p.desc) (p.k / 32) i)
            (scaleCode s.spd c (pScaledB p.desc) (pScaleB p.desc) (p.k / 32) j))).1 := by
  have hrun := hs.steps
  rw [if_neg (Nat.ne_of_lt hmore)] at hrun
  have hspd : (stepBegun s c h p).spd = s.spd := (stepBegun_accounts s c h.isLt p).agree .spd (by decide)
  have hsource : stepSource (stepBegun s c h p) c h (wholePass p) = (harpAt s c h).set p.set := by
    rw [stepSource, if_neg (fun hz => by have hk := hz.1; simp only [wholePass] at hk; omega), harpAt_stepBegun]
    exact set_congr rfl rfl p.set
  refine ⟨_, hrun, ?_⟩
  rw [harpAt_stepTaken]
  refine (congrArg (SMap.look (fun _ => (0 : W32)) · (32 * i + j)) (steppedHarp_acc (stepBegun s c h p) c h (wholePass p))).trans ?_
  rw [stepMade, hsource]
  refine (stepCells_block (d := p.desc) (k := p.k) _ _ _ _ hint hs.cls hlast hcols hi hj).trans ?_
  rw [stepBlockA, stepBlockB, stepBlockA, stepBlockB, hspd]
  rfl

/-! ### The last step of a pass (R39) -/

theorem endPass_due {t : State} {c h : Nat} {q : Pass} (hbufs : q.bufs = []) (hdrain : pDrain q.desc = true)
    (hpartner : passIsPartner (coreAt t c) q.desc = false) :
    harpAt (endPass t c h q) c h = { harpAt t c h with
      active := none, due := (harpAt t c h).due ++ [⟨q.set, (harpAt t c h).partner⟩], partner := none } ∧
      HarpsOutside [hk c h] t (endPass t c h q) := by
  have hrel := release_accounts t c (passOwner c h q)
  have hharps := hrel.agree .harps (by decide)
  have hnot : passIsPartner (coreAt (release t c (passOwner c h q)) c) q.desc = false :=
    (field_of_bare (g := (passIsPartner · q.desc)) (fun _ => rfl) hrel.bare).trans hpartner
  unfold endPass
  simp only [hbufs, List.foldl_nil, hdrain, hnot, Bool.not_true, Bool.false_eq_true, if_false]
  exact ⟨by rw [harpAt_setHarp_self, harpAt_congr hharps], harpsOutside_setHarp hharps _⟩

theorem harpKStep_ends (hs : StepsOnce c h fc ready p s) (hend : p.k + 1 = pK p.desc) (hdrain : pDrain p.desc = true)
    (hpartner : passIsPartner (coreAt s c) p.desc = false) (hbufs : p.bufs = []) (halone : (harpAt s c h).partner = none) :
    ∃ t, Runs (.harpKStep c h fc ready []) s t ∧ (harpAt t c h).active = none ∧
      (harpAt t c h).due = (harpAt s c h).due ++ [⟨p.set, none⟩] ∧ HarpsOutside [hk c h] s t := by
  have hrun := hs.steps
  rw [if_pos hend] at hrun
  have hbare : bareCore (coreAt (stepTaken (stepBegun s c h p) c h (wholePass p)) c) = bareCore (coreAt s c) :=
    (stepTaken_bare _ c h.isLt _).trans (stepBegun_accounts s c h.isLt p).bare
  obtain ⟨hharp, hother⟩ := endPass_due (t := stepTaken (stepBegun s c h p) c h (wholePass p)) (h := h)
    (q := stepped (stepBegun s c h p) c (wholePass p)) hbufs hdrain
    ((field_of_bare (g := (passIsPartner · p.desc)) (fun _ => rfl) hbare).trans hpartner)
  refine ⟨_, hrun, by rw [hharp], ?_, fun k j hkj => (hother k j hkj).trans ((stepTaken_frame s c h.isLt p).harps k j hkj)⟩
  rw [hharp, harpAt_stepTaken]
  simp only [steppedHarp, putSet_due, putSet_partner, harpAt_stepBegun, halone]
  rfl

end

end

end Sys2Proof.Proofs
end

section
/-!
PROOFS. Internal errors of harps and the end of a failed command (R48, R51, R404).
-/
namespace Sys2Proof.Proofs
open Sys2Proof.Machine Sys2Proof.Safety Sys2Proof.Laws

section
variable {s : State}

/-! ### A core becomes suspect (R404) -/

theorem suspectCore_suspects (s : State) (c cls harps : Nat) (byTest : Bool) :
    (coreAt (suspectCore s c cls harps byTest) c).suspect.isSome = true := by
  unfold suspectCore
  split
  · assumption
  · have hset : (coreAt (onCore s c (fun x => { x with suspect := some cls })) c).suspect = some cls := by rw [coreAt_onCore, if_pos rfl]
    rw [coreAt_congr (logErr_keeps _ _ .cores (by decide))]
    split <;> exact congrArg Option.isSome hset

/-- The request rings do not see that a core becomes suspect. -/
theorem ringAt_suspectCore (s : State) (c cls harps : Nat) (byTest : Bool) (w : Nat) :
    ringAt (suspectCore s c cls harps byTest) w = ringAt s w := by
  unfold suspectCore
  split
  · rfl
  · rw [(logErr_frame _ _).ringAt]
    split <;> rfl

/-! ### An internal error of a harp (R48) -/

/-- The harp's command has failed with HARP_FAULT, and the harp has dropped its pass. -/
structure FaultTaken (c h : Nat) (s t : State) : Prop where
  dropped : harpAt t c h = (harpAt s c h).abandon
  caused : ∀ w k, (coreAt s c).ring = some w → (ringAt s w).cmd = some k → k.phase = .running →
    ∃ k', (ringAt t w).cmd = some k' ∧ k'.causes / 2 ^ 3 % 2 = 1

theorem failCore_takes {u : State} {c h : Nat} (hu : ReadFrame s u) : FaultTaken c h s (failCore (onHarp u c h Harp.abandon) c 0x03 0) := by
  have hharp : harpAt u c h = harpAt s c h := harpAt_congr (hu.agree .harps (by decide)) c h
  have hcore : coreAt u c = coreAt s c := coreAt_congr (hu.agree .cores (by decide)) c
  refine ⟨failCore_induct (P := fun v => harpAt v c h = (harpAt s c h).abandon) (fun _ _ _ hv => hv)
    (fun _ k j hv => abandoned_onHarp hv k j) (fun _ _ hv => hv) c 0x03 0 ?_, fun w k hw hcmd hph => ?_⟩
  · rw [harpAt_onHarp_abandon, if_pos rfl, hharp]
  · have hring : (coreAt (onHarp u c h Harp.abandon) c).ring = some w := by rw [coreAt_onHarp, hcore, hw]
    have hrun : (ringAt (onHarp u c h Harp.abandon) w).cmd = some k := (congrArg Ring.cmd (hu.ringAt w)).trans hcmd
    rw [failCore, hring]
    exact ⟨_, failCmd_cmd hrun hph 0x03 0, cause_mem k 0x03 0⟩

theorem harpFault_takes {c h : Nat} (hactive : (harpAt s c h).active.isSome = true) : FaultTaken c h s (harpFault s c h) := by
  unfold harpFault
  simp only [hactive, Bool.true_or, if_true]
  obtain ⟨hdropped, hcaused⟩ := failCore_takes (c := c) (h := h) (logErr_frame s _)
  refine ⟨(harpAt_congr (suspectCore_keeps _ c 6 _ false .harps (by decide)) c h).trans hdropped, fun w k hw hcmd hph => ?_⟩
  rw [ringAt_suspectCore]
  exact hcaused w k hw hcmd hph

theorem harpInternalError_faults {c : CoreIx} {h : HarpIx} (hgood : harpGood s c h = true) (hon : coreOn s c = true) :
    ∃ t, Runs (.harpInternalError c h) s t ∧ (coreAt t c).suspect.isSome = true ∧
      ((harpAt s c h).active.isSome = true → harpAt t c h = Harp.abandon (harpAt s c h)) ∧
      (∀ w k, (harpAt s c h).active.isSome = true → (coreAt s c).ring = some w → (ringAt s w).cmd = some k → k.phase = .running →
        ∃ k', (ringAt t w).cmd = some k' ∧ k'.causes / 2 ^ 3 % 2 = 1) ∧
      AgreeOutside [.regs, .out, .cores, .harps, .sch, .ras, .hst] s t := by
  refine ⟨harpFault s c h, ?_, suspectCore_suspects _ c 6 _ false, fun ha => (harpFault_takes ha).dropped,
    fun w k ha => (harpFault_takes ha).caused w k, harpFault_keeps s c h⟩
  rw [Runs, exec_harpInternalError, execHarpInternalError, hgood, hon]
  rfl

/-! ### The end of a failed command (R51) -/

/-- A core whose part of a kernel is over. -/
def overCore (x : Core) : Core := { x with running := false, ending := false, ended := true, stopped := false }

/-- A core whose part of a kernel is over (R51). -/
def CoreOver (k : Nat) (s : State) : Prop := (coreAt s k).ended = true ∧ (coreAt s k).running = false

/-- A core abandons its passes and its part of the kernel is over. -/
def releaseCore (s : State) (k : Nat) : State := freeCore (abandonCore s k) k

theorem coreAt_releaseCore (s : State) (c k : Nat) :
    coreAt (releaseCore s c) k = if k = c then overCore (coreAt s c) else coreAt s k := by
  have hcores : ∀ j, coreAt (abandonCore s c) j = coreAt s j := coreAt_congr (abandonCore_keeps s c .cores (by decide))
  rw [releaseCore, freeCore, coreAt_wr, coreAt_onCore, hcores, hcores]
  rfl

theorem releaseCore_over (s : State) (c : Nat) : CoreOver c (releaseCore s c) := by
  rw [CoreOver, coreAt_releaseCore, if_pos rfl]
  exact ⟨rfl, rfl⟩

theorem CoreOver.releaseCore {k : Nat} (h : CoreOver k s) (c : Nat) : CoreOver k (releaseCore s c) := by
  rw [CoreOver, coreAt_releaseCore]
  split
  · exact ⟨rfl, rfl⟩
  · exact h

theorem releaseCores_keep (s : State) (l : List Nat) : AgreeOutside [.regs, .cores, .harps] s (l.foldl releaseCore s) :=
  Agree.foldl (fun v c => Agree.step (freeCore_keeps _ c) rfl (Agree.mono (abandonCore_keeps v c) rfl)) (Agree.refl _ s)

theorem commandStopped_ends {w : RingIx} {k : Cmd} (hcmd : (ringAt s w).cmd = some k) (hph : k.phase = .stopping) :
    ∃ t k', Runs (.commandStopped w) s t ∧ (ringAt t w).cmd = some k' ∧ k'.phase = .ended ∧ k'.causes = k.causes ∧
      ∀ c ∈ k.cores, (coreAt s c).ring = some w.val → (coreAt t c).ended = true ∧ (coreAt t c).running = false := by
  let mine := k.cores.filter (fun c => decide ((coreAt s c).ring = some w.val))
  let u := mine.foldl releaseCore s
  have hring : (ringAt u w).cmd = some k :=
    (congrArg Ring.cmd (ringAt_congr (releaseCores_keep s mine .sch (by decide)) w)).trans hcmd
  refine ⟨onCmd u w (fun c => { c with phase := .ended, runNs := s.utime - c.started }), { k with phase := .ended, runNs := s.utime - k.started },
    ?_, ?_, rfl, rfl, fun c hc hw => ?_⟩
  · rw [Runs, exec_commandStopped, execCommandStopped, hcmd]
    simp only [hph]
    rfl
  · rw [ringAt_onCmd, hring]
    rfl
  · have hmine : c ∈ mine := List.mem_filter.mpr ⟨hc, decide_eq_true hw⟩
    exact foldl_establishes (Q := CoreOver) (fun v x _ => releaseCore_over v x) (fun v x _ y hy => hy.releaseCore x) hmine s

end

/-! ### The obligation -/

/-- Settles O6, clause by clause from what the three commands answer. -/
theorem harpStepsAndFaults : Obligations.HarpStepsAndFaults := by
  unfold Obligations.HarpStepsAndFaults
  exact ⟨fun _ _ _ _ _ hworks hpower hruns hr hasked hok => harpKStep_stalls ⟨hworks, hpower, hruns⟩ hr hasked hok,
    fun _ _ _ _ _ _ hp hpower hruns hr hclass hhalf => harpKStep_halves hp hpower hruns hr hclass hhalf,
    fun _ _ _ _ _ _ hp hpower hruns hr hclass htrap hq hmore => harpKStep_steps ⟨hp, hpower, hruns, hr, hclass, htrap, hq⟩ hmore,
    fun _ _ _ _ _ _ _ _ hp hpower hruns hr hclass hint htrap hq hlast hmore hi hj hcols =>
      harpKStep_accumulates ⟨hp, hpower, hruns, hr, hclass, htrap, hq⟩ hint hlast hmore hi hj hcols,
    fun _ _ _ _ _ _ hp hpower hruns hr hclass htrap hq hend hdrain hpartner hbufs halone =>
      harpKStep_ends ⟨hp, hpower, hruns, hr, hclass, htrap, hq⟩ hend hdrain hpartner hbufs halone,
    fun _ _ _ hgood hon => harpInternalError_faults hgood hon,
    fun _ _ _ hcmd hph => commandStopped_ends hcmd hph⟩

end Sys2Proof.Proofs
end

section
/-!
PROOFS. The values of the codes of the binary formats, zeros and subnormals, normals, infinities and NaNs apart, and with
them the table of SF4 (R66, R69 to R71).
-/
namespace Sys2Proof.Proofs
open Sys2Proof.Machine Sys2Proof.Safety

/-! ### A code is a sign and a magnitude code -/

section
variable {p : BinFmt} {m : Nat}

theorem sign_mod (hm : m < 2 ^ (p.width - 1)) (neg : Bool) : p.sign neg m % 2 ^ (p.width - 1) = m := by
  cases neg
  · exact Nat.mod_eq_of_lt hm
  · exact (Nat.add_mod_right m _).trans (Nat.mod_eq_of_lt hm)

theorem sign_div (hm : m < 2 ^ (p.width - 1)) (neg : Bool) : p.sign neg m / 2 ^ (p.width - 1) = neg.toNat := by
  cases neg
  · exact Nat.div_eq_of_lt hm
  · exact (Nat.add_div_right m (Nat.two_pow_pos _)).trans (congrArg (· + 1) (Nat.div_eq_of_lt hm))

/-- The sign bit decides the sign, the magnitude code the rest. -/
theorem unpack_sign (hm : m < 2 ^ (p.width - 1)) (neg : Bool) :
    p.unpack (p.sign neg m) =
      if m > p.infCode then .nan (p.long && decide (m / 2 ^ (p.t - 1) % 2 = 0))
      else if m = p.infCode then .inf neg
      else if m < 2 ^ p.t then .fin neg m (1 - (p.bias : Int) - p.t)
      else .fin neg (2 ^ p.t + m % 2 ^ p.t) ((m / 2 ^ p.t : Nat) - (p.bias : Int) - p.t) := by
  have hneg : decide (neg.toNat % 2 = 1) = neg := by cases neg <;> rfl
  rw [BinFmt.unpack, sign_mod hm, sign_div hm, hneg]

/-! ### The four kinds of magnitude codes (R66, R69, R70) -/

/-- Above the infinity stand NaNs, whatever the sign; those of a short format are quiet. -/
theorem unpack_sign_nan (hm : m < 2 ^ (p.width - 1)) (hnan : p.infCode < m) (hshort : p.long = false) (neg : Bool) :
    p.unpack (p.sign neg m) = .nan false := by
  rw [unpack_sign hm, if_pos hnan, hshort, Bool.false_and]

theorem unpack_sign_inf (hm : p.infCode < 2 ^ (p.width - 1)) (neg : Bool) : p.unpack (p.sign neg p.infCode) = .inf neg := by
  rw [unpack_sign hm, if_neg (Nat.lt_irrefl _), if_pos rfl]

section
variable (hinf : p.infCode < 2 ^ (p.width - 1))
include hinf

/-- With a zero exponent field the magnitude code counts smallest subnormals. -/
theorem unpack_sign_subnormal (hfin : m < p.infCode) (hsub : m < 2 ^ p.t) (neg : Bool) :
    p.unpack (p.sign neg m) = .fin neg m (1 - (p.bias : Int) - p.t) := by
  rw [unpack_sign (hfin.trans hinf), if_neg hfin.not_gt, if_neg hfin.ne, if_pos hsub]

/-- An exponent field `e` of at least 1 puts the leading one on the trailing significand `f`. -/
theorem unpack_sign_normal {e f : Nat} (he : 1 ≤ e) (hf : f < 2 ^ p.t) (hfin : 2 ^ p.t * e + f < p.infCode) (neg : Bool) :
    p.unpack (p.sign neg (2 ^ p.t * e + f)) = .fin neg (2 ^ p.t + f) (e - (p.bias : Int) - p.t) := by
  have hnormal : ¬ 2 ^ p.t * e + f < 2 ^ p.t := Nat.not_lt.mpr ((Nat.le_mul_of_pos_right _ he).trans (Nat.le_add_right _ _))
  have htrail : (2 ^ p.t * e + f) % 2 ^ p.t = f := (Nat.mul_add_mod _ _ _).trans (Nat.mod_eq_of_lt hf)
  have hexp : (2 ^ p.t * e + f) / 2 ^ p.t = e := by
    rw [Nat.mul_add_div (Nat.two_pow_pos _), Nat.div_eq_of_lt hf, Nat.add_zero]
  rw [unpack_sign (hfin.trans hinf), if_neg hfin.not_gt, if_neg hfin.ne, if_neg hnormal, htrail, hexp]

end

end

/-! ### SF4 (R71) -/

/-- SF4: an exponent field of two bits with bias 1, one trailing bit, the infinity at 0x6 (R63, R70). -/
def sf4 : BinFmt := ⟨4, 1, 1, 0x5, 0x6, 0x7, false⟩

theorem binFmt_sf4 : binFmt 0x8 = some sf4 := rfl

theorem sf4_infCode_lt : sf4.infCode < 2 ^ (sf4.width - 1) := by decide

/-- The negative of a positive SF4 code stands 0x8 above it. -/
theorem sf4_sign (neg : Bool) (m : Nat) : (if neg then 0x8 else 0) + m = sf4.sign neg m := by
  cases neg
  · exact Nat.zero_add m
  · exact Nat.add_comm 8 m

theorem sf4_subnormal {m : Nat} (hm : m < 2) (neg : Bool) : sf4.unpack (sf4.sign neg m) = .fin neg m (-1) :=
  unpack_sign_subnormal sf4_infCode_lt (hm.trans (by decide)) hm neg

/-- Exponent fields 1 and 2, and not 3, hold the normals of SF4. -/
theorem sf4_normal {e f : Nat} (he : 1 ≤ e) (he' : e < 3) (hf : f < 2) (neg : Bool) :
    sf4.unpack (sf4.sign neg (2 * e + f)) = .fin neg (2 + f) ((e : Int) - 1 - 1) :=
  unpack_sign_normal sf4_infCode_lt he hf (show 2 * e + f < 6 by omega) neg

/-! ### The obligation -/

/-- Settles O52, row by row of R71's table: codes 0 and 1 are the zero and the subnormal, 2 to 5 are two binades of normals,
6 is the infinity and 7 the NaN. -/
theorem sf4Values : Obligations.Sf4Values := by
  unfold Obligations.Sf4Values
  rintro p hp neg _ rfl
  obtain rfl : sf4 = p := Option.some.inj (binFmt_sf4.symm.trans hp)
  simp only [sf4_sign]
  exact ⟨sf4_subnormal (m := 0) (by decide) neg, sf4_subnormal (m := 1) (by decide) neg,
    sf4_normal (e := 1) (f := 0) (by decide) (by decide) (by decide) neg,
    sf4_normal (e := 1) (f := 1) (by decide) (by decide) (by decide) neg,
    sf4_normal (e := 2) (f := 0) (by decide) (by decide) (by decide) neg,
    sf4_normal (e := 2) (f := 1) (by decide) (by decide) (by decide) neg,
    unpack_sign_inf sf4_infCode_lt neg, unpack_sign_nan (p := sf4) (m := 7) (by decide) (by decide) rfl neg⟩

end Sys2Proof.Proofs
end

section
/-!
PROOFS. The epilogue of a harp: its start, and its result held in the output stage (R105, R108, R117); and what stores into a
quiet scratchpad leave as it was.
-/
namespace Sys2Proof.Proofs
open Sys2Proof.Machine Sys2Proof.Safety Sys2Proof.Laws

/-! ### Stores into a quiet scratchpad (R142, R408, R432) -/

/-- Only scratchpads and the accounts of core c differ, and core c's scratchpad is quiet. -/
structure PadStored (c : Nat) (s t : State) : Prop where
  accounts : Accounted [.spd, .regs, .cores] c s t
  quiet : SpdQuiet c t

section
variable {s t u : State} {c : Nat}

theorem PadStored.refl (h : SpdQuiet c s) : PadStored c s s := ⟨Accounted.refl _ c s, h⟩

theorem PadStored.trans (h : PadStored c s t) (h' : PadStored c t u) : PadStored c s u := ⟨h.accounts.trans h'.accounts, h'.quiet⟩

theorem PadStored.of_accounts (h : SpdQuiet c s) (ht : Accounted [.regs, .cores] c s t) : PadStored c s t :=
  ⟨ht.mono rfl, ht.quiet (by decide) h⟩

theorem PadStored.foldl {α : Type} {f : State → α → State} (hf : ∀ v x, SpdQuiet c v → PadStored c v (f v x)) (h : SpdQuiet c s)
    (l : List α) : PadStored c s (l.foldl f s) :=
  List.foldlRecOn l f (PadStored.refl h) (fun v hv x _ => hv.trans (hf v x hv.quiet))

theorem putSpd_stores (h : SpdQuiet c s) (d a : Nat) (data : List Byte) (bad : Bool) : PadStored c s (putSpd s d a data bad) := by
  obtain ⟨hwatch, herr⟩ := h
  rw [putSpd_quiet herr]
  exact ⟨Accounted.mono (.of_agree (Agree.with_spd s _) (by decide) (by decide)) rfl, hwatch, spdWrite_err herr d a data bad⟩

theorem spdStore_stores (h : SpdQuiet c s) (a kind harp tag : Nat) (data : List Byte) (bad : Bool) :
    PadStored c s (spdStore s c a kind harp tag data bad) := by
  have hcount : PadStored c s (countUnits s c 65 64 data.length) := .of_accounts h (countUnits_accounts s c (by decide) 64 _)
  have hput := hcount.trans (putSpd_stores hcount.quiet c a data bad)
  unfold spdStore
  dsimp only
  rw [spdAccess_quiet h]
  split
  · exact hput.trans (putSpd_stores hput.quiet _ a data bad)
  · exact hput

end

/-! ### The start (R108) -/

section
variable {c : CoreIx} {h : HarpIx} {ep : Epi} {s : State}

theorem epilogueStart_starts (hepi : (harpAt s c h).epi = some ep) (hnot : ep.started = false) (hout : (harpAt s c h).out = none) :
    ∃ t, Runs (.epilogueStart c h) s t ∧ (harpAt t c h).epi = some { ep with started := true } ∧
      rd t R.FDL_STATUS_EPILOGUE c 0 = 1 ∧ HarpsOutside [hk c h] s t ∧
      RegsOutside [R.FDL_STATUS_EPILOGUE.at c 0] s t ∧ AgreeOutside [.harps, .regs] s t := by
  let u := setHarp s c h { harpAt s c h with epi := some { ep with started := true } }
  have hfree : (!ep.started && (harpAt s c h).out.isNone) = true := by rw [hnot, hout]; rfl
  refine ⟨wr u R.FDL_STATUS_EPILOGUE c 0 1, ?_, ?_, rd_wr_self _ _ _ _ _ (by decide), harpsOutside_setHarp rfl _,
    fun o ho => reg_wr_other u _ _ _ _ (by simpa using ho), Agree.step (wr_keeps _ _ _ _ _) rfl (Agree.mono (setHarp_keeps s c h _) rfl)⟩
  · rw [Runs, exec_epilogueStart, execEpilogueStart, hepi]
    simp only [hfree]
    rfl
  · rw [harpAt_wr, harpAt_setHarp_self]

end

/-! ### The result (R105, R114, R117) -/

/-- The state records of a chain are written back (R114). -/
def recordsStored (s : State) (c h tag : Nat) (bad : Bool) (recs : List (Nat × Nat × Nat × Nat)) : State :=
  recs.foldl (fun s r => spdStore s c r.1 1 h tag (leBytes 4 r.2.1 ++ leBytes 4 r.2.2.1 ++ leBytes 4 r.2.2.2 ++ leBytes 4 0) bad) s

/-- The rows of the local result are written (R106). -/
def rowsStored (s : State) (c h tag : Nat) (bad : Bool) (e : List W64) (rows : List (List Byte)) : State :=
  rows.zipIdx.foldl (fun s rb => spdStore s c (tileByte (eOutAddr e) rb.2 0) 1 h tag rb.1 bad) s

/-- The local result is written, with its fine scales (R106). -/
def resultStored (s : State) (c h tag : Nat) (bad : Bool) (e : List W64) (rows : List (List Byte)) (scales : List Byte) : State :=
  if eLocalOut e && !isMaxSweep e then
    if eOutScaled e then spdStore (rowsStored s c h tag bad e rows) c (eOutScaleAddr e) 1 h tag scales bad
    else rowsStored s c h tag bad e rows
  else s

/-- Lane operations of an epilogue on core x (R460). -/
def epilogueLanes (x : Core) (ep : Epi) : Nat :=
  laneOps012 (entryOf x ep.tile.desc) ep.tile.desc +
    (match ep.partner with | some t => laneOps012 (entryOf x t.desc) t.desc | none => 0) + laneOpsRest (entryOf x ep.tile.desc) ep.tile.desc

/-- Elements of an epilogue's tile or pair. -/
def epilogueElems (ep : Epi) : Nat := pRows ep.tile.desc * pCols ep.tile.desc * (if ep.partner.isSome then 2 else 1)

/-- The footprint of an epilogue is released, and its work is counted (R144, R424). -/
def epilogueCounted (s : State) (c h : Nat) (e : List W64) (lanes elems : Nat) : State :=
  let s := count (release s c (10000 + hk c h)) c 41 lanes
  let s := if eAct e || (eStats e && decide (eStatSel e / 2 % 2 = 1)) then count s c 38 elems else s
  let s := if eRescale e && decide (eRowMode e = 3) && eFinal e then count s c 35 elems else s
  wr s R.FDL_STATUS_EPILOGUE c 0 0

/-- The exception word of an epilogue's result joins its command's record (R92, R252, R396). -/
def epilogueNoted (s : State) (c h w tag : Nat) (bad : Bool) (exc : W64) : State :=
  traceRec (if bad then notePoison (orExceptions s w (exc.toNat % 1024)) w none else orExceptions s w (exc.toNat % 1024)) c 4 h
    (BitVec.ofNat 64 tag) exc

/-- Has an epilogue met poison in what its chain read (R394, R395). -/
def epiloguePoisoned (s : State) (c : Nat) (ep : Epi) : Bool :=
  (runChain s c ep).1.poison || decide (pEpi ep.tile.desc ∈ (coreAt s c).chainPoison)

/-- The exception word of an epilogue's result (R92). -/
def epilogueExc (s : State) (c : Nat) (ep : Epi) : W64 :=
  excWord (ep.tile.flags ||| (match ep.partner with | some t => t.flags | none => 0))
    ((runChain s c ep).1.epi ||| (runChain s c ep).2.1.epi) (epiloguePoisoned s c ep) (runChain s c ep).2.1.scaleInvalid
    (pTag ep.tile.desc) (ep.tile.rows ||| (match ep.partner with | some t => t.rows | none => 0))

/-- The rows of an epilogue's result (R117). -/
def epilogueRows (s : State) (c : Nat) (ep : Epi) : List (List Byte) :=
  resultRows (entryOf (coreAt s c) ep.tile.desc) ep.tile.desc (runChain s c ep).2.1.codes

/-- The fine scales of an epilogue's result (R117). -/
def epilogueScales (s : State) (c : Nat) (ep : Epi) : List Byte :=
  if eOutScaled (entryOf (coreAt s c) ep.tile.desc) then scaleBytes (runChain s c ep).2.1.scales else []

/-- The statistic of an epilogue's errors is gathered (R96, R111). -/
def errorsGathered (s : State) (c w : Nat) (e d : List W64) (items : List ErrItem) : State :=
  if eErrMode e ≠ 0 ∧ !isMaxSweep e then gatherErr s c w (eErrMode e) (eErrVa e) (pRowBlock d * 32) (pColBlock d * 32) items else s

/-- The state once an epilogue's result is written, counted and noted. -/
def epilogueWritten (s : State) (c h : Nat) (ep : Epi) : State :=
  let e := entryOf (coreAt s c) ep.tile.desc
  let tag := pTag ep.tile.desc
  let bad := epiloguePoisoned s c ep
  epilogueNoted (epilogueCounted (resultStored (recordsStored s c h tag bad (runChain s c ep).1.recs) c h tag bad e
      (epilogueRows s c ep) (epilogueScales s c ep)) c h e (epilogueLanes (coreAt s c) ep) (epilogueElems ep))
    c h ((coreAt s c).ring.getD 0) tag bad (epilogueExc s c ep)

/-- The state once its errors are gathered too. -/
def epilogueDone (s : State) (c h : Nat) (ep : Epi) : State :=
  errorsGathered (epilogueWritten s c h ep) c ((coreAt s c).ring.getD 0) (entryOf (coreAt s c) ep.tile.desc) ep.tile.desc
    (runChain s c ep).2.1.items

/-- What the output stage holds of an epilogue's result, from unstepped time `since` (R117). -/
def heldResult (s : State) (c : Nat) (ep : Epi) (since : Nat) : OutStage :=
  let e := entryOf (coreAt s c) ep.tile.desc
  let d := ep.tile.desc
  ⟨epilogueExc s c ep, pRowBlock d, pColBlock d, pRows d, pCols d, eOutFmt e, eOutScaled e, eAxis e, eStats e, epilogueRows s c ep,
    epilogueScales s c ep, (runChain s c ep).2.2,
    if eDest e ≠ 0 && !isMaxSweep e then (coreAt s c).dlist.getD (eDest e) [] else [], [], [], since⟩

section
variable {c : CoreIx} {h : HarpIx} {ep : Epi} {s : State}

theorem chainAccess_quiet (hq : SpdQuiet c s) (h : Nat) (ep : Epi) : chainAccess s c h ep = s :=
  List.foldlRecOn _ _ (motive := fun v => v = s) rfl (fun v hv f _ => by rw [hv, spdAccess_quiet hq])

theorem recordsStored_stores (hq : SpdQuiet c s) (h tag : Nat) (bad : Bool) (recs : List (Nat × Nat × Nat × Nat)) :
    PadStored c s (recordsStored s c h tag bad recs) := PadStored.foldl (fun _ r hv => spdStore_stores hv r.1 1 h tag _ bad) hq recs

theorem resultStored_stores (hq : SpdQuiet c s) (h tag : Nat) (bad : Bool) (e : List W64) (rows : List (List Byte)) (scales : List Byte) :
    PadStored c s (resultStored s c h tag bad e rows scales) := by
  have hrows : PadStored c s (rowsStored s c h tag bad e rows) :=
    PadStored.foldl (fun _ rb hv => spdStore_stores hv _ 1 h tag rb.1 bad) hq rows.zipIdx
  unfold resultStored
  split
  · split
    · exact hrows.trans (spdStore_stores hrows.quiet _ 1 h tag scales bad)
    · exact hrows
  · exact PadStored.refl hq

theorem epilogueCounted_keeps (s : State) (c h : Nat) (e : List W64) (lanes elems : Nat) :
    AgreeOutside [.regs, .cores] s (epilogueCounted s c h e lanes elems) := by
  have hcount : ∀ {v : State} (n k : Nat), AgreeOutside [.regs, .cores] s v → AgreeOutside [.regs, .cores] s (count v c n k) :=
    fun n k hv => Agree.step (count_keeps _ c n k) rfl hv
  have hlanes := hcount 41 lanes (release_keeps s c (10000 + hk c h))
  have hact := Agree.ite (c := (eAct e || (eStats e && decide (eStatSel e / 2 % 2 = 1))) = true) (hcount 38 elems hlanes) hlanes
  exact Agree.step (wr_keeps _ _ _ _ _) rfl (Agree.ite (hcount 35 elems hact) hact)

theorem epilogueNoted_keeps (s : State) (c h w tag : Nat) (bad : Bool) (exc : W64) :
    AgreeOutside [.regs, .out, .cores, .sch, .ras, .hst] s (epilogueNoted s c h w tag bad exc) := by
  have hexc := orExceptions_keeps s w (exc.toNat % 1024)
  unfold epilogueNoted
  exact Agree.step (traceRec_keeps _ _ _ _ _ _) rfl
    (Agree.ite (Agree.step (notePoison_keeps _ w none) rfl (Agree.mono hexc rfl)) (Agree.mono hexc rfl))

theorem epilogueWritten_keeps (hq : SpdQuiet c s) (h : Nat) (ep : Epi) :
    AgreeOutside [.spd, .regs, .out, .cores, .sch, .ras, .hst] s (epilogueWritten s c h ep) := by
  have hrecs := recordsStored_stores hq h (pTag ep.tile.desc) (epiloguePoisoned s c ep) (runChain s c ep).1.recs
  have hres := resultStored_stores hrecs.quiet h (pTag ep.tile.desc) (epiloguePoisoned s c ep) (entryOf (coreAt s c) ep.tile.desc)
    (epilogueRows s c ep) (epilogueScales s c ep)
  exact Agree.step (epilogueNoted_keeps _ _ _ _ _ _ _) rfl (Agree.step (epilogueCounted_keeps _ _ _ _ _ _) rfl
    (Agree.mono (hrecs.trans hres).accounts.agree rfl))

theorem epilogueDone_alone (herr : eErrMode (entryOf (coreAt s c) ep.tile.desc) = 0) (h : Nat) :
    epilogueDone s c h ep = epilogueWritten s c h ep := if_neg (fun hmode => hmode.1 herr)

theorem epilogueResultComplete_runs (hepi : (harpAt s c h).epi = some ep) (hstarted : ep.started = true) (hshadow : shadowOf s c = none)
    (hq : SpdQuiet c s) (herr : eErrMode (entryOf (coreAt s c) ep.tile.desc) = 0) :
    Runs (.epilogueResultComplete c h) s (onHarp (epilogueWritten s c h ep) c h
      (fun hp => { hp with epi := none, out := some (heldResult s c ep (epilogueWritten s c h ep).utime) })) := by
  have hwaits : (!ep.started || gatherErrWaits s (some c.val) (ringPart s ((coreAt s c).ring.getD 0))
      (eErrMode (entryOf (coreAt s c) ep.tile.desc)) (eErrVa (entryOf (coreAt s c) ep.tile.desc)) (pRowBlock ep.tile.desc * 32)
      (pColBlock ep.tile.desc * 32) 32) ≠ true := by
    rw [hstarted, herr]; exact Bool.false_ne_true
  have hnone : (harpAt s c h).epi.isNone ≠ true := by rw [hepi]; exact Bool.false_ne_true
  have hdone : (harpAt (epilogueDone s c h ep) c h).epi.isNone ≠ true := by
    rwa [epilogueDone_alone herr, harpAt_congr (epilogueWritten_keeps hq h ep .harps (by decide))]
  rw [Runs, exec_epilogueResultComplete, execEpilogueResultComplete, hepi, ← epilogueDone_alone herr]
  dsimp -zeta only
  rw [hshadow]
  refine (if_neg hwaits).trans ((if_neg Nat.zero_ne_one).trans ?_)
  rw [chainAccess_quiet hq]
  exact (if_neg hnone).trans (if_neg hdone)

theorem epilogueResultComplete_holds (hepi : (harpAt s c h).epi = some ep) (hstarted : ep.started = true) (hshadow : shadowOf s c = none)
    (hq : SpdQuiet c s) (herr : eErrMode (entryOf (coreAt s c) ep.tile.desc) = 0) :
    ∃ t o, Runs (.epilogueResultComplete c h) s t ∧ (harpAt t c h).epi = none ∧ (harpAt t c h).out = some o ∧
      o.rowBlock = pRowBlock ep.tile.desc ∧ o.colBlock = pColBlock ep.tile.desc ∧ o.sent = [] ∧
      o.rowBytes = resultRows (entryOf (coreAt s c) ep.tile.desc) ep.tile.desc (runChain s c ep).2.1.codes ∧
      HarpsOutside [hk c h] s t ∧ t.mem = s.mem := by
  have hkeep := epilogueWritten_keeps hq h ep
  refine ⟨_, heldResult s c ep (epilogueWritten s c h ep).utime, epilogueResultComplete_runs hepi hstarted hshadow hq herr, ?_, ?_, rfl, rfl, rfl, rfl,
    harpsOutside_setHarp (hkeep .harps (by decide)) _, hkeep .mem (by decide)⟩
  · rw [onHarp, harpAt_setHarp_self]
  · rw [onHarp, harpAt_setHarp_self]

end

/-! ### The obligation -/

/-- Settles O9, clause by clause from what the two commands answer. -/
theorem epilogueRuns : Obligations.EpilogueRuns := by
  unfold Obligations.EpilogueRuns
  exact ⟨fun _ _ _ _ hepi hnot hout => epilogueStart_starts hepi hnot hout,
    fun _ _ _ _ hepi hstarted hshadow hq herr => epilogueResultComplete_holds hepi hstarted hshadow hq herr⟩

end Sys2Proof.Proofs
end

section
/-!
PROOFS. The sending of tiles (R103, R117, R120 to R122): a tile sent on credit, the release of the output stage, and the wait for
a credit.
-/
namespace Sys2Proof.Proofs
open Sys2Proof.Machine Sys2Proof.Safety Sys2Proof.Laws

/-! ### A tile issued (R117, R121) -/

/-- The image of an output stage's tile for target t (R117). -/
def sentImage (s : State) (c h : Nat) (o : OutStage) (t : Nat) : TileImage :=
  ⟨tileHeader s c h o (SMap.look (fun _ => 0) (coreAt s c).sent (destKey s o.dest t)), o.rowBytes, o.scales,
    if o.hasStats then o.stats else [], c, myModule s, tSlot o.dest t, 0, 0, 0⟩

/-- A core that has spent a credit of a slot on a tile (R120). -/
def creditSpent (key : Nat) (x : Core) : Core :=
  { x with
    credits := SMap.put (fun _ => 0) x.credits key (SMap.look (fun _ => 0) x.credits key - 1)
    sent := SMap.put (fun _ => 0) x.sent key (SMap.look (fun _ => 0) x.sent key + 1) }

/-- The state once a credit is spent and an image of n bytes is counted (R120, R424). -/
def sendCounted (s : State) (c key n : Nat) : State := countUnits (onCore s c (creditSpent key)) c 74 64 n

/-- An image's body and then its header are issued to a core of the module (R121). -/
def imageIssued (s : State) (c core w : Nat) (img : TileImage) (poison : Bool) : State :=
  let body := issue s (flightOf (.core c) (.tile core img) [] poison false (some w) (some (ringPart s w)) none)
  issue body (flightOf (.core c) (.tile core img) [] poison true (some w) (some (ringPart body w)) none)

/-- The state once an output stage's tile is sent to target t. -/
def tileSent (s : State) (c h : Nat) (o : OutStage) (t : Nat) : State :=
  let img := sentImage s c h o t
  noteSent (imageIssued (sendCounted s c (destKey s o.dest t) (dw img.header 2 32 32 + 32)) c (tCore o.dest t)
    ((coreAt s c).ring.getD 0) img (hPoison img.header)) c h t s.ord.nextId

/-- A write as it is issued: with the next number, the time, and its progress (R23, R147). -/
def issuedAs (s : State) (f : Flight) (leg : Leg) : Flight := { f with id := s.ord.nextId, since := s.utime, leg := leg }

/-- The state once a write has taken the next number and joined those in flight (R147). -/
def flightJoined (s : State) (f : Flight) : State :=
  { s with ord := { s.ord with nextId := s.ord.nextId + 1, flights := s.ord.flights ++ [f] } }

/-- A tile's two writes are in flight and its target is noted, in the state with its credit spent. -/
def sentWith (v : State) (c h t : Nat) (f g : Flight) : State := noteSent (flightJoined (flightJoined v f) g) c h t v.ord.nextId

section
variable {s : State} {c h : Nat}

/-- A write to a landing slot takes the next number and joins the writes in flight, whether its route is up or down (R23). -/
theorem issue_tile {f : Flight} {core : Nat} {img : TileImage} (hdst : f.dst = .tile core img) :
    ∃ leg, issue s f = flightJoined s (issuedAs s f leg) := by
  cases f
  cases hdst
  exact ⟨_, rfl⟩

/-- An image's two writes, in flight. -/
structure ImageFlights (c core : Nat) (img : TileImage) (n : Nat) (f g : Flight) : Prop where
  body : f.final = false
  header : g.final = true
  bodySrc : f.src = .core c
  headerSrc : g.src = .core c
  bodyDst : f.dst = .tile core img
  headerDst : g.dst = .tile core img
  bodyId : f.id = n
  headerId : g.id = n + 1

theorem imageIssued_flights (s : State) (c core w : Nat) (img : TileImage) (poison : Bool) :
    ∃ f g, ImageFlights c core img s.ord.nextId f g ∧ imageIssued s c core w img poison = flightJoined (flightJoined s f) g := by
  let body := flightOf (.core c) (.tile core img) [] poison false (some w) (some (ringPart s w)) none
  obtain ⟨leg, hbody⟩ := issue_tile (s := s) (f := body) rfl
  let header := flightOf (.core c) (.tile core img) [] poison true (some w)
    (some (ringPart (flightJoined s (issuedAs s body leg)) w)) none
  obtain ⟨leg', hheader⟩ := issue_tile (s := flightJoined s (issuedAs s body leg)) (f := header) rfl
  refine ⟨issuedAs s body leg, issuedAs (flightJoined s (issuedAs s body leg)) header leg', ⟨rfl, rfl, rfl, rfl, rfl, rfl, rfl, rfl⟩, ?_⟩
  unfold imageIssued
  dsimp only
  rw [hbody, hheader]

theorem sendCounted_keeps (s : State) (c key n : Nat) : AgreeOutside [.regs, .cores] s (sendCounted s c key n) :=
  Agree.step (countUnits_keeps _ c 74 64 n) rfl (Agree.mono (onCore_keeps s c _) rfl)

theorem sendCounted_others (s : State) (c key n : Nat) : CoresOutside [c] s (sendCounted s c key n) := fun k hk =>
  ((countUnits_accounts _ c (by decide) 64 n).others k hk).trans (coresOutside_onCore s c _ k hk)

theorem sendCounted_credits (s : State) (c key n : Nat) :
    SMap.look (fun _ => 0) (coreAt (sendCounted s c key n) c).credits key = SMap.look (fun _ => 0) (coreAt s c).credits key - 1 := by
  have hcredits : (coreAt (sendCounted s c key n) c).credits = (creditSpent key (coreAt s c)).credits := by
    refine (field_of_bare (g := Core.credits) (fun _ => rfl) (countUnits_accounts _ c (by decide) 64 n).bare).trans ?_
    rw [coreAt_onCore, if_pos rfl]
  rw [hcredits]
  exact smap_look_put_self _ _ _ _

theorem tileSent_eq (s : State) (c h : Nat) (o : OutStage) (t : Nat) :
    ∃ f g n, ImageFlights c (tCore o.dest t) (sentImage s c h o t) s.ord.nextId f g ∧
      tileSent s c h o t = sentWith (sendCounted s c (destKey s o.dest t) n) c h t f g := by
  let n := dw (sentImage s c h o t).header 2 32 32 + 32
  have hord : (sendCounted s c (destKey s o.dest t) n).ord = s.ord := sendCounted_keeps s c _ _ .ord (by decide)
  obtain ⟨f, g, hfg, hissued⟩ := imageIssued_flights (sendCounted s c (destKey s o.dest t) n) c (tCore o.dest t) ((coreAt s c).ring.getD 0) (sentImage s c h o t)
    (hPoison (sentImage s c h o t).header)
  refine ⟨f, g, n, hord ▸ hfg, ?_⟩
  rw [sentWith, ← hissued, hord]
  rfl

theorem sentWith_flights (v : State) (c h t : Nat) (f g : Flight) : (sentWith v c h t f g).ord.flights = v.ord.flights ++ [f, g] :=
  List.append_assoc v.ord.flights [f] [g]

theorem sentWith_keeps (v : State) (c h t : Nat) (f g : Flight) : AgreeOutside [.harps, .ord] v (sentWith v c h t f g) :=
  Agree.step (noteSent_keeps _ c h t _) rfl (Agree.step (Agree.with_ord _ _) rfl (Agree.mono (Agree.with_ord v _) rfl))

theorem harpsOutside_sentWith (v : State) (c h t : Nat) (f g : Flight) : HarpsOutside [hk c h] v (sentWith v c h t f g) :=
  harpsOutside_setHarp rfl _

theorem sentWith_out {v : State} {o : OutStage} (t : Nat) (f g : Flight) (ho : (harpAt v c h).out = some o) :
    (harpAt (sentWith v c h t f g) c h).out =
      some { o with sent := o.sent ++ [t], writes := o.writes ++ [v.ord.nextId, v.ord.nextId + 1] } := by
  have htwo : v.ord.nextId + 1 + 1 - v.ord.nextId = 2 := by omega
  have hharp : harpAt (flightJoined (flightJoined v f) g) c h = harpAt v c h := rfl
  have hnext : (flightJoined (flightJoined v f) g).ord.nextId = v.ord.nextId + 1 + 1 := rfl
  rw [sentWith, noteSent, hnext, htwo, onHarp, harpAt_setHarp_self, hharp, ho]
  rfl

end

section
variable {c : CoreIx} {h : HarpIx} {t : Fin 4} {o : OutStage} {s : State}

theorem tileSend_runs (hout : (harpAt s c h).out = some o) (hsend : sendable s (coreAt s c) o t = true)
    (hfirst : ∀ k < t.val, sendable s (coreAt s c) o k = false) (hkind : tKind o.dest t = 1) :
    Runs (.tileSend c h t) s (tileSent s c h o t) := by
  have hready : (!sendable s (coreAt s c) o t || (List.range t).any (sendable s (coreAt s c) o)) ≠ true := by
    simpa [hsend] using hfirst
  have hcore : tKind o.dest t ≠ 3 := by rw [hkind]; decide
  rw [Runs, exec_tileSend, execTileSend, hout]
  exact (if_neg hready).trans ((if_neg (fun hmem => hcore hmem.1)).trans ((if_neg hcore).trans (if_pos hkind)))

/-- What the sending of a tile leaves. -/
structure SentOn (c : CoreIx) (h : HarpIx) (t : Fin 4) (o : OutStage) (s u : State) : Prop where
  out : (harpAt u c h).out = some { o with sent := o.sent ++ [t.val], writes := o.writes ++ [s.ord.nextId, s.ord.nextId + 1] }
  credits : SMap.look (fun _ => 0) (coreAt u c).credits (destKey s o.dest t) =
    SMap.look (fun _ => 0) (coreAt s c).credits (destKey s o.dest t) - 1
  harps : HarpsOutside [hk c h] s u
  cores : CoresOutside [c.val] s u
  agree : AgreeOutside [.harps, .cores, .ord, .regs] s u

theorem tileSent_sends (hout : (harpAt s c h).out = some o) :
    ∃ f g, ImageFlights c (tCore o.dest t) (sentImage s c h o t) s.ord.nextId f g ∧
      (tileSent s c h o t).ord.flights = s.ord.flights ++ [f, g] ∧ SentOn c h t o s (tileSent s c h o t) := by
  obtain ⟨f, g, n, hfg, hsent⟩ := tileSent_eq s c h o t
  have hcount := sendCounted_keeps s c (destKey s o.dest t) n
  have hord := hcount .ord (by decide)
  have hharps := hcount .harps (by decide)
  have hagree := sentWith_keeps (sendCounted s c (destKey s o.dest t) n) c h t f g
  have hcores := hagree .cores (by decide)
  rw [hsent]
  refine ⟨f, g, hfg, ?_, ⟨?_, ?_, fun k j hkj => ?_, fun k hk => ?_, Agree.step hagree rfl (Agree.mono hcount rfl)⟩⟩
  · rw [sentWith_flights, hord]
  · rw [← hord]
    exact sentWith_out t f g ((congrArg Harp.out (harpAt_congr hharps c h)).trans hout)
  · rw [coreAt_congr hcores, sendCounted_credits]
  · rw [harpsOutside_sentWith _ c h t f g k j hkj, harpAt_congr hharps]
  · rw [coreAt_congr hcores, sendCounted_others s c _ n k hk]

theorem tileSend_waits (hout : (harpAt s c h).out = some o) (hkind : tKind o.dest t ≠ 3)
    (hnone : SMap.look (fun _ => 0) (coreAt s c).credits (destKey s o.dest t) = 0) : Runs (.tileSend c h t) s s := by
  have hno : sendable s (coreAt s c) o t = false := by simp [sendable, hkind, hnone]
  rw [Runs, exec_tileSend, execTileSend, hout]
  exact if_pos (by rw [hno]; rfl)

/-! ### The release of the output stage (R121) -/

theorem outputStageRelease_frees (hout : (harpAt s c h).out = some o) (hall : ∀ t < 4, tKind o.dest t = 0 ∨ t ∈ o.sent)
    (hheld : ∀ f ∈ s.ord.flights, f.leg ≠ .blocked) :
    Runs (.outputStageRelease c h) s (setHarp s c h { harpAt s c h with out := none }) := by
  have hdone : ((List.range 4).all (fun t => decide (tKind o.dest t = 0) || decide (t ∈ o.sent)) &&
      !s.ord.flights.any (fun f => decide (f.leg = .blocked) && decide (f.id ∈ o.writes))) = true := by
    rw [Bool.and_eq_true, List.all_eq_true, Bool.not_eq_true', List.any_eq_false]
    exact ⟨fun t ht => by simpa using hall t (List.mem_range.mp ht), fun f hf => by simp [hheld f hf]⟩
  rw [Runs, exec_outputStageRelease, execOutputStageRelease, hout]
  exact if_pos hdone

/-! ### The wait for a credit (R103, R122) -/

theorem tileCreditTimeout_fails (hout : (harpAt s c h).out = some o) (hwait : waitsForCredit s (coreAt s c) o = true)
    (hlate : o.since + us 100 ≤ s.utime) : Runs (.tileCreditTimeout c (some h)) s (failCore s c 0x0C 0) := by
  rw [Runs, exec_tileCreditTimeout, execTileCreditTimeout]
  simp only [hout]
  exact if_pos (by rw [hwait, decide_eq_true hlate]; rfl)

theorem tileCreditTimeout_gather_fails {g : Gather} {k : Nat} (hg : g ∈ (coreAt s c).gathers) (hwait : g.waits = some k)
    (hlate : k + us 100 ≤ s.utime) : Runs (.tileCreditTimeout c none) s (failCore s c 0x0C 0) := by
  rw [Runs, exec_tileCreditTimeout]
  exact if_pos (List.any_eq_true.mpr ⟨g, hg, by rw [hwait]; exact decide_eq_true hlate⟩)

end

/-! ### The obligation -/

/-- Settles O10, clause by clause from what the three commands answer. -/
theorem tileSending : Obligations.TileSending := by
  unfold Obligations.TileSending
  refine ⟨fun c h t o s hout hsend hfirst hkind => ?_,
    fun _ _ _ _ _ hout hkind hnone => tileSend_waits hout hkind hnone,
    fun _ _ _ _ hout hall hheld => outputStageRelease_frees hout hall hheld,
    fun _ _ _ _ hout hwait hlate => tileCreditTimeout_fails hout hwait hlate,
    fun _ _ _ _ hg hwait hlate => tileCreditTimeout_gather_fails hg hwait hlate⟩
  obtain ⟨f, g, hfg, hflights, hon⟩ := tileSent_sends (t := t) hout
  exact ⟨_, f, g, sentImage s c h o t, tileSend_runs hout hsend hfirst hkind, hflights, hfg.body, hfg.header, hfg.bodySrc, hfg.headerSrc,
    hfg.bodyDst, hfg.headerDst, hfg.bodyId, hfg.headerId, rfl, rfl, hon.out, hon.credits, hon.harps, hon.cores, hon.agree⟩

end Sys2Proof.Proofs
end

section
/-!
PROOFS. Landing slots and their credits (R23, R119 to R123, R139): the arming of a slot, the landing of a header, the wait of a
pass for its buffers, and the arrival of a credit.
-/
namespace Sys2Proof.Proofs
open Sys2Proof.Machine Sys2Proof.Safety Sys2Proof.Laws

section
variable {s : State}

/-! ### The arming of a slot (R119, R120) -/

/-- A core with a slot armed by its operand words. -/
def slotArmed (slot : Nat) (words : List W64) (x : Core) : Core :=
  { x with slots := SMap.put (fun _ => Slot.fresh) x.slots slot ⟨true, words, [], 0⟩ }

theorem slotArmed_slot (slot : Nat) (words : List W64) (x : Core) :
    SMap.look (fun _ => Slot.fresh) (slotArmed slot words x).slots slot = ⟨true, words, [], 0⟩ := by
  rw [slotArmed, smap_look_put_self]

/-- The state with one more credit under way (R120). -/
def creditSent (s : State) (cr : CreditFlight) : State := { s with ord := { s.ord with credits := s.ord.credits ++ [cr] } }

/-- Credits for a source on the module set out from the slot's core (R23, R120). -/
theorem returnCredit_here {m : Nat} (hm : m = myModule s) (c slot kind n core tag : Nat) :
    returnCredit s c slot kind n m core tag = creditSent s ⟨core, targetKey m c slot, kind, n, c / 18⟩ := if_pos hm

theorem myModule_congr {t : State} (h : LowSame s t) : myModule t = myModule s := h.rd _ _ _ (by decide)

section
variable {c : CoreIx} {slot : Fin 16} {words : List W64}

theorem landingSlotArm_arms (hi : canIssue s c = true) (hgood : slotBad words = false) (hm : slotSrcModule words = myModule s) :
    ∃ t, Runs (.landingSlotArm c slot words) s t ∧
      SMap.look (fun _ => Slot.fresh) (coreAt t c).slots slot = ⟨true, words, [], 0⟩ ∧
      t.ord.credits = s.ord.credits ++ [⟨slotSrcCore words, targetKey (myModule s) c slot, 0, slotDepth words, c / 18⟩] ∧
      CoresOutside [c.val] s t ∧ AgreeOutside [.cores, .ord, .regs] s t := by
  let v := onCore (count s c 56 1) c (slotArmed slot words)
  have hcount := count_accounts s c (n := 56) (by decide) 1
  have hmodule : slotSrcModule words = myModule v := hm.trans (myModule_congr hcount.low).symm
  refine ⟨creditSent v ⟨slotSrcCore words, targetKey (slotSrcModule words) c slot, 0, slotDepth words, c / 18⟩, ?_, ?_, ?_, fun k hk => ?_,
    Agree.step (Agree.with_ord v _) rfl (Agree.step (onCore_keeps _ c _) rfl (Agree.mono hcount.agree rfl))⟩
  · rw [Runs, exec_landingSlotArm, execLandingSlotArm, hi, hgood, ← returnCredit_here hmodule c slot 0 (slotDepth words) (slotSrcCore words) 0]
    rfl
  · have harmed : coreAt v c = slotArmed slot words (coreAt (count s c 56 1) c) := (coreAt_onCore _ _ _ _).trans (if_pos rfl)
    exact (congrArg (fun x : Core => SMap.look (fun _ => Slot.fresh) x.slots slot) harmed).trans (slotArmed_slot _ _ _)
  · rw [hm]
    exact congrArg (fun o : Order => o.credits ++ [_]) (hcount.agree .ord (by decide))
  · exact (coresOutside_onCore _ c _ k hk).trans (hcount.others k hk)

theorem landingSlotArm_reserved (hi : canIssue s c = true) (hbad : slotBad words = true) :
    Runs (.landingSlotArm c slot words) s (failCore (count s c 56 1) c 0x1D 0) := by
  rw [Runs, exec_landingSlotArm, execLandingSlotArm, hi, hbad]
  rfl

end

/-! ### The landing of a header (R121, R139) -/

/-- The slot of a core that a tile image is for. -/
def imageSlot (s : State) (c : Nat) (img : TileImage) : Slot := SMap.look (fun _ => Slot.fresh) (coreAt s c).slots img.slot

/-- A core with a slot's buffer full, for the slot's consumers (R119, R120). -/
def bufferFilled (slot b : Nat) (x : Core) : Core :=
  let sl := SMap.look (fun _ => Slot.fresh) x.slots slot
  { x with slots := SMap.put (fun _ => Slot.fresh) x.slots slot { sl with full := SMap.put (fun _ => 0) sl.full b (slotConsumers sl.words) } }

theorem bufferFilled_full (slot b : Nat) (x : Core) :
    SMap.look (fun _ => 0) (SMap.look (fun _ => Slot.fresh) (bufferFilled slot b x).slots slot).full b =
      slotConsumers (SMap.look (fun _ => Slot.fresh) x.slots slot).words := by
  rw [bufferFilled, smap_look_put_self]
  exact smap_look_put_self _ _ _ _

/-- The header's bytes lie in the slot's metadata, and they are counted (R119, R424). -/
def headerStored (s : State) (c : Nat) (img : TileImage) : State :=
  spdStore (countUnits s c 76 64 32) c
    (slotMeta (imageSlot s c img).words + 32 * tileBuf (imageSlot s c img) img.header) 4 0 0 (wordsBytes img.header) (hPoison img.header)

/-- An accepted header has landed: its buffer is full. -/
def headerLanded (s : State) (c : Nat) (img : TileImage) : State :=
  onCore (headerStored s c img) c (bufferFilled img.slot (tileBuf (imageSlot s c img) img.header))

section
variable {n words c : Nat} {f : Flight} {img : TileImage}

theorem landHeader_accepts (hv : headerVerdict s c img = 0) (tag : Nat) : landHeader s c tag img = headerLanded s c img := if_pos hv

theorem headerStored_stores (hq : SpdQuiet c s) (img : TileImage) : PadStored c s (headerStored s c img) :=
  have hcount : PadStored c s (countUnits s c 76 64 32) := .of_accounts hq (countUnits_accounts s c (by decide) 64 32)
  hcount.trans (spdStore_stores hcount.quiet _ 4 0 0 _ _)

theorem headerLanded_full (hq : SpdQuiet c s) (img : TileImage) :
    SMap.look (fun _ => 0) (imageSlot (headerLanded s c img) c img).full (tileBuf (imageSlot s c img) img.header) =
      slotConsumers (imageSlot s c img).words := by
  have hslots : (coreAt (headerStored s c img) c).slots = (coreAt s c).slots :=
    field_of_bare (g := Core.slots) (fun _ => rfl) (headerStored_stores hq img).accounts.bare
  rw [imageSlot, headerLanded, coreAt_onCore, if_pos rfl, bufferFilled_full, hslots]
  rfl

theorem headerLanded_others (hq : SpdQuiet c s) (img : TileImage) : CoresOutside [c] s (headerLanded s c img) := fun k hk =>
  (coresOutside_onCore _ c _ k hk).trans ((headerStored_stores hq img).accounts.others k hk)

theorem headerLanded_keeps (hq : SpdQuiet c s) (img : TileImage) : AgreeOutside [.spd, .regs, .cores] s (headerLanded s c img) :=
  Agree.step (onCore_keeps _ c _) rfl (headerStored_stores hq img).accounts.agree

/-- A tile of the module's own cores is acknowledged to no peer (R149). -/
theorem tileLanded_here (hm : f.mtag = none) (s : State) (parts : Nat) (refused : Bool) : tileLanded s f parts refused = s := by
  unfold tileLanded
  rw [hm]
  split
  · rename_i hnone
    cases hnone
  · rfl

/-- The header of a tile of the module's own cores lands where its destination has not changed hands. -/
theorem landFlight_header (hdst : f.dst = .tile c img) (hfinal : f.final = true) (howner : ownerMoved s f = false) (hm : f.mtag = none)
    (hv : headerVerdict s c img = 0) : landFlight s f = headerLanded (dropFlight s f.id) c img := by
  have hland : ∀ tag, landHeader (dropFlight s f.id) c tag img = headerLanded (dropFlight s f.id) c img := landHeader_accepts hv
  unfold landFlight
  simp only [howner, hdst, hfinal, tileLanded_here hm, hland, Bool.false_and, Bool.false_eq_true, if_false, if_true]

theorem tileImageLand_lands (hfind : s.ord.flights.find? (fun f => decide (f.id = n)) = some f) (hdst : f.dst = .tile c img)
    (hleg : f.leg = .arrived) (hawake : dstAwake s (.spd c 0) = true) (hfinal : f.final = true) (hheld : finalHeld s f = false)
    (howner : ownerMoved s f = false) (hv : headerVerdict s c img = 0) (hm : f.mtag = none) :
    Runs (.tileImageLand n words) s (headerLanded (dropFlight s n) c img) := by
  have hid : f.id = n := by simpa using List.find?_some hfind
  have hready : (decide (f.leg = .arrived) && dstAwake s (.spd c 0) && !(f.final && finalHeld s f)) = true := by
    rw [hleg, hawake, hheld, Bool.and_false]; rfl
  have hland := landFlight_header hdst hfinal howner hm hv
  rw [hid] at hland
  rw [Runs, exec_tileImageLand, execTileImageLand, hfind]
  simp only [hdst]
  rw [hready, if_pos (Or.inl hfinal), hland]
  rfl

theorem tileImageLand_fills (hfind : s.ord.flights.find? (fun f => decide (f.id = n)) = some f) (hdst : f.dst = .tile c img)
    (hleg : f.leg = .arrived) (hawake : dstAwake s (.spd c 0) = true) (hfinal : f.final = true) (hheld : finalHeld s f = false)
    (howner : ownerMoved s f = false) (hv : headerVerdict s c img = 0) (hm : f.mtag = none) (hq : SpdQuiet c s) :
    ∃ t, Runs (.tileImageLand n words) s t ∧ (∀ g ∈ t.ord.flights, g.id ≠ n) ∧
      SMap.look (fun _ => 0) (SMap.look (fun _ => Slot.fresh) (coreAt t c).slots img.slot).full
        (tileBuf (SMap.look (fun _ => Slot.fresh) (coreAt s c).slots img.slot) img.header) =
        slotConsumers (SMap.look (fun _ => Slot.fresh) (coreAt s c).slots img.slot).words ∧
      CoresOutside [c] s t ∧ t.mem = s.mem ∧ t.harps = s.harps := by
  have hq' : SpdQuiet c (dropFlight s n) := hq
  have hkeep := headerLanded_keeps hq' img
  refine ⟨_, tileImageLand_lands hfind hdst hleg hawake hfinal hheld howner hv hm, fun g hg => ?_, headerLanded_full hq' img,
    headerLanded_others hq' img, hkeep .mem (by decide), hkeep .harps (by decide)⟩
  rw [hkeep .ord (by decide)] at hg
  simpa using List.of_mem_filter hg

end

/-! ### The wait of a pass (R120) -/

theorem passCreditWaitEnd_ready {c : CoreIx} {h : HarpIx} {p : Pass} (hn : (harpAt s c h).next = some p) (hnot : p.ready = false)
    (hfull : p.bufs.all (bufferFull (coreAt s c)) = true) (hrun : (coreAt s c).stopped = false) :
    Runs (.passCreditWaitEnd c h) s (setHarp s c h { harpAt s c h with next := some { p with ready := true } }) := by
  have hmay : mayStart (coreAt s c) (harpAt s c h) p = true := by simp [mayStart, hrun]
  rw [Runs, exec_passCreditWaitEnd, execPassCreditWaitEnd, hn]
  exact if_pos (by rw [hnot, hfull, hmay]; rfl)

/-! ### The arrival of a credit (R23, R120, R123) -/

/-- The state once the n-th credit has left the network. -/
def creditTaken (s : State) (n : Nat) : State := { s with ord := { s.ord with credits := s.ord.credits.eraseIdx n } }

/-- A core that a credit of tiles has reached (R120). -/
def creditHeld (cr : CreditFlight) (x : Core) : Core :=
  { x with
    credits := SMap.put (fun _ => 0) x.credits cr.key (SMap.look (fun _ => 0) x.credits cr.key + cr.count)
    sent := if cr.kind = 0 then SMap.put (fun _ => 0) x.sent cr.key 0 else x.sent }

theorem startGather_none {c : Nat} (hg : (coreAt s c).gathers = []) (key : Nat) : startGather s c key = s := by
  unfold startGather
  dsimp only
  rw [hg]
  rfl

section
variable {n : Nat} {cr : CreditFlight}

theorem creditArrive_runs (hcr : s.ord.credits[n]? = some cr) (hkind : cr.kind = 1) (hup : rowsUp s cr.row (cr.core / 18) = true)
    (hg : (coreAt s cr.core).gathers = []) : Runs (.creditArrive n) s (onCore (creditTaken s n) cr.core (creditHeld cr)) := by
  have hnone : (coreAt (onCore (creditTaken s n) cr.core (creditHeld cr)) cr.core).gathers = [] := by
    rw [coreAt_onCore, if_pos rfl]
    exact hg
  have hstarts : (List.range cr.count).foldl (fun v _ => startGather v cr.core cr.key) (onCore (creditTaken s n) cr.core (creditHeld cr)) =
      onCore (creditTaken s n) cr.core (creditHeld cr) :=
    List.foldlRecOn (motive := fun v => v = onCore (creditTaken s n) cr.core (creditHeld cr)) _ _ rfl
      (fun v hv _ _ => by rw [hv, startGather_none hnone])
  have hopen : cr.kind ≠ 2 ∧ cr.kind ≠ 3 := by rw [hkind]; decide
  have hroute : ¬ (!rowsUp s cr.row (cr.core / 18)) = true := by rw [hup]; decide
  rw [Runs, exec_creditArrive, execCreditArrive, hcr]
  exact (if_neg hroute).trans ((if_neg hopen.1).trans ((if_neg hopen.2).trans (congrArg Host.Outcome.next hstarts)))

theorem creditArrive_joins (hcr : s.ord.credits[n]? = some cr) (hkind : cr.kind = 1) (hup : rowsUp s cr.row (cr.core / 18) = true)
    (hg : (coreAt s cr.core).gathers = []) :
    ∃ t, Runs (.creditArrive n) s t ∧ t.ord.credits = s.ord.credits.eraseIdx n ∧
      SMap.look (fun _ => 0) (coreAt t cr.core).credits cr.key = SMap.look (fun _ => 0) (coreAt s cr.core).credits cr.key + cr.count ∧
      CoresOutside [cr.core] s t ∧ AgreeOutside [.ord, .cores] s t := by
  refine ⟨_, creditArrive_runs hcr hkind hup hg, rfl, ?_, coresOutside_onCore (creditTaken s n) cr.core _,
    Agree.step (onCore_keeps _ _ _) rfl (Agree.mono (Agree.with_ord s _) rfl)⟩
  rw [coreAt_onCore, if_pos rfl]
  exact smap_look_put_self _ _ _ _

theorem creditArrive_closed (hcr : s.ord.credits[n]? = some cr) (hkind : cr.kind = 2) (hup : rowsUp s cr.row (cr.core / 18) = true) :
    Runs (.creditArrive n) s (failCore (creditTaken s n) cr.core 0x0D 0) := by
  have hroute : ¬ (!rowsUp s cr.row (cr.core / 18)) = true := by rw [hup]; decide
  rw [Runs, exec_creditArrive, execCreditArrive, hcr]
  exact (if_neg hroute).trans (if_pos hkind)

end

end

/-! ### The obligation -/

/-- Settles O11, clause by clause from what the four commands answer. -/
theorem landingSlots : Obligations.LandingSlots := by
  unfold Obligations.LandingSlots
  exact ⟨fun _ _ _ _ hi hgood hm => landingSlotArm_arms hi hgood hm,
    fun _ _ _ _ hi hbad => landingSlotArm_reserved hi hbad,
    fun _ _ _ _ _ _ hfind hdst hleg hawake hfinal hheld howner hv hm hq _ =>
      tileImageLand_fills hfind hdst hleg hawake hfinal hheld howner hv hm hq,
    fun _ _ _ _ hn hnot hfull hrun => passCreditWaitEnd_ready hn hnot hfull hrun,
    fun _ _ _ hcr hkind hup hg => creditArrive_joins hcr hkind hup hg,
    fun _ _ _ hcr hkind hup => creditArrive_closed hcr hkind hup⟩

end Sys2Proof.Proofs
end

section
/-!
PROOFS. A row that a data mover stores in segments (R102, R138, R394): the places of its bytes, and what they hold afterwards.
-/
namespace Sys2Proof.Proofs
open Sys2Proof.Machine Sys2Proof.Safety Sys2Proof.Laws

/-! ### A row stored in segments (R102, R394) -/

/-- The places of a row of n bytes rise, and they are consecutive over each segment, which holds at least a word from each word's
start on. -/
structure Strips (g seg : Nat → Nat) (n : Nat) : Prop where
  rising : StrictMono g
  run : ∀ i j, j < seg i → g (i + j) = g i + j
  some : ∀ i, 0 < seg i
  word : ∀ q, 8 ≤ seg (8 * q)
  within : ∀ b < n, g b < 2 ^ 32

/-- The first j bytes of a row lie at their places. -/
structure RowAt (c : Nat) (g : Nat → Nat) (bytes : List Byte) (s : State) (j : Nat) (t : State) : Prop where
  frame : PadStored c s t
  holds : ∀ b < bytes.length, b < j → spdByte t.spd c (g b) = bytes.getD b 0

section
variable {c i j m : Nat} {g seg : Nat → Nat} {bytes : List Byte} {s t : State}

theorem length_segment (bytes : List Byte) (i m : Nat) : (segment bytes i m).length = min m (bytes.length - i) := by
  simp [segment]

/-- A segment stored at the place of its first byte lies within the scratchpad's addresses. -/
theorem Strips.fits (hg : Strips g seg bytes.length) (hi : i < bytes.length) (hm : m ≤ seg i) :
    g i + (segment bytes i m).length ≤ 2 ^ 32 := by
  rw [length_segment]
  by_cases hzero : min m (bytes.length - i) = 0
  · have := hg.within i hi
    omega
  · have hlast := hg.within (i + (min m (bytes.length - i) - 1)) (by omega)
    rw [hg.run i _ (by omega)] at hlast
    omega

/-- Byte b of a row after a segment of it has been stored over bytes of which b, where the segment does not hold it, is one. -/
theorem Strips.overlaid (hg : Strips g seg bytes.length) (hm : m ≤ seg i) {b : Nat} (hb : b < bytes.length) {p : Spd}
    (hold : ¬ (i ≤ b ∧ b < i + m) → spdByte p c (g b) = bytes.getD b 0) :
    overlaid p c (g i) (segment bytes i m) (g b) = bytes.getD b 0 := by
  unfold Proofs.overlaid
  rw [length_segment]
  by_cases hin : i ≤ b ∧ b < i + m
  · obtain ⟨k, rfl⟩ := Nat.exists_eq_add_of_le hin.1
    have hplace := hg.run i k (by omega)
    have hoff : g i + k - g i = k := by omega
    rw [if_pos (by omega), hplace, hoff, getD_segment bytes i (by omega)]
  · rw [if_neg, hold hin]
    rintro ⟨hlo, hhi⟩
    have hle : i ≤ b := hg.rising.le_iff_le.mp hlo
    have hpast : g (i + (m - 1)) = g i + (m - 1) := by
      by_cases hzero : m = 0
      · subst hzero
        rfl
      · exact hg.run i (m - 1) (by omega)
    have hlast : g (i + (m - 1)) < g b := hg.rising (by omega)
    omega

theorem RowAt.store (h : RowAt c g bytes s i t) (hg : Strips g seg bytes.length) (hi : i < bytes.length) (hm : m ≤ seg i) (kind : Nat) :
    RowAt c g bytes s (i + m) (spdStore t c (g i) kind 0 0 (segment bytes i m) false) := by
  obtain ⟨-, hbytes⟩ := spdStore_moves h.frame.quiet kind 0 0 false (hg.fits hi hm)
  refine ⟨h.frame.trans (spdStore_stores h.frame.quiet _ kind 0 0 _ false), fun b hb hj => ?_⟩
  rw [hbytes _ (hg.within b hb)]
  exact hg.overlaid hm hb (fun hout => h.holds b hb (by omega))

/-- A word marked again over a row that lies at its places leaves it there. -/
theorem RowAt.mark (h : RowAt c g bytes s bytes.length t) (hg : Strips g seg bytes.length) {q : Nat} (hq : 8 * q < bytes.length) :
    RowAt c g bytes s bytes.length (putSpd t c (g (8 * q)) (segment bytes (8 * q) 8) true) := by
  refine ⟨h.frame.trans (putSpd_stores h.frame.quiet c _ _ true), fun b hb hj => ?_⟩
  rw [spdByte_putSpd_same h.frame.quiet true (hg.fits hq (hg.word q)) (hg.within b hb)]
  exact hg.overlaid (hg.word q) hb (fun _ => h.holds b hb hj)

/-- One step of a row's stores: nothing where its segment has been stored. -/
def stripStep (c kind : Nat) (bytes : List Byte) (g seg : Nat → Nat) (st : State × Nat) (i : Nat) : State × Nat :=
  if i < st.2 then st else (spdStore st.1 c (g i) kind 0 0 (segment bytes i (max 1 (seg i))) false, i + max 1 (seg i))

/-- One step of a row's marks. -/
def stripMark (c : Nat) (bytes : List Byte) (poison : Nat → Bool) (g : Nat → Nat) (s : State) (q : Nat) : State :=
  if poison (8 * q) then putSpd s c (g (8 * q)) (segment bytes (8 * q) 8) true else s

theorem storeMoved_strips_eq (s : State) (c kind : Nat) (bytes : List Byte) (poison : Nat → Bool) (g seg : Nat → Nat) :
    storeMoved s c kind bytes poison g seg = (List.range ((bytes.length + 7) / 8)).foldl (stripMark c bytes poison g)
      ((List.range bytes.length).foldl (stripStep c kind bytes g seg) (s, 0)).1 := rfl

theorem stripSteps_store (h : SpdQuiet c s) (hg : Strips g seg bytes.length) (kind n : Nat) (hn : n ≤ bytes.length) :
    n ≤ ((List.range n).foldl (stripStep c kind bytes g seg) (s, 0)).2 ∧
      RowAt c g bytes s ((List.range n).foldl (stripStep c kind bytes g seg) (s, 0)).2
        ((List.range n).foldl (stripStep c kind bytes g seg) (s, 0)).1 := by
  induction n with
  | zero => exact ⟨Nat.le_refl 0, PadStored.refl h, fun b _ hb => absurd hb (Nat.not_lt_zero b)⟩
  | succ n ih =>
    obtain ⟨hreached, hrow⟩ := ih (by omega)
    rw [List.range_succ, List.foldl_append, List.foldl_cons, List.foldl_nil]
    generalize (List.range n).foldl (stripStep c kind bytes g seg) (s, 0) = st at hreached hrow ⊢
    unfold stripStep
    split
    · rename_i hlt
      exact ⟨hlt, hrow⟩
    · have hat : st.2 = n := by omega
      have hone := hg.some n
      rw [hat] at hrow
      rw [max_eq_right hone]
      exact ⟨by dsimp only; omega, hrow.store hg (by omega) (Nat.le_refl _) kind⟩

/-- A row stored in segments, with its marks, lies at its places. -/
theorem storeMoved_strips (h : SpdQuiet c s) (hg : Strips g seg bytes.length) (kind : Nat) (poison : Nat → Bool) :
    RowAt c g bytes s bytes.length (storeMoved s c kind bytes poison g seg) := by
  obtain ⟨hreached, hrow⟩ := stripSteps_store h hg kind bytes.length (Nat.le_refl _)
  rw [storeMoved_strips_eq]
  refine List.foldlRecOn _ _ ⟨hrow.frame, fun b hb _ => hrow.holds b hb (by omega)⟩ (fun v hv q hq => ?_)
  have hq' := List.mem_range.mp hq
  unfold stripMark
  split
  · exact hv.mark hg (by omega)
  · exact hv

end

/-! ### The places of a gathered row (R138) -/

/-- Bytes of a row that one strip of scratchpad rows holds, from origin o (R138). -/
def stripWidth (o : Nat) : Nat := 512 - o % 512

section
variable {o rb n b : Nat}

theorem stripWidth_pos (o : Nat) : 0 < stripWidth o := by unfold stripWidth; omega

theorem gatherByte_rising (o rb n : Nat) : StrictMono (gatherByte o rb n) := by
  refine strictMono_nat_of_lt_succ (fun b => ?_)
  have hpos := stripWidth_pos o
  have hlt := Nat.mod_lt b hpos
  have hdiv := Nat.div_add_mod b (stripWidth o)
  have hdiv' := Nat.div_add_mod (b + 1) (stripWidth o)
  have hle : b / stripWidth o ≤ (b + 1) / stripWidth o := Nat.div_le_div_right (Nat.le_succ b)
  simp only [gatherByte]
  change _ < (o / 512 + 32 * (_ + (b + 1) / stripWidth o) + n % 32) * 512 + o % 512 + (b + 1) % stripWidth o
  change (o / 512 + 32 * (_ + b / stripWidth o) + n % 32) * 512 + o % 512 + b % stripWidth o < _
  have hwidth : stripWidth o ≤ 512 - o % 512 := Nat.le_refl _
  rcases Nat.eq_or_lt_of_le hle with heq | hstrip
  · rw [← heq] at hdiv' ⊢
    omega
  · omega

theorem gatherByte_run {j : Nat} (hj : j < stripWidth o - b % stripWidth o) : gatherByte o rb n (b + j) = gatherByte o rb n b + j := by
  have hlt := Nat.mod_lt b (stripWidth_pos o)
  have hmod : (b + j) % stripWidth o = b % stripWidth o + j :=
    (Nat.mod_add_mod b (stripWidth o) j).symm.trans (Nat.mod_eq_of_lt (by omega))
  have hdiv : (b + j) / stripWidth o = b / stripWidth o :=
    Nat.div_eq_of_lt_le (by have := Nat.div_add_mod' b (stripWidth o); omega)
      (by have := Nat.div_add_mod' b (stripWidth o); rw [Nat.add_mul]; omega)
  unfold stripWidth at hmod hdiv
  simp only [gatherByte, hmod, hdiv]
  omega

/-- The last of the rows of a residue lies highest. -/
theorem gatherByte_mono_row (o rb n k b : Nat) : gatherByte o rb n b ≤ gatherByte o rb (n + 32 * k) b := by
  have hdiv : (n + 32 * k) / 32 = n / 32 + k := Nat.add_mul_div_left n k (by decide)
  have hmod : (n + 32 * k) % 32 = n % 32 := Nat.add_mul_mod_self_left n 32 k
  simp only [gatherByte, hdiv, hmod]
  have hle := Nat.mul_le_mul_right ((rb + (512 - o % 512) - 1) / (512 - o % 512)) (Nat.le_add_right (n / 32) k)
  omega

end

/-- A gather's fields that keep its rows within the scratchpad, at a plain origin (R128, R130). -/
theorem gatherBad_dest {d : List W64} (h : gatherBad d = false) (hslot : gSlot d = false) :
    gDest d % 8 = 0 ∧ gatherEndBad (gDest d) (gScaleDest d) d = false := by
  simp only [gatherBad, hslot, Bool.or_eq_false_iff, Bool.false_eq_true, if_false] at h
  obtain ⟨-, halign, hend⟩ := h
  exact ⟨by simpa using halign, hend⟩

theorem gatherByte_inside {d : List W64} (h : gatherBad d = false) (hslot : gSlot d = false) {row b : Nat} (hrow : row < gCount d)
    (hb : b < gRowBytes d) : gatherByte (gDest d) (gRowBytes d) row b < spdBytes := by
  have hend := (gatherBad_dest h hslot).2
  simp only [gatherEndBad, Bool.or_eq_false_iff, List.any_eq_false, decide_eq_true_eq, Nat.not_le] at hend
  have hres : gCount d - 1 - min ((gCount d - 1 - row) % 32) (gCount d - 1) = row + 32 * ((gCount d - 1 - row) / 32) := by omega
  have hlast := hend.1 ((gCount d - 1 - row) % 32) (List.mem_range.mpr (Nat.mod_lt _ (by decide)))
  rw [hres] at hlast
  calc gatherByte (gDest d) (gRowBytes d) row b
      ≤ gatherByte (gDest d) (gRowBytes d) row (gRowBytes d - 1) := (gatherByte_rising _ _ _).monotone (by omega)
    _ ≤ gatherByte (gDest d) (gRowBytes d) (row + 32 * ((gCount d - 1 - row) / 32)) (gRowBytes d - 1) := gatherByte_mono_row _ _ _ _ _
    _ < spdBytes := hlast

/-- A gathered row is stored in strips. -/
theorem gatherRow_strips {d : List W64} (h : gatherBad d = false) (hslot : gSlot d = false) {row : Nat} (hrow : row < gCount d) :
    Strips (fun b => gatherByte (gDest d) (gRowBytes d) row b) (fun b => 512 - gDest d % 512 - b % (512 - gDest d % 512)) (gRowBytes d) where
  rising := gatherByte_rising _ _ row
  run i j hj := gatherByte_run hj
  some i := Nat.sub_pos_of_lt (Nat.mod_lt i (stripWidth_pos _))
  word q := by
    have halign := (gatherBad_dest h hslot).1
    have hpos := stripWidth_pos (gDest d)
    have hwidth : (512 - gDest d % 512) % 8 = 0 := by omega
    have hmod : 8 * q % (512 - gDest d % 512) % 8 = 0 :=
      (Nat.mod_mod_of_dvd (8 * q) (Nat.dvd_of_mod_eq_zero hwidth)).trans (Nat.mul_mod_right 8 q)
    have hlt := Nat.mod_lt (8 * q) hpos
    unfold stripWidth at hlt
    omega
  within b hb := (gatherByte_inside h hslot hrow hb).trans (by decide)

end Sys2Proof.Proofs
end

section
/-!
PROOFS. What the reads of a data mover change in the control registers and in memory's bytes (R215, R230, R424, R433, R434), and
how many bytes they read.
-/
namespace Sys2Proof.Proofs
open Sys2Proof.Machine Sys2Proof.Safety Sys2Proof.Laws

/-! ### Registers that a read can change, whatever watchpoints it meets -/

/-- Registers below the cores' windows, and the cores' counters. -/
def TrafficReg (o : Nat) : Prop := ¬ WindowReg o ∨ CounterReg o

section
variable {s t : State}

theorem RegsOff.of_low {P : Nat → Prop} (hP : ∀ o, P o → o < 0x1000000) (h : RegsOff P s t) : RegsOff TrafficReg s t :=
  h.mono (fun o ho => Or.inl (Nat.not_le.mpr (hP o ho)))

theorem RegsOff.quiet {c : Nat} (h : RegsOff TrafficReg s t) (hspd : t.spd = s.spd) (hq : SpdQuiet c s) : SpdQuiet c t := by
  obtain ⟨hwatch, herr⟩ := hq
  refine ⟨fun m hm => (h.rdB ?_).trans (hwatch m hm), by rw [hspd, herr]⟩
  simp only [TrafficReg, CounterReg, WindowReg, Fld.at, R.CNT_SPWP_CFG_ENABLE]
  omega

theorem recordReg_low {o : Nat} (h : RecordReg o) : o < 0x1000000 := by
  unfold RecordReg at h
  omega

theorem postEvent_traffic (s : State) (p : Option Nat) (code a b c : Nat) : RegsOff TrafficReg s (postEvent s p code a b c) :=
  (postEvent_frame s p code a b c).regs.of_low (fun _ => recordReg_low)

end

theorem countUnits_traffic (s : State) (c : Nat) {n : Nat} (hn : n < 128) (u k : Nat) : RegsOff TrafficReg s (countUnits s c n u k) :=
  (countUnits_regs s c n u k).mono (fun _ ho => Or.inr (ho ▸ counterReg_count c hn))

theorem countPlace_traffic (s : State) (c n : Nat) (isWrite : Bool) (p : Place) : RegsOff TrafficReg s (countPlace s c n isWrite p) := by
  have hkind : ∀ i j, i < 128 → j < 128 → (if isWrite then i else j) < 128 := fun i j hi hj => by split <;> assumption
  cases p with
  | near => exact countUnits_traffic s c (hkind 68 67 (by decide) (by decide)) 64 n
  | cxl _ => exact countUnits_traffic s c (hkind 70 69 (by decide) (by decide)) 64 n
  | host =>
    cases isWrite with
    | true => exact countUnits_traffic s c (by decide) 64 n
    | false => exact RegsOff.refl _ s
  | absent => exact RegsOff.refl _ s

theorem countMem_traffic (s : State) (who : Requester) (pa n : Nat) (isWrite : Bool) : RegsOff TrafficReg s (countMem s who pa n isWrite) := by
  unfold countMem
  split
  · exact RegsOff.refl _ s
  · exact countPlace_traffic s _ n isWrite _

/-! ### A watchpoint's record and its stop (R240, R433, R434) -/

theorem trafficReg_ring {w : Nat} (hw : w < 64) : TrafficReg (R.SEQ_RQ_STATUS_STATE.at w 0) ∧ TrafficReg (R.SEQ_RQ_STATUS_STOP_CAUSE.at w 0) ∧
    TrafficReg (R.SEQ_RQ_STATUS_NEXT_SLOT.at w 0) ∧ TrafficReg (R.SEQ_RQ_STATUS_EXPECT_GEN.at w 0) := by
  simp only [TrafficReg, WindowReg, Fld.at, R.SEQ_RQ_STATUS_STATE, R.SEQ_RQ_STATUS_STOP_CAUSE, R.SEQ_RQ_STATUS_NEXT_SLOT,
    R.SEQ_RQ_STATUS_EXPECT_GEN]
  omega

theorem trafficReg_hits {n : Nat} (hn : n < 16) : TrafficReg (R.DBG_WP_HITS_HITS.at n 0) ∧ TrafficReg (R.DBG_HIT_STATUS_WRITTEN.at 0 0) := by
  simp only [TrafficReg, WindowReg, Fld.at, R.DBG_WP_HITS_HITS, R.DBG_HIT_STATUS_WRITTEN]
  omega

theorem returnTaken_traffic (s : State) {w : Nat} (hw : w < 64) : RegsOff TrafficReg s (returnTaken s w) := by
  obtain ⟨-, -, hslot, hgen⟩ := trafficReg_ring hw
  have hring : ∀ g, RegsOff TrafficReg s (onRing s w g) := fun g => .of_agree (onRing_keeps s w g) (by decide)
  unfold returnTaken
  dsimp only
  split
  · exact RegsOff.refl _ s
  · split
    · exact ((hring _).wr hslot).wr hgen
    · exact (hring _).wr hslot

theorem stopRing_traffic (s : State) {w : Nat} (hw : w < 64) : RegsOff TrafficReg s (stopRing s w) := by
  obtain ⟨hstate, hcause, -, -⟩ := trafficReg_ring hw
  have htaken := returnTaken_traffic s hw
  unfold stopRing
  dsimp only
  split
  · split
    · exact htaken.wr hstate
    · exact (htaken.wr hstate).wr hcause
  · exact RegsOff.refl _ s

theorem stopRings_traffic (s : State) (p : Nat) : RegsOff TrafficReg s (stopRings s p) := by
  refine RegsOff.foldl (fun v w hw => ?_) (RegsOff.refl _ s)
  split
  · exact stopRing_traffic v (List.mem_range.mp hw)
  · exact RegsOff.refl _ v

theorem hitRecord_traffic (s : State) (n : Nat) (words : List W64) : RegsOff TrafficReg s (hitRecord s n words) := by
  unfold hitRecord
  dsimp only
  split
  · exact RegsOff.refl _ s
  · refine RegsOff.wr ?_ (trafficReg_hits (n := 0) (by decide)).2
    exact RegsOff.of_regs rfl

theorem watchMem_traffic (s : State) (op : Nat) (who : Requester) (va w : Option Nat) (pa len : Nat) :
    RegsOff TrafficReg s (watchMem s op who va w pa len) := by
  unfold watchMem
  dsimp only
  split
  · exact RegsOff.refl _ s
  · split
    · exact RegsOff.refl _ s
    · rename_i n0 rest hns
      have hmatch : ∀ n ∈ n0 :: rest, n < 16 := fun n hn => List.mem_range.mp (List.mem_of_mem_filter (hns ▸ hn))
      have hhits := RegsOff.foldl (P := TrafficReg) (f := fun s n => addSat s R.DBG_WP_HITS_HITS n 0 1)
        (fun v n hn => .of_wr v _ (trafficReg_hits (hmatch n hn)).1) (RegsOff.refl _ s)
      have hrecord := fun words => hhits.trans (hitRecord_traffic _ n0 words)
      have hevent : ∀ {q : Prop} [Decidable q] (v u : State) (code a b act : Nat), RegsOff TrafficReg s v → u.regs = v.regs →
          RegsOff TrafficReg s (if q then postEvent u none code a b act else v) := fun v u code a b act hv hu => by
        split
        · exact (hv.trans (.of_regs hu)).trans (postEvent_traffic u none code a b act)
        · exact hv
      split
      · refine RegsOff.trans ?_ (stopRings_traffic _ _)
        refine RegsOff.trans ?_ (.of_agree (failCmd_keeps _ _ _ _) (by decide))
        exact hevent _ _ _ _ _ _ (hrecord _) rfl
      · exact hevent _ _ _ _ _ _ (hrecord _) rfl

/-! ### A slice read, a walk and a data mover's read -/

/-- What a read of module memory leaves as it was: memory's bytes, and the registers of the cores' windows but their counters. -/
structure TrafficFrame (s t : State) : Prop where
  regs : RegsOff TrafficReg s t
  bytes : t.mem.bytes = s.mem.bytes

section
variable {s t u : State}

theorem TrafficFrame.refl (s : State) : TrafficFrame s s := ⟨RegsOff.refl _ s, rfl⟩

theorem TrafficFrame.trans (h : TrafficFrame s t) (h' : TrafficFrame t u) : TrafficFrame s u :=
  ⟨h.regs.trans h'.regs, h'.bytes.trans h.bytes⟩

theorem TrafficFrame.foldl {α : Type} {f : State → α → State} (hf : ∀ v x, TrafficFrame v (f v x)) (hs : TrafficFrame s t) (l : List α) :
    TrafficFrame s (l.foldl f t) := List.foldlRecOn l f hs (fun v hv x _ => hv.trans (hf v x))

end

theorem sliceRd_traffic (s : State) (who : Requester) (va w : Option Nat) (pa n : Nat) : TrafficFrame s (sliceRd s who va w pa n) := by
  have htouch := touch_frame (watchMem (countMem s who pa n false) 1 who va w pa n) pa n false
  refine ⟨((countMem_traffic s who pa n false).trans (watchMem_traffic _ 1 who va w pa n)).trans (htouch.regs.of_low fun _ => recordReg_low), ?_⟩
  refine htouch.bytes.trans (congrArg Memory.bytes ?_)
  exact (watchMem_keeps _ 1 who va w pa n .mem (by decide)).trans (countMem_keeps s who pa n false .mem (by decide))

theorem keepXlat_traffic (s : State) (x : Xlat) : TrafficFrame s (keepXlat s x) := ⟨.of_regs rfl, rfl⟩

theorem keepOwn_traffic (s : State) (who : Option Nat) (x : Xlat) : TrafficFrame s (keepOwn s who x) := by
  cases who with
  | some c => exact keepXlat_traffic s { x with core := some c }
  | none => exact TrafficFrame.refl s

theorem learn_traffic (s : State) (who : Option Nat) (p va : Nat) (write hostOk : Bool) (w : Option Nat) :
    TrafficFrame s (learn s who p va write hostOk w) := by
  have hwalk := TrafficFrame.foldl (fun v a => sliceRd_traffic v .dtu none w a 8) (TrafficFrame.refl s) (walkReads s p va)
  unfold learn
  split
  · split
    · exact TrafficFrame.refl s
    · exact keepOwn_traffic s who _
  · dsimp only
    split
    · exact (hwalk.trans (keepXlat_traffic _ _)).trans (keepOwn_traffic _ who _)
    · exact hwalk

theorem learnRange_traffic (s : State) (who : Option Nat) (p va n : Nat) (write hostOk : Bool) (w : Option Nat) :
    TrafficFrame s (learnRange s who p va n write hostOk w) :=
  TrafficFrame.foldl (fun v a => learn_traffic v who p a write hostOk w) (TrafficFrame.refl s) _

/-! ### The bytes of a range (R228) -/

/-- The pieces of a range that translates are as long as the range, where the fuel reaches over its 64 KiB blocks. -/
theorem translateRange_length {s : State} {who : Option Nat} {p : Nat} {write hostOk : Bool} {fuel va n : Nat} {ps : List (Nat × Nat)}
    (h : translateRange s who p write hostOk fuel va n = .ok ps) (hfuel : n = 0 ∨ n + va % 65536 ≤ fuel * 65536) :
    (ps.map Prod.snd).sum = n := by
  induction fuel generalizing va n ps with
  | zero => cases h; simp; omega
  | succ fuel ih =>
    unfold translateRange at h
    split at h
    · cases h; simp_all
    · dsimp only at h
      split at h
      · cases h
      · split at h
        · cases h
        · rename_i rest hrest
          cases h
          rw [List.map_cons, List.sum_cons, ih hrest ?_]
          · omega
          · by_cases hlast : n ≤ 65536 - va % 65536
            · left; omega
            · right; rw [Nat.min_eq_right (by omega)]; omega

theorem pieces_length {s : State} {who : Option Nat} {p : Nat} {write hostOk : Bool} {va n : Nat} {ps : List (Nat × Nat)}
    (h : pieces s who p write hostOk va n = .ok ps) : (ps.map Prod.snd).sum = n :=
  translateRange_length h (Or.inr (by omega))

theorem readPieces_length (s : State) (ps : List (Nat × Nat)) : (readPieces s ps).1.length = (ps.map Prod.snd).sum := by
  simp only [readPieces, cohRead, List.length_flatMap, memRead_length]

section
variable {s u : State} {c w p va n : Nat} {bytes : List Byte} {ps : List (Nat × Nat)}

theorem moverRead_traffic (h : moverRead s c w p va n = .ok (u, bytes, ps)) : TrafficFrame s u := by
  unfold moverRead at h
  dsimp only at h
  split at h
  · cases h
  · cases h
    exact TrafficFrame.foldl (fun v (q : Nat × Nat) => sliceRd_traffic v _ _ _ q.1 q.2) (learnRange_traffic s _ p va n false false _) _

theorem moverRead_length (h : moverRead s c w p va n = .ok (u, bytes, ps)) : bytes.length = n := by
  unfold moverRead at h
  dsimp only at h
  split at h
  · cases h
  · cases h
    exact (readPieces_length _ _).trans (pieces_length ‹_›)

theorem moverRead_none (s : State) (c w p va : Nat) : moverRead s c w p va 0 = .ok (s, [], []) := rfl

end

end Sys2Proof.Proofs
end

section
/-!
PROOFS. Gathers: their start, and a row that lands (R102, R103, R138).
-/
namespace Sys2Proof.Proofs
open Sys2Proof.Machine Sys2Proof.Safety Sys2Proof.Laws

/-! ### The start (R102) -/

/-- The gather that core c's descriptor starts at a plain origin. -/
def gatherBegun (s : State) (c : Nat) (d : List W64) : Gather :=
  ⟨d, unpackElems 32 (gCount d) (spdRead s.spd c (gIndex d) (4 * gCount d)), List.range (gCount d), none, none, (coreAt s c).ring.getD 0,
    s.ord.nextId⟩

/-- The state with a gather of n indices counted and one more operation numbered. -/
def gatherCounted (s u : State) (c n : Nat) : State :=
  let v := countUnits u c 64 64 (4 * n)
  { v with ord := { v.ord with nextId := s.ord.nextId + 1 } }

section
variable {c : CoreIx} {d : List W64} {s u : State}

theorem gather_runs (hissue : canIssue s c = true) (hbad : gatherBad d = false) (hslot : gSlot d = false)
    (hreg : register (count s c 56 1) c (gatherFootprint (30000 + s.ord.nextId) d) = .ok u) (hq : SpdQuiet c u) (hspd : u.spd = s.spd)
    (hpoison : spdPoison s.spd c (gIndex d) (4 * gCount d) = false)
    (hout : (unpackElems 32 (gCount d) (spdRead s.spd c (gIndex d) (4 * gCount d))).any (gatherOut d) = false) :
    Runs (.gather c d) s (onCore (gatherCounted s u c (gCount d)) c (fun x => { x with gathers := x.gathers ++ [gatherBegun s c d] })) := by
  have hord : (count s c 56 1).ord = s.ord := count_keeps s c 56 1 .ord (by decide)
  have hcounted : (countUnits u c 64 64 (4 * gCount d)).spd = s.spd := (countUnits_keeps u c 64 64 _ .spd (by decide)).trans hspd
  rw [Runs, exec_gather, execGather]
  refine (if_neg (by rw [hissue]; decide)).trans ?_
  refine (if_neg (by rw [hbad, hslot]; exact Bool.false_ne_true)).trans ?_
  dsimp only
  rw [hord, hreg]
  dsimp only
  rw [spdAccess_quiet hq, hspd]
  refine (if_neg (by rw [hcounted, hpoison]; exact Bool.false_ne_true)).trans ((if_neg (by rw [hout]; exact Bool.false_ne_true)).trans ?_)
  simp only [hslot, Bool.false_eq_true, false_and, if_false]
  rfl

theorem gather_starts (hissue : canIssue s c = true) (hbad : gatherBad d = false) (hslot : gSlot d = false)
    (hreg : register (count s c 56 1) c (gatherFootprint (30000 + s.ord.nextId) d) = .ok u) (hq : SpdQuiet c s)
    (hpoison : spdPoison s.spd c (gIndex d) (4 * gCount d) = false)
    (hout : (unpackElems 32 (gCount d) (spdRead s.spd c (gIndex d) (4 * gCount d))).any (gatherOut d) = false) :
    ∃ t g, Runs (.gather c d) s t ∧ (coreAt t c).gathers = (coreAt s c).gathers ++ [g] ∧ g.desc = d ∧ g.id = s.ord.nextId ∧
      g.ix = unpackElems 32 (gCount d) (spdRead s.spd c (gIndex d) (4 * gCount d)) ∧ g.left = List.range (gCount d) ∧
      t.ord.nextId = s.ord.nextId + 1 ∧ CoresOutside [c.val] s t ∧ AgreeOutside [.regs, .cores, .ord] s t := by
  have hfree : Accounted [.regs, .cores] c s u := (register_accounts hreg).step rfl ((count_accounts s c (by decide) 1).mono rfl)
  have hcounted := (countUnits_accounts u c (n := 64) (by decide) 64 (4 * gCount d)).step rfl hfree
  have hnumbered : Accounted [.regs, .cores, .ord] c s (gatherCounted s u c (gCount d)) :=
    Accounted.step (.of_agree (Agree.with_ord _ _) (by decide) (by decide)) rfl (hcounted.mono rfl)
  refine ⟨_, gatherBegun s c d, gather_runs hissue hbad hslot hreg (hfree.quiet (by decide) hq) (hfree.agree .spd (by decide)) hpoison hout,
    ?_, rfl, rfl, rfl, rfl, rfl, fun k hk => ?_, Agree.step (onCore_keeps _ c _) rfl hnumbered.agree⟩
  · rw [coreAt_onCore, if_pos rfl, field_of_bare (g := Core.gathers) (fun _ => rfl) hnumbered.bare]
  · rw [coresOutside_onCore _ c _ k hk, hnumbered.others k hk]

end

/-! ### A row that lands (R102, R103, R138) -/

/-- A row stored at its places from a plain origin (R138). -/
def rowStored (s : State) (c : Nat) (d : List W64) (row : Nat) (bytes : List Byte) (poison : Nat → Bool) : State :=
  storeMoved s c 2 bytes poison (fun b => gatherByte (gDest d) (gRowBytes d) row b)
    (fun b => 512 - gDest d % 512 - b % (512 - gDest d % 512))

/-- A gather into no landing slot waits for the row no longer; with its last row it is complete. -/
def rowFinished (s : State) (c row : Nat) (g : Gather) : State :=
  let left := g.left.filter (fun r => decide (r ≠ row))
  if left.isEmpty then
    onCore (release s c (30000 + g.id)) c (fun x => { x with gathers := x.gathers.filter (fun y => decide (y.id ≠ g.id)) })
  else onCore s c (fun x => { x with gathers := x.gathers.map (fun y => if y.id = g.id then { y with left := left } else y) })

theorem storeMoved_nil (s : State) (c kind : Nat) (poison : Nat → Bool) (g seg : Nat → Nat) : storeMoved s c kind [] poison g seg = s := rfl

theorem rowFinished_keeps (s : State) (c row : Nat) (g : Gather) : AgreeOutside [.regs, .cores] s (rowFinished s c row g) := by
  unfold rowFinished
  dsimp only
  split
  · exact Agree.step (onCore_keeps _ c _) rfl (Agree.mono (release_accounts s c _).agree rfl)
  · exact Agree.mono (onCore_keeps s c _) rfl

theorem rowFinished_left (s : State) (c row : Nat) (g : Gather) :
    ∀ y ∈ (coreAt (rowFinished s c row g) c).gathers, y.id = g.id → row ∉ y.left := by
  intro y hy hid
  unfold rowFinished at hy
  dsimp only at hy
  split at hy
  · rw [coreAt_onCore, if_pos rfl] at hy
    exact absurd hid (of_decide_eq_true (List.mem_filter.mp hy).2)
  · rw [coreAt_onCore, if_pos rfl] at hy
    obtain ⟨z, -, rfl⟩ := List.mem_map.mp hy
    by_cases hz : z.id = g.id
    · rw [if_pos hz]
      simp
    · rw [if_neg hz] at hid
      exact absurd hid hz

section
variable {c : CoreIx} {row a : Nat} {g : Gather} {s u : State} {bytes : List Byte} {ps : List (Nat × Nat)}

theorem gatherRowLand_skips
    (hfind : (coreAt s c).gathers.find? (fun g => g.waits.isNone && decide (row ∈ g.left)) = some g) (hbuf : g.buf = none)
    (hscale : gScaleBytes g.desc = 0) (hskip : gatherRow g.desc (g.ix.getD row 0xFFFFFFFF) = none) :
    Runs (.gatherRowLand c row) s
      (rowFinished (rowStored s c g.desc row (List.replicate (gRowBytes g.desc) 0) (fun _ => false)) c row g) := by
  have hwaits : gatherWaits s c g row = false := by rw [gatherWaits, hskip]
  obtain ⟨d, ix, left, buf, waits, ring, id⟩ := g
  dsimp only at hbuf hscale hskip
  subst hbuf
  rw [Runs, exec_gatherRowLand, execGatherRowLand, hfind]
  dsimp -zeta only
  refine (if_neg (by rw [hwaits]; exact Bool.false_ne_true)).trans ?_
  rw [hskip, hscale]
  simp only [List.replicate_zero, storeMoved_nil]
  rfl

theorem gatherRowLand_lands
    (hfind : (coreAt s c).gathers.find? (fun g => g.waits.isNone && decide (row ∈ g.left)) = some g) (hbuf : g.buf = none)
    (hscale : gScaleBytes g.desc = 0) (hrow : gatherRow g.desc (g.ix.getD row 0xFFFFFFFF) = some a) (hwaits : gatherWaits s c g row = false)
    (hread : moverRead s c g.ring (ringPart s g.ring) (gTable g.desc + a * gRowBytes g.desc) (gRowBytes g.desc) = .ok (u, bytes, ps))
    (hclean : ps.findSome? (fun q => cohPoisonAt s q.1 q.2) = none)
    (hkept : (coreAt (rowStored u c g.desc row bytes (fun i => piecePoison s ps i 8)) c).gathers.any (fun y => decide (y.id = g.id)) = true) :
    Runs (.gatherRowLand c row) s (rowFinished (rowStored u c g.desc row bytes (fun i => piecePoison s ps i 8)) c row g) := by
  obtain ⟨d, ix, left, buf, waits, ring, id⟩ := g
  dsimp only at hbuf hscale hrow hread hkept
  subst hbuf
  rw [Runs, exec_gatherRowLand, execGatherRowLand, hfind]
  dsimp -zeta only
  refine (if_neg (by rw [hwaits]; exact Bool.false_ne_true)).trans ?_
  rw [hrow]
  dsimp -zeta only
  rw [hread, hscale, moverRead_none]
  dsimp -zeta only
  rw [List.append_nil, hclean]
  exact if_pos hkept

/-- A row lands in full at its places (R138). -/
theorem rowStored_at {d : List W64} (hbad : gatherBad d = false) (hslot : gSlot d = false) (hcount : row < gCount d) (hq : SpdQuiet c u)
    (hlen : bytes.length = gRowBytes d) (poison : Nat → Bool) :
    RowAt c (fun b => gatherByte (gDest d) (gRowBytes d) row b) bytes u bytes.length (rowStored u c d row bytes poison) :=
  storeMoved_strips hq (by rw [hlen]; exact gatherRow_strips hbad hslot hcount) 2 poison

end

/-! ### The obligation -/

/-- Settles O12, from the start of a gather and from the rows that land: skipped ones and those of the table. -/
theorem gatherRuns : Obligations.GatherRuns := by
  unfold Obligations.GatherRuns
  refine ⟨fun _ _ _ _ hissue hbad hslot hreg hq hpoison hout => gather_starts hissue hbad hslot hreg hq hpoison hout, ?_, ?_⟩
  · intro c row g s hfind hbad hslot hbuf hscale hcount hq _ hskip
    have hrow := rowStored_at hbad hslot hcount hq (List.length_replicate (n := gRowBytes g.desc) (a := (0 : Byte))) (fun _ => false)
    have hend := rowFinished_keeps (rowStored s c g.desc row (List.replicate (gRowBytes g.desc) 0) (fun _ => false)) c row g
    refine ⟨_, gatherRowLand_skips hfind hbuf hscale hskip, rowFinished_left _ c row g,
      (hend .mem (by decide)).trans (hrow.frame.accounts.agree .mem (by decide)), fun b hb => ?_⟩
    rw [hend .spd (by decide), hrow.holds b (by simpa using hb) (by simpa using hb)]
    simp
  · intro c row a g s u bytes ps hfind hbad hslot hbuf hscale hcount hq _ hrow hwaits hread hclean hkept
    have hlen := moverRead_length hread
    have htraffic := moverRead_traffic hread
    have hquiet := htraffic.regs.quiet (moverRead_keeps _ _ _ _ _ _ _ _ _ hread .spd (by decide)) hq
    have hlands := rowStored_at hbad hslot hcount hquiet hlen (fun i => piecePoison s ps i 8)
    have hend := rowFinished_keeps (rowStored u c g.desc row bytes (fun i => piecePoison s ps i 8)) c row g
    refine ⟨_, gatherRowLand_lands hfind hbuf hscale hrow hwaits hread ?_ ?_, rowFinished_left _ c row g, fun k _ => ?_, fun b hb => ?_⟩
    · simpa [List.findSome?_eq_none_iff, Option.isNone_iff_eq_none] using hclean
    · rw [field_of_bare (g := Core.gathers) (fun _ => rfl) hlands.frame.accounts.bare, hkept]
      exact List.any_eq_true.mpr ⟨g, List.mem_of_find?_eq_some hfind, by simp⟩
    · have hmem := (hend .mem (by decide)).trans (hlands.frame.accounts.agree .mem (by decide))
      simp only [memByte, hmem, htraffic.bytes]
    · rw [hend .spd (by decide), hlands.holds b (by omega) (by omega)]

end Sys2Proof.Proofs
end

section
/-!
PROOFS. The form of memory, and the operations that leave memory as it is (R146, R211, R222).
-/
namespace Sys2Proof.Proofs
open Sys2Proof.Machine Sys2Proof.Safety Sys2Proof.Laws

/-! ### The form of memory -/

/-- The state's memory is in its canonical form. -/
def Canonical (s : State) : Prop := s.mem.wf = true

/-- Every next state that an outcome answers has memory in its canonical form. -/
def AnswersCanonical : Res → Prop
  | .next t => Canonical t
  | .fault _ => True
  | .refused _ => True

theorem canonical_of_mem {s t : State} (h : t.mem = s.mem) : Canonical t ↔ Canonical s := by unfold Canonical; rw [h]

@[simp] theorem mem_wf_iff {s : State} : s.mem.wf = true ↔ Canonical s := ⟨id, id⟩

/-- A state written out field by field: its memory is all that counts. -/
@[simp ↓] theorem canonical_mk {pending mem spd regs shadow free utime out cores harps ord ms sch ras obs hst lnk kv time tru flash
    boot mgm pwr phy} :
    Canonical ⟨pending, mem, spd, regs, shadow, free, utime, out, cores, harps, ord, ms, sch, ras, obs, hst, lnk, kv, time, tru, flash,
      boot, mgm, pwr, phy⟩ ↔ mem.wf = true := ⟨id, id⟩

@[simp] theorem canonical_ite {c : Prop} [Decidable c] {s t : State} :
    Canonical (if c then s else t) ↔ if c then Canonical s else Canonical t := by
  split <;> rfl

@[simp] theorem canonical_foldl {α : Type} {f : State → α → State} (hf : ∀ u x, Canonical (f u x) ↔ Canonical u) (l : List α) (s : State) :
    Canonical (l.foldl f s) ↔ Canonical s := by
  induction l generalizing s with
  | nil => rfl
  | cons x l ih => rw [List.foldl_cons, ih, hf]

/-- A fold each step of which keeps the form. -/
theorem canonical_foldl_of {α : Type} {f : State → α → State} (hf : ∀ u x, Canonical u → Canonical (f u x)) (l : List α) {s : State}
    (hs : Canonical s) : Canonical (l.foldl f s) := List.foldlRecOn l f hs (fun u hu x _ => hf u x hu)

/-- A fold whose accumulator holds a state first. -/
theorem canonical_foldl_fst {α β : Type} {f : State × β → α → State × β} (hf : ∀ a x, Canonical a.1 → Canonical (f a x).1) (l : List α)
    {a : State × β} (ha : Canonical a.1) : Canonical (l.foldl f a).1 :=
  List.foldlRecOn (motive := fun a => Canonical a.1) l f ha (fun a ha x _ => hf a x ha)

@[simp] theorem answersCanonical_next {t : State} : AnswersCanonical (.next t) ↔ Canonical t := Iff.rfl

@[simp] theorem whenDo_canonical {g : Bool} {s t : State} (hs : Canonical s) (ht : Canonical t) : AnswersCanonical (whenDo g s t) := by
  unfold whenDo; split <;> assumption

/-! ### Operations that leave memory as it is -/

@[simp] theorem onCore_canonical (s : State) (c : Nat) (f : Core → Core) : Canonical (onCore s c f) ↔ Canonical s :=
  canonical_of_mem (onCore_keeps _ _ _ .mem (by decide))
@[simp] theorem clearCounters_canonical (s : State) (c : Nat) : Canonical (clearCounters s c) ↔ Canonical s :=
  canonical_of_mem (clearCounters_keeps _ _ .mem (by decide))
@[simp] theorem putBuffer_canonical (s : State) (a : Nat) (bytes : List Byte) : Canonical (putBuffer s a bytes) ↔ Canonical s :=
  canonical_of_mem (putBuffer_keeps _ _ _ .mem (by decide))
@[simp] theorem emit_canonical (s : State) (o : Out) : Canonical (emit s o) ↔ Canonical s :=
  canonical_of_mem (emit_keeps _ _ .mem (by decide))
@[simp] theorem writeBack_canonical (s : State) (line : Nat) : Canonical (writeBack s line) ↔ Canonical s :=
  canonical_of_mem (writeBack_keeps _ _ .mem (by decide))
@[simp] theorem setReg_canonical (s : State) (off : Nat) (v : W64) : Canonical (setReg s off v) ↔ Canonical s :=
  canonical_of_mem (setReg_keeps _ _ _ .mem (by decide))
@[simp] theorem wr_canonical (s : State) (f : Fld) (i j v : Nat) : Canonical (wr s f i j v) ↔ Canonical s :=
  canonical_of_mem (wr_keeps _ _ _ _ _ .mem (by decide))
@[simp] theorem addSat_canonical (s : State) (f : Fld) (i j n : Nat) : Canonical (addSat s f i j n) ↔ Canonical s :=
  canonical_of_mem (addSat_keeps _ _ _ _ _ .mem (by decide))
@[simp] theorem wrB_canonical (s : State) (f : Fld) (i j : Nat) (b : Bool) : Canonical (wrB s f i j b) ↔ Canonical s :=
  canonical_of_mem (wrB_keeps _ _ _ _ _ .mem (by decide))
@[simp] theorem setCq_canonical (s : State) (q : Nat) (v : Cq) : Canonical (setCq s q v) ↔ Canonical s :=
  canonical_of_mem (setCq_keeps _ _ _ .mem (by decide))
@[simp] theorem signalIrq_canonical (s : State) (q : Nat) (qualifies : Bool) : Canonical (signalIrq s q qualifies) ↔ Canonical s :=
  canonical_of_mem (signalIrq_keeps _ _ _ .mem (by decide))
@[simp] theorem postEvent_canonical (s : State) (part : Option Nat) (code w1 w2 w3 : Nat) :
    Canonical (postEvent s part code w1 w2 w3) ↔ Canonical s :=
  canonical_of_mem (postEvent_keeps _ _ _ _ _ _ .mem (by decide))
@[simp] theorem logErr_canonical (s : State) (e : ErrInfo) : Canonical (logErr s e) ↔ Canonical s :=
  canonical_of_mem (logErr_keeps _ _ .mem (by decide))
@[simp] theorem failPort_canonical (s : State) (n : Nat) : Canonical (failPort s n) ↔ Canonical s :=
  canonical_of_mem (failPort_keeps _ _ .mem (by decide))
@[simp] theorem onRing_canonical (s : State) (w : Nat) (f : Ring → Ring) : Canonical (onRing s w f) ↔ Canonical s :=
  canonical_of_mem (onRing_keeps _ _ _ .mem (by decide))
@[simp] theorem returnTaken_canonical (s : State) (w : Nat) : Canonical (returnTaken s w) ↔ Canonical s :=
  canonical_of_mem (returnTaken_keeps _ _ .mem (by decide))
@[simp] theorem stopRing_canonical (s : State) (w : Nat) : Canonical (stopRing s w) ↔ Canonical s :=
  canonical_of_mem (stopRing_keeps _ _ .mem (by decide))
@[simp] theorem setHarp_canonical (s : State) (c h : Nat) (v : Harp) : Canonical (setHarp s c h v) ↔ Canonical s :=
  canonical_of_mem (setHarp_keeps _ _ _ _ .mem (by decide))
@[simp] theorem onHarp_canonical (s : State) (c h : Nat) (f : Harp → Harp) : Canonical (onHarp s c h f) ↔ Canonical s :=
  canonical_of_mem (onHarp_keeps _ _ _ _ .mem (by decide))
@[simp] theorem abandonCore_canonical (s : State) (c : Nat) : Canonical (abandonCore s c) ↔ Canonical s :=
  canonical_of_mem (abandonCore_keeps _ _ .mem (by decide))
@[simp] theorem failCmd_canonical (s : State) (w code detail : Nat) : Canonical (failCmd s w code detail) ↔ Canonical s :=
  canonical_of_mem (failCmd_keeps _ _ _ _ .mem (by decide))
@[simp] theorem watchMem_canonical (s : State) (op : Nat) (who : Requester) (va w : Option Nat) (pa len : Nat) :
    Canonical (watchMem s op who va w pa len) ↔ Canonical s :=
  canonical_of_mem (watchMem_keeps _ _ _ _ _ _ _ .mem (by decide))
@[simp] theorem countUnits_canonical (s : State) (c n u k : Nat) : Canonical (countUnits s c n u k) ↔ Canonical s :=
  canonical_of_mem (countUnits_keeps _ _ _ _ _ .mem (by decide))
@[simp] theorem countMem_canonical (s : State) (who : Requester) (pa n : Nat) (isWrite : Bool) :
    Canonical (countMem s who pa n isWrite) ↔ Canonical s :=
  canonical_of_mem (countMem_keeps _ _ _ _ _ .mem (by decide))
@[simp] theorem poisonFound_canonical (s : State) (source unit d0 pa : Nat) : Canonical (poisonFound s source unit d0 pa) ↔ Canonical s :=
  canonical_of_mem (poisonFound_keeps _ _ _ _ _ .mem (by decide))
@[simp] theorem hostPoison_canonical (s : State) (pa n : Nat) : Canonical (hostPoison s pa n) ↔ Canonical s :=
  canonical_of_mem (hostPoison_keeps _ _ _ .mem (by decide))
@[simp] theorem takeFree_canonical (s : State) : Canonical (takeFree s).2 ↔ Canonical s :=
  canonical_of_mem (takeFree_keeps _ .mem (by decide))
@[simp] theorem setGuardQueue_canonical (s : State) (p : Nat) : Canonical (setGuardQueue s p q) ↔ Canonical s :=
  canonical_of_mem (setGuardQueue_keeps _ _ _ .mem (by decide))
@[simp] theorem setShadow_canonical (s : State) (off : Nat) (v : W64) : Canonical (setShadow s off v) ↔ Canonical s :=
  canonical_of_mem (setShadow_keeps _ _ _ .mem (by decide))
@[simp] theorem createPart_canonical (s : State) (p : Nat) : Canonical (createPart s p) ↔ Canonical s :=
  canonical_of_mem (createPart_keeps _ _ .mem (by decide))
@[simp] theorem consumePoison_canonical (s : State) (w : Nat) (pa va : Option Nat) : Canonical (consumePoison s w pa va) ↔ Canonical s :=
  canonical_of_mem (consumePoison_keeps _ _ _ _ .mem (by decide))
@[simp] theorem markFrom_canonical (s : State) (n : Nat) (g : Flight → Flight) : Canonical (markFrom s n g) ↔ Canonical s :=
  canonical_of_mem (markFrom_keeps _ _ _ .mem (by decide))
@[simp] theorem markCopy_canonical (s : State) (n op : Nat) : Canonical (markCopy s n op) ↔ Canonical s :=
  canonical_of_mem (markCopy_keeps _ _ _ .mem (by decide))
@[simp] theorem setLink_canonical (s : State) (l : Nat) (v : LinkRt) : Canonical (setLink s l v) ↔ Canonical s :=
  canonical_of_mem (setLink_keeps _ _ _ .mem (by decide))
@[simp] theorem onLink_canonical (s : State) (l : Nat) (f : LinkRt → LinkRt) : Canonical (onLink s l f) ↔ Canonical s :=
  canonical_of_mem (onLink_keeps _ _ _ .mem (by decide))
@[simp] theorem enqueue_canonical (s : State) (l : Nat) (t : TxMsg) : Canonical (enqueue s l t) ↔ Canonical s :=
  canonical_of_mem (enqueue_keeps _ _ _ .mem (by decide))
@[simp] theorem dropGuards_canonical (s : State) (m : Nat) (lost : Msg) (code : Nat) :
    Canonical (dropGuards s m lost code) ↔ Canonical s :=
  canonical_of_mem (dropGuards_keeps _ _ _ _ .mem (by decide))
@[simp] theorem askBreak_canonical (s : State) (m : Nat) : Canonical (askBreak s m) ↔ Canonical s :=
  canonical_of_mem (askBreak_keeps _ _ .mem (by decide))
@[simp] theorem sendPeer_canonical (s : State) (m : Nat) (t : TxMsg) : Canonical (sendPeer s m t) ↔ Canonical s :=
  canonical_of_mem (sendPeer_keeps _ _ _ .mem (by decide))
@[simp] theorem sendRequest_canonical (s : State) (c m kind window off len op : Nat) (data : List Byte) (poison final : Bool)
    (va : Option Nat) : Canonical (sendRequest s c m kind window off len op data poison final va) ↔ Canonical s :=
  canonical_of_mem (sendRequest_keeps _ _ _ _ _ _ _ _ _ _ _ _ .mem (by decide))
@[simp] theorem noteCorrected_canonical (s : State) (source unit n : Nat) : Canonical (noteCorrected s source unit n) ↔ Canonical s :=
  canonical_of_mem (noteCorrected_keeps _ _ _ _ .mem (by decide))
@[simp] theorem spdCheck_canonical (s : State) (c : Nat) (ws : List Nat) : Canonical (spdCheck s c ws) ↔ Canonical s :=
  canonical_of_mem (spdCheck_keeps _ _ _ .mem (by decide))
@[simp] theorem traceRec_canonical (s : State) (c kind harp : Nat) (w2 w3 : W64) :
    Canonical (traceRec s c kind harp w2 w3) ↔ Canonical s :=
  canonical_of_mem (traceRec_keeps _ _ _ _ _ _ .mem (by decide))
@[simp] theorem failCore_canonical (s : State) (c code detail : Nat) : Canonical (failCore s c code detail) ↔ Canonical s :=
  canonical_of_mem (failCore_keeps _ _ _ _ .mem (by decide))
@[simp] theorem spdAccess_canonical (s : State) (c a n kind : Nat) (isWrite : Bool) (harp tag : Nat) :
    Canonical (spdAccess s c a n kind isWrite harp tag) ↔ Canonical s :=
  canonical_of_mem (spdAccess_keeps _ _ _ _ _ _ _ _ .mem (by decide))
@[simp] theorem putSpd_canonical (s : State) (c a : Nat) (data : List Byte) (bad : Bool) :
    Canonical (putSpd s c a data bad) ↔ Canonical s :=
  canonical_of_mem (putSpd_keeps _ _ _ _ _ .mem (by decide))
@[simp] theorem spdStore_canonical (s : State) (c a kind harp tag : Nat) (data : List Byte) (bad : Bool) :
    Canonical (spdStore s c a kind harp tag data bad) ↔ Canonical s :=
  canonical_of_mem (spdStore_keeps _ _ _ _ _ _ _ _ .mem (by decide))
@[simp] theorem storeMoved_canonical (s : State) (c kind : Nat) (bytes : List Byte) (poison : Nat → Bool) (g seg : Nat → Nat) :
    Canonical (storeMoved s c kind bytes poison g seg) ↔ Canonical s :=
  canonical_of_mem (storeMoved_keeps _ _ _ _ _ _ _ .mem (by decide))
@[simp] theorem issue_canonical (s : State) (f : Flight) : Canonical (issue s f) ↔ Canonical s :=
  canonical_of_mem (issue_keeps _ _ .mem (by decide))
@[simp] theorem keepXlat_canonical (s : State) (x : Xlat) : Canonical (keepXlat s x) ↔ Canonical s :=
  canonical_of_mem (keepXlat_keeps _ _ .mem (by decide))
@[simp] theorem keepOwn_canonical (s : State) (who : Option Nat) (x : Xlat) : Canonical (keepOwn s who x) ↔ Canonical s :=
  canonical_of_mem (keepOwn_keeps _ _ _ .mem (by decide))
@[simp] theorem dtuFault_canonical (s : State) (p va : Nat) (write : Bool) (core : Option Nat) (e : XFault) :
    Canonical (dtuFault s p va write core e) ↔ Canonical s :=
  canonical_of_mem (dtuFault_keeps _ _ _ _ _ _ .mem (by decide))
@[simp] theorem xlateFail_canonical (s : State) (w p va : Nat) (write : Bool) (core : Option Nat) (e : XFault) :
    Canonical (xlateFail s w p va write core e) ↔ Canonical s :=
  canonical_of_mem (xlateFail_keeps _ _ _ _ _ _ _ .mem (by decide))
@[simp] theorem hostReadFailed_canonical (s : State) (k ring why : Nat) : Canonical (hostReadFailed s k ring why) ↔ Canonical s :=
  canonical_of_mem (hostReadFailed_keeps _ _ _ _ .mem (by decide))
@[simp] theorem failRead_canonical (s : State) (r : HostRead) (why : Nat) : Canonical (failRead s r why) ↔ Canonical s :=
  canonical_of_mem (failRead_keeps _ _ _ .mem (by decide))
@[simp] theorem onCmd_canonical (s : State) (w : Nat) (f : Cmd → Cmd) : Canonical (onCmd s w f) ↔ Canonical s :=
  canonical_of_mem (onCmd_keeps _ _ _ .mem (by decide))
@[simp] theorem putCmd_canonical (s : State) (w : Nat) (t : Taken) (phase : Phase) : Canonical (putCmd s w t phase) ↔ Canonical s :=
  canonical_of_mem (putCmd_keeps _ _ _ _ .mem (by decide))
@[simp] theorem startBad_canonical (s : State) (w : Nat) : Canonical (startBad s w) ↔ Canonical s :=
  canonical_of_mem (startBad_keeps _ _ .mem (by decide))
@[simp] theorem notIdle_canonical (s : State) : Canonical (notIdle s) ↔ Canonical s := canonical_of_mem (notIdle_keeps _ .mem (by decide))
@[simp] theorem takeSlot_canonical (s : State) (w : Nat) (words : List W64) (poison : Option Nat) :
    Canonical (takeSlot s w words poison) ↔ Canonical s :=
  canonical_of_mem (takeSlot_keeps _ _ _ _ .mem (by decide))
@[simp] theorem hostSlot_canonical (s : State) (w : Nat) (words : List W64) : Canonical (hostSlot s w words) ↔ Canonical s :=
  canonical_of_mem (hostSlot_keeps _ _ _ .mem (by decide))
@[simp] theorem setTemps_canonical (s : State) (dieC stackC : Nat) : Canonical (setTemps s dieC stackC) ↔ Canonical s :=
  canonical_of_mem (setTemps_keeps _ _ _ .mem (by decide))
@[simp] theorem landedOrder_canonical (s : State) (key o : Nat) : Canonical (landedOrder s key o) ↔ Canonical s :=
  canonical_of_mem (landedOrder_keeps _ _ _ .mem (by decide))
@[simp] theorem answer_canonical (s : State) (l m : Nat) (msg : Msg) : Canonical (answer s l m msg) ↔ Canonical s :=
  canonical_of_mem (answer_keeps _ _ _ _ .mem (by decide))
@[simp] theorem sayRefused_canonical (s : State) (l m mtag order status : Nat) :
    Canonical (sayRefused s l m mtag order status) ↔ Canonical s :=
  canonical_of_mem (sayRefused_keeps _ _ _ _ _ _ .mem (by decide))
@[simp] theorem dropFlight_canonical (s : State) (id : Nat) : Canonical (dropFlight s id) ↔ Canonical s :=
  canonical_of_mem (dropFlight_keeps _ _ .mem (by decide))
@[simp] theorem discardFinal_canonical (s : State) (f : Flight) (status : Nat) : Canonical (discardFinal s f status) ↔ Canonical s :=
  canonical_of_mem (discardFinal_keeps _ _ _ .mem (by decide))
@[simp] theorem refuseWrite_canonical (s : State) (l m : Nat) (msg : Msg) (status : Nat) :
    Canonical (refuseWrite s l m msg status) ↔ Canonical s :=
  canonical_of_mem (refuseWrite_keeps _ _ _ _ _ .mem (by decide))
@[simp] theorem setImport_canonical (s : State) (p : Nat) (i : Option Import) : Canonical (setImport s p i) ↔ Canonical s :=
  canonical_of_mem (setImport_keeps _ _ _ .mem (by decide))
@[simp] theorem freeBytes_canonical (s : State) (n : Nat) : Canonical (freeBytes s n).2 ↔ Canonical s :=
  canonical_of_mem (freeBytes_keeps _ _ .mem (by decide))
@[simp] theorem hostReadOut_canonical (s : State) (fn addr len kind core : Nat) (ring : Option Nat) (dst : Option Dst)
    (peer : Option (Nat × Nat × Nat)) (va : Option Nat) (src : Option (Nat × Nat)) :
    Canonical (hostReadOut s fn addr len kind core ring dst peer va src) ↔ Canonical s :=
  canonical_of_mem (hostReadOut_keeps _ _ _ _ _ _ _ _ _ _ _ .mem (by decide))
@[simp] theorem queueSig_canonical (s : State) (r : SigReq) : Canonical (queueSig s r) ↔ Canonical s :=
  canonical_of_mem (queueSig_keeps _ _ .mem (by decide))
@[simp] theorem updClock_canonical (s : State) : Canonical (updClock s) ↔ Canonical s :=
  canonical_of_mem (updClock_keeps _ .mem (by decide))
@[simp] theorem endWait_canonical (s : State) (a unit sub : Nat) : Canonical (endWait s a unit sub) ↔ Canonical s :=
  canonical_of_mem (endWait_keeps _ _ _ _ .mem (by decide))
@[simp] theorem cfgDefaults_canonical (s : State) : Canonical (cfgDefaults s) ↔ Canonical s :=
  canonical_of_mem (cfgDefaults_keeps _ .mem (by decide))
@[simp] theorem mbxResult_canonical (s : State) (r : Nat) : Canonical (mbxResult s r) ↔ Canonical s :=
  canonical_of_mem (mbxResult_keeps _ _ .mem (by decide))
@[simp] theorem endVerify_canonical (s : State) (ok : Bool) : Canonical (endVerify s ok) ↔ Canonical s :=
  canonical_of_mem (endVerify_keeps _ _ .mem (by decide))
@[simp] theorem acceptFrame_canonical (s : State) (l : Nat) (f : Frame) : Canonical (acceptFrame s l f) ↔ Canonical s :=
  canonical_of_mem (acceptFrame_keeps _ _ _ .mem (by decide))
@[simp] theorem issueKv_canonical (s : State) (core : Option Nat) (w : Nat) (desc : List W64) :
    Canonical (issueKv s core w desc) ↔ Canonical s :=
  canonical_of_mem (issueKv_keeps _ _ _ _ .mem (by decide))
@[simp] theorem orExceptions_canonical (s : State) (w bits : Nat) : Canonical (orExceptions s w bits) ↔ Canonical s :=
  canonical_of_mem (orExceptions_keeps _ _ _ .mem (by decide))
@[simp] theorem noteCause_canonical (s : State) (w code : Nat) : Canonical (noteCause s w code) ↔ Canonical s :=
  canonical_of_mem (noteCause_keeps _ _ _ .mem (by decide))
@[simp] theorem promote_canonical (s : State) (c h : Nat) (p : Pass) : Canonical (promote s c h p) ↔ Canonical s :=
  canonical_of_mem (promote_keeps _ _ _ _ .mem (by decide))
@[simp] theorem release_canonical (s : State) (c owner : Nat) : Canonical (release s c owner) ↔ Canonical s :=
  canonical_of_mem (release_keeps _ _ _ .mem (by decide))
@[simp] theorem refuse_canonical (s : State) (rej cause : Fld) (i c : Nat) : Canonical (refuse s rej cause i c) ↔ Canonical s :=
  canonical_of_mem (refuse_keeps _ _ _ _ _ .mem (by decide))
@[simp] theorem tdiError_canonical (s : State) (p cause : Nat) : Canonical (tdiError s p cause) ↔ Canonical s :=
  canonical_of_mem (tdiError_keeps _ _ _ .mem (by decide))
@[simp] theorem applyInval_canonical (s : State) (i : Inval) : Canonical (applyInval s i) ↔ Canonical s :=
  canonical_of_mem (applyInval_keeps _ _ .mem (by decide))
@[simp] theorem askInval_canonical (s : State) (fn ctx va bytes : Nat) (all : Bool) :
    Canonical (askInval s fn ctx va bytes all) ↔ Canonical s :=
  canonical_of_mem (askInval_keeps _ _ _ _ _ _ .mem (by decide))
@[simp] theorem updPartStatus_canonical (s : State) (p : Nat) : Canonical (updPartStatus s p) ↔ Canonical s :=
  canonical_of_mem (updPartStatus_keeps _ _ .mem (by decide))
@[simp] theorem applyRanges_canonical (s : State) (cp : List (Nat × W64)) : Canonical (applyRanges s cp) ↔ Canonical s :=
  canonical_of_mem (applyRanges_keeps _ _ .mem (by decide))
@[simp] theorem drainRanges_canonical (n : Nat) (s : State) : Canonical (drainRanges n s) ↔ Canonical s :=
  canonical_of_mem (drainRanges_keeps _ _ .mem (by decide))
@[simp] theorem setPwrDomain_canonical (s : State) (d v : Nat) : Canonical (setPwrDomain s d v) ↔ Canonical s :=
  canonical_of_mem (setPwrDomain_keeps _ _ _ .mem (by decide))
@[simp] theorem setPower_canonical (s : State) (c : Nat) (p : CorePower) : Canonical (setPower s c p) ↔ Canonical s :=
  canonical_of_mem (setPower_keeps _ _ _ .mem (by decide))
@[simp] theorem coreOff_canonical (s : State) (c : Nat) : Canonical (coreOff s c) ↔ Canonical s :=
  canonical_of_mem (coreOff_keeps _ _ .mem (by decide))
@[simp] theorem setLinkState_canonical (s : State) (l st : Nat) : Canonical (setLinkState s l st) ↔ Canonical s :=
  canonical_of_mem (setLinkState_keeps _ _ _ .mem (by decide))
@[simp] theorem failStage_canonical (s : State) (n status : Nat) : Canonical (failStage s n status) ↔ Canonical s :=
  canonical_of_mem (failStage_keeps _ _ _ .mem (by decide))
@[simp] theorem warn_canonical (s : State) (n status : Nat) : Canonical (warn s n status) ↔ Canonical s :=
  canonical_of_mem (warn_keeps _ _ _ .mem (by decide))
@[simp] theorem endStage_canonical (s : State) (n detail : Nat) : Canonical (endStage s n detail) ↔ Canonical s :=
  canonical_of_mem (endStage_keeps _ _ _ .mem (by decide))
@[simp] theorem verifyImage_canonical (s : State) : Canonical (verifyImage s) ↔ Canonical s :=
  canonical_of_mem (verifyImage_keeps _ .mem (by decide))
@[simp] theorem mbxStart_canonical (s : State) (op : Nat) : Canonical (mbxStart s op) ↔ Canonical s :=
  canonical_of_mem (mbxStart_keeps _ _ .mem (by decide))
@[simp] theorem setKvReg_canonical (s : State) (r : Nat) (v : KvRegion) : Canonical (setKvReg s r v) ↔ Canonical s :=
  canonical_of_mem (setKvReg_keeps _ _ _ .mem (by decide))
@[simp] theorem chainAccess_canonical (s : State) (c h : Nat) (ep : Epi) : Canonical (chainAccess s c h ep) ↔ Canonical s :=
  canonical_of_mem (chainAccess_keeps _ _ _ _ .mem (by decide))
@[simp] theorem noteSealed_canonical (s : State) (l : Nat) (f : Frame) : Canonical (noteSealed s l f) ↔ Canonical s :=
  canonical_of_mem (noteSealed_keeps _ _ _ .mem (by decide))
@[simp] theorem gangUsed_canonical (s : State) (w key : Nat) : Canonical (gangUsed s w key) ↔ Canonical s :=
  canonical_of_mem (gangUsed_keeps _ _ _ .mem (by decide))
@[simp] theorem gangSend_canonical (s : State) (w kind : Nat) : Canonical (gangSend s w kind) ↔ Canonical s :=
  canonical_of_mem (gangSend_keeps _ _ _ .mem (by decide))
@[simp] theorem freeCore_canonical (s : State) (c : Nat) : Canonical (freeCore s c) ↔ Canonical s :=
  canonical_of_mem (freeCore_keeps _ _ .mem (by decide))
@[simp] theorem dropJob_canonical (s : State) (w : Nat) : Canonical (dropJob s w) ↔ Canonical s :=
  canonical_of_mem (dropJob_keeps _ _ .mem (by decide))
@[simp] theorem setRingState_canonical (s : State) (w st : Nat) : Canonical (setRingState s w st) ↔ Canonical s :=
  canonical_of_mem (setRingState_keeps _ _ _ .mem (by decide))
@[simp] theorem commitReg_canonical (s : State) (off : Nat) : Canonical (commitReg s off) ↔ Canonical s :=
  canonical_of_mem (commitReg_keeps _ _ .mem (by decide))
@[simp] theorem commitRegs_canonical (s : State) (offs : List Nat) : Canonical (commitRegs s offs) ↔ Canonical s :=
  canonical_of_mem (commitRegs_keeps _ _ .mem (by decide))
@[simp] theorem readFlash_canonical (s : State) : Canonical (readFlash s) ↔ Canonical s :=
  canonical_of_mem (readFlash_keeps _ .mem (by decide))
@[simp] theorem markDue_canonical (s : State) (c : Nat) : Canonical (markDue s c) ↔ Canonical s :=
  canonical_of_mem (markDue_keeps _ _ .mem (by decide))
@[simp] theorem noteOffset_canonical (s : State) (θ : ℤ) : Canonical (noteOffset s θ) ↔ Canonical s :=
  canonical_of_mem (noteOffset_keeps _ _ .mem (by decide))
@[simp] theorem wakeRings_canonical (s : State) (pa n : Nat) : Canonical (wakeRings s pa n) ↔ Canonical s :=
  canonical_of_mem (wakeRings_keeps _ _ _ .mem (by decide))
@[simp] theorem loseFlight_canonical (s : State) (f : Flight) (code : Nat) : Canonical (loseFlight s f code) ↔ Canonical s :=
  canonical_of_mem (loseFlight_keeps _ _ _ .mem (by decide))
@[simp] theorem tileLanded_canonical (s : State) (f : Flight) (parts : Nat) (refused : Bool) :
    Canonical (tileLanded s f parts refused) ↔ Canonical s :=
  canonical_of_mem (tileLanded_keeps _ _ _ _ .mem (by decide))
@[simp] theorem returnCredit_canonical (s : State) (c slot kind n m core tag : Nat) :
    Canonical (returnCredit s c slot kind n m core tag) ↔ Canonical s :=
  canonical_of_mem (returnCredit_keeps _ _ _ _ _ _ _ _ .mem (by decide))
@[simp] theorem landHeader_canonical (s : State) (c tag : Nat) (img : TileImage) : Canonical (landHeader s c tag img) ↔ Canonical s :=
  canonical_of_mem (landHeader_keeps _ _ _ _ .mem (by decide))
@[simp] theorem landBody_canonical (s : State) (c : Nat) (img : TileImage) (words : Nat) :
    Canonical (landBody s c img words) ↔ Canonical s :=
  canonical_of_mem (landBody_keeps _ _ _ _ .mem (by decide))
@[simp] theorem setRegion_canonical (s : State) (k : Nat) (v : Region) : Canonical (setRegion s k v) ↔ Canonical s :=
  canonical_of_mem (setRegion_keeps _ _ _ .mem (by decide))
@[simp] theorem applyHint_canonical (s : State) (w level us_ stagger : Nat) : Canonical (applyHint s w level us_ stagger) ↔ Canonical s :=
  canonical_of_mem (applyHint_keeps _ _ _ _ _ .mem (by decide))
@[simp] theorem putFrame_canonical (s : State) (l : Nat) (f : SentFrame) (inject : Bool) :
    Canonical (putFrame s l f inject) ↔ Canonical s :=
  canonical_of_mem (putFrame_keeps _ _ _ _ .mem (by decide))
@[simp] theorem debugAccess_canonical (s : State) (p cls requester addr : Nat) (core : Option Nat) :
    Canonical (debugAccess s p cls requester addr core) ↔ Canonical s :=
  canonical_of_mem (debugAccess_keeps _ _ _ _ _ _ .mem (by decide))
@[simp] theorem resetCounters_canonical (s : State) (c : Nat) : Canonical (resetCounters s c) ↔ Canonical s :=
  canonical_of_mem (resetCounters_keeps _ _ .mem (by decide))
@[simp] theorem resetCore_canonical (s : State) (c : Nat) : Canonical (resetCore s c) ↔ Canonical s :=
  canonical_of_mem (resetCore_keeps _ _ .mem (by decide))
@[simp] theorem failImport_canonical (s : State) (p code : Nat) : Canonical (failImport s p code) ↔ Canonical s :=
  canonical_of_mem (failImport_keeps _ _ _ .mem (by decide))
@[simp] theorem partitionReset_canonical (s : State) (p : Nat) : Canonical (partitionReset s p) ↔ Canonical s :=
  canonical_of_mem (partitionReset_keeps _ _ .mem (by decide))
@[simp] theorem respond_canonical (s : State) (fn : Nat) (name : String) (values : List Nat) :
    Canonical (respond s fn name values) ↔ Canonical s :=
  canonical_of_mem (respond_keeps _ _ _ _ .mem (by decide))
@[simp] theorem emits_canonical (s : State) (os : List Out) : Canonical (emits s os) ↔ Canonical s :=
  canonical_of_mem (emits_keeps _ _ .mem (by decide))
@[simp] theorem stallAll_canonical (s : State) : Canonical (stallAll s) ↔ Canonical s :=
  canonical_of_mem (stallAll_keeps _ .mem (by decide))
@[simp] theorem takeCut_canonical (s : State) (t : Nat) (late : Bool) : Canonical (takeCut s t late) ↔ Canonical s :=
  canonical_of_mem (takeCut_keeps _ _ _ .mem (by decide))
@[simp] theorem startGather_canonical (s : State) (c key : Nat) : Canonical (startGather s c key) ↔ Canonical s :=
  canonical_of_mem (startGather_keeps _ _ _ .mem (by decide))
@[simp] theorem setPartDuty_canonical (s : State) (key d : Nat) : Canonical (setPartDuty s key d) ↔ Canonical s :=
  canonical_of_mem (setPartDuty_keeps _ _ _ .mem (by decide))
@[simp] theorem scheduleRepair_canonical (s : State) (b : BankRow) : Canonical (scheduleRepair s b) ↔ Canonical s :=
  canonical_of_mem (scheduleRepair_keeps _ _ .mem (by decide))
@[simp] theorem dropRead_canonical (s : State) (n : Nat) : Canonical (dropRead s n) ↔ Canonical s :=
  canonical_of_mem (dropRead_keeps _ _ .mem (by decide))
@[simp] theorem newFrame_canonical (s : State) (l : Nat) : Canonical (newFrame s l) ↔ Canonical s :=
  canonical_of_mem (newFrame_keeps _ _ .mem (by decide))
@[simp] theorem suspectCore_canonical (s : State) (c cls harps : Nat) (byTest : Bool) :
    Canonical (suspectCore s c cls harps byTest) ↔ Canonical s :=
  canonical_of_mem (suspectCore_keeps _ _ _ _ _ .mem (by decide))
@[simp] theorem remoteLoaded_canonical (s : State) (r : Remote) (msg : Msg) : Canonical (remoteLoaded s r msg) ↔ Canonical s :=
  canonical_of_mem (remoteLoaded_keeps _ _ _ .mem (by decide))
@[simp] theorem fdlFlags_canonical (s : State) (c fl : Nat) : Canonical (fdlFlags s c fl) ↔ Canonical s :=
  canonical_of_mem (fdlFlags_keeps _ _ _ .mem (by decide))
@[simp] theorem passTile_canonical (s : State) (key o parts : Nat) : Canonical (passTile s key o parts) ↔ Canonical s :=
  canonical_of_mem (passTile_keeps _ _ _ _ .mem (by decide))
@[simp] theorem flashAppend_canonical (s : State) (words : List W64) : Canonical (flashAppend s words) ↔ Canonical s :=
  canonical_of_mem (flashAppend_keeps _ _ .mem (by decide))
@[simp] theorem bufferWrite_canonical (s : State) (off : Nat) (v : W64) : Canonical (bufferWrite s off v) ↔ Canonical s :=
  canonical_of_mem (bufferWrite_keeps _ _ _ .mem (by decide))
@[simp] theorem discardSave_canonical (s : State) (w : Nat) : Canonical (discardSave s w) ↔ Canonical s :=
  canonical_of_mem (discardSave_keeps _ _ .mem (by decide))
@[simp] theorem finishSave_canonical (s : State) (w : Nat) : Canonical (finishSave s w) ↔ Canonical s :=
  canonical_of_mem (finishSave_keeps _ _ .mem (by decide))
@[simp] theorem takeSnap_canonical (s : State) (c cause : Nat) (late : Bool) : Canonical (takeSnap s c cause late) ↔ Canonical s :=
  canonical_of_mem (takeSnap_keeps _ _ _ _ .mem (by decide))
@[simp] theorem stopHere_canonical (s : State) (c : Nat) : Canonical (stopHere s c) ↔ Canonical s :=
  canonical_of_mem (stopHere_keeps _ _ .mem (by decide))
@[simp] theorem creditStop_canonical (s : State) (c : Nat) : Canonical (creditStop s c) ↔ Canonical s :=
  canonical_of_mem (creditStop_keeps _ _ .mem (by decide))
@[simp] theorem notePoison_canonical (s : State) (w : Nat) (pa : Option Nat) : Canonical (notePoison s w pa) ↔ Canonical s :=
  canonical_of_mem (notePoison_keeps _ _ _ .mem (by decide))
@[simp] theorem takeMeasurements_canonical (s : State) : Canonical (takeMeasurements s) ↔ Canonical s :=
  canonical_of_mem (takeMeasurements_keeps _ .mem (by decide))
@[simp] theorem avoidRetired_canonical (s : State) (w : Nat) (cs : List Nat) : Canonical (avoidRetired s w cs) ↔ Canonical s :=
  canonical_of_mem (avoidRetired_keeps _ _ _ .mem (by decide))
@[simp] theorem endStallRun_canonical (s : State) (c h : Nat) : Canonical (endStallRun s c h) ↔ Canonical s :=
  canonical_of_mem (endStallRun_keeps _ _ _ .mem (by decide))
@[simp] theorem writeBackAll_canonical (s : State) (ls : List Nat) : Canonical (writeBackAll s ls) ↔ Canonical s :=
  canonical_of_mem (writeBackAll_keeps _ _ .mem (by decide))
@[simp] theorem rememberPeer_canonical (s : State) (id : List Byte) : Canonical (rememberPeer s id) ↔ Canonical s :=
  canonical_of_mem (rememberPeer_keeps _ _ .mem (by decide))
@[simp] theorem blankFrame_canonical (s : State) (l : Nat) : Canonical (blankFrame s l) ↔ Canonical s :=
  canonical_of_mem (blankFrame_keeps _ _ .mem (by decide))
@[simp] theorem discardFrame_canonical (s : State) (l : Nat) : Canonical (discardFrame s l) ↔ Canonical s :=
  canonical_of_mem (discardFrame_keeps _ _ .mem (by decide))
@[simp] theorem linkStop_canonical (s : State) (l cause : Nat) : Canonical (linkStop s l cause) ↔ Canonical s :=
  canonical_of_mem (linkStop_keeps _ _ _ .mem (by decide))
@[simp] theorem linkDown_canonical (s : State) (l cause : Nat) : Canonical (linkDown s l cause) ↔ Canonical s :=
  canonical_of_mem (linkDown_keeps _ _ _ .mem (by decide))
@[simp] theorem badFrame_canonical (s : State) (l : Nat) : Canonical (badFrame s l) ↔ Canonical s :=
  canonical_of_mem (badFrame_keeps _ _ .mem (by decide))
@[simp] theorem enqueueAll_canonical (s : State) (l : Nat) (ts : List TxMsg) : Canonical (enqueueAll s l ts) ↔ Canonical s :=
  canonical_of_mem (enqueueAll_keeps _ _ _ .mem (by decide))
@[simp] theorem debugResume_canonical (s : State) (p : Nat) : Canonical (debugResume s p) ↔ Canonical s :=
  canonical_of_mem (debugResume_keeps _ _ .mem (by decide))
@[simp] theorem restoreCore_canonical (s : State) (y : SavedCore) (kernel : Bool) : Canonical (restoreCore s y kernel) ↔ Canonical s :=
  canonical_of_mem (restoreCore_keeps _ _ _ .mem (by decide))
@[simp] theorem count_canonical (s : State) (c n k : Nat) : Canonical (count s c n k) ↔ Canonical s :=
  canonical_of_mem (count_keeps _ _ _ _ .mem (by decide))
@[simp] theorem timeHold_canonical (s : State) : Canonical (timeHold s) ↔ Canonical s :=
  canonical_of_mem (timeHold_keeps _ .mem (by decide))
@[simp] theorem steerFree_canonical (s : State) : Canonical (steerFree s).2 ↔ Canonical s :=
  canonical_of_mem (steerFree_keeps _ .mem (by decide))
@[simp] theorem drainFlags_canonical (s : State) (c h tag flags rows : Nat) : Canonical (drainFlags s c h tag flags rows) ↔ Canonical s :=
  canonical_of_mem (drainFlags_keeps _ _ _ _ _ _ .mem (by decide))
@[simp] theorem requestPreempt_canonical (s : State) (w : Nat) (tell : Bool) : Canonical (requestPreempt s w tell) ↔ Canonical s :=
  canonical_of_mem (requestPreempt_keeps _ _ _ .mem (by decide))
@[simp] theorem coreReset_canonical (s : State) (c : Nat) : Canonical (coreReset s c) ↔ Canonical s :=
  canonical_of_mem (coreReset_keeps _ _ .mem (by decide))
@[simp] theorem linkUp_canonical (s : State) (l : Nat) (fresh : Bool) : Canonical (linkUp s l fresh) ↔ Canonical s :=
  canonical_of_mem (linkUp_keeps _ _ _ .mem (by decide))
@[simp] theorem breakOrders_canonical (s : State) (m : Nat) : Canonical (breakOrders s m) ↔ Canonical s :=
  canonical_of_mem (breakOrders_keeps _ _ .mem (by decide))
@[simp] theorem releaseHalted_canonical (s : State) : Canonical (releaseHalted s) ↔ Canonical s :=
  canonical_of_mem (releaseHalted_keeps _ .mem (by decide))
@[simp] theorem releaseHalt_canonical (s : State) (skip : List Nat) : Canonical (releaseHalt s skip) ↔ Canonical s :=
  canonical_of_mem (releaseHalt_keeps _ _ .mem (by decide))
@[simp] theorem writeFields_canonical (s : State) (off : Nat) (v : W64) : Canonical (writeFields s off v) ↔ Canonical s :=
  canonical_of_mem (writeFields_keeps _ _ _ .mem (by decide))
@[simp] theorem wakeCore_canonical (s : State) (c : Nat) : Canonical (wakeCore s c) ↔ Canonical s :=
  canonical_of_mem (wakeCore_keeps _ _ .mem (by decide))
@[simp] theorem onKvReg_canonical (s : State) (r : Nat) (f : KvRegion → KvRegion) : Canonical (onKvReg s r f) ↔ Canonical s :=
  canonical_of_mem (onKvReg_keeps _ _ _ .mem (by decide))
@[simp] theorem setKvNear_canonical (s : State) (r u : Nat) (l : List Nat) : Canonical (setKvNear s r u l) ↔ Canonical s :=
  canonical_of_mem (setKvNear_keeps _ _ _ _ .mem (by decide))
@[simp] theorem wakeDie_canonical (s : State) : Canonical (wakeDie s) ↔ Canonical s := canonical_of_mem (wakeDie_keeps _ .mem (by decide))
@[simp] theorem wakeFor_canonical (s : State) (h : Held) : Canonical (wakeFor s h) ↔ Canonical s :=
  canonical_of_mem (wakeFor_keeps _ _ .mem (by decide))
@[simp] theorem spareRow_canonical (s : State) (b : BankRow) : Canonical (spareRow s b) ↔ Canonical s :=
  canonical_of_mem (spareRow_keeps _ _ .mem (by decide))
@[simp] theorem passReads_canonical (s : State) (c h : Nat) (d : List W64) (rs : List (Nat × Nat)) :
    Canonical (passReads s c h d rs) ↔ Canonical s :=
  canonical_of_mem (passReads_keeps _ _ _ _ _ .mem (by decide))
@[simp] theorem takeStep_canonical (s : State) (c h : Nat) : Canonical (takeStep s c h) ↔ Canonical s :=
  canonical_of_mem (takeStep_keeps _ _ _ .mem (by decide))
@[simp] theorem armHalt_canonical (s : State) (cut cause initiator : Nat) : Canonical (armHalt s cut cause initiator) ↔ Canonical s :=
  canonical_of_mem (armHalt_keeps _ _ _ _ .mem (by decide))
@[simp] theorem freeTemps_canonical (s : State) : Canonical (freeTemps s).2 ↔ Canonical s :=
  canonical_of_mem (freeTemps_keeps _ .mem (by decide))
@[simp] theorem setKvFar_canonical (s : State) (r u : Nat) (l : List Nat) : Canonical (setKvFar s r u l) ↔ Canonical s :=
  canonical_of_mem (setKvFar_keeps _ _ _ _ .mem (by decide))
@[simp] theorem windowDebug_canonical (s : State) (fn off cls : Nat) : Canonical (windowDebug s fn off cls) ↔ Canonical s :=
  canonical_of_mem (windowDebug_keeps _ _ _ _ .mem (by decide))
@[simp] theorem onKvSeq_canonical (s : State) (r q : Nat) (f : KvSeq → KvSeq) : Canonical (onKvSeq s r q f) ↔ Canonical s :=
  canonical_of_mem (onKvSeq_keeps _ _ _ _ .mem (by decide))
@[simp] theorem applyGuards_canonical (s : State) (p : Nat) (cp : List (Nat × W64)) : Canonical (applyGuards s p cp) ↔ Canonical s :=
  canonical_of_mem (applyGuards_keeps _ _ _ .mem (by decide))
@[simp] theorem drainGuards_canonical (n : Nat) (s : State) (k : Nat) : Canonical (drainGuards n s k) ↔ Canonical s :=
  canonical_of_mem (drainGuards_keeps _ _ _ .mem (by decide))
@[simp] theorem timeInput_canonical (s : State) : Canonical (timeInput s) ↔ Canonical s :=
  canonical_of_mem (timeInput_keeps _ .mem (by decide))
@[simp] theorem tickCore_canonical (s : State) (c : Nat) : Canonical (tickCore s c) ↔ Canonical s :=
  canonical_of_mem (tickCore_keeps _ _ .mem (by decide))
@[simp] theorem markInvalid_canonical (s : State) : Canonical (markInvalid s) ↔ Canonical s :=
  canonical_of_mem (markInvalid_keeps _ .mem (by decide))
@[simp] theorem portDown_canonical (s : State) (n cause : Nat) : Canonical (portDown s n cause) ↔ Canonical s :=
  canonical_of_mem (portDown_keeps _ _ _ .mem (by decide))
@[simp] theorem dropRemote_canonical (s : State) (r : Remote) : Canonical (dropRemote s r) ↔ Canonical s :=
  canonical_of_mem (dropRemote_keeps _ _ .mem (by decide))
@[simp] theorem bar4WriteNow_canonical (s : State) (fn off : Nat) (data : List Byte) (poison : Bool) :
    Canonical (bar4WriteNow s fn off data poison) ↔ Canonical s :=
  canonical_of_mem (bar4WriteNow_keeps _ _ _ _ _ .mem (by decide))
@[simp] theorem maintWait_canonical (s : State) (a unit sub : Nat) : Canonical (maintWait s a unit sub) ↔ Canonical s :=
  canonical_of_mem (maintWait_keeps _ _ _ _ .mem (by decide))
@[simp] theorem setOverdue_canonical (s : State) (w : MaintWait) (ms : Nat) : Canonical (setOverdue s w ms) ↔ Canonical s :=
  canonical_of_mem (setOverdue_keeps _ _ _ .mem (by decide))
@[simp] theorem setSpdm_canonical (s : State) (fn : Nat) (v : Spdm) : Canonical (setSpdm s fn v) ↔ Canonical s :=
  canonical_of_mem (setSpdm_keeps _ _ _ .mem (by decide))
@[simp] theorem finishCmd_canonical (s : State) (w : Nat) : Canonical (finishCmd s w) ↔ Canonical s :=
  canonical_of_mem (finishCmd_keeps _ _ .mem (by decide))
@[simp] theorem flushHold_canonical (n : Nat) (s : State) : Canonical (flushHold n s) ↔ Canonical s :=
  canonical_of_mem (flushHold_keeps _ _ .mem (by decide))
@[simp] theorem clearOnRead_canonical (s : State) (off : Nat) : Canonical (clearOnRead s off) ↔ Canonical s :=
  canonical_of_mem (clearOnRead_keeps _ _ .mem (by decide))
@[simp] theorem trained_canonical (s : State) (k ch : Nat) : Canonical (trained s k ch) ↔ Canonical s :=
  canonical_of_mem (trained_keeps _ _ _ .mem (by decide))
@[simp] theorem fdlResult_canonical (s : State) (c : Nat) (i : FdlInstr) : Canonical (fdlResult s c i).1 ↔ Canonical s :=
  canonical_of_mem (fdlResult_keeps _ _ _ .mem (by decide))
@[simp] theorem spdUpset_canonical (s : State) (c : Nat) (u : Nat × Bool) : Canonical (spdUpset s c u) ↔ Canonical s :=
  canonical_of_mem (spdUpset_keeps _ _ _ .mem (by decide))
@[simp] theorem noteSent_canonical (s : State) (c h t n : Nat) : Canonical (noteSent s c h t n) ↔ Canonical s :=
  canonical_of_mem (noteSent_keeps _ _ _ _ _ .mem (by decide))
@[simp] theorem limitHolds_canonical (s : State) (under : Bool) : Canonical (limitHolds s under) ↔ Canonical s :=
  canonical_of_mem (limitHolds_keeps _ _ .mem (by decide))
@[simp] theorem updStack_canonical (s : State) (k : Nat) : Canonical (updStack s k) ↔ Canonical s :=
  canonical_of_mem (updStack_keeps _ _ .mem (by decide))
@[simp] theorem stackTemps_canonical (s : State) (stackCs : List Nat) : Canonical (stackTemps s stackCs) ↔ Canonical s :=
  canonical_of_mem (stackTemps_keeps _ _ .mem (by decide))
@[simp] theorem stacksOn_canonical (s : State) : Canonical (stacksOn s) ↔ Canonical s :=
  canonical_of_mem (stacksOn_keeps _ .mem (by decide))
@[simp] theorem endUnstarted_canonical (s : State) (w code detail : Nat) : Canonical (endUnstarted s w code detail) ↔ Canonical s :=
  canonical_of_mem (endUnstarted_keeps _ _ _ _ .mem (by decide))
@[simp] theorem setFlight_canonical (s : State) (id : Nat) (g : Flight → Flight) : Canonical (setFlight s id g) ↔ Canonical s :=
  canonical_of_mem (setFlight_keeps _ _ _ .mem (by decide))
@[simp] theorem wakeChannel_canonical (failing : List (Nat × Nat)) (s : State) (k ch : Nat) :
    Canonical (wakeChannel failing s k ch) ↔ Canonical s :=
  canonical_of_mem (wakeChannel_keeps _ _ _ _ .mem (by decide))
@[simp] theorem mbxTouch_canonical (s : State) : Canonical (mbxTouch s) ↔ Canonical s :=
  canonical_of_mem (mbxTouch_keeps _ .mem (by decide))
@[simp] theorem claim_canonical (s : State) (who : MbxWho) : Canonical (claim s who) ↔ Canonical s :=
  canonical_of_mem (claim_keeps _ _ .mem (by decide))
@[simp] theorem tableFault_canonical (s : State) (w p va : Nat) (e : XFault) : Canonical (tableFault s w p va e) ↔ Canonical s :=
  canonical_of_mem (tableFault_keeps _ _ _ _ _ .mem (by decide))
@[simp] theorem computeReset_canonical (s : State) : Canonical (computeReset s) ↔ Canonical s :=
  canonical_of_mem (computeReset_keeps _ .mem (by decide))
@[simp] theorem bar2WriteNow_canonical (s : State) (fn off : Nat) (data : List Byte) (poison relaxed : Bool) :
    Canonical (bar2WriteNow s fn off data poison relaxed) ↔ Canonical s :=
  canonical_of_mem (bar2WriteNow_keeps _ _ _ _ _ _ .mem (by decide))
@[simp] theorem dropXlat_canonical (s : State) (p va n : Nat) : Canonical (dropXlat s p va n) ↔ Canonical s :=
  canonical_of_mem (dropXlat_keeps _ _ _ _ .mem (by decide))
@[simp] theorem badTag_canonical (s : State) (l : Nat) : Canonical (badTag s l) ↔ Canonical s :=
  canonical_of_mem (badTag_keeps _ _ .mem (by decide))
@[simp] theorem tapBypass_canonical (s : State) : Canonical (tapBypass s) ↔ Canonical s :=
  canonical_of_mem (tapBypass_keeps _ .mem (by decide))
@[simp] theorem startTraining_canonical (s : State) (l : Nat) : Canonical (startTraining s l) ↔ Canonical s :=
  canonical_of_mem (startTraining_keeps _ _ .mem (by decide))
@[simp] theorem kvStart_canonical (s : State) (r : Nat) : Canonical (kvStart s r) ↔ Canonical s :=
  canonical_of_mem (kvStart_keeps _ _ .mem (by decide))
@[simp] theorem destroyPart_canonical (s : State) (p : Nat) : Canonical (destroyPart s p) ↔ Canonical s :=
  canonical_of_mem (destroyPart_keeps _ _ .mem (by decide))
@[simp] theorem encapsulate_canonical (s : State) (l : Nat) : Canonical (encapsulate s l) ↔ Canonical s :=
  canonical_of_mem (encapsulate_keeps _ _ .mem (by decide))
@[simp] theorem startRekey_canonical (s : State) (l : Nat) : Canonical (startRekey s l) ↔ Canonical s :=
  canonical_of_mem (startRekey_keeps _ _ .mem (by decide))
@[simp] theorem rekeyDue_canonical (s : State) (l : Nat) : Canonical (rekeyDue s l) ↔ Canonical s :=
  canonical_of_mem (rekeyDue_keeps _ _ .mem (by decide))
@[simp] theorem freeSeal_canonical (s : State) (p e : Nat) : Canonical (freeSeal s p e) ↔ Canonical s :=
  canonical_of_mem (freeSeal_keeps _ _ _ .mem (by decide))
@[simp] theorem wakeDst_canonical (s : State) (d : Dst) : Canonical (wakeDst s d) ↔ Canonical s :=
  canonical_of_mem (wakeDst_keeps _ _ .mem (by decide))
@[simp] theorem wakeCores_canonical (s : State) (cs : List Nat) : Canonical (wakeCores s cs) ↔ Canonical s :=
  canonical_of_mem (wakeCores_keeps _ _ .mem (by decide))
@[simp] theorem katRun_canonical (s : State) (c : Nat) (run : KatRun) : Canonical (katRun s c run) ↔ Canonical s :=
  canonical_of_mem (katRun_keeps _ _ _ .mem (by decide))
@[simp] theorem failChannel_canonical (s : State) (k ch : Nat) : Canonical (failChannel s k ch) ↔ Canonical s :=
  canonical_of_mem (failChannel_keeps _ _ _ .mem (by decide))
@[simp] theorem marginCheck_canonical (fails : List (StackIx × ChanIx)) (s : State) (k ch : Nat) :
    Canonical (marginCheck fails s k ch) ↔ Canonical s :=
  canonical_of_mem (marginCheck_keeps _ _ _ _ .mem (by decide))
@[simp] theorem coreWoken_canonical (s : State) (c : Nat) : Canonical (coreWoken s c) ↔ Canonical s :=
  canonical_of_mem (coreWoken_keeps _ _ .mem (by decide))
@[simp] theorem linkIdeOff_canonical (s : State) : Canonical (linkIdeOff s) ↔ Canonical s :=
  canonical_of_mem (linkIdeOff_keeps _ .mem (by decide))
@[simp] theorem readServed_canonical (s : State) (fn off : Nat) : Canonical (readServed s fn off).2 ↔ Canonical s :=
  canonical_of_mem (readServed_keeps _ _ _ .mem (by decide))
@[simp] theorem absorbCore_canonical (s : State) (p : Nat) : Canonical (absorbCore s p) ↔ Canonical s :=
  canonical_of_mem (absorbCore_keeps _ _ .mem (by decide))
@[simp] theorem meetOrder_canonical (s : State) (m key o : Nat) : Canonical (meetOrder s m key o) ↔ Canonical s :=
  canonical_of_mem (meetOrder_keeps _ _ _ _ .mem (by decide))
@[simp] theorem capDown_canonical (s : State) (measured : Bool) : Canonical (capDown s measured) ↔ Canonical s :=
  canonical_of_mem (capDown_keeps _ _ .mem (by decide))
@[simp] theorem tscStep_canonical (s : State) (v : Nat) : Canonical (tscStep s v) ↔ Canonical s :=
  canonical_of_mem (tscStep_keeps _ _ .mem (by decide))
@[simp] theorem acquireMaster_canonical (s : State) (θ : ℤ) : Canonical (acquireMaster s θ) ↔ Canonical s :=
  canonical_of_mem (acquireMaster_keeps _ _ .mem (by decide))
@[simp] theorem publishPlan_canonical (s : State) (p : Plan) : Canonical (publishPlan s p) ↔ Canonical s :=
  canonical_of_mem (publishPlan_keeps _ _ .mem (by decide))
@[simp] theorem pinInstruction_canonical (s : State) (code : Nat) (name : String) (v : Nat) :
    Canonical (pinInstruction s code name v) ↔ Canonical s :=
  canonical_of_mem (pinInstruction_keeps _ _ _ _ .mem (by decide))
@[simp] theorem loadFault_canonical (s : State) (w p va : Nat) (e : XFault) : Canonical (loadFault s w p va e) ↔ Canonical s :=
  canonical_of_mem (loadFault_keeps _ _ _ _ _ .mem (by decide))
@[simp] theorem fatalClock_canonical (s : State) (k : FatalKind) : Canonical (fatalClock s k) ↔ Canonical s :=
  canonical_of_mem (fatalClock_keeps _ _ .mem (by decide))
@[simp] theorem runStall_canonical (s : State) (c h reason : Nat) : Canonical (runStall s c h reason) ↔ Canonical s :=
  canonical_of_mem (runStall_keeps _ _ _ _ .mem (by decide))
@[simp] theorem leaveKernel_canonical (s : State) (k : Nat) : Canonical (leaveKernel s k) ↔ Canonical s :=
  canonical_of_mem (leaveKernel_keeps _ _ .mem (by decide))
@[simp] theorem configWrite_canonical (s : State) (fn : Nat) (f : CfgField) (v : Nat) : Canonical (configWrite s fn f v) ↔ Canonical s :=
  canonical_of_mem (configWrite_keeps _ _ _ _ .mem (by decide))
@[simp] theorem startQuiesce_canonical (s : State) (l : Nat) (disabling : Bool) : Canonical (startQuiesce s l disabling) ↔ Canonical s :=
  canonical_of_mem (startQuiesce_keeps _ _ _ .mem (by decide))
@[simp] theorem attribPart_canonical (parts : List (Nat × List Nat × Nat × Nat × Nat)) (s : State) (p : Nat) :
    Canonical (attribPart parts s p) ↔ Canonical s :=
  canonical_of_mem (attribPart_keeps _ _ _ .mem (by decide))
@[simp] theorem thermDown_canonical (s : State) (m : Nat) : Canonical (thermDown s m) ↔ Canonical s :=
  canonical_of_mem (thermDown_keeps _ _ .mem (by decide))
@[simp] theorem setFault_canonical (s : State) (k : Nat) (on : Bool) : Canonical (setFault s k on) ↔ Canonical s :=
  canonical_of_mem (setFault_keeps _ _ _ .mem (by decide))
@[simp] theorem endWrite_canonical (s : State) (a : W64) (ok : Bool) : Canonical (endWrite s a ok) ↔ Canonical s :=
  canonical_of_mem (endWrite_keeps _ _ _ .mem (by decide))
@[simp] theorem runDue_canonical (s : State) (c : Nat) : Canonical (runDue s c) ↔ Canonical s :=
  canonical_of_mem (runDue_keeps _ _ .mem (by decide))
@[simp] theorem setNext_canonical (s : State) (v : Nat) : Canonical (setNext s v) ↔ Canonical s :=
  canonical_of_mem (setNext_keeps _ _ .mem (by decide))
@[simp] theorem stageTest_canonical (runs : List (CoreIx × List KatRun)) (s : State) (c : Nat) :
    Canonical (stageTest runs s c) ↔ Canonical s :=
  canonical_of_mem (stageTest_keeps _ _ _ .mem (by decide))
@[simp] theorem dbgSnap_canonical (s : State) (late : Bool) : Canonical (dbgSnap s late) ↔ Canonical s :=
  canonical_of_mem (dbgSnap_keeps _ _ .mem (by decide))
@[simp] theorem debugHalt_canonical (s : State) (p : Nat) : Canonical (debugHalt s p) ↔ Canonical s :=
  canonical_of_mem (debugHalt_keeps _ _ .mem (by decide))
@[simp] theorem maintEnd_canonical (s : State) (a unit sub : Nat) : Canonical (maintEnd s a unit sub) ↔ Canonical s :=
  canonical_of_mem (maintEnd_keeps _ _ _ _ .mem (by decide))
@[simp] theorem startHalt_canonical (s : State) (cause : Nat) : Canonical (startHalt s cause) ↔ Canonical s :=
  canonical_of_mem (startHalt_keeps _ _ .mem (by decide))
@[simp] theorem pollLater_canonical (s : State) (w : Nat) : Canonical (pollLater s w) ↔ Canonical s :=
  canonical_of_mem (pollLater_keeps _ _ .mem (by decide))
@[simp] theorem readNow_canonical (s : State) (fn off size : Nat) : Canonical (readNow s fn off size) ↔ Canonical s :=
  canonical_of_mem (readNow_keeps _ _ _ _ .mem (by decide))
@[simp] theorem endBegin_canonical (s : State) (n : Nat) (ok : Bool) : Canonical (endBegin s n ok) ↔ Canonical s :=
  canonical_of_mem (endBegin_keeps _ _ _ .mem (by decide))
@[simp] theorem askAdmission_canonical (s : State) (c h r : Nat) (feedersReady : Bool) :
    Canonical (askAdmission s c h r feedersReady) ↔ Canonical s :=
  canonical_of_mem (askAdmission_keeps _ _ _ _ _ .mem (by decide))
@[simp] theorem gangAnnounce_canonical (s : State) (w id : Nat) (resume : Bool) : Canonical (gangAnnounce s w id resume) ↔ Canonical s :=
  canonical_of_mem (gangAnnounce_keeps _ _ _ _ .mem (by decide))
@[simp] theorem commandHint_canonical (s : State) (w : Nat) (words : List W64) : Canonical (commandHint s w words) ↔ Canonical s :=
  canonical_of_mem (commandHint_keeps _ _ _ .mem (by decide))
@[simp] theorem harpFault_canonical (s : State) (c h : Nat) : Canonical (harpFault s c h) ↔ Canonical s :=
  canonical_of_mem (harpFault_keeps _ _ _ .mem (by decide))
@[simp] theorem issuePeer_canonical (s : State) (l m : Nat) (msg : Msg) (pa : Nat) (data : List Byte) (last : Bool) (part : Nat) :
    Canonical (issuePeer s l m msg pa data last part) ↔ Canonical s :=
  canonical_of_mem (issuePeer_keeps _ _ _ _ _ _ _ _ .mem (by decide))

@[simp] theorem withPending_canonical (s : State) (q : List Instr) : Canonical (s.withPending q) ↔ Canonical s :=
  canonical_of_mem (withPending_keeps _ _ .mem (by decide))

/-! ### What waits to be taken, and what an operation may answer -/

theorem takeMsg_canonical {s t : State} {l : Nat} {control : Bool} {p : Msg → Bool} {m : Msg} (h : takeMsg s l control p = some (m, t)) :
    Canonical t ↔ Canonical s := canonical_of_mem (takeMsg_keeps s l control p m t h .mem (by decide))

theorem takeControl_canonical {s t : State} {l sub : Nat} {m : Msg} (h : takeControl s l sub = some (m, t)) :
    Canonical t ↔ Canonical s := canonical_of_mem (takeControl_keeps s l sub m t h .mem (by decide))

theorem takeNotice_canonical {s t : State} {l bits : Nat} {m : Msg} (h : takeNotice s l bits = some (m, t)) :
    Canonical t ↔ Canonical s := canonical_of_mem (takeNotice_keeps s l bits m t h .mem (by decide))

theorem deliver_canonical {s t : State} {r : HeldRec} (h : deliver s r = some t) : Canonical t ↔ Canonical s :=
  canonical_of_mem (deliver_keeps s r t h .mem (by decide))

theorem maintStart_canonical {s t : State} {a unit sub : Nat} (h : maintStart s a unit sub = some t) : Canonical t ↔ Canonical s :=
  canonical_of_mem (maintStart_keeps s a unit sub t h .mem (by decide))

/-- A footprint registers or faults without touching memory (R144, R145). -/
theorem register_ok_canonical {s t : State} {c : Nat} {fs : List Footprint} (h : register s c fs = .ok t) : Canonical t ↔ Canonical s :=
  canonical_of_mem ((register_accounts h).agree .mem (by decide))

theorem register_faults_canonical {s t : State} {c : Nat} {fs : List Footprint} (h : register s c fs = .faults t) :
    Canonical t ↔ Canonical s := by
  unfold register at h
  dsimp only at h
  repeat' split at h
  all_goals cases h
  exact canonical_of_mem (overlapFault_keeps _ _ _ _ _ _ .mem (by decide))

@[simp] theorem refuseSpdm_canonical {s : State} (hs : Canonical s) (fn : Nat) : AnswersCanonical (refuseSpdm s fn) := by
  simp [refuseSpdm, hs]

@[simp] theorem tdisp_canonical {s : State} (hs : Canonical s) (p : Nat) {r : State → Res} (hr : AnswersCanonical (r s)) :
    AnswersCanonical (tdisp s p r) := by
  unfold tdisp
  split
  · exact hr
  · simp [hs]

end Sys2Proof.Proofs
end

section
/-!
PROOFS. The operations that write, mark or clear memory keep its form (R146, R161, R177, R187, R217, R222).
-/
namespace Sys2Proof.Proofs
open Sys2Proof.Machine Sys2Proof.Safety Sys2Proof.Laws

/-! ### Lines and slices -/

section
variable {s : State} (hs : Canonical s)
include hs

@[simp] theorem evictDown_canonical (n line : Nat) : Canonical (evictDown s n line) := by
  unfold evictDown
  dsimp only
  split_ifs <;> simp [memMark_wf, hs]

@[simp] theorem evict_canonical (line : Nat) (x : SLine) : Canonical (evict s line x) := by
  unfold evict
  dsimp only
  repeat' split
  all_goals simp [memMark_wf, hs]

@[simp] theorem allocate_canonical (line : Nat) (dirty : Bool) : Canonical (allocate s line dirty) := by
  unfold allocate
  dsimp only
  repeat' split
  all_goals simp [hs]

@[simp] theorem touchLine_canonical (line : Nat) (isWrite : Bool) : Canonical (touchLine s line isWrite) := by
  unfold touchLine
  repeat' split
  all_goals simp [hs]

@[simp] theorem touch_canonical (pa n : Nat) (isWrite : Bool) : Canonical (touch s pa n isWrite) :=
  canonical_foldl_of (fun _ l hu => touchLine_canonical hu l isWrite) _ hs

@[simp] theorem sliceRd_canonical (who : Requester) (va w : Option Nat) (pa n : Nat) : Canonical (sliceRd s who va w pa n) := by
  simp [sliceRd, hs]

@[simp] theorem fillPart_canonical (pa n : Nat) : Canonical (fillPart s pa n) := by
  unfold fillPart
  refine canonical_foldl_of (fun u l hu => ?_) _ hs
  split
  · exact memMark_wf _ _ hu
  · exact hu

@[simp] theorem landMem_canonical (pa : Nat) (data : List Byte) (bad : Bool) : Canonical (landMem s pa data bad) :=
  canonical_foldl_of (fun u x hu => by split <;> simp [memWrite_wf, hu]) _ hs

@[simp] theorem sliceWr_canonical (who : Requester) (va w : Option Nat) (pa : Nat) (data : List Byte) (bad : Bool) :
    Canonical (sliceWr s who va w pa data bad) := by
  have hwatch : Canonical (watchMem s 2 who va w pa data.length) := by simp [hs]
  have htouch := touch_canonical (fillPart_canonical hwatch pa data.length) pa data.length true
  simp [sliceWr, htouch]

@[simp] theorem sliceAtom_canonical (who : Requester) (va w : Option Nat) (pa : Nat) (op : AtomicOp) (x cmp : W64) (bad : Bool) :
    Canonical (sliceAtom s who va w pa op x cmp bad).1 := by
  unfold sliceAtom
  dsimp only
  split <;> simp [hs]

@[simp] theorem markBad_canonical (line : Nat) : Canonical (markBad s line) := by
  unfold markBad
  split_ifs <;> simp [memMark_wf, hs]

@[simp] theorem garbleLine_canonical (line : Nat) : Canonical (garbleLine s line) := by
  unfold garbleLine
  split
  · exact hs
  · dsimp only
    refine memWrite_wf _ _ _ _ (List.foldlRecOn (motive := fun a : List W64 × State => Canonical a.2) _ _ hs
      (fun a ha _ _ => ?_))
    simpa using ha

@[simp] theorem eccUncorrectable_canonical (line d0 : Nat) : Canonical (eccUncorrectable s line d0) := by
  have hbad := markBad_canonical hs line
  unfold eccUncorrectable
  dsimp only
  split <;> simp [hbad]

@[simp] theorem eccNear_canonical (line d0 : Nat) (m : Medium) : Canonical (eccNear s line d0 m) := by
  unfold eccNear
  dsimp only
  repeat' split
  all_goals simp [hs]

@[simp] theorem eccIn_canonical (line : Nat) (m : Medium) (d0 : Nat) (p : Place) : Canonical (eccIn s line m d0 p) := by
  cases p with
  | near => exact eccNear_canonical hs line d0 m
  | cxl n =>
    unfold eccIn
    dsimp only
    split_ifs <;> simp [hs]
  | host => exact hs
  | absent => exact hs

@[simp] theorem eccFound_canonical (line : Nat) (m : Medium) (d0 : Nat) : Canonical (eccFound s line m d0) := eccIn_canonical hs line m d0 _

@[simp] theorem eccRead_canonical (pa n : Nat) (m : Medium) (d0 : Nat) : Canonical (eccRead s pa n m d0) := by
  unfold eccRead
  split <;> simp [hs]

@[simp] theorem eccWrite_canonical (pa n : Nat) (m : Medium) (d0 : Nat) : Canonical (eccWrite s pa n m d0) := by
  unfold eccWrite
  split <;> simp [hs]

@[simp] theorem learn_canonical (who : Option Nat) (p va : Nat) (write hostOk : Bool) (w : Option Nat) :
    Canonical (learn s who p va write hostOk w) := by
  have hwalk := canonical_foldl_of (f := fun u a => sliceRd u .dtu none w a 8) (fun u a hu => sliceRd_canonical hu .dtu none w a 8)
    (walkReads s p va) hs
  unfold learn
  split
  · split <;> simp [hs]
  · dsimp only
    split <;> simp [hwalk]

@[simp] theorem learnRange_canonical (who : Option Nat) (p va n : Nat) (write hostOk : Bool) (w : Option Nat) :
    Canonical (learnRange s who p va n write hostOk w) :=
  canonical_foldl_of (fun _ a hu => learn_canonical hu who p a write hostOk w) _ hs

@[simp] theorem issueVirtual_canonical (src : Src) (w p va : Nat) (data : List Byte) (poison final : Bool) (core : Option Nat) :
    Canonical (issueVirtual s src w p va data poison final core) := by
  unfold issueVirtual
  dsimp only
  split
  · simp [hs]
  · exact canonical_foldl_fst (fun b x hb => by simpa using hb) _ (by simp [hs])

end

/-! ### Operations that write memory: accesses of the host -/

section
variable {s : State} (hs : Canonical s)
include hs

@[simp] theorem writePieces_canonical (ps : List (Nat × Nat)) (data : List Byte) : Canonical (writePieces s ps data) := by
  induction ps generalizing s data with
  | nil => exact hs
  | cons x ps ih => exact ih (canonical_mk.mpr (memWrite_wf _ _ _ _ hs)) _

@[simp] theorem endImport_canonical (p : Nat) (i : Import) : Canonical (endImport s p i) := by
  simp [endImport, hs]

@[simp] theorem openSome_canonical (p : Nat) (i : Import) (n : Nat) : Canonical (openSome s p i n) := by
  have hset : ∀ j v, Canonical (wr (setImport s p (some j)) R.SEC_IMP_STATUS_PROGRESS p 0 v) := by simp [hs]
  unfold openSome
  dsimp only
  split
  · simp [hs]
  · split_ifs
    · exact hset _ _
    · simp [hset]
    · exact endImport_canonical (hset _ _) _ _

@[simp] theorem clearPieces_canonical (ps : List (Nat × Nat)) : Canonical (clearPieces s ps) :=
  canonical_mk.mpr (List.foldlRecOn (motive := fun m : Memory => m.wf = true) ps _ hs (fun m hm _ _ => memClear_wf m _ _ hm))

@[simp] theorem clearPart_canonical (p o n : Nat) : Canonical (clearPart s p o n) := clearPieces_canonical hs _

@[simp] theorem endClear_canonical (p : Nat) : Canonical (endClear s p) := by
  unfold endClear
  split <;> simp [hs]

omit hs in
theorem hostPiece_canonical (fn : Nat) {a : State × List Byte × Bool} (ha : Canonical a.1) (at_ : Option Nat) (n : Nat) :
    Canonical (hostPiece fn a at_ n).1 := by
  unfold hostPiece
  split
  · exact ha
  · split
    · exact ha
    · simp [ha]

@[simp] theorem bar2ReadNow_canonical (fn off len : Nat) : Canonical (bar2ReadNow s fn off len) :=
  (emit_canonical ..).mpr (canonical_foldl_fst (fun _ _ ha => hostPiece_canonical fn ha _ _) _ hs)

@[simp] theorem bar4ReadNow_canonical (fn off len : Nat) : Canonical (bar4ReadNow s fn off len) :=
  (emit_canonical ..).mpr (canonical_foldl_fst (fun _ _ ha => hostPiece_canonical fn ha _ _) _ hs)

@[simp] theorem atomicNow_canonical (fn off : Nat) (op : AtomicOp) (x cmp : W64) : Canonical (atomicNow s fn off op x cmp) := by
  unfold atomicNow
  split <;> simp [hs]

omit hs in
theorem debugPiece_canonical {a : State × List Byte × Bool} (ha : Canonical a.1) (pc : Nat × Nat × Nat) : Canonical (debugPiece a pc).1 := by
  unfold debugPiece
  split
  · exact ha
  · dsimp only
    split <;> simp [ha]

@[simp] theorem debugRead_canonical (p o n : Nat) : Canonical (debugRead s p o n) :=
  (emit_canonical ..).mpr (canonical_foldl_fst (fun _ _ ha => debugPiece_canonical ha _) _ hs)

@[simp] theorem debugWrite_canonical (p o : Nat) (data : List Byte) : Canonical (debugWrite s p o data) := by
  refine canonical_foldl_of (fun u pc hu => ?_) _ hs
  split <;> simp [hu]

/-! ### Operations that write memory: the KV-cache unit -/

@[simp] theorem kvStore_canonical (stack : Nat) (w : Option Nat) (pa : Nat) (data : List Byte) (bad : Bool) :
    Canonical (kvStore s stack w pa data bad) := sliceWr_canonical hs ..

@[simp] theorem kvJournal_canonical (r stack : Nat) : Canonical (kvJournal s r stack) :=
  kvStore_canonical ((freeBytes_canonical s 512).mpr hs) ..

@[simp] theorem kvMeta_canonical (r n : Nat) : Canonical (kvMeta s r n) :=
  kvStore_canonical (kvStore_canonical ((freeBytes_canonical ..).mpr (kvJournal_canonical hs ..)) ..) ..

@[simp] theorem setKvCount_canonical (r n v : Nat) : Canonical (setKvCount s r n v) :=
  kvMeta_canonical ((onKvReg_canonical ..).mpr hs) r n

@[simp] theorem kvStamp_canonical (r n : Nat) : Canonical (kvStamp s r n) := kvMeta_canonical ((onKvReg_canonical ..).mpr hs) r n

@[simp] theorem kvPop_canonical (r u : Nat) : Canonical (kvPop s r u).1 := by
  unfold kvPop
  split
  · exact hs
  · extract_lets g popped fires warned marked posted
    have hpopped : Canonical popped := kvMeta_canonical ((setKvNear_canonical ..).mpr hs) ..
    clear_value popped
    unfold posted
    split <;> simp [marked, warned, hpopped]

@[simp] theorem kvLeaf_canonical (r stack : Nat) (w : Option Nat) (k : Nat) (page : Option Nat) :
    Canonical (kvLeaf s r stack w k page) := by
  unfold kvLeaf
  dsimp only
  split <;> simp [hs]

@[simp] theorem kvBlock_canonical (r stack : Nat) (w : Option Nat) (blk : Nat) (tab : Option Nat) :
    Canonical (kvBlock s r stack w blk tab) := by
  unfold kvBlock
  dsimp only
  rw [onKvReg_canonical, dropXlat_canonical]
  split <;> simp [hs]

@[simp] theorem kvClearRange_canonical (g : KvGeo) : Canonical (kvClearRange s g) := by
  refine (dropXlat_canonical ..).mpr (canonical_foldl_of (fun u i hu => ?_) _ hs)
  split
  · exact landMem_canonical hu ..
  · exact hu

@[simp] theorem kvCopy_canonical (stack : Nat) (w : Option Nat) (src dst n : Nat) : Canonical (kvCopy s stack w src dst n) :=
  canonical_foldl_of (fun _ _ hu => kvStore_canonical (sliceRd_canonical hu ..) ..) _ hs

@[simp] theorem kvFreePage_canonical (r n : Nat) : Canonical (kvFreePage s r n) := by
  have hcount := setKvCount_canonical hs r n 0
  unfold kvFreePage
  dsimp only
  split_ifs <;> simp [hcount]

@[simp] theorem kvTrim_canonical (r q len : Nat) (w : Option Nat) : Canonical (kvTrim s r q len w) := by
  refine canonical_foldl_of (fun u k hu => ?_) _ hs
  split
  · exact hu
  · have hleaf := kvLeaf_canonical hu r (stackOfRank s (kvUnit s q)) w k none
    rw [onKvSeq_canonical]
    split <;> simp [hleaf]

omit hs in
theorem kvFinish_canonical (o : KvOp) (stack q r : Nat) {e : KvEnd} (he : Canonical e.s) : Canonical (kvFinish s o stack q r e) := by
  have hend : ∀ u : State, Canonical u → Canonical (match e.outcome, e.fault with
      | _, some (fva, f) => xlateFail u o.ring (ringPart s o.ring) fva e.lost none f
      | 1, none => noteCause u o.ring 0x19
      | 2, none => noteCause u o.ring 0x1A
      | 3, none => if e.status = 0 then u else failCmd u o.ring e.status 0
      | _, none => u) := fun u hu => by split <;> simp [hu]
  unfold kvFinish
  dsimp only
  refine hend _ ?_
  split
  · simp [he]
  · split <;> simp [he]

theorem kvPutRec_canonical {t : State} {r q : Nat} {w : Option Nat} {final : Bool} (h : kvPutRec s r q w final = .ok t) : Canonical t := by
  unfold kvPutRec at h
  dsimp only at h
  split at h
  · cases h
  · split at h <;> cases h <;> simp [hs]

theorem kvServe_canonical (op n : Nat) {body : State → KvOp → Nat → Nat → KvEnd}
    (hbody : ∀ u o r q, Canonical u → Canonical (body u o r q).s) : AnswersCanonical (kvServe op n body s) := by
  unfold kvServe
  split
  · exact hs
  · extract_lets r q u _ t bad e
    have ht : Canonical t := by simp [t, hs]
    have he : Canonical e.s := by
      clear_value t bad
      unfold e
      repeat' split
      all_goals simp [kvFail, hbody, ht]
    clear_value e
    split
    · exact hs
    · rw [answersCanonical_next]
      split
      · exact hs
      · exact kvFinish_canonical _ _ _ _ he

/-! ### Operations that write memory: flights, sequencers and data movers -/

@[simp] theorem landFlight_canonical (f : Flight) : Canonical (landFlight s f) := by
  unfold landFlight
  dsimp only
  repeat' split
  all_goals simp [hs]

@[simp] theorem gatherErrBy_canonical (who : Requester) (core : Option Nat) (w mode va rowBase colBase : Nat) (items : List ErrItem) :
    Canonical (gatherErrBy s who core w mode va rowBase colBase items) := by
  refine canonical_foldl_of (fun u k hu => ?_) _ hs
  dsimp only
  split
  · simp [hu]
  · split
    · simp [hu]
    · exact canonical_mk.mpr (addEntry_wf _ _ _ (touch_canonical (by simp [hu]) ..))

@[simp] theorem gatherErr_canonical (c w mode va rowBase colBase : Nat) (items : List ErrItem) :
    Canonical (gatherErr s c w mode va rowBase colBase items) := gatherErrBy_canonical hs ..

theorem sliceRds_canonical {α : Type} (who : Requester) (va w : Option Nat) (pa n : α → Nat) (l : List α) :
    Canonical (l.foldl (fun u q => sliceRd u who va w (pa q) (n q)) s) :=
  canonical_foldl_of (fun _ _ hu => sliceRd_canonical hu ..) _ hs

@[simp] theorem copyOut_canonical (w p m : Nat) (d : List W64) (row : Nat) (bytes : List Byte) (poison : Nat → Bool) :
    Canonical (copyOut s w p m d row bytes poison) := by
  unfold copyOut
  dsimp only
  split
  · simp [hs]
  · refine canonical_foldl_of (fun u r hu => ?_) _ hs
    split <;> simp [hu]

omit hs in
theorem copyPiece_canonical (w p m : Nat) (d : List W64) (row : Nat) {st : State × Nat} (hst : Canonical st.1) (q : Nat × Nat) :
    Canonical (copyPiece w p m d row st q).1 := by
  unfold copyPiece
  dsimp only
  split <;> simp [hst]

@[simp] theorem copyRow_canonical (w p m : Nat) (d : List W64) (overlap : Bool) (row : Nat) : Canonical (copyRow s w p m d overlap row) := by
  unfold copyRow
  dsimp only
  split
  · simp [hs]
  · split
    · simp [hs]
    · split
      · simp [hs]
      · split
        · exact canonical_foldl_fst (fun _ q hst => copyPiece_canonical w p m d row hst q) _ (by simp [hs])
        · have hread := sliceRds_canonical (α := Nat × Nat)
            (learnRange_canonical hs (some m) p (cpSrc d + row * cpSrcStride d) (cpBytes d) false true (some w))
          refine copyOut_canonical ?_ ..
          split <;> simp [hread]

@[simp] theorem moveIn_canonical (r : HostRead) (bytes : List Byte) (bad : Bool) : Canonical (moveIn s r bytes bad) := by
  unfold moveIn
  dsimp only
  split
  · simp [hs]
  · split <;> simp [hs]
  · exact canonical_foldl_of (fun _ _ hu => issueVirtual_canonical hu ..) _ hs
  · exact hs

@[simp] theorem readReturned_canonical (r : HostRead) (bytes : List Byte) (bad : Bool) : Canonical (readReturned s r bytes bad) := by
  unfold readReturned
  split
  · dsimp only
    split <;> simp [hs]
  · simp [hs]
  · split <;> simp [hs]

theorem moverRead_canonical {c w p va n : Nat} {x : State × List Byte × List (Nat × Nat)} (h : moverRead s c w p va n = .ok x) :
    Canonical x.1 := by
  unfold moverRead at h
  dsimp only at h
  split at h
  · cases h
  · cases h
    exact sliceRds_canonical (learnRange_canonical hs ..) ..

theorem coreLoad_canonical {c va : Nat} {cached : Bool} {t : State} (h : coreLoad s c va cached = some t) : Canonical t := by
  revert h
  unfold coreLoad
  extract_lets x w p a hit n at_ u counted
  have hhit : Canonical hit := (count_canonical ..).mpr hs
  have hu : Canonical u := learn_canonical hs ..
  clear_value hit u at_
  split
  · extract_lets v loaded
    rintro ⟨⟩
    split <;> simp [loaded, hhit]
  · split
    · rintro ⟨⟩
    split
    · rintro ⟨⟩
      simp [hu]
    · split
      · rintro ⟨⟩
        simp [hu]
      · extract_lets read
        have hread : Canonical read := by
          refine sliceRd_canonical ?_ ..
          unfold counted
          split <;> simp [hu]
        clear_value read
        split
        extract_lets own v loaded
        have hloaded : Canonical loaded := (onCore_canonical ..).mpr hread
        clear_value loaded
        rintro ⟨⟩
        split <;> simp [hloaded]

@[simp] theorem learnEntry_canonical (p w : Nat) (e : List W64) : Canonical (learnEntry s p w e) :=
  learnRange_canonical (learnRange_canonical hs ..) ..

@[simp] theorem loadCore_canonical (w : Nat) (cmd : Cmd) (i : Nat) (e : List W64) (ks ps : List (Nat × Nat)) :
    Canonical (loadCore s w cmd i e ks ps) := by
  unfold loadCore
  extract_lets c cleared named traced kernel pre found stored bad chain dlist active
  have hcleared : Canonical cleared := by
    unfold cleared
    split <;> simp [hs]
  have hpre : Canonical pre := sliceRds_canonical (sliceRds_canonical (by simp [traced, named, hcleared]) ..) ..
  have hfound : Canonical found := by
    clear_value pre
    unfold found
    split <;> simp [hpre]
  clear_value found
  simp [active, stored, hfound]

@[simp] theorem issueNext_canonical (w : Nat) (c : Cmd) : Canonical (issueNext s w c) := by
  unfold issueNext
  dsimp only
  split
  · simp [hs]
  · have hread := sliceRds_canonical (α := Nat × Nat) (learnRange_canonical hs none (ringPart s w) (kvOpsVa c) 48 false false (some w))
    split
    · simp [hread]
    · split <;> simp [hread]

/-! ### Operations that write memory: resets, tests and repairs -/

@[simp] theorem replayRegion_canonical (r : Nat) (mine : Nat → Bool) : Canonical (replayRegion s r mine) := by
  unfold replayRegion
  split
  · exact hs
  · refine canonical_foldl_of (fun u q hu => ?_) _ hs
    split
    · exact hu
    · split <;> simp [hu]

@[simp] theorem replayPartition_canonical (p : Nat) : Canonical (replayPartition s p) := by
  refine canonical_foldl_of (fun u r hu => ?_) _ hs
  split <;> simp [hu]

@[simp] theorem endStop_canonical (p : Nat) : Canonical (endStop s p) := by
  unfold endStop
  split <;> simp [hs]

@[simp] theorem finishPartition_canonical (p : Nat) : Canonical (finishPartition s p) := by
  refine endStop_canonical ?_ p
  rw [absorbCore_canonical, wr_canonical]
  split <;> simp [hs]

omit hs in
theorem testRow_canonical {a : State × Nat × Nat} (ha : Canonical a.1) (e : BankRow × Nat) : Canonical (testRow a e).1 := by
  unfold testRow
  extract_lets left t marked logged
  have ht : Canonical t := by simp [t, ha]
  clear_value t
  split
  · exact ht
  · have hmarked : ∀ l : List Nat, (l.foldl memMark t.mem).wf = true := fun l =>
      List.foldlRecOn (motive := fun m : Memory => m.wf = true) l memMark ht (fun m hm x _ => memMark_wf m x hm)
    have hlogged : Canonical logged := by simp [logged, marked, hmarked]
    clear_value logged
    dsimp only
    split <;> simp [hlogged]

end

/-- The state after reset has memory of zeros. -/
@[simp] theorem reset_canonical : Canonical State.reset := rfl

@[simp] theorem moduleReset_canonical (s : State) : Canonical (moduleReset s) := by
  rw [moduleReset, readFlash_canonical]
  exact reset_canonical

@[simp] theorem shutDown_canonical (s : State) (why : Nat) : Canonical (shutDown s why) := by
  rw [shutDown, canonical_mk, mem_wf_iff]
  exact moduleReset_canonical _

section
variable {s : State} (hs : Canonical s)
include hs

/-! ### Operations of the KV-cache unit -/

@[simp] theorem kvFail_canonical (code : Nat) : Canonical (kvFail s code).s := hs

@[simp] theorem kvDone_canonical (flags pages : Nat) : Canonical (kvDone s flags pages).s := hs

@[simp] theorem kvDemote_canonical (r u : Nat) (w : Option Nat) (k n : Nat) : Canonical (kvDemote s r u w k n).s := by
  unfold kvDemote
  extract_lets g stack q
  split
  · exact hs
  · split
    · exact hs
    · extract_lets free page slot leaf counted stamped moved noted
      have hslot : Canonical slot := kvCopy_canonical (kvCopy_canonical (kvMeta_canonical ((setKvFar_canonical ..).mpr hs) ..) ..) ..
      have hcounted : Canonical counted := setKvCount_canonical (setKvCount_canonical (kvLeaf_canonical hslot ..) ..) ..
      have hnoted : Canonical noted := by simp [noted, moved, stamped, hcounted]
      clear_value noted
      split
      · exact kvPutRec_canonical hnoted ‹_›
      · exact kvFreePage_canonical hnoted ..

@[simp] theorem kvTake_canonical (r u : Nat) (w : Option Nat) (keep : List Nat) : Canonical (kvTake s r u w keep).s := by
  have hpop : ∀ {t u : State} {v : Nat} {n : Option Nat}, Canonical t → kvPop t r v = (u, n) → Canonical u := fun {t u v n} ht h => by
    simpa [h] using kvPop_canonical ht r v
  unfold kvTake
  extract_lets g
  split
  · exact hpop hs ‹_›
  · next t heq =>
    have ht : Canonical t := hpop hs heq
    extract_lets v
    have hborrow : Canonical (if g.borrow then kvPop t r v else (t, none)).1 := by split <;> simp [ht]
    split
    · next heq => simpa [heq] using hborrow
    · next heq =>
      rw [heq] at hborrow
      split
      · exact kvDemote_canonical hborrow ..
      · exact hborrow

@[simp] theorem kvTakeAll_canonical (r u : Nat) (w : Option Nat) (keep : List Nat) (n : Nat) (got : List Nat) (fl : Nat) :
    Canonical (kvTakeAll s r u w keep n got fl).s := by
  induction n generalizing s got fl with
  | zero => exact hs
  | succ n ih =>
    have htake := kvTake_canonical hs r u w keep
    unfold kvTakeAll
    dsimp only
    split
    · exact ih htake ..
    · exact canonical_foldl_of (fun _ p hu => kvFreePage_canonical hu r p) _ htake

@[simp] theorem kvOpenSeq_canonical (r q len : Nat) (w : Option Nat) (keep : List Nat) : Canonical (kvOpenSeq s r q len w keep).s := by
  unfold kvOpenSeq
  extract_lets g u stack x mapped opened
  have hx : Canonical x.s := kvTakeAll_canonical hs ..
  split
  · exact hx
  · exact (addSat_canonical ..).mpr ((onKvSeq_canonical ..).mpr
      (canonical_foldl_of (fun _ _ hu => kvBlock_canonical (kvStore_canonical hu ..) ..) _ hx))

@[simp] theorem kvPageFor_canonical (r q k : Nat) (w : Option Nat) (keep : List Nat) : Canonical (kvPageFor s r q k w keep).s := by
  unfold kvPageFor
  extract_lets g u stack map fresh row
  have hmap : ∀ {t : State} n, Canonical t → Canonical (map t n) := fun n ht => setKvCount_canonical (kvLeaf_canonical ht ..) ..
  have hfresh : Canonical fresh.s := kvTake_canonical hs ..
  split
  · split
    · exact hfresh
    · exact (onKvSeq_canonical ..).mpr (hmap _ hfresh)
  · extract_lets far shared x t m
    have hx : Canonical t := kvTake_canonical hs ..
    split
    · exact hs
    split
    · exact hx
    extract_lets copied mapped c freed moved
    have hcopied : Canonical copied := by
      unfold copied
      split
      · refine canonical_foldl_of (fun u c hu => ?_) _ hx
        dsimp only
        split
        · exact canonical_foldl_of (fun _ _ hu => kvCopy_canonical hu ..) _ (kvCopy_canonical hu ..)
        · exact kvCopy_canonical hu ..
      · exact kvCopy_canonical (kvCopy_canonical hx ..) ..
    have hmapped : Canonical mapped := hmap _ hcopied
    clear_value mapped
    have hfreed : Canonical freed := by
      unfold freed
      split <;> simp [hmapped]
    clear_value freed
    change Canonical moved
    unfold moved
    split <;> simp [hfreed]

omit hs in
theorem kvPutPos_canonical {a : KvAcc} (ha : Canonical a.s) (g : KvGeo) (stack : Nat) (w : Option Nat) (page pos src : Nat) (rtz : Bool)
    (ps : List (Nat × Nat)) (bytes : List Byte) (base : Nat) : Canonical (kvPutPos a g stack w page pos src rtz ps bytes base).s := by
  have hblock : ∀ (a : KvAcc) c j data bad, Canonical a.s → Canonical (kvPutBlock a g stack w page pos c j src rtz data bad).s :=
    fun a c j data bad ha => canonical_foldl_of (fun _ _ hu => kvStore_canonical hu ..) _ (kvStore_canonical ha ..)
  exact List.foldlRecOn (motive := fun a : KvAcc => Canonical a.s) _ _ ha fun a ha c _ =>
    List.foldlRecOn (motive := fun a : KvAcc => Canonical a.s) _ _ ha fun a ha j _ => hblock a _ _ _ _ ha

omit hs in
theorem lack_canonical {x : KvGot} (hx : Canonical x.s) : Canonical x.lack.s := by
  unfold KvGot.lack
  split <;> exact hx

omit hs in
theorem kvSealed_canonical {e : KvEnd} (he : Canonical e.s) (r q : Nat) (w : Option Nat) (final : Bool) :
    Canonical (kvSealed e r q w final).s := by
  unfold kvSealed
  split
  · exact kvPutRec_canonical he ‹_›
  · exact he

end

end Sys2Proof.Proofs
end

section
/-!
PROOFS. The commands that leave memory as it is.
-/
namespace Sys2Proof.Proofs
open Sys2Proof.Machine Sys2Proof.Safety Sys2Proof.Laws

theorem execPassIssue_canonical (c : CoreIx) (h : HarpIx) (desc : List W64) {s : State} (hs : Canonical s) :
    AnswersCanonical (execPassIssue c h desc s) := by
  simp [execPassIssue, hs]

theorem execPassHeadCheck_canonical (c : CoreIx) (h : HarpIx) {s : State} (hs : Canonical s) : AnswersCanonical
    (execPassHeadCheck c h s) := by
  unfold execPassHeadCheck
  dsimp only
  split
  · exact hs
  · split_ifs
    · exact hs
    · simp [hs]
    · simp [hs]
    · split
      · exact hs
      · simp [register_faults_canonical ‹_›, hs]
      · simp [register_ok_canonical ‹_›, hs]

theorem execSetFillStart_canonical (c : CoreIx) (h : HarpIx) {s : State} (hs : Canonical s) :
    AnswersCanonical (execSetFillStart c h s) := by
  unfold execSetFillStart
  dsimp only
  split <;> simp [hs]

theorem execSetFillDone_canonical (c : CoreIx) (h : HarpIx) {s : State} (hs : Canonical s) :
    AnswersCanonical (execSetFillDone c h s) := by
  unfold execSetFillDone
  dsimp only
  repeat' split
  all_goals simp [hs]

theorem execHarpKStep_canonical (c : CoreIx) (h : HarpIx) (frameCycle : Fin 16) (feedersReady : Bool) (upsets : List (Nat × Bool))
    {s : State} (hs : Canonical s) :
    AnswersCanonical (execHarpKStep c h frameCycle feedersReady s upsets) := by
  unfold execHarpKStep
  dsimp only
  repeat' split
  all_goals simp [hs]

theorem execSetDrainStart_canonical (c : CoreIx) (h : HarpIx) {s : State} (hs : Canonical s) : AnswersCanonical
    (execSetDrainStart c h s) := by
  unfold execSetDrainStart
  dsimp only
  split
  · exact hs
  · split
    · exact hs
    · split
      · exact hs
      · simp [register_faults_canonical ‹_›, hs]
      · simp [register_ok_canonical ‹_›, hs]

theorem execSetDrainDone_canonical (c : CoreIx) (h : HarpIx) {s : State} (hs : Canonical s) :
    AnswersCanonical (execSetDrainDone c h s) := by
  unfold execSetDrainDone
  dsimp only
  split <;> simp [hs]

theorem execHarpInternalError_canonical (c : CoreIx) (h : HarpIx) {s : State} (hs : Canonical s) :
    AnswersCanonical (execHarpInternalError c h s) := by
  simp [execHarpInternalError, hs]

theorem execEpilogueStart_canonical (c : CoreIx) (h : HarpIx) {s : State} (hs : Canonical s) :
    AnswersCanonical (execEpilogueStart c h s) := by
  unfold execEpilogueStart
  dsimp only
  split <;> simp [hs]

theorem execAcquireInvalidateDone_canonical (c : CoreIx) {s : State} (hs : Canonical s) :
    AnswersCanonical (execAcquireInvalidateDone c s) := by
  unfold execAcquireInvalidateDone
  split <;> simp [hs]

theorem execRangeInvalidate_canonical (c : CoreIx) (lo hi : Nat) {s : State} (hs : Canonical s) :
    AnswersCanonical (execRangeInvalidate c lo hi s) := by
  simp [execRangeInvalidate, hs]

theorem execRangeInvalidateDone_canonical (c : CoreIx) {s : State} (hs : Canonical s) :
    AnswersCanonical (execRangeInvalidateDone c s) := by
  unfold execRangeInvalidateDone
  split <;> simp [hs]

theorem execFence_canonical (c : CoreIx) {s : State} (hs : Canonical s) : AnswersCanonical (execFence c s) := by
  simp [execFence, hs]

theorem execFenceComplete_canonical (c : CoreIx) {s : State} (hs : Canonical s) : AnswersCanonical (execFenceComplete c s) := by
  unfold execFenceComplete
  split <;> simp [hs]

theorem execRemoteLoad_canonical (c : CoreIx) (m : Fin 32) (win : Fin 64) (off len : Nat) {s : State} (hs : Canonical s) :
    AnswersCanonical (execRemoteLoad c m win off len s) := by
  simp [execRemoteLoad, hs]

theorem execRemoteStore_canonical (c : CoreIx) (m : Fin 32) (win : Fin 64) (off : Nat) (data : List Byte) (final : Bool) {s : State}
    (hs : Canonical s) :
    AnswersCanonical (execRemoteStore c m win off data final s) := by
  simp [execRemoteStore, hs]

theorem execRemoteAtomic_canonical (c : CoreIx) (m : Fin 32) (win : Fin 64) (off : Nat) (op : AtomicOp) (operand comparand : W64)
    {s : State} (hs : Canonical s) :
    AnswersCanonical (execRemoteAtomic c m win off op operand comparand s) := by
  simp [execRemoteAtomic, hs]

theorem execPacketRelease_canonical (n : Nat) {s : State} (hs : Canonical s) : AnswersCanonical (execPacketRelease n s) := by
  unfold execPacketRelease
  split <;> simp [hs]

theorem execFinalWriteResend_canonical (n : Nat) {s : State} (hs : Canonical s) : AnswersCanonical (execFinalWriteResend n s) := by
  unfold execFinalWriteResend
  split <;> simp [hs]

theorem execFinalWriteSourceRelease_canonical (n : Nat) {s : State} (hs : Canonical s) :
    AnswersCanonical (execFinalWriteSourceRelease n s) := by
  unfold execFinalWriteSourceRelease
  split <;> simp [hs]

theorem execFinalTimeout_canonical (n : Nat) {s : State} (hs : Canonical s) : AnswersCanonical (execFinalTimeout n s) := by
  unfold execFinalTimeout
  dsimp only
  repeat' split
  all_goals simp [hs]

theorem execKernelBoundary_canonical (w : RingIx) {s : State} (hs : Canonical s) : AnswersCanonical (execKernelBoundary w s) := by
  unfold execKernelBoundary
  dsimp only
  repeat' split
  all_goals simp [hs]

theorem execGuardCommit_canonical (p : PartIx) {s : State} (hs : Canonical s) : AnswersCanonical (execGuardCommit p s) := by
  unfold execGuardCommit
  split <;> simp [hs]

theorem execGuardCopyDone_canonical (p : PartIx) {s : State} (hs : Canonical s) : AnswersCanonical (execGuardCopyDone p s) := by
  unfold execGuardCopyDone
  split <;> simp [hs]

theorem execOutputStageRelease_canonical (c : CoreIx) (h : HarpIx) {s : State} (hs : Canonical s) :
    AnswersCanonical (execOutputStageRelease c h s) := by
  unfold execOutputStageRelease
  split <;> simp [hs]

theorem execTileCreditTimeout_canonical (c : CoreIx) (h : Option HarpIx) {s : State} (hs : Canonical s) :
    AnswersCanonical (execTileCreditTimeout c h s) := by
  unfold execTileCreditTimeout
  dsimp only
  repeat' split
  all_goals simp [hs]

theorem execLandingSlotArm_canonical (c : CoreIx) (slot : Fin 16) (words : List W64) {s : State} (hs : Canonical s) :
    AnswersCanonical (execLandingSlotArm c slot words s) := by
  unfold execLandingSlotArm
  dsimp only
  split_ifs <;> simp [hs]

theorem execPassCreditWaitEnd_canonical (c : CoreIx) (h : HarpIx) {s : State} (hs : Canonical s) :
    AnswersCanonical (execPassCreditWaitEnd c h s) := by
  unfold execPassCreditWaitEnd
  split <;> simp [hs]

theorem execCreditArrive_canonical (n : Nat) {s : State} (hs : Canonical s) : AnswersCanonical (execCreditArrive n s) := by
  unfold execCreditArrive
  dsimp only
  repeat' split
  all_goals simp [hs]

theorem execGather_canonical (c : CoreIx) (desc : List W64) {s : State} (hs : Canonical s) : AnswersCanonical (execGather c desc s) := by
  unfold execGather
  dsimp only
  split
  · exact hs
  · split
    · simp [hs]
    · split
      · simp [hs]
      · simp [register_faults_canonical ‹_›, hs]
      · split
        · simp [register_ok_canonical ‹_›, hs]
        · split <;> simp [register_ok_canonical ‹_›, hs]

theorem execChannelRetrainDone_canonical (k : StackIx) (ch : ChanIx) (ok : Bool) {s : State} (hs : Canonical s) :
    AnswersCanonical (execChannelRetrainDone k ch ok s) := by
  unfold execChannelRetrainDone
  dsimp only
  split_ifs <;> simp [hs]

theorem execMemCommit_canonical {s : State} (hs : Canonical s) : AnswersCanonical (execMemCommit s) := by
  simp [execMemCommit, hs]

theorem execCchFlushStart_canonical {s : State} (hs : Canonical s) : AnswersCanonical (execCchFlushStart s) := by
  unfold execCchFlushStart
  split <;> simp [hs]

theorem execCchFlushDone_canonical {s : State} (hs : Canonical s) : AnswersCanonical (execCchFlushDone s) := by
  simp [execCchFlushDone, hs]

theorem execCchWayCommit_canonical {s : State} (hs : Canonical s) : AnswersCanonical (execCchWayCommit s) := by
  unfold execCchWayCommit
  dsimp only
  split <;> simp [hs]

theorem execCxlPortDown_canonical (n : PortIx) (cause : Nat) {s : State} (hs : Canonical s) :
    AnswersCanonical (execCxlPortDown n cause s) := by
  simp [execCxlPortDown, hs]

theorem execCxlPortUp_canonical (n : PortIx) (type3 mediaReady : Bool) (gib rate width vendor : Nat) {s : State} (hs : Canonical s) :
    AnswersCanonical (execCxlPortUp n type3 mediaReady gib rate width vendor s) := by
  unfold execCxlPortUp
  dsimp only
  split_ifs <;> simp [hs]

theorem execCxlPortReset_canonical (n : PortIx) {s : State} (hs : Canonical s) : AnswersCanonical (execCxlPortReset n s) := by
  unfold execCxlPortReset
  split <;> simp [hs]

theorem execCxlEventLogRead_canonical (n : PortIx) (events : List (Nat × W64)) {s : State} (hs : Canonical s) :
    AnswersCanonical (execCxlEventLogRead n events s) := by
  unfold execCxlEventLogRead
  split <;> simp [hs]

theorem execDtuWalk_canonical (who : Requester) (ctx : PartIx) (va : Nat) (write : Bool) {s : State} (hs : Canonical s) :
    AnswersCanonical (execDtuWalk who ctx va write s) := by
  simp [execDtuWalk, hs]

theorem execDtuInvalidate_canonical (fn : FnIx) (v : W64) {s : State} (hs : Canonical s) :
    AnswersCanonical (execDtuInvalidate fn v s) := by
  simp [execDtuInvalidate, hs]

theorem execDtuInvalidateDone_canonical {s : State} (hs : Canonical s) : AnswersCanonical (execDtuInvalidateDone s) := by
  unfold execDtuInvalidateDone
  dsimp only
  repeat' split
  all_goals simp [hs]

theorem execDtuCtxRootWrite_canonical (p : PartIx) (v : W64) {s : State} (hs : Canonical s) :
    AnswersCanonical (execDtuCtxRootWrite p v s) := by
  unfold execDtuCtxRootWrite
  dsimp only
  split_ifs <;> simp [hs]

theorem execKpuRgnCommit_canonical (fn : FnIx) (r : RegionIx) {s : State} (hs : Canonical s) :
    AnswersCanonical (execKpuRgnCommit fn r s) := by
  unfold execKpuRgnCommit
  dsimp only
  repeat' split
  all_goals simp [hs]

theorem execCntClear_canonical (c : CoreIx) {s : State} (hs : Canonical s) : AnswersCanonical (execCntClear c s) := by
  simp [execCntClear, hs]

theorem execCntSnapTake_canonical (c : CoreIx) {s : State} (hs : Canonical s) : AnswersCanonical (execCntSnapTake c s) := by
  simp [execCntSnapTake, hs]

theorem execDbgSnapArm_canonical (parts : Nat) {s : State} (hs : Canonical s) : AnswersCanonical (execDbgSnapArm parts s) := by
  simp [execDbgSnapArm, hs]

theorem execDbgSnapshot_canonical {s : State} (hs : Canonical s) : AnswersCanonical (execDbgSnapshot s) := by
  simp [execDbgSnapshot, hs]

theorem execWatchpointEnable_canonical (fn : FnIx) (wp : WpIx) (cfg : W64) {s : State} (hs : Canonical s) :
    AnswersCanonical (execWatchpointEnable fn wp cfg s) := by
  unfold execWatchpointEnable
  dsimp only
  repeat' split
  all_goals simp [hs]

theorem execTscTick_canonical {s : State} (hs : Canonical s) : AnswersCanonical (execTscTick s) := by
  simp [execTscTick, hs]

theorem execPpsEdge_canonical {s : State} (hs : Canonical s) : AnswersCanonical (execPpsEdge s) := by
  unfold execPpsEdge
  extract_lets was _ edge latch e _ next θ acquire steered small near good _ timed
  have hedge : Canonical edge := by simpa [edge] using hs
  have hlatch : Canonical latch := by simpa [latch] using hedge
  have hnext : Canonical next := by
    unfold next
    rw [canonical_mk, mem_wf_iff]
    exact hlatch
  have hacquire : ∀ u, Canonical (acquire u) ↔ Canonical u := fun u => by
    unfold acquire
    rw [tscStep_canonical]
    rfl
  have hsteered : ∀ u, Canonical (steered u) ↔ Canonical u := fun u => by
    unfold steered
    rw [wr_canonical]
    exact steerFree_canonical u
  have htimed : Canonical timed := by
    clear_value edge next acquire steered
    unfold timed
    repeat' split
    all_goals simp [hsteered, hacquire, hnext, hedge]
  clear_value timed
  rw [answersCanonical_next]
  split
  · exact htimed
  · rw [timeInput_canonical]
    exact htimed

theorem execRefLock_canonical {s : State} (hs : Canonical s) : AnswersCanonical (execRefLock s) := by
  simp [execRefLock, hs]

theorem execTimingInputChange_canonical (refIn ppsIn : Bool) {s : State} (hs : Canonical s) :
    AnswersCanonical (execTimingInputChange refIn ppsIn s) := by
  simp [execTimingInputChange, hs]

theorem execPpsTimeout_canonical {s : State} (hs : Canonical s) : AnswersCanonical (execPpsTimeout s) := by
  simp [execPpsTimeout, hs]

theorem execTscHoldoverTimeout_canonical {s : State} (hs : Canonical s) : AnswersCanonical (execTscHoldoverTimeout s) := by
  simp [execTscHoldoverTimeout, hs]

theorem execTscSet_canonical (v : W64) {s : State} (hs : Canonical s) : AnswersCanonical (execTscSet v s) := by
  simp [execTscSet, hs]

theorem execTscPpsNextWrite_canonical (v : W64) {s : State} (hs : Canonical s) : AnswersCanonical (execTscPpsNextWrite v s) := by
  simp [execTscPpsNextWrite, hs]

theorem execCompletionRecordWrite_canonical (w : RingIx) {s : State} (hs : Canonical s) : AnswersCanonical
    (execCompletionRecordWrite w s) := by
  unfold execCompletionRecordWrite
  dsimp only
  split
  · exact hs
  · split
    · split
      · exact hs
      · split
        · exact hs
        · simp [deliver_canonical ‹_›, hs]
    · exact hs
    · split
      · exact hs
      · simp [deliver_canonical ‹_›, hs]

theorem execCqControlReread_canonical (cq : RingIx) (reply : HostReply) {s : State} (hs : Canonical s) :
    AnswersCanonical (execCqControlReread cq reply s) := by
  unfold execCqControlReread
  dsimp only
  repeat' split
  all_goals simp [hs]

theorem execMsixHoldoffExpiry_canonical (cq : RingIx) {s : State} (hs : Canonical s) : AnswersCanonical (execMsixHoldoffExpiry cq s) := by
  simp [execMsixHoldoffExpiry, hs]

theorem execMsixUnmask_canonical (fn : FnIx) (vector : Fin 2048) {s : State} (hs : Canonical s) :
    AnswersCanonical (execMsixUnmask fn vector s) := by
  unfold execMsixUnmask
  dsimp only
  split <;> simp [hs]

theorem execEventsDroppedReport_canonical {s : State} (hs : Canonical s) : AnswersCanonical (execEventsDroppedReport s) := by
  simp [execEventsDroppedReport, hs]

theorem execCqCommit_canonical (cq : RingIx) {s : State} (hs : Canonical s) : AnswersCanonical (execCqCommit cq s) := by
  unfold execCqCommit
  dsimp only
  split_ifs <;> simp [hs]

theorem execSeqSchedCommit_canonical {s : State} (hs : Canonical s) : AnswersCanonical (execSeqSchedCommit s) := by
  simp [execSeqSchedCommit, hs]

theorem execRqCommit_canonical (fn : FnIx) (w : RingIx) {s : State} (hs : Canonical s) : AnswersCanonical (execRqCommit fn w s) := by
  unfold execRqCommit
  dsimp only
  repeat' split
  all_goals simp [hs]

theorem execRqStart_canonical (w : RingIx) {s : State} (hs : Canonical s) : AnswersCanonical (execRqStart w s) := by
  simp [execRqStart, hs]

theorem execRqStop_canonical (w : RingIx) {s : State} (hs : Canonical s) : AnswersCanonical (execRqStop w s) := by
  simp [execRqStop, hs]

theorem execRqAbort_canonical (w : RingIx) {s : State} (hs : Canonical s) : AnswersCanonical (execRqAbort w s) := by
  unfold execRqAbort
  dsimp only
  repeat' split
  all_goals simp [hs]

theorem execRqRewind_canonical (w : RingIx) {s : State} (hs : Canonical s) : AnswersCanonical (execRqRewind w s) := by
  simp [execRqRewind, hs]

theorem execRingPoll_canonical (w : RingIx) (reply : HostReply) {s : State} (hs : Canonical s) :
    AnswersCanonical (execRingPoll w reply s) := by
  unfold execRingPoll
  dsimp only
  repeat' split
  all_goals simp [hs]

theorem execCommandStopped_canonical (w : RingIx) {s : State} (hs : Canonical s) : AnswersCanonical (execCommandStopped w s) := by
  unfold execCommandStopped
  dsimp only
  repeat' split
  all_goals simp [hs]

theorem execResidencyDecision_canonical (p : PartIx) {s : State} (hs : Canonical s) : AnswersCanonical (execResidencyDecision p s) := by
  unfold execResidencyDecision
  split <;> simp [hs]

theorem execBeatInstruction_canonical (c : CoreIx) {s : State} (hs : Canonical s) : AnswersCanonical (execBeatInstruction c s) := by
  unfold execBeatInstruction
  split <;> simp [hs]

theorem execCoreStateSaveDone_canonical (c : CoreIx) {s : State} (hs : Canonical s) : AnswersCanonical (execCoreStateSaveDone c s) := by
  unfold execCoreStateSaveDone
  dsimp only
  repeat' split
  all_goals simp [hs]

theorem execJobResume_canonical (w : RingIx) {s : State} (hs : Canonical s) : AnswersCanonical (execJobResume w s) := by
  unfold execJobResume
  dsimp only
  repeat' split
  all_goals simp [hs]

theorem execBeatLimitExpiry_canonical (w : RingIx) {s : State} (hs : Canonical s) : AnswersCanonical (execBeatLimitExpiry w s) := by
  unfold execBeatLimitExpiry
  split <;> simp [hs]

theorem execKernelBegin_canonical (w : RingIx) {s : State} (hs : Canonical s) : AnswersCanonical (execKernelBegin w s) := by
  unfold execKernelBegin
  split <;> simp [hs]

theorem execEndInstruction_canonical (c : CoreIx) {s : State} (hs : Canonical s) : AnswersCanonical (execEndInstruction c s) := by
  unfold execEndInstruction
  split <;> simp [hs]

theorem execEndInstructionComplete_canonical (c : CoreIx) {s : State} (hs : Canonical s) :
    AnswersCanonical (execEndInstructionComplete c s) := by
  unfold execEndInstructionComplete
  dsimp only
  repeat' split
  all_goals simp [hs]

theorem execHintInstruction_canonical (c : CoreIx) (level : Fin 4) (us : Nat) (stagger : Fin 3) {s : State} (hs : Canonical s) :
    AnswersCanonical (execHintInstruction c level us stagger s) := by
  simp [execHintInstruction, hs]

theorem execSnapshotInstruction_canonical (c : CoreIx) {s : State} (hs : Canonical s) :
    AnswersCanonical (execSnapshotInstruction c s) := by
  simp [execSnapshotInstruction, hs]

theorem execTraceMarkInstruction_canonical (c : CoreIx) (a b : W64) {s : State} (hs : Canonical s) :
    AnswersCanonical (execTraceMarkInstruction c a b s) := by
  simp [execTraceMarkInstruction, hs]

theorem execKvOpInstruction_canonical (c : CoreIx) (desc : List W64) {s : State} (hs : Canonical s) :
    AnswersCanonical (execKvOpInstruction c desc s) := by
  unfold execKvOpInstruction
  split <;> simp [hs]

theorem execCmdNop_canonical (w : RingIx) {s : State} (hs : Canonical s) : AnswersCanonical (execCmdNop w s) := by
  unfold execCmdNop
  dsimp only
  repeat' split
  all_goals simp [hs]

theorem execHello_canonical (l : LinkIx) {s : State} (hs : Canonical s) : AnswersCanonical (execHello l s) := by
  unfold execHello
  split
  · exact hs
  · have hu := takeControl_canonical ‹_›
    dsimp only
    split_ifs <;> simp [hu, hs]

theorem execCert_canonical (l : LinkIx) {s : State} (hs : Canonical s) : AnswersCanonical (execCert l s) := by
  unfold execCert
  split
  · exact hs
  · have hu := takeControl_canonical ‹_›
    dsimp only
    split_ifs <;> simp [hu, hs]

theorem execKem_canonical (l : LinkIx) {s : State} (hs : Canonical s) : AnswersCanonical (execKem l s) := by
  unfold execKem
  split
  · exact hs
  · have hu := takeControl_canonical ‹_›
    dsimp only
    split_ifs <;> simp [hu, hs]

theorem execConfirm_canonical (l : LinkIx) {s : State} (hs : Canonical s) : AnswersCanonical (execConfirm l s) := by
  unfold execConfirm
  split
  · exact hs
  · have hu := takeControl_canonical ‹_›
    dsimp only
    split_ifs <;> simp [hu, hs]

theorem execRekey_canonical (l : LinkIx) {s : State} (hs : Canonical s) : AnswersCanonical (execRekey l s) := by
  unfold execRekey
  split
  · exact hs
  · have hu := takeControl_canonical ‹_›
    dsimp only
    split_ifs <;> simp [hu, hs]

theorem execLinkRekeyRequest_canonical (l : LinkIx) {s : State} (hs : Canonical s) : AnswersCanonical (execLinkRekeyRequest l s) := by
  simp [execLinkRekeyRequest, hs]

theorem execLnkInjCfgWrite_canonical (l : LinkIx) (v : W64) {s : State} (hs : Canonical s) :
    AnswersCanonical (execLnkInjCfgWrite l v s) := by
  simp [execLnkInjCfgWrite, hs]

theorem execLinkFrameSend_canonical (l : LinkIx) {s : State} (hs : Canonical s) : AnswersCanonical (execLinkFrameSend l s) := by
  unfold execLinkFrameSend
  dsimp only
  repeat' split
  all_goals simp [hs]

theorem execLinkFrameReceive_canonical (l : LinkIx) (f : Frame) {s : State} (hs : Canonical s) :
    AnswersCanonical (execLinkFrameReceive l f s) := by
  unfold execLinkFrameReceive
  dsimp only
  split_ifs <;> simp [hs]

theorem execLinkAckTimeout_canonical (l : LinkIx) {s : State} (hs : Canonical s) : AnswersCanonical (execLinkAckTimeout l s) := by
  simp [execLinkAckTimeout, hs]

theorem execLinkLoss_canonical (l : LinkIx) (cause : Nat) {s : State} (hs : Canonical s) : AnswersCanonical (execLinkLoss l cause s) := by
  simp [execLinkLoss, hs]

theorem execLinkLossOfSignal_canonical (l : LinkIx) {s : State} (hs : Canonical s) : AnswersCanonical (execLinkLossOfSignal l s) := by
  simp [execLinkLossOfSignal, hs]

theorem execLinkTrainingDone_canonical (l : LinkIx) (ok : Bool) (delayNs : Nat) {s : State} (hs : Canonical s) :
    AnswersCanonical (execLinkTrainingDone l ok delayNs s) := by
  unfold execLinkTrainingDone
  dsimp only
  split_ifs <;> simp [hs]

theorem execLinkRetry_canonical (l : LinkIx) {s : State} (hs : Canonical s) : AnswersCanonical (execLinkRetry l s) := by
  simp [execLinkRetry, hs]

theorem execGoodbye_canonical (l : LinkIx) {s : State} (hs : Canonical s) : AnswersCanonical (execGoodbye l s) := by
  unfold execGoodbye
  split
  · exact hs
  · have hu := takeControl_canonical ‹_›
    split <;> simp [hu, hs]

theorem execQuiesce_canonical (l : LinkIx) {s : State} (hs : Canonical s) : AnswersCanonical (execQuiesce l s) := by
  unfold execQuiesce
  split
  · exact hs
  · simp [takeMsg_canonical ‹_›, hs]

theorem execLinkQuiesceDone_canonical (l : LinkIx) {s : State} (hs : Canonical s) : AnswersCanonical (execLinkQuiesceDone l s) := by
  unfold execLinkQuiesceDone
  dsimp only
  split_ifs <;> simp [hs]

theorem execLinkCommit_canonical (l : LinkIx) {s : State} (hs : Canonical s) : AnswersCanonical (execLinkCommit l s) := by
  unfold execLinkCommit
  dsimp only
  repeat' split
  all_goals simp [hs]

theorem execLinkRemapResume_canonical (m : Fin 32) {s : State} (hs : Canonical s) : AnswersCanonical (execLinkRemapResume m s) := by
  unfold execLinkRemapResume
  split <;> simp [hs]

theorem execMsgWrite_canonical (l : LinkIx) {s : State} (hs : Canonical s) : AnswersCanonical (execMsgWrite l s) := by
  unfold execMsgWrite
  split
  · exact hs
  · have hu := takeMsg_canonical ‹_›
    dsimp only
    split
    · simp [hu, hs]
    · refine List.foldlRecOn _ _ (motive := fun a : State × List Byte => a.1.mem.wf = true) ?_ (fun a ha x _ => ?_)
      · simp [hu, hs]
      · simpa using ha

theorem execMsgAtomicData_canonical (l : LinkIx) {s : State} (hs : Canonical s) : AnswersCanonical (execMsgAtomicData l s) := by
  unfold execMsgAtomicData
  split
  · exact hs
  · have hu := takeMsg_canonical ‹_›
    split <;> simp [hu, hs]

theorem execMsgWriteAck_canonical (l : LinkIx) {s : State} (hs : Canonical s) : AnswersCanonical (execMsgWriteAck l s) := by
  unfold execMsgWriteAck
  split
  · exact hs
  · simp [takeMsg_canonical ‹_›, hs]

theorem execMsgRefused_canonical (l : LinkIx) {s : State} (hs : Canonical s) : AnswersCanonical (execMsgRefused l s) := by
  unfold execMsgRefused
  split
  · exact hs
  · have hu := takeMsg_canonical ‹_›
    dsimp only
    split
    · simp [hu, hs]
    · repeat' split
      all_goals simp [hu, hs]

theorem execMsgTile_canonical (l : LinkIx) {s : State} (hs : Canonical s) : AnswersCanonical (execMsgTile l s) := by
  unfold execMsgTile
  split
  · exact hs
  · have hu := takeMsg_canonical ‹_›
    dsimp only
    split_ifs <;> simp [hu, hs]

theorem execMsgCredit_canonical (l : LinkIx) {s : State} (hs : Canonical s) : AnswersCanonical (execMsgCredit l s) := by
  unfold execMsgCredit
  split
  · exact hs
  · simp [takeMsg_canonical ‹_›, hs]

theorem execGang_canonical (l : LinkIx) {s : State} (hs : Canonical s) : AnswersCanonical (execGang l s) := by
  unfold execGang
  split
  · exact hs
  · refine (canonical_foldl (fun u w => ?_) _ _).mpr ((takeControl_canonical ‹_›).mpr hs)
    dsimp only
    split <;> simp

theorem execDomainCommit_canonical {s : State} (hs : Canonical s) : AnswersCanonical (execDomainCommit s) := by
  unfold execDomainCommit
  dsimp only
  split
  · split <;> simp [hs]
  · have hset : Canonical (wrB (wr (commitRegs s domainRegs) R.PRT_ORDER_STATUS_DOMAIN_MODULES 0 0 (rdS s R.LNK_DOMAIN_MODULES 0 0))
        R.PRT_ORDER_STATUS_MEM_TRACK 0 0 (decide (rdS s R.LNK_DOMAIN_MODULES 0 0 ≤ 8))) := by
      rw [wrB_canonical, wr_canonical, commitRegs_canonical]
      exact hs
    rw [answersCanonical_next, canonical_foldl (fun u l => by simp)]
    split
    · rw [wr_canonical, canonical_mk, mem_wf_iff]
      exact hset
    · exact hset

theorem execWindowCommit_canonical {s : State} (hs : Canonical s) : AnswersCanonical (execWindowCommit s) := by
  unfold execWindowCommit
  dsimp only
  split <;> simp [hs]

theorem execSyncExchangeTimer_canonical {s : State} (hs : Canonical s) : AnswersCanonical (execSyncExchangeTimer s) := by
  unfold execSyncExchangeTimer
  dsimp only
  repeat' split
  all_goals simp [hs]

theorem execSyncReq_canonical (l : LinkIx) {s : State} (hs : Canonical s) : AnswersCanonical (execSyncReq l s) := by
  unfold execSyncReq
  split
  · exact hs
  · have hu := takeControl_canonical ‹_›
    split <;> simp [hu, hs]

theorem execSyncHoldoverTimeout_canonical {s : State} (hs : Canonical s) : AnswersCanonical (execSyncHoldoverTimeout s) := by
  simp [execSyncHoldoverTimeout, hs]

theorem execPartitionReset_canonical (p : PartIx) {s : State} (hs : Canonical s) : AnswersCanonical (execPartitionReset p s) := by
  simp [execPartitionReset, hs]

theorem execBootResetCompute_canonical {s : State} (hs : Canonical s) : AnswersCanonical (execBootResetCompute s) := by
  simp [execBootResetCompute, hs]

theorem execBootResetCore_canonical (c : CoreIx) {s : State} (hs : Canonical s) : AnswersCanonical (execBootResetCore c s) := by
  simp [execBootResetCore, hs]

theorem execClockStepDone_canonical {s : State} (hs : Canonical s) : AnswersCanonical (execClockStepDone s) := by
  unfold execClockStepDone
  dsimp only
  split <;> simp [hs]

theorem execCoreGate_canonical (c : CoreIx) {s : State} (hs : Canonical s) : AnswersCanonical (execCoreGate c s) := by
  simp [execCoreGate, hs]

theorem execCoreSleep_canonical (c : CoreIx) {s : State} (hs : Canonical s) : AnswersCanonical (execCoreSleep c s) := by
  simp [execCoreSleep, hs]

theorem execCoreOff_canonical (c : CoreIx) {s : State} (hs : Canonical s) : AnswersCanonical (execCoreOff c s) := by
  simp [execCoreOff, hs]

theorem execCoreWakeDone_canonical (c : CoreIx) {s : State} (hs : Canonical s) : AnswersCanonical (execCoreWakeDone c s) := by
  simp [execCoreWakeDone, hs]

theorem execDeepSleepWake_canonical (cause : WakeCause) {s : State} (hs : Canonical s) :
    AnswersCanonical (execDeepSleepWake cause s) := by
  unfold execDeepSleepWake
  split <;> simp [hs]

theorem execDeepSleepWakeDone_canonical (failing : List (Nat × Nat)) {s : State} (hs : Canonical s) :
    AnswersCanonical (execDeepSleepWakeDone s failing) := by
  unfold execDeepSleepWakeDone
  split <;> simp [hs]

theorem execEstimatorFit_canonical (k : RailIx) {s : State} (hs : Canonical s) : AnswersCanonical (execEstimatorFit k s) := by
  unfold execEstimatorFit
  dsimp only
  split_ifs <;> simp [hs]

theorem execCalibCompare_canonical (k : RailIx) {s : State} (hs : Canonical s) : AnswersCanonical (execCalibCompare k s) := by
  unfold execCalibCompare
  dsimp only
  repeat' split
  all_goals simp [hs]

theorem execTelemetryLossTimeout_canonical (k : RailIx) {s : State} (hs : Canonical s) :
    AnswersCanonical (execTelemetryLossTimeout k s) := by
  unfold execTelemetryLossTimeout
  split <;> simp [hs]

theorem execModuleLimiterTick_canonical (avgW : Nat) (parts : List (Nat × List Nat × Nat × Nat × Nat)) {s : State} (hs : Canonical s) :
    AnswersCanonical (execModuleLimiterTick avgW parts s) := by
  unfold execModuleLimiterTick
  dsimp only
  repeat' split
  all_goals simp [hs]

theorem execHintLapse_canonical (k : RailIx) {s : State} (hs : Canonical s) : AnswersCanonical (execHintLapse k s) := by
  simp [execHintLapse, hs]

theorem execPrechargeInForce_canonical (k : RailIx) {s : State} (hs : Canonical s) : AnswersCanonical (execPrechargeInForce k s) := by
  simp [execPrechargeInForce, hs]

theorem execHarpGate_canonical (c : CoreIx) (h : HarpIx) {s : State} (hs : Canonical s) : AnswersCanonical (execHarpGate c h s) := by
  simp [execHarpGate, hs]

theorem execAdmissionSlot_canonical (k : RailIx) {s : State} (hs : Canonical s) : AnswersCanonical (execAdmissionSlot k s) := by
  unfold execAdmissionSlot
  dsimp only
  split <;> simp [hs]

theorem execThermalLimiterTick_canonical (dieC : Nat) (stackCs : List Nat) {s : State} (hs : Canonical s) :
    AnswersCanonical (execThermalLimiterTick dieC stackCs s) := by
  unfold execThermalLimiterTick
  dsimp only
  repeat' split
  all_goals simp [hs]

theorem execThermalClamp_canonical (dieC stackC : Nat) {s : State} (hs : Canonical s) :
    AnswersCanonical (execThermalClamp dieC stackC s) := by
  unfold execThermalClamp
  split <;> simp [hs]

theorem execPwrCommit_canonical {s : State} (hs : Canonical s) : AnswersCanonical (execPwrCommit s) := by
  unfold execPwrCommit
  split <;> simp [hs]

theorem execClkCommit_canonical {s : State} (hs : Canonical s) : AnswersCanonical (execClkCommit s) := by
  unfold execClkCommit
  dsimp only
  split <;> simp [hs]

theorem execPartitionCommit_canonical (p : PartIx) {s : State} (hs : Canonical s) : AnswersCanonical (execPartitionCommit p s) := by
  unfold execPartitionCommit
  dsimp only
  split <;> simp [hs]

theorem execRangeCommit_canonical {s : State} (hs : Canonical s) : AnswersCanonical (execRangeCommit s) := by
  unfold execRangeCommit
  split <;> simp [hs]

theorem execIsoCommit_canonical {s : State} (hs : Canonical s) : AnswersCanonical (execIsoCommit s) := by
  unfold execIsoCommit
  dsimp only
  split <;> simp [hs]

theorem execIsoApplied_canonical {s : State} (hs : Canonical s) : AnswersCanonical (execIsoApplied s) := by
  unfold execIsoApplied
  split <;> simp [hs]

theorem execRollbackAdvance_canonical {s : State} (hs : Canonical s) : AnswersCanonical (execRollbackAdvance s) := by
  simp [execRollbackAdvance, hs]

theorem execRollbackAdvanceDone_canonical (ok : Bool) {s : State} (hs : Canonical s) :
    AnswersCanonical (execRollbackAdvanceDone ok s) := by
  unfold execRollbackAdvanceDone
  dsimp only
  repeat' split
  all_goals simp [hs]

theorem execGetVersion_canonical (fn : FnIx) {s : State} (hs : Canonical s) : AnswersCanonical (execGetVersion fn s) := by
  simp [execGetVersion, hs]

theorem execGetCapabilities_canonical (fn : FnIx) {s : State} (hs : Canonical s) : AnswersCanonical (execGetCapabilities fn s) := by
  simp [execGetCapabilities, hs]

theorem execNegotiateAlgorithms_canonical (fn : FnIx) {s : State} (hs : Canonical s) :
    AnswersCanonical (execNegotiateAlgorithms fn s) := by
  simp [execNegotiateAlgorithms, hs]

theorem execGetDigests_canonical (fn : FnIx) {s : State} (hs : Canonical s) : AnswersCanonical (execGetDigests fn s) := by
  unfold execGetDigests
  split <;> simp [hs]

theorem execGetCertificate_canonical (fn : FnIx) (slot : Nat) (off len : Nat) {s : State} (hs : Canonical s) :
    AnswersCanonical (execGetCertificate fn slot off len s) := by
  unfold execGetCertificate
  split <;> simp [hs]

theorem execChallenge_canonical (fn : FnIx) (nonce : List Byte) {s : State} (hs : Canonical s) :
    AnswersCanonical (execChallenge fn nonce s) := by
  unfold execChallenge
  split <;> simp [hs]

theorem execGetMeasurements_canonical (fn : FnIx) (index : Nat) (nonce : List Byte) {s : State} (hs : Canonical s) :
    AnswersCanonical (execGetMeasurements fn index nonce s) := by
  unfold execGetMeasurements
  dsimp only
  split_ifs <;> simp [hs]

theorem execKeyExchange_canonical (fn : FnIx) (exchange : List Byte) {s : State} (hs : Canonical s) :
    AnswersCanonical (execKeyExchange fn exchange s) := by
  unfold execKeyExchange
  split <;> simp [hs]

theorem execFinish_canonical (fn : FnIx) (verify : List Byte) {s : State} (hs : Canonical s) :
    AnswersCanonical (execFinish fn verify s) := by
  unfold execFinish
  dsimp only
  split_ifs <;> simp [hs]

theorem execEndSession_canonical (fn : FnIx) {s : State} (hs : Canonical s) : AnswersCanonical (execEndSession fn s) := by
  unfold execEndSession
  split <;> simp [hs]

theorem execSpdmSignatureDone_canonical {s : State} (hs : Canonical s) : AnswersCanonical (execSpdmSignatureDone s) := by
  unfold execSpdmSignatureDone
  split <;> simp [hs]

theorem execGetTdispVersion_canonical (p : PartIx) {s : State} (hs : Canonical s) : AnswersCanonical (execGetTdispVersion p s) := by
  simp [execGetTdispVersion, hs]

theorem execGetTdispCapabilities_canonical (p : PartIx) {s : State} (hs : Canonical s) :
    AnswersCanonical (execGetTdispCapabilities p s) := by
  simp [execGetTdispCapabilities, hs]

theorem execGetDeviceInterfaceReport_canonical (p : PartIx) {s : State} (hs : Canonical s) :
    AnswersCanonical (execGetDeviceInterfaceReport p s) := by
  simp [execGetDeviceInterfaceReport, hs]

theorem execGetDeviceInterfaceState_canonical (p : PartIx) {s : State} (hs : Canonical s) :
    AnswersCanonical (execGetDeviceInterfaceState p s) := by
  simp [execGetDeviceInterfaceState, hs]

theorem execStopInterfaceRequest_canonical (p : PartIx) {s : State} (hs : Canonical s) :
    AnswersCanonical (execStopInterfaceRequest p s) := by
  simp [execStopInterfaceRequest, hs]

theorem execIdeIntegrityFailure_canonical (stream : Fin 18) {s : State} (hs : Canonical s) :
    AnswersCanonical (execIdeIntegrityFailure stream s) := by
  unfold execIdeIntegrityFailure
  dsimp only
  split_ifs <;> simp [hs]

theorem execIdeKmRequest_canonical (stream : Fin 18) (activate : Bool) {s : State} (hs : Canonical s) :
    AnswersCanonical (execIdeKmRequest stream activate s) := by
  unfold execIdeKmRequest
  dsimp only
  split_ifs <;> simp [hs]

theorem execFieldTestDue_canonical (c : CoreIx) {s : State} (hs : Canonical s) : AnswersCanonical (execFieldTestDue c s) := by
  unfold execFieldTestDue
  dsimp only
  split <;> simp [hs]

theorem execFieldTestDone_canonical (c : CoreIx) (run : KatRun) {s : State} (hs : Canonical s) :
    AnswersCanonical (execFieldTestDone c run s) := by
  unfold execFieldTestDone
  split <;> simp [hs]

theorem execRasPddCtlWrite_canonical (v : W64) {s : State} (hs : Canonical s) : AnswersCanonical (execRasPddCtlWrite v s) := by
  simp [execRasPddCtlWrite, hs]

theorem execRowRepairDone_canonical (row : BankRow) (spareGood : Bool) {s : State} (hs : Canonical s) :
    AnswersCanonical (execRowRepairDone row spareGood s) := by
  unfold execRowRepairDone
  dsimp only
  split_ifs <;> simp [hs]

theorem execMaintOverdue_canonical (a : Fin 10) (unit : Nat) (sub : Nat) {s : State} (hs : Canonical s) :
    AnswersCanonical (execMaintOverdue a unit s sub) := by
  unfold execMaintOverdue
  dsimp only
  repeat' split
  all_goals simp [hs]

theorem execFatalFault_canonical (kind : FatalKind) {s : State} (hs : Canonical s) : AnswersCanonical (execFatalFault kind s) := by
  simp [execFatalFault, hs]

theorem execHaltStart_canonical (leadNs : Nat) {s : State} (hs : Canonical s) : AnswersCanonical (execHaltStart leadNs s) := by
  simp [execHaltStart, hs]

theorem execHaltCut_canonical {s : State} (hs : Canonical s) : AnswersCanonical (execHaltCut s) := by
  unfold execHaltCut
  split <;> simp [hs]

theorem execHaltRelease_canonical {s : State} (hs : Canonical s) : AnswersCanonical (execHaltRelease s) := by
  simp [execHaltRelease, hs]

theorem execErrorRecordFlash_canonical (seq : Nat) {s : State} (hs : Canonical s) : AnswersCanonical (execErrorRecordFlash seq s) := by
  unfold execErrorRecordFlash
  dsimp only
  split <;> simp [hs]

theorem execCorrectedRateCheck_canonical (source unit others : Nat) {s : State} (hs : Canonical s) :
    AnswersCanonical (execCorrectedRateCheck source unit others s) := by
  unfold execCorrectedRateCheck
  dsimp only
  split <;> simp [hs]

theorem execStageAonBootRom_canonical (selfTestOk : Bool) {s : State} (hs : Canonical s) :
    AnswersCanonical (execStageAonBootRom selfTestOk s) := by
  unfold execStageAonBootRom
  split <;> simp [hs]

theorem execStageImageVerification_canonical {s : State} (hs : Canonical s) : AnswersCanonical (execStageImageVerification s) := by
  unfold execStageImageVerification
  dsimp only
  split_ifs <;> simp [hs]

theorem execStageFloorPlanLoad_canonical {s : State} (hs : Canonical s) : AnswersCanonical (execStageFloorPlanLoad s) := by
  unfold execStageFloorPlanLoad
  dsimp only
  repeat' split
  all_goals simp [hs]

theorem execStageMemoryTraining_canonical (fails : List (StackIx × ChanIx)) {s : State} (hs : Canonical s) :
    AnswersCanonical (execStageMemoryTraining fails s) := by
  unfold execStageMemoryTraining
  dsimp only
  split_ifs <;> simp [hs]

theorem execStageLinkTraining_canonical {s : State} (hs : Canonical s) : AnswersCanonical (execStageLinkTraining s) := by
  unfold execStageLinkTraining
  dsimp only
  split <;> simp [hs]

theorem execStageOperational_canonical {s : State} (hs : Canonical s) : AnswersCanonical (execStageOperational s) := by
  unfold execStageOperational
  split <;> simp [hs]

theorem execBootNextCommit_canonical {s : State} (hs : Canonical s) : AnswersCanonical (execBootNextCommit s) := by
  unfold execBootNextCommit
  dsimp only
  split <;> simp [hs]

theorem execBootNextStored_canonical (ok : Bool) {s : State} (hs : Canonical s) : AnswersCanonical (execBootNextStored ok s) := by
  unfold execBootNextStored
  dsimp only
  repeat' split
  all_goals simp [hs]

theorem execPerstRelease_canonical {s : State} (hs : Canonical s) : AnswersCanonical (execPerstRelease s) := by
  simp [execPerstRelease, hs]

theorem execHotReset_canonical {s : State} (hs : Canonical s) : AnswersCanonical (execHotReset s) := by
  simp [execHotReset, hs]

theorem execFlrPf_canonical {s : State} (hs : Canonical s) : AnswersCanonical (execFlrPf s) := by
  simp [execFlrPf, hs]

theorem execFlrVf_canonical (p : PartIx) {s : State} (hs : Canonical s) : AnswersCanonical (execFlrVf p s) := by
  unfold execFlrVf
  split <;> simp [hs]

theorem execPcieLinkUp_canonical (rate width : Nat) {s : State} (hs : Canonical s) : AnswersCanonical (execPcieLinkUp rate width s) := by
  unfold execPcieLinkUp
  split <;> simp [hs]

theorem execCompletionTimeout_canonical (n : Nat) {s : State} (hs : Canonical s) : AnswersCanonical (execCompletionTimeout n s) := by
  unfold execCompletionTimeout
  split <;> simp [hs]

theorem execMbxClaim_canonical {s : State} (hs : Canonical s) : AnswersCanonical (execMbxClaim s) := by
  simp [execMbxClaim, hs]

theorem execPldmRequestUpdate_canonical {s : State} (hs : Canonical s) : AnswersCanonical (execPldmRequestUpdate s) := by
  simp [execPldmRequestUpdate, hs]

theorem execVendorDefinedClaim_canonical {s : State} (hs : Canonical s) : AnswersCanonical (execVendorDefinedClaim s) := by
  simp [execVendorDefinedClaim, hs]

theorem execMbxRelease_canonical (who : MbxWho) {s : State} (hs : Canonical s) : AnswersCanonical (execMbxRelease who s) := by
  simp [execMbxRelease, hs]

theorem execMbxOwnerTimeout_canonical {s : State} (hs : Canonical s) : AnswersCanonical (execMbxOwnerTimeout s) := by
  simp [execMbxOwnerTimeout, hs]

theorem execMbxOpDone_canonical (flashOk : Bool) {s : State} (hs : Canonical s) : AnswersCanonical (execMbxOpDone flashOk s) := by
  unfold execMbxOpDone
  dsimp only
  repeat' split
  all_goals simp [hs]

theorem execPldmSensorRead_canonical (which : Sensor) {s : State} (hs : Canonical s) : AnswersCanonical (execPldmSensorRead which s) := by
  unfold execPldmSensorRead
  dsimp only
  repeat' split
  all_goals simp [hs]

theorem execLeakSensorRead_canonical (inlet outlet : Bool) {s : State} (hs : Canonical s) :
    AnswersCanonical (execLeakSensorRead inlet outlet s) := by
  unfold execLeakSensorRead
  split <;> simp [hs]

theorem execIdcode_canonical {s : State} (hs : Canonical s) : AnswersCanonical (execIdcode s) := by
  simp [execIdcode, hs]

theorem execBypass_canonical {s : State} (hs : Canonical s) : AnswersCanonical (execBypass s) := by
  simp [execBypass, hs]

theorem execSamplePreload_canonical (pins : List Bool) {s : State} (hs : Canonical s) : AnswersCanonical (execSamplePreload pins s) := by
  simp [execSamplePreload, hs]

theorem execExtest_canonical {s : State} (hs : Canonical s) : AnswersCanonical (execExtest s) := by
  simp [execExtest, hs]

theorem execClamp_canonical {s : State} (hs : Canonical s) : AnswersCanonical (execClamp s) := by
  simp [execClamp, hs]

theorem execHighz_canonical {s : State} (hs : Canonical s) : AnswersCanonical (execHighz s) := by
  simp [execHighz, hs]

theorem execDebugTransportOpen_canonical {s : State} (hs : Canonical s) : AnswersCanonical (execDebugTransportOpen s) := by
  simp [execDebugTransportOpen, hs]

theorem execConfigRequest_canonical (fn : FnIx) (field : CfgField) (write : Option Nat) {s : State} (hs : Canonical s) :
    AnswersCanonical (execConfigRequest fn field write s) := by
  unfold execConfigRequest
  dsimp only
  repeat' split
  all_goals simp [hs]

theorem execPolyTableLoadDone_canonical (c : CoreIx) {s : State} (hs : Canonical s) : AnswersCanonical (execPolyTableLoadDone c s) := by
  unfold execPolyTableLoadDone
  split <;> simp [hs]

theorem execSpdEccWriteback_canonical (c : CoreIx) (word : Nat) {s : State} (hs : Canonical s) :
    AnswersCanonical (execSpdEccWriteback c word s) := by
  simp [execSpdEccWriteback, hs]

theorem execSpdClearDone_canonical (c : CoreIx) {s : State} (hs : Canonical s) : AnswersCanonical (execSpdClearDone c s) := by
  simp [execSpdClearDone, hs]

/-! ### Commands that commit the defaults of a stage -/

theorem commitDefault_canonical {s : State} (hs : Canonical s) (f : Fld) (i : Nat) {run : State → Res}
    (hrun : ∀ {u : State}, Canonical u → AnswersCanonical (run u)) : Canonical (commitDefault s f i run).1 := by
  have h := hrun hs
  unfold commitDefault
  dsimp only
  split
  · next heq => exact answersCanonical_next.mp (heq ▸ h)
  · exact hs
  · exact hs

theorem commitSilent_canonical {s : State} (hs : Canonical s) (offs : List Nat) {run : State → Res}
    (hrun : ∀ {u : State}, Canonical u → AnswersCanonical (run u)) : Canonical (commitSilent s offs run).1 := by
  have h := hrun hs
  unfold commitSilent
  split
  · next heq => exact answersCanonical_next.mp (heq ▸ h)
  · exact hs
  · exact hs

theorem writeDefault_canonical {s : State} (hs : Canonical s) (e : Nat × W64) : Canonical (writeDefault s e).1 := by
  unfold writeDefault
  extract_lets go
  clear_value go
  cases go with
  | false =>
    simp only [Bool.false_eq_true, if_false]
    repeat' split
    all_goals simp [hs]
  | true =>
    simp only [if_true]
    repeat' split
    · exact commitDefault_canonical hs _ _ execPwrCommit_canonical
    · exact commitDefault_canonical hs _ _ execClkCommit_canonical
    · exact commitSilent_canonical hs _ execMemCommit_canonical
    · exact commitSilent_canonical hs _ execSeqSchedCommit_canonical
    · exact commitDefault_canonical hs _ _ execDomainCommit_canonical
    · exact commitDefault_canonical hs _ _ execWindowCommit_canonical
    · exact commitDefault_canonical hs _ _ (execLinkCommit_canonical _)
    · simp [hs]

@[simp] theorem writeDefaults_canonical {s : State} (hs : Canonical s) (n : Nat) : Canonical (writeDefaults s n).1 := by
  refine canonical_foldl_fst (fun a e ha => ?_) _ hs
  have hwrite := writeDefault_canonical ha e
  dsimp only
  split
  · simpa using hwrite
  · exact hwrite

@[simp] theorem startStacks_canonical {s : State} (hs : Canonical s) : Canonical (startStacks s) := by
  simp [startStacks, hs]

@[simp] theorem startLinks_canonical {s : State} (hs : Canonical s) : Canonical (startLinks s) := by
  simp [startLinks, hs]

theorem execStageClocks_canonical (locked : Bool) {s : State} (hs : Canonical s) : AnswersCanonical (execStageClocks locked s) := by
  have hset := writeDefaults_canonical hs 3
  unfold execStageClocks
  dsimp only
  split
  · exact hs
  · split
    · simp [hset]
    · rw [answersCanonical_next]
      split <;> simp [hset]

theorem execStageCoreKnownAnswer_canonical (runs : List (CoreIx × List KatRun)) {s : State} (hs : Canonical s) :
    AnswersCanonical (execStageCoreKnownAnswer runs s) := by
  unfold execStageCoreKnownAnswer
  extract_lets us settings before t left adjusted warned ended
  have ht : Canonical t := by simp [t, hs]
  have hended : Canonical ended := by
    clear_value t
    unfold ended warned
    split <;> simp [ht]
  clear_value t ended
  split
  · exact hs
  split
  · exact hs
  split
  · simp [ht]
  · rw [answersCanonical_next]
    split <;> simp [hended]

theorem execStageHostFunctionReady_canonical {s : State} (hs : Canonical s) : AnswersCanonical (execStageHostFunctionReady s) := by
  unfold execStageHostFunctionReady
  split <;> simp [hs]

/-! ### Mailbox commands and the other commands that leave memory as it is -/

theorem mbxGo_canonical {s : State} (hs : Canonical s) (who : MbxWho) {act : State → State}
    (hact : ∀ {u : State}, Canonical u → Canonical (act u)) : AnswersCanonical (mbxGo s who act) := by
  unfold mbxGo
  split_ifs <;> simp [hact, hs]

theorem execGetReport_canonical (who : MbxWho) {s : State} (hs : Canonical s) : AnswersCanonical (execGetReport who s) :=
  mbxGo_canonical hs who fun hu => by simpa using hu

theorem execImageBegin_canonical (who : MbxWho) {s : State} (hs : Canonical s) : AnswersCanonical (execImageBegin who s) := by
  refine mbxGo_canonical hs who fun hu => ?_
  dsimp only
  split_ifs <;> simp [hu]

theorem execImageWrite_canonical (who : MbxWho) {s : State} (hs : Canonical s) : AnswersCanonical (execImageWrite who s) := by
  refine mbxGo_canonical hs who fun hu => ?_
  dsimp only
  split_ifs <;> simp [hu]

theorem execImageVerify_canonical (who : MbxWho) {s : State} (hs : Canonical s) : AnswersCanonical (execImageVerify who s) := by
  refine mbxGo_canonical hs who fun hu => ?_
  split <;> simp [hu]

theorem execSyncResp_canonical (l : LinkIx) {s : State} (hs : Canonical s) : AnswersCanonical (execSyncResp l s) := by
  unfold execSyncResp
  split
  · exact hs
  · have hu := takeControl_canonical ‹_›
    split
    · simp [hu, hs]
    · dsimp only
      split_ifs <;> simp [hu, hs]

theorem execTelemetrySample_canonical (rails : List Nat) (inputW : Nat) (activity : List Nat) {s : State} (hs : Canonical s) :
    AnswersCanonical (execTelemetrySample rails inputW s activity) := by
  refine (canonical_foldl (fun u k => ?_) _ _).mpr hs
  split <;> simp

theorem execCurrentWindowEval_canonical (k : RailIx) (avg1 avg10 avg100 : Nat) (parts : List (Nat × Nat × Nat × Nat)) {s : State}
    (hs : Canonical s) : AnswersCanonical (execCurrentWindowEval k avg1 avg10 avg100 s parts) := by
  unfold execCurrentWindowEval
  dsimp only
  split
  · refine (canonical_foldl (fun u p => ?_) _ _).mpr (by simpa using hs)
    split <;> simp
  · simp [hs]

theorem execLockInterfaceRequest_canonical (p : PartIx) {s : State} (hs : Canonical s) :
    AnswersCanonical (execLockInterfaceRequest p s) := by
  refine tdisp_canonical hs p ?_
  split <;> simp [hs]

theorem execStartInterfaceRequest_canonical (p : PartIx) {s : State} (hs : Canonical s) :
    AnswersCanonical (execStartInterfaceRequest p s) := by
  refine tdisp_canonical hs p ?_
  split <;> simp [hs]

theorem execMaintActivityStart_canonical (a : Fin 10) (unit sub : Nat) {s : State} (hs : Canonical s) :
    AnswersCanonical (execMaintActivityStart a unit sub s) := by
  unfold execMaintActivityStart
  split
  · exact hs
  · split
    · simp [maintStart_canonical ‹_›, hs]
    · simp [hs]

theorem execHaltNotice_canonical (l : LinkIx) {s : State} (hs : Canonical s) : AnswersCanonical (execHaltNotice l s) := by
  unfold execHaltNotice
  split
  · exact hs
  · have hu := takeNotice_canonical ‹_›
    dsimp only
    repeat' split
    all_goals simp [hu, hs]

theorem execReleaseNotice_canonical (l : LinkIx) {s : State} (hs : Canonical s) : AnswersCanonical (execReleaseNotice l s) := by
  unfold execReleaseNotice
  split
  · exact hs
  · simp [takeNotice_canonical ‹_›, hs]

theorem execPolyTableLoad_canonical (c : CoreIx) (t : Fin 2) (addr : Nat) {s : State} (hs : Canonical s) :
    AnswersCanonical (execPolyTableLoad c t addr s) := by
  unfold execPolyTableLoad
  extract_lets w counted img bad lo hi read
  have hread : Canonical read := by simp [read, counted, hs]
  have hcounted : Canonical counted := by simp [counted, hs]
  clear_value read counted img bad lo hi
  generalize addr + 2056 = top
  split
  · exact hs
  split
  · simp [hcounted]
  split
  · simp [hcounted]
  split
  · simp [hread]
  split
  · exact hread
  · simp [register_faults_canonical ‹_›, hread]
  · extract_lets noted
    unfold noted
    split <;> simp [register_ok_canonical ‹_›, hread]

end Sys2Proof.Proofs
end

section
/-!
PROOFS. The commands that write, mark or clear memory keep its form.
-/
namespace Sys2Proof.Proofs
open Sys2Proof.Machine Sys2Proof.Safety Sys2Proof.Laws

theorem orWait_canonical {s : State} (hs : Canonical s) {o : Option State} (ho : ∀ {t}, o = some t → Canonical t) :
    AnswersCanonical (orWait s o) := by
  cases o with
  | none => exact hs
  | some t => exact ho rfl

theorem execVendorResetMessage_canonical (module : Bool) {s : State} (hs : Canonical s) :
    AnswersCanonical (execVendorResetMessage module s) := by
  simp [execVendorResetMessage, hs]

theorem execSealClearDone_canonical (p : PartIx) {s : State} (hs : Canonical s) : AnswersCanonical (execSealClearDone p s) := by
  simp [execSealClearDone, hs]

theorem execSarabandeWake_canonical (w : RingIx) {s : State} (hs : Canonical s) : AnswersCanonical (execSarabandeWake w s) := by
  simp [execSarabandeWake, hs]

theorem execPartitionResetDone_canonical (p : PartIx) {s : State} (hs : Canonical s) : AnswersCanonical (execPartitionResetDone p s) := by
  simp [execPartitionResetDone, hs]

theorem execSealUnseal_canonical (p : PartIx) (e : Fin 16) {s : State} (hs : Canonical s) : AnswersCanonical (execSealUnseal p e s) := by
  simp [execSealUnseal, hs]

theorem execThermalTrip_canonical (stack : Bool) (tempC : Nat) {s : State} (hs : Canonical s) :
    AnswersCanonical (execThermalTrip stack tempC s) := by
  unfold execThermalTrip
  split
  · exact hs
  · simp

theorem execPerstAssert_canonical {s : State} (hs : Canonical s) : AnswersCanonical (execPerstAssert s) := by
  unfold execPerstAssert
  split
  · exact hs
  · simp

theorem execRegulatorFault_canonical (rail : Fin 12) (code : W64) (s : State) :
    AnswersCanonical (execRegulatorFault rail code s) := by
  simp [execRegulatorFault]

theorem execBootResetModule_canonical (s : State) : AnswersCanonical (execBootResetModule s) := by
  simp [execBootResetModule]

theorem execSealImportStart_canonical (p : PartIx) {s : State} (hs : Canonical s) : AnswersCanonical (execSealImportStart p s) := by
  unfold execSealImportStart
  dsimp only
  split_ifs <;> simp [hs]

theorem execInputVoltageChange_canonical (centivolts : Nat) {s : State} (hs : Canonical s) :
    AnswersCanonical (execInputVoltageChange centivolts s) := by
  unfold execInputVoltageChange
  dsimp only
  repeat' split
  all_goals simp [hs]

theorem execCmdKvOps_canonical (w : RingIx) {s : State} (hs : Canonical s) : AnswersCanonical (execCmdKvOps w s) := by
  unfold execCmdKvOps
  split
  · simp [hs]
  · split
    · exact hs
    · dsimp only
      split_ifs <;> simp [hs]

theorem execSliceWriteLand_canonical (n : Nat) (med : Medium) {s : State} (hs : Canonical s) :
    AnswersCanonical (execSliceWriteLand n s med) := by
  unfold execSliceWriteLand
  repeat' split
  all_goals simp [hs]

theorem execAcquireRead_canonical (c : CoreIx) (va : Nat) {s : State} (hs : Canonical s) : AnswersCanonical (execAcquireRead c va s) := by
  unfold execAcquireRead
  split
  · exact hs
  · split
    · exact hs
    · simpa using coreLoad_canonical ((count_canonical ..).mpr hs) ‹_›

theorem execTileImageLand_canonical (n : Nat) (words : Nat) {s : State} (hs : Canonical s) :
    AnswersCanonical (execTileImageLand n s words) := by
  unfold execTileImageLand
  split
  · exact hs
  · split
    · refine whenDo_canonical hs ?_
      split <;> simp [hs]
    · exact hs

theorem execMsgReadData_canonical (l : LinkIx) {s : State} (hs : Canonical s) : AnswersCanonical (execMsgReadData l s) := by
  unfold execMsgReadData
  split
  · exact hs
  · have hu := takeMsg_canonical ‹_›
    split
    · simp [hu, hs]
    · dsimp only
      split
      · split
        · exact hs
        · simp [hu, hs]
      · simp [hu, hs]
      · simp [hu, hs]

theorem execRangeClearDone_canonical {s : State} (hs : Canonical s) : AnswersCanonical (execRangeClearDone s) := by
  unfold execRangeClearDone
  dsimp only
  split <;> simp [hs]

theorem execComputeResetDone_canonical {s : State} (hs : Canonical s) : AnswersCanonical (execComputeResetDone s) := by
  unfold execComputeResetDone
  split
  · exact hs
  · split
    · simp [hs]
    · refine whenDo_canonical hs (canonical_foldl_of (fun u p hu => ?_) _ (by simp [hs]))
      split <;> simp [hu]

theorem execPatrolScrubRead_canonical (med : Medium) {s : State} (hs : Canonical s) : AnswersCanonical (execPatrolScrubRead med s) := by
  unfold execPatrolScrubRead
  extract_lets l b deferred _ cleared ended found done from_ _ moved passed progressed
  have hcleared : Canonical cleared := by
    rw [canonical_mk, mem_wf_iff]
    exact hs
  have hended : Canonical ended := by
    clear_value cleared
    unfold ended
    split <;> simp [hcleared]
  have hfound : Canonical found := by
    clear_value ended
    unfold found
    split <;> simp [hended]
  have hmoved : Canonical moved := by
    rw [canonical_mk, mem_wf_iff]
    exact hfound
  have hpassed : Canonical passed := by
    clear_value moved
    unfold passed
    split <;> simp [hmoved]
  have hdeferred : Canonical deferred := by simp [deferred, hs]
  clear_value passed deferred
  split
  · exact hs
  split
  · split
    · exact hs
    · simp [hdeferred]
  · rw [answersCanonical_next, wr_canonical]
    simp [progressed, hpassed]

theorem execHaltComplete_canonical {s : State} (hs : Canonical s) : AnswersCanonical (execHaltComplete s) := by
  unfold execHaltComplete
  dsimp only
  split
  · exact hs
  · have hends : ∀ {u : State}, Canonical u → ∀ l : List Nat,
        Canonical (l.foldl (fun s p => if rd s R.SEC_IMP_STATUS_STATE p 0 = 3 then endClear s p else s) u) := fun hu l =>
      canonical_foldl_of (fun u p hu => by split <;> simp [hu]) l hu
    split <;> simp [hends, hs]

theorem execSliceRead_canonical (who : Requester) (pa len : Nat) (med : Medium) {s : State} (hs : Canonical s) :
    AnswersCanonical (execSliceRead who pa len med s) := by
  have hdef := Eq.refl execSliceRead
  conv at hdef => rhs; delta execSliceRead
  rw [hdef]
  beta_reduce
  split
  · trivial
  · trivial
  split
  · exact hs
  extract_lets corrected read
  split
  exact (emit_canonical ..).mpr (sliceRd_canonical (eccRead_canonical hs ..) ..)

theorem execSliceAtomic_canonical (who : Requester) (pa : Nat) (op : AtomicOp) (operand comparand : W64) (operandPoison : Bool)
    (med : Medium) {s : State} (hs : Canonical s) :
    AnswersCanonical (execSliceAtomic who pa op operand comparand operandPoison s med) := by
  have hatom := sliceAtom_canonical (eccRead_canonical hs pa 8 med 1) who none none pa op operand comparand operandPoison
  have hdef := Eq.refl @execSliceAtomic
  conv at hdef => rhs; delta execSliceAtomic
  rw [hdef]
  beta_reduce
  split
  · trivial
  · trivial
  split
  · exact hs
  split
  next heq =>
    rw [heq] at hatom
    exact (emit_canonical ..).mpr hatom

theorem execSequencerLoad_canonical (c : CoreIx) (va : Nat) {s : State} (hs : Canonical s) :
    AnswersCanonical (execSequencerLoad c va s) := by
  unfold execSequencerLoad
  split
  · exact hs
  · exact orWait_canonical hs fun h => coreLoad_canonical ((count_canonical ..).mpr hs) h

theorem execVolatileRead_canonical (c : CoreIx) (va : Nat) {s : State} (hs : Canonical s) :
    AnswersCanonical (execVolatileRead c va s) := by
  unfold execVolatileRead
  split
  · exact hs
  · exact orWait_canonical hs fun h => coreLoad_canonical ((count_canonical ..).mpr hs) h

theorem execKpuRgnDestroyDone_canonical (r : RegionIx) {s : State} (hs : Canonical s) : AnswersCanonical (execKpuRgnDestroyDone r s) := by
  unfold execKpuRgnDestroyDone
  extract_lets destroyed new _ emptied committed
  have hdestroyed : Canonical destroyed := by simp [destroyed, hs]
  have hemptied : Canonical emptied := by
    rw [canonical_mk, mem_wf_iff]
    exact hdestroyed
  have hcommitted : Canonical committed := (canonical_foldl (fun _ _ => setReg_canonical ..) _ _).mpr hemptied
  clear_value committed
  split
  · exact hs
  · rw [answersCanonical_next]
    split <;> simp [hcommitted]

theorem execSealImportDone_canonical (p : PartIx) (chunks : Nat) {s : State} (hs : Canonical s) :
    AnswersCanonical (execSealImportDone p s chunks) := by
  unfold execSealImportDone
  split
  · split <;> simp [hs]
  · simp [hs]
  · exact hs

theorem execHostLinkReadCompletion_canonical (n : Nat) (reply : HostReply) {s : State} (hs : Canonical s) :
    AnswersCanonical (execHostLinkReadCompletion n reply s) := by
  unfold execHostLinkReadCompletion
  split
  · exact hs
  · dsimp only
    split
    · exact hs
    · split <;> simp [hs]

theorem execStageMemoryTest_canonical (corrected : Nat) (badRows : List (BankRow × Nat)) (lostStack : Bool) {s : State} (hs : Canonical s) :
    AnswersCanonical (execStageMemoryTest corrected badRows lostStack s) := by
  unfold execStageMemoryTest
  split
  · exact hs
  · extract_lets _ tested rows
    have htested : Canonical (rows.foldl testRow (tested, 0, 0)).1 :=
      canonical_foldl_fst (fun _ e ha => testRow_canonical ha e) _ (canonical_mk.mpr memory_wf_empty)
    dsimp only
    split <;> simp [htested]

theorem execFinalWriteRelease_canonical (n : Nat) {s : State} (hs : Canonical s) : AnswersCanonical (execFinalWriteRelease n s) := by
  unfold execFinalWriteRelease
  repeat' split
  all_goals simp [hs]

theorem execFinalWriteCoreArrive_canonical (n : Nat) {s : State} (hs : Canonical s) :
    AnswersCanonical (execFinalWriteCoreArrive n s) := by
  unfold execFinalWriteCoreArrive
  dsimp only
  repeat' split
  all_goals simp [hs]

theorem execKvOpen_canonical (n : Nat) {s : State} (hs : Canonical s) : AnswersCanonical (execKvOpen n s) := by
  refine kvServe_canonical hs 1 n fun u o r q hu => ?_
  dsimp only
  split
  · simp [hu]
  · have hopen := kvOpenSeq_canonical hu r q 0 (some o.ring) []
    split
    · exact kvSealed_canonical hopen ..
    · exact lack_canonical hopen

theorem execKvPin_canonical (n : Nat) {s : State} (hs : Canonical s) : AnswersCanonical (execKvPin n s) := by
  refine kvServe_canonical hs 7 n fun u o r q hu => ?_
  split
  · simp [hu]
  · exact kvSealed_canonical (by simp [hu]) ..

theorem execKvTruncate_canonical (n : Nat) {s : State} (hs : Canonical s) : AnswersCanonical (execKvTruncate n s) := by
  refine kvServe_canonical hs 5 n fun u o r q hu => ?_
  extract_lets len moved
  split
  · simp [hu]
  split
  · simp [hu]
  · exact kvSealed_canonical (by simp [moved, hu]) ..

theorem execKvCommit_canonical (n : Nat) {s : State} (hs : Canonical s) : AnswersCanonical (execKvCommit n s) := by
  refine kvServe_canonical hs 3 n fun u o r q hu => ?_
  dsimp only
  split_ifs
  · simp [hu]
  all_goals exact kvSealed_canonical (by simp [kvDone, kvFail, hu]) ..

theorem execKvClose_canonical (n : Nat) {s : State} (hs : Canonical s) : AnswersCanonical (execKvClose n s) := by
  refine kvServe_canonical hs 6 n fun u o r q hu => ?_
  dsimp only
  split
  · simp [hu]
  · refine kvSealed_canonical ?_ ..
    simp only [kvDone, wr_canonical, onKvSeq_canonical]
    exact canonical_foldl_of (fun _ p hu => kvFreePage_canonical hu r p) _
      (canonical_foldl_of (fun _ _ hu => kvBlock_canonical hu ..) _ (by simp [hu]))

theorem execKvFork_canonical (n : Nat) {s : State} (hs : Canonical s) : AnswersCanonical (execKvFork n s) := by
  refine kvServe_canonical hs 4 n fun u o r q hu => ?_
  have hopen := kvOpenSeq_canonical hu r q (kvPos o.desc) (some o.ring) (kvTouches u o)
  dsimp only
  split_ifs
  · simp [hu]
  · simp [hu]
  · simp [hu]
  · exact lack_canonical hopen
  · refine kvSealed_canonical (kvDone_canonical (canonical_foldl_of (fun t k ht => ?_) _ hopen) ..) ..
    split
    · exact ht
    · rw [onKvSeq_canonical]
      exact setKvCount_canonical (kvLeaf_canonical ht ..) ..

theorem register_or_ok_canonical {s t : State} {b : Bool} {c : Nat} {fs : List Footprint}
    (h : (if b then register s c fs else .ok s) = .ok t) : Canonical t ↔ Canonical s := by
  split at h
  · exact register_ok_canonical h
  · rw [Registered.ok.inj h]

theorem register_or_faults_canonical {s t : State} {b : Bool} {c : Nat} {fs : List Footprint}
    (h : (if b then register s c fs else .ok s) = .faults t) : Canonical t ↔ Canonical s := by
  split at h
  · exact register_faults_canonical h
  · exact Registered.noConfusion h

theorem registerCopy_ok_canonical {s t : State} {d : List W64} (h : registerCopy s d = .ok t) : Canonical t ↔ Canonical s := by
  unfold registerCopy at h
  split at h
  · exact (register_or_ok_canonical h).trans (register_or_ok_canonical ‹_›)
  · next hno => exact (hno _ h).elim

theorem registerCopy_faults_canonical {s t : State} {d : List W64} (h : registerCopy s d = .faults t) : Canonical t ↔ Canonical s := by
  unfold registerCopy at h
  split at h
  · exact (register_or_faults_canonical h).trans (register_or_ok_canonical ‹_›)
  · exact register_or_faults_canonical h

theorem execTraceRecordWrite_canonical (c : CoreIx) {s : State} (hs : Canonical s) : AnswersCanonical (execTraceRecordWrite c s) := by
  unfold execTraceRecordWrite
  extract_lets x p
  split
  · exact hs
  · simp [hs]
  extract_lets va at_ learned
  have hlearned : Canonical learned := learn_canonical hs ..
  clear_value learned at_
  split
  · exact hs
  split
  · extract_lets stopped
    simp [stopped, hlearned]
  extract_lets dst counted issued written kept full flagged
  have hflagged : Canonical flagged := by simp [flagged, kept, written, issued, counted, hlearned]
  clear_value flagged
  split
  · simp [hflagged]
  split <;> simp [hflagged]

theorem execKpuRgnInitDone_canonical (r : RegionIx) {s : State} (hs : Canonical s) : AnswersCanonical (execKpuRgnInitDone r s) := by
  unfold execKpuRgnInitDone
  extract_lets g cleared fresh mapped listed zeroed
  have hmapped : Canonical mapped := canonical_foldl_of (fun _ _ hu => kvBlock_canonical (landMem_canonical hu ..) ..) _
    ((setKvReg_canonical ..).mpr (kvClearRange_canonical hs _))
  have hlisted : Canonical listed := (canonical_foldl (fun _ _ => (setKvFar_canonical ..).trans (setKvNear_canonical ..)) _ _).mpr hmapped
  have hzeroed : Canonical zeroed := by
    clear_value listed
    unfold zeroed
    split
    · exact canonical_foldl_of (fun _ _ hu => landMem_canonical hu ..) _ hlisted
    · exact hlisted
  have hfree := fun n => (freeBytes_canonical zeroed n).mpr hzeroed
  clear_value zeroed
  split
  · exact hs
  split
  next heq =>
    have ht := hfree ((49152 + 20 * g.pages + 7) / 8)
    rw [heq] at ht
    simp [ht]

theorem execGatherRowLand_canonical (c : CoreIx) (row : Nat) {s : State} (hs : Canonical s) :
    AnswersCanonical (execGatherRowLand c row s) := by
  unfold execGatherRowLand
  extract_lets x
  split
  · exact hs
  extract_lets d w p left finish
  have hfinish : ∀ {u : State}, Canonical u → Canonical (finish u) := fun hu => by
    unfold finish
    split <;> simp [hu]
  clear_value finish
  split
  extract_lets wc at_ seg scaleAt zeros
  have hzeros : Canonical zeros := by simp [zeros, hs]
  clear_value zeros
  split
  · exact hs
  split
  · exact hfinish (by simp [hzeros])
  split
  · simp [hs]
  · simp [hs]
  next hread _ =>
    have ht := moverRead_canonical hs hread
    extract_lets scaled bad found row scales
    have hscaled : Canonical scaled := sliceRds_canonical ht ..
    have hfound : Canonical found := by
      clear_value scaled bad
      unfold found
      split <;> simp [hscaled]
    have hscales : Canonical scales := by simp [scales, row, hfound]
    clear_value scales
    split
    · exact hfinish hscales
    · exact hscales

theorem execKvAppend_canonical (n : Nat) {s : State} (hs : Canonical s) : AnswersCanonical (execKvAppend n s) := by
  refine kvServe_canonical hs 2 n fun u o r q hu => ?_
  extract_lets d g x w stack layer pair count src rtz mode va eva faulted source errs learned failed p0 first last
  have hlearned : Canonical learned := learnRange_canonical hu ..
  clear_value learned source errs
  split
  · simp [hu]
  split
  · exact hu
  split
  · simp [hu]
  split
  · exact hlearned
  · exact hlearned
  extract_lets read bytes keep a gathered missed faultNoted stopped
  have hread : Canonical read := sliceRds_canonical hlearned ..
  have ha : Canonical a.s := by
    refine List.foldlRecOn (motive := fun a : KvAcc => Canonical a.s) _ _ hread fun a ha i _ => ?_
    have hpage := kvPageFor_canonical ha r q (g.key q layer pair (first + i)) (some w) (a.used ++ keep)
    split
    · exact ha
    dsimp only
    split
    · exact hpage
    · exact List.foldlRecOn (motive := fun a : KvAcc => Canonical a.s) _ _ (kvStamp_canonical hpage ..)
        fun a ha t _ => kvPutPos_canonical ha ..
  have hgathered : Canonical gathered := by
    unfold gathered
    split
    · exact ha
    · exact gatherErrBy_canonical ha ..
  have hfaulted : Canonical faultNoted := by simp [faultNoted, hgathered]
  clear_value gathered faultNoted a
  split
  · split
    · exact hgathered
    · split
      · exact hgathered
      · exact kvSealed_canonical hfaulted ..
  · exact kvSealed_canonical hgathered ..
theorem execFiddleInstruction_canonical (c : CoreIx) (i : FdlInstr) {s : State} (hs : Canonical s) :
    AnswersCanonical (execFiddleInstruction c i s) := by
  unfold execFiddleInstruction
  extract_lets w counted spans all fs srcs isMove
  have hcounted : Canonical counted := by simp [counted, hs]
  clear_value counted
  split
  · exact hs
  split
  · simp [hcounted]
  split
  · simp [hcounted]
  split
  · exact hcounted
  · simp [register_faults_canonical ‹_›, hcounted]
  extract_lets released read acc bad
  have hread : Canonical read := by simp [read, released, register_ok_canonical ‹_›, hcounted]
  clear_value read
  split
  next heq =>
    have ht := (fdlResult_canonical read c i).mpr hread
    rw [heq] at ht
    extract_lets done stored flagged noted
    have hflagged : Canonical flagged := by simp [flagged, stored, done, ht]
    have hnoted : Canonical noted := by
      clear_value flagged
      unfold noted
      split <;> simp [hflagged]
    clear_value noted
    split
    · rw [answersCanonical_next]
      split <;> simp [hnoted]
    · exact hnoted

theorem execTileSend_canonical (c : CoreIx) (h : HarpIx) (t : Fin 4) {s : State} (hs : Canonical s) :
    AnswersCanonical (execTileSend c h t s) := by
  unfold execTileSend
  split
  · exact hs
  extract_lets kind w x key held n0 rowVa sent seq hd img n taken near poison issued far tag _ _ queued
  have htaken : Canonical taken := by simp [taken, hs]
  have hfar : Canonical far := by simp [far, htaken]
  have hqueued : Canonical queued := by
    rw [canonical_mk, mem_wf_iff]
    exact hfar
  have hissued : Canonical issued := by simp [issued, near, htaken]
  have hsent : ∀ {u : State}, Canonical u → Canonical (sent u) := fun hu => (noteSent_canonical ..).mpr hu
  clear_value issued queued sent
  split
  · exact hs
  split
  · exact hs
  split
  · exact hsent (canonical_foldl_of (fun _ _ hu => issueVirtual_canonical hu ..) _ hs)
  split
  · simp [hissued]
  · simp [hqueued]

theorem execEpilogueResultComplete_canonical (c : CoreIx) (h : HarpIx) {s : State} (hs : Canonical s) :
    AnswersCanonical (execEpilogueResultComplete c h s) := by
  unfold execEpilogueResultComplete
  extract_lets hp x w
  split
  · exact hs
  extract_lets d e flags rows chainBad lanes elems
  split
  · exact hs
  split
  next heq =>
    have ht : ∀ {v : W64} {t : State}, (match shadowOf s c with | some _ => takeFree s | none => (0, s)) = (v, t) → Canonical t := by
      intro v t h
      split at h
      · simpa [h] using (takeFree_canonical s).mpr hs
      · cases h
        exact hs
    replace ht := ht heq
    split
    · simp [ht]
    extract_lets accessed
    have haccessed : Canonical accessed := by simp [accessed, ht]
    clear_value accessed
    split
    · exact haccessed
    split
    extract_lets bad exc rowsB scales recorded stored scaled freed laned swept rescaled idle excepted noted traced gathered out
    have hrecorded : Canonical recorded := by simp [recorded, haccessed]
    have hscaled : Canonical scaled := by
      clear_value recorded
      unfold scaled stored
      split
      · split <;> simp [hrecorded]
      · exact hrecorded
    have hswept : Canonical swept := by
      clear_value scaled
      unfold swept laned freed
      split <;> simp [hscaled]
    have hrescaled : Canonical rescaled := by
      clear_value swept
      unfold rescaled
      split <;> simp [hswept]
    have hnoted : Canonical noted := by
      clear_value rescaled
      unfold noted excepted idle
      split <;> simp [hrescaled]
    have hgathered : Canonical gathered := by
      clear_value noted
      unfold gathered traced
      split <;> simp [hnoted]
    clear_value gathered
    split
    · exact hgathered
    · simp [hgathered]

theorem execKvFetch_canonical (c : CoreIx) (desc : List W64) {s : State} (hs : Canonical s) :
    AnswersCanonical (execKvFetch c desc s) := by
  unfold execKvFetch
  extract_lets w p r q layer pair cls cnt pos o so g counted row blocks fs k zeros va t0 data
  have hcounted : Canonical counted := by simp [counted, hs]
  have hzeros : ∀ {u : State}, Canonical u → Canonical (zeros u) := fun hu => by
    unfold zeros
    split <;> simp [hu]
  clear_value counted zeros
  split
  · exact hs
  split
  · simp [hcounted]
  split
  · simp [hcounted]
  split
  · simp [hcounted]
  split
  · simp [hcounted]
  split
  · simp [hcounted]
  split
  · simp [hcounted]
  split
  · exact hs
  · simp [register_faults_canonical ‹_›, hcounted]
  next hok =>
    have ht := (register_ok_canonical hok).mpr hcounted
    split
    · exact hzeros (by simp [ht])
    split
    · rw [answersCanonical_next]
      split <;> simp [hs, hcounted]
    split
    · exact hs
    extract_lets learned read stored scaled found
    have hread : Canonical read := sliceRd_canonical (hzeros (by simp [learned, ht])) ..
    have hstored : Canonical stored := (canonical_foldl (fun _ _ => storeMoved_canonical ..) _ _).mpr hread
    have hscaled : Canonical scaled :=
      canonical_foldl_of (fun _ _ hu => (storeMoved_canonical ..).mpr (sliceRd_canonical hu ..)) _ hstored
    have hfound : Canonical found := by
      clear_value scaled
      unfold found
      split <;> simp [hscaled]
    exact kvStamp_canonical hfound ..

theorem sliceAtom_fst_canonical {s : State} (hs : Canonical s) {t : State} {who : Requester} {va w : Option Nat} {pa : Nat}
    {op : AtomicOp} {x cmp old : W64} {bad mark : Bool} (h : sliceAtom s who va w pa op x cmp bad = (t, old, mark)) : Canonical t := by
  simpa [h] using sliceAtom_canonical hs who va w pa op x cmp bad

theorem execRemoteCopy_canonical (c : CoreIx) (toPeer : Bool) (m : Fin 32) (win : Fin 64) (off va len : Nat) {s : State} (hs : Canonical s) :
    AnswersCanonical (execRemoteCopy c toPeer m win off va len s) := by
  unfold execRemoteCopy
  extract_lets w p counted
  have hcounted : Canonical counted := by simp [counted, hs]
  clear_value counted
  split
  · exact hs
  split
  · simp [hcounted]
  refine canonical_foldl_of (fun u q hu => ?_) _ hcounted
  extract_lets ps learned
  have hlearned : Canonical learned := learnRange_canonical hu ..
  clear_value learned ps
  split
  · simp [hlearned]
  split
  · exact canonical_foldl_fst (fun _ _ ha => (hostReadOut_canonical ..).mpr ha) _ hlearned
  extract_lets read
  have hread : Canonical read := sliceRds_canonical hlearned ..
  clear_value read
  split
  rw [sendRequest_canonical]
  split <;> simp [hread]

theorem execMsgAtomic_canonical (l : LinkIx) {s : State} (hs : Canonical s) : AnswersCanonical (execMsgAtomic l s) := by
  unfold execMsgAtomic
  split
  · exact hs
  extract_lets m met off op word
  have hmet : Canonical met := by simp [met, takeMsg_canonical ‹_›, hs]
  clear_value met
  split
  · simp [hmet]
  split
  · exact hmet
  split
  · exact hs
  split
  simp [sliceAtom_fst_canonical hmet ‹_›]

theorem execCmdCopy_canonical (w : RingIx) {s : State} (hs : Canonical s) : AnswersCanonical (execCmdCopy w s) := by
  unfold execCmdCopy
  split
  · exact hs
  extract_lets d put m ov hinted
  have hput : Canonical put := by simp [put, hs]
  have hhinted : Canonical hinted := by
    clear_value put
    unfold hinted
    split <;> simp [hput]
  clear_value put hinted
  split
  · exact hs
  split
  · simp [hput]
  split
  · simp [hput]
  split
  · simp [hput]
  split
  · simp [hput]
  split
  · simp [hs]
  split
  · exact hs
  split
  · exact hs
  · simp [registerCopy_faults_canonical ‹_›, hhinted]
  extract_lets copied released
  have hcopied : Canonical copied := by
    refine canonical_foldl_of (fun u i hu => ?_) _ ((registerCopy_ok_canonical ‹_›).mpr hhinted)
    split <;> simp [hu]
  have hreleased : Canonical released := (canonical_foldl (fun _ _ => release_canonical ..) _ _).mpr hcopied
  simp [hreleased]

theorem execCmdKernel_canonical (w : RingIx) {s : State} (hs : Canonical s) : AnswersCanonical (execCmdKernel w s) := by
  unfold execCmdKernel
  split
  · exact hs
  extract_lets p va n put learned
  have hput : Canonical put := by simp [put, hs]
  have hlearned : Canonical learned := learnRange_canonical hput ..
  clear_value put learned
  split
  · simp [hput]
  split
  · exact hs
  split
  · simp [hput]
  extract_lets read
  have hread : Canonical read := sliceRds_canonical hlearned ..
  clear_value read
  split
  · simp [hread]
  · split <;> simp [hread]

theorem execSequencerAtomic_canonical (c : CoreIx) (va : Nat) (op : AtomicOp) (operand comparand : W64) {s : State} (hs : Canonical s) :
    AnswersCanonical (execSequencerAtomic c va op operand comparand s) := by
  unfold execSequencerAtomic
  split
  · exact hs
  extract_lets w p learned
  split
  · simp [hs]
  split
  · exact hs
  split
  · simp [hs]
  split
  · exact hs
  extract_lets counted
  have hcounted : Canonical counted := by simp [counted, learned, hs]
  clear_value counted
  split
  rw [answersCanonical_next]
  split <;> simp [sliceAtom_fst_canonical hcounted ‹_›]

theorem execDeepSleepEntry_canonical {s : State} (hs : Canonical s) : AnswersCanonical (execDeepSleepEntry s) := by
  unfold execDeepSleepEntry
  extract_lets t evicted slept emptied stopped
  have hevicted : Canonical evicted := canonical_foldl_of (fun _ e hu => evict_canonical hu e.1 e.2) _ hs
  have hslept : Canonical slept := by
    clear_value evicted
    refine (canonical_foldl (fun u c => ?_) _ _).mpr hevicted
    split
    · rfl
    · split <;> simp
  clear_value slept
  split
  · exact hs
  · simp [stopped, emptied, hslept]

theorem execSequencerStore_canonical (c : CoreIx) (va : Nat) (data : List Byte) (final : Bool) {s : State} (hs : Canonical s) :
    AnswersCanonical (execSequencerStore c va data final s) := by
  unfold execSequencerStore
  extract_lets w p counted n updated
  have hcounted : Canonical counted := by simp [counted, hs]
  clear_value counted
  split
  · exact hs
  split
  · simp [hcounted]
  · simp [updated, hcounted]

theorem execDtuWalkDone_canonical (n : Nat) {s : State} (hs : Canonical s) : AnswersCanonical (execDtuWalkDone n s) := by
  unfold execDtuWalkDone
  split
  · exact hs
  split
  · exact hs
  extract_lets c w hostOk x _ taken read
  have htaken : Canonical taken := by
    rw [canonical_mk, mem_wf_iff]
    exact hs
  have hread : Canonical read := canonical_foldl_of (fun _ a hu => sliceRd_canonical hu .dtu none w a 8) _ htaken
  clear_value read x w
  split
  · simp [hread]
  · split <;> simp [hread]

theorem execMsgRead_canonical (l : LinkIx) {s : State} (hs : Canonical s) : AnswersCanonical (execMsgRead l s) := by
  unfold execMsgRead
  split
  · exact hs
  extract_lets m n p ps read bytes at_ found
  have hu := takeMsg_canonical ‹_›
  have hread : Canonical read := canonical_foldl_of (fun _ _ hu => sliceRd_canonical hu ..) _ (hu.mpr hs)
  have hfound : Canonical found := by
    clear_value read at_
    unfold found
    split <;> simp [hread]
  clear_value found
  split
  · simp [hu, hs]
  split
  · exact hs
  · simp [hfound]

theorem execKernelStart_canonical (w : RingIx) {s : State} (hs : Canonical s) : AnswersCanonical (execKernelStart w s) := by
  unfold execKernelStart
  split
  · exact hs
  split
  · exact hs
  split
  · simp [hs]
  extract_lets id gang key announced p hinted learned
  have hannounced : Canonical announced := by
    unfold announced
    split <;> simp [hs]
  have hlearned : Canonical learned := canonical_foldl_of (fun _ e hu => learnEntry_canonical hu ..) _ (by simp [hinted, hannounced])
  clear_value announced learned
  split
  · exact hannounced
  split
  · simp [hannounced]
  split
  · exact hannounced
  split
  · simp [hannounced]
  extract_lets loaded
  have hloaded : Canonical loaded := canonical_foldl_of (fun _ y hu => loadCore_canonical hu ..) _ hlearned
  clear_value loaded
  split <;> simp [hloaded]

theorem execSlotTake_canonical (w : RingIx) (hostWords : List W64) {s : State} (hs : Canonical s) :
    AnswersCanonical (execSlotTake w hostWords s) := by
  unfold execSlotTake
  split
  · exact hs
  split
  · simp [hs]
  extract_lets a words
  split
  · exact hs
  split
  · simp [hs]
  · exact hs

theorem execRemoteWriteDeliver_canonical (n : Nat) {s : State} (hs : Canonical s) : AnswersCanonical (execRemoteWriteDeliver n s) := by
  unfold execRemoteWriteDeliver
  repeat' split
  all_goals simp [hs]

theorem execKpuJournalReplay_canonical (u : StackIx) {s : State} (hs : Canonical s) : AnswersCanonical (execKpuJournalReplay u s) := by
  unfold execKpuJournalReplay
  split
  · exact hs
  · exact (wr_canonical ..).mpr (canonical_foldl_of (fun _ r hu => replayRegion_canonical hu r _) _ hs)

theorem execRestart_canonical (who : MbxWho) {s : State} (hs : Canonical s) : AnswersCanonical (execRestart who s) := by
  exact mbxGo_canonical hs who fun _ => moduleReset_canonical _

end Sys2Proof.Proofs
end

section
/-!
PROOFS. Every command keeps memory in its form (R146, R211, R222).
-/
namespace Sys2Proof.Proofs
open Sys2Proof.Machine Sys2Proof.Safety Sys2Proof.Laws

/-! ### Accesses of the host to registers -/

theorem onBit_canonical {s : State} (hs : Canonical s) (k : Nat) {r : State → Res} (hr : AnswersCanonical (r s)) (v : W64) :
    AnswersCanonical (onBit k r v s) := by
  unfold onBit
  split
  · exact hr
  · exact hs

theorem thenDo_canonical {r : Res} {f : State → Res} (hr : AnswersCanonical r) (hf : ∀ {u : State}, Canonical u → AnswersCanonical (f u)) :
    AnswersCanonical (thenDo r f) := by
  cases r with
  | next s => exact hf hr
  | fault e => trivial
  | refused e => trivial

theorem writeRqCtl_canonical {s : State} (hs : Canonical s) (fn w : Nat) (v : W64) : AnswersCanonical (writeRqCtl fn w v s) := by
  unfold writeRqCtl
  split
  · exact execRqCommit_canonical _ _ hs
  · exact execRqStart_canonical _ hs
  · exact execRqStop_canonical _ hs
  · exact execRqAbort_canonical _ hs
  · exact execRqRewind_canonical _ hs
  · exact hs

theorem writeCqCtl_canonical {s : State} (hs : Canonical s) (fn q : Nat) (v : W64) : AnswersCanonical (writeCqCtl fn q v s) := by
  unfold writeCqCtl
  split
  · exact hs
  · refine execCqCommit_canonical _ ?_
    split <;> simp [hs]

theorem writePrtCtl_canonical {s : State} (hs : Canonical s) (p : Nat) (v : W64) : AnswersCanonical (writePrtCtl p v s) := by
  unfold writePrtCtl
  split
  · exact execPartitionCommit_canonical _ hs
  · exact execPartitionReset_canonical _ hs
  · exact hs

theorem writeBootReset_canonical {s : State} (hs : Canonical s) (v : W64) : AnswersCanonical (writeBootReset v s) := by
  unfold writeBootReset
  split
  · exact execBootResetModule_canonical s
  · exact execBootResetCompute_canonical hs
  · split
    · exact execBootResetCore_canonical _ hs
    · exact hs
  · exact hs

theorem writeHaltCtl_canonical {s : State} (hs : Canonical s) (v : W64) : AnswersCanonical (writeHaltCtl v s) := by
  unfold writeHaltCtl
  split
  · exact execHaltStart_canonical _ hs
  · exact execHaltRelease_canonical ((writeFields_canonical ..).mpr hs)
  · exact (writeFields_canonical ..).mpr hs

theorem mailboxGo_canonical {s : State} (hs : Canonical s) (opcode : Nat) : AnswersCanonical (mailboxGo opcode s) := by
  unfold mailboxGo
  split
  · exact execGetReport_canonical _ hs
  · exact execImageBegin_canonical _ hs
  · exact execImageWrite_canonical _ hs
  · exact execImageVerify_canonical _ hs
  · exact execRestart_canonical _ hs
  · exact mbxGo_canonical hs _ fun hu => (mbxResult_canonical ..).mpr hu

theorem writeMbxCtl_canonical {s : State} (hs : Canonical s) (v : W64) : AnswersCanonical (writeMbxCtl v s) :=
  thenDo_canonical (onBit_canonical hs 0 (execMbxClaim_canonical hs) v) fun hu =>
    thenDo_canonical (onBit_canonical hu 1 (execMbxRelease_canonical .host hu) v) fun ht => onBit_canonical ht 2 (mailboxGo_canonical ht _) v

theorem writeImpCtl_canonical {s : State} (hs : Canonical s) (p : Nat) (v : W64) : AnswersCanonical (writeImpCtl p v s) :=
  thenDo_canonical (onBit_canonical hs 0 (execSealImportStart_canonical _ hs) v) fun hu =>
    onBit_canonical hu 1 (execSealUnseal_canonical _ _ hu) v

theorem writeLnkCtl_canonical {s : State} (hs : Canonical s) (l : Nat) (v : W64) : AnswersCanonical (writeLnkCtl l v s) := by
  refine thenDo_canonical (onBit_canonical hs 0 (execLinkCommit_canonical _ hs) v) fun hu => onBit_canonical hu 1 ?_ v
  split
  · exact execLinkRekeyRequest_canonical _ hu
  · exact hu

theorem portEnable_canonical (n : Nat) {s t : State} (ht : Canonical t) : Canonical (portEnable n s t) := by
  unfold portEnable
  split
  · dsimp only
    split <;> simp [ht]
  · simp [ht]
  · exact ht

theorem traceEnable_canonical (fn c : Nat) {s t : State} (ht : Canonical t) : Canonical (traceEnable fn c s t) := by
  unfold traceEnable
  split
  · dsimp only
    split <;> simp [ht]
  · exact ht

theorem snapTake_canonical {s : State} (hs : Canonical s) (fn c : Nat) : AnswersCanonical (snapTake fn c s) := by
  unfold snapTake
  refine execCntSnapTake_canonical _ ?_
  split <;> simp [hs]

theorem writeTscCtl_canonical {s : State} (hs : Canonical s) (v : W64) : Canonical (writeTscCtl v s) := by
  unfold writeTscCtl
  extract_lets d t
  have ht : Canonical t := (writeFields_canonical ..).mpr hs
  split
  · split
    · exact ht
    · rw [wr_canonical, canonical_mk, mem_wf_iff]
      exact ht
  · exact hs

theorem msixWrite_canonical {s : State} (hs : Canonical s) (fn off : Nat) (v : W64) : AnswersCanonical (msixWrite s fn off v) := by
  unfold msixWrite
  dsimp only
  split
  · exact hs
  split
  · simp [hs]
  split
  · exact execMsixUnmask_canonical _ _ (by simp [hs])
  · simp [hs]

/-- What a write of the register starts keeps the form, from the state before and the state after its fields are stored. -/
def ActionCanonical (a : RegAction) : Prop :=
  ∀ fn i j v {s t : State}, Canonical s → Canonical t → AnswersCanonical (a.run fn i j v s t)

theorem regActionsA_canonical : ∀ a ∈ regActionsA, ActionCanonical a := by
  simp only [regActionsA, List.forall_mem_cons, List.not_mem_nil, false_implies, implies_true, and_true]
  exact ⟨fun _ _ _ v _ _ _ h => onBit_canonical h 0 (execGuardCommit_canonical _ h) v,
    fun _ _ _ v _ _ _ h => onBit_canonical h 0 (execKpuRgnCommit_canonical _ _ h) v,
    fun _ _ _ v _ _ _ h => onBit_canonical h 0 (execMemCommit_canonical h) v,
    fun _ _ _ v _ _ _ h => onBit_canonical h 0 (execCchWayCommit_canonical h) v,
    fun _ _ _ v _ _ _ h => onBit_canonical h 0 (execCchFlushStart_canonical h) v,
    fun _ _ _ _ _ _ _ h => execDtuInvalidate_canonical _ _ h,
    fun _ _ _ _ _ _ _ h => execDtuCtxRootWrite_canonical _ _ h,
    fun _ _ _ v _ _ _ h => onBit_canonical h 0 (execSeqSchedCommit_canonical h) v,
    fun _ _ _ v _ _ _ h => writeRqCtl_canonical h _ _ v,
    fun _ _ _ v _ _ _ h => writeCqCtl_canonical h _ _ v,
    fun _ _ _ v _ _ _ h => writePrtCtl_canonical h _ v,
    fun _ _ _ v _ _ _ h => onBit_canonical h 0 (execRangeCommit_canonical h) v,
    fun _ _ _ v _ _ _ h => onBit_canonical h 0 (execIsoCommit_canonical h) v,
    fun _ _ _ v _ _ _ h => onBit_canonical h 0 (execRollbackAdvance_canonical h) v,
    fun _ _ _ v _ _ _ h => writeImpCtl_canonical h _ v⟩

theorem regActionsB_canonical : ∀ a ∈ regActionsB, ActionCanonical a := by
  simp only [regActionsB, List.forall_mem_cons, List.not_mem_nil, false_implies, implies_true, and_true]
  exact ⟨fun _ _ _ v _ _ _ h => onBit_canonical h 0 (execDomainCommit_canonical h) v,
    fun _ _ _ v _ _ _ h => onBit_canonical h 0 (execWindowCommit_canonical h) v,
    fun _ _ _ v _ _ _ h => writeLnkCtl_canonical h _ v,
    fun _ _ _ _ _ _ _ h => execLnkInjCfgWrite_canonical _ _ h,
    fun _ _ _ v _ _ _ h => writeMbxCtl_canonical h v,
    fun _ n _ v s _ _ h => onBit_canonical (portEnable_canonical n h) 0 (execCxlPortReset_canonical _ (portEnable_canonical n (s := s) h)) v,
    fun _ _ _ v _ _ _ h => onBit_canonical h 0 (execPwrCommit_canonical h) v,
    fun _ _ _ v _ _ _ h => onBit_canonical h 0 (execClkCommit_canonical h) v,
    fun _ _ _ v _ _ _ h => onBit_canonical h 0 (execBootNextCommit_canonical h) v,
    fun _ _ _ v _ _ _ h => writeBootReset_canonical h v,
    fun _ _ _ v _ _ _ h => writeHaltCtl_canonical h v,
    fun _ _ _ _ _ _ _ h => execRasPddCtlWrite_canonical _ h,
    fun _ _ _ v _ _ _ h => onBit_canonical h 2 (execCntClear_canonical _ h) v,
    fun _ _ _ v _ _ _ h => onBit_canonical h 0 (snapTake_canonical h _ _) v,
    fun fn c _ _ _ _ _ h => traceEnable_canonical fn c h,
    fun fn c m v _ _ _ h => execWatchpointEnable_canonical (finFn fn) (.spd (finCore c) (Fin.ofNat 2 m)) v h,
    fun fn n _ v _ _ _ h => execWatchpointEnable_canonical (finFn fn) (.mem (fin16 n)) v h,
    fun _ _ _ v _ _ _ h => onBit_canonical h 0 (execDbgSnapArm_canonical _ h) v,
    fun _ _ _ _ _ _ _ h => execTscSet_canonical _ h,
    fun _ _ _ _ _ _ _ h => execTscPpsNextWrite_canonical _ h,
    fun _ _ _ v _ _ _ h => writeTscCtl_canonical h v⟩

theorem actionAt_canonical {off i j : Nat} {a : RegAction} (h : actionAt off = some (a, i, j)) : ActionCanonical a := by
  obtain ⟨b, hb, hmap⟩ := List.exists_of_findSome?_eq_some h
  obtain ⟨_, _, hab⟩ := Option.map_eq_some_iff.mp hmap
  cases hab
  exact (List.mem_append.mp hb).elim (regActionsA_canonical a) (regActionsB_canonical a)

theorem writeServed_canonical {s : State} (hs : Canonical s) (fn off : Nat) (v : W64) : AnswersCanonical (writeServed s fn off v) := by
  unfold writeServed
  extract_lets _ served
  split
  · exact msixWrite_canonical hs ..
  split
  · simp [hs]
  split
  · simp [hs]
  split
  · simp [hs]
  · refine actionAt_canonical ‹_› _ _ _ _ hs ?_
    split <;> simp [hs]

theorem writeNow_canonical {s : State} (hs : Canonical s) (fn off size : Nat) (v : W64) : AnswersCanonical (writeNow s fn off size v) := by
  unfold writeNow
  split
  · exact hs
  · refine writeServed_canonical ?_ ..
    split <;> simp [hs]

theorem perform_canonical {s : State} (hs : Canonical s) (h : Held) : AnswersCanonical (perform s h) := by
  cases h with
  | read fn off size => exact (readNow_canonical ..).mpr hs
  | write fn off size v => exact writeNow_canonical hs ..
  | bar2read fn bar4 off len =>
    cases bar4
    · exact bar2ReadNow_canonical hs ..
    · exact bar4ReadNow_canonical hs ..
  | bar2write fn off data poison relaxed => exact (bar2WriteNow_canonical ..).mpr hs
  | bar4write fn off data poison => exact (bar4WriteNow_canonical ..).mpr hs
  | atomic fn off op x cmp => exact atomicNow_canonical hs ..

theorem arrive_canonical {s : State} (hs : Canonical s) (h : Held) : AnswersCanonical (arrive s h) := by
  unfold arrive
  dsimp only
  split
  · exact perform_canonical ((notIdle_canonical s).mpr hs) h
  · simp [hs]

theorem debugEffect_canonical {s : State} (hs : Canonical s) (p cls addr c : Nat) (data : List Byte) :
    AnswersCanonical (debugEffect s p cls addr c data) := by
  unfold debugEffect
  extract_lets off inPad
  split
  · simp [hs]
  · simp [hs]
  · rw [answersCanonical_next]
    split <;> simp [hs]
  · rw [answersCanonical_next]
    split <;> simp [hs]
  · split
    · split
      next heq => simp [show Canonical _ from by simpa [heq] using (readServed_canonical s 0 off).mpr hs]
    · simp [hs]
  · split
    · exact writeServed_canonical hs ..
    · exact hs
  · simp [hs]
  · simp [hs]
  · exact hs

/-! ### Commands of the host that reach registers and memory -/

theorem execDebugAccess_canonical (p : PartIx) (cls : Nat) (requester : Fin 3) (addr : Nat) (c : CoreIx) (data : List Byte) {s : State}
    (hs : Canonical s) : AnswersCanonical (execDebugAccess p cls requester addr c data s) := by
  unfold execDebugAccess
  dsimp only
  split
  · exact hs
  split
  · simp [hs]
  split
  · simp [hs]
  split
  · exact hs
  · exact debugEffect_canonical (by simp [hs]) ..

theorem execHeldAccessProceed_canonical (n : Nat) {s : State} (hs : Canonical s) : AnswersCanonical (execHeldAccessProceed n s) := by
  unfold execHeldAccessProceed
  split
  · exact hs
  split
  · exact perform_canonical (by simp [hs]) _
  · simp [hs]

theorem execBar2Write_canonical (fn : FnIx) (off : Nat) (data : List Byte) (poison relaxed : Bool) {s : State} (hs : Canonical s) :
    AnswersCanonical (execBar2Write fn off data poison relaxed s) := arrive_canonical hs _

theorem execRegisterReadClear_canonical (fn : FnIx) (off size : Nat) {s : State} (hs : Canonical s) :
    AnswersCanonical (execRegisterReadClear fn off size s) := arrive_canonical hs _

theorem execBar4Write_canonical (fn : FnIx) (off : Nat) (data : List Byte) (poison : Bool) {s : State} (hs : Canonical s) :
    AnswersCanonical (execBar4Write fn off data poison s) := arrive_canonical hs _

theorem execRegisterWrite_canonical (fn : FnIx) (off size : Nat) (v : W64) (poison : Bool) {s : State} (hs : Canonical s) :
    AnswersCanonical (execRegisterWrite fn off size v s poison) := by
  unfold execRegisterWrite
  split
  · simp [hs]
  · exact arrive_canonical hs _

theorem execBar2Read_canonical (fn : FnIx) (off len : Nat) (bar4 : Bool) {s : State} (hs : Canonical s) :
    AnswersCanonical (execBar2Read fn off len s bar4) := arrive_canonical hs _

theorem execBarAtomicop_canonical (fn : FnIx) (bar : Nat) (off size : Nat) (op : AtomicOp) (operand comparand : W64) {s : State}
    (hs : Canonical s) : AnswersCanonical (execBarAtomicop fn bar off size op operand comparand s) := by
  unfold execBarAtomicop
  split
  · dsimp only
    split <;> simp [hs]
  · exact arrive_canonical hs _

/-! ### Every command -/

/-- Whatever a command answers keeps memory canonical (R146, R211, R222). -/
theorem exec_canonical (i : Instr) {s : State} (hs : Canonical s) : AnswersCanonical (exec i s) := by
  cases i with
  | registerWrite => exact execRegisterWrite_canonical (hs := hs) ..
  | registerReadClear => exact execRegisterReadClear_canonical (hs := hs) ..
  | barAtomicop => exact execBarAtomicop_canonical (hs := hs) ..
  | bar2Read => exact execBar2Read_canonical (hs := hs) ..
  | bar2Write => exact execBar2Write_canonical (hs := hs) ..
  | bar4Write => exact execBar4Write_canonical (hs := hs) ..
  | configRequest => exact execConfigRequest_canonical (hs := hs) ..
  | heldAccessProceed => exact execHeldAccessProceed_canonical (hs := hs) ..
  | remoteWriteDeliver => exact execRemoteWriteDeliver_canonical (hs := hs) ..
  | packetRelease => exact execPacketRelease_canonical (hs := hs) ..
  | passIssue => exact execPassIssue_canonical (hs := hs) ..
  | passHeadCheck => exact execPassHeadCheck_canonical (hs := hs) ..
  | setFillStart => exact execSetFillStart_canonical (hs := hs) ..
  | setFillDone => exact execSetFillDone_canonical (hs := hs) ..
  | harpKStep => exact execHarpKStep_canonical (hs := hs) ..
  | setDrainStart => exact execSetDrainStart_canonical (hs := hs) ..
  | setDrainDone => exact execSetDrainDone_canonical (hs := hs) ..
  | harpInternalError => exact execHarpInternalError_canonical (hs := hs) ..
  | commandStopped => exact execCommandStopped_canonical (hs := hs) ..
  | fiddleInstruction => exact execFiddleInstruction_canonical (hs := hs) ..
  | polyTableLoad => exact execPolyTableLoad_canonical (hs := hs) ..
  | polyTableLoadDone => exact execPolyTableLoadDone_canonical (hs := hs) ..
  | epilogueStart => exact execEpilogueStart_canonical (hs := hs) ..
  | epilogueResultComplete => exact execEpilogueResultComplete_canonical (hs := hs) ..
  | tileSend => exact execTileSend_canonical (hs := hs) ..
  | outputStageRelease => exact execOutputStageRelease_canonical (hs := hs) ..
  | tileCreditTimeout => exact execTileCreditTimeout_canonical (hs := hs) ..
  | landingSlotArm => exact execLandingSlotArm_canonical (hs := hs) ..
  | tileImageLand => exact execTileImageLand_canonical (hs := hs) ..
  | passCreditWaitEnd => exact execPassCreditWaitEnd_canonical (hs := hs) ..
  | creditArrive => exact execCreditArrive_canonical (hs := hs) ..
  | gather => exact execGather_canonical (hs := hs) ..
  | gatherRowLand => exact execGatherRowLand_canonical (hs := hs) ..
  | spdEccWriteback => exact execSpdEccWriteback_canonical (hs := hs) ..
  | spdClearDone => exact execSpdClearDone_canonical (hs := hs) ..
  | sequencerLoad => exact execSequencerLoad_canonical (hs := hs) ..
  | sequencerStore => exact execSequencerStore_canonical (hs := hs) ..
  | sequencerAtomic => exact execSequencerAtomic_canonical (hs := hs) ..
  | volatileRead => exact execVolatileRead_canonical (hs := hs) ..
  | acquireRead => exact execAcquireRead_canonical (hs := hs) ..
  | acquireInvalidateDone => exact execAcquireInvalidateDone_canonical (hs := hs) ..
  | rangeInvalidate => exact execRangeInvalidate_canonical (hs := hs) ..
  | rangeInvalidateDone => exact execRangeInvalidateDone_canonical (hs := hs) ..
  | fence => exact execFence_canonical (hs := hs) ..
  | fenceComplete => exact execFenceComplete_canonical (hs := hs) ..
  | remoteLoad => exact execRemoteLoad_canonical (hs := hs) ..
  | remoteStore => exact execRemoteStore_canonical (hs := hs) ..
  | remoteAtomic => exact execRemoteAtomic_canonical (hs := hs) ..
  | remoteCopy => exact execRemoteCopy_canonical (hs := hs) ..
  | finalWriteCoreArrive => exact execFinalWriteCoreArrive_canonical (hs := hs) ..
  | finalWriteRelease => exact execFinalWriteRelease_canonical (hs := hs) ..
  | finalWriteResend => exact execFinalWriteResend_canonical (hs := hs) ..
  | finalWriteSourceRelease => exact execFinalWriteSourceRelease_canonical (hs := hs) ..
  | finalTimeout => exact execFinalTimeout_canonical (hs := hs) ..
  | sliceWriteLand => exact execSliceWriteLand_canonical (hs := hs) ..
  | sliceRead => exact execSliceRead_canonical (hs := hs) ..
  | sliceAtomic => exact execSliceAtomic_canonical (hs := hs) ..
  | kernelBoundary => exact execKernelBoundary_canonical (hs := hs) ..
  | guardCommit => exact execGuardCommit_canonical (hs := hs) ..
  | guardCopyDone => exact execGuardCopyDone_canonical (hs := hs) ..
  | kvOpen => exact execKvOpen_canonical (hs := hs) ..
  | kvAppend => exact execKvAppend_canonical (hs := hs) ..
  | kvCommit => exact execKvCommit_canonical (hs := hs) ..
  | kvFork => exact execKvFork_canonical (hs := hs) ..
  | kvTruncate => exact execKvTruncate_canonical (hs := hs) ..
  | kvClose => exact execKvClose_canonical (hs := hs) ..
  | kvPin => exact execKvPin_canonical (hs := hs) ..
  | kvFetch => exact execKvFetch_canonical (hs := hs) ..
  | kpuJournalReplay => exact execKpuJournalReplay_canonical (hs := hs) ..
  | kpuRgnCommit => exact execKpuRgnCommit_canonical (hs := hs) ..
  | kpuRgnInitDone => exact execKpuRgnInitDone_canonical (hs := hs) ..
  | kpuRgnDestroyDone => exact execKpuRgnDestroyDone_canonical (hs := hs) ..
  | channelRetrainDone => exact execChannelRetrainDone_canonical (hs := hs) ..
  | patrolScrubRead => exact execPatrolScrubRead_canonical (hs := hs) ..
  | cchFlushStart => exact execCchFlushStart_canonical (hs := hs) ..
  | cchFlushDone => exact execCchFlushDone_canonical (hs := hs) ..
  | cchWayCommit => exact execCchWayCommit_canonical (hs := hs) ..
  | memCommit => exact execMemCommit_canonical (hs := hs) ..
  | cxlPortDown => exact execCxlPortDown_canonical (hs := hs) ..
  | cxlPortUp => exact execCxlPortUp_canonical (hs := hs) ..
  | cxlPortReset => exact execCxlPortReset_canonical (hs := hs) ..
  | cxlEventLogRead => exact execCxlEventLogRead_canonical (hs := hs) ..
  | dtuWalk => exact execDtuWalk_canonical (hs := hs) ..
  | dtuWalkDone => exact execDtuWalkDone_canonical (hs := hs) ..
  | dtuInvalidate => exact execDtuInvalidate_canonical (hs := hs) ..
  | dtuInvalidateDone => exact execDtuInvalidateDone_canonical (hs := hs) ..
  | dtuCtxRootWrite => exact execDtuCtxRootWrite_canonical (hs := hs) ..
  | sarabandeWake => exact execSarabandeWake_canonical (hs := hs) ..
  | ringPoll => exact execRingPoll_canonical (hs := hs) ..
  | slotTake => exact execSlotTake_canonical (hs := hs) ..
  | rqCommit => exact execRqCommit_canonical (hs := hs) ..
  | rqStart => exact execRqStart_canonical (hs := hs) ..
  | rqStop => exact execRqStop_canonical (hs := hs) ..
  | rqAbort => exact execRqAbort_canonical (hs := hs) ..
  | rqRewind => exact execRqRewind_canonical (hs := hs) ..
  | cqCommit => exact execCqCommit_canonical (hs := hs) ..
  | seqSchedCommit => exact execSeqSchedCommit_canonical (hs := hs) ..
  | cmdKernel => exact execCmdKernel_canonical (hs := hs) ..
  | cmdCopy => exact execCmdCopy_canonical (hs := hs) ..
  | cmdKvOps => exact execCmdKvOps_canonical (hs := hs) ..
  | cmdNop => exact execCmdNop_canonical (hs := hs) ..
  | kernelStart => exact execKernelStart_canonical (hs := hs) ..
  | kernelBegin => exact execKernelBegin_canonical (hs := hs) ..
  | endInstruction => exact execEndInstruction_canonical (hs := hs) ..
  | endInstructionComplete => exact execEndInstructionComplete_canonical (hs := hs) ..
  | completionRecordWrite => exact execCompletionRecordWrite_canonical (hs := hs) ..
  | cqControlReread => exact execCqControlReread_canonical (hs := hs) ..
  | msixHoldoffExpiry => exact execMsixHoldoffExpiry_canonical (hs := hs) ..
  | msixUnmask => exact execMsixUnmask_canonical (hs := hs) ..
  | eventsDroppedReport => exact execEventsDroppedReport_canonical (hs := hs) ..
  | residencyDecision => exact execResidencyDecision_canonical (hs := hs) ..
  | beatInstruction => exact execBeatInstruction_canonical (hs := hs) ..
  | coreStateSaveDone => exact execCoreStateSaveDone_canonical (hs := hs) ..
  | jobResume => exact execJobResume_canonical (hs := hs) ..
  | beatLimitExpiry => exact execBeatLimitExpiry_canonical (hs := hs) ..
  | hintInstruction => exact execHintInstruction_canonical (hs := hs) ..
  | snapshotInstruction => exact execSnapshotInstruction_canonical (hs := hs) ..
  | traceMarkInstruction => exact execTraceMarkInstruction_canonical (hs := hs) ..
  | kvOpInstruction => exact execKvOpInstruction_canonical (hs := hs) ..
  | partitionCommit => exact execPartitionCommit_canonical (hs := hs) ..
  | partitionReset => exact execPartitionReset_canonical (hs := hs) ..
  | partitionResetDone => exact execPartitionResetDone_canonical (hs := hs) ..
  | rangeCommit => exact execRangeCommit_canonical (hs := hs) ..
  | rangeClearDone => exact execRangeClearDone_canonical (hs := hs) ..
  | isoCommit => exact execIsoCommit_canonical (hs := hs) ..
  | isoApplied => exact execIsoApplied_canonical (hs := hs) ..
  | sealImportStart => exact execSealImportStart_canonical (hs := hs) ..
  | sealImportDone => exact execSealImportDone_canonical (hs := hs) ..
  | sealClearDone => exact execSealClearDone_canonical (hs := hs) ..
  | sealUnseal => exact execSealUnseal_canonical (hs := hs) ..
  | rollbackAdvance => exact execRollbackAdvance_canonical (hs := hs) ..
  | rollbackAdvanceDone => exact execRollbackAdvanceDone_canonical (hs := hs) ..
  | getVersion => exact execGetVersion_canonical (hs := hs) ..
  | getCapabilities => exact execGetCapabilities_canonical (hs := hs) ..
  | negotiateAlgorithms => exact execNegotiateAlgorithms_canonical (hs := hs) ..
  | getDigests => exact execGetDigests_canonical (hs := hs) ..
  | getCertificate => exact execGetCertificate_canonical (hs := hs) ..
  | challenge => exact execChallenge_canonical (hs := hs) ..
  | getMeasurements => exact execGetMeasurements_canonical (hs := hs) ..
  | keyExchange => exact execKeyExchange_canonical (hs := hs) ..
  | finish => exact execFinish_canonical (hs := hs) ..
  | endSession => exact execEndSession_canonical (hs := hs) ..
  | spdmSignatureDone => exact execSpdmSignatureDone_canonical (hs := hs) ..
  | getTdispVersion => exact execGetTdispVersion_canonical (hs := hs) ..
  | getTdispCapabilities => exact execGetTdispCapabilities_canonical (hs := hs) ..
  | lockInterfaceRequest => exact execLockInterfaceRequest_canonical (hs := hs) ..
  | getDeviceInterfaceReport => exact execGetDeviceInterfaceReport_canonical (hs := hs) ..
  | getDeviceInterfaceState => exact execGetDeviceInterfaceState_canonical (hs := hs) ..
  | startInterfaceRequest => exact execStartInterfaceRequest_canonical (hs := hs) ..
  | stopInterfaceRequest => exact execStopInterfaceRequest_canonical (hs := hs) ..
  | ideIntegrityFailure => exact execIdeIntegrityFailure_canonical (hs := hs) ..
  | debugAccess => exact execDebugAccess_canonical (hs := hs) ..
  | linkFrameSend => exact execLinkFrameSend_canonical (hs := hs) ..
  | linkFrameReceive => exact execLinkFrameReceive_canonical (hs := hs) ..
  | linkAckTimeout => exact execLinkAckTimeout_canonical (hs := hs) ..
  | linkLoss => exact execLinkLoss_canonical (hs := hs) ..
  | linkLossOfSignal => exact execLinkLossOfSignal_canonical (hs := hs) ..
  | msgWrite => exact execMsgWrite_canonical (hs := hs) ..
  | msgRead => exact execMsgRead_canonical (hs := hs) ..
  | msgReadData => exact execMsgReadData_canonical (hs := hs) ..
  | msgAtomic => exact execMsgAtomic_canonical (hs := hs) ..
  | msgAtomicData => exact execMsgAtomicData_canonical (hs := hs) ..
  | msgWriteAck => exact execMsgWriteAck_canonical (hs := hs) ..
  | msgTile => exact execMsgTile_canonical (hs := hs) ..
  | msgCredit => exact execMsgCredit_canonical (hs := hs) ..
  | msgRefused => exact execMsgRefused_canonical (hs := hs) ..
  | hello => exact execHello_canonical (hs := hs) ..
  | cert => exact execCert_canonical (hs := hs) ..
  | kem => exact execKem_canonical (hs := hs) ..
  | confirm => exact execConfirm_canonical (hs := hs) ..
  | rekey => exact execRekey_canonical (hs := hs) ..
  | syncReq => exact execSyncReq_canonical (hs := hs) ..
  | syncResp => exact execSyncResp_canonical (hs := hs) ..
  | gang => exact execGang_canonical (hs := hs) ..
  | goodbye => exact execGoodbye_canonical (hs := hs) ..
  | quiesce => exact execQuiesce_canonical (hs := hs) ..
  | haltNotice => exact execHaltNotice_canonical (hs := hs) ..
  | releaseNotice => exact execReleaseNotice_canonical (hs := hs) ..
  | linkCommit => exact execLinkCommit_canonical (hs := hs) ..
  | linkRekeyRequest => exact execLinkRekeyRequest_canonical (hs := hs) ..
  | linkTrainingDone => exact execLinkTrainingDone_canonical (hs := hs) ..
  | linkRetry => exact execLinkRetry_canonical (hs := hs) ..
  | linkQuiesceDone => exact execLinkQuiesceDone_canonical (hs := hs) ..
  | linkRemapResume => exact execLinkRemapResume_canonical (hs := hs) ..
  | domainCommit => exact execDomainCommit_canonical (hs := hs) ..
  | windowCommit => exact execWindowCommit_canonical (hs := hs) ..
  | syncExchangeTimer => exact execSyncExchangeTimer_canonical (hs := hs) ..
  | syncHoldoverTimeout => exact execSyncHoldoverTimeout_canonical (hs := hs) ..
  | lnkInjCfgWrite => exact execLnkInjCfgWrite_canonical (hs := hs) ..
  | perstAssert => exact execPerstAssert_canonical (hs := hs) ..
  | perstRelease => exact execPerstRelease_canonical (hs := hs) ..
  | hotReset => exact execHotReset_canonical (hs := hs) ..
  | flrPf => exact execFlrPf_canonical (hs := hs) ..
  | flrVf => exact execFlrVf_canonical (hs := hs) ..
  | mbxClaim => exact execMbxClaim_canonical (hs := hs) ..
  | mbxRelease => exact execMbxRelease_canonical (hs := hs) ..
  | mbxOwnerTimeout => exact execMbxOwnerTimeout_canonical (hs := hs) ..
  | getReport => exact execGetReport_canonical (hs := hs) ..
  | imageBegin => exact execImageBegin_canonical (hs := hs) ..
  | imageWrite => exact execImageWrite_canonical (hs := hs) ..
  | imageVerify => exact execImageVerify_canonical (hs := hs) ..
  | restart => exact execRestart_canonical (hs := hs) ..
  | mbxOpDone => exact execMbxOpDone_canonical (hs := hs) ..
  | pldmRequestUpdate => exact execPldmRequestUpdate_canonical (hs := hs) ..
  | pldmSensorRead => exact execPldmSensorRead_canonical (hs := hs) ..
  | inputVoltageChange => exact execInputVoltageChange_canonical (hs := hs) ..
  | regulatorFault => exact execRegulatorFault_canonical _ _ s
  | coreGate => exact execCoreGate_canonical (hs := hs) ..
  | coreSleep => exact execCoreSleep_canonical (hs := hs) ..
  | coreOff => exact execCoreOff_canonical (hs := hs) ..
  | coreWakeDone => exact execCoreWakeDone_canonical (hs := hs) ..
  | deepSleepEntry => exact execDeepSleepEntry_canonical (hs := hs) ..
  | deepSleepWake => exact execDeepSleepWake_canonical (hs := hs) ..
  | deepSleepWakeDone => exact execDeepSleepWakeDone_canonical (hs := hs) ..
  | clockStepDone => exact execClockStepDone_canonical (hs := hs) ..
  | telemetrySample => exact execTelemetrySample_canonical (hs := hs) ..
  | estimatorFit => exact execEstimatorFit_canonical (hs := hs) ..
  | calibCompare => exact execCalibCompare_canonical (hs := hs) ..
  | telemetryLossTimeout => exact execTelemetryLossTimeout_canonical (hs := hs) ..
  | currentWindowEval => exact execCurrentWindowEval_canonical (hs := hs) ..
  | moduleLimiterTick => exact execModuleLimiterTick_canonical (hs := hs) ..
  | hintLapse => exact execHintLapse_canonical (hs := hs) ..
  | harpGate => exact execHarpGate_canonical (hs := hs) ..
  | admissionSlot => exact execAdmissionSlot_canonical (hs := hs) ..
  | thermalLimiterTick => exact execThermalLimiterTick_canonical (hs := hs) ..
  | thermalClamp => exact execThermalClamp_canonical (hs := hs) ..
  | thermalTrip => exact execThermalTrip_canonical (hs := hs) ..
  | pwrCommit => exact execPwrCommit_canonical (hs := hs) ..
  | clkCommit => exact execClkCommit_canonical (hs := hs) ..
  | stageAonBootRom => exact execStageAonBootRom_canonical (hs := hs) ..
  | stageImageVerification => exact execStageImageVerification_canonical (hs := hs) ..
  | stageFloorPlanLoad => exact execStageFloorPlanLoad_canonical (hs := hs) ..
  | stageClocks => exact execStageClocks_canonical (hs := hs) ..
  | stageMemoryTraining => exact execStageMemoryTraining_canonical (hs := hs) ..
  | stageMemoryTest => exact execStageMemoryTest_canonical (hs := hs) ..
  | stageCoreKnownAnswer => exact execStageCoreKnownAnswer_canonical (hs := hs) ..
  | stageLinkTraining => exact execStageLinkTraining_canonical (hs := hs) ..
  | stageHostFunctionReady => exact execStageHostFunctionReady_canonical (hs := hs) ..
  | stageOperational => exact execStageOperational_canonical (hs := hs) ..
  | bootNextCommit => exact execBootNextCommit_canonical (hs := hs) ..
  | bootNextStored => exact execBootNextStored_canonical (hs := hs) ..
  | bootResetModule => exact execBootResetModule_canonical s
  | bootResetCompute => exact execBootResetCompute_canonical (hs := hs) ..
  | bootResetCore => exact execBootResetCore_canonical (hs := hs) ..
  | computeResetDone => exact execComputeResetDone_canonical (hs := hs) ..
  | fieldTestDue => exact execFieldTestDue_canonical (hs := hs) ..
  | fieldTestDone => exact execFieldTestDone_canonical (hs := hs) ..
  | rasPddCtlWrite => exact execRasPddCtlWrite_canonical (hs := hs) ..
  | maintActivityStart => exact execMaintActivityStart_canonical (hs := hs) ..
  | rowRepairDone => exact execRowRepairDone_canonical (hs := hs) ..
  | maintOverdue => exact execMaintOverdue_canonical (hs := hs) ..
  | fatalFault => exact execFatalFault_canonical (hs := hs) ..
  | haltStart => exact execHaltStart_canonical (hs := hs) ..
  | haltCut => exact execHaltCut_canonical (hs := hs) ..
  | haltComplete => exact execHaltComplete_canonical (hs := hs) ..
  | haltRelease => exact execHaltRelease_canonical (hs := hs) ..
  | errorRecordFlash => exact execErrorRecordFlash_canonical (hs := hs) ..
  | correctedRateCheck => exact execCorrectedRateCheck_canonical (hs := hs) ..
  | cntClear => exact execCntClear_canonical (hs := hs) ..
  | cntSnapTake => exact execCntSnapTake_canonical (hs := hs) ..
  | dbgSnapArm => exact execDbgSnapArm_canonical (hs := hs) ..
  | dbgSnapshot => exact execDbgSnapshot_canonical (hs := hs) ..
  | watchpointEnable => exact execWatchpointEnable_canonical (hs := hs) ..
  | traceRecordWrite => exact execTraceRecordWrite_canonical (hs := hs) ..
  | tscTick => exact execTscTick_canonical (hs := hs) ..
  | ppsEdge => exact execPpsEdge_canonical (hs := hs) ..
  | refLock => exact execRefLock_canonical (hs := hs) ..
  | timingInputChange => exact execTimingInputChange_canonical (hs := hs) ..
  | ppsTimeout => exact execPpsTimeout_canonical (hs := hs) ..
  | tscHoldoverTimeout => exact execTscHoldoverTimeout_canonical (hs := hs) ..
  | tscSet => exact execTscSet_canonical (hs := hs) ..
  | tscPpsNextWrite => exact execTscPpsNextWrite_canonical (hs := hs) ..
  | leakSensorRead => exact execLeakSensorRead_canonical (hs := hs) ..
  | idcode => exact execIdcode_canonical (hs := hs) ..
  | bypass => exact execBypass_canonical (hs := hs) ..
  | samplePreload => exact execSamplePreload_canonical (hs := hs) ..
  | extest => exact execExtest_canonical (hs := hs) ..
  | clamp => exact execClamp_canonical (hs := hs) ..
  | highz => exact execHighz_canonical (hs := hs) ..
  | debugTransportOpen => exact execDebugTransportOpen_canonical (hs := hs) ..
  | pcieLinkUp => exact execPcieLinkUp_canonical (hs := hs) ..
  | ideKmRequest => exact execIdeKmRequest_canonical (hs := hs) ..
  | vendorResetMessage => exact execVendorResetMessage_canonical (hs := hs) ..
  | vendorDefinedClaim => exact execVendorDefinedClaim_canonical (hs := hs) ..
  | prechargeInForce => exact execPrechargeInForce_canonical (hs := hs) ..
  | hostLinkReadCompletion => exact execHostLinkReadCompletion_canonical (hs := hs) ..
  | completionTimeout => exact execCompletionTimeout_canonical (hs := hs) ..

theorem step_canonical {s : State} (hs : Canonical s) : AnswersCanonical (step s) := by
  unfold step
  split
  · exact hs
  · exact exec_canonical _ ((withPending_canonical ..).mpr hs)

/-- Settles O56: each command's effect is composed of operations on the state that write, mark or clear memory in its canonical form,
or leave it as it is. -/
theorem memoryFormIsKept : Obligations.MemoryFormIsKept := by
  unfold Obligations.MemoryFormIsKept Kept
  intro s t hs hstep
  exact answersCanonical_next.mp (hstep ▸ step_canonical hs)

end Sys2Proof.Proofs
end

section
/-!
PROOFS. The boundary of a command and the guard tables of a partition (R158, R166).
-/
namespace Sys2Proof.Proofs
open Sys2Proof.Machine Sys2Proof.Safety Sys2Proof.Laws

/-! ### The boundary (R158) -/

theorem leaveKernel_ring (s : State) (k c : Nat) : (coreAt (leaveKernel s k) c).ring = if c = k then none else (coreAt s c).ring := by
  have hcores : ∀ j, coreAt (abandonCore s k) j = coreAt s j := coreAt_congr (abandonCore_keeps s k .cores (by decide))
  have hleave : (leaveKernel s k).cores =
      (onCore (abandonCore s k) k (fun x => { x with cache := [], ring := none, slots := [], credits := [], sent := [] })).cores := by
    unfold leaveKernel
    dsimp only
  rw [coreAt_congr hleave, coreAt_onCore, hcores, hcores]
  split
  · simp only
  · rfl

/-- The state after the cores of a command on ring w have left their kernel. -/
def kernelLeft (w : Nat) (cs : List Nat) (s : State) : State :=
  cs.foldl (fun s c => if (coreAt s c).ring = some w then leaveKernel s c else s) s

theorem kernelLeft_keeps (w : Nat) (cs : List Nat) (s : State) : AgreeOutside [.cores, .harps, .ord] s (kernelLeft w cs s) :=
  Agree.foldl (fun u c => by
    split
    · exact leaveKernel_keeps u c
    · exact Agree.refl _ u) (Agree.refl _ s)

theorem kernelLeft_ring {w : Nat} {cs : List Nat} {c : Nat} (hc : c ∈ cs) (s : State) : (coreAt (kernelLeft w cs s) c).ring ≠ some w := by
  refine foldl_establishes (Q := fun c u => (coreAt u c).ring ≠ some w) (fun u c _ => ?_) (fun u d _ c h => ?_) hc s
  · split
    · rw [leaveKernel_ring, if_pos rfl]
      exact nofun
    · assumption
  · split
    · rw [leaveKernel_ring]
      split
      · exact nofun
      · exact h
    · exact h

/-- A command at its boundary, with the time its kernel ran. -/
def boundedCmd (s : State) (k : Cmd) : Cmd :=
  { k with phase := .bounded, runNs := if getBits (k.words.getD 0 0) 8 4 = 1 then k.runNs else s.utime - k.started }

/-- The state after a boundary passes: the command is at its boundary, and its cores are free for another ring. -/
def boundaryPassed (s : State) (w : Nat) (k : Cmd) : State :=
  onRing (kernelLeft w k.cores s) w (fun r => { r with cmd := some (boundedCmd s k), gangEnded := [] })

theorem kernelBoundary_runs {w : RingIx} {k : Cmd} {s : State} (hcmd : (ringAt s w).cmd = some k) (hphase : k.phase = .ended)
    (hbusy : ringBusy s w = false)
    (hgang : getBits (k.words.getD 0 0) 8 4 = 1 → rdB s R.SEQ_RQ_CFG_GANG_EN w 0 = false ∧ gangAllEnded s w = true) :
    Runs (.kernelBoundary w) s (boundaryPassed s w k) := by
  have htell : (rdB s R.SEQ_RQ_CFG_GANG_EN w 0 && !decide (myModule s ∈ (ringAt s w).gangEnded) &&
      decide (getBits (k.words.getD 0 0) 8 4 = 1)) = false := by
    by_cases h : getBits (k.words.getD 0 0) 8 4 = 1
    · simp [(hgang h).1]
    · simp only [h, decide_false, Bool.and_false]
  have hwait : ¬ (k.causes = 0 ∧ decide (getBits (k.words.getD 0 0) 8 4 = 1) = true ∧ gangAllEnded s w = false) := by
    rintro ⟨-, h, hall⟩
    rw [(hgang (of_decide_eq_true h)).2] at hall
    exact Bool.noConfusion hall
  rw [Runs, exec_kernelBoundary, execKernelBoundary, hcmd]
  dsimp only
  rw [if_neg (by simp [hphase, hbusy]), htell, if_neg (by simpa using hwait)]
  rfl

theorem boundaryPassed_cmd (s : State) (w : Nat) (k : Cmd) : (ringAt (boundaryPassed s w k) w).cmd = some (boundedCmd s k) := by
  rw [boundaryPassed, ringAt_onRing, if_pos rfl]

theorem boundaryPassed_core {w : Nat} {k : Cmd} {c : Nat} (hc : c ∈ k.cores) (s : State) :
    (coreAt (boundaryPassed s w k) c).ring ≠ some w := by
  rw [boundaryPassed, coreAt_congr (onRing_keeps _ _ _ .cores (by decide))]
  exact kernelLeft_ring hc s

theorem boundaryPassed_rings (s : State) (w : Nat) (k : Cmd) : RingsOutside [w] s (boundaryPassed s w k) :=
  ringsOutside_trans (fun x _ => ringAt_congr (kernelLeft_keeps w k.cores s .sch (by decide)) x) (ringsOutside_onRing _ w _)

theorem boundaryPassed_keeps (s : State) (w : Nat) (k : Cmd) : AgreeOutside [.cores, .harps, .ord, .sch] s (boundaryPassed s w k) :=
  Agree.step (onRing_keeps _ _ _) rfl (Agree.mono (kernelLeft_keeps w k.cores s) rfl)

/-! ### Guard tables (R166) -/

theorem guardCommit_applies {p : PartIx} {s : State} (hidle : rdB s R.PRT_GUARD_STATUS_PENDING p 0 = false) :
    Runs (.guardCommit p) s (applyGuards s p (copyShadow s (guardRegs p))) := by
  rw [Runs, exec_guardCommit, execGuardCommit, hidle]
  rfl

theorem applyGuards_rejects {s : State} {p : Nat} {cp : List (Nat × W64)} (h : ∃ g ∈ guardSet (rdIn cp) p, g.hi ≤ g.lo) :
    applyGuards s p cp = wr s R.PRT_GUARD_STATUS_REJECTED p 0 1 := by
  obtain ⟨g, hg, hempty⟩ := h
  exact if_pos (List.any_eq_true.mpr ⟨g, hg, decide_eq_true hempty⟩)

/-- The state after guard table gs of partition p is taken and given to the cores that are off. -/
def guardsTaken (s : State) (p : Nat) (cp : List (Nat × W64)) : State :=
  let t := wr (wr (commitCopy s cp) R.PRT_GUARD_STATUS_ENTRIES p 0 (guardSet (rdIn cp) p).length) R.PRT_GUARD_STATUS_PENDING p 0 1
  { t with ord := { t.ord with guardCopy := SMap.put (fun _ => []) t.ord.guardCopy p (guardSet (rdIn cp) p) } }

/-- The state after the cores of a list that meet a condition hold a guard table. -/
def guardsGiven (cs : List Nat) (on : State → Nat → Bool) (gs : List Guard) (s : State) : State :=
  cs.foldl (fun s c => if on s c then s else onCore s c (fun x => { x with guards := gs })) s

theorem guardsGiven_keeps (cs : List Nat) (on : State → Nat → Bool) (gs : List Guard) (s : State) :
    AgreeOutside [.cores] s (guardsGiven cs on gs s) :=
  Agree.foldl (fun u c => by
    split
    · exact Agree.refl _ u
    · exact onCore_keeps u c _) (Agree.refl _ s)

theorem applyGuards_accepts {s : State} {p : Nat} {cp : List (Nat × W64)} (h : ∀ g ∈ guardSet (rdIn cp) p, g.lo < g.hi) :
    applyGuards s p cp = guardsGiven (partCores (guardsTaken s p cp) p) (fun s c => coreOn s c) (guardSet (rdIn cp) p) (guardsTaken s p cp) := by
  refine if_neg fun hany => ?_
  obtain ⟨g, hg, hempty⟩ := List.any_eq_true.mp hany
  have hlt := h g hg
  have hle := of_decide_eq_true hempty
  omega

theorem applyGuards_copies {s : State} {p : Nat} {cp : List (Nat × W64)} (h : ∀ g ∈ guardSet (rdIn cp) p, g.lo < g.hi) :
    rdB (applyGuards s p cp) R.PRT_GUARD_STATUS_PENDING p 0 = true ∧
      SMap.look (fun _ => []) (applyGuards s p cp).ord.guardCopy p = guardSet (rdIn cp) p := by
  have hkeep := guardsGiven_keeps (partCores (guardsTaken s p cp) p) (fun s c => coreOn s c) (guardSet (rdIn cp) p) (guardsTaken s p cp)
  rw [applyGuards_accepts h]
  constructor
  · rw [rdB_eq, rd_congr (hkeep .regs (by decide))]
    exact decide_eq_true (rd_wr_self _ R.PRT_GUARD_STATUS_PENDING p 0 1 (by decide))
  · rw [show (guardsGiven _ _ _ _).ord = _ from hkeep .ord (by decide)]
    exact smap_look_put_self ..

/-- The state after every core of a list holds a guard table. -/
def allGuarded (cs : List Nat) (gs : List Guard) (s : State) : State := cs.foldl (fun u c => onCore u c (fun x => { x with guards := gs })) s

theorem allGuarded_keeps (cs : List Nat) (gs : List Guard) (s : State) : AgreeOutside [.cores] s (allGuarded cs gs s) :=
  Agree.foldl (fun u c => onCore_keeps u c _) (Agree.refl _ s)

theorem allGuarded_guards {cs : List Nat} {c : Nat} (hc : c ∈ cs) (gs : List Guard) (s : State) :
    (coreAt (allGuarded cs gs s) c).guards = gs := by
  refine foldl_establishes (Q := fun c u => (coreAt u c).guards = gs) (fun u c _ => ?_) (fun u d _ c h => ?_) hc s
  · rw [coreAt_onCore, if_pos rfl]
  · rw [coreAt_onCore]
    split
    · simp only
    · exact h

/-- The state with no copy of partition p's guard table left to make. -/
def copyEnded (s : State) (p : Nat) : State := { s with ord := { s.ord with guardCopy := SMap.put (fun _ => []) s.ord.guardCopy p [] } }

theorem copyEnded_keeps (s : State) (p : Nat) : AgreeOutside [.ord] s (copyEnded s p) := by
  intro q hq
  cases q with
  | ord => exact absurd (List.mem_singleton.mpr rfl) hq
  | _ => rfl

/-- The state after the copy of partition p's guard table has reached its cores. -/
def guardsCopied (s : State) (p : Nat) : State :=
  copyEnded (wr (allGuarded (partCores s p) (SMap.look (fun _ => []) s.ord.guardCopy p) s) R.PRT_GUARD_STATUS_PENDING p 0 0) p

theorem guardsCopied_keeps (s : State) (p : Nat) : AgreeOutside [.regs, .ord, .cores] s (guardsCopied s p) :=
  Agree.step (copyEnded_keeps _ p) rfl (Agree.step (wr_keeps _ _ _ _ _) rfl (Agree.mono (allGuarded_keeps _ _ s) rfl))

theorem guardQueue_copyEnded (s : State) (p : Nat) : guardQueue (copyEnded s p) p = guardQueue s p := rfl

theorem guardsCopied_queue (s : State) (p : Nat) : guardQueue (guardsCopied s p) p = guardQueue s p := by
  have hord : (wr (allGuarded (partCores s p) (SMap.look (fun _ => []) s.ord.guardCopy p) s) R.PRT_GUARD_STATUS_PENDING p 0 0).ord = s.ord :=
    (wr_ord ..).trans (allGuarded_keeps _ _ s .ord (by decide))
  rw [guardsCopied, guardQueue_copyEnded, guardQueue, guardQueue, hord]

theorem guardCopyDone_runs {p : PartIx} {s : State} (hpending : rdB s R.PRT_GUARD_STATUS_PENDING p 0 = true) (hqueue : guardQueue s p = []) :
    Runs (.guardCopyDone p) s (guardsCopied s p) := by
  have hdone : execGuardCopyDone p s = .next (drainGuards (guardQueue (guardsCopied s p) p).length (guardsCopied s p) p) := by
    rw [execGuardCopyDone, hpending]
    rfl
  rw [Runs, exec_guardCopyDone, hdone, guardsCopied_queue, hqueue]
  rfl

theorem guardsCopied_idle (s : State) (p : Nat) : rdB (guardsCopied s p) R.PRT_GUARD_STATUS_PENDING p 0 = false := by
  rw [rdB_eq, guardsCopied, rd_congr (copyEnded_keeps _ p .regs (by decide)), rd_wr_self _ _ _ _ _ (by decide)]
  decide

theorem guardsCopied_guards {s : State} {p c : Nat} (hc : c ∈ partCores s p) :
    (coreAt (guardsCopied s p) c).guards = SMap.look (fun _ => []) s.ord.guardCopy p := by
  rw [guardsCopied, coreAt_congr (copyEnded_keeps _ p .cores (by decide)), coreAt_congr (wr_cores ..)]
  exact allGuarded_guards hc _ s

/-- Settles O18: a boundary without a gang, and the commits and copies of a partition's guard table. -/
theorem boundaryAndGuards : Obligations.BoundaryAndGuards := by
  unfold Obligations.BoundaryAndGuards
  refine ⟨fun w k s hcmd hphase hbusy hgang => ?_, fun p s hidle hempty => ?_, fun p s hidle hfull => ?_, fun p s hpending hqueue => ?_⟩
  · exact ⟨_, _, kernelBoundary_runs hcmd hphase hbusy hgang, boundaryPassed_cmd s w k, rfl, rfl, rfl,
      fun c hc => boundaryPassed_core hc s, boundaryPassed_rings s w k, boundaryPassed_keeps s w k⟩
  · rw [← applyGuards_rejects hempty]
    exact guardCommit_applies hidle
  · obtain ⟨hpending, hcopy⟩ := applyGuards_copies (s := s) hfull
    exact ⟨_, guardCommit_applies hidle, hpending, hcopy, Agree.mono (applyGuards_keeps s p _) rfl⟩
  · exact ⟨_, guardCopyDone_runs hpending hqueue, guardsCopied_idle s p, fun c hc => guardsCopied_guards hc, guardsCopied_keeps s p⟩

end Sys2Proof.Proofs
end

section
/-!
PROOFS. The invariants at the state after reset (R146, R211, R233, R371).
-/
namespace Sys2Proof.Proofs
open Sys2Proof.Machine Sys2Proof.Safety Sys2Proof.Laws

theorem ringsOk_reset : RingsOk State.reset :=
  ⟨fun c w h => (nomatch (coreAt_reset c ▸ h : Core.fresh.ring = some w)),
    fun r y _ hy _ => (nomatch (ringAt_reset r ▸ hy : y ∈ Ring.fresh.save)), fun _ _ h _ => (nomatch (h : _ ∈ ([] : List HeldRec)))⟩

theorem logOk_reset : LogOk State.reset := fun _ h => nomatch (h : _ ∈ ([] : List FieldEntry))

/-- Settles O55: after reset memory lists nothing, every core and ring is fresh, and the queue, the hold buffer and the field log are
empty. -/
theorem resetMeetsTheInvariants : Obligations.ResetMeetsTheInvariants := by
  unfold Obligations.ResetMeetsTheInvariants
  exact ⟨memory_wf_empty, ringsOk_reset, logOk_reset, rfl⟩

end Sys2Proof.Proofs
end

section
/-!
PROOFS. A fence and the flights before it (R157).
-/
namespace Sys2Proof.Proofs
open Sys2Proof.Machine Sys2Proof.Safety Sys2Proof.Laws

/-- A write of core 0 with number 3 that carries what the copy operation numbered 100 read: number 100 orders it (R148). -/
def copyFlight : Flight := { flightOf (.core 0) (.mem 0) [] false false none none none with id := 3, op := some 100 }

/-- Core 0 waits at a fence for the operations below number 5, and the flight of a later copy is under way. -/
def fencedState : State :=
  { State.reset with
    cores := [(0, { Core.fresh with fenceAt := some 5 })]
    ord := { State.reset.ord with flights := [copyFlight], nextId := 101 } }

theorem fencedState_fence : (coreAt fencedState 0).fenceAt = some 5 := rfl

theorem fencedState_done : coreDone fencedState 0 5 = true := rfl

theorem fencedState_completes :
    Runs (.fenceComplete 0) fencedState (onCore fencedState 0 (fun x => { x with fenceAt := none })) := by
  rw [Runs, exec_fenceComplete, execFenceComplete]
  change whenDo (coreDone fencedState 0 5) _ _ = _
  rw [fencedState_done]
  rfl

/-- Refutes O14: its last clause keeps a fence waiting for every flight of the core whose identifier is below the fence's number. The
order among operations goes by `Flight.num`, which for a flight that carries a copy's data is the copy's number (R148): the flight
of copy 100 with identifier 3 does not hold back the fence at 5, and the fence completes. -/
theorem not_invalidationsAndFences : ¬ Obligations.InvalidationsAndFences := by
  unfold Obligations.InvalidationsAndFences
  rintro ⟨-, -, -, -, -, hwaits⟩
  have hstays : Runs (.fenceComplete 0) fencedState fencedState :=
    hwaits 0 5 copyFlight fencedState fencedState_fence (List.mem_singleton.mpr rfl) rfl (by decide)
  have hsame := Host.Outcome.next.inj (fencedState_completes.symm.trans hstays)
  have hnone : (coreAt (onCore fencedState 0 (fun x => { x with fenceAt := none })) 0).fenceAt = none := by rw [coreAt_onCore, if_pos rfl]
  rw [hsame, fencedState_fence] at hnone
  exact nomatch hnone

end Sys2Proof.Proofs
end

section
/-!
PROOFS. O13 fails: a store sets its mark on every write whose number is not below the counter, its own or not (R152).
-/
namespace Sys2Proof.Proofs
open Sys2Proof.Machine Sys2Proof.Safety Sys2Proof.Laws

/-- A write from the system processor under way with number 5. -/
def aheadFlight : Flight := { flightOf .sarabande (.mem 4096) [] false false none none none with id := 5 }

/-- Core 0 runs ring 0's command with the first 64 KiB translated to themselves; the next number is 0, and a write numbered 5 is under
way. -/
def storingState : State :=
  { State.reset with
    cores := [(0, { Core.fresh with ring := some 0, running := true })]
    sch := { State.reset.sch with rings := [(0, { Ring.fresh with cmd := some { (default : Cmd) with phase := .running } })] }
    ms := { MemSys.fresh with tlb := [⟨none, 0, 0, 0, 65536, true⟩] }
    ord := { State.reset.ord with flights := [aheadFlight] } }

theorem storingState_issues : canIssue storingState 0 = true := by decide +kernel

theorem storingState_pieces : pieces storingState (some 0) 0 true true 0 1 = .ok [(0, 1)] := rfl

theorem storingState_ready : accessWaits storingState (some 0) 0 0 1 false = false := by decide +kernel

theorem storingState_quiet : MemQuiet storingState := by
  unfold MemQuiet
  decide +kernel

theorem storingState_rings : RingsOk storingState := by
  refine ⟨fun c w h => ?_, fun r y w hy => ?_, fun _ _ h => nomatch (h : _ ∈ ([] : List HeldRec))⟩
  · simp [coreAt, storingState, SMap.look] at h
    split at h
    · cases h; decide
    · exact nomatch (h : Core.fresh.ring = some w)
  · simp [ringAt, storingState, SMap.look] at hy
    split at hy <;> exact nomatch (hy : y ∈ ([] : List SavedCore))

/-- The mark of a sequencer's store on the first write under way in the state that a command answers. -/
def firstMark : Res → Option Bool
  | .next t => t.ord.flights.head?.map (·.seq)
  | _ => none

theorem storingState_marks : firstMark (exec (.sequencerStore 0 0 [1] false) storingState) = some true := by decide +kernel

/-- Refutes O13: its store clause has the writes under way as before but for the one appended. A store sets its mark (R152) on every
write with a number from the counter on; the clause does not have the writes under way numbered below the counter, and in
`storingState` the system processor's write, numbered 5 with the counter at 0, gets the mark. -/
theorem not_sequencerMemory : ¬ Obligations.SequencerMemory := by
  unfold Obligations.SequencerMemory
  rintro ⟨-, -, -, -, hstore, -⟩
  obtain ⟨t, f, hruns, hflights, -⟩ := hstore 0 0 0 [1] false storingState storingState_rings storingState_issues storingState_pieces
    (by decide) storingState_ready storingState_quiet
  have hmark := storingState_marks
  rw [Runs] at hruns
  rw [hruns, firstMark, hflights] at hmark
  exact nomatch hmark

end Sys2Proof.Proofs
end

section
/-!
PROOFS. O2 fails: an AtomicOp to a range that R211 leaves absent reads zeros and its write is discarded.
-/
namespace Sys2Proof.Proofs
open Sys2Proof.Machine Sys2Proof.Safety Sys2Proof.Laws

/-- The host link has come up on a module without a stack, and partition 0 is valid with 1 GiB at 1 TiB, where the module has no
memory (R211). -/
def absentState : State :=
  wr (wr (wr (wr (wr { State.reset with hst := { HostSide.fresh with vfEnable := true } } R.BOOT_REPORT_STATE 8 0 2) R.PRT_CFG_VALID 0 0 1)
    R.PRT_RANGE_BASE_VALID 0 0 1) R.PRT_RANGE_BASE_BASE 0 0 1024) R.PRT_RANGE_SIZE_GIB 0 0 1

theorem absentState_place : placeOf absentState (2 ^ 40) = .absent := by decide +kernel

theorem absentState_open : NotHeld absentState ∧ hostWritesLeft absentState = false ∧ bar2Waits absentState 1 0 8 = false := by
  unfold NotHeld
  decide +kernel

theorem absentState_reaches : atomicAddr absentState 1 0 = some (2 ^ 40) := by decide +kernel

theorem absentState_clean : cohPoisonAt absentState (2 ^ 40) 8 = none := by decide +kernel

/-- A word of memory in the state that a command answers. -/
def wordAfter (pa : Nat) : Res → Option W64
  | .next t => some (memWord t.mem pa)
  | _ => none

theorem absentState_discards : wordAfter (2 ^ 40) (exec (.barAtomicop 1 2 0 8 .swap 1 0) absentState) = some 0 := by decide +kernel

/-- Refutes O2: its last clause has the result of every AtomicOp that reaches its word in memory. The range of a partition may lie where
R211 leaves addresses absent: nothing there is poisoned, and a write there is discarded, so the word that 1 was swapped into reads 0. -/
theorem not_bar2AndBar4 : ¬ Obligations.Bar2AndBar4 := by
  unfold Obligations.Bar2AndBar4
  rintro ⟨-, -, -, -, -, -, -, hatomic⟩
  obtain ⟨hnot, hposted, hwaits⟩ := absentState_open
  obtain ⟨t, hruns, -, hword⟩ := hatomic 1 0 (2 ^ 40) .swap 1 0 absentState (by decide) hnot hposted hwaits absentState_reaches
    absentState_clean
  have hzero := absentState_discards
  rw [Runs] at hruns
  rw [hruns, wordAfter, hword] at hzero
  exact absurd hzero (by decide)

end Sys2Proof.Proofs
end

section
/-!
PROOFS. An atomic whose line takes the place of a dirty line of a port that is down, with the buffers of the slice full: the port's
range fails (R227), and the atomic's own write is discarded (R215).
-/
namespace Sys2Proof.Proofs
open Sys2Proof.Machine Sys2Proof.Safety Sys2Proof.Laws

/-! ### A slice whose buffers are full -/

/-- What the registers and slices of `overfull` come to, whatever other registers hold: one stack; port 0 down with its range not
failed, 1 GiB of it partition 0's; one way for that partition, which the dirty line `victim` has; both buffers of the slice full. -/
structure PortFull (line victim : Nat) (s : State) : Prop where
  oneStack : nu s = 1
  capacity : rd s R.CXL_PORT_CAP_GIB 0 0 = 1
  down : portUp s 0 = false
  failed : rdB s R.CXL_PORT_STATUS_FAILED 0 0 = false
  ways : rd s R.CCH_WAYMASK_WAYS 0 0 = 1
  ranges : partRanges s 0 = [(2 ^ 14, 1)]
  ms : s.ms = (overfull line victim).ms

theorem overfull_full (line victim : Nat) : PortFull line victim (overfull line victim) := by
  obtain ⟨hnu, hcap, hdown, hfailed, hways, hranges⟩ := downState_values
  exact ⟨hnu, hcap, hdown, hfailed, hways, hranges, rfl⟩

section
variable {line victim l : Nat} {s : State}

theorem PortFull.inPort (h : PortFull line victim s) (hl : portLine ≤ l ∧ l < portLine + 2 ^ 20) : placeOf s (l * 64) = .cxl 0 := by
  simp only [portLine] at hl
  rw [placeOf, h.oneStack, h.capacity, if_neg (by omega), if_pos (by omega)]

theorem PortFull.owner (h : PortFull line victim s) (hl : portLine ≤ l ∧ l < portLine + 2 ^ 20) : ownerOf s (l * 64) = some 0 := by
  have hin : (offsetOf (partRanges s 0) 0 (l * 64)).isSome = true := by
    simp only [portLine] at hl
    rw [h.ranges, offsetOf, if_pos (by omega)]
    rfl
  exact List.find?_cons_of_pos hin

theorem PortFull.slice_eq (h : PortFull line victim s) (l l' : Nat) : lineSlice s l = lineSlice s l' := by
  simp [lineSlice, homeStack, homeRank, h.oneStack, Nat.mod_one]

theorem PortFull.waits (h : PortFull line victim s) (hras : s.ras = Ras.fresh) (pa n : Nat) : memWaits s pa n = false := by
  have hclear : s.ms.rangeClear = [] := congrArg MemSys.rangeClear h.ms
  have htraining : s.ms.retraining = [] := congrArg MemSys.retraining h.ms
  have hrows : rowsUnderRepair s = [] := by rw [rowsUnderRepair, hras]; rfl
  simp [memWaits, clearingAt, trainingAt, repairAt, hclear, htraining, hrows]

theorem PortFull.kept (h : PortFull line victim s) (hl : OneSet line victim) (htru : s.tru = Trust.fresh) :
    writeLost s (line * 64) = false := by
  have himports : importBlocks s (line * 64) = false := by rw [importBlocks, htru]; rfl
  rw [writeLost_port (h.inPort hl.lineIn), h.failed, himports, Bool.or_false]

theorem PortFull.served (h : PortFull line victim s) (hl : OneSet line victim) : lineLost s line = false := by
  have hbuffer : line ∈ s.ms.wbHeld := by rw [h.ms, overfull_wbHeld]; exact List.mem_cons_self
  rw [lineLost, h.inPort hl.lineIn]
  simp [lostIn, h.failed, hbuffer]

/-- The line takes the place of the dirty one (R215, R216). -/
theorem PortFull.touch_regs (h : PortFull line victim s) (hl : OneSet line victim) :
    (touchLine s line true).regs = (evict s victim ⟨0, true⟩).regs := by
  have hmiss : s.ms.lines.find? (fun e => decide (e.1 = line)) = none := by simp [h.ms, overfull_lines, hl.ne]
  have hset : setLines s line = [(victim, ⟨0, true⟩)] := by
    simp [setLines, h.ms, overfull_lines, h.slice_eq victim line, hl.sameSet]
  rw [touchLine_miss hmiss (h.served hl)]
  exact allocate_replaces (h.owner hl.lineIn) hset (by simp only [h.ways]; decide)

/-- The dirty line overflows both buffers as it leaves (R227). -/
theorem PortFull.evicts (h : PortFull line victim s) (hl : OneSet line victim) :
    ∃ u, RegsOff ErrLogReg s u ∧ evict s victim ⟨0, true⟩ = failPort u 0 := by
  obtain ⟨hne, -, hin, -⟩ := hl
  have hout : RegsOff ErrLogReg s (lineOut s victim) := RegsOff.of_regs rfl
  have hslice : ∀ l, lineSlice (lineOut s victim) l = lineSlice (lineOut s victim) victim := fun l => by
    rw [lineSlice_errLog hout, lineSlice_errLog hout]
    exact h.slice_eq l victim
  have hheld : (lineOut s victim).ms.wbHeld = line :: (List.range 255).map bufferLine :=
    (congrArg MemSys.wbHeld h.ms).trans (overfull_wbHeld _ _)
  have hlost : (lineOut s victim).ms.lost = (List.range 256).map (fun i => bufferLine (256 + i)) :=
    (congrArg MemSys.lost h.ms).trans (overfull_lost _ _)
  refine ⟨_, hout.trans (lineDropped_regs _ 0 victim), (evict_down rfl (h.inPort hin) h.down).trans (evictDown_overflows ?_ ?_ ?_ ?_)⟩
  · rw [hheld]
    simp only [List.mem_cons, List.mem_map, bufferLine]
    rintro (heq | ⟨i, -, hi⟩)
    · exact hne heq
    · omega
  · rw [hlost]
    simp only [List.mem_map, bufferLine]
    rintro ⟨i, -, hi⟩
    omega
  · simp [ofSlice_all hslice, hheld]
  · simp [ofSlice_all hslice, hlost]

theorem PortFull.discards (h : PortFull line victim s) (hl : OneSet line victim) :
    writeLost (touchLine s line true) (line * 64) = true := by
  obtain ⟨u, hu, hevict⟩ := h.evicts hl
  have hregs : (touchLine s line true).regs = (failPort u 0).regs := hevict ▸ h.touch_regs hl
  have hfailed : rdB (touchLine s line true) R.CXL_PORT_STATUS_FAILED 0 0 = true := by
    rw [rdB_eq, rd_congr hregs]
    exact failPort_fails u (by decide)
  have hoff : RegsOff (fun o => ErrLogReg o ∨ o = R.CXL_PORT_STATUS_FAILED.at 0 0) s (touchLine s line true) :=
    ((hu.mono (fun _ => Or.inl)).trans (failPort_regs u 0)).trans (RegsOff.of_regs hregs)
  have hplace : placeOf (touchLine s line true) (line * 64) = .cxl 0 := by
    rw [placeOf_off hoff, h.inPort hl.lineIn] <;> simp [ErrLogReg, Fld.at, R.CXL_PORT_STATUS_FAILED]
  rw [writeLost_port hplace, hfailed, Bool.or_true]

end

/-! ### The atomic -/

theorem linesOf_word (line : Nat) : linesOf (line * 64) 8 = [line] := by
  have hfirst : line * 64 / 64 = line := by omega
  have hcount : (line * 64 + 8 - 1) / 64 - line + 1 = 1 := by omega
  simp only [linesOf, hfirst, hcount]
  rfl

theorem splitLines_within {pa : Nat} : ∀ (fuel : Nat) (data : List Byte), pa % 64 + data.length ≤ 64 →
    ∀ x ∈ splitLines fuel pa data, x.1 = pa
  | 0, _, _, _, hx => nomatch hx
  | _ + 1, [], _, _, hx => nomatch hx
  | fuel + 1, b :: bs, hwithin, x, hx => by
    have hall : min (b :: bs).length (64 - pa % 64) = (b :: bs).length := by omega
    have hrest : ∀ a, splitLines fuel a [] = [] := fun a => by cases fuel <;> rfl
    simp only [splitLines, hall, List.drop_length, hrest, List.mem_singleton] at hx
    rw [hx]

/-- A write within one line that is lost changes no byte. -/
theorem landMem_lost_within {s : State} {pa : Nat} {data : List Byte} {bad : Bool} (h : writeLost s pa = true)
    (hwithin : pa % 64 + data.length ≤ 64) : landMem s pa data bad = s := by
  have hfold : ∀ xs : List (Nat × List Byte), (∀ x ∈ xs, x.1 = pa) →
      xs.foldl (fun s x => if writeLost s x.1 then s else { s with mem := memWrite s.mem x.1 x.2 bad }) s = s := by
    intro xs hxs
    induction xs with
    | nil => rfl
    | cons x xs ih =>
      obtain ⟨hx, hrest⟩ := List.forall_mem_cons.mp hxs
      rw [List.foldl_cons, hx, if_pos h]
      exact ih hrest
  exact hfold _ (splitLines_within _ _ hwithin)

section
variable {line victim : Nat} {s : State}

theorem PortFull.clean (h : PortFull line victim s) (hl : OneSet line victim) (hmem : s.mem = ⟨[], []⟩) :
    cohPoisonAt s (line * 64) 8 = none := by
  have hpoison : memPoison s.mem line = false := by rw [hmem]; rfl
  simp [cohPoisonAt, linesOf_word, hpoison, h.served hl]

theorem PortFull.unmarked (h : PortFull line victim s) (hl : OneSet line victim) (hmem : s.mem = ⟨[], []⟩) :
    (cohRead s (line * 64) 8).2 = false := by
  have hpoison : memPoison s.mem line = false := by rw [hmem]; rfl
  simp [cohRead, memAnyPoison, linesOf_word, hpoison, h.served hl]

theorem memWord_of_empty {m : Memory} (h : m.bytes = []) (a : Nat) : memWord m a = 0 := by
  simp [memWord, memRead, memByte, h, SMap.look, leNat]

/-- The atomic changes no byte of memory: its slice discards its write. -/
theorem PortFull.atomic_bytes (h : PortFull line victim s) (hl : OneSet line victim) (hq : MemQuiet s) (who : Requester)
    (va w : Option Nat) (op : AtomicOp) (x cmp : W64) (bad : Bool) :
    (sliceAtom s who va w (line * 64) op x cmp bad).1.mem.bytes = s.mem.bytes := by
  have htouch : touch s (line * 64) 8 true = touchLine s line true := by rw [touch, linesOf_word]; rfl
  have hlen : ∀ v : Nat, (leBytes 8 v).length = 8 := fun v => by simp [leBytes]
  unfold sliceAtom
  dsimp only
  rw [watchMem_quiet hq]
  split
  · exact (touch_frame s _ _ _).bytes
  · rename_i hmark
    rw [Bool.not_eq_true] at hmark
    rw [hmark, Bool.not_false, htouch, landMem_lost_within (h.discards hl) (by rw [hlen]; omega), wakeRings_keeps _ _ _ .mem (by decide),
      ← htouch]
    exact (touch_frame s _ _ _).bytes

end

end Sys2Proof.Proofs
end

section
/-!
PROOFS. O17 fails: the write of an atomic at a home slice can be discarded after its line has its place (R215, R227).
-/
namespace Sys2Proof.Proofs
open Sys2Proof.Machine Sys2Proof.Safety Sys2Proof.Laws

/-- What an atomic at a slice answers has the bytes of the state before it, or of the operation at its line. -/
theorem sliceAtomic_bytes {who : Requester} {pa : Nat} {op : AtomicOp} {x cmp : W64} {bad : Bool} {med : Medium} {s t : State}
    (h : execSliceAtomic who pa op x cmp bad s med = .next t) :
    t.mem.bytes = s.mem.bytes ∨ t.mem.bytes = (sliceAtom (eccRead s pa 8 med 1) who none none pa op x cmp bad).1.mem.bytes := by
  have hdef := Eq.refl @execSliceAtomic
  conv at hdef => rhs; delta execSliceAtomic
  rw [hdef] at h
  beta_reduce at h
  split at h
  · exact nomatch h
  · exact nomatch h
  split at h
  · exact Or.inl (congrArg (·.mem.bytes) (Host.Outcome.next.inj h).symm)
  split at h
  next heq =>
    right
    rw [heq, ← Host.Outcome.next.inj h]
    rfl

section
variable {line victim : Nat}

theorem overfull_quiet (line victim : Nat) : MemQuiet (overfull line victim) := by
  have hdown : MemQuiet downState := by unfold MemQuiet; decide +kernel
  exact fun n hn => ((overfull_meets line victim).low.rdB _ _ _ (by simp [Fld.at, R.DBG_WP_CFG_ENABLE]; omega)).trans (hdown n hn)

theorem eccRead_port {s : State} {pa n d0 p : Nat} (h : ∀ l ∈ linesOf pa n, placeOf s (l * 64) = .cxl p) :
    eccRead s pa n ⟨[], 0, 0⟩ d0 = s := by
  unfold eccRead
  split
  · rename_i l hl
    rw [eccFound, h l (List.mem_of_find?_eq_some hl)]
    rfl
  · rfl

end

/-- Refutes O17: its clause that an atomic leaves the operation's result in a word that is neither poisoned nor lost (R217). The
atomic's line takes the place of a dirty line of the same port; the port is down, the write-back buffer and the lost list of the slice
are full, so the port's range fails (R227) and the write of the same command is discarded: the word reads 0, not the 1 swapped in. -/
theorem not_slicesAndCommits : ¬ Obligations.SlicesAndCommits := by
  unfold Obligations.SlicesAndCommits
  rintro ⟨-, hatomic, -⟩
  obtain ⟨line, victim, hl⟩ := exists_oneSet
  have hfull := overfull_full line victim
  have hplace := hfull.inPort hl.lineIn
  obtain ⟨t, mark, hruns, -, -, hword⟩ := hatomic .sarabande (line * 64) .swap 1 0 false (overfull line victim) (by simp [hplace])
    (by simp [hplace]) (hfull.waits rfl _ _) (by omega)
  have hport : ∀ l ∈ linesOf (line * 64) 8, placeOf (overfull line victim) (l * 64) = .cxl 0 := by simpa [linesOf_word] using hplace
  have hbytes : t.mem.bytes = [] := by
    rcases sliceAtomic_bytes hruns with h | h
    · exact h
    · rw [h, eccRead_port hport]
      exact hfull.atomic_bytes hl (overfull_quiet _ _) _ _ _ _ _ _ _
  have hone : memWord t.mem (line * 64) = 1 := hword (hfull.clean hl rfl) (hfull.kept hl rfl)
  exact absurd ((memWord_of_empty hbytes _).symm.trans hone) (by decide)

end Sys2Proof.Proofs
end

section
/-!
PROOFS. O39 fails: the write of a peer's atomic can be discarded after its line has its place (R215, R227, R307).
-/
namespace Sys2Proof.Proofs
open Sys2Proof.Machine Sys2Proof.Safety Sys2Proof.Laws

/-! ### A message that an atomic of a peer brings -/

theorem PortFull.of_regs {line victim : Nat} {s t : State} (h : PortFull line victim s) (hregs : t.regs = s.regs) (hms : t.ms = s.ms) :
    PortFull line victim t := by
  have hlow : LowSame s t := LowSame.of_regs hregs
  exact ⟨(nu_congr hlow).trans h.oneStack, (rd_congr hregs _ _ _).trans h.capacity, (portUp_congr hlow 0 (by decide)).trans h.down,
    (hlow.rdB _ _ _ (by decide)).trans h.failed, (rd_congr hregs _ _ _).trans h.ways,
    (partRanges_congr hlow 0).trans h.ranges, hms.trans h.ms⟩

/-- What an atomic of a peer at a word of such a slice answers has the bytes of the state before it. -/
theorem msgAtomic_bytes {l : LinkIx} {line victim : Nat} {msg : Msg} {s u t : State} (hl : OneSet line victim)
    (hfull : PortFull line victim s) (hq : MemQuiet s) (htake : takeMsg s l false (fun m => decide (m.type = 4)) = some (msg, u))
    (hpa : partOffset s (rd s R.LNK_WIN_CFG_PARTITION (msgWindow msg) 0) (msgTarget s msg / 8 * 8) = some (line * 64))
    (h : execMsgAtomic l s = .next t) : t.mem.bytes = s.mem.bytes := by
  have hmeet : ∀ m, AgreeOutside [.lnk] s (meetOrder u m m msg.order) := fun m =>
    Agree.trans (takeMsg_keeps _ _ _ _ _ _ htake) (meetOrder_keeps _ _ _ _)
  have hmem : ∀ m, (meetOrder u m m msg.order).mem.bytes = s.mem.bytes := fun m => congrArg Memory.bytes (hmeet m .mem (by decide))
  unfold execMsgAtomic at h
  rw [htake] at h
  dsimp -zeta only at h
  rw [hpa] at h
  dsimp -zeta only at h
  extract_lets m v off op word at h
  clear_value op
  have hfull' : PortFull line victim v := hfull.of_regs (hmeet m .regs (by decide)) (hmeet m .ms (by decide))
  have hquiet : MemQuiet v := fun n hn => by
    have hlow : LowSame s v := LowSame.of_regs (hmeet m .regs (by decide))
    rw [hlow.rdB _ _ _ (by simp only [Fld.at, R.DBG_WP_CFG_ENABLE]; omega)]
    exact hq n hn
  split at h
  · rw [← Host.Outcome.next.inj h, refuseWrite_keeps _ _ _ _ _ .mem (by decide), hmem]
  split at h
  · rw [← Host.Outcome.next.inj h]
  have hatom := hfull'.atomic_bytes hl hquiet (.peer (Fin.ofNat 32 m)) none none op (word 0) (word 1) msg.poison
  rw [← Host.Outcome.next.inj h, answer_keeps _ _ _ _ .mem (by decide), landedOrder_keeps _ _ _ .mem (by decide), hatom, hmem]

/-! ### The statement fails -/

/-- `downRegs` with link 0, UP, to module 0, whose window 0 maps all of partition 0's memory for that module to write (R318). -/
def linkedRegs : SMap W64 :=
  downRegs ++ [(0xc02000, 3), (0xc02008, 1), (0xc02018, 16384), (0xc10010, 4)]

/-- An atomic of the peer that swaps 1 into the first word of a line, by its offset in window 0 (R298). -/
def swapOf (line : Nat) : Msg :=
  ⟨4, 0, false, false, 0, 0, 0, 0, BitVec.ofNat 64 ((line - portLine) * 64 + 3 * 2 ^ 52), leBytes 8 1 ++ leBytes 8 0⟩

/-- That message waits at link 0, and the slices are as in `overfull`. -/
def linkedState (line victim : Nat) : State :=
  { State.reset with
    regs := linkedRegs
    ms := (overfull line victim).ms
    lnk := { Links.fresh with links := [(0, { LinkRt.fresh with inq := [swapOf line] })] } }

/-- The same registers in a state after reset. -/
def linkedIdle : State := { State.reset with regs := linkedRegs }

theorem linkedIdle_port : nu linkedIdle = 1 ∧ rd linkedIdle R.CXL_PORT_CAP_GIB 0 0 = 1 ∧ portUp linkedIdle 0 = false ∧
    rdB linkedIdle R.CXL_PORT_STATUS_FAILED 0 0 = false ∧ rd linkedIdle R.CCH_WAYMASK_WAYS 0 0 = 1 ∧
    partRanges linkedIdle 0 = [(2 ^ 14, 1)] := by decide +kernel

theorem linkedIdle_quiet : MemQuiet linkedIdle := by
  unfold MemQuiet
  decide +kernel

theorem linkedIdle_window : rdB linkedIdle R.LNK_WIN_CFG_VALID 0 0 = true ∧ rdB linkedIdle R.LNK_WIN_CFG_WRITE 0 0 = true ∧
    rd linkedIdle R.LNK_WIN_CFG_PARTITION 0 0 = 0 ∧ rd linkedIdle R.LNK_WIN_CFG_SRC_PARTITION 0 0 = 0 ∧
    rd linkedIdle R.LNK_WIN_BASE_BASE 0 0 = 0 ∧ rd linkedIdle R.LNK_WIN_SIZE_SIZE 0 0 = 16384 ∧
    rd linkedIdle R.LNK_WIN_SRC_SRC_MODULES 0 0 = 1 ∧ rdB linkedIdle R.PRT_CFG_VALID 0 0 = true ∧
    partSize linkedIdle 0 = 2 ^ 30 ∧ linkPeer linkedIdle 0 = 0 := by decide +kernel

theorem linkedIdle_state : linkState linkedIdle 0 = 4 := by decide +kernel

theorem linkedIdle_awake : dieSleeps linkedIdle = false := by decide +kernel

theorem linkedIdle_unsealed (o : Nat) : sealedAt linkedIdle 0 o = false := by
  have hnone : ∀ e < 16, rdB linkedIdle R.SEC_SEAL_BASE_VALID 0 e = false := by decide +kernel
  simp only [sealedAt, List.any_eq_false, List.mem_range]
  intro e he
  simp [hnone e he]

section
variable {line victim : Nat}

theorem linkedState_full (line victim : Nat) : PortFull line victim (linkedState line victim) := by
  obtain ⟨hnu, hcap, hdown, hfailed, hways, hranges⟩ := linkedIdle_port
  exact PortFull.of_regs (s := { linkedIdle with ms := (overfull line victim).ms }) ⟨hnu, hcap, hdown, hfailed, hways, hranges, rfl⟩ rfl rfl

theorem linkedState_takes (line victim : Nat) : ∃ u, takeMsg (linkedState line victim) 0 false (fun m => decide (m.type = 4)) =
    some (swapOf line, u) := by
  have hfind : (linkAt (linkedState line victim) 0).inq.find? (fun m => decide (isControl m = false)) =
      some (swapOf line) := rfl
  have hawake : dieSleeps (linkedState line victim) = false := linkedIdle_awake
  have hup : linkState (linkedState line victim) 0 = 4 := linkedIdle_state
  have htype : (swapOf line).type = 4 := rfl
  unfold takeMsg
  rw [hfind]
  simp [hawake, hup, htype]

theorem swapOf_fields (hl : OneSet line victim) : msgOffset (swapOf line) = (line - portLine) * 64 ∧ msgWindow (swapOf line) = 0 ∧
    getBits (swapOf line).word1 52 3 = 3 := by
  obtain ⟨hfirst, hlast⟩ := hl.lineIn
  simp only [msgOffset, msgWindow, swapOf, getBits, BitVec.toNat_ofNat]
  omega

theorem linkedState_allows (hl : OneSet line victim) : windowCheck (linkedState line victim) (linkPeer (linkedState line victim) 0) 0
    (msgWindow (swapOf line)) (msgOffset (swapOf line) / 8 * 8) 8 true = none := by
  obtain ⟨hfirst, hlast⟩ := hl.lineIn
  obtain ⟨hoff, hwin, -⟩ := swapOf_fields hl
  obtain ⟨hvalid, hwrite, hpart, hsrc, hbase, hsize, hmodules, hprt, hpsize, hpeer⟩ := linkedIdle_window
  have hsame : ∀ m w o, windowCheck (linkedState line victim) m 0 w o 8 true = windowCheck linkedIdle m 0 w o 8 true := fun _ _ _ => rfl
  have hpeer' : linkPeer (linkedState line victim) 0 = 0 := hpeer
  have hfits : ¬ 16384 * 65536 < (line - portLine) * 64 / 8 * 8 + 8 := by omega
  rw [hsame, hpeer', hoff, hwin]
  simp [windowCheck, hvalid, hwrite, hpart, hsrc, hbase, hsize, hmodules, hprt, hpsize, linkedIdle_unsealed, hfits]

theorem linkedState_target (hl : OneSet line victim) : partOffset (linkedState line victim) (rd (linkedState line victim)
    R.LNK_WIN_CFG_PARTITION (msgWindow (swapOf line)) 0) (msgTarget (linkedState line victim) (swapOf line) / 8 * 8) = some (line * 64) := by
  obtain ⟨hfirst, hlast⟩ := hl.lineIn
  obtain ⟨hoff, hwin, -⟩ := swapOf_fields hl
  obtain ⟨-, -, hpart, -, hbase, -⟩ := linkedIdle_window
  have hpart' : rd (linkedState line victim) R.LNK_WIN_CFG_PARTITION 0 0 = 0 := hpart
  have hbase' : rd (linkedState line victim) R.LNK_WIN_BASE_BASE 0 0 = 0 := hbase
  rw [msgTarget, hwin, hoff, hpart', hbase', partOffset, (linkedState_full line victim).ranges, offsetIn, if_pos (by omega)]
  simp only [portLine] at hfirst ⊢
  congr 1
  omega

end

/-- Refutes O39: its clause that an atomic of a peer acts on its word (R217, R307). As at a home slice, the atomic's line takes the place
of a dirty line of the same port, the port's range fails (R227), and the write of the same command is discarded: the word reads 0, not
the 1 swapped in. -/
theorem not_linkMessages : ¬ Obligations.LinkMessages := by
  unfold Obligations.LinkMessages
  rintro ⟨-, -, -, -, -, hatomic, -⟩
  obtain ⟨line, victim, hl⟩ := exists_oneSet
  obtain ⟨u, htake⟩ := linkedState_takes line victim
  have hfull := linkedState_full line victim
  have hpa := linkedState_target hl
  obtain ⟨-, -, hop⟩ := swapOf_fields hl
  obtain ⟨t, x, hruns, hword, -⟩ := hatomic 0 (swapOf line) (line * 64) .swap (linkedState line victim) u htake
    (linkedState_allows hl) hpa (hfull.waits rfl _ _) rfl (hfull.unmarked hl rfl) (by omega) (hfull.kept hl rfl) (Or.inl linkedIdle_state)
    (by rw [hop]; rfl)
  have hone : memWord t.mem (line * 64) = 1 := hword
  have hbytes : t.mem.bytes = [] := msgAtomic_bytes hl hfull linkedIdle_quiet htake hpa hruns
  exact absurd ((memWord_of_empty hbytes _).symm.trans hone) (by decide)

end Sys2Proof.Proofs
end

section
/-!
PROOFS. The registers that an access at a home slice can change, whatever watchpoints it meets, and the bytes that a write there
can (R146, R215, R431 to R434); with them, what the work of a key-value page unit in memory leaves (R174, R196).
-/
namespace Sys2Proof.Proofs
open Sys2Proof.Machine Sys2Proof.Safety Sys2Proof.Laws

/-! ### The fields of a region's set (R202) -/

/-- The fields that a region's set is read from. -/
def kvFlds : List Fld :=
  [R.KPU_RGN_CFG_VALID, R.KPU_RGN_CFG_PARTITION, R.KPU_RGN_CFG_FMT, R.KPU_RGN_CFG_HEAD_DIM, R.KPU_RGN_CFG_LAYERS, R.KPU_RGN_CFG_PAIRS,
   R.KPU_RGN_CFG_LP_SHIFT, R.KPU_RGN_CFG_SEQ_SHIFT, R.KPU_RGN_CFG_DEMOTE, R.KPU_RGN_CFG_BORROW, R.KPU_RGN_BASE_KV_BASE,
   R.KPU_RGN_SEQTAB_SEQ_TABLE_VA, R.KPU_RGN_NEAR_NEAR_PA, R.KPU_RGN_FAR_FAR_PA, R.KPU_RGN_SCALE_SCALE_PA, R.KPU_RGN_META_META_PA,
   R.KPU_RGN_POOLS_NEAR_PAGES, R.KPU_RGN_POOLS_FAR_PAGES, R.KPU_RGN_LIMITS_MAX_SEQ, R.KPU_RGN_LIMITS_LOW_WM]

/-- Where those fields read alike, so does the set. -/
theorem kvGeoOf_congr {get get' : Fld → Nat → Nat → Nat} {r : Nat} (h : ∀ f ∈ kvFlds, get f r 0 = get' f r 0) :
    kvGeoOf get r = kvGeoOf get' r := by
  simp only [kvFlds, List.forall_mem_cons] at h
  simp only [kvGeoOf, h]

/-- They lie in the nine registers of the set. -/
theorem kvFlds_place : ∀ f ∈ kvFlds, f.step1 = 256 ∧ f.step2 = 0 ∧ 0x740000 ≤ f.base ∧ f.base < 0x740048 := by decide

/-! ### Registers apart from the number of stacks and the sets of regions (R202, R211) -/

/-- Registers other than the number of usable stacks and the committed sets of regions. -/
def OtherReg (o : Nat) : Prop := o ≠ 0x8 ∧ ¬ (0x740000 ≤ o ∧ o < 0x744000 ∧ o % 256 < 0x48)

section
variable {s t : State}

theorem recordReg_other {o : Nat} (h : RecordReg o) : OtherReg o := by
  unfold RecordReg at h
  unfold OtherReg
  omega

theorem otherReg_ring (w : Nat) : OtherReg (R.SEQ_RQ_STATUS_STATE.at w 0) ∧ OtherReg (R.SEQ_RQ_STATUS_STOP_CAUSE.at w 0) ∧
    OtherReg (R.SEQ_RQ_STATUS_NEXT_SLOT.at w 0) ∧ OtherReg (R.SEQ_RQ_STATUS_EXPECT_GEN.at w 0) := by
  simp only [OtherReg, Fld.at, R.SEQ_RQ_STATUS_STATE, R.SEQ_RQ_STATUS_STOP_CAUSE, R.SEQ_RQ_STATUS_NEXT_SLOT,
    R.SEQ_RQ_STATUS_EXPECT_GEN]
  omega

theorem otherReg_hits (n : Nat) : OtherReg (R.DBG_WP_HITS_HITS.at n 0) ∧ OtherReg (R.DBG_HIT_STATUS_WRITTEN.at 0 0) := by
  simp only [OtherReg, Fld.at, R.DBG_WP_HITS_HITS, R.DBG_HIT_STATUS_WRITTEN]
  omega

theorem otherReg_kv (r k : Nat) : OtherReg (R.KPU_EVT_LOW_WATER.at r k) ∧ OtherReg (R.KPU_EVT_BORROWED.at r k) ∧
    OtherReg (R.KPU_EVT_NO_PAGE.at r k) ∧ OtherReg (R.KPU_RGN_STATUS_OPEN_SEQ.at r 0) ∧ OtherReg (R.KPU_RGN_STATUS_STATE.at r 0) := by
  simp only [OtherReg, Fld.at, R.KPU_EVT_LOW_WATER, R.KPU_EVT_BORROWED, R.KPU_EVT_NO_PAGE, R.KPU_RGN_STATUS_OPEN_SEQ,
    R.KPU_RGN_STATUS_STATE]
  omega

theorem ReadFrame.other (h : ReadFrame s t) : RegsOff OtherReg s t := h.regs.mono (fun _ => recordReg_other)

/-- With those registers the number of units is as before (R173). -/
theorem RegsOff.nu (h : RegsOff OtherReg s t) : Machine.nu t = Machine.nu s :=
  h.rd (f := R.GLB_GEOMETRY_STACKS_USABLE) (fun hother => hother.1 rfl)

theorem RegsOff.kvUnit (h : RegsOff OtherReg s t) (q : Nat) : Machine.kvUnit t q = Machine.kvUnit s q := by
  simp only [Machine.kvUnit, h.nu]

/-- With those registers a region's committed fields are as before (R202). -/
theorem RegsOff.kvGeo (h : RegsOff OtherReg s t) {r : Nat} (hr : r < 64) : Machine.kvGeo t r = Machine.kvGeo s r := by
  refine kvGeoOf_congr (fun f hf => h.rd ?_)
  obtain ⟨hstep, hstep2, hlo, hhi⟩ := kvFlds_place f hf
  simp only [OtherReg, Fld.at, hstep, hstep2]
  omega

end

/-! ### Accesses at a home slice (R215, R424, R433, R434) -/

theorem countUnits_other (s : State) (c n u k : Nat) : RegsOff OtherReg s (countUnits s c n u k) :=
  (countUnits_regs s c n u k).mono (fun o ho => by
    subst ho
    simp only [OtherReg, Fld.at, R.CNT_COUNT]
    omega)

theorem countPlace_other (s : State) (c n : Nat) (isWrite : Bool) (p : Place) : RegsOff OtherReg s (countPlace s c n isWrite p) := by
  cases p with
  | near => exact countUnits_other s c _ 64 n
  | cxl _ => exact countUnits_other s c _ 64 n
  | host =>
    cases isWrite with
    | true => exact countUnits_other s c 71 64 n
    | false => exact RegsOff.refl _ s
  | absent => exact RegsOff.refl _ s

theorem countMem_other (s : State) (who : Requester) (pa n : Nat) (isWrite : Bool) : RegsOff OtherReg s (countMem s who pa n isWrite) := by
  unfold countMem
  split
  · exact RegsOff.refl _ s
  · exact countPlace_other s _ n isWrite _

theorem stopRing_other (s : State) (w : Nat) : RegsOff OtherReg s (stopRing s w) := by
  obtain ⟨hstate, hcause, hslot, hgen⟩ := otherReg_ring w
  have hring : ∀ g, RegsOff OtherReg s (onRing s w g) := fun g => .of_agree (onRing_keeps s w g) (by decide)
  have htaken : RegsOff OtherReg s (returnTaken s w) := by
    unfold returnTaken
    dsimp only
    split
    · exact RegsOff.refl _ s
    · split
      · exact ((hring _).wr hslot).wr hgen
      · exact (hring _).wr hslot
  unfold stopRing
  dsimp only
  split
  · split
    · exact htaken.wr hstate
    · exact (htaken.wr hstate).wr hcause
  · exact RegsOff.refl _ s

theorem stopRings_other (s : State) (p : Nat) : RegsOff OtherReg s (stopRings s p) := by
  refine RegsOff.foldl (fun v w _ => ?_) (RegsOff.refl _ s)
  split
  · exact stopRing_other v w
  · exact RegsOff.refl _ v

theorem hitRecord_other (s : State) (n : Nat) (words : List W64) : RegsOff OtherReg s (hitRecord s n words) := by
  unfold hitRecord
  dsimp only
  split
  · exact RegsOff.refl _ s
  · refine RegsOff.wr ?_ (otherReg_hits n).2
    exact RegsOff.of_regs rfl

theorem watchMem_other (s : State) (op : Nat) (who : Requester) (va w : Option Nat) (pa len : Nat) :
    RegsOff OtherReg s (watchMem s op who va w pa len) := by
  have hevent : ∀ {q : Prop} [Decidable q] {v u : State} {a b act : Nat}, RegsOff OtherReg s v → u.regs = v.regs →
      RegsOff OtherReg s (if q then postEvent u none 0x0115 a b act else v) := fun hv hu => by
    split
    · exact (hv.trans (.of_regs hu)).trans (postEvent_frame _ _ _ _ _ _).other
    · exact hv
  unfold watchMem
  split
  · exact RegsOff.refl _ s
  · split
    · exact RegsOff.refl _ s
    · have hhits := fun ns : List Nat => RegsOff.foldl (P := OtherReg) (f := fun s n => addSat s R.DBG_WP_HITS_HITS n 0 1) (l := ns)
        (fun v n _ => .of_wr v _ (otherReg_hits n).1) (RegsOff.refl _ s)
      have hrecord := fun ns n words => (hhits ns).trans (hitRecord_other _ n words)
      dsimp only
      split
      · refine RegsOff.trans (RegsOff.trans ?_ (.of_agree (failCmd_keeps _ _ _ _) (by decide))) (stopRings_other _ _)
        exact hevent (hrecord _ _ _) rfl
      · exact hevent (hrecord _ _ _) rfl

theorem sliceRd_other (s : State) (who : Requester) (va w : Option Nat) (pa n : Nat) : RegsOff OtherReg s (sliceRd s who va w pa n) :=
  ((countMem_other s who pa n false).trans (watchMem_other _ 1 who va w pa n)).trans (touch_frame _ pa n false).other

/-- The write of a slice up to where its bytes land. -/
def writeMet (s : State) (who : Requester) (va w : Option Nat) (pa n : Nat) : State :=
  touch (fillPart (watchMem s 2 who va w pa n) pa n) pa n true

theorem sliceWr_eq (s : State) (who : Requester) (va w : Option Nat) (pa : Nat) (data : List Byte) (bad : Bool) :
    sliceWr s who va w pa data bad = wakeRings (landMem (writeMet s who va w pa data.length) pa data bad) pa data.length := by
  rw [sliceWr, writeMet]

theorem fillPart_frame (s : State) (pa n : Nat) : ReadFrame s (fillPart s pa n) := by
  unfold fillPart
  refine ReadFrame.foldl (fun v l _ => ?_) (ReadFrame.refl s)
  split
  · exact ReadFrame.with_mark v l
  · exact ReadFrame.refl v

theorem writeMet_bytes (s : State) (who : Requester) (va w : Option Nat) (pa n : Nat) : (writeMet s who va w pa n).mem.bytes = s.mem.bytes :=
  calc (writeMet s who va w pa n).mem.bytes
      = (fillPart (watchMem s 2 who va w pa n) pa n).mem.bytes := (touch_frame _ pa n true).bytes
    _ = (watchMem s 2 who va w pa n).mem.bytes := (fillPart_frame _ pa n).bytes
    _ = s.mem.bytes := congrArg Memory.bytes (watchMem_keeps s 2 who va w pa n .mem (by decide))

theorem sliceWr_other (s : State) (who : Requester) (va w : Option Nat) (pa : Nat) (data : List Byte) (bad : Bool) :
    RegsOff OtherReg s (sliceWr s who va w pa data bad) := by
  have hmet : RegsOff OtherReg s (writeMet s who va w pa data.length) :=
    ((watchMem_other s 2 who va w pa data.length).trans (.of_agree (fillPart_keeps _ pa _) (by decide))).trans (touch_frame _ pa _ true).other
  rw [sliceWr_eq]
  exact (hmet.trans (.of_agree (landMem_keeps _ pa data bad) (by decide))).trans (.of_agree (wakeRings_keeps _ pa _) (by decide))

/-! ### The bytes of a write (R146) -/

/-- The pieces of a write at line ends lie within it. -/
theorem splitLines_inside {fuel a : Nat} {bs : List Byte} : ∀ x ∈ splitLines fuel a bs, a ≤ x.1 ∧ x.1 + x.2.length ≤ a + bs.length := by
  induction fuel generalizing a bs with
  | zero => exact fun x hx => nomatch hx
  | succ fuel ih =>
    intro x hx
    cases bs with
    | nil => exact nomatch hx
    | cons b bs =>
      rcases List.mem_cons.mp hx with rfl | hrest
      · exact ⟨Nat.le_refl _, Nat.add_le_add_left (by simp) a⟩
      · have hpiece := ih x hrest
        rw [List.length_drop] at hpiece
        omega

theorem memOutside_refl (a n : Nat) (s : State) : MemOutside a n s s := fun _ _ => rfl

theorem memOutside_trans {a n : Nat} {s t u : State} (h : MemOutside a n s t) (h' : MemOutside a n t u) : MemOutside a n s u :=
  fun k hk => (h' k hk).trans (h k hk)

theorem memOutside_mono {a n b m : Nat} {s t : State} (h : MemOutside b m s t) (hb : a ≤ b) (hm : b + m ≤ a + n) : MemOutside a n s t :=
  fun k hk => h k (by omega)

theorem landMem_outside (s : State) (pa : Nat) (data : List Byte) (bad : Bool) : MemOutside pa data.length s (landMem s pa data bad) := by
  refine List.foldlRecOn (motive := MemOutside pa data.length s) _ _ (memOutside_refl _ _ s) (fun v hv x hx => ?_)
  obtain ⟨hlo, hhi⟩ := splitLines_inside x hx
  split
  · exact hv
  · refine memOutside_trans hv (fun k hk => ?_)
    rw [memByte_memWrite, if_neg (by omega)]

theorem sliceWr_outside (s : State) (who : Requester) (va w : Option Nat) (pa : Nat) (data : List Byte) (bad : Bool) :
    MemOutside pa data.length s (sliceWr s who va w pa data bad) := by
  rw [sliceWr_eq]
  refine memOutside_trans (memOutside_of_bytes _ _ (writeMet_bytes s who va w pa data.length)) (memOutside_trans (landMem_outside _ pa data bad) ?_)
  exact memOutside_of_bytes _ _ (congrArg Memory.bytes (wakeRings_keeps _ pa _ .mem (by decide)))

end Sys2Proof.Proofs
end

section
/-!
PROOFS. The work of a key-value page unit in memory leaves every record of the units as it was, with the number of stacks and the
committed sets of regions (R174, R196); what its record operations change of a sequence (R177), of a region's free lists and of
its mapped pages (R176, R181).
-/
namespace Sys2Proof.Proofs
open Sys2Proof.Machine Sys2Proof.Safety Sys2Proof.Laws

/-! ### Work that leaves the records (R174, R196) -/

/-- The records of the page units, the number of stacks and the committed sets of regions are as before. -/
structure UnitWork (s t : State) : Prop where
  kv : t.kv = s.kv
  regs : RegsOff OtherReg s t

section
variable {s t u : State}

theorem UnitWork.refl (s : State) : UnitWork s s := ⟨rfl, RegsOff.refl _ s⟩

theorem UnitWork.trans (h : UnitWork s t) (h' : UnitWork t u) : UnitWork s u := ⟨h'.kv.trans h.kv, h.regs.trans h'.regs⟩

theorem UnitWork.of_agree {L : List Part} (h : AgreeOutside L s t) (hkv : Part.kv ∉ L) (hregs : Part.regs ∉ L) : UnitWork s t :=
  ⟨h .kv hkv, .of_agree h hregs⟩

theorem UnitWork.wr (h : UnitWork s t) {f : Fld} {i j v : Nat} (hf : OtherReg (f.at i j)) : UnitWork s (wr t f i j v) :=
  ⟨h.kv, h.regs.wr hf⟩

theorem UnitWork.foldl {α : Type} {f : State → α → State} (hf : ∀ v x, UnitWork v (f v x)) (hs : UnitWork s t) (l : List α) :
    UnitWork s (l.foldl f t) := List.foldlRecOn l f hs (fun v hv x _ => hv.trans (hf v x))

end

theorem sliceRd_work (s : State) (who : Requester) (va w : Option Nat) (pa n : Nat) : UnitWork s (sliceRd s who va w pa n) :=
  ⟨sliceRd_keeps s who va w pa n .kv (by decide), sliceRd_other s who va w pa n⟩

theorem kvStore_work (s : State) (stack : Nat) (w : Option Nat) (pa : Nat) (data : List Byte) (bad : Bool) :
    UnitWork s (kvStore s stack w pa data bad) :=
  ⟨kvStore_keeps s stack w pa data bad .kv (by decide), sliceWr_other s _ none w pa data bad⟩

theorem freeBytes_work (s : State) (n : Nat) : UnitWork s (freeBytes s n).2 :=
  .of_agree (freeBytes_keeps s n) (by decide) (by decide)

theorem kvJournal_work (s : State) (r stack : Nat) : UnitWork s (kvJournal s r stack) :=
  (freeBytes_work s 512).trans (kvStore_work _ stack none _ _ false)

theorem kvMeta_work (s : State) (r n : Nat) : UnitWork s (kvMeta s r n) :=
  (((kvJournal_work s r _).trans (freeBytes_work _ 3)).trans (kvStore_work _ _ none _ _ false)).trans (kvStore_work _ _ none _ _ false)

theorem kvCopy_work (s : State) (stack : Nat) (w : Option Nat) (src dst n : Nat) : UnitWork s (kvCopy s stack w src dst n) :=
  UnitWork.foldl (fun v _ => (sliceRd_work v _ none w _ _).trans (kvStore_work _ stack w _ _ _)) (UnitWork.refl s) _

theorem learn_work (s : State) (who : Option Nat) (p va : Nat) (write hostOk : Bool) (w : Option Nat) :
    UnitWork s (learn s who p va write hostOk w) := by
  have hwalk := UnitWork.foldl (fun v a => sliceRd_work v .dtu none w a 8) (UnitWork.refl s) (walkReads s p va)
  have hkeep : ∀ u x, UnitWork u (keepXlat u x) := fun u x => .of_agree (keepXlat_keeps u x) (by decide) (by decide)
  have hown : ∀ u x, UnitWork u (keepOwn u who x) := fun u x => .of_agree (keepOwn_keeps u who x) (by decide) (by decide)
  refine ⟨learn_keeps s who p va write hostOk w .kv (by decide), ?_⟩
  unfold learn
  split
  · split
    · exact RegsOff.refl _ s
    · exact (hown s _).regs
  · dsimp only
    split
    · exact ((hwalk.trans (hkeep _ _)).trans (hown _ _)).regs
    · exact hwalk.regs

theorem learnRange_work (s : State) (who : Option Nat) (p va n : Nat) (write hostOk : Bool) (w : Option Nat) :
    UnitWork s (learnRange s who p va n write hostOk w) :=
  UnitWork.foldl (fun v a => learn_work v who p a write hostOk w) (UnitWork.refl s) _

theorem dropXlat_work (s : State) (p va n : Nat) : UnitWork s (dropXlat s p va n) :=
  .of_agree (dropXlat_keeps s p va n) (by decide) (by decide)

/-! ### Regions (R174) -/

theorem kvReg_setKvReg (s : State) (r r' : Nat) (v : KvRegion) : kvReg (setKvReg s r v) r' = if r' = r then v else kvReg s r' :=
  smap_look_put ..

theorem kvReg_onKvReg (s : State) (r r' : Nat) (f : KvRegion → KvRegion) :
    kvReg (onKvReg s r f) r' = if r' = r then f (kvReg s r) else kvReg s r' := kvReg_setKvReg s r r' _

theorem kvSeq_onKvSeq (s : State) (r q r' q' : Nat) (f : KvSeq → KvSeq) :
    kvSeq (onKvSeq s r q f) r' q' = if r' = r ∧ q' = q then f (kvSeq s r q) else kvSeq s r' q' := by
  rw [kvSeq, onKvSeq, kvReg_onKvReg]
  by_cases hr : r' = r
  · subst hr
    rw [if_pos rfl, smap_look_put]
    simp only [true_and]
    rfl
  · rw [if_neg hr, if_neg (fun h => hr h.1)]
    rfl

section
variable {s t : State} (h : t.kv = s.kv)
include h

theorem kvReg_congr (r : Nat) : kvReg t r = kvReg s r := by simp only [kvReg, h]

theorem kvSeq_congr (r q : Nat) : kvSeq t r q = kvSeq s r q := by simp only [kvSeq, kvReg, h]

theorem kvNear_congr (r u : Nat) : kvNear t r u = kvNear s r u := by simp only [kvNear, kvReg, h]

theorem kvPage_congr (r k : Nat) : kvPage t r k = kvPage s r k := by simp only [kvPage, kvReg, h]

end

/-! ### Sequences (R177) -/

/-- A sequence without the counts of its mapped pages. -/
def bareSeq (x : KvSeq) : KvSeq := { x with nearMapped := 0, farMapped := 0 }

/-- The operations that wait and every sequence are as before, of sequence q of region r all but its counts of mapped pages. -/
structure SeqKept (r q : Nat) (s t : State) : Prop where
  ops : t.kv.ops = s.kv.ops
  bare : bareSeq (kvSeq t r q) = bareSeq (kvSeq s r q)
  others : ∀ r' q', ¬ (r' = r ∧ q' = q) → kvSeq t r' q' = kvSeq s r' q'

section
variable {r q : Nat} {s t u : State}

theorem SeqKept.refl (r q : Nat) (s : State) : SeqKept r q s s := ⟨rfl, rfl, fun _ _ _ => rfl⟩

theorem SeqKept.trans (h : SeqKept r q s t) (h' : SeqKept r q t u) : SeqKept r q s u :=
  ⟨h'.ops.trans h.ops, h'.bare.trans h.bare, fun r' q' hne => (h'.others r' q' hne).trans (h.others r' q' hne)⟩

theorem SeqKept.foldl {α : Type} {f : State → α → State} (hf : ∀ v x, SeqKept r q v (f v x)) (hs : SeqKept r q s t) (l : List α) :
    SeqKept r q s (l.foldl f t) := List.foldlRecOn l f hs (fun v hv x _ => hv.trans (hf v x))

theorem SeqKept.of_kv (r q : Nat) (h : t.kv = s.kv) : SeqKept r q s t :=
  ⟨congrArg Kv.ops h, congrArg bareSeq (kvSeq_congr h r q), fun r' q' _ => kvSeq_congr h r' q'⟩

theorem UnitWork.seqs (h : UnitWork s t) (r q : Nat) : SeqKept r q s t := .of_kv r q h.kv

/-- A field that is not a count of mapped pages. -/
theorem SeqKept.field (h : SeqKept r q s t) {α : Type} (g : KvSeq → α) (hg : ∀ x, g (bareSeq x) = g x) :
    g (kvSeq t r q) = g (kvSeq s r q) := by
  rw [← hg, h.bare, hg]

theorem seqKept_onKvReg (r q : Nat) (s : State) (r' : Nat) (f : KvRegion → KvRegion) (hf : ∀ x, (f x).seqs = x.seqs) :
    SeqKept r q s (onKvReg s r' f) := by
  have hseq : ∀ i j, kvSeq (onKvReg s r' f) i j = kvSeq s i j := fun i j => by
    rw [kvSeq, kvSeq, kvReg_onKvReg]
    split
    · rename_i hi
      rw [hf, hi]
    · rfl
  exact ⟨rfl, congrArg bareSeq (hseq r q), fun i j _ => hseq i j⟩

theorem seqKept_onKvSeq (s : State) (r q : Nat) (f : KvSeq → KvSeq) (hf : ∀ x, bareSeq (f x) = bareSeq x) :
    SeqKept r q s (onKvSeq s r q f) :=
  ⟨rfl, by rw [kvSeq_onKvSeq, if_pos ⟨rfl, rfl⟩, hf], fun r' q' hne => by rw [kvSeq_onKvSeq, if_neg hne]⟩

theorem seqKept_setKvNear (s : State) (i : Nat) (l : List Nat) : SeqKept r q s (setKvNear s r i l) :=
  seqKept_onKvReg r q s r _ (fun _ => rfl)

theorem seqKept_setKvFar (s : State) (i : Nat) (l : List Nat) : SeqKept r q s (setKvFar s r i l) :=
  seqKept_onKvReg r q s r _ (fun _ => rfl)

theorem seqKept_setKvCount (s : State) (n v : Nat) : SeqKept r q s (setKvCount s r n v) := by
  unfold setKvCount
  refine SeqKept.trans ?_ ((kvMeta_work _ r n).seqs r q)
  exact seqKept_onKvReg r q s r _ (fun _ => rfl)

theorem seqKept_kvStamp (s : State) (n : Nat) : SeqKept r q s (kvStamp s r n) := by
  unfold kvStamp
  refine SeqKept.trans ?_ ((kvMeta_work _ r n).seqs r q)
  exact seqKept_onKvReg r q s r _ (fun _ => rfl)

theorem seqKept_kvFreePage (s : State) (n : Nat) : SeqKept r q s (kvFreePage s r n) := by
  unfold kvFreePage
  dsimp only
  refine SeqKept.trans (seqKept_setKvCount s n 0) ?_
  split
  · split
    · refine SeqKept.trans ?_ (seqKept_onKvReg r q _ r _ (fun _ => rfl))
      exact seqKept_setKvNear _ _ _
    · exact seqKept_setKvNear _ _ _
  · exact seqKept_setKvFar _ _ _

end

/-- The unit's write of a leaf entry, with what it does to the caches. -/
theorem kvLeaf_writes (s : State) (r stack : Nat) (w : Option Nat) (k : Nat) (page : Option Nat) :
    kvLeaf s r stack w k page = s ∨
      ∃ v, UnitWork s v ∧ kvLeaf s r stack w k page = onKvReg v r (fun x => { x with map := SMap.put (fun _ => none) x.map k page }) := by
  unfold kvLeaf
  dsimp only
  split
  · exact Or.inl rfl
  · refine Or.inr ⟨_, UnitWork.trans (UnitWork.trans ?_ (kvStore_work _ stack w _ _ false)) (dropXlat_work _ _ _ _), rfl⟩
    exact .of_agree (takeFree_keeps s) (by decide) (by decide)

theorem seqKept_kvLeaf {r q : Nat} (s : State) (stack : Nat) (w : Option Nat) (k : Nat) (page : Option Nat) :
    SeqKept r q s (kvLeaf s r stack w k page) := by
  rcases kvLeaf_writes s r stack w k page with h | ⟨v, hv, h⟩
  · rw [h]
    exact SeqKept.refl r q s
  · rw [h]
    exact (hv.seqs r q).trans (seqKept_onKvReg r q v r _ (fun _ => rfl))

theorem kvBlock_writes (s : State) (r stack : Nat) (w : Option Nat) (blk : Nat) (tab : Option Nat) :
    ∃ v, UnitWork s v ∧ kvBlock s r stack w blk tab = onKvReg v r (fun x => { x with tabs := SMap.put (fun _ => none) x.tabs blk tab }) := by
  unfold kvBlock
  dsimp only
  split
  · exact ⟨_, (kvStore_work s stack w _ _ false).trans (dropXlat_work _ _ _ _), rfl⟩
  · exact ⟨_, dropXlat_work s _ _ _, rfl⟩

theorem seqKept_kvBlock {r q : Nat} (s : State) (stack : Nat) (w : Option Nat) (blk : Nat) (tab : Option Nat) :
    SeqKept r q s (kvBlock s r stack w blk tab) := by
  obtain ⟨v, hv, h⟩ := kvBlock_writes s r stack w blk tab
  rw [h]
  exact (hv.seqs r q).trans (seqKept_onKvReg r q v r _ (fun _ => rfl))

/-! ### Pools and mapped pages of a region (R176, R181) -/

/-- The table pointers of region r are as before, its mapped pages are still mapped, the near list of unit u is at most d pages shorter,
and so are the registers of `UnitWork` as before. -/
structure PoolKept (r u d : Nat) (s t : State) : Prop where
  tabs : (kvReg t r).tabs = (kvReg s r).tabs
  mapped : ∀ k, kvPage s r k ≠ none → kvPage t r k ≠ none
  near : (kvNear s r u).length ≤ (kvNear t r u).length + d
  regs : RegsOff OtherReg s t

section
variable {r u d e : Nat} {s t v : State}

theorem PoolKept.refl (r u : Nat) (s : State) : PoolKept r u 0 s s := ⟨rfl, fun _ h => h, Nat.le_refl _, RegsOff.refl _ s⟩

theorem PoolKept.trans (h : PoolKept r u d s t) (h' : PoolKept r u e t v) : PoolKept r u (d + e) s v :=
  ⟨h'.tabs.trans h.tabs, fun k hk => h'.mapped k (h.mapped k hk), by have := h.near; have := h'.near; omega, h.regs.trans h'.regs⟩

/-- One more step that takes no page. -/
theorem PoolKept.step (h : PoolKept r u d s t) (h' : PoolKept r u 0 t v) : PoolKept r u d s v := h.trans h'

theorem PoolKept.mono (h : PoolKept r u d s t) (hd : d ≤ e) : PoolKept r u e s t :=
  ⟨h.tabs, h.mapped, h.near.trans (Nat.add_le_add_left hd _), h.regs⟩

theorem PoolKept.foldl {α : Type} {f : State → α → State} (hf : ∀ w x, PoolKept r u 0 w (f w x)) (hs : PoolKept r u d s t) (l : List α) :
    PoolKept r u d s (l.foldl f t) := List.foldlRecOn l f hs (fun _ hw x _ => hw.step (hf _ x))

theorem UnitWork.pool (h : UnitWork s t) (r u : Nat) : PoolKept r u 0 s t :=
  ⟨by rw [kvReg_congr h.kv], fun k hk => by rwa [kvPage_congr h.kv], by rw [kvNear_congr h.kv]; exact Nat.le_refl _, h.regs⟩

/-- An update of the region's record that keeps its tables and does not unmap. -/
theorem poolKept_onKvReg (s : State) (f : KvRegion → KvRegion) (htabs : ∀ x, (f x).tabs = x.tabs)
    (hmap : ∀ k, kvPage s r k ≠ none → SMap.look (fun _ => none) (f (kvReg s r)).map k ≠ none)
    (hnear : (kvNear s r u).length ≤ (SMap.look (fun _ => []) (f (kvReg s r)).near u).length + d) : PoolKept r u d s (onKvReg s r f) where
  tabs := by rw [kvReg_onKvReg, if_pos rfl, htabs]
  mapped k hk := by
    rw [kvPage, kvReg_onKvReg, if_pos rfl]
    exact hmap k hk
  near := by
    rw [kvNear.eq_def (onKvReg s r f), kvReg_onKvReg, if_pos rfl]
    exact hnear
  regs := RegsOff.of_regs rfl

/-- An update of a region's record that keeps its tables, pages and near lists. -/
theorem poolKept_record (r u : Nat) (s : State) (f : KvRegion → KvRegion)
    (hf : ∀ x, (f x).tabs = x.tabs ∧ (f x).map = x.map ∧ (f x).near = x.near) : PoolKept r u 0 s (onKvReg s r f) :=
  poolKept_onKvReg s f (fun x => (hf x).1) (fun k hk => by rw [(hf _).2.1]; exact hk) (by rw [(hf _).2.2]; exact Nat.le_refl _)

theorem poolKept_onKvSeq (s : State) (q : Nat) (f : KvSeq → KvSeq) : PoolKept r u 0 s (onKvSeq s r q f) :=
  poolKept_record r u s _ (fun _ => ⟨rfl, rfl, rfl⟩)

theorem poolKept_setKvFar (s : State) (i : Nat) (l : List Nat) : PoolKept r u 0 s (setKvFar s r i l) :=
  poolKept_record r u s _ (fun _ => ⟨rfl, rfl, rfl⟩)

theorem poolKept_setKvCount (s : State) (n v : Nat) : PoolKept r u 0 s (setKvCount s r n v) := by
  unfold setKvCount
  refine PoolKept.step ?_ ((kvMeta_work _ r n).pool r u)
  exact poolKept_record r u s _ (fun _ => ⟨rfl, rfl, rfl⟩)

theorem poolKept_kvStamp (s : State) (n : Nat) : PoolKept r u 0 s (kvStamp s r n) := by
  unfold kvStamp
  refine PoolKept.step ?_ ((kvMeta_work _ r n).pool r u)
  exact poolKept_record r u s _ (fun _ => ⟨rfl, rfl, rfl⟩)

theorem kvNear_setKvNear (s : State) (r i u : Nat) (l : List Nat) : kvNear (setKvNear s r i l) r u = if u = i then l else kvNear s r u := by
  rw [kvNear, setKvNear, kvReg_onKvReg, if_pos rfl]
  exact smap_look_put ..

/-- A near list that is at most d pages shorter. -/
theorem poolKept_setKvNear (s : State) (i : Nat) {l : List Nat} (hl : (kvNear s r i).length ≤ l.length + d) :
    PoolKept r u d s (setKvNear s r i l) where
  tabs := by rw [setKvNear, kvReg_onKvReg, if_pos rfl]
  mapped k hk := by
    rw [kvPage, setKvNear, kvReg_onKvReg, if_pos rfl]
    exact hk
  near := by
    rw [kvNear_setKvNear]
    split
    · rename_i h
      rwa [h]
    · exact Nat.le_add_right _ d
  regs := RegsOff.of_regs rfl

theorem poolKept_kvFreePage (s : State) (n : Nat) : PoolKept r u 0 s (kvFreePage s r n) := by
  unfold kvFreePage
  dsimp only
  refine PoolKept.step (poolKept_setKvCount s n 0) ?_
  split
  · have hlist : ∀ w : State, ∀ i, PoolKept r u 0 w (setKvNear w r i (n :: kvNear w r i)) := fun w i =>
      poolKept_setKvNear w i (by rw [List.length_cons]; omega)
    split
    · refine PoolKept.step ?_ (poolKept_record r u _ _ (fun _ => ⟨rfl, rfl, rfl⟩))
      exact hlist _ _
    · exact hlist _ _
  · exact poolKept_setKvFar _ _ _

/-- A leaf entry that maps a page unmaps none. -/
theorem poolKept_kvLeaf (s : State) (stack : Nat) (w : Option Nat) (k n : Nat) : PoolKept r u 0 s (kvLeaf s r stack w k (some n)) := by
  rcases kvLeaf_writes s r stack w k (some n) with h | ⟨v, hv, h⟩
  · rw [h]
    exact PoolKept.refl r u s
  · rw [h]
    refine PoolKept.step (hv.pool r u) (poolKept_onKvReg v _ (fun _ => rfl) (fun j hj => ?_) (Nat.le_refl _))
    rw [smap_look_put]
    split
    · exact Option.some_ne_none n
    · exact hj

end

/-- A block whose tables stand has the page mapped after it (R176). -/
theorem kvPage_kvLeaf {s : State} {r k : Nat} (htab : SMap.look (fun _ => none) (kvReg s r).tabs (k / 32) ≠ none) (stack : Nat)
    (w : Option Nat) (page : Option Nat) : kvPage (kvLeaf s r stack w k page) r k = page := by
  unfold kvLeaf
  dsimp only
  split
  · rename_i h
    exact absurd h htab
  · rw [kvPage, kvReg_onKvReg, if_pos rfl]
    exact smap_look_put_self ..

/-! ### Pages taken (R181 to R183) -/

section
variable {r u n : Nat} {l : List Nat} {s : State}

/-- The head of the near list is taken. -/
theorem kvPop_head (h : kvNear s r u = n :: l) : ∃ t, kvPop s r u = (t, some n) ∧ (∀ q, SeqKept r q s t) ∧ PoolKept r u 1 s t := by
  have hwork := kvMeta_work (setKvNear s r u l) r n
  have hlist : PoolKept r u 1 s (setKvNear s r u l) := poolKept_setKvNear s u (by rw [h]; exact Nat.le_refl _)
  have htaken : ∀ q, SeqKept r q s (kvMeta (setKvNear s r u l) r n) := fun q => (seqKept_setKvNear s u l).trans (hwork.seqs r q)
  have hpool : PoolKept r u 1 s (kvMeta (setKvNear s r u l) r n) := hlist.step (hwork.pool r u)
  have hevent : ∀ w p a b c d, UnitWork w (postEvent w p a b c d) := fun w p a b c d =>
    ⟨postEvent_keeps w p a b c d .kv (by decide), (postEvent_frame w p a b c d).other⟩
  have hwater : ∀ w k v, UnitWork w (wr w R.KPU_EVT_LOW_WATER r k v) := fun w k v => (UnitWork.refl w).wr (otherReg_kv r k).1
  unfold kvPop
  rw [h]
  dsimp only
  split
  · refine ⟨_, rfl, fun q => ?_, ?_⟩
    · refine SeqKept.trans ?_ ((hevent _ _ _ _ _ _).seqs r q)
      refine SeqKept.trans ?_ (seqKept_onKvReg r q _ r _ (fun _ => rfl))
      exact (htaken q).trans ((hwater _ _ 1).seqs r q)
    · refine PoolKept.step ?_ ((hevent _ _ _ _ _ _).pool r u)
      refine PoolKept.step ?_ (poolKept_record r u _ _ (fun _ => ⟨rfl, rfl, rfl⟩))
      exact hpool.step ((hwater _ _ 1).pool r u)
  · exact ⟨_, rfl, htaken, hpool⟩

theorem kvPop_empty (h : kvNear s r u = []) : kvPop s r u = (s, none) := by
  unfold kvPop
  rw [h]

/-- Where the unit's near list holds a page, the page taken is its head (R182). -/
theorem kvTake_near (h : kvNear s r u ≠ []) (w : Option Nat) (keep : List Nat) :
    ∃ t n, kvTake s r u w keep = ⟨t, [n], true, 0, false, none⟩ ∧ (∀ q, SeqKept r q s t) ∧ PoolKept r u 1 s t := by
  obtain ⟨n, l, hl⟩ := List.exists_cons_of_ne_nil h
  obtain ⟨t, hpop, hframe⟩ := kvPop_head hl
  refine ⟨t, n, ?_, hframe⟩
  unfold kvTake
  rw [hpop]

/-- Without a near page, and with neither borrowing nor demotion, no page can be had (R182). -/
theorem kvTake_none (h : kvNear s r u = []) (hborrow : (kvGeo s r).borrow = false) (hdemote : (kvGeo s r).demote = false)
    (w : Option Nat) (keep : List Nat) : kvTake s r u w keep = ⟨s, [], false, 0, false, none⟩ := by
  unfold kvTake
  rw [kvPop_empty h]
  simp [hborrow, hdemote]

/-- As many pages as the near list holds are taken from it (R176). -/
theorem kvTakeAll_near (w : Option Nat) (keep : List Nat) {m : Nat} (got : List Nat) (fl : Nat) (h : m ≤ (kvNear s r u).length) :
    (kvTakeAll s r u w keep m got fl).ok = true ∧ (kvTakeAll s r u w keep m got fl).waits = false ∧
      (kvTakeAll s r u w keep m got fl).pages.length = got.length + m ∧ ∀ q, SeqKept r q s (kvTakeAll s r u w keep m got fl).s := by
  induction m generalizing s got fl with
  | zero => exact ⟨rfl, rfl, List.length_reverse, fun q => SeqKept.refl r q s⟩
  | succ m ih =>
    obtain ⟨t, n, htake, hseqs, hpool⟩ := kvTake_near (s := s) (r := r) (u := u) (fun hnil => by
      rw [hnil] at h
      exact Nat.not_succ_le_zero m h) w keep
    have hnear := hpool.near
    obtain ⟨hok, hwaits, hlen, hrest⟩ := ih (s := t) (n :: got) (fl ||| 0) (by omega)
    have hstep : kvTakeAll s r u w keep (m + 1) got fl = kvTakeAll t r u w keep m (n :: got) (fl ||| 0) := by
      rw [kvTakeAll, htake]
    rw [hstep]
    exact ⟨hok, hwaits, by rw [hlen, List.length_cons]; omega, fun q => (hseqs q).trans (hrest q)⟩

end

end Sys2Proof.Proofs
end

section
/-!
PROOFS. How a key-value operation that nothing holds back is served (R179, R180): it leaves the list of those waiting, its body works
on the records of its region, and its end leaves them as the body did, with its sequence's record on the way (R148).
-/
namespace Sys2Proof.Proofs
open Sys2Proof.Machine Sys2Proof.Safety Sys2Proof.Laws

/-! ### Serving an operation (R179, R180) -/

/-- Operation n has left the list of those waiting. -/
def kvTaken (s : State) (n : Nat) : State := notIdle { s with kv := { s.kv with ops := s.kv.ops.eraseIdx n } }

theorem kvTaken_keeps (s : State) (n : Nat) : AgreeOutside [.kv, .pwr] s (kvTaken s n) := fun p hp => by
  cases p <;> first | exact absurd (by decide) hp | rfl

theorem mapSame_kvTaken (s : State) (n : Nat) : MapSame s (kvTaken s n) :=
  ⟨RegsOff.refl _ s, rfl, rfl⟩

section
variable (s : State) (n : Nat)

@[simp] theorem kvTaken_kvSeq (r q : Nat) : kvSeq (kvTaken s n) r q = kvSeq s r q := rfl
@[simp] theorem kvTaken_kvGeo (r : Nat) : kvGeo (kvTaken s n) r = kvGeo s r := rfl

end

section
variable {op n : Nat} {o : KvOp} {s : State}

/-- An operation that is ready runs its body, which its region, its sequence and the record in memory allow. -/
theorem kvServe_ready (h : KvReady op n o s) (body : State → KvOp → Nat → Nat → KvEnd) :
    kvServe op n body s = .next (if (body (kvTaken s n) o (kvRgn o.desc) (kvSq o.desc)).waits then s
      else kvFinish (kvTaken s n) o (stackOfRank (kvTaken s n) (kvUnit s (kvSq o.desc))) (kvSq o.desc) (kvRgn o.desc)
        (body (kvTaken s n) o (kvRgn o.desc) (kvSq o.desc))) := by
  obtain ⟨hop, hcode, hheld, hregion, hseq, hpoison⟩ := h
  have hmap := mapSame_kvTaken s n
  have hregion' : kvRegionBad (kvTaken s n) (kvRgn o.desc) (ringPart (kvTaken s n) o.ring) = none := hregion
  have hseq' : ¬ (kvGeo (kvTaken s n) (kvRgn o.desc)).maxSeq ≤ kvSq o.desc := Nat.not_le.mpr hseq
  unfold kvServe
  rw [hop]
  dsimp only
  rw [if_neg (by simp [hcode, hheld]), ← kvTaken, hregion']
  dsimp only
  rw [if_neg hseq']
  cases htr : Machine.translate (kvTaken s n) none (kvGeo (kvTaken s n) (kvRgn o.desc)).part
    ((kvGeo (kvTaken s n) (kvRgn o.desc)).seqtab + 64 * kvSq o.desc) true false with
  | error f => rfl
  | ok pa =>
    have hclean : cohPoisonAt (kvTaken s n) pa 64 = none := (hmap.cohPoisonAt pa 64).trans (hpoison pa ((hmap.translate ..).symm.trans htr))
    simp only [hclean, kvUnit]

/-- What a served operation leaves: the records of the units as its body left them, and no other part but those of its end (R180). -/
theorem kvServe_served (h : KvReady op n o s) {body : State → KvOp → Nat → Nat → KvEnd} {e : KvEnd}
    (he : body (kvTaken s n) o (kvRgn o.desc) (kvSq o.desc) = e) (hwaits : e.waits = false) :
    ∃ t, kvServe op n body s = .next t ∧ t.kv = e.s.kv ∧
      AgreeOutside [.mem, .regs, .out, .cores, .harps, .ord, .ms, .sch, .ras, .obs, .hst] e.s t := by
  rw [kvServe_ready h body, he, hwaits]
  exact ⟨_, rfl, kvFinish_keeps _ o _ _ _ e .kv (by decide), kvFinish_keeps _ o _ _ _ e⟩

end

/-! ### A sequence's record on its way (R148, R196) -/

theorem kvPutRec_leaves {s t : State} {r q : Nat} {w : Option Nat} {final : Bool} (h : kvPutRec s r q w final = .ok t) :
    AgreeOutside [.mem, .regs, .free, .out, .cores, .harps, .ord, .ms, .sch, .ras, .obs, .hst] s t := by
  unfold kvPutRec at h
  dsimp only at h
  have hlearn : ∀ stack p va, AgreeOutside [.mem, .regs, .free, .out, .cores, .harps, .ord, .ms, .sch, .ras, .obs, .hst] s
      (learn (kvJournal s r stack) none p va true false w) := fun stack p va =>
    Agree.step (learn_keeps _ _ _ _ _ _ _) rfl (Agree.step (kvJournal_keeps _ _ _) rfl (Agree.refl _ _))
  split at h
  · cases h
  · split at h <;> cases h
    · exact Agree.step (issue_keeps _ _) rfl (Agree.step (issue_keeps _ _) rfl (hlearn _ _ _))
    · exact Agree.step (issue_keeps _ _) rfl (hlearn _ _ _)

/-- Writing the record at an operation's end leaves the units' records and whether it waits. -/
theorem kvSealed_leaves (e : KvEnd) (r q : Nat) (w : Option Nat) (final : Bool) :
    AgreeOutside [.mem, .regs, .free, .out, .cores, .harps, .ord, .ms, .sch, .ras, .obs, .hst] e.s (kvSealed e r q w final).s ∧
      (kvSealed e r q w final).waits = e.waits := by
  unfold kvSealed
  split
  · exact ⟨kvPutRec_leaves ‹_›, rfl⟩
  · exact ⟨Agree.refl _ _, rfl⟩

/-- An operation whose body ends with its record written. -/
theorem kvServe_sealed {op n : Nat} {o : KvOp} {s : State} (h : KvReady op n o s) {body : State → KvOp → Nat → Nat → KvEnd} {e : KvEnd}
    {w : Option Nat} {final : Bool}
    (he : body (kvTaken s n) o (kvRgn o.desc) (kvSq o.desc) = kvSealed e (kvRgn o.desc) (kvSq o.desc) w final) (hwaits : e.waits = false) :
    ∃ t, kvServe op n body s = .next t ∧ t.kv = e.s.kv ∧
      AgreeOutside [.mem, .regs, .free, .out, .cores, .harps, .ord, .ms, .sch, .ras, .obs, .hst] e.s t := by
  obtain ⟨hseal, hsealw⟩ := kvSealed_leaves e (kvRgn o.desc) (kvSq o.desc) w final
  obtain ⟨t, hnext, hkv, hagree⟩ := kvServe_served h he (hsealw.trans hwaits)
  exact ⟨t, hnext, hkv.trans (hseal .kv (by decide)), Agree.step hagree rfl hseal⟩

end Sys2Proof.Proofs
end

section
/-!
PROOFS. Commits, truncations and pins of sequences (R186, R189, R190): O20.
-/
namespace Sys2Proof.Proofs
open Sys2Proof.Machine Sys2Proof.Safety Sys2Proof.Laws

section
variable {r q : Nat} {s : State}

theorem kvSeq_onKvSeq_self (s : State) (r q : Nat) (f : KvSeq → KvSeq) : kvSeq (onKvSeq s r q f) r q = f (kvSeq s r q) := by
  rw [kvSeq_onKvSeq, if_pos ⟨rfl, rfl⟩]

theorem kvSeq_onKvSeq_other (s : State) {r q r' q' : Nat} (h : ¬ (r' = r ∧ q' = q)) (f : KvSeq → KvSeq) :
    kvSeq (onKvSeq s r q f) r' q' = kvSeq s r' q' := by
  rw [kvSeq_onKvSeq, if_neg h]

/-- The step of unmapping one page of a sequence changes of the sequences but its counts (R186). -/
theorem seqKept_kvTrim (s : State) (len : Nat) (w : Option Nat) : SeqKept r q s (kvTrim s r q len w) := by
  unfold kvTrim
  dsimp only
  refine SeqKept.foldl (fun v k => ?_) (SeqKept.refl r q s) _
  split
  · exact SeqKept.refl r q v
  · refine SeqKept.trans ?_ (seqKept_onKvSeq _ r q _ (fun x => ?_))
    · split
      · exact (seqKept_kvLeaf v _ w k none).trans (seqKept_kvFreePage _ _)
      · exact (seqKept_kvLeaf v _ w k none).trans (seqKept_setKvCount _ _ _)
    · split <;> rfl

end

/-- An operation that ends by an update of its own sequence, with the record written (R186, R190). -/
theorem kvServe_onKvSeq {op n : Nat} {o : KvOp} {s : State} (h : KvReady op n o s) {body : State → KvOp → Nat → Nat → KvEnd}
    {f : KvSeq → KvSeq} {outcome : Nat} {final : Bool}
    (he : body (kvTaken s n) o (kvRgn o.desc) (kvSq o.desc) =
      kvSealed { kvDone (onKvSeq (kvTaken s n) (kvRgn o.desc) (kvSq o.desc) f) 0 0 with outcome := outcome }
        (kvRgn o.desc) (kvSq o.desc) (some o.ring) final) :
    ∃ t, kvServe op n body s = .next t ∧ t.kv.ops = s.kv.ops.eraseIdx n ∧
      kvSeq t (kvRgn o.desc) (kvSq o.desc) = f (kvSeq s (kvRgn o.desc) (kvSq o.desc)) ∧
      (∀ r q, ¬ (r = kvRgn o.desc ∧ q = kvSq o.desc) → kvSeq t r q = kvSeq s r q) ∧
      AgreeOutside [.kv, .free, .mem, .regs, .out, .cores, .harps, .ord, .ms, .sch, .ras, .obs, .hst, .pwr] s t := by
  obtain ⟨t, hnext, hkv, hagree⟩ := kvServe_sealed h he rfl
  replace hkv : t.kv = (onKvSeq (kvTaken s n) (kvRgn o.desc) (kvSq o.desc) f).kv := hkv
  refine ⟨t, hnext, by rw [hkv]; rfl, ?_, fun r q hne => ?_, ?_⟩
  · rw [kvSeq_congr hkv, kvSeq_onKvSeq_self, kvTaken_kvSeq]
  · rw [kvSeq_congr hkv, kvSeq_onKvSeq_other _ hne, kvTaken_kvSeq]
  · exact Agree.step hagree rfl (Agree.step (onKvSeq_keeps _ _ _ _) rfl (Agree.step (kvTaken_keeps s n) rfl (Agree.refl _ _)))

/-- An operation that ends with its record written, whose body changed of the sequences but counts since a state of its work. -/
theorem kvServe_kept {op n : Nat} {o : KvOp} {s : State} (h : KvReady op n o s) {body : State → KvOp → Nat → Nat → KvEnd} {e : KvEnd}
    {w : Option Nat} {final : Bool}
    (he : body (kvTaken s n) o (kvRgn o.desc) (kvSq o.desc) = kvSealed e (kvRgn o.desc) (kvSq o.desc) w final) (hwaits : e.waits = false)
    {r q : Nat} {u : State} (hu : SeqKept r q u e.s) : ∃ t, kvServe op n body s = .next t ∧ SeqKept r q u t := by
  obtain ⟨t, hnext, hkv, -⟩ := kvServe_sealed h he hwaits
  exact ⟨t, hnext, hu.trans (.of_kv r q hkv)⟩

section
variable {n : Nat} {o : KvOp} {s : State}

/-- A commit of an open sequence without a step's fault, at or beyond its length (R190). -/
theorem execKvCommit_grows (h : KvReady 3 n o s) (hopen : (kvSeq s (kvRgn o.desc) (kvSq o.desc)).isOpen = true)
    (hfault : (kvSeq s (kvRgn o.desc) (kvSq o.desc)).stepFault = false)
    (hlen : (kvSeq s (kvRgn o.desc) (kvSq o.desc)).length ≤ kvPos o.desc) (hmax : kvPos o.desc ≤ (kvGeo s (kvRgn o.desc)).maxPos) :
    ∃ t, execKvCommit n s = .next t ∧ t.kv.ops = s.kv.ops.eraseIdx n ∧
      kvSeq t (kvRgn o.desc) (kvSq o.desc) = { kvSeq s (kvRgn o.desc) (kvSq o.desc) with
        length := kvPos o.desc, commits := ((kvSeq s (kvRgn o.desc) (kvSq o.desc)).commits + 1) % 2 ^ 32, lastOutcome := 0 } ∧
      (∀ r q, ¬ (r = kvRgn o.desc ∧ q = kvSq o.desc) → kvSeq t r q = kvSeq s r q) ∧
      AgreeOutside [.kv, .free, .mem, .regs, .out, .cores, .harps, .ord, .ms, .sch, .ras, .obs, .hst, .pwr] s t := by
  refine kvServe_onKvSeq h (f := fun x => { x with length := kvPos o.desc, commits := (x.commits + 1) % 2 ^ 32, lastOutcome := 0 })
    (outcome := 0) (final := true) ?_
  dsimp only
  rw [if_neg (by simp [hopen]), if_neg (by simp [hfault]), if_neg (by rw [kvTaken_kvSeq, kvTaken_kvGeo]; omega)]
  rfl

/-- A commit after a step that failed (R189, R190). -/
theorem execKvCommit_clears (h : KvReady 3 n o s) (hopen : (kvSeq s (kvRgn o.desc) (kvSq o.desc)).isOpen = true)
    (hfault : (kvSeq s (kvRgn o.desc) (kvSq o.desc)).stepFault = true) :
    ∃ t, execKvCommit n s = .next t ∧ t.kv.ops = s.kv.ops.eraseIdx n ∧
      kvSeq t (kvRgn o.desc) (kvSq o.desc) = { kvSeq s (kvRgn o.desc) (kvSq o.desc) with
        stepFault := false, failed := ((kvSeq s (kvRgn o.desc) (kvSq o.desc)).failed + 1) % 2 ^ 32, lastOutcome := 1 } ∧
      (∀ r q, ¬ (r = kvRgn o.desc ∧ q = kvSq o.desc) → kvSeq t r q = kvSeq s r q) ∧
      AgreeOutside [.kv, .free, .mem, .regs, .out, .cores, .harps, .ord, .ms, .sch, .ras, .obs, .hst, .pwr] s t := by
  refine kvServe_onKvSeq h (f := fun x => { x with stepFault := false, failed := (x.failed + 1) % 2 ^ 32, lastOutcome := 1 })
    (outcome := 1) (final := false) ?_
  dsimp only
  rw [if_neg (by simp [hopen]), if_pos (by exact hfault)]

/-- A pin of an open sequence (R186). -/
theorem execKvPin_pins (h : KvReady 7 n o s) (hopen : (kvSeq s (kvRgn o.desc) (kvSq o.desc)).isOpen = true) :
    ∃ t, execKvPin n s = .next t ∧ t.kv.ops = s.kv.ops.eraseIdx n ∧
      kvSeq t (kvRgn o.desc) (kvSq o.desc) = { kvSeq s (kvRgn o.desc) (kvSq o.desc) with pin := decide (dw o.desc 1 56 1 = 1) } ∧
      (∀ r q, ¬ (r = kvRgn o.desc ∧ q = kvSq o.desc) → kvSeq t r q = kvSeq s r q) ∧
      AgreeOutside [.kv, .free, .mem, .regs, .out, .cores, .harps, .ord, .ms, .sch, .ras, .obs, .hst, .pwr] s t := by
  refine kvServe_onKvSeq h (f := fun x => { x with pin := decide (dw o.desc 1 56 1 = 1) }) (outcome := 0) (final := false) ?_
  dsimp only
  rw [if_neg (by simp [hopen])]
  rfl

/-- A truncation of an open sequence at or below its length (R186). -/
theorem execKvTruncate_shrinks (h : KvReady 5 n o s) (hopen : (kvSeq s (kvRgn o.desc) (kvSq o.desc)).isOpen = true)
    (hlen : kvPos o.desc ≤ (kvSeq s (kvRgn o.desc) (kvSq o.desc)).length) :
    ∃ t, execKvTruncate n s = .next t ∧ t.kv.ops = s.kv.ops.eraseIdx n ∧
      bareSeq (kvSeq t (kvRgn o.desc) (kvSq o.desc)) =
        bareSeq { kvSeq s (kvRgn o.desc) (kvSq o.desc) with length := kvPos o.desc, stepFault := false } := by
  have hcut := seqKept_kvTrim (r := kvRgn o.desc) (q := kvSq o.desc) (onKvSeq (kvTaken s n) (kvRgn o.desc) (kvSq o.desc)
    (fun x => { x with length := kvPos o.desc, stepFault := false })) (kvPos o.desc) (some o.ring)
  have hrun : ∃ t, execKvTruncate n s = .next t ∧ SeqKept (kvRgn o.desc) (kvSq o.desc) (onKvSeq (kvTaken s n) (kvRgn o.desc) (kvSq o.desc)
      (fun x => { x with length := kvPos o.desc, stepFault := false })) t := by
    refine kvServe_kept h (e := kvDone (kvTrim _ _ _ _ _) 0 0) (w := some o.ring) (final := true) ?_ rfl hcut
    dsimp only
    rw [if_neg (by simp [hopen]), if_neg (by exact Nat.not_lt.mpr hlen)]
  obtain ⟨t, hnext, hkept⟩ := hrun
  exact ⟨t, hnext, hkept.ops, by rw [hkept.bare, kvSeq_onKvSeq_self, kvTaken_kvSeq]⟩

end

/-- Settles O20: each ends with one update of its sequence and the record on its way; a truncation also unmaps pages, which changes
of the sequences but the counts. -/
theorem kvCommitTruncatePin : Obligations.KvCommitTruncatePin := by
  refine ⟨fun n o s h hopen hfault hlen hmax => execKvCommit_grows h hopen hfault hlen hmax, fun n o s h hopen hfault => ?_,
    fun n o s h hopen hlen => ?_, fun n o s h hopen => ?_⟩
  · obtain ⟨t, hnext, -, hseq, -⟩ := execKvCommit_clears h hopen hfault
    exact ⟨t, hnext, by rw [hseq], by rw [hseq], by rw [hseq]⟩
  · obtain ⟨t, hnext, hops, hseq⟩ := execKvTruncate_shrinks h hopen hlen
    exact ⟨t, hnext, hops, congrArg KvSeq.length hseq, congrArg KvSeq.stepFault hseq, (congrArg KvSeq.isOpen hseq).trans hopen⟩
  · obtain ⟨t, hnext, hops, hseq, hothers, -⟩ := execKvPin_pins h hopen
    exact ⟨t, hnext, hops, hseq, hothers⟩

end Sys2Proof.Proofs
end

section
/-!
PROOFS. Sequences opened, forked and closed (R176, R182, R184, R186): O19.
-/
namespace Sys2Proof.Proofs
open Sys2Proof.Machine Sys2Proof.Safety Sys2Proof.Laws

/-- A sequence as its opening leaves it (R176, R184). -/
def openedSeq (len : Nat) (tables : List Nat) : KvSeq := { KvSeq.closed with isOpen := true, length := len, tables := tables }

section
variable {r q : Nat} {s : State}

theorem seqKept_addSat (s : State) (f : Fld) (i j n : Nat) : SeqKept r q s (addSat s f i j n) :=
  .of_kv r q (addSat_keeps s f i j n .kv (by decide))

/-- The same update of the sequence on both sides, one that does not look at the counts. -/
theorem seqKept_update {t : State} (h : SeqKept r q s t) (f : KvSeq → KvSeq) (hf : ∀ x, bareSeq (f x) = bareSeq (f (bareSeq x))) :
    SeqKept r q (onKvSeq s r q f) (onKvSeq t r q f) :=
  ⟨h.ops, by rw [kvSeq_onKvSeq_self, kvSeq_onKvSeq_self, hf, h.bare, ← hf],
    fun r' q' hne => by rw [kvSeq_onKvSeq_other _ hne, kvSeq_onKvSeq_other _ hne, h.others r' q' hne]⟩

/-- Where the unit's near list holds the table pages, the sequence is opened with them (R176). -/
theorem kvOpenSeq_near (len : Nat) (w : Option Nat) (keep : List Nat) (h : kvTablePages s r ≤ (kvNear s r (kvUnit s q)).length) :
    (kvOpenSeq s r q len w keep).ok = true ∧ ∃ v ps, ps.length = kvTablePages s r ∧ SeqKept r q s v ∧
      SeqKept r q (onKvSeq v r q (fun _ => openedSeq len ps)) (kvOpenSeq s r q len w keep).s := by
  obtain ⟨hok, -, hlen, hseqs⟩ := kvTakeAll_near w keep [] 0 h
  have hok' : (!(kvTakeAll s r (kvUnit s q) w keep (((kvGeo s r).seqBlocks + 255) / 256) [] 0).ok) = false := by
    rw [Bool.not_eq_false']
    exact hok
  unfold kvOpenSeq
  dsimp only
  rw [hok', if_neg Bool.false_ne_true]
  refine ⟨hok, _, _, hlen.trans (Nat.zero_add _), ?_, seqKept_addSat _ _ _ _ _⟩
  exact SeqKept.foldl (fun v i => ((kvStore_work v _ w _ _ false).seqs r q).trans (seqKept_kvBlock _ _ w _ _)) (hseqs q) _

/-- A sequence that has been opened is the opened one but for its counts; the others are as before. -/
theorem SeqKept.opened {v t : State} {x : KvSeq} (hv : SeqKept r q s v) (ht : SeqKept r q (onKvSeq v r q (fun _ => x)) t) :
    t.kv.ops = s.kv.ops ∧ bareSeq (kvSeq t r q) = bareSeq x ∧ ∀ r' q', ¬ (r' = r ∧ q' = q) → kvSeq t r' q' = kvSeq s r' q' :=
  ⟨ht.ops.trans hv.ops, by rw [ht.bare, kvSeq_onKvSeq_self],
    fun r' q' hne => (ht.others r' q' hne).trans ((kvSeq_onKvSeq_other v hne _).trans (hv.others r' q' hne))⟩

end

section
variable {n : Nat} {o : KvOp} {s : State}

/-- An opening of a closed sequence (R176, R182). -/
theorem execKvOpen_opens (h : KvReady 1 n o s) (hclosed : (kvSeq s (kvRgn o.desc) (kvSq o.desc)).isOpen = false)
    (hnear : kvTablePages s (kvRgn o.desc) ≤ (kvNear s (kvRgn o.desc) (kvUnit s (kvSq o.desc))).length) :
    ∃ t ps, execKvOpen n s = .next t ∧ ps.length = kvTablePages s (kvRgn o.desc) ∧ t.kv.ops = s.kv.ops.eraseIdx n ∧
      bareSeq (kvSeq t (kvRgn o.desc) (kvSq o.desc)) = bareSeq (openedSeq 0 ps) := by
  obtain ⟨hok, v, ps, hlen, hv, hx⟩ := kvOpenSeq_near (s := kvTaken s n) (r := kvRgn o.desc) (q := kvSq o.desc) 0 (some o.ring) [] hnear
  have hrun : ∃ t, execKvOpen n s = .next t ∧ SeqKept (kvRgn o.desc) (kvSq o.desc) (onKvSeq v (kvRgn o.desc) (kvSq o.desc)
      (fun _ => openedSeq 0 ps)) t := by
    refine kvServe_kept h (e := kvDone (kvOpenSeq _ _ _ _ _ _).s ?flags ?pages) (w := some o.ring) (final := false) ?body ?waits hx
    case body =>
      dsimp only
      rw [if_neg (by simp [hclosed]), if_pos (by exact hok)]
    case waits => rfl
  obtain ⟨t, hnext, ht⟩ := hrun
  obtain ⟨hops, hseq, -⟩ := hv.opened ht
  exact ⟨t, ps, hnext, hlen, hops, hseq⟩

/-- A fork of an open parent at least as long as asked for (R184). -/
theorem execKvFork_forks (h : KvReady 4 n o s) (hparent : kvParent o.desc < (kvGeo s (kvRgn o.desc)).maxSeq)
    (hopen : (kvSeq s (kvRgn o.desc) (kvParent o.desc)).isOpen = true) (hclosed : (kvSeq s (kvRgn o.desc) (kvSq o.desc)).isOpen = false)
    (hpos : kvPos o.desc ≤ (kvSeq s (kvRgn o.desc) (kvParent o.desc)).length)
    (hnear : kvTablePages s (kvRgn o.desc) ≤ (kvNear s (kvRgn o.desc) (kvUnit s (kvSq o.desc))).length) :
    ∃ t ps, execKvFork n s = .next t ∧ ps.length = kvTablePages s (kvRgn o.desc) ∧ t.kv.ops = s.kv.ops.eraseIdx n ∧
      bareSeq (kvSeq t (kvRgn o.desc) (kvSq o.desc)) = bareSeq (openedSeq (kvPos o.desc) ps) ∧
      ∀ r q, ¬ (r = kvRgn o.desc ∧ q = kvSq o.desc) → kvSeq t r q = kvSeq s r q := by
  obtain ⟨hok, v, ps, hlen, hv, hx⟩ := kvOpenSeq_near (s := kvTaken s n) (r := kvRgn o.desc) (q := kvSq o.desc) (kvPos o.desc) (some o.ring)
    (kvTouches (kvTaken s n) o) hnear
  have hrun : ∃ t, execKvFork n s = .next t ∧ SeqKept (kvRgn o.desc) (kvSq o.desc) (onKvSeq v (kvRgn o.desc) (kvSq o.desc)
      (fun _ => openedSeq (kvPos o.desc) ps)) t := by
    refine kvServe_kept h (e := kvDone ?shared ?flags ?pages) (w := some o.ring) (final := true) ?body ?waits ?kept
    case body =>
      dsimp only
      rw [if_neg (by simp [hopen, hparent]), if_neg (by exact Nat.not_lt.mpr hpos), if_neg (by simp [hclosed]), if_neg (by simp [hok])]
    case waits => rfl
    case kept =>
      refine SeqKept.foldl (fun x k => ?_) hx _
      split
      · exact SeqKept.refl _ _ x
      · refine SeqKept.trans ?_ (seqKept_onKvSeq _ _ _ _ (fun y => ?_))
        · exact (seqKept_kvLeaf x _ _ _ _).trans (seqKept_setKvCount _ _ _)
        · split <;> rfl
  obtain ⟨t, hnext, ht⟩ := hrun
  obtain ⟨hops, hseq, hothers⟩ := hv.opened ht
  exact ⟨t, ps, hnext, hlen, hops, hseq, hothers⟩

/-- A close of an open sequence (R176, R186). -/
theorem execKvClose_closes (h : KvReady 6 n o s) (hopen : (kvSeq s (kvRgn o.desc) (kvSq o.desc)).isOpen = true) :
    ∃ t, execKvClose n s = .next t ∧ t.kv.ops = s.kv.ops.eraseIdx n ∧
      bareSeq (kvSeq t (kvRgn o.desc) (kvSq o.desc)) =
        bareSeq { kvSeq s (kvRgn o.desc) (kvSq o.desc) with isOpen := false, length := 0, stepFault := false, tables := [] } := by
  have hrun : ∃ t, execKvClose n s = .next t ∧ SeqKept (kvRgn o.desc) (kvSq o.desc) (onKvSeq (onKvSeq (kvTaken s n) (kvRgn o.desc) (kvSq o.desc)
      (fun x => { x with length := 0, stepFault := false })) (kvRgn o.desc) (kvSq o.desc) (fun x => { x with isOpen := false, tables := [] })) t := by
    refine kvServe_kept h (e := kvDone ?closed ?flags ?pages) (w := some o.ring) (final := true) ?body ?waits ?kept
    case body =>
      dsimp only
      rw [if_neg (by simp [hopen])]
    case waits => rfl
    case kept =>
      refine SeqKept.trans (seqKept_update ?_ _ (fun _ => rfl)) (SeqKept.of_kv _ _ rfl)
      refine SeqKept.foldl (fun v p => seqKept_kvFreePage v p) ?_ _
      refine SeqKept.foldl (fun v i => seqKept_kvBlock v _ _ _ _) ?_ _
      exact seqKept_kvTrim _ 0 (some o.ring)
  obtain ⟨t, hnext, hkept⟩ := hrun
  exact ⟨t, hnext, hkept.ops, by rw [hkept.bare, kvSeq_onKvSeq_self, kvSeq_onKvSeq_self, kvTaken_kvSeq]⟩

end

/-- Settles O19: table pages come from the near list, and no step of a fork or a close changes of other sequences anything but the
counts of their mapped pages. -/
theorem kvOpenForkClose : Obligations.KvOpenForkClose := by
  refine ⟨fun n o s h hclosed hnear => ?_, fun n o s h hparent hopen hclosed hpos hnear => ?_, fun n o s h hopen => ?_⟩
  · obtain ⟨t, ps, hnext, hlen, hops, hseq⟩ := execKvOpen_opens h hclosed hnear
    exact ⟨t, hnext, hops, congrArg KvSeq.isOpen hseq, congrArg KvSeq.length hseq,
      (congrArg (fun x => x.tables.length) hseq).trans hlen⟩
  · obtain ⟨t, ps, hnext, -, hops, hseq, hothers⟩ := execKvFork_forks h hparent hopen hclosed hpos hnear
    refine ⟨t, hnext, hops, congrArg KvSeq.isOpen hseq, congrArg KvSeq.length hseq, hothers _ _ (fun hsame => ?_)⟩
    rw [hsame.2, hclosed] at hopen
    exact Bool.false_ne_true hopen
  · obtain ⟨t, hnext, hops, hseq⟩ := execKvClose_closes h hopen
    exact ⟨t, hnext, hops, congrArg KvSeq.isOpen hseq, congrArg KvSeq.length hseq⟩

end Sys2Proof.Proofs
end

section
/-!
PROOFS. Appends (R185, R187 to R189): O21. The page of a 64 KiB is mapped, copied or promoted, which takes at most one page of the
unit's near list; the writes of the rows leave the records.
-/
namespace Sys2Proof.Proofs
open Sys2Proof.Machine Sys2Proof.Safety Sys2Proof.Laws

/-! ### The page of a 64 KiB (R185, R187) -/

/-- What an append may do to its region in a step that takes at most d near pages of unit u. -/
structure AppendKept (r q u d : Nat) (s t : State) : Prop where
  seqs : SeqKept r q s t
  pool : PoolKept r u d s t

section
variable {r q u d e : Nat} {s t v : State}

theorem AppendKept.refl (r q u : Nat) (s : State) : AppendKept r q u 0 s s := ⟨.refl r q s, .refl r u s⟩

theorem AppendKept.trans (h : AppendKept r q u d s t) (h' : AppendKept r q u e t v) : AppendKept r q u (d + e) s v :=
  ⟨h.seqs.trans h'.seqs, h.pool.trans h'.pool⟩

theorem AppendKept.step (h : AppendKept r q u d s t) (h' : AppendKept r q u 0 t v) : AppendKept r q u d s v := h.trans h'

theorem AppendKept.mono (h : AppendKept r q u d s t) (hd : d ≤ e) : AppendKept r q u e s t := ⟨h.seqs, h.pool.mono hd⟩

theorem UnitWork.append (h : UnitWork s t) (r q u : Nat) : AppendKept r q u 0 s t := ⟨h.seqs r q, h.pool r u⟩

/-- Tables that stand still stand. -/
theorem AppendKept.table (h : AppendKept r q u d s t) {b : Nat} (hb : SMap.look (fun _ => none) (kvReg s r).tabs b ≠ none) :
    SMap.look (fun _ => none) (kvReg t r).tabs b ≠ none := by
  rwa [h.pool.tabs]

/-- A page mapped with a count of one. -/
theorem appendKept_map (s : State) (stack : Nat) (w : Option Nat) (k n : Nat) :
    AppendKept r q u 0 s (setKvCount (kvLeaf s r stack w k (some n)) r n 1) :=
  ⟨(seqKept_kvLeaf s stack w k _).trans (seqKept_setKvCount _ n 1), (poolKept_kvLeaf s stack w k n).step (poolKept_setKvCount _ n 1)⟩

theorem kvPage_map {k : Nat} (htab : SMap.look (fun _ => none) (kvReg s r).tabs (k / 32) ≠ none) (stack : Nat) (w : Option Nat) (n : Nat) :
    kvPage (setKvCount (kvLeaf s r stack w k (some n)) r n 1) r k ≠ none :=
  (poolKept_setKvCount (u := 0) _ n 1).mapped k (by rw [kvPage_kvLeaf htab]; exact Option.some_ne_none n)

theorem appendKept_onKvSeq (s : State) (f : KvSeq → KvSeq) (hf : ∀ x, bareSeq (f x) = bareSeq x) : AppendKept r q u 0 s (onKvSeq s r q f) :=
  ⟨seqKept_onKvSeq s r q f hf, poolKept_onKvSeq s q f⟩

/-- A count that falls by one, where the last use frees the page. -/
theorem appendKept_release (s : State) (n : Nat) :
    AppendKept r q u 0 s (if kvCount s r n ≤ 1 then kvFreePage s r n else setKvCount s r n (kvCount s r n - 1)) := by
  split
  · exact ⟨seqKept_kvFreePage s n, poolKept_kvFreePage s n⟩
  · exact ⟨seqKept_setKvCount s n _, poolKept_setKvCount s n _⟩

/-- A page that takes the place of another: it is mapped, the other is released, and where that one was far the counts say so (R185, R193). -/
theorem appendKept_replace {copied : State} (h : AppendKept r q u d s v) (hcopied : UnitWork v copied) (stack : Nat) (w : Option Nat)
    (k n old : Nat) (far : Prop) [Decidable far]
    {mapped : State} (hmapped : setKvCount (kvLeaf copied r stack w k (some n)) r n 1 = mapped) :
    let released := if kvCount mapped r old ≤ 1 then kvFreePage mapped r old else setKvCount mapped r old (kvCount mapped r old - 1)
    let t := if far then onKvSeq released r q (fun x => { x with nearMapped := x.nearMapped + 1, farMapped := x.farMapped - 1 }) else released
    AppendKept r q u d s t ∧ (SMap.look (fun _ => none) (kvReg s r).tabs (k / 32) ≠ none → kvPage t r k ≠ none) := by
  intro released t
  have hcopy : AppendKept r q u d s copied := h.step (hcopied.append r q u)
  have hmap : AppendKept r q u d s mapped := hmapped ▸ hcopy.step (appendKept_map copied stack w k n)
  have hrest : AppendKept r q u 0 mapped t := by
    unfold t
    split
    · exact (appendKept_release mapped old).step (appendKept_onKvSeq released _ (fun _ => rfl))
    · exact appendKept_release mapped old
  refine ⟨hmap.step hrest, fun htab => hrest.pool.mapped k ?_⟩
  rw [← hmapped]
  exact kvPage_map (hcopy.table htab) stack w n

/-- Where the near list holds a page, the page of a 64 KiB is had for at most one of it, and is mapped where the block's tables stand. -/
theorem kvPageFor_near {k : Nat} (h : kvNear s r (kvUnit s q) ≠ []) (w : Option Nat) (keep : List Nat) :
    ∃ t page more fl, kvPageFor s r q k w keep = ⟨t, page :: more, true, fl, false, none⟩ ∧ AppendKept r q (kvUnit s q) 1 s t ∧
      (SMap.look (fun _ => none) (kvReg s r).tabs (k / 32) ≠ none → kvPage t r k ≠ none) := by
  unfold kvPageFor
  dsimp only
  split
  · obtain ⟨v, n, htake, hseqs, hpool⟩ := kvTake_near h w keep
    have htaken : AppendKept r q (kvUnit s q) 1 s v := ⟨hseqs q, hpool⟩
    have hcount := appendKept_onKvSeq (r := r) (q := q) (u := kvUnit s q) (setKvCount (kvLeaf v r (stackOfRank s (kvUnit s q)) w k (some n)) r n 1)
      (fun x => { x with nearMapped := x.nearMapped + 1 }) (fun _ => rfl)
    rw [htake]
    exact ⟨_, _, _, _, rfl, (htaken.step (appendKept_map v _ w k n)).step hcount,
      fun htab => hcount.pool.mapped k (kvPage_map (htaken.table htab) _ w n)⟩
  · rename_i old hold
    split
    · exact ⟨s, old, [], 0, rfl, (AppendKept.refl r q _ s).mono (Nat.zero_le 1), fun _ => by rw [hold]; exact Option.some_ne_none old⟩
    · obtain ⟨v, n, htake, hseqs, hpool⟩ := kvTake_near h w (old :: keep)
      have htaken : AppendKept r q (kvUnit s q) 1 s v := ⟨hseqs q, hpool⟩
      rw [htake]
      have hcopy := fun (src dst m : Nat) (x : State) => kvCopy_work x (stackOfRank s (kvUnit s q)) w src dst m
      refine ⟨_, _, _, _, rfl, ?kept⟩
      case kept =>
        refine appendKept_replace htaken ?copied _ w k n old _ rfl
        split
        · refine UnitWork.foldl (fun x c => ?_) (UnitWork.refl v) _
          split
          · exact UnitWork.foldl (fun y _ => hcopy _ _ _ y) (hcopy _ _ _ x) _
          · exact hcopy _ _ _ x
        · exact (hcopy _ _ _ v).trans (hcopy _ _ _ _)

end

/-! ### The rows of an append (R188) -/

/-- Writes of an append to memory: the records are as before, and so is why it stopped. -/
structure RowWork (a b : KvAcc) : Prop where
  work : UnitWork a.s b.s
  stop : b.stop = a.stop

theorem RowWork.refl (a : KvAcc) : RowWork a a := ⟨.refl a.s, rfl⟩

theorem RowWork.trans {a b c : KvAcc} (h : RowWork a b) (h' : RowWork b c) : RowWork a c := ⟨h.work.trans h'.work, h'.stop.trans h.stop⟩

theorem RowWork.foldl {α : Type} {f : KvAcc → α → KvAcc} (hf : ∀ b x, RowWork b (f b x)) (a : KvAcc) (l : List α) :
    RowWork a (l.foldl f a) :=
  List.foldlRecOn l f (RowWork.refl a) (fun b hb x _ => hb.trans (hf b x))

theorem kvPutBlock_work (a : KvAcc) (g : KvGeo) (stack : Nat) (w : Option Nat) (page pos c j src : Nat) (rtz : Bool) (bytes : List Byte)
    (bad : Bool) :
    RowWork a (kvPutBlock a g stack w page pos c j src rtz bytes bad) := by
  refine ⟨?_, rfl⟩
  unfold kvPutBlock
  dsimp only
  exact UnitWork.foldl (fun v _ => kvStore_work v stack w _ _ bad) (kvStore_work a.s stack w _ _ bad) _

theorem kvPutPos_work (a : KvAcc) (g : KvGeo) (stack : Nat) (w : Option Nat) (page pos src : Nat) (rtz : Bool) (ps : List (Nat × Nat))
    (bytes : List Byte) (base : Nat) : RowWork a (kvPutPos a g stack w page pos src rtz ps bytes base) := by
  unfold kvPutPos
  exact RowWork.foldl (fun b _ => RowWork.foldl (fun e _ => kvPutBlock_work e g stack w page pos _ _ src rtz _ _) b _) a _

/-! ### The pages of an append (R187, R189) -/

/-- An append's step for page i that goes on: at most one near page is taken, and the 64 KiB is mapped where its block's tables stand. -/
def PageMapped (r q u k : Nat) (a b : KvAcc) : Prop :=
  b.stop = none ∧ AppendKept r q u 1 a.s b.s ∧ (SMap.look (fun _ => none) (kvReg a.s r).tabs (k / 32) ≠ none → kvPage b.s r k ≠ none)

/-- Where the near list holds a page for each step, no step stops and every page is mapped. -/
theorem foldl_pages {r q u : Nat} {f : KvAcc → Nat → KvAcc} {key : Nat → Nat}
    (hf : ∀ a i, a.stop = none → kvUnit a.s q = u → kvNear a.s r u ≠ [] → PageMapped r q u (key i) a (f a i)) (l : List Nat) (a : KvAcc)
    (hstop : a.stop = none) (hu : kvUnit a.s q = u) (hnear : l.length ≤ (kvNear a.s r u).length) :
    (l.foldl f a).stop = none ∧ AppendKept r q u l.length a.s (l.foldl f a).s ∧
      ∀ i ∈ l, SMap.look (fun _ => none) (kvReg a.s r).tabs (key i / 32) ≠ none → kvPage (l.foldl f a).s r (key i) ≠ none := by
  induction l generalizing a with
  | nil => exact ⟨hstop, .refl r q u a.s, fun i hi => nomatch hi⟩
  | cons i l ih =>
    have hne : kvNear a.s r u ≠ [] := fun hnil => by
      rw [hnil] at hnear
      exact Nat.not_succ_le_zero _ hnear
    obtain ⟨hstop', hkept, hmap⟩ := hf a i hstop hu hne
    have hleft := hkept.pool.near
    rw [List.length_cons] at hnear
    obtain ⟨hend, hall, hmaps⟩ := ih (f a i) hstop' ((hkept.pool.regs.kvUnit q).trans hu) (by omega)
    refine ⟨hend, by rw [List.length_cons, Nat.add_comm]; exact hkept.trans hall, fun j hj htab => ?_⟩
    rcases List.mem_cons.mp hj with rfl | hj
    · exact hall.pool.mapped _ (hmap htab)
    · exact hmaps j hj (hkept.table htab)

/-- Once stopped, an append does no more. -/
theorem foldl_stopped {f : KvAcc → Nat → KvAcc} (hf : ∀ a i, a.stop.isSome = true → f a i = a) (l : List Nat) {a : KvAcc}
    (h : a.stop.isSome = true) :
    l.foldl f a = a := by
  induction l with
  | nil => rfl
  | cons i l ih => rw [List.foldl_cons, hf a i h, ih]

/-- The pages that COUNT positions enter are at most COUNT. -/
theorem pages_entered {p0 count positions : Nat} (hcount : 0 < count) (hpos : 0 < positions) :
    (p0 + count - 1) / positions - p0 / positions + 1 ≤ count := by
  have hlast : (p0 + count - 1) / positions ≤ p0 / positions + (count - 1) := by
    calc (p0 + count - 1) / positions
        ≤ (p0 + (count - 1) * positions) / positions := Nat.div_le_div_right (by have := Nat.le_mul_of_pos_right (count - 1) hpos; omega)
      _ = p0 / positions + (count - 1) := Nat.add_mul_div_right _ _ hpos
  omega

/-! ### An append as a whole (R187 to R189) -/

/-- An append without an error statistic, at the length of its open sequence and within its limits, whose source maps (R187, R189). -/
structure AppendFits (n : Nat) (o : KvOp) (ps : List (Nat × Nat)) (s : State) : Prop where
  ready : KvReady 2 n o s
  isOpen : (kvSeq s (kvRgn o.desc) (kvSq o.desc)).isOpen = true
  noFault : (kvSeq s (kvRgn o.desc) (kvSq o.desc)).stepFault = false
  layer : dw o.desc 2 0 8 < (kvGeo s (kvRgn o.desc)).layers
  pair : dw o.desc 2 8 6 < (kvGeo s (kvRgn o.desc)).pairs
  atLength : kvPos o.desc = (kvSeq s (kvRgn o.desc) (kvSq o.desc)).length
  within : kvPos o.desc + dw o.desc 2 32 16 ≤ (kvGeo s (kvRgn o.desc)).maxPos
  noErrors : dw o.desc 2 16 2 = 0
  source : pieces s none (kvGeo s (kvRgn o.desc)).part false false (dw o.desc 3 0 48)
    (dw o.desc 2 32 16 * 8 * (kvGeo s (kvRgn o.desc)).dim) = .ok ps

/-- The source of an append is read: its translations are learned and its pieces are served (R188). -/
def appendRead (s : State) (o : KvOp) (ps : List (Nat × Nat)) : State :=
  ps.foldl (fun v p => sliceRd v (.kpu (Fin.ofNat 12 (stackOfRank s (kvUnit s (kvSq o.desc))))) (some (dw o.desc 3 0 48)) (some o.ring) p.1 p.2)
    (learnRange s none (kvGeo s (kvRgn o.desc)).part (dw o.desc 3 0 48) (dw o.desc 2 32 16 * 8 * (kvGeo s (kvRgn o.desc)).dim) false false
      (some o.ring))

/-- Number of the 64 KiB that an append enters as its i-th page of positions (R175). -/
def appendKey (s : State) (o : KvOp) (i : Nat) : Nat :=
  (kvGeo s (kvRgn o.desc)).key (kvSq o.desc) (dw o.desc 2 0 8) (dw o.desc 2 8 6) (kvPos o.desc / (kvGeo s (kvRgn o.desc)).positions + i)

/-- Pages of positions that an append enters. -/
def appendCount (s : State) (o : KvOp) : Nat :=
  (kvPos o.desc + dw o.desc 2 32 16 - 1) / (kvGeo s (kvRgn o.desc)).positions - kvPos o.desc / (kvGeo s (kvRgn o.desc)).positions + 1

/-- An append's rows on one page: positions from `lo` to `hi`. -/
def appendRows (s : State) (o : KvOp) (ps : List (Nat × Nat)) (a : KvAcc) (page lo hi : Nat) : KvAcc :=
  (List.range (hi - lo)).foldl (fun a t => kvPutPos a (kvGeo s (kvRgn o.desc)) (stackOfRank s (kvUnit s (kvSq o.desc))) (some o.ring) page (lo + t)
    (if dw o.desc 2 14 1 = 1 then 3 else 2) (decide (dw o.desc 2 15 1 = 1)) ps (readPieces (appendRead s o ps) ps).1
    ((lo + t - kvPos o.desc) * 8 * (kvGeo s (kvRgn o.desc)).dim)) a

/-- One page of positions of an append: its page is had or the append stops, and its rows are written. -/
def appendPage (s : State) (o : KvOp) (ps : List (Nat × Nat)) (a : KvAcc) (i : Nat) : KvAcc :=
  if a.stop.isSome then a
  else
    let x := kvPageFor a.s (kvRgn o.desc) (kvSq o.desc) (appendKey s o i) (some o.ring) (a.used ++ kvTouches (appendRead s o ps) o)
    match x.pages with
    | [] => { a with s := x.s, flags := a.flags ||| x.flags, stop := some x }
    | page :: more =>
      appendRows s o ps { a with s := kvStamp x.s (kvRgn o.desc) page, flags := a.flags ||| x.flags, pages := a.pages + more.length,
                                 used := page :: a.used } page
        (max (kvPos o.desc) ((kvPos o.desc / (kvGeo s (kvRgn o.desc)).positions + i) * (kvGeo s (kvRgn o.desc)).positions))
        (min (kvPos o.desc + dw o.desc 2 32 16) ((kvPos o.desc / (kvGeo s (kvRgn o.desc)).positions + i + 1) * (kvGeo s (kvRgn o.desc)).positions))

/-- What an append has done after its pages. -/
def appendPages (s : State) (o : KvOp) (ps : List (Nat × Nat)) : KvAcc :=
  (List.range (appendCount s o)).foldl (appendPage s o ps) ⟨appendRead s o ps, 0, 0, [], [], none⟩

/-- How an append ends, by why its pages stopped (R189). -/
def appendEnd (s : State) (o : KvOp) (a : KvAcc) : KvEnd :=
  match a.stop with
  | some x =>
    if x.waits then { kvFail a.s 0 with waits := true }
    else match x.fault with
      | some f => { kvFail a.s 0 with flags := a.flags, pages := a.pages, fault := some f, lost := true }
      | none =>
        kvSealed { kvDone (addSat (onKvSeq a.s (kvRgn o.desc) (kvSq o.desc) (fun x => { x with stepFault := true })) R.KPU_EVT_NO_PAGE
          (kvRgn o.desc) (stackOfRank s (kvUnit s (kvSq o.desc))) 1) a.flags a.pages with outcome := 1 } (kvRgn o.desc) (kvSq o.desc)
          (some o.ring) false
  | none => kvSealed (kvDone a.s a.flags a.pages) (kvRgn o.desc) (kvSq o.desc) (some o.ring) false

section
variable {n : Nat} {o : KvOp} {ps : List (Nat × Nat)} {s : State}

theorem appendEnd_done {a : KvAcc} (h : a.stop = none) : (appendEnd s o a).waits = false ∧ (appendEnd s o a).s.kv = a.s.kv := by
  obtain ⟨hseal, hwaits⟩ := kvSealed_leaves (kvDone a.s a.flags a.pages) (kvRgn o.desc) (kvSq o.desc) (some o.ring) false
  unfold appendEnd
  rw [h]
  exact ⟨hwaits, hseal .kv (by decide)⟩

theorem appendEnd_lacks {a : KvAcc} {x : KvGot} (h : a.stop = some x) (hwaits : x.waits = false) (hfault : x.fault = none) :
    (appendEnd s o a).waits = false ∧
      (appendEnd s o a).s.kv = (onKvSeq a.s (kvRgn o.desc) (kvSq o.desc) (fun x => { x with stepFault := true })).kv := by
  unfold appendEnd
  rw [h]
  dsimp only
  rw [hwaits, if_neg (by decide), hfault]
  dsimp only
  exact ⟨(kvSealed_leaves _ _ _ _ _).2, ((kvSealed_leaves _ _ _ _ _).1 .kv (by decide)).trans (addSat_keeps _ _ _ _ _ .kv (by decide))⟩

/-- An append that fits is served page by page (R187). -/
theorem execKvAppend_runs (h : AppendFits n o ps s) (hwaits : (appendEnd (kvTaken s n) o (appendPages (kvTaken s n) o ps)).waits = false) :
    ∃ t, execKvAppend n s = .next t ∧ t.kv = (appendEnd (kvTaken s n) o (appendPages (kvTaken s n) o ps)).s.kv := by
  obtain ⟨hready, hopen, hfault, hlayer, hpair, hlen, hmax, hmode, hsource⟩ := h
  have hsource' : pieces (kvTaken s n) none (kvGeo (kvTaken s n) (kvRgn o.desc)).part false false (dw o.desc 3 0 48)
      (dw o.desc 2 32 16 * 8 * (kvGeo (kvTaken s n) (kvRgn o.desc)).dim) = .ok ps := ((mapSame_kvTaken s n).pieces ..).trans hsource
  have hranges : decide ((kvGeo (kvTaken s n) (kvRgn o.desc)).layers ≤ dw o.desc 2 0 8 ∨ (kvGeo (kvTaken s n) (kvRgn o.desc)).pairs ≤
      dw o.desc 2 8 6) = false := decide_eq_false (by rw [kvTaken_kvGeo]; omega)
  have hrun : ∃ t, execKvAppend n s = .next t ∧ t.kv = (appendEnd (kvTaken s n) o (appendPages (kvTaken s n) o ps)).s.kv ∧
      AgreeOutside [.mem, .regs, .out, .cores, .harps, .ord, .ms, .sch, .ras, .obs, .hst]
        (appendEnd (kvTaken s n) o (appendPages (kvTaken s n) o ps)).s t := by
    refine kvServe_served hready ?_ hwaits
    dsimp only
    rw [if_neg (by rw [kvTaken_kvSeq, hopen, hranges]; decide), if_neg (by simp [hfault]),
      if_neg (by rw [kvTaken_kvSeq, kvTaken_kvGeo]; omega)]
    rw [hsource', if_pos hmode]
    dsimp only
    rw [if_pos hmode]
    rfl
  obtain ⟨t, hnext, hkv, -⟩ := hrun
  exact ⟨t, hnext, hkv⟩

theorem kvRgn_lt (d : List W64) : kvRgn d < 64 := getBits_lt ..

theorem appendRead_work (s : State) (o : KvOp) (ps : List (Nat × Nat)) : UnitWork s (appendRead s o ps) :=
  UnitWork.foldl (fun v _ => sliceRd_work v _ _ _ _ _) (learnRange_work s none _ _ _ false false _) ps

theorem appendRows_work (s : State) (o : KvOp) (ps : List (Nat × Nat)) (a : KvAcc) (page lo hi : Nat) : RowWork a (appendRows s o ps a page lo hi) :=
  RowWork.foldl (fun b _ => kvPutPos_work b _ _ _ _ _ _ _ _ _ _) a _

/-- A step with a page on the near list goes on. -/
theorem appendPage_maps {a : KvAcc} (hstop : a.stop = none) (hnear : kvNear a.s (kvRgn o.desc) (kvUnit a.s (kvSq o.desc)) ≠ []) (i : Nat) :
    PageMapped (kvRgn o.desc) (kvSq o.desc) (kvUnit a.s (kvSq o.desc)) (appendKey s o i) a (appendPage s o ps a i) := by
  obtain ⟨t, page, more, fl, hx, hkept, hmap⟩ := kvPageFor_near (k := appendKey s o i) hnear (some o.ring)
    (a.used ++ kvTouches (appendRead s o ps) o)
  unfold appendPage
  rw [hstop, if_neg (by decide), hx]
  dsimp only
  have hstamp : AppendKept (kvRgn o.desc) (kvSq o.desc) (kvUnit a.s (kvSq o.desc)) 0 t (kvStamp t (kvRgn o.desc) page) :=
    ⟨seqKept_kvStamp t page, poolKept_kvStamp t page⟩
  have hrows : ∀ (b : KvAcc) (lo hi : Nat), b.s = kvStamp t (kvRgn o.desc) page →
      AppendKept (kvRgn o.desc) (kvSq o.desc) (kvUnit a.s (kvSq o.desc)) 0 t (appendRows s o ps b page lo hi).s := fun b lo hi hb =>
    hstamp.step (hb ▸ (appendRows_work s o ps b page lo hi).work.append _ _ _)
  exact ⟨(appendRows_work ..).stop, hkept.step (hrows _ _ _ rfl), fun htab => (hrows _ _ _ rfl).pool.mapped _ (hmap htab)⟩

/-- A step that finds no page stops, with nothing else done (R182, R189). -/
theorem appendPage_lacks {a : KvAcc} {i : Nat} (hstop : a.stop = none) (hpage : kvPage a.s (kvRgn o.desc) (appendKey s o i) = none)
    (hnear : kvNear a.s (kvRgn o.desc) (kvUnit a.s (kvSq o.desc)) = []) (hborrow : (kvGeo a.s (kvRgn o.desc)).borrow = false)
    (hdemote : (kvGeo a.s (kvRgn o.desc)).demote = false) :
    (appendPage s o ps a i).s = a.s ∧ (appendPage s o ps a i).stop = some ⟨a.s, [], false, 0, false, none⟩ := by
  have hx : ∀ w keep, kvPageFor a.s (kvRgn o.desc) (kvSq o.desc) (appendKey s o i) w keep = ⟨a.s, [], false, 0, false, none⟩ := fun w keep => by
    unfold kvPageFor
    rw [hpage]
    dsimp only
    rw [kvTake_none hnear hborrow hdemote]
  unfold appendPage
  rw [hstop, if_neg (by decide), hx]
  exact ⟨rfl, rfl⟩

theorem appendPage_stopped (a : KvAcc) (i : Nat) (h : a.stop.isSome = true) : appendPage s o ps a i = a := by
  unfold appendPage
  rw [if_pos h]

/-- An append with enough near pages maps them all (R187). -/
theorem appendPages_maps (hpositions : 0 < (kvGeo s (kvRgn o.desc)).positions) (hcount : 0 < dw o.desc 2 32 16)
    (hnear : dw o.desc 2 32 16 ≤ (kvNear s (kvRgn o.desc) (kvUnit s (kvSq o.desc))).length) :
    (appendPages s o ps).stop = none ∧ SeqKept (kvRgn o.desc) (kvSq o.desc) s (appendPages s o ps).s ∧
      ∀ i < appendCount s o, SMap.look (fun _ => none) (kvReg s (kvRgn o.desc)).tabs (appendKey s o i / 32) ≠ none →
        kvPage (appendPages s o ps).s (kvRgn o.desc) (appendKey s o i) ≠ none := by
  have hread := (appendRead_work s o ps).append (kvRgn o.desc) (kvSq o.desc) (kvUnit s (kvSq o.desc))
  have hnear' := hread.pool.near
  have hentered : appendCount s o ≤ dw o.desc 2 32 16 := pages_entered hcount hpositions
  obtain ⟨hstop, hkept, hmaps⟩ := foldl_pages (f := appendPage s o ps) (key := appendKey s o)
    (fun a i hstop hu hne => by rw [← hu] at hne ⊢; exact appendPage_maps hstop hne i) (List.range (appendCount s o))
    ⟨appendRead s o ps, 0, 0, [], [], none⟩ rfl (hread.pool.regs.kvUnit _) (by rw [List.length_range]; exact hentered.trans (hnear.trans hnear'))
  exact ⟨hstop, hread.seqs.trans hkept.seqs, fun i hi htab => hmaps i (List.mem_range.mpr hi) (hread.table htab)⟩

/-- An append whose first page is not mapped and cannot be had stops there (R189). -/
theorem appendPages_lacks (hpage : kvPage s (kvRgn o.desc) (appendKey s o 0) = none)
    (hnear : kvNear s (kvRgn o.desc) (kvUnit s (kvSq o.desc)) = []) (hborrow : (kvGeo s (kvRgn o.desc)).borrow = false)
    (hdemote : (kvGeo s (kvRgn o.desc)).demote = false) :
    SeqKept (kvRgn o.desc) (kvSq o.desc) s (appendPages s o ps).s ∧
      (appendPages s o ps).stop = some ⟨appendRead s o ps, [], false, 0, false, none⟩ := by
  have hread := appendRead_work s o ps
  have hgeo := hread.regs.kvGeo (kvRgn_lt o.desc)
  have hfirst := appendPage_lacks (s := s) (ps := ps) (i := 0) (a := ⟨appendRead s o ps, 0, 0, [], [], none⟩) rfl
    ((kvPage_congr hread.kv _ _).trans hpage) ((kvNear_congr hread.kv _ _).trans (by rw [hread.regs.kvUnit]; exact hnear))
    (by rw [hgeo]; exact hborrow) (by rw [hgeo]; exact hdemote)
  unfold appendPages appendCount
  rw [List.range_succ_eq_map, List.foldl_cons, foldl_stopped appendPage_stopped _ (by rw [hfirst.2]; rfl)]
  exact ⟨by rw [hfirst.1]; exact hread.seqs _ _, hfirst.2⟩

end

/-- Settles O21: a page is had from the near list for each page of positions, and no step of the append changes of the sequences
anything but counts; where the first page cannot be had the append stops and sets the step's fault. -/
theorem kvAppendMaps : Obligations.KvAppendMaps := by
  refine ⟨fun n o ps s h hopen hfault hlayer hpair hlen hmax hmode hcount hsource hnear hpositions => ?_,
    fun n o ps s h hopen hfault hlayer hpair hlen hmax hmode hsource hnear hborrow hdemote hpage => ?_⟩
  · have hfits : AppendFits n o ps s := ⟨h, hopen, hfault, hlayer, hpair, hlen, hmax, hmode, hsource⟩
    obtain ⟨hstop, hkept, hmaps⟩ := appendPages_maps (s := kvTaken s n) (ps := ps) hpositions hcount hnear
    obtain ⟨hwaits, hend⟩ := appendEnd_done (s := kvTaken s n) (o := o) hstop
    obtain ⟨t, hnext, hkv⟩ := execKvAppend_runs hfits hwaits
    have ht := hkept.trans (.of_kv _ _ (hkv.trans hend))
    refine ⟨t, hnext, ht.ops, (ht.field KvSeq.stepFault (fun _ => rfl)).trans hfault, ht.field KvSeq.length (fun _ => rfl), fun k hk htab => ?_⟩
    subst hk
    rw [kvPage_congr (hkv.trans hend)]
    exact hmaps 0 (Nat.succ_pos _) htab
  · have hfits : AppendFits n o ps s := ⟨h, hopen, hfault, hlayer, hpair, hlen, hmax, hmode, hsource⟩
    obtain ⟨hkept, hstop⟩ := appendPages_lacks (s := kvTaken s n) (ps := ps) hpage hnear hborrow hdemote
    obtain ⟨hwaits, hend⟩ := appendEnd_lacks (s := kvTaken s n) (o := o) hstop rfl rfl
    obtain ⟨t, hnext, hkv⟩ := execKvAppend_runs hfits hwaits
    have ht := (seqKept_update hkept (fun x => { x with stepFault := true }) (fun _ => rfl)).trans (.of_kv _ _ (hkv.trans hend))
    exact ⟨t, hnext, by rw [ht.field KvSeq.stepFault (fun _ => rfl), kvSeq_onKvSeq_self],
      by rw [ht.field KvSeq.length (fun _ => rfl), kvSeq_onKvSeq_self, kvTaken_kvSeq]⟩

end Sys2Proof.Proofs
end

section
/-!
PROOFS. Fetches (R197, R198): O22. Rows of a scratchpad written one after another, the bytes of module memory that they hold, and what
the fetch writes to its region's metadata area.
-/
namespace Sys2Proof.Proofs
open Sys2Proof.Machine Sys2Proof.Safety Sys2Proof.Laws

/-! ### Rows of a scratchpad -/

/-- `data` has been written at `a` of core c's scratchpad; otherwise only scratchpads and the core's accounts differ. -/
structure PadRow (c a : Nat) (data : List Byte) (s t : State) : Prop where
  stored : PadStored c s t
  holds : ∀ k < 2 ^ 32, spdByte t.spd c k = overlaid s.spd c a data k

section
variable {c a : Nat} {data : List Byte} {s t : State}

theorem spdStore_row (h : SpdQuiet c s) (ha : a + data.length ≤ 2 ^ 32) (kind harp tag : Nat) (bad : Bool) :
    PadRow c a data s (spdStore s c a kind harp tag data bad) :=
  ⟨spdStore_stores h a kind harp tag data bad, (spdStore_moves h kind harp tag bad ha).2⟩

theorem storeMoved_stores (h : SpdQuiet c s) (kind : Nat) (bytes : List Byte) (poison : Nat → Bool) (g seg : Nat → Nat) :
    PadStored c s (storeMoved s c kind bytes poison g seg) := by
  have hsteps : PadStored c s ((List.range bytes.length).foldl (stripStep c kind bytes g seg) (s, 0)).1 := by
    refine List.foldlRecOn (motive := fun st : State × Nat => PadStored c s st.1) _ _ (PadStored.refl h) (fun st hst i _ => ?_)
    unfold stripStep
    split
    · exact hst
    · exact hst.trans (spdStore_stores hst.quiet _ kind 0 0 _ false)
  rw [storeMoved_strips_eq]
  refine List.foldlRecOn _ _ hsteps (fun v hv q _ => ?_)
  unfold stripMark
  split
  · exact hv.trans (putSpd_stores hv.quiet c _ _ true)
  · exact hv

/-- Once the bytes of a row have been stored, its further steps store nothing. -/
theorem foldl_range_first {σ : Type} {f : σ × Nat → Nat → σ × Nat} (hskip : ∀ st i, i < st.2 → f st i = st) {st : σ × Nat} {n : Nat}
    (h : n ≤ (f st 0).2) : (List.range n).foldl f st = if n = 0 then st else f st 0 := by
  cases n with
  | zero => rfl
  | succ n =>
    rw [if_neg (Nat.succ_ne_zero n), List.range_succ_eq_map, List.foldl_cons, List.foldl_map]
    refine List.foldlRecOn (motive := fun x => x = f st 0) _ _ rfl (fun x hx i hi => ?_)
    have hi' := List.mem_range.mp hi
    rw [hx]
    exact hskip _ _ (by omega)

/-- A row of at most 512 B is stored at once, so segments of 512 B and segments to the row's end do the same. -/
theorem storeMoved_row (s : State) (c kind dst : Nat) (bytes : List Byte) (poison : Nat → Bool) (h : bytes.length ≤ 512) :
    storeMoved s c kind bytes poison (fun b => dst + b) (fun b => bytes.length - b) =
      storeMoved s c kind bytes poison (fun b => dst + b) (fun _ => 512) := by
  have hsteps : ∀ seg : Nat → Nat, bytes.length ≤ seg 0 →
      ((List.range bytes.length).foldl (stripStep c kind bytes (fun b => dst + b) seg) (s, 0)).1 =
        if bytes.length = 0 then s else spdStore s c dst kind 0 0 bytes false := fun seg hseg => by
    have hfirst : stripStep c kind bytes (fun b => dst + b) seg (s, 0) 0 = (spdStore s c dst kind 0 0 bytes false, max 1 (seg 0)) := by
      rw [stripStep, if_neg (Nat.lt_irrefl 0), segment, List.drop_zero, List.take_of_length_le (by omega), Nat.zero_add, Nat.add_zero]
    rw [foldl_range_first (fun st i hi => by rw [stripStep, if_pos hi]) (by rw [hfirst]; dsimp only; omega), hfirst]
    split <;> rfl
  rw [storeMoved_strips_eq, storeMoved_strips_eq, hsteps _ (Nat.le_refl _), hsteps _ h]

theorem storeMoved_padRow (hq : SpdQuiet c s) (hlen : data.length ≤ 512) (ha : a + data.length ≤ 2 ^ 32) (kind : Nat) (poison : Nat → Bool) :
    PadRow c a data s (storeMoved s c kind data poison (fun b => a + b) (fun b => data.length - b)) := by
  refine ⟨storeMoved_stores hq _ _ _ _ _, fun k hk => ?_⟩
  rw [storeMoved_row s c kind a data poison hlen, (storeMoved_moves hq ha kind poison).holds k hk, List.take_length]

/-- Bytes apart from the data read as before. -/
theorem spdRead_apart {p q : Spd} (h : ∀ k < 2 ^ 32, spdByte q c k = overlaid p c a data k) {b n : Nat} (hb : b + n ≤ a ∨ a + data.length ≤ b)
    (hn : b + n ≤ 2 ^ 32) : spdRead q c b n = spdRead p c b n := by
  refine List.map_congr_left (fun i hi => ?_)
  have hi' := List.mem_range.mp hi
  rw [h _ (by omega), overlaid, if_neg (by omega)]

end

/-- Rows 512 B apart, written one after another, hold their data each. -/
theorem rows_hold {c o row n : Nat} {f : State → Nat → State} {data : Nat → List Byte} {s : State} (hq : SpdQuiet c s) (hn : n ≤ 32)
    (hrow : row ≤ 512) (hfit : o + 32 * 512 ≤ 2 ^ 32) (hlen : ∀ i, (data i).length = row)
    (hf : ∀ v i, i < n → PadStored c s v → PadRow c (o + i * 512) (data i) v (f v i)) :
    PadStored c s ((List.range n).foldl f s) ∧ ∀ i < 32, spdRead ((List.range n).foldl f s).spd c (o + i * 512) row =
      if i < n then data i else spdRead s.spd c (o + i * 512) row := by
  induction n with
  | zero => exact ⟨PadStored.refl hq, fun i _ => rfl⟩
  | succ n ih =>
    obtain ⟨hstored, hrows⟩ := ih (by omega) (fun v i hi hv => hf v i (by omega) hv)
    rw [List.range_succ, List.foldl_append, List.foldl_cons, List.foldl_nil]
    obtain ⟨hlast, hbytes⟩ := hf _ n (Nat.lt_succ_self n) hstored
    refine ⟨hstored.trans hlast, fun i hi => ?_⟩
    by_cases hin : i = n
    · subst hin
      have hread := spdRead_of_overlaid hbytes (by rw [hlen]; omega)
      rw [hlen] at hread
      rw [if_pos (Nat.lt_succ_self i), hread]
    · rw [spdRead_apart hbytes (by rw [hlen]; omega) (by omega), hrows i hi]
      by_cases hlt : i < n
      · rw [if_pos hlt, if_pos (by omega)]
      · rw [if_neg hlt, if_neg (by omega)]

/-! ### The fetch (R197, R198) -/

/-- Bytes of one position of a head in a region's pages (R171). -/
def fetchRow (s : State) (d : List W64) : Nat := (kvGeo s (dw d 0 0 6)).dim * fmtBits (kvGeo s (dw d 0 0 6)).fmt / 8

/-- Number of the 64 KiB that a fetch reads (R175). -/
def fetchKey (s : State) (d : List W64) : Nat :=
  (kvGeo s (dw d 0 0 6)).key (dw d 0 8 24) (dw d 0 32 8) (dw d 0 40 6) (dw d 1 0 32 / (kvGeo s (dw d 0 0 6)).positions)

/-- Place in a page of the first position that a fetch reads (R171). -/
def fetchAt (s : State) (d : List W64) : Nat :=
  (dw d 0 47 1 * 2 + dw d 0 46 1) * 16384 + dw d 1 0 32 % (kvGeo s (dw d 0 0 6)).positions * fetchRow s d

/-- The ring on whose work a core is. -/
def fetchRing (s : State) (c : Nat) : Nat := (coreAt s c).ring.getD 0

/-- Zeros in the 32 rows of a fetch. -/
def fetchZeros (c : Nat) (d : List W64) (row : Nat) (v : State) : State :=
  (List.range 32).foldl (fun v t => spdStore v c (dw d 2 0 32 + t * 512) 4 0 0 (List.replicate row 0) false) v

/-- The rows that a fetch reads from `a` of module memory. -/
def fetchRows (c : Nat) (d : List W64) (row a : Nat) (v : State) : State :=
  (List.range (dw d 0 48 6)).foldl (fun v t => storeMoved v c 4 (cohRead v (a + t * row) row).1
    (fun i => (cohRead v (a + t * row + i) (min 8 (row - i))).2) (fun b => dw d 2 0 32 + t * 512 + b) (fun b => row - b)) v

/-- A fetch before its page is read: it is counted, its translation is learned and its footprint is gone. -/
def fetchOpened (s : State) (c : Nat) (d : List W64) : State :=
  release (learn (count s c 56 1) (some c) (ringPart s (fetchRing s c)) (fetchKey s d * 65536) false false (some (fetchRing s c))) c 21000

/-- A fetch with its rows filled. -/
def fetchFilled (s : State) (c : Fin 288) (d : List W64) (base : Nat) : State :=
  fetchRows c d (fetchRow s d) (base + fetchAt s d)
    (sliceRd (fetchZeros c d (fetchRow s d) (fetchOpened s c d)) (.mover c) (some (fetchKey s d * 65536 + fetchAt s d)) (some (fetchRing s c))
      (base + fetchAt s d) (dw d 0 48 6 * fetchRow s d))

/-- A fetch up to its page's stamp. -/
def fetchDone (s : State) (c : Fin 288) (d : List W64) (base : Nat) : State :=
  match cohPoisonAt s (base + fetchAt s d) (dw d 0 48 6 * fetchRow s d) with
  | some pa => poisonFound (fetchFilled s c d base) 3 c 1 pa
  | none => fetchFilled s c d base

/-- How a fetch that passes its checks ends, from a region without scales. -/
def fetchServed (s : State) (c : Fin 288) (d : List W64) : Res :=
  match kvPage s (dw d 0 0 6) (fetchKey s d) with
  | none => .next (fetchZeros c d (fetchRow s d) (release (count s c 56 1) c 21000))
  | some page =>
    match translate s (some c.val) (ringPart s (fetchRing s c)) (fetchKey s d * 65536) false false with
    | .error e => .next (if walkWaits s (some c.val) (ringPart s (fetchRing s c)) (fetchKey s d * 65536) then s
        else xlateFail (count s c 56 1) (fetchRing s c) (ringPart s (fetchRing s c)) (fetchKey s d * 65536) false (some c.val) e)
    | .ok base =>
      if walkWaits s (some c.val) (ringPart s (fetchRing s c)) (fetchKey s d * 65536) ||
          memWaits s (base + fetchAt s d) (dw d 0 48 6 * fetchRow s d) ||
          memWaits s ((kvGeo s (dw d 0 0 6)).slotPa page) (kvGeo s (dw d 0 0 6)).slot then .next s
      else .next (kvStamp (fetchDone s c d base) (dw d 0 0 6) page)

section
variable {c : CoreIx} {d : List W64} {s : State}

theorem execKvFetch_passes (h : KvFetchOk c d s) : execKvFetch c d s = fetchServed s c d := by
  obtain ⟨hissue, hregion, hreserved, hbad, hseq, hlayer, hpair, hopen, hpos, hrow, hscaled, hscales, hoff, -, -⟩ := h
  have hoff' := overlapOff_of_counter (n := 56) (by decide) (count_regs s c 56 1) hoff
  unfold execKvFetch
  rw [if_neg (by rw [hissue]; decide)]
  dsimp only
  rw [if_neg (by rw [hreserved]; decide), hregion]
  dsimp only
  rw [if_neg (by rw [hbad]; decide), if_neg (by simp only [hopen, Bool.true_eq_false, or_false]; omega), if_neg (by omega), hscaled]
  rw [if_neg Bool.false_ne_true]
  rw [if_neg (by omega), register_off hoff']
  rfl

/-- Where no page is mapped, the rows are zeros. -/
theorem execKvFetch_zeros (h : KvFetchOk c d s) (hpage : kvPage s (dw d 0 0 6) (fetchKey s d) = none) :
    execKvFetch c d s = .next (fetchZeros c d (fetchRow s d) (release (count s c 56 1) c 21000)) := by
  rw [execKvFetch_passes h, fetchServed, hpage]

/-- Where a page is mapped and nothing waits, the rows are read from it. -/
theorem execKvFetch_reads {page base : Nat} (h : KvFetchOk c d s) (hpage : kvPage s (dw d 0 0 6) (fetchKey s d) = some page)
    (hwalk : walkWaits s (some c.val) (ringPart s (fetchRing s c)) (fetchKey s d * 65536) = false)
    (hbase : Machine.translate s (some c.val) (ringPart s (fetchRing s c)) (fetchKey s d * 65536) false false = .ok base)
    (hdata : memWaits s (base + fetchAt s d) (dw d 0 48 6 * fetchRow s d) = false)
    (hslot : memWaits s ((kvGeo s (dw d 0 0 6)).slotPa page) (kvGeo s (dw d 0 0 6)).slot = false) :
    execKvFetch c d s = .next (kvStamp (fetchDone s c d base) (dw d 0 0 6) page) := by
  rw [execKvFetch_passes h, fetchServed, hpage]
  dsimp only
  rw [hbase]
  dsimp only
  rw [if_neg (by rw [hwalk, hdata, hslot]; decide)]

end

/-! ### What a fetch leaves (R174, R196, R198) -/

/-- The bytes of module memory are as before, with the number of stacks and the committed sets of regions. -/
structure FetchFrame (s t : State) : Prop where
  regs : RegsOff OtherReg s t
  bytes : t.mem.bytes = s.mem.bytes

section
variable {c : CoreIx} {d : List W64} {s t u : State} {base : Nat}

theorem FetchFrame.trans (h : FetchFrame s t) (h' : FetchFrame t u) : FetchFrame s u := ⟨h.regs.trans h'.regs, h'.bytes.trans h.bytes⟩

theorem accountReg_other {o : Nat} (h : AccountReg o) : OtherReg o := by
  simp only [AccountReg, WindowReg] at h
  unfold OtherReg
  omega

theorem Accounted.fetch {L : List Part} {k : Nat} (h : Accounted L k s t) (hL : Part.mem ∉ L) : FetchFrame s t :=
  ⟨h.regs.mono (fun _ => accountReg_other), congrArg Memory.bytes (h.agree .mem hL)⟩

theorem PadStored.fetch {k : Nat} (h : PadStored k s t) : FetchFrame s t := h.accounts.fetch (by decide)

theorem ReadFrame.fetch (h : ReadFrame s t) : FetchFrame s t := ⟨h.other, h.bytes⟩

theorem poisonFound_frame (s : State) (source unit d0 pa : Nat) : ReadFrame s (poisonFound s source unit d0 pa) := by
  have hlog := logErr_frame s ⟨0x0005, 2, source, unit, ownerOf s pa, some pa, none, none, d0, 0⟩
  unfold poisonFound
  dsimp only
  split
  · exact hlog.trans (postEvent_frame _ _ _ _ _ _)
  · exact hlog

theorem cohRead_bytes (h : t.mem.bytes = s.mem.bytes) (pa n : Nat) : (cohRead t pa n).1 = memRead s.mem pa n := by
  simp only [cohRead, memRead, memByte, h]

theorem length_memRead (m : Memory) (a n : Nat) : (memRead m a n).length = n := by simp [memRead]

/-- The rows of a valid fetch fit the scratchpad, 512 B to each. -/
theorem fetchOk_room (h : KvFetchOk c d s) : fetchRow s d ≤ 512 ∧ dw d 2 0 32 + 32 * 512 ≤ 2 ^ 32 ∧ SpdQuiet c s ∧ dw d 0 48 6 ≤ 32 := by
  obtain ⟨-, -, hreserved, hbad, -, -, -, -, -, hrow, -, -, -, hquiet, -⟩ := h
  have hwide : ¬ 512 < dw d 2 0 32 % 512 + fetchRow s d := by
    simp only [kvFetchBad, Bool.or_eq_false_iff, decide_eq_false_iff_not] at hbad
    exact hbad.1
  have hcount : ¬ (dw d 0 48 6 = 0 ∨ 32 < dw d 0 48 6) := by
    simp only [kvFetchReserved, Bool.or_eq_false_iff, decide_eq_false_iff_not] at hreserved
    exact hreserved.1.1.2
  have hbytes : spdBytes = 0x200000 := rfl
  exact ⟨by omega, by omega, hquiet, by omega⟩

theorem fetchZeros_rows {k row : Nat} (hq : SpdQuiet k t) (hrow : row ≤ 512) (hfit : dw d 2 0 32 + 32 * 512 ≤ 2 ^ 32) :
    PadStored k t (fetchZeros k d row t) ∧
      ∀ i < 32, spdRead (fetchZeros k d row t).spd k (dw d 2 0 32 + i * 512) row = List.replicate row 0 := by
  obtain ⟨hstored, hrows⟩ := rows_hold (data := fun _ => List.replicate row 0) hq (Nat.le_refl 32) hrow hfit (fun _ => List.length_replicate)
    (fun v i hi hv => spdStore_row hv.quiet (by rw [List.length_replicate]; omega) 4 0 0 false)
  exact ⟨hstored, fun i hi => (hrows i hi).trans (if_pos hi)⟩

theorem fetchRows_rows {k row a : Nat} (hq : SpdQuiet k t) (hrow : row ≤ 512) (hfit : dw d 2 0 32 + 32 * 512 ≤ 2 ^ 32)
    (hcount : dw d 0 48 6 ≤ 32) :
    PadStored k t (fetchRows k d row a t) ∧ ∀ i < 32, spdRead (fetchRows k d row a t).spd k (dw d 2 0 32 + i * 512) row =
      if i < dw d 0 48 6 then memRead t.mem (a + i * row) row else spdRead t.spd k (dw d 2 0 32 + i * 512) row := by
  refine rows_hold (data := fun i => memRead t.mem (a + i * row) row) hq hcount hrow hfit (fun _ => length_memRead ..) (fun v i hi hv => ?_)
  have hrow' := storeMoved_padRow (c := k) (a := dw d 2 0 32 + i * 512) (data := memRead t.mem (a + i * row) row) hv.quiet
    (by rw [length_memRead]; exact hrow) (by rw [length_memRead]; omega) 4 (fun j => (cohRead v (a + i * row + j) (min 8 (row - j))).2)
  rw [length_memRead] at hrow'
  rw [cohRead_bytes hv.fetch.bytes]
  exact hrow'

/-- Before its rows are read a fetch has moved nothing. -/
theorem fetchOpened_frame (hq : SpdQuiet c s) : FetchFrame s (fetchOpened s c d) ∧ SpdQuiet c (fetchOpened s c d) := by
  have hcount := count_accounts s c (n := 56) (by decide) 1
  have hlearn := learn_traffic (count s c 56 1) (some c) (ringPart s (fetchRing s c)) (fetchKey s d * 65536) false false (some (fetchRing s c))
  have hwork := learn_work (count s c 56 1) (some c) (ringPart s (fetchRing s c)) (fetchKey s d * 65536) false false (some (fetchRing s c))
  have hrelease := release_accounts (learn (count s c 56 1) (some c) (ringPart s (fetchRing s c)) (fetchKey s d * 65536) false false
    (some (fetchRing s c))) c 21000
  have hquiet : SpdQuiet c (count s c 56 1) := hcount.quiet (by decide) hq
  refine ⟨(hcount.fetch (by decide)).trans (FetchFrame.trans ⟨hwork.regs, hlearn.bytes⟩ (hrelease.fetch (by decide))), ?_⟩
  exact hrelease.quiet (by decide) (hlearn.regs.quiet (learn_keeps _ _ _ _ _ _ _ .spd (by decide)) hquiet)

theorem sliceRd_fetch {k : Nat} (hq : SpdQuiet k s) (who : Requester) (va w : Option Nat) (pa n : Nat) :
    FetchFrame s (sliceRd s who va w pa n) ∧ SpdQuiet k (sliceRd s who va w pa n) ∧ (sliceRd s who va w pa n).spd = s.spd := by
  have hread := sliceRd_traffic s who va w pa n
  have hspd := sliceRd_keeps s who va w pa n .spd (by decide)
  exact ⟨⟨(sliceRd_work s who va w pa n).regs, hread.bytes⟩, hread.regs.quiet hspd hq, hspd⟩

/-- The rows that a fetch has filled. -/
theorem fetchFilled_rows (h : KvFetchOk c d s) :
    FetchFrame s (fetchFilled s c d base) ∧ ∀ i < 32, spdRead (fetchFilled s c d base).spd c (dw d 2 0 32 + i * 512) (fetchRow s d) =
      if i < dw d 0 48 6 then memRead s.mem (base + fetchAt s d + i * fetchRow s d) (fetchRow s d) else List.replicate (fetchRow s d) 0 := by
  obtain ⟨hrow, hfit, hquiet, hcount⟩ := fetchOk_room h
  obtain ⟨hopened, hopenq⟩ := fetchOpened_frame (d := d) hquiet
  obtain ⟨hzeros, hzero⟩ := fetchZeros_rows (d := d) hopenq hrow hfit
  obtain ⟨hread, hreadq, hspd⟩ := sliceRd_fetch hzeros.quiet (.mover c) (some (fetchKey s d * 65536 + fetchAt s d)) (some (fetchRing s c))
    (base + fetchAt s d) (dw d 0 48 6 * fetchRow s d)
  obtain ⟨hstored, hrows⟩ := fetchRows_rows (d := d) (a := base + fetchAt s d) hreadq hrow hfit hcount
  have hbefore := (hopened.trans hzeros.fetch).trans hread
  have hmem : ∀ a n, memRead _ a n = memRead s.mem a n := fun a n => cohRead_bytes hbefore.bytes a n
  refine ⟨hbefore.trans hstored.fetch, fun i hi => ?_⟩
  rw [fetchFilled, hrows i hi, hmem, hspd, hzero i hi]

/-- Noting the poison of what it read changes neither scratchpads nor the bytes of memory. -/
theorem fetchDone_filled (s : State) (c : CoreIx) (d : List W64) (base : Nat) :
    FetchFrame (fetchFilled s c d base) (fetchDone s c d base) ∧ (fetchDone s c d base).spd = (fetchFilled s c d base).spd := by
  unfold fetchDone
  split
  · exact ⟨(poisonFound_frame _ _ _ _ _).fetch, poisonFound_keeps _ _ _ _ _ .spd (by decide)⟩
  · exact ⟨(ReadFrame.refl _).fetch, rfl⟩

/-! ### The stamp of the page (R174, R192, R196) -/

theorem stackOfRank_lt (s : State) (r : Nat) : stackOfRank s r < 12 := by
  unfold stackOfRank
  by_cases hr : r < ((List.range 12).filter (fun i => rdB s R.MEM_STACK_STATUS_FITTED i 0)).length
  · rw [List.getD_eq_getElem _ _ hr]
    exact List.mem_range.mp (List.mem_of_mem_filter (List.getElem_mem hr))
  · rw [List.getD_eq_default _ _ (Nat.le_of_not_lt hr)]
    decide

theorem length_freeBytes (s : State) (n : Nat) : (freeBytes s n).1.length = n * 8 := by
  simp [freeBytes, leBytes, List.length_flatMap]

theorem kvStore_outside (s : State) (stack : Nat) (w : Option Nat) (pa : Nat) (data : List Byte) (bad : Bool) :
    MemOutside pa data.length s (kvStore s stack w pa data bad) := sliceWr_outside s _ none w pa data bad

/-- A unit's journal entry lies in its 4 KiB of the metadata area (R174). -/
theorem kvJournal_outside (s : State) (r : Nat) {stack : Nat} (hstack : stack < 12) :
    MemOutside (kvGeo s r).metaPa 49152 s (kvJournal s r stack) := by
  have hlen := length_freeBytes s 512
  have hgeo : kvGeo (freeBytes s 512).2 r = kvGeo s r := rfl
  have hfree : MemOutside (kvGeo s r).metaPa 49152 s (freeBytes s 512).2 := memOutside_of_bytes _ _ rfl
  unfold kvJournal
  generalize freeBytes s 512 = x at hlen hgeo hfree ⊢
  obtain ⟨j, v⟩ := x
  dsimp only at hlen hgeo hfree ⊢
  rw [hgeo]
  exact memOutside_trans hfree (memOutside_mono (kvStore_outside v stack none _ j false) (by omega) (by omega))

/-- A change to a page writes within the metadata area (R174). -/
theorem kvMeta_outside (s : State) {r n : Nat} (hn : n < (kvGeo s r).pages) :
    MemOutside (kvGeo s r).metaPa (49152 + 20 * (kvGeo s r).pages) s (kvMeta s r n) := by
  have hjournal := memOutside_mono (kvJournal_outside s r (stackOfRank_lt s (kvOwner s n))) (a := (kvGeo s r).metaPa)
    (n := 49152 + 20 * (kvGeo s r).pages) (Nat.le_refl _) (by omega)
  have hstore : ∀ (v : State) (stack pa : Nat) (data : List Byte), (kvGeo s r).metaPa ≤ pa →
      pa + data.length ≤ (kvGeo s r).metaPa + (49152 + 20 * (kvGeo s r).pages) →
      MemOutside (kvGeo s r).metaPa (49152 + 20 * (kvGeo s r).pages) v (kvStore v stack none pa data false) :=
    fun v stack pa data hlo hhi => memOutside_mono (kvStore_outside v stack none pa data false) hlo hhi
  unfold kvMeta
  dsimp only
  generalize kvJournal s r (stackOfRank s (kvOwner s n)) = u at hjournal ⊢
  have hlen := length_freeBytes u 3
  have hfree : MemOutside (kvGeo s r).metaPa (49152 + 20 * (kvGeo s r).pages) u (freeBytes u 3).2 := memOutside_of_bytes _ _ rfl
  generalize freeBytes u 3 = x at hlen hfree ⊢
  obtain ⟨b, v⟩ := x
  dsimp only at hlen hfree ⊢
  refine memOutside_trans (memOutside_trans (memOutside_trans hjournal hfree) (hstore _ _ _ _ ?_ ?_)) (hstore _ _ _ _ ?_ ?_)
  · omega
  · rw [List.length_take]
    omega
  · omega
  · rw [List.length_take, List.length_drop]
    omega

theorem kvStamp_outside (s : State) {r n : Nat} (hn : n < (kvGeo s r).pages) :
    MemOutside (kvGeo s r).metaPa (49152 + 20 * (kvGeo s r).pages) s (kvStamp s r n) := by
  unfold kvStamp
  exact kvMeta_outside (onKvReg s r _) hn

/-- A fetch from a page writes module memory within the metadata area only, and its rows hold what it read. -/
theorem fetchStamped (h : KvFetchOk c d s) {page : Nat} (hpage : page < (kvGeo s (dw d 0 0 6)).pages) (base : Nat) :
    MemOutside (kvGeo s (dw d 0 0 6)).metaPa (49152 + 20 * (kvGeo s (dw d 0 0 6)).pages) s (kvStamp (fetchDone s c d base) (dw d 0 0 6) page) ∧
      ∀ i < 32, spdRead (kvStamp (fetchDone s c d base) (dw d 0 0 6) page).spd c (dw d 2 0 32 + i * 512) (fetchRow s d) =
        if i < dw d 0 48 6 then memRead s.mem (base + fetchAt s d + i * fetchRow s d) (fetchRow s d) else List.replicate (fetchRow s d) 0 := by
  obtain ⟨hfilled, hrows⟩ := fetchFilled_rows (base := base) h
  obtain ⟨hdone, hspd⟩ := fetchDone_filled s c d base
  have hframe := hfilled.trans hdone
  have hgeo : kvGeo (fetchDone s c d base) (dw d 0 0 6) = kvGeo s (dw d 0 0 6) := hframe.regs.kvGeo (getBits_lt ..)
  have hstamp := kvStamp_outside (fetchDone s c d base) (r := dw d 0 0 6) (n := page) (by rw [hgeo]; exact hpage)
  rw [hgeo] at hstamp
  refine ⟨memOutside_trans (memOutside_of_bytes _ _ hframe.bytes) hstamp, fun i hi => ?_⟩
  rw [kvStamp_keeps _ _ _ .spd (by decide), hspd]
  exact hrows i hi

end

/-- Settles O22: the rows are written one after another, each over zeros where it is read at all; the page's stamp writes the unit's
journal and the page's record. -/
theorem kvFetchFills : Obligations.KvFetchFills := by
  refine ⟨fun c d s h hpage => ?_, fun c d page base s h hpage hpages hwalk hbase hdata hslot => ?_⟩
  · obtain ⟨hrow, hfit, hquiet, -⟩ := fetchOk_room h
    have hcount := PadStored.of_accounts hquiet ((count_accounts s c (n := 56) (by decide) 1).mono rfl)
    have hrelease := hcount.trans (.of_accounts hcount.quiet (release_accounts (count s c 56 1) c 21000))
    obtain ⟨hzeros, hzero⟩ := fetchZeros_rows (d := d) hrelease.quiet hrow hfit
    exact ⟨_, execKvFetch_zeros h hpage, hzero, (hrelease.trans hzeros).accounts.agree⟩
  · obtain ⟨hout, hrows⟩ := fetchStamped h hpages base
    exact ⟨_, execKvFetch_reads h hpage hwalk hbase hdata hslot, hout, hrows⟩

end Sys2Proof.Proofs
end

section
/-!
PROOFS. Commits of a region's set (R174, R202): a set taken whole, a region's removal begun, and a refusal.
-/
namespace Sys2Proof.Proofs
open Sys2Proof.Machine Sys2Proof.Safety Sys2Proof.Laws

/-! ### A field written with what it holds -/

theorem setBits_getBits (x : W64) {lo w : Nat} (h : lo + w ≤ 64) : setBits x lo w (getBits x lo w) = x := by
  refine BitVec.eq_of_getLsbD_eq (fun k _ => ?_)
  rw [setBits_getLsbD _ _ _ _ _ h, getBits_testBit]
  split
  · rename_i hk
    rw [decide_eq_true (by omega), Bool.true_and, Nat.add_sub_cancel' hk.1]
  · rfl

/-- A field written with the value it holds changes no register. -/
theorem regs_wr_held {s t : State} {f : Fld} {i j v : Nat} (ht : ∀ o, reg t o = reg s o) (hf : f.lo + f.width ≤ 64) (hv : v = rd s f i j) :
    ∀ o, reg (wr t f i j v) o = reg s o := by
  intro o
  by_cases ho : o = f.at i j
  · rw [ho, wr, reg_setReg_self, ht, hv]
    exact setBits_getBits _ hf
  · rw [reg_wr_other _ _ _ _ _ ho, ht]

/-! ### The set (R174, R202) -/

/-- A commit of region r's set takes this field. -/
def inRgnSet (r : Nat) (f : Fld) : Bool := committable f (f.at r 0) && decide (f.at r 0 ∈ kvRegOffs r)

theorem kvFlds_inSet : ∀ r : RegionIx, ∀ f ∈ kvFlds, inRgnSet r f = true := by decide +kernel

/-- The fields of a set fit their registers, and in the first of them lie below the positions of a page. -/
theorem kvFlds_bits : ∀ f ∈ kvFlds, f.lo + f.width ≤ 64 ∧ (f.base = 0x740000 → f.lo + f.width ≤ 52) := by decide

section
variable {r : RegionIx} {f : Fld} {s t : State}

theorem rd_kvRegs (hf : f ∈ kvFlds) : rd (commitRegs s (kvRegOffs r)) f r 0 = rdS s f r 0 := by
  have h := kvFlds_inSet r f hf
  rw [inRgnSet, Bool.and_eq_true, decide_eq_true_eq] at h
  exact rd_commitRegs h.1 s h.2

/-- What a region's commit and set-up write besides is none of the set. -/
theorem rd_posLog2 (hf : f ∈ kvFlds) (v : Nat) : rd (wr s R.KPU_RGN_CFG_POS_LOG2 r 0 v) f r 0 = rd s f r 0 := by
  obtain ⟨hstep, hstep2, -, -⟩ := kvFlds_place f hf
  by_cases hbase : f.base = 0x740000
  · exact rd_wr_disjoint _ _ _ _ _ _ _ _ (by decide) (Or.inl ((kvFlds_bits f hf).2 hbase))
  · refine rd_wr_ne _ _ _ _ _ _ _ _ ?_
    simp only [Fld.at, hstep, hstep2, R.KPU_RGN_CFG_POS_LOG2]
    omega

theorem rd_rgnStatus (hf : f ∈ kvFlds) (v : Nat) : rd (wr s R.KPU_RGN_STATUS_STATE r 0 v) f r 0 = rd s f r 0 := by
  obtain ⟨hstep, hstep2, hlo, hhi⟩ := kvFlds_place f hf
  refine rd_wr_ne _ _ _ _ _ _ _ _ ?_
  simp only [Fld.at, hstep, hstep2, R.KPU_RGN_STATUS_STATE]
  omega

/-- The start of a region's set-up leaves its set. -/
theorem kvGeo_kvStart : kvGeo (kvStart s r) r = kvGeo s r :=
  kvGeoOf_congr (fun _ hf => (rd_rgnStatus hf _).trans (rd_posLog2 hf _))

/-- The set of region r as a commit through the physical function takes it. -/
def rgnTaken (s : State) (r : Nat) (g : KvGeo) : State :=
  let s := commitRegs s (kvRegOffs r)
  let s := wr s R.KPU_RGN_CFG_PARTITION r 0 g.part
  let s := wr (wr s R.KPU_RGN_NEAR_NEAR_PA r 0 (g.nearPa / 65536)) R.KPU_RGN_FAR_FAR_PA r 0 (g.farPa / 65536)
  wr (wr s R.KPU_RGN_SCALE_SCALE_PA r 0 (g.scalePa / 2048)) R.KPU_RGN_META_META_PA r 0 (g.metaPa / 4096)

theorem rgnTaken_keeps (s : State) (r : Nat) (g : KvGeo) : AgreeOutside [.regs] s (rgnTaken s r g) := by
  unfold rgnTaken
  refine Agree.step (wr_keeps _ _ _ _ _) rfl (Agree.step (wr_keeps _ _ _ _ _) rfl (Agree.step (wr_keeps _ _ _ _ _) rfl ?_))
  exact Agree.step (wr_keeps _ _ _ _ _) rfl (Agree.step (wr_keeps _ _ _ _ _) rfl (commitRegs_keeps s _))

/-- The set taken is the shadow's: its own address fields are written again. -/
theorem kvGeo_rgnTaken (s : State) (r : RegionIx) : kvGeo (rgnTaken s r (kvGeoOf (rdS s) r)) r = kvGeoOf (rdS s) r := by
  have hheld : ∀ o, reg (rgnTaken s r (kvGeoOf (rdS s) r)) o = reg (commitRegs s (kvRegOffs r)) o := by
    have hrd : ∀ f ∈ kvFlds, rdS s f r 0 = rd (commitRegs s (kvRegOffs r)) f r 0 := fun f hf => (rd_kvRegs hf).symm
    have hmul : ∀ (f : Fld) (k : Nat), f ∈ kvFlds → 0 < k → rdS s f r 0 * k / k = rd (commitRegs s (kvRegOffs r)) f r 0 := fun f k hf hk =>
      (Nat.mul_div_cancel _ hk).trans (hrd f hf)
    refine regs_wr_held (regs_wr_held (regs_wr_held (regs_wr_held (regs_wr_held (fun _ => rfl) (by decide) (hrd _ ?_)) (by decide)
      (hmul _ _ ?_ (by decide))) (by decide) (hmul _ _ ?_ (by decide))) (by decide) (hmul _ _ ?_ (by decide))) (by decide) (hmul _ _ ?_ (by decide))
    all_goals simp [kvFlds]
  refine kvGeoOf_congr (fun f hf => ?_)
  rw [← rd_kvRegs hf]
  simp only [rd, hheld]

end

/-! ### The commit through the physical function (R202) -/

/-- Why a commit of set g of region r is refused; 0 where it is taken. -/
def rgnCause (s : State) (r : RegionIx) (g : KvGeo) : Nat :=
  if kvCause1 g g.farPa g.scalePa then 1
  else if kvCause5 s r g then 5
  else if !g.valid || (kvGeo s r).valid then 0
  else if kvCause2 s g then 2
  else if kvCause3 s r g then 3
  else if kvCause4 s r g then 4
  else 0

/-- A region's removal begins. -/
def rgnRemoved (s : State) (r : RegionIx) : State :=
  wr (wr (wr s R.KPU_RGN_CFG_VALID r 0 0) R.KPU_RGN_CFG_POS_LOG2 r 0 0) R.KPU_RGN_STATUS_STATE r 0 3

/-- A commit of set g that is taken, while the region is not being removed. -/
def rgnCommitted (s : State) (r : RegionIx) (g : KvGeo) : State :=
  match (kvGeo s r).valid, g.valid with
  | false, false => rgnTaken s r g
  | true, true => wr (wr (wr s R.KPU_RGN_LIMITS_LOW_WM r 0 g.lowWm) R.KPU_RGN_CFG_DEMOTE r 0 (if g.demote then 1 else 0))
      R.KPU_RGN_CFG_BORROW r 0 (if g.borrow then 1 else 0)
  | false, true => kvStart (rgnTaken s r g) r
  | true, false => rgnRemoved s r

section
variable {r : RegionIx} {s : State}

theorem execKpuRgnCommit_physical (r : RegionIx) (s : State) : execKpuRgnCommit 0 r s =
    if rgnCause s r (kvGeoOf (rdS s) r) ≠ 0 then
      .next (refuse s R.KPU_RGN_STATUS_REJECTED R.KPU_RGN_STATUS_CAUSE r (rgnCause s r (kvGeoOf (rdS s) r)))
    else if rd s R.KPU_RGN_STATUS_STATE r 0 = 3 then
      .next { s with
        kv := { s.kv with
          waiting := SMap.put (fun _ => []) s.kv.waiting r ((kvRegOffs r).map (fun o => (o, reg (rgnTaken s r (kvGeoOf (rdS s) r)) o))) } }
    else .next (rgnCommitted s r (kvGeoOf (rdS s) r)) := by
  have hfn : ((0 : FnIx) : Nat) = 0 := rfl
  unfold execKpuRgnCommit
  dsimp only
  rw [if_pos hfn, if_pos hfn]
  dsimp only
  by_cases hcause : rgnCause s r (kvGeoOf (rdS s) r) = 0
  · rw [if_neg (not_not.mpr hcause)]
    refine (if_neg (not_not.mpr hcause)).trans ?_
    by_cases hstate : rd s R.KPU_RGN_STATUS_STATE r 0 = 3
    · rw [if_pos hstate, if_pos hstate]
      rfl
    · rw [if_neg hstate, if_neg hstate]
      unfold rgnCommitted
      cases (kvGeo s r).valid <;> cases (kvGeoOf (rdS s) r).valid <;> rfl
  · rw [if_pos hcause]
    exact if_pos hcause

/-- A commit that is taken while the region is not being removed. -/
theorem kpuRgnCommit_taken (h0 : rgnCause s r (kvGeoOf (rdS s) r) = 0) (hstate : rd s R.KPU_RGN_STATUS_STATE r 0 ≠ 3) :
    Runs (.kpuRgnCommit 0 r) s (rgnCommitted s r (kvGeoOf (rdS s) r)) := by
  rw [Runs, exec_kpuRgnCommit, execKpuRgnCommit_physical, if_neg (not_not.mpr h0), if_neg hstate]

/-- A valid set for an absent region is taken, and its set-up starts. -/
theorem kpuRgnCommit_starts (hvalid : (kvGeoOf (rdS s) r).valid = true) (hwas : (kvGeo s r).valid = false)
    (hstate : rd s R.KPU_RGN_STATUS_STATE r 0 ≠ 3)
    (h1 : kvCause1 (kvGeoOf (rdS s) r) (kvGeoOf (rdS s) r).farPa (kvGeoOf (rdS s) r).scalePa = false)
    (h2 : kvCause2 s (kvGeoOf (rdS s) r) = false) (h3 : kvCause3 s r (kvGeoOf (rdS s) r) = false) (h4 : kvCause4 s r (kvGeoOf (rdS s) r) = false) :
    ∃ t, Runs (.kpuRgnCommit 0 r) s t ∧ rd t R.KPU_RGN_STATUS_STATE r 0 = 1 ∧ kvGeo t r = kvGeoOf (rdS s) r ∧ AgreeOutside [.regs] s t := by
  have h5 : kvCause5 s r (kvGeoOf (rdS s) r) = false := by rw [kvCause5, hwas, Bool.false_and]
  have hcause : rgnCause s r (kvGeoOf (rdS s) r) = 0 := by simp [rgnCause, h1, h2, h3, h4, h5, hvalid, hwas]
  have hnew : rgnCommitted s r (kvGeoOf (rdS s) r) = kvStart (rgnTaken s r (kvGeoOf (rdS s) r)) r := by rw [rgnCommitted, hwas, hvalid]
  refine ⟨_, kpuRgnCommit_taken hcause hstate, ?_, ?_, ?_⟩
  · rw [hnew, kvStart, rd_wr_self _ _ _ _ _ (by decide)]
    rfl
  · rw [hnew, kvGeo_kvStart, kvGeo_rgnTaken]
  · rw [hnew]
    exact Agree.step (kvStart_keeps _ _) rfl (rgnTaken_keeps _ _ _)

/-- The set of a valid region with VALID alone cleared removes it, where no sequence is open. -/
theorem kpuRgnCommit_removes (hset : kvGeoOf (rdS s) r = { kvGeo s r with valid := false }) (hwas : (kvGeo s r).valid = true)
    (h1 : kvCause1 (kvGeo s r) (kvGeo s r).farPa (kvGeo s r).scalePa = false) (hstate : rd s R.KPU_RGN_STATUS_STATE r 0 ≠ 3)
    (hopen : rd s R.KPU_RGN_STATUS_OPEN_SEQ r 0 = 0) : Runs (.kpuRgnCommit 0 r) s (rgnRemoved s r) := by
  have hsame : { kvGeoOf (rdS s) r with valid := true, lowWm := (kvGeo s r).lowWm, demote := (kvGeo s r).demote, borrow := (kvGeo s r).borrow } =
      kvGeo s r := by rw [hset, ← hwas]
  have hvalid : (kvGeoOf (rdS s) r).valid = false := by rw [hset]
  have h5 : kvCause5 s r (kvGeoOf (rdS s) r) = false := by simp [kvCause5, hsame, hopen]
  have h1' : kvCause1 (kvGeoOf (rdS s) r) (kvGeoOf (rdS s) r).farPa (kvGeoOf (rdS s) r).scalePa = false := by
    rw [hset]
    exact h1
  have hcause : rgnCause s r (kvGeoOf (rdS s) r) = 0 := by simp [rgnCause, h1', h5, hvalid]
  have hnew : rgnCommitted s r (kvGeoOf (rdS s) r) = rgnRemoved s r := by rw [rgnCommitted, hwas, hvalid]
  rw [← hnew]
  exact kpuRgnCommit_taken hcause hstate

/-- What the beginning of a removal writes. -/
theorem rgnRemoved_writes (s : State) (r : RegionIx) : rd (rgnRemoved s r) R.KPU_RGN_STATUS_STATE r 0 = 3 ∧
    rdB (rgnRemoved s r) R.KPU_RGN_CFG_VALID r 0 = false ∧
    RegsOutside [R.KPU_RGN_CFG_VALID.at r 0, R.KPU_RGN_CFG_POS_LOG2.at r 0, R.KPU_RGN_STATUS_STATE.at r 0] s (rgnRemoved s r) ∧
    AgreeOutside [.regs] s (rgnRemoved s r) := by
  have hregs : RegsOff (· ∈ [R.KPU_RGN_CFG_VALID.at r 0, R.KPU_RGN_CFG_POS_LOG2.at r 0, R.KPU_RGN_STATUS_STATE.at r 0]) s (rgnRemoved s r) :=
    ((RegsOff.of_wr s 0 (by simp)).wr (by simp)).wr (by simp)
  refine ⟨?_, ?_, hregs, ?_⟩
  · rw [rgnRemoved, rd_wr_self _ _ _ _ _ (by decide)]
    rfl
  · have hvalid : rd (rgnRemoved s r) R.KPU_RGN_CFG_VALID r 0 = 0 := by
      rw [rgnRemoved, rd_rgnStatus (by simp [kvFlds]), rd_posLog2 (by simp [kvFlds]), rd_wr_self _ _ _ _ _ (by decide)]
      rfl
    rw [rdB, hvalid]
    decide
  · exact Agree.step (wr_keeps _ _ _ _ _) rfl (Agree.step (wr_keeps _ _ _ _ _) rfl (wr_keeps _ _ _ _ _))

/-- Unacceptable fields are refused with cause 1. -/
theorem kpuRgnCommit_refuses (hrej : rdB s R.KPU_RGN_STATUS_REJECTED r 0 = false)
    (h1 : kvCause1 (kvGeoOf (rdS s) r) (kvGeoOf (rdS s) r).farPa (kvGeoOf (rdS s) r).scalePa = true) :
    ∃ t, Runs (.kpuRgnCommit 0 r) s t ∧ rdB t R.KPU_RGN_STATUS_REJECTED r 0 = true ∧ rd t R.KPU_RGN_STATUS_CAUSE r 0 = 1 ∧
      RegsOutside [R.KPU_RGN_STATUS_REJECTED.at r 0, R.KPU_RGN_STATUS_CAUSE.at r 0] s t ∧ AgreeOutside [.regs] s t := by
  have hcause : rgnCause s r (kvGeoOf (rdS s) r) = 1 := by rw [rgnCause, h1, if_pos rfl]
  have hrun : Runs (.kpuRgnCommit 0 r) s (refuse s R.KPU_RGN_STATUS_REJECTED R.KPU_RGN_STATUS_CAUSE r 1) := by
    rw [Runs, exec_kpuRgnCommit, execKpuRgnCommit_physical, hcause, if_pos (by decide)]
  obtain ⟨hset, hrecord, hregs⟩ := refuse_records (cause := R.KPU_RGN_STATUS_CAUSE) 1 hrej rfl (by decide) (by decide) (by decide)
  exact ⟨_, hrun, by rw [rdB, hset]; decide, hrecord, fun o ho => hregs o (fun hin => ho (List.mem_cons_of_mem _ hin)), refuse_keeps _ _ _ _ _⟩

end

end Sys2Proof.Proofs
end

section
/-!
PROOFS. The end of a region's set-up and of its removal (R174, R176, R177, R181, R202).
-/
namespace Sys2Proof.Proofs
open Sys2Proof.Machine Sys2Proof.Safety Sys2Proof.Laws

/-! ### The end of a region's set-up (R176, R181) -/

/-- Region r has no sequence and no mapped page. -/
def RgnEmpty (r : Nat) (s : State) : Prop := (kvReg s r).seqs = [] ∧ (kvReg s r).map = []

/-- The unit's free lists of region r hold the pages of a set that it owns (R181). -/
def OwnLists (r : Nat) (g : KvGeo) (u : Nat) (s : State) : Prop :=
  kvNear s r u = kvOwn (nu s) u g.setAside g.nearN ∧ kvFar s r u = kvOwn (nu s) u g.nearN g.pages

/-- The free lists of unit u are set (R181). -/
def listsSet (r : Nat) (g : KvGeo) (s : State) (u : Nat) : State :=
  setKvFar (setKvNear s r u (kvOwn (nu s) u g.setAside g.nearN)) r u (kvOwn (nu s) u g.nearN g.pages)

/-- Region r's range is unmapped, and its shared tables stand (R176). -/
def rgnMapped (s : State) (r : Nat) (g : KvGeo) : State :=
  (List.range g.sharedBlocks).foldl (fun s i =>
    kvBlock (landMem s (g.pagePa (i / 256) + i % 256 * 256) (List.replicate 256 0) false) r 0 none (g.base / 2 ^ 21 + i)
      (some (g.pagePa (i / 256) + i % 256 * 256))) (setKvReg (kvClearRange s g) r KvRegion.fresh)

/-- Region r with its free lists. -/
def rgnListed (s : State) (r : Nat) (g : KvGeo) : State :=
  (List.range (nu (rgnMapped s r g))).foldl (listsSet r g) (rgnMapped s r g)

/-- The sequence records of region r are zero. -/
def rgnZeroed (s : State) (r : Nat) (g : KvGeo) : State :=
  match pieces (rgnListed s r g) none g.part true false g.seqtab (64 * g.maxSeq) with
  | .ok ps => ps.foldl (fun s p => landMem s p.1 (List.replicate p.2 0) false) (rgnListed s r g)
  | .error _ => rgnListed s r g

/-- A region's set-up is done. -/
def rgnReady (s : State) (r : Nat) (g : KvGeo) : State :=
  let x := freeBytes (rgnZeroed s r g) ((49152 + 20 * g.pages + 7) / 8)
  wr (wr (landMem x.2 g.metaPa (x.1.take (49152 + 20 * g.pages)) false) R.KPU_RGN_STATUS_OPEN_SEQ r 0 0) R.KPU_RGN_STATUS_STATE r 0 2

section
variable {r : Nat} {g : KvGeo} {s t : State}

theorem RgnEmpty.congr (h : RgnEmpty r s) (hkv : t.kv = s.kv) : RgnEmpty r t := by
  unfold RgnEmpty
  rw [kvReg_congr hkv]
  exact h

theorem RgnEmpty.onKvReg (h : RgnEmpty r s) {f : KvRegion → KvRegion} (hf : ∀ x, (f x).seqs = x.seqs ∧ (f x).map = x.map) :
    RgnEmpty r (onKvReg s r f) := by
  unfold RgnEmpty
  rw [kvReg_onKvReg, if_pos rfl, (hf _).1, (hf _).2]
  exact h

theorem RgnEmpty.kvBlock (h : RgnEmpty r s) (stack : Nat) (w : Option Nat) (blk : Nat) (tab : Option Nat) :
    RgnEmpty r (kvBlock s r stack w blk tab) := by
  obtain ⟨v, hv, heq⟩ := kvBlock_writes s r stack w blk tab
  rw [heq]
  exact (h.congr hv.kv).onKvReg (fun _ => ⟨rfl, rfl⟩)

/-- With the tables of its shared blocks the region is still empty, on as many units. -/
theorem rgnMapped_empty (s : State) (r : Nat) (g : KvGeo) : RgnEmpty r (rgnMapped s r g) ∧ nu (rgnMapped s r g) = nu s := by
  have hclear : RgnEmpty r (setKvReg (kvClearRange s g) r KvRegion.fresh) := by
    unfold RgnEmpty
    rw [kvReg_setKvReg, if_pos rfl]
    exact ⟨rfl, rfl⟩
  have hregs : RegsOff OtherReg s (setKvReg (kvClearRange s g) r KvRegion.fresh) :=
    RegsOff.trans (.of_agree (kvClearRange_keeps s g) (by decide)) (.of_agree (setKvReg_keeps _ r _) (by decide))
  have hboth : RgnEmpty r (rgnMapped s r g) ∧ RegsOff OtherReg s (rgnMapped s r g) := by
    refine List.foldlRecOn (motive := fun v => RgnEmpty r v ∧ RegsOff OtherReg s v) _ _ ⟨hclear, hregs⟩ (fun v hv i _ => ?_)
    obtain ⟨hempty, hoff⟩ := hv
    have hland := landMem_keeps v (g.pagePa (i / 256) + i % 256 * 256) (List.replicate 256 0) false
    obtain ⟨x, hx, heq⟩ := kvBlock_writes (landMem v (g.pagePa (i / 256) + i % 256 * 256) (List.replicate 256 0) false) r 0 none
      (g.base / 2 ^ 21 + i) (some (g.pagePa (i / 256) + i % 256 * 256))
    refine ⟨(hempty.congr (hland .kv (by decide))).kvBlock 0 none _ _, ?_⟩
    rw [heq]
    exact (hoff.trans (.of_agree hland (by decide))).trans (hx.regs.trans (.of_regs rfl))
  exact ⟨hboth.1, hboth.2.nu⟩

theorem kvFar_congr (h : t.kv = s.kv) (r u : Nat) : kvFar t r u = kvFar s r u := by simp only [kvFar, kvReg, h]

theorem kvFar_setKvFar (s : State) (r i u : Nat) (l : List Nat) : kvFar (setKvFar s r i l) r u = if u = i then l else kvFar s r u := by
  rw [kvFar, setKvFar, kvReg_onKvReg, if_pos rfl]
  exact smap_look_put ..

theorem kvNear_setKvFar (s : State) (r i u : Nat) (l : List Nat) : kvNear (setKvFar s r i l) r u = kvNear s r u := by
  rw [kvNear, setKvFar, kvReg_onKvReg, if_pos rfl]
  rfl

theorem kvFar_setKvNear (s : State) (r i u : Nat) (l : List Nat) : kvFar (setKvNear s r i l) r u = kvFar s r u := by
  rw [kvFar, setKvNear, kvReg_onKvReg, if_pos rfl]
  rfl

theorem nu_listsSet (s : State) (u : Nat) : nu (listsSet r g s u) = nu s := rfl

theorem RgnEmpty.listsSet (h : RgnEmpty r s) (u : Nat) : RgnEmpty r (listsSet r g s u) := by
  unfold Proofs.listsSet setKvFar setKvNear
  refine RgnEmpty.onKvReg (f := fun x => { x with far := _ }) ?_ (fun _ => ⟨rfl, rfl⟩)
  exact RgnEmpty.onKvReg (f := fun x => { x with near := _ }) h (fun _ => ⟨rfl, rfl⟩)

theorem listsSet_self (s : State) (u : Nat) : OwnLists r g u (listsSet r g s u) := by
  unfold OwnLists
  rw [nu_listsSet, listsSet, kvNear_setKvFar, kvNear_setKvNear, kvFar_setKvFar, if_pos rfl, if_pos rfl]
  exact ⟨rfl, rfl⟩

theorem OwnLists.step {u : Nat} (h : OwnLists r g u s) (i : Nat) : OwnLists r g u (listsSet r g s i) := by
  by_cases hu : u = i
  · subst hu
    exact listsSet_self s u
  · unfold OwnLists
    rw [nu_listsSet, listsSet, kvNear_setKvFar, kvNear_setKvNear, kvFar_setKvFar, if_neg hu, if_neg hu, kvFar_setKvNear]
    exact h

theorem rgnListed_lists (s : State) (r : Nat) (g : KvGeo) : RgnEmpty r (rgnListed s r g) ∧ nu (rgnListed s r g) = nu s ∧
    ∀ u < nu s, OwnLists r g u (rgnListed s r g) := by
  obtain ⟨hempty, hnu⟩ := rgnMapped_empty s r g
  have hkept : RgnEmpty r (rgnListed s r g) ∧ nu (rgnListed s r g) = nu s :=
    List.foldlRecOn (motive := fun v => RgnEmpty r v ∧ nu v = nu s) _ _ ⟨hempty, hnu⟩ (fun v hv u _ =>
      ⟨hv.1.listsSet u, hv.2⟩)
  refine ⟨hkept.1, hkept.2, fun u hu => ?_⟩
  exact foldl_establishes (Q := OwnLists r g) (fun v i _ => listsSet_self v i) (fun v i _ y hy => hy.step i)
    (List.mem_range.mpr (by rw [hnu]; exact hu)) _

/-- What follows the free lists writes memory and the region's status only. -/
theorem rgnReady_kv (s : State) (r : Nat) (g : KvGeo) : (rgnReady s r g).kv = (rgnListed s r g).kv := by
  have hzero : (rgnZeroed s r g).kv = (rgnListed s r g).kv := by
    unfold rgnZeroed
    split
    · exact List.foldlRecOn (motive := fun v : State => v.kv = (rgnListed s r g).kv) _ _ rfl
        (fun v hv p _ => (landMem_keeps v _ _ false .kv (by decide)).trans hv)
    · rfl
  exact (landMem_keeps _ _ _ false .kv (by decide)).trans hzero

theorem rgnReady_status (s : State) (r : Nat) (g : KvGeo) : rd (rgnReady s r g) R.KPU_RGN_STATUS_STATE r 0 = 2 ∧
    rd (rgnReady s r g) R.KPU_RGN_STATUS_OPEN_SEQ r 0 = 0 := by
  unfold rgnReady
  dsimp only
  refine ⟨?_, ?_⟩
  · rw [rd_wr_self _ _ _ _ _ (by decide)]
    rfl
  · rw [rd_wr_disjoint _ _ _ _ _ _ _ _ (by decide) (by decide), rd_wr_self _ _ _ _ _ (by decide)]
    rfl

end

theorem kpuRgnInitDone_runs {r : RegionIx} {s : State} (h : rd s R.KPU_RGN_STATUS_STATE r 0 = 1) :
    Runs (.kpuRgnInitDone r) s (rgnReady s r (kvGeo s r)) := by
  rw [Runs, exec_kpuRgnInitDone, execKpuRgnInitDone, if_neg (not_not.mpr h)]
  rfl

/-- Set-up ends with an empty region, every page on its owner's list. -/
theorem kpuRgnInitDone_ends {r : RegionIx} {s : State} (h : rd s R.KPU_RGN_STATUS_STATE r 0 = 1) :
    ∃ t, Runs (.kpuRgnInitDone r) s t ∧ rd t R.KPU_RGN_STATUS_STATE r 0 = 2 ∧ rd t R.KPU_RGN_STATUS_OPEN_SEQ r 0 = 0 ∧
      (∀ q, kvSeq t r q = KvSeq.closed) ∧ (∀ k, kvPage t r k = none) ∧
      ∀ u < nu s, kvNear t r u = kvOwn (nu s) u (kvGeo s r).setAside (kvGeo s r).nearN ∧
        kvFar t r u = kvOwn (nu s) u (kvGeo s r).nearN (kvGeo s r).pages := by
  obtain ⟨hstate, hopen⟩ := rgnReady_status s r (kvGeo s r)
  obtain ⟨⟨hseqs, hmap⟩, hnu, hlists⟩ := rgnListed_lists s r (kvGeo s r)
  have hreg := kvReg_congr (rgnReady_kv s r (kvGeo s r)) r
  refine ⟨_, kpuRgnInitDone_runs h, hstate, hopen, fun q => ?_, fun k => ?_, fun u hu => ?_⟩
  · rw [kvSeq, hreg, hseqs]
    rfl
  · rw [kvPage, hreg, hmap]
    rfl
  · obtain ⟨hnear, hfar⟩ := hlists u hu
    rw [hnu] at hnear hfar
    exact ⟨(kvNear_congr (rgnReady_kv s r _) r u).trans hnear, (kvFar_congr (rgnReady_kv s r _) r u).trans hfar⟩

/-! ### The end of a region's removal (R174, R176) -/

/-- Region r is absent: its range is unmapped and nothing of it is left. -/
def rgnGone (s : State) (r : Nat) : State := wr (setKvReg (kvClearRange s (kvGeo s r)) r KvRegion.fresh) R.KPU_RGN_STATUS_STATE r 0 0

/-- No set waits for the removal of region r. -/
def noneWaits (s : State) (r : Nat) : State := { s with kv := { s.kv with waiting := SMap.put (fun _ => []) s.kv.waiting r [] } }

/-- A set that waited for a region's removal is taken, and a valid one starts its set-up. -/
def rgnNext (s : State) (r : Nat) (new : List (Nat × W64)) : State :=
  let s := new.foldl (fun s e => setReg s e.1 e.2) s
  if (kvGeo s r).valid && !new.isEmpty then kvStart s r else s

section
variable {r : RegionIx} {s : State}

theorem kpuRgnDestroyDone_runs (h : rd s R.KPU_RGN_STATUS_STATE r 0 = 3) :
    Runs (.kpuRgnDestroyDone r) s (rgnNext (noneWaits (rgnGone s r) r) r (SMap.look (fun _ => []) (rgnGone s r).kv.waiting r)) := by
  rw [Runs, exec_kpuRgnDestroyDone, execKpuRgnDestroyDone, if_neg (not_not.mpr h)]
  rfl

theorem kvReg_wr (s : State) (f : Fld) (i j v r : Nat) : kvReg (wr s f i j v) r = kvReg s r := rfl

theorem waiting_setKvReg (s : State) (r : Nat) (v : KvRegion) : (setKvReg s r v).kv.waiting = s.kv.waiting := rfl

theorem rgnGone_keeps (s : State) (r : Nat) : AgreeOutside [.mem, .regs, .ms, .kv] s (rgnGone s r) :=
  Agree.step (wr_keeps _ _ _ _ _) rfl (Agree.step (setKvReg_keeps _ _ _) rfl (Agree.mono (kvClearRange_keeps _ _) rfl))

theorem waiting_rgnGone (s : State) (r : Nat) : (rgnGone s r).kv.waiting = s.kv.waiting := by
  rw [rgnGone, wr_kv, waiting_setKvReg, kvClearRange_keeps s (kvGeo s r) .kv (by decide)]

theorem kvReg_rgnGone (s : State) (r : Nat) : kvReg (rgnGone s r) r = KvRegion.fresh := by
  rw [rgnGone, kvReg_wr, kvReg_setKvReg, if_pos rfl]

theorem noneWaits_keeps (s : State) (r : Nat) : AgreeOutside [.kv] s (noneWaits s r) := fun p hp => by
  cases p <;> first | exact absurd (by decide) hp | rfl

theorem kvReg_noneWaits (s : State) (r k : Nat) : kvReg (noneWaits s r) k = kvReg s k := rfl

theorem waiting_noneWaits (s : State) (r : Nat) : SMap.look (fun _ => []) (noneWaits s r).kv.waiting r = [] := by
  rw [noneWaits]
  exact smap_look_put_self (fun _ => []) s.kv.waiting r []

theorem rgnNext_keeps (s : State) (r : Nat) (new : List (Nat × W64)) : AgreeOutside [.regs] s (rgnNext s r new) := by
  have hset : AgreeOutside [.regs] s (new.foldl (fun s e => setReg s e.1 e.2) s) :=
    Agree.foldl (fun u e => setReg_keeps u e.1 e.2) (Agree.refl _ s)
  unfold rgnNext
  dsimp only
  split
  · exact Agree.step (kvStart_keeps _ _) rfl hset
  · exact hset

/-- Removal ends with nothing left, and no set waiting. -/
theorem kpuRgnDestroyDone_ends (h : rd s R.KPU_RGN_STATUS_STATE r 0 = 3) :
    ∃ t, Runs (.kpuRgnDestroyDone r) s t ∧ kvReg t r = KvRegion.fresh ∧ SMap.look (fun _ => []) t.kv.waiting r = [] ∧
      AgreeOutside [.mem, .regs, .ms, .kv] s t := by
  have hnext := rgnNext_keeps (noneWaits (rgnGone s r) r) r (SMap.look (fun _ => []) (rgnGone s r).kv.waiting r)
  have hkv := hnext .kv (by decide)
  refine ⟨_, kpuRgnDestroyDone_runs h, ?_, ?_, ?_⟩
  · rw [kvReg_congr hkv, kvReg_noneWaits, kvReg_rgnGone]
  · rw [hkv, waiting_noneWaits]
  · exact Agree.step hnext rfl (Agree.step (noneWaits_keeps _ _) rfl (rgnGone_keeps s r))

/-- Where no set waits, the region is absent. -/
theorem kpuRgnDestroyDone_absent (h : rd s R.KPU_RGN_STATUS_STATE r 0 = 3) (hnone : SMap.look (fun _ => []) s.kv.waiting r = []) :
    ∃ t, Runs (.kpuRgnDestroyDone r) s t ∧ rd t R.KPU_RGN_STATUS_STATE r 0 = 0 ∧ kvReg t r = KvRegion.fresh ∧
      RegsOutside [R.KPU_RGN_STATUS_STATE.at r 0] s t ∧ AgreeOutside [.mem, .regs, .ms, .kv] s t := by
  have hruns := kpuRgnDestroyDone_runs h
  have hsame : rgnNext (noneWaits (rgnGone s r) r) r [] = noneWaits (rgnGone s r) r := by
    rw [rgnNext, List.foldl_nil, List.isEmpty_nil, Bool.not_true, Bool.and_false, if_neg Bool.false_ne_true]
  rw [waiting_rgnGone, hnone, hsame] at hruns
  have hregs := noneWaits_keeps (rgnGone s r) r .regs (by decide)
  refine ⟨_, hruns, ?_, ?_, fun o ho => ?_, ?_⟩
  · rw [rd, reg_congr hregs, ← rd, rgnGone, rd_wr_self _ _ _ _ _ (by decide)]
    rfl
  · rw [kvReg_noneWaits, kvReg_rgnGone]
  · rw [reg_congr hregs, rgnGone, reg_wr_other _ _ _ _ _ (by simpa using ho)]
    exact reg_congr (Agree.step (setKvReg_keeps _ _ _) rfl (Agree.mono (kvClearRange_keeps s _) rfl) .regs (L := [.mem, .ms, .kv]) (by decide)) o
  · exact Agree.step (noneWaits_keeps _ _) rfl (rgnGone_keeps s r)

end

end Sys2Proof.Proofs
end

section
/-!
PROOFS. The replay of a unit's journal (R196), and with it the regions of the key-value system (R174, R176, R181, R202): O23.
-/
namespace Sys2Proof.Proofs
open Sys2Proof.Machine Sys2Proof.Safety Sys2Proof.Laws

/-! ### A write within one line -/

theorem splitLines_one {pa fuel : Nat} {data : List Byte} (hsome : data ≠ []) (hwithin : pa % 64 + data.length ≤ 64) :
    splitLines (fuel + 1) pa data = [(pa, data)] := by
  obtain ⟨b, bs, rfl⟩ := List.exists_cons_of_ne_nil hsome
  have hall : min (b :: bs).length (64 - pa % 64) = (b :: bs).length := by omega
  have hrest : ∀ a, splitLines fuel a [] = [] := fun a => by cases fuel <;> rfl
  rw [splitLines, hall, List.take_length, List.drop_length, hrest]
  exact List.cons_ne_nil b bs

/-- A write within one line that is not lost is one write. -/
theorem landMem_within {s : State} {pa : Nat} {data : List Byte} (bad : Bool) (h : writeLost s pa = false) (hsome : data ≠ [])
    (hwithin : pa % 64 + data.length ≤ 64) : landMem s pa data bad = { s with mem := memWrite s.mem pa data bad } := by
  rw [landMem, splitLines_one hsome hwithin, List.foldl_cons, List.foldl_nil, if_neg (by rw [h]; decide)]

/-! ### The replay (R196) -/

section
variable {u : Nat} {s t : State}

theorem length_wordsBytes (ws : List W64) : (wordsBytes ws).length = ws.length * 8 := by simp [wordsBytes, leBytes, List.length_flatMap]

/-- Regions that are not ready have nothing to replay. -/
theorem replayRegion_idle {r : Nat} (h : rd s R.KPU_RGN_STATUS_STATE r 0 ≠ 2) (mine : Nat → Bool) : replayRegion s r mine = s := by
  rw [replayRegion, if_pos h]

/-- One sequence of a ready region whose unit replays: its record is written again. -/
theorem replayRegion_record {r q pa : Nat} {x : KvSeq} {mine : Nat → Bool} (hstate : rd s R.KPU_RGN_STATUS_STATE r 0 = 2)
    (hseqs : (kvReg s r).seqs = [(q, x)]) (hmine : mine (kvUnit s q) = true)
    (hpa : Machine.translate s none (kvGeo s r).part ((kvGeo s r).seqtab + 64 * q) true false = .ok pa) :
    replayRegion s r mine = landMem s pa (wordsBytes (x.words (stackOfRank s (kvUnit s q)))) false := by
  have hseq : kvSeq s r q = x := by rw [kvSeq, hseqs, SMap.look, if_pos rfl]
  rw [replayRegion, if_neg (not_not.mpr hstate)]
  dsimp only
  rw [hseqs, List.map_cons, List.map_nil, List.foldl_cons, List.foldl_nil, if_neg (by rw [hmine]; decide), hpa]
  dsimp only
  rw [hseq]

/-- The regions that the replay of the unit of stack u goes through. -/
def replayed (s : State) (u : Nat) : State :=
  (List.range 64).foldl (fun s r => replayRegion s r (fun k => decide (stackOfRank s k = u))) s

theorem replayed_keeps (s : State) (u : Nat) : AgreeOutside [.mem] s (replayed s u) :=
  Agree.foldl (fun v r => replayRegion_keeps v r _) (Agree.refl _ s)

theorem replayed_idle (h : ∀ k < 64, rd s R.KPU_RGN_STATUS_STATE k 0 ≠ 2) (u : Nat) : replayed s u = s :=
  List.foldlRecOn (motive := fun v => v = s) _ _ rfl (fun v hv k hk => by
    rw [hv]
    exact replayRegion_idle (h k (List.mem_range.mp hk)) _)

/-- Where one region is ready, only its replay does anything. -/
theorem replayed_one {r : Nat} (hr : r < 64) (h : ∀ k < 64, rd s R.KPU_RGN_STATUS_STATE k 0 = 2 ↔ k = r) (u : Nat) :
    replayed s u = replayRegion s r (fun k => decide (stackOfRank s k = u)) := by
  have hkeeps := replayRegion_keeps s r (fun k => decide (stackOfRank s k = u))
  have hpart : ∀ n ≤ 64, (List.range n).foldl (fun s r => replayRegion s r (fun k => decide (stackOfRank s k = u))) s =
      if r < n then replayRegion s r (fun k => decide (stackOfRank s k = u)) else s := by
    intro n hn
    induction n with
    | zero => rfl
    | succ n ih =>
      have hother : n ≠ r → rd s R.KPU_RGN_STATUS_STATE n 0 ≠ 2 := fun hne hready => hne ((h n hn).mp hready)
      rw [List.range_succ, List.foldl_append, List.foldl_cons, List.foldl_nil, ih (by omega)]
      rcases Nat.lt_trichotomy r n with hlt | heq | hgt
      · rw [if_pos hlt, if_pos (by omega)]
        refine replayRegion_idle ?_ _
        rw [rd, reg_congr (hkeeps .regs (by decide)), ← rd]
        exact hother (by omega)
      · rw [heq, if_neg (Nat.lt_irrefl n), if_pos (Nat.lt_succ_self n)]
      · rw [if_neg (by omega), if_neg (by omega)]
        exact replayRegion_idle (hother (by omega)) _
  exact (hpart 64 (Nat.le_refl 64)).trans (if_pos hr)

end

section
variable {u : StackIx} {s : State}

/-- A unit that replays is ready after it. -/
def unitReady (s : State) (u : Nat) : State := wr (replayed s u) R.KPU_UNIT_STATUS_STATE u 0 1

theorem kpuJournalReplay_runs (h : rd s R.KPU_UNIT_STATUS_STATE u 0 = 2) : Runs (.kpuJournalReplay u) s (unitReady s u) := by
  rw [Runs, exec_kpuJournalReplay, execKpuJournalReplay, if_neg (not_not.mpr h)]
  rfl

theorem unitReady_writes (s : State) (u : Nat) : rd (unitReady s u) R.KPU_UNIT_STATUS_STATE u 0 = 1 ∧
    RegsOutside [R.KPU_UNIT_STATUS_STATE.at u 0] s (unitReady s u) ∧ AgreeOutside [.mem, .regs] s (unitReady s u) := by
  have hkeeps := replayed_keeps s u
  refine ⟨?_, fun o ho => ?_, Agree.step (wr_keeps _ _ _ _ _) rfl (Agree.mono hkeeps rfl)⟩
  · rw [unitReady, rd_wr_self _ _ _ _ _ (by decide)]
    rfl
  · rw [unitReady, reg_wr_other _ _ _ _ _ (by simpa using ho), reg_congr (hkeeps .regs (by decide))]

/-- The record of the one sequence that replays stands in memory. -/
theorem unitReady_record {r : RegionIx} {q pa : Nat} {x : KvSeq} (hone : ∀ k < 64, rd s R.KPU_RGN_STATUS_STATE k 0 = 2 ↔ k = r.val)
    (hseqs : (kvReg s r).seqs = [(q, x)]) (hmine : stackOfRank s (kvUnit s q) = u.val)
    (hpa : Machine.translate s none (kvGeo s r).part ((kvGeo s r).seqtab + 64 * q) true false = .ok pa) (halign : pa % 64 = 0)
    (hlost : writeLost s pa = false) : kvSeq (unitReady s u) r q = x ∧ memRead (unitReady s u).mem pa 64 = wordsBytes (x.words u) ∧
      MemOutside pa 64 s (unitReady s u) := by
  have hlen : (wordsBytes (x.words u)).length = 64 := by rw [length_wordsBytes]; rfl
  have hland : replayed s u = { s with mem := memWrite s.mem pa (wordsBytes (x.words u)) false } := by
    rw [replayed_one r.isLt hone, replayRegion_record ((hone r r.isLt).mpr rfl) hseqs (decide_eq_true hmine) hpa, hmine,
      landMem_within false hlost (List.ne_nil_of_length_pos (by omega)) (by omega)]
  have hmem : (unitReady s u).mem = memWrite s.mem pa (wordsBytes (x.words u)) false := by rw [unitReady, wr_mem, hland]
  have hkv : (unitReady s u).kv = s.kv := (unitReady_writes s u).2.2 .kv (by decide)
  refine ⟨?_, ?_, fun k hk => ?_⟩
  · rw [kvSeq_congr hkv, kvSeq, hseqs, SMap.look, if_pos rfl]
  · have hread := memRead_memWrite_self s.mem pa (wordsBytes (x.words u)) false
    rw [hlen] at hread
    rw [hmem, hread]
  · rw [hmem, memByte_memWrite, if_neg (by omega)]

end

/-- Settles O23: commits through the physical function case by case; set-up and removal stage by stage; a replay writes again the
records of the ready regions' sequences. -/
theorem kvRegions : Obligations.KvRegions := by
  refine ⟨fun r s hvalid hwas hstate h1 h2 h3 h4 => kpuRgnCommit_starts hvalid hwas hstate h1 h2 h3 h4,
    fun r s hset hwas h1 hstate hopen => ⟨_, kpuRgnCommit_removes hset hwas h1 hstate hopen, rgnRemoved_writes s r⟩,
    fun r s hrej h1 => kpuRgnCommit_refuses hrej h1, fun r s h => kpuRgnInitDone_ends h, fun r s h hnone => kpuRgnDestroyDone_absent h hnone,
    fun r s h => kpuRgnDestroyDone_ends h, fun u s h => ?_, fun u r q pa x s h hone hseqs hmine hpa halign hlost => ?_⟩
  · obtain ⟨hready, hregs, hparts⟩ := unitReady_writes s u
    exact ⟨_, kpuJournalReplay_runs h, hready, hregs, hparts, fun hidle => by rw [unitReady, wr_mem, replayed_idle hidle]⟩
  · exact ⟨_, kpuJournalReplay_runs h, unitReady_record hone hseqs hmine hpa halign hlost⟩

end Sys2Proof.Proofs
end
